-- ==== Sys2Proof/Word.lean ====
section
/-!
DEFINITION. The words of the model: a byte, a 32-bit word, and a byte string. Byte 0 of a byte string is the byte that
comes first on the wire and at the lowest address (R15).
-/
namespace Sys2Proof

/-- One byte. -/
abbrev Byte := BitVec 8

/-- One Clove data register, one register of a block, one lane word: 32 bits. -/
abbrev Word := BitVec 32

/-- A byte string, first byte first (R15). -/
abbrev Bytes := List Byte

/-- A byte from a number, keeping its low eight bits. -/
abbrev byte (n : Nat) : Byte := BitVec.ofNat 8 n

/-- A word from a number, keeping its low 32 bits. -/
abbrev word (n : Nat) : Word := BitVec.ofNat 32 n

end Sys2Proof
end

