-- ==== Sys2Proof/Syntax.lean ====
section
/-!
DEFINITION. The commands of the device: one constructor of `Instr` for each row of the opcode table, with the row's
operands. A command is what reaches the device from outside one of its blocks, or an event of one of its own agents: a
dictionary request, a frame, a pin event, one Clove or classifier instruction, the arrival of an instant.
-/
namespace Sys2Proof

/-- The transports of the dictionary (R68). -/
inductive Transport where
  | mge
  | mailbox
  | ms0
  | ms1
  deriving DecidableEq, Repr

/-- A dictionary request message (R68) as it reaches the server, its opcode apart (the row gives it; `badOp` is the OP byte where it
is none that Opcodes lists). `tag` holds the bytes after DATA where TAG is set. The carrier gives the rest: on MGE the source and
destination addresses (IPv4 ones mapped) and UDP ports `src` and `dst`, and `bad` marks a datagram that came in fragments (R74); on MS
the target address `addr`, the framed length `flen` and the CRC-16 `crc` (R76). -/
structure Req where
  tr : Transport
  src : BitVec 144
  dst : BitVec 144
  bad : Bool
  addr : BitVec 7
  flen : BitVec 16
  crc : BitVec 16
  badOp : Option Byte
  ver : Byte
  flags : Byte
  status : Byte
  session : BitVec 32
  seq : BitVec 32
  index : BitVec 16
  sub : Byte
  rsv : Byte
  offset : BitVec 32
  length : BitVec 16
  data : Bytes
  tag : Bytes
  deriving DecidableEq, Repr

/-- A frame of the management Ethernet port other than a dictionary datagram (R74). -/
inductive MgeFrame where
  | arp (target : BitVec 32)
  | neighbour (target : BitVec 128)
  | echo4 (target : BitVec 32) (body : Bytes)
  | echo6 (target : BitVec 128) (body : Bytes)
  | fragment
  | other
  deriving DecidableEq, Repr

/-- One fabric access (R30, R681): initiator, 40-bit address, write data with its size in bytes, or a read of so many
bytes. -/
structure FabAccess where
  ini : Byte
  addr : BitVec 40
  write : Bool
  fetch : Bool
  len : Nat
  data : Bytes
  deriving DecidableEq, Repr

/-- An instruction's place and guard (R313, R327): the core that issues it at its PC, 0-63 that of a lane and 64 the supervisor,
the guard's inversion PN and the guard predicate PG. -/
structure Issue where
  core : Fin 65
  pn : Bool
  pg : Fin 8
  deriving DecidableEq, Repr

/-- What the physical tests of the key die report at bring-up (R411, R754): the failed self-tests in the bits of 8802:06, whether an
attempt regenerated the PUF key, the attempts made and the bits corrected, the helper copy whose digest matched, and whether
the other copy had to be rewritten. -/
structure KeyDieResult where
  tests : Byte
  good : Bool
  attempts : Fin 4
  corrected : BitVec 16
  copy : Fin 2
  rewrite : Bool
  deriving DecidableEq, Repr

/-- An Ethernet frame at a transaction port (R121): addresses, 802.1Q tag, EtherType, payload, and the received FCS where it
is wrong. -/
structure Frame where
  dst : BitVec 48
  src : BitVec 48
  tci : Option (BitVec 16)
  etype : BitVec 16
  payload : Bytes
  badFcs : Option Word
  deriving DecidableEq, Repr

/-- A TCP segment that reached a port's engine (R125): source address, IPv4 addresses as IPv4-mapped IPv6; source MAC address and VLAN tag of the
frame that brought it. -/
structure TcpSeg where
  src : BitVec 128
  sport : BitVec 16
  dport : BitVec 16
  seq : Word
  ack : Word
  flags : Byte
  wnd : BitVec 16
  mss : Option (BitVec 16)
  wscale : Option Byte
  sackOk : Bool
  tstamp : Option Word
  sacks : List (Word × Word)
  data : Bytes
  mac : BitVec 48 := 0
  tci : Option (BitVec 16) := none
  deriving DecidableEq, Repr

/-- What a fetch of a submission entry from host memory brings (R166). -/
structure SqFetch where
  msgid : BitVec 64
  req : BitVec 64
  len : BitVec 16
  dl : BitVec 16
  rsp : BitVec 64
  size : BitVec 16
  deriving DecidableEq, Repr

/-- The fields of a classifier instruction (R140), and the context that executes it: a source 0-35 and one of its eight
contexts. -/
structure ClsI where
  src : Fin 36
  ctx : Fin 8
  a : Fin 8
  b : Fin 8
  imm : BitVec 20
  deriving DecidableEq, Repr

/-- A unit of the continuous self-test (R757): a lane, a spare, cluster unit `u` of a quad (AES-0, AES-1, TDES, Saffron,
hash), a public-key engine. -/
inductive TestUnit where
  | lane (l : Fin 64)
  | spare (k : Fin 4)
  | cluster (q : Fin 16) (u : Fin 5)
  | engine (e : Fin 24)
  deriving DecidableEq, Repr

/-- How a test slice ends (R760): it passes or not, and the corrected errors that its memory pass found (R277). -/
structure SliceResult where
  pass : Bool
  corrected : Nat
  deriving DecidableEq, Repr

/-- A bank whose load is acknowledged (R290): `copyOk`, the supervisor's copy of each image matched its installed digest when
placed (R393). -/
structure BankCopy where
  bank : Fin 2
  copyOk : Bool
  deriving DecidableEq, Repr

/-- A card whose wait time passes (R571), and the extension that the card had asked for, in ns. -/
structure CardWait where
  card : Fin 4
  wtx : Nat
  deriving DecidableEq, Repr

/-- The index of a wake from DEEP (R723), and the domains that fail their power-up in it. -/
structure DeepRise where
  idx : Nat
  failed : BitVec 33
  deriving DecidableEq, Repr

/-- What the ECC of an array read found (R777): an uncorrectable error, a corrected one. -/
structure ArrayErrors where
  bad : Bool
  corrected : Bool
  deriving DecidableEq, Repr

/-- The commands, one constructor for each row of the opcode table. -/
inductive Instr where
  /-- DICT_READ (R70). -/
  | dictRead (r : Req)
  /-- DICT_WRITE (R72). -/
  | dictWrite (r : Req)
  /-- DICT_DEFAULT (R117). -/
  | dictDefault (r : Req)
  /-- DICT_COMMIT (R96). -/
  | dictCommit (r : Req)
  /-- SESSION_OPEN (R82). -/
  | sessionOpen (r : Req)
  /-- SESSION_AUTH (R84). -/
  | sessionAuth (r : Req)
  /-- SESSION_CLOSE (R113). -/
  | sessionClose (r : Req)
  /-- KEEPALIVE (R90). -/
  | keepalive (r : Req)
  /-- HALF_OPEN_TIMEOUT (R85). -/
  | halfOpenTimeout
  /-- SESSION_IDLE_TIMEOUT (R90). -/
  | sessionIdleTimeout
  /-- MGE_ARP_ICMP (R74). -/
  | mgeArpIcmp (f : MgeFrame)
  /-- LONGOP_START (R101). -/
  | longopStart (slot : Byte)
  /-- LONGOP_ABORT (R102). -/
  | longopAbort (r : Req) (slot : Byte)
  /-- LONGOP_RELEASE (R102). -/
  | longopRelease (r : Req) (slot : Byte)
  /-- LONGOP_AUTO_RELEASE (R102). -/
  | longopAutoRelease (slot : Byte)
  /-- FRAME_RECEIVE (R121). -/
  | frameReceive (p : Fin 32) (f : Frame)
  /-- WAKE_FRAME (R132). -/
  | wakeFrame (p : Fin 32) (f : Frame)
  /-- TCP_SEGMENT_RECEIVE (R125). -/
  | tcpSegmentReceive (p : Fin 32) (g : TcpSeg)
  /-- TCP_RETRANSMIT_TIMEOUT (R125). -/
  | tcpRetransmitTimeout (p : Fin 32)
  /-- TCP_KEEPALIVE_TIMER (R126). -/
  | tcpKeepaliveTimer (p : Fin 32)
  /-- TCP_ZERO_WINDOW_PROBE (R126). -/
  | tcpZeroWindowProbe (p : Fin 32)
  /-- TCP_TIME_WAIT_EXPIRY (R126). -/
  | tcpTimeWaitExpiry (p : Fin 32)
  /-- TCP_RECONNECT_TIMER (R125). -/
  | tcpReconnectTimer (p : Fin 32)
  /-- CLASSIFIER_CONTEXT_START (R135). -/
  | classifierContextStart (src : Fin 36)
  /-- CLASSIFIER_STOP (R136). -/
  | classifierStop (src : Fin 36) (ctx : Fin 8)
  /-- CLS_NOP (R140). -/
  | clsNop (i : ClsI)
  /-- CLS_LDB (R140). -/
  | clsLdb (i : ClsI)
  /-- CLS_LDH (R140). -/
  | clsLdh (i : ClsI)
  /-- CLS_LDW (R140). -/
  | clsLdw (i : ClsI)
  /-- CLS_LDF (R140). -/
  | clsLdf (i : ClsI)
  /-- CLS_NUM (R140). -/
  | clsNum (i : ClsI)
  /-- CLS_NUMB (R140). -/
  | clsNumb (i : ClsI)
  /-- CLS_MOVI (R140). -/
  | clsMovi (i : ClsI)
  /-- CLS_MOVHI (R140). -/
  | clsMovhi (i : ClsI)
  /-- CLS_ADD (R140). -/
  | clsAdd (i : ClsI)
  /-- CLS_ADDR (R140). -/
  | clsAddr (i : ClsI)
  /-- CLS_AND (R140). -/
  | clsAnd (i : ClsI)
  /-- CLS_OR (R140). -/
  | clsOr (i : ClsI)
  /-- CLS_SHR (R140). -/
  | clsShr (i : ClsI)
  /-- CLS_SHL (R140). -/
  | clsShl (i : ClsI)
  /-- CLS_BEQ (R140). -/
  | clsBeq (i : ClsI)
  /-- CLS_BNE (R140). -/
  | clsBne (i : ClsI)
  /-- CLS_BLT (R140). -/
  | clsBlt (i : ClsI)
  /-- CLS_BGE (R140). -/
  | clsBge (i : ClsI)
  /-- BMW (R141). -/
  | bmw (i : ClsI)
  /-- RULE (R144). -/
  | rule (i : ClsI)
  /-- SETC (R140). -/
  | setc (i : ClsI)
  /-- SETDL (R140). -/
  | setdl (i : ClsI)
  /-- SETF (R140). -/
  | setf (i : ClsI)
  /-- SETK (R140). -/
  | setk (i : ClsI)
  /-- SETID (R140). -/
  | setid (i : ClsI)
  /-- EMIT (R140). -/
  | emit (i : ClsI)
  /-- REJECT (R140). -/
  | reject (i : ClsI)
  /-- DROP (R140). -/
  | drop (i : ClsI)
  /-- BYPASS_FORWARD (R159). -/
  | bypassForward (p : Fin 32) (f : Frame)
  /-- TRANSMIT_FRAME_SELECT (R157). -/
  | transmitFrameSelect (p : Fin 32)
  /-- RESULT_HEADER_ARRIVAL (R239). -/
  | resultHeaderArrival (die : Fin 2)
  /-- PORT_SWEEP (R163). -/
  | portSweep (src : Fin 36)
  /-- PORT_LINK_UP (R713). -/
  | portLinkUp (p : Fin 32)
  /-- PORT_LINK_DOWN (R174). -/
  | portLinkDown (p : Fin 32)
  /-- HOST_SQ_TAIL_WRITE (R166). -/
  | hostSqTailWrite (q : Fin 4) (tail : BitVec 14) (es : List SqFetch)
  /-- HOST_REQUEST_ARRIVAL (R166). -/
  | hostRequestArrival (q : Fin 4) (body : Bytes)
  /-- HPQ_QUEUE_ENABLE (R168). -/
  | hpqQueueEnable (q : Fin 5)
  /-- HPQ_QUEUE_DISABLE (R178). -/
  | hpqQueueDisable (q : Fin 5)
  /-- PE_PERST (R809). -/
  | pePerst (high : Bool)
  /-- CLASSIFIER_INSTALL (R171). -/
  | classifierInstall (r : Req) (k : Fin 16)
  /-- ADMISSION_TEST (R199). -/
  | admissionTest (die : Fin 2)
  /-- BODY_MOVE_DONE (R270). -/
  | bodyMoveDone (lane : Fin 64) (slot : Fin 32)
  /-- RUN_START (R191). -/
  | runStart (lane : Fin 64)
  /-- OVERRUN_STOP (R209). -/
  | overrunStop (lane : Fin 64)
  /-- LANE_FENCE (R211). -/
  | laneFence (lane : Fin 64) (cause : Fin 7)
  /-- SPARE_TILE_SWITCH (R292). -/
  | spareTileSwitch (k : Fin 4)
  /-- SPARE_FAIL (R295). -/
  | spareFail (k : Fin 4)
  /-- QUAD_WAKE_CHARGE_EXPIRY (R212). -/
  | quadWakeChargeExpiry (q : Fin 16)
  /-- PK_ENGINE_FENCE (R213). -/
  | pkEngineFence (e : Fin 24) (cause : Fin 7)
  /-- SELFTEST_CLAIM (R206). -/
  | selftestClaim (u : TestUnit)
  /-- SELFTEST_SLICE_START (R206). -/
  | selftestSliceStart (u : TestUnit)
  /-- SELFTEST_SLICE_END (R760). -/
  | selftestSliceEnd (u : TestUnit) (r : SliceResult)
  /-- SELFTEST_CLAIM_WITHDRAW (R758). -/
  | selftestClaimWithdraw (q : Fin 16)
  /-- SELFTEST_SCHEDULE (R759). -/
  | selftestSchedule
  /-- EPOCH_CHANGE_REQUEST (R218). -/
  | epochChangeRequest (r : Req)
  /-- EPOCH_LOAD_START (R221). -/
  | epochLoadStart
  /-- EPOCH_ACK_TIMEOUT (R219). -/
  | epochAckTimeout
  /-- EPOCH_FLIP (R218). -/
  | epochFlip
  /-- COLLECTOR_ACCEPT (R236). -/
  | collectorAccept (die : Fin 2)
  /-- AUDIT_BLOCK_CLOSE (R245). -/
  | auditBlockClose (die : Fin 2)
  /-- AUDIT_CHUNK_WRITE (R253). -/
  | auditChunkWrite (die : Fin 2)
  /-- AUDIT_SYSRESET_CLOSE (R256). -/
  | auditSysresetClose (die : Fin 2)
  /-- AUDIT_ERASE_CLOSE (R257). -/
  | auditEraseClose (die : Fin 2)
  /-- FRAME_SLOT_FREE (R271). -/
  | frameSlotFree (lane : Fin 64) (slot : Fin 32)
  /-- LANE_TIMER_EXPIRY (R283). -/
  | laneTimerExpiry (lane : Fin 64) (k : Fin 4)
  /-- LANE_TIMER_CONFIG (R283). -/
  | laneTimerConfig (lane : Fin 64) (k : Fin 4) (v : Word)
  /-- TEVT_CLEAR (R284). -/
  | tevtClear (lane : Fin 64) (v : Word)
  /-- MBXI_POST (R286). -/
  | mbxiPost (lane : Fin 64)
  /-- MBXI_ACK (R286). -/
  | mbxiAck (lane : Fin 64)
  /-- MBXO_POST (R286). -/
  | mbxoPost (lane : Fin 64)
  /-- MBXO_ACK (R286). -/
  | mbxoAck (lane : Fin 64)
  /-- BANK_LOAD (R290). -/
  | bankLoad (lane : Fin 64) (b : Fin 2)
  /-- BANK_ACK (R290, R393). -/
  | bankAck (lane : Fin 64) (b : BankCopy)
  /-- BANK_DISCARD (R290). -/
  | bankDiscard (lane : Fin 64) (b : Fin 2)
  /-- LANE_FENCE_REQUEST (R298). -/
  | laneFenceRequest (via : Option Req) (lane : Fin 64)
  /-- LANE_UNFENCE (R298). -/
  | laneUnfence (via : Option Req) (lane : Fin 64)
  /-- MEMORY_UNCORRECTABLE (R277). -/
  | memoryUncorrectable (lane : Fin 64) (shared : Bool)
  /-- CACHE_REMOVAL (R281). -/
  | cacheRemoval
  /-- NOP (R339). -/
  | nop (i : Issue)
  /-- TRAP (R339). -/
  | trap (i : Issue) (info : Byte)
  /-- WBSYNC (R339). -/
  | wbsync (i : Issue)
  /-- MFC (R339). -/
  | mfc (i : Issue) (d : Fin 16) (cr : Fin 64)
  /-- MTC (R339). -/
  | mtc (i : Issue) (d : Fin 16) (cr : Fin 64)
  /-- ADD (R331). -/
  | add (i : Issue) (rd rs1 rs2 : Fin 16)
  /-- SUB (R331). -/
  | sub (i : Issue) (rd rs1 rs2 : Fin 16)
  /-- ADDC (R331). -/
  | addc (i : Issue) (rd rs1 rs2 : Fin 16)
  /-- SUBB (R331). -/
  | subb (i : Issue) (rd rs1 rs2 : Fin 16)
  /-- AND (R331). -/
  | and (i : Issue) (rd rs1 rs2 : Fin 16)
  /-- OR (R331). -/
  | or (i : Issue) (rd rs1 rs2 : Fin 16)
  /-- XOR (R331). -/
  | xor (i : Issue) (rd rs1 rs2 : Fin 16)
  /-- ANDN (R331). -/
  | andn (i : Issue) (rd rs1 rs2 : Fin 16)
  /-- SLL (R331). -/
  | sll (i : Issue) (rd rs1 rs2 : Fin 16)
  /-- SRL (R331). -/
  | srl (i : Issue) (rd rs1 rs2 : Fin 16)
  /-- SRA (R331). -/
  | sra (i : Issue) (rd rs1 rs2 : Fin 16)
  /-- ROR (R331). -/
  | ror (i : Issue) (rd rs1 rs2 : Fin 16)
  /-- MIN (R331). -/
  | min (i : Issue) (rd rs1 rs2 : Fin 16)
  /-- MAX (R331). -/
  | max (i : Issue) (rd rs1 rs2 : Fin 16)
  /-- MINU (R331). -/
  | minu (i : Issue) (rd rs1 rs2 : Fin 16)
  /-- MAXU (R331). -/
  | maxu (i : Issue) (rd rs1 rs2 : Fin 16)
  /-- MUL (R331). -/
  | mul (i : Issue) (rd rs1 rs2 : Fin 16)
  /-- MULH (R331). -/
  | mulh (i : Issue) (rd rs1 rs2 : Fin 16)
  /-- MULHU (R331). -/
  | mulhu (i : Issue) (rd rs1 rs2 : Fin 16)
  /-- DIVU (R331). -/
  | divu (i : Issue) (rd rs1 rs2 : Fin 16)
  /-- REMU (R331). -/
  | remu (i : Issue) (rd rs1 rs2 : Fin 16)
  /-- CLZ (R331). -/
  | clz (i : Issue) (rd rs1 : Fin 16)
  /-- POPC (R331). -/
  | popc (i : Issue) (rd rs1 : Fin 16)
  /-- BSWAP (R331). -/
  | bswap (i : Issue) (rd rs1 : Fin 16)
  /-- SEL (R331). -/
  | sel (i : Issue) (rd rs1 rs2 : Fin 16) (ps : Fin 8)
  /-- MOV (R331). -/
  | mov (i : Issue) (rd rs1 : Fin 16)
  /-- ADDI (R333). -/
  | addi (i : Issue) (rd rs1 : Fin 16) (imm : BitVec 14)
  /-- ANDI (R333). -/
  | andi (i : Issue) (rd rs1 : Fin 16) (imm : BitVec 14)
  /-- ORI (R333). -/
  | ori (i : Issue) (rd rs1 : Fin 16) (imm : BitVec 14)
  /-- XORI (R333). -/
  | xori (i : Issue) (rd rs1 : Fin 16) (imm : BitVec 14)
  /-- SHI_SLL (R333). -/
  | shiSll (i : Issue) (rd rs1 : Fin 16) (pos : Fin 32)
  /-- SHI_SRL (R333). -/
  | shiSrl (i : Issue) (rd rs1 : Fin 16) (pos : Fin 32)
  /-- SHI_SRA (R333). -/
  | shiSra (i : Issue) (rd rs1 : Fin 16) (pos : Fin 32)
  /-- SHI_ROR (R333). -/
  | shiRor (i : Issue) (rd rs1 : Fin 16) (pos : Fin 32)
  /-- SHI_EXTU (R333). -/
  | shiExtu (i : Issue) (rd rs1 : Fin 16) (pos wm1 : Fin 32)
  /-- SHI_EXTS (R333). -/
  | shiExts (i : Issue) (rd rs1 : Fin 16) (pos wm1 : Fin 32)
  /-- SHI_INS (R333). -/
  | shiIns (i : Issue) (rd rs1 : Fin 16) (pos wm1 : Fin 32)
  /-- MOVI (R333). -/
  | movi (i : Issue) (rd : Fin 16) (imm : BitVec 18)
  /-- MOVH (R333). -/
  | movh (i : Issue) (rd : Fin 16) (imm : BitVec 16)
  /-- CMP (R334). -/
  | cmp (i : Issue) (pd pdn : Fin 8) (cond rs1 rs2 : Fin 16)
  /-- CMPI (R334). -/
  | cmpi (i : Issue) (pd pdn : Fin 8) (cond rs1 : Fin 16) (imm : Byte)
  /-- PLOG_AND (R334). -/
  | plogAnd (i : Issue) (pd pa pb : Fin 8) (na nb : Bool)
  /-- PLOG_OR (R334). -/
  | plogOr (i : Issue) (pd pa pb : Fin 8) (na nb : Bool)
  /-- PLOG_XOR (R334). -/
  | plogXor (i : Issue) (pd pa pb : Fin 8) (na nb : Bool)
  /-- PLOG_MOV (R334). -/
  | plogMov (i : Issue) (pd pa : Fin 8) (na : Bool)
  /-- LD (R335). -/
  | ld (i : Issue) (d : Fin 16) (a : Fin 8) (sz : Fin 4) (bsel : Bool) (mode : Fin 4) (sx : Bool) (off : BitVec 9)
  /-- ST (R335). -/
  | st (i : Issue) (d : Fin 16) (a : Fin 8) (sz : Fin 4) (bsel : Bool) (mode : Fin 4) (off : BitVec 9)
  /-- WRITE_BUFFER_ENTRY_COMPLETE (R318). -/
  | writeBufferEntryComplete (lane : Fin 64)
  /-- AI (R336). -/
  | ai (i : Issue) (a : Fin 8) (imm : BitVec 16)
  /-- AADDI (R336). -/
  | aaddi (i : Issue) (a : Fin 8) (imm : BitVec 16)
  /-- AMOV (R336). -/
  | amov (i : Issue) (a : Fin 8) (ds : Fin 16)
  /-- AREAD (R336). -/
  | aread (i : Issue) (a : Fin 8) (dd : Fin 16)
  /-- AADD (R336). -/
  | aadd (i : Issue) (a : Fin 8) (ds : Fin 16)
  /-- BR (R337). -/
  | br (i : Issue) (off : BitVec 16)
  /-- CALL (R337). -/
  | call (i : Issue) (off : BitVec 16)
  /-- JR (R337). -/
  | jr (i : Issue) (ds : Fin 16)
  /-- CALLR (R337). -/
  | callr (i : Issue) (ds : Fin 16)
  /-- RET (R337). -/
  | ret (i : Issue)
  /-- LOOP (R321). -/
  | loop (i : Issue) (ds : Fin 16) (off : BitVec 16)
  /-- LOOPI (R321). -/
  | loopi (i : Issue) (count : BitVec 12) (off : BitVec 10)
  /-- PUSH (R326). -/
  | push (i : Issue) (r : Fin 16)
  /-- POP (R326). -/
  | pop (i : Issue) (r : Fin 16)
  /-- PUSHA (R326). -/
  | pusha (i : Issue) (r : Fin 8)
  /-- POPA (R326). -/
  | popa (i : Issue) (r : Fin 8)
  /-- PUSHM (R326). -/
  | pushm (i : Issue) (mask : BitVec 16)
  /-- POPM (R326). -/
  | popm (i : Issue) (mask : BitVec 16)
  /-- MAC (R338). -/
  | mac (i : Issue) (ac : Fin 4) (ds dt : Fin 16)
  /-- MACU (R338). -/
  | macu (i : Issue) (ac : Fin 4) (ds dt : Fin 16)
  /-- MSU (R338). -/
  | msu (i : Issue) (ac : Fin 4) (ds dt : Fin 16)
  /-- ACLR (R338). -/
  | aclr (i : Issue) (ac : Fin 4)
  /-- ACSRA (R338). -/
  | acsra (i : Issue) (ac : Fin 4) (n : BitVec 7)
  /-- ACRD (R338). -/
  | acrd (i : Issue) (ac : Fin 4) (dd : Fin 16) (part : BitVec 9)
  /-- ACWR (R338). -/
  | acwr (i : Issue) (ac : Fin 4) (ds : Fin 16)
  /-- ACADD (R338). -/
  | acadd (i : Issue) (ac : Fin 4) (ds : Fin 16)
  /-- AES_ECB_E (R364). -/
  | aesEcbE (i : Issue) (k : Fin 4) (sa : Fin 8) (sb : Bool) (da : Fin 8) (db : Bool) (dn : Fin 16)
  /-- AES_ECB_D (R364). -/
  | aesEcbD (i : Issue) (k : Fin 4) (sa : Fin 8) (sb : Bool) (da : Fin 8) (db : Bool) (dn : Fin 16)
  /-- AES_CBC_E (R364). -/
  | aesCbcE (i : Issue) (k : Fin 4) (sa : Fin 8) (sb : Bool) (da : Fin 8) (db : Bool) (dn : Fin 16)
  /-- AES_CBC_D (R364). -/
  | aesCbcD (i : Issue) (k : Fin 4) (sa : Fin 8) (sb : Bool) (da : Fin 8) (db : Bool) (dn : Fin 16)
  /-- AES_CTR (R364). -/
  | aesCtr (i : Issue) (k : Fin 4) (sa : Fin 8) (sb : Bool) (da : Fin 8) (db : Bool) (dn : Fin 16)
  /-- AES_CMAC_G (R366). -/
  | aesCmacG (i : Issue) (k : Fin 4) (sa : Fin 8) (sb : Bool) (da : Fin 8) (db : Bool) (dn : Fin 16)
  /-- AES_CMAC_V (R364). -/
  | aesCmacV (i : Issue) (k : Fin 4) (sa : Fin 8) (sb : Bool) (da : Fin 8) (db : Bool) (dn : Fin 16) (pd : Fin 8)
  /-- AES_GHKEY (R365). -/
  | aesGhkey (i : Issue) (k : Fin 4)
  /-- TDES_ECB_E (R364). -/
  | tdesEcbE (i : Issue) (k : Fin 4) (sa : Fin 8) (sb : Bool) (da : Fin 8) (db : Bool) (dn : Fin 16)
  /-- TDES_ECB_D (R364). -/
  | tdesEcbD (i : Issue) (k : Fin 4) (sa : Fin 8) (sb : Bool) (da : Fin 8) (db : Bool) (dn : Fin 16)
  /-- TDES_CBC_E (R364). -/
  | tdesCbcE (i : Issue) (k : Fin 4) (sa : Fin 8) (sb : Bool) (da : Fin 8) (db : Bool) (dn : Fin 16)
  /-- TDES_CBC_D (R364). -/
  | tdesCbcD (i : Issue) (k : Fin 4) (sa : Fin 8) (sb : Bool) (da : Fin 8) (db : Bool) (dn : Fin 16)
  /-- TDES_MAC1_G (R365). -/
  | tdesMac1G (i : Issue) (k : Fin 4) (sa : Fin 8) (sb : Bool) (da : Fin 8) (db : Bool) (dn : Fin 16)
  /-- TDES_MAC1_V (R365). -/
  | tdesMac1V (i : Issue) (k : Fin 4) (sa : Fin 8) (sb : Bool) (da : Fin 8) (db : Bool) (dn : Fin 16) (pd : Fin 8)
  /-- TDES_MAC3_G (R498). -/
  | tdesMac3G (i : Issue) (k : Fin 4) (sa : Fin 8) (sb : Bool) (da : Fin 8) (db : Bool) (dn : Fin 16)
  /-- TDES_MAC3_V (R498). -/
  | tdesMac3V (i : Issue) (k : Fin 4) (sa : Fin 8) (sb : Bool) (da : Fin 8) (db : Bool) (dn : Fin 16) (pd : Fin 8)
  /-- HASH_SHA256 (R369). -/
  | hashSha256 (i : Issue) (first last : Bool) (sa : Fin 8) (sb : Bool) (da : Fin 8) (db : Bool) (dn : Fin 16)
  /-- HASH_SHA384 (R369). -/
  | hashSha384 (i : Issue) (first last : Bool) (sa : Fin 8) (sb : Bool) (da : Fin 8) (db : Bool) (dn : Fin 16)
  /-- HASH_SHA512 (R369). -/
  | hashSha512 (i : Issue) (first last : Bool) (sa : Fin 8) (sb : Bool) (da : Fin 8) (db : Bool) (dn : Fin 16)
  /-- HASH_GHASH (R369). -/
  | hashGhash (i : Issue) (first last : Bool) (sa : Fin 8) (sb : Bool) (da : Fin 8) (db : Bool) (dn : Fin 16)
  /-- SAF_TRANSLATE (R490). -/
  | safTranslate (i : Issue) (ki ko : Fin 4) (sa : Fin 8) (sb : Bool) (da : Fin 8) (db : Bool) (dx : Fin 16)
  /-- SAF_OFS_VERIFY (R491). -/
  | safOfsVerify (i : Issue) (ki ko : Fin 4) (sa : Fin 8) (sb : Bool) (da : Fin 8) (db : Bool) (dx : Fin 16)
  /-- SAF_OFS_GEN (R492). -/
  | safOfsGen (i : Issue) (ki ko : Fin 4) (sa : Fin 8) (sb : Bool) (da : Fin 8) (db : Bool) (dx : Fin 16)
  /-- SAF_PVV_VERIFY (R493). -/
  | safPvvVerify (i : Issue) (ki ko : Fin 4) (sa : Fin 8) (sb : Bool) (da : Fin 8) (db : Bool) (dx : Fin 16)
  /-- SAF_PVV_GEN (R493). -/
  | safPvvGen (i : Issue) (ki ko : Fin 4) (sa : Fin 8) (sb : Bool) (da : Fin 8) (db : Bool) (dx : Fin 16)
  /-- SAF_CVV_VERIFY (R494). -/
  | safCvvVerify (i : Issue) (ki ko : Fin 4) (sa : Fin 8) (sb : Bool) (da : Fin 8) (db : Bool) (dx : Fin 16)
  /-- SAF_CVV_GEN (R494). -/
  | safCvvGen (i : Issue) (ki ko : Fin 4) (sa : Fin 8) (sb : Bool) (da : Fin 8) (db : Bool) (dx : Fin 16)
  /-- SAFFRON_DRBG_RESEED (R482). -/
  | saffronDrbgReseed (q : Fin 16)
  /-- KCHK (R374). -/
  | kchk (i : Issue) (pd pdn : Fin 8) (k : Fin 4)
  /-- MCPY (R375). -/
  | mcpy (i : Issue) (sa : Fin 8) (sb : Bool) (da : Fin 8) (db : Bool) (dn : Fin 16)
  /-- MFILL (R375). -/
  | mfill (i : Issue) (da : Fin 8) (db : Bool) (dn : Fin 16)
  /-- MXOR (R375). -/
  | mxor (i : Issue) (sa : Fin 8) (sb : Bool) (da : Fin 8) (db : Bool) (dn : Fin 16)
  /-- MCMP (R375). -/
  | mcmp (i : Issue) (sa : Fin 8) (sb : Bool) (da : Fin 8) (db : Bool) (dn : Fin 16) (pd : Fin 8)
  /-- HEXD (R375). -/
  | hexd (i : Issue) (sa : Fin 8) (sb : Bool) (da : Fin 8) (db : Bool) (dn : Fin 16) (pd : Fin 8)
  /-- HEXE (R375). -/
  | hexe (i : Issue) (sa : Fin 8) (sb : Bool) (da : Fin 8) (db : Bool) (dn : Fin 16)
  /-- BCDP (R375). -/
  | bcdp (i : Issue) (sa : Fin 8) (sb : Bool) (da : Fin 8) (db : Bool) (dn : Fin 16) (pd : Fin 8)
  /-- BCDU (R375). -/
  | bcdu (i : Issue) (sa : Fin 8) (sb : Bool) (da : Fin 8) (db : Bool) (dn : Fin 16) (pd : Fin 8)
  /-- PKSUB (R378). -/
  | pksub (i : Issue) (sa : Fin 8) (sb : Bool) (dn : Fin 16)
  /-- POST (R377). -/
  | post (i : Issue) (ds dt : Fin 16)
  /-- CUSTOM_OPCODE (R385). -/
  | customOpcode (i : Issue) (u ra rb rc : Fin 16) (imm : BitVec 10)
  /-- ERET (R396). -/
  | eret (i : Issue)
  /-- WAIT (R396). -/
  | wait (i : Issue)
  /-- WAIT_RESUME (R396). -/
  | waitResume
  /-- SUPERVISOR_INTERRUPT (R396). -/
  | supervisorInterrupt (src : Option (Fin 8))
  /-- IMAGE_INSTALL (R398). -/
  | imageInstall (r : Req) (ii : Fin 64)
  /-- IMAGE_REMOVE (R399). -/
  | imageRemove (r : Req) (ii : Fin 64)
  /-- KEY_CREATE (R409). -/
  | keyCreate (r : Req)
  /-- KEY_DELETE (R461). -/
  | keyDelete (r : Req)
  /-- KEY_GENERATE (R442). -/
  | keyGenerate (r : Req)
  /-- KEY_LOAD (R450). -/
  | keyLoad (r : Req)
  /-- KEY_SAVE (R449). -/
  | keySave (r : Req)
  /-- KEY_IMPORT (R451). -/
  | keyImport (r : Req)
  /-- KEY_EXPORT (R453). -/
  | keyExport (r : Req)
  /-- KEY_STAGE (R443). -/
  | keyStage (r : Req)
  /-- KEY_COMMIT (R445). -/
  | keyCommit (r : Req)
  /-- KEY_ABORT (R443). -/
  | keyAbort (r : Req)
  /-- KEY_ATTEST (R456). -/
  | keyAttest (r : Req)
  /-- KEY_READ (R461). -/
  | keyRead (r : Req)
  /-- KEY_LOADPUB (R454). -/
  | keyLoadpub (r : Req)
  /-- REPLACEMENT_VERIFIED (R444). -/
  | replacementVerified (node : BitVec 18)
  /-- KEY_DELIVERY (R437). -/
  | keyDelivery (pipe : Fin 8) (badNode badSlot : Bool)
  /-- KEY_BUS_MESSAGE (R438). -/
  | keyBusMessage (die : Fin 2) (bad : Bool)
  /-- COHERENCE_SCAN_PASS (R440). -/
  | coherenceScanPass
  /-- OLD_RUN_FREE (R441). -/
  | oldRunFree
  /-- DECIMAL_TABLE_WRITE (R495). -/
  | decimalTableWrite (r : Req) (t : Fin 16)
  /-- PK_JOB_RELEASE (R202). -/
  | pkJobRelease (e : Fin 24)
  /-- PK_YIELD_POINT (R525). -/
  | pkYieldPoint (e : Fin 24) (n : Fin 2001)
  /-- PK_JOB_END (R540). -/
  | pkJobEnd (e : Fin 24)
  /-- PK_RSA_PRIVATE (R529). -/
  | pkRsaPrivate (e : Fin 24)
  /-- PK_RSA_SIGN_PKCS1 (R530). -/
  | pkRsaSignPkcs1 (e : Fin 24)
  /-- PK_RSA_SIGN_PSS (R530). -/
  | pkRsaSignPss (e : Fin 24)
  /-- PK_RSA_PUBLIC (R529). -/
  | pkRsaPublic (e : Fin 24)
  /-- PK_RSA_VERIFY_PKCS1 (R530). -/
  | pkRsaVerifyPkcs1 (e : Fin 24)
  /-- PK_RSA_VERIFY_PSS (R530). -/
  | pkRsaVerifyPss (e : Fin 24)
  /-- PK_ECDSA_SIGN (R532). -/
  | pkEcdsaSign (e : Fin 24)
  /-- PK_ECDSA_VERIFY (R529). -/
  | pkEcdsaVerify (e : Fin 24)
  /-- PK_KEY_AGREEMENT (R541). -/
  | pkKeyAgreement (e : Fin 24)
  /-- PK_PUBLIC_FROM_PRIVATE (R529). -/
  | pkPublicFromPrivate (e : Fin 24)
  /-- PK_EDDSA_SIGN (R529). -/
  | pkEddsaSign (e : Fin 24)
  /-- PK_EDDSA_VERIFY (R529). -/
  | pkEddsaVerify (e : Fin 24)
  /-- PK_RSA_KEYGEN (R555). -/
  | pkRsaKeygen (e : Fin 24) (p q : Nat)
  /-- RSA_GEN_LIMIT (R555). -/
  | rsaGenLimit (die : Fin 2)
  /-- VAS_VERIFY (R548). -/
  | vasVerify (e : Fin 24) (bad : Bool)
  /-- PK_DRBG_RESEED (R546). -/
  | pkDrbgReseed (e : Fin 24)
  /-- PKE_BG_GO (R556). -/
  | pkeBgGo (die : Fin 2)
  /-- PKE_BG_ABORT (R556). -/
  | pkeBgAbort (die : Fin 2)
  /-- BG_CLAIM_TIMEOUT (R528). -/
  | bgClaimTimeout (die : Fin 2)
  /-- PK_FENCE_REQUEST (R560). -/
  | pkFenceRequest (r : Req) (e : Fin 24)
  /-- PK_FENCE_RELEASE (R560). -/
  | pkFenceRelease (r : Req) (e : Fin 24)
  /-- CURVE_INSTALL (R553). -/
  | curveInstall (r : Req) (c : Fin 16)
  /-- CURVE_UNLOAD (R554). -/
  | curveUnload (r : Req) (c : Fin 16)
  /-- CARD_INSERT (R571). -/
  | cardInsert (i : Fin 4)
  /-- CARD_ATR (R571). -/
  | cardAtr (i : Fin 4) (atr : Bytes)
  /-- CARD_REMOVE (R571). -/
  | cardRemove (i : Fin 4)
  /-- CARD_WAIT_TIMEOUT (R571). -/
  | cardWaitTimeout (w : CardWait)
  /-- CARD_SELECT (R572). -/
  | cardSelect (i : Fin 4)
  /-- CARD_GET_IDENTITY (R572). -/
  | cardGetIdentity (i : Fin 4)
  /-- CARD_SIGN (R572). -/
  | cardSign (i : Fin 4)
  /-- CARD_OPEN_CHANNEL (R573). -/
  | cardOpenChannel (i : Fin 4)
  /-- CARD_PUT_COMPONENT (R572). -/
  | cardPutComponent (i : Fin 4)
  /-- CARD_GET_COMPONENT (R574). -/
  | cardGetComponent (i : Fin 4)
  /-- CARD_CLEAR_COMPONENT (R572). -/
  | cardClearComponent (i : Fin 4) (slot : Fin 8)
  /-- CARD_RESPONSE (R572). -/
  | cardResponse (i : Fin 4) (sw : BitVec 16) (data : Bytes) (edc : Bool)
  /-- CARD_DEACTIVATE (R813). -/
  | cardDeactivate (i : Fin 4)
  /-- CEREMONY_START_ENROL (R606). -/
  | ceremonyStartEnrol (r : Req)
  /-- CEREMONY_START_COMPONENTS_IN (R585). -/
  | ceremonyStartComponentsIn (r : Req)
  /-- CEREMONY_START_COMPONENTS_OUT (R587). -/
  | ceremonyStartComponentsOut (r : Req)
  /-- CEREMONY_START_GROUP (R597). -/
  | ceremonyStartGroup (r : Req)
  /-- CEREMONY_TIMEOUT (R581). -/
  | ceremonyTimeout
  /-- CEREMONY_LIMIT (R584). -/
  | ceremonyLimit
  /-- OWNERSHIP_START (R590). -/
  | ownershipStart (r : Req)
  /-- MIRROR_LINK_UP (R594). -/
  | mirrorLinkUp (l : Fin 8) (nonce : BitVec 256)
  /-- MIRROR_AUTH (R594). -/
  | mirrorAuth (l : Fin 8) (stmt eph : Bytes) (idk : BitVec 128) (good : Bool)
  /-- MIRROR_HEARTBEAT (R594). -/
  | mirrorHeartbeat (l : Fin 8) (seq : Word) (bad : Bool)
  /-- MIRROR_HEARTBEAT_TIMER (R594). -/
  | mirrorHeartbeatTimer (l : Fin 8)
  /-- MIRROR_SILENCE_TIMEOUT (R594). -/
  | mirrorSilenceTimeout (l : Fin 8)
  /-- MIRROR_TOKEN (R605). -/
  | mirrorToken (l : Fin 8) (seq : Word) (bad : Bool) (t : BitVec 128)
  /-- MIRROR_TAMPER (R605). -/
  | mirrorTamper (l : Fin 8) (body : BitVec 128)
  /-- MIRROR_PREPARE (R600). -/
  | mirrorPrepare (l : Fin 8) (seq : Word) (bad : Bool) (chg : BitVec 96) (op : Fin 3) (node : BitVec 19) (rec key ros : Bytes)
  /-- MIRROR_PREPARED (R600). -/
  | mirrorPrepared (l : Fin 8) (seq : Word) (bad : Bool) (chg : BitVec 96)
  /-- MIRROR_REFUSE (R601). -/
  | mirrorRefuse (l : Fin 8) (seq : Word) (bad : Bool) (chg : BitVec 96)
  /-- MIRROR_COMMIT (R600). -/
  | mirrorCommit (l : Fin 8) (seq : Word) (bad : Bool) (chg : BitVec 96)
  /-- MIRROR_COMMITTED (R600). -/
  | mirrorCommitted (l : Fin 8) (seq : Word) (bad : Bool) (chg : BitVec 96)
  /-- MIRROR_ABORT (R601). -/
  | mirrorAbort (l : Fin 8) (seq : Word) (bad : Bool) (chg : BitVec 96)
  /-- MIRROR_STATUS (R602). -/
  | mirrorStatus (l : Fin 8) (seq : Word) (bad : Bool) (chg : BitVec 96) (answer : Option (Fin 4))
  /-- MIRROR_RESYNC (R603). -/
  | mirrorResync (l : Fin 8) (seq : Word) (bad : Bool) (decs : List (BitVec 96 × Bool)) (joined : Fin 8) (nodes : List (BitVec 18 × Bytes × Bytes))
  /-- MIRROR_KEY_TRANSFER (R598). -/
  | mirrorKeyTransfer (l : Fin 8) (seq : Word) (bad : Bool) (node : BitVec 18) (rec key : Bytes)
  /-- MIRROR_RESEND_TIMER (R595). -/
  | mirrorResendTimer (chg : BitVec 96)
  /-- MIRROR_PREPARE_TIMEOUT (R601). -/
  | mirrorPrepareTimeout (chg : BitVec 96)
  /-- RESOLVE_ABORT (R602). -/
  | resolveAbort (r : Req)
  /-- DIG_START (R615). -/
  | digStart (ctrl : Word)
  /-- DIG_ABORT (R617). -/
  | digAbort
  /-- DIG_DATA_WRITE (R616). -/
  | digDataWrite (w : Word)
  /-- DIG_BLOCK_DONE (R616). -/
  | digBlockDone
  /-- DIG_FINISH (R615). -/
  | digFinish (flags : Option Bool)
  /-- MR_VENDOR_EXTEND (R623). -/
  | mrVendorExtend (vidx : BitVec 4) (src : Byte)
  /-- MR_OWNER_EXTEND (R623). -/
  | mrOwnerExtend (oidx : BitVec 4)
  /-- MR_EXTEND_ENTRY (R623). -/
  | mrExtendEntry (r : Req) (k : Fin 8)
  /-- MR_EXTEND_DONE (R622). -/
  | mrExtendDone
  /-- BOOTLOCK (R624). -/
  | bootlock
  /-- BASE_INSTALL (R634). -/
  | baseInstall (r : Req) (fault : Bool)
  /-- BASE_ACTIVATE (R634). -/
  | baseActivate (r : Req)
  /-- MODULE_LOAD (R635). -/
  | moduleLoad (r : Req) (m : Fin 16) (d0 : Word) (fault : Bool)
  /-- MODULE_UNLOAD (R635). -/
  | moduleUnload (r : Req) (m : Fin 16)
  /-- BASE_FLOOR_RAISE (R636). -/
  | baseFloorRaise (r : Req)
  /-- MODULE_FLOOR_RAISE (R636). -/
  | moduleFloorRaise (r : Req)
  /-- SUPERVISOR_BOOT (R631). -/
  | supervisorBoot (faults : BitVec 2)
  /-- CONDITION_ASSERT (R643). -/
  | conditionAssert (code : Byte) (sensor : BitVec 16)
  /-- CONDITION_DEASSERT (R646). -/
  | conditionDeassert (code : Byte)
  /-- ESCALATION (R647). -/
  | escalation (code : Byte)
  /-- ZEROISE (R650). -/
  | zeroise (r : Req)
  /-- TMP_ZERO_WRITE (R650). -/
  | tmpZeroWrite (v : Word)
  /-- ALARM_ENTER (R653). -/
  | alarmEnter
  /-- CONDITION_RESPONSE_WRITE (R648). -/
  | conditionResponseWrite (r : Req) (code : Fin 17)
  /-- SLACK_REPORT (R657). -/
  | slackReport (die : Fin 2) (crit : Bool) (sensor : Fin 80)
  /-- LCLK_STEP_RECOVERY (R657). -/
  | lclkStepRecovery (die : Fin 2)
  /-- VDD_L_SETPOINT_UP (R728). -/
  | vddLSetpointUp
  /-- VDD_L_SETPOINT_DOWN (R728). -/
  | vddLSetpointDown
  /-- LEARN (R660). -/
  | learn (r : Req)
  /-- LEARN_DONE (R660). -/
  | learnDone (means : List (BitVec 32)) (unstable : BitVec 64)
  /-- GUARD_SAMPLE (R661). -/
  | guardSample (cut short : BitVec 64)
  /-- ALARM_OUTPUT_ACK (R663). -/
  | alarmOutputAck (r : Req) (n : Fin 6)
  /-- EVIDENCE_ENTRY_WRITE (R664). -/
  | evidenceEntryWrite
  /-- LOG_ROLL (R668). -/
  | logRoll (r : Req)
  /-- LOG_STATEMENT (R670). -/
  | logStatement (r : Req)
  /-- RTC_SET (R676). -/
  | rtcSet (r : Req)
  /-- FABRIC_ACCESS (R681). -/
  | fabricAccess (a : FabAccess)
  /-- DMA_PIECE (R691). -/
  | dmaPiece (ini : Byte) (addr : BitVec 40) (write : Bool) (done : Word) (len : Fin 65) (data : Bytes)
  /-- WINDOW_ENABLE (R685). -/
  | windowEnable (die : Fin 4) (n : Fin 64)
  /-- WINDOW_LOCK (R694). -/
  | windowLock (die : Fin 4) (n : Fin 64)
  /-- DEFEN_LOCK (R694). -/
  | defenLock (die : Fin 4)
  /-- ACCESS_WINDOW_ENTRY_WRITE (R686). -/
  | accessWindowEntryWrite (r : Req)
  /-- DOMAIN_IDLE_TIMEOUT (R718). -/
  | domainIdleTimeout (d : Nat)
  /-- POWER_DOWN_COMPLETE (R707). -/
  | powerDownComplete (d : Nat)
  /-- POWER_UP (R708). -/
  | powerUp (d : Nat) (src : Nat) (idx : Nat)
  /-- DOMAIN_READY (R714). -/
  | domainReady (d : Nat) (late : Bool)
  /-- READY_TIMEOUT (R714). -/
  | readyTimeout (d : Nat)
  /-- RETRY_BACKOFF (R714). -/
  | retryBackoff (d : Nat)
  /-- DEEP_TIMER (R721). -/
  | deepTimer
  /-- DEEP_WAKE (R723). -/
  | deepWake (src : Nat) (r : DeepRise)
  /-- MS_ADDRESS_MATCH (R716). -/
  | msAddressMatch (port : Fin 2) (served : Bool)
  /-- GP_EDGE (R814). -/
  | gpEdge (pin : Fin 6) (level : Bool)
  /-- RTC_WAKE (R713). -/
  | rtcWake
  /-- MODE_REQUEST_SERVICE (R725). -/
  | modeRequestService (r : Req)
  /-- MODE_REQUEST_BYPASS (R725). -/
  | modeRequestBypass (r : Req)
  /-- MODE_REQUEST_CEREMONY (R583). -/
  | modeRequestCeremony (r : Req)
  /-- MODE_REQUEST_UPDATE (R725). -/
  | modeRequestUpdate (r : Req)
  /-- MODE_REQUEST_RETURN (R727). -/
  | modeRequestReturn (r : Req)
  /-- PWR_HOLD_QUADS (R719). -/
  | pwrHoldQuads (v : Bool)
  /-- PWR_HOLD_PK (R719). -/
  | pwrHoldPk (v : Bool)
  /-- PWR_HOLD_DEEP (R719). -/
  | pwrHoldDeep (v : Bool)
  /-- POWER_GOOD_FALL (R804). -/
  | powerGoodFall (main : Bool)
  /-- RETIRE (R730). -/
  | retire (r : Req)
  /-- DEBUG_UNLOCK_ARM (R730). -/
  | debugUnlockArm (r : Req)
  /-- DEBUG_ARM_EXPIRY (R730). -/
  | debugArmExpiry
  /-- POWER_ON (R740). -/
  | powerOn
  /-- SYSRST_PIN (R740). -/
  | sysrstPin
  /-- SYSTEM_RESET_REQUEST (R740). -/
  | systemResetRequest (r : Req)
  /-- CORE_RESET_REQUEST (R740). -/
  | coreResetRequest (r : Req)
  /-- RST_REQ_SYS (R740). -/
  | rstReqSys (key : BitVec 16)
  /-- RST_REQ_CORE_KD (R740). -/
  | rstReqCoreKd (key : BitVec 16)
  /-- RST_REQ_CORE_CD0 (R740). -/
  | rstReqCoreCd0 (key : BitVec 16)
  /-- RST_REQ_CORE_CD1 (R740). -/
  | rstReqCoreCd1 (key : BitVec 16)
  /-- COMPUTE_DIE_RESTORE (R743). -/
  | computeDieRestore (die : Fin 2)
  /-- WATCHDOG_ENABLE (R744). -/
  | watchdogEnable
  /-- WATCHDOG_KICK (R744). -/
  | watchdogKick (v : BitVec 16)
  /-- WATCHDOG_EXPIRY (R744). -/
  | watchdogExpiry
  /-- OPTION_LOAD (R745). -/
  | optionLoad (marginal : List Nat)
  /-- DOMAIN_RELEASE_NEXT (R752). -/
  | domainReleaseNext
  /-- KEY_DIE_BRINGUP (R754). -/
  | keyDieBringup (res : KeyDieResult)
  /-- POST_SELFTEST (R756). -/
  | postSelftest (lanes : BitVec 68) (pk : BitVec 24) (clusters : BitVec 128)
  /-- TRNG_TEST_FAIL (R761). -/
  | trngTestFail
  /-- BLOCK_RESET_QUAD (R762). -/
  | blockResetQuad (via : Option Req) (q : Fin 16)
  /-- BLOCK_RESET_PK (R762). -/
  | blockResetPk (via : Option Req) (e : Fin 24)
  /-- BLOCK_RESET_PORT (R762). -/
  | blockResetPort (via : Option Req) (p : Fin 32)
  /-- TAP_EXTEST (R764). -/
  | tapExtest (v : Bytes)
  /-- TAP_IDCODE (R764). -/
  | tapIdcode
  /-- TAP_SAMPLE_PRELOAD (R764). -/
  | tapSamplePreload (v : Bytes)
  /-- TAP_CHAL (R765). -/
  | tapChal
  /-- TAP_UNLOCK (R765). -/
  | tapUnlock (sig : Bytes)
  /-- TAP_FABRIC (R764). -/
  | tapFabric (addr : BitVec 40) (write : Bool) (data : Word)
  /-- TAP_SYSRESET (R764). -/
  | tapSysreset
  /-- TAP_BYPASS (R764). -/
  | tapBypass
  /-- NVM_READ (R777). -/
  | nvmRead (ini : Byte) (e : ArrayErrors)
  /-- NVM_WRITE (R777). -/
  | nvmWrite (ini : Byte) (fails : Nat)
  /-- NVM_COUNTER_INCREMENT (R785). -/
  | nvmCounterIncrement (ini : Byte) (fails : Nat)
  /-- NVM_COUNTER_RAISE (R785). -/
  | nvmCounterRaise (ini : Byte) (fails : Nat)
  /-- NVM_COUNTER_READ (R792). -/
  | nvmCounterRead (ini : Byte)
  /-- NVM_COMMAND_DONE (R778). -/
  | nvmCommandDone
  /-- NVM_OR_READ (R784). -/
  | nvmOrRead (ini : Byte)
  /-- NVM_OR_WRITE (R784). -/
  | nvmOrWrite (ini : Byte) (fails : Nat)
  /-- NVM_OR_UNLOCK (R784). -/
  | nvmOrUnlock (ini : Byte)
  /-- NVM_OR_LOCK (R784). -/
  | nvmOrLock (ini : Byte)
  /-- FUSE_BURN (R786). -/
  | fuseBurn (keyDie : Bool) (stuck : Word)
  /-- FUSE_OPTION_BURN (R790). -/
  | fuseOptionBurn (r : Req) (stuck : Word)
  /-- COUNTER_INCREMENT (R790). -/
  | counterIncrement (r : Req) (fails : Nat)
  /-- COUNTER_RAISE (R790). -/
  | counterRaise (r : Req) (fails : Nat)
  /-- COUNTER_REINIT (R790). -/
  | counterReinit (r : Req)
  /-- REGISTER_WRITE (R17). -/
  | registerWrite (die : Fin 4) (off : BitVec 20) (v : Word)
  /-- SYSRST_N_RISE (R818). -/
  | sysrstNRise
  /-- PORST_N_ASSERT (R740). -/
  | porstNAssert
  /-- CARD_CLASS_A_RETRY (R571). -/
  | cardClassARetry (i : Fin 4)
  /-- SPARE_SUBSTITUTION_TIMEOUT (R292). -/
  | spareSubstitutionTimeout (k : Fin 4)
  /-- HOST_LINK_RETRAIN (R164). -/
  | hostLinkRetrain (width : Nat) (rate : Nat)
  /-- ILLEGAL_WORD (R330). -/
  | illegalWord (core : Fin 65) (w : Word)
  /-- CQ_HEAD_WRITE (R254). -/
  | cqHeadWrite (q : Fin 5) (head : BitVec 14)
  deriving DecidableEq, Repr

end Sys2Proof
end

