-- ==== Sys2Proof/Decode.lean ====
section
/-!
DEFINITION. The command a word spells by the opcode table's bits: no row of the table gives its command any bits, so no word
spells a command. Below it, the command a word of a classifier program spells in a context, from the encoding of R140.
-/
namespace Sys2Proof

/-- The command of a word of `nbits` bits. -/
def decodeTableWord (_nbits _w : Nat) : Option Instr := none

/-- The operands of a classifier word in a context of a source (R140): A [25:23], B [22:20], IMM [19:0]. -/
def clsOperands (src : Fin 36) (ctx : Fin 8) (w : BitVec 32) : ClsI :=
  ⟨src, ctx, (w.extractLsb' 23 3).toFin, (w.extractLsb' 20 3).toFin, w.extractLsb' 0 20⟩

/-- The command of a classifier code word (R140): OP [31:26]; no unlisted OP spells one. -/
def decodeClassifier (src : Fin 36) (ctx : Fin 8) (w : BitVec 32) : Option Instr :=
  let i := clsOperands src ctx w
  match (w.extractLsb' 26 6).toNat with
  | 0x00 => some (.clsNop i)
  | 0x01 => some (.clsLdb i)
  | 0x02 => some (.clsLdh i)
  | 0x03 => some (.clsLdw i)
  | 0x04 => some (.clsLdf i)
  | 0x05 => some (.clsNum i)
  | 0x06 => some (.clsNumb i)
  | 0x08 => some (.clsMovi i)
  | 0x09 => some (.clsMovhi i)
  | 0x0A => some (.clsAdd i)
  | 0x0B => some (.clsAddr i)
  | 0x0C => some (.clsAnd i)
  | 0x0D => some (.clsOr i)
  | 0x0E => some (.clsShr i)
  | 0x0F => some (.clsShl i)
  | 0x10 => some (.clsBeq i)
  | 0x11 => some (.clsBne i)
  | 0x12 => some (.clsBlt i)
  | 0x13 => some (.clsBge i)
  | 0x14 => some (.bmw i)
  | 0x15 => some (.rule i)
  | 0x16 => some (.setc i)
  | 0x17 => some (.setdl i)
  | 0x18 => some (.setf i)
  | 0x19 => some (.setk i)
  | 0x1A => some (.setid i)
  | 0x3C => some (.emit i)
  | 0x3D => some (.reject i)
  | 0x3E => some (.drop i)
  | _ => none

end Sys2Proof
end

