-- ==== Sys2Proof/Machine/Bits.lean ====
section
/-!
DEFINITION. Byte-string and bit-field helpers. Every multi-byte number is big-endian (R15); bit 0 is the least significant
bit (R14).
-/
namespace Sys2Proof.Machine

/-- The number a byte string spells, most significant byte first (R15). -/
def beNat (bs : Bytes) : Nat := bs.foldl (fun n b => n * 256 + b.toNat) 0

/-- The number a byte string spells, least significant byte first (only where a cited standard says so). -/
def leNat : Bytes → Nat
  | [] => 0
  | b :: bs => b.toNat + 256 * leNat bs

/-- `n` as `k` bytes, least significant byte first. -/
def leBytes (n : Nat) : Nat → Bytes
  | 0 => []
  | k + 1 => byte n :: leBytes (n / 256) k

/-- `n` as `k` bytes, most significant byte first, keeping the low `8 * k` bits (R15). -/
def beBytes (n : Nat) (k : Nat) : Bytes := (leBytes n k).reverse

/-- Bits [hi:lo] of `n` (R14). -/
def bits (n hi lo : Nat) : Nat := (n >>> lo) % 2 ^ (hi + 1 - lo)

/-- Bit `i` of `n`. -/
def bit (n i : Nat) : Bool := n.testBit i

/-- A Bool as a number. -/
def b2n (b : Bool) : Nat := if b then 1 else 0

/-- `n` with bits [hi:lo] replaced by `v`. -/
def setBits (n hi lo v : Nat) : Nat :=
  n - (bits n hi lo) * 2 ^ lo + (v % 2 ^ (hi + 1 - lo)) * 2 ^ lo

/-- `n` with bit `i` set to `b`. -/
def setBit (n i : Nat) (b : Bool) : Nat := setBits n i i (b2n b)

/-- Bytes `o` to `o + n - 1` of a byte string; missing bytes are left out. -/
def slice (bs : Bytes) (o n : Nat) : Bytes := (bs.drop o).take n

/-- Byte `i` of a byte string, 0 beyond its end. -/
def byteAt (bs : Bytes) (i : Nat) : Byte := bs.getD i 0

/-- `n` zero bytes. -/
def zeros (n : Nat) : Bytes := List.replicate n 0

/-- A byte string brought to exactly `n` bytes: cut, or filled with zero bytes on the right. -/
def fit (bs : Bytes) (n : Nat) : Bytes := (bs ++ zeros (n - bs.length)).take n

/-- A byte string brought to exactly `n` bytes: filled with zero bytes on the left, or its last `n` bytes. -/
def fitLeft (bs : Bytes) (n : Nat) : Bytes := zeros (n - bs.length) ++ bs.drop (bs.length - n)

/-- Bytewise exclusive or, over the shorter length. -/
def xorBytes (a b : Bytes) : Bytes := List.zipWith (fun x y => x ^^^ y) a b

/-- Replace the bytes from `o` on by `new`, extending with zero bytes where needed. -/
def overlay (bs : Bytes) (o : Nat) (new : Bytes) : Bytes :=
  fit (bs.take o) o ++ new ++ bs.drop (o + new.length)

/-- A byte string cut into pieces of `n` bytes (the last may be shorter); `fuel` bounds the pieces. -/
def chunksF (n : Nat) : Nat → Bytes → List Bytes
  | 0, _ => []
  | fuel + 1, bs => if bs.isEmpty then [] else bs.take n :: chunksF n fuel (bs.drop n)

/-- A byte string cut into pieces of `n` bytes. -/
def chunks (n : Nat) (bs : Bytes) : List Bytes := chunksF n (bs.length + 1) bs

/-- Quotient rounded up (R10). -/
def ceilDiv (a b : Nat) : Nat := (a + b - 1) / b

/-- The ASCII bytes of a string, a list of character codes. -/
def ascii (cs : String) : Bytes := cs.toList.map (fun c => byte c.toNat)

/-- Number of bits set in the low `w` bits of `n`. -/
def popCount (w n : Nat) : Nat := (List.range w).foldl (fun a i => if n.testBit i then a + 1 else a) 0

/-- The bit numbers below `w` that are set in `n`, lowest first. -/
def bitsSet (w n : Nat) : List Nat := (List.range w).filter (fun i => n.testBit i)

/-- Saturating counter of `w` bits: one more, at most all ones. -/
def satInc (w n : Nat) : Nat := if n + 1 < 2 ^ w then n + 1 else 2 ^ w - 1

/-- Serial-number comparison modulo `2 ^ w` (RFC 1982): `a` is newer than `b`. -/
def serialNewer (w a b : Nat) : Bool :=
  let d := (a + 2 ^ w - b) % 2 ^ w
  decide (0 < d ∧ d < 2 ^ (w - 1))

/-- The bytes with each byte once decoded as an ASCII digit, none where one is no digit. -/
def asciiDigits : Bytes → Option (List Nat)
  | [] => some []
  | b :: bs =>
    if 0x30 ≤ b.toNat ∧ b.toNat ≤ 0x39 then (asciiDigits bs).map (fun t => (b.toNat - 0x30) :: t) else none

/-- The two nibbles of every byte, high nibble first. -/
def nibbles (bs : Bytes) : List Nat := bs.flatMap (fun b => [b.toNat / 16, b.toNat % 16])

/-- Bytes from nibbles, high nibble first; an odd last nibble is followed by 0. -/
def fromNibbles : List Nat → Bytes
  | [] => []
  | [a] => [byte (a * 16)]
  | a :: b :: t => byte (a * 16 + b % 16) :: fromNibbles t

/-- The number a list of decimal digits spells. -/
def decNat (ds : List Nat) : Nat := ds.foldl (fun n d => n * 10 + d) 0
/-- One's complement 16-bit sum of a byte string (RFC 1071). -/
def inetSum (bs : Bytes) : Nat :=
  let n := (chunks 2 bs).foldl (fun a w => a + beNat (fit w 2)) 0
  let f (x : Nat) := x / 2 ^ 16 + x % 2 ^ 16
  f (f (f n))

end Sys2Proof.Machine
end

