-- ==== Sys2Proof/Machine/Cipher.lean ====
section
/-!
DEFINITION. The block ciphers and their modes: AES (FIPS 197), DES and TDES (NIST SP 800-67), ECB, CBC, CTR
(SP 800-38A), CMAC (SP 800-38B), the CBC-MAC algorithms 1 and 3 of ISO/IEC 9797-1, and AES key wrap with padding
(SP 800-38F). The spec names the standards and does not repeat them; their constants are PRESUMED (log entry 10).
-/
namespace Sys2Proof.Machine

/-- Multiplication in AES's field. -/
def gfMul (x y : Nat) : Nat :=
  ((List.range 8).foldl (fun (p : Nat × Nat) i =>
    (if y.testBit i then p.1 ^^^ p.2 else p.1, if p.2 ≥ 128 then (p.2 * 2) ^^^ 0x11B else p.2 * 2)) (0, x)).1

/-- The multiplicative inverse in AES's field, x to the power 254; 0 for 0. -/
def gfInv (x : Nat) : Nat :=
  let x2 := gfMul x x
  let x3 := gfMul x2 x
  let x6 := gfMul x3 x3
  let x12 := gfMul x6 x6
  let x15 := gfMul x12 x3
  let x30 := gfMul x15 x15
  let x60 := gfMul x30 x30
  let x120 := gfMul x60 x60
  let x126 := gfMul x120 x6
  let x127 := gfMul x126 x
  gfMul x127 x127

/-- Rotate an eight-bit number left. -/
def rotl8 (x n : Nat) : Nat := ((x <<< n) ||| (x >>> (8 - n))) % 256

/-- One S-box entry of AES. -/
def aesSub (x : Nat) : Nat :=
  let i := gfInv x
  i ^^^ rotl8 i 1 ^^^ rotl8 i 2 ^^^ rotl8 i 3 ^^^ rotl8 i 4 ^^^ 0x63

/-- One inverse S-box entry of AES. -/
def aesInvSub (x : Nat) : Nat := gfInv (rotl8 x 1 ^^^ rotl8 x 3 ^^^ rotl8 x 6 ^^^ 0x05)

/-- AES key expansion: 4-byte words, newest first; `nk` key words; `i` is the number of the next word. -/
def aesExpand (nk : Nat) : Nat → Nat → Nat → List (List Nat) → List (List Nat)
  | 0, _, _, ws => ws
  | n + 1, i, rc, ws =>
    let t := ws.headD []
    let t' :=
      if i % nk = 0 then
        match (t.drop 1 ++ t.take 1).map aesSub with
        | a :: r => (a ^^^ rc) :: r
        | [] => []
      else if nk > 6 ∧ i % nk = 4 then t.map aesSub
      else t
    aesExpand nk n (i + 1) (if i % nk = 0 then gfMul rc 2 else rc)
      (List.zipWith (fun x y => x ^^^ y) t' (ws.getD (nk - 1) []) :: ws)

/-- The round keys of AES, 16 numbers each, first first. -/
def aesRoundKeys (key : Bytes) : List (List Nat) :=
  let nk := key.length / 4
  let ws := (chunks 4 key).map (fun c => c.map BitVec.toNat)
  let all := (aesExpand nk (4 * (nk + 7) - nk) nk 1 ws.reverse).reverse
  (List.range (nk + 7)).map (fun r => ((all.drop (4 * r)).take 4).flatten)

/-- XOR of two states. -/
def xorNats (a b : List Nat) : List Nat := List.zipWith (fun x y => x ^^^ y) a b

/-- ShiftRows, and its inverse for `inv`. -/
def aesShift (inv : Bool) (s : List Nat) : List Nat :=
  (List.range 16).map (fun i => s.getD (if inv then (i + 16 * 4 - 4 * (i % 4)) % 16 else (i + 4 * (i % 4)) % 16) 0)

/-- MixColumns by the circulant row `m`. -/
def aesMix (m : List Nat) (s : List Nat) : List Nat :=
  (List.range 16).map (fun i =>
    let c := i / 4; let r := i % 4
    (List.range 4).foldl (fun a k => a ^^^ gfMul (m.getD ((k + 4 - r) % 4) 0) (s.getD (4 * c + k) 0)) 0)

/-- AES encryption of one block. -/
def aesEnc (key blk : Bytes) : Bytes :=
  let ks := aesRoundKeys key
  let s := xorNats ((fit blk 16).map BitVec.toNat) (ks.headD [])
  let mid := (ks.drop 1).dropLast
  let s := mid.foldl (fun s k => xorNats (aesMix [2, 3, 1, 1] (aesShift false (s.map aesSub))) k) s
  (xorNats (aesShift false (s.map aesSub)) (ks.getLastD [])).map byte

/-- AES decryption of one block. -/
def aesDec (key blk : Bytes) : Bytes :=
  let ks := (aesRoundKeys key).reverse
  let s := xorNats ((fit blk 16).map BitVec.toNat) (ks.headD [])
  let mid := (ks.drop 1).dropLast
  let s := mid.foldl (fun s k => aesMix [14, 11, 13, 9] (xorNats ((aesShift true s).map aesInvSub) k)) s
  (xorNats ((aesShift true s).map aesInvSub) (ks.getLastD [])).map byte

/-- A bit permutation: output bit `i` (first is most significant) is input bit `t[i]`, numbered from 1 at the most
significant of `w`, as the DES tables number them. -/
def permute (w : Nat) (t : List Nat) (x : Nat) : Nat :=
  t.foldl (fun a i => a * 2 + b2n (x.testBit (w - i))) 0

/-- DES initial permutation. -/
def desIP : List Nat :=
  [58, 50, 42, 34, 26, 18, 10, 2, 60, 52, 44, 36, 28, 20, 12, 4, 62, 54, 46, 38, 30, 22, 14, 6, 64, 56, 48, 40, 32, 24, 16, 8] ++
  [57, 49, 41, 33, 25, 17, 9, 1, 59, 51, 43, 35, 27, 19, 11, 3, 61, 53, 45, 37, 29, 21, 13, 5, 63, 55, 47, 39, 31, 23, 15, 7]
/-- DES final permutation. -/
def desFP : List Nat :=
  [40, 8, 48, 16, 56, 24, 64, 32, 39, 7, 47, 15, 55, 23, 63, 31, 38, 6, 46, 14, 54, 22, 62, 30, 37, 5, 45, 13, 53, 21, 61, 29] ++
  [36, 4, 44, 12, 52, 20, 60, 28, 35, 3, 43, 11, 51, 19, 59, 27, 34, 2, 42, 10, 50, 18, 58, 26, 33, 1, 41, 9, 49, 17, 57, 25]
/-- DES expansion. -/
def desE : List Nat :=
  [32, 1, 2, 3, 4, 5, 4, 5, 6, 7, 8, 9, 8, 9, 10, 11, 12, 13, 12, 13, 14, 15, 16, 17] ++
  [16, 17, 18, 19, 20, 21, 20, 21, 22, 23, 24, 25, 24, 25, 26, 27, 28, 29, 28, 29, 30, 31, 32, 1]
/-- DES round permutation. -/
def desP : List Nat :=
  [16, 7, 20, 21, 29, 12, 28, 17, 1, 15, 23, 26, 5, 18, 31, 10] ++
  [2, 8, 24, 14, 32, 27, 3, 9, 19, 13, 30, 6, 22, 11, 4, 25]
/-- DES key selection 1. -/
def desPC1 : List Nat :=
  [57, 49, 41, 33, 25, 17, 9, 1, 58, 50, 42, 34, 26, 18, 10, 2, 59, 51, 43, 35, 27, 19, 11, 3, 60, 52, 44, 36] ++
  [63, 55, 47, 39, 31, 23, 15, 7, 62, 54, 46, 38, 30, 22, 14, 6, 61, 53, 45, 37, 29, 21, 13, 5, 28, 20, 12, 4]
/-- DES key selection 2. -/
def desPC2 : List Nat :=
  [14, 17, 11, 24, 1, 5, 3, 28, 15, 6, 21, 10, 23, 19, 12, 4, 26, 8, 16, 7, 27, 20, 13, 2] ++
  [41, 52, 31, 37, 47, 55, 30, 40, 51, 45, 33, 48, 44, 49, 39, 56, 34, 53, 46, 42, 50, 36, 29, 32]
/-- DES S-box 1, row by row. -/
def desS1 : List Nat :=
  [14, 4, 13, 1, 2, 15, 11, 8, 3, 10, 6, 12, 5, 9, 0, 7, 0, 15, 7, 4, 14, 2, 13, 1, 10, 6, 12, 11, 9, 5, 3, 8] ++
  [4, 1, 14, 8, 13, 6, 2, 11, 15, 12, 9, 7, 3, 10, 5, 0, 15, 12, 8, 2, 4, 9, 1, 7, 5, 11, 3, 14, 10, 0, 6, 13]
/-- DES S-box 2. -/
def desS2 : List Nat :=
  [15, 1, 8, 14, 6, 11, 3, 4, 9, 7, 2, 13, 12, 0, 5, 10, 3, 13, 4, 7, 15, 2, 8, 14, 12, 0, 1, 10, 6, 9, 11, 5] ++
  [0, 14, 7, 11, 10, 4, 13, 1, 5, 8, 12, 6, 9, 3, 2, 15, 13, 8, 10, 1, 3, 15, 4, 2, 11, 6, 7, 12, 0, 5, 14, 9]
/-- DES S-box 3. -/
def desS3 : List Nat :=
  [10, 0, 9, 14, 6, 3, 15, 5, 1, 13, 12, 7, 11, 4, 2, 8, 13, 7, 0, 9, 3, 4, 6, 10, 2, 8, 5, 14, 12, 11, 15, 1] ++
  [13, 6, 4, 9, 8, 15, 3, 0, 11, 1, 2, 12, 5, 10, 14, 7, 1, 10, 13, 0, 6, 9, 8, 7, 4, 15, 14, 3, 11, 5, 2, 12]
/-- DES S-box 4. -/
def desS4 : List Nat :=
  [7, 13, 14, 3, 0, 6, 9, 10, 1, 2, 8, 5, 11, 12, 4, 15, 13, 8, 11, 5, 6, 15, 0, 3, 4, 7, 2, 12, 1, 10, 14, 9] ++
  [10, 6, 9, 0, 12, 11, 7, 13, 15, 1, 3, 14, 5, 2, 8, 4, 3, 15, 0, 6, 10, 1, 13, 8, 9, 4, 5, 11, 12, 7, 2, 14]
/-- DES S-box 5. -/
def desS5 : List Nat :=
  [2, 12, 4, 1, 7, 10, 11, 6, 8, 5, 3, 15, 13, 0, 14, 9, 14, 11, 2, 12, 4, 7, 13, 1, 5, 0, 15, 10, 3, 9, 8, 6] ++
  [4, 2, 1, 11, 10, 13, 7, 8, 15, 9, 12, 5, 6, 3, 0, 14, 11, 8, 12, 7, 1, 14, 2, 13, 6, 15, 0, 9, 10, 4, 5, 3]
/-- DES S-box 6. -/
def desS6 : List Nat :=
  [12, 1, 10, 15, 9, 2, 6, 8, 0, 13, 3, 4, 14, 7, 5, 11, 10, 15, 4, 2, 7, 12, 9, 5, 6, 1, 13, 14, 0, 11, 3, 8] ++
  [9, 14, 15, 5, 2, 8, 12, 3, 7, 0, 4, 10, 1, 13, 11, 6, 4, 3, 2, 12, 9, 5, 15, 10, 11, 14, 1, 7, 6, 0, 8, 13]
/-- DES S-box 7. -/
def desS7 : List Nat :=
  [4, 11, 2, 14, 15, 0, 8, 13, 3, 12, 9, 7, 5, 10, 6, 1, 13, 0, 11, 7, 4, 9, 1, 10, 14, 3, 5, 12, 2, 15, 8, 6] ++
  [1, 4, 11, 13, 12, 3, 7, 14, 10, 15, 6, 8, 0, 5, 9, 2, 6, 11, 13, 8, 1, 4, 10, 7, 9, 5, 0, 15, 14, 2, 3, 12]
/-- DES S-box 8. -/
def desS8 : List Nat :=
  [13, 2, 8, 4, 6, 15, 11, 1, 10, 9, 3, 14, 5, 0, 12, 7, 1, 15, 13, 8, 10, 3, 7, 4, 12, 5, 6, 11, 0, 14, 9, 2] ++
  [7, 11, 4, 1, 9, 12, 14, 2, 0, 6, 10, 13, 15, 3, 5, 8, 2, 1, 14, 7, 4, 10, 8, 13, 15, 12, 9, 0, 3, 5, 6, 11]

/-- The sixteen DES round keys, first first, from an 8-byte key. -/
def desKeys (key : Bytes) : List Nat :=
  let k := permute 64 desPC1 (beNat (fit key 8))
  let rots := [1, 1, 2, 2, 2, 2, 2, 2, 1, 2, 2, 2, 2, 2, 2, 1]
  let rot (x n : Nat) := ((x <<< n) ||| (x >>> (28 - n))) % 2 ^ 28
  (rots.foldl (fun (st : (Nat × Nat) × List Nat) n =>
    let c := rot st.1.1 n; let d := rot st.1.2 n
    ((c, d), st.2 ++ [permute 56 desPC2 (c * 2 ^ 28 + d)])) ((k / 2 ^ 28, k % 2 ^ 28), [])).2

/-- The DES round function. -/
def desF (r k : Nat) : Nat :=
  let x := permute 32 desE r ^^^ k
  let boxes := [desS1, desS2, desS3, desS4, desS5, desS6, desS7, desS8]
  let y := (boxes.zip (List.range 8)).foldl (fun a bi =>
    let v := bits x (47 - 6 * bi.2) (42 - 6 * bi.2)
    a * 16 + bi.1.getD ((v / 32 * 2 + v % 2) * 16 + v / 2 % 16) 0) 0
  permute 32 desP y

/-- DES over the round keys `ks` (reversed to decrypt). -/
def desCore (ks : List Nat) (blk : Bytes) : Bytes :=
  let x := permute 64 desIP (beNat (fit blk 8))
  let lr := ks.foldl (fun (p : Nat × Nat) k => (p.2, p.1 ^^^ desF p.2 k)) (x / 2 ^ 32, x % 2 ^ 32)
  beBytes (permute 64 desFP (lr.2 * 2 ^ 32 + lr.1)) 8

/-- Single DES. -/
def desEnc (key blk : Bytes) : Bytes := desCore (desKeys key) blk
/-- Single DES, inverse. -/
def desDec (key blk : Bytes) : Bytes := desCore (desKeys key).reverse blk

/-- A TDES key of two or three parts as three parts. -/
def tdesParts (key : Bytes) : Bytes × Bytes × Bytes :=
  (slice key 0 8, slice key 8 8, if key.length ≤ 16 then slice key 0 8 else slice key 16 8)

/-- TDES encryption of one block, two- or three-part key. -/
def tdesEnc (key blk : Bytes) : Bytes :=
  let k := tdesParts key
  desEnc k.2.2 (desDec k.2.1 (desEnc k.1 blk))
/-- TDES decryption of one block. -/
def tdesDec (key blk : Bytes) : Bytes :=
  let k := tdesParts key
  desDec k.1 (desEnc k.2.1 (desDec k.2.2 blk))

/-- ECB over whole blocks of `n` bytes. -/
def ecb (n : Nat) (f : Bytes → Bytes) (m : Bytes) : Bytes := (chunks n m).flatMap f

/-- CBC encryption; answers the output and the last block (the next IV). -/
def cbcEnc (n : Nat) (f : Bytes → Bytes) (iv m : Bytes) : Bytes × Bytes :=
  (chunks n m).foldl (fun (st : Bytes × Bytes) b => let c := f (xorBytes b st.2); (st.1 ++ c, c)) ([], iv)

/-- CBC decryption; answers the output and the last ciphertext block (the next IV). -/
def cbcDec (n : Nat) (f : Bytes → Bytes) (iv m : Bytes) : Bytes × Bytes :=
  (chunks n m).foldl (fun (st : Bytes × Bytes) b => (st.1 ++ xorBytes (f b) st.2, b)) ([], iv)

/-- Counter mode with a 16-byte big-endian counter; answers the output and the next counter. -/
def ctrMode (f : Bytes → Bytes) (ctr m : Bytes) : Bytes × Bytes :=
  (chunks 16 m).foldl (fun (st : Bytes × Bytes) b =>
    (st.1 ++ xorBytes b (f st.2), beBytes (beNat st.2 + 1) 16)) ([], ctr)

/-- Doubling in CMAC's field for a block of `n` bytes. -/
def cmacDbl (n : Nat) (b : Bytes) : Bytes :=
  let x := beNat b
  beBytes (if x ≥ 2 ^ (8 * n - 1) then (2 * x) ^^^ (if n = 16 then 0x87 else 0x1B) else 2 * x) n

/-- The chaining value over whole blocks from `st` (the segments of a CMAC before its last block). -/
def cmacChain (n : Nat) (f : Bytes → Bytes) (st m : Bytes) : Bytes :=
  (chunks n m).foldl (fun s b => f (xorBytes s b)) st

/-- The last block of a CMAC, on from the chaining value `st`; `m` holds at most one block. -/
def cmacLast (n : Nat) (f : Bytes → Bytes) (st m : Bytes) : Bytes :=
  let k1 := cmacDbl n (f (zeros n))
  let b := if m.length = n then xorBytes m k1 else xorBytes (fit (m ++ [0x80]) n) (cmacDbl n k1)
  f (xorBytes st b)

/-- CMAC with block length `n`. -/
def cmac (n : Nat) (f : Bytes → Bytes) (m : Bytes) : Bytes :=
  let full := if m.length = 0 then 0 else (m.length - 1) / n * n
  cmacLast n f (cmacChain n f (zeros n) (m.take full)) (m.drop full)

/-- AES-CMAC. -/
def aesCmac (key m : Bytes) : Bytes := cmac 16 (aesEnc key) m

/-- TDES-CMAC. -/
def tdesCmac (key m : Bytes) : Bytes := cmac 8 (tdesEnc key) m

/-- CBC-MAC over whole 8-byte blocks with single DES under `k1`, then decrypt `k2` and encrypt `k1`
(ISO/IEC 9797-1 MAC algorithm 3). -/
def macAlg3 (key m : Bytes) : Bytes :=
  let k := tdesParts key
  let c := cmacChain 8 (desEnc k.1) (zeros 8) m
  desEnc k.1 (desDec k.2.1 c)

/-- AES key wrap of whole 64-bit blocks from the 8-byte initial value `iv` (SP 800-38F, W). -/
def kwRaw (key iv m : Bytes) : Bytes :=
  let r := chunks 8 m
  let n := r.length
  let st := (List.range (6 * n)).foldl (fun (st : Bytes × List Bytes) t =>
    let i := t % n
    let b := aesEnc key (st.1 ++ st.2.getD i [])
    (xorBytes (b.take 8) (beBytes (t + 1) 8), st.2.set i (b.drop 8))) (iv, r)
  st.1 ++ st.2.flatten

/-- The inverse of `kwRaw`: the initial value found and the blocks. -/
def kuRaw (key c : Bytes) : Bytes × Bytes :=
  let r := chunks 8 (c.drop 8)
  let n := r.length
  let st := (List.range (6 * n)).foldl (fun (st : Bytes × List Bytes) t =>
    let k := 6 * n - 1 - t
    let i := k % n
    let b := aesDec key (xorBytes st.1 (beBytes (k + 1) 8) ++ st.2.getD i [])
    (b.take 8, st.2.set i (b.drop 8))) (c.take 8, r)
  (st.1, st.2.flatten)

/-- AES key wrap with padding (KWP). -/
def kwpWrap (key p : Bytes) : Bytes :=
  let iv := beBytes 0xA65959A6 4 ++ beBytes p.length 4
  let pp := fit p (ceilDiv p.length 8 * 8)
  if pp.length ≤ 8 then aesEnc key (iv ++ fit pp 8) else kwRaw key iv pp

/-- Inverse of KWP: none where the check fails. -/
def kwpUnwrap (key c : Bytes) : Option Bytes :=
  let r := if c.length = 16 then let b := aesDec key c; (b.take 8, b.drop 8) else kuRaw key c
  let n := beNat (r.1.drop 4)
  if beNat (r.1.take 4) = 0xA65959A6 ∧ n ≤ r.2.length ∧ r.2.length < n + 8 ∧ (r.2.drop n).all (fun b => b == 0)
  then some (r.2.take n) else none

/-- Odd parity on every byte's low bit, as DES keys carry it. -/
def oddParity (b : Bytes) : Bytes :=
  b.map (fun x => let h := x.toNat / 2 * 2; byte (if popCount 8 h % 2 = 0 then h + 1 else h))

end Sys2Proof.Machine
end

