-- ==== Sys2Proof/Machine/Hash.lean ====
section
/-!
DEFINITION. The hash functions the device computes: SHA-1, SHA-256, SHA-384, SHA-512 (FIPS 180-4), SHA-3 (FIPS 202),
HMAC (FIPS 198-1) and GHASH (NIST SP 800-38D). The spec names the standards and does not repeat them; their constants
are PRESUMED (log entry 10).
-/
namespace Sys2Proof.Machine

/-- Words 0-7 of the SHA-512 constants (FIPS 180-4). -/
def sha512K0 : List Nat := [0x428A2F98D728AE22, 0x7137449123EF65CD, 0xB5C0FBCFEC4D3B2F, 0xE9B5DBA58189DBBC, 0x3956C25BF348B538, 0x59F111F1B605D019, 0x923F82A4AF194F9B, 0xAB1C5ED5DA6D8118]

/-- Words 8-15 of the SHA-512 constants (FIPS 180-4). -/
def sha512K1 : List Nat := [0xD807AA98A3030242, 0x12835B0145706FBE, 0x243185BE4EE4B28C, 0x550C7DC3D5FFB4E2, 0x72BE5D74F27B896F, 0x80DEB1FE3B1696B1, 0x9BDC06A725C71235, 0xC19BF174CF692694]

/-- Words 16-23 of the SHA-512 constants (FIPS 180-4). -/
def sha512K2 : List Nat := [0xE49B69C19EF14AD2, 0xEFBE4786384F25E3, 0xFC19DC68B8CD5B5, 0x240CA1CC77AC9C65, 0x2DE92C6F592B0275, 0x4A7484AA6EA6E483, 0x5CB0A9DCBD41FBD4, 0x76F988DA831153B5]

/-- Words 24-31 of the SHA-512 constants (FIPS 180-4). -/
def sha512K3 : List Nat := [0x983E5152EE66DFAB, 0xA831C66D2DB43210, 0xB00327C898FB213F, 0xBF597FC7BEEF0EE4, 0xC6E00BF33DA88FC2, 0xD5A79147930AA725, 0x6CA6351E003826F, 0x142929670A0E6E70]

/-- Words 32-39 of the SHA-512 constants (FIPS 180-4). -/
def sha512K4 : List Nat := [0x27B70A8546D22FFC, 0x2E1B21385C26C926, 0x4D2C6DFC5AC42AED, 0x53380D139D95B3DF, 0x650A73548BAF63DE, 0x766A0ABB3C77B2A8, 0x81C2C92E47EDAEE6, 0x92722C851482353B]

/-- Words 40-47 of the SHA-512 constants (FIPS 180-4). -/
def sha512K5 : List Nat := [0xA2BFE8A14CF10364, 0xA81A664BBC423001, 0xC24B8B70D0F89791, 0xC76C51A30654BE30, 0xD192E819D6EF5218, 0xD69906245565A910, 0xF40E35855771202A, 0x106AA07032BBD1B8]

/-- Words 48-55 of the SHA-512 constants (FIPS 180-4). -/
def sha512K6 : List Nat := [0x19A4C116B8D2D0C8, 0x1E376C085141AB53, 0x2748774CDF8EEB99, 0x34B0BCB5E19B48A8, 0x391C0CB3C5C95A63, 0x4ED8AA4AE3418ACB, 0x5B9CCA4F7763E373, 0x682E6FF3D6B2B8A3]

/-- Words 56-63 of the SHA-512 constants (FIPS 180-4). -/
def sha512K7 : List Nat := [0x748F82EE5DEFB2FC, 0x78A5636F43172F60, 0x84C87814A1F0AB72, 0x8CC702081A6439EC, 0x90BEFFFA23631E28, 0xA4506CEBDE82BDE9, 0xBEF9A3F7B2C67915, 0xC67178F2E372532B]

/-- Words 64-71 of the SHA-512 constants (FIPS 180-4). -/
def sha512K8 : List Nat := [0xCA273ECEEA26619C, 0xD186B8C721C0C207, 0xEADA7DD6CDE0EB1E, 0xF57D4F7FEE6ED178, 0x6F067AA72176FBA, 0xA637DC5A2C898A6, 0x113F9804BEF90DAE, 0x1B710B35131C471B]

/-- Words 72-79 of the SHA-512 constants (FIPS 180-4). -/
def sha512K9 : List Nat := [0x28DB77F523047D84, 0x32CAAB7B40C72493, 0x3C9EBE0A15C9BEBC, 0x431D67C49C100D4C, 0x4CC5D4BECB3E42B6, 0x597F299CFC657E2A, 0x5FCB6FAB3AD6FAEC, 0x6C44198C4A475817]

/-- The SHA-512 round constants; SHA-256's are the upper halves of the first 64. -/
def sha512K : List Nat :=
  sha512K0 ++ sha512K1 ++ sha512K2 ++ sha512K3 ++ sha512K4 ++ sha512K5 ++ sha512K6 ++ sha512K7 ++ sha512K8 ++ sha512K9

/-- Initial SHA-512 hash value; SHA-256's is its upper halves. -/
def sha512H : List Nat := [0x6A09E667F3BCC908, 0xBB67AE8584CAA73B, 0x3C6EF372FE94F82B, 0xA54FF53A5F1D36F1, 0x510E527FADE682D1, 0x9B05688C2B3E6C1F, 0x1F83D9ABFB41BD6B, 0x5BE0CD19137E2179]

/-- Initial SHA-384 hash value. -/
def sha384H : List Nat := [0xCBBB9D5DC1059ED8, 0x629A292A367CD507, 0x9159015A3070DD17, 0x152FECD8F70E5939, 0x67332667FFC00B31, 0x8EB44A8768581511, 0xDB0C2E0D64F98FA7, 0x47B5481DBEFA4FA4]
/-- Rotate a `w`-bit number right. -/
def rotrN (w x n : Nat) : Nat := ((x >>> n) ||| (x <<< (w - n))) % 2 ^ w

/-- The message padded to a multiple of `blk` bytes, with an `lb`-byte bit length (FIPS 180-4, 5.1), for a message
whose length with earlier blocks is `total` bytes. -/
def shaPad (blk lb total : Nat) (m : Bytes) : Bytes :=
  m ++ [0x80] ++ zeros ((2 * blk - lb - 1 - total % blk) % blk) ++ beBytes (8 * total) lb

/-- The parameters of one SHA-2 width: word bits and the six rotation triples. -/
structure ShaW where
  w : Nat
  s0 : Nat × Nat × Nat
  s1 : Nat × Nat × Nat
  S0 : Nat × Nat × Nat
  S1 : Nat × Nat × Nat
  deriving DecidableEq, Repr

/-- The 32-bit SHA-2 functions. -/
def sha32 : ShaW := ⟨32, (7, 18, 3), (17, 19, 10), (2, 13, 22), (6, 11, 25)⟩
/-- The 64-bit SHA-2 functions. -/
def sha64 : ShaW := ⟨64, (1, 8, 7), (19, 61, 6), (28, 34, 39), (14, 18, 41)⟩

/-- Small sigma: two rotations and a shift. -/
def shaSig (p : ShaW) (t : Nat × Nat × Nat) (x : Nat) : Nat :=
  rotrN p.w x t.1 ^^^ rotrN p.w x t.2.1 ^^^ (x >>> t.2.2)

/-- Big sigma: three rotations. -/
def shaSum (p : ShaW) (t : Nat × Nat × Nat) (x : Nat) : Nat :=
  rotrN p.w x t.1 ^^^ rotrN p.w x t.2.1 ^^^ rotrN p.w x t.2.2

/-- The message schedule, newest word first. -/
def shaSchedule (p : ShaW) : Nat → List Nat → List Nat
  | 0, ws => ws
  | n + 1, ws =>
    shaSchedule p n ((shaSig p p.s1 (ws.getD 1 0) + ws.getD 6 0 + shaSig p p.s0 (ws.getD 14 0) + ws.getD 15 0) % 2 ^ p.w :: ws)

/-- One SHA-2 round over the eight working variables. -/
def shaRound (p : ShaW) (v : List Nat) (kw : Nat × Nat) : List Nat :=
  match v with
  | [a, b, c, d, e, f, g, h] =>
    let ch := (e &&& f) ^^^ ((2 ^ p.w - 1 - e) &&& g)
    let maj := (a &&& b) ^^^ (a &&& c) ^^^ (b &&& c)
    let t1 := h + shaSum p p.S1 e + ch + kw.1 + kw.2
    let t2 := shaSum p p.S0 a + maj
    [(t1 + t2) % 2 ^ p.w, a, b, c, (d + t1) % 2 ^ p.w, e, f, g]
  | o => o

/-- The SHA-2 compression of one block into a hash value of eight words. -/
def shaBlock (p : ShaW) (ks : List Nat) (hv : List Nat) (blk : Bytes) : List Nat :=
  let ws := (chunks (p.w / 8) blk).map beNat
  let sched := (shaSchedule p (ks.length - 16) ws.reverse).reverse
  let v := (ks.zip sched).foldl (shaRound p) hv
  List.zipWith (fun x y => (x + y) % 2 ^ p.w) hv v

/-- SHA-256's round constants. -/
def sha256K : List Nat := (sha512K.take 64).map (fun k => k / 2 ^ 32)
/-- SHA-256's initial hash value. -/
def sha256H : List Nat := sha512H.map (fun k => k / 2 ^ 32)

/-- Run whole SHA-256 blocks. -/
def sha256Blocks (hv : List Nat) (m : Bytes) : List Nat := (chunks 64 m).foldl (shaBlock sha32 sha256K) hv
/-- Run whole SHA-512 blocks. -/
def sha512Blocks (hv : List Nat) (m : Bytes) : List Nat := (chunks 128 m).foldl (shaBlock sha64 sha512K) hv

/-- A hash value as bytes of `wb` bytes a word. -/
def hashBytes (wb : Nat) (hv : List Nat) : Bytes := hv.flatMap (fun x => beBytes x wb)

/-- SHA-256. -/
def sha256 (m : Bytes) : Bytes := hashBytes 4 (sha256Blocks sha256H (shaPad 64 8 m.length m))
/-- SHA-512. -/
def sha512 (m : Bytes) : Bytes := hashBytes 8 (sha512Blocks sha512H (shaPad 128 16 m.length m))
/-- SHA-384. -/
def sha384 (m : Bytes) : Bytes := (hashBytes 8 (sha512Blocks sha384H (shaPad 128 16 m.length m))).take 48

/-- SHA-1's round function and constant for round `t`. -/
def sha1F (t b c d : Nat) : Nat × Nat :=
  if t < 20 then ((b &&& c) ^^^ ((2 ^ 32 - 1 - b) &&& d), 0x5A827999)
  else if t < 40 then (b ^^^ c ^^^ d, 0x6ED9EBA1)
  else if t < 60 then ((b &&& c) ^^^ (b &&& d) ^^^ (c &&& d), 0x8F1BBCDC)
  else (b ^^^ c ^^^ d, 0xCA62C1D6)

/-- SHA-1's message schedule, newest word first. -/
def sha1Schedule : Nat → List Nat → List Nat
  | 0, ws => ws
  | n + 1, ws =>
    sha1Schedule n (rotrN 32 (ws.getD 2 0 ^^^ ws.getD 7 0 ^^^ ws.getD 13 0 ^^^ ws.getD 15 0) 31 :: ws)

/-- One SHA-1 round. -/
def sha1Round (v : List Nat) (tw : Nat × Nat) : List Nat :=
  match v with
  | [a, b, c, d, e] =>
    let fk := sha1F tw.1 b c d
    [(rotrN 32 a 27 + fk.1 + e + fk.2 + tw.2) % 2 ^ 32, a, rotrN 32 b 2, c, d]
  | o => o

/-- SHA-1's compression of one block. -/
def sha1Block (hv : List Nat) (blk : Bytes) : List Nat :=
  let sched := (sha1Schedule 64 ((chunks 4 blk).map beNat).reverse).reverse
  List.zipWith (fun x y => (x + y) % 2 ^ 32) hv (((List.range 80).zip sched).foldl sha1Round hv)

/-- SHA-1. -/
def sha1 (m : Bytes) : Bytes :=
  hashBytes 4 ((chunks 64 (shaPad 64 8 m.length m)).foldl sha1Block
    [0x67452301, 0xEFCDAB89, 0x98BADCFE, 0x10325476, 0xC3D2E1F0])

/-- Keccak round constants (FIPS 202). -/
def keccakRC : List Nat :=
  [0x1, 0x8082, 0x800000000000808A, 0x8000000080008000, 0x808B, 0x80000001, 0x8000000080008081, 0x8000000000008009] ++
  [0x8A, 0x88, 0x80008009, 0x8000000A, 0x8000808B, 0x800000000000008B, 0x8000000000008089, 0x8000000000008003] ++
  [0x8000000000008002, 0x8000000000000080, 0x800A, 0x800000008000000A, 0x8000000080008081, 0x8000000000008080,
    0x80000001, 0x8000000080008008]

/-- Keccak rotation offsets, lane x + 5 y. -/
def keccakRot : List Nat :=
  [0, 1, 62, 28, 27, 36, 44, 6, 55, 20, 3, 10, 43] ++ [25, 39, 41, 45, 15, 21, 8, 18, 2, 61, 56, 14]

/-- One Keccak-f[1600] round on 25 lanes. -/
def keccakRound (a : List Nat) (rc : Nat) : List Nat :=
  let at5 (l : List Nat) (i : Nat) := l.getD i 0
  let c := (List.range 5).map (fun x => at5 a x ^^^ at5 a (x + 5) ^^^ at5 a (x + 10) ^^^ at5 a (x + 15) ^^^ at5 a (x + 20))
  let d := (List.range 5).map (fun x => at5 c ((x + 4) % 5) ^^^ rotrN 64 (at5 c ((x + 1) % 5)) 63)
  let a := (List.range 25).map (fun i => at5 a i ^^^ at5 d (i % 5))
  let b := (List.range 25).map (fun i =>
    let y := i / 5; let x := i % 5
    -- destination (x, y) comes from source (x + 3 y, x)
    let src := (x + 3 * y) % 5 + 5 * x
    let r := keccakRot.getD src 0
    rotrN 64 (at5 a src) ((64 - r) % 64))
  let e := (List.range 25).map (fun i =>
    let y := i / 5; let x := i % 5
    at5 b i ^^^ ((2 ^ 64 - 1 - at5 b ((x + 1) % 5 + 5 * y)) &&& at5 b ((x + 2) % 5 + 5 * y)))
  match e with
  | h :: t => (h ^^^ rc) :: t
  | [] => []

/-- Keccak-f[1600]. -/
def keccakF (a : List Nat) : List Nat := keccakRC.foldl keccakRound a

/-- Absorb one rate block. -/
def keccakAbsorb (a : List Nat) (blk : Bytes) : List Nat :=
  keccakF (List.zipWith (fun x y => x ^^^ y) a ((chunks 8 (fit blk 200)).map leNat))

/-- The sponge with domain byte `dom`, rate `r` bytes and `out` output bytes (`out` at most `r` per squeeze). -/
def keccakSponge (r : Nat) (dom : Byte) (out : Nat) (m : Bytes) : Bytes :=
  let pad := r - m.length % r
  let p := if pad = 1 then [dom ||| 0x80] else [dom] ++ zeros (pad - 2) ++ [0x80]
  let a := (chunks r (m ++ p)).foldl keccakAbsorb (List.replicate 25 0)
  let sq := ((List.range (ceilDiv out r)).foldl (fun (st : List Nat × Bytes) _ =>
    (keccakF st.1, st.2 ++ ((st.1.flatMap (fun x => leBytes x 8)).take r))) (a, [])).2
  sq.take out

/-- SHA3-256, SHA3-384, SHA3-512 by output length in bytes. -/
def sha3 (out : Nat) (m : Bytes) : Bytes := keccakSponge (200 - 2 * out) 0x06 out m

/-- SHAKE256. -/
def shake256 (out : Nat) (m : Bytes) : Bytes := keccakSponge 136 0x1F out m

/-- HMAC over a hash with block length `blk`. -/
def hmac (h : Bytes → Bytes) (blk : Nat) (key m : Bytes) : Bytes :=
  let k := fit (if key.length > blk then h key else key) blk
  h (k.map (fun b => b ^^^ 0x5C) ++ h (k.map (fun b => b ^^^ 0x36) ++ m))

/-- Multiplication in GHASH's field, bits in the order of SP 800-38D (leftmost bit is the coefficient of 1). -/
def ghashMul (x y : Nat) : Nat :=
  ((List.range 128).foldl (fun (zv : Nat × Nat) i =>
    (if x.testBit (127 - i) then zv.1 ^^^ zv.2 else zv.1,
     if zv.2 % 2 = 1 then (zv.2 / 2) ^^^ (0xE1 <<< 120) else zv.2 / 2)) (0, y)).1

/-- GHASH of whole 16-byte blocks on from a state, under the hash key `hk`. -/
def ghash (hk st m : Bytes) : Bytes :=
  beBytes ((chunks 16 m).foldl (fun y b => ghashMul (y ^^^ beNat (fit b 16)) (beNat hk)) (beNat st)) 16

/-- CRC-32 of IEEE 802.3, over bytes. -/
def crc32 (m : Bytes) : Nat :=
  (m.foldl (fun c b =>
    (List.range 8).foldl (fun c _ => if c % 2 = 1 then (c / 2) ^^^ 0xEDB88320 else c / 2) (c ^^^ b.toNat))
    0xFFFFFFFF) ^^^ 0xFFFFFFFF

/-- CRC-16, polynomial 0x1021, initial 0xFFFF, no reflection, no final XOR (R76). -/
def crc16 (m : Bytes) : Nat :=
  m.foldl (fun c b =>
    (List.range 8).foldl (fun c _ => if c ≥ 0x8000 then ((c * 2) ^^^ 0x1021) % 0x10000 else (c * 2) % 0x10000)
      (c ^^^ (b.toNat * 256))) 0xFFFF

end Sys2Proof.Machine
end

