-- ==== Sys2Proof/Machine/DictTable.lean ====
section
/-!
DEFINITION. The entries of the parameter dictionary, as the chapters' entry tables give them (R95, R106): index range,
subindex range, type, rights (R92), persistence and effect (R95), default and numeric range. Subindex 00 of every index
is not listed: it is the highest subindex (R93). A range narrower than the type that the table states is the row's last
two numbers; a counter entry accepts only 0, and its range is 0 to 0. Ranges that are no plain interval, and defaults that differ within
a row, are in Machine/DictOps.lean.
-/
namespace Sys2Proof.Machine

/-- Entry types (R93): a number of so many bytes, a Boolean, a two's complement 32-bit number, a byte string. -/
inductive Ty where
  | num (w : Nat)
  | bool
  | i32
  | bytes (n : Nat)
  deriving DecidableEq, Repr

/-- Persistence of an entry (R95): F, V or P. -/
inductive Store where
  | fixed
  | volat
  | persist
  deriving DecidableEq, Repr

/-- When a write takes effect (R95): never named, I, E, B or C. -/
inductive Effect where
  | none
  | now
  | flip
  | bringup
  | close
  deriving DecidableEq, Repr

/-- One row of an entry table. Rights are a sum over the letters of R92: S 1, O 2, P 4, W 8, C 16, V 32. -/
structure Ent where
  lo : Nat
  hi : Nat
  slo : Nat
  shi : Nat
  ty : Ty
  rd : Nat
  wr : Nat
  store : Store
  eff : Effect
  dflt : Bytes
  mn : Nat
  mx : Nat
  deriving DecidableEq, Repr

/-- Entry rows 1000 to 1010. -/
def entTab0 : List Ent :=
  [ ⟨0x1000, 0x1000, 0x1, 0x1, .bytes 16, 1, 0, .fixed, .none, ascii "Tvedmor", 0, 0⟩ -- Vendor
  , ⟨0x1000, 0x1000, 0x2, 0x2, .bytes 16, 1, 0, .fixed, .none, ascii "SV6400", 0, 0⟩ -- Device
  , ⟨0x1000, 0x1000, 0x3, 0x3, .bytes 16, 1, 0, .fixed, .none, ascii "SV6400-FB", 0, 0⟩ -- Order code
  , ⟨0x1000, 0x1000, 0x4, 0x4, .num 2, 1, 0, .fixed, .none, zeros 2, 0, 0⟩ -- Stepping
  , ⟨0x1000, 0x1000, 0x5, 0x5, .num 8, 1, 0, .fixed, .none, zeros 8, 0, 0⟩ -- Serial number
  , ⟨0x1000, 0x1000, 0x6, 0x6, .bytes 97, 1, 0, .fixed, .none, [], 0, 0⟩ -- Attestation identity key
  , ⟨0x1000, 0x1000, 0x7, 0x7, .bytes 2048, 1, 0, .fixed, .none, [], 0, 0⟩ -- Identity certificate
  , ⟨0x1000, 0x1000, 0x8, 0x8, .bytes 2048, 1, 0, .fixed, .none, [], 0, 0⟩ -- Vendor intermediate certificate
  , ⟨0x1001, 0x1001, 0x1, 0x4, .num 8, 1, 0, .fixed, .none, zeros 8, 0, 0⟩ -- Die identifiers
  , ⟨0x1001, 0x1001, 0x5, 0x8, .num 2, 1, 0, .fixed, .none, zeros 2, 0, 0⟩ -- Die steppings
  , ⟨0x1002, 0x1002, 0x1, 0x1, .num 4, 1, 0, .fixed, .none, zeros 4, 0, 0⟩ -- Key-die ROM version
  , ⟨0x1002, 0x1002, 0x2, 0x2, .num 4, 1, 0, .fixed, .none, zeros 4, 0, 0⟩ -- Anise ROM version
  , ⟨0x1002, 0x1002, 0x3, 0x3, .num 4, 1, 0, .volat, .none, zeros 4, 0, 0⟩ -- Supervisor base version
  , ⟨0x1002, 0x1002, 0x4, 0x4, .num 2, 1, 0, .volat, .none, zeros 2, 0, 0⟩ -- Supervisor security version
  , ⟨0x1010, 0x1010, 0x1, 0x1, .num 1, 1, 0, .fixed, .none, beBytes 64 1, 0, 0⟩ -- Lanes presented
  , ⟨0x1010, 0x1010, 0x2, 0x2, .num 1, 1, 0, .fixed, .none, beBytes 68 1, 0, 0⟩ -- Lanes physical
  , ⟨0x1010, 0x1010, 0x3, 0x3, .num 1, 1, 0, .fixed, .none, beBytes 16 1, 0, 0⟩ -- Quads
  , ⟨0x1010, 0x1010, 0x4, 0x4, .num 1, 1, 0, .fixed, .none, beBytes 24 1, 0, 0⟩ -- PK engines
  , ⟨0x1010, 0x1010, 0x5, 0x5, .num 1, 1, 0, .fixed, .none, beBytes 32 1, 0, 0⟩ -- Transaction ports
  , ⟨0x1010, 0x1010, 0x6, 0x6, .num 1, 1, 0, .fixed, .none, beBytes 8 1, 0, 0⟩ -- Mirror links
  , ⟨0x1010, 0x1010, 0x7, 0x7, .num 1, 1, 0, .fixed, .none, beBytes 64 1, 0, 0⟩ -- Enclosure channels
  , ⟨0x1010, 0x1010, 0x8, 0x8, .num 4, 1, 0, .fixed, .none, beBytes 65536 4, 0, 0⟩ -- Key store slots
  , ⟨0x1010, 0x1010, 0x9, 0x9, .num 4, 1, 0, .fixed, .none, beBytes 262144 4, 0, 0⟩ -- Node table entries
  , ⟨0x1010, 0x1010, 0xA, 0xA, .num 2, 1, 0, .fixed, .none, beBytes 256 2, 0, 0⟩ -- Anchors
  , ⟨0x1010, 0x1010, 0xB, 0xB, .num 2, 1, 0, .fixed, .none, beBytes 256 2, 0, 0⟩ -- Operation classes
  ]

/-- Entry rows 1011 to 10E0. -/
def entTab1 : List Ent :=
  [ ⟨0x1011, 0x1011, 0x1, 0x1, .num 8, 1, 0, .fixed, .none, beBytes 32767 8, 0, 0⟩ -- Feature map
  , ⟨0x1020, 0x1020, 0x1, 0x1, .num 4, 1, 0, .volat, .none, beBytes 4000000 4, 0, 0⟩ -- Rated authorisation-class rate
  , ⟨0x1020, 0x1020, 0x2, 0x2, .num 4, 1, 0, .volat, .none, beBytes 10000000 4, 0, 0⟩ -- Rated PIN translation rate
  , ⟨0x1020, 0x1020, 0x3, 0x3, .num 4, 1, 0, .volat, .none, beBytes 190000 4, 0, 0⟩ -- Rated RSA-2048 CRT private
  , ⟨0x1020, 0x1020, 0x4, 0x4, .num 4, 1, 0, .volat, .none, beBytes 24000 4, 0, 0⟩ -- Rated RSA-4096 private
  , ⟨0x1020, 0x1020, 0x5, 0x5, .num 4, 1, 0, .volat, .none, beBytes 720000 4, 0, 0⟩ -- Rated ECDSA P-256 sign
  , ⟨0x1020, 0x1020, 0x6, 0x6, .num 4, 1, 0, .volat, .none, beBytes 380000 4, 0, 0⟩ -- Rated ECDSA P-256 verify
  , ⟨0x1020, 0x1020, 0x7, 0x7, .num 4, 1, 0, .volat, .none, beBytes 900000 4, 0, 0⟩ -- Rated Ed25519 sign
  , ⟨0x1020, 0x1020, 0x8, 0x8, .num 1, 1, 0, .volat, .none, beBytes 64 1, 0, 0⟩ -- Lanes in service
  , ⟨0x1020, 0x1020, 0x9, 0x9, .num 1, 1, 0, .volat, .none, beBytes 16 1, 0, 0⟩ -- Quads in service
  , ⟨0x1020, 0x1020, 0xA, 0xA, .num 1, 1, 0, .volat, .none, beBytes 24 1, 0, 0⟩ -- PK engines in service
  , ⟨0x1020, 0x1020, 0xB, 0xB, .num 8, 1, 0, .volat, .none, zeros 8, 0, 0⟩ -- Rated figures time
  , ⟨0x1080, 0x1080, 0x1, 0x1, .bytes 4096, 1, 0, .volat, .none, [], 0, 0⟩ -- Random bytes
  , ⟨0x1080, 0x1080, 0x2, 0x2, .num 8, 1, 0, .volat, .none, zeros 8, 0, 0⟩ -- Random reads served
  , ⟨0x10E0, 0x10E0, 0x1, 0x1, .num 1, 1, 0, .volat, .none, zeros 1, 0, 0⟩ -- Session role
  , ⟨0x10E0, 0x10E0, 0x2, 0x2, .num 1, 1, 0, .volat, .none, zeros 1, 0, 0⟩ -- Session transport
  , ⟨0x10E0, 0x10E0, 0x3, 0x3, .num 8, 2, 0, .volat, .none, zeros 8, 0, 0⟩ -- Session open since
  , ⟨0x10E0, 0x10E0, 0x4, 0x4, .num 4, 2, 8, .persist, .now, beBytes 30000 4, 1000, 600000⟩ -- Idle timeout
  , ⟨0x10E0, 0x10E0, 0x5, 0x5, .num 4, 2, 8, .volat, .now, zeros 4, 0, 0⟩ -- BUSY refusals
  , ⟨0x10E0, 0x10E0, 0x6, 0x6, .num 4, 2, 8, .volat, .now, zeros 4, 0, 0⟩ -- Authentication failures
  , ⟨0x10E0, 0x10E0, 0x7, 0x7, .num 2, 2, 0, .volat, .none, zeros 2, 0, 0⟩ -- Session credential
  ]

/-- Entry rows 10F0 to 2000. -/
def entTab2 : List Ent :=
  [ ⟨0x10F0, 0x10F0, 0x1, 0x1, .num 1, 1, 0, .fixed, .none, beBytes 1 1, 0, 0⟩ -- Protocol version
  , ⟨0x1100, 0x1100, 0x1, 0x1, .num 1, 1, 0, .fixed, .none, zeros 1, 0, 0⟩ -- Life-cycle state
  , ⟨0x1100, 0x1100, 0x2, 0x2, .num 1, 1, 0, .volat, .none, zeros 1, 0, 0⟩ -- Mode
  , ⟨0x1100, 0x1100, 0x3, 0x3, .num 1, 2, 0, .volat, .none, zeros 1, 0, 0⟩ -- Return mode
  , ⟨0x1100, 0x1100, 0x4, 0x4, .num 8, 2, 0, .volat, .none, zeros 8, 0, 0⟩ -- Mode since
  , ⟨0x1100, 0x1100, 0x5, 0x5, .num 1, 0, 60, .volat, .now, zeros 1, 0, 255⟩ -- Mode request
  , ⟨0x1100, 0x1100, 0x6, 0x6, .num 1, 2, 8, .persist, .bringup, beBytes 2 1, 2, 4⟩ -- Start mode
  , ⟨0x1100, 0x1100, 0x7, 0x7, .num 1, 0, 40, .volat, .now, zeros 1, 1, 1⟩ -- Retire
  , ⟨0x1100, 0x1100, 0x8, 0x8, .num 1, 0, 32, .volat, .now, zeros 1, 1, 1⟩ -- Debug unlock arm
  , ⟨0x2000, 0x201F, 0x1, 0x1, .bool, 2, 8, .persist, .now, beBytes 1 1, 0, 1⟩ -- Enable
  , ⟨0x2000, 0x201F, 0x2, 0x2, .num 1, 2, 8, .persist, .now, zeros 1, 0, 1⟩ -- Rate
  , ⟨0x2000, 0x201F, 0x3, 0x3, .bool, 2, 8, .persist, .now, beBytes 1 1, 0, 1⟩ -- RS-FEC
  , ⟨0x2000, 0x201F, 0x4, 0x4, .bytes 6, 2, 8, .persist, .now, [], 0, 0⟩ -- MAC address
  , ⟨0x2000, 0x201F, 0x5, 0x5, .num 1, 2, 8, .persist, .now, zeros 1, 0, 2⟩ -- Framing
  , ⟨0x2000, 0x201F, 0x6, 0x6, .bool, 2, 8, .persist, .now, zeros 1, 0, 1⟩ -- Prefix counts itself
  , ⟨0x2000, 0x201F, 0x7, 0x7, .num 1, 2, 8, .persist, .now, zeros 1, 0, 1⟩ -- Response format
  , ⟨0x2000, 0x201F, 0x8, 0x8, .num 2, 2, 8, .persist, .now, beBytes 34997 2, 1536, 65535⟩ -- Direct EtherType
  , ⟨0x2000, 0x201F, 0x9, 0x9, .num 2, 2, 8, .persist, .now, zeros 2, 0, 4094⟩ -- VLAN ID
  , ⟨0x2000, 0x201F, 0xA, 0xA, .bytes 6, 2, 8, .persist, .now, [], 0, 0⟩ -- Peer MAC
  , ⟨0x2000, 0x201F, 0xB, 0xB, .num 4, 2, 8, .persist, .now, zeros 4, 0, 4294967295⟩ -- IPv4 address
  , ⟨0x2000, 0x201F, 0xC, 0xC, .num 1, 2, 8, .persist, .now, beBytes 24 1, 1, 30⟩ -- IPv4 prefix length
  , ⟨0x2000, 0x201F, 0xD, 0xD, .bytes 16, 2, 8, .persist, .now, [], 0, 0⟩ -- IPv6 address
  , ⟨0x2000, 0x201F, 0xE, 0xE, .bytes 16, 2, 8, .persist, .now, [], 0, 0⟩ -- Next hop
  , ⟨0x2000, 0x201F, 0xF, 0xF, .bytes 16, 2, 8, .persist, .now, [], 0, 0⟩ -- Peer address
  , ⟨0x2000, 0x201F, 0x10, 0x10, .num 1, 2, 8, .persist, .now, zeros 1, 0, 1⟩ -- TCP role
  , ⟨0x2000, 0x201F, 0x11, 0x11, .num 2, 2, 8, .persist, .now, beBytes 5000 2, 1, 65535⟩ -- Local TCP port
  , ⟨0x2000, 0x201F, 0x12, 0x12, .num 2, 2, 8, .persist, .now, zeros 2, 0, 65535⟩ -- Peer TCP port
  , ⟨0x2000, 0x201F, 0x13, 0x13, .num 2, 2, 8, .persist, .now, beBytes 1500 2, 1280, 9000⟩ -- MTU
  , ⟨0x2000, 0x201F, 0x14, 0x14, .num 4, 2, 8, .persist, .now, beBytes 1000 4, 100, 1000000⟩ -- Minimum RTO
  , ⟨0x2000, 0x201F, 0x15, 0x15, .num 1, 2, 8, .persist, .now, beBytes 8 1, 1, 15⟩ -- Retransmission limit
  , ⟨0x2000, 0x201F, 0x16, 0x16, .num 4, 2, 8, .persist, .now, beBytes 10000 4, 0, 4294967295⟩ -- Keepalive idle
  , ⟨0x2000, 0x201F, 0x17, 0x17, .num 4, 2, 8, .persist, .now, beBytes 1000 4, 100, 60000⟩ -- Keepalive interval
  , ⟨0x2000, 0x201F, 0x18, 0x18, .num 1, 2, 8, .persist, .now, beBytes 5 1, 1, 15⟩ -- Keepalive probes
  , ⟨0x2000, 0x201F, 0x19, 0x19, .num 4, 2, 8, .persist, .now, beBytes 262144 4, 0, 4294967295⟩ -- Congestion window floor
  , ⟨0x2000, 0x201F, 0x1A, 0x1A, .num 4, 2, 8, .persist, .now, beBytes 100 4, 10, 60000⟩ -- Reconnect delay
  , ⟨0x2000, 0x201F, 0x1B, 0x1B, .num 8, 2, 8, .persist, .flip, zeros 8, 0, 18446744073709551615⟩ -- Lane group
  , ⟨0x2000, 0x201F, 0x1C, 0x1C, .num 1, 2, 8, .persist, .flip, zeros 1, 0, 16⟩ -- Classifier slot
  , ⟨0x2000, 0x201F, 0x1D, 0x1D, .bool, 2, 0, .volat, .none, zeros 1, 0, 0⟩ -- Link up
  , ⟨0x2000, 0x201F, 0x1E, 0x1E, .num 1, 2, 0, .volat, .none, zeros 1, 0, 0⟩ -- TCP state
  , ⟨0x2000, 0x201F, 0x1F, 0x1F, .num 2, 2, 0, .volat, .none, zeros 2, 0, 0⟩ -- Outstanding
  , ⟨0x2000, 0x201F, 0x20, 0x20, .num 8, 2, 0, .volat, .none, zeros 8, 0, 0⟩ -- Arrival sequence
  ]

/-- Entry rows 2020 to 2040. -/
def entTab3 : List Ent :=
  [ ⟨0x2020, 0x2020, 0x1, 0x1, .num 2, 1, 0, .fixed, .none, beBytes 7997 2, 0, 0⟩ -- Vendor ID
  , ⟨0x2020, 0x2020, 0x2, 0x2, .num 2, 1, 0, .fixed, .none, beBytes 25600 2, 0, 0⟩ -- Device ID
  , ⟨0x2020, 0x2020, 0x3, 0x3, .num 1, 2, 0, .volat, .none, zeros 1, 0, 0⟩ -- Link width
  , ⟨0x2020, 0x2020, 0x4, 0x4, .num 1, 2, 0, .volat, .none, zeros 1, 0, 0⟩ -- Link rate
  , ⟨0x2020, 0x2020, 0x5, 0x8, .num 8, 2, 8, .persist, .flip, zeros 8, 0, 18446744073709551615⟩ -- HQ0–HQ3 lane group
  , ⟨0x2020, 0x2020, 0x9, 0xC, .num 1, 2, 8, .persist, .flip, zeros 1, 0, 16⟩ -- HQ0–HQ3 classifier slot
  , ⟨0x2030, 0x2037, 0x1, 0x1, .bool, 2, 8, .persist, .now, zeros 1, 0, 1⟩ -- Link enable
  , ⟨0x2030, 0x2037, 0x2, 0x2, .num 4, 2, 0, .volat, .none, zeros 4, 0, 0⟩ -- Link state
  , ⟨0x2030, 0x2037, 0x3, 0x3, .num 8, 2, 0, .volat, .none, zeros 8, 0, 0⟩ -- Peer SERIAL
  , ⟨0x2040, 0x2040, 0x1, 0x1, .bool, 2, 8, .persist, .close, beBytes 1 1, 0, 1⟩ -- MGE enable
  , ⟨0x2040, 0x2040, 0x2, 0x2, .bytes 6, 2, 8, .persist, .close, [], 0, 0⟩ -- MGE MAC address
  , ⟨0x2040, 0x2040, 0x3, 0x3, .num 4, 2, 8, .persist, .close, beBytes 3232251905 4, 0, 4294967295⟩ -- IPv4 address
  , ⟨0x2040, 0x2040, 0x4, 0x4, .num 1, 2, 8, .persist, .close, beBytes 24 1, 1, 30⟩ -- IPv4 prefix length
  , ⟨0x2040, 0x2040, 0x5, 0x5, .bytes 16, 2, 8, .persist, .close, [], 0, 0⟩ -- IPv6 global address
  , ⟨0x2040, 0x2040, 0x6, 0x6, .num 2, 2, 8, .persist, .close, beBytes 47820 2, 1024, 65535⟩ -- Dictionary UDP port
  , ⟨0x2040, 0x2040, 0x7, 0x7, .num 4, 2, 8, .volat, .now, zeros 4, 0, 0⟩ -- Requests received
  , ⟨0x2040, 0x2040, 0x8, 0x8, .num 4, 2, 8, .volat, .now, zeros 4, 0, 0⟩ -- Tag failures
  , ⟨0x2040, 0x2040, 0x9, 0x9, .num 4, 2, 8, .volat, .now, zeros 4, 0, 0⟩ -- Sequence failures
  , ⟨0x2040, 0x2040, 0xA, 0xA, .num 4, 2, 8, .volat, .now, zeros 4, 0, 0⟩ -- Fragmented requests dropped
  ]

/-- Entry rows 2041 to 3000. -/
def entTab4 : List Ent :=
  [ ⟨0x2041, 0x2041, 0x1, 0x1, .bool, 2, 8, .persist, .bringup, beBytes 1 1, 0, 1⟩ -- MS enable
  , ⟨0x2041, 0x2041, 0x2, 0x2, .num 1, 2, 8, .persist, .bringup, beBytes 58 1, 8, 119⟩ -- MS target address
  , ⟨0x2041, 0x2041, 0x3, 0x3, .bool, 2, 8, .persist, .bringup, beBytes 1 1, 0, 1⟩ -- Wake on address match
  , ⟨0x2041, 0x2041, 0x4, 0x4, .num 4, 2, 8, .volat, .now, zeros 4, 0, 0⟩ -- CRC failures
  , ⟨0x2042, 0x2042, 0x1, 0x1, .bool, 2, 8, .persist, .bringup, beBytes 1 1, 0, 1⟩ -- MS enable
  , ⟨0x2042, 0x2042, 0x2, 0x2, .num 1, 2, 8, .persist, .bringup, beBytes 59 1, 8, 119⟩ -- MS target address
  , ⟨0x2042, 0x2042, 0x3, 0x3, .bool, 2, 8, .persist, .bringup, beBytes 1 1, 0, 1⟩ -- Wake on address match
  , ⟨0x2042, 0x2042, 0x4, 0x4, .num 4, 2, 8, .volat, .now, zeros 4, 0, 0⟩ -- CRC failures
  , ⟨0x2101, 0x2110, 0x1, 0x1, .bytes 6144, 0, 8, .volat, .now, [], 0, 0⟩ -- Staged image
  , ⟨0x2101, 0x2110, 0x2, 0x2, .num 1, 0, 8, .volat, .now, zeros 1, 1, 1⟩ -- Install
  , ⟨0x2101, 0x2110, 0x3, 0x3, .bytes 48, 2, 0, .persist, .none, [], 0, 0⟩ -- Installed digest
  , ⟨0x2101, 0x2110, 0x4, 0x4, .num 4, 2, 0, .persist, .none, zeros 4, 0, 0⟩ -- Installed version
  , ⟨0x3000, 0x3000, 0x1, 0x1, .num 1, 2, 8, .persist, .flip, zeros 1, 0, 1⟩ -- Placement policy
  , ⟨0x3000, 0x3000, 0x2, 0x2, .num 4, 2, 0, .volat, .none, beBytes 1 4, 0, 0⟩ -- Current epoch
  , ⟨0x3000, 0x3000, 0x3, 0x3, .num 4, 2, 0, .volat, .none, zeros 4, 0, 0⟩ -- Previous epoch
  , ⟨0x3000, 0x3000, 0x4, 0x4, .num 8, 2, 0, .volat, .none, zeros 8, 0, 0⟩ -- Last flip time
  , ⟨0x3000, 0x3000, 0x5, 0x5, .num 4, 2, 8, .persist, .now, beBytes 1000 4, 100, 100000⟩ -- Acknowledgement timeout
  , ⟨0x3000, 0x3000, 0x6, 0x6, .num 1, 0, 8, .volat, .now, zeros 1, 1, 1⟩ -- Flip
  , ⟨0x3000, 0x3000, 0x7, 0x7, .num 2, 2, 0, .volat, .none, zeros 2, 0, 0⟩ -- Pending writes
  , ⟨0x3000, 0x3000, 0x8, 0x8, .bool, 2, 0, .volat, .none, zeros 1, 0, 0⟩ -- Change in progress
  ]

/-- Entry rows 3002 to 3100. -/
def entTab5 : List Ent :=
  [ ⟨0x3002, 0x3002, 0x1, 0x1, .num 4, 2, 8, .persist, .flip, beBytes 200 4, 20, 1000⟩ -- Audit signing window
  , ⟨0x3002, 0x3002, 0x2, 0x2, .num 1, 2, 0, .volat, .none, beBytes 11 1, 0, 0⟩ -- Audit engine CD0
  , ⟨0x3002, 0x3002, 0x3, 0x3, .num 1, 2, 0, .volat, .none, beBytes 23 1, 0, 0⟩ -- Audit engine CD1
  , ⟨0x3002, 0x3002, 0x4, 0x4, .num 4, 2, 0, .volat, .none, zeros 4, 0, 0⟩ -- Audit signing work
  , ⟨0x3002, 0x3002, 0x5, 0x5, .num 4, 2, 0, .volat, .none, zeros 4, 0, 0⟩ -- Audit yield interval
  , ⟨0x3003, 0x3003, 0x1, 0x1, .num 8, 2, 0, .volat, .none, zeros 8, 0, 0⟩ -- Lanes under test
  , ⟨0x3003, 0x3003, 0x2, 0x2, .num 4, 2, 0, .volat, .none, zeros 4, 0, 0⟩ -- PK engines under test
  , ⟨0x3003, 0x3003, 0x3, 0x3, .bytes 16, 2, 0, .volat, .none, zeros 16, 0, 0⟩ -- Cluster units under test
  , ⟨0x3010, 0x3033, 0x1, 0x1, .num 1, 2, 8, .persist, .flip, beBytes 8 1, 1, 32⟩ -- Response window K
  , ⟨0x3010, 0x3033, 0x2, 0x2, .num 1, 2, 8, .persist, .flip, beBytes 16 1, 0, 64⟩ -- Self-issue reserve S
  , ⟨0x3010, 0x3033, 0x3, 0x3, .num 2, 2, 8, .persist, .flip, beBytes 512 2, 16, 8192⟩ -- Response limit RL
  , ⟨0x3010, 0x3033, 0x4, 0x4, .num 4, 2, 0, .volat, .none, zeros 4, 0, 0⟩ -- Egress wait
  , ⟨0x3010, 0x3033, 0x5, 0x5, .num 2, 2, 0, .volat, .none, zeros 2, 0, 0⟩ -- Unsent admitted
  , ⟨0x3100, 0x31FF, 0x1, 0x1, .bool, 2, 8, .persist, .flip, zeros 1, 0, 1⟩ -- Enable
  , ⟨0x3100, 0x31FF, 0x2, 0x2, .num 2, 2, 8, .persist, .flip, zeros 2, 0, 65535⟩ -- Program image
  , ⟨0x3100, 0x31FF, 0x3, 0x3, .bool, 2, 8, .persist, .flip, zeros 1, 0, 1⟩ -- Serve in CEREMONY
  , ⟨0x3100, 0x31FF, 0x4, 0x4, .bool, 2, 8, .persist, .flip, beBytes 1 1, 0, 1⟩ -- Serve in UPDATE
  , ⟨0x3100, 0x31FF, 0x5, 0x5, .num 4, 2, 8, .persist, .flip, beBytes 20 4, 1, 1048575⟩ -- Default deadline DLDEF
  , ⟨0x3100, 0x31FF, 0x6, 0x6, .num 4, 2, 8, .persist, .flip, beBytes 2000 4, 0, 1000000⟩ -- Hand-back reserve HB
  , ⟨0x3100, 0x31FF, 0x7, 0x7, .bool, 2, 8, .persist, .flip, zeros 1, 0, 1⟩ -- VAS booking
  , ⟨0x3100, 0x31FF, 0x8, 0x8, .num 4, 2, 0, .volat, .none, zeros 4, 0, 0⟩ -- C1
  , ⟨0x3100, 0x31FF, 0x9, 0x9, .num 4, 2, 0, .volat, .none, zeros 4, 0, 0⟩ -- C2
  , ⟨0x3100, 0x31FF, 0xA, 0xA, .num 4, 2, 0, .volat, .none, zeros 4, 0, 0⟩ -- NAES
  , ⟨0x3100, 0x31FF, 0xB, 0xB, .num 1, 2, 0, .volat, .none, zeros 1, 0, 0⟩ -- SU
  , ⟨0x3100, 0x31FF, 0xC, 0xC, .num 4, 2, 0, .volat, .none, zeros 4, 0, 0⟩ -- DU[0–3]
  , ⟨0x3100, 0x31FF, 0xD, 0xD, .num 2, 2, 0, .volat, .none, zeros 2, 0, 0⟩ -- PKOP
  , ⟨0x3100, 0x31FF, 0xE, 0xE, .num 4, 2, 0, .volat, .none, zeros 4, 0, 0⟩ -- PKW
  , ⟨0x3100, 0x31FF, 0xF, 0xF, .num 4, 2, 0, .volat, .none, zeros 4, 0, 0⟩ -- PKY
  , ⟨0x3100, 0x31FF, 0x10, 0x10, .num 1, 2, 0, .volat, .none, zeros 1, 0, 0⟩ -- PKK
  , ⟨0x3100, 0x31FF, 0x11, 0x11, .num 4, 2, 0, .volat, .none, zeros 4, 0, 0⟩ -- VASW
  , ⟨0x3100, 0x31FF, 0x12, 0x12, .num 2, 2, 0, .volat, .none, zeros 2, 0, 0⟩ -- RMAX
  ]

/-- Entry rows 3800 to 4000. -/
def entTab6 : List Ent :=
  [ ⟨0x3800, 0x3800, 0x1, 0x1, .num 4, 2, 8, .persist, .bringup, beBytes 1000 4, 250, 1000000⟩ -- Audit interval I
  , ⟨0x3800, 0x3800, 0x2, 0x2, .num 1, 2, 8, .persist, .bringup, beBytes 2 1, 1, 3⟩ -- Audit key algorithm
  , ⟨0x3800, 0x3800, 0x3, 0x3, .num 4, 2, 8, .persist, .now, beBytes 2000 4, 500, 100000⟩ -- Chunk flush time
  , ⟨0x3800, 0x3800, 0x4, 0x4, .num 8, 2, 0, .volat, .none, zeros 8, 0, 0⟩ -- BOOTID
  , ⟨0x3800, 0x3800, 0x5, 0x5, .bytes 97, 1, 0, .volat, .none, [], 0, 0⟩ -- Audit public key
  , ⟨0x3800, 0x3800, 0x6, 0x6, .bytes 2048, 1, 0, .volat, .none, [], 0, 0⟩ -- Audit key attestation
  , ⟨0x3801, 0x3802, 0x1, 0x1, .num 8, 2, 0, .volat, .none, zeros 8, 0, 0⟩ -- Last block closed
  , ⟨0x3801, 0x3802, 0x2, 0x2, .num 8, 2, 0, .volat, .none, zeros 8, 0, 0⟩ -- Next record number
  , ⟨0x3801, 0x3802, 0x3, 0x3, .bytes 192, 1, 0, .volat, .none, [], 0, 0⟩ -- Last header
  , ⟨0x3801, 0x3802, 0x4, 0x4, .bytes 112, 1, 0, .volat, .none, [], 0, 0⟩ -- Last signature item
  , ⟨0x3801, 0x3802, 0x5, 0x5, .num 4, 2, 0, .volat, .none, zeros 4, 0, 0⟩ -- Audit buffer held
  , ⟨0x4000, 0x403F, 0x1, 0x1, .num 1, 2, 0, .volat, .none, zeros 1, 0, 0⟩ -- Health
  , ⟨0x4000, 0x403F, 0x2, 0x2, .num 1, 2, 0, .volat, .none, zeros 1, 0, 0⟩ -- Fence cause
  , ⟨0x4000, 0x403F, 0x3, 0x3, .num 1, 2, 0, .volat, .none, beBytes 255 1, 0, 0⟩ -- Served by
  , ⟨0x4000, 0x403F, 0x4, 0x4, .num 8, 2, 0, .volat, .none, zeros 8, 0, 0⟩ -- Fence time
  , ⟨0x4000, 0x403F, 0x5, 0x5, .num 4, 2, 0, .volat, .none, zeros 4, 0, 0⟩ -- Bank A epoch
  , ⟨0x4000, 0x403F, 0x6, 0x6, .num 4, 2, 0, .volat, .none, zeros 4, 0, 0⟩ -- Bank B epoch
  , ⟨0x4000, 0x403F, 0x7, 0x7, .num 1, 2, 0, .volat, .none, zeros 1, 0, 0⟩ -- Bank states
  , ⟨0x4000, 0x403F, 0x8, 0x8, .num 4, 2, 8, .volat, .now, zeros 4, 0, 0⟩ -- Highest run cycles
  , ⟨0x4000, 0x403F, 0x9, 0x9, .num 4, 2, 8, .volat, .now, zeros 4, 0, 0⟩ -- Overruns
  , ⟨0x4000, 0x403F, 0xA, 0xA, .num 1, 0, 8, .volat, .now, zeros 1, 1, 2⟩ -- Fence request
  , ⟨0x4000, 0x403F, 0xB, 0xB, .num 1, 2, 0, .volat, .none, zeros 1, 0, 0⟩ -- Tile spare state
  , ⟨0x4000, 0x403F, 0xC, 0xC, .num 4, 2, 8, .volat, .now, zeros 4, 0, 0⟩ -- Corrected memory errors
  ]

/-- Entry rows 4100 to 5000. -/
def entTab7 : List Ent :=
  [ ⟨0x4100, 0x4100, 0x1, 0x1, .num 1, 2, 0, .volat, .none, zeros 1, 0, 0⟩ -- Images installed
  , ⟨0x4100, 0x4100, 0x2, 0x2, .num 4, 2, 0, .volat, .none, zeros 4, 0, 0⟩ -- Store bytes used
  , ⟨0x4100, 0x4100, 0x3, 0x3, .num 4, 1, 0, .fixed, .none, beBytes 262144 4, 0, 0⟩ -- Store capacity
  , ⟨0x4100, 0x4100, 0x4, 0x4, .num 4, 2, 8, .volat, .now, zeros 4, 0, 0⟩ -- Install failures
  , ⟨0x4101, 0x4140, 0x1, 0x1, .bytes 67904, 0, 8, .volat, .now, [], 0, 0⟩ -- Staged image
  , ⟨0x4101, 0x4140, 0x2, 0x2, .num 1, 0, 8, .volat, .now, zeros 1, 1, 2⟩ -- Command
  , ⟨0x4101, 0x4140, 0x3, 0x3, .bytes 48, 2, 0, .volat, .none, [], 0, 0⟩ -- Installed digest
  , ⟨0x4101, 0x4140, 0x4, 0x4, .num 4, 2, 0, .volat, .none, zeros 4, 0, 0⟩ -- Installed version
  , ⟨0x4101, 0x4140, 0x5, 0x5, .num 4, 2, 8, .persist, .now, zeros 4, 0, 4294967295⟩ -- Minimum version
  , ⟨0x4101, 0x4140, 0x6, 0x6, .bytes 48, 2, 0, .volat, .none, [], 0, 0⟩ -- Pending digest
  , ⟨0x4101, 0x4140, 0x7, 0x7, .num 4, 2, 0, .volat, .none, zeros 4, 0, 0⟩ -- Installed size
  , ⟨0x4101, 0x4140, 0x8, 0x8, .bytes 128, 2, 0, .volat, .none, [], 0, 0⟩ -- Certificate
  , ⟨0x41F0, 0x41F0, 0x1, 0x1, .bytes 64, 2, 0, .volat, .none, zeros 64, 0, 0⟩ -- Last load result
  , ⟨0x41F0, 0x41F0, 0x2, 0x2, .num 8, 2, 8, .volat, .now, zeros 8, 0, 0⟩ -- Bank set loads
  , ⟨0x5000, 0x5000, 0x1, 0x1, .num 1, 2, 0, .volat, .none, zeros 1, 0, 0⟩ -- Root state
  , ⟨0x5000, 0x5000, 0x2, 0x2, .num 4, 2, 0, .volat, .none, zeros 4, 0, 0⟩ -- Salt generation
  , ⟨0x5000, 0x5000, 0x3, 0x3, .num 4, 2, 0, .volat, .none, zeros 4, 0, 0⟩ -- Nodes in use
  , ⟨0x5000, 0x5000, 0x4, 0x4, .num 4, 2, 0, .volat, .none, zeros 4, 0, 0⟩ -- Slots in use
  , ⟨0x5000, 0x5000, 0x5, 0x5, .num 2, 2, 0, .volat, .none, zeros 2, 0, 0⟩ -- Anchors valid
  , ⟨0x5000, 0x5000, 0x6, 0x6, .num 2, 2, 0, .volat, .none, zeros 2, 0, 0⟩ -- Anchors erased
  , ⟨0x5000, 0x5000, 0x7, 0x7, .num 4, 2, 0, .volat, .none, zeros 4, 0, 0⟩ -- Nodes unusable
  , ⟨0x5000, 0x5000, 0x8, 0x8, .bytes 97, 1, 0, .volat, .none, [], 0, 0⟩ -- Image key
  , ⟨0x5000, 0x5000, 0x9, 0x9, .bytes 256, 2, 0, .volat, .none, [], 0, 0⟩ -- Anchor states
  ]

/-- Entry rows 5001 to 6000. -/
def entTab8 : List Ent :=
  [ ⟨0x5001, 0x5001, 0x1, 0x1, .num 1, 2, 0, .volat, .none, zeros 1, 0, 0⟩ -- PUF attempts
  , ⟨0x5001, 0x5001, 0x2, 0x2, .num 2, 2, 0, .volat, .none, zeros 2, 0, 0⟩ -- PUF corrections
  , ⟨0x5001, 0x5001, 0x3, 0x3, .num 4, 2, 0, .persist, .none, zeros 4, 0, 0⟩ -- PUF failures
  , ⟨0x5010, 0x5010, 0x1, 0x1, .bytes 8192, 0, 4, .volat, .now, [], 0, 0⟩ -- Command block
  , ⟨0x5010, 0x5010, 0x2, 0x2, .num 1, 0, 4, .volat, .now, zeros 1, 1, 1⟩ -- Execute
  , ⟨0x5100, 0x5100, 0x1, 0x1, .num 4, 2, 2, .volat, .now, zeros 4, 0, 262143⟩ -- Node select
  , ⟨0x5100, 0x5100, 0x2, 0x2, .bytes 32, 2, 0, .volat, .none, [], 0, 0⟩ -- Node record
  , ⟨0x5100, 0x5100, 0x3, 0x3, .bytes 5, 2, 0, .volat, .none, [], 0, 0⟩ -- Check value
  , ⟨0x5400, 0x5400, 0x1, 0x10, .bytes 16, 0, 8, .persist, .flip, [], 0, 0⟩ -- Decimalisation tables 0–15
  , ⟨0x5401, 0x5401, 0x1, 0x10, .num 4, 2, 0, .volat, .none, zeros 4, 0, 0⟩ -- Table check values 0–15
  , ⟨0x5402, 0x5402, 0x1, 0x1, .bool, 2, 8, .persist, .flip, zeros 1, 0, 1⟩ -- AES-to-TDES PIN translation
  , ⟨0x5402, 0x5402, 0x2, 0x2, .num 1, 2, 8, .persist, .flip, beBytes 4 1, 4, 12⟩ -- Minimum PIN length
  , ⟨0x6000, 0x6000, 0x1, 0x1, .num 4, 2, 0, .volat, .none, beBytes 16777215 4, 0, 0⟩ -- Engines in service
  , ⟨0x6000, 0x6000, 0x2, 0x2, .num 4, 2, 8, .persist, .now, beBytes 10000 4, 1000, 1000000⟩ -- Background claim timeout
  , ⟨0x6000, 0x6000, 0x3, 0x3, .num 4, 2, 8, .persist, .now, beBytes 60000 4, 1000, 600000⟩ -- RSA generation limit
  , ⟨0x6000, 0x6000, 0x4, 0x4, .num 4, 2, 8, .volat, .now, zeros 4, 0, 0⟩ -- VAS failures
  , ⟨0x6000, 0x6000, 0x5, 0x5, .num 2, 2, 0, .volat, .none, zeros 2, 0, 0⟩ -- Last background result length
  ]

/-- Entry rows 6001 to 6800. -/
def entTab9 : List Ent :=
  [ ⟨0x6001, 0x6018, 0x1, 0x1, .num 1, 2, 0, .volat, .none, zeros 1, 0, 0⟩ -- Health
  , ⟨0x6001, 0x6018, 0x2, 0x2, .num 1, 2, 0, .volat, .none, zeros 1, 0, 0⟩ -- Fence cause
  , ⟨0x6001, 0x6018, 0x3, 0x3, .num 1, 2, 0, .volat, .none, zeros 1, 0, 0⟩ -- Committed jobs
  , ⟨0x6001, 0x6018, 0x4, 0x4, .num 1, 2, 0, .volat, .none, zeros 1, 0, 0⟩ -- Context banks in use
  , ⟨0x6001, 0x6018, 0x5, 0x5, .num 1, 0, 8, .volat, .now, zeros 1, 1, 2⟩ -- Fence request
  , ⟨0x6001, 0x6018, 0x6, 0x6, .num 8, 2, 0, .volat, .none, zeros 8, 0, 0⟩ -- Fence time
  , ⟨0x6020, 0x602F, 0x1, 0x1, .bytes 400, 0, 8, .volat, .now, [], 0, 0⟩ -- Staged record
  , ⟨0x6020, 0x602F, 0x2, 0x2, .num 1, 0, 8, .volat, .flip, zeros 1, 1, 2⟩ -- Command
  , ⟨0x6020, 0x602F, 0x3, 0x3, .num 1, 2, 0, .volat, .none, zeros 1, 0, 0⟩ -- State
  , ⟨0x6020, 0x602F, 0x4, 0x4, .bytes 48, 2, 0, .persist, .none, [], 0, 0⟩ -- Installed digest
  , ⟨0x6800, 0x6800, 0x1, 0x1, .num 1, 1, 0, .fixed, .none, beBytes 16 1, 0, 0⟩ -- Measurement registers
  , ⟨0x6800, 0x6800, 0x2, 0x2, .num 2, 1, 0, .volat, .none, zeros 2, 0, 0⟩ -- Log entries
  , ⟨0x6800, 0x6800, 0x3, 0x3, .num 4, 1, 0, .volat, .none, zeros 4, 0, 0⟩ -- Extends not logged
  , ⟨0x6800, 0x6800, 0x4, 0x4, .num 4, 2, 8, .volat, .now, zeros 4, 0, 0⟩ -- Comparator faults
  , ⟨0x6800, 0x6800, 0x5, 0x5, .bool, 2, 8, .persist, .bringup, zeros 1, 0, 1⟩ -- Base co-signature required
  , ⟨0x6800, 0x6800, 0x6, 0x6, .num 1, 1, 0, .volat, .none, zeros 1, 0, 0⟩ -- Boot source
  ]

/-- Entry rows 6801 to 6840. -/
def entTab10 : List Ent :=
  [ ⟨0x6801, 0x6801, 0x1, 0x10, .bytes 48, 1, 0, .volat, .none, zeros 48, 0, 0⟩ -- MR0–MR15
  , ⟨0x6802, 0x6802, 0x1, 0x8, .bytes 48, 0, 8, .volat, .now, [], 0, 0⟩ -- Extend MR8–MR15
  , ⟨0x6810, 0x6810, 0x1, 0x1, .num 2, 1, 1, .volat, .now, zeros 2, 0, 1023⟩ -- Log select
  , ⟨0x6810, 0x6810, 0x2, 0x2, .bytes 64, 1, 0, .volat, .none, [], 0, 0⟩ -- Log entry
  , ⟨0x6820, 0x6820, 0x1, 0x1, .num 2, 2, 0, .persist, .none, zeros 2, 0, 0⟩ -- Base floor
  , ⟨0x6820, 0x6820, 0x2, 0x2, .num 2, 0, 40, .volat, .now, zeros 2, 0, 65535⟩ -- Raise base floor
  , ⟨0x6820, 0x6820, 0x3, 0x3, .bytes 32, 2, 0, .persist, .none, zeros 32, 0, 0⟩ -- Module floors
  , ⟨0x6820, 0x6820, 0x4, 0x4, .num 4, 0, 8, .volat, .now, zeros 4, 0, 4294967295⟩ -- Raise module floor
  , ⟨0x6830, 0x6830, 0x1, 0x1, .bytes 98304, 0, 40, .volat, .now, [], 0, 0⟩ -- Staged base image
  , ⟨0x6830, 0x6830, 0x2, 0x2, .num 1, 0, 40, .volat, .now, zeros 1, 1, 2⟩ -- Base command
  , ⟨0x6830, 0x6830, 0x3, 0x4, .bytes 128, 2, 0, .persist, .none, [], 0, 0⟩ -- Slot A, slot B header
  , ⟨0x6840, 0x684F, 0x1, 0x1, .bytes 65856, 0, 8, .volat, .now, [], 0, 0⟩ -- Staged module (m = 0–15)
  , ⟨0x6840, 0x684F, 0x2, 0x2, .num 1, 0, 8, .volat, .now, zeros 1, 1, 2⟩ -- Module command
  , ⟨0x6840, 0x684F, 0x3, 0x3, .bytes 48, 2, 0, .volat, .none, [], 0, 0⟩ -- Header digest
  , ⟨0x6840, 0x684F, 0x4, 0x4, .num 1, 2, 0, .volat, .none, zeros 1, 0, 0⟩ -- Module state
  , ⟨0x6840, 0x684F, 0x5, 0x5, .num 4, 2, 0, .volat, .none, zeros 4, 0, 0⟩ -- Module version
  ]

/-- Entry rows 7000 to 7030. -/
def entTab11 : List Ent :=
  [ ⟨0x7000, 0x7000, 0x1, 0x1, .num 4, 1, 0, .volat, .none, zeros 4, 0, 0⟩ -- Asserted conditions
  , ⟨0x7000, 0x7000, 0x2, 0x2, .num 1, 1, 0, .volat, .none, zeros 1, 0, 0⟩ -- Erases since power-on
  , ⟨0x7000, 0x7000, 0x3, 0x3, .num 8, 1, 0, .volat, .none, zeros 8, 0, 0⟩ -- Last erase time
  , ⟨0x7000, 0x7000, 0x4, 0x4, .num 1, 1, 0, .volat, .none, zeros 1, 0, 0⟩ -- Last erase condition
  , ⟨0x7000, 0x7000, 0x5, 0x5, .num 1, 2, 8, .persist, .bringup, zeros 1, 0, 1⟩ -- ALARM release
  , ⟨0x7000, 0x7000, 0x6, 0x6, .num 1, 0, 8, .volat, .now, zeros 1, 90, 90⟩ -- Zeroise
  , ⟨0x7000, 0x7000, 0x7, 0x7, .num 4, 2, 8, .persist, .now, beBytes 1000 4, 100, 60000⟩ -- Repeat holdoff
  , ⟨0x7000, 0x7000, 0x8, 0x8, .num 4, 1, 8, .volat, .now, zeros 4, 0, 4294967295⟩ -- RTC seconds
  , ⟨0x7000, 0x7000, 0x9, 0x9, .num 2, 1, 0, .volat, .none, zeros 2, 0, 0⟩ -- RTC fraction
  , ⟨0x7011, 0x7021, 0x1, 0x1, .bool, 1, 0, .fixed, .none, zeros 1, 0, 1⟩ -- Condition fixed-E
  , ⟨0x7011, 0x7021, 0x2, 0x2, .num 1, 2, 8, .persist, .now, zeros 1, 0, 1⟩ -- Condition response
  , ⟨0x7011, 0x7021, 0x3, 0x3, .i32, 2, 8, .persist, .now, zeros 4, 0, 4294967295⟩ -- Condition low threshold
  , ⟨0x7011, 0x7021, 0x4, 0x4, .i32, 2, 8, .persist, .now, zeros 4, 0, 4294967295⟩ -- Condition high threshold
  , ⟨0x7011, 0x7021, 0x5, 0x5, .num 4, 2, 8, .persist, .now, zeros 4, 1, 86400000⟩ -- Condition escalation
  , ⟨0x7011, 0x7021, 0x6, 0x6, .num 4, 2, 8, .volat, .now, zeros 4, 0, 0⟩ -- Condition count
  , ⟨0x7030, 0x7039, 0x1, 0x1, .i32, 2, 8, .persist, .now, zeros 4, 0, 4294967295⟩ -- Rail low threshold
  , ⟨0x7030, 0x7039, 0x2, 0x2, .i32, 2, 8, .persist, .now, zeros 4, 0, 4294967295⟩ -- Rail high threshold
  ]

/-- Entry rows 7040 to 7100. -/
def entTab12 : List Ent :=
  [ ⟨0x7040, 0x7043, 0x1, 0x1, .num 4, 2, 8, .persist, .now, beBytes 1000 4, 200, 20000⟩ -- Reference window
  , ⟨0x7050, 0x7050, 0x1, 0x10, .num 2, 1, 0, .volat, .none, zeros 2, 0, 0⟩ -- VBAT counters
  , ⟨0x7060, 0x7065, 0x1, 0x1, .num 4, 2, 8, .persist, .now, zeros 4, 0, 4294967295⟩ -- Alarm output mask
  , ⟨0x7060, 0x7065, 0x2, 0x2, .bool, 2, 8, .persist, .now, zeros 0 ++ [1], 0, 1⟩ -- Alarm output polarity
  , ⟨0x7060, 0x7065, 0x3, 0x3, .bool, 2, 0, .volat, .none, zeros 1, 0, 0⟩ -- Alarm output state
  , ⟨0x7060, 0x7065, 0x4, 0x4, .num 1, 0, 8, .volat, .now, zeros 1, 1, 1⟩ -- Alarm output acknowledge
  , ⟨0x7070, 0x7070, 0x1, 0x1, .num 1, 0, 8, .volat, .now, zeros 1, 1, 1⟩ -- LEARN
  , ⟨0x7080, 0x70BF, 0x1, 0x1, .bool, 2, 8, .persist, .now, zeros 1, 0, 1⟩ -- Channel enable
  , ⟨0x7080, 0x70BF, 0x2, 0x2, .num 1, 2, 8, .persist, .now, zeros 1, 0, 1⟩ -- Channel kind
  , ⟨0x7080, 0x70BF, 0x3, 0x3, .num 4, 2, 0, .persist, .none, zeros 4, 0, 0⟩ -- Channel baseline
  , ⟨0x7080, 0x70BF, 0x4, 0x4, .num 4, 2, 0, .volat, .none, zeros 4, 0, 0⟩ -- Channel measured
  , ⟨0x7080, 0x70BF, 0x5, 0x5, .num 1, 2, 0, .volat, .none, zeros 1, 0, 0⟩ -- Channel state
  , ⟨0x7100, 0x7100, 0x1, 0x1, .num 4, 1, 0, .volat, .none, zeros 4, 0, 0⟩ -- Next SEQ
  , ⟨0x7100, 0x7100, 0x2, 0x2, .num 2, 1, 0, .volat, .none, zeros 2, 0, 0⟩ -- Entries in region
  , ⟨0x7100, 0x7100, 0x3, 0x3, .bool, 1, 0, .volat, .none, zeros 1, 0, 0⟩ -- Full
  , ⟨0x7100, 0x7100, 0x4, 0x4, .bytes 32, 1, 0, .volat, .none, [], 0, 0⟩ -- HEAD
  , ⟨0x7100, 0x7100, 0x5, 0x5, .num 4, 1, 0, .volat, .none, zeros 4, 0, 0⟩ -- BASESEQ
  ]

/-- Entry rows 7101 to 8000. -/
def entTab13 : List Ent :=
  [ ⟨0x7101, 0x7101, 0x1, 0x1, .bytes 131072, 1, 0, .volat, .none, [], 0, 0⟩ -- Log region
  , ⟨0x7102, 0x7102, 0x1, 0x1, .bytes 32, 0, 2, .volat, .now, [], 0, 0⟩ -- Statement nonce
  , ⟨0x7102, 0x7102, 0x2, 0x2, .num 1, 0, 2, .volat, .now, zeros 1, 1, 1⟩ -- Make statement
  , ⟨0x7103, 0x7103, 0x1, 0x1, .num 4, 0, 8, .volat, .now, zeros 4, 0, 4294967295⟩ -- Roll
  , ⟨0x7800, 0x7800, 0x1, 0x4, .bytes 20, 2, 0, .volat, .none, zeros 20, 0, 0⟩ -- Violation record
  , ⟨0x7800, 0x7800, 0x5, 0x8, .num 8, 2, 0, .volat, .none, zeros 8, 0, 0⟩ -- Locked windows
  , ⟨0x7810, 0x781F, 0x1, 0x1, .num 8, 2, 8, .persist, .now, zeros 8, 0, 18446744073709551615⟩ -- Start
  , ⟨0x7810, 0x781F, 0x2, 0x2, .num 8, 2, 8, .persist, .now, zeros 8, 0, 18446744073709551615⟩ -- End
  , ⟨0x7810, 0x781F, 0x3, 0x3, .num 1, 2, 8, .persist, .now, zeros 1, 0, 3⟩ -- Rights
  , ⟨0x7810, 0x781F, 0x4, 0x4, .num 2, 2, 8, .persist, .now, beBytes 30840 2, 0, 65535⟩ -- Initiators
  , ⟨0x7810, 0x781F, 0x5, 0x5, .bool, 2, 8, .persist, .now, zeros 1, 0, 1⟩ -- Enable
  , ⟨0x7830, 0x783F, 0x1, 0x2, .num 4, 2, 8, .persist, .flip, zeros 4, 0, 4294967295⟩ -- Start, end
  , ⟨0x7830, 0x783F, 0x3, 0x3, .num 1, 2, 8, .persist, .flip, zeros 1, 0, 3⟩ -- Rights
  , ⟨0x7830, 0x783F, 0x4, 0x4, .num 2, 2, 8, .persist, .flip, zeros 2, 0, 65535⟩ -- Initiators
  , ⟨0x7830, 0x783F, 0x5, 0x5, .bool, 2, 8, .persist, .flip, zeros 1, 0, 1⟩ -- Enable
  , ⟨0x8000, 0x8000, 0x1, 0x1, .num 4, 2, 8, .persist, .now, beBytes 100 4, 0, 1000000⟩ -- Quad idle time
  , ⟨0x8000, 0x8000, 0x2, 0x2, .num 4, 2, 8, .persist, .now, beBytes 1000 4, 0, 1000000⟩ -- PK domain idle time
  , ⟨0x8000, 0x8000, 0x3, 0x3, .bool, 2, 8, .persist, .now, beBytes 1 1, 0, 1⟩ -- DOZE enable
  , ⟨0x8000, 0x8000, 0x4, 0x4, .num 4, 2, 8, .persist, .now, zeros 4, 0, 3600000⟩ -- DEEP time
  , ⟨0x8000, 0x8000, 0x5, 0x5, .num 2, 2, 8, .persist, .now, zeros 2, 0, 127⟩ -- DEEP wake sources
  , ⟨0x8000, 0x8000, 0x6, 0x6, .num 4, 2, 8, .persist, .now, zeros 4, 0, 4294967295⟩ -- Wake-frame ports
  , ⟨0x8000, 0x8000, 0x7, 0x7, .num 4, 2, 8, .persist, .now, zeros 4, 0, 4294967295⟩ -- Link-up wake ports
  , ⟨0x8000, 0x8000, 0x8, 0x8, .num 4, 2, 8, .volat, .now, zeros 4, 0, 4294967295⟩ -- RTC wake time
  ]

/-- Entry rows 8001 to 8800. -/
def entTab14 : List Ent :=
  [ ⟨0x8001, 0x8001, 0x1, 0x1, .bytes 33, 2, 0, .volat, .none, [], 0, 0⟩ -- Domain states
  , ⟨0x8001, 0x8001, 0x2, 0x2, .bytes 256, 2, 0, .volat, .none, [], 0, 0⟩ -- Wake ring
  , ⟨0x8001, 0x8001, 0x3, 0x3, .num 8, 2, 0, .volat, .none, zeros 8, 0, 0⟩ -- Fenced domains
  , ⟨0x8001, 0x8001, 0x4, 0x4, .num 2, 2, 0, .volat, .none, beBytes 800 2, 0, 0⟩ -- VDD_L set point
  , ⟨0x8001, 0x8001, 0x5, 0x5, .bytes 16, 1, 0, .volat, .none, [], 0, 0⟩ -- Last wake
  , ⟨0x8002, 0x8002, 0x1, 0x1, .bytes 256, 2, 0, .volat, .none, [], 0, 0⟩ -- Refusal ring
  , ⟨0x8800, 0x8800, 0x1, 0x1, .num 4, 1, 0, .volat, .none, zeros 4, 0, 0⟩ -- Reset cause
  , ⟨0x8800, 0x8800, 0x2, 0x2, .num 8, 2, 0, .volat, .none, zeros 8, 0, 0⟩ -- Reset time
  , ⟨0x8800, 0x8800, 0x3, 0x3, .num 4, 2, 0, .volat, .none, zeros 4, 0, 0⟩ -- Reset RTC
  , ⟨0x8800, 0x8800, 0x4, 0x4, .num 1, 1, 0, .volat, .none, zeros 1, 0, 0⟩ -- Bring-up phase
  , ⟨0x8800, 0x8800, 0x5, 0x5, .num 1, 1, 0, .volat, .none, zeros 1, 0, 0⟩ -- Halt cause
  , ⟨0x8800, 0x8800, 0x6, 0x6, .num 1, 0, 40, .volat, .now, zeros 1, 1, 1⟩ -- System reset
  , ⟨0x8800, 0x8800, 0x7, 0x7, .num 1, 0, 40, .volat, .now, zeros 1, 1, 7⟩ -- Core reset
  , ⟨0x8800, 0x8800, 0x8, 0x8, .num 4, 2, 8, .persist, .bringup, beBytes 1000 4, 100, 60000⟩ -- Watchdog timeout
  , ⟨0x8800, 0x8800, 0x9, 0x9, .num 8, 2, 0, .volat, .none, zeros 8, 0, 0⟩ -- Last bring-up duration
  , ⟨0x8800, 0x8800, 0xA, 0xA, .num 2, 0, 4, .volat, .now, zeros 2, 0, 65535⟩ -- Block reset
  , ⟨0x8800, 0x8800, 0xB, 0xB, .num 1, 2, 0, .volat, .none, zeros 1, 0, 0⟩ -- Option restarts
  ]

/-- Entry rows 8801 to 9000. -/
def entTab15 : List Ent :=
  [ ⟨0x8801, 0x8801, 0x1, 0x1, .bytes 512, 2, 0, .volat, .none, [], 0, 0⟩ -- Option words
  , ⟨0x8801, 0x8801, 0x2, 0x2, .num 8, 2, 0, .volat, .none, zeros 8, 0, 0⟩ -- Marginal fuse words
  , ⟨0x8801, 0x8801, 0x3, 0x3, .num 1, 2, 0, .volat, .none, zeros 1, 0, 0⟩ -- MRAM option copy
  , ⟨0x8801, 0x8801, 0x4, 0x4, .bytes 48, 2, 0, .volat, .none, [], 0, 0⟩ -- Option digest
  , ⟨0x8802, 0x8802, 0x1, 0x1, .num 4, 2, 8, .persist, .now, beBytes 60 4, 10, 86400⟩ -- Test interval
  , ⟨0x8802, 0x8802, 0x2, 0x2, .bool, 2, 8, .persist, .now, beBytes 1 1, 0, 1⟩ -- Continuous test enable
  , ⟨0x8802, 0x8802, 0x3, 0x3, .bytes 9, 2, 0, .volat, .none, zeros 9, 0, 0⟩ -- POST lane failures
  , ⟨0x8802, 0x8802, 0x4, 0x4, .num 4, 2, 0, .volat, .none, zeros 4, 0, 0⟩ -- POST PK failures
  , ⟨0x8802, 0x8802, 0x5, 0x5, .bytes 16, 2, 0, .volat, .none, zeros 16, 0, 0⟩ -- POST cluster failures
  , ⟨0x8802, 0x8802, 0x6, 0x6, .num 1, 2, 0, .volat, .none, zeros 1, 0, 0⟩ -- Key-die test result
  , ⟨0x8802, 0x8802, 0x7, 0x7, .num 8, 2, 0, .volat, .none, zeros 8, 0, 0⟩ -- Last full pass
  , ⟨0x8802, 0x8802, 0x8, 0x8, .num 4, 2, 8, .volat, .now, zeros 4, 0, 0⟩ -- Claims withdrawn
  , ⟨0x9000, 0x9000, 0x1, 0x1, .num 2, 1, 0, .fixed, .none, beBytes 2048 2, 0, 0⟩ -- Pages
  , ⟨0x9000, 0x9000, 0x2, 0x2, .num 1, 2, 0, .volat, .none, zeros 1, 0, 0⟩ -- Spares used
  , ⟨0x9000, 0x9000, 0x3, 0x3, .num 1, 2, 0, .volat, .none, zeros 1, 0, 0⟩ -- Spares BAD
  , ⟨0x9000, 0x9000, 0x4, 0x4, .num 4, 2, 0, .volat, .none, zeros 4, 0, 0⟩ -- Read-only regions
  , ⟨0x9000, 0x9000, 0x5, 0x5, .num 4, 2, 0, .volat, .none, zeros 4, 0, 0⟩ -- Uncorrectable pages
  , ⟨0x9000, 0x9000, 0x6, 0x6, .num 4, 2, 0, .volat, .none, zeros 4, 0, 0⟩ -- Corrected rewrites
  , ⟨0x9000, 0x9000, 0x7, 0x7, .num 4, 2, 0, .volat, .none, zeros 4, 0, 0⟩ -- Copy repairs
  ]

/-- Entry rows 9010 to A000. -/
def entTab16 : List Ent :=
  [ ⟨0x9010, 0x9010, 0x1, 0x2, .num 8, 0, 8, .persist, .now, zeros 8, 0, 18446744073709551615⟩ -- OR0, OR1 password
  , ⟨0x9010, 0x9010, 0x3, 0x4, .num 1, 2, 0, .volat, .none, zeros 1, 0, 0⟩ -- Unlock failures
  , ⟨0x9020, 0x9020, 0x1, 0x1, .num 2, 2, 2, .volat, .now, beBytes 32 2, 0, 1023⟩ -- Counter select
  , ⟨0x9020, 0x9020, 0x2, 0x2, .num 8, 2, 0, .volat, .none, zeros 8, 0, 0⟩ -- Counter value
  , ⟨0x9020, 0x9020, 0x3, 0x3, .num 1, 0, 8, .volat, .now, zeros 1, 1, 1⟩ -- Increment
  , ⟨0x9020, 0x9020, 0x4, 0x4, .num 8, 0, 8, .volat, .now, zeros 8, 0, 18446744073709551615⟩ -- Raise to
  , ⟨0x9020, 0x9020, 0x5, 0x5, .num 1, 0, 8, .volat, .now, zeros 1, 1, 1⟩ -- Reinitialise
  , ⟨0x9100, 0x9100, 0x1, 0x1, .bytes 12, 2, 0, .volat, .none, [], 0, 0⟩ -- Life-cycle copies
  , ⟨0x9100, 0x9100, 0x2, 0x2, .bytes 128, 2, 0, .volat, .none, [], 0, 0⟩ -- Remap table
  , ⟨0x9100, 0x9100, 0x3, 0x3, .num 4, 2, 0, .volat, .none, zeros 4, 0, 0⟩ -- Unusable secured data
  , ⟨0x9110, 0x9110, 0x1, 0x1, .bytes 6, 0, 32, .volat, .now, [], 0, 0⟩ -- Fuse option burn
  , ⟨0xA000, 0xA000, 0x1, 0x1, .num 1, 2, 0, .volat, .none, zeros 1, 0, 0⟩ -- Ceremony state
  , ⟨0xA000, 0xA000, 0x2, 0x2, .num 1, 0, 24, .volat, .now, zeros 1, 2, 5⟩ -- Start
  , ⟨0xA000, 0xA000, 0x3, 0x3, .num 4, 2, 8, .persist, .now, beBytes 600000 4, 60000, 3600000⟩ -- Card timeout
  , ⟨0xA000, 0xA000, 0x4, 0x4, .bytes 64, 2, 24, .volat, .now, [], 0, 0⟩ -- Parameters
  , ⟨0xA000, 0xA000, 0x5, 0x5, .num 4, 2, 0, .volat, .none, zeros 4, 0, 0⟩ -- Ceremony number
  , ⟨0xA000, 0xA000, 0x6, 0x6, .num 1, 2, 0, .volat, .none, zeros 1, 0, 0⟩ -- Approvals
  , ⟨0xA000, 0xA000, 0x7, 0x7, .num 4, 2, 8, .persist, .now, beBytes 60 4, 5, 480⟩ -- CEREMONY limit
  , ⟨0xA000, 0xA000, 0x8, 0x8, .num 8, 2, 0, .volat, .none, zeros 8, 0, 0⟩ -- Approving credentials
  ]

/-- Entry rows A001 to A100. -/
def entTab17 : List Ent :=
  [ ⟨0xA001, 0xA001, 0x1, 0x5, .num 2, 2, 8, .persist, .now, beBytes 2 2, 0, 65535⟩ -- Quorum rules
  , ⟨0xA002, 0xA005, 0x1, 0x1, .num 4, 2, 0, .volat, .none, zeros 4, 0, 0⟩ -- Card state
  , ⟨0xA002, 0xA005, 0x2, 0x2, .num 8, 2, 0, .volat, .none, zeros 8, 0, 0⟩ -- Card identifier
  -- A030:01 is both credential 32 and the ownership template, A030:02 both a credential change and the ownership start (log entry 63)
  , ⟨0xA030, 0xA030, 0x1, 0x1, .bytes 736, 2, 2, .persist, .none, [], 0, 0⟩ -- Ownership template, and credential 32
  , ⟨0xA030, 0xA030, 0x2, 0x2, .num 1, 0, 2, .volat, .now, zeros 1, 1, 1⟩ -- Ownership start
  , ⟨0xA030, 0xA030, 0x3, 0x3, .bytes 32, 2, 0, .volat, .none, [], 0, 0⟩ -- Ownership nonce
  , ⟨0xA030, 0xA030, 0x4, 0x4, .num 1, 1, 0, .persist, .none, zeros 1, 0, 0⟩ -- Ownership state
  , ⟨0xA010, 0xA04F, 0x1, 0x1, .bytes 112, 2, 0, .persist, .none, [], 0, 0⟩ -- Credential
  , ⟨0xA010, 0xA04F, 0x2, 0x2, .num 1, 0, 0, .volat, .none, zeros 1, 0, 0⟩ -- Credential change
  , ⟨0xA100, 0xA100, 0x1, 0x1, .num 8, 2, 0, .persist, .none, zeros 8, 0, 0⟩ -- GROUPID
  , ⟨0xA100, 0xA100, 0x2, 0x2, .num 1, 2, 0, .persist, .none, zeros 1, 0, 0⟩ -- Members
  , ⟨0xA100, 0xA100, 0x3, 0x3, .num 2, 2, 0, .volat, .none, zeros 2, 0, 0⟩ -- Held changes
  , ⟨0xA100, 0xA100, 0x4, 0x4, .num 4, 2, 8, .persist, .now, beBytes 1000 4, 300, 100000⟩ -- Link silence limit
  , ⟨0xA100, 0xA100, 0x5, 0x5, .num 4, 2, 8, .persist, .now, beBytes 20000 4, 1000, 1000000⟩ -- Prepare timeout
  , ⟨0xA100, 0xA100, 0x6, 0x6, .bytes 12, 2, 0, .volat, .none, [], 0, 0⟩ -- Last change ID
  , ⟨0xA100, 0xA100, 0x7, 0x7, .num 1, 0, 8, .volat, .now, zeros 1, 2, 2⟩ -- Resolve
  ]

/-- Entry rows A101 to B881. -/
def entTab18 : List Ent :=
  [ ⟨0xA101, 0xA108, 0x1, 0x1, .num 8, 2, 0, .persist, .none, zeros 8, 0, 0⟩ -- Member SERIAL
  , ⟨0xA101, 0xA108, 0x2, 0x2, .num 1, 2, 0, .volat, .none, zeros 1, 0, 0⟩ -- Member state
  , ⟨0xB000, 0xB023, 0x1, 0x1B, .num 8, 2, 8, .volat, .now, zeros 8, 0, 0⟩ -- Port statistics
  , ⟨0xB100, 0xB1FF, 0x1, 0x3, .num 8, 2, 8, .volat, .now, zeros 8, 0, 0⟩ -- Class statistics
  , ⟨0xB200, 0xB201, 0x1, 0xC, .num 8, 2, 8, .volat, .now, zeros 8, 0, 0⟩ -- Admission statistics
  , ⟨0xB380, 0xB381, 0x1, 0x7, .num 8, 2, 8, .volat, .now, zeros 8, 0, 0⟩ -- Audit statistics
  , ⟨0xB400, 0xB43F, 0x1, 0x6, .num 8, 2, 8, .volat, .now, zeros 8, 0, 0⟩ -- Lane statistics
  , ⟨0xB440, 0xB44F, 0x1, 0x5, .num 8, 2, 8, .volat, .now, zeros 8, 0, 0⟩ -- Quad statistics
  , ⟨0xB500, 0xB500, 0x1, 0xA, .num 8, 2, 8, .volat, .now, zeros 8, 0, 0⟩ -- Key statistics
  , ⟨0xB600, 0xB600, 0x1, 0x9, .num 8, 2, 8, .volat, .now, zeros 8, 0, 0⟩ -- Saffron statistics
  , ⟨0xB700, 0xB717, 0x1, 0x8, .num 8, 2, 8, .volat, .now, zeros 8, 0, 0⟩ -- PK statistics
  , ⟨0xB780, 0xB783, 0x1, 0x8, .num 8, 2, 8, .volat, .now, zeros 8, 0, 0⟩ -- Access table statistics
  , ⟨0xB800, 0xB800, 0x1, 0x6, .num 8, 2, 8, .volat, .now, zeros 8, 0, 0⟩ -- Ceremony statistics
  , ⟨0xB810, 0xB817, 0x1, 0x5, .num 8, 2, 8, .volat, .now, zeros 8, 0, 0⟩ -- Mirror statistics
  , ⟨0xB880, 0xB880, 0x1, 0xD, .num 8, 2, 8, .volat, .now, zeros 8, 0, 0⟩ -- Power statistics
  , ⟨0xB881, 0xB881, 0x1, 0xA, .num 8, 2, 8, .volat, .now, zeros 8, 0, 0⟩ -- Refuser statistics
  ]

/-- Entry rows B890 to F000. -/
def entTab19 : List Ent :=
  [ ⟨0xB890, 0xB890, 0x1, 0xB, .num 8, 2, 8, .volat, .now, zeros 8, 0, 0⟩ -- Reset statistics
  , ⟨0xB900, 0xB900, 0x1, 0x1, .num 8, 2, 8, .volat, .now, zeros 8, 0, 0⟩ -- MRAM statistics
  , ⟨0xF000, 0xF0FF, 0x1, 0x1, .num 4, 2, 0, .volat, .none, zeros 4, 0, 0⟩ -- Status word
  , ⟨0xF000, 0xF0FF, 0x2, 0x2, .num 4, 2, 0, .volat, .none, zeros 4, 0, 0⟩ -- Handle
  , ⟨0xF000, 0xF0FF, 0x3, 0x3, .num 4, 2, 0, .volat, .none, zeros 4, 0, 0⟩ -- Started by
  , ⟨0xF000, 0xF0FF, 0x4, 0x4, .num 8, 2, 0, .volat, .none, zeros 8, 0, 0⟩ -- Start time
  , ⟨0xF000, 0xF0FF, 0x5, 0x5, .num 8, 2, 0, .volat, .none, zeros 8, 0, 0⟩ -- End time
  , ⟨0xF000, 0xF0FF, 0x6, 0x6, .bytes 8192, 2, 0, .volat, .none, [], 0, 0⟩ -- Result
  , ⟨0xF000, 0xF0FF, 0x7, 0x7, .num 1, 0, 2, .volat, .now, zeros 1, 1, 2⟩ -- Control
  ]

/-- Every entry row (R106). -/
def entTab : List Ent :=
  entTab0 ++ entTab1 ++ entTab2 ++ entTab3 ++ entTab4 ++ entTab5 ++ entTab6 ++ entTab7 ++ entTab8 ++ entTab9 ++ entTab10 ++ entTab11 ++ entTab12 ++ entTab13 ++ entTab14 ++ entTab15 ++ entTab16 ++ entTab17 ++ entTab18 ++ entTab19

/-- The row of an entry, subindex 00 excepted. -/
def findEnt (idx sub : Nat) : Option Ent :=
  entTab.find? (fun e => decide (e.lo ≤ idx) && decide (idx ≤ e.hi) && decide (e.slo ≤ sub) && decide (sub ≤ e.shi))

/-- The highest subindex of an index, none where the index is undefined (R93). -/
def maxSub (idx : Nat) : Option Nat :=
  entTab.foldl (fun a e => if e.lo ≤ idx ∧ idx ≤ e.hi then some (Nat.max (a.getD 0) e.shi) else a) none

/-- Length in bytes of a value of a type; for a byte string, its greatest length (R93). -/
def Ty.len : Ty → Nat
  | .num w => w
  | .bool => 1
  | .i32 => 4
  | .bytes n => n

/-- A byte-string type. -/
def Ty.isBytes : Ty → Bool
  | .bytes _ => true
  | _ => false

end Sys2Proof.Machine
end

