-- ==== Sys2Proof/Config.lean ====
section
/-!
DEFINITION. The values the spec leaves open. Each is an opaque constant without a body: no proof can see a value of it,
and a claim holds whatever it is. Free bytes are drawn in order from `Config.freeByte`, by a counter in the state.
-/
namespace Sys2Proof

/-- The bytes of every random draw and of every value the spec leaves open after a command, one for each value of the
draw counter in the state (log entry 5). -/
opaque Config.freeByte : Nat → Byte

/-- The word burned in fuse word `w` at manufacture where the model lists none: per-part identity, PUF check data, seeds
and trims (log entry 2). -/
opaque Config.partFuse : Nat → Word

/-- The bytes of the keys and certificates that lie in mask ROM: the Tvedmor debug key, the vendor credential key, the
test root; by a ROM table number and an offset (log entry 2). -/
opaque Config.romByte : Nat → Nat → Byte

/-- Byte `i` of the 256-bit value that the PUF of the part regenerates (R411; log entry 2). -/
opaque Config.pufRoot : Nat → Byte

end Sys2Proof
end

