-- ==== Sys2Proof/Machine/Tab.lean ====
section
/-!
DEFINITION. Sparse tables: the one form in which the model keeps every numbered population (lanes, ports, nodes, pages,
memory bytes). A table is a list of (number, value) pairs in one canonical form, numbers strictly rising and no entry
equal to the value an unlisted number reads as, so equal tables are equal data.
-/
namespace Sys2Proof.Machine

/-- A sparse table from numbers to values. -/
abbrev Tab (α : Type) := List (Nat × α)

/-- The value at `k`: the listed one, or `d` where none is listed. -/
def Tab.look {α : Type} (d : α) : Tab α → Nat → α
  | [], _ => d
  | (j, v) :: t, k => if j = k then v else Tab.look d t k

/-- Remove the entry at `k`. -/
def Tab.drop {α : Type} : Tab α → Nat → Tab α
  | [], _ => []
  | (j, v) :: t, k => if j = k then Tab.drop t k else (j, v) :: Tab.drop t k

/-- Place `v` at `k`, keeping the numbers rising. -/
def Tab.place {α : Type} : Tab α → Nat → α → Tab α
  | [], k, v => [(k, v)]
  | (j, w) :: t, k, v =>
    if k < j then (k, v) :: (j, w) :: t
    else if j = k then (k, v) :: t
    else (j, w) :: Tab.place t k v

/-- Write `v` at `k`: writing what an unlisted number reads as removes the entry. -/
def Tab.put {α : Type} [DecidableEq α] (d : α) (t : Tab α) (k : Nat) (v : α) : Tab α :=
  if v = d then Tab.drop t k else Tab.place t k v

/-- The numbers of a table strictly rise above `lo`. -/
def Tab.rising {α : Type} : Nat → Tab α → Bool
  | _, [] => true
  | lo, (j, _) :: t => decide (lo ≤ j) && Tab.rising (j + 1) t

/-- The canonical form: numbers strictly rising and no entry equal to the unlisted value. -/
def Tab.wf {α : Type} [DecidableEq α] (d : α) (t : Tab α) : Bool :=
  Tab.rising 0 t && t.all (fun e => decide (e.2 ≠ d))

/-- Byte memory: a table of bytes whose unlisted addresses read 0 (DESIGN CHOICE, log entry 1). -/
abbrev Memory := List Host.Cell

/-- Read one byte of memory. -/
def Memory.read (m : Memory) (a : Nat) : Byte := Tab.look (0 : Byte) m a

/-- Write one byte of memory. -/
def Memory.write (m : Memory) (a : Nat) (b : Byte) : Memory := Tab.put (0 : Byte) m a b

/-- Read `n` bytes from `a` on. -/
def Memory.readN (m : Memory) (a : Nat) : Nat → Bytes
  | 0 => []
  | n + 1 => Memory.read m a :: Memory.readN m (a + 1) n

/-- Write the bytes `bs` from `a` on. -/
def Memory.writeN (m : Memory) (a : Nat) : Bytes → Memory
  | [] => m
  | b :: bs => Memory.writeN (Memory.write m a b) (a + 1) bs

/-- The listed bytes of a block placed at `a`: those that are not 0. -/
def Memory.cells (a : Nat) : Bytes → Memory
  | [] => []
  | b :: bs => if b = 0 then Memory.cells (a + 1) bs else (a, b) :: Memory.cells (a + 1) bs

/-- Place a block of bytes at `a` in one pass: what `writeN` leaves, for long blocks. -/
def Memory.load (m : Memory) (a : Nat) (bs : Bytes) : Memory :=
  m.filter (fun e => decide (e.1 < a)) ++ Memory.cells a bs ++ m.filter (fun e => decide (a + bs.length ≤ e.1))

/-- Clear every byte of `[lo, hi)`. -/
def Memory.clear (m : Memory) (lo hi : Nat) : Memory :=
  m.filter (fun e => decide (e.1 < lo) || decide (hi ≤ e.1))

/-- The canonical form of a memory. -/
def Memory.wf (m : Memory) : Bool := Tab.wf (0 : Byte) m

end Sys2Proof.Machine
end

