-- ==== Sys2Proof/Machine/StAct.lean ====
section
/-!
DEFINITION. State of the four access tables (Interconnect Access Table, R678-R703). Dies are numbered as the fabric's
regions: 0 CD0, 1 CD1, 2 KD, 3 XD.
-/
namespace Sys2Proof.Machine

/-- A programmable window (R684). `lo` and `hi` are granule numbers, offset bits [31:6]; `lockAt` is the DT at which LOCK was
written (the model's own, R700). -/
structure Window where
  lo : Nat := 0
  hi : Nat := 0
  region : Nat := 0
  first : Nat := 0
  last : Nat := 0
  r : Bool := false
  w : Bool := false
  x : Bool := false
  en : Bool := false
  lock : Bool := false
  lockAt : Option Nat := none
  err : Nat := 0
  deriving DecidableEq, Repr

/-- One die's table: configuration, windows and the violation record (R693), made at `recAt` (the model's own). -/
structure ActTable where
  defen : Bool := true
  deflock : Bool := false
  wins : Tab Window := []
  valid : Bool := false
  prec : Bool := false
  pcv : Bool := false
  kind : Nat := 0
  ini : Nat := 0
  cause : Nat := 0
  addr : Nat := 0
  info : Nat := 0
  vcnt : Nat := 0
  recAt : Nat := 0
  deriving DecidableEq, Repr

/-- A fabric access that stalls until its target's domain is READY (R715). -/
structure StalledAcc where
  ini : Nat
  addr : Nat
  write : Bool
  len : Nat
  data : Bytes
  deriving DecidableEq, Repr

/-- The tables, the module capabilities, ROMRUN (R687, R695) and the stalled accesses (R715). -/
structure ActState where
  tabs : Tab ActTable := []
  caps : Tab Nat := []
  romrun : Bool := true
  stall : List StalledAcc := []
  deriving DecidableEq, Repr

end Sys2Proof.Machine
end

