-- ==== Sys2Proof/Machine/StDict.lean ====
section
/-!
DEFINITION. State of the dictionary server (R68-R119): sessions, long-operation slots, stored and working values, mailbox.
-/
namespace Sys2Proof.Machine

/-- A reply the dictionary server gives (R68). `tag` is empty in an untagged reply; `own` is the address and port of the device that the
request named on MGE, from which the reply is sent. -/
structure Reply where
  tr : Transport
  src : Nat
  own : Nat
  op : Nat
  status : Nat
  session : Nat
  seq : Nat
  index : Nat
  sub : Nat
  offset : Nat
  data : Bytes
  tag : Bytes
  deriving DecidableEq, Repr

/-- The open session (R79-R90). `stored` is the response to the last answered SEQ (R87). -/
structure Session where
  id : Nat
  role : Nat
  tr : Transport
  src : Nat
  cred : Nat
  since : Nat
  idleFrom : Nat
  kreq : Bytes
  krsp : Bytes
  lastSeq : Nat
  stored : Option Reply
  deriving DecidableEq, Repr

/-- A half-open session (R83-R85): the transcript hash T, the agreed x-coordinate and the
client's ephemeral key are held until SESSION_AUTH. -/
structure HalfSession where
  id : Nat
  role : Nat
  tr : Transport
  src : Nat
  cred : Nat
  started : Nat
  transcript : Bytes
  z : Bytes
  eph : Bytes
  deriving DecidableEq, Repr

/-- States of a long-operation slot (R98). -/
inductive SlotState where
  | idle
  | queued
  | running
  | partly
  | done
  | failed
  | aborted
  deriving DecidableEq, Repr

/-- Work of a slot that waits in QUEUED or that a later command carries on. -/
inductive Work where
  | none
  | commit
  | epochChange (target : Nat)
  | keyCmd (block : Bytes)
  | attest (node : Nat) (nonce : Bytes)
  | logStatement (nonce : Bytes)
  | ceremony
  | install
  | moduleOp
  | retire
  | reset
  | background
  | nvm
  deriving DecidableEq, Repr

/-- One long-operation status slot F000-F0FF (R98). `value` is what was written to the command entry of an operation that waits in QUEUED
(R101). -/
structure Slot where
  state : SlotState := .idle
  progress : Nat := 0
  code : Nat := 0
  seq : Nat := 0
  used : Bool := false
  byIdx : Nat := 0
  bySub : Nat := 0
  started : Nat := 0
  ended : Nat := 0
  result : Bytes := []
  role : Nat := 0
  work : Work := .none
  value : Bytes := []
  deriving DecidableEq, Repr

/-- The dictionary server. Entry values are keyed by 256 times the index plus the subindex; unlisted is the default. `work` holds
the working values, `stored` the persistent status entries that MRAM keeps without a COMMIT, `force` the values in force of the
entries whose effect waits; the values COMMIT stores lie in MRAM. `msRsp` holds the framed response of MS0 and MS1, none while it is not
ready (R76); `lastReq` the DT and the rank of the request taken last (R80); `stalled` the READs that wait for a domain (R114); `resume` the
slot of a waiting operation while it is being started (R101). -/
structure DictState where
  work : Tab (Option Bytes) := []
  stored : Tab (Option Bytes) := []
  force : Tab (Option Bytes) := []
  pendE : List (Nat × Bytes) := []
  sess : Option Session := none
  half : Option HalfSession := none
  slots : Tab Slot := []
  nextSeq : Nat := 0
  order : List Nat := []
  mbxReq : Bytes := []
  mbxRsp : Bytes := []
  msRsp : Tab Bytes := []
  lastReq : Nat × Nat := (0, 0)
  stalled : List (Nat × Req) := []
  resume : Option Nat := none
  deriving DecidableEq, Repr

end Sys2Proof.Machine
end

