-- ==== Sys2Proof/Machine/StCore.lean ====
section
/-!
DEFINITION. Registers of the Clove cores (R310, R311, R321-R326), the lanes' write buffers (R318), the MAC, hash and GHASH states
held for a lane (R365, R366, R369), and the supervisor's own registers (R395, R396). The lane whose registers these are
holds its run in StUnit.
-/
namespace Sys2Proof.Machine

/-- A loop level (R311, R321): start, end, count, and the return-stack depth recorded. -/
structure LoopLvl where
  start : BitVec 16 := 0
  fin : BitVec 16 := 0
  count : Word := 0
  rsd : Nat := 0
  deriving DecidableEq, Repr

/-- A write-buffer entry (R318): bank, offset, bytes, and the cycle of the run in which its access completes. -/
structure WbEnt where
  bank : Nat
  off : Nat
  bytes : Bytes
  done : Nat
  deriving DecidableEq, Repr

/-- A MAC begun by a SEG 1 (R366): its opcode group (TDES or AES), FN, key reference, PAD, TLEN and chaining value. -/
structure MacSt where
  tdes : Bool
  fn : Nat
  k : Nat
  pad : Nat
  tlen : Nat
  chain : Bytes
  deriving DecidableEq, Repr

/-- The hash unit's state for a lane (R369): FN, bytes taken so far, and the chaining words or Y. -/
structure HashSt where
  fn : Nat
  len : Nat := 0
  hv : List Nat := []
  y : Bytes := []
  deriving DecidableEq, Repr

/-- A return-stack entry (R325, R688): the return address, and for a gate entry the caller's level. -/
structure RetEnt where
  tgt : BitVec 24
  gate : Option Nat := none
  deriving DecidableEq, Repr

/-- A Clove core (R310, R311). `imp` is an imprecise ACCESS not yet taken (R343): entries discarded and the address. `wbT`
holds the completion cycles of entries already completed. -/
structure Core where
  d : Tab Word := []
  a : Tab (BitVec 16) := []
  ac : Tab (BitVec 72) := []
  pred : Byte := 1
  c : Bool := false
  v : Bool := false
  pc : BitVec 16 := 0
  ibk : Byte := 0x20
  dbk0 : Byte := 0
  dbk1 : Byte := 1
  sbk : Byte := 0
  ldepth : Nat := 0
  loops : Tab LoopLvl := []
  rstack : List RetEnt := []
  dth : Word := 0
  epc : BitVec 16 := 0
  ecause : Word := 0
  eaddr : BitVec 24 := 0
  inTrap : Bool := false
  wb : List WbEnt := []
  wbT : List Nat := []
  imp : Option (Nat × Nat) := none
  mac : Option MacSt := none
  hash : Option HashSt := none
  ghk : Bytes := []
  deriving DecidableEq, Repr

/-- The supervisor (R395, R396, R687): its core, the level of its last instruction, SSTAT.IE and PIE, SIEN, SVEC, SEPC, SECAUSE,
SEADDR, the window bases, DSLIM, WAIT; `since` is the end of its core reset and `free` the DT at which it may issue
again. -/
structure SupState where
  core : Core := { ibk := 0x10 }
  level : Nat := 0x60
  ie : Bool := false
  pie : Bool := false
  sien : BitVec 16 := 0
  svec : BitVec 24 := 0x100000
  sepc : BitVec 24 := 0
  secause : Word := 0
  seaddr : BitVec 24 := 0
  fwb : Tab (BitVec 24) := []
  dslim : BitVec 16 := 0
  wait : Bool := false
  since : Nat := 0
  free : Nat := 0
  deriving DecidableEq, Repr

end Sys2Proof.Machine
end

