-- ==== Sys2Proof/Machine/StPort.lean ====
section
/-!
DEFINITION. State of the transaction ports, the classifiers, the TCP engines and the host queue pairs (Transaction Ports,
Framing and Bypass). Instants inside the port die are counted in 25ths of a nanosecond: one XCLK is 16 of them, 0.64 ns.
-/
namespace Sys2Proof.Machine

/-- A key reference of a descriptor (R148). -/
structure KeyRef where
  node : Nat := 0
  off : Nat := 0
  len : Nat := 0
  deriving DecidableEq, Repr

/-- A descriptor (R148). -/
structure Desc where
  cls : Nat := 0
  src : Nat := 0
  dlset : Bool := false
  walked : Bool := false
  epoch : Nat := 0
  msgid : Nat := 0
  tstamp : Nat := 0
  deadline : Nat := 0
  msglen : Nat := 0
  fieldmask : Nat := 0
  keymask : Nat := 0
  keyref : Tab KeyRef := []
  field : Tab (Nat × Nat) := []
  deriving DecidableEq, Repr

/-- A released message (R133, R134): what the port knows of it, and where its response goes. -/
structure Msg where
  src : Nat
  body : Bytes
  tstamp : Nat
  rel : Nat
  hdrId : Option Nat := none
  dl : Nat := 0
  arr : Nat := 0
  epoch : Nat := 0
  eth : Bytes := []
  tci : Option Nat := none
  conn : Nat := 0
  die : Nat := 0
  rbuf : Nat := 0
  rsize : Nat := 0
  deriving DecidableEq, Repr

/-- Where a message stands in its port's release order (R135). -/
inductive Stand where
  | waiting
  | inCtx (c : Nat)
  | desc (d : Desc)
  | self (status cls msgid : Nat)
  | gone
  deriving DecidableEq, Repr

/-- A message in release order, and the instant at which it is ready to leave. -/
structure LineEnt where
  msg : Msg
  st : Stand
  readyAt : Nat := 0
  deriving DecidableEq, Repr

/-- One classifier context (R135-R138). -/
structure Ctx where
  msg : Option Msg := none
  regs : Tab Word := []
  pc : Nat := 0
  t : Nat := 0
  stop : Nat := 0
  cls : Option Nat := none
  rel : Option Nat := none
  setid : Option Nat := none
  walk : Option (Tab (Nat × Nat)) := none
  fieldmask : Nat := 0
  keymask : Nat := 0
  keyref : Tab KeyRef := []
  field : Tab (Nat × Nat) := []
  freeAt : Nat := 0
  deriving DecidableEq, Repr

/-- An entry of a source's outstanding list (R155). `lost` marks a message whose link or connection is gone (R174);
`conn` of its message names the connection. -/
structure Outst where
  id : Nat
  cls : Nat
  msg : Msg
  die : Nat := 0
  lost : Bool := false
  adm : Bool := false
  swept : Bool := false
  deriving DecidableEq, Repr

/-- A frame or response waiting for a port's transmitter (R157): 0 bypassed, 1 self-issued or NOT_ADMITTED, 2 lane
response, 3 a packet of the IP stack. `id` is the identifier to remove once the last byte is sent, among the entries a sweep has answered where
`swept`; `sweep` is a sweep's answer that is built when it is selected (R163). Of a lane response: the bytes before its body, the body's length, and
the DT at which its last byte has arrived. -/
structure TxFrame where
  kind : Nat
  bytes : Bytes
  id : Option Nat := none
  deadline : Option Nat := none
  die : Nat := 0
  swept : Bool := false
  sweep : Option Outst := none
  hlen : Nat := 0
  blen : Nat := 0
  bodyEnd : Nat := 0
  deriving DecidableEq, Repr

/-- The TCP engine of a port (R125, R126). `recover` is the end of the data in flight when a loss was found, `rxt` the end of what has been
resent since, `timedOut` tells a retransmission timeout from a fast recovery; `marks` gives each response in the send queue its end and the tag of
its request (R121). -/
structure Tcp where
  st : Nat := 0
  conn : Nat := 0
  peerPort : Nat := 0
  iss : Nat := 0
  una : Nat := 0
  nxt : Nat := 0
  rcv : Nat := 0
  wnd : Nat := 0
  scaled : Bool := false
  shift : Nat := 0
  sackOk : Bool := false
  tsOk : Bool := false
  tsRecent : Nat := 0
  mss : Nat := 0
  sendQ : Bytes := []
  rx : Bytes := []
  ooo : List (Nat × Bytes) := []
  skip : Nat := 0
  finRcvd : Bool := false
  finSent : Bool := false
  sacked : List (Nat × Nat) := []
  srtt : Option (Nat × Nat) := none
  timed : Option (Nat × Nat) := none
  retx : Nat := 0
  rtoDue : Option Nat := none
  kaDue : Option Nat := none
  probes : Nat := 0
  zwDue : Option Nat := none
  zwN : Nat := 0
  twDue : Option Nat := none
  reDue : Option Nat := none
  cwnd : Nat := 0
  ssthresh : Nat := 0
  dup : Nat := 0
  recover : Option Nat := none
  rxt : Nat := 0
  rescued : Bool := false
  timedOut : Bool := false
  marks : List (Nat × Option Nat) := []
  deriving DecidableEq, Repr

/-- One source: a transaction port 0-31 or a host queue pair 32-35. `leftAt` is the instant at which something last left in release order;
`nbr` the link address of the peer or next hop with its last tag, `await` the packets that wait for it. -/
structure Source where
  line : List LineEnt := []
  ctxs : Tab Ctx := []
  outst : List Outst := []
  arr : Nat := 0
  link : Bool := false
  conn : Nat := 0
  byp : List TxFrame := []
  selfQ : List TxFrame := []
  laneQ : List TxFrame := []
  cur : Option TxFrame := none
  txEnd : Nat := 0
  tcp : Tcp := {}
  sweepReq : Option (Nat × Nat) := none
  sweepSt : Nat := 0
  sweepDies : Nat := 0
  block : Nat := 0
  deferReset : Bool := false
  leftAt : Nat := 0
  nbr : Bytes := []
  nbrTci : Option Nat := none
  await : List (Option Nat × Nat × Bytes) := []
  deriving DecidableEq, Repr

/-- A submission entry that has been fetched, its request buffer not yet arrived (R166). -/
structure SqEnt where
  msgid : Nat
  req : Nat
  len : Nat
  dl : Nat
  rsp : Nat
  size : Nat
  deriving DecidableEq, Repr

/-- One host queue: pairs 0-3, the audit queue 4 (R167, R253). -/
structure HostQ where
  sqBase : Nat := 0
  cqBase : Nat := 0
  sqLog : Nat := 0
  cqLog : Nat := 0
  sqTail : Nat := 0
  sqHead : Nat := 0
  cqHead : Nat := 0
  cqTail : Nat := 0
  en : Bool := false
  irqEn : Bool := false
  fetchFault : Bool := false
  cqOvf : Bool := false
  cfgErr : Bool := false
  wrapped : Bool := false
  fetched : List SqEnt := []
  deriving DecidableEq, Repr

/-- A result on its way from a compute die to the port die (R238, R239): `kind` 1 a lane result, 2 a dispatcher's answer,
4 a lane-control answer after a fence (R240); `job` the job whose frame slot the result link still reads. -/
structure ResHdr where
  due : Nat
  die : Nat
  src : Nat
  status : Nat
  cls : Nat
  msgid : Nat
  body : Bytes
  deadline : Nat
  kind : Nat := 1
  lane : Nat := 0xFF
  pke : Nat := 0xFF
  tstamp : Nat := 0
  epoch : Nat := 0
  job : Option Nat := none
  deriving DecidableEq, Repr

/-- The PCIe function of the host port (R164), as it presents itself: identity, BAR sizes in bytes, MSI-X vectors, limits; and the MSI-X mask and
pending bits that BAR2 holds. What the host writes into the configuration space is not a command of the table (log entry 85). -/
structure PcieFn where
  vendor : Nat := 0x1F3D
  device : Nat := 0x6400
  bar0 : Nat := 65536
  bar2 : Nat := 8192
  vectors : Nat := 7
  maxPayload : Nat := 512
  maxRead : Nat := 4096
  sriov : Bool := false
  ats : Bool := false
  aer : Bool := true
  tags10 : Bool := true
  mask : Nat := 0
  pba : Nat := 0
  deriving DecidableEq, Repr

/-- The port die. -/
structure PortState where
  srcs : Tab Source := []
  hqs : Tab HostQ := []
  link : Nat := 0
  rate : Nat := 0
  clsImg : Tab Bytes := []
  resLink : List ResHdr := []
  foreign : Tab (List Nat) := []
  unsent : Tab Nat := []
  keepAll : Bool := false
  keepMatch : Tab Bytes := []
  pcie : PcieFn := {}
  deriving DecidableEq, Repr

end Sys2Proof.Machine
end

