-- ==== Sys2Proof/Machine/StUnit.lean ====
section
/-!
DEFINITION. State of the dispatchers, lanes, quads and epochs (Admission, Deadlines and Epochs; Lanes, Quads and Tiles), and
of the collectors and audit units (Result Collection and the Audit Stream).
-/
namespace Sys2Proof.Machine

/-- A configuration held by a dispatcher and the ports (R217, R218): the entry values in force, the classifier images by
slot, the program images by number, the mode it serves, and the bank each lane uses. -/
structure EpochCfg where
  num : Nat
  mode : Nat
  ents : Tab (Option Bytes) := []
  cls : Tab Bytes := []
  progs : Tab Bytes := []
  banks : Tab Nat := []
  curves : Tab Bytes := []
  deriving DecidableEq, Repr

/-- A descriptor on its way to a dispatcher (R136), with its message. -/
structure Arrival where
  due : Nat
  desc : Desc
  body : Bytes
  keyIn : Tab Bytes := []
  lost : Bool := false
  deriving DecidableEq, Repr

/-- An admitted job. `stage`: 0 first run waits, 1 first run in progress, 2 PK stage, 3 completion run waits, 4 completion run
in progress, 5 posted. `refs` holds the cache index of each quad reference. -/
structure Job where
  desc : Desc
  body : Bytes
  lane : Nat
  slot : Nat
  stage : Nat := 0
  bank : Nat := 0
  image : Nat := 0
  epoch : Nat := 0
  cost1 : Nat := 0
  cost2 : Nat := 0
  rel : Nat := 0
  d1 : Nat := 0
  dl : Nat := 0
  refs : Tab (Option Nat) := []
  pkOp : Nat := 0
  pkK : Nat := 0
  pkW : Nat := 0
  pkY : Nat := 0
  vasW : Nat := 0
  pkP : Nat := 0
  engine : Option Nat := none
  vas : Option Nat := none
  bodyIn : Bool := false
  bodyDue : Nat := 0
  wakeBy : Option Nat := none
  keysBy : Nat := 0
  pins : List Nat := []
  xa : Nat := 0
  ta : Nat := 0
  frame : Memory := []
  valid : Nat := 0
  pkst : Nat := 0
  pkres : Bytes := []
  pkAt : Nat := 0
  rmax : Nat := 0
  slotFreed : Bool := false
  deriving DecidableEq, Repr

/-- An entry of a lane queue (R191): `st` 0 waiting, 1 running, 2 its run has ended and its body is still being read. -/
structure QEnt where
  job : Nat
  fin : Bool
  dl : Nat
  rel : Nat
  cost : Nat
  st : Nat := 0
  order : Nat := 0
  deriving DecidableEq, Repr

/-- A run in progress: its job, whether it is the completion run, its start and its committed end. -/
structure Run where
  job : Nat
  fin : Bool
  start : Nat
  until_ : Nat
  deriving DecidableEq, Repr

/-- A lane timer (R283): `due` is the DT at which its count reaches 0. -/
structure LaneTimer where
  en : Bool := false
  periodic : Bool := false
  reload : Nat := 0
  due : Nat := 0
  epoch : Nat := 0
  deriving DecidableEq, Repr

/-- A presented lane, or a spare's memory and register set (64-67). Bank states: 0 FREE, 1 LOADING, 2 READY, 3 ACTIVE. -/
structure Lane where
  cause : Nat := 0
  fenceDt : Nat := 0
  claimed : Bool := false
  claimAt : Nat := 0
  slice : Option Nat := none
  subst : Bool := false
  spared : Bool := false
  queue : List QEnt := []
  run : Option Run := none
  posts : List ResHdr := []
  bankA : Nat := 0
  bankB : Nat := 0
  ackA : Option Nat := none
  ackB : Option Nat := none
  setA : List (Nat × Bytes) := []
  setB : List (Nat × Bytes) := []
  runB : Bool := false
  cyc : Nat := 0
  budget : Nat := 0
  cycmax : Nat := 0
  ovr : Nat := 0
  tmr : Tab LaneTimer := []
  pend : Nat := 0
  ovf : Nat := 0
  carried : Nat := 0
  inFull : Bool := false
  outFull : Bool := false
  mbxi : Tab Word := []
  mbxo : Tab Word := []
  loadsel : Bool := false
  trap : Nat := 0
  trapAddr : Nat := 0
  cudefA : Nat := 0
  cudefB : Nat := 0
  dslimA : Nat := 0
  dslimB : Nat := 0
  mem : Memory := []
  deriving DecidableEq, Repr

/-- A spare lane S0-S3: 0 AVAILABLE, 1 TESTING, 2 SUBSTITUTING, 3 IN_USE, 4 FAILED; the lane served and the DT at which the
present step began. -/
structure Spare where
  st : Nat := 0
  lane : Nat := 0
  step : Nat := 0
  since : Nat := 0
  next : Option Nat := none
  deriving DecidableEq, Repr

/-- States of a derived-key cache entry (R278). -/
inductive CacheSt where
  | empty
  | filling
  | valid
  | error (status : Nat)
  deriving DecidableEq, Repr

/-- A derived-key cache entry (R278, R281). `kf` is the ready time admission booked; `deferred` a removal held by a pin. -/
structure CacheEnt where
  st : CacheSt := .empty
  node : Nat := 0
  input : Bytes := []
  key : Bytes := []
  use_ : Nat := 0
  eng : Nat := 0
  alg : Nat := 0
  klen : Nat := 0
  ktype : Nat := 0
  pins : Nat := 0
  last : Nat := 0
  kf : Nat := 0
  deferred : Bool := false
  deriving DecidableEq, Repr

/-- A quad: fence, cluster units (0 in service, 1 claimed or under test, 2 fenced; AES-0, AES-1, TDES, Saffron, hash), cache,
body mover, Saffron generator count. -/
structure Quad where
  cause : Nat := 0
  units : Tab Nat := []
  claim : Option Nat := none
  claimAt : Nat := 0
  slice : Option Nat := none
  cache : Tab CacheEnt := []
  mover : Nat := 0
  sgen : Nat := 0
  late : Bool := false
  deriving DecidableEq, Repr

/-- A dispatcher: descriptors on their way, the epochs it holds, pipeline next-free times, and whether its die is in core
reset (R222). -/
structure Dispatch where
  arrivals : List Arrival := []
  cur : Nat := 1
  prev : Nat := 0
  pipes : Tab Nat := []
  inReset : Bool := false
  deriving DecidableEq, Repr

/-- Phases of a configuration change (R218, R221). -/
inductive ChangeSt where
  | idle
  | queued
  | loading
  | acked
  deriving DecidableEq, Repr

/-- The epoch machinery. -/
structure EpochState where
  cur : Option EpochCfg := none
  prev : Option EpochCfg := none
  shadow : Option EpochCfg := none
  st : ChangeSt := .idle
  slot : Option Nat := none
  target : Nat := 0
  source : Nat := 0
  loadAt : Nat := 0
  acks : Nat := 0
  need : Nat := 0
  packs : Nat := 0
  lastAck : Nat := 0
  loadRes : Tab Nat := []
  tf : Nat := 0
  images : Tab Bytes := []
  pendImages : Tab Bytes := []
  deriving DecidableEq, Repr

/-- A cut or open audit block (R245). `due` is its boundary; `records` its records in chain order. -/
structure AudBlock where
  bseq : Nat
  rseq : Nat
  start : Nat
  fin : Nat
  due : Nat
  records : List Bytes := []
  header : Bytes := []
  signed : Option Bytes := none
  written : Bool := false
  deriving DecidableEq, Repr

/-- Stream bytes not yet delivered (R253, R254): kind 0 record, 1 header, 2 signature item; the offset of the first byte in
the die's stream, the DT at which it was appended, and the block of a header or signature item. -/
structure AudItem where
  kind : Nat
  off : Nat
  at_ : Nat
  bseq : Nat
  bytes : Bytes
  deriving DecidableEq, Repr

/-- A die's audit unit (R242-R263) and collector (R236). `corerst` and `undeliv` keep the DTs of core resets and of discarded bytes until their block
closes (R247); `served` is the last LCLK the collector served; `heldEpoch` is, through a system reset, the previous and current epoch and the DT between
them (R256). -/
structure AudUnit where
  run : Bool := false
  sysHold : Bool := false
  erased : Bool := false
  bootid : Nat := 0
  nrec : Nat := 0
  bseq : Nat := 0
  start : Nat := 0
  recs : List (Nat × Bytes) := []
  prev : Bytes := []
  corerst : List Nat := []
  pendBlocks : List AudBlock := []
  items : List AudItem := []
  offset : Nat := 0
  undeliv : List (Nat × Nat) := []
  fifoMax : Nat := 0
  lastCut : Nat := 0
  alg : Nat := 0
  interval : Nat := 0
  ptr : Nat := 0
  pendMax : Nat := 0
  served : Nat := 0
  heldEpoch : Option (Nat × Nat × Nat) := none
  deriving DecidableEq, Repr

/-- Lanes, quads, dispatchers, jobs, epochs, audit units. -/
structure UnitState where
  lanes : Tab Lane := []
  spares : Tab Spare := []
  quads : Tab Quad := []
  disps : Tab Dispatch := []
  jobs : Tab Job := []
  nextJob : Nat := 0
  nextOrder : Nat := 0
  epoch : EpochState := {}
  auds : Tab AudUnit := []
  shared : Tab Memory := []
  cores : Tab Core := []
  sup : SupState := {}
  outs : List (Nat × Nat) := []
  deriving DecidableEq, Repr

end Sys2Proof.Machine
end

