-- ==== Sys2Proof/Machine/StKey.lean ====
section
/-!
DEFINITION. State of the key die (Key Tree, Slots and Attestation): nodes, key runs, anchors, roots, deliveries, the sealed
key bus, coherence scans and replacements.
-/
namespace Sys2Proof.Machine

/-- A node record (R419). `bad` marks a record whose stored tag no longer matches (R425). -/
structure Node where
  kind : Nat := 0
  state : Nat := 0
  method : Nat := 0
  ktype : Nat := 0
  attr : Nat := 0
  use_ : Nat := 0
  engine : Nat := 0
  ilen : Nat := 0
  parent : Nat := 0
  param : Nat := 0
  slot : Nat := 0
  version : Nat := 0
  newslot : Nat := 0
  units : Nat := 0
  label : Nat := 0
  bad : Bool := false
  deriving DecidableEq, Repr

/-- A run of slots (R421), keyed by its head: `bad` marks a slot whose tag fails (R424), `ust` the UNUSABLE state. ROLE is
0 ACTIVE, 1 STAGED, 2 RETIRING. `pub` is the public key kept with an ECC private key (R442). -/
structure KRun where
  ktype : Nat := 0
  next : Nat := 0
  param : Nat := 0
  owner : Nat := 0
  role : Nat := 0
  version : Nat := 0
  key : Bytes := []
  pub : Bytes := []
  bad : Bool := false
  ust : Bool := false
  deriving DecidableEq, Repr

/-- A replacement in progress (R443): whether a staged run is allocated, its head (an anchor's key otherwise), AUTOCOMMIT, the long operation of STAGE,
the expected check value, the key's ORIGIN, and whether its slot is damaged. -/
structure Repl where
  has : Bool := false
  head : Nat := 0
  key : Bytes := []
  auto : Bool := false
  stageOp : Option Nat := none
  check : Bytes := []
  origin : Nat := 0
  badSlot : Bool := false
  deriving DecidableEq, Repr

/-- A delivery booked on a pipeline (R192, R437): its start KS and ready time KR, and its destination. -/
structure Delivery where
  due : Nat
  ready : Nat
  pipe : Nat
  node : Nat
  input : Bytes
  du : Nat
  die : Nat
  quad : Option Nat := none
  idx : Nat := 0
  job : Nat := 0
  deriving DecidableEq, Repr

/-- A message on the sealed key bus (R438): `status` 0 carries the key. -/
structure BusMsg where
  due : Nat
  die : Nat
  quad : Option Nat
  idx : Nat
  job : Nat
  node : Nat
  input : Bytes
  status : Nat
  key : Bytes
  ktype : Nat
  param : Nat
  use_ : Nat
  eng : Nat
  vas : Bool
  deriving DecidableEq, Repr

/-- A coherence scan (R440): the nodes marked in the last pass, all marked so far, the pass about to end. -/
structure Scan where
  node : Nat
  front : List Nat
  marked : List Nat
  pass : Nat := 0
  start : Nat
  deriving DecidableEq, Repr

/-- An old run waiting for its removals (R441), with the long operation that ends when it is freed (R445) and the nodes the
scan of its change marked. -/
structure OldRun where
  head : Nat
  node : Nat
  since : Nat
  op : Option Nat := none
  marks : List Nat := []
  deriving DecidableEq, Repr

/-- An RSA key in generation (R442, R555): its node, the long operation, whether it is a replacement, and whether its
background job has been submitted. -/
structure GenReq where
  node : Nat
  op : Option Nat
  staged : Bool
  auto : Bool := false
  die : Option Nat := none
  tried : Nat := 0
  check : Bytes := []
  deriving DecidableEq, Repr

/-- The key die. -/
structure KeyState where
  nodes : Tab Node := []
  runs : Tab KRun := []
  anchors : Tab Bytes := []
  anchorSt : Tab Nat := []
  repl : Tab Repl := []
  root : Bytes := []
  rootSt : Nat := 0
  ak : Bytes := []
  bootNonce : Bytes := []
  kb0 : Bytes := []
  kb1 : Bytes := []
  idk : Nat := 0
  saltGen : Nat := 0
  pufDone : Bool := false
  pufFail : Bool := false
  pufAttempts : Nat := 0
  pufCorrected : Nat := 0
  delivs : List Delivery := []
  bus : List BusMsg := []
  scans : List Scan := []
  removals : List Nat := []
  olds : List OldRun := []
  drvUnits : Tab Nat := []
  drvEnd : Tab Nat := []
  gens : List GenReq := []
  buf : Memory := []
  op : Nat := 0
  code : Nat := 0
  deriving DecidableEq, Repr

end Sys2Proof.Machine
end

