-- ==== Sys2Proof/Machine/StGrp.lean ====
section
/-!
DEFINITION. State of the custodian card interfaces, of ceremonies and of the mirror group (Custodians, Ceremonies and Mirror
Groups, R571-R613).
-/
namespace Sys2Proof.Machine

/-- A card interface (R571-R574, CUS_n_STAT): STATE, CLASS, PRES, CHAN, FAULT, IFSC; the transmission values in use and the
waiting times of the ATR; `step` 0 activated, 1 application selected, 2 identity read, 3 signature judged, 4 inserted before the ceremony; `cmd` the INS of the
outstanding command and `cmdAt` its DT; `retry` the DT from which class A may start; the channel's ephemeral key, nonce, KE, KM and SEQ. -/
structure Card where
  st : Nat := 0
  cls : Nat := 0
  pres : Bool := false
  chan : Bool := false
  fault : Nat := 0
  ifsc : Nat := 0
  fi : Nat := 0
  di : Nat := 0
  cwi : Nat := 0
  bwi : Nat := 0
  step : Nat := 0
  cmd : Option Nat := none
  cmdAt : Nat := 0
  slot : Nat := 0
  retry : Option Nat := none
  cardid : Bytes := []
  qc : Bytes := []
  cred : Option Nat := none
  eph : Nat := 0
  nonce : Bytes := []
  ke : Bytes := []
  km : Bytes := []
  seq : Nat := 1
  comp : Bytes := []
  deriving DecidableEq, Repr

/-- A signature collected by the ownership ceremony: the CUST entry, the card's CARDID and QC, the signature. -/
structure OwnSig where
  cust : Nat
  cardid : Bytes
  qc : Bytes
  sig : Bytes
  deriving DecidableEq, Repr

/-- The ceremony in progress (R577-R590): kind 0 none, state 1 COLLECTING, 2 RUNNING; its long operation, parameters, number,
start and quorum instants; the approving credentials; components collected (or written) by credential, those still to write,
and the check values; the last card fault; the ownership signatures; an ABORT or a leaving request that waits for the next
abort point; and, for GROUP, the group change it waits for. -/
structure Ceremony where
  kind : Nat := 0
  st : Nat := 0
  slot : Option Nat := none
  role : Nat := 0
  params : Bytes := []
  num : Nat := 0
  start : Nat := 0
  quorumAt : Nat := 0
  approvals : List Nat := []
  comps : List (Nat × Bytes) := []
  todo : List Bytes := []
  checks : List Bytes := []
  fault : Nat := 0
  sigs : List OwnSig := []
  abort : Bool := false
  leave : Option Nat := none
  chg : Bytes := []
  deriving DecidableEq, Repr

/-- What a mirror frame carries (R594-R605). -/
inductive MirMsg where
  /-- the nonce that the peer's statement is to carry (R594) -/
  | nonce (n : Bytes)
  /-- the attestation statement of node 0 and the ephemeral key (R594) -/
  | auth (stmt eph : Bytes)
  | heartbeat
  | token (t : Bytes)
  | tamper (t : Bytes)
  /-- change ID, operation (0 a node, 1 a replacement, 2 the roster), node, record, key, roster -/
  | prepare (chg : Bytes) (op node : Nat) (rec key ros : Bytes)
  /-- 1 PREPARED, 2 REFUSE, 3 COMMIT, 4 COMMITTED, 5 ABORT, 6 STATUS -/
  | note (ty : Nat) (chg : Bytes)
  /-- the answer to STATUS: 0 not holding, 1 PREPARED, 2 COMMITTED, 3 ABORTED -/
  | answer (chg : Bytes) (st : Nat)
  /-- a node's state in the exchange of R603, with the number of members the sender stayed joined to -/
  | copy (node : Nat) (rec key : Bytes) (joined : Nat)
  /-- a node of the tree on its way to a joiner (R598) -/
  | transfer (node : Nat) (rec key : Bytes)
  deriving DecidableEq, Repr

/-- A mirror link MP0-MP7: STATE 0 DOWN, 1 TRAINING, 2 AUTH, 3 UP; the peer's SERIAL; TAGFAIL; the statement and ephemeral key
sent, the nonce sent, the two link keys, the sequence numbers, the DT of the last frame each way, and the two tokens (R605). -/
structure MLink where
  st : Nat := 0
  peer : Bytes := []
  tagfail : Nat := 0
  eph : Nat := 0
  stmt : Bytes := []
  nonce : Bytes := []
  txKey : Bytes := []
  rxKey : Bytes := []
  txSeq : Nat := 0
  rxSeq : Nat := 0
  lastRx : Nat := 0
  lastTx : Nat := 0
  tokTx : Bytes := []
  tokRx : Bytes := []
  deriving DecidableEq, Repr

/-- A roster entry (R596): SERIAL, IDK digest, and whether the member is ERASED (R604). -/
structure Member where
  serial : Bytes := []
  idk : Bytes := []
  erased : Bool := false
  deriving DecidableEq, Repr

/-- A group change (R600-R603). `op` 0 a node created, filled or deleted, 1 a replacement, 2 the roster; `mine` marks the
initiator; `st` 0 preparing, 1 PREPARED, 2 committed and waiting for COMMITTED, 3 held (R602); `waits` the roster slots that have
not answered. -/
structure Chg where
  id : Bytes
  op : Nat
  node : Nat
  nrec : Bytes := []
  key : Bytes := []
  ros : Bytes := []
  mine : Bool := false
  init : Bytes := []
  st : Nat := 0
  targets : List Nat := []
  waits : List Nat := []
  stats : List (Nat × Nat) := []
  asked : Bool := false
  slot : Option Nat := none
  res : Bytes := []
  start : Nat := 0
  resendAt : Nat := 0
  deriving DecidableEq, Repr

/-- Cards, ceremonies and the group. `ros` is the roster by slot; `decs` the decision log, newest first: change ID, node,
decision; `acted` the pairs of change ID and message type already acted on (R595); `invited` the device an ADMIT names and `join`
the member a JOIN names, SERIAL then IDK digest. -/
structure GrpState where
  cards : Tab Card := []
  cer : Ceremony := {}
  id : Bytes := []
  ros : Tab Member := []
  links : Tab MLink := []
  chgs : List Chg := []
  decs : List (Bytes × Nat × Nat) := []
  decPos : Nat := 0
  chgCtr : Nat := 0
  acted : List (Bytes × Nat) := []
  invited : Bytes := []
  join : Bytes := []
  joining : Bool := false
  deriving DecidableEq, Repr

end Sys2Proof.Machine
end

