-- ==== Sys2Proof/Machine/StMr.lean ====
section
/-!
DEFINITION. State of the digest engine, the measurement registers and their log, and the supervisor images (Digest Engine and
Measured Boot, R614-R642).
-/
namespace Sys2Proof.Machine

/-- The digest engine (R614-R621): DIG_CTRL's fields, the bytes accepted, the input blocks full, whether the inner HMAC block or
the finish is in progress, DIG_STAT's flags, and the result. `keyAt`: when the key and the inner key block are done; `freeAt`:
when the hash core is done with the blocks accepted so far (the model's own, R614, R619). -/
structure DigState where
  mode : Nat := 0
  alg : Nat := 0
  cmpen : Bool := false
  cmplen : Nat := 0
  len : Nat := 0
  msg : Bytes := []
  full : Nat := 0
  running : Bool := false
  keying : Bool := false
  finishing : Bool := false
  key : Bytes := []
  done : Bool := false
  trunc : Bool := false
  isMatch : Bool := false
  mismatch : Bool := false
  cmpflt : Bool := false
  kstat : Nat := 0
  err : Nat := 0
  res : Bytes := []
  keyAt : Nat := 0
  freeAt : Nat := 0
  deriving DecidableEq, Repr

/-- An extend that waits for the measurement core (R622): the register, V, and SOURCE and AUX of its log entry. `port` is 0 for
hardware and firmware, 1 the vendor port's GO, 2 the owner port's GO; `arrival` is the DT at which it was made. -/
structure MrReq where
  mr : Nat
  v : Bytes
  source : Nat
  aux : Nat
  port : Nat := 0
  arrival : Nat := 0
  deriving DecidableEq, Repr

/-- The measurement registers: unlisted ones hold 48 zero bytes. The log holds its entries oldest first (R625).
`freeAt`: when the measurement core is done with the extend it performed last (the model's own). -/
structure MrState where
  vals : Tab Bytes := []
  log : List Bytes := []
  waiting : List MrReq := []
  refused : Bool := false
  bootlock : Bool := false
  reext : Bool := false
  baseDig : Bytes := []
  vidx : Nat := 0
  vsrc : Nat := 0
  oidx : Nat := 8
  freeAt : Nat := 0
  deriving DecidableEq, Repr

/-- A loaded module (R635): its place and its header. -/
structure Module where
  lo : Nat := 0
  size : Nat := 0
  header : Bytes := []
  st : Nat := 0
  caps : Nat := 0
  deriving DecidableEq, Repr

/-- The supervisor's images: the base that runs (its place and header) and the modules by m. -/
structure ImgState where
  base : Module := {}
  mods : Tab Module := []
  deriving DecidableEq, Repr

end Sys2Proof.Machine
end

