-- ==== Sys2Proof/Machine/StNvm.lean ====
section
/-!
DEFINITION. State of the MRAM, the monotonic counters and the fuse array (MRAM, Counters and Fuses).
-/
namespace Sys2Proof.Machine

/-- One open region's guard (R784). -/
structure OpenRegion where
  unlocked : Bool := false
  failures : Nat := 0
  locked : Bool := false
  deriving DecidableEq, Repr

/-- One command interface of the MRAM controller: NVM_ or NVM_OR_ registers. -/
structure NvmPort where
  ctrl : Nat := 0
  addr : Nat := 0
  len : Nat := 0
  busy : Bool := false
  done : Bool := false
  err : Nat := 0
  cnt : Nat := 0
  pwd : Nat := 0
  buf : Memory := []
  deriving DecidableEq, Repr

/-- A command waiting for the MRAM controller (R778): rank (0 Anise, 1 key die, 2 base, 3 owner). -/
structure NvmJob where
  rank : Nat
  op : Nat
  ini : Nat
  fails : Nat
  deriving DecidableEq, Repr

/-- MRAM, counters, fuses. Page `p` (0 to 2,111, spares from 2,048) holds its bytes at `256 * p`. A fuse word not
listed holds the value burned at manufacture. `badPages` hold an uncorrectable word; `badWords` says which (word `w` at byte `8 * w`). The monotonic counters lie in the MRAM bytes (R785). -/
structure NvmState where
  mram : Memory := []
  badPages : List Nat := []
  badWords : List Nat := []
  spareUsed : List (Nat × Nat) := []
  spareBad : List Nat := []
  readOnly : Nat := 0
  fuses : Tab (Option Nat) := []
  marginal : List Nat := []
  base : NvmPort := {}
  owner : NvmPort := {}
  waiting : List NvmJob := []
  or0 : OpenRegion := {}
  or1 : OpenRegion := {}
  fusCtrl : Nat := 0
  fusData : Nat := 0
  fusDone : Bool := false
  fusVerify : Bool := false
  fusDenied : Bool := false
  deriving DecidableEq, Repr

end Sys2Proof.Machine
end

