-- ==== Sys2Proof/Machine/StPk.lean ====
section
/-!
DEFINITION. State of the public-key engines (Public-Key Engines): job sets, context banks, claims and fences, background
interfaces and curve slots.
-/
namespace Sys2Proof.Machine

/-- A key in a context bank. -/
structure PkKey where
  key : Bytes := []
  ktype : Nat := 0
  param : Nat := 0
  use_ : Nat := 0
  vas : Bool := false
  deriving DecidableEq, Repr

/-- A job of an engine: `kind` 0 lane, 1 verification of a booked VAS, 2 audit, 3 background; `ref` the admitted job, or the
audit block; `seq` its number. `rem` the work not yet done, `rel` the committed release, `arr` the instant at which it arrives
at the engine, `keyAt` the instant its key (or the refusal `refused`) is in its bank, `rls` the instant of its release. -/
structure PkJob where
  kind : Nat
  ref : Nat := 0
  pkop : Nat := 0
  rem : Nat := 0
  rel : Nat := 0
  dl : Nat := 0
  seq : Nat := 0
  arr : Option Nat := none
  keyAt : Option Nat := none
  rls : Option Nat := none
  started : Bool := false
  key : Option PkKey := none
  refused : Nat := 0
  off : Nat := 0
  len : Nat := 0
  oper : Bytes := []
  sig : Bytes := []
  status : Option Nat := none
  result : Bytes := []
  epoch : Nat := 0
  withdrawn : Bool := false
  deriving DecidableEq, Repr

/-- An engine. Claims: 0 none, 1 self-test, 2 background. `run` is the running job, `runAt` the instant it last began to run,
`yieldAt` that of its start or last yield point, `slice` the start of a self-test slice. -/
structure PkEng where
  cause : Nat := 0
  fenceDt : Nat := 0
  claim : Nat := 0
  claimAt : Nat := 0
  slice : Option Nat := none
  jobs : List PkJob := []
  run : Option Nat := none
  runAt : Nat := 0
  yieldAt : Nat := 0
  count : Nat := 0
  lastOp : Nat := 0
  reqs : Nat := 0
  seeded : Bool := false
  deriving DecidableEq, Repr

/-- Context banks in use (R524, R535): one for each lane job and for the background job, one for all audit jobs together. -/
def PkEng.banks (v : PkEng) : Nat :=
  (v.jobs.filter (fun j => decide (j.kind ≠ 2))).length + (if v.jobs.any (fun j => decide (j.kind = 2)) then 1 else 0)

/-- A die's background interface (R556): the descriptor, GO, BUSY, DONE, the engine, RESULT, the submission's DT. -/
structure PkBg where
  desc : Bytes := List.replicate 32 0
  go : Bool := false
  busy : Bool := false
  done : Bool := false
  claim : Bool := false
  engine : Nat := 0
  result : Nat := 0
  at_ : Nat := 0
  abort : Bool := false
  started : Bool := false
  deriving DecidableEq, Repr

/-- A curve slot (R552-R554): 0 empty, 1 installed, 2 pending the next flip; `pend` none leaves it, some empty unloads. -/
structure CurveSlot where
  record : Bytes := []
  pend : Option Bytes := none
  deriving DecidableEq, Repr

/-- The public-key engines. -/
structure PkState where
  engs : Tab PkEng := []
  bgs : Tab PkBg := []
  curves : Tab CurveSlot := []
  seq : Nat := 0
  deriving DecidableEq, Repr

end Sys2Proof.Machine
end

