-- ==== Sys2Proof/Machine/StPower.lean ====
section
/-!
DEFINITION. State of the power and reset controller, of bring-up and of the test access port (Power Domains and Operating
Modes; Bring-up and Reset; Package, Balls and Signals).
-/
namespace Sys2Proof.Machine

/-- Life-cycle states (R46, R47), in their order. -/
inductive Lcs where
  | blank
  | vendor
  | owned
  | fa
  | retired
  deriving DecidableEq, Repr

/-- Modes (R724). -/
inductive Mode where
  | guard
  | bringup
  | bypass
  | ceremony
  | service
  | degraded
  | drain
  | doze
  | deep
  | update
  | alarm
  | inert
  deriving DecidableEq, Repr

/-- States of a power domain (R706). -/
inductive DomState where
  | off
  | up
  | ready
  | entry
  | down
  | ret
  | retry
  | fenced
  deriving DecidableEq, Repr

/-- One power domain PD00-PD32. `since` is the DT at which its present state began; `wantUp` a wake held until OFF
(R711), `cause` the wake source and index of the power-up in progress,
`attempt` the retry count of R714, `fenceReq` a fence that arrived during the power-down (R733). -/
structure Dom where
  st : DomState := .off
  since : Nat := 0
  wantUp : Option (Nat × Nat) := none
  cause : Nat × Nat := (0, 0)
  wokenAt : Nat := 0
  onAt : Nat := 0
  rev : Bool := false
  attempt : Nat := 0
  fenceReq : Bool := false
  idleDue : Option Nat := none
  deriving DecidableEq, Repr

/-- A wake record of R713. -/
structure WakeRec where
  dt : Nat
  src : Nat
  index : Nat
  dom : Nat
  flags : Nat
  stall : Nat
  deriving DecidableEq, Repr

/-- A refusal record of R719. -/
structure RefRec where
  dt : Nat
  target : Nat
  refuser : Nat
  kind : Nat
  point : Nat
  deriving DecidableEq, Repr

/-- The power controller. -/
structure PowerState where
  lcs : Lcs := .vendor
  mode : Mode := .bringup
  retMode : Nat := 0
  ret2 : Nat := 0
  modeSince : Nat := 0
  preDoze : Mode := .bypass
  dozeSince : Nat := 0
  deepFrom : Option Nat := none
  drainTo : Option Mode := none
  modeTarget : Option (Mode × Nat) := none
  ceremonySince : Nat := 0
  doms : Tab Dom := []
  wakeRing : List WakeRec := []
  refRing : List RefRec := []
  holdQuads : Bool := false
  holdPk : Bool := false
  holdDeep : Bool := false
  vset : Nat := 800
  failDom : Nat := 0
  failAttempt : Nat := 0
  fails : Nat := 0
  gpOe : Nat := 0
  gpOut : Nat := 0x3F
  gpIn : Nat := 0
  gpEdge : Nat := 0
  vid : Nat := 20
  vsetDt : Nat := 0
  deriving DecidableEq, Repr

/-- Reset levels (R740). -/
inductive Level where
  | powerOn
  | system
  | core
  deriving DecidableEq, Repr

/-- Bring-up phases (R751). -/
inductive Phase where
  | options
  | release
  | keydie
  | boot
  | post
  | epoch
  | done
  | halt
  deriving DecidableEq, Repr

/-- Reset, bring-up, options, watchdog, self-test and TAP. `optAt`: when the option loader ended (the model's own, R752). -/
structure ResetState where
  level : Nat := 1
  scope : Nat := 0
  info : Nat := 0
  source : Nat := 1
  cdt : Nat := 0
  crtc : Nat := 0
  phase : Phase := .options
  hcause : Nat := 0
  coreBusy : Nat := 0
  optDone : Bool := false
  restarts : Nat := 0
  marginal : Nat := 0
  mcopy : Nat := 0
  optWords : Tab Nat := []
  optDigest : Bytes := []
  sysrstHeld : Bool := false
  porstHeld : Bool := false
  wdtEn : Bool := false
  wdtFrom : Nat := 0
  wdto : Nat := 1000
  blkRefused : Bool := false
  blkKind : Nat := 0
  blkIndex : Nat := 0
  started : Nat := 0
  lastDur : Nat := 0
  postLanes : Nat := 0
  postPk : Nat := 0
  postCluster : Bytes := []
  kdTest : Nat := 0
  trngFailed : Bool := false
  trngFailAt : Option Nat := none
  rotation : Nat := 0
  lastPass : Nat := 0
  tested : Nat := 0
  again : List (Nat × Nat) := []
  kdDone : Bool := false
  deepCore : Nat := 0
  optAt : Nat := 0
  recovery : Bool := false
  deriving DecidableEq, Repr

/-- The test access port (R764, R765). -/
structure TapState where
  armedUntil : Option Nat := none
  unlocked : Bool := false
  nonceDrawn : Bool := false
  chal : Bytes := []
  ir : Nat := 1
  dr : Bytes := []
  boundary : Bytes := []
  deriving DecidableEq, Repr

/-- Pins of the module (R800, R814, R815): input levels taken and output levels driven. -/
structure PinState where
  pgMain : Bool := true
  pgIo : Bool := true
  porst : Bool := true
  sysrst : Bool := true
  perst : Bool := true
  deriving DecidableEq, Repr

end Sys2Proof.Machine
end

