-- ==== Sys2Proof/Machine/StTamper.lean ====
section
/-!
DEFINITION. State of the tamper conditions, the enclosure channels, the alarm outputs and the evidence log (Tamper
Response and Evidence Log).
-/
namespace Sys2Proof.Machine

/-- An event submitted to the evidence log (R664, R665). `act` holds ACT bits [2:0]; bit 3 is set where main power is on. -/
structure LogEv where
  ty : Nat
  src : Nat
  act : Nat
  rtcs : Nat
  rtcf : Nat
  dt : Nat
  data : Nat
  deriving DecidableEq, Repr

/-- The evidence log: queue in PD01, next SEQ and chain head in PD00; the region's entries lie in MRAM (R664-R668). -/
structure LogState where
  queue : List LogEv := []
  seq : Nat := 0
  head : Option Bytes := none
  count : Nat := 0
  full : Bool := false
  baseSeq : Nat := 0
  baseHead : Option Bytes := none
  guardQ : List LogEv := []
  vbat : Tab Nat := []
  nonce : Bytes := []
  deriving DecidableEq, Repr

/-- One tamper condition 0x01-0x11; `escd`: this assertion has escalated (R647). -/
structure Cond where
  asserted : Bool := false
  latched : Bool := false
  sensor : Nat := 0
  since : Nat := 0
  escFrom : Nat := 0
  lastLog : Option Nat := none
  escd : Bool := false
  sinceLog : Nat := 0
  deriving DecidableEq, Repr

/-- Tamper state outside the configuration entries. `slackDt`: per compute die, the DT of the last slack report or step (the
model's own, R657). -/
structure TamperState where
  conds : Tab Cond := []
  erased : Bool := false
  t1done : Bool := false
  t2done : Bool := false
  guardEv : Bool := false
  erases : Nat := 0
  lastErase : Nat := 0
  lastCond : Nat := 0
  erasing : Bool := false
  detDt : Nat := 0
  rtcs : Nat := 0
  rtcf : Nat := 0
  rtcDt : Nat := 0
  saltSet : Bool := false
  salt : Bytes := []
  pstep0 : Nat := 0
  pstep1 : Nat := 0
  pmax0 : Nat := 0
  pmax1 : Nat := 0
  slackDt : Tab Nat := []
  learn : Option Nat := none
  measured : Tab Nat := []
  chState : Tab Nat := []
  alLatch : Tab Nat := []
  alAck : Tab Nat := []
  sipend : Nat := 0
  deriving DecidableEq, Repr

end Sys2Proof.Machine
end

