-- ==== Sys2Proof/Machine/State.lean ====
section
/-!
DEFINITION. The state of the device: plain data, everything the spec gives it, the queue of waiting commands, the outputs
that have left it, and the draw counter of the free values.
-/
namespace Sys2Proof.Machine

/-- What leaves the device at its boundary. -/
inductive Out where
  /-- a dictionary reply (R68), and the bytes its carrier takes (R74, R76) -/
  | reply (r : Reply) (wire : List Bytes)
  /-- a frame on MGE that is no dictionary datagram (R74) -/
  | mge (body : Bytes)
  /-- a frame sent by a transaction port, FCS included (R157) -/
  | frame (port : Nat) (bytes : Bytes)
  /-- bytes written to host memory (R167, R253) -/
  | hostWrite (addr : Nat) (bytes : Bytes)
  /-- an MSI-X vector fired (R168) -/
  | msix (vector : Nat)
  /-- a command to a card: interface, INS, P1, data (R572) -/
  | card (iface ins p1 : Nat) (data : Bytes)
  /-- a frame on a mirror link: link, SEQ, what it carries (R593) -/
  | mirror (link seq : Nat) (m : MirMsg)
  /-- a fabric access completes (R681, R692, R714): initiator, address, 0 or the cause of the refusal, the bytes read -/
  | bus (ini addr cause : Nat) (data : Bytes)
  deriving DecidableEq, Repr

/-- The whole state. `fresh` holds the bits that hardware set at a DT, by register: a clear in the same cycle does not take them (R18). -/
structure State where
  pending : List Instr := []
  dt : Nat := 0
  draws : Nat := 0
  out : List Out := []
  regs : Tab Nat := []
  fresh : List (Nat × Nat × Nat) := []
  dict : DictState := {}
  power : PowerState := {}
  rst : ResetState := {}
  tap : TapState := {}
  pins : PinState := {}
  nvm : NvmState := {}
  tamper : TamperState := {}
  log : LogState := {}
  act : ActState := {}
  port : PortState := {}
  unit : UnitState := {}
  key : KeyState := {}
  pk : PkState := {}
  mr : MrState := {}
  dig : DigState := {}
  img : ImgState := {}
  grp : GrpState := {}
  deriving DecidableEq, Repr

/-- Why the device stops. The spec describes a response for every event it names, so no meaning raises it. -/
inductive Fault where
  /-- Never raised by a command: kept so that the type has a name for it (safe). -/
  | none
  deriving DecidableEq, Repr

/-- Why a command has no meaning. -/
inductive Refusal where
  /-- The command is not modelled yet (safe: nothing can be proved of it). -/
  | notModelled (mnemonic : String)
  deriving DecidableEq, Repr

/-- The device right after power-on reset (R741): DT 0, mode BRINGUP, phase OPTIONS. -/
def State.reset : State := {}

end Sys2Proof.Machine
end

