-- ==== Sys2Proof/Machine/Ops.lean ====
section
/-!
DEFINITION. The shared operations: outcomes, time, random draws, configuration values, status entries, counters, registers.
-/
namespace Sys2Proof.Machine

/-- The outcome type of every meaning. -/
abbrev Res := Host.Outcome State Fault Refusal

/-- A next state. -/
abbrev ok (s : State) : Res := .next s

/-- Something leaves the device. -/
def State.emit (s : State) (o : Out) : State := { s with out := o :: s.out }

/-- The DT at which an instant due at `due` is taken: never earlier than now (log entry 4). -/
def State.at (s : State) (due : Nat) : State := { s with dt := Nat.max s.dt due }

/-- Draw `n` free bytes. -/
def State.draw (s : State) (n : Nat) : Bytes × State :=
  ((List.range n).map (fun i => Config.freeByte (s.draws + i)), { s with draws := s.draws + n })

/-- The key of an entry in the dictionary's tables. -/
abbrev entKey (idx sub : Nat) : Nat := idx * 256 + sub

/-- Microseconds, milliseconds, seconds in DT nanoseconds. -/
abbrev us (n : Nat) : Nat := n * 1000
abbrev ms (n : Nat) : Nat := n * 1000000
abbrev sec (n : Nat) : Nat := n * 1000000000

/-- ACLK cycles in DT nanoseconds at the nominal 16 MHz, rounded up (R9, R10). -/
def aclk (n : Nat) : Nat := ceilDiv (n * 125) 2

/-- The ACLK cycle an instant lies in: 16 MHz. -/
def aclkOf (dt : Nat) : Nat := dt * 2 / 125

/-- The words that nothing burns before the ownership ceremony or a remap (R786, R787): seed, seed check, remap table. -/
def blankWord (w : Nat) : Bool :=
  (decide (92 ≤ w) && decide (w ≤ 100)) || (decide (156 ≤ w) && decide (w ≤ 164)) || (decide (192 ≤ w) && decide (w ≤ 255))

/-- Fused words: the one listed, or the value burned at manufacture; copy B of a secured word is burned as copy A (R786). -/
def State.fuse (s : State) (w : Nat) : Nat :=
  (Tab.look none s.nvm.fuses w).getD (if blankWord w then 0 else (Config.partFuse (if 128 ≤ w ∧ w ≤ 191 then w - 64 else w)).toNat)

/-- A secured word, 64-127 (R781 class 10, R786): of two copies that are not marginal the one whose set bits include the other's, else
the one that is not marginal; an unusable word reads as 0. -/
def State.secured (s : State) (w : Nat) : Nat :=
  let a := s.fuse w
  let b := s.fuse (w + 64)
  match s.nvm.marginal.contains w, s.nvm.marginal.contains (w + 64) with
  | false, false => if a ||| b = a then a else if a ||| b = b then b else 0
  | false, true => a
  | true, false => b
  | true, true => 0

/-- Nominal level in mV of a rail 0-9 in the order of 7030-7039 (R645, R823). -/
def railNominal : Nat → Nat
  | 0 => 750 | 1 => 750 | 2 => 800 | 3 => 800 | 4 => 850 | 5 => 900 | 6 => 1200 | 7 => 1800 | 8 => 800
  | _ => 3000

/-- The fixed-E conditions (R643). -/
def fixedE (code : Nat) : Bool := [0x01, 0x04, 0x06, 0x0A, 0x0B, 0x0C, 0x0F].contains code

/-- The conditions whose response is E by default (R643). -/
def defaultE (code : Nat) : Bool := fixedE code || [0x03, 0x05, 0x07, 0x0D, 0x11].contains code

/-- The thresholds of TMP level in degrees, TMP rate in degrees a second and the ENC window in percent (R645): low and high. -/
def condThreshold : Nat → Int × Int
  | 0x08 => (-25, 110)
  | 0x09 => (0, 25)
  | 0x0E => (-20, 20)
  | _ => (0, 0)

/-- The default escalation time in ms (R671): VRG, TMP and ENC drift; 0 never. -/
def condEscalation (code : Nat) : Nat :=
  if code = 2 ∨ code = 3 then 100 else if code = 8 ∨ code = 9 ∨ code = 0x0E then 10000 else 0

/-- A MAC address from the fused base: MGE is base, TPn is base + 1 + n (R786). -/
def State.fuseMac (s : State) (k : Nat) : Bytes :=
  beBytes ((s.secured 76 * 2 ^ 32 + s.secured 77) % 2 ^ 48 + k) 6

/-- Defaults that differ within a row of the entry tables, or that come from fuses. -/
def entDefault (s : State) (idx sub : Nat) (e : Ent) : Bytes :=
  if 0x2000 ≤ idx ∧ idx ≤ 0x201F ∧ sub = 0x1B then beBytes (if idx < 0x2010 then 2 ^ 32 - 1 else (2 ^ 32 - 1) * 2 ^ 32) 8
  else if 0x2000 ≤ idx ∧ idx ≤ 0x201F ∧ sub = 4 then s.fuseMac (idx - 0x2000 + 1)
  else if idx = 0x2040 ∧ sub = 2 then s.fuseMac 0
  else if idx = 0x2020 ∧ 5 ≤ sub ∧ sub ≤ 8 then beBytes (if sub < 7 then 2 ^ 32 - 1 else (2 ^ 32 - 1) * 2 ^ 32) 8
  else if 0x7011 ≤ idx ∧ idx ≤ 0x7021 ∧ sub = 1 then beBytes (b2n (fixedE (idx - 0x7010))) 1
  else if 0x7011 ≤ idx ∧ idx ≤ 0x7021 ∧ sub = 2 then beBytes (b2n (defaultE (idx - 0x7010))) 1
  else if 0x7011 ≤ idx ∧ idx ≤ 0x7021 ∧ sub = 3 then beBytes ((condThreshold (idx - 0x7010)).1 % 2 ^ 32).toNat 4
  else if 0x7011 ≤ idx ∧ idx ≤ 0x7021 ∧ sub = 4 then beBytes ((condThreshold (idx - 0x7010)).2 % 2 ^ 32).toNat 4
  else if 0x7011 ≤ idx ∧ idx ≤ 0x7021 ∧ sub = 5 then beBytes (condEscalation (idx - 0x7010)) 4
  else if 0x7030 ≤ idx ∧ idx ≤ 0x7039 then
    let n := idx - 0x7030
    let v := if n = 0 then (if sub = 1 then 660 else 860)
      else if n = 9 then (if sub = 1 then 2100 else 3700)
      else if sub = 1 then railNominal n * 93 / 100 else railNominal n * 107 / 100
    beBytes v 4
  else if 0x7060 ≤ idx ∧ idx ≤ 0x7065 ∧ sub = 1 then
    beBytes (if idx = 0x7060 then 2 ^ 24 else if idx = 0x7061 then 2 ^ 25 else 0) 4
  else e.dflt

/-- The default of an entry; empty where the entry is undefined. -/
def State.dflt (s : State) (idx sub : Nat) : Bytes :=
  match findEnt idx sub with
  | some e => entDefault s idx sub e
  | none => []

/-- The working value of an entry (R96). -/
def State.entW (s : State) (idx sub : Nat) : Bytes :=
  (Tab.look none s.dict.work (entKey idx sub)).getD (s.dflt idx sub)

/-- The value in force of an entry whose effect waits for a flip, a BRINGUP or the end of a session (R95). -/
def State.entF (s : State) (idx sub : Nat) : Bytes :=
  (Tab.look none s.dict.force (entKey idx sub)).getD (s.dflt idx sub)

/-- The value in force of an entry. -/
def State.entV (s : State) (idx sub : Nat) : Bytes :=
  match findEnt idx sub with
  | some e => if e.eff = .now ∨ e.eff = .none then s.entW idx sub else s.entF idx sub
  | none => []

/-- The number in force of an entry. -/
def State.cfg (s : State) (idx sub : Nat) : Nat := beNat (s.entV idx sub)

/-- Set the working value of an entry. -/
def State.setEnt (s : State) (idx sub : Nat) (v : Bytes) : State :=
  { s with
    dict := { s.dict with
      work := Tab.put none s.dict.work (entKey idx sub) (if v = s.dflt idx sub then none else some v) } }

/-- Set the value in force of an entry. -/
def State.setForce (s : State) (idx sub : Nat) (v : Bytes) : State :=
  { s with
    dict := { s.dict with
      force := Tab.put none s.dict.force (entKey idx sub) (if v = s.dflt idx sub then none else some v) } }

/-- The length of an entry's type in bytes. -/
def entLen (idx sub : Nat) : Nat :=
  match findEnt idx sub with
  | some e => e.ty.len
  | none => 0

/-- Set a numeric status entry. -/
def State.setNum (s : State) (idx sub n : Nat) : State := s.setEnt idx sub (beBytes n (entLen idx sub))

/-- The number of a status or counter entry. -/
def State.num (s : State) (idx sub : Nat) : Nat := beNat (s.entW idx sub)

/-- Count an event in a counter entry; a counter at all ones starts again at 0 (DESIGN CHOICE, log entry 6). -/
def State.bump (s : State) (idx sub : Nat) : State := s.setNum idx sub (s.num idx sub + 1)

/-- Count `n` events. -/
def State.bumpBy (s : State) (idx sub n : Nat) : State := s.setNum idx sub (s.num idx sub + n)

/-- A fabric address: die 0 CD0, 1 CD1, 2 KD, 3 XD and the offset within it (R30). -/
abbrev regKey (die off : Nat) : Nat := die * 2 ^ 32 + off

/-- A register that has no home of its own in the state (reset 0 unless `d` says otherwise). -/
def State.reg (s : State) (die off : Nat) (d : Nat := 0) : Nat := Tab.look d s.regs (regKey die off)

/-- Set such a register. -/
def State.setReg (s : State) (die off v : Nat) (d : Nat := 0) : State :=
  { s with regs := Tab.put d s.regs (regKey die off) v }

/-- Note the W1C bits, or the W1S requests, that were set in register `k` at this DT (R18). -/
def State.noteSet (s : State) (k m : Nat) : State :=
  { s with fresh := (s.dt, k, m) :: s.fresh.filter (fun e => decide (e.1 = s.dt)) }

/-- The bits of register `k` that were set at this DT. -/
def State.freshBits (s : State) (k : Nat) : Nat :=
  s.fresh.foldl (fun m e => if e.1 = s.dt ∧ e.2.1 = k then m ||| e.2.2 else m) 0

/-- A bit of register `k` that a write of 1 at this DT clears: hardware did not set it in the same cycle (R18). -/
def State.clears (s : State) (k v i : Nat) : Bool := bit v i && ! bit (s.freshBits k) i

/-- What a write of 1s leaves of a W1C register's bits (R17, R18). -/
def State.w1c (s : State) (k old v : Nat) : Nat := old - (old &&& (v - (v &&& s.freshBits k)))

/-- Offsets of the register blocks within their dies. -/
abbrev digOff : Nat := 0x0F030000
abbrev mrOff : Nat := 0x0F040000
abbrev tmpOff : Nat := 0x0F050000
abbrev pwrOff : Nat := 0x0F080000
abbrev rstOff : Nat := 0x0F090000

/-- Keys of the W1C registers that have fields of their own in the state: HPQ_Qn_STAT, TEVT and the mailbox flags of a lane. -/
abbrev hqKey (q : Nat) : Nat := regKey 3 (0x0F030028 + 0x100 * q)
abbrev tevtKey (l : Nat) : Nat := regKey 4 l
abbrev mbxKey (l : Nat) : Nat := regKey 4 (0x100 + l)

/-- The life-cycle code of PWR_MODE.LCS. -/
def Lcs.code : Lcs → Nat
  | .blank => 0 | .vendor => 1 | .owned => 2 | .fa => 3 | .retired => 4

/-- The mode codes (R724). -/
def Mode.code : Mode → Nat
  | .guard => 0 | .bringup => 1 | .bypass => 2 | .ceremony => 3 | .service => 4 | .degraded => 5 | .drain => 6
  | .doze => 7 | .deep => 8 | .update => 9 | .alarm => 10 | .inert => 11

/-- The mode of a code. -/
def Mode.ofCode : Nat → Mode
  | 0 => .guard | 1 => .bringup | 2 => .bypass | 3 => .ceremony | 4 => .service | 5 => .degraded | 6 => .drain
  | 7 => .doze | 8 => .deep | 9 => .update | 10 => .alarm | _ => .inert

/-- The states of a domain (PWR_DSTn). -/
def DomState.code : DomState → Nat
  | .off => 0 | .up => 1 | .ready => 2 | .entry => 3 | .down => 4 | .ret => 5 | .retry => 6 | .fenced => 7

/-- A power domain. -/
def State.dom (s : State) (d : Nat) : Dom := Tab.look {} s.power.doms d

/-- Set a power domain. -/
def State.setDom (s : State) (d : Nat) (v : Dom) : State :=
  { s with power := { s.power with doms := Tab.put {} s.power.doms d v } }

/-- Set a domain's state, with the time of the change. -/
def State.domTo (s : State) (d : Nat) (st : DomState) : State :=
  s.setDom d { s.dom d with st := st, since := s.dt }

/-- The DEEP entry has switched a domain off already (R721): D2, D3 and D4 end 32, 48 and 80 ACLK after its start. -/
def deepOff (s : State) (d : Nat) : Bool :=
  match s.power.deepFrom with
  | none => false
  | some t =>
    let n := if d = 30 ∨ d = 31 ∨ d = 32 then 32 else if d = 29 ∨ d = 6 ∨ d = 4 then 48 else 80
    decide ((4 ≤ d ∧ d ≤ 8) ∨ (29 ≤ d ∧ d ≤ 32)) && decide (t + aclk n ≤ s.dt)

/-- A domain takes accesses and work only in READY (R706); one that returns at an abort point is READY from then on. -/
def State.domReady (s : State) (d : Nat) : Bool := decide ((s.dom d).st = .ready ∧ (s.dom d).since ≤ s.dt) && ! deepOff s d

/-- Change the mode, with its time (R724). -/
def State.setMode (s : State) (m : Mode) : State :=
  { s with power := { s.power with mode := m, modeSince := s.dt } }

/-- Change the life-cycle state: it only advances (R47). -/
def State.setLcs (s : State) (l : Lcs) : State :=
  if s.power.lcs.code < l.code then { s with power := { s.power with lcs := l } } else s

/-- Record a refused (kind 0) or aborted (kind 1) entry (R719), counted under its refuser. -/
def recordRefusal (target refuser kind point : Nat) (s : State) : State :=
  let e : RefRec := ⟨s.dt, target, refuser, kind, point⟩
  let s := { s with power := { s.power with refRing := (e :: s.power.refRing).take 16 } }
  (s.bump 0xB880 (if kind = 0 then 6 else 7)).bump 0xB881 refuser

/-- A wake during the DEEP entry before its point of no return (R710, R719, R721, R734): the entry ends at the next abort point, the
domains that its steps have switched off power up again, and the device stays in DOZE. -/
def deepAbort (s : State) : State :=
  match s.power.deepFrom with
  | none => s
  | some t =>
    let e := s.dt - t
    if e < aclk 80 then
      let p := if e < aclk 32 then 2 else if e < aclk 48 then 3 else 4
      let at_ := t + aclk (if p = 2 then 32 else if p = 3 then 48 else 80)
      let s := recordRefusal 0x41 0x0A 1 p s
      let ds := [30, 31, 32] ++ (if 3 ≤ p then [29, 6, 4] else []) ++ (if p = 4 then [7, 8, 5] else [])
      let s := ds.foldl (fun s d =>
        if (s.dom d).st = .ready then s.setDom d { s.dom d with st := .up, since := at_, onAt := at_, wokenAt := s.dt } else s) s
      let s := if p = 4 then
          { s with unit := { s.unit with
              shared := Tab.put [] (Tab.put [] s.unit.shared 0 []) 1 []
              disps := s.unit.disps.map (fun e => (e.1, { cur := e.2.cur, prev := e.2.prev })) } }
        else s
      { s with power := { s.power with deepFrom := none, dozeSince := s.dt } }
    else s

end Sys2Proof.Machine
end

