-- ==== Sys2Proof/Machine/DictOps.lean ====
section
/-!
DEFINITION. The dictionary protocol (R68-R119): message form, rights, the precedence of reply codes, sessions' sequence
numbers and tags, long-operation slots. Each row of a chapter that is a dictionary request passes through `serve`.
-/
namespace Sys2Proof.Machine

/-- Reply codes (the table under R103). -/
abbrev rOK : Nat := 0x00
abbrev rBUSY : Nat := 0x01
abbrev rNO_SESSION : Nat := 0x02
abbrev rAUTH_FAIL : Nat := 0x03
abbrev rDENIED : Nat := 0x04
abbrev rNO_ENTRY : Nat := 0x05
abbrev rREAD_ONLY : Nat := 0x06
abbrev rTYPE : Nat := 0x07
abbrev rRANGE : Nat := 0x08
abbrev rLIFE_CYCLE : Nat := 0x09
abbrev rMODE : Nat := 0x0A
abbrev rNO_RESOURCE : Nat := 0x0B
abbrev rSTALE_HANDLE : Nat := 0x0C
abbrev rSEQUENCE : Nat := 0x0D
abbrev rTOO_LONG : Nat := 0x0E
abbrev rIN_PROGRESS : Nat := 0x0F
abbrev rRESTARTING : Nat := 0x10
abbrev rMALFORMED : Nat := 0x11
abbrev rTAG : Nat := 0x12

/-- The opcodes of the dictionary (the table under R69). -/
abbrev opREAD : Nat := 0x01
abbrev opWRITE : Nat := 0x02
abbrev opDEFAULT : Nat := 0x03
abbrev opCOMMIT : Nat := 0x04
abbrev opOPEN : Nat := 0x10
abbrev opAUTH : Nat := 0x11
abbrev opCLOSE : Nat := 0x12
abbrev opKEEPALIVE : Nat := 0x13

/-- The first 22 bytes of a message and its DATA (R68): what a tag covers. -/
def msgBytes (op flags status session seq idx sub rsv offset length : Nat) (data : Bytes) : Bytes :=
  [0x01, byte op, byte flags, byte status] ++ beBytes session 4 ++ beBytes seq 4 ++ beBytes idx 2 ++ [byte sub, byte rsv] ++
  beBytes offset 4 ++ beBytes length 2 ++ data

/-- The opcodes that R69's table lists. -/
def opListed (o : Nat) : Bool := [opREAD, opWRITE, opDEFAULT, opCOMMIT, opOPEN, opAUTH, opCLOSE, opKEEPALIVE].contains o

/-- The OP byte of a request: that of its row, or one that is not listed (R68). -/
def reqOp (r : Req) (op : Nat) : Nat :=
  match r.badOp with
  | some b => if opListed b.toNat then op else b.toNat
  | none => op

/-- A request's bytes before its tag (R86). -/
def reqBytes (r : Req) (op : Nat) : Bytes :=
  msgBytes (reqOp r op) r.flags.toNat r.status.toNat r.session.toNat r.seq.toNat r.index.toNat r.sub.toNat r.rsv.toNat
    r.offset.toNat r.length.toNat r.data

/-- A request's whole message. -/
def reqWhole (r : Req) (op : Nat) : Bytes := reqBytes r op ++ r.tag

/-- A reply's bytes before its tag. -/
def Reply.bytes (p : Reply) : Bytes :=
  msgBytes p.op (if p.tag.isEmpty then 1 else 3) p.status p.session p.seq p.index p.sub 0 p.offset p.data.length p.data

/-- A reply's whole message. -/
def Reply.whole (p : Reply) : Bytes := p.bytes ++ p.tag

/-- MGE source addresses that are IPv4-mapped. -/
def isV4 (src : Nat) : Bool := decide (src / 2 ^ 48 = 0xFFFF)

/-- The largest request of a transport (R75). -/
def maxReq (tr : Transport) (src : Nat) : Nat :=
  match tr with
  | .mge => if isV4 src then 1472 else 1452
  | .mailbox => 8192
  | .ms0 => 256
  | .ms1 => 256

/-- The largest response of a transport (R75). -/
def maxRsp : Transport → Nat
  | .mge => 4134
  | .mailbox => 8192
  | .ms0 => 256
  | .ms1 => 256

/-- The power domain a transport lies in (R114). -/
def trDomain : Transport → Nat
  | .mge => 32
  | .mailbox => 30
  | .ms0 => 1
  | .ms1 => 1

/-- A management serial port. -/
def isMs : Transport → Bool
  | .ms0 => true
  | .ms1 => true
  | _ => false

/-- VENDOR has OWNER rights in BLANK and FA (R91). -/
def vendorOwns (s : State) : Bool := decide (s.power.lcs = .blank ∨ s.power.lcs = .fa)

/-- A role (0 is sessionless) holds one of the rights `m`, a sum over the letters of R92: S 1, O 2, P 4, W 8, C 16, V 32. -/
def hasRight (s : State) (role m : Nat) : Bool :=
  bit m 0 || (decide (role ≠ 0) && bit m 1) ||
  (decide (role = 2) && bit m 2) ||
  ((decide (role = 4) || (decide (role = 5) && vendorOwns s)) && (bit m 2 || bit m 3)) ||
  (decide (role = 3) && bit m 4) || (decide (role = 5) && bit m 5)

/-- A role may write an entry of the rights `m` (R92): VENDOR in OWNED writes only entries marked V. -/
def mayWrite (s : State) (role m : Nat) : Bool :=
  if role = 5 ∧ s.power.lcs = .owned then bit m 5 else hasRight s role m

/-- A role may be opened in the present life-cycle state (R91). -/
def roleAllowed (s : State) (role : Nat) : Bool :=
  match s.power.lcs, role with
  | .retired, _ => false
  | _, 1 => true
  | .owned, 2 => true
  | .vendor, 3 => true
  | .owned, 3 => true
  | .owned, 4 => true
  | _, 5 => true
  | _, _ => false

/-- The identity entries served in ALARM and INERT (R107). -/
def isIdentity (idx : Nat) : Bool := [0x1000, 0x1001, 0x1002, 0x1010, 0x1011, 0x10F0].contains idx

/-- The tamper-status and evidence-log entries marked A (R107). -/
def isMarkedA (idx sub : Nat) : Bool :=
  (decide (idx = 0x7000) && [1, 2, 3, 4].contains sub) || (decide (idx = 0x7050) && decide (1 ≤ sub ∧ sub ≤ 0x10)) ||
  (decide (idx = 0x7100) && [1, 2, 3, 4, 5].contains sub) || (decide (idx = 0x7101) && decide (sub = 1))

/-- ALARM or INERT, and from the start of an erase on: the Anise core answers (R105, R107, R653). -/
def aniseMode (s : State) : Bool := decide (s.power.mode = .alarm ∨ s.power.mode = .inert) || s.tamper.erasing

/-- The dictionary server is in core reset, or BOOT has not ended (R105, R763). -/
def restarting (s : State) : Bool :=
  bit s.rst.coreBusy 0 ||
  decide (s.rst.phase = .options ∨ s.rst.phase = .release ∨ s.rst.phase = .keydie ∨ s.rst.phase = .boot ∨ s.rst.phase = .halt)

/-- What the boot ROM serves in recovery, without a session (R632). -/
def recoveryServes (s : State) (r : Req) (op : Nat) : Bool :=
  let i := r.index.toNat
  s.rst.recovery && decide (r.session = 0) &&
  ((decide (op = opREAD) && (decide (0x1000 ≤ i ∧ i ≤ 0x10FF) || decide (0x6800 ≤ i ∧ i ≤ 0x6810))) ||
   (decide (op = opWRITE ∧ i = 0x6830) && decide (r.sub = 1 ∨ r.sub = 2) && ! isMs r.tr))

/-- What the answer to a request does to the session: the sequence number is used up and the response stored (R87). -/
def noteAnswer (r : Req) (p : Reply) (s : State) : State :=
  match s.dict.sess with
  | none => s
  | some se =>
    if se.id = r.session.toNat then
      { s with dict := { s.dict with sess := some { se with lastSeq := r.seq.toNat, stored := some p, idleFrom := s.dt } } }
    else s

/-- Form a reply that names session `id`: tagged under K_rsp where the request belongs to the open session (R86). -/
def mkReplyAs (id : Nat) (s : State) (r : Req) (op st : Nat) (data : Bytes) (tagged : Bool) : Reply :=
  let p : Reply := ⟨r.tr, r.src.toNat, r.dst.toNat, reqOp r op, st, id, r.seq.toNat, r.index.toNat, r.sub.toNat,
    r.offset.toNat, data, []⟩
  match tagged, s.dict.sess with
  | true, some se =>
    let q := { p with tag := [0] }
    { p with tag := aesCmac se.krsp (Reply.bytes q) }
  | _, _ => p

/-- Form a reply, which repeats the request's SESSION. -/
abbrev mkReply (s : State) (r : Req) (op st : Nat) (data : Bytes) (tagged : Bool) : Reply :=
  mkReplyAs r.session.toNat s r op st data tagged

/-- An address and port of MGE (R81): the address, IPv4 ones mapped, is above the port. -/
def mgeAddr (a : Nat) : Bytes := if isV4 a then beBytes (a / 2 ^ 16) 4 else beBytes (a / 2 ^ 16) 16

/-- The UDP datagram that carries a message from `own` to `src` (RFC 768): the checksum covers the pseudo header. -/
def udpDatagram (own src : Nat) (m : Bytes) : Bytes :=
  let n := 8 + m.length
  let h := beBytes own 2 ++ beBytes src 2 ++ beBytes n 2
  let ps := mgeAddr own ++ mgeAddr src ++ (if isV4 src then [0, 17] ++ beBytes n 2 else beBytes n 4 ++ [0, 0, 0, 17])
  let c := 0xFFFF - inetSum (ps ++ h ++ [0, 0] ++ m)
  h ++ beBytes (if c = 0 then 0xFFFF else c) 2 ++ m

/-- The IP payloads in which a datagram leaves at a 1,500-byte MTU (R74): whole, or in pieces of a multiple of 8 bytes after a 20-byte
IPv4 header, or after a 40-byte IPv6 and an 8-byte fragment header. -/
def mtuPieces (v4 : Bool) (d : Bytes) : List Bytes :=
  if d.length ≤ (if v4 then 1480 else 1460) then [d] else chunks (if v4 then 1480 else 1448) d

/-- The framing of a message on MS0 and MS1: its length, the message, and the CRC-16 over both (R76). -/
def msFrame (m : Bytes) : Bytes :=
  let b := beBytes m.length 2 ++ m
  b ++ beBytes (crc16 b) 2

/-- A reply as its carrier takes it: IP payloads on MGE, a frame on MS, the message on the mailbox. -/
def Reply.wire (p : Reply) : List Bytes :=
  match p.tr with
  | .mge => mtuPieces (isV4 p.src) (udpDatagram p.own p.src p.whole)
  | .mailbox => [p.whole]
  | .ms0 => [msFrame p.whole]
  | .ms1 => [msFrame p.whole]

/-- HPQ_MBX_CTRL and HPQ_MBX_STAT. -/
abbrev mbxCtrlOff : Nat := 0x0F03F000
abbrev mbxStatOff : Nat := 0x0F03F004

/-- A response is ready in a management serial port's buffer; the controller's next read transaction takes it (R76). -/
def setMsRsp (k : Nat) (b : Bytes) (s : State) : State :=
  { s with dict := { s.dict with msRsp := Tab.put [] s.dict.msRsp k b } }

/-- What a read transaction of MS0 or MS1 returns: the framed response, or the length 0x0000 before it is ready (R76). -/
def msFetch (s : State) (k : Nat) : Bytes :=
  let b := Tab.look [] s.dict.msRsp k
  if b.isEmpty then [0, 0] else b

/-- A reply leaves. On the mailbox it goes to the response buffer, RSP_READY and RSP_LEN follow, and MSI-X vector 0 fires
where IRQ_EN is set (R78); on MS it waits framed in the port's response buffer (R76). -/
def sendReply (p : Reply) (s : State) : State :=
  let s := s.emit (.reply p p.wire)
  match p.tr with
  | .mge => s
  | .ms0 => setMsRsp 0 (msFrame p.whole) s
  | .ms1 => setMsRsp 1 (msFrame p.whole) s
  | .mailbox =>
    let s := { s with dict := { s.dict with mbxRsp := p.whole } }
    let s := s.setReg 3 mbxStatOff (2 ^ 31 + bits (s.reg 3 mbxStatOff) 30 30 * 2 ^ 30 + p.whole.length)
    let s := s.noteSet (regKey 3 mbxStatOff) (2 ^ 31)
    if bit (s.reg 3 mbxCtrlOff) 30 && decide (s.port.link ≠ 0) then s.emit (.msix 0) else s

/-- Send an untagged reply. -/
def replyPlain (r : Req) (op st : Nat) (data : Bytes) (s : State) : State :=
  sendReply (mkReply s r op st data false) s

/-- Send the reply of a request that passed the session checks: tagged inside a session, and stored (R86, R87). The tag is
made under the session as it was when the request was taken (`s0`). -/
def replyIn (s0 : State) (r : Req) (op st : Nat) (data : Bytes) (s : State) : State :=
  let p := mkReply s0 r op st data (decide (r.session ≠ 0))
  noteAnswer r p (sendReply p s)

/-- SESSION_OPEN's DATA (R82): 133 bytes, byte 1 reserved. That an ill-formed one receives MALFORMED is a DESIGN CHOICE (log entry
70). -/
def openForm (r : Req) : Bool := decide (r.data.length = 133) && decide (byteAt r.data 1 = 0)

/-- Message form (R68, R69, R82). -/
def malformed (r : Req) (op : Nat) : Bool :=
  decide (r.ver ≠ 1) || decide (reqOp r op ≠ op) || decide (r.flags.toNat / 8 ≠ 0) || decide (r.rsv ≠ 0) ||
  decide (r.data.length ≠ (if op = opREAD then 0 else r.length.toNat)) ||
  decide (r.tag.length ≠ (if bit r.flags.toNat 1 then 16 else 0)) || (decide (op = opOPEN) && ! openForm r)

/-- The carrier fails a request (R74, R76): a datagram that came in fragments; a frame whose CRC-16 is not that of its length and message,
or whose length is not the message's (the CRC then lies elsewhere). -/
def spoiled (r : Req) (op : Nat) : Bool :=
  match r.tr with
  | .mge => r.bad
  | .mailbox => false
  | .ms0 => decide (msFrame (reqWhole r op) ≠ beBytes r.flen.toNat 2 ++ reqWhole r op ++ beBytes r.crc.toNat 2)
  | .ms1 => decide (msFrame (reqWhole r op) ≠ beBytes r.flen.toNat 2 ++ reqWhole r op ++ beBytes r.crc.toNat 2)

/-- A carrier failure: counted, and the request is dropped without reply (R74, R76). -/
def dropRequest (r : Req) (s : State) : State :=
  match r.tr with
  | .mge => s.bump 0x2040 0x0A
  | .mailbox => s
  | .ms0 => s.bump 0x2041 4
  | .ms1 => s.bump 0x2042 4

/-- What the session checks say of a request (R81, R86, R87): go on with a role, resend, or answer a code. -/
inductive Verdict where
  | go (role : Nat)
  | resend (p : Reply)
  | code (c : Nat)
  deriving DecidableEq, Repr

/-- Session, tag and sequence (R81, R86, R87). -/
def sessionCheck (s : State) (r : Req) (op : Nat) : Verdict :=
  if r.session = 0 then .go 0
  else
    match s.dict.sess with
    | none => .code rNO_SESSION
    | some se =>
      if se.id ≠ r.session.toNat ∨ se.tr ≠ r.tr ∨ se.src ≠ r.src.toNat then .code rNO_SESSION
      else if r.tag ≠ aesCmac se.kreq (reqBytes r op) then .code rTAG
      else if r.seq.toNat = se.lastSeq then
        match se.stored with
        | some p => .resend p
        | none => .code rSEQUENCE
      else if r.seq.toNat = (se.lastSeq + 1) % 2 ^ 32 then .go se.role
      else .code rSEQUENCE

/-- The MGE counters of refused messages: tag failures and sequence failures (R111). -/
def countRefusal (r : Req) (c : Nat) (s : State) : State :=
  if r.tr = .mge then
    if c = rTAG then s.bump 0x2040 8 else if c = rSEQUENCE then s.bump 0x2040 9 else s
  else s

/-- What serving a request answers: a code, DATA, and the state it leaves. -/
structure Ans where
  code : Nat
  data : Bytes
  st : State

/-- Answer OK with no data. -/
def ansOK (s : State) : Ans := ⟨rOK, [], s⟩
/-- Answer a code; the state is as before. -/
def ansErr (s : State) (c : Nat) : Ans := ⟨c, [], s⟩

/-- A read of the identity subset, which the Anise core answers on MS without waking any other domain (R77). -/
def aniseRead (r : Req) (op : Nat) : Bool :=
  isMs r.tr && decide (op = opREAD ∧ r.session = 0) && isIdentity r.index.toNat

/-- In DEEP a management serial request that no wake brought to the supervisor receives MODE (R716). -/
def deepMs (s : State) (r : Req) (op : Nat) : Bool := decide (s.power.mode = .deep) && isMs r.tr && ! aniseRead r op

/-- The answer to a request that MODE meets: the codes that R104 puts before MODE stay. -/
def modeFirst (b : Bool) (s : State) (a : Ans) : Ans :=
  if b ∧ ¬ (a.code = rNO_ENTRY ∨ a.code = rLIFE_CYCLE ∨ a.code = rDENIED) then ansErr s rMODE else a

/-- The link-local address derived from the MAC address (R111, RFC 4291). -/
def linkLocal (mac : Bytes) : Bytes :=
  let m (i : Nat) : Byte := byteAt mac i
  [0xFE, 0x80] ++ zeros 6 ++ [m 0 ^^^ 2, m 1, m 2, 0xFF, 0xFE, m 3, m 4, m 5]

/-- The MGE answers at an IPv4 address, and at an IPv6 address. -/
def mgeV4 (s : State) (a : Nat) : Bool := decide (s.cfg 0x2040 3 ≠ 0) && decide (s.cfg 0x2040 3 = a)
def mgeV6 (s : State) (a : Bytes) : Bool := decide (a = linkLocal (s.entV 0x2040 2)) || decide (a = s.entV 0x2040 5)

/-- An MGE datagram is the dictionary's: sent to an address of the device and to its dictionary port (R74, R111). -/
def mgeHears (s : State) (r : Req) : Bool :=
  let d := r.dst.toNat
  decide (s.cfg 0x2040 1 ≠ 0) && decide (d % 2 ^ 16 = s.cfg 0x2040 6) && decide (isV4 d = isV4 r.src.toNat) &&
  (if isV4 d then mgeV4 s (d / 2 ^ 16 % 2 ^ 32) else mgeV6 s (beBytes (d / 2 ^ 16) 16))

/-- The mailbox holds a request: GO is 1, and the message is what the request buffer holds in its REQ_LEN bytes (R78). -/
def mbxHolds (s : State) (r : Req) (op : Nat) : Bool :=
  bit (s.reg 3 mbxCtrlOff) 31 && decide (reqWhole r op = fit s.dict.mbxReq (s.reg 3 mbxCtrlOff % 2 ^ 14))

/-- The order of the transports within one DT nanosecond (R80). -/
def reqRank : Transport → Nat
  | .mailbox => 0 | .mge => 1 | .ms0 => 2 | .ms1 => 3

/-- A request reaches the server (R78, R80, R111): where a request of a later transport was taken at this DT it arrives a nanosecond
later; MGE counts it; the mailbox's GO is cleared, unless it was written again in this cycle (R18); MS has no response ready. -/
def takeReq (r : Req) (s : State) : State :=
  let s := if s.dict.lastReq.1 = s.dt ∧ reqRank r.tr < s.dict.lastReq.2 then s.at (s.dt + 1) else s
  let s := { s with dict := { s.dict with lastReq := (s.dt, reqRank r.tr) } }
  match r.tr with
  | .mge => s.bump 0x2040 7
  | .mailbox => if bit (s.freshBits (regKey 3 mbxCtrlOff)) 31 then s else s.setReg 3 mbxCtrlOff (s.reg 3 mbxCtrlOff % 2 ^ 31)
  | .ms0 => setMsRsp 0 [] s
  | .ms1 => setMsRsp 1 [] s

/-- What the carrier, the message form and the state of the server make of a request before its session is looked at: it is over,
it is one the Anise core serves, or it goes on to the session. -/
inductive Gate where
  | ovr (s : State)
  | anise (s : State)
  | session (s : State)

/-- A request is not received (R74, R76, R78, R114): its transport's domain is off, its port is disabled, it is addressed to another
station or port, or the mailbox does not hold it. -/
def unheard (r : Req) (op : Nat) (s : State) : Bool :=
  ! s.domReady (trDomain r.tr) ||
  (match r.tr with
   | .mge => ! mgeHears s r
   | .mailbox => ! mbxHolds s r op || decide (s.power.mode = .inert)     -- R48
   | .ms0 => decide (s.cfg 0x2041 1 = 0 ∨ s.cfg 0x2041 2 ≠ r.addr.toNat)
   | .ms1 => decide (s.cfg 0x2042 1 = 0 ∨ s.cfg 0x2042 2 ≠ r.addr.toNat))

/-- R104, points 1 to 3, with R48, R105, R107 and R114. `free` marks a read that the Anise core serves in ALARM and INERT. -/
def gate (r : Req) (op : Nat) (free : State → Bool) (s : State) : Gate :=
  if unheard r op s then .ovr s
  else if spoiled r op then .ovr (dropRequest r s)
  else
    let s := takeReq r s
    let s := if aniseRead r op then s else deepAbort s
    if malformed r op then .ovr (replyPlain r op rMALFORMED [] s)
    else if 22 + r.data.length + r.tag.length > maxReq r.tr r.src.toNat then .ovr (replyPlain r op rTOO_LONG [] s)
    else if aniseMode s then
      if s.power.mode = .inert ∧ r.tr = .mailbox then .ovr s       -- R48: only MS0, MS1 and MGE respond
      else if op = opREAD ∧ r.session = 0 ∧ free s then .anise s
      else .ovr (replyPlain r op rMODE [] s)
    else if restarting s ∧ ¬ aniseRead r op ∧ ¬ recoveryServes s r op then
      .ovr (replyPlain r op rRESTARTING [] s)
    else .session s

/-- The reply to a request that the session checks refuse (R86, R87): only a request out of sequence carried a correct tag, and receives
a tagged reply. -/
def refuse (r : Req) (op c : Nat) (s : State) : State :=
  sendReply (mkReply s r op c [] (decide (c = rSEQUENCE))) (countRefusal r c s)

/-- Serve a request up to its session's checks, then hand it to `f` with the role (R104, points 1 to 6). A request that receives
any code other than OK changes no state. A stored response that is sent again leaves the idle timer as it is (DESIGN CHOICE, log
entry 71). -/
def serve (r : Req) (op : Nat) (free : State → Bool) (f : State → Nat → Ans) (s : State) : State :=
  match gate r op free s with
  | .ovr s => s
  | .anise s =>
    let a := f s 0
    replyPlain r op a.code a.data a.st
  | .session s =>
    match sessionCheck s r op with
    | .code c => refuse r op c s
    | .resend p => sendReply p s
    | .go role =>
      let a := modeFirst (deepMs s r op) s (f s role)
      replyIn s r op a.code a.data (if a.code = rOK then a.st else s)

/-- The entry named exists (R93): subindex 00 of a defined index, or a listed entry. -/
def entryExists (idx sub : Nat) : Bool :=
  if sub = 0 then (maxSub idx).isSome else (findEnt idx sub).isSome

/-- The rights that write an entry. -/
def wrRight (idx sub : Nat) : Nat := match findEnt idx sub with | some e => e.wr | none => 0

/-- The rights that read an entry. -/
def rdRight (idx sub : Nat) : Nat := if sub = 0 then 1 else match findEnt idx sub with | some e => e.rd | none => 0

/-- Length and numeric range of a written value (R72, R93, R94). -/
def plainRange (e : Ent) (v : Bytes) : Bool :=
  e.ty.isBytes || (decide (e.mn ≤ beNat v) && decide (beNat v ≤ e.mx))

/-- The subindex under which an entry's value is kept: that of A030:01 lies beside credential 32, which has the same name (log entry
63). -/
def keptSub (idx sub : Nat) : Nat := if idx = 0xA030 ∧ sub = 1 then 0xFF else sub

/-- The value a WRITE leaves, or a code (R72): numbers whole at OFFSET 0, byte strings replaced or appended. -/
def writtenValue (s : State) (idx sub : Nat) (e : Ent) (r : Req) : Nat × Bytes :=
  match e.ty with
  | .bytes n =>
    if r.offset = 0 then (if r.data.length ≤ n then (rOK, r.data) else (rTYPE, []))
    else
      let cur := s.entW idx (keptSub idx sub)
      if r.offset.toNat = cur.length ∧ cur.length + r.data.length ≤ n then (rOK, cur ++ r.data) else (rRANGE, [])
  | t => if r.data.length ≠ t.len then (rTYPE, []) else if r.offset ≠ 0 then (rRANGE, []) else (rOK, r.data)

/-- The points 7 to 13 of R104 for a write or a DEFAULT of one entry: existence, life cycle, rights, mode, access, type and
range, then `f` with the role and the value. `lc` and `md` are the entry's own life-cycle and mode conditions, `rg` its own range,
`value` the value the request gives the entry, or a code. -/
def judgeWrite (r : Req) (op idx sub : Nat) (lc md : State → Nat → Bool) (rg : State → Bytes → Bool) (value : State → Ent → Nat × Bytes)
    (f : State → Nat → Bytes → Ans) (s : State) (role : Nat) : Ans :=
  match findEnt idx sub with
  | none => ansErr s (if sub = 0 ∧ (maxSub idx).isSome then (if isMs r.tr then rDENIED else rREAD_ONLY) else rNO_ENTRY)
  | some e =>
    if ¬ lc s role then ansErr s rLIFE_CYCLE
    else if isMs r.tr ∨ (e.wr ≠ 0 ∧ ¬ mayWrite s role e.wr ∧ ¬ recoveryServes s r op) then ansErr s rDENIED
    else if ¬ md s role then ansErr s rMODE
    else if e.wr = 0 then ansErr s rREAD_ONLY
    else
      let w := value s e
      if w.1 ≠ rOK then ansErr s w.1
      else if ¬ plainRange e w.2 ∨ ¬ rg s w.2 then ansErr s rRANGE
      else f s role w.2

/-- Serve a WRITE of one entry. -/
def serveWrite (r : Req) (idx sub : Nat) (lc md : State → Nat → Bool) (rg : State → Bytes → Bool)
    (f : State → Nat → Bytes → Ans) (s : State) : State :=
  let r := { r with index := BitVec.ofNat 16 idx, sub := BitVec.ofNat 8 sub }
  serve r opWRITE (fun _ => false) (judgeWrite r opWRITE idx sub lc md rg (fun s e => writtenValue s idx sub e r) f) s

/-- A request with its value fixed by the row. -/
def reqWith (r : Req) (data : Bytes) : Req := { r with data := data, length := BitVec.ofNat 16 data.length, offset := 0 }

/-- No condition of its own. -/
def always (_ : State) (_ : Nat) : Bool := true
/-- No range of its own. -/
def anyValue (_ : State) (_ : Bytes) : Bool := true
/-- The mode is CEREMONY. -/
def inCeremony (s : State) (_ : Nat) : Bool := decide (s.power.mode = .ceremony)

/-- A slot. -/
def State.slot (s : State) (k : Nat) : Slot := Tab.look {} s.dict.slots k

/-- Set a slot. -/
def State.setSlot (s : State) (k : Nat) (v : Slot) : State :=
  { s with dict := { s.dict with slots := Tab.put {} s.dict.slots k v } }

/-- A slot state is terminal (R98). -/
def SlotState.terminal : SlotState → Bool
  | .done => true
  | .failed => true
  | .aborted => true
  | _ => false

/-- Codes of the slot states (R98). -/
def SlotState.code : SlotState → Nat
  | .idle => 0 | .queued => 1 | .running => 2 | .partly => 3 | .done => 4 | .failed => 5 | .aborted => 6

/-- The status word of a slot (R98). -/
def Slot.word (k : Slot) : Nat := k.code * 2 ^ 16 + k.progress % 4096 * 16 + k.state.code

/-- The handle of a slot (R98). -/
def handleOf (k seq : Nat) : Nat := 0xF0 * 2 ^ 24 + seq % 2 ^ 16 * 256 + k

/-- The lowest IDLE slot. -/
def freeSlot (s : State) : Option Nat := (List.range 256).find? (fun k => decide ((s.slot k).state = .idle))

/-- A previous operation of the command entry is not yet terminal (R101). -/
def opBusy (s : State) (idx sub : Nat) : Bool :=
  s.dict.slots.any (fun e => decide (e.2.byIdx = idx ∧ e.2.bySub = sub ∧ e.2.state ≠ .idle) && ! e.2.state.terminal)

/-- Accept a long operation in the lowest IDLE slot, QUEUED (R98, R101): the slot and the state, or none. -/
def takeSlot (s : State) (idx sub role : Nat) (w : Work) : Option (Nat × State) :=
  match freeSlot s with
  | none => none
  | some k =>
    let sl : Slot := { state := .queued, seq := s.dict.nextSeq, used := true, byIdx := idx, bySub := sub, started := s.dt,
                       role := role, work := w }
    let s := s.setSlot k sl
    some (k, { s with dict := { s.dict with nextSeq := (s.dict.nextSeq + 1) % 2 ^ 16, order := s.dict.order ++ [k] } })

/-- Set a slot RUNNING. -/
def runSlot (k : Nat) (s : State) : State := s.setSlot k { s.slot k with state := .running }

/-- End a slot (R98, R99): DONE shows PROGRESS 4095. -/
def endSlot (k : Nat) (st : SlotState) (code : Nat) (res : Bytes) (s : State) : State :=
  let sl := s.slot k
  if sl.state.terminal ∨ sl.state = .idle then s
  else
    let s := s.setSlot k { sl with state := st, code := code, ended := s.dt, result := res, work := .none,
                                   progress := if st = .done then 4095 else sl.progress }
    { s with dict := { s.dict with order := s.dict.order.filter (fun j => decide (j ≠ k)) } }

/-- End a slot DONE with its result. -/
def doneSlot (k : Nat) (res : Bytes) (s : State) : State := endSlot k .done 0 res s

/-- End a slot FAILED with a code. -/
def failSlot (k code : Nat) (s : State) : State := endSlot k .failed code [] s

/-- Set every non-terminal slot to ABORTED with `code` and empty every Result (R103); a mode request that an erase or a reset
overtakes shows CODE 0x0003 (R726). -/
def abortSlots (code : Nat) (s : State) : State :=
  { s with dict := { s.dict with
      order := []
      slots := s.dict.slots.map (fun e =>
        if e.2.state = .idle ∨ e.2.state.terminal then (e.1, { e.2 with result := [] })
        else
          let code := if e.2.byIdx = 0x1100 ∧ e.2.bySub = 5 then 3 else code
          (e.1, { e.2 with state := .aborted, code := code, ended := s.dt, result := [], work := .none })) } }

/-- The first operation that waits in QUEUED (R101). -/
def firstQueued (s : State) : Option Nat := s.dict.order.find? (fun k => decide ((s.slot k).state = .queued))

/-- Start a long operation from a command entry that was written `v` (R73, R101): `run` is handed the slot and does the work at once.
Behind an operation that waits it waits too, with what was written, so that operations start in the order of their acceptance; a
waiting one that LONGOP_START takes is run in its slot. -/
def startOp (idx sub role : Nat) (w : Work) (v : Bytes) (run : Nat → State → State) (s : State) : Ans :=
  match s.dict.resume with
  | some k => ansOK (run k (runSlot k s))
  | none =>
    if opBusy s idx sub then ansErr s rIN_PROGRESS
    else
      match takeSlot s idx sub role w with
      | none => ansErr s rNO_RESOURCE
      | some (k, t) =>
        let u := if (firstQueued s).isSome then t.setSlot k { t.slot k with value := v } else run k (runSlot k t)
        ⟨rOK, beBytes (handleOf k (t.slot k).seq) 4, u⟩

/-- The entries of effect C take effect when the session ends (R95, R111). -/
def applyClose (s : State) : State :=
  [1, 2, 3, 4, 5, 6].foldl (fun s k => s.setForce 0x2040 k (s.entW 0x2040 k)) s

/-- The open session ends (R90). -/
def closeSession (s : State) : State :=
  if s.dict.sess.isNone then s else applyClose { s with dict := { s.dict with sess := none } }

/-- End the open and half-open sessions (R90). -/
def endSessions (s : State) : State :=
  let s := closeSession s
  { s with dict := { s.dict with half := none } }

end Sys2Proof.Machine
end

