-- ==== Sys2Proof/Machine/LogOps.lean ====
section
/-!
DEFINITION. Submitting events to the evidence log and counting in the VBAT island (R664-R669).
-/
namespace Sys2Proof.Machine

/-- Count in a VBAT counter: 16 bits, saturating (R669). -/
def vbatInc (k : Nat) (s : State) : State :=
  { s with log := { s.log with vbat := Tab.put 0 s.log.vbat k (satInc 16 (Tab.look 0 s.log.vbat k)) } }

/-- The RTC now, in ticks of 1/32,768 s: it counts with DT from where it was set (R12, R661). -/
def rtcTicks (s : State) : Nat := s.tamper.rtcs * 32768 + s.tamper.rtcf + (s.dt - s.tamper.rtcDt) * 32768 / 1000000000

/-- RTC seconds. -/
def rtcSec (s : State) : Nat := rtcTicks s / 32768 % 2 ^ 32
/-- RTC fraction. -/
def rtcFrac (s : State) : Nat := rtcTicks s % 32768

/-- Set the RTC to a count of ticks. -/
def setRtc (t : Nat) (s : State) : State :=
  { s with tamper := { s.tamper with rtcs := t / 32768 % 2 ^ 32, rtcf := t % 32768, rtcDt := s.dt } }

/-- Submit an event to the 64-entry queue in PD01; a full queue counts it in VBAT counter 13 (R664). -/
def logEvent (ty src act data : Nat) (s : State) : State :=
  if s.log.queue.length ≥ 64 ∨ s.log.full then vbatInc 13 s
  else
    { s with log := { s.log with queue := s.log.queue ++ [⟨ty, src, act, rtcSec s, rtcFrac s, s.dt, data⟩] } }

/-- Submit an event that happened at `t` (R747). -/
def logEventAt (t ty src act data : Nat) (s : State) : State :=
  { logEvent ty src act data { s with dt := t } with dt := s.dt }

/-- SERIAL (1000:05) as 8 bytes from the fuses (R786). -/
def serial (s : State) : Bytes := beBytes (s.secured 64 * 2 ^ 32 + s.secured 65) 8

/-- The chain value before SEQ 0 (R666). -/
def logGenesis (s : State) : Bytes := sha256 (ascii "SV6400 LOG" ++ serial s)

/-- The chain head HEAD (R666). -/
def logHead (s : State) : Bytes := s.log.head.getD (logGenesis s)

end Sys2Proof.Machine
end

