-- ==== Sys2Proof/Machine/UnitAcc.lean ====
section
/-!
DEFINITION. Accessors of lanes, quads, jobs, sources and tables, the one place through which they are read and written.
-/
namespace Sys2Proof.Machine

/-- Transaction response status codes (R154). -/
abbrev tOK : Nat := 0x00
abbrev tNOT_ADMITTED : Nat := 0x01
abbrev tABORTED : Nat := 0x02
abbrev tOVERRUN : Nat := 0x03
abbrev tKEY_UNAVAILABLE : Nat := 0x04
abbrev tKEY_INTEGRITY : Nat := 0x05
abbrev tPOLICY : Nat := 0x06
abbrev tVERIFY_FAIL : Nat := 0x07
abbrev tFORMAT : Nat := 0x08
abbrev tSERVICE_IN_TEST : Nat := 0x09
abbrev tPK_INPUT : Nat := 0x0A
abbrev tMODE : Nat := 0x0B
abbrev tERASED : Nat := 0x0C
abbrev tDOMAIN_UNAVAILABLE : Nat := 0x0D
abbrev tEPOCH : Nat := 0x0E

/-- A lane: 0-63 presented, 64-67 the spares' own sets. -/
def State.lane (s : State) (n : Nat) : Lane := Tab.look {} s.unit.lanes n
/-- Set a lane. -/
def State.setLane (s : State) (n : Nat) (v : Lane) : State :=
  { s with unit := { s.unit with lanes := Tab.put {} s.unit.lanes n v } }
/-- A spare S0-S3; S0 and S1 are CD0's lower and upper tile, S2 and S3 CD1's. -/
def State.spare (s : State) (k : Nat) : Spare := Tab.look {} s.unit.spares k
/-- Set a spare. -/
def State.setSpare (s : State) (k : Nat) (v : Spare) : State :=
  { s with unit := { s.unit with spares := Tab.put {} s.unit.spares k v } }
/-- A quad Q00-Q15. -/
def State.quad (s : State) (q : Nat) : Quad := Tab.look {} s.unit.quads q
/-- Set a quad. -/
def State.setQuad (s : State) (q : Nat) (v : Quad) : State :=
  { s with unit := { s.unit with quads := Tab.put {} s.unit.quads q v } }
/-- A dispatcher. -/
def State.disp (s : State) (d : Nat) : Dispatch := Tab.look {} s.unit.disps d
/-- Set a dispatcher. -/
def State.setDisp (s : State) (d : Nat) (v : Dispatch) : State :=
  { s with unit := { s.unit with disps := Tab.put {} s.unit.disps d v } }
/-- No job. -/
def noJob : Job := { desc := {}, body := [], lane := 0, slot := 0, stage := 6 }
/-- An admitted job. -/
def State.job (s : State) (j : Nat) : Job := Tab.look noJob s.unit.jobs j
/-- Set a job. -/
def State.setJob (s : State) (j : Nat) (v : Job) : State :=
  { s with unit := { s.unit with jobs := Tab.put noJob s.unit.jobs j v } }
/-- A source: ports 0-31, host queue pairs 32-35. -/
def State.src (s : State) (p : Nat) : Source := Tab.look {} s.port.srcs p
/-- Set a source. -/
def State.setSrc (s : State) (p : Nat) (v : Source) : State :=
  { s with port := { s.port with srcs := Tab.put {} s.port.srcs p v } }
/-- A host queue. -/
def State.hq (s : State) (q : Nat) : HostQ := Tab.look {} s.port.hqs q
/-- Set a host queue. -/
def State.setHq (s : State) (q : Nat) (v : HostQ) : State :=
  { s with port := { s.port with hqs := Tab.put {} s.port.hqs q v } }
/-- An access table. -/
def State.actTab (s : State) (d : Nat) : ActTable := Tab.look {} s.act.tabs d
/-- Set an access table. -/
def State.setActTab (s : State) (d : Nat) (v : ActTable) : State :=
  { s with act := { s.act with tabs := Tab.put {} s.act.tabs d v } }
/-- A window. -/
def ActTable.win (t : ActTable) (n : Nat) : Window := Tab.look {} t.wins n
/-- Set a window. -/
def State.setWin (s : State) (d n : Nat) (v : Window) : State :=
  let t := s.actTab d
  s.setActTab d { t with wins := Tab.put {} t.wins n v }
/-- An audit unit. -/
def State.aud (s : State) (d : Nat) : AudUnit := Tab.look {} s.unit.auds d
/-- Set an audit unit. -/
def State.setAud (s : State) (d : Nat) (v : AudUnit) : State :=
  { s with unit := { s.unit with auds := Tab.put {} s.unit.auds d v } }

/-- The die of a lane. -/
abbrev laneDie (n : Nat) : Nat := n / 32
/-- The quad of a lane. -/
abbrev laneQuad (n : Nat) : Nat := n / 4
/-- The tile of a lane, also its spare's number: S0 and S1 on CD0. -/
abbrev laneTile (n : Nat) : Nat := n / 16

/-- The configuration of an epoch number, if held. -/
def epochCfg (s : State) (n : Nat) : Option EpochCfg :=
  match s.unit.epoch.cur with
  | some e =>
    if e.num = n then some e
    else match s.unit.epoch.prev with
      | some f => if f.num = n then some f else none
      | none => none
  | none => none

/-- The current configuration; before the first epoch, the entry values in force. -/
def curCfg (s : State) : EpochCfg :=
  match s.unit.epoch.cur with
  | some e => e
  | none => { num := 0, mode := s.power.mode.code, ents := s.dict.force }

/-- The value of an E entry in a configuration. -/
def EpochCfg.bytes (s : State) (e : EpochCfg) (idx sub : Nat) : Bytes :=
  (Tab.look none e.ents (entKey idx sub)).getD (s.dflt idx sub)

/-- The number of an E entry in a configuration. -/
def EpochCfg.val (s : State) (e : EpochCfg) (idx sub : Nat) : Nat := beNat (EpochCfg.bytes s e idx sub)

/-- The index of a source's admission entries (R226). -/
abbrev srcIdx (p : Nat) : Nat := 0x3010 + p

/-- The lane group of a source in a configuration (R37, R169, R170). -/
def laneGroup (s : State) (e : EpochCfg) (p : Nat) : Nat :=
  if p < 32 then EpochCfg.val s e (0x2000 + p) 0x1B else EpochCfg.val s e 0x2020 (5 + p - 32)

/-- The classifier slot of a source in a configuration. -/
def clsSlot (s : State) (e : EpochCfg) (p : Nat) : Nat :=
  if p < 32 then EpochCfg.val s e (0x2000 + p) 0x1C else EpochCfg.val s e 0x2020 (9 + p - 32)

/-- The classifier image a source runs in a configuration: none under slot 0 or a slot without an image (R169, R171). -/
def clsImage (s : State) (e : EpochCfg) (p : Nat) : Option Bytes :=
  let k := clsSlot s e p
  if k = 0 then none
  else match Tab.look [] e.cls k with
    | [] => none
    | img => some img

/-- The die that owns a source's lane group. -/
def srcDie (s : State) (e : EpochCfg) (p : Nat) : Nat := if laneGroup s e p < 2 ^ 32 then 0 else 1

/-- The mode serves a class: enabled, its image installed in the epoch, and the mode's serving choice (R199 step 2, R224);
a joiner serves no class until it is committed (R598). -/
def classServed (s : State) (e : EpochCfg) (c : Nat) : Bool :=
  let v (k : Nat) := EpochCfg.val s e (0x3100 + c) k
  let img := Tab.look [] e.progs (v 2)
  decide (v 1 = 1 ∧ v 2 ≠ 0) && ! img.isEmpty && ! s.grp.joining &&
  (decide (e.mode = 4) || (decide (e.mode = 3) && decide (v 3 = 1)) || (decide (e.mode = 9) && decide (v 4 = 1)))

end Sys2Proof.Machine
end

