-- ==== Sys2Proof/Machine/ActOps.lean ====
section
/-!
DEFINITION. Judging an access (R681-R683), the violation record (R693), windows (R684-R686), DMA in granules (R691).
-/
namespace Sys2Proof.Machine

/-- The module number of an initiator 0x62-0x71. -/
def moduleOf (ini : Nat) : Option Nat := if 0x62 ≤ ini ∧ ini ≤ 0x71 then some (ini - 0x61) else none

/-- The initiator is a module with capability bit `b` (R628). -/
def hasCap (s : State) (ini b : Nat) : Bool :=
  match moduleOf ini with
  | some m => bit (Tab.look 0 s.act.caps m) b
  | none => false

/-- PRIVILEGED initiators (R678). -/
def privileged (s : State) (ini : Nat) : Bool :=
  decide (ini = 0x60 ∨ ini = 0x61) || (decide (ini = 0x7F) && s.tap.unlocked)

/-- The supervisor's ROM and base levels, and the unlocked TAP with the rights of the base (R683). -/
def isBase (s : State) (ini : Nat) : Bool := decide (ini = 0x60 ∨ ini = 0x61) || (decide (ini = 0x7F) && s.tap.unlocked)

/-- The regions of R30. -/
def isRegion (r : Nat) : Bool := decide (r ≤ 3 ∨ (0x10 ≤ r ∧ r ≤ 0x1F))

/-- The die whose table judges a region (R681). -/
def judgeDie (r : Nat) : Nat := if r ≤ 3 then r else 3

/-- Refusal causes (ACT_VSTAT.CAUSE). -/
abbrev cNOMATCH : Nat := 1
abbrev cRIGHTS : Nat := 2
abbrev cOVERLAP : Nat := 3
abbrev cFIXED : Nat := 4
abbrev cSTATE : Nat := 5
abbrev cFETCH : Nat := 6
abbrev cUNMAPPED : Nat := 7

/-- OK where `c` holds, else FIXED. -/
def slotIf (c : Bool) : Option Nat := some (if c then 0 else cFIXED)

/-- A write to lane local memory: only into a bank in LOADING, also in the cycle of its ACK, or a spare not IN_USE (R683, R290,
R383, R699). -/
def lanePlaceOk (s : State) (die off : Nat) : Bool :=
  if off < 0x00800000 then
    let l := s.lane (32 * die + off / 0x40000)
    let o := off % 0x40000
    let a := decide (l.bankA = 1) || decide (l.ackA = some s.dt)
    let b := decide (l.bankB = 1) || decide (l.ackB = some s.dt)
    if o < 0x8000 then a else if o < 0x10000 then b
    else if o < 0x18000 then a else if o < 0x20000 then b
    else if 0x3E000 ≤ o ∧ o < 0x3E800 then a else if 0x3E800 ≤ o ∧ o < 0x3F000 then b
    else if 0x3F000 ≤ o ∧ o < 0x3F040 then a else if 0x3F040 ≤ o ∧ o < 0x3F080 then b
    else false
  else decide ((s.spare (2 * die + (off - 0x00800000) / 0x40000)).st ≠ 3)

/-- The verdict of the fixed slot an address lies in, if any (R683): 0 OK, FIXED or STATE. `kind` is 0 R, 1 W, 2 X. -/
def fixedSlot (s : State) (ini region off kind : Nat) : Option Nat :=
  let base := isBase s ini && decide (kind ≠ 2)
  let blk := off / 0x10000
  let o := off % 0x10000
  if region ≤ 1 then
    if off < 0x00880000 then
      if ¬ base then some cFIXED
      else if kind = 1 ∧ ¬ lanePlaceOk s region off then some cSTATE else some 0
    else if 0x01000000 ≤ off ∧ off < 0x01200000 then
      slotIf (decide (kind = 0 ∧ 0x40 + 12 * region ≤ ini ∧ ini ≤ 0x4B + 12 * region))
    else if 0x02000000 ≤ off ∧ off < 0x02600000 then
      slotIf (decide (kind = 0 ∧ 0x40 + 12 * region ≤ ini ∧ ini ≤ 0x4B + 12 * region))
    else if 0x02700000 ≤ off ∧ off < 0x02800000 then slotIf (decide (ini = 0x58 + region ∧ kind ≠ 2))
    else if blk = 0x0F03 then
      slotIf (base || (hasCap s ini 0 && decide (kind ≠ 2 ∧ 0x080 ≤ o % 0x400 ∧ o % 0x400 ≤ 0x103 ∧ o < 0xC000)))
    else if blk = 0x0F05 then slotIf (base || (hasCap s ini 2 && decide (kind ≠ 2 ∧ 0x2000 ≤ o ∧ o < 0x2028)))
    else if 0x0F00 ≤ blk ∧ blk ≤ 0x0F06 then slotIf base
    else none
  else if region = 2 then
    if 0x00100000 ≤ off ∧ off < 0x00110000 then
      slotIf ((decide (ini = 0x60) && decide (kind ≠ 1)) || (isBase s ini && decide (kind = 0)))
    else if blk = 0x0F00 ∨ blk = 0x0F01 then slotIf (base || (hasCap s ini 4 && decide (kind ≠ 2)))
    else if blk = 0x0F04 then
      -- MR_VAL, MR_STAT and MR_BASEDIG by every supervisor level; MR_OIN and MR_CTRL by the base levels and MRX
      slotIf (decide (kind ≠ 2) && (
        (decide (kind = 0) && (base || (moduleOf ini).isSome) && decide (o < 0x400 ∨ o = 0x404 ∨ (0x4C0 ≤ o ∧ o < 0x4F0))) ||
        (base && ! (decide (ini = 0x60) && decide (0x480 ≤ o ∧ o < 0x4B0))) || (hasCap s ini 1 && decide (o = 0x400 ∨ (0x480 ≤ o ∧ o < 0x4B0)))))
    else if blk = 0x0F05 ∨ blk = 0x0F06 then slotIf (base || (decide (kind ≠ 2) && (decide (ini = 0x7A) || hasCap s ini 7)))
    else if blk = 0x0F08 ∨ blk = 0x0F09 then slotIf (base || (decide (kind ≠ 2) && decide (ini = 0x7A)))
    else if blk = 0x0F0B then slotIf (base || (hasCap s ini 6 && decide (kind ≠ 2 ∧ 0x8000 ≤ o ∧ o < 0x8200)))
    else if blk = 0x0F0D then slotIf (base || (hasCap s ini 5 && decide (kind ≠ 2)))
    else if 0x0F02 ≤ blk ∧ blk ≤ 0x0F0D then slotIf base
    else none
  else if region = 3 then
    if blk = 0x0F03 then
      slotIf (base || (decide (ini = 0x79 ∧ kind ≠ 2) && decide (o < 0x500 ∨ (0x8000 ≤ o ∧ o < 0xC000) ∨ (0xF000 ≤ o ∧ o < 0xF008))))
    else if 0x0F00 ≤ blk ∧ blk ≤ 0x0F06 then slotIf base
    else none
  else none

/-- A window matches an access (R681). -/
def Window.matchesA (w : Window) (ini region gran : Nat) : Bool :=
  w.en && decide (w.region = region ∧ w.lo ≤ gran ∧ gran ≤ w.hi ∧ w.first ≤ ini ∧ ini ≤ w.last)

/-- The right of a window for a kind. -/
def Window.right (w : Window) (kind : Nat) : Bool := if kind = 0 then w.r else if kind = 1 then w.w else w.x

/-- The judgement of an access (R681): 0 OK, else its cause. The locked TAP is refused everywhere (R678); outside the fixed slots
with NO_MATCH (DESIGN CHOICE, log entry 96: the spec names no cause). -/
def judge (s : State) (ini addr kind : Nat) : Nat :=
  let region := addr / 2 ^ 32
  let off := addr % 2 ^ 32
  if ¬ isRegion region then cUNMAPPED
  else
    match fixedSlot s ini region off kind with
    | some v => v
    | none =>
      if region ≥ 0x10 ∧ (moduleOf ini).isSome ∧ ¬ hasCap s ini 3 then cFIXED
      else if ini = 0x7F ∧ ¬ s.tap.unlocked then cNOMATCH
      else
        match ((s.actTab (judgeDie region)).wins.filter (fun e => e.2.matchesA ini region (off / 64))).map (fun e => e.2) with
        | [] => if privileged s ini ∧ (s.actTab (judgeDie region)).defen ∧ region < 0x10 then (if kind = 2 then cRIGHTS else 0)
                else cNOMATCH
        | [w] => if w.right kind then 0 else cRIGHTS
        | _ => cOVERLAP

/-- Record a refusal (R693, R697). Of refusals in one cycle the lowest initiator is recorded. -/
def recordViolation (ini addr kind cause : Nat) (prec pcv : Bool) (info : Nat) (s : State) : State :=
  let d := judgeDie (addr / 2 ^ 32)
  let t := s.actTab d
  let s := s.bump (0xB780 + d) cause
  let lower := decide (t.recAt = s.dt) && decide (ini < t.ini)
  let t := if t.valid then { t with vcnt := satInc 32 t.vcnt } else t
  let s := if t.valid then s.bump (0xB780 + d) 8 else s
  if t.valid && ! lower then s.setActTab d t
  else s.setActTab d { t with valid := true, prec := prec, pcv := pcv, kind := kind, ini := ini, cause := cause, addr := addr,
                              info := info, recAt := s.dt } |>.noteSet (regKey d 0x0F060004) (2 ^ 31)

/-- Judge one access and record a refusal: the verdict and the state. -/
def judged (ini addr kind : Nat) (prec pcv : Bool) (info : Nat) (s : State) : Nat × State :=
  let v := judge s ini addr kind
  (v, if v = 0 then s else recordViolation ini addr kind v prec pcv info s)

/-- The piece lengths of a DMA (R691): up to the next 64-byte granule boundary. -/
def dmaPieces : Nat → Nat → Nat → List (Nat × Nat)
  | 0, _, _ => []
  | fuel + 1, addr, len =>
    if len = 0 then []
    else
      let n := Nat.min len (64 - addr % 64)
      (addr, n) :: dmaPieces fuel (addr + n) (len - n)

/-- Judge a DMA piece by piece (R691): the bytes completed, the cause of the first refusal or 0, and the state. -/
def dmaJudge (ini kind : Nat) : List (Nat × Nat) → Nat → State → Nat × Nat × State
  | [], done, s => (done, 0, s)
  | (a, n) :: t, done, s =>
    let v := judge s ini a kind
    if v = 0 then dmaJudge ini kind t (done + n) s
    else (done, v, recordViolation ini a kind v false false done s)

/-- Judge a DMA of `len` bytes from `addr`. -/
def dma (ini kind addr len : Nat) (s : State) : Nat × Nat × State :=
  dmaJudge ini kind (dmaPieces (len / 64 + 2) addr len) 0 s

/-- Granule ranges of a die that lie in fixed slots (R683), first and last granule. -/
def fixedRanges (die : Nat) : List (Nat × Nat) :=
  let g (lo hi : Nat) := (lo / 64, (hi - 1) / 64)
  if die ≤ 1 then
    [g 0 0x00880000, g 0x01000000 0x01200000, g 0x02000000 0x02600000, g 0x02700000 0x02800000, g 0x0F000000 0x0F070000]
  else if die = 2 then [g 0x00100000 0x00110000, g 0x0F000000 0x0F0E0000]
  else [g 0x0F000000 0x0F070000]

/-- Why an enable is refused (R685): 0 accepted, else 1-5. -/
def enableErr (die : Nat) (w : Window) : Nat :=
  if w.lo > w.hi then 1
  else if ¬ (w.region = die ∨ (die = 3 ∧ 0x10 ≤ w.region ∧ w.region ≤ 0x1F)) then 2
  else if w.region = die ∧ (fixedRanges die).any (fun r => decide (w.lo ≤ r.2 ∧ r.1 ≤ w.hi)) then 3
  else if w.x ∧ ¬ (w.first = w.last ∧ 0x61 ≤ w.first ∧ w.first ≤ 0x71) then 4
  else if w.first > w.last then 5
  else 0

/-- Enable a window (R685). -/
def winEnable (die n : Nat) (s : State) : State :=
  let w := (s.actTab die).win n
  let e := enableErr die w
  s.setWin die n { w with en := decide (e = 0), err := e }

/-- OVL (R685): an enabled window shares a granule and an initiator with another enabled one. -/
def winOvl (t : ActTable) (n : Nat) : Bool :=
  let w := t.win n
  w.en && t.wins.any (fun e => decide (e.1 ≠ n) && e.2.en &&
    decide (e.2.region = w.region ∧ e.2.lo ≤ w.hi ∧ w.lo ≤ e.2.hi ∧ e.2.first ≤ w.last ∧ w.first ≤ e.2.last))

/-- A window's fields are locked (R694); a write in the cycle of the LOCK takes effect before it (R700). -/
def winLocked (s : State) (w : Window) : Bool := w.lock && decide (w.lockAt ≠ some s.dt)

/-- Lock a window (R694). -/
def winLock (die n : Nat) (s : State) : State :=
  let w := (s.actTab die).win n
  if w.lock then s else s.setWin die n { w with lock := true, lockAt := some s.dt }

/-- Rewrite a window from dictionary values (R686): EN cleared, fields written, EN set again where asked. -/
def winRewrite (die n : Nat) (region lo hi rights first last : Nat) (en : Bool) (s : State) : State :=
  let w : Window := { (s.actTab die).win n with
    region := region, lo := lo, hi := hi, r := bit rights 0, w := bit rights 1, x := false, first := first, last := last,
    en := false, err := 0 }
  let s := s.setWin die n w
  if en then winEnable die n s else s

/-- Apply host window entry 7810 + k to XD window 48 + k (R686). -/
def applyHostWindow (k : Nat) (s : State) : State :=
  let v (i : Nat) := s.num (0x7810 + k) i
  winRewrite 3 (48 + k) (v 1 / 2 ^ 32 % 256) (v 1 % 2 ^ 32 / 64) (v 2 % 2 ^ 32 / 64) (v 3) (v 4 / 256) (v 4 % 256) (decide (v 5 = 1)) s

/-- Apply shared window entry 7830 + k of the configuration in force to window k of both compute dies (R686). -/
def applySharedWindow (k : Nat) (s : State) : State :=
  let v (i : Nat) := beNat (s.entF (0x7830 + k) i)
  let go (d : Nat) (s : State) := winRewrite d k d (v 1 / 64) (v 2 / 64) (v 3) (v 4 / 256) (v 4 % 256) (decide (v 5 = 1)) s
  go 1 (go 0 s)

/-- Power-on and system reset of the tables (R695). -/
def actReset (s : State) : State := { s with act := {} }

/-- A core reset of KD (R695). -/
def actCoreKd (s : State) : State :=
  let s := { s with act := { s.act with romrun := true, caps := [] } }
  (List.range 4).foldl (fun s d =>
    let t := s.actTab d
    s.setActTab d { t with wins := t.wins.map (fun e =>
      let w := e.2
      let isMod := decide (0x62 ≤ w.first ∧ w.last ≤ 0x71 ∧ w.first ≤ w.last)
      let isBank := decide (d = 2 ∧ w.lo ≤ 0x7FFFF / 64 ∧ 0x40000 / 64 ≤ w.hi)
      if ¬ w.lock ∧ (isMod ∨ isBank) then (e.1, { w with en := false }) else e) }) s

end Sys2Proof.Machine
end

