-- ==== Sys2Proof/Machine/FabMem.lean ====
section
/-!
DEFINITION. The memories behind the fabric addresses, registers apart (R30-R35, R268, R269).
-/
namespace Sys2Proof.Machine

/-- The job whose frame lies in a lane's slot. -/
def frameJob (s : State) (lane slot : Nat) : Option (Nat × Job) :=
  s.unit.jobs.find? (fun e => decide (e.2.lane = lane ∧ e.2.slot = slot ∧ e.2.stage ≤ 6) && ! e.2.slotFreed)

/-- A byte of a job's frame window (R269): 0 in a granule that is not valid. -/
def Job.frameByte (j : Job) (o : Nat) : Byte := if bit j.valid (o / 64) then Memory.read j.frame o else 0

/-- Write a byte of a frame window (R269): a granule not yet valid becomes valid with its other bytes 0. -/
def Job.frameWrite (j : Job) (o : Nat) (b : Byte) : Job :=
  let g := o / 64
  let f := if bit j.valid g then j.frame else j.frame.clear (64 * g) (64 * g + 64)
  { j with frame := f.write o b, valid := j.valid ||| 2 ^ g }

/-- A byte of a frame slot. -/
def slotByte (s : State) (lane slot o : Nat) : Byte :=
  match frameJob s lane slot with
  | some e => e.2.frameByte o
  | none => 0

/-- Offsets of lane local memory that hold something (R31, R32). -/
def laneHolds (o : Nat) : Bool := decide (o < 0x20000) || (decide (0x3E000 ≤ o) && decide (o < 0x3F080))

/-- The lane whose memories a spare address reaches (R33). -/
def spareLane (s : State) (k : Nat) : Nat := if (s.spare k).st = 3 then (s.spare k).lane else 64 + k

/-- A byte of memory at a region and offset; 0 where no memory lies (R30). Host memory is outside the device. -/
def fabByte (s : State) (region off : Nat) : Byte :=
  if region ≤ 1 then
    if off < 0x00800000 then
      (if laneHolds (off % 0x40000) then Memory.read (s.lane (32 * region + off / 0x40000)).mem (off % 0x40000) else 0)
    else if off < 0x00880000 then
      (if laneHolds (off % 0x40000) then Memory.read (s.lane (spareLane s (2 * region + (off - 0x00800000) / 0x40000))).mem (off % 0x40000)
       else 0)
    else if 0x01000000 ≤ off ∧ off < 0x01200000 then
      let a := off - 0x01000000
      slotByte s (32 * region + a / 0x10000) (a % 0x10000 / 0x800) (a % 0x800)
    else if 0x02000000 ≤ off ∧ off < 0x02600000 then
      let a := off - 0x02000000
      slotByte s (32 * region + a / 0x1800 / 32) (a / 0x1800 % 32) (0x800 + a % 0x1800)
    else if off < 0x02800000 then Memory.read (Tab.look [] s.unit.shared region) off
    else 0
  else if region = 2 then
    if off < 0x80000 then Memory.read (Tab.look [] s.unit.shared 2) off
    else if 0x100000 ≤ off ∧ off < 0x110000 then Config.romByte 0 (off - 0x100000)
    else 0
  else 0

/-- Read `n` bytes; a read of host memory brings bytes from outside the device. -/
def fabRead (region off n : Nat) (s : State) : Bytes × State :=
  if region ≥ 0x10 then s.draw n else ((List.range n).map (fun i => fabByte s region (off + i)), s)

/-- The bits of a byte of decode RAM or CU table that hold a field (R383): the others read 0. -/
def decodeMask (o : Nat) : Byte :=
  if 0x3E000 ≤ o ∧ o < 0x3F000 then (if o % 8 < 3 then 0 else 0xFF)
  else if 0x3F000 ≤ o then (match o % 4 with | 0 => 0x80 | 1 => 0xFF | 2 => 0 | _ => 0x3F)
  else 0xFF

/-- The custom opcodes that a bank's CU table defines (R383, R386). -/
def tableDefs (m : Memory) (b : Nat) : Nat :=
  (List.range 16).foldl (fun n u => if bit (Memory.read m (0x3F000 + 0x40 * b + 4 * u)).toNat 7 then n + 2 ^ u else n) 0

/-- Write one byte of memory; ignored where no memory lies. -/
def fabPut (region off : Nat) (b : Byte) (s : State) : State :=
  let lanePut (l o : Nat) : State :=
    if ¬ laneHolds o then s
    else
      let v := s.lane l
      let m := Memory.write v.mem o (b &&& decodeMask o)
      s.setLane l (if o < 0x3F000 then { v with mem := m } else { v with mem := m, cudefA := tableDefs m 0, cudefB := tableDefs m 1 })
  let slotPut (l k o : Nat) : State :=
    match frameJob s l k with
    | some e => s.setJob e.1 (e.2.frameWrite o b)
    | none => s
  let sharedPut : State :=
    { s with unit := { s.unit with shared := Tab.put [] s.unit.shared region (Memory.write (Tab.look [] s.unit.shared region) off b) } }
  if region ≤ 1 then
    if off < 0x00800000 then lanePut (32 * region + off / 0x40000) (off % 0x40000)
    else if off < 0x00880000 then lanePut (spareLane s (2 * region + (off - 0x00800000) / 0x40000)) (off % 0x40000)
    else if 0x01000000 ≤ off ∧ off < 0x01200000 then
      let a := off - 0x01000000
      slotPut (32 * region + a / 0x10000) (a % 0x10000 / 0x800) (a % 0x800)
    else if 0x02000000 ≤ off ∧ off < 0x02600000 then
      let a := off - 0x02000000
      slotPut (32 * region + a / 0x1800 / 32) (a / 0x1800 % 32) (0x800 + a % 0x1800)
    else if 0x02600000 ≤ off ∧ off < 0x02800000 then sharedPut
    else s
  else if region = 2 ∧ off < 0x80000 then sharedPut
  else s

/-- Write bytes; a write to host memory leaves the device. -/
def fabWrite (region off : Nat) (bs : Bytes) (s : State) : State :=
  if region ≥ 0x10 then s.emit (.hostWrite ((region % 16) * 2 ^ 32 + off) bs)
  else (bs.zip (List.range bs.length)).foldl (fun s e => fabPut region (off + e.2) e.1 s) s

end Sys2Proof.Machine
end

