-- ==== Sys2Proof/Machine/Curve.lean ====
section
/-!
DEFINITION. The number theory of the public-key engines: modular powers, prime-field Weierstrass curves, Curve25519,
Ed25519 and Ed448 (FIPS 186-5, RFC 7748, RFC 8032), and the RSA encodings of RFC 8017. The spec names the standards and
does not repeat them; their constants are PRESUMED (log entry 10).
-/
namespace Sys2Proof.Machine

/-- `a ^ e mod n`, square and multiply over the bits of `e`, most significant first. -/
def modPow (a e n : Nat) : Nat :=
  (List.range (Nat.log2 e + 1)).reverse.foldl (fun r i => if e.testBit i then r * r % n * a % n else r * r % n) (1 % n)

/-- Extended Euclid by fuel: the coefficient of `a` in the gcd of `a` and `b`, modulo `n`. -/
def egcdF (n : Nat) : Nat → Nat → Nat → Nat → Nat → Nat
  | 0, _, _, x, _ => x
  | fuel + 1, a, b, x, y => if b = 0 then x else egcdF n fuel b (a % b) y ((x + n * n - (a / b) * y) % n)

/-- The inverse of `a` modulo `n`, 0 where there is none. -/
def modInv (a n : Nat) : Nat :=
  let r := egcdF n (2 * (Nat.log2 n + 2)) (a % n) n 1 0 % n
  if a % n * r % n = 1 % n then r else 0

/-- A prime-field curve y^2 = x^3 + a x + b with base point (gx, gy) of order n and cofactor h. -/
structure Curve where
  p : Nat
  a : Nat
  b : Nat
  n : Nat
  gx : Nat
  gy : Nat
  h : Nat
  deriving DecidableEq, Repr

/-- A point: none is the point at infinity. -/
abbrev Point := Option (Nat × Nat)

/-- Point addition, doubling included. -/
def Curve.add (c : Curve) (u v : Point) : Point :=
  match u, v with
  | none, v => v
  | u, none => u
  | some (x1, y1), some (x2, y2) =>
    if x1 = x2 ∧ (y1 + y2) % c.p = 0 then none
    else
      let l := if x1 = x2 then (3 * x1 * x1 + c.a) * modInv (2 * y1) c.p % c.p
               else (y2 + c.p - y1) * modInv (x2 + c.p - x1) c.p % c.p
      let x3 := (l * l + 2 * c.p - x1 - x2) % c.p
      some (x3, (l * (x1 + c.p - x3) + c.p - y1) % c.p)

/-- Scalar multiplication, double and add. -/
def Curve.mul (c : Curve) (k : Nat) (u : Point) : Point :=
  (List.range (Nat.log2 k + 1)).reverse.foldl (fun r i =>
    let d := c.add r r
    if k.testBit i then c.add d u else d) none

/-- The base point. -/
def Curve.g (c : Curve) : Point := some (c.gx, c.gy)

/-- The bytes of one coordinate. -/
def Curve.len (c : Curve) : Nat := (Nat.log2 c.p) / 8 + 1

/-- A pair of coordinates lies on the curve, both below p. -/
def Curve.onCurve (c : Curve) (x y : Nat) : Bool :=
  decide (x < c.p ∧ y < c.p) && decide (y * y % c.p = (x * x * x + c.a * x + c.b) % c.p)

/-- SEC1 uncompressed form; the point at infinity is one zero byte. -/
def Curve.enc (c : Curve) : Point → Bytes
  | none => [0]
  | some (x, y) => [4] ++ beBytes x c.len ++ beBytes y c.len

/-- Read a SEC1 uncompressed point that lies on the curve. -/
def Curve.dec (c : Curve) (bs : Bytes) : Option (Nat × Nat) :=
  let x := beNat (slice bs 1 c.len)
  let y := beNat (bs.drop (1 + c.len))
  if bs.length = 1 + 2 * c.len ∧ byteAt bs 0 = 4 ∧ c.onCurve x y then some (x, y) else none

/-- A hash as an integer modulo n: its leftmost bits, as many as n has (FIPS 186-5). -/
def Curve.hashInt (c : Curve) (h : Bytes) : Nat :=
  let nb := Nat.log2 c.n + 1
  beNat h >>> (8 * h.length - nb)

/-- ECDSA signature with the per-message secret `k`: r and s, none where one is 0. -/
def Curve.ecdsaSign (c : Curve) (d k : Nat) (h : Bytes) : Option (Nat × Nat) :=
  match c.mul k c.g with
  | none => none
  | some (x, _) =>
    let r := x % c.n
    let s := modInv k c.n * ((c.hashInt h + r * d) % c.n) % c.n
    if r = 0 ∨ s = 0 then none else some (r, s)

/-- ECDSA verification. -/
def Curve.ecdsaVerify (c : Curve) (q : Nat × Nat) (h : Bytes) (r s : Nat) : Bool :=
  if r = 0 ∨ s = 0 ∨ c.n ≤ r ∨ c.n ≤ s then false
  else
    let w := modInv s c.n
    match c.add (c.mul (c.hashInt h * w % c.n) c.g) (c.mul (r * w % c.n) (some q)) with
    | none => false
    | some (x, _) => decide (x % c.n = r)

/-- NIST P-192. -/
def p192 : Curve :=
  ⟨0xFFFFFFFFFFFFFFFFFFFFFFFFFFFFFFFEFFFFFFFFFFFFFFFF, 0xFFFFFFFFFFFFFFFFFFFFFFFFFFFFFFFEFFFFFFFFFFFFFFFC,
   0x64210519E59C80E70FA7E9AB72243049FEB8DEECC146B9B1, 0xFFFFFFFFFFFFFFFFFFFFFFFF99DEF836146BC9B1B4D22831,
   0x188DA80EB03090F67CBF20EB43A18800F4FF0AFD82FF1012, 0x07192B95FFC8DA78631011ED6B24CDD573F977A11E794811, 1⟩
/-- NIST P-224. -/
def p224 : Curve :=
  ⟨2 ^ 224 - 2 ^ 96 + 1, 2 ^ 224 - 2 ^ 96 - 2, 0xB4050A850C04B3ABF54132565044B0B7D7BFD8BA270B39432355FFB4,
   0xFFFFFFFFFFFFFFFFFFFFFFFFFFFF16A2E0B8F03E13DD29455C5C2A3D,
   0xB70E0CBD6BB4BF7F321390B94A03C1D356C21122343280D6115C1D21,
   0xBD376388B5F723FB4C22DFE6CD4375A05A07476444D5819985007E34, 1⟩
/-- NIST P-256. -/
def p256 : Curve :=
  ⟨2 ^ 256 - 2 ^ 224 + 2 ^ 192 + 2 ^ 96 - 1, 2 ^ 256 - 2 ^ 224 + 2 ^ 192 + 2 ^ 96 - 4,
   0x5AC635D8AA3A93E7B3EBBD55769886BC651D06B0CC53B0F63BCE3C3E27D2604B,
   0xFFFFFFFF00000000FFFFFFFFFFFFFFFFBCE6FAADA7179E84F3B9CAC2FC632551,
   0x6B17D1F2E12C4247F8BCE6E563A440F277037D812DEB33A0F4A13945D898C296,
   0x4FE342E2FE1A7F9B8EE7EB4A7C0F9E162BCE33576B315ECECBB6406837BF51F5, 1⟩
/-- NIST P-384. -/
def p384 : Curve :=
  ⟨2 ^ 384 - 2 ^ 128 - 2 ^ 96 + 2 ^ 32 - 1, 2 ^ 384 - 2 ^ 128 - 2 ^ 96 + 2 ^ 32 - 4,
   0xB3312FA7E23EE7E4988E056BE3F82D19181D9C6EFE8141120314088F5013875AC656398D8A2ED19D2A85C8EDD3EC2AEF,
   0xFFFFFFFFFFFFFFFFFFFFFFFFFFFFFFFFFFFFFFFFFFFFFFFFC7634D81F4372DDF581A0DB248B0A77AECEC196ACCC52973,
   0xAA87CA22BE8B05378EB1C71EF320AD746E1D3B628BA79B9859F741E082542A385502F25DBF55296C3A545E3872760AB7,
   0x3617DE4A96262C6F5D9E98BF9292DC29F8F41DBD289A147CE9DA3113B5F0B8C00A60B1CE1D7E819D7A431D7C90EA0E5F, 1⟩
/-- NIST P-521. -/
def p521 : Curve :=
  ⟨2 ^ 521 - 1, 2 ^ 521 - 4,
   0x0051953EB9618E1C9A1F929A21A0B68540EEA2DA725B99B315F3B8B489918EF109E156193951EC7E937B1652C0BD3BB1BF073573DF883D2C34F1EF451FD46B503F00,
   2 ^ 521 - 2 ^ 260 + 0xA51868783BF2F966B7FCC0148F709A5D03BB5C9B8899C47AEBB6FB71E91386409,
   0x00C6858E06B70404E9CD9E3ECB662395B4429C648139053FB521F828AF606B4D3DBAA14B5E77EFE75928FE1DC127A2FFA8DE3348B3C1856A429BF97E7E31C2E5BD66,
   0x011839296A789A3BC0045C8A5FB42C7D1BD998F54449579B446817AFBD17273E662C97EE72995EF42640C550B9013FAD0761353C7086A272C24088BE94769FD16650, 1⟩

/-- A twisted Edwards curve a x^2 + y^2 = 1 + d x^2 y^2 with base point, order and the bytes of a key. -/
structure EdCurve where
  p : Nat
  a : Nat
  d : Nat
  n : Nat
  gx : Nat
  gy : Nat
  len : Nat
  deriving DecidableEq, Repr

/-- Edwards addition (complete). -/
def EdCurve.add (c : EdCurve) (u v : Nat × Nat) : Nat × Nat :=
  let t := c.d * u.1 % c.p * v.1 % c.p * u.2 % c.p * v.2 % c.p
  ((u.1 * v.2 + v.1 * u.2) % c.p * modInv (1 + t) c.p % c.p,
   (u.2 * v.2 + c.p * c.p - (c.a * u.1 % c.p * v.1) % c.p) % c.p * modInv (1 + c.p - t) c.p % c.p)

/-- Edwards scalar multiplication. -/
def EdCurve.mul (c : EdCurve) (k : Nat) (u : Nat × Nat) : Nat × Nat :=
  (List.range (Nat.log2 k + 1)).reverse.foldl (fun r i =>
    let d := c.add r r
    if k.testBit i then c.add d u else d) (0, 1)

/-- Ed25519's curve. -/
def ed25519 : EdCurve :=
  ⟨2 ^ 255 - 19, 2 ^ 255 - 20, 0x52036CEE2B6FFE738CC740797779E89800700A4D4141D8AB75EB4DCA135978A3,
   2 ^ 252 + 27742317777372353535851937790883648493,
   0x216936D3CD6E53FEC0A4E231FDD6DC5C692CC7609525A7B2C9562D608F25D51A,
   0x6666666666666666666666666666666666666666666666666666666666666658, 32⟩
/-- Ed448's curve. -/
def ed448 : EdCurve :=
  ⟨2 ^ 448 - 2 ^ 224 - 1, 1, 2 ^ 448 - 2 ^ 224 - 1 - 39081,
   2 ^ 446 - 13818066809895115352007386748515426880336692474882178609894547503885,
   224580040295924300187604334099896036246789641632564134246125461686950415467406032909029192869357953282578032075146446173674602635247710,
   298819210078481492676017930443930673437544040154080242095928241372331506189835876003536878655418784733982303233503462500531545062832660,
   57⟩

/-- The compressed form of an Edwards point: y little-endian, x's low bit in the top bit of the last byte. -/
def EdCurve.enc (c : EdCurve) (u : Nat × Nat) : Bytes :=
  leBytes (u.2 + (u.1 % 2) * 2 ^ (8 * c.len - 1)) c.len

/-- A square root modulo p for p = 3 mod 4 or p = 5 mod 8, none where there is none. -/
def sqrtMod (x p : Nat) : Option Nat :=
  let r :=
    if p % 4 = 3 then modPow x ((p + 1) / 4) p
    else
      let r := modPow x ((p + 3) / 8) p
      if r * r % p = x % p then r else r * modPow 2 ((p - 1) / 4) p % p
  if r * r % p = x % p then some r else none

/-- Read a compressed Edwards point. -/
def EdCurve.dec (c : EdCurve) (bs : Bytes) : Option (Nat × Nat) :=
  let v := leNat bs
  let y := v % 2 ^ (8 * c.len - 1)
  let sg := v / 2 ^ (8 * c.len - 1)
  if bs.length ≠ c.len ∨ c.p ≤ y then none
  else
    let yy := y * y % c.p
    let u := (yy + c.p - 1) % c.p
    let w := (c.d * yy % c.p + c.p - c.a % c.p) % c.p
    match sqrtMod (u * modInv w c.p % c.p) c.p with
    | none => none
    | some x =>
      if x = 0 ∧ sg = 1 then none
      else some (if x % 2 = sg then x else (c.p - x) % c.p, y)

/-- The hash of EdDSA: SHA-512 for Ed25519, SHAKE256 with the dom4 string for Ed448 (RFC 8032). -/
def EdCurve.hash (c : EdCurve) (m : Bytes) : Bytes :=
  if c.len = 32 then sha512 m else shake256 114 (ascii "SigEd448" ++ [0, 0] ++ m)

/-- The hash of an EdDSA seed: SHA-512, or SHAKE256 without the dom4 string (RFC 8032). -/
def EdCurve.hashSeed (c : EdCurve) (m : Bytes) : Bytes := if c.len = 32 then sha512 m else shake256 114 m

/-- The secret scalar of an EdDSA seed. -/
def EdCurve.scalar (c : EdCurve) (h : Bytes) : Nat :=
  let s := leNat (h.take c.len)
  if c.len = 32 then setBits (setBits s 2 0 0) 255 254 1 else setBits (setBits (setBits s 1 0 0) 455 448 0) 447 447 1

/-- The EdDSA public key of a seed. -/
def EdCurve.pub (c : EdCurve) (seed : Bytes) : Bytes := c.enc (c.mul (c.scalar (c.hashSeed seed)) (c.gx, c.gy))

/-- PureEdDSA signature. -/
def EdCurve.sign (c : EdCurve) (seed m : Bytes) : Bytes :=
  let h := c.hashSeed seed
  let a := c.scalar h
  let pk := c.enc (c.mul a (c.gx, c.gy))
  let r := leNat (c.hash (h.drop c.len ++ m)) % c.n
  let rr := c.enc (c.mul r (c.gx, c.gy))
  let k := leNat (c.hash (rr ++ pk ++ m)) % c.n
  rr ++ leBytes ((r + k * a) % c.n) c.len

/-- EdDSA verification. -/
def EdCurve.verify (c : EdCurve) (pk m sig : Bytes) : Bool :=
  match c.dec pk, c.dec (sig.take c.len) with
  | some a, some r =>
    let s := leNat (sig.drop c.len)
    let k := leNat (c.hash (sig.take c.len ++ pk ++ m)) % c.n
    decide (sig.length = 2 * c.len ∧ s < c.n) && decide (c.mul s (c.gx, c.gy) = c.add r (c.mul k a))
  | _, _ => false

/-- One step of the Montgomery ladder on Curve25519: ((x2, z2), (x3, z3)), bit swapped in. -/
def x25519Step (u : Nat) (st : (Nat × Nat) × (Nat × Nat)) (b : Bool) : (Nat × Nat) × (Nat × Nat) :=
  let p := 2 ^ 255 - 19
  let s := if b then (st.2, st.1) else st
  let a := (s.1.1 + s.1.2) % p
  let aa := a * a % p
  let bb' := (s.1.1 + p - s.1.2) % p
  let bb := bb' * bb' % p
  let e := (aa + p - bb) % p
  let da := (s.2.1 + p - s.2.2) % p * a % p
  let cb := (s.2.1 + s.2.2) % p * bb' % p
  let x3 := (da + cb) * (da + cb) % p
  let z3 := u * ((da + p - cb) * (da + p - cb) % p) % p
  let r := ((aa * bb % p, e * ((aa + 121665 * e) % p) % p), (x3, z3))
  if b then (r.2, r.1) else r

/-- X25519 of a 32-byte scalar and a 32-byte u-coordinate (RFC 7748). -/
def x25519 (k u : Bytes) : Bytes :=
  let p := 2 ^ 255 - 19
  let kk := setBits (setBits (leNat (fit k 32)) 2 0 0) 255 254 1
  let uu := leNat (fit u 32) % 2 ^ 255 % p
  let r := (List.range 255).reverse.foldl (fun st i => x25519Step uu st (kk.testBit i)) ((1, 0), (uu, 1))
  leBytes (r.1.1 * modInv r.1.2 p % p) 32

/-- The base point of X25519. -/
def x25519Base : Bytes := leBytes 9 32

/-- The DigestInfo header of EMSA-PKCS1-v1_5 for SHA-256, SHA-384 and SHA-512 by digest length. -/
def digestInfo (hlen : Nat) : Bytes :=
  let alg : Nat := if hlen = 32 then 1 else if hlen = 48 then 2 else 3
  [0x30, byte (17 + hlen), 0x30, 0x0D, 0x06, 0x09, 0x60, 0x86, 0x48, 0x01, 0x65, 0x03, 0x04, 0x02, byte alg,
    0x05, 0x00, 0x04, byte hlen]

/-- EMSA-PKCS1-v1_5 over a digest, `k` bytes. -/
def pkcs1Encode (k : Nat) (h : Bytes) : Bytes :=
  let t := digestInfo h.length ++ h
  [0x00, 0x01] ++ List.replicate (k - 3 - t.length) 0xFF ++ [0x00] ++ t

/-- MGF1 over a hash. -/
def mgf1 (hash : Bytes → Bytes) (hlen : Nat) (seed : Bytes) (n : Nat) : Bytes :=
  ((List.range (ceilDiv n hlen)).flatMap (fun i => hash (seed ++ beBytes i 4))).take n

/-- EMSA-PSS encoding over a digest with the salt given; `emBits` is one less than the modulus length in bits. -/
def pssEncode (hash : Bytes → Bytes) (emBits : Nat) (h salt : Bytes) : Bytes :=
  let emLen := ceilDiv emBits 8
  let hh := hash (zeros 8 ++ h ++ salt)
  let db := zeros (emLen - salt.length - h.length - 2) ++ [0x01] ++ salt
  let m := xorBytes db (mgf1 hash h.length hh db.length)
  let m := match m with
    | b :: r => byte (b.toNat % 2 ^ (8 - (8 * emLen - emBits))) :: r
    | [] => []
  m ++ hh ++ [0xBC]

/-- EMSA-PSS verification with a salt of `slen` bytes. -/
def pssVerify (hash : Bytes → Bytes) (emBits slen : Nat) (h em : Bytes) : Bool :=
  let emLen := ceilDiv emBits 8
  let hl := h.length
  let m := em.take (emLen - hl - 1)
  let hh := slice em (emLen - hl - 1) hl
  let db := xorBytes m (mgf1 hash hl hh m.length)
  let db := match db with
    | b :: r => byte (b.toNat % 2 ^ (8 - (8 * emLen - emBits))) :: r
    | [] => []
  let z := emLen - hl - slen - 2
  decide (em.length = emLen ∧ hl + slen + 2 ≤ emLen) && decide (byteAt em (emLen - 1) = 0xBC) &&
  decide ((byteAt m 0).toNat < 2 ^ (8 - (8 * emLen - emBits))) &&
  (db.take z).all (fun b => b == 0) && decide (byteAt db z = 1) &&
  decide (hash (zeros 8 ++ h ++ db.drop (z + 1)) = hh)

end Sys2Proof.Machine
end

