-- ==== Sys2Proof/Machine/MrOps.lean ====
section
/-!
DEFINITION. The measurement registers as shared operations (R622-R625).
-/
namespace Sys2Proof.Machine

/-- A measurement register. -/
def State.mrVal (s : State) (i : Nat) : Bytes := Tab.look (zeros 48) s.mr.vals i

/-- The place of a source among requests of one KCLK (R622): hardware, vendor port, owner port. -/
def mrRank (source : Nat) : Nat := if source = 1 ∨ source = 2 then 0 else if source = 11 then 2 else 1

/-- Put a request into the waiting extends (R622): after those that arrived earlier, and among those of its own KCLK by rank. -/
def mrInsert (q : MrReq) (l : List MrReq) : List MrReq :=
  let later (x : MrReq) : Bool := decide (x.arrival = q.arrival) && decide (mrRank q.source < mrRank x.source)
  l.filter (fun x => ! later x) ++ [q] ++ l.filter later

/-- Request an extend (R622, R641): it waits its turn. -/
def mrExtend (q : MrReq) (s : State) : State :=
  { s with mr := { s.mr with waiting := mrInsert { q with arrival := s.dt } s.mr.waiting } }

/-- Firmware or hardware extends a register (R623). -/
def mrMeasure (m source aux : Nat) (v : Bytes) (s : State) : State := mrExtend ⟨m, v, source, aux, 0, s.dt⟩ s

/-- Perform one extend (R622, R625): the register, and the log entry or its count. -/
def mrPerform (q : MrReq) (s : State) : State :=
  let s := { s with mr := { s.mr with vals := Tab.put (zeros 48) s.mr.vals q.mr (sha384 (s.mrVal q.mr ++ q.v)) } }
  if s.mr.log.length < 1024 then
    let e := [byte q.mr, byte q.source, 0, 0] ++ beBytes q.aux 4 ++ beBytes s.dt 8 ++ fit q.v 48
    let s := { s with mr := { s.mr with log := s.mr.log ++ [e] } }
    s.setNum 0x6800 2 s.mr.log.length
  else s.bump 0x6800 3

/-- The digest of the key-die boot ROM, burned in its mask (log entry 2). -/
def romDigest : Bytes := (List.range 48).map (Config.romByte 0)

/-- Hardware extends MR0 before the supervisor leaves reset (R623, R749): the ROM digest, then the option digest. -/
def mrBoot (opts : Bytes) (s : State) : State := mrMeasure 0 2 0 opts (mrMeasure 0 1 0 romDigest s)

end Sys2Proof.Machine
end

