-- ==== Sys2Proof/Machine/NvmOps.lean ====
section
/-!
DEFINITION. The shared operations of MRAM, counters and fuses (R775-R794).
-/
namespace Sys2Proof.Machine

/-- MRAM regions: code, first page, last page (R775). -/
def nvmRegions : List (Nat × Nat × Nat) :=
  [(0, 0x000, 0x001), (1, 0x002, 0x005), (2, 0x006, 0x007), (3, 0x008, 0x009), (4, 0x010, 0x016), (5, 0x018, 0x057),
    (6, 0x058, 0x077), (7, 0x078, 0x0BC), (8, 0x0C0, 0x0EF), (9, 0x0F0, 0x0F7), (10, 0x0F8, 0x0FF), (11, 0x100, 0x2FF),
    (12, 0x300, 0x4FF), (13, 0x500, 0x67F), (14, 0x680, 0x7FF)]

/-- The region a logical page lies in; none for a reserved page. -/
def regionOf (p : Nat) : Option (Nat × Nat × Nat) := nvmRegions.find? (fun r => decide (r.2.1 ≤ p ∧ p ≤ r.2.2))

/-- The page an access to a logical page goes to: a spare once remapped (R779). A marginal remap word disables its entries (R786). -/
def physPage (s : State) (p : Nat) : Nat :=
  match s.nvm.spareUsed.find? (fun e => decide (e.2 = p) && ! s.nvm.marginal.contains (192 + e.1 / 2)) with
  | some e => 2048 + e.1
  | none => p

/-- A page with no uncorrectable word (R776). -/
def pageIntact (s : State) (p : Nat) : Bool := ! s.nvm.badPages.contains (physPage s p)

/-- The regions whose pages still give their correctable words (R776): the open regions and the evidence region. -/
def partialRegion (p : Nat) : Bool := (decide (0xF0 ≤ p) && decide (p ≤ 0xFF)) || (decide (0x300 ≤ p) && decide (p ≤ 0x4FF))

/-- Bytes of a logical page from an offset on; a page that is not intact returns 0, or its correctable words (R776). -/
def pageRead (s : State) (p off n : Nat) : Bytes :=
  let pos := 256 * physPage s p + off
  if pageIntact s p then Memory.readN s.nvm.mram pos n
  else if partialRegion p then
    (List.range n).map (fun i => if s.nvm.badWords.contains ((pos + i) / 8) then 0 else Memory.read s.nvm.mram (pos + i))
  else zeros n

/-- A page that nothing has written. -/
def pageBlank (s : State) (p : Nat) : Bool := pageIntact s p && (pageRead s p 0 256).all (fun b => decide (b = 0))

/-- Bytes from a linear MRAM position, page by page. -/
def mramRead (s : State) (pos n : Nat) : Bytes :=
  (List.range n).map (fun i => byteAt (pageRead s ((pos + i) / 256) ((pos + i) % 256) 1) 0)

/-- Write bytes into one physical page from an offset, wrapping at its end (R777). -/
def pageStore (m : Memory) (phys off : Nat) (bs : Bytes) : Memory :=
  (bs.zip (List.range bs.length)).foldl (fun m bi => Memory.write m (256 * phys + (off + bi.2) % 256) bi.1) m

/-- A region is read-only until power-on (R780). -/
def regionReadOnly (s : State) (code : Nat) : Bool := bit s.nvm.readOnly code

/-- The lowest-numbered unused spare page, 0-63 (R779). -/
def nextSpare (s : State) : Option Nat :=
  (List.range 64).find? (fun k => ! s.nvm.spareBad.contains k && s.nvm.spareUsed.all (fun e => decide (e.1 ≠ k)))

/-- Burn a remap entry of spare `k` (R779, R786): `v` in the half word of word 192 + k / 2. -/
def burnRemap (k v : Nat) (s : State) : State :=
  let w := 192 + k / 2
  { s with nvm := { s.nvm with fuses := Tab.place s.nvm.fuses w (some (s.fuse w |||
    (if k % 2 = 0 then v else v * 2 ^ 16))) } }

/-- Every unused spare is found BAD (R779, R780). -/
def burnAllBad (s : State) : State :=
  (List.range 64).foldl (fun s k =>
    if s.nvm.spareBad.contains k ∨ s.nvm.spareUsed.any (fun e => decide (e.1 = k)) then s
    else burnRemap k (2 ^ 14) { s with nvm := { s.nvm with spareBad := k :: s.nvm.spareBad } }) s

/-- A program writes whole words, which are correctable again; a page without an uncorrectable word is intact (R776). -/
def mendPage (phys off n : Nat) (v : NvmState) : NvmState :=
  let written (o : Nat) : Bool := decide ((o + 256 - off) % 256 < n)
  let words := v.badWords.filter (fun w => ! (decide (w / 32 = phys) && (List.range 8).all (fun i => written (w % 32 * 8 + i))))
  { v with badWords := words
           badPages := if words.any (fun w => decide (w / 32 = phys)) then v.badPages else v.badPages.filter (fun q => decide (q ≠ phys)) }

/-- Remap a page to the next good spare: each of `fails` further verifies fails on one spare and marks it BAD (R779). -/
def remapPage (p : Nat) : Nat → State → Option State
  | 0, s =>
    match nextSpare s with
    | none => none
    | some k =>
      let old := physPage s p
      let data := Memory.readN s.nvm.mram (256 * old) 256
      let s := burnRemap k (2 ^ 15 + p) s
      some (logEvent 0x19 11 0 p { s with nvm := { s.nvm with
        spareUsed := (k, p) :: s.nvm.spareUsed.filter (fun e => decide (e.2 ≠ p))
        spareBad := if old ≥ 2048 then (old - 2048) :: s.nvm.spareBad else s.nvm.spareBad
        badPages := s.nvm.badPages.filter (fun q => decide (q ≠ 2048 + k))
        mram := pageStore s.nvm.mram (2048 + k) 0 data } })
  | n + 1, s =>
    match nextSpare s with
    | none => none
    | some k => remapPage p n (burnRemap k (2 ^ 14) { s with nvm := { s.nvm with spareBad := k :: s.nvm.spareBad } })

/-- Program bytes into one page (R777-R780). `fails` counts the read-backs that differ: three on the page, then one on each
spare tried. Answers 0, or 4 NOSPARE with the region read-only and the data not stored. -/
def programPage (p off : Nat) (bs : Bytes) (fails : Nat) (s : State) : Nat × State :=
  let put (s : State) : State :=
    { s with nvm := { mendPage (physPage s p) off bs.length s.nvm with mram := pageStore s.nvm.mram (physPage s p) off bs } }
  match regionOf p with
  | none => (1, s)
  | some (code, _, _) =>
    if regionReadOnly s code then (4, s)
    else if fails < 3 then (0, put s)
    else
      match remapPage p (fails - 3) s with
      | some t => (0, put t)
      | none =>
        let s := burnAllBad s
        (4, { s with nvm := { s.nvm with readOnly := s.nvm.readOnly ||| 2 ^ code } })

/-- The MRAM position of counter `k`, copy `c` (R785). -/
def ctrPos (k c : Nat) : Nat := 256 * (0x018 + 0x20 * c + k / 32) + 8 * (k % 32)

/-- A counter copy is intact when its page is (R781, class 2). -/
def ctrIntact (s : State) (k c : Nat) : Bool := pageIntact s (ctrPos k c / 256)

/-- The value of a counter copy. -/
def ctrCopy (s : State) (k c : Nat) : Nat := beNat (mramRead s (ctrPos k c) 8)

/-- The value of a counter: the higher of two intact copies, the one intact, else 0 (R781, R792). -/
def ctrValue (s : State) (k : Nat) : Nat :=
  match ctrIntact s k 0, ctrIntact s k 1 with
  | true, true => Nat.max (ctrCopy s k 0) (ctrCopy s k 1)
  | true, false => ctrCopy s k 0
  | false, true => ctrCopy s k 1
  | false, false => 0

/-- Some copy of a counter is intact. -/
def ctrUsable (s : State) (k : Nat) : Bool := ctrIntact s k 0 || ctrIntact s k 1

/-- Program one counter copy. -/
def ctrProgram (k c v fails : Nat) (s : State) : Nat × State :=
  programPage (ctrPos k c / 256) (ctrPos k c % 256) (beBytes v 8) fails s

/-- Read a counter, repairing a lagging or damaged copy (R781, R792). -/
def ctrRead (k : Nat) (s : State) : Nat × State :=
  let v := ctrValue s k
  if ctrUsable s k ∧ (ctrIntact s k 0 = false ∨ ctrIntact s k 1 = false ∨ ctrCopy s k 0 ≠ ctrCopy s k 1) then
    let c := if ctrIntact s k 0 = true ∧ ctrCopy s k 0 = v then 1 else 0
    (v, logEvent 0x19 2 0 k ((ctrProgram k c v 0 s).2.bump 0x9000 7))
  else (v, s)

/-- Write a counter: copy 0, then copy 1 (R785). -/
def ctrWrite (k v fails : Nat) (s : State) : Nat × State :=
  let r := ctrProgram k 0 v fails s
  if r.1 ≠ 0 then r else ctrProgram k 1 v 0 r.2

/-- Increment a counter (R785): 5 SATURATED at all ones. DESIGN CHOICE (log entry 98): a reserved counter answers 1 REGION, one of which
no copy is intact 2 RANGE. -/
def ctrIncrement (k fails : Nat) (s : State) : Nat × State :=
  if 3 ≤ k ∧ k ≤ 15 then (1, s)
  else if ¬ ctrUsable s k then (2, s)
  else
    let r := ctrRead k s
    if r.1 = 2 ^ 64 - 1 then (5, s) else ctrWrite k (r.1 + 1) fails r.2

/-- Raise a counter (R785): a value below the present one changes nothing. -/
def ctrRaise (k v fails : Nat) (s : State) : Nat × State :=
  if 3 ≤ k ∧ k ≤ 15 then (1, s)
  else if ¬ ctrUsable s k then (2, s)
  else
    let r := ctrRead k s
    if v < r.1 then (2, s) else ctrWrite k v fails r.2

/-- OR a value into a fuse word; bits of `stuck` stay clear after the one retry. Answers whether the verify passed (R786). -/
def burnFuse (w v stuck : Nat) (s : State) : Bool × State :=
  let old := s.fuse w
  let new := old ||| (v - (v &&& stuck))
  (decide (new &&& v = v), { s with nvm := { s.nvm with fuses := Tab.place s.nvm.fuses w (some new) } })

/-- The code a life-cycle copy holds (R787). -/
def lcsFuse : Lcs → Nat
  | .blank => 0x00000000 | .vendor => 0x000000FF | .owned => 0x0000FFFF | .fa => 0x00FFFFFF | .retired => 0xFFFFFFFF

/-- Decode a life-cycle copy (R787). -/
def lcsDecode (w : Nat) : Option Lcs :=
  [Lcs.blank, .vendor, .owned, .fa, .retired].find? (fun l => decide (lcsFuse l = w))

/-- Burn a life-cycle change into copies 0, 1, 2 (R787), log it, and measure it (R623). -/
def burnLcs (l : Lcs) (s : State) : State :=
  let s := [0, 1, 2].foldl (fun s w => (burnFuse w (lcsFuse l) 0 s).2) s
  let s := mrMeasure 7 10 0 (sha384 ([byte l.code] ++ serial s)) s
  logEvent 0x0B l.code 0 (s.secured 65) (s.setLcs l)

/-- May an initiator read a region through NVM_ (R775). -/
def nvmMayRead (ini : Nat) : Bool := decide (ini = 0x60 ∨ ini = 0x61)

/-- May an initiator write a region raw through NVM_ (R775). -/
def nvmMayWrite (s : State) (ini code : Nat) : Bool :=
  decide (ini = 0x61) &&
  ([0, 2, 3, 4, 6, 7, 8, 9, 10, 13, 14].contains code || (decide (code = 1) && decide (s.power.lcs = .blank)))

/-- The region of an open-region access: OR0 or OR1 by bit 0 of NVM_OR_CTRL. -/
def orRegion (s : State) : Nat := s.nvm.owner.ctrl % 2

/-- The guard of an open region. -/
def orGuard (s : State) (k : Nat) : OpenRegion := if k = 0 then s.nvm.or0 else s.nvm.or1

/-- Set the guard of an open region. -/
def setOrGuard (k : Nat) (g : OpenRegion) (s : State) : State :=
  if k = 0 then { s with nvm := { s.nvm with or0 := g } } else { s with nvm := { s.nvm with or1 := g } }

/-- The password of an open region (9010:01, 9010:02). -/
def orPassword (s : State) (k : Nat) : Nat := s.cfg 0x9010 (k + 1)

/-- Writes to an open region are accepted (R784). -/
def orOpen (s : State) (k : Nat) : Bool := decide (orPassword s k = 0) || (orGuard s k).unlocked

/-- A choice beside a damaged copy is logged (R781): the datum's class, and the pages of its two copies. -/
def noteDamaged (cls p0 p1 : Nat) (ok0 ok1 : Bool) (s : State) : State :=
  if (ok0 && ! ok1 && ! pageBlank s p1) || (ok1 && ! ok0 && ! pageBlank s p0) then logEvent 0x19 cls 0 0 s else s

end Sys2Proof.Machine
end

