-- ==== Sys2Proof/Machine/KeyOps.lean ====
section
/-!
DEFINITION. Keys: derivation (R428-R435, R475), check values (R455), public keys, nodes and runs (R419-R425), anchors in MRAM
(R416, R417), coherence (R440, R441), and the delivery checks (R437).
-/
namespace Sys2Proof.Machine

/-- KDF-CTR (R428): L in bits. -/
def kdfCtr (key label ctx : Bytes) (l : Nat) : Bytes :=
  ((List.range (ceilDiv l 128)).flatMap (fun i =>
    aesCmac key (beBytes (i + 1) 4 ++ label ++ [0] ++ ctx ++ beBytes l 4))).take (l / 8)

/-- TESTROOT (R410). -/
def testRoot : Bytes := sha256 (ascii "Tvedmor SV6400 public test root")

/-- PUFK, the 256-bit key the PUF regenerates (R411). -/
def pufKey : Bytes := (List.range 32).map Config.pufRoot

/-- A scalar of a group of order `n` from a byte string (FIPS 186-5 A.2.1 as R414, R429 and R459 state it). -/
def scalarOf (n : Nat) (bs : Bytes) : Nat := beNat bs % (n - 1) + 1

/-- A curve record as a curve (R552). -/
def curveOfRecord (r : Bytes) : Curve :=
  let f (k : Nat) := beNat (slice r (4 + 66 * k) 66)
  ⟨f 0, f 1, f 2, f 5, f 3, f 4, (byteAt r 2).toNat⟩

/-- The installed record of a curve slot (R552, R554). -/
def State.curveRec (s : State) (c : Nat) : Bytes := (Tab.look {} s.pk.curves c).record

/-- The curve of an ECC key type: P-256, P-384, P-521, or a loaded curve (R420). -/
def curveOf (s : State) (kt param : Nat) : Option Curve :=
  match kt % 16 with
  | 0 => some p256
  | 1 => some p384
  | 2 => some p521
  | 3 => let r := s.curveRec param; if r.isEmpty then none else some (curveOfRecord r)
  | _ => none

/-- A symmetric type (R420). -/
def isSym (kt : Nat) : Bool := decide (1 ≤ kt ∧ kt ≤ 5)
/-- A private public-key type. -/
def isPriv (kt : Nat) : Bool := decide (0x10 ≤ kt ∧ kt ≤ 0x16) || decide (kt = 0x18)
/-- A public type. -/
def isPub (kt : Nat) : Bool := decide (0x20 ≤ kt ∧ kt ≤ 0x26) || decide (kt = 0x28)

/-- Key material length of a type (R420, R442, R531). -/
def keyLen (s : State) (kt param : Nat) : Nat :=
  match kt with
  | 0x01 => 16 | 0x02 => 24 | 0x03 => 32 | 0x04 => 16 | 0x05 => 24 | 0x08 => param
  | 0x10 => 32 | 0x11 => 48 | 0x12 => 66 | 0x14 => 32 | 0x15 => 57 | 0x16 => 32
  | 0x20 => 65 | 0x21 => 97 | 0x22 => 133 | 0x24 => 32 | 0x25 => 57 | 0x26 => 32
  | 0x13 => match curveOf s 3 param with | some c => (Nat.log2 c.n) / 8 + 1 | none => 66
  | 0x23 => match curveOf s 3 param with | some c => 1 + 2 * c.len | none => 133
  | 0x18 => let k := 1024 * (param + 1); k / 8 + 4 + 5 * k / 16
  | 0x28 => let k := 1024 * (param + 1); k / 8 + 4
  | _ => 0

/-- A check value (R455). -/
def checkValue (kt : Nat) (key : Bytes) : Bytes :=
  if kt = 1 ∨ kt = 2 ∨ kt = 3 then (aesCmac key (zeros 16)).take 5
  else if kt = 4 ∨ kt = 5 then (tdesEnc key (zeros 8)).take 3
  else if kt = 8 then (hmac sha256 64 key (zeros 32)).take 5
  else []

/-- The modulus size in bytes of an RSA private layout (R531): its length is 7k/16 + 4 with k in bits, k/8 bytes each. -/
def rsaBytes (key : Bytes) : Nat := (key.length - 4) * 2 / 7

/-- The public key of a private key (R442, R529); a public key is its own. -/
def publicOf (s : State) (kt param : Nat) (key : Bytes) : Bytes :=
  if kt = 0x14 then ed25519.pub key
  else if kt = 0x15 then ed448.pub key
  else if kt = 0x16 then x25519 key x25519Base
  else if kt = 0x18 then key.take (rsaBytes key + 4)
  else if isPub kt then key
  else
    match curveOf s kt param with
    | some c => c.enc (c.mul (beNat key) c.g)
    | none => []

/-- ECDSA with the secret of R532: n's bit length plus 64 bits drawn. -/
def ecdsaDraw (c : Curve) (d : Nat) (h : Bytes) (s : State) : Option Bytes × State :=
  let nb := Nat.log2 c.n + 1 + 64
  let r := s.draw (ceilDiv nb 8)
  let k := (beNat r.1 % 2 ^ nb) % (c.n - 1) + 1
  let len := (Nat.log2 c.n) / 8 + 1
  ((c.ecdsaSign d k h).map (fun rs => beBytes rs.1 len ++ beBytes rs.2 len), r.2)

/-- A P-384 public key verifies r ‖ s over a message's SHA-384. -/
def p384Verify (pub m sig : Bytes) : Bool :=
  match p384.dec pub with
  | some q => decide (sig.length = 96) && p384.ecdsaVerify q (sha384 m) (beNat (sig.take 48)) (beNat (sig.drop 48))
  | none => false

/-- A node. -/
def State.node (s : State) (id : Nat) : Node := Tab.look {} s.key.nodes id
/-- Set a node. -/
def State.setNode (s : State) (id : Nat) (v : Node) : State :=
  { s with key := { s.key with nodes := Tab.put {} s.key.nodes id v } }
/-- A run. -/
def State.run (s : State) (h : Nat) : KRun := Tab.look {} s.key.runs h
/-- Set a run. -/
def State.setRun (s : State) (h : Nat) (v : KRun) : State :=
  { s with key := { s.key with runs := Tab.put {} s.key.runs h v } }
/-- Zeroise and free a run (R422). -/
def freeRun (h : Nat) (s : State) : State := { s with key := { s.key with runs := Tab.drop s.key.runs h } }

/-- Continuation slots of a key (R421). -/
def nextOf (klen : Nat) : Nat := ceilDiv (klen - 32) 44

/-- First fit among runs in rising order (R422). -/
def firstFit (n lo hi : Nat) : Tab KRun → Nat → Option Nat
  | [], start => if start + n ≤ hi then some start else none
  | (h, r) :: t, start =>
    if h + 1 + r.next ≤ start ∨ h < lo then firstFit n lo hi t start
    else if hi ≤ h then (if start + n ≤ hi then some start else none)
    else if start + n ≤ h then some start
    else firstFit n lo hi t (h + 1 + r.next)

/-- Allocate a run for a key (R421, R422); the device's reserved slots for the audit key. -/
def allocRun (owner kt param role version : Nat) (key pub : Bytes) (reserved : Bool) (s : State) : Option (Nat × State) :=
  let n := 1 + nextOf key.length
  let lo := if reserved then 0xFF00 else 0
  match firstFit n lo (if reserved then 0x10000 else 0xFF00) s.key.runs lo with
  | none => none
  | some h => some (h, s.setRun h ⟨kt, n - 1, param, owner, role, version, key, pub, false, false⟩)

/-- Slots not FREE (KEY_SLOTS). -/
def slotsUsed (s : State) : Nat := s.key.runs.foldl (fun n e => n + 1 + e.2.next) 0

/-- Node record bytes 0-23 (R419). -/
def recordBytes (n : Node) : Bytes :=
  [byte (n.kind * 16 + n.state % 16), byte n.method, byte n.ktype, byte n.attr] ++ beBytes n.use_ 2 ++ [byte n.engine, byte n.ilen] ++
  beBytes n.parent 3 ++ [byte n.param] ++ beBytes n.slot 2 ++ beBytes n.version 2 ++ beBytes n.newslot 2 ++ [byte n.units, 0] ++
  beBytes n.label 4

/-- A node from record bytes. -/
def recordOf (b : Bytes) : Node :=
  let at_ (i : Nat) : Nat := (byteAt b i).toNat
  { kind := at_ 0 / 16, state := at_ 0 % 16, method := at_ 1, ktype := at_ 2, attr := at_ 3, use_ := beNat (slice b 4 2),
    engine := at_ 6, ilen := at_ 7, parent := beNat (slice b 8 3), param := at_ 11, slot := beNat (slice b 12 2),
    version := beNat (slice b 14 2), newslot := beNat (slice b 16 2), units := at_ 18, label := beNat (slice b 20 4) }

/-- The record of a node as it is read (R412, R419, R463): TAG 0; without a root every node but ROOT reads ERASED. -/
def readRecord (s : State) (id : Nat) : Bytes :=
  let n := s.node id
  let n := if id = 0 then { n with kind := 1, state := if s.key.root.isEmpty then 0 else 2 } else n
  let n := if s.key.rootSt = 5 ∧ id ≠ 0 then { n with state := 7 } else n
  recordBytes n ++ zeros 8

/-- ATTR fields. -/
def Node.vas (n : Node) : Bool := bit n.attr 7
/-- ORIGIN. -/
def Node.origin (n : Node) : Nat := bits n.attr 6 5
/-- EXPORT. -/
def Node.exportOf (n : Node) : Nat := bits n.attr 4 3
/-- CLASS: MANAGEMENT. -/
def Node.mgmt (n : Node) : Bool := bit n.attr 0
/-- Set ORIGIN. -/
def Node.setOrigin (n : Node) (o : Nat) : Node := { n with attr := setBits n.attr 6 5 o }

/-- The path from a node up to its base, the node first (R437); none where a parent is missing. -/
def pathF (s : State) : Nat → Nat → Option (List (Nat × Node))
  | 0, _ => none
  | fuel + 1, id =>
    let n := s.node id
    if n.kind = 0 then none
    else if n.kind ≠ 4 then some [(id, n)]
    else (pathF s fuel n.parent).map (fun t => (id, n) :: t)

/-- The path of a node: at most 16 nodes, since each step costs a unit (R426 rule 9). -/
def pathOf (s : State) (id : Nat) : Option (List (Nat × Node)) := pathF s 17 id

/-- The input bytes divided along a path, the base left out (R475): none where the division fails. -/
def splitInputs : List (Nat × Node) → Bytes → Bool → Option (List Bytes)
  | [], rest, _ => if rest.isEmpty then some [] else none
  | (_, n) :: t, rest, above =>
    if n.method = 2 ∨ n.method = 3 then
      if above ∨ n.ilen < rest.length then none else (splitInputs t [] true).map (fun l => rest :: l)
    else if (n.ilen ≠ 0 ∧ above) ∨ rest.length < n.ilen then none
    else
      let k := rest.length - n.ilen
      (splitInputs t (rest.take k) above).map (fun l => rest.drop k :: l)

/-- Bits of a KDF-CTR child (R429). -/
def kdfBits (kt param : Nat) : Nat :=
  match kt with
  | 1 => 128 | 2 => 192 | 3 => 256 | 4 => 128 | 5 => 192 | 8 => 8 * param
  | _ => 512

/-- ASCII hexadecimal to bytes. -/
def hexBytes : Bytes → Option Bytes
  | [] => some []
  | [_] => none
  | a :: b :: t =>
    let d (c : Byte) : Option Nat :=
      let v := c.toNat
      if 0x30 ≤ v ∧ v ≤ 0x39 then some (v - 0x30) else if 0x41 ≤ v ∧ v ≤ 0x46 then some (v - 0x37)
      else if 0x61 ≤ v ∧ v ≤ 0x66 then some (v - 0x57) else none
    match d a, d b, hexBytes t with
    | some x, some y, some r => some (byte (16 * x + y) :: r)
    | _, _, _ => none

/-- The digits X = PAN ‖ PSN of an EMV input, none where its format fails (R430). -/
def emvDigits (inp : Bytes) (param : Nat) : Option (List Nat) :=
  let ds : Option (List Nat) :=
    if bit param 0 then
      if inp.length > 11 then none
      else
        let ns := nibbles inp
        let ns := match ns with | 15 :: t => t | _ => ns
        if ns.all (fun n => decide (n ≤ 9)) then some ns else none
    else if inp.length > 21 then none else asciiDigits inp
  match ds with
  | none => none
  | some d =>
    if d.length < (if bit param 1 then 14 else 12) then none
    else some (if bit param 1 then d else d ++ [0, 0])

/-- The card key of EMV-A and EMV-B from 16 digits (R430). -/
def emvPair (parent : Bytes) (y : List Nat) : Bytes :=
  let b := fromNibbles y
  oddParity (tdesEnc parent b ++ tdesEnc parent (b.map (fun x => ~~~x)))

/-- The 16 digits of EMV-B's SHA-1 step (R431). -/
def emvHash (x : List Nat) : List Nat :=
  let h := nibbles (sha1 (fromNibbles (if x.length % 2 = 0 then x else 0 :: x)))
  ((h.filter (fun n => decide (n ≤ 9))) ++ (h.filter (fun n => decide (9 < n))).map (fun n => n - 10)).take 16

/-- The KSN of a DUKPT input of `n` bytes, hexadecimal with PARAM bit 7 (R433, R434). -/
def ksnOf (inp : Bytes) (param n : Nat) : Option Bytes :=
  if bit param 7 then (if inp.length = 2 * n then hexBytes inp else none) else if inp.length = n then some inp else none

/-- One AES DUKPT derivation of `bitsN` bits under derivation data (ANSI X9.24-3; PRESUMED, log entry 11). -/
def dukptAesStep (key : Bytes) (usage alg bitsN : Nat) (tail : Bytes) : Bytes :=
  ((List.range (ceilDiv bitsN 128)).flatMap (fun i =>
    aesEnc key ([1, byte (i + 1)] ++ beBytes usage 2 ++ beBytes alg 2 ++ beBytes bitsN 2 ++ tail))).take (bitsN / 8)

/-- The usage indicator PARAM bits [3:0] select (R433). -/
def dukptUsage (u : Nat) : Nat :=
  match u with
  | 1 => 0x1000 | 2 => 0x2000 | 3 => 0x2001 | 4 => 0x2002 | 5 => 0x3000 | 6 => 0x3001 | _ => 0x3002

/-- AES DUKPT (R433). -/
def dukptAes (parent : Bytes) (ksn : Bytes) (param childKt : Nat) : Bytes :=
  let palg := if parent.length = 16 then 2 else if parent.length = 24 then 3 else 4
  let pbits := 8 * parent.length
  let ctr := beNat (ksn.drop 8)
  let dev := slice ksn 4 4
  let init := if bit param 6 then parent else dukptAesStep parent 0x8001 palg pbits (ksn.take 8)
  let r := (List.range 32).reverse.foldl (fun (st : Bytes × Nat) i =>
    if bit ctr i then
      let w := st.2 + 2 ^ i
      (dukptAesStep st.1 0x8000 palg pbits (dev ++ beBytes w 4), w)
    else st) (init, 0)
  let calg := match childKt with | 4 => 0 | 5 => 1 | 1 => 2 | 2 => 3 | _ => 4
  let out := dukptAesStep r.1 (dukptUsage (param % 16)) calg (kdfBits childKt 0) (dev ++ beBytes ctr 4)
  if childKt = 4 ∨ childKt = 5 then oddParity out else out

/-- The variant mask C0C0C0C000000000 on both halves. -/
def dukptC0 : Bytes := (fun (h : Bytes) => h ++ h) ([0xC0, 0xC0, 0xC0, 0xC0] ++ zeros 4)

/-- The non-reversible key generation step of TDES DUKPT (ANSI X9.24-1; PRESUMED, log entry 11). -/
def dukptTdesStep (key reg : Bytes) : Bytes :=
  let half (k : Bytes) : Bytes := xorBytes (desEnc (k.take 8) (xorBytes reg (k.drop 8))) (k.drop 8)
  half (xorBytes key dukptC0) ++ half key

/-- TDES DUKPT (R434): variants for PIN, MAC verification and data decryption. -/
def dukptTdes (parent ksn : Bytes) (param : Nat) : Bytes :=
  let v := beNat ksn
  let ctr := v % 2 ^ 21
  let base := v - ctr
  let id8 := (beBytes base 10).take 8
  let ipek := if bit param 6 then parent else tdesEnc parent id8 ++ tdesEnc (xorBytes parent dukptC0) id8
  let r := (List.range 21).reverse.foldl (fun (st : Bytes × Nat) i =>
    if bit ctr i then
      let w := st.2 + 2 ^ i
      (dukptTdesStep st.1 ((beBytes (base + w) 10).drop 2), w)
    else st) (ipek, 0)
  let mask (h : Bytes) : Bytes := xorBytes r.1 (h ++ h)
  let u := param % 16
  let k := if u = 1 then mask [0, 0, 0, 0, 0, 0, 0, 0xFF]
    else if u = 3 then mask [0, 0, 0, 0, 0, 0, 0xFF, 0]
    else
      let m := mask [0, 0, 0, 0, 0, 0xFF, 0, 0]
      tdesEnc m (m.take 8) ++ tdesEnc m (m.drop 8)
  oddParity k

/-- The input format of one node of a path holds (R429-R434): check 5 of R437. -/
def inputOk (n : Node) (inp : Bytes) : Bool :=
  match n.method with
  | 2 => (emvDigits inp n.param).isSome
  | 3 => (emvDigits inp n.param).isSome
  | 4 => if bit n.param 0 then decide (inp.length = 4) && (hexBytes inp).isSome else decide (inp.length = 2)
  | 5 => (ksnOf inp n.param 12).isSome
  | 6 => (ksnOf inp n.param 10).isSome
  | _ => true

/-- The input values of one node hold (check 8 of R437): the DUKPT counters. -/
def valueOk (n : Node) (inp : Bytes) : Bool :=
  match n.method with
  | 5 => match ksnOf inp n.param 12 with
    | some k => let c := beNat (k.drop 8); decide (c ≠ 0 ∧ popCount 32 c ≤ 16)
    | none => false
  | 6 => match ksnOf inp n.param 10 with
    | some k => let c := beNat k % 2 ^ 21; decide (c ≠ 0 ∧ popCount 21 c ≤ 10)
    | none => false
  | _ => true

/-- The key of a child (R429-R434). R432 forms a TDES session key of two blocks; for a three-key parent the child of 16 bytes is what the rule gives
(DEDUCED, log entry 92). -/
def deriveChild (s : State) (parent : Bytes) (id : Nat) (n : Node) (inp : Bytes) : Bytes :=
  match n.method with
  | 1 =>
    let label := ascii "SV6400KT" ++ beBytes n.label 4 ++ [byte n.ktype] ++ beBytes n.use_ 2 ++ [byte n.engine, byte n.attr]
    let l := kdfBits n.ktype n.param
    let k := kdfCtr parent label (beBytes id 3 ++ inp) l
    if n.ktype = 4 ∨ n.ktype = 5 then oddParity k
    else if isSym n.ktype ∨ n.ktype = 8 then k
    else if n.ktype = 0x14 ∨ n.ktype = 0x16 then k.take 32
    else if n.ktype = 0x15 then k.take 57
    else
      match curveOf s n.ktype n.param with
      | some c => beBytes (scalarOf c.n k) (keyLen s n.ktype n.param)
      | none => k
  | 2 => emvPair parent ((fun x => List.replicate (16 - x.length) 0 ++ x.drop (x.length - 16)) ((emvDigits inp n.param).getD []))
  | 3 =>
    let x := (emvDigits inp n.param).getD []
    if x.length > 16 then emvPair parent (emvHash x) else emvPair parent (List.replicate (16 - x.length) 0 ++ x)
  | 4 =>
    let atc := if bit n.param 0 then (hexBytes inp).getD [] else inp
    if n.ktype = 4 ∨ n.ktype = 5 then
      oddParity (tdesEnc parent (atc ++ [0xF0] ++ zeros 5) ++ tdesEnc parent (atc ++ [0x0F] ++ zeros 5))
    else if n.ktype = 1 then aesEnc parent (atc ++ zeros 14)
    else (aesEnc parent (atc ++ [0xF0] ++ zeros 13) ++ aesEnc parent (atc ++ [0x0F] ++ zeros 13)).take parent.length
  | 5 => dukptAes parent ((ksnOf inp n.param 12).getD []) n.param n.ktype
  | 6 => dukptTdes parent ((ksnOf inp n.param 10).getD []) n.param
  | _ => parent

/-- Units of one derived step for an input, or the worst over all inputs (R435). -/
def stepUnits (n : Node) (inp : Option Bytes) : Nat :=
  match n.method with
  | 1 => if kdfBits n.ktype n.param ≤ 256 then 1 else 2
  | 3 =>
    let xl : Nat := match inp with
      | some i => ((emvDigits i n.param).getD []).length
      | none => (if bit n.param 0 then 2 * n.ilen else n.ilen) + (if bit n.param 1 then 0 else 2)
    if xl > 16 then 2 else 1
  | 5 =>
    match inp with
    | some i => ceilDiv (popCount 32 (beNat (((ksnOf i n.param 12).getD []).drop 8)) + 1 + b2n (! bit n.param 6)) 4
    | none => 5
  | 6 =>
    match inp with
    | some i => ceilDiv (popCount 21 (beNat ((ksnOf i n.param 10).getD []) % 2 ^ 21) + 1 + b2n (! bit n.param 6)) 2
    | none => 6
  | _ => 1

/-- The key length of a base node: its run's or its type's. -/
def baseLen (s : State) (id : Nat) (n : Node) : Nat :=
  if n.kind = 2 then
    (match Tab.look [] s.key.anchors (id - 1) with | [] => keyLen s n.ktype n.param | k => k.length)
  else if (s.run n.slot).key.isEmpty then keyLen s n.ktype n.param else (s.run n.slot).key.length

/-- Units of a delivery along a path (R435), or the worst case over inputs. -/
def pathUnits (s : State) (path : List (Nat × Node)) (pieces : Option (List Bytes)) : Nat :=
  match path with
  | [(id, n)] => 1 + ceilDiv (nextOf (baseLen s id n)) 16
  | _ =>
    let d := path.dropLast
    match pieces with
    | some ps => (d.zip ps).foldl (fun a e => a + stepUnits e.1.2 (some e.2)) 0
    | none => d.foldl (fun a e => a + stepUnits e.2 none) 0

/-- The stored key of a base node. -/
def baseKey (s : State) (id : Nat) (n : Node) : Bytes :=
  if n.kind = 2 then Tab.look [] s.key.anchors (id - 1) else (s.run n.slot).key

/-- The key at the end of a path (R429 ff.). -/
def pathKey (s : State) : List (Nat × Node) → List Bytes → Bytes
  | [], _ => []
  | [(id, n)], _ => baseKey s id n
  | (id, n) :: t, p :: ps => deriveChild s (pathKey s t ps) id n p
  | (id, n) :: t, [] => deriveChild s (pathKey s t []) id n []

/-- Order a coherence scan for a changed node (R440): the node's own removal at once. -/
def startScan (id : Nat) (s : State) : State :=
  let s := { s with key := { s.key with scans := s.key.scans ++ [({ node := id, front := [id], marked := [id], start := s.dt } : Scan)], removals := s.key.removals ++ [id] } }
  s.bump 0xB500 0x0A

/-- A node becomes UNUSABLE (R424, R425, R468): its run too; a staged replacement is discarded and its STAGE fails with CODE 0x0006 (the code is
the model's, log entry 92); the change is logged. -/
def nodeUnusable (id src data : Nat) (s : State) : State :=
  let n := s.node id
  let r := Tab.look {} s.key.repl id
  let s := (s.bump 0xB500 5)
  let s := if r.has then freeRun r.head s else s
  let s := { s with key := { s.key with repl := Tab.drop s.key.repl id } }
  let s := match r.stageOp with | some k => failSlot k 6 s | none => s
  let s := s.setNode id { n with state := 6, newslot := 0 }
  let s := if n.kind = 3 then s.setRun n.slot { s.run n.slot with ust := true } else s
  let s := if n.kind = 2 then { s with key := { s.key with anchorSt := Tab.put 0 s.key.anchorSt (id - 1) 3 } } else s
  startScan id (logEvent 0x13 src 0 data s)

/-- What a delivery gives (R437): 0 and the key, or the status of its refusal. -/
structure Deliv where
  status : Nat
  key : Bytes := []
  ktype : Nat := 0
  param : Nat := 0
  use_ : Nat := 0
  eng : Nat := 0
  vas : Bool := false
  units : Nat := 0
  st : State

/-- The destinations of R427: 0 a quad, 1 a PK engine, 2 the key die's own use of a MANAGEMENT key. -/
def destOk (n : Node) (dest : Nat) : Bool :=
  if n.mgmt then decide (dest = 2)
  else (decide (dest = 0) && decide (n.engine &&& 7 ≠ 0)) || (decide (dest = 1) && bit n.engine 3)

/-- The checks of a delivery in their order, and the key (R424, R425, R437, R439). -/
def deliver (id : Nat) (input : Bytes) (du dest : Nat) (s : State) : Deliv :=
  let no (st : Nat) (s : State) : Deliv := { status := st, st := s }
  let n := s.node id
  if n.kind = 0 ∨ n.kind = 1 then no tKEY_UNAVAILABLE s
  else if s.key.rootSt = 5 ∨ s.key.root.isEmpty then no tKEY_UNAVAILABLE s
  else
    match pathOf s id with
    | none => no tKEY_UNAVAILABLE s
    | some path =>
      let bads := path.filter (fun e => e.2.bad && decide (e.2.state ≠ 6))
      if ¬ bads.isEmpty then
        no tKEY_INTEGRITY (bads.foldl (fun s e => nodeUnusable e.1 (if e.2.kind = 2 then 3 else 2) e.1 s) s)
      else if path.any (fun e => decide (e.2.state = 6)) then no tKEY_INTEGRITY s
      else if path.any (fun e => decide (e.2.state = 1 ∨ e.2.state = 7 ∨ e.2.state = 0)) then no tKEY_UNAVAILABLE s
      else
        let d := path.dropLast
        let pieces := if d.isEmpty then (if input.isEmpty then some [] else none) else splitInputs d input false
        match pieces with
        | none => no tKEY_UNAVAILABLE s
        | some ps =>
          if ¬ (d.zip ps).all (fun e => inputOk e.1.2 e.2) then no tKEY_UNAVAILABLE s
          else if ¬ destOk n dest then no tPOLICY s
          else
            let u := pathUnits s path (some ps)
            if u > du then no tKEY_UNAVAILABLE s
            else if ¬ (d.zip ps).all (fun e => valueOk e.1.2 e.2) then no tKEY_UNAVAILABLE s
            else
              match path.getLast? with
              | none => no tKEY_UNAVAILABLE s
              | some (bid, b) =>
                if b.kind = 3 ∧ (s.run b.slot).bad then no tKEY_INTEGRITY (nodeUnusable bid 1 b.slot s)
                else
                  { status := 0, key := pathKey s path ps, ktype := n.ktype, param := n.param, use_ := n.use_, eng := n.engine,
                    vas := n.vas, units := u, st := s }

/-- The delivery a pipeline starts next. -/
def nextDeliv (s : State) (pipe : Nat) : Option Delivery :=
  (s.key.delivs.filter (fun d => decide (d.pipe = pipe))).foldl (fun b d => match b with
    | none => some d
    | some x => if d.due < x.due then some d else b) none

/-- A pipeline makes a delivery (R437-R439): the key, or its refusal, goes out on the sealed key bus; its units end 40 KCLK each after
its start (R435). -/
def runDelivery (pipe : Nat) (v : Delivery) (s : State) : State :=
  let s := { (s.at v.due) with key := { s.key with delivs := s.key.delivs.filter (fun d => decide (d ≠ v)) } }
  let r := deliver v.node v.input v.du (if v.quad.isSome then 0 else 1) s
  let m : BusMsg := ⟨v.ready, v.die, v.quad, v.idx, v.job, v.node, v.input, r.status, r.key, r.ktype, r.param, r.use_, r.eng, r.vas⟩
  let s := { r.st with key := { r.st.key with bus := r.st.key.bus ++ [m],
                                               drvEnd := Tab.put 0 r.st.key.drvEnd pipe (v.due + 40 * r.units),
                                               drvUnits := Tab.put 0 r.st.key.drvUnits pipe ((Tab.look 0 r.st.key.drvUnits pipe + r.units) % 2 ^ 32) } }
  if r.status = 0 then s.bump 0xB500 1
  else if r.status = tKEY_UNAVAILABLE then s.bump 0xB500 2
  else if r.status = tKEY_INTEGRITY then s.bump 0xB500 3
  else s.bump 0xB500 4

/-- Deliveries whose start is before now, earliest first. -/
def pastDelivs : Nat → State → State
  | 0, s => s
  | fuel + 1, s =>
    match (s.key.delivs.filter (fun d => decide (d.due < s.dt))).foldl (fun b d => match b with
      | none => some d
      | some x => if d.due < x.due then some d else b) (none : Option Delivery) with
    | none => s
    | some v => pastDelivs fuel (runDelivery v.pipe v s)

/-- Before a change of a key commits, every delivery that started before it has read what stood then (R439). -/
def settleDelivs (s : State) : State := pastDelivs s.key.delivs.length s

/-- AWK and AIK (R414). -/
def anchorKeys (s : State) : Bytes × Bytes := (s.key.ak.take 32, s.key.ak.drop 32)

/-- An anchor record (R416), sealed. -/
def anchorRecord (s : State) (a : Nat) (n : Node) (key : Bytes) (commit : Bool) : Bytes :=
  let (awk, aik) := anchorKeys s
  let head := beBytes 0x5356414E 4 ++ [1, byte (b2n commit), byte a, byte n.ktype] ++ beBytes n.version 2 ++ beBytes n.use_ 2 ++
    [byte n.engine, byte n.attr, byte n.param, 0] ++ beBytes s.key.saltGen 4 ++ [byte s.power.lcs.code, 0, 0, 0]
  let wlen := 8 * ceilDiv (16 + key.length) 8 + 8
  let head := head ++ beBytes wlen 2 ++ zeros 6
  let d16 := (sha384 head).take 16
  let body := fit (head ++ kwpWrap awk (d16 ++ key)) 240
  body ++ aesCmac aik (byte a :: body)

/-- The page of an anchor copy. -/
abbrev anchorPage (a c : Nat) : Nat := 0x100 + 2 * a + c

/-- An anchor copy is intact (R417): MAGIC, VER and page ECC. -/
def anchorIntact (s : State) (a c : Nat) : Bool :=
  pageIntact s (anchorPage a c) && decide (pageRead s (anchorPage a c) 0 5 = beBytes 0x5356414E 4 ++ [1])

/-- The copy the per-datum rule chooses (R781 class 3). -/
def anchorChoice (s : State) (a : Nat) : Option Nat :=
  let v (c : Nat) : Nat := beNat (pageRead s (anchorPage a c) 8 2)
  let cm (c : Nat) : Bool := bit (byteAt (pageRead s (anchorPage a c) 5 1) 0).toNat 0
  match anchorIntact s a 0, anchorIntact s a 1 with
  | true, true =>
    if v 0 = v 1 then some 0
    else if serialNewer 16 (v 0) (v 1) then some (if cm 0 then 0 else 1) else some (if cm 1 then 1 else 0)
  | true, false => some 0
  | false, true => some 1
  | false, false => none

/-- Write an anchor copy: 0, or a programming failure. -/
def writeAnchor (a c : Nat) (rec : Bytes) (s : State) : Nat × State := programPage (anchorPage a c) 0 rec 0 s

/-- Restore one anchor (R417, R781 class 3): a damaged copy is logged; its node and register, ACTIVE 2, UNUSABLE 6, ERASED 7. -/
def restoreAnchor (a : Nat) (s : State) : State :=
  let blank (c : Nat) : Bool := pageIntact s (anchorPage a c) && (pageRead s (anchorPage a c) 0 256).all (fun b => decide (b = 0))
  let setSt (v : Nat) (s : State) : State := { s with key := { s.key with anchorSt := Tab.put 0 s.key.anchorSt a v } }
  match anchorChoice s a with
  | none =>
    if blank 0 ∧ blank 1 then s else setSt 3 (s.setNode (1 + a) { kind := 2, state := 6, slot := a })
  | some c =>
    let s := if anchorIntact s a (1 - c) || pageBlank s (anchorPage a (1 - c)) then s else logEvent 0x19 3 0 a s
    let r := pageRead s (anchorPage a c) 0 256
    let n : Node := { kind := 2, ktype := (byteAt r 7).toNat, version := beNat (slice r 8 2), use_ := beNat (slice r 10 2),
                      engine := (byteAt r 12).toNat, attr := (byteAt r 13).toNat, param := (byteAt r 14).toNat, slot := a }
    if beNat (slice r 16 4) ≠ s.key.saltGen ∨ (byteAt r 20).toNat ≠ s.power.lcs.code then setSt 2 (s.setNode (1 + a) { n with state := 7 })
    else
      let (awk, aik) := anchorKeys s
      let wl := beNat (slice r 24 2)
      let bad := setSt 3 (s.setNode (1 + a) { n with state := 6 })
      if aesCmac aik (byte a :: r.take 240) ≠ r.drop 240 then bad
      else
        match kwpUnwrap awk (slice r 32 wl) with
        | none => bad
        | some m =>
          if m.take 16 ≠ (sha384 (r.take 32)).take 16 then bad
          else
            let key := m.drop 16
            let n := { n with state := 2, units := 1 + ceilDiv (nextOf key.length) 16 }
            let s := { s with key := { s.key with anchors := Tab.put [] s.key.anchors a key } }
            setSt 1 (s.setNode (1 + a) n)

/-- Place an anchor's key: both copies and its register (R416, R450). -/
def putAnchor (a : Nat) (n : Node) (key : Bytes) (s : State) : Nat × State :=
  let rec_ := anchorRecord s a n key true
  let r0 := writeAnchor a 0 rec_ s
  if r0.1 ≠ 0 then (0x0006, s)
  else
    let r1 := writeAnchor a 1 rec_ r0.2
    if r1.1 ≠ 0 then (0x0006, s)
    else
      let s := { r1.2 with key := { r1.2.key with anchors := Tab.put [] r1.2.key.anchors a key,
                                                  anchorSt := Tab.put 0 r1.2.key.anchorSt a 1 } }
      (0, s.setNode (1 + a) { n with state := 2, slot := a })

/-- A ROM key: table `t`, `n` bytes (log entry 2). -/
def romKey (t n : Nat) : Bytes := (List.range n).map (Config.romByte t)

/-- The test image key's scalar (R459). -/
def testImageScalar : Nat := scalarOf p384.n (kdfCtr testRoot (ascii "SV6400 IMAGE") [] 512)

/-- The image key in force (R459): 97 bytes SEC1, empty in RETIRED and where anchor 0 does not hold one. -/
def imageKey (s : State) : Bytes :=
  match s.power.lcs with
  | .blank => p384.enc (p384.mul testImageScalar p384.g)
  | .vendor => romKey 2 97
  | .owned => if (s.node 1).state = 2 then Tab.look [] s.key.anchors 0 else []
  | .fa => romKey 3 97
  | .retired => []

end Sys2Proof.Machine
end

