-- ==== Sys2Proof/Machine/UnitQ.lean ====
section
/-!
DEFINITION. What the other blocks ask of the lanes, quads, engines and ports: idle conditions, units in service, the rated
figures (R225), and the loss of contents with a domain (R704).
-/
namespace Sys2Proof.Machine

/-- The four lanes of a quad. -/
def quadLanes (q : Nat) : List Nat := (List.range 4).map (fun i => 4 * q + i)
/-- The twelve engines of a die. -/
def dieEngines (d : Nat) : List Nat := (List.range 12).map (fun i => 12 * d + i)
/-- The 32 lanes of a die. -/
def dieLanes (d : Nat) : List Nat := (List.range 32).map (fun i => 32 * d + i)
/-- The eight quads of a die. -/
def dieQuads (d : Nat) : List Nat := (List.range 8).map (fun i => 8 * d + i)

/-- A PK engine. -/
def State.eng (s : State) (e : Nat) : PkEng := Tab.look {} s.pk.engs e
/-- Set a PK engine. -/
def State.setEng (s : State) (e : Nat) (v : PkEng) : State := { s with pk := { s.pk with engs := Tab.put {} s.pk.engs e v } }
/-- A die's background interface. -/
def State.bg (s : State) (d : Nat) : PkBg := Tab.look {} s.pk.bgs d
/-- Set a die's background interface. -/
def State.setBg (s : State) (d : Nat) (v : PkBg) : State := { s with pk := { s.pk with bgs := Tab.put {} s.pk.bgs d v } }

/-- A state of the cluster unit `u` of a quad: 0 in service, 1 claimed or under test, 2 fenced. -/
def Quad.unit (q : Quad) (u : Nat) : Nat := Tab.look 0 q.units u

/-- Some lane of a quad is claimed for self-test or under test. -/
def quadLaneClaimed (s : State) (q : Nat) : Bool := (quadLanes q).any (fun l => (s.lane l).claimed)

/-- A unit of a quad is claimed or under test (R718, R719). -/
def quadTested (s : State) (q : Nat) : Bool := (s.quad q).claim.isSome || quadLaneClaimed s q

/-- The four queues of a quad are empty. -/
def quadQueuesEmpty (s : State) (q : Nat) : Bool := (quadLanes q).all (fun l => (s.lane l).queue.isEmpty)

/-- A job is committed to a quad, or a pin is held (R719). -/
def quadBusyDispatch (s : State) (q : Nat) : Bool :=
  ! quadQueuesEmpty s q || (s.quad q).cache.any (fun e => decide (e.2.pins ≠ 0))

/-- The idle-timer condition of a quad (R718). -/
def quadIdle (s : State) (q : Nat) : Bool :=
  ! quadBusyDispatch s q && ! quadTested s q && (quadLanes q).all (fun l => decide ((s.lane l).bankA ≠ 1 ∧ (s.lane l).bankB ≠ 1))

/-- A die's engines hold a job (R718, R719). -/
def pkBusyDispatch (s : State) (d : Nat) : Bool := (dieEngines d).any (fun e => ! (s.eng e).jobs.isEmpty)

/-- An engine of a die is claimed or under test. -/
def pkTested (s : State) (d : Nat) : Bool := (dieEngines d).any (fun e => decide ((s.eng e).claim ≠ 0))

/-- The idle-timer condition of PD09 and PD10 (R718). -/
def pkDieIdle (s : State) (d : Nat) : Bool := ! pkBusyDispatch s d && ! pkTested s d

/-- An engine holds no job (R762). -/
def pkUnitIdle (s : State) (e : Nat) : Bool := (s.eng e).jobs.isEmpty

/-- A load phase is in progress (R218). -/
def loadPhase (s : State) : Bool := decide (s.unit.epoch.st = .loading)

/-- A configuration change is not terminal (R218, R221). -/
def changeOpen (s : State) : Bool := decide (s.unit.epoch.st ≠ .idle)

/-- A change is asked for and not yet terminal (R221): its load or flip is to come, an entry ceremony runs for it, or a ceremony is being abandoned for
it. -/
def changePending (s : State) : Bool := changeOpen s || s.power.modeTarget.isSome || s.grp.cer.leave.isSome

/-- A descriptor is in a dispatcher, or a port's outstanding list is not empty (R719). -/
def anyDescriptor (s : State) : Bool :=
  s.unit.disps.any (fun d => ! d.2.arrivals.isEmpty) || s.port.srcs.any (fun p => ! p.2.outst.isEmpty)

/-- Some port's TCP state is other than CLOSED or LISTEN (R719). -/
def anyTcpOpen (s : State) : Bool := s.port.srcs.any (fun p => decide (p.2.tcp.st ≥ 2))

/-- The PCIe link is up (R719). -/
def hostLinkUp (s : State) : Bool := decide (s.port.link ≠ 0)

/-- Some mirror link is not DOWN (R719). -/
def anyMirrorUp (s : State) : Bool := s.grp.links.any (fun l => decide (l.2.st ≠ 0))

/-- A transaction port is idle (R762): nothing received is undecided, nothing outstanding, nothing waits to be sent. -/
def portIdle (s : State) (p : Nat) : Bool :=
  let r := s.src p
  r.line.isEmpty && r.outst.isEmpty && r.cur.isNone && r.byp.isEmpty && r.selfQ.isEmpty && r.laneQ.isEmpty && r.tcp.sendQ.isEmpty

/-- A lane counts as in service: not fenced, or being substituted (R225, R293). Units claimed for self-test count. -/
def laneInService (s : State) (l : Nat) : Bool := decide ((s.lane l).cause = 0) || (s.lane l).subst

/-- An engine is in service. -/
def engInService (s : State) (e : Nat) : Bool := decide ((s.eng e).cause = 0)

/-- A unit that SERVICE would use is fenced with no spare in its place (R724). -/
def unitsImpaired (s : State) : Bool :=
  s.unit.lanes.any (fun e => decide (e.1 < 64 ∧ e.2.cause ≠ 0) && ! e.2.subst) ||
  s.unit.quads.any (fun e => decide (e.2.cause ≠ 0) || e.2.units.any (fun u => decide (u.2 = 2))) ||
  s.pk.engs.any (fun e => decide (e.2.cause ≠ 0))

/-- The rated figures of R225, in the order of 1020:01-0A. -/
def ratedFigures (s : State) : List Nat :=
  let n (d : Nat) := ((dieLanes d).filter (laneInService s)).length
  let quads := (List.range 16).filter (fun q => decide ((s.quad q).cause = 0))
  let pin := (quads.filter (fun q => decide ((s.quad q).unit 3 ≠ 2) && (quadLanes q).any (laneInService s))).length
  let e := ((List.range 24).filter (engInService s)).length
  [2000000 * n 0 / 32 + 2000000 * n 1 / 32, 10000000 * pin / 16, 190000 * e / 24, 24000 * e / 24, 720000 * e / 24,
   380000 * e / 24, 900000 * e / 24, n 0 + n 1, quads.length, e]

/-- The units out of service, by number (R225): lanes, quads, cluster units, engines. -/
def outUnits (s : State) : List (Nat × Nat) :=
  (s.unit.lanes.filter (fun e => decide (e.1 < 64) && ! (decide (e.2.cause = 0) || e.2.subst))).map (fun e => (0, e.1)) ++
  (s.unit.quads.filter (fun e => decide (e.2.cause ≠ 0))).map (fun e => (1, e.1)) ++
  s.unit.quads.flatMap (fun e => (e.2.units.filter (fun u => decide (u.2 = 2))).map (fun u => (2, 5 * e.1 + u.1))) ++
  (s.pk.engs.filter (fun e => decide (e.2.cause ≠ 0))).map (fun e => (3, e.1))

/-- Recompute 1020:01-0A and write 1020:0B where the set of units in service has changed (R109, R225). -/
def recomputeRated (s : State) : State :=
  let f := ratedFigures s
  let o := outUnits s
  if s.unit.outs = o ∧ (List.range 10).all (fun i => decide (s.num 0x1020 (i + 1) = f.getD i 0)) then s
  else
    let s := ((List.range 10).foldl (fun s i => s.setNum 0x1020 (i + 1) (f.getD i 0)) s).setNum 0x1020 0x0B s.dt
    { s with unit := { s.unit with outs := o } }

/-- A quad's derived-key cache loses every entry but those admission has booked on it since (R282). -/
def emptyCache (q : Nat) (s : State) : State :=
  let v := s.quad q
  s.setQuad q { v with cache := v.cache.filter (fun e => decide (e.2.pins ≠ 0 ∧ e.2.st = .filling)) }

/-- A die's engines lose their clock and generators (R704, R536). Jobs committed meanwhile are the dispatcher's and wait for the domain (R198), or
are re-placed when it is fenced (R567); their keys arrive over the sealed bus. -/
def zeroisePkDie (d : Nat) (s : State) : State :=
  (dieEngines d).foldl (fun s e => s.setEng e { s.eng e with run := none, seeded := false }) s

/-- The LN_ block of a lane loses its power (R704): timers, mailboxes and the records of runs and traps. Fences and banks stay: the
supervisor restores them. -/
def Lane.lnLost (v : Lane) : Lane :=
  let w : Lane := { v with tmr := [], pend := 0, ovf := 0, carried := 0, inFull := false, outFull := false, mbxi := [], mbxo := [] }
  { w with cyc := 0, budget := 0, cycmax := 0, ovr := 0, trap := 0, trapAddr := 0, loadsel := false }

/-- What a domain holds and does not keep is lost (R704): quads keep their lane memories (R267). -/
def loseDomain (d : Nat) (s : State) : State :=
  if 11 ≤ d ∧ d ≤ 26 then
    let s := emptyCache (d - 11) s
    s.setQuad (d - 11) { s.quad (d - 11) with sgen := 0 }
  else if d = 9 ∨ d = 10 then zeroisePkDie (d - 9) s
  else if d = 7 ∨ d = 8 then
    let k := d - 7
    let s := { s with unit := { s.unit with shared := Tab.put [] s.unit.shared k [] } }
    let s := (dieLanes k ++ [64 + 2 * k, 65 + 2 * k]).foldl (fun s l => s.setLane l (s.lane l).lnLost) s
    let s := s.setAud k { s.aud k with pendMax := 0, fifoMax := 0 }
    s.setDisp k { cur := (s.disp k).cur, prev := (s.disp k).prev }
  else if d = 27 ∨ d = 28 then
    [2 * (d - 27), 2 * (d - 27) + 1].foldl (fun s k =>
      if (s.spare k).st = 3 then s else s.setLane (64 + k) { s.lane (64 + k) with mem := [] }) s
  else if d = 6 then
    -- R705: PD01 holds the card contacts deactivated; only the presence contacts are seen
    { s with grp := { s.grp with cards := s.grp.cards.map (fun c => (c.1, ({ pres := c.2.pres } : Card))) } }
  else if d = 31 then { s with grp := { s.grp with links := [] } }
  else s

end Sys2Proof.Machine
end

