-- ==== Sys2Proof/Machine/PkOps.lean ====
section
/-!
DEFINITION. The shared operations of the public-key engines: work figures (R533), the processor-demand test (R203) with the
audit reservation (R215), the job set, and running jobs in deadline order (R525).
-/
namespace Sys2Proof.Machine

/-- The yield interval of every PKOP (R526). -/
abbrev pkY : Nat := 2000

/-- Work of the RSA private operations by size code (R533). -/
def rsaPrivWork : Nat → Nat
  | 0 => 114000 | 1 => 372000 | 2 => 900000 | 3 => 1740000 | 4 => 3000000 | 5 => 4740000 | _ => 7100000
/-- Work of the RSA public operations by size code (R533). -/
def rsaPubWork : Nat → Nat
  | 0 => 9000 | 1 => 19000 | 2 => 33000 | 3 => 51000 | 4 => 73000 | 5 => 99000 | _ => 129000

/-- The index of an ECC curve code in a row of the work table: P-256, P-384, P-521, loaded (R529). -/
def eccIdx (c : Nat) : Option Nat := if 1 ≤ c ∧ c ≤ 3 then some (c - 1) else if 0x10 ≤ c ∧ c ≤ 0x1F then some 3 else none

/-- PKW and VASW of a PKOP (R533); none where the code is none of R529, or has no bound. -/
def pkWork (pkop : Nat) : Option (Nat × Nat) :=
  let op := pkop / 256
  let c := pkop % 256
  let ecc (w v : List Nat) : Option (Nat × Nat) := (eccIdx c).map (fun i => (w.getD i 0, v.getD i 0))
  if 1 ≤ op ∧ op ≤ 3 then (if c ≤ 6 then some (rsaPrivWork c, rsaPubWork c) else none)
  else if op = 4 then (if c ≤ 6 then some (rsaPubWork c, 0) else none)
  else if op = 5 ∨ op = 6 then (if c ≤ 5 then some (rsaPubWork c, 0) else none)
  else if op = 0x10 then ecc [30000, 68000, 150000, 190000] [85000, 192000, 427000, 540000]
  else if op = 0x11 then ecc [57000, 128000, 285000, 360000] []
  else if op = 0x12 then (if c = 0x23 then some (22000, 0) else ecc [29000, 65000, 143000, 181000] [])
  else if op = 0x13 then
    (if c = 0x21 ∨ c = 0x23 then some (22000, 0) else if c = 0x22 then some (66000, 0)
     else ecc [28000, 64000, 142000, 180000] [])
  else if op = 0x20 then (if c = 0x21 then some (24000, 74000) else if c = 0x22 then some (72000, 216000) else none)
  else if op = 0x21 then (if c = 0x21 then some (52000, 0) else if c = 0x22 then some (150000, 0) else none)
  else none

/-- A PKOP a lane may submit (R529, the Lane column). -/
def pkLaneOp (pkop : Nat) : Bool := (pkWork pkop).isSome && ! [0x12, 0x13].contains (pkop / 256)

/-- A PKOP that signs, or decrypts, for which verify-after-sign can be booked (R533: a VASW is given). -/
def pkSigns (pkop : Nat) : Bool := [1, 2, 3, 0x10, 0x20].contains (pkop / 256)

/-- The PKOP by which the audit key of an algorithm signs (R559). -/
def audPkop : Nat → Nat
  | 1 => 0x1001 | 2 => 0x1002 | _ => 0x2021

/-- The audit signing work of an algorithm (R559). -/
def audWork (alg : Nat) : Nat := ((pkWork (audPkop alg)).getD (0, 0)).1

/-- The audit engine of a die (R215): PK11 or PK23, or the highest-numbered engine in service. -/
def audEngine (s : State) (d : Nat) : Option Nat := (dieEngines d).reverse.find? (engInService s)

/-- The audit interval of a die's chain in ns. -/
def audI (s : State) (d : Nat) : Nat := us (s.aud d).interval

/-- The domains a chain needs (R263): PD07 or PD08 and the die's PK domain not off, in sleep entry or retention. -/
def audDomains (s : State) (d : Nat) : Bool :=
  let off (k : Nat) : Bool := [DomState.off, .entry, .down, .ret].contains (s.dom k).st
  ! off (7 + d) && ! off (9 + d)

/-- The reserved audit signing jobs of an engine up to a horizon (R215): release, deadline, work, yield interval. -/
def audReserve (s : State) (e horizon : Nat) : List (Nat × Nat × Nat × Nat) :=
  let d := e / 12
  let i := audI s d
  if audEngine s d ≠ some e ∨ ¬ (s.aud d).run ∨ i = 0 then []
  else
    let b0 := (s.dt / i + 1) * i
    let n := if horizon ≤ b0 then 0 else (horizon - b0 - 1) / i + 1
    (List.range n).map (fun k =>
      let b := b0 + k * i
      (b, b + us (s.cfg 0x3002 1), audWork (s.aud d).alg, pkY))

/-- The processor-demand test of R203 over (release, deadline, remaining work, yield interval). -/
def demandOk (js : List (Nat × Nat × Nat × Nat)) : Bool :=
  js.all (fun b =>
    let t2 := b.2.1
    let y := js.foldl (fun m j => if j.2.1 > t2 then Nat.max m j.2.2.2 else m) 0
    js.all (fun a =>
      let t1 := a.1
      if t1 < t2 then
        let w := js.foldl (fun n j => if j.1 ≥ t1 ∧ j.2.1 ≤ t2 then n + j.2.2.1 else n) 0
        decide (y + w ≤ t2 - t1)
      else true))

/-- A deadline later than every other (R527). -/
abbrev farDl : Nat := 2 ^ 64

/-- The work a job of an engine has left at an instant. -/
def PkEng.left (v : PkEng) (j : PkJob) (t : Nat) : Nat := if v.run = some j.seq then j.rem - (t - v.runAt) else j.rem

/-- The demand of an engine's job set at T_a (R203, R527). -/
def pkDemand (s : State) (e ta : Nat) : List (Nat × Nat × Nat × Nat) :=
  let v := s.eng e
  v.jobs.map (fun j =>
    if j.kind = 3 then (ta, farDl, 0, pkY)
    else (if j.rls.isSome then Nat.max ta j.rel else j.rel, j.dl, v.left j ta, pkY))

/-- Committed lane jobs of an engine (R524). -/
def PkEng.committed (v : PkEng) : Nat := (v.jobs.filter (fun j => decide (j.kind ≤ 1))).length

/-- An engine is usable by the test at T_a (R203, R206, R207): a claim of the same LCLK comes after the admission. -/
def engUsable (s : State) (e ta : Nat) (inc : Bool) : Bool :=
  let v := s.eng e
  decide (v.cause = 0) && (inc || decide (v.claim = 0) || decide (ta ≤ v.claimAt)) && decide (v.committed < 32)

/-- The PK test of R203 for engine `e` with a new job: release, deadline, work. -/
def pkFits (s : State) (e : Nat) (inc : Bool) (ta rel dl work : Nat) : Bool :=
  engUsable s e ta inc &&
  (let js := pkDemand s e ta ++ [(rel, dl, work, pkY)]
   let h := js.foldl (fun m j => if j.2.1 < farDl then Nat.max m j.2.1 else m) 0
   demandOk (js ++ audReserve s e h))

/-- Add a job to an engine; its number orders it (R525). -/
def pkAdd (e : Nat) (j : PkJob) (s : State) : State :=
  let n := s.pk.seq
  let s := { s with pk := { s.pk with seq := n + 1 } }
  s.setEng e { s.eng e with jobs := (s.eng e).jobs ++ [{ j with seq := n }] }

/-- Replace a job of an engine, by its number. -/
def pkSet (e : Nat) (j : PkJob) (s : State) : State :=
  s.setEng e { s.eng e with jobs := (s.eng e).jobs.map (fun x => if x.seq = j.seq then j else x) }

/-- Find a job of an engine. -/
def pkFind (s : State) (e : Nat) (p : PkJob → Bool) : Option PkJob := (s.eng e).jobs.find? p

/-- The lane job of an admitted job on an engine: kind 0 the operation, 1 its booked verification. -/
def pkOf (s : State) (e kind ref : Nat) : Option PkJob := pkFind s e (fun j => decide (j.kind = kind ∧ j.ref = ref))

/-- The order of R525: earlier deadline, the audit job, earlier admission, the background job last. -/
def pkBefore (a b : PkJob) : Bool :=
  let k (j : PkJob) := if j.kind = 3 then 2 else if j.kind = 2 then 0 else 1
  let dl (j : PkJob) := if j.kind = 3 then farDl else j.dl
  decide (dl a < dl b) || (decide (dl a = dl b) && (decide (k a < k b) || (decide (k a = k b) && decide (a.seq < b.seq))))

/-- The released job an engine would run (R525): released in or before the PCLK of `t`. -/
def pkBest (v : PkEng) (t : Nat) : Option PkJob :=
  (v.jobs.filter (fun j => match j.rls with | some r => decide (r ≤ t) | none => false)).foldl
    (fun b j => match b with | none => some j | some x => if pkBefore j x then some j else b) none

/-- The fabric address of a frame window offset (R538). -/
def frameAddr (lane slot o : Nat) : Nat :=
  let d := lane / 32
  let n := lane % 32
  d * 2 ^ 32 + (if o < 0x800 then 0x01000000 + n / 4 * 0x40000 + n % 4 * 0x10000 + slot * 0x800 + o
                else 0x02000000 + (n * 32 + slot) * 0x1800 + (o - 0x800))

/-- The pieces of a frame window range: cut at offset 0x0800, then at granules (R538, R539). -/
def framePieces (lane slot o n : Nat) : List (Nat × Nat) :=
  let n1 := if o < 0x800 then Nat.min n (0x800 - o) else 0
  dmaPieces 40 (frameAddr lane slot o) n1 ++ dmaPieces 40 (frameAddr lane slot (o + n1)) (n - n1)

/-- The KTYPEs and USE bits a PKOP needs (R529, R531): DEC, SIGN, VERIFY, VERIFY or ENC, AGREE. -/
def pkKeyFits (s : State) (pkop : Nat) (k : PkKey) (jobEpoch : Nat) : Bool :=
  let op := pkop / 256
  let c := pkop % 256
  let kt := k.ktype
  let ecc (b : Nat) : Bool :=
    if 1 ≤ c ∧ c ≤ 3 then decide (kt = b + c - 1)
    else decide (kt = b + 3 ∧ 0x10 ≤ c ∧ c ≤ 0x1F ∧ k.param = c - 0x10) &&
      (match epochCfg s jobEpoch with
       | some e => ! (Tab.look [] e.curves (c - 0x10)).isEmpty
       | none => ! (s.curveRec (c - 0x10)).isEmpty)
  let use (b : Nat) : Bool := bit k.use_ b
  if 1 ≤ op ∧ op ≤ 3 then decide (kt = 0x18 ∧ rsaBytes k.key = 256 + 128 * c) && use (if op = 1 then 1 else 8)
  else if op = 4 then decide (kt = 0x28 ∧ k.key.length = 260 + 128 * c) && (use 9 || use 0)
  else if op = 5 ∨ op = 6 then decide (kt = 0x28 ∧ k.key.length = 260 + 128 * c) && use 9
  else if op = 0x10 then ecc 0x10 && use 8
  else if op = 0x11 then ecc 0x20 && use 9
  else if op = 0x12 then (if c = 0x23 then decide (kt = 0x16) else ecc 0x10) && use 10
  else if op = 0x13 then
    (if c = 0x21 then decide (kt = 0x14) else if c = 0x22 then decide (kt = 0x15) else if c = 0x23 then decide (kt = 0x16)
     else ecc 0x10)
  else if op = 0x20 then decide ((c = 0x21 ∧ kt = 0x14) ∨ (c = 0x22 ∧ kt = 0x15)) && use 8
  else if op = 0x21 then decide ((c = 0x21 ∧ kt = 0x24) ∨ (c = 0x22 ∧ kt = 0x25)) && use 9
  else false

/-- The fields of a background descriptor (R556). -/
def bgPkop (d : Bytes) : Nat := beNat (slice d 0 2)
/-- KEYSRC. -/
def bgSrc (d : Bytes) : Nat := (byteAt d 2).toNat
/-- DEST. -/
def bgDest (d : Bytes) : Nat := (byteAt d 3).toNat
/-- NODE. -/
def bgNode (d : Bytes) : Nat := beNat (slice d 4 3)
/-- KTYPE. -/
def bgKtype (d : Bytes) : Nat := (byteAt d 7).toNat
/-- OPADDR. -/
def bgOpAddr (d : Bytes) : Nat := beNat (slice d 8 5)
/-- OPLEN. -/
def bgOpLen (d : Bytes) : Nat := beNat (slice d 14 2)
/-- RESADDR. -/
def bgResAddr (d : Bytes) : Nat := beNat (slice d 16 5)
/-- RESLEN. -/
def bgResLen (d : Bytes) : Nat := beNat (slice d 22 2)

/-- The length of an inline public key for a PKOP (R420, R556). -/
def inlineLen (s : State) (kt pkop : Nat) : Nat :=
  if kt = 0x28 then 260 + 128 * (pkop % 256) else keyLen s kt (if kt = 0x23 then pkop % 256 - 0x10 else 0)

/-- A background job that first runs (R539, R542, R556): its operand is fetched by DMA, an inline key taken from its start. -/
def pkFirstBg (e : Nat) (j : PkJob) (s : State) : State :=
  let d := (s.bg (e / 12)).desc
  let s := s.setBg (e / 12) { s.bg (e / 12) with started := true }
  let fin (st : Nat) (s : State) : State := pkSet e { j with started := true, status := some st, rem := 0 } s
  if j.refused ≠ 0 then fin j.refused s
  else
    let r := dma (0x40 + e) 0 (bgOpAddr d) (bgOpLen d) s
    if r.2.1 ≠ 0 then fin tPOLICY r.2.2
    else
      let o := fabRead (bgOpAddr d / 2 ^ 32) (bgOpAddr d % 2 ^ 32) (bgOpLen d) r.2.2
      let s := o.2
      let n := if bgSrc d = 0 then inlineLen s (bgKtype d) j.pkop else 0
      let k : Option PkKey :=
        if bgSrc d = 0 then
          some { key := o.1.take n, ktype := bgKtype d, param := if bgKtype d = 0x23 then j.pkop % 256 - 0x10 else 0, use_ := 2 ^ 9 + 1 }
        else j.key
      match k with
      | none => if j.pkop / 256 = 0x30 then pkSet e { j with started := true } s else fin tKEY_UNAVAILABLE s
      | some k =>
        if ¬ pkKeyFits s j.pkop k j.epoch then fin tPOLICY s
        else pkSet e { j with started := true, oper := o.1.drop n, key := some k } s

/-- A job that first runs (R539, R542 orders 1 and 2): a refused key ends it with that status, a refused operand piece or an
unfit key with POLICY, at once. -/
def pkFirst (e : Nat) (j : PkJob) (s : State) : State :=
  let fin (st : Nat) (s : State) : State := pkSet e { j with started := true, status := some st, rem := 0 } s
  if j.kind = 3 then pkFirstBg e j s
  else if j.refused ≠ 0 then fin j.refused s
  else if j.kind = 0 then
    let x := s.job j.ref
    let r := dmaJudge (0x40 + e) 0 (framePieces x.lane x.slot j.off j.len) 0 s
    let s := r.2.2
    let oper := (List.range j.len).map (fun i => x.frameByte (j.off + i))
    match j.key with
    | some k =>
      -- R204: a key with VAS set signs only in a class with VAS booking
      if r.2.1 ≠ 0 ∨ ¬ pkKeyFits s j.pkop k j.epoch ∨ (k.vas ∧ pkSigns j.pkop ∧ x.vasW = 0) then fin tPOLICY s
      else pkSet e { j with started := true, oper := oper } s
    | none => fin tKEY_UNAVAILABLE s
  else pkSet e { j with started := true } s

/-- Let an idle engine start the first of its released jobs at `t`. -/
def pkKick (e t : Nat) (s : State) : State :=
  let v := s.eng e
  match v.run with
  | some _ => s
  | none =>
    match pkBest v t with
    | none => s
    | some j =>
      let s := s.setEng e { v with run := some j.seq, runAt := t, yieldAt := t, lastOp := j.pkop }
      if j.started then s else pkFirst e j s

/-- Take a job out of an engine; its bank is zeroised (R535). A running job gives way at its next yield point: until then it
holds the engine, withdrawn (R211). -/
def pkCancel (e seq : Nat) (s : State) : State :=
  let v := s.eng e
  if v.run = some seq then
    s.setEng e { v with jobs := v.jobs.map (fun j => if j.seq = seq then { j with withdrawn := true, key := none } else j) }
  else s.setEng e { v with jobs := v.jobs.filter (fun j => decide (j.seq ≠ seq)) }

/-- Remove an ended job, and let the next start. -/
def pkRemove (e seq t : Nat) (s : State) : State :=
  let v := s.eng e
  let run := if v.run = some seq then none else v.run
  pkKick e t (s.setEng e { v with jobs := v.jobs.filter (fun j => decide (j.seq ≠ seq)), run := run })

/-- Release every PK booking of an admitted job (R211, R379, R565). -/
def pkDrop (jn : Nat) (s : State) : State :=
  let x := s.job jn
  let go (e : Option Nat) (kind : Nat) (s : State) : State :=
    match e with
    | some e => match pkOf s e kind jn with | some j => pkCancel e j.seq s | none => s
    | none => s
  let s := go x.vas 1 (go x.engine 0 s)
  s.setJob jn { s.job jn with vas := none }

/-- Mark a job released once it has arrived and its key is present (R202). -/
def pkRelease (e seq : Nat) (s : State) : State :=
  match pkFind s e (fun j => decide (j.seq = seq)) with
  | none => s
  | some j =>
    match j.arr, j.keyAt with
    | some a, some k =>
      if j.rls.isSome then s
      else
        let t := Nat.max a k
        let s := s.at t
        pkKick e s.dt (pkSet e { j with rls := some t } s)
    | _, _ => s

end Sys2Proof.Machine
end

