-- ==== Sys2Proof/Machine/AuditOps.lean ====
section
/-!
DEFINITION. Audit records and the stream of items (R240-R243, R253, R254).
-/
namespace Sys2Proof.Machine

/-- An audit record (R240). -/
def audRecord (kind status src cls msgid tstamp elapsed lane pke bodylen epoch : Nat) : Bytes :=
  [byte kind, byte status, byte src, byte cls] ++ beBytes msgid 8 ++ beBytes tstamp 8 ++ beBytes (Nat.min elapsed (2 ^ 32 - 1)) 4 ++
  [byte lane, byte pke] ++ beBytes bodylen 2 ++ beBytes epoch 4

/-- Bytes of records held for delivery (R254). -/
def audHeld (a : AudUnit) : Nat := (a.items.filter (fun i => decide (i.kind = 0))).foldl (fun n i => n + i.bytes.length) 0

/-- Blocks with a header or signature item in the header store. -/
def audHeaders (a : AudUnit) : List Nat := ((a.items.filter (fun i => decide (i.kind ≠ 0))).map (fun i => i.bseq)).eraseDups

/-- The audit buffer of a die: 1 MiB (R254). -/
abbrev audBufferSize : Nat := 2 ^ 20

/-- Fire an MSI-X vector (R168): a masked one turns pending; nothing leaves while the link is down. -/
def raiseMsix (v : Nat) (s : State) : State :=
  if bit s.port.pcie.mask v then { s with port := { s.port with pcie := { s.port.pcie with pba := s.port.pcie.pba ||| 2 ^ v } } }
  else if s.port.link ≠ 0 then s.emit (.msix v) else s

/-- The XD fabric address of a host address: 36 address bits (R30, R165); higher bits of a buffer address are not carried (DESIGN CHOICE, log
entry 79). -/
abbrev hostAddr (a : Nat) : Nat := 2 ^ 36 + a % 2 ^ 36

/-- The writes on the PCIe link for bytes at an address: payloads of at most 512 bytes, cut at multiples of 512 (R164). -/
def hostTlpsF : Nat → Nat → Bytes → List (Nat × Bytes)
  | 0, _, _ => []
  | fuel + 1, a, bs =>
    if bs.isEmpty then []
    else
      let n := 512 - a % 512
      (a, bs.take n) :: hostTlpsF fuel (a + n) (bs.drop n)

/-- Write to host memory through the access table (R691): the bytes written, and whether a piece was refused. -/
def hostWrite (ini a : Nat) (bs : Bytes) (s : State) : Nat × Bool × State :=
  let r := dma ini 1 (hostAddr a) bs.length s
  (r.1, decide (r.2.1 ≠ 0), (hostTlpsF (r.1 / 512 + 2) (a % 2 ^ 36) (bs.take r.1)).foldl (fun s w => s.emit (.hostWrite w.1 w.2)) r.2.2)

/-- Write one audit queue entry (R253) with the payload at a stream offset: whether it was written; `sig` tells that it completes a signature item. -/
def audEntry (d off : Nat) (payload : Bytes) (sig : Bool) (s : State) : Bool × State :=
  let h := s.hq 4
  let size := 2 ^ h.cqLog
  if ¬ h.en ∨ (h.cqTail + 1) % size = h.cqHead % size then (false, s)
  else
    let e := [byte ((if h.wrapped then 0 else 0x80) + d), 0] ++ beBytes payload.length 2 ++ beBytes off 8 ++ zeros 4 ++ fit payload 48
    let w := hostWrite (0x58 + d) (h.cqBase + 64 * h.cqTail) e s
    if w.2.1 then (false, (w.2.2.setHq 4 { h with fetchFault := true }).noteSet (hqKey 4) 4)
    else
      let nt := (h.cqTail + 1) % size
      let s := w.2.2.setHq 4 { h with cqTail := nt, wrapped := if nt = 0 then ! h.wrapped else h.wrapped }
      (true, if sig ∧ h.irqEn then raiseMsix 5 s else s)

/-- Stream bytes are lost and counted (R254). -/
def audDiscard (d n : Nat) (s : State) : State :=
  let a := s.aud d
  let s := s.setAud d { a with undeliv := a.undeliv ++ [(s.dt, n)] }
  let s := (s.setHq 4 { s.hq 4 with cqOvf := true }).noteSet (hqKey 4) 2
  s.bumpBy (0xB380 + d) 6 n

/-- Append record bytes to a die's stream (R253, R254): what the full buffer cannot hold is discarded; after an erase nothing is buffered, the record is
written to the queue or lost (R257). -/
def audRecordBytes (d : Nat) (bs : Bytes) (s : State) : State :=
  let a := s.aud d
  let adv := { a with offset := a.offset + bs.length }
  if a.erased then
    let w := audEntry d a.offset bs false (s.setAud d adv)
    if w.1 then w.2 else audDiscard d bs.length w.2
  else if audHeld a + bs.length ≤ audBufferSize then s.setAud d { adv with items := a.items ++ [⟨0, a.offset, s.dt, 0, bs⟩] }
  else audDiscard d bs.length (s.setAud d adv)

/-- Append a header or signature item to a die's stream (R254): a 257th block in the header store discards the oldest. -/
def audStream (d kind bseq : Nat) (bs : Bytes) (s : State) : State :=
  let a := s.aud d
  let adv := { a with offset := a.offset + bs.length }
  let items := a.items ++ [⟨kind, a.offset, s.dt, bseq, bs⟩]
  match audHeaders { a with items := items } with
  | oldest :: rest =>
    if rest.length ≥ 256 then
      (s.setAud d { adv with items := items.filter (fun i => decide (i.kind = 0 ∨ i.bseq ≠ oldest)) }).bump (0xB380 + d) 7
    else s.setAud d { adv with items := items }
  | [] => s.setAud d { adv with items := items }

/-- The intake of a record, from its KIND (R242): 0 collector, 1 dispatcher, 2 XD. -/
def intakeOf (rec : Bytes) : Nat := match (byteAt rec 0).toNat with | 2 => 1 | 3 => 2 | _ => 0

/-- A record already in the chain comes after a new one (R242): by LCLK, then collector, dispatcher by SOURCE, XD. -/
def recAfter (old new : Nat × Bytes) : Bool :=
  let ko := intakeOf old.2
  let kn := intakeOf new.2
  decide (new.1 < old.1) || (decide (new.1 = old.1) &&
    (decide (kn < ko) || (decide (kn = 1 ∧ ko = 1) && decide (byteAt new.2 2 < byteAt old.2 2))))

/-- How many records at the end of the chain, all still whole in the stream, come after a new one. -/
def displaced (a : AudUnit) (new : Nat × Bytes) : Nat :=
  let k := (a.recs.reverse.takeWhile (fun r => recAfter r new)).length
  let whole := (a.items.reverse.takeWhile (fun i => decide (i.kind = 0 ∧ i.bytes.length = 32))).length
  if k ≤ whole then k else 0

/-- Move the last element in front of the `k` before it. -/
def liftLast {α : Type} (k : Nat) (l : List α) : List α :=
  let n := l.length - 1 - k
  l.take n ++ l.drop (l.length - 1) ++ (l.drop n).take k

/-- The depth of the deeper intake FIFO after the last of some records (R242): each LCLK takes 16, the collector's first, then the dispatcher's. `t` is the
LCLK served, `room` what it still takes, `d` and `x` the two depths. -/
def fifoDepth : List (Nat × Bytes) → (t room d x : Nat) → Nat
  | [], _, _, d, x => Nat.max d x
  | r :: rest, t, room, d, x =>
    let gone := if t < r.1 then room + 16 * (r.1 - t - 1) else 0
    let room := if t < r.1 then 16 else room
    let d' := d - gone
    let x' := x - (gone - d)
    match intakeOf r.2 with
    | 0 => fifoDepth rest r.1 (room - 1) d' x'
    | 1 => fifoDepth rest r.1 room (d' + 1) x'
    | _ => fifoDepth rest r.1 room d' (x' + 1)

/-- Append a record to a die's chain (R242); a die whose chain does not run chains nothing (R244). Records of one LCLK stand in the order of their intakes
whatever the order of the commands; in an LCLK with more than 16 records the rest still goes ahead of the next LCLK's (log entry 88). -/
def audAppend (d at_ : Nat) (rec : Bytes) (s : State) : State :=
  let a := s.aud d
  if ¬ a.run then s
  else
    let k := displaced a (at_, rec)
    let recs := liftLast k (a.recs ++ [(at_, rec)])
    let depth := Nat.min 2048 (fifoDepth recs 0 16 0 0)
    let s := s.setAud d { a with recs := recs, nrec := a.nrec + 1, fifoMax := Nat.max a.fifoMax depth }
    let s := audRecordBytes d rec (s.bump (0xB380 + d) 2)
    let b := s.aud d
    if b.items.length = a.items.length + 1 then
      s.setAud d { b with items := List.zipWith (fun (x y : AudItem) => { x with off := y.off }) (liftLast k b.items) b.items }
    else s

/-- The record of a self-issued response (R156, R241): its DT is taken when XD queues the response. -/
def audSelf (d status src cls msgid tstamp bodylen epoch : Nat) (s : State) : State :=
  audAppend d s.dt (audRecord 3 status src cls msgid tstamp (s.dt - tstamp) 0xFF 0xFF bodylen epoch) s

/-- The record of a dispatcher's answer (R241): its DT is T_a. -/
def audDispatch (d ta status : Nat) (x : Desc) (s : State) : State :=
  audAppend d ta (audRecord 2 status x.src x.cls x.msgid x.tstamp (ta - x.tstamp) 0xFF 0xFF 0 x.epoch) s

end Sys2Proof.Machine
end

