-- ==== Sys2Proof/Machine/PortOps.lean ====
section
/-!
DEFINITION. The transmit side of the ports: response headers and frames (R152, R153), the TCP send queue (R125-R127), host
completions (R167), self-issued responses (R156), and leaving in release order (R135).
-/
namespace Sys2Proof.Machine

/-- One XCLK in 25ths of a nanosecond. -/
abbrev xclk (n : Nat) : Nat := 16 * n
/-- A DT instant in 25ths of a nanosecond. -/
abbrev dtTicks (n : Nat) : Nat := 25 * n
/-- The DT at which an instant has been reached (R10). -/
abbrev ticksDt (n : Nat) : Nat := ceilDiv n 25

/-- A port's entry value. -/
def pcfg (s : State) (p sub : Nat) : Nat := beNat (s.entW (0x2000 + p) sub)
/-- A port's byte-string entry. -/
def pbytes (s : State) (p sub : Nat) : Bytes := s.entW (0x2000 + p) sub

/-- Count in a source's statistics (R172). -/
def State.pstat (s : State) (p sub : Nat) : State := s.bump (0xB000 + p) sub

/-- Port is up: enabled, its domain powered, its link up; in INERT no port responds (R48). -/
def portUp (s : State) (p : Nat) : Bool :=
  (s.src p).link && decide (pcfg s p 1 = 1) && (s.domReady 29) && decide (s.power.mode ≠ .inert)

/-- The mode behind DOZE. -/
def baseMode (s : State) : Mode := if s.power.mode = .doze ∨ s.power.mode = .deep then s.power.preDoze else s.power.mode

/-- Modes that run classifiers (R51, R64, R224). -/
def classifies (s : State) : Bool :=
  decide (s.power.mode ≠ .deep) && [Mode.service, .degraded, .drain, .ceremony, .update].contains (baseMode s)

/-- The mode in which every frame takes the bypass path (R51), kept through a system reset (R162). -/
def bypassAll (s : State) : Bool :=
  decide (s.power.mode ≠ .deep ∧ baseMode s = .bypass) || (decide (s.power.mode = .bringup) && s.port.keepAll)

/-- A response header (R152). -/
def respHeader (status flags msgid len cls : Nat) : Bytes :=
  [0x53, 0x52, byte status, byte flags] ++ beBytes msgid 8 ++ beBytes len 2 ++ [byte cls, 0]

/-- What a port sends for a response (R153): HDR header and body; BARE the body alone, or the header alone. -/
def respPayload (s : State) (p status flags msgid cls : Nat) (body : Bytes) : Bytes :=
  let h := respHeader status flags msgid body.length cls
  if pcfg s p 7 = 1 then (if body.isEmpty then h else body) else h ++ body

/-- Ethernet FCS bytes. -/
def fcsBytes (bs : Bytes) : Bytes := leBytes (crc32 bs) 4

/-- An Ethernet frame padded to 64 bytes with its FCS. -/
def ethFrame (dst src : Bytes) (tci : Option Nat) (etype : Nat) (payload : Bytes) : Bytes :=
  let f := dst ++ src ++ (match tci with | some t => [0x81, 0x00] ++ beBytes t 2 | none => []) ++ beBytes etype 2 ++ payload
  let f := f ++ zeros (60 - f.length)
  f ++ fcsBytes f

/-- The bytes of a direct response before its body (R121, R153). -/
def directHead (s : State) (p : Nat) (m : Msg) (body : Bytes) : Nat :=
  14 + (if m.tci.isSome then 4 else 0) + (if pcfg s p 7 = 1 ∧ ¬ body.isEmpty then 0 else 16)

/-- The frame of a direct response (R121, R153). -/
def directFrame (s : State) (p : Nat) (m : Msg) (status flags msgid cls : Nat) (body : Bytes) : Bytes :=
  let dst := if (pbytes s p 0x0A).length = 6 then pbytes s p 0x0A else m.eth
  ethFrame dst (pbytes s p 4) m.tci (pcfg s p 8) (respPayload s p status flags msgid cls body)

/-- 32-bit sequence arithmetic. -/
abbrev seqAdd (a n : Nat) : Nat := (a + n) % 2 ^ 32
abbrev seqSub (a b : Nat) : Nat := (a + 2 ^ 32 - b) % 2 ^ 32

/-- The MSS of a port as this manual bounds values (R125). -/
def portMss (s : State) (p : Nat) : Nat := pcfg s p 0x13 - 40

/-- The constant advertised window (R125). -/
def rcvWnd (t : Tcp) : Nat := if t.scaled then 1048576 else 65535

/-- The window field of a segment: never scaled in a SYN (RFC 7323). -/
def wndField (t : Tcp) (flags : Nat) : Nat := if bit flags 1 then 65535 else if t.scaled then 1048576 / 32 else 65535

/-- Set a port's TCP engine. -/
def State.setTcp (s : State) (p : Nat) (t : Tcp) : State :=
  let r := s.src p
  let s' := s.setSrc p { r with tcp := t }
  if r.tcp.st ≠ t.st then raiseMsix 6 s' else s'

/-- Hand a packet's frame to the transmitter: it waits behind the frame in progress and what is ahead of it (R157). -/
def netFrame (p : Nat) (bytes : Bytes) (s : State) : State :=
  let r := s.src p
  s.setSrc p { r with laneQ := r.laneQ ++ [{ kind := 3, bytes := bytes }] }

/-- The peer's address is IPv4 (R124). -/
def peerV4 (s : State) (p : Nat) : Bool := decide ((pbytes s p 0x0F).take 12 = zeros 10 ++ [0xFF, 0xFF])

/-- The neighbour through which the peer is reached: 20pp:0E, or the peer itself on the link (R124). -/
def hopAddr (s : State) (p : Nat) : Bytes := if (pbytes s p 0x0E).length = 16 then pbytes s p 0x0E else pbytes s p 0x0F

/-- The link destination of the port's IP packets (R124): 20pp:0A, else the address learned from the frames that bring the peer's packets. -/
def linkDst (s : State) (p : Nat) : Bytes := if (pbytes s p 0x0A).length = 6 then pbytes s p 0x0A else (s.src p).nbr

/-- The tag of a frame that carries no response: the VLAN of the port with the priority last received (R121). -/
def portTci (s : State) (p : Nat) (t : Option Nat) : Option Nat :=
  if pcfg s p 9 = 0 then none else some (t.getD 0 / 4096 * 4096 + pcfg s p 9)

/-- One's complement checksum of a message whose checksum field is zero. -/
def inetCheck (bs : Bytes) : Bytes := beBytes (0xFFFF - inetSum bs) 2

/-- The pseudo-header of ICMPv6 and TCP over IPv6. -/
def pseudo6 (src dst : Bytes) (len next : Nat) : Bytes := src ++ dst ++ beBytes len 4 ++ [0, 0, 0, byte next]

/-- The request for the link address of the next hop: ARP, or a neighbour solicitation (RFC 826, RFC 4861). -/
def askNeighbour (s : State) (p : Nat) : Bytes :=
  let own := pbytes s p 4
  let a := hopAddr s p
  let tci := portTci s p (s.src p).nbrTci
  if peerV4 s p then
    ethFrame (List.replicate 6 0xFF) own tci 0x0806
      ([0, 1, 8, 0, 6, 4, 0, 1] ++ own ++ beBytes (pcfg s p 0x0B) 4 ++ zeros 6 ++ a.drop 12)
  else
    let me := pbytes s p 0x0D
    let dst := [0xFF, 2] ++ zeros 9 ++ [1, 0xFF] ++ a.drop 13
    let b := zeros 4 ++ a ++ [1, 1] ++ own
    let b := [135, 0] ++ inetCheck (pseudo6 me dst 32 58 ++ [135, 0, 0, 0] ++ b) ++ b
    ethFrame ([0x33, 0x33, 0xFF] ++ a.drop 13) own tci 0x86DD ([0x60, 0, 0, 0] ++ beBytes b.length 2 ++ [58, 255] ++ me ++ dst ++ b)

/-- Send an IP packet towards the peer (R124). While its link address is not known the packet waits and the neighbour is asked for it
(DESIGN CHOICE, log entry 86). -/
def ipSend (p etype : Nat) (tci : Option Nat) (pkt : Bytes) (s : State) : State :=
  let dst := linkDst s p
  if dst.isEmpty then
    let r := s.src p
    netFrame p (askNeighbour s p) (s.setSrc p { r with await := r.await ++ [(tci, etype, pkt)] })
  else netFrame p (ethFrame dst (pbytes s p 4) (portTci s p tci) etype pkt) s

/-- A frame of the peer shows its link address and tag; the packets that waited for it leave. -/
def learnNbr (p : Nat) (mac : Bytes) (tci : Option Nat) (s : State) : State :=
  let r := s.src p
  let s := s.setSrc p { r with nbr := mac, nbrTci := tci, await := [] }
  r.await.foldl (fun s e => ipSend p e.2.1 e.1 e.2.2 s) s

/-- An IP packet of the port to its peer with a TCP segment, its checksum filled in (R123, R125): IPv4 with DF set. -/
def ipTcp (s : State) (p : Nat) (seg : Bytes) : Nat × Bytes :=
  let put (c : Bytes) : Bytes := seg.take 16 ++ c ++ seg.drop 18
  if peerV4 s p then
    let a := beBytes (pcfg s p 0x0B) 4 ++ (pbytes s p 0x0F).drop 12
    let h := [0x45, 0] ++ beBytes (20 + seg.length) 2 ++ [0, 0, 0x40, 0, 64, 6, 0, 0] ++ a
    (0x0800, h.take 10 ++ inetCheck h ++ h.drop 12 ++ put (inetCheck (a ++ [0, 6] ++ beBytes seg.length 2 ++ seg)))
  else
    let me := pbytes s p 0x0D
    let to_ := pbytes s p 0x0F
    (0x86DD, [0x60, 0, 0, 0] ++ beBytes seg.length 2 ++ [6, 64] ++ me ++ to_ ++ put (inetCheck (pseudo6 me to_ seg.length 6 ++ seg)))

/-- Send one TCP segment: flags FIN 1, SYN 2, RST 4, PSH 8, ACK 16. -/
def tcpSend (p dport seq ack flags wnd : Nat) (opts data : Bytes) (tci : Option Nat) (s : State) : State :=
  let h := beBytes (pcfg s p 0x11) 2 ++ beBytes dport 2 ++ beBytes seq 4 ++ beBytes ack 4 ++
    [byte ((20 + opts.length) / 4 * 16), byte flags] ++ beBytes wnd 2 ++ zeros 4 ++ opts
  let k := ipTcp s p (h ++ data)
  ipSend p k.1 tci k.2 s

/-- Insert a range into an ascending list of ranges, joined with those it meets. -/
def insRange (a b : Nat) : List (Nat × Nat) → List (Nat × Nat)
  | [] => [(a, b)]
  | (c, d) :: t => if b < c then (a, b) :: (c, d) :: t else if d < a then (c, d) :: insRange a b t else insRange (Nat.min a c) (Nat.max b d) t

/-- The blocks of a selective acknowledgement (RFC 2018): the one with the latest arrival first. -/
def sackBlocks (t : Tcp) : List (Nat × Nat) :=
  let all := t.ooo.foldl (fun m e => let o := seqSub e.1 t.rcv; insRange o (o + e.2.length) m) ([] : List (Nat × Nat))
  let last := match t.ooo.getLast? with | some e => seqSub e.1 t.rcv | none => 0
  let here (b : Nat × Nat) : Bool := decide (b.1 ≤ last ∧ last < b.2)
  (all.filter here ++ all.filter (fun b => ! here b)).take (if t.tsOk then 3 else 4)

/-- The engine's MSS towards the peer (R125): 40 bytes of headers on IPv4, 60 on IPv6. -/
def ownMss (s : State) (p : Nat) : Nat := pcfg s p 0x13 - (if peerV4 s p then 40 else 60)

/-- The timestamp option (RFC 7323); its clock counts ms of DT (DESIGN CHOICE, log entry 86). -/
def tcpStamp (s : State) (t : Tcp) : Bytes := [8, 10] ++ beBytes (s.dt / 1000000 % 2 ^ 32) 4 ++ beBytes t.tsRecent 4

/-- The options of a segment (R125): a SYN announces the MSS, offers scale 5, selective acknowledgement and timestamps, or on a SYN from the
peer accepts those it offered. -/
def tcpOpts (s : State) (p : Nat) (t : Tcp) (flags : Nat) : Bytes :=
  if bit flags 1 then
    let all : Bool := decide (t.st = 2)
    let sk : Bytes := if all || t.sackOk then [4, 2] else [1, 1]
    [2, 4] ++ beBytes (ownMss s p) 2 ++
    (if all || t.tsOk then sk ++ tcpStamp s t else if t.sackOk then sk ++ [1, 1] else []) ++
    (if all || t.scaled then [1, 3, 3, 5] else [])
  else
    let bs := if t.sackOk && bit flags 4 then sackBlocks t else []
    (if t.tsOk then [1, 1] ++ tcpStamp s t else []) ++
    (if bs.isEmpty then []
     else [1, 1, 5, byte (2 + 8 * bs.length)] ++ bs.flatMap (fun b => beBytes (seqAdd t.rcv b.1) 4 ++ beBytes (seqAdd t.rcv b.2) 4))

/-- The tag of a segment (R121): of the request whose response its first byte belongs to, else as last received. -/
def segTci (r : Source) (seq : Nat) (data : Bytes) : Option Nat :=
  if data.isEmpty then r.nbrTci
  else match r.tcp.marks.find? (fun m => let d := seqSub m.1 seq; decide (0 < d ∧ d < 2 ^ 31)) with
    | some m => m.2
    | none => r.nbrTci

/-- Send a segment of the port's connection. -/
def tcpSeg (p seq flags : Nat) (data : Bytes) (s : State) : State :=
  let r := s.src p
  let t := r.tcp
  tcpSend p t.peerPort seq (if bit flags 4 then t.rcv else 0) flags (wndField t flags) (tcpOpts s p t flags) data (segTci r seq data) s

/-- Send an acknowledgement. -/
def tcpAck (p : Nat) (s : State) : State := tcpSeg p (s.src p).tcp.nxt 16 [] s

/-- The retransmission timeout in ns: RFC 6298 bounded by 20pp:14 and 60 s (R125). -/
def rtoNs (s : State) (p : Nat) (t : Tcp) : Nat :=
  let base := match t.srtt with | some (a, v) => a + Nat.max 1 (4 * v) | none => sec 1
  Nat.min (sec 60) (Nat.max (us (pcfg s p 0x14)) base * 2 ^ t.retx)

/-- Bytes in flight. -/
def inFlight (t : Tcp) : Nat := seqSub t.nxt t.una

/-- Congestion window, never below 20pp:19 (R125). -/
def cwndOf (s : State) (p : Nat) (t : Tcp) : Nat := Nat.max t.cwnd (pcfg s p 0x19)

/-- The data bytes a segment takes: the MSS less the options it carries (RFC 6691). -/
def segMss (s : State) (p : Nat) (t : Tcp) : Nat := t.mss - (tcpOpts s p t 16).length

/-- What the peer has reported beyond its acknowledgement, as ranges from una (RFC 6675). -/
def sackMap (t : Tcp) : List (Nat × Nat) :=
  t.sacked.foldl (fun m e =>
    let l := seqSub e.1 t.una
    let r := seqSub e.2 t.una
    if l < r ∧ r ≤ inFlight t then insRange l r m else m) []

/-- The ranges in flight that are not reported, from `a` on, and whether each is lost (RFC 6675): three reported ranges, or more than two segments of
reported bytes, lie above it. -/
def sackGaps (mss fly : Nat) : Nat → List (Nat × Nat) → List (Nat × Nat × Bool)
  | a, [] => if a < fly then [(a, fly, false)] else []
  | a, (l, r) :: t =>
    let n := t.foldl (fun n e => n + (e.2 - e.1)) (r - l)
    let rest := sackGaps mss fly r t
    if a < l then (a, l, decide (3 ≤ t.length + 1 ∨ n > 2 * mss)) :: rest else rest

/-- The gaps of a connection; after a timeout everything in flight counts as lost (RFC 6675, RFC 5681). -/
def tcpGaps (s : State) (p : Nat) (t : Tcp) : List (Nat × Nat × Bool) :=
  let g := sackGaps (segMss s p t) (inFlight t) 0 (sackMap t)
  if t.timedOut then
    let stop := match t.recover with | some q => seqSub q t.una | none => 0
    g.map (fun e => (e.1, e.2.1, e.2.2 || decide (e.1 < stop)))
  else g

/-- The offset from una up to which data has been resent in this recovery. -/
def rxtOff (t : Tcp) : Nat := let d := seqSub t.rxt t.una; if d ≤ inFlight t then d else 0

/-- The bytes taken to be in the network (RFC 6675). -/
def tcpPipe (s : State) (p : Nat) (t : Tcp) : Nat :=
  let x := rxtOff t
  (tcpGaps s p t).foldl (fun n g => n + (if g.2.2 then 0 else g.2.1 - g.1) + (Nat.min g.2.1 x - g.1)) 0

/-- Send `n` bytes again from offset `o`; a rescue leaves `rxt` where it is. -/
def tcpResend (p o n : Nat) (rescue : Bool) (s : State) : State :=
  let t := (s.src p).tcp
  let s := s.setTcp p { t with timed := none, rescued := t.rescued || rescue, rxt := if rescue then t.rxt else seqAdd t.una (o + n) }
  (tcpSeg p (seqAdd t.una o) 24 (slice t.sendQ o n) s).pstat p 0x15

/-- Send new data: `n` bytes from nxt. -/
def tcpSendNew (p n : Nat) (s : State) : State :=
  let t := (s.src p).tcp
  let s := tcpSeg p t.nxt 24 (slice t.sendQ (inFlight t) n) s
  s.setTcp p { t with nxt := seqAdd t.nxt n, timed := (match t.timed with | some x => some x | none => some (seqAdd t.nxt n, s.dt)),
                      rtoDue := (match t.rtoDue with | some d => some d | none => some (s.dt + rtoNs s p t)) }

/-- New data that the windows allow. -/
def tcpNew (s : State) (p : Nat) (t : Tcp) (wnd : Nat) : Nat :=
  let fly := inFlight t
  if t.finSent then 0 else Nat.min (Nat.min (segMss s p t) (t.sendQ.length - fly)) (wnd - fly)

/-- Send in a recovery that knows what is lost (RFC 6675): lost data first, then new data, then data that may be lost, then one rescue. -/
def sackSendF (p : Nat) : Nat → State → State
  | 0, s => s
  | fuel + 1, s =>
    let t := (s.src p).tcp
    let x := rxtOff t
    let m := segMss s p t
    let gs := tcpGaps s p t
    let from_ (g : Nat × Nat × Bool) : Nat × Nat := let o := Nat.max g.1 x; (o, Nat.min m (Nat.min g.2.1 t.sendQ.length - o))
    if cwndOf s p t < tcpPipe s p t + m then s
    else
      match gs.find? (fun g => g.2.2 && decide (Nat.max g.1 x < Nat.min g.2.1 t.sendQ.length)) with
      | some g => sackSendF p fuel (tcpResend p (from_ g).1 (from_ g).2 false s)
      | none =>
        let n := tcpNew s p t t.wnd
        if 0 < n then sackSendF p fuel (tcpSendNew p n s)
        else
          match gs.dropLast.find? (fun g => decide (Nat.max g.1 x < Nat.min g.2.1 t.sendQ.length)) with
          | some g => sackSendF p fuel (tcpResend p (from_ g).1 (from_ g).2 false s)
          | none =>
            if t.rescued ∨ gs.isEmpty then s
            else
              let e := Nat.min (inFlight t) t.sendQ.length
              tcpResend p (e - Nat.min e m) (Nat.min e m) true s

/-- Send what the send and congestion windows allow (R125, R158); `fuel` bounds the segments. -/
def tcpOutputF (p : Nat) : Nat → State → State
  | 0, s => s
  | fuel + 1, s =>
    let t := (s.src p).tcp
    let n := tcpNew s p t (Nat.min (cwndOf s p t) t.wnd)
    if t.finSent ∨ ¬ (t.st = 4 ∨ t.st = 7) then s
    else if n = 0 then
      if t.wnd = 0 ∧ inFlight t = 0 ∧ ¬ t.sendQ.isEmpty ∧ t.zwDue.isNone then
        s.setTcp p { t with zwDue := some (s.dt + rtoNs s p t), zwN := 0 }
      else s
    else tcpOutputF p fuel (tcpSendNew p n s)

/-- In CLOSE-WAIT the engine sends its FIN once every outstanding response has been sent (R126). -/
def tcpMaybeFin (p : Nat) (s : State) : State :=
  let r := s.src p
  let t := r.tcp
  if t.st = 7 ∧ ¬ t.finSent ∧ r.outst.isEmpty ∧ r.line.isEmpty ∧ inFlight t = t.sendQ.length then
    let s := tcpSeg p t.nxt 17 [] s
    s.setTcp p { t with st := 9, finSent := true, nxt := seqAdd t.nxt 1,
                        rtoDue := (match t.rtoDue with | some d => some d | none => some (s.dt + rtoNs s p t)) }
  else s

/-- Send what may be sent. -/
def tcpOutput (p : Nat) (s : State) : State :=
  let t := (s.src p).tcp
  tcpMaybeFin p (if t.recover.isSome ∧ (t.sackOk ∨ t.timedOut) then sackSendF p 1024 s else tcpOutputF p 1024 s)

/-- Size of a port's send queue (R126). -/
abbrev sendQueueSize : Nat := 2 ^ 20

/-- The length prefix of a TCP message (R128). -/
def tcpPrefixed (s : State) (p : Nat) (bs : Bytes) : Bytes :=
  let w := if pcfg s p 5 = 1 then 2 else 4
  beBytes (bs.length + (if pcfg s p 6 = 1 then w else 0)) w ++ bs

/-- Place a whole response in the send queue, with the tag of its request (R121, R126, R127): false where there is no open connection or no
room. -/
def tcpCommit (p : Nat) (tci : Option Nat) (bs : Bytes) (s : State) : Nat × State :=
  let t := (s.src p).tcp
  if ¬ (t.st = 4 ∨ t.st = 7) ∨ t.finSent then (0x11, s.pstat p 0x11)
  else
    let d := tcpPrefixed s p bs
    if t.sendQ.length + d.length > sendQueueSize then (0x1A, s.pstat p 0x1A)
    else
      let q := t.sendQ ++ d
      (0, tcpOutput p (s.setTcp p { t with sendQ := q, marks := t.marks ++ [(seqAdd t.una q.length, tci)] }))

/-- A host completion (R167, R692). The ring counts as full when CQ_TAIL + 1 = CQ_HEAD (DESIGN CHOICE, log entry 80). -/
def hostComplete (q : Nat) (m : Msg) (status self msgid cls : Nat) (body : Bytes) (s : State) : State :=
  let p := 32 + q
  let n := Nat.min body.length m.rsize
  let w := if n = 0 then (0, false, s) else hostWrite 0x78 m.rbuf (body.take n) s
  let trunc := decide (n < body.length) || w.2.1
  let len := w.1
  let s := w.2.2
  let h := s.hq q
  let size := 2 ^ h.cqLog
  if (h.cqTail + 1) % size = h.cqHead % size then ((s.setHq q { h with cqOvf := true }).noteSet (hqKey q) 2).pstat p 0x1A
  else
    let flags := self + (if trunc then 2 else 0) + (if h.wrapped then 0 else 0x80)
    let c := hostWrite 0x78 (h.cqBase + 16 * h.cqTail) (respHeader status flags msgid len cls) s
    if c.2.1 then ((c.2.2.setHq q { h with fetchFault := true }).noteSet (hqKey q) 4).pstat p 0x1A
    else
      let nt := (h.cqTail + 1) % size
      let s := c.2.2.setHq q { h with cqTail := nt, wrapped := if nt = 0 then ! h.wrapped else h.wrapped }
      if h.irqEn then raiseMsix (1 + q) s else s

/-- The epoch in force at a DT (R63, R151): a flip time already written counts from its own nanosecond. -/
def epochAt (s : State) (t : Nat) : EpochCfg :=
  match s.unit.epoch.shadow with
  | some e => if s.unit.epoch.st = .acked ∧ s.unit.epoch.tf ≤ t then e else curCfg s
  | none => curCfg s

/-- The configuration of a message: its epoch's, or the current one. -/
def msgCfg (s : State) (m : Msg) : EpochCfg :=
  match epochCfg s m.epoch with
  | some e => e
  | none => epochAt s m.tstamp

/-- A source's count of admitted jobs whose responses have not reached their boundary (R188). -/
def unsent (s : State) (p : Nat) : Nat := Tab.look 0 s.port.unsent p

/-- One response of an admitted job reached its boundary, or was discarded. -/
def sentOne (p : Nat) (adm : Bool) (s : State) : State :=
  if adm then { s with port := { s.port with unsent := Tab.put 0 s.port.unsent p (unsent s p - 1) } } else s

/-- A self-issued response goes to the transmitter, the send queue or the completion ring (R152, R156, R157); one whose link or connection is gone is
discarded and counted (R174). -/
def selfSend (p : Nat) (m : Msg) (status cls msgid : Nat) (s : State) : State :=
  let s := s.pstat p 0x0F
  if p ≥ 32 then hostComplete (p - 32) m status 1 msgid cls [] s
  else if ¬ portUp s p ∨ m.conn ≠ (s.src p).conn then s.pstat p 0x11
  else if pcfg s p 5 ≠ 0 then (tcpCommit p m.tci (respPayload s p status 1 msgid cls []) s).2
  else
    let r := s.src p
    s.setSrc p { r with selfQ := r.selfQ ++ [{ kind := 1, bytes := directFrame s p m status 1 msgid cls [] }] }

/-- Send a self-issued response with its audit record (R156). -/
def selfIssue (p : Nat) (m : Msg) (status cls msgid : Nat) (s : State) : State :=
  selfSend p m status cls msgid (audSelf m.die status p cls msgid m.tstamp 0 m.epoch s)

/-- Queue the port's answer to an outstanding identifier of a direct port: the entry stays in the list until the last byte of the answer is sent (R155, R163). A
response of the identifier that waits is not sent as well. -/
def queueAnswer (p : Nat) (o : Outst) (s : State) : State :=
  let r := s.src p
  let o' := { o with swept := true }
  let keep (x : TxFrame) : Bool := decide (x.id ≠ some o.id) || x.swept
  s.setSrc p { r with
    outst := r.outst.map (fun x => if x = o then o' else x)
    laneQ := r.laneQ.filter keep
    selfQ := r.selfQ.filter keep ++ [{ kind := 1, bytes := [], id := some o.id, swept := true, sweep := some o' }] }

/-- Answer one outstanding identifier (R67, R162, R163): a host pair, a TCP port, or a message whose link or connection is gone (R174) at once, a direct
port through its transmitter. -/
def answerOutst (p status : Nat) (o : Outst) (s : State) : State :=
  if p ≥ 32 ∨ pcfg s p 5 ≠ 0 ∨ o.lost then
    let r := s.src p
    let s := s.setSrc p { r with outst := r.outst.filter (fun x => decide (x ≠ o)) }
    selfIssue p o.msg status o.cls o.id (sentOne p o.adm s)
  else queueAnswer p o s

/-- Remove an identifier's first entry from a list. -/
def dropOutst (id : Nat) (swept : Bool) : List Outst → List Outst
  | [] => []
  | o :: t => if o.id = id ∧ o.swept = swept then t else o :: dropOutst id swept t

/-- Nothing of a source's sweep is left to send. -/
def sweepDone (r : Source) : Bool :=
  r.sweepReq.isNone && r.selfQ.all (fun f => ! f.swept) && (match r.cur with | some f => ! f.swept | none => true)

/-- The frame of a sweep's answer with its audit record (R156, R163): the status in force for identifiers not yet answered. -/
def sweepFrame (p : Nat) (f : TxFrame) (s : State) : TxFrame × State :=
  match f.sweep with
  | none => (f, s)
  | some o =>
    let st := (s.src p).sweepSt
    let s := (audSelf o.msg.die st p o.cls o.id o.msg.tstamp 0 o.msg.epoch s).pstat p 0x0F
    ({ f with bytes := directFrame s p o.msg st 1 o.id o.cls [], sweep := none }, s)

/-- The response of an outstanding identifier reaches its boundary (R188): its entry counts as unsent no longer. -/
def sentEntry (p id : Nat) (swept : Bool) (s : State) : State :=
  match (s.src p).outst.find? (fun o => decide (o.id = id ∧ o.swept = swept)) with
  | none => s
  | some o =>
    let r := s.src p
    sentOne p o.adm (s.setSrc p { r with outst := r.outst.map (fun x => if x = o then { x with adm := false } else x) })

/-- The fabric domain of a die is available to its ports (R62): neither fenced nor, its wake failed, between retries. -/
def dieOk (s : State) (d : Nat) : Bool := decide ((s.dom (7 + d)).st ≠ .fenced ∧ (s.dom (7 + d)).st ≠ .retry)

/-- The key-input bytes XD sends after a descriptor (R193). -/
def keyInputs (d : Desc) (body : Bytes) : Tab Bytes :=
  ((List.range 4).filter (fun k => bit d.keymask k)).map (fun k =>
    let r := Tab.look {} d.keyref k
    (k, slice body r.off r.len))

/-- A descriptor leaves the port (R40, R62, R155): into the outstanding list and over the 12 ns crossing. -/
def descLeave (p : Nat) (m : Msg) (d : Desc) (at_ : Nat) (s : State) : State :=
  let r := s.src p
  if r.outst.length ≥ 1024 then selfIssue p m tNOT_ADMITTED d.cls d.msgid s
  else
    let die := m.die
    let s := s.pstat p 0x0B
    if ¬ dieOk s die then
      let s := if dieOk s (1 - die) then
          { s with port := { s.port with foreign := Tab.put [] s.port.foreign (1 - die) (Tab.look [] s.port.foreign (1 - die) ++ [s.dt]) } }
        else s
      selfSend p m tDOMAIN_UNAVAILABLE d.cls d.msgid s
    else
      let s := s.setSrc p { r with outst := r.outst ++ [⟨d.msgid, d.cls, m, die, m.conn ≠ r.conn && decide (p < 32), false, false⟩] }
      let q := s.disp die
      s.setDisp die { q with arrivals := q.arrivals ++ [{ due := ticksDt at_ + 12, desc := d, body := m.body, keyIn := keyInputs d m.body }] }

/-- Descriptors and self-issued responses leave the port in release order (R135): none before one released ahead of it. -/
def flushLineF (p : Nat) : Nat → State → State
  | 0, s => s
  | fuel + 1, s =>
    let r := s.src p
    match r.line with
    | [] => s
    | e :: rest =>
      let t := Nat.max e.readyAt r.leftAt
      let s1 := s.setSrc p { r with line := rest, leftAt := t }
      match e.st with
      | .waiting => s
      | .inCtx _ => s
      | .gone => flushLineF p fuel (s.setSrc p { r with line := rest })
      | .self st cls id => flushLineF p fuel (selfIssue p e.msg st cls id (s1.at (ticksDt t)))
      | .desc d => flushLineF p fuel (descLeave p e.msg d t (s1.at (ticksDt t)))

/-- Let everything at the head of the release order that is ready leave. -/
def flushLine (p : Nat) (s : State) : State :=
  let s := flushLineF p ((s.src p).line.length + 1) s
  if p < 32 ∧ (s.src p).tcp.st = 7 then tcpMaybeFin p s else s

/-- The identifier of a message as its header or arrival order gives it (R149). -/
def Msg.baseId (m : Msg) : Nat := m.hdrId.getD m.arr

/-- The lowest-numbered free context of a source at an instant. -/
def freeCtx (s : State) (p at_ : Nat) : Option Nat :=
  (List.range 8).find? (fun c => let x := Tab.look {} (s.src p).ctxs c; decide (x.msg = none ∧ x.freeAt ≤ at_))

/-- Start a context on a message (R135-R138). -/
def startCtx (p c : Nat) (m : Msg) (at_ : Nat) (s : State) : State :=
  let r := s.src p
  let x : Ctx := { msg := some m, t := at_, stop := Nat.max (dtTicks m.tstamp + xclk 92) (at_ + xclk 84) }
  s.setSrc p { r with ctxs := Tab.put {} r.ctxs c x
                      line := r.line.map (fun e => if e.msg = m ∧ e.st = .waiting then { e with st := .inCtx c } else e) }

/-- Release a message (R134, R135, R149): to the lowest free context, to wait, or to be answered MODE where its epoch's slot
holds no image (R169). `pre` answers it without a classifier (R131, R162). -/
def releaseMsg (p : Nat) (m : Msg) (pre : Option Nat) (s : State) : State :=
  let r := s.src p
  let e := epochAt s m.tstamp
  let m := { m with arr := r.arr, epoch := e.num, die := srcDie s e p }
  let s := (s.setSrc p { r with arr := (r.arr + 1) % 2 ^ 64 }).pstat p 0x0A
  let pre := match pre with
    | some st => some st
    | none => if ¬ classifies s ∨ (clsImage s (epochAt s m.tstamp) p).isNone then some tMODE else none
  let r := s.src p
  match pre with
  | some st => flushLine p (s.setSrc p { r with line := r.line ++ [⟨m, .self st 0 m.baseId, m.rel⟩] })
  | none =>
    let s := s.setSrc p { r with line := r.line ++ [⟨m, .waiting, m.rel⟩] }
    match freeCtx s p m.rel with
    | some c => if r.line.any (fun e => decide (e.st = .waiting)) then s else startCtx p c m m.rel s
    | none => s

end Sys2Proof.Machine
end

