-- ==== Sys2Proof/Machine/PowerOps.lean ====
section
/-!
DEFINITION. The shared operations of the power controller (R704-R739): wakes and their records, refusals, DOZE, DEGRADED.
-/
namespace Sys2Proof.Machine

/-- The domains of the quads. -/
def isQuadDom (d : Nat) : Bool := decide (11 ≤ d ∧ d ≤ 26)
/-- The domains of the PK engines. -/
def isPkDom (d : Nat) : Bool := decide (d = 9 ∨ d = 10)
/-- The domains with an idle timer (R718). -/
def hasTimer (d : Nat) : Bool := isQuadDom d || isPkDom d
/-- The domains with a PLL (R714). -/
def hasPll (d : Nat) : Bool := decide (d = 2 ∨ d = 7 ∨ d = 8 ∨ d = 29)

/-- The idle-timer condition of R718. -/
def domIdle (s : State) (d : Nat) : Bool := if isQuadDom d then quadIdle s (d - 11) else pkDieIdle s (d - 9)

/-- The idle time in ns of a domain: 8000:01 or 8000:02, 0 never (R718). -/
def idleNs (s : State) (d : Nat) : Nat := us (s.cfg 0x8000 (if isQuadDom d then 1 else 2))

/-- Restart a domain's idle timer where its condition holds (R718). -/
def rearmIdle (d : Nat) (s : State) : State :=
  let v := s.dom d
  if hasTimer d ∧ v.st = .ready ∧ domIdle s d ∧ idleNs s d ≠ 0 then s.setDom d { v with idleDue := some (s.dt + idleNs s d) }
  else s.setDom d { v with idleDue := none }

/-- Restart the idle timers of every domain that has one and whose condition changed. -/
def rearmAll (s : State) : State := ([9, 10] ++ (List.range 16).map (· + 11)).foldl (fun s d => rearmIdle d s) s

/-- Record a wake (R713): the ring of 16, PWR_WAKE and its time. -/
def recordWake (src idx dom flags stall : Nat) (s : State) : State :=
  let e : WakeRec := ⟨s.dt, src, idx, dom, flags, Nat.min stall (2 ^ 32 - 1)⟩
  { s with power := { s.power with wakeRing := (e :: s.power.wakeRing).take 16 } }

/-- Change the latest record of a domain's power-up, or of a device wake, made at `at_`. -/
def amendWake (d at_ : Nat) (g : WakeRec → WakeRec) : List WakeRec → List WakeRec
  | [] => []
  | e :: t => if e.dt = at_ ∧ (e.dom = d ∨ e.dom = 0xFF) then g e :: t else e :: amendWake d at_ g t

/-- A power-up ends (R711, R713, R714): its record takes the stall since the wake event, and FAILED where a timeout occurred. -/
def endWake (d : Nat) (failed : Bool) (s : State) : State :=
  let v := s.dom d
  let g (e : WakeRec) : WakeRec :=
    { e with stall := if e.dom = d then Nat.min (s.dt - v.wokenAt) (2 ^ 32 - 1) else e.stall
             flags := e.flags % 2 + (if failed || decide (2 ≤ e.flags) then 2 else 0) }
  { s with power := { s.power with wakeRing := amendWake d v.wokenAt g s.power.wakeRing } }

/-- A further source in the ACLK cycle of a wake (R713): the lowest code is recorded. -/
def coWake (d src idx : Nat) (s : State) : State :=
  let v := s.dom d
  if aclkOf v.wokenAt = aclkOf s.dt then
    { s with power := { s.power with
        wakeRing := amendWake d v.wokenAt (fun e => if e.dom = d ∧ src < e.src then { e with src := src, index := idx } else e) s.power.wakeRing } }
  else s

/-- The time at which a quad or PK power-down passes its step ends, from its start: E1 8, E2 264, E3 280 ns (R707). -/
def entryPoint (elapsed : Nat) : Nat := if elapsed < 8 then 1 else if elapsed < 264 then 2 else if elapsed < 280 then 3 else 4

/-- The state PWR_DSTn shows: ENTRY turns to DOWN at the point of no return (R706, R707). -/
def domShown (s : State) (d : Nat) : DomState :=
  let v := s.dom d
  if v.st = .entry ∧ 280 ≤ s.dt - v.since then .down else v.st

/-- DEGRADED holds in place of SERVICE while a unit SERVICE would use cannot serve (R724). -/
def impaired (s : State) : Bool :=
  unitsImpaired s || s.power.doms.any (fun e => decide (e.2.st = .retry ∨ e.2.st = .fenced))

/-- Settle SERVICE and DEGRADED after a fence or a recovery (R724); DOZE keeps its mode behind it. -/
def settleDegraded (s : State) : State :=
  let s := recomputeRated s
  let fix (m : Mode) : Mode :=
    if m = .service ∧ impaired s then .degraded else if m = .degraded ∧ ¬ impaired s then .service else m
  if s.power.mode = .doze ∨ s.power.mode = .deep then { s with power := { s.power with preDoze := fix s.power.preDoze } }
  else if fix s.power.mode = s.power.mode then s
  else s.setMode (fix s.power.mode)

/-- Every quad and PK domain is OFF or FENCED, at least one OFF (R720). -/
def dozeQuiet (s : State) : Bool :=
  let ds := [9, 10] ++ (List.range 16).map (· + 11)
  ds.all (fun d => decide ((s.dom d).st = .off ∨ (s.dom d).st = .fenced)) && ds.any (fun d => decide ((s.dom d).st = .off))

/-- DOZE begins in the cycle in which the last of these domains reaches OFF (R720). -/
def dozeEnter (s : State) : State :=
  if s.cfg 0x8000 3 = 1 ∧ (s.power.mode = .bypass ∨ s.power.mode = .service ∨ s.power.mode = .degraded) ∧ dozeQuiet s then
    let s := { s with power := { s.power with preDoze := s.power.mode, retMode := s.power.mode.code, dozeSince := s.dt } }
    (s.setMode .doze).bump 0xB880 3
  else s

/-- DOZE ends at the first power-up of one of these domains (R720). -/
def dozeLeave (s : State) : State := if s.power.mode = .doze then settleDegraded (s.setMode s.power.preDoze) else s

/-- The power-up bound in ns of a domain from its switch closing (R708, R709). -/
def upBound (d : Nat) : Nat :=
  if hasTimer d then 2000
  else aclk (320 + (if d = 2 then 800 else if hasPll d then 480 else 0))

/-- Close a domain's switch: UP, with the wake's source (R706); `from_` is the DT of the wake event. -/
def switchOn (d src idx : Nat) (rev : Bool) (from_ : Nat) (s : State) : State :=
  let v := s.dom d
  let s := s.setDom d { v with st := .up, since := s.dt, onAt := s.dt, wantUp := none, cause := (src, idx), wokenAt := from_,
                               rev := rev, idleDue := none }
  let s := if isQuadDom d then s.bump 0xB880 1 else if isPkDom d then s.bump 0xB880 2 else s
  let s := if src = 0x01 then s.bump 0xB880 0x0C else s
  if hasTimer d then dozeLeave s else s

/-- A wake that met its domain past the point of no return is held until OFF (R710, R711): recorded with REV. A further one joins it. -/
def holdWake (d src idx : Nat) (s : State) : State :=
  let v := s.dom d
  if v.fenceReq then s
  else if v.wantUp.isSome then coWake d src idx s
  else (recordWake src idx d 1 0 (s.setDom d { v with wantUp := some (src, idx), wokenAt := s.dt })).bump 0xB880 8

/-- A wake event for one domain (R710, R711, R714, R715, R732): in the LCLK in which the idle timer expires it undoes the expiry; a
commitment in a later LCLK of E1 makes the entry refused by DISPATCHER; any other wake aborts the entry. -/
def wakeDomain (d src idx : Nat) (s : State) : State :=
  let v := s.dom d
  match v.st with
  | .off => recordWake src idx d 0 0 (switchOn d src idx false s.dt s)
  | .entry =>
    if v.fenceReq then s else
    let e := s.dt - v.since
    let p := entryPoint e
    if e = 0 then rearmIdle d (s.setDom d { v with st := .ready, wantUp := none })
    else if p = 1 ∧ src = 0x02 then
      rearmIdle d (recordRefusal d 0x01 0 0 (s.setDom d { v with st := .ready, since := v.since + 8, wantUp := none, idleDue := none }))
    else if p ≤ 3 then
      -- R710: READY at the abort point, 32 LCLK later at the end of E3; the cache stays empty once E2 had started
      let at_ := v.since + (if p = 1 then 8 else if p = 2 then 264 else 312)
      let s := if p ≥ 2 ∧ isQuadDom d then emptyCache (d - 11) s else s
      let s := recordRefusal d 0x0A 1 p s
      rearmIdle d (s.setDom d { v with st := .ready, since := at_, onAt := s.dt, wantUp := none, idleDue := none })
    else holdWake d src idx s
  | .down => holdWake d src idx s
  | .up => let s := coWake d src idx s
           if src = 0x01 ∧ v.cause.1 ≠ 0x01 ∧ aclkOf v.wokenAt = aclkOf s.dt then s.bump 0xB880 0x0C else s
  | .ready => rearmIdle d s
  | .ret => s
  | .retry => s
  | .fenced => s

/-- The power domain that holds a fabric address (R30-R35, R704). -/
def accDomain (s : State) (addr : Nat) : Nat :=
  let region := addr / 2 ^ 32
  let off := addr % 2 ^ 32
  let blk := off / 0x10000
  if region ≤ 1 then
    if off < 0x00800000 then 11 + laneQuad (32 * region + off / 0x40000)
    else if off < 0x00880000 then
      let sp := s.spare (2 * region + (off - 0x00800000) / 0x40000)
      if sp.st = 3 then 11 + laneQuad sp.lane else 27 + region
    else if 0x01000000 ≤ off ∧ off < 0x01200000 then 11 + 8 * region + (off - 0x01000000) / 0x40000
    else if blk = 0x0F05 then 9 + region
    else 7 + region
  else if region = 2 then
    if blk < 0x0F00 ∨ blk = 0x0F00 ∨ blk = 0x0F01 then 2
    else if blk = 0x0F02 then 3
    else if blk = 0x0F03 ∨ blk = 0x0F04 then 5
    else if blk = 0x0F0B ∨ blk = 0x0F0C then 4
    else if blk = 0x0F0D then 6
    else 1
  else if region = 3 then (if blk = 0x0F03 then 30 else if blk = 0x0F04 then 31 else 29)
  else 30

/-- Wake every domain of a list. -/
def wakeAll (ds : List Nat) (src idx : Nat) (s : State) : State := ds.foldl (fun s d => wakeDomain d src idx s) s

/-- The quad domains. -/
def quadDoms : List Nat := (List.range 16).map (· + 11)

/-- Switch a domain off at once, with no steps (R712, R714): what it holds and does not keep is lost (R704). -/
def cutOff (d : Nat) (st : DomState) (s : State) : State :=
  let v := s.dom d
  loseDomain d (s.setDom d { v with st := st, since := s.dt, wantUp := none, idleDue := none })

/-- Cut off every domain of a list that is neither OFF nor FENCED (R714: FENCED lasts until a reset). -/
def cutAll (ds : List Nat) (s : State) : State :=
  ds.foldl (fun s d => if (s.dom d).st = .off ∨ (s.dom d).st = .fenced then s else cutOff d .off s) s

/-- The domains that ALARM and INERT leave on (R729): PD00, PD01, PD29; PD04 for the evidence log, and PD30-PD32, whose requests nothing
else could receive (DESIGN CHOICE, log entry 97). -/
def quietDomains (s : State) : State :=
  cutAll ((List.range 33).filter (fun d => decide (d ≠ 0 ∧ d ≠ 1 ∧ d ≠ 4 ∧ d < 29))) s

/-- The first refuser of R719 that holds for a quad or PK domain. -/
def domRefuser (s : State) (d : Nat) : Option Nat :=
  let q := d - 11
  let k := d - 9
  if (if isQuadDom d then quadBusyDispatch s q else pkBusyDispatch s k) then some 0x01
  else if loadPhase s then some 0x02
  else if (if isQuadDom d then quadTested s q else pkTested s k) then some 0x03
  else if (if isQuadDom d then s.power.holdQuads else s.power.holdPk) then some 0x04
  else none

/-- The first refuser of R719 that holds for DEEP. -/
def deepRefuser (s : State) : Option Nat :=
  if anyDescriptor s then some 0x01
  else if changeOpen s then some 0x02
  else if s.power.holdDeep then some 0x04
  else if anyTcpOpen s then some 0x05
  else if hostLinkUp s then some 0x06
  else if anyMirrorUp s then some 0x07
  else if s.dict.sess.isSome ∨ s.dict.half.isSome then some 0x08
  else if s.dict.slots.any (fun e => decide (e.2.state = .queued ∨ e.2.state = .running ∨ e.2.state = .partly)) then some 0x09
  else none

/-- Count and record a failed power-up (R714). -/
def recordFail (d : Nat) (s : State) : State :=
  let v := s.dom d
  let s := endWake d true s
  let s := { s with power := { s.power with failDom := d, failAttempt := v.attempt + 1, fails := satInc 16 s.power.fails } }
  s.bump 0xB880 9

end Sys2Proof.Machine
end

