-- ==== Sys2Proof/Machine/Admission.lean ====
section
/-!
DEFINITION. The admission test of a dispatcher (R180-R205): cost vectors, tails, placement, choice and commitment.
-/
namespace Sys2Proof.Machine

/-- The cost vector of a class as its certificate states it (R183, R389). -/
structure CostVec where
  c1 : Nat
  c2 : Nat
  naes : Nat
  su : Nat
  du : List Nat
  pkop : Nat
  pkk : Nat
  rmax : Nat
  deriving DecidableEq, Repr

/-- The certificate inside a program image: the 128 bytes before its signature (R387). -/
def certOf (img : Bytes) : Bytes := slice img (img.length - 224) 128

/-- The cost vector of an image (R389). -/
def costOf (img : Bytes) : CostVec :=
  let c := certOf img
  let u (o n : Nat) := beNat (slice c o n)
  ⟨u 56 4, u 60 4, u 64 4, u 68 1, (slice c 72 4).map BitVec.toNat, u 70 2, if u 70 2 = 0 then 4 else u 69 1, u 80 2⟩

/-- An owner term of a class in a configuration (R183). -/
def clsVal (s : State) (e : EpochCfg) (c sub : Nat) : Nat := EpochCfg.val s e (0x3100 + c) sub

/-- The bypass match list of a port in a configuration is not empty (R187). -/
def bypassListed (s : State) (e : EpochCfg) (p : Nat) : Bool :=
  match clsImage s e p with
  | some i => decide (byteAt i 10 ≠ 0) || bit (byteAt i 11).toNat 0
  | none => false

/-- Twice the trained rate in GT/s by its code. -/
def rateHalves : Nat → Nat
  | 1 => 5 | 2 => 10 | 3 => 16 | 4 => 32 | 5 => 64 | _ => 0

/-- The egress wait of a source (R187). A host source whose link is down admits nothing (DESIGN CHOICE, log entry 30). -/
def egressWait (s : State) (e : EpochCfg) (p : Nat) : Nat :=
  let k := EpochCfg.val s e (srcIdx p) 1
  let rl := EpochCfg.val s e (srcIdx p) 3
  if p ≥ 32 then
    let h := s.port.link * rateHalves s.port.rate
    if h = 0 then 2 ^ 64 else ceilDiv (k * (rl + 32) * 64) h
  else if pcfg s p 5 ≠ 0 then 0
  else
    let sr := EpochCfg.val s e (srcIdx p) 2
    let v := if pcfg s p 9 ≠ 0 then 4 else 0
    let fr := Nat.max 64 (18 + v + 16 + rl) + 20
    let byp := bypassListed s (curCfg s) (if p % 2 = 0 then p + 1 else p - 1)
    let be := (if byp then 9236 else fr) + (k - 1) * fr + sr * 84 + (if byp then 21504 else 0)
    if pcfg s p 2 = 1 then ceilDiv (be * 8) 10 else ceilDiv (be * 32) 100

/-- The tail charged to a job of a source (R186). -/
def tailOf (s : State) (e : EpochCfg) (p : Nat) : Nat := 8 + 12 + 16 + egressWait s e p

/-- The wake charge of a quad or PK domain at T_a (R195, R198); none where it cannot be woken. -/
def wakeCharge (s : State) (d ta : Nat) : Option Nat :=
  match (s.dom d).st with
  | .ready => some (if (s.dom d).since ≤ ta then 0 else 2500)
  | .up => some ((s.dom d).since + 2000 - ta)
  | .entry => some 2500
  | .down => some 2500
  | .off => some 2000
  | _ => none

/-- A cluster unit is out for a decision at T_a (R197, R206): fenced, or under test unless `inc`; a claim of the same LCLK comes after it. -/
def unitOutAt (v : Quad) (ta : Nat) (inc : Bool) (u : Nat) : Bool :=
  decide (v.unit u = 2) || (! inc && decide (v.unit u = 1 ∧ v.claimAt < ta))

/-- The penalty of a short cluster (R197): 2 LCLK with one AES pipeline out. -/
def quadXA (s : State) (q ta : Nat) (inc : Bool) : Nat :=
  if unitOutAt (s.quad q) ta inc 0 ∨ unitOutAt (s.quad q) ta inc 1 then 2 else 0

/-- A quad is a candidate for a class (R197). -/
def clusterOk (s : State) (q su naes ta : Nat) (inc : Bool) : Bool :=
  let out := unitOutAt (s.quad q) ta inc
  ! (out 0 && out 1 && decide (naes ≠ 0)) && ! (bit su 0 && out 2) && ! (bit su 1 && out 3) && ! (bit su 2 && out 4)

/-- A lane the test may place on (R201, R206, R207): a claim of the same LCLK comes after the admission. -/
def laneUsable (s : State) (l ta : Nat) (inc : Bool) : Bool :=
  let v := s.lane l
  decide (v.cause = 0) && ! v.subst && (inc || ! v.claimed || decide (ta ≤ v.claimAt)) &&
  (! (s.quad (laneQuad l)).late || s.domReady (11 + laneQuad l))

/-- Insert by run deadline, ties after (R190). -/
def insDl (x : Nat × Nat × Nat) : List (Nat × Nat × Nat) → List (Nat × Nat × Nat)
  | [] => [x]
  | y :: t => if x.1 < y.1 then x :: y :: t else y :: insDl x t

/-- The committed finishing times along a queue of (deadline, release, cost) (R191): none where one misses its deadline, else
the last finishing time of an entry with deadline `last`. -/
def finishes : Nat → List (Nat × Nat × Nat) → Option (List Nat)
  | _, [] => some []
  | f, (dl, rel, cost) :: t =>
    let f := Nat.max f rel + cost
    if f > dl then none else (finishes f t).map (fun r => f :: r)

/-- The waiting entries of a lane in queue order: deadline, release, cost. -/
def laneItems (v : Lane) : List (Nat × Nat × Nat) :=
  (v.queue.filter (fun e => decide (e.st = 0))).map (fun e => (e.dl, e.rel, e.cost))

/-- The committed end of the run in progress, or T_a (R191). -/
def laneBusyUntil (v : Lane) (ta : Nat) : Nat := match v.run with | some r => Nat.max ta r.until_ | none => ta

/-- The finishing time of entry `i` of a list found by its exact values: the position of the last equal one. -/
def finOf (x : Nat × Nat × Nat) : List (Nat × Nat × Nat) → List Nat → Nat
  | a :: t, f :: u => let r := finOf x t u; if r ≠ 0 then r else if a = x then f else 0
  | _, _ => 0

/-- Lane check of R201 and R202: the new entries fit, and their finishing times. -/
def laneFits (s : State) (l ta : Nat) (new : List (Nat × Nat × Nat)) : Option (List Nat) :=
  let v := s.lane l
  let q := new.foldl (fun q x => insDl x q) (laneItems v)
  (finishes (laneBusyUntil v ta) q).map (fun fs => new.map (fun x => finOf x q fs))

/-- A key reference planned for a job: the cache index of a hit, or the pipeline, start and ready time of a delivery (R192, R201). -/
structure KeyPlan where
  ref : Nat
  hit : Option Nat
  pipe : Nat
  ks : Nat
  kr : Nat
  du : Nat
  node : Nat
  input : Bytes
  deriving DecidableEq, Repr

/-- The pipeline with the earliest next-free time, ties to the lowest (R192). -/
def bestPipe (pipes : Tab Nat) : Nat :=
  [1, 2, 3].foldl (fun b i => if Tab.look 0 pipes i < Tab.look 0 pipes b then i else b) 0

/-- Book a derivation of `u` units (R192): pipeline, start, ready time, and the pipelines afterwards. -/
def bookPipe (pipes : Tab Nat) (ta u floor : Nat) : Nat × Nat × Nat × Tab Nat :=
  let i := bestPipe pipes
  let ks := Nat.max (ta + 12) (Tab.look 0 pipes i)
  (i, ks, Nat.max (ks + 80 + 40 * u + 16) floor, Tab.put 0 pipes i (ks + 40 * u))

/-- The cache entry a reference hits in a quad (R193, R195, R281): in a quad that is not READY only an entry that an earlier job's miss has booked,
still FILLING, is there. -/
def mirrorHit (q : Quad) (warm : Bool) (node : Nat) (inp : Bytes) : Option (Nat × CacheEnt) :=
  q.cache.find? (fun e => decide (e.2.st ≠ .empty ∧ e.2.node = node ∧ e.2.input = inp) && ! e.2.deferred && (warm || decide (e.2.st = .filling)))

/-- Plan the references that go to the quad (R192, R201): each missing one is booked on a pipeline of its own; one with DU 0 needs no delivery and
adds nothing. -/
def planKeys (s : State) (x : Desc) (ins : Tab Bytes) (cv : CostVec) (q ta qr : Nat) (warm : Bool) :
    List Nat → List KeyPlan → Tab Nat → List KeyPlan × Tab Nat
  | [], pl, pipes => (pl, pipes)
  | k :: ks, pl, pipes =>
    if ¬ bit x.keymask k ∨ k = cv.pkk then planKeys s x ins cv q ta qr warm ks pl pipes
    else
      let node := (Tab.look {} x.keyref k).node
      let inp := Tab.look [] ins k
      let du := cv.du.getD k 0
      match mirrorHit (s.quad q) warm node inp with
      | some e =>
        let kf := if e.2.st = .filling ∧ du ≠ 0 then e.2.kf else ta
        planKeys s x ins cv q ta qr warm ks (pl ++ [⟨k, some e.1, 0, 0, kf, du, node, inp⟩]) pipes
      | none =>
        if du = 0 then planKeys s x ins cv q ta qr warm ks pl pipes
        else
          let b := bookPipe pipes ta du qr
          planKeys s x ins cv q ta qr warm ks (pl ++ [⟨k, none, b.1, b.2.1, b.2.2.1, du, node, inp⟩]) b.2.2.2

/-- A placement that passes. -/
structure Cand where
  lane : Nat
  wq : Nat
  ready : Bool
  pwq : Nat := 0
  bd : Nat
  rel : Nat
  cost1 : Nat
  cost2 : Nat
  xa : Nat
  d1 : Nat
  dln : Nat
  fin : Nat
  plan : List KeyPlan
  pipes : Tab Nat
  pkw : Nat := 0
  vasw : Nat := 0
  pdl : Nat := 0
  sdl : Nat := 0
  arel : Nat := 0
  pkPlan : Option KeyPlan := none
  eng : Option Nat := none
  vas : Option Nat := none
  deriving DecidableEq, Repr

/-- The candidates of one lane (R201, R202, R204): one for a single-run class, one per passing engine otherwise. -/
def laneCands (s : State) (x : Desc) (ins : Tab Bytes) (e : EpochCfg) (cv : CostVec) (dln ta : Nat) (inc : Bool) (l : Nat) :
    List Cand :=
  let q := laneQuad l
  let d := laneDie l
  let need := if cv.pkop = 0 then 1 else 2
  if ¬ laneUsable s l ta inc ∨ (s.lane l).queue.length + need > 32 ∨ ¬ clusterOk s q cv.su cv.naes ta inc then []
  else
    match wakeCharge s (11 + q) ta with
    | none => []
    | some wq =>
      let qr := ta + wq
      let bd := Nat.max qr (s.quad q).mover + 8 + ceilDiv x.msglen 16
      let pk := planKeys s x ins cv q ta qr (s.domReady (11 + q)) [0, 1, 2, 3] [] (s.disp d).pipes
      let rel := pk.1.foldl (fun m p => Nat.max m p.kr) bd
      let xa := quadXA s q ta inc
      let cost1 := cv.c1 + cv.naes * xa
      let base : Cand := { lane := l, wq := wq, ready := s.domReady (11 + q), bd := bd, rel := rel, cost1 := cost1, cost2 := cv.c2 + cv.naes * xa, xa := xa,
                           d1 := dln, dln := dln, fin := 0, plan := pk.1, pipes := pk.2 }
      if cv.pkop = 0 then
        match laneFits s l ta [(dln, rel, cost1)] with
        | some (f :: _) => [{ base with fin := f }]
        | _ => []
      else
        match pkWork cv.pkop, wakeCharge s (9 + d) ta with
        | some (w, vw), some pwq =>
          let hb := clsVal s e x.cls 6
          let vasb := decide (clsVal s e x.cls 7 = 1) && pkSigns cv.pkop
          let less := cv.c2 + hb + 16
          if dln < less + w + pkY + 16 then []
          else
            let p := dln - less
            let d1 := p - w - pkY - 16
            if vasb ∧ p < vw + pkY then []
            else
              let sdl := if vasb then p - vw - pkY else p
              match laneFits s l ta [(d1, rel, cost1), (dln, p + 16, base.cost2)] with
              | some [f1, f2] =>
                let kk := cv.pkk
                let du := cv.du.getD kk 0
                let kp : Option (KeyPlan × Tab Nat) :=
                  if bit x.keymask kk ∧ du ≠ 0 then
                    let b := bookPipe pk.2 ta du ta
                    some (⟨kk, none, b.1, b.2.1, b.2.2.1, du, (Tab.look {} x.keyref kk).node, Tab.look [] ins kk⟩, b.2.2.2)
                  else none
                let arel := Nat.max (Nat.max (f1 + 16) (ta + pwq)) (match kp with | some k => k.1.kr | none => 0)
                (dieEngines d).filterMap (fun g =>
                  if pkFits s g inc ta arel sdl w then
                    let v2 := if vasb then (dieEngines d).find? (fun h => decide (h ≠ g) && pkFits s h inc ta sdl p vw) else none
                    if vasb ∧ v2.isNone then none
                    else some { base with d1 := d1, fin := f2, pwq := pwq, pkw := w, vasw := if vasb then vw else 0, pdl := p, sdl := sdl,
                                          arel := arel, pkPlan := kp.map (fun k => k.1),
                                          pipes := (match kp with | some k => k.2 | none => base.pipes),
                                          eng := some g, vas := v2 }
                  else none)
              | _ => []
        | _, _ => []

/-- The passing candidates (R205 pseudocode), lanes and engines ascending. -/
def place (s : State) (x : Desc) (ins : Tab Bytes) (e : EpochCfg) (cv : CostVec) (dln ta : Nat) (inc : Bool) : List Cand :=
  ((List.range 64).filter (fun l => bit (laneGroup s e x.src) l)).flatMap (laneCands s x ins e cv dln ta inc)

/-- The choice of R205: EARLIEST, or PACK. Ties keep the earlier candidate, the lowest lane and engine. -/
def choose (policy : Nat) : List Cand → Option Cand
  | [] => none
  | c :: cs =>
    some (cs.foldl (fun b x =>
      if policy = 1 then (if x.ready ∧ ¬ b.ready then x else b) else (if x.fin < b.fin then x else b)) c)

/-- The cache entry a miss takes (R280): an EMPTY one, else the unpinned one with the oldest last use; ties to the lowest. -/
def victim (q : Quad) : Nat :=
  match (List.range 1024).find? (fun i => decide ((Tab.look {} q.cache i).st = .empty ∧ (Tab.look {} q.cache i).pins = 0)) with
  | some i => i
  | none =>
    ((q.cache.filter (fun e => decide (e.2.pins = 0))).foldl (fun b e =>
      match b with | none => some e | some x => if e.2.last < x.2.last then some e else b)
      (none : Option (Nat × CacheEnt))).elim 0 (fun e => e.1)

/-- Set a cache entry of a quad. -/
def setCache (q i : Nat) (e : CacheEnt) (s : State) : State :=
  let v := s.quad q
  s.setQuad q { v with cache := Tab.put {} v.cache i e }

/-- A cache entry. -/
def cacheEnt (s : State) (q i : Nat) : CacheEnt := Tab.look {} (s.quad q).cache i

/-- Pin or allocate one planned reference, and issue its delivery (R193, R194, R280). -/
def commitKey (jn q d ta : Nat) (p : KeyPlan) (s : State) : Nat × State :=
  match p.hit with
  | some i => (i, setCache q i { cacheEnt s q i with pins := (cacheEnt s q i).pins + 1, last := ta } (s.bump (0xB440 + q) 1))
  | none =>
    let i := victim (s.quad q)
    let s := setCache q i { st := .filling, node := p.node, input := p.input, pins := 1, last := ta, kf := p.kr } (s.bump (0xB440 + q) 2)
    let dv : Delivery := ⟨p.ks, p.kr, 4 * d + p.pipe, p.node, p.input, p.du, d, some q, i, jn⟩
    (i, { s with key := { s.key with delivs := s.key.delivs ++ [dv] } })

/-- The lowest-numbered free frame slot of a lane (R268). -/
def freeFrame (s : State) (l : Nat) : Nat :=
  ((List.range 32).find? (fun k => ! (s.lane l).queue.any (fun e => decide ((s.job e.job).slot = k)))).getD 31

/-- Set whether an outstanding message counts as admitted (R188). -/
def setAdm (p id : Nat) (b : Bool) (s : State) : State :=
  let r := s.src p
  s.setSrc p { r with outst := r.outst.map (fun o => if o.id = id ∧ ¬ o.swept then { o with adm := b } else o) }

/-- Insert an entry into a lane queue by run deadline, ties in admission order (R190); the running entry stays first. -/
def insEnt (x : QEnt) : List QEnt → List QEnt
  | [] => [x]
  | y :: t => if y.st = 0 ∧ x.dl < y.dl then x :: y :: t else y :: insEnt x t

/-- Add an entry to a lane's queue. -/
def addEnt (l : Nat) (x : QEnt) (s : State) : State :=
  let n := s.unit.nextOrder
  let s := { s with unit := { s.unit with nextOrder := n + 1 } }
  s.setLane l { s.lane l with queue := insEnt { x with order := n } (s.lane l).queue }

/-- Commit a placement (R191-R196, R202, R204, R268). -/
def commitCand (jn : Nat) (x : Desc) (body : Bytes) (e : EpochCfg) (cv : CostVec) (ta : Nat) (c : Cand)
    (s : State) : State :=
  let q := laneQuad c.lane
  let d := laneDie c.lane
  let slot := freeFrame s c.lane
  let s := s.setDisp d { s.disp d with pipes := c.pipes }
  let s := wakeDomain (11 + q) 2 d s
  let s := s.setDom (11 + q) { s.dom (11 + q) with idleDue := none }
  let s := if c.wq ≠ 0 then s.bump (0xB200 + d) 0x0B else s
  let s := if c.pwq ≠ 0 then s.bump (0xB200 + d) 0x0B else s
  let s := s.setQuad q { s.quad q with mover := c.bd }
  -- the hits are pinned before a miss chooses its victim (R194, R280)
  let kp := (c.plan.filter (fun p => p.hit.isSome) ++ c.plan.filter (fun p => p.hit.isNone)).foldl (fun (a : Tab (Option Nat) × List Nat × State) p =>
    let r := commitKey jn q d ta p a.2.2
    (Tab.put none a.1 p.ref (some r.1), a.2.1 ++ [r.1], r.2)) (([], [], s) : Tab (Option Nat) × List Nat × State)
  let s := kp.2.2
  let j : Job := { desc := x, body := body, lane := c.lane, slot := slot, image := EpochCfg.val s e (0x3100 + x.cls) 2,
                   bank := Tab.look 0 e.banks c.lane, epoch := x.epoch, cost1 := c.cost1, cost2 := c.cost2, rel := c.rel,
                   d1 := c.d1, dl := c.dln, refs := kp.1, pins := kp.2.1, pkOp := cv.pkop, pkK := cv.pkk, pkW := c.pkw, pkY := pkY,
                   vasW := c.vasw, pkP := c.pdl, engine := c.eng, vas := c.vas, bodyDue := c.bd,
                   wakeBy := if c.wq ≠ 0 then some (ta + c.wq) else none, rmax := cv.rmax, xa := c.xa, ta := ta }
  let s := s.setJob jn { j with keysBy := c.plan.foldl (fun m p => Nat.max m p.kr) 0, body := body }
  let s := addEnt c.lane { job := jn, fin := false, dl := c.d1, rel := c.rel, cost := c.cost1 } s
  let s := match c.eng with
    | none => s
    | some g =>
      let s := addEnt c.lane { job := jn, fin := true, dl := c.dln, rel := c.pdl + 16, cost := c.cost2 } s
      let s := wakeDomain (9 + d) 2 d s
      let s := s.setDom (9 + d) { s.dom (9 + d) with idleDue := none }
      let noKey := c.pkPlan.isNone
      let pj : PkJob := { kind := 0, ref := jn, pkop := cv.pkop, rem := c.pkw, rel := c.arel, dl := c.sdl, epoch := x.epoch,
                          keyAt := if noKey then some ta else none, refused := if noKey then tKEY_UNAVAILABLE else 0 }
      let s := pkAdd g pj s
      let s := match c.vas with
        | none => s
        | some h => pkAdd h { kind := 1, ref := jn, pkop := cv.pkop, rem := c.vasw, rel := c.sdl, dl := c.pdl, epoch := x.epoch,
                                    keyAt := if noKey then some ta else none } s
      match c.pkPlan with
      | none => s
      | some p =>
        let dv : Delivery := ⟨p.ks, p.kr, 4 * d + p.pipe, p.node, p.input, p.du, d, none, g, jn⟩
        { s with key := { s.key with delivs := s.key.delivs ++ [dv] } }
  let s := { s with port := { s.port with unsent := Tab.put 0 s.port.unsent x.src (unsent s x.src + 1) } }
  let s := setAdm x.src x.msgid true s
  (s.bump (0xB200 + d) 1).bump (0xB100 + x.cls) 1

/-- The dispatcher answers a descriptor (R199, R240, R241): counted, recorded, and handed to the result link. -/
def dispAnswer (d ta : Nat) (x : Desc) (status count : Nat) (again : Bool) (s : State) : State :=
  let s := (s.bump (0xB200 + d) count).bump (0xB100 + x.cls) 2
  let s := if again then s.bump (0xB200 + d) 0x0A else s
  let s := audDispatch d ta status x s
  let h : ResHdr := { due := ta + 12, die := d, src := x.src, status := status, cls := x.cls, msgid := x.msgid, body := [],
                      deadline := x.deadline, kind := 2, tstamp := x.tstamp, epoch := x.epoch }
  { s with port := { s.port with resLink := s.port.resLink ++ [h] } }

/-- Decide one descriptor (R199, R223): the checks in order, the placement, and step 7; in a mode without admission the answer is MODE. `again`
marks a re-admission (R211). -/
def decideDesc (d jn ta : Nat) (x : Desc) (body : Bytes) (ins : Tab Bytes) (again : Bool) (s : State) : State :=
  let no (st count : Nat) : State := dispAnswer d ta x st count again s
  let dq := s.disp d
  match (if x.epoch ≠ 0 ∧ (x.epoch = dq.cur ∨ x.epoch = dq.prev) then epochCfg s x.epoch else none) with
  | none => no tEPOCH 7
  | some e =>
    if ¬ classifies s ∨ ¬ classServed s e x.cls then no tMODE 7
    else if x.deadline ≤ ta then no tNOT_ADMITTED 3
    else
      let cv := costOf (Tab.look [] e.progs (clsVal s e x.cls 2))
      if cv.rmax > EpochCfg.val s e (srcIdx x.src) 3 then no tNOT_ADMITTED 4
      else if unsent s x.src + 1 > EpochCfg.val s e (srcIdx x.src) 1 then no tNOT_ADMITTED 5
      else
        let tail := tailOf s e x.src
        if x.deadline < tail then no tNOT_ADMITTED 2
        else
          let dln := x.deadline - tail
          match choose (EpochCfg.val s e 0x3000 1) (place s x ins e cv dln ta false) with
          | some c => commitCand jn x body e cv ta c s
          | none => if (place s x ins e cv dln ta true).isEmpty then no tNOT_ADMITTED 2 else no tSERVICE_IN_TEST 6

/-- The arrival a dispatcher decides next: the earliest, ties by ascending SOURCE (R181, R229). -/
def nextArrival (d : Dispatch) : Option Arrival :=
  d.arrivals.foldl (fun b a => match b with
    | none => some a
    | some x => if a.due < x.due ∨ (a.due = x.due ∧ a.desc.src < x.desc.src) then some a else b) none

/-- Remove the first entry equal to `a`. -/
def dropArrival (a : Arrival) : List Arrival → List Arrival
  | [] => []
  | b :: t => if b = a then t else b :: dropArrival a t

/-- ADMISSION_TEST (R199): the dispatcher of a die decides the next descriptor that has reached it, 8 LCLK after it did. One
that reached it in core reset is answered ABORTED by its port (R67, R155). No effect where no descriptor is on its way. -/
def execAdmissionTest (die : Fin 2) (s : State) : Res :=
  let d := die.val
  match nextArrival (s.disp d) with
  | none => ok s
  | some a =>
    let ta := a.due + 8
    let s := s.at ta
    let s := s.setDisp d { s.disp d with arrivals := dropArrival a (s.disp d).arrivals }
    if (s.disp d).inReset ∨ a.lost then
      match (s.src a.desc.src).outst.find? (fun o => decide (o.id = a.desc.msgid) && ! o.swept) with
      | none => ok s
      | some o => ok (answerOutst a.desc.src tABORTED o s)
    else
      let jn := s.unit.nextJob
      let s := { s with unit := { s.unit with nextJob := jn + 1 } }
      ok (decideDesc d jn ta a.desc a.body a.keyIn false s)

end Sys2Proof.Machine
end

