-- ==== Sys2Proof/Machine/BankOps.lean ====
section
/-!
DEFINITION. Program images in a lane's banks (R287, R387, R392-R395): header fields, bank sets, whether a set fits, placement.
-/
namespace Sys2Proof.Machine

/-- A big-endian field of an image. -/
def imgU (img : Bytes) (o n : Nat) : Nat := beNat (slice img o n)
/-- CODEBASE. -/
def imgCodeBase (i : Bytes) : Nat := imgU i 12 2
/-- CODELEN. -/
def imgCodeLen (i : Bytes) : Nat := imgU i 14 2
/-- DATABASE. -/
def imgDataBase (i : Bytes) : Nat := imgU i 16 2
/-- DATALEN. -/
def imgDataLen (i : Bytes) : Nat := imgU i 18 2
/-- ZEROLEN. -/
def imgZeroLen (i : Bytes) : Nat := imgU i 20 2
/-- DSLIM. -/
def imgDslim (i : Bytes) : Nat := imgU i 22 2
/-- CUMASK. -/
def imgCuMask (i : Bytes) : Nat := imgU i 30 2
/-- FEATREQ. -/
def imgFeat (i : Bytes) : Nat := imgU i 32 4
/-- NUOP. -/
def imgNuop (i : Bytes) : Nat := imgU i 36 2
/-- CODE. -/
def imgCode (i : Bytes) : Bytes := slice i 64 (imgCodeLen i)
/-- DATA. -/
def imgData (i : Bytes) : Bytes := slice i (64 + imgCodeLen i) (imgDataLen i)
/-- CUTAB. -/
def imgCutab (i : Bytes) : List Nat := (slice i (64 + imgCodeLen i + imgDataLen i) 16).map BitVec.toNat
/-- UCODE as slot values. -/
def imgUcode (i : Bytes) : List Nat :=
  (chunks 8 (slice i (80 + imgCodeLen i + imgDataLen i) (8 * imgNuop i))).map beNat
/-- The length an image's header implies (R387). -/
def imgLength (i : Bytes) : Nat := 80 + imgCodeLen i + imgDataLen i + 8 * imgNuop i + 128 + 96

/-- The slots of CU `u` of an image, in CU order; none where it is not defined. -/
def imgCu (i : Bytes) (u : Nat) : Option (List Nat) :=
  if bit (imgCuMask i) u then
    let t := imgCutab i
    some (((imgUcode i).drop ((t.take u).foldl (· + ·) 0)).take (t.getD u 0))
  else none

/-- QD_FEAT0 of every quad (the register table under R297). -/
abbrev qdFeat0 : Nat := 0x0100FFFA

/-- A lane belongs to the lane group of some source (R287). -/
def inSomeGroup (s : State) (e : EpochCfg) (l : Nat) : Bool := (List.range 36).any (fun p => bit (laneGroup s e p) l)

/-- The bank set of a lane in a configuration (R287, R392): ascending image numbers with their images. -/
def bankSet (s : State) (e : EpochCfg) (l : Nat) : List (Nat × Bytes) :=
  if inSomeGroup s e l then
    let used := ((List.range 256).filter (fun c => decide (clsVal s e c 1 = 1))).map (fun c => clsVal s e c 2)
    e.progs.filter (fun p => used.contains p.1 && ! p.2.isEmpty)
  else []

/-- Two ranges overlap. -/
def overlap (a n b m : Nat) : Bool := decide (n ≠ 0 ∧ m ≠ 0 ∧ a < b + m ∧ b < a + n)

/-- Some pair of a list, earlier and later, satisfies `r`. -/
def anyPair {α : Type} (r : α → α → Bool) : List α → Bool
  | [] => false
  | x :: t => t.any (r x) || anyPair r t

/-- The merged definition of CU `u` in a bank set: the first image that defines it (R392). -/
def setCu (imgs : List Bytes) (u : Nat) : Option (List Nat) := (imgs.filterMap (fun i => imgCu i u)).head?

/-- DSLIM of a bank: the largest of its images (R392). -/
def setDslim (imgs : List Bytes) : Nat := imgs.foldl (fun m i => Nat.max m (imgDslim i)) 0

/-- Why a bank set does not fit (R393): 0 fits, else codes 1-5. -/
def bankFit (set : List (Nat × Bytes)) : Nat :=
  let imgs := set.map (fun p => p.2)
  let dlen (i : Bytes) := imgDataLen i + imgZeroLen i
  if anyPair (fun a b => overlap (imgCodeBase a) (imgCodeLen a) (imgCodeBase b) (imgCodeLen b)) imgs then 1
  else if anyPair (fun a b => overlap (imgDataBase a) (dlen a) (imgDataBase b) (dlen b)) imgs ||
          imgs.any (fun a => overlap (imgDataBase a) (dlen a) 0 (setDslim imgs)) then 2
  else if anyPair (fun a b => (List.range 16).any (fun u => match imgCu a u, imgCu b u with
      | some x, some y => decide (x ≠ y)
      | _, _ => false)) imgs then 3
  else if (List.range 16).foldl (fun n u => n + ((setCu imgs u).getD []).length) 0 > 256 then 4
  else if imgs.any (fun i => decide (imgFeat i &&& qdFeat0 ≠ imgFeat i)) then 5
  else 0

/-- Offsets of a bank's IMEM, DMEM half, decode set and CU table within lane local memory (R31, R266, R383). -/
def bankBases (b : Nat) : Nat × Nat × Nat × Nat :=
  if b = 0 then (0, 0x10000, 0x3E000, 0x3F000) else (0x8000, 0x18000, 0x3E800, 0x3F040)

/-- Write the decode set and CU table of a bank (R392). -/
def placeCu (imgs : List Bytes) (dec cut : Nat) : List Nat → Nat → Memory → Memory
  | [], _, m => m
  | u :: us, next, m =>
    match setCu imgs u with
    | some sl =>
      let m := Memory.writeN m (dec + 8 * next) (sl.flatMap (fun w => beBytes w 8))
      let m := Memory.writeN m (cut + 4 * u) (beBytes (2 ^ 31 + next * 2 ^ 16 + sl.length) 4)
      placeCu imgs dec cut us (next + sl.length) m
    | none => placeCu imgs dec cut us next m

/-- Place a bank set in a lane's memories (R392): every byte no image writes is 0. -/
def placeBank (b : Nat) (set : List (Nat × Bytes)) (m : Memory) : Memory :=
  let o := bankBases b
  let imgs := set.map (fun p => p.2)
  let m := ((((m.clear o.1 (o.1 + 0x8000)).clear o.2.1 (o.2.1 + 0x8000)).clear o.2.2.1 (o.2.2.1 + 0x800)).clear o.2.2.2 (o.2.2.2 + 0x40))
  let m := imgs.foldl (fun m i => Memory.writeN (Memory.writeN m (o.1 + imgCodeBase i) (imgCode i)) (o.2.1 + imgDataBase i) (imgData i)) m
  placeCu imgs o.2.2.1 o.2.2.2 (List.range 16) 0 m

/-- The custom opcodes a bank set defines (LN_n_CUDEF). -/
def setCuDef (set : List (Nat × Bytes)) : Nat := set.foldl (fun m p => m ||| imgCuMask p.2) 0

/-- The bank state of a lane's bank: 0 A, 1 B. -/
def Lane.bank (v : Lane) (b : Nat) : Nat := if b = 0 then v.bankA else v.bankB
/-- Set it. -/
def Lane.setBank (v : Lane) (b st : Nat) : Lane := if b = 0 then { v with bankA := st } else { v with bankB := st }
/-- The set a bank holds. -/
def Lane.bset (v : Lane) (b : Nat) : List (Nat × Bytes) := if b = 0 then v.setA else v.setB

/-- A bank is acknowledged (R290, R699): READY, at this DT. -/
def Lane.ackBank (v : Lane) (b dt : Nat) : Lane :=
  if b = 0 then { v with bankA := 2, ackA := some dt } else { v with bankB := 2, ackB := some dt }

/-- Load a bank with its set (R392): memories, set, defined customs, DSLIM. -/
def Lane.loadBank (v : Lane) (b : Nat) (set : List (Nat × Bytes)) : Lane :=
  let v := { v with mem := placeBank b set v.mem }
  if b = 0 then { v with setA := set, cudefA := setCuDef set, dslimA := setDslim (set.map (fun p => p.2)) }
  else { v with setB := set, cudefB := setCuDef set, dslimB := setDslim (set.map (fun p => p.2)) }

/-- An epoch held names a bank of a lane (R290). -/
def bankNamed (s : State) (l b : Nat) : Bool :=
  let n (e : Option EpochCfg) : Bool := match e with | some e => decide (Tab.look 0 e.banks l = b) | none => false
  n s.unit.epoch.cur || n s.unit.epoch.prev

/-- The latest epoch that names a bank of a lane, 0 for none (LN_n_EPA, LN_n_EPB). -/
def bankEpoch (s : State) (l b : Nat) : Nat :=
  let n (e : Option EpochCfg) : Nat := match e with | some e => if Tab.look 0 e.banks l = b then e.num else 0 | none => 0
  if n s.unit.epoch.cur ≠ 0 then n s.unit.epoch.cur else n s.unit.epoch.prev

/-- Every READY or ACTIVE bank of a lane is loaded again from the supervisor's copy, with its initial data and decode set (R267, R292). -/
def Lane.reload (v : Lane) : Lane :=
  let v := if v.bank 0 ≥ 2 then v.loadBank 0 (v.bset 0) else v
  if v.bank 1 ≥ 2 then v.loadBank 1 (v.bset 1) else v

/-- An ACTIVE bank that no epoch and no queue entry names becomes FREE (R290, R304). -/
def bankFree (l : Nat) (s : State) : State :=
  let go (b : Nat) (s : State) : State :=
    let v := s.lane l
    if v.bank b = 3 ∧ ¬ bankNamed s l b ∧ ¬ v.queue.any (fun e => decide ((s.job e.job).bank = b)) then
      s.setLane l (v.setBank b 0)
    else s
  go 1 (go 0 s)

/-- Free every such bank. -/
def banksFree (s : State) : State := (List.range 64).foldl (fun s l => bankFree l s) s

end Sys2Proof.Machine
end

