-- ==== Sys2Proof/Machine/KeyCmd.lean ====
section
/-!
DEFINITION. The key commands as operations on the key die (R409, R426, R440-R462): each takes its command block and answers a
CODE, a result and the state.
-/
namespace Sys2Proof.Machine

/-- A key command's answer. -/
structure KC where
  code : Nat
  res : Bytes
  st : State

/-- A failed command leaves the state as it was. -/
def kcFail (c : Nat) (s : State) : KC := ⟨c, [], s⟩

/-- Reserved node IDs and the anchors the device makes itself (R409). -/
def reservedNode (id : Nat) : Bool := decide (id ≤ 8) || (decide (0x101 ≤ id) && decide (id ≤ 0x1FF)) || decide (0x40000 ≤ id)

/-- A USE mask over bits. -/
def useMask (l : List Nat) : Nat := l.foldl (fun m b => m + 2 ^ b) 0

/-- The parent rule of a method (R429-R434). -/
def methodOk (n p : Node) : Bool :=
  let aes (k : Nat) : Bool := decide (1 ≤ k ∧ k ≤ 3)
  let tdes (k : Nat) : Bool := decide (k = 4 ∨ k = 5)
  match n.method with
  | 1 => aes p.ktype && decide (n.ilen ≤ 32)
  | 2 => tdes p.ktype && decide (n.ktype = 4) && decide (n.ilen ≤ if bit n.param 0 then 11 else 21)
  | 3 => tdes p.ktype && decide (n.ktype = 4) && decide (n.ilen ≤ if bit n.param 0 then 11 else 21)
  | 4 => (aes p.ktype || tdes p.ktype) && decide (n.ktype = p.ktype) && decide (n.ilen = if bit n.param 0 then 4 else 2)
  | 5 => aes p.ktype && isSym n.ktype && decide (1 ≤ n.param % 16 ∧ n.param % 16 ≤ 7) && decide (n.ilen = if bit n.param 7 then 24 else 12)
  | 6 => decide (p.ktype = 4 ∧ n.ktype = 4) && [1, 3, 6].contains (n.param % 16) && decide (n.ilen = if bit n.param 7 then 20 else 10) &&
    decide (n.use_ &&& useMask [4, 3, 1] = n.use_)
  | _ => false

/-- The attribute rules 1 to 8 of R426, for a node with its parent (a DERIVED node's). -/
def attrOk (n : Node) (parent : Option Node) : Bool :=
  let u := n.use_
  let e := n.engine
  let kt := n.ktype
  let known : Bool := isSym kt || decide (kt = 8 ∧ 16 ≤ n.param ∧ n.param ≤ 64) || isPriv kt || isPub kt
  let cls : Bool :=
    if n.mgmt then
      decide (e &&& useMask [4, 5] = e) && decide (u &&& useMask [5, 6, 7, 2, 3] = u) &&
      (decide (u &&& useMask [2, 3] = 0) || bit e 4)
    else decide (n.exportOf = 0) && decide (u &&& useMask [5, 6, 7] = 0) && decide (e &&& useMask [0, 1, 2, 3] = e ∧ e ≠ 0)
  let types : Bool := (decide (e % 8 = 0) || isSym kt) && (! bit e 3 || isPriv kt || isPub kt)
  let vas : Bool := ! n.vas || (isPriv kt && bit u 8)
  let der : Bool := match parent with
    | none => decide (n.method = 0)
    | some p =>
      bit p.use_ 5 && bit p.engine 5 && methodOk n p && decide (n.exportOf ≤ p.exportOf) &&
      (isSym kt || decide (kt = 8) || (decide (0x10 ≤ kt) && decide (kt ≤ 0x16)))
  known && cls && types && vas && der && decide (n.exportOf ≤ 2)

/-- The node's UNITS (R435, R437). -/
def nodeUnits (s : State) (id : Nat) : Nat :=
  match pathOf s id with
  | some p => pathUnits s p none
  | none => 16

/-- The fields of a command block (R460). -/
def kbNode (b : Bytes) : Nat := beNat (slice b 2 3)
/-- DLEN. -/
def kbLen (b : Bytes) : Nat := beNat (slice b 6 2)
/-- DATA. -/
def kbData (b : Bytes) : Bytes := b.drop 64
/-- AUX. -/
def kbAux (b : Bytes) : Nat := beNat (slice b 32 3)
/-- The form of a command block: lengths and reserved bytes (R460). AUX is also taken by a STAGE from a key block, which needs a protection key
(DEDUCED, log entry 92). -/
def kbOk (b : Bytes) : Bool :=
  let op := (byteAt b 0).toNat
  decide (64 ≤ b.length ∧ b.length = 64 + kbLen b) &&
  decide ((byteAt b 1).toNat ≤ (if op = 8 then 1 else 0)) && decide (kbNode b < 2 ^ 18) && decide (byteAt b 5 = 0) &&
  (decide (op = 1) || (slice b 8 24).all (fun x => decide (x = 0))) &&
  (decide (op = 6 ∨ op = 7 ∨ (op = 8 ∧ byteAt b 35 = 3)) || decide (kbAux b = 0)) &&
  (decide (op = 8) || (decide (byteAt b 35 = 0) && (slice b 36 16).all (fun x => decide (x = 0)))) &&
  (slice b 52 12).all (fun x => decide (x = 0))

/-- CREATE (R408, R409, R426, R461). The order of the codes, FORMAT for a reserved bit, and INTEGRITY while the anchors' region may not be
written are the model's (DESIGN CHOICE, log entry 92). -/
def kcCreate (b : Bytes) (s : State) : KC :=
  let id := kbNode b
  let t := slice b 8 24
  let n := recordOf t
  if reservedNode id ∨ (s.node id).kind ≠ 0 then kcFail 1 s
  else if n.state ≠ 0 ∨ n.origin ≠ 0 ∨ n.slot ≠ 0 ∨ n.version ≠ 0 ∨ n.newslot ≠ 0 ∨ n.units ≠ 0 ∨ byteAt t 19 ≠ 0 ∨
      bits n.attr 2 1 ≠ 0 ∨ n.use_ ≥ 2 ^ 11 ∨ n.engine ≥ 64 ∨ n.ilen ≥ 64 ∨ n.parent ≥ 2 ^ 18 then kcFail 0x0E s
  else if ¬ (if id ≤ 0x100 then n.kind = 2 else n.kind = 3 ∨ n.kind = 4) then kcFail 1 s
  else if n.kind = 2 ∧ regionReadOnly s 11 then kcFail 6 s
  else
    let p := s.node n.parent
    if (n.kind = 4 ∧ (p.kind = 0 ∨ n.parent = 0 ∨ p.state = 7)) ∨ (n.kind ≠ 4 ∧ n.parent ≠ 0) then kcFail 3 s
    else if ¬ attrOk n (if n.kind = 4 then some p else none) then kcFail 4 s
    else
      let n := if n.kind = 4 then (n.setOrigin 2) else n
      let n := { n with state := if n.kind = 4 then 2 else 1, slot := if n.kind = 2 then id - 1 else 0 }
      let t := s.setNode id n
      let u := nodeUnits t id
      if u > 15 then kcFail 0x0D s
      else
        let t := t.setNode id { n with units := u }
        ⟨0, readRecord t id, t⟩

/-- Clear both MRAM copies of an anchor (R461). -/
def clearAnchor (a : Nat) (s : State) : State :=
  let s := (writeAnchor a 0 (zeros 256) s).2
  let s := (writeAnchor a 1 (zeros 256) s).2
  { s with key := { s.key with anchors := Tab.drop s.key.anchors a, anchorSt := Tab.drop s.key.anchorSt a } }

/-- What deleting a node does: an anchor's copies are cleared, a run retires, its removals are ordered (R440, R441, R461). -/
def deleteNode (id : Nat) (s : State) : State :=
  let s := settleDelivs s
  let n := s.node id
  let t := s.setNode id {}
  let t := if n.kind = 2 then clearAnchor (id - 1) t else t
  let t := if n.kind = 3 ∧ n.state ≠ 1 then
      let t := t.setRun n.slot { t.run n.slot with role := 2 }
      { t with key := { t.key with olds := t.key.olds ++ [⟨n.slot, id, t.dt, none, []⟩] } }
    else t
  startScan id t

/-- DELETE (R440, R441, R461, R466). -/
def kcDelete (b : Bytes) (s : State) : KC :=
  let id := kbNode b
  let n := s.node id
  if id = 0 ∨ (0x101 ≤ id ∧ id ≤ 0x1FF) ∨ id ≤ 8 then kcFail 1 s
  else if n.kind = 0 then kcFail 2 s
  else if n.state = 3 ∨ n.state = 4 ∨ n.state = 5 then kcFail 9 s
  else if s.key.nodes.any (fun e => decide (e.2.kind = 4 ∧ e.2.parent = id)) then kcFail 0x0C s
  else ⟨0, [], deleteNode id s⟩

/-- Draw a symmetric key: TDES parities set, a key whose parts repeat drawn again (R442); the draws end after 8, with whatever the last one
gives (DESIGN CHOICE, log entry 93). -/
def drawTdes (n : Nat) : Nat → State → Bytes × State
  | 0, s => (oddParity (s.draw n).1, (s.draw n).2)
  | fuel + 1, s =>
    let r := s.draw n
    let k := oddParity r.1
    let ps := chunks 8 k
    if ps.eraseDups.length = ps.length then (k, r.2) else drawTdes n fuel r.2

/-- Draw a scalar below n by rejection (FIPS 186-5 A.2.2; R442); after 64 rejections the last draw is reduced (DESIGN CHOICE, log entry
93). -/
def drawScalar (n : Nat) : Nat → State → Nat × State
  | 0, s => (scalarOf n (s.draw 66).1, (s.draw 66).2)
  | fuel + 1, s =>
    let nb := Nat.log2 n + 1
    let r := s.draw (ceilDiv nb 8)
    let x := beNat r.1 >>> (8 * ceilDiv nb 8 - nb)
    if x ≤ n - 2 then (x + 1, r.2) else drawScalar n fuel r.2

/-- Generate a key of a type (R442), RSA apart; none for the public types. -/
def genKey (kt param : Nat) (s : State) : Option (Bytes × State) :=
  if kt = 4 ∨ kt = 5 then some (drawTdes (keyLen s kt 0) 8 s)
  else if isSym kt ∨ kt = 8 ∨ kt = 0x14 ∨ kt = 0x15 ∨ kt = 0x16 then some (s.draw (keyLen s kt param))
  else if isPriv kt ∧ kt ≠ 0x18 then
    match curveOf s kt param with
    | some c => let r := drawScalar c.n 64 s; some (beBytes r.1 (keyLen s kt param), r.2)
    | none => none
  else none

/-- Place a key in an AWAITING or new STORED or ANCHOR node (R422, R442): a CODE, 0 for success. -/
def storeKey (id : Nat) (n : Node) (key : Bytes) (s : State) : Nat × State :=
  if n.kind = 2 then (if key.length > 160 then (4, s) else putAnchor (id - 1) n key s)
  else
    let pub := if isPriv n.ktype ∧ n.ktype < 0x14 then publicOf s n.ktype n.param key else []
    match allocRun id n.ktype n.param 0 n.version key pub false s with
    | none => (5, s)
    | some (h, t) => (0, t.setNode id { n with state := 2, slot := h })

/-- What GENERATE and IMPORT append to the record: check value, or public key (R455, R461). -/
def keyProof (s : State) (n : Node) (key : Bytes) : Bytes :=
  if isPriv n.ktype ∨ isPub n.ktype then publicOf s n.ktype n.param key else checkValue n.ktype key

/-- GENERATE into an AWAITING node (R442), RSA apart. -/
def kcGenerate (b : Bytes) (s : State) : KC :=
  let id := kbNode b
  let n := s.node id
  if n.kind = 0 then kcFail 2 s
  else if (n.kind ≠ 2 ∧ n.kind ≠ 3) ∨ n.state ≠ 1 then kcFail 9 s
  else
    match genKey n.ktype n.param s with
    | none => kcFail 4 s
    | some (key, t) =>
      let r := storeKey id (n.setOrigin 0) key t
      if r.1 ≠ 0 then kcFail r.1 s else ⟨0, readRecord r.2 id ++ keyProof r.2 n key, r.2⟩

/-- BINDID (R448). -/
def bindId (s : State) : Bytes := if s.grp.id.isEmpty then serial s else s.grp.id

/-- SKS (R448). -/
def sksKey (s : State) : Bytes := kdfCtr (Tab.look [] s.key.anchors 1) (ascii "SV6400 SKB") (bindId s) 256

/-- The SKB of a node with a key (R448). -/
def makeSkb (s : State) (id : Nat) (n : Node) (key : Bytes) : Bytes :=
  let rec_ := recordBytes { n with state := 0, slot := 0, newslot := 0 }
  let wlen := if key.isEmpty then 24 else 8 * ceilDiv (16 + key.length) 8 + 8
  let head := beBytes 0x53564B42 4 ++ [1, byte s.power.lcs.code, 0, 0] ++ bindId s ++ beBytes id 3 ++ [0] ++ rec_ ++
    beBytes key.length 2 ++ beBytes wlen 2
  let head := fit head 64
  head ++ kwpWrap (sksKey s) ((sha384 head).take 16 ++ key)

/-- SAVE (R449, R458). -/
def kcSave (b : Bytes) (s : State) : KC :=
  let id := kbNode b
  let n := s.node id
  if id = 0x101 then kcFail 4 s
  else if n.kind = 0 then kcFail 2 s
  else if id ≤ 8 ∨ n.kind = 1 then kcFail 1 s
  else if n.state ≠ 2 then kcFail 9 s
  else if n.kind = 3 ∧ (s.run n.slot).bad then kcFail 6 (nodeUnusable id 1 n.slot s)
  else ⟨0, makeSkb s id n (if n.kind = 4 then [] else baseKey s id n), s⟩

/-- Open an SKB (R450): the CODE, its node, record and key. -/
def openSkb (s : State) (d : Bytes) : Nat × Nat × Node × Bytes :=
  let head := d.take 64
  let bad (c : Nat) : Nat × Nat × Node × Bytes := (c, 0, {}, [])
  let klen := beNat (slice d 44 2)
  let wlen := beNat (slice d 46 2)
  if d.length < 64 ∨ beNat (d.take 4) ≠ 0x53564B42 ∨ byteAt d 4 ≠ 1 ∨ slice d 6 2 ≠ [0, 0] ∨ byteAt d 19 ≠ 0 ∨
     (slice d 48 16).any (fun x => decide (x ≠ 0)) ∨ d.length ≠ 64 + wlen then bad 0x0E
  else if (byteAt d 5).toNat ≠ s.power.lcs.code ∨ slice d 8 8 ≠ bindId s then bad 7
  else
    match kwpUnwrap (sksKey s) (d.drop 64) with
    | none => bad 7
    | some m =>
      if m.length ≠ 16 + klen ∨ m.take 16 ≠ (sha384 head).take 16 then bad 7
      else (0, beNat (slice d 16 3), recordOf (slice d 20 24), m.drop 16)

/-- A TDES key's parity corrected (R471). -/
def fixParity (kt : Nat) (key : Bytes) : Bytes := if kt = 4 ∨ kt = 5 then oddParity key else key

/-- LOAD (R450, R472): which of R450's codes a condition gives, and that the UNITS of the parents now there are judged (R426 rule 9), are the
model's reading (DEDUCED, log entry 92). -/
def kcLoad (b : Bytes) (s : State) : KC :=
  let o := openSkb s (kbData b)
  if o.1 ≠ 0 then kcFail o.1 s
  else
    let id := o.2.1
    let n := o.2.2.1
    let key := fixParity n.ktype o.2.2.2
    if reservedNode id ∨ (s.node id).kind ≠ 0 ∨ ¬ (if id ≤ 0x100 then n.kind = 2 else n.kind = 3 ∨ n.kind = 4) then kcFail 1 s
    else
      let p := s.node n.parent
      if n.kind = 4 ∧ (p.kind = 0 ∨ n.parent = 0) then kcFail 1 s
      else if ¬ attrOk n (if n.kind = 4 then some p else none) then kcFail 4 s
      else
        let r := if n.kind = 4 then (0, s.setNode id { n with state := 2, slot := 0, newslot := 0 }) else storeKey id n key s
        let u := nodeUnits r.2 id
        if r.1 ≠ 0 then kcFail r.1 s
        else if 15 < u then kcFail 4 s
        else
          let t := r.2.setNode id { r.2.node id with units := u }
          ⟨0, readRecord t id, t⟩

/-- Derived keys of an X9.143 protection key: usage 0 encryption, 1 MAC (ANSI X9.143; PRESUMED, log entry 11). -/
def kbpkDerive (key : Bytes) (ver : Byte) (usage : Nat) : Bytes :=
  let bitsN := 8 * key.length
  if ver = 0x44 then
    let alg := if key.length = 16 then 2 else if key.length = 24 then 3 else 4
    ((List.range (ceilDiv bitsN 128)).flatMap (fun i => aesCmac key ([byte (i + 1)] ++ beBytes usage 2 ++ [0] ++ beBytes alg 2 ++
      beBytes bitsN 2))).take key.length
  else
    let alg := if key.length = 16 then 0 else 1
    ((List.range (ceilDiv bitsN 64)).flatMap (fun i => tdesCmac key ([byte (i + 1)] ++ beBytes usage 2 ++ [0] ++ beBytes alg 2 ++
      beBytes bitsN 2))).take key.length

/-- Skip the optional blocks of a header (R451): the bytes they take, none where one is malformed. -/
def skipOpts : Nat → Bytes → Option Nat
  | 0, _ => some 0
  | n + 1, d =>
    match hexBytes (slice d 2 2) with
    | some [l] =>
      if l ≠ 0 then
        if l.toNat < 4 ∨ d.length < l.toNat then none else (skipOpts n (d.drop l.toNat)).map (fun k => l.toNat + k)
      else
        match hexBytes (slice d 4 2) with
        | some [ll] =>
          match hexBytes (slice d 6 (2 * ll.toNat)) with
          | some lb =>
            let w := beNat lb
            if w < 6 + 2 * ll.toNat ∨ d.length < w then none else (skipOpts n (d.drop w)).map (fun k => w + k)
          | none => none
        | _ => none
    | _ => none

/-- An X9.143 block opened under a protection key (R451): the CODE, the header and the key. -/
def openX9 (kbpk : Bytes) (kt : Nat) (d : Bytes) : Nat × Bytes × Bytes :=
  let bad (c : Nat) : Nat × Bytes × Bytes := (c, [], [])
  let ver := byteAt d 0
  let ml : Nat := if ver = 0x44 then 16 else 8
  if ver ≠ 0x44 ∧ ver ≠ 0x42 then bad 0x0E
  else if ¬ (if ver = 0x44 then 1 ≤ kt ∧ kt ≤ 3 else kt = 4 ∨ kt = 5) then bad 4
  else
    match asciiDigits (slice d 1 4), asciiDigits (slice d 12 2) with
    | some len, some nopt =>
      if decNat len ≠ d.length ∨ d.length < 16 + 4 * ml then bad 0x0E
      else
        match skipOpts (decNat nopt) (d.drop 16) with
        | none => bad 0x0E
        | some k =>
          let hl := 16 + k
          match hexBytes (d.drop hl) with
          | none => bad 0x0E
          | some raw =>
            let body := raw.take (raw.length - ml)
            let mac := raw.drop (raw.length - ml)
            if body.isEmpty ∨ body.length % ml ≠ 0 then bad 0x0E
            else
              let ek := kbpkDerive kbpk ver 0
              let mk := kbpkDerive kbpk ver 1
              let pt := if ver = 0x44 then (cbcDec 16 (aesDec ek) mac body).1 else (cbcDec 8 (tdesDec ek) mac body).1
              let tag := if ver = 0x44 then aesCmac mk (d.take hl ++ pt) else tdesCmac mk (d.take hl ++ pt)
              if tag ≠ mac then bad 7
              else
                let kl := beNat (pt.take 2) / 8
                if pt.length < 2 + kl then bad 0x0E else (0, d.take 16, slice pt 2 kl)
    | _, _ => bad 0x0E

/-- The attributes an X9.143 header maps to (R452): KTYPE, CLASS, USE, ENGINE, EXPORT. -/
def x9Map (h key : Bytes) : Option (Nat × Nat × Nat × Nat × Nat) :=
  let us := String.ofList ((slice h 5 2).map (fun c => Char.ofNat c.toNat))
  let alg := (byteAt h 7).toNat
  let mode := (byteAt h 8).toNat
  let kt : Option Nat :=
    if alg = 0x41 then (match key.length with | 16 => some 1 | 24 => some 2 | 32 => some 3 | _ => none)
    else if alg = 0x54 then (match key.length with | 16 => some 4 | 24 => some 5 | _ => none)
    else if alg = 0x48 then (if 16 ≤ key.length ∧ key.length ≤ 64 then some 8 else none)
    else none
  let ex := if byteAt h 11 = 0x4E then 0 else 1
  let exOk := [0x4E, 0x45, 0x53].contains (byteAt h 11).toNat
  let mac : Option Nat := if mode = 0x43 then some 12 else if mode = 0x47 then some 4 else if mode = 0x56 then some 8 else none
  let bde (b d e : Nat) : Option Nat := if mode = 0x42 then some b else if mode = 0x44 then some d else if mode = 0x45 then some e else none
  match kt with
  | none => none
  | some kt =>
    if ¬ exOk then none
    else if ["B0", "B1", "E0"].contains us ∧ mode = 0x58 ∧ kt ≠ 8 then some (kt, 1, 32, 32, ex)
    else if ["K0", "K1"].contains us ∧ kt ≠ 8 then (bde 192 128 64).map (fun u => (kt, 1, u, 0, ex))
    else if us = "D0" ∧ kt ≠ 8 then (bde 3 2 1).map (fun u => (kt, 0, u, if kt ≤ 3 then 1 else 2, 0))
    else if us = "P0" ∧ kt ≠ 8 then (bde 16 16 16).map (fun u => (kt, 0, u, 4, 0))
    else if ["M1", "M3"].contains us ∧ (kt = 4 ∨ kt = 5) then mac.map (fun u => (kt, 0, u, 2, 0))
    else if us = "M6" ∧ kt ≤ 3 then mac.map (fun u => (kt, 0, u, 1, 0))
    else if us = "M7" ∧ kt = 8 then mac.map (fun u => (kt, 1, u, 16, ex))
    else none

/-- A MANAGEMENT key delivered to the wrap unit (R427): a CODE, its key and type. -/
def wrapKey (aux useBit : Nat) (s : State) : Nat × Bytes × Nat × State :=
  let n := s.node aux
  if n.kind = 0 then (2, [], 0, s)
  else if ¬ n.mgmt ∨ ¬ bit n.use_ useBit then (4, [], 0, s)
  else
    let d := deliver aux [] 15 2 s
    if d.status = 0 then (0, d.key, d.ktype, d.st) else (if d.status = tKEY_INTEGRITY then 6 else 9, [], 0, d.st)

/-- The key an X9.143 block gives a node (R451, R452): a CODE, the key and the state. -/
def importKey (aux : Nat) (d : Bytes) (n : Node) (s : State) : Nat × Bytes × State :=
  let w := wrapKey aux 7 s
  if w.1 ≠ 0 then (w.1, [], w.2.2.2)
  else
    let o := openX9 w.2.1 w.2.2.1 d
    let s := w.2.2.2
    if o.1 = 7 then (7, [], s.bump 0xB500 6)
    else if o.1 ≠ 0 then (o.1, [], s)
    else
      match x9Map o.2.1 o.2.2 with
      | none => (4, [], s)
      | some (kt, cl, u, e, ex) =>
        if n.ktype ≠ kt ∨ b2n n.mgmt ≠ cl ∨ n.use_ ≠ u ∨ n.engine ≠ e ∨ n.exportOf > ex then (4, [], s)
        else (0, fixParity kt o.2.2, s)

/-- IMPORT into an AWAITING node (R451). -/
def kcImport (b : Bytes) (s : State) : KC :=
  let id := kbNode b
  let n := s.node id
  if n.kind = 0 then kcFail 2 s
  else if (n.kind ≠ 2 ∧ n.kind ≠ 3) ∨ n.state ≠ 1 then kcFail 9 s
  else
    let i := importKey (kbAux b) (kbData b) n s
    if i.1 ≠ 0 then kcFail i.1 i.2.2
    else
      let r := storeKey id (n.setOrigin 1) i.2.1 i.2.2
      if r.1 ≠ 0 then kcFail r.1 s else ⟨0, readRecord r.2 id ++ keyProof r.2 n i.2.1, r.2⟩

/-- The header usage and mode of use that map back to a node's attributes (R452, R453): none where no row of the table gives them. -/
def x9Usage (n : Node) : Option (String × Nat) :=
  if n.use_ = 32 ∧ n.engine = 32 ∧ isSym n.ktype then some ("B0", 0x58)
  else if n.engine = 0 ∧ isSym n.ktype then
    (if n.use_ = 192 then some ("K0", 0x42) else if n.use_ = 128 then some ("K0", 0x44) else if n.use_ = 64 then some ("K0", 0x45) else none)
  else if n.engine = 16 ∧ n.ktype = 8 then
    (if n.use_ = 12 then some ("M7", 0x43) else if n.use_ = 4 then some ("M7", 0x47) else if n.use_ = 8 then some ("M7", 0x56) else none)
  else none

/-- An X9.143 version D block of a key (R451, R453), its padding drawn: exportability N, key version 00. -/
def makeX9 (kbpk key : Bytes) (ktype : Nat) (us : String) (mode : Nat) (s : State) : Bytes × State :=
  let pl := 16 * ceilDiv (2 + key.length) 16
  let r := s.draw (pl - 2 - key.length)
  let pt := beBytes (8 * key.length) 2 ++ key ++ r.1
  let tot := 16 + 2 * pl + 32
  let alg : Nat := if ktype = 8 then 0x48 else if ktype ≤ 3 then 0x41 else 0x54
  let dig (v : Nat) : Byte := byte (0x30 + v % 10)
  let h : Bytes := [0x44, dig (tot / 1000), dig (tot / 100), dig (tot / 10), dig tot] ++ ascii us ++
    [byte alg, byte mode, 0x30, 0x30, 0x4E, 0x30, 0x30, 0x30, 0x30]
  let mac := aesCmac (kbpkDerive kbpk 0x44 1) (h ++ pt)
  let ct := (cbcEnc 16 (aesEnc (kbpkDerive kbpk 0x44 0)) mac pt).1
  let hexc (v : Nat) : Byte := byte (if v < 10 then 0x30 + v else 0x37 + v)
  (h ++ (nibbles (ct ++ mac)).map hexc, r.2)

/-- EXPORT as an X9.143 version D block (R427, R453). A DERIVED node is exported where its path takes no input bytes, for only then is its key
one key (DEDUCED from R453 and R455, log entry 92); a node that no row of R452 describes receives CODE 0x0008. -/
def kcExport (b : Bytes) (s : State) : KC :=
  let id := kbNode b
  let n := s.node id
  if id = 0x101 then kcFail 4 s
  else if n.kind = 0 then kcFail 2 s
  else
    match pathOf s id with
    | none => kcFail 2 s
    | some path =>
      if ¬ n.mgmt ∨ path.any (fun e => decide (e.2.exportOf = 0)) then kcFail 8 s
      else if n.state ≠ 2 then kcFail 9 s
      else
        match x9Usage n with
        | none => kcFail 8 s
        | some (us, mode) =>
          let w := wrapKey (kbAux b) 6 s
          if w.1 ≠ 0 then kcFail w.1 w.2.2.2
          else if w.2.2.1 > 3 then kcFail 4 w.2.2.2
          else
            let d := deliver id [] 15 2 w.2.2.2
            if d.status ≠ 0 then kcFail (if d.status = tKEY_INTEGRITY then 6 else 8) d.st
            else
              let x := makeX9 w.2.1 d.key n.ktype us mode d.st
              ⟨0, x.1, x.2⟩

/-- A public key passes the validity rule of its type (R543). -/
def pubValid (s : State) (kt param : Nat) (k : Bytes) : Bool :=
  match kt with
  | 0x24 => match ed25519.dec k with
    | some u => decide (ed25519.mul 8 u ≠ (0, 1))
    | none => false
  | 0x25 => match ed448.dec k with
    | some u => decide (ed448.mul 4 u ≠ (0, 1))
    | none => false
  | 0x26 => decide (k.length = 32)
  | 0x28 =>
    let nb := k.length - 4
    let n := beNat (k.take nb)
    let e := beNat (k.drop nb)
    decide (5 ≤ k.length ∧ Nat.log2 n + 1 = 8 * nb ∧ n % 2 = 1 ∧ e % 2 = 1 ∧ 3 ≤ e) &&
    (decide (8 * nb ≥ 2048 ∧ 8 * nb ≤ 8192 ∧ 8 * nb % 1024 = 0)) &&
    (List.range 32768).all (fun i => decide (i = 0) || decide (n % (2 * i + 1) ≠ 0))
  | _ =>
    match curveOf s kt param with
    | some c =>
      (match c.dec k with
      | some q => decide (c.h ≤ 1) || decide (c.mul c.n (some q) = none)
      | none => false)
    | none => false

/-- The type of a LOADPUB key by its length (DESIGN CHOICE, log entry 12): 32 bytes are Ed25519 where they are valid for it. -/
def pubType (s : State) (k : Bytes) : Option (Nat × Nat) :=
  match k.length with
  | 65 => some (0x20, 0)
  | 97 => some (0x21, 0)
  | 133 => some (0x22, 0)
  | 57 => some (0x25, 0)
  | 32 => if pubValid s 0x24 0 k then some (0x24, 0) else some (0x26, 0)
  | l =>
    if l ≥ 260 ∧ (l - 4) % 128 = 0 then some (0x28, (l - 4) / 128 - 1)
    else match (List.range 16).find? (fun c => match curveOf s 3 c with | some v => decide (1 + 2 * v.len = l) | none => false) with
      | some c => some (0x23, c)
      | none => none

/-- LOADPUB (R454). -/
def kcLoadpub (b : Bytes) (s : State) : KC :=
  let id := kbNode b
  let k := kbData b
  if reservedNode id ∨ id ≤ 0x100 ∨ (s.node id).kind ≠ 0 then kcFail 1 s
  else
    match pubType s k with
    | none => kcFail 0x0E s
    | some (kt, param) =>
      if ¬ pubValid s kt param k then kcFail 0x0E s
      else
        let n : Node := { kind := 3, ktype := kt, param := param, attr := 2 ^ 5, use_ := if kt = 0x26 then 2 ^ 10 else 2 ^ 9,
                          engine := 8, units := 1 + ceilDiv (nextOf k.length) 16 }
        let r := storeKey id n k s
        if r.1 ≠ 0 then kcFail r.1 s else ⟨0, readRecord r.2 id, r.2⟩

/-- READ (R461). -/
def kcRead (b : Bytes) (s : State) : KC :=
  let id := kbNode b
  let n := s.node id
  if id ≠ 0 ∧ n.kind = 0 then kcFail 2 s
  else
    let r := s.run n.slot
    let head : Bytes :=
      if n.kind = 3 ∧ n.state ≠ 1 then
        [if r.ust ∨ r.bad then 3 else 1, byte r.ktype, byte r.next, byte r.param] ++ beBytes r.key.length 2 ++ beBytes r.owner 3 ++
        [byte r.role] ++ beBytes r.version 2 ++ zeros 4
      else zeros 16
    ⟨0, readRecord s id ++ head, s⟩

/-- MR0-MR15 in order (R456, R622). -/
def mrSum (s : State) : Bytes := sha384 ((List.range 16).flatMap (fun i => Tab.look (zeros 48) s.mr.vals i))

/-- Sign a statement body under IDK (R456, R846); an r or s of 0 gives no signature bytes (R532). -/
def idkSign (body : Bytes) (s : State) : Bytes × State :=
  let r := ecdsaDraw p384 s.key.idk (sha384 body) s
  (r.1.getD (zeros 96), r.2)

/-- An attestation statement (R456, R457, R472, R846): a CODE, the statement, the state. -/
def attest (id : Nat) (nonce : Bytes) (s : State) : KC :=
  let n := s.node id
  if s.power.lcs = .retired ∨ s.power.mode = .alarm then kcFail 0x0F s
  else if s.key.rootSt = 5 ∨ s.key.root.isEmpty then kcFail 0x10 s
  else if id ≠ 0 ∧ (n.kind = 0 ∨ n.state = 0 ∨ n.state = 1 ∨ n.state = 7) then kcFail 2 s
  else if id ≠ 0 ∧ n.state = 6 then kcFail 6 s
  else
    let n : Node := if id = 0 then { kind := 1 } else n
    let path := if id = 0 then [] else (match pathOf s id with | some p => p.drop 1 | none => [])
    let key := if id = 0 ∨ n.kind = 4 then [] else baseKey s id n
    let isPk : Bool := isPriv n.ktype || isPub n.ktype
    let pub := if id = 0 ∨ n.kind = 4 then [] else if isPk then publicOf s n.ktype n.param key else checkValue n.ktype key
    let fl := b2n (! pub.isEmpty && isPk) + 2 * b2n (! pub.isEmpty && ! isPk) + 4 * b2n s.log.full + 8 * b2n (! s.grp.id.isEmpty)
    let effexp := (path.map (fun e => e.2.exportOf)).foldl Nat.max n.exportOf
    let efforig := if n.kind = 4 then (match path.getLast? with | some e => e.2.origin | none => n.origin) else n.origin
    let body := beBytes 0x53564154 4 ++ [1, byte s.power.lcs.code, byte n.ktype, byte fl] ++ serial s ++ beBytes s.dt 8 ++
      beBytes id 3 ++ [byte n.attr] ++ beBytes n.use_ 2 ++ [byte n.engine, byte n.kind] ++ beBytes n.version 2 ++
      [byte effexp, byte efforig, byte path.length, 0, 0, 0] ++ fit nonce 32 ++ mrSum s ++
      (if s.grp.id.isEmpty then zeros 8 else fit s.grp.id 8) ++ beBytes s.log.count 4 ++ beBytes pub.length 2 ++ [0, 0] ++
      path.flatMap (fun e => beBytes e.1 3 ++ [byte e.2.kind, byte e.2.method, byte e.2.attr, 0, 0]) ++ pub
    let sg := idkSign body s
    ⟨0, body ++ sg.1, sg.2⟩

/-- ATTEST (R456). -/
def kcAttest (b : Bytes) (s : State) : KC :=
  let d := kbData b
  if d.length ≠ 0 ∧ d.length ≠ 32 then kcFail 0x0E s else attest (kbNode b) d s

/-- The replacement of a node. -/
def State.repl (s : State) (id : Nat) : Repl := Tab.look {} s.key.repl id
/-- Set the replacement of a node. -/
def State.setRepl (s : State) (id : Nat) (r : Repl) : State :=
  { s with key := { s.key with repl := Tab.place s.key.repl id r } }

/-- Return a replacement to ACTIVE (R443): the new run zeroised. -/
def unstage (id : Nat) (s : State) : State :=
  let n := s.node id
  let s := if (s.repl id).has then freeRun (s.repl id).head s else s
  let s := s.setNode id { n with state := 2, newslot := 0 }
  ({ s with key := { s.key with repl := Tab.drop s.key.repl id } }).bump 0xB500 9

/-- The copy an anchor replacement is written into: the one the per-datum rule would lose (R446). -/
def losingCopy (s : State) (a : Nat) : Nat := match anchorChoice s a with | some 0 => 1 | some _ => 0 | none => 0

/-- Stage a key in an ACTIVE STORED or ANCHOR node (R443, R446): a CODE and the state. -/
def stageKey (id : Nat) (key : Bytes) (origin : Nat) (auto : Bool) (op : Option Nat) (check : Bytes) (s : State) : Nat × State :=
  let n := s.node id
  let r : Repl := { key := key, auto := auto, stageOp := op, check := check, origin := origin }
  if n.kind = 2 then
    if key.length > 160 then (4, s)
    else
      let w := writeAnchor (id - 1) (losingCopy s (id - 1)) (anchorRecord s (id - 1) { n with version := n.version + 1 } key false) s
      if w.1 ≠ 0 then (6, s) else (0, (w.2.setRepl id r).setNode id { n with state := 3 })
  else
    let pub := if isPriv n.ktype ∧ n.ktype < 0x14 then publicOf s n.ktype n.param key else []
    match allocRun id n.ktype n.param 1 (n.version + 1) key pub false s with
    | none => (5, s)
    | some (h, t) => (0, (t.setRepl id { r with has := true, head := h }).setNode id { n with state := 3, newslot := h })

/-- Why a STAGE is refused before its key is made (R443, R445, R458): 0 accepted. -/
def stageErr (s : State) (id : Nat) : Nat :=
  let n := s.node id
  if n.kind = 0 then 2
  else if id = 0x101 then 4
  else if (n.kind ≠ 2 ∧ n.kind ≠ 3) ∨ n.state ≠ 2 then 9
  else if n.version = 0xFFFF then 0x0A
  else 0

/-- The commit point (R445, R446): one write of the node record; the scan and, later, the freeing of the old run follow. -/
def commitPoint (id : Nat) (op : Option Nat) (s : State) : State :=
  let s := settleDelivs s
  let n := s.node id
  let r := s.repl id
  let s := { s with key := { s.key with repl := Tab.drop s.key.repl id } }
  let s := s.bump 0xB500 8
  let n' := { n.setOrigin r.origin with state := 2, version := n.version + 1, newslot := 0 }
  let s := if n.kind = 2 then
      let a := id - 1
      let c := losingCopy s a
      -- R446: the copy written at STAGE is the loser while its COMMIT is clear
      let s := (writeAnchor a c (anchorRecord s a n' r.key true) s).2
      let s := { s with key := { s.key with anchors := Tab.put [] s.key.anchors a r.key } }
      { (s.setNode id n') with key := { (s.setNode id n').key with olds := s.key.olds ++ [⟨0x10000, id, s.dt, op, []⟩] } }
    else
      let s := s.setRun n.slot { s.run n.slot with role := 2 }
      let s := s.setRun r.head { s.run r.head with role := 0, version := n'.version }
      let s := s.setNode id { n' with slot := r.head }
      { s with key := { s.key with olds := s.key.olds ++ [⟨n.slot, id, s.dt, op, []⟩] } }
  startScan id s

/-- A VERIFIED replacement becomes PREPARED (R443): with AUTOCOMMIT the commit point follows, else the STAGE ends DONE. -/
def prepared (id : Nat) (s : State) : State :=
  let r := s.repl id
  let s := s.setNode id { s.node id with state := 5 }
  if r.auto then commitPoint id r.stageOp s
  else match r.stageOp with
    | some k => (doneSlot k (readRecord s id) s).setRepl id { r with stageOp := none }
    | none => s

/-- The local checks of a staged key (R444): 0, or the CODE of the first that fails. -/
def localChecks (s : State) (id : Nat) : Nat :=
  let n := s.node id
  let r := s.repl id
  let key := if n.kind = 2 then r.key else (s.run r.head).key
  let old := baseLen s id n
  if key.length ≠ old then 6
  else if r.badSlot ∨ (n.kind = 3 ∧ (s.run r.head).bad) then 6
  else if r.check.any (fun b => decide (b ≠ 0)) ∧ r.check ≠ fit (checkValue n.ktype key) 16 then 6
  else if isPriv n.ktype ∧ n.ktype < 0x14 ∧ n.kind = 3 ∧ (s.run r.head).pub ≠ publicOf s n.ktype n.param key then 6
  else 0

/-- The audit key of a chain (R249, R458): node 0x00101 made anew, its public key and its statement. -/
def makeAuditKey (alg bootid : Nat) (s : State) : Bytes × Bytes × State :=
  let old := s.node 0x101
  let s := if old.kind = 3 then freeRun old.slot s else s
  let kt := if alg = 1 then 0x10 else if alg = 3 then 0x14 else 0x11
  match genKey kt 0 s with
  | none => ([], [], s)
  | some (key, s) =>
    let pub := publicOf s kt 0 key
    match allocRun 0x101 kt 0 0 0 key (if kt = 0x14 then [] else pub) true s with
    | none => ([], [], s)
    | some (h, s) =>
      let s := s.setNode 0x101 { kind := 3, state := 2, ktype := kt, use_ := 2 ^ 8, engine := 8, slot := h,
                                 units := 1 + ceilDiv (nextOf key.length) 16 }
      let a := attest 0x101 (beBytes bootid 8 ++ zeros 24) s
      (pub, a.res, a.st)

/-- Delete the audit key at the end of its chain (R458). -/
def dropAuditKey (s : State) : State :=
  let n := s.node 0x101
  if n.kind = 3 then freeRun n.slot (s.setNode 0x101 {}) else s

end Sys2Proof.Machine
end

