-- ==== Sys2Proof/Machine/EpochOps.lean ====
section
/-!
DEFINITION. Epochs as shared operations (R217-R224, R287-R290): forming a configuration, the load phase, the flip, DRAIN, mode
entry, and the start of the audit chain (R244, R249).
-/
namespace Sys2Proof.Machine

/-- Set the epoch machinery. -/
def State.setEpoch (s : State) (e : EpochState) : State := { s with unit := { s.unit with epoch := e } }

/-- The next epoch number (R217). -/
def nextEpoch (n : Nat) : Nat := if n + 1 < 2 ^ 32 then n + 1 else 1

/-- Modes in which the dispatchers take descriptors (R223, R244). -/
def takesDescriptors (m : Mode) : Bool := [Mode.service, .degraded, .drain, .ceremony, .update].contains m

/-- The audit chains start (R244, R249): one BOOTID for both dies, a new audit key, block 0 open from now. -/
def chainStart (s : State) : State :=
  if (s.aud 0).run ∨ (s.aud 1).run then s
  else
    let b := s.draw 8
    let bootid := beNat b.1
    let alg := s.cfg 0x3800 2
    let k := makeAuditKey alg bootid b.2
    let s := ((k.2.2.setEnt 0x3800 4 b.1).setEnt 0x3800 5 k.1).setEnt 0x3800 6 k.2.1
    let s := (s.setNum 0x3002 4 (audWork alg)).setNum 0x3002 5 pkY
    [0, 1].foldl (fun s d =>
      s.setAud d { s.aud d with run := true, erased := false, bootid := bootid, nrec := 0, bseq := 0, start := s.dt, recs := [],
                                prev := sha384 k.2.1, corerst := [], pendBlocks := [], items := [], offset := 0, undeliv := [],
                                lastCut := s.dt, alg := alg, interval := s.cfg 0x3800 1 }) s

/-- Enter a mode (R724, R725): DEGRADED in place of SERVICE, PD06 on only in CEREMONY (R571), the audit chain at the first
mode that takes descriptors. -/
def enterMode (m : Mode) (s : State) : State :=
  let m := if (m = .service ∨ m = .degraded) then (if impaired s then .degraded else .service) else m
  let s := if takesDescriptors m ∧ s.power.lcs ≠ .retired then chainStart s else s
  let s := if m = .ceremony ∧ (s.dom 6).st = .off then s.setDom 6 { s.dom 6 with st := .up, since := s.dt, wokenAt := s.dt } else s
  let s := if s.power.mode = .ceremony ∧ m ≠ .ceremony then cutOff 6 .off s else s
  let s := if m = .ceremony then { s with power := { s.power with ceremonySince := s.dt } } else s
  if s.power.mode = m then s else s.setMode m

/-- Record the return mode when CEREMONY or UPDATE is entered, and restore UPDATE's own on the way back (R727). -/
def noteReturn (target : Mode) (s : State) : State :=
  let m := baseMode s
  let p := s.power
  match target with
  | .ceremony =>
    if m = .ceremony then s
    else if p.lcs = .vendor then { s with power := { p with ret2 := 0, retMode := Mode.bypass.code } }
    else if m = .update then { s with power := { p with ret2 := p.retMode, retMode := m.code } }
    else { s with power := { p with retMode := m.code } }
  | .update =>
    if m = .ceremony then { s with power := { p with retMode := p.ret2, ret2 := 0 } }
    else if m = .update then s
    else { s with power := { p with retMode := m.code } }
  | _ => s

/-- The configuration of a change: the values in force with the pending writes (R218). -/
def pendingEnts (s : State) : Tab (Option Bytes) :=
  s.dict.pendE.foldl (fun t e => Tab.put none t e.1 (if e.2 = s.dflt (e.1 / 256) (e.1 % 256) then none else some e.2)) s.dict.force

/-- Start a configuration change to a mode (R218, R221): it waits in QUEUED. -/
def startFlip (target : Nat) (slot : Option Nat) (s : State) : State :=
  let e := s.unit.epoch
  let target := if target = Mode.degraded.code then Mode.service.code else target
  let num := match e.cur with | some c => nextEpoch c.num | none => 1
  let s := match slot with | some k => s.setSlot k { s.slot k with state := .queued } | none => s
  let s := if baseMode s = Mode.ofCode target ∨ (target = 4 ∧ baseMode s = .degraded) then s
           else { s with power := { s.power with modeTarget := some (Mode.ofCode target, slot.getD 256) } }
  s.setEpoch { e with shadow := some { num := num, mode := target, ents := pendingEnts s }, st := .queued, slot := slot,
                      target := target, acks := 0, need := 0, packs := 0 }

/-- Jobs of the previous epoch are left (R221, R222, R304): descriptors on their way, jobs not answered, and queue entries whose body is still read. -/
def prevWork (s : State) : Bool :=
  match s.unit.epoch.prev with
  | none => false
  | some p =>
    s.unit.jobs.any (fun j => decide (j.2.epoch = p.num)) ||
    s.unit.disps.any (fun d => d.2.arrivals.any (fun a => decide (a.desc.epoch = p.num))) ||
    s.port.srcs.any (fun r => r.2.line.any (fun l => decide (l.msg.epoch = p.num)))

/-- The previous epoch is held only while it has work; then its banks become FREE (R217, R221, R290). -/
def dropPrev (s : State) : State :=
  if s.unit.epoch.prev.isNone ∨ prevWork s then s
  else
    let s := s.setEpoch { s.unit.epoch with prev := none }
    banksFree ((s.setDisp 0 { s.disp 0 with prev := 0 }).setDisp 1 { s.disp 1 with prev := 0 })

/-- A lane that must acknowledge: presented and in service (R218). -/
def mustAck (s : State) (l : Nat) : Bool := decide ((s.lane l).cause = 0) && ! (s.lane l).subst

/-- Every acknowledgement has arrived: the flip time is written (R218). -/
def ackCheck (s : State) : State :=
  let e := s.unit.epoch
  if e.st = .loading ∧ e.need &&& e.acks = e.need then s.setEpoch { e with st := .acked, tf := Nat.max e.lastAck e.loadAt + 2000 } else s

/-- A lane's part in a load (R289, R393): the bank its epoch will use, whether it must load, and why its set does not fit. -/
def lanePlan (s : State) (n : EpochCfg) (l : Nat) : Nat × Bool × Nat :=
  let set := bankSet s n l
  let cb := match s.unit.epoch.cur with | some c => Tab.look 0 c.banks l | none => 1
  if s.unit.epoch.cur.isSome ∧ set = (s.lane l).bset cb then (cb, false, 0)
  else if s.unit.epoch.cur.isNone ∧ set = [] then (0, false, 0)
  else (1 - cb, true, bankFit set)

/-- The load phase starts (R218, R221, R287, R289, R400): the configuration takes the images, classifiers and curves as they
stand; ports and dispatchers acknowledge at once; lanes that change wait for their banks, and sleeping quads are woken. -/
def startLoad (s : State) : State :=
  let s := dropPrev s
  let e := s.unit.epoch
  match e.shadow with
  | none => s
  | some n =>
    let progs := e.pendImages.foldl (fun t p => Tab.put [] t p.1 p.2) e.images
    let curves := s.pk.curves.foldl (fun t c => Tab.put [] t c.1 (c.2.pend.getD c.2.record)) ([] : Tab Bytes)
    let n := { n with progs := progs, cls := s.port.clsImg, curves := curves }
    let plans := (List.range 64).map (fun l => (l, lanePlan s n l))
    let banks := plans.foldl (fun t p => Tab.put 0 t p.1 p.2.1) ([] : Tab Nat)
    let loads := plans.filter (fun p => p.2.2.1 && mustAck s p.1)
    let need := loads.foldl (fun m p => m ||| 2 ^ p.1) 0
    let res := plans.foldl (fun t p => Tab.put 0 t p.1 (if ¬ mustAck s p.1 then 7 else p.2.2.2)) ([] : Tab Nat)
    let s := s.setEpoch { e with shadow := some { n with banks := banks }, st := .loading, loadAt := s.dt, lastAck := s.dt, acks := 0,
                                 need := need, packs := 2 ^ 36 - 1, loadRes := res }
    let s := match e.slot with | some k => runSlot k s | none => s
    let quads := (loads.map (fun p => laneQuad p.1)).eraseDups
    ackCheck (quads.foldl (fun s q => if s.domReady (11 + q) then s else wakeDomain (11 + q) 9 0 s) s)

/-- A lane acknowledges (R218, R290). -/
def laneAck (l : Nat) (s : State) : State :=
  let e := s.unit.epoch
  if e.st = .loading then ackCheck (s.setEpoch { e with acks := e.acks ||| 2 ^ l, lastAck := s.dt }) else s

/-- A fenced lane leaves the set of lanes that must acknowledge (R218, R303). -/
def leaveLoad (l : Nat) (s : State) : State :=
  let e := s.unit.epoch
  if e.st = .loading ∧ bit e.need l then
    ackCheck (s.setEpoch { e with need := setBit e.need l false, loadRes := Tab.put 0 e.loadRes l 7 })
  else s

/-- Every shadow is discarded (R219, R220, R290); a quad woken for the load returns to sleep by its idle timer (R233). -/
def discardLoad (s : State) : State :=
  let s := (List.range 64).foldl (fun s l =>
    let v := s.lane l
    let f (v : Lane) (b : Nat) : Lane := if v.bank b = 1 ∨ v.bank b = 2 then v.setBank b 0 else v
    let v' := f (f v 0) 1
    if v' = v then s else rearmIdle (11 + laneQuad l) (s.setLane l v')) s
  let s := { s with power := { s.power with modeTarget := none } }
  s.setEpoch { s.unit.epoch with shadow := none, st := .idle, slot := none, need := 0, acks := 0 }

/-- A configuration change fails (R219, R726): the long operation ends FAILED with the bitmaps of what did not acknowledge. -/
def failChange (s : State) : State :=
  let e := s.unit.epoch
  let res := beBytes (e.need - (e.need &&& e.acks)) 8 ++ beBytes (2 ^ 36 - 1 - e.packs) 8
  let s' := discardLoad s
  match e.slot with
  | some k => endSlot k .failed (if (s.slot k).byIdx = 0x1100 then 1 else 2) res s'
  | none => s'

/-- An admitted job not yet answered whose class a mode's configuration no longer serves (R223). -/
def drainLeft (s : State) (n : EpochCfg) : Bool :=
  s.unit.jobs.any (fun j => decide (j.2.stage ≤ 5) && ! classServed s n j.2.desc.cls)

/-- DRAIN becomes the target mode with the last answer (R223). -/
def finishDrain (s : State) : State :=
  match s.power.drainTo with
  | none => s
  | some m =>
    if s.power.mode = .drain ∧ drainLeft s (curCfg s) then s
    else enterMode m { s with power := { s.power with drainTo := none } }

/-- Images and curves that the new configuration holds are no longer pending (R398, R554). -/
def settlePending (n : EpochCfg) (s : State) : State :=
  let e := s.unit.epoch
  let done := e.pendImages.filter (fun p => decide (Tab.look [] n.progs p.1 = p.2))
  let s := s.setEpoch { e with images := done.foldl (fun t p => Tab.put [] t p.1 p.2) e.images,
                               pendImages := e.pendImages.filter (fun p => decide (Tab.look [] n.progs p.1 ≠ p.2)) }
  let curves := s.pk.curves.foldl (fun t c =>
    match c.2.pend with
    | some r => if Tab.look [] n.curves c.1 = r then Tab.put {} t c.1 ({ record := r } : CurveSlot) else Tab.put {} t c.1 c.2
    | none => Tab.put {} t c.1 c.2) ([] : Tab CurveSlot)
  { s with pk := { s.pk with curves := curves } }

/-- The flip (R218, R223, R290): the new configuration is current, the old one previous; banks turn ACTIVE; shared windows
(R686) and the mode follow. -/
def flip (s : State) : State :=
  let e := s.unit.epoch
  match e.shadow with
  | none => s
  | some n =>
    let old := match e.cur with | some c => c.num | none => 0
    let s := s.setEpoch { e with cur := some n, prev := e.cur, shadow := none, st := .idle, slot := none }
    let s := settlePending n s
    let s := (s.setDisp 0 { s.disp 0 with cur := n.num, prev := old }).setDisp 1 { s.disp 1 with cur := n.num, prev := old }
    let s := (List.range 64).foldl (fun s l =>
      let v := s.lane l
      let b := Tab.look 0 n.banks l
      if v.bank b = 2 ∨ (e.cur.isNone ∧ v.bank b = 0) then s.setLane l (v.setBank b 3) else s) s
    let f0 := s.dict.force
    let s := { s with dict := { s.dict with
      force := n.ents
      pendE := s.dict.pendE.filter (fun p => decide ((Tab.look none n.ents p.1).getD (s.dflt (p.1 / 256) (p.1 % 256)) ≠ p.2)) } }
    let s := (List.range 16).foldl (fun s k =>
      if [1, 2, 3, 4, 5].any (fun i => decide (Tab.look none f0 (entKey (0x7830 + k) i) ≠ Tab.look none n.ents (entKey (0x7830 + k) i)))
      then applySharedWindow k s else s) s
    let s := s.setNum 0x3000 4 s.dt
    let target := Mode.ofCode e.target
    let s := { (noteReturn target s) with power := { (noteReturn target s).power with modeTarget := none } }
    let s := if s.power.mode = .bringup then enterMode target { s with rst := { s.rst with phase := .done, lastDur := s.dt - s.rst.started } }
      else if baseMode s = target ∨ (target = .service ∧ baseMode s = .degraded) then s
      else if drainLeft s n then ({ s with power := { s.power with drainTo := some target } }).setMode .drain
      else enterMode target s
    dropPrev (match e.slot with | some k => doneSlot k [] s | none => s)

/-- Epoch 1 is formed at BRINGUP (R755): the start mode of R725, nothing to load but empty bank sets. -/
def formEpoch1 (s : State) : State :=
  let m := if s.power.lcs = .vendor ∨ s.key.rootSt = 5 ∨ s.key.root.isEmpty ∨ s.cfg 0x1100 6 ≠ 4 then Mode.bypass else .service
  startLoad (startFlip m.code none s)

end Sys2Proof.Machine
end

