-- ==== Sys2Proof/Machine/FenceOps.lean ====
section
/-!
DEFINITION. Ending jobs, and losing units under committed work (R211-R214, R271, R292-R296, R564): pins, slots, lane-control
answers, re-admission, re-placement, spares.
-/
namespace Sys2Proof.Machine

/-- Release one pin of a cache entry; a deferred or ERROR entry goes with its last pin (R194, R279, R281). -/
def relPin (q i : Nat) (s : State) : State :=
  let e := cacheEnt s q i
  let n := e.pins - 1
  let err : Bool := match e.st with | .error _ => true | _ => false
  if n = 0 ∧ e.deferred then (setCache q i {} s).bump (0xB440 + q) 4
  else if n = 0 ∧ err then setCache q i {} s
  else setCache q i { e with pins := n } s

/-- Release the pins of a job: its last run has ended (R194). -/
def relPins (jn : Nat) (s : State) : State :=
  let x := s.job jn
  let s := x.pins.foldl (fun s i => relPin (laneQuad x.lane) i s) s
  let s := if x.stage = 6 then s else s.setJob jn { x with pins := [] }
  rearmIdle (11 + laneQuad x.lane) s

/-- A job's frame slot and queue entries become free (R271); banks no entry names follow (R290). -/
def freeSlotOf (jn : Nat) (s : State) : State :=
  let x := s.job jn
  let v := s.lane x.lane
  let s := s.setLane x.lane { v with queue := v.queue.filter (fun e => decide (e.job ≠ jn)) }
  let s := if x.stage ≥ 6 then s.setJob jn noJob else s.setJob jn { x with slotFreed := true }
  rearmIdle (11 + laneQuad x.lane) (dropPrev (bankFree x.lane s))

/-- A job's answer has reached the port die (R239): it no longer counts for DRAIN and the previous epoch (R221, R223). -/
def jobAnswered (jn : Nat) (s : State) : State :=
  let x := s.job jn
  dropPrev (finishDrain (if x.slotFreed then s.setJob jn noJob else s.setJob jn { x with stage := 6 }))

/-- The result header of a job. -/
def hdrOf (s : State) (jn kind status : Nat) (body : Bytes) : ResHdr :=
  let x := s.job jn
  { due := s.dt, die := laneDie x.lane, src := x.desc.src, status := status, cls := x.desc.cls, msgid := x.desc.msgid, body := body,
    deadline := x.desc.deadline, kind := kind, lane := x.lane,
    pke := if x.pkOp = 0 then 0xFF else x.engine.getD 0xFF, tstamp := x.desc.tstamp, epoch := x.desc.epoch, job := some jn }

/-- A lane posts a result into its post register (R235). -/
def lanePost (l : Nat) (h : ResHdr) (s : State) : State := s.setLane l { s.lane l with posts := (s.lane l).posts ++ [h] }

/-- A job ends with its result posted: pins and PK booking are released, and its run is over (R194, R379, R565). A response
with no body frees its slot at once (R271). -/
def postJob (jn status : Nat) (body : Bytes) (s : State) : State :=
  let x := s.job jn
  let h := hdrOf s jn 1 status body
  let s := relPins jn (pkDrop jn s)
  let s := s.setJob jn { s.job jn with stage := 5 }
  let v := s.lane x.lane
  let s := s.setLane x.lane { v with run := none, queue := (v.queue.filter (fun e => ! (decide (e.job = jn ∧ e.st = 0) && e.fin))).map
                                                        (fun e => if e.job = jn then { e with st := 2 } else e) }
  let s := (lanePost x.lane h s).bump (0xB400 + x.lane) 2
  if body.isEmpty then freeSlotOf jn s else s

/-- The write buffer of a run that a fence or a memory error ends is discarded: no store of it reaches another job (R355; DESIGN CHOICE, log entry 91). -/
def dropWb (l : Nat) (s : State) : State :=
  let c := Tab.look {} s.unit.cores l
  { s with unit := { s.unit with cores := Tab.put {} s.unit.cores l { c with wb := [], wbT := [], imp := none } } }

/-- Single-bit errors that the lane's memories corrected (R277). -/
def countCorrected (l n : Nat) (s : State) : State := s.bumpBy (0x4000 + l) 0x0C n

/-- The lane control block answers a job DOMAIN_UNAVAILABLE (R211, R213): everything the job holds is released. -/
def laneControl (jn : Nat) (s : State) : State :=
  let x := s.job jn
  if x.stage ≥ 5 then s
  else
    let h := hdrOf s jn 4 tDOMAIN_UNAVAILABLE []
    let s := relPins jn (pkDrop jn s)
    let s := s.setJob jn { s.job jn with stage := 5 }
    let v := s.lane x.lane
    let s := match v.run with
      | some r =>
        -- a run that a fence ends has not overrun: its count stands (R274)
        let t := Nat.min (s.dt - r.start) (r.until_ - r.start)
        if r.job = jn then dropWb x.lane (s.setLane x.lane { v with run := none, cyc := t, cycmax := Nat.max v.cycmax t }) else s
      | none => s
    freeSlotOf jn ((lanePost x.lane h s).bump (0xB400 + x.lane) 4)

/-- A job is put up for admission again at once (R211): its window place and bookings are given up, then the admission test runs with the DT of the
fence plus 8 as T_a. -/
def readmit (jn ta : Nat) (s : State) : State :=
  let x := s.job jn
  let d := laneDie x.lane
  let s := relPins jn (pkDrop jn s)
  let v := s.lane x.lane
  let s := s.setLane x.lane { v with queue := v.queue.filter (fun e => decide (e.job ≠ jn)) }
  let s := setAdm x.desc.src x.desc.msgid false (sentOne x.desc.src true (s.setJob jn noJob))
  decideDesc d jn ta x.desc x.body (keyInputs x.desc x.body) true (s.bump (0xB200 + d) 9)

/-- Count one less. -/
def State.unbump (s : State) (idx sub : Nat) : State := s.setNum idx sub (s.num idx sub - 1)

/-- A job admitted in the LCLK of a fence is decided again without the fenced unit: the fence takes effect before the admission (R214). -/
def redecide (jn : Nat) (s : State) : State :=
  let x := s.job jn
  let d := laneDie x.lane
  let s := relPins jn (pkDrop jn s)
  let v := s.lane x.lane
  let s := s.setLane x.lane { v with queue := v.queue.filter (fun e => decide (e.job ≠ jn)) }
  let s := setAdm x.desc.src x.desc.msgid false (sentOne x.desc.src true (s.setJob jn noJob))
  decideDesc d jn x.ta x.desc x.body (keyInputs x.desc x.body) false ((s.unbump (0xB200 + d) 1).unbump (0xB100 + x.desc.cls) 1)

/-- The jobs of a lane in queue order: those waiting with no run begun, and those in progress (R211). -/
def laneJobs (s : State) (l : Nat) : List Nat × List Nat :=
  let js := ((s.lane l).queue.map (fun e => e.job)).eraseDups
  (js.filter (fun j => decide ((s.job j).stage = 0)), js.filter (fun j => decide (1 ≤ (s.job j).stage ∧ (s.job j).stage ≤ 4)))

/-- Clear lanes of their jobs (R211, R214): those in progress are answered, those waiting are re-admitted in queue order. -/
def clearLanes (ls : List Nat) (s : State) : State :=
  let js := ls.map (laneJobs s)
  let s := (js.flatMap (fun j => j.2)).foldl (fun s j => laneControl j s) s
  let ta := s.dt + 8
  (js.flatMap (fun j => j.1)).foldl (fun s j =>
    if (s.job j).stage ≠ 0 then s else if (s.job j).ta = s.dt then redecide j s else readmit j ta s) s

/-- Start substituting a lane by its tile's spare (R292): SUBSTITUTING, the spare's domain on. -/
def substStart (l : Nat) (s : State) : State :=
  let k := laneTile l
  let s := s.setSpare k { s.spare k with st := 2, lane := l, step := if s.domReady (27 + k / 2) then 3 else 2, since := s.dt, next := none }
  let s := s.setLane l { s.lane l with subst := true }
  if s.domReady (27 + k / 2) then s else wakeDomain (27 + k / 2) 0x0A k s

/-- The spare of a fenced lane's tile (R292, R294, R302): an AVAILABLE one starts to substitute, one in its slice comes after it, and of two lanes fenced in one
LCLK the lower takes it. -/
def spareFor (l cause : Nat) (s : State) : State :=
  if cause = 4 ∨ cause = 5 ∨ cause = 6 then s
  else
    let k := laneTile l
    let v := s.spare k
    if v.st = 0 then substStart l s
    else if v.st = 1 then s.setSpare k { v with next := match v.next with | some m => some (Nat.min m l) | none => some l }
    else if v.st = 2 ∧ v.since = s.dt ∧ l < v.lane then substStart l (s.setLane v.lane { s.lane v.lane with subst := false })
    else s

/-- Mark a lane fenced; one already fenced keeps its cause. -/
def markLane (cause l : Nat) (s : State) : State :=
  let v := s.lane l
  if v.cause ≠ 0 then s
  else leaveLoad l (s.setLane l { v with cause := cause, fenceDt := s.dt, claimed := false, slice := none })

/-- Fence a lane (R211, R292, R294): a fence precedes any admission of its LCLK (R214). -/
def fenceLane (l cause : Nat) (s : State) : State :=
  if (s.lane l).cause ≠ 0 then s
  else finishDrain (settleDegraded (clearLanes [l] (spareFor l cause (markLane cause l s))))

/-- A fence that meets a domain in ENTRY or DOWN lets the power-down complete, after which the domain stays FENCED (R733). -/
def holdFence (d : Nat) (s : State) : State :=
  let v := s.dom d
  if v.st = .entry ∨ v.st = .down then s.setDom d { v with fenceReq := true, wantUp := none } else s

/-- Fence a quad (R277, R714): its lanes with cause QUAD. -/
def fenceQuad (q cause : Nat) (s : State) : State :=
  let s := holdFence (11 + q) (s.setQuad q { s.quad q with cause := if (s.quad q).cause = 0 then cause else (s.quad q).cause })
  let ls := (quadLanes q).filter (fun l => decide ((s.lane l).cause = 0))
  finishDrain (settleDegraded (clearLanes ls (ls.foldl (fun s l => markLane 5 l s) s)))

/-- Bring a lane's banks to the epochs held, after a return (R218, R303; log entry 31). -/
def refreshBanks (l : Nat) (s : State) : State :=
  let go (e : Option EpochCfg) (st : Nat) (s : State) : State :=
    match e with
    | none => s
    | some c =>
      let b := Tab.look 0 c.banks l
      let set := bankSet s c l
      let v := s.lane l
      if v.bank b = 3 ∧ v.bset b = set then s else s.setLane l ((v.loadBank b set).setBank b st)
  let e := s.unit.epoch
  go (if e.st = .loading ∨ e.st = .acked then e.shadow else none) 2 (go e.cur 3 s)

/-- A quad is READY (R212, R282, R482): a QUAD fence of its domain ends, its Saffron DRBG is new, its lanes are admitted to. -/
def quadReadyEffect (q : Nat) (s : State) : State :=
  let v := s.quad q
  let back := decide (v.cause = 5)
  let s := (s.setQuad q { v with cause := if back then 0 else v.cause, late := false, sgen := 0 }).bump 0xB600 9
  let s := if back then (quadLanes q).foldl (fun s l =>
      if (s.lane l).cause = 5 then refreshBanks l (s.setLane l { s.lane l with cause := 0 }) else s) s else s
  { s with unit := { s.unit with jobs := s.unit.jobs.map (fun j =>
      if laneQuad j.2.lane = q then (j.1, { j.2 with wakeBy := none }) else j) } }

/-- The engines on which a job may be re-placed (R213, R215, R564). -/
def replaceOn (s : State) (e : Nat) (j : PkJob) : List Nat :=
  let d := e / 12
  let es := (dieEngines d).filter (fun x => decide (x ≠ e))
  let x := s.job j.ref
  if j.kind = 2 then
    match audEngine s d with
    | some a => a :: es.filter (fun x => decide (x ≠ a))
    | none => es
  else if j.kind = 1 then es.filter (fun k => decide (x.engine ≠ some k))
  else if j.kind = 0 then es.filter (fun k => decide (x.vas ≠ some k))
  else es

/-- Append a signature item and note it (R251, R252). -/
def audSigItem (d bseq alg status jobst : Nat) (sig : Bytes) (s : State) : State :=
  let item := [0xA5, byte status, byte alg, byte jobst] ++ beBytes bseq 8 ++ zeros 4 ++ fit sig 96
  let s := (audStream d 2 bseq item s).setEnt (0x3801 + d) 4 item
  s.bump (0xB380 + d) (if status = 0 then 4 else 5)

/-- Issue the signature items that are complete, in block order (R261). -/
def audIssueF (d : Nat) : Nat → State → State
  | 0, s => s
  | fuel + 1, s =>
    let a := s.aud d
    match a.pendBlocks with
    | b :: rest =>
      match b.signed with
      | some item =>
        if b.written then
          let s := s.setAud d { a with pendBlocks := rest }
          audIssueF d fuel (audSigItem d b.bseq a.alg (byteAt item 0).toNat (byteAt item 1).toNat (item.drop 2) s)
        else s
      | none => s
    | [] => s

/-- Note the outcome of a block's signing: STATUS, JOBST and the signature, and issue what is complete in block order. -/
def audSigned (d bseq status jobst : Nat) (sig : Bytes) (s : State) : State :=
  let a := s.aud d
  let bs := a.pendBlocks.map (fun b => if b.bseq = bseq ∧ b.signed.isNone then { b with signed := some ([byte status, byte jobst] ++ sig) } else b)
  audIssueF d (bs.length + 1) (s.setAud d { a with pendBlocks := bs })

/-- A key generation fails (R442, R555): its long operation ends FAILED with CODE 6, a replacement returns to ACTIVE. -/
def genFail (g : GenReq) (s : State) : State :=
  let s := { s with key := { s.key with gens := s.key.gens.filter (fun x => decide (x.node ≠ g.node)) } }
  let s := match g.op with | some k => failSlot k 6 s | none => s
  if g.staged ∧ (s.node g.node).state = 3 then (s.setNode g.node { s.node g.node with state := 2 }).bump 0xB500 9 else s

/-- The generation a die's background job served ends with a status other than OK: once more on the other die where no engine
could be placed (R528), else it fails. -/
def genEnded (d status : Nat) (s : State) : State :=
  match s.key.gens.find? (fun g => decide (g.die = some d)) with
  | none => s
  | some g =>
    if status = tDOMAIN_UNAVAILABLE ∧ ¬ bit g.tried (1 - d) then
      { s with key := { s.key with gens := s.key.gens.map (fun x => if x = g then { x with die := none, tried := x.tried ||| 2 ^ d } else x) } }
    else genFail g s

/-- The background job of a die ends (R528, R540, R556): RESULT and DONE; an engine claimed for it is free again. -/
def bgEnd (d status : Nat) (s : State) : State :=
  let b := s.bg d
  let s := s.setBg d { b with go := false, busy := false, done := true, claim := false, result := status, abort := false, started := false }
  let s := s.noteSet (regKey d 0x0F052024) (2 ^ 30)
  let s := (dieEngines d).foldl (fun s e => if (s.eng e).claim = 2 then s.setEng e { s.eng e with claim := 0 } else s) s
  if status = tOK then s else genEnded d status s

/-- The engine a background job goes to (R528): the fewest committed jobs, ties to the lowest number. -/
def bgPlaceOn (s : State) (d : Nat) (avoid : Nat → Bool) : Option Nat :=
  ((dieEngines d).filter (fun e => decide ((s.eng e).cause = 0 ∧ (s.eng e).claim = 0) && ! avoid e &&
      ! (s.eng e).jobs.any (fun j => decide (j.kind = 3)))).foldl
    (fun b e => match b with
      | none => some e
      | some x => if (s.eng e).committed < (s.eng x).committed then some e else b) none

/-- A background descriptor is well formed (R556, R557). -/
def bgOk (d : Bytes) : Bool :=
  let op := bgPkop d / 256
  decide ((pkWork (bgPkop d)).isSome ∨ (op = 0x30 ∧ bgPkop d % 256 ≤ 6)) && decide (bgSrc d ≤ 2 ∧ bgDest d ≤ 1) &&
  decide (bgDest d = 1 ↔ (op = 0x12 ∨ op = 0x30)) && (decide (bgSrc d = 1) || decide (bgNode d = 0)) && decide (bgNode d < 2 ^ 18) &&
  (decide (bgSrc d = 0) || decide (bgKtype d = 0)) && decide (byteAt d 13 = 0 ∧ byteAt d 21 = 0 ∧ bgOpLen d ≤ 4096) &&
  (decide (bgDest d = 0) || decide (bgResAddr d = 0)) && (slice d 24 8).all (fun b => decide (b = 0))

/-- The job a descriptor names, with its key (R442, R556, R557): a node's key is delivered under R427, KEYSRC 2 is IDK. -/
def bgJob (d : Nat) (s : State) : PkJob × State :=
  let x := (s.bg d).desc
  let w := match pkWork (bgPkop x) with | some w => w.1 | none => 0
  let j : PkJob := { kind := 3, pkop := bgPkop x, rem := w, rel := s.dt, dl := farDl, arr := some s.dt, keyAt := some s.dt, rls := some s.dt }
  if bgSrc x = 1 then
    let v := deliver (bgNode x) [] 15 1 s
    ({ j with refused := v.status, key := if v.status = 0 then some { key := v.key, ktype := v.ktype, param := v.param, use_ := v.use_ } else none },
      v.st)
  else if bgSrc x = 2 ∧ bgPkop x / 256 ≠ 0x30 then
    ({ j with key := if s.key.root.isEmpty then none else some { key := beBytes s.key.idk 48, ktype := 0x11, use_ := 2 ^ 8 } }, s)
  else (j, s)

/-- The dispatcher places the background job of a die, or wakes its domain for it (R528). -/
def bgTry (d : Nat) (s : State) : State :=
  let b := s.bg d
  if ¬ b.go then s
  else
    match (s.dom (9 + d)).st with
    | .ready =>
      match bgPlaceOn s d (fun _ => false) with
      | some e =>
        let r := bgJob d s
        let s := r.2.setBg d { r.2.bg d with go := false, busy := true, engine := e % 12, started := false }
        let s := s.setDom (9 + d) { s.dom (9 + d) with idleDue := none }
        pkKick e s.dt (pkAdd e r.1 s)
      | none => if (dieEngines d).all (fun e => decide ((s.eng e).cause ≠ 0)) then bgEnd d tDOMAIN_UNAVAILABLE s else s
    | .retry => bgEnd d tDOMAIN_UNAVAILABLE s
    | .fenced => bgEnd d tDOMAIN_UNAVAILABLE s
    | .up => s
    | _ => wakeDomain (9 + d) 2 d s

/-- Submit a descriptor to a die (R556). -/
def bgSubmit (d : Nat) (desc : Bytes) (s : State) : State :=
  bgTry d (s.setBg d { desc := desc, go := true, at_ := s.dt })

/-- The supervisor submits the waiting RSA generations to dies whose interface is free (R442, R528, R555). -/
def genPumpF : Nat → State → State
  | 0, s => s
  | fuel + 1, s =>
    match s.key.gens.find? (fun g => decide (g.die = none)) with
    | none => s
    | some g =>
      match [0, 1].find? (fun d => ! (s.bg d).go && ! (s.bg d).busy && ! bit g.tried d) with
      | none => s
      | some d =>
        let desc := beBytes (0x3000 + ((s.node g.node).param - 1)) 2 ++ [2, 1] ++ zeros 28
        let s := { s with key := { s.key with gens := s.key.gens.map (fun x => if x = g then { x with die := some d } else x) } }
        genPumpF fuel (bgSubmit d desc s)

/-- Submit what waits. -/
def genPump (s : State) : State := genPumpF 8 s

/-- Re-place one job of a fenced engine (R213): its remaining work, its deadline, release max(T_a, committed). The engines are tried in ascending
order and the first that passes takes it; the jobs of the fenced engine follow in the order of R525 (DESIGN CHOICE, log entry 81). A job admitted in the LCLK of the
fence is decided again (R214). -/
def replaceJob (e ta : Nat) (left : Nat) (j : PkJob) (s : State) : State :=
  let d := e / 12
  let rel := Nat.max ta j.rel
  let work := if j.kind = 1 then (s.job j.ref).vasW else left
  if j.kind ≤ 1 ∧ (s.job j.ref).stage = 0 ∧ (s.job j.ref).ta = s.dt then redecide j.ref s
  else if j.kind = 3 then
    match bgPlaceOn s d (fun x => decide (x = e)) with
    | some x =>
      let s := s.setBg d { s.bg d with engine := x % 12 }
      pkKick x s.dt (pkAdd x { j with rem := left } s)
    | none => bgEnd d tDOMAIN_UNAVAILABLE s
  else
    match (replaceOn s e j).find? (fun x => pkFits s x false ta rel j.dl work) with
    | some x =>
      let j' : PkJob := { j with rem := work, rel := rel, rls := j.rls.map (fun r => Nat.max r s.dt), started := j.kind ≠ 1 && j.started }
      let s := pkAdd x j' s
      let s := if j.kind = 0 then s.setJob j.ref { s.job j.ref with engine := some x }
               else if j.kind = 1 then s.setJob j.ref { s.job j.ref with vas := some x } else s
      pkKick x s.dt s
    | none => if j.kind = 2 then audSigned d j.ref 1 0 [] s else laneControl j.ref s

/-- Sort jobs by the order of R525. -/
def pkSort (js : List PkJob) : List PkJob :=
  js.foldl (fun acc j => (acc.filter (fun x => pkBefore x j)) ++ [j] ++ acc.filter (fun x => ! pkBefore x j)) []

/-- Mark an engine fenced and take its jobs. -/
def takeEng (cause e : Nat) (s : State) : State × List (Nat × PkJob) :=
  let v := s.eng e
  let js := (pkSort (v.jobs.filter (fun j => ! j.withdrawn))).map (fun j => (v.left j s.dt, j))
  (s.setEng e { v with cause := cause, fenceDt := s.dt, claim := 0, slice := none, jobs := [], run := none }, js)

/-- Fence an engine (R213, R564). -/
def fencePkUnit (e cause : Nat) (s : State) : State :=
  if (s.eng e).cause ≠ 0 then s
  else
    let t := takeEng cause e s
    let ta := s.dt + 8
    finishDrain (settleDegraded (t.2.foldl (fun s x => replaceJob e ta x.1 x.2 s) t.1))

/-- Fence every engine of a die with cause DOMAIN (R567, R714): nothing of the die can take their jobs. -/
def fencePkDie (d cause : Nat) (s : State) : State :=
  let es := (dieEngines d).filter (fun e => decide ((s.eng e).cause = 0))
  let t := es.foldl (fun (a : State × List (Nat × Nat × PkJob)) e =>
    let r := takeEng cause e a.1
    (r.1, a.2 ++ r.2.map (fun x => (e, x.1, x.2)))) (s, [])
  let ta := s.dt + 8
  bgTry d (finishDrain (settleDegraded (t.2.foldl (fun s x => replaceJob x.1 ta x.2.1 x.2.2 s) (holdFence (9 + d) t.1))))

/-- A spare fails (R292, R295): a lane being substituted stays fenced; one it serves is fenced with cause SPARE. -/
def failSpareUnit (k : Nat) (s : State) : State :=
  let v := s.spare k
  let s := s.setSpare k { v with st := 4, next := none }
  if v.st = 3 then
    let x := s.lane v.lane
    let s := s.setLane v.lane { x with spared := false, cause := if x.cause = 4 ∨ x.cause = 5 then 6 else x.cause }
    fenceLane v.lane 6 s
  else if v.st = 2 then settleDegraded (s.setLane v.lane { s.lane v.lane with subst := false })
  else s

/-- The spares of a domain that ends FENCED fail (the table under R714). -/
def failSpares (d : Nat) (s : State) : State := [2 * d, 2 * d + 1].foldl (fun s k => if (s.spare k).st = 3 then s else failSpareUnit k s) s

/-- A spare domain is READY: a substitution that waited for it goes on to the spare's self-test slice (R292 steps 2 and 3). -/
def sparesReady (d : Nat) (s : State) : State :=
  [2 * d, 2 * d + 1].foldl (fun s k =>
    let v := s.spare k
    if v.st = 2 ∧ v.step = 2 then s.setSpare k { v with step := 3, since := s.dt } else s) s

/-- The spare takes the lane's place (R292 steps 4 to 6): banks from the supervisor's copy, the lane returns to admission. -/
def spareJoin (k : Nat) (s : State) : State :=
  let v := s.spare k
  let l := v.lane
  -- nothing of the failed lane's memory is recovered (R292, R307): the presented lane now has the spare's
  let x := Lane.reload { s.lane l with mem := (s.lane (64 + k)).mem }
  let s := s.setLane l { x with cause := 0, subst := false, spared := true }
  let s := s.setSpare k { v with st := 3, step := 0, next := none }
  settleDegraded (refreshBanks l s)

/-- A cluster unit fails (R760, R276): it shows 2 from now on. -/
def failCluster (q bits : Nat) (s : State) : State :=
  let v := s.quad q
  settleDegraded (s.setQuad q { v with units := (bitsSet 5 bits).foldl (fun t u => Tab.put 0 t u 2) v.units })

/-- A lane that fails the power-on self-test is fenced with cause POST and replaced at once by a spare that passed (R756). -/
def fenceLaneUnit (l cause : Nat) (s : State) : State :=
  let s := fenceLane l cause s
  if cause = 2 ∧ (s.spare (laneTile l)).st = 2 ∧ (s.spare (laneTile l)).lane = l then spareJoin (laneTile l) s else s

/-- PK engines are READY (R546, R567): a DOMAIN fence ends, each generator is instantiated. -/
def pkReadyEffect (d : Nat) (s : State) : State :=
  (dieEngines d).foldl (fun s e =>
    let v := s.eng e
    s.setEng e { v with cause := if v.cause = 5 then 0 else v.cause, seeded := true, reqs := 0 }) s |> bgTry d

/-- A fabric domain that ends FENCED (the table under R714): every unit of the die is lost, and its descriptors are answered by
XD (R62). -/
def fenceDie (d : Nat) (s : State) : State :=
  let s := (dieQuads d).foldl (fun s q => s.setQuad q { s.quad q with cause := 5 }) s
  let ls := (dieLanes d).filter (fun l => decide ((s.lane l).cause = 0))
  let s := ls.foldl (fun s l => markLane 5 l s) s
  finishDrain (settleDegraded ((dieEngines d).foldl (fun s e => (takeEng 5 e s).1) s))

/-- What follows when a domain ends FENCED (the table under R714). -/
def fencedEffect (d : Nat) (s : State) : State :=
  if d = 7 ∨ d = 8 then fenceDie (d - 7) s
  else if isPkDom d then fencePkDie (d - 9) 5 s
  else if isQuadDom d then fenceQuad (d - 11) 5 s
  else if d = 27 ∨ d = 28 then failSpares (d - 27) s
  else s

end Sys2Proof.Machine
end

