-- ==== Sys2Proof/Machine/CerOps.lean ====
section
/-!
DEFINITION. Credentials, card interfaces and ceremonies as shared operations (R571-R590, R606), and the MRAM records they keep.
-/
namespace Sys2Proof.Machine

/-- Set an entry that survives in MRAM although no COMMIT stores it (the P entries without a write right). -/
def setKept (idx sub : Nat) (v : Bytes) (s : State) : State :=
  let s := s.setEnt idx sub v
  { s with dict := { s.dict with
      stored := Tab.put none s.dict.stored (entKey idx sub) (if v = s.dflt idx sub then none else some v) } }

/-- The key that tags the credential and ownership records (R576). -/
def crk (s : State) : Bytes := kdfCtr pufKey (ascii "SV6400 CRED") (serial s) 256

/-- A credential record (R576); EMPTY is 112 zero bytes. -/
def State.cred (s : State) (i : Nat) : Bytes := fit (s.entW (0xA010 + i) 1) 112

/-- ROLE of a record. -/
def credRole (r : Bytes) : Nat := (byteAt r 0).toNat
/-- STATE of a record: 0 EMPTY, 1 ACTIVE, 2 SUSPENDED. -/
def credState (r : Bytes) : Nat := (byteAt r 1).toNat
/-- CGROUP of a record. -/
def credGroup (r : Bytes) : Nat := (byteAt r 2).toNat
/-- CARDID of a record. -/
def credCard (r : Bytes) : Bytes := slice r 4 8
/-- KEY of a record. -/
def credKey (r : Bytes) : Bytes := slice r 12 97

/-- A custodian's record (R576). -/
def custodianRec (group : Nat) (cardid qc : Bytes) : Bytes := [3, 1, byte group, 0] ++ fit cardid 8 ++ fit qc 97 ++ zeros 3

/-- The page of a credential, and its offset (R775). -/
abbrev credPage (i : Nat) : Nat := 0x058 + i / 2
abbrev credOff (i : Nat) : Nat := 128 * (i % 2)

/-- Write a credential record and its tag to MRAM (R576): 0, or the MRAM's refusal (R780). -/
def setCred (i : Nat) (rec : Bytes) (s : State) : Nat × State :=
  let r := programPage (credPage i) (credOff i) (rec ++ aesCmac (crk s) rec) 0 s
  if r.1 ≠ 0 then r else (0, setKept (0xA010 + i) 1 (if credState rec = 0 then [] else rec) r.2)

/-- At BRINGUP a record whose tag fails reads EMPTY, and the failure is logged (R576). -/
def restoreCred (i : Nat) (s : State) : State :=
  let b := pageRead s (credPage i) (credOff i) 128
  let rd := b.take 112
  let blank := b.all (fun x => decide (x = 0))
  if blank then setKept (0xA010 + i) 1 [] (if pageIntact s (credPage i) then s else logEvent 0x15 0 0 i s)
  else if aesCmac (crk s) rd = b.drop 112 then setKept (0xA010 + i) 1 (if credState rd = 0 then [] else rd) s
  else setKept (0xA010 + i) 1 [] (logEvent 0x15 0 0 i s)

/-- The ACTIVE CUSTODIAN credentials, with their custodian groups. -/
def custodians (s : State) : List (Nat × Nat) :=
  (List.range 64).filterMap (fun i =>
    let r := s.cred i
    if credRole r = 3 ∧ credState r = 1 then some (i, credGroup r) else none)

/-- A quorum rule is met by a set of custodian groups, one for each approval (R578). -/
def ruleMet (rule : Nat) (groups : List Nat) : Bool :=
  decide (groups.length ≥ bits rule 3 0) && (bitsSet 4 (bits rule 7 4)).all (fun g => groups.contains g)

/-- A value is a quorum rule that the given custodians can meet (R578). -/
def ruleOk (rule : Nat) (groups : List Nat) : Bool :=
  decide (2 ≤ bits rule 3 0) && decide (bits rule 3 0 ≤ 8) && decide (rule / 256 = 0) && ruleMet rule groups

/-- A write of A001:01-05 (R578). -/
def ruleRange (s : State) (v : Bytes) : Bool := ruleOk (beNat v) ((custodians s).map (·.2))

/-- Every quorum rule in force can be met by the given custodian groups. -/
def rulesMeetable (s : State) (groups : List Nat) : Bool :=
  (List.range 5).all (fun k => ruleMet (s.num 0xA001 (k + 1)) groups)

/-- A card interface. -/
def State.card (s : State) (i : Nat) : Card := Tab.look {} s.grp.cards i
/-- Set a card interface. -/
def State.setCard (s : State) (i : Nat) (c : Card) : State :=
  { s with grp := { s.grp with cards := Tab.put {} s.grp.cards i c } }
/-- The ceremony in progress. -/
def State.cer (s : State) : Ceremony := s.grp.cer
/-- Set the ceremony; A000:01, 06 and 08 show it (R606). -/
def State.setCer (s : State) (c : Ceremony) : State :=
  let s := { s with grp := { s.grp with cer := c } }
  let s := s.setNum 0xA000 1 c.st
  if c.kind = 0 then s
  else (s.setNum 0xA000 6 c.approvals.length).setNum 0xA000 8 (if c.kind = 6 then 0 else c.approvals.foldl (fun m i => m ||| 2 ^ i) 0)

/-- CUS_n_STAT. -/
def cusStat (s : State) (i : Nat) : Nat :=
  let c := s.card i
  c.st * 2 ^ 28 + c.cls * 2 ^ 26 + b2n c.pres * 2 ^ 25 + b2n c.chan * 2 ^ 24 + c.fault * 2 ^ 16 + c.ifsc % 256 * 256

/-- A card that is deactivated: its channel's keys are zeroised (R573, R813). -/
def Card.off (c : Card) (fault : Nat) : Card :=
  { pres := c.pres, cardid := c.cardid, fault := fault, st := if fault = 0 then 0 else 4 }

/-- A fault on an interface (CUS_n_STAT.FAULT), counted; the exchange in progress ends (R571, R588). -/
def cardFault (i f : Nat) (s : State) : State :=
  let c := s.card i
  let s := s.setCard i { c with st := 4, fault := f, cmd := none }
  let s := s.bump 0xB800 4
  if s.cer.kind = 0 then s else s.setCer { s.cer with fault := f }

/-- Every channel key and component the ceremony holds is zeroised (R582). -/
def zeroiseCards (s : State) : State :=
  { s with grp := { s.grp with
      cards := s.grp.cards.map (fun e => (e.1, { e.2 with chan := false, eph := 0, nonce := [], ke := [], km := [], seq := 1, comp := [] })) } }

/-- The ceremony ends (R581, R582, R584): its slot takes the end, a refused entry to CEREMONY is CODE 0x0002 of the mode request
(R726), and a leaving request that waited goes on. -/
def cerClose (st : SlotState) (code : Nat) (res : Bytes) (s : State) : State :=
  let c := s.cer
  let s := (zeroiseCards s).setCer {}
  let s := s.bump 0xB800 (if st = .done then 1 else 2)
  let s := if st = .done then mrMeasure 5 8 c.num (sha384 ([byte c.kind] ++ beBytes c.num 4 ++ sha384 c.params)) s else s
  let s := if c.kind = 6 ∧ st ≠ .done ∧ s.num 0xA030 4 = 1 then setKept 0xA030 4 [0] s else s
  let s := if c.kind = 1 ∧ st ≠ .done then { s with power := { s.power with modeTarget := none } } else s
  let s := if c.kind = 1 ∧ s.power.mode ≠ .ceremony ∧ st ≠ .done then cutOff 6 .off s else s
  let s := match c.slot with
    | some k => if c.kind = 1 ∧ st = .done then s
                else endSlot k st (if c.kind = 1 ∧ st = .failed then 2 else code) res s
    | none => s
  match c.leave with
  | some k => startFlip s.power.retMode (if k < 256 then some k else none) s
  | none => s

/-- The ceremony ends FAILED. -/
def cerFail (code : Nat) (res : Bytes) (s : State) : State := cerClose .failed code res s

/-- A card command is outstanding. -/
def cardsBusy (s : State) : Bool := s.grp.cards.any (fun e => e.2.cmd.isSome)

/-- The abort points of a ceremony lie between card commands and between steps (R582). -/
def cerAbortPoint (s : State) : State :=
  if s.cer.kind ≠ 0 ∧ s.cer.abort ∧ ¬ cardsBusy s then cerClose .aborted 0xFFFD [] s else s

/-- An ABORT of the ceremony takes effect at its next abort point (R102, R582). -/
def cerAbort (s : State) : State :=
  if s.cer.kind = 0 then s else cerAbortPoint (s.setCer { s.cer with abort := true })

/-- A request to leave CEREMONY (R584): a ceremony in progress is ABORTED at its next abort point, and the flip follows it. -/
def cerLeave (slot : Option Nat) (s : State) : State :=
  if s.cer.kind = 0 then startFlip s.power.retMode slot s
  else cerAbortPoint (s.setCer { s.cer with abort := true, leave := some (slot.getD 256) })

/-- A reset or an erase ends the ceremony without its flip (R582). -/
def cerDrop (s : State) : State :=
  if s.cer.kind = 0 then zeroiseCards s
  else
    let s := if s.cer.kind = 6 ∧ s.num 0xA030 4 = 1 then setKept 0xA030 4 [0] s else s
    let s := if s.cer.kind = 1 then { s with power := { s.power with modeTarget := none } } else s
    ((zeroiseCards s).setCer {}).bump 0xB800 2

/-- The parameters' node, count, card slot and expected check value (R585). -/
def cerNode (c : Ceremony) : Nat := beNat (slice c.params 0 3)
def cerCount (c : Ceremony) : Nat := (byteAt c.params 3).toNat
def cerCardSlot (c : Ceremony) : Nat := (byteAt c.params 4).toNat
def cerCheck (c : Ceremony) : Bytes := slice c.params 5 5

/-- The form of the parameters of a kind (R585, R587, R597, R606). -/
def paramsOk (kind : Nat) (p : Bytes) : Bool :=
  let op := (byteAt p 0).toNat
  match kind with
  | 2 => decide (1 ≤ op ∧ op ≤ 4 ∧ beNat (slice p 1 2) < 64) && (if op = 1 then decide (4 ≤ p.length) else decide (p.length = 3))
  | 3 => decide (p.length = 10 ∧ beNat (p.take 3) < 2 ^ 18 ∧ 2 ≤ (byteAt p 3).toNat ∧ (byteAt p 3).toNat ≤ 8 ∧ (byteAt p 4).toNat ≤ 7)
  | 4 => decide (p.length = 10 ∧ beNat (p.take 3) < 2 ^ 18 ∧ 2 ≤ (byteAt p 3).toNat ∧ (byteAt p 3).toNat ≤ 8 ∧ (byteAt p 4).toNat ≤ 7)
  | 5 => decide (1 ≤ op ∧ op ≤ 5 ∧ p.length = 25)
  | _ => true

/-- Cards that are in an interface before a ceremony starts take no part in it: a custodian approves by inserting a card while the ceremony
collects (R580, DEDUCED, log entry 94). -/
def restCards (s : State) : State :=
  { s with grp := { s.grp with cards := s.grp.cards.map (fun e => (e.1, if e.2.st = 2 then { e.2 with step := 4, cred := none } else e.2)) } }

/-- Start a ceremony (R579): N is claimed, and the parameters are fixed. -/
def cerStart (kind slot role : Nat) (params : Bytes) (s : State) : State :=
  if ¬ paramsOk kind params then (failSlot slot 3 s).bump 0xB800 2
  else
    let r := ctrIncrement 1 0 s
    if r.1 ≠ 0 then (failSlot slot 6 s).bump 0xB800 2
    else
      let n := ctrValue r.2 1 % 2 ^ 32
      let s := (r.2.setNum 0xA000 5 n).setNum 0xA000 8 0
      (restCards s).setCer { kind := kind, st := 1, slot := some slot, role := role, params := params, num := n, start := s.dt }

/-- A request to enter CEREMONY starts an ENTRY ceremony (R577, R583); PD06 is switched on for its approvals (log entry 40). -/
def startEntryCeremony (slot role : Nat) (s : State) : State :=
  let s := if (s.dom 6).st = .off then s.setDom 6 { s.dom 6 with st := .up, since := s.dt, wokenAt := s.dt } else s
  cerStart 1 slot role [] { s with power := { s.power with modeTarget := some (.ceremony, slot) } }

/-- What an approval signs (R579), before its SHA-384. -/
def approvalText (s : State) (c : Ceremony) : Bytes :=
  [4] ++ serial s ++ beBytes c.num 4 ++ [byte c.kind] ++ sha384 c.params

/-- The ownership template. A030:01 names it in VENDOR, and credential 32 at any time: it is kept under a subindex of its own
(log entry 63). -/
def ownTemplate (s : State) : Bytes := s.entW 0xA030 0xFF

/-- What a custodian signs in the ownership ceremony (R590), before its SHA-384. -/
def ownText (s : State) (t : Bytes) : Bytes := [5] ++ serial s ++ t ++ s.entW 0xA030 3

/-- NCUST and NOWN of a template. -/
def ownNcust (t : Bytes) : Nat := (byteAt t 5).toNat
def ownNown (t : Bytes) : Nat := (byteAt t 6).toNat
/-- CUST[i] of a template: QC digest and CGROUP. -/
def ownCust (t : Bytes) (i : Nat) : Bytes := slice t (128 + 24 * i) 24
/-- OWN[j] of a template. -/
def ownKey (t : Bytes) (j : Nat) : Bytes := slice t (320 + 104 * j) 97

/-- A valid ownership template (R589). -/
def templateOk (t : Bytes) : Bool :=
  let nc := ownNcust t
  let no := ownNown t
  let z (o n : Nat) : Bool := (slice t o n).all (fun b => decide (b = 0))
  decide (t.length = 320 + 104 * no) && decide (t.take 5 = [0x53, 0x56, 0x4F, 0x57, 1]) && decide (2 ≤ nc ∧ nc ≤ 8) &&
  decide (1 ≤ no ∧ no ≤ 4) && z 7 1 && z 10 6 && z 113 15 && (p384.dec (slice t 16 97)).isSome &&
  ruleOk (beNat (slice t 8 2)) ((List.range nc).map (fun i => (byteAt (ownCust t i) 16).toNat)) &&
  (List.range 8).all (fun i => if i < nc then decide ((byteAt (ownCust t i) 16).toNat ≤ 3) && z (128 + 24 * i + 17) 7
                               else z (128 + 24 * i) 24) &&
  (List.range no).all (fun j => (p384.dec (ownKey t j)).isSome && z (320 + 104 * j + 97) 7)

/-- The ownership record of MRAM region 4 (R590; its layout is the model's, log entry 41): template in 736 bytes, eight
signatures, the owner seed, tag. -/
def ownRecord (s : State) (t : Bytes) (sigs : List OwnSig) (seed : Bytes) : Bytes :=
  let b := fit t 736 ++ (List.range 8).flatMap (fun i => match sigs.find? (fun g => decide (g.cust = i)) with
    | some g => fit g.sig 96
    | none => zeros 96) ++ fit seed 32
  b ++ aesCmac (crk s) b

/-- Write bytes over consecutive pages of one region: 0, or the first refusal. -/
def writePages (p : Nat) : List Bytes → State → Nat × State
  | [], s => (0, s)
  | b :: t, s =>
    let r := programPage p 0 b 0 s
    if r.1 ≠ 0 then r else writePages (p + 1) t r.2

/-- The ownership record as it lies in MRAM; none where its tag fails. -/
def readOwn (s : State) : Option Bytes :=
  let b := (mramRead s 0x1000 1552)
  if aesCmac (crk s) (b.take 1536) = b.drop 1536 then some (b.take 1536) else none

/-- The template of an ownership record, at its own length. -/
def ownOf (b : Bytes) : Bytes := b.take (320 + 104 * ownNown b)

end Sys2Proof.Machine
end

