-- ==== Sys2Proof/Machine/MirOps.lean ====
section
/-!
DEFINITION. Mirror links, the roster and group changes as shared operations (R593-R605).
-/
namespace Sys2Proof.Machine

/-- A mirror link. -/
def State.mlink (s : State) (l : Nat) : MLink := Tab.look {} s.grp.links l
/-- Set a mirror link. -/
def State.setMlink (s : State) (l : Nat) (v : MLink) : State :=
  { s with grp := { s.grp with links := Tab.put {} s.grp.links l v } }
/-- A roster entry. -/
def State.member (s : State) (k : Nat) : Member := Tab.look {} s.grp.ros k

/-- The roster slots in use. -/
def rosterSlots (s : State) : List Nat := s.grp.ros.map (·.1)

/-- The roster slot of a SERIAL. -/
def slotOfSerial (s : State) (ser : Bytes) : Option Nat := (s.grp.ros.find? (fun e => decide (e.2.serial = ser))).map (·.1)

/-- The other members' roster slots. -/
def otherSlots (s : State) : List Nat := (s.grp.ros.filter (fun e => decide (e.2.serial ≠ serial s))).map (·.1)

/-- The UP links to a peer, lowest first (R595). -/
def upLinks (s : State) (ser : Bytes) : List Nat :=
  (List.range 8).filter (fun l => decide ((s.mlink l).st = 3 ∧ (s.mlink l).peer = ser))

/-- A member is LOST when every link to it is DOWN (R595). -/
def isLost (s : State) (k : Nat) : Bool := decide ((s.member k).serial ≠ serial s) && (upLinks s (s.member k).serial).isEmpty

/-- MIR_n_STAT. -/
def mirStat (s : State) (l : Nat) : Nat :=
  let v := s.mlink l
  let slot := if v.peer.isEmpty then 15 else (slotOfSerial s v.peer).getD 15
  v.st * 2 ^ 28 + slot * 2 ^ 24 + v.tagfail

/-- Send a frame on a link (R593). -/
def sendMir (l : Nat) (m : MirMsg) (s : State) : State :=
  let v := s.mlink l
  let s := s.setMlink l { v with txSeq := v.txSeq + 1, lastTx := s.dt }
  (s.bump (0xB810 + l) 1).emit (.mirror l (v.txSeq + 1) m)

/-- Send a message to a SERIAL, on the lowest-numbered UP link (R595). -/
def sendSerial (ser : Bytes) (m : MirMsg) (s : State) : State :=
  match (upLinks s ser).head? with
  | some l => sendMir l m s
  | none => s

/-- Send a message to a roster slot. -/
def sendTo (k : Nat) (m : MirMsg) (s : State) : State := sendSerial (s.member k).serial m s

/-- GK, anchor 2 (R596). -/
def groupKey (s : State) : Bytes := Tab.look [] s.key.anchors 2

/-- The key that tags the roster and the decision log (R596). -/
def rosterKey (s : State) : Bytes := kdfCtr (groupKey s) (ascii "SV6400 ROSTER") s.grp.id 256

/-- A roster as bytes: GROUPID, an ERASED mask, then eight times SERIAL and IDK digest (log entry 42). -/
def rosterBytes (id : Bytes) (ros : Tab Member) : Bytes :=
  let mask := ros.foldl (fun m e => if e.2.erased then m ||| 2 ^ e.1 else m) 0
  fit id 8 ++ [byte mask, 0, 0, 0] ++
  (List.range 8).flatMap (fun k => let m : Member := Tab.look {} ros k; fit m.serial 8 ++ fit m.idk 16)

/-- A roster from its bytes. -/
def rosterOf (b : Bytes) : Bytes × Tab Member :=
  let mask := (byteAt b 8).toNat
  (b.take 8, (List.range 8).foldl (fun t k =>
    let e := slice b (12 + 24 * k) 24
    if (e.take 8).all (fun x => decide (x = 0)) then t
    else Tab.put {} t k ({ serial := e.take 8, idk := e.drop 8, erased := bit mask k } : Member)) [])

/-- The state of a roster slot as A101-A108:02 shows it; a slot that a roster change in preparation fills is JOINING (DEDUCED from R598, log entry
45). -/
def memberState (s : State) (k : Nat) : Nat :=
  let m := s.member k
  if m.serial.isEmpty then
    (if s.grp.chgs.any (fun c => decide (c.op = 2 ∧ c.st ≤ 1) && ! (Tab.look ({} : Member) (rosterOf c.ros).2 k).serial.isEmpty) then 4 else 0)
  else if m.erased then 3 else if isLost s k then 2 else 1

/-- The generation of a roster copy, and whether the copy is intact: header and tag (R781 class 7). -/
def rosterCopy (s : State) (key : Bytes) (c : Nat) : Option (Nat × Bool × Bytes) :=
  let b := pageRead s (8 + c) 0 256
  if pageIntact s (8 + c) ∧ b.take 5 = beBytes 0x53564752 4 ++ [1] ∧
      aesCmac key (setHdr b ++ slice b 12 204) = slice b 216 16 then
    some (beNat (slice b 8 4), bit (byteAt b 5).toNat 0, slice b 12 204)
  else none
where
  /-- the header with FLAGS taken as 0 -/
  setHdr (b : Bytes) : Bytes := b.take 5 ++ [0] ++ slice b 6 6

/-- The roster copy that the per-datum rule chooses (R781 class 7). -/
def rosterChoice (s : State) (key : Bytes) : Option (Nat × Nat × Bytes) :=
  match rosterCopy s key 0, rosterCopy s key 1 with
  | some a, some b =>
    if a.1 = b.1 then some (0, a.1, a.2.2)
    else if serialNewer 32 a.1 b.1 then (if a.2.1 then some (0, a.1, a.2.2) else some (1, b.1, b.2.2))
    else (if b.2.1 then some (1, b.1, b.2.2) else some (0, a.1, a.2.2))
  | some a, none => some (0, a.1, a.2.2)
  | none, some b => some (1, b.1, b.2.2)
  | none, none => none

/-- Write the roster into the losing copy, then set its COMMIT (R780, R781): 0, or the MRAM's refusal. -/
def writeRoster (s : State) : Nat × State :=
  let key := rosterKey s
  let (c, g) := match rosterChoice s key with
    | some (c, g, _) => (1 - c, (g + 1) % 2 ^ 32)
    | none => (0, 1)
  let hdr (f : Nat) : Bytes := beBytes 0x53564752 4 ++ [1, byte f, 0, 0] ++ beBytes g 4
  let body := rosterBytes s.grp.id s.grp.ros
  let rec_ (f : Nat) : Bytes := hdr f ++ body ++ aesCmac key (hdr 0 ++ body)
  let r := programPage (8 + c) 0 (rec_ 0) 0 s
  if r.1 ≠ 0 then r else programPage (8 + c) 0 (rec_ 1) 0 r.2

/-- Show the group in A100:01-02 and A101-A108:01 (R606). -/
def showGroup (s : State) : State :=
  let s := s.setEnt 0xA100 1 (fit s.grp.id 8)
  let s := s.setNum 0xA100 2 s.grp.ros.length
  let s := s.setNum 0xA100 3 (s.grp.chgs.filter (fun c => decide (c.st = 3))).length
  (List.range 8).foldl (fun s k => s.setEnt (0xA101 + k) 1 (fit (s.member k).serial 8)) s

/-- Take a roster (R600): it is written to MRAM; a device that it does not name is in no group. -/
def takeRoster (b : Bytes) (s : State) : State :=
  let (id, ros) := rosterOf b
  let here := ros.any (fun e => decide (e.2.serial = serial s))
  let g := { s.grp with id := if here then id else [], ros := if here then ros else [], joining := false }
  let s := { s with grp := g }
  showGroup (if here then (writeRoster s).2 else s)

/-- Record a decision before it is sent (R600): decision 1 COMMIT, 2 ABORT; the log holds the last 1,024. -/
def logDecision (chg : Bytes) (node d : Nat) (s : State) : State :=
  let e := s.grp.decPos
  let page := 0x078 + e / 15
  let row := fit chg 12 ++ beBytes node 3 ++ [byte d]
  let p := overlay (pageRead s page 0 240) (16 * (e % 15)) row
  let s := (programPage page 0 (p ++ aesCmac (rosterKey s) p) 0 s).2
  { s with grp := { s.grp with decs := ((chg, node, d) :: s.grp.decs).take 1024, decPos := (e + 1) % 1024 } }

/-- The decision recorded for a change: 0 none. -/
def decisionOf (s : State) (chg : Bytes) : Nat :=
  match s.grp.decs.find? (fun d => decide (d.1 = chg)) with
  | some d => d.2.2
  | none => 0

/-- A group change. -/
def chgOf (s : State) (id : Bytes) : Option Chg := s.grp.chgs.find? (fun c => decide (c.id = id))
/-- Set a group change. -/
def setChg (c : Chg) (s : State) : State :=
  { s with grp := { s.grp with chgs := s.grp.chgs.map (fun x => if x.id = c.id then c else x) } }
/-- Drop a group change; A100:03 counts the held ones. -/
def dropChg (id : Bytes) (s : State) : State :=
  let s := { s with grp := { s.grp with chgs := s.grp.chgs.filter (fun x => decide (x.id ≠ id)) } }
  s.setNum 0xA100 3 (s.grp.chgs.filter (fun c => decide (c.st = 3))).length

/-- Give a node a record and a key (R600, R603): created, filled, replaced or deleted; an old run retires, and removals are
ordered. -/
def installNode (id : Nat) (rec key : Bytes) (s : State) : State :=
  let n := recordOf rec
  let o := s.node id
  if n.kind = 0 then (if o.kind = 0 then s else deleteNode id s)
  else if key.isEmpty then s.setNode id { n with slot := if n.kind = 2 then id - 1 else 0, newslot := 0 }
  else
    let retire (t : State) : State :=
      if o.kind = 3 ∧ o.state ≠ 1 ∧ o.state ≠ 0 then
        let t := t.setRun o.slot { t.run o.slot with role := 2 }
        { t with key := { t.key with olds := t.key.olds ++ [⟨o.slot, id, t.dt, none, []⟩] } }
      else t
    let r := storeKey id { n with newslot := 0 } key s
    if r.1 ≠ 0 then s else if o.kind = 0 ∨ o.state = 1 then r.2 else startScan id (retire r.2)

/-- The key a node holds, for a transfer (R599). -/
def nodeKey (s : State) (id : Nat) : Bytes :=
  let n := s.node id
  if n.kind = 4 ∨ n.state = 1 ∨ n.state = 0 ∨ n.state = 7 then [] else baseKey s id n

/-- The nodes that the members of a group share: owner nodes and anchors 1, 2 and 8-255 (R598, R603). -/
def sharedNodes (s : State) : List Nat :=
  (s.key.nodes.map (·.1)).filter (fun id =>
    id = 2 || id = 3 || (decide (9 ≤ id) && decide (id ≤ 0x100)) || decide (0x200 ≤ id))

/-- The device leaves its group (R597): its owner nodes and anchors 1, 2 and 8-255 are deleted. -/
def leaveGroup (s : State) : State :=
  let s := (sharedNodes s).foldl (fun s id => deleteNode id s) s
  showGroup { s with grp := { s.grp with id := [], ros := [], joining := false } }

/-- The initiator's change is over (R600): its operation ends, or its GROUP ceremony. -/
def chgDone (c : Chg) (s : State) : State :=
  let s := dropChg c.id s
  let s := match c.slot with | some k => doneSlot k c.res s | none => s
  if s.cer.kind ≠ 0 ∧ s.cer.chg = c.id then cerClose .done 0 c.res s else s

/-- A member has answered, or is LOST: with no answer missing, a committed change is over, an aborted one is forgotten. -/
def chgAnswered (id : Bytes) (k : Nat) (s : State) : State :=
  match chgOf s id with
  | none => s
  | some c =>
    let c := { c with waits := c.waits.filter (fun j => decide (j ≠ k)) }
    let s := setChg c s
    if c.waits.isEmpty ∧ c.st = 2 then chgDone c s
    else if c.waits.isEmpty ∧ c.st = 4 then dropChg id s
    else s

/-- The initiator passes its commit point (R600): the decision is logged, the change takes effect here, COMMIT goes out. -/
def chgCommit (c : Chg) (s : State) : State :=
  let s := (logDecision c.id c.node 1 s).bump 0xB800 5
  let alive := c.targets.filter (fun k => ! isLost s k)
  let ser := alive.map (fun k => (s.member k).serial)
  let c := { c with st := 2, waits := alive, resendAt := s.dt + us 200 }
  let s := setChg c s
  let leaving : Bool := decide (c.op = 2) && ! (rosterOf c.ros).2.any (fun e => decide (e.2.serial = serial s))
  let s := ser.foldl (fun s p => sendSerial p (.note 3 c.id) s) s
  let s := if c.op = 2 ∧ ! s.grp.invited.isEmpty then sendSerial (s.grp.invited.take 8) (.note 3 c.id) s else s
  let s := if c.op = 0 then installNode c.node c.nrec c.key s
           else if c.op = 2 then (if leaving then leaveGroup s else takeRoster c.ros { s with grp := { s.grp with invited := [] } })
           else s
  let c := if leaving then { c with waits := [] } else c
  let s := setChg c s
  if c.waits.isEmpty then chgDone c s else s

/-- The initiator aborts everywhere (R601): the decision is logged, ABORT goes out, the new run is zeroised. -/
def chgAbort (id : Bytes) (code : Nat) (s : State) : State :=
  match chgOf s id with
  | none => s
  | some c =>
    let s := (logDecision c.id c.node 2 s).bump 0xB800 6
    let alive := c.targets.filter (fun k => ! isLost s k)
    let s := alive.foldl (fun s k => sendTo k (.note 5 c.id) s) s
    let s := setChg { c with st := 4, waits := alive, resendAt := s.dt + us 200 } s
    let slot := if c.op = 1 then (s.repl c.node).stageOp else c.slot
    let st := (s.node c.node).state
    let s := if c.op = 1 ∧ 3 ≤ st ∧ st ≤ 5 then unstage c.node s else s
    let s := match slot with | some k => failSlot k code s | none => s
    let s := if s.cer.kind ≠ 0 ∧ s.cer.chg = c.id then (if s.cer.kind = 5 then cerFail 0x0A [] s else cerFail 6 (beBytes code 2) s)
             else s
    if alive.isEmpty then dropChg id s else s

/-- Every member has answered PREPARED (R600): the initiator is PREPARED; a replacement waits for its COMMIT unless AUTOCOMMIT. -/
def chgPrepared (c : Chg) (s : State) : State :=
  let c := { c with st := 1, waits := [] }
  let s := setChg c s
  if c.op = 1 ∧ (s.node c.node).state ≠ 4 then chgAbort c.id 6 s
  else if c.op = 1 then
    let auto := (s.repl c.node).auto
    let s := if auto then chgCommit c s else s
    prepared c.node s
  else chgCommit c s

/-- MRAM still takes the records of a group change (R780). -/
def groupWritable (s : State) : Bool := ! regionReadOnly s 3 && ! regionReadOnly s 7

/-- Start a group change (R600, R601, R612): 0, or CODE 0x000B. `skip` is the slot an EVICT or a LEAVE leaves out. -/
def groupPrepare (op node : Nat) (rec key ros : Bytes) (slot : Option Nat) (res : Bytes) (skip : Option Nat) (s : State) :
    Nat × Bytes × State :=
  let targets := (otherSlots s).filter (fun k => decide (some k ≠ skip))
  if targets.any (fun k => isLost s k || (s.member k).erased) ∨ ¬ groupWritable s ∨
      (otherSlots s).any (fun k => decide (some k ≠ skip) && (s.member k).erased) then (0x0B, [], s.bump 0xB800 6)
  else
    let ctr := s.grp.chgCtr
    let id := serial s ++ beBytes ctr 4
    let c : Chg := { id := id, op := op, node := node, nrec := rec, key := key, ros := ros, mine := true, init := serial s,
                     targets := targets, waits := targets, slot := slot, res := res, start := s.dt, resendAt := s.dt + us 200 }
    let s := { s with grp := { s.grp with chgCtr := (ctr + 1) % 2 ^ 32, chgs := s.grp.chgs ++ [c] } }
    let s := s.setEnt 0xA100 6 id
    let s := targets.foldl (fun s k => sendTo k (.prepare id op node rec key ros) s) s
    let s := if op = 2 ∧ ! s.grp.invited.isEmpty then sendSerial (s.grp.invited.take 8) (.prepare id op node rec key ros) s else s
    (0, id, if targets.isEmpty then chgPrepared c s else s)

/-- A member applies a change it holds (R600). -/
def memberCommit (c : Chg) (s : State) : State :=
  let s := (logDecision c.id c.node 1 s).bump 0xB800 5
  let s := if c.op = 1 then
      (if (s.node c.node).state = 5 then commitPoint c.node none s else installNode c.node c.nrec c.key s)
    else if c.op = 0 then installNode c.node c.nrec c.key s
    else
      let joins := s.grp.joining
      let s := takeRoster c.ros s
      if joins ∧ s.cer.kind = 5 then cerClose .done 0 [] s else s
  dropChg c.id s

/-- A member drops a change (R601): its staged run is zeroised. -/
def memberAbort (c : Chg) (s : State) : State :=
  let s := (logDecision c.id c.node 2 s).bump 0xB800 6
  let s := if c.op = 1 ∧ (s.node c.node).state = 5 then unstage c.node s else s
  dropChg c.id s

/-- A member in PREPARED has lost the initiator (R602): STATUS goes to every reachable member; with none, the change is held. -/
def askStatus (c : Chg) (s : State) : State :=
  let ks := (otherSlots s).filter (fun k => ! isLost s k)
  let s := setChg { c with asked := true, stats := [], waits := ks, st := if ks.isEmpty then 3 else 1, resendAt := s.dt + us 200 } s
  let s := s.setNum 0xA100 3 (s.grp.chgs.filter (fun c => decide (c.st = 3))).length
  ks.foldl (fun s k => sendTo k (.note 6 c.id) s) s

/-- A member has become LOST (R595, R601, R602). -/
def memberLost (k : Nat) (s : State) : State :=
  let ser := (s.member k).serial
  s.grp.chgs.foldl (fun s c =>
    if c.mine then
      (if c.st = 0 ∧ c.targets.contains k then chgAbort c.id 0x0B s
       else if c.st = 2 ∨ c.st = 4 then chgAnswered c.id k s else s)
    else if c.st = 1 ∧ c.init = ser ∧ ! c.asked then askStatus c s
    else if c.st = 1 ∧ c.asked then chgAnswered c.id k s
    else s) s

/-- A link goes DOWN (R594, R605): its keys and tokens are cleared, and a peer without a link left is LOST. -/
def linkDown (l : Nat) (s : State) : State :=
  let v := s.mlink l
  if v.st = 0 then s
  else
    let s := (s.setMlink l { tagfail := v.tagfail }).bump (0xB810 + l) 4
    match slotOfSerial s v.peer with
    | some k => if v.st = 3 ∧ isLost s k then memberLost k s else s
    | none => s

/-- A frame whose tag or SEQ fails takes the link DOWN and is logged (R593). -/
def frameFail (l : Nat) (s : State) : State :=
  let v := s.mlink l
  let data := beNat (v.peer.drop 4)
  let s := (s.setMlink l { v with tagfail := satInc 16 v.tagfail }).noteSet (regKey 3 (0x0F040000 + 0x100 * l)) (2 ^ 15)
  linkDown l (logEvent 0x16 l 0 data s)

/-- The answers to STATUS settle a change whose initiator is lost (R602). -/
def settleStatus (id : Bytes) (s : State) : State :=
  match chgOf s id with
  | none => s
  | some c =>
    if c.stats.any (fun e => decide (e.2 = 2)) then memberCommit c s
    else if c.stats.any (fun e => decide (e.2 = 0 ∨ e.2 = 3)) then memberAbort c s
    else if c.waits.isEmpty then
      let s := setChg { c with st := 3 } s
      s.setNum 0xA100 3 (s.grp.chgs.filter (fun c => decide (c.st = 3))).length
    else s

/-- A tamper erase announces itself on every UP link (R604, R605), then the link keys are gone and the links DOWN. -/
def tamperFrames (s : State) : State :=
  let s := (List.range 8).foldl (fun s l =>
    let v := s.mlink l
    if v.st = 3 ∧ ! v.tokTx.isEmpty then sendMir l (.tamper v.tokTx) s else s) s
  (List.range 8).foldl (fun s l =>
    let v := s.mlink l
    if v.st = 0 then s else (s.setMlink l { tagfail := v.tagfail }).bump (0xB810 + l) 4) s

/-- A core reset of KD ends the key commands (R103, R467): changes in their prepare phase abort everywhere, staged runs are
gone and what was prepared here is no longer held. -/
def groupCoreReset (s : State) : State :=
  s.grp.chgs.foldl (fun s c =>
    if c.mine then (if c.st = 0 ∨ c.st = 1 then chgAbort c.id 0xFFFE s else s)
    else dropChg c.id s) s

end Sys2Proof.Machine
end

