-- ==== Sys2Proof/Machine/Tcp.lean ====
section
/-!
DEFINITION. The receive side of the TCP engines (R125-R129): segments, timers, the message framing of the stream.
-/
namespace Sys2Proof.Machine

/-- What was outstanding on a connection is never sent on a later one (R126, R174). -/
def tcpForget (p : Nat) (s : State) : State :=
  let r := s.src p
  s.setSrc p { r with conn := r.conn + 1, outst := r.outst.map (fun o => { o with lost := true }) }

/-- The engine may hold a connection: its port is up in TCP framing, no sweep holds it, and the device is not in ALARM (R162). -/
def tcpMay (s : State) (p : Nat) : Bool :=
  portUp s p && decide (pcfg s p 5 ≠ 0 ∧ (s.src p).block = 0 ∧ s.power.mode ≠ .alarm)

/-- The connection is over (R126, R174): what was outstanding is never sent; a server listens, a client tries again after
20pp:1A. -/
def tcpClose (p : Nat) (s : State) : State :=
  let s := tcpForget p s
  let t : Tcp := { conn := (s.src p).conn }
  s.setTcp p (if ¬ tcpMay s p then t else if pcfg s p 0x10 = 0 then { t with st := 1 } else { t with reDue := some (s.dt + ms (pcfg s p 0x1A)) })

/-- Reset the connection: RST sent, counted, closed. -/
def tcpReset (p : Nat) (s : State) : State := tcpClose p ((tcpSeg p (s.src p).tcp.nxt 20 [] s).pstat p 0x17)

/-- A random initial sequence number. -/
def drawSeq (s : State) : Nat × State :=
  let r := s.draw 4
  (beNat r.1, r.2)

/-- Open the engine (R125): listen, or connect. -/
def tcpOpen (p : Nat) (s : State) : State :=
  if ¬ tcpMay s p then s
  else if pcfg s p 0x10 = 0 then s.setTcp p { conn := (s.src p).conn, st := 1 }
  else
    let d := drawSeq s
    let t : Tcp := { conn := (s.src p).conn, st := 2, iss := d.1, una := d.1, nxt := seqAdd d.1 1,
                     peerPort := pcfg s p 0x12, rtoDue := some (s.dt + sec 1) }
    tcpSeg p d.1 2 [] (d.2.setTcp p t)

/-- Take the options of a SYN (R125): scaling, SACK, timestamps, MSS. -/
def tcpOptions (s : State) (p : Nat) (g : TcpSeg) (t : Tcp) : Tcp :=
  { t with
    scaled := g.wscale.isSome
    shift := (match g.wscale with | some w => Nat.min w.toNat 14 | none => 0)
    sackOk := g.sackOk
    tsOk := g.tstamp.isSome
    tsRecent := (match g.tstamp with | some v => v.toNat | none => 0)
    mss := Nat.min (ownMss s p) (match g.mss with | some m => m.toNat | none => if peerV4 s p then 536 else 1220)
    wnd := g.wnd.toNat }

/-- The initial congestion window (RFC 5681). -/
def initialWindow (mss : Nat) : Nat := (if mss > 2190 then 2 else if mss > 1095 then 3 else 4) * mss

/-- The connection is established (R126): counted, keepalive armed, a new connection for the port's messages. -/
def tcpEstablish (p : Nat) (t : Tcp) (s : State) : State :=
  let s := tcpForget p s
  let ka := pcfg s p 0x16
  let t := { t with st := 4, conn := (s.src p).conn, rtoDue := none, retx := 0, cwnd := initialWindow t.mss, ssthresh := 2 ^ 30,
                    kaDue := if ka = 0 then none else some (s.dt + ms ka), probes := 0 }
  (s.setTcp p t).pstat p 0x16

/-- Consume the in-order stream (R128, R129, R134); `k` is the release delay in XCLK. With 20pp:06 true, a count below the prefix's own length is
taken as a message of length 0 (DESIGN CHOICE, log entry 74). A message carries the tag of the segment that completed it (R121, R133). -/
def tcpMessages (p k : Nat) : Nat → State → State
  | 0, s => s
  | fuel + 1, s =>
    let r := s.src p
    let t := r.tcp
    let w := if pcfg s p 5 = 1 then 2 else 4
    if t.skip > 0 then
      let n := Nat.min t.skip t.rx.length
      let s := s.setTcp p { t with skip := t.skip - n, rx := t.rx.drop n }
      if n = 0 then s else tcpMessages p k fuel s
    else if t.rx.length < w then s
    else
      let c := beNat (t.rx.take w)
      let len := if pcfg s p 6 = 1 then c - w else c
      if w = 4 ∧ c > 65535 then tcpReset p s
      else if len = 0 then tcpMessages p k fuel ((s.setTcp p { t with rx := t.rx.drop w }).pstat p 0x0D)
      else if len > 8192 then tcpMessages p k fuel ((s.setTcp p { t with rx := t.rx.drop w, skip := len }).pstat p 0x0E)
      else if t.rx.length < w + len then s
      else
        let m : Msg := { src := p, body := slice t.rx w len, tstamp := s.dt, rel := dtTicks s.dt + xclk k, tci := r.nbrTci, conn := r.conn }
        tcpMessages p k fuel (releaseMsg p m none (s.setTcp p { t with rx := t.rx.drop (w + len) }))

/-- Place received data in the stream: what is in order, with what was held out of order behind it. -/
def tcpReassemble : Nat → Tcp → Tcp
  | 0, t => t
  | fuel + 1, t =>
    match t.ooo.find? (fun e => decide (seqSub t.rcv e.1 < e.2.length ∨ e.1 = t.rcv)) with
    | none => { t with ooo := t.ooo.filter (fun x => decide (seqSub x.1 t.rcv < 2 ^ 31)) }
    | some e =>
      let new := e.2.drop (seqSub t.rcv e.1)
      tcpReassemble fuel { t with rx := t.rx ++ new, rcv := seqAdd t.rcv new.length, ooo := t.ooo.filter (fun x => decide (x ≠ e)) }

/-- A segment is in the window. -/
def tcpInWindow (t : Tcp) (g : TcpSeg) : Bool :=
  let d := seqSub g.seq.toNat t.rcv
  decide (d < rcvWnd t) || decide (seqSub t.rcv g.seq.toNat < g.data.length)

/-- The first segment in flight is sent again: data, or the FIN (RFC 6298, RFC 5681). -/
def tcpFirst (p : Nat) (s : State) : State :=
  let t := (s.src p).tcp
  if t.sendQ.isEmpty then (tcpSeg p t.una 17 [] s).pstat p 0x15
  else tcpResend p 0 (Nat.min (segMss s p t) (Nat.min (inFlight t) t.sendQ.length)) false s

/-- A loss is found (RFC 5681, RFC 6675): the window is halved and the first segment sent again. -/
def tcpFastRecovery (p : Nat) (s : State) : State :=
  let t := (s.src p).tcp
  let half := Nat.max (inFlight t / 2) (2 * t.mss)
  tcpFirst p (s.setTcp p { t with recover := some t.nxt, ssthresh := half, cwnd := if t.sackOk then half else half + 3 * t.mss,
                                  rxt := t.una, rescued := false, timedOut := false })

/-- The round trip estimate after a measurement (RFC 6298). -/
def rttStep (rtt : Nat) : Option (Nat × Nat) → Option (Nat × Nat)
  | none => some (rtt, rtt / 2)
  | some (a, v) => some ((7 * a + rtt) / 8, (3 * v + (if a < rtt then rtt - a else a - rtt)) / 4)

/-- The congestion window after new data is acknowledged (RFC 5681): slow start below the threshold, else congestion avoidance. -/
def cwndStep (t : Tcp) (n : Nat) : Nat :=
  Nat.min (2 ^ 30) (if t.cwnd < t.ssthresh then t.cwnd + Nat.min n t.mss else t.cwnd + Nat.max 1 (t.mss * t.mss / Nat.max 1 t.cwnd))

/-- New data is acknowledged up to `ack`, `n` sequence numbers (RFC 9293, RFC 5681, RFC 6675, RFC 6298). -/
def tcpAcked (s : State) (p ack n : Nat) (t : Tcp) : Tcp :=
  let gone := Nat.min n t.sendQ.length
  let later (q : Nat) : Bool := decide (0 < seqSub q ack ∧ seqSub q ack < 2 ^ 31)
  let done := match t.recover with | some q => ! later q | none => false
  let rtt := match t.timed with
    | some (q, d) => if later q then none else some (s.dt - d)
    | none => none
  -- the window grows outside a fast recovery; RFC 5681 ends one at the first new acknowledgement, RFC 6675 at the end of the data in flight
  let cwnd := if t.recover.isNone ∨ t.timedOut then cwndStep t gone else if t.sackOk then t.cwnd else t.ssthresh
  let stay := t.recover.isSome && ! done && (t.sackOk || t.timedOut)
  let t := { t with una := ack, sendQ := t.sendQ.drop gone, retx := 0, dup := 0, cwnd := cwnd,
                    recover := if stay then t.recover else none, timedOut := stay && t.timedOut,
                    srtt := (match rtt with | some r => rttStep r t.srtt | none => t.srtt), timed := if rtt.isSome then none else t.timed,
                    sacked := t.sacked.filter (fun e => later e.2), marks := t.marks.filter (fun e => later e.1) }
  { t with rtoDue := if t.una = t.nxt then none else some (s.dt + rtoNs s p t) }

/-- An acknowledgement of nothing new may show a loss: the third duplicate, or what selective acknowledgements report (RFC 5681, RFC 6675). -/
def tcpDup (p : Nat) (dup : Bool) (s : State) : State :=
  let t := (s.src p).tcp
  if ¬ dup then s
  else
    let t := { t with dup := t.dup + 1, cwnd := if t.recover.isSome ∧ ¬ t.timedOut ∧ ¬ t.sackOk then t.cwnd + t.mss else t.cwnd }
    let s := s.setTcp p t
    let lost := t.sackOk && (match tcpGaps s p t with | (a, _, l) :: _ => decide (a = 0) && l | [] => false)
    if t.recover.isNone ∧ (t.dup = 3 ∨ lost) then tcpFastRecovery p s else s

/-- Process an acknowledgement (RFC 9293, RFC 5681, RFC 6298; R125). -/
def tcpAckIn (p : Nat) (g : TcpSeg) (s : State) : State :=
  let t := (s.src p).tcp
  let ack := g.ack.toNat
  let n := seqSub ack t.una
  if n > inFlight t then s
  else
    let wnd := g.wnd.toNat * 2 ^ t.shift
    let was := sackMap t
    let t' := { t with wnd := wnd, zwDue := if wnd = 0 then t.zwDue else none,
                       rtoDue := if wnd ≠ 0 ∧ inFlight t > 0 ∧ t.rtoDue.isNone then some (s.dt + rtoNs s p t) else t.rtoDue,
                       sacked := if t.sackOk then t.sacked ++ g.sacks.map (fun e => (e.1.toNat, e.2.toNat)) else [] }
    if n ≠ 0 then s.setTcp p (tcpAcked s p ack n t')
    else
      let dup := g.data.isEmpty && decide (inFlight t > 0) && ! bit g.flags.toNat 0 &&
        (if t.sackOk then decide (sackMap t' ≠ was) else decide (wnd = t.wnd))
      tcpDup p dup (s.setTcp p t')

/-- The timestamp check of RFC 7323 (R125): an older timestamp fails; on a connection that uses timestamps a segment without
one is dropped. -/
def tcpStale (t : Tcp) (g : TcpSeg) : Bool :=
  match g.tstamp with
  | some v => t.tsOk && decide (seqSub v.toNat t.tsRecent ≥ 2 ^ 31)
  | none => false

/-- The timestamp to remember after an acceptable segment (RFC 7323). -/
def tcpRecent (t : Tcp) (g : TcpSeg) : Tcp :=
  match g.tstamp with
  | some v => if t.tsOk ∧ seqSub t.rcv g.seq.toNat < 2 ^ 31 then { t with tsRecent := v.toNat } else t
  | none => t

/-- Accept a SYN (R125, R126): SYN-RECEIVED, answered SYN and ACK. -/
def tcpAccept (p : Nat) (g : TcpSeg) (s : State) : State :=
  let d := drawSeq s
  let n : Tcp := tcpOptions s p g { conn := (s.src p).conn, st := 3, iss := d.1, una := d.1, nxt := seqAdd d.1 1,
                                    rcv := seqAdd g.seq.toNat 1, peerPort := g.sport.toNat, rtoDue := some (s.dt + sec 1) }
  tcpSeg p d.1 18 [] (d.2.setTcp p n)

/-- A RST in a synchronised state (R126): exact, in the window, or outside it. -/
def tcpRstIn (p : Nat) (g : TcpSeg) (s : State) : State :=
  let t := (s.src p).tcp
  if g.seq.toNat = t.rcv then tcpClose p (s.pstat p 0x18)
  else if seqSub g.seq.toNat t.rcv < rcvWnd t then tcpAck p s
  else s

/-- The data of an acceptable segment enters the stream, is acknowledged, and completes messages (R125, R129, R134). -/
def tcpData (p : Nat) (g : TcpSeg) (s : State) : State :=
  let t := (s.src p).tcp
  let seq := g.seq.toNat
  let t := tcpReassemble 64 { t with ooo := if t.ooo.any (fun e => decide (e.1 = seq ∧ e.2.length ≥ g.data.length)) then t.ooo
                                            else t.ooo ++ [(seq, g.data)] }
  let k := (s.setTcp p t).draw 1
  tcpMessages p ((byteAt k.1 0).toNat % 9) (t.rx.length + 2) (tcpAck p k.2)

/-- The peer's FIN (R126): an incomplete message is discarded and counted, under a count that has no subindex (log entry 87). -/
def tcpFin (p : Nat) (s : State) : State :=
  let t := (s.src p).tcp
  let s := if t.rx.isEmpty ∧ t.skip = 0 then s else s.pstat p 0x1C
  tcpAck p (s.setTcp p { t with rcv := seqAdd t.rcv 1, finRcvd := true, rx := [], skip := 0, kaDue := none,
                                st := if t.st = 4 then 7 else if t.st = 6 then 10 else 8,
                                twDue := if t.st = 6 then some (s.dt + sec 1) else none })

/-- A segment from the peer in a synchronised state (R126). -/
def tcpSynced (p : Nat) (g : TcpSeg) (s : State) : State :=
  let t := (s.src p).tcp
  let f := g.flags.toNat
  let seq := g.seq.toNat
  let n := seqSub g.ack.toNat t.una
  if bit f 2 then tcpRstIn p g s
  else if bit f 1 then
    -- R126: a SYN from the peer during TIME-WAIT opens the new connection
    (if t.st = 10 then tcpAccept p g (tcpForget p s) else tcpAck p s)
  else if ¬ bit f 4 then s
  else if t.tsOk ∧ g.tstamp.isNone then s
  else if tcpStale t g ∨ ¬ (tcpInWindow t g ∨ seq = t.rcv) then tcpAck p s
  else if n > inFlight t ∧ n < 2 ^ 31 then tcpAck p s
  else
    let s := tcpAckIn p g (s.setTcp p (tcpRecent t g))
    let t := (s.src p).tcp
    let finAcked := t.finSent && decide (t.una = t.nxt)
    if t.st = 9 ∧ finAcked then tcpClose p s
    else
      let t := if t.st = 5 ∧ finAcked then { t with st := 6 }
        else if t.st = 8 ∧ finAcked then { t with st := 10, twDue := some (s.dt + sec 1) } else t
      let ka := pcfg s p 0x16
      let s := s.setTcp p { t with kaDue := if ka = 0 ∨ t.st ≠ 4 then none else some (s.dt + ms ka), probes := 0 }
      let takes (t : Tcp) : Bool := decide (t.st = 4 ∨ t.st = 5 ∨ t.st = 6)
      let s := if g.data.isEmpty ∨ ¬ takes t then s else tcpData p g s
      let t := (s.src p).tcp
      let finHere := bit f 0 && decide (seqAdd seq g.data.length = t.rcv) && ! t.finRcvd && takes t
      tcpOutput p (if finHere then tcpFin p s else s)

/-- The reset that answers a segment outside any connection (RFC 9293). -/
def tcpRefuse (p : Nat) (g : TcpSeg) (s : State) : State :=
  let f := g.flags.toNat
  let len := g.data.length + (if bit f 1 then 1 else 0) + (if bit f 0 then 1 else 0)
  (if bit f 4 then tcpSend p g.sport.toNat g.ack.toNat 0 4 0 [] [] (s.src p).nbrTci s
   else tcpSend p g.sport.toNat 0 (seqAdd g.seq.toNat len) 20 0 [] [] (s.src p).nbrTci s).pstat p 0x17

/-- A segment in SYN-SENT (R125, RFC 9293). -/
def tcpSynSent (p : Nat) (g : TcpSeg) (s : State) : State :=
  let t := (s.src p).tcp
  let f := g.flags.toNat
  let ackOk := bit f 4 && decide (g.ack.toNat = t.nxt)
  if bit f 4 ∧ ¬ ackOk then (if bit f 2 then s else tcpRefuse p g s)
  else if bit f 2 then (if ackOk then tcpClose p (s.pstat p 0x18) else s)
  else if bit f 1 then
    let t := tcpOptions s p g { t with rcv := seqAdd g.seq.toNat 1 }
    if ackOk then tcpAck p (tcpEstablish p { t with una := t.nxt } s)
    else tcpSeg p t.iss 18 [] (s.setTcp p { t with st := 3 })
  else s

/-- A segment in SYN-RECEIVED (RFC 9293). -/
def tcpSynReceived (p : Nat) (g : TcpSeg) (s : State) : State :=
  let t := (s.src p).tcp
  let f := g.flags.toNat
  if bit f 2 then tcpRstIn p g s
  else if bit f 1 then tcpAck p s
  else if ¬ bit f 4 then s
  else if g.ack.toNat ≠ t.nxt then tcpRefuse p g s
  else tcpSynced p g (tcpEstablish p { t with una := t.nxt, wnd := g.wnd.toNat * 2 ^ t.shift } s)

/-- A segment's ports are those of the engine's connection, or of one it may accept (R125, R126). -/
def tcpPortOk (s : State) (p : Nat) (g : TcpSeg) : Bool :=
  let t := (s.src p).tcp
  decide (g.dport.toNat = pcfg s p 0x11) &&
  (if pcfg s p 0x12 = 0 then decide (t.st ≤ 1 ∨ g.sport.toNat = t.peerPort ∨ (t.st = 10 ∧ bit g.flags.toNat 1))
   else decide (g.sport.toNat = pcfg s p 0x12))

/-- A segment reaches the engine of a port (R124-R126). -/
def tcpSegment (p : Nat) (g : TcpSeg) (s : State) : State :=
  let f := g.flags.toNat
  if ¬ portUp s p ∨ pcfg s p 5 = 0 then s
  else if g.src.toNat ≠ beNat (pbytes s p 0x0F) ∨ (pbytes s p 0x0F).isEmpty then s.pstat p 0x13
  else if ¬ tcpMay s p then s                          -- R162: not accepted
  else if ¬ tcpPortOk s p g then s.pstat p 0x13
  else
    let s := learnNbr p (beBytes g.mac.toNat 6) (g.tci.map BitVec.toNat) s
    match (s.src p).tcp.st with
    | 0 => if bit f 2 then s else tcpRefuse p g s
    | 1 => if bit f 2 then s else if bit f 4 then tcpRefuse p g s else if bit f 1 then tcpAccept p g s else s
    | 2 => tcpSynSent p g s
    | 3 => tcpSynReceived p g s
    | _ => tcpSynced p g s

/-- TCP_SEGMENT_RECEIVE (R125, R126, R129). -/
def execTcpSegmentReceive (p : Fin 32) (g : TcpSeg) (s : State) : Res := ok (tcpSegment p.val g s)

/-- TCP_RETRANSMIT_TIMEOUT (R125, R126): the earliest segment is sent again with the timeout doubled, or past 20pp:15 the connection ends. -/
def execTcpRetransmitTimeout (p : Fin 32) (s : State) : Res :=
  let p := p.val
  match (s.src p).tcp.rtoDue with
  | none => ok s
  | some due =>
    let s := s.at due
    let t := (s.src p).tcp
    if t.retx + 1 > pcfg s p 0x15 then
      if t.st = 2 then ok (tcpClose p s) else ok (tcpReset p (s.pstat p 0x19))
    else
      let t := { t with retx := t.retx + 1, timed := none }
      let t := { t with rtoDue := some (s.dt + rtoNs s p t) }
      if t.st < 4 then ok ((tcpSeg p t.iss (if t.st = 2 then 2 else 18) [] (s.setTcp p t)).pstat p 0x15)
      else
        ok (tcpFirst p (s.setTcp p { t with dup := 0, sacked := [], recover := some t.nxt, rxt := t.una, rescued := false, timedOut := true,
                                            ssthresh := if t.retx = 1 then Nat.max (inFlight t / 2) (2 * t.mss) else t.ssthresh,
                                            cwnd := t.mss }))

/-- TCP_KEEPALIVE_TIMER (R126): a probe, or RST after 20pp:18 of them. -/
def execTcpKeepaliveTimer (p : Fin 32) (s : State) : Res :=
  let p := p.val
  match (s.src p).tcp.kaDue with
  | none => ok s
  | some due =>
    let s := s.at due
    let t := (s.src p).tcp
    if t.st ≠ 4 then ok s
    else if t.probes ≥ pcfg s p 0x18 then ok (tcpReset p (s.pstat p 0x19))
    else
      let s := s.setTcp p { t with probes := t.probes + 1, kaDue := some (s.dt + ms (pcfg s p 0x17)) }
      ok (tcpSeg p (seqSub t.una 1) 16 [] s)

/-- TCP_ZERO_WINDOW_PROBE (R126, RFC 9293): one byte beyond the window, with the interval doubled. -/
def execTcpZeroWindowProbe (p : Fin 32) (s : State) : Res :=
  let p := p.val
  match (s.src p).tcp.zwDue with
  | none => ok s
  | some due =>
    let s := s.at due
    let t := (s.src p).tcp
    let d := Nat.min (sec 60) (rtoNs s p t * 2 ^ (t.zwN + 1))
    let nxt := if inFlight t = 0 then seqAdd t.una 1 else t.nxt
    ok (tcpSeg p t.una 24 (t.sendQ.take 1) (s.setTcp p { t with zwN := t.zwN + 1, zwDue := some (s.dt + d), nxt := nxt }))

/-- TCP_TIME_WAIT_EXPIRY (R126): 1 s of DT after the device closed first. -/
def execTcpTimeWaitExpiry (p : Fin 32) (s : State) : Res :=
  match (s.src p.val).tcp.twDue with
  | none => ok s
  | some due => ok (tcpClose p.val (s.at due))

/-- TCP_RECONNECT_TIMER (R125, R126). -/
def execTcpReconnectTimer (p : Fin 32) (s : State) : Res :=
  match (s.src p.val).tcp.reDue with
  | none => ok s
  | some due => ok (tcpOpen p.val (s.at due))

/-- TCP options of a header (RFC 9293, 7323, 2018). -/
def parseOpts : Nat → Bytes → TcpSeg → TcpSeg
  | 0, _, g => g
  | fuel + 1, bs, g =>
    match bs with
    | [] => g
    | k :: rest =>
      if k = 0 then g
      else if k = 1 then parseOpts fuel rest g
      else
        let l := (byteAt rest 0).toNat
        if l < 2 then g
        else
          let v := slice bs 2 (l - 2)
          let g := if k = 2 then { g with mss := some (BitVec.ofNat 16 (beNat v)) }
            else if k = 3 then { g with wscale := some (byte (beNat v)) }
            else if k = 4 then { g with sackOk := true }
            else if k = 8 then { g with tstamp := some (word (beNat (v.take 4))) }
            else if k = 5 then { g with sacks := (chunks 8 v).map (fun e => (word (beNat (e.take 4)), word (beNat (e.drop 4)))) }
            else g
          parseOpts fuel (bs.drop l) g

/-- A TCP segment from its bytes, with the link source and tag of the frame that brought it. -/
def parseTcp (src : Nat) (mac : BitVec 48) (tci : Option (BitVec 16)) (bs : Bytes) : Option TcpSeg :=
  let off := (byteAt bs 12).toNat / 16 * 4
  if bs.length < 20 ∨ off < 20 ∨ bs.length < off then none
  else
    let w (i : Nat) := BitVec.ofNat 16 (beNat (slice bs i 2))
    let g : TcpSeg := ⟨BitVec.ofNat 128 src, w 0, w 2, word (beNat (slice bs 4 4)), word (beNat (slice bs 8 4)), byteAt bs 13 &&& 0x3F, w 14,
      none, none, false, none, [], bs.drop off, mac, tci⟩
    some (parseOpts 40 (slice bs 20 (off - 20)) g)

end Sys2Proof.Machine
end

