-- ==== Sys2Proof/Machine/ResetParts.lean ====
section
/-!
DEFINITION. What each reset level does to the blocks (R162, R163, R741-R743, R753, R762): sweeps, compute dies, engines, ports.
-/
namespace Sys2Proof.Machine

/-- A lane response in progress whose body stops arriving ends with an inverted FCS (R162): what has arrived is on the wire, and its identifier stays in the
list. -/
def cutFrame (p dies : Nat) (s : State) : State :=
  let r := s.src p
  match r.cur with
  | none => s
  | some f =>
    if f.kind ≠ 2 ∨ ¬ bit dies f.die ∨ f.bodyEnd ≤ s.dt then s
    else
      let bs := f.bytes.take (f.hlen + (f.blen - 512 * (f.bodyEnd - s.dt)))
      ((s.setSrc p { r with cur := none }).emit (.frame p (bs ++ (fcsBytes bs).map (fun b => ~~~b)))).pstat p 2

/-- A sweep is asked of a source (R162, R163): its status applies to every identifier not yet answered. A system reset or an
erase (`full`) also answers messages not yet classified, and blocks the source until its own reset. -/
def sweepStart (p status dies : Nat) (full : Bool) (s : State) : State :=
  let s := cutFrame p dies s
  let r := s.src p
  let line := if full then r.line.map (fun e => match e.st with
      | .waiting => { e with st := .self status 0 e.msg.baseId, readyAt := dtTicks s.dt }
      | .inCtx _ => { e with st := .self status 0 e.msg.baseId, readyAt := dtTicks s.dt }
      | .desc d => { e with st := .self status d.cls d.msgid, readyAt := dtTicks s.dt }
      | _ => e) else r.line
  let r := { r with sweepReq := some (status, s.dt), sweepSt := status, sweepDies := r.sweepDies ||| dies, line := line,
                    ctxs := if full then [] else r.ctxs, block := if full then status else r.block,
                    deferReset := r.deferReset || full }
  let s := s.setSrc p r
  if full then flushLine p s else s

/-- The port resets itself once its sweep is sent (R162, R163): RST, then everything cleared but the link, the bypass and what waits to leave. -/
def portOwnReset (p : Nat) (s : State) : State :=
  let t := (s.src p).tcp
  let s := if p < 32 ∧ t.st ≥ 2 ∧ t.st ≤ 9 then (tcpSeg p t.nxt 20 [] s).pstat p 0x17 else s
  let s := s.setTcp p {}
  let r := s.src p
  s.setSrc p { link := r.link, conn := r.conn + 1, byp := r.byp, cur := r.cur, txEnd := r.txEnd, block := r.block, leftAt := r.leftAt,
               selfQ := r.selfQ.filter (fun f => ! f.swept), laneQ := r.laneQ.filter (fun f => decide (f.kind = 3)),
               nbr := r.nbr, nbrTci := r.nbrTci }

/-- A source answers each outstanding identifier of the reset dies in list order (R162, R163); the one whose response is in progress has its answer. Once all
is sent the port resets itself. -/
def portSweepOp (p : Nat) (s : State) : State :=
  let r := s.src p
  match r.sweepReq with
  | none => s
  | some (st, _) =>
    let now := match r.cur with | some f => if f.swept then none else f.id | none => none
    let left := match now with | some i => dropOutst i false r.outst | none => r.outst
    let todo := left.filter (fun o => ! o.swept && (bit r.sweepDies o.die || r.deferReset))
    let s := s.setSrc p { r with sweepReq := none, sweepDies := 0, deferReset := r.deferReset && decide (p < 32) }
    let s : State := todo.foldl (fun s o => answerOutst p st o s) s
    if p < 32 ∧ (s.src p).deferReset ∧ sweepDone (s.src p) then portOwnReset p s else s

/-- Every sweep runs to its end: each answer takes the status in force now, which a later event no longer changes (R66). -/
def finishSweeps (s : State) : State :=
  (List.range 36).foldl (fun s p =>
    let s := portSweepOp p s
    let q := (s.src p).selfQ.foldl (fun (acc : List TxFrame × State) f => let g := sweepFrame p f acc.2; (acc.1 ++ [g.1], g.2)) ([], s)
    q.2.setSrc p { q.2.src p with selfQ := q.1 }) s

/-- A host queue pair with EN set answers all its outstanding messages, then its registers return to reset (R753). -/
def sweepHost (q status : Nat) (reset : Bool) (s : State) : State :=
  let p := 32 + q
  let s := if (s.hq q).en then (s.src p).outst.foldl (fun s o => answerOutst p status o s) s else s
  if reset then (s.setHq q {}).setSrc p {} else s

/-- Every source sweeps for a system reset or an erase (R162, R753). -/
def sweepAll (erased : Bool) (s : State) : State :=
  let st := if erased then tERASED else tABORTED
  let keep := (List.range 32).foldl (fun t p => Tab.put [] t p ((clsImage s (epochAt s s.dt) p).getD (Tab.look [] s.port.keepMatch p))) ([] : Tab Bytes)
  let s := { s with port := { s.port with keepAll := bypassAll s, keepMatch := keep } }
  let s := (List.range 32).foldl (fun s p => sweepStart p st 3 true s) s
  if erased then (List.range 4).foldl (fun s q => sweepStart (32 + q) st 3 true s) s
  else (List.range 4).foldl (fun s q => sweepHost q st true s) s

/-- A system reset defers the audit units' own reset (R256): they keep what their last headers need of the epochs. -/
def auditSysClose (s : State) : State :=
  let num (c : Option EpochCfg) : Nat := match c with | some e => e.num | none => 0
  let held := (num s.unit.epoch.prev, num s.unit.epoch.cur, s.num 0x3000 4)
  [0, 1].foldl (fun s d => if (s.aud d).run then s.setAud d { s.aud d with sysHold := true, heldEpoch := some held } else s) s

/-- What a reset leaves of cards, ceremony and group (R741): the cards are deactivated, the links DOWN, every change in progress
forgotten; MRAM keeps the roster and the decision log. -/
def resetGrp (g : GrpState) : GrpState :=
  { id := g.id, ros := g.ros, decs := g.decs, decPos := g.decPos, chgCtr := g.chgCtr
    cards := g.cards.filterMap (fun c => if c.2.pres then some (c.1, ({ pres := true } : Card)) else none) }

/-- Everything outside the ports and audit units that a system reset clears (R741). -/
def clearUnitsSystem (s : State) : State :=
  let held := s.unit.auds.filter (fun a => a.2.sysHold)
  { s with
    unit := { auds := held, sup := { since := s.dt } }
    pk := {}
    key := {}
    mr := {}
    dig := {}
    img := {}
    grp := resetGrp s.grp
    act := {}
    port := { s.port with resLink := [], unsent := [], clsImg := [] } }

/-- A core reset of KD ends every key command; a replacement that had not reached its commit point, or whose key is still being generated, returns to
ACTIVE (R467). -/
def coreResetKd (s : State) : State :=
  let s := groupCoreReset (cerDrop s)
  let s := { s with grp := { s.grp with cards := s.grp.cards.map (fun (c : Nat × Card) => (c.1, Card.off c.2 0)) } }
  let s := s.key.repl.foldl (fun s (r : Nat × Repl) => unstage r.1 s) s
  let s := s.key.gens.foldl (fun s (g : GenReq) => if g.staged ∧ (s.node g.node).state = 3 then s.setNode g.node { s.node g.node with state := 2 } else s) s
  let s := { s with key := { s.key with gens := [] } }
  let s := if changeOpen s then discardLoad s else s
  actCoreKd { s with img := {}, unit := { s.unit with sup := { since := s.dt } } }

/-- Every shadow of a change in progress is discarded, and its slot takes a common code of R103 (R220). -/
def dropChange (code : Nat) (s : State) : State :=
  if changeOpen s then
    match s.unit.epoch.slot with
    | some k => discardLoad (endSlot k .aborted code [] s)
    | none => discardLoad s
  else s

/-- The engines of a die lose their jobs (R566): audit jobs end ABORTED, and the background job. -/
def clearEngines (d : Nat) (s : State) : State :=
  let s := (dieEngines d).foldl (fun s e =>
    let v := s.eng e
    let s := s.setEng e { v with jobs := [], run := none, claim := 0, slice := none }
    v.jobs.foldl (fun s j => if j.kind = 2 then audSigned d j.ref 4 tABORTED [] s else s) s) s
  if (s.bg d).busy || (s.bg d).go then bgEnd d tABORTED s else s

/-- A lane after a core reset of its die (R285, R741): fences, spares and the banks of the current epoch stay. -/
def Lane.coreReset (v : Lane) (cb : Nat) : Lane :=
  let w : Lane := { v with queue := [], run := none, posts := [], tmr := [], pend := 0, ovf := 0, carried := 0, inFull := false }
  let w : Lane := { w with outFull := false, mbxi := [], mbxo := [], cyc := 0, budget := 0, cycmax := 0, ovr := 0 }
  let w : Lane := { w with claimed := false, slice := none, trap := 0, trapAddr := 0 }
  w.setBank (1 - cb) 0

/-- The lanes and quads of a die after its core reset (R741). -/
def clearLanesQuads (d : Nat) (s : State) : State :=
  let cb (l : Nat) : Nat := match s.unit.epoch.cur with | some c => Tab.look 0 c.banks l | none => 0
  let s := { s with unit := { s.unit with jobs := s.unit.jobs.filter (fun j => decide (laneDie j.2.lane ≠ d)) } }
  let s := (dieLanes d).foldl (fun s l => s.setLane l ((s.lane l).coreReset (cb l))) s
  let s := [64 + 2 * d, 65 + 2 * d].foldl (fun s l => s.setLane l ((s.lane l).coreReset 0)) s
  (dieQuads d).foldl (fun s q =>
    let v := s.quad q
    s.setQuad q { v with cache := [], mover := 0, claim := none, slice := none, late := false,
                         units := v.units.filter (fun u => decide (u.2 = 2)) }) s

/-- A core reset of a compute die (R162, R220, R222, R255, R566, R741). -/
def coreResetCd (d : Nat) (s : State) : State :=
  let s := clearLanesQuads d (clearEngines d (dropChange 0xFFFE s))
  let s := { s with key := { s.key with delivs := s.key.delivs.filter (fun x => decide (x.die ≠ d)),
                                        bus := s.key.bus.filter (fun x => decide (x.die ≠ d)) } }
  let s := { s with port := { s.port with resLink := s.port.resLink.filter (fun h => decide (h.die ≠ d)) } }
  let s := s.setDisp d { cur := (s.disp d).cur, prev := 0, inReset := true }
  let s := s.setAud d { s.aud d with corerst := (s.aud d).corerst ++ [s.dt] }
  let s := (List.range 36).foldl (fun s p =>
    if (s.src p).outst.any (fun o => decide (o.die = d) && ! o.swept) then sweepStart p tABORTED (2 ^ d) false s else s) s
  finishDrain (rearmAll s)

/-- The supervisor restores a compute die (R743): class tables and bank states from its copies. -/
def restoreCd (d : Nat) (s : State) : State :=
  -- R67: what arrived during the reset is never held for later admission
  let s := s.setDisp d { s.disp d with
    inReset := false, arrivals := (s.disp d).arrivals.map (fun a => if a.due < s.dt then { a with lost := true } else a) }
  (dieLanes d).foldl (fun s l => if (s.lane l).cause = 0 then refreshBanks l s else s) s

/-- A PK engine's block reset (R762): its DRBG is instantiated again. -/
def blockResetPk (e : Nat) (s : State) : State := s.setEng e { s.eng e with jobs := [], run := none, seeded := true, reqs := 0 }

/-- A transaction port's block reset (R762): an established connection ends with RST; the engine opens again. -/
def blockResetPort (p : Nat) (s : State) : State :=
  let s := portOwnReset p s
  if portUp s p ∧ pcfg s p 5 ≠ 0 then tcpOpen p s else s

/-- The transaction ports are configured from their entries (R755): they serve again. -/
def portsConfigure (s : State) : State :=
  let s := { s with port := { s.port with keepAll := false, keepMatch := [] } }
  (List.range 36).foldl (fun s p =>
    let s := s.setSrc p { s.src p with block := 0 }
    if p < 32 ∧ portUp s p ∧ pcfg s p 5 ≠ 0 then tcpOpen p s else s) s

end Sys2Proof.Machine
end

