-- ==== Sys2Proof/Machine/TamperOps.lean ====
section
/-!
DEFINITION. Tamper conditions and the erase as shared operations (R643-R656, R661, R663, R845).
-/
namespace Sys2Proof.Machine

/-- The VBAT counter of a condition's group (R643, R669). -/
def condGroup : Nat → Nat
  | 1 => 0 | 2 => 1 | 3 => 1 | 4 => 2 | 5 => 2 | 6 => 3 | 7 => 3 | 8 => 4 | 9 => 4 | 0xA => 5 | 0xB => 6 | 0xC => 7 | 0xD => 7
  | 0xE => 7 | 0xF => 8 | 0x10 => 9 | _ => 10

/-- A condition. -/
def State.cond (s : State) (c : Nat) : Cond := Tab.look {} s.tamper.conds c
/-- Set a condition. -/
def State.setCond (s : State) (c : Nat) (v : Cond) : State :=
  { s with tamper := { s.tamper with conds := Tab.put {} s.tamper.conds c v } }

/-- The response of a condition is E (R643, R648). -/
def respE (s : State) (c : Nat) : Bool := fixedE c || decide (s.num (0x7010 + c) 2 = 1)

/-- Conditions 0x10 and 0x11 are momentary (R643). -/
def momentary (c : Nat) : Bool := decide (c = 0x10 ∨ c = 0x11)

/-- TMP_ACT. -/
def tmpAct (s : State) : Nat := s.tamper.conds.foldl (fun m e => if e.2.asserted then m ||| 2 ^ (e.1 - 1) else m) 0
/-- TMP_LAT. -/
def tmpLat (s : State) : Nat := s.tamper.conds.foldl (fun m e => if e.2.latched then m ||| 2 ^ (e.1 - 1) else m) 0

/-- The erase source latches at every alarm output until it is acknowledged (R663); the mask selects it. -/
def latchAlarms (s : State) : State :=
  { s with tamper := { s.tamper with alLatch := (List.range 6).foldl (fun t n => Tab.put 0 t n 1) s.tamper.alLatch } }

/-- An alarm output is asserted (R663). A momentary condition, asserted for one ACLK, shows at no later instant of the model
(log entry 95). -/
def alarmOn (s : State) (n : Nat) : Bool :=
  let m := s.num (0x7060 + n) 1
  decide (m &&& tmpAct s ≠ 0) || (bit m 24 && decide (Tab.look 0 s.tamper.alLatch n = 1)) ||
  (bit m 25 && decide (s.power.mode = .alarm)) || (bit m 26 && s.log.full) ||
  (bit m 27 && s.tamper.conds.any (fun e => e.2.asserted && ! respE s e.1))

/-- The level of an alarm output (R663, R815, R817): high from PD01 READY until the options are loaded; then asserted or inactive by its
polarity; undriven without main power. -/
def alLevel (s : State) (n : Nat) : Option Bool :=
  if s.power.mode = .guard ∨ (s.dom 1).st ≠ .ready then none
  else if s.rst.level = 1 ∧ s.power.mode = .bringup ∧ s.rst.phase = .options then some true
  else some (alarmOn s n != decide (s.num (0x7060 + n) 2 = 1))

/-- The code on VID4-VID0 (R805, R821): undriven before PD01 is ready and without main power. -/
def vidLevel (s : State) : Option Nat := if s.power.mode = .guard ∨ (s.dom 1).st ≠ .ready then none else some s.power.vid

/-- Ramps are cut short (R712, R674): every domain in ENTRY, DOWN or UP but PD00, PD01 and PD29 goes off; RET is cleared in
place. -/
def cutRamps (s : State) : State :=
  (List.range 33).foldl (fun s d =>
    match (s.dom d).st with
    | .entry => if d = 0 ∨ d = 1 ∨ d = 29 then s else cutOff d .off s
    | .down => if d = 0 ∨ d = 1 ∨ d = 29 then s else cutOff d .off s
    | .up => if d = 0 ∨ d = 1 ∨ d = 29 then s else cutOff d .off s
    | _ => s) s

/-- Tier 1 on KD (R651, R639): the salt, every key, the digest engine, the session keys, cards and ceremony. -/
def eraseKd (s : State) : State :=
  let s := cerDrop s
  let s := { s with grp := { s.grp with cards := s.grp.cards.map (fun (c : Nat × Card) => (c.1, Card.off c.2 0)), chgs := [] } }
  let d := s.dig
  { s with
    tamper := { s.tamper with saltSet := false, salt := [] }
    key := { saltGen := s.key.saltGen, pufAttempts := s.key.pufAttempts, pufCorrected := s.key.pufCorrected }
    dig := { d with msg := [], full := 0, running := false, keying := false, finishing := false, key := [], isMatch := false,
                    mismatch := false, res := [], err := 6 } }

/-- An epoch whose program images and classifier banks an erase has cleared (R162, R652). -/
def noImages (e : EpochCfg) : EpochCfg := { e with cls := [], progs := [] }

/-- Tiers 1 and 2 on the compute dies and the port die (R651, R652): caches, PK engines, lanes, frame slots, shared SRAM, queued
work; images and classifier banks. -/
def eraseUnits (s : State) : State :=
  let lane (v : Lane) : Lane :=
    { cause := v.cause, fenceDt := v.fenceDt, subst := v.subst, spared := v.spared,
      bankA := if v.bankA = 1 ∨ v.bankA = 2 then 0 else v.bankA, bankB := if v.bankB = 1 ∨ v.bankB = 2 then 0 else v.bankB }
  let u := s.unit
  let eng (v : PkEng) : PkEng := { cause := v.cause, fenceDt := v.fenceDt }
  { s with
    unit := { u with
      lanes := u.lanes.map (fun e => (e.1, lane e.2))
      quads := u.quads.map (fun e => (e.1, { cause := e.2.cause, units := e.2.units.filter (fun x => decide (x.2 = 2)) }))
      disps := [(0, { cur := (s.disp 0).cur, prev := (s.disp 0).prev, inReset := true }),
                (1, { cur := (s.disp 1).cur, prev := (s.disp 1).prev, inReset := true })]
      jobs := []
      shared := []
      epoch := { u.epoch with images := [], pendImages := [], shadow := none, st := .idle, slot := none,
                              cur := u.epoch.cur.map noImages, prev := u.epoch.prev.map noImages } }
    pk := { engs := s.pk.engs.map (fun e => (e.1, eng e.2)), bgs := [], curves := s.pk.curves, seq := s.pk.seq }
    port := { s.port with resLink := [], clsImg := [] } }

/-- The audit key and the audit buffer are destroyed (R257); the header store is not in the buffer. -/
def eraseAudit (s : State) : State :=
  [0, 1].foldl (fun s d =>
    let a := s.aud d
    if a.run then s.setAud d { a with erased := true, items := a.items.filter (fun i => decide (i.kind ≠ 0)) } else s) s

/-- A supervisor that stopped: its images and SRAM are gone (R652). -/
def eraseSup (s : State) : State := { s with img := {}, rst := { s.rst with coreBusy := s.rst.coreBusy ||| 1 } }

/-- LEARN ends FAILED (R673), the other operations ABORTED with CODE 0xFFFF and no Result (R103). -/
def eraseSlots (s : State) : State :=
  let s := match s.tamper.learn with
    | some k => { (failSlot k 0xFFFF s) with tamper := { s.tamper with learn := none } }
    | none => s
  endSessions (abortSlots 0xFFFF s)

/-- A tamper erase (R650-R653, R712, R845): everything stops, tier 1 and tier 2 clear their stores, XD announces it and every
outstanding message is answered ERASED. An erase that is in progress is not started again (R672). -/
def tamperErase (code : Nat) (s : State) : State :=
  if s.tamper.erasing then s
  else
    let s := tamperFrames (cutRamps s)
    let s := sweepAll true (eraseAudit s)
    let s := eraseUnits (eraseKd (eraseSlots s))
    let s := eraseSup s
    let t := s.tamper
    latchAlarms { s with
      power := { s.power with modeTarget := none, drainTo := none, deepFrom := none }
      tamper := { t with erased := true, t1done := true, t2done := true, erasing := true, erases := satInc 8 t.erases,
                         lastErase := s.dt, lastCond := code } }

/-- A zeroise erase (R650, R665, R669): entry E with SRC 0x00, VBAT counter 11. -/
def zeroiseErase (cred : Nat) (s : State) : State := tamperErase 0 (vbatInc 11 (logEvent 0x02 0 2 cred s))

/-- The credential of the open session, for the log (R665); 0 without one. -/
def credOfSession (s : State) : Nat := match s.dict.sess with | some e => e.cred | none => 0

/-- The erase of a debug unlock in OWNED (R47, R654): a tamper erase without ALARM, the state moves to FA. -/
def debugErase (s : State) : State :=
  let s := tamperErase 0 (vbatInc 15 (logEvent 0x05 0 2 0 s))
  burnLcs .fa { s with tamper := { s.tamper with erasing := false } }

/-- An enclosure condition of a channel that is disabled is never raised (R659). -/
def chanOff (s : State) (code sensor : Nat) : Bool :=
  decide (0xC ≤ code ∧ code ≤ 0xE) && decide (64 ≤ sensor ∨ s.num (0x7080 + sensor) 1 = 0)

/-- The conditions the island watches in GUARD (R661): enclosure cut and short, LID, VBAT low, the PD00 temperature. -/
def guardWatches (code sensor : Nat) : Bool :=
  decide (code = 0xC ∨ code = 0xD ∨ code = 0xB ∨ (code = 2 ∧ sensor = 9) ∨ code = 8)

/-- A condition in GUARD (R661, R662, R669): once per assertion it is counted, queued with the RTC time, and under E the salt is
cleared at once; the salt is cleared under VBAT low whatever the response. DESIGN CHOICE (log entry 95): beyond 16 the group's
counter alone counts (R661's "only"), counter 13 does not. -/
def guardAssert (code sensor : Nat) (s : State) : State :=
  if ¬ guardWatches code sensor ∨ chanOff s code sensor ∨ (s.cond code).asserted then s
  else
    let e := respE s code
    let s := vbatInc (condGroup code) (s.setCond code { s.cond code with asserted := true, sensor := sensor, since := s.dt })
    let ev : LogEv := ⟨if e then 0x02 else 0x01, code, (if e then 2 else 1) + 4, rtcSec s, rtcFrac s, 0, sensor⟩
    let s := if s.log.guardQ.length < 16 then { s with log := { s.log with guardQ := s.log.guardQ ++ [ev] } } else s
    if e then
      vbatInc 12 { s with tamper := { s.tamper with saltSet := false, salt := [], guardEv := true } } |>.noteSet (regKey 2 tmpOff) (2 ^ 28)
    else if code = 2 then { s with tamper := { s.tamper with saltSet := false, salt := [] } }
    else s

/-- A condition in GUARD is no longer reported. -/
def guardDeassert (code : Nat) (s : State) : State :=
  if (s.cond code).asserted then s.setCond code { s.cond code with asserted := false } else s

/-- A W condition that stays asserted for its escalation time takes the E response once (R647); not in GUARD (R661). -/
def escalate (k : Nat) (s : State) : State :=
  let c := s.cond k
  let t := s.cfg (0x7010 + k) 5
  if ¬ c.asserted ∨ c.escd ∨ respE s k ∨ t = 0 ∨ s.power.mode = .guard then s
  else
    let s := (s.at (c.escFrom + ms t)).setCond k { c with escd := true }
    tamperErase k (logEvent 0x03 k 2 c.sensor s)

/-- A deassertion is taken now: an expiry of the escalation time in this ACLK cycle or an earlier one escalates first (R647). -/
def settleEscalation (k : Nat) (s : State) : State :=
  if aclkOf ((s.cond k).escFrom + ms (s.cfg (0x7010 + k) 5)) ≤ aclkOf s.dt then escalate k s else s

/-- A condition is asserted (R643-R648): counted, latched, logged under the holdoff, its response taken. The holdoff runs from the
last W or E entry of the condition (DESIGN CHOICE, log entry 95: a CLEARED entry does not start it). -/
def condAssert (code sensor : Nat) (s : State) : State :=
  if code = 0 ∨ code > 0x11 then s
  else if s.power.mode = .guard then guardAssert code sensor s
  else if (s.cond code).asserted ∨ chanOff s code sensor then s
  else
    let c := s.cond code
    let e := respE s code
    let s := vbatInc (condGroup code) ((s.bump (0x7010 + code) 6))
    let hold := match c.lastLog with | some t => decide (s.dt < t + ms (s.cfg 0x7000 7)) | none => false
    let quiet := hold && ! e
    let c := { c with asserted := ! momentary code, latched := true, sensor := sensor, since := s.dt, escFrom := s.dt, escd := false,
                      lastLog := if quiet then c.lastLog else some s.dt, sinceLog := if quiet then c.sinceLog + 1 else 0 }
    let s := (s.setCond code c).noteSet (regKey 2 (tmpOff + 8)) (2 ^ (code - 1))
    let s := { s with tamper := { s.tamper with detDt := s.dt, sipend := if e then s.tamper.sipend else s.tamper.sipend ||| 8 } }
    let s := if quiet then s else logEvent (if e then 0x02 else 0x01) code (if e then 2 else 1) sensor s
    if e then tamperErase code s else s

end Sys2Proof.Machine
end

