-- ==== Sys2Proof/Machine/ResetOps.lean ====
section
/-!
DEFINITION. The reset levels as shared operations (R740, R741, R753, R768-R774, R804).
-/
namespace Sys2Proof.Machine

/-- Write RST_CAUSE and its times (R740). Of two resets of one level latched in one ACLK cycle the lower SOURCE is recorded, and the scopes
of core resets are joined (R768). -/
def writeCause (level scope info source : Nat) (s : State) : State :=
  let r := s.rst
  let joined := decide (r.level = level) && decide (1 < level) && decide (aclkOf r.cdt = aclkOf s.dt)
  let low := joined && decide (r.source < source)
  { s with rst := { r with level := level, scope := if joined then r.scope ||| scope else scope, info := if low then r.info else info,
                           source := if low then r.source else source, cdt := s.dt, crtc := rtcSec s } }

/-- What PD00 keeps for as long as VBAT or VDD_AON is present (R704, R741). -/
def keepTamper (t : TamperState) : TamperState :=
  { rtcs := t.rtcs, rtcf := t.rtcf, rtcDt := 0, saltSet := t.saltSet, salt := t.salt, guardEv := t.guardEv,
    measured := t.measured, chState := t.chState }

/-- What PD00 and MRAM keep of the evidence log (R664, R741). -/
def keepLog (l : LogState) : LogState :=
  { seq := l.seq, head := l.head, guardQ := l.guardQ, vbat := l.vbat, count := l.count, full := l.full, baseSeq := l.baseSeq,
    baseHead := l.baseHead }

/-- What MRAM and the fuses keep (R741); the controllers return to reset. -/
def keepNvm (n : NvmState) : NvmState :=
  { mram := n.mram, badPages := n.badPages, badWords := n.badWords, spareUsed := n.spareUsed, spareBad := n.spareBad, fuses := n.fuses }

/-- The device with only what survives the loss of main power (R739, R741): PD00, MRAM, fuses and the life-cycle state they
hold; what has left the device and what waits outside it stay. -/
def survivors (s : State) : State :=
  { State.reset with
    pending := s.pending
    out := s.out
    draws := s.draws
    pins := s.pins
    nvm := keepNvm s.nvm
    tamper := keepTamper (setRtc (rtcTicks s) s).tamper
    log := keepLog s.log
    grp := resetGrp s.grp
    power := { State.reset.power with lcs := s.power.lcs }
    dict := { State.reset.dict with stored := s.dict.stored, work := s.dict.stored } }

/-- A power-on (R740, R741): DT 0, phase OPTIONS, every domain other than PD00 off. -/
def powerOnReset (source : Nat) (s : State) : State :=
  let t := survivors s
  (writeCause 1 0 0 source { t with rst := { t.rst with started := 0 } }).bump 0xB890 1

/-- Main power is lost: GUARD, only PD00 lives (R725, R804). RETIRED has no GUARD (R46): such a device stays as a power-on finds it, held in reset
(DESIGN CHOICE, log entry 84). -/
def enterGuard (s : State) : State :=
  let t := survivors s
  if s.power.lcs = .retired then { t with rst := { t.rst with porstHeld := true } } else t.setMode .guard

/-- A reset during the option-loading phase restarts it at word 0 (R748). -/
def noteRestart (s : State) : State :=
  if s.rst.phase = .options ∧ s.domReady 4 then { s with rst := { s.rst with restarts := satInc 8 s.rst.restarts } } else s

/-- The volatile entries at BRINGUP: every V entry takes its default (R94 ff.). -/
def volatileDefaults (s : State) : State :=
  { s with dict := { s.dict with work := s.dict.work.filter (fun e =>
      match findEnt (e.1 / 256) (e.1 % 256) with
      | some t => decide (t.store = .persist)
      | none => false) } }

/-- The domains a system reset leaves on (R748, R752, R774); one in RET is off. -/
def resetDoms (loading : Bool) (t : Tab Dom) : Tab Dom :=
  let keep (d : Nat) : Bool := decide (d = 1 ∨ d = 29 ∨ d = 30 ∨ d = 31 ∨ d = 32) || (decide (d = 4) && loading)
  (t.filter (fun e => keep e.1)).map (fun e => (e.1, if e.2.st = DomState.ret then { e.2 with st := .off } else e.2))

/-- The reset registers at a system reset: what they keep (R741, R748). -/
def systemRst (r : ResetState) (dt : Nat) : ResetState :=
  { restarts := r.restarts, started := dt, lastDur := r.lastDur, wdto := r.wdto, sysrstHeld := r.sysrstHeld,
    level := r.level, source := r.source, scope := r.scope, info := r.info, cdt := r.cdt }

/-- The power controller at a system reset. -/
def systemPower (loading : Bool) (dt : Nat) (p : PowerState) : PowerState :=
  let q : PowerState := { p with holdQuads := false, holdPk := false, holdDeep := false, retMode := 0, ret2 := 0, deepFrom := none }
  { q with drainTo := none, modeTarget := none, doms := resetDoms loading p.doms, vset := 800, vid := 20, vsetDt := dt }

/-- A system reset stops all work, and every block but the reset registers and MRAM takes its reset state (R741, R753). -/
def systemClear (s : State) : State :=
  let loading := decide (s.power.mode = Mode.bringup) && decide (s.rst.phase = Phase.options)
  let s := noteRestart s
  let s := clearUnitsSystem (auditSysClose (sweepAll false (cerDrop s)))
  let s := volatileDefaults s
  let s := { s with dict := { s.dict with sess := none, half := none, slots := [], order := [], pendE := [], stalled := [], msRsp := [] } }
  let s := { s with regs := s.regs.filter (fun e => decide (e.1 ≠ regKey 3 0x0F03F000 ∧ e.1 ≠ regKey 3 0x0F03F004)) }
  { s with power := systemPower loading s.dt s.power }

/-- A system reset (R741, R753): all work stops, the ports sweep, the audit blocks close, PD02-PD28 go off, and BRINGUP
starts over, with VDD_L at 800 mV (R728). PD01, PD29 and PD30-PD32 stay as they are, and PD04 does while options load (R748, R774); a domain
in RET is off. -/
def systemResetSteps (source info : Nat) (s : State) : State :=
  let s := systemClear s
  let s := { s with nvm := { keepNvm s.nvm with readOnly := s.nvm.readOnly } }
  let s := { s with rst := systemRst s.rst s.dt, tamper := { s.tamper with erasing := false } }
  ((writeCause 2 0 info source s).setMode .bringup).bump 0xB890 2

/-- A system reset; in ALARM with 7000:05 = 1 only a power-on ends ALARM (R656). -/
def systemReset (source info : Nat) (s : State) : State :=
  if s.power.mode = .alarm ∧ s.cfg 0x7000 5 = 1 then s else systemResetSteps source info s

/-- The slots a core reset of KD leaves (R103), and the other items of its column (R741). -/
def coreKd (s : State) : State :=
  let s := coreResetKd (endSessions (abortSlots 0xFFFE s))
  let s := { s with dict := { s.dict with stalled := [] } }
  let s := { s with nvm := { s.nvm with or0 := { s.nvm.or0 with unlocked := false }, or1 := { s.nvm.or1 with unlocked := false } } }
  { s with rst := { s.rst with wdtEn := false, coreBusy := s.rst.coreBusy ||| 1 } }

/-- A core reset (R740-R742, R769): `scope` bit 0 KD, bit 1 CD0, bit 2 CD1. In DEEP it takes effect on the next wake (R774);
in the ACLK cycle of a reset of higher level that one acts (R768). -/
def coreReset (scope source : Nat) (s : State) : State :=
  if s.power.mode = .deep then { s with rst := { s.rst with deepCore := s.rst.deepCore ||| scope } }
  else if s.power.mode = .bringup ∧ s.rst.level ≤ 2 ∧ aclkOf s.rst.cdt = aclkOf s.dt then s
  else
    let s := writeCause 3 scope 0 source (noteRestart s)
    let s := if bit scope 0 then (coreKd s).bump 0xB890 3 else s
    let cd (die : Nat) (s : State) : State :=
      if bit scope (die + 1) then
        (coreResetCd die { s with rst := { s.rst with coreBusy := s.rst.coreBusy ||| 2 ^ (die + 1) } }).bump 0xB890 (4 + die)
      else s
    cd 1 (cd 0 s)

/-- A system reset asked for by a request or an event of the device (R740). -/
def systemResetNow (source info : Nat) (s : State) : State := systemReset source info s

end Sys2Proof.Machine
end

