-- ==== Sys2Proof/Machine/Power.lean ====
section
/-!
DEFINITION. The meanings of the power-domain, mode and life-cycle commands (R704-R739, R814).
-/
namespace Sys2Proof.Machine

/-- DOMAIN_IDLE_TIMEOUT (R718, R719, R732): the timer's instant; refused, or the power-down starts. No effect where the
timer is not running. -/
def execDomainIdleTimeout (d : Nat) (s : State) : Res :=
  match (s.dom d).idleDue with
  | none => ok s
  | some due =>
    if hasTimer d ∧ (s.dom d).st = .ready then
      let s := s.at due
      match domRefuser s d with
      | some r => ok (rearmIdle d (recordRefusal d r 0 0 s))
      | none => ok (s.setDom d { s.dom d with st := .entry, since := s.dt, idleDue := none })
    else ok s

/-- A domain reaches OFF: FENCED where a fence came during the power-down (R733), the pending power-up starts (R711), and
DOZE may begin (R720). -/
def reachOff (d : Nat) (s : State) : State :=
  let v := s.dom d
  let s := if isQuadDom d then emptyCache (d - 11) s else if isPkDom d then zeroisePkDie (d - 9) s else s
  let s := loseDomain d (s.setDom d { v with st := if v.fenceReq then .fenced else .off, since := s.dt, wantUp := none, idleDue := none, fenceReq := false })
  if v.fenceReq then dozeEnter s
  else
    match v.wantUp with
    | some c => switchOn d c.1 c.2 true v.wokenAt s
    | none => dozeEnter s

/-- The DEEP entry's steps D2 to D5 (R267, R704, R721): a domain that is OFF or FENCED stays so. -/
def deepSteps (s : State) : State :=
  let s := cutAll [30, 31, 32, 6, 4, 7, 8] s
  let s := (List.range 68).foldl (fun s l => s.setLane l { s.lane l with mem := [] }) s
  let s := [29, 5, 2].foldl (fun s d => if (s.dom d).st = .fenced ∨ (s.dom d).st = .off then s else s.domTo d .ret) s
  (({ s with power := { s.power with deepFrom := none } }).setMode .deep).bump 0xB880 4

/-- POWER_DOWN_COMPLETE (R707): a quad or PK domain at most 500 ns after its start; 0x41 is the end of the DEEP entry,
144 ACLK after its start (R721). -/
def execPowerDownComplete (d : Nat) (s : State) : Res :=
  if d = 0x41 then
    match s.power.deepFrom with
    | none => ok s
    | some t => ok (deepSteps (s.at (t + aclk 144)))
  else if (s.dom d).st = .entry ∨ (s.dom d).st = .down then ok (reachOff d (s.at ((s.dom d).since + 500)))
  else ok s

/-- POWER_UP (R708, R710, R711, R713): a wake event for a domain. -/
def execPowerUp (d src idx : Nat) (s : State) : Res :=
  if d ≤ 32 ∧ 1 ≤ src ∧ src ≤ 0x0C then ok (wakeDomain d src idx s) else ok s

/-- A domain has reported ready and lock: its units return (R708, R714). -/
def readyEffect (d : Nat) (s : State) : State :=
  let s := if isQuadDom d then quadReadyEffect (d - 11) s else if isPkDom d then pkReadyEffect (d - 9) s
    else if d = 27 ∨ d = 28 then sparesReady (d - 27) s else s
  rearmIdle d (settleDegraded s)

/-- Every access that stalls on a domain completes with DOMAIN_UNAVAILABLE (R714). -/
def failStalled (d : Nat) (s : State) : State :=
  let mine (a : StalledAcc) : Bool := decide (accDomain s a.addr = d)
  let s' := { s with act := { s.act with stall := s.act.stall.filter (fun a => ! mine a) } }
  (s.act.stall.filter mine).foldl (fun s a => s.emit (.bus a.ini a.addr tDOMAIN_UNAVAILABLE [])) s'

/-- The power domain that the value of an entry is read from: MRAM, the fuses and the evidence region lie in PD04, the digest engine,
the measurement registers and their log in PD05 (R704, R114). The other entries lie where the server or the Anise core runs
(DESIGN CHOICE, log entry 82). -/
def readDomain (idx : Nat) : Option Nat :=
  if idx = 0x7101 ∨ (0x9000 ≤ idx ∧ idx ≤ 0x91FF) then some 4
  else if 0x6800 ≤ idx ∧ idx ≤ 0x680F then some 5
  else none

/-- A dictionary READ that waits for a domain whose wake fails receives MODE (R114, R714). -/
def failReads (d : Nat) (s : State) : State :=
  let mine (e : Nat × Req) : Bool := decide (readDomain e.2.index.toNat = some d)
  let s' := { s with dict := { s.dict with stalled := s.dict.stalled.filter (fun e => ! mine e) } }
  (s.dict.stalled.filter mine).foldl (fun s e => replyIn s e.2 opREAD rMODE [] s) s'

/-- A power-up that fails: RETRY with its back-off, FENCED after the third retry, HALT for PD02 and PD04 in BRINGUP (R714, R752).
Elsewhere a failed PD02 ends the wake in a system reset, at the first timeout (DEDUCED: its INFO holds the attempt, R740; log entry 97). -/
def failPowerUp (d : Nat) (s : State) : State :=
  let s := failReads d (failStalled d (recordFail d s))
  let v := s.dom d
  let n := v.attempt + 1
  if d = 2 ∧ s.power.mode ≠ .bringup then systemResetNow 0x05 n (cutOff d .off s)
  else if n ≤ 3 then
    let s := cutOff d .retry s
    let s := s.setDom d { s.dom d with attempt := n }
    settleDegraded (if d = 7 ∨ d = 8 then s else fencedEffect d s)
  else
    let s := (cutOff d .fenced s).bump 0xB880 0x0B
    let s := s.setDom d { s.dom d with attempt := n }
    if s.power.mode = .bringup ∧ (d = 1 ∨ d = 2 ∨ d = 4) then
      { s with rst := { s.rst with phase := .halt, hcause := if d = 4 then 2 else if d = 2 then 3 else 4 } }
    else settleDegraded (fencedEffect d s)

/-- A domain reports ready and lock (R708, R709, R714): `late` marks a report after its bound of R709 but within its timeout.
At PD29's first READY after power-on DT starts at 0 (R752). While the TRNG is FAILED a quad or PK domain fails at W3
(R761). -/
def domainReadyNow (d : Nat) (late : Bool) (s : State) : State :=
  let v := s.dom d
  if v.st ≠ .up then s
  else if hasTimer d ∧ s.rst.trngFailed then failPowerUp d s
  else
    let s := if late then s.bump 0xB880 0x0D else s
    let s := if v.attempt ≠ 0 then s.bump 0xB880 0x0A else s
    let s := if d = 29 ∧ s.rst.level = 1 ∧ s.power.mode = .bringup then
        { s with dt := 0, power := { s.power with doms := s.power.doms.map (fun e => (e.1, { e.2 with since := 0, onAt := 0 })) } } else s
    let s := endWake d false s
    let s := s.setDom d { s.dom d with st := .ready, since := s.dt, attempt := 0, wantUp := none }
    -- R752: at PD05's READY in BRINGUP the hardware extends MR0 by the option digest (R623, R749)
    let s := if d = 5 ∧ s.power.mode = .bringup then mrBoot s.rst.optDigest s else s
    readyEffect d s

/-- READY_TIMEOUT (R714): 1,600 ACLK from the switch closing, and 3,200 more for a PLL. -/
def execReadyTimeout (d : Nat) (s : State) : Res :=
  let v := s.dom d
  if v.st ≠ .up then ok s
  else ok (failPowerUp d (s.at (v.since + aclk (if hasPll d then 4800 else 1600))))

/-- RETRY_BACKOFF (R714): 1,600, 3,200 and 6,400 ACLK; the controller tries again with source 0x0B. -/
def execRetryBackoff (d : Nat) (s : State) : Res :=
  let v := s.dom d
  if v.st ≠ .retry then ok s
  else
    let s := s.at (v.since + aclk (if v.attempt ≤ 1 then 1600 else if v.attempt = 2 then 3200 else 6400))
    ok (recordWake 0x0B v.attempt d 0 0 (switchOn d 0x0B v.attempt false s.dt s))

/-- DEEP_TIMER (R721): DOZE has lasted 8000:04 ms; D1 checks the refusers, and a refusal restarts the count. -/
def execDeepTimer (s : State) : Res :=
  let t := s.cfg 0x8000 4
  if s.power.mode ≠ .doze ∨ t = 0 ∨ s.power.deepFrom.isSome then ok s
  else
    let s := s.at (s.power.dozeSince + ms t)
    match deepRefuser s with
    | some r =>
      let s := recordRefusal 0x41 r 0 0 s
      ok { s with power := { s.power with dozeSince := s.dt } }
    | none => ok { s with power := { s.power with deepFrom := some s.dt } }

/-- A wake source is enabled for a device wake from DEEP (R713, R716, R722). -/
def deepSource (s : State) (src idx : Nat) : Bool :=
  ((decide (src = 0x03) || decide (src = 0x04)) && bit (s.cfg 0x8000 6) idx) ||
  (decide (src = 0x05) && bit (s.cfg 0x8000 7) idx) ||
  (decide (src = 0x06) && decide (idx < 2) && decide (s.cfg (0x2041 + idx) 3 = 1)) ||
  (decide (src = 0x07) && decide (idx < 6) && bit (s.cfg 0x8000 5) idx) ||
  (decide (src = 0x08) && bit (s.cfg 0x8000 5) 6) ||
  decide (src = 0x01 ∨ src = 0x0C)

/-- One domain of the wake from DEEP: READY, or failed where it reported ready too late (R714, R735, R761). -/
def deepUp (failed src idx : Nat) (s : State) (d : Nat) : State :=
  if (s.dom d).st = .fenced then s
  else
    let v := s.dom d
    if bit failed d ∨ (hasTimer d ∧ s.rst.trngFailed) then failPowerUp d (s.setDom d { v with st := .up, cause := (src, idx) })
    else s.setDom d { v with st := .ready, since := s.dt, onAt := s.dt, attempt := 0, cause := (src, idx) }

/-- The wake from DEEP (R723, R735): recorded at the wake event with domain 0xFF; within 6,080 ACLK of it the domains return and the
mode before DOZE is current again. `failed` are the domains that do not report ready in time. An entry past its point of no return completes
first (`late`). -/
def deepWakeNow (src idx failed : Nat) (late : Option Nat) (s : State) : State :=
  let ev := s.dt
  let s := (recordWake src idx 0xFF (b2n late.isSome) (aclk 6080) s).bump 0xB880 5
  let s := { s with power := { s.power with doms := s.power.doms.map (fun (e : Nat × Dom) => (e.1, { e.2 with wokenAt := ev })) } }
  let s := match late with | some t => deepSteps (s.at (t + aclk 144)) | none => s
  let s := s.at (ev + aclk 6080)
  if (s.dom 2).st ≠ .fenced ∧ bit failed 2 then deepUp failed src idx s 2
  else
    let s := [2, 5, 29, 31, 32, 7, 8, 30].foldl (deepUp failed src idx) s
    let s := (([9, 10] : List Nat) ++ quadDoms).foldl (fun s d =>
      let s := deepUp failed src idx s d
      if (s.dom d).st ≠ .ready then s else if isQuadDom d then quadReadyEffect (d - 11) s else pkReadyEffect (d - 9) s) s
    let s := (List.range 64).foldl (fun s l => s.setLane l (s.lane l).reload) s                 -- R267
    let s := rearmAll (settleDegraded (s.setMode s.power.preDoze))
    let sc := s.rst.deepCore
    if sc = 0 then s else coreReset sc 0x0A { s with rst := { s.rst with deepCore := 0 } }

/-- A device wake by a source, in DEEP or during its entry (R721, R723). -/
def deepWake (src idx failed : Nat) (s : State) : State :=
  if s.power.mode = .deep then (if deepSource s src idx then deepWakeNow src idx failed none s else s)
  else
    match s.power.deepFrom with
    | none => s
    | some t =>
      if ¬ deepSource s src idx then s
      else if s.dt - t < aclk 80 then deepAbort s
      else deepWakeNow src idx failed (some t) s

/-- DEEP_WAKE (R714, R723, R735): `failed` are the domains that time out. -/
def execDeepWake (src : Nat) (r : DeepRise) (s : State) : Res := ok (deepWake src r.idx r.failed.toNat s)

/-- MS_ADDRESS_MATCH (R716): in DEEP a device wake, unless the Anise core serves the read; with the wake bit clear the
request receives MODE. -/
def execMsAddressMatch (port : Fin 2) (served : Bool) (s : State) : Res :=
  if s.power.mode ≠ .deep ∧ s.power.deepFrom.isNone then ok s
  else if served then ok s
  else if s.cfg (0x2041 + port.val) 3 = 1 then ok (deepWake 0x06 port.val 0 s)
  else ok (sendReply ⟨if port.val = 0 then .ms0 else .ms1, 0, 0, opREAD, rMODE, 0, 0, 0, 0, 0, [], []⟩ s)

/-- GP_EDGE (R814): a change of the taken level sets the pin's edge latch, and may wake from DEEP under 8000:05. A pin that the device
drives low stays low. -/
def execGpEdge (pin : Fin 6) (level : Bool) (s : State) : Res :=
  if s.power.mode = .guard ∨ bit s.power.gpIn pin.val = level then ok s
  else if bit s.power.gpOe pin.val ∧ ¬ bit s.power.gpOut pin.val ∧ level then ok s
  else
    let s := { s with power := { s.power with gpIn := setBit s.power.gpIn pin.val level, gpEdge := s.power.gpEdge ||| 2 ^ pin.val } }
    let s := s.noteSet (regKey 2 (pwrOff + 0x40)) (2 ^ pin.val)
    ok (deepWake 0x07 pin.val 0 s)

/-- RTC_WAKE (R713): the RTC reaches 8000:08. -/
def execRtcWake (s : State) : Res :=
  let t := s.cfg 0x8000 8
  if t = 0 then ok s
  else
    let s := if rtcSec s < t then setRtc (t * 32768) s else s
    ok (deepWake 0x08 0 0 s)

/-- Modes available in a life-cycle state (R46). -/
def modeAllowed (l : Lcs) (m : Mode) : Bool :=
  match l, m with
  | .retired, .bringup => true
  | .retired, .inert => true
  | .retired, _ => false
  | _, .inert => false
  | .vendor, .service => false
  | .vendor, .degraded => false
  | .vendor, .drain => false
  | .vendor, .ceremony => true
  | .owned, .ceremony => true
  | _, .ceremony => false
  | _, _ => true

/-- The mode a request acts on: in DOZE the mode before it (R726). -/
def requestMode (s : State) : Mode := if s.power.mode = .doze then s.power.preDoze else s.power.mode

/-- The mode a listed value of 1100:05 asks for; 0x0F the return mode (R725). -/
def requestTarget (s : State) (v : Nat) : Option Mode :=
  match v with
  | 0x04 => some .service
  | 0x02 => some .bypass
  | 0x03 => some .ceremony
  | 0x09 => some .update
  | 0x0F => some (Mode.ofCode s.power.retMode)
  | _ => none

/-- The roles entitled to a value in the present life-cycle state (R725). -/
def requestRight (s : State) (role v : Nat) : Bool :=
  let own : Bool := hasRight s role 8
  let v5 : Bool := decide (s.power.lcs = .vendor ∧ role = 5)
  match v with
  | 0x04 => if s.power.lcs = .blank ∨ s.power.lcs = .fa then own else hasRight s role 4
  | 0x02 => if s.power.lcs = .blank ∨ s.power.lcs = .fa then own else hasRight s role 4
  | 0x03 => own || hasRight s role 16
  | 0x09 => own || v5
  | 0x0F => if requestMode s = .update then own || v5 else own || hasRight s role 16
  | _ => true

/-- The present mode is one from which a value is allowed (R725). -/
def requestFrom (s : State) (v : Nat) : Bool :=
  let m := requestMode s
  match v with
  | 0x04 => decide (m = .bypass)
  | 0x02 => decide (m = .service ∨ m = .degraded)
  | 0x03 => decide (s.power.lcs = .owned) && decide (m = .service ∨ m = .degraded ∨ m = .bypass ∨ m = .update)
  | 0x09 => decide (m = .bypass ∨ m = .service ∨ m = .degraded)
  | 0x0F => decide (m = .ceremony ∨ m = .update)
  | _ => false

/-- Start the change that a value of 1100:05 asks for (R725, R726). -/
def startMode (v : Bytes) (s : State) (role : Nat) : Ans :=
  startOp 0x1100 5 role .none v (fun k s =>
    if v = [0x03] then startEntryCeremony k role s
    else if v = [0x0F] ∧ requestMode s = .ceremony then cerLeave (some k) s
    else
      match requestTarget s (beNat v) with
      | some m => startFlip m.code (some k) s
      | none => s) s

/-- Serve a write of 1100:05 (R72, R725, R726): LIFE_CYCLE, DENIED, MODE, TYPE, RANGE and IN_PROGRESS in the order of R104; OK without
effect for the present mode; otherwise a long operation that starts the change. -/
def serveMode (r : Req) (s : State) : State :=
  serve r opWRITE (fun _ => false) (fun s role =>
    let v := if r.data.length = 1 then beNat r.data else 0
    match requestTarget s v with
    | none =>
      if isMs r.tr ∨ ¬ hasRight s role 60 then ansErr s rDENIED
      else if r.data.length ≠ 1 then ansErr s rTYPE else ansErr s rRANGE
    | some m =>
      let same : Bool := decide (v ≠ 0x0F ∧ requestMode s = m)
      if ¬ modeAllowed s.power.lcs m then ansErr s rLIFE_CYCLE
      else if isMs r.tr ∨ ¬ requestRight s role v then ansErr s rDENIED
      else if ¬ same ∧ ¬ requestFrom s v then ansErr s rMODE
      else if r.offset ≠ 0 then ansErr s rRANGE
      else if same then ansOK s
      else if changePending s then ansErr s rIN_PROGRESS
      else startMode r.data s role) s

/-- MODE_REQUEST_SERVICE (R725): value 0x04. -/
def execModeRequestService (r : Req) (s : State) : Res := ok (serveMode (reqWith r [0x04]) s)
/-- MODE_REQUEST_BYPASS (R725): value 0x02. -/
def execModeRequestBypass (r : Req) (s : State) : Res := ok (serveMode (reqWith r [0x02]) s)
/-- MODE_REQUEST_CEREMONY (R583): value 0x03. -/
def execModeRequestCeremony (r : Req) (s : State) : Res := ok (serveMode (reqWith r [0x03]) s)
/-- MODE_REQUEST_UPDATE (R725): value 0x09. -/
def execModeRequestUpdate (r : Req) (s : State) : Res := ok (serveMode (reqWith r [0x09]) s)
/-- MODE_REQUEST_RETURN (R727): value 0x0F. -/
def execModeRequestReturn (r : Req) (s : State) : Res := ok (serveMode (reqWith r [0x0F]) s)

/-- PWR_HOLD_QUADS (R719, R738): setting it wakes PD11-PD26; while set their power-down is refused. -/
def execPwrHoldQuads (v : Bool) (s : State) : Res :=
  let s := { s with power := { s.power with holdQuads := v } }
  ok (if v then wakeAll quadDoms 0x0C 0 s else s)

/-- PWR_HOLD_PK (R719). -/
def execPwrHoldPk (v : Bool) (s : State) : Res :=
  let s := { s with power := { s.power with holdPk := v } }
  ok (if v then wakeAll [9, 10] 0x0C 1 s else s)

/-- PWR_HOLD_DEEP (R719): refuses DEEP entry. -/
def execPwrHoldDeep (v : Bool) (s : State) : Res := ok { s with power := { s.power with holdDeep := v } }

/-- POWER_GOOD_FALL (R804, R841): PG_MAIN or PG_IO falls; every domain other than PD00 goes off and the mode is GUARD. -/
def execPowerGoodFall (main : Bool) (s : State) : Res :=
  let s := { s with pins := if main then { s.pins with pgMain := false } else { s.pins with pgIo := false } }
  ok (if s.power.mode = .guard then s else enterGuard s)

/-- The mode condition of 1100:07 (R730): OWNER only in CEREMONY. -/
def retireMode (s : State) (role : Nat) : Bool := decide (role ≠ 4) || decide (s.power.mode = .ceremony)
/-- OWNER retires in OWNED, VENDOR in BLANK, VENDOR and FA. -/
def retireLcs (s : State) (role : Nat) : Bool := decide (role = 4) == decide (s.power.lcs = .owned)

/-- The effect of 1100:07 (R48, R730): zeroise erase, RETIRED burned, system reset, then INERT. -/
def fxRetire (s : State) (role : Nat) (v : Bytes) : Ans :=
  startOp 0x1100 7 role .retire v (fun _ s => systemResetNow 0x08 0 (burnLcs .retired (finishSweeps (zeroiseErase (credOfSession s) s)))) s

/-- RETIRE (R730). -/
def execRetire (r : Req) (s : State) : Res := ok (serveWrite (reqWith r [0x01]) 0x1100 7 retireLcs retireMode anyValue fxRetire s)

/-- The effect of 1100:08 (R730): one TAP unlock is armed for 60 s of DT. -/
def fxDebugArm (s : State) (_role : Nat) (_v : Bytes) : Ans :=
  ansOK { s with tap := { s.tap with armedUntil := some (s.dt + sec 60), nonceDrawn := false } }

/-- DEBUG_UNLOCK_ARM (R730). -/
def execDebugUnlockArm (r : Req) (s : State) : Res :=
  ok (serveWrite (reqWith r [0x01]) 0x1100 8 always always anyValue fxDebugArm s)

/-- DEBUG_ARM_EXPIRY (R730). -/
def execDebugArmExpiry (s : State) : Res :=
  match s.tap.armedUntil with
  | none => ok s
  | some t =>
    let s := s.at t
    ok { s with tap := { s.tap with armedUntil := none, nonceDrawn := false } }

end Sys2Proof.Machine
end

