-- ==== Sys2Proof/Machine/PortRx.lean ====
section
/-!
DEFINITION. The meanings of the receive path of the transaction ports (R120-R135, R159-R161), wake frames and links.
-/
namespace Sys2Proof.Machine

/-- The wire length of a frame, FCS included. -/
def frameLen (f : Frame) : Nat := 14 + (if f.tci.isSome then 4 else 0) + f.payload.length + 4

/-- A frame's bytes without its FCS. -/
def frameHead (f : Frame) : Bytes :=
  beBytes f.dst.toNat 6 ++ beBytes f.src.toNat 6 ++ (match f.tci with | some t => [0x81, 0x00] ++ beBytes t.toNat 2 | none => []) ++
  beBytes f.etype.toNat 2 ++ f.payload

/-- A frame's bytes as they arrived, a wrong FCS kept (R52, R161). -/
def frameRaw (f : Frame) : Bytes :=
  frameHead f ++ (match f.badFcs with | some w => beBytes w.toNat 4 | none => fcsBytes (frameHead f))

/-- The VLAN rule of R121. -/
def vlanOk (s : State) (p : Nat) (f : Frame) : Bool :=
  match f.tci with
  | none => decide (pcfg s p 9 = 0)
  | some t => decide (pcfg s p 9 ≠ 0 ∧ t.toNat % 4096 = pcfg s p 9)

/-- A wake frame for this port (R132): its scope. A frame with a bad FCS is no wake frame (DESIGN CHOICE, log entry 78). -/
def wakeScope (s : State) (p : Nat) (f : Frame) : Option Nat :=
  let pl := f.payload
  let sc := (byteAt pl 3).toNat
  if f.badFcs.isNone ∧ f.etype.toNat = pcfg s p 8 ∧ (f.dst.toNat = beNat (pbytes s p 4) ∨ f.dst = BitVec.allOnes 48) ∧
     beNat (pl.take 2) = 0x5357 ∧ 16 ≤ pl.length ∧ byteAt pl 2 = 1 ∧ (sc = 1 ∨ sc = 2) ∧ (slice pl 4 12).all (fun b => decide (b = 0))
  then some sc else none

/-- The byte time of a port in 25ths of a nanosecond: 0.32 ns or 0.8 ns (R187). -/
def byteTicks (s : State) (p : Nat) : Nat := if pcfg s p 2 = 1 then 20 else 8

/-- The bypass match list of a port in force at a DT (R145): EtherTypes and OTHER. It outlives the classifier banks that a reset or an erase clears (R162). -/
def matchList (s : State) (p : Nat) : List Nat × Bool :=
  let img := match clsImage s (epochAt s s.dt) p with
    | some i => i
    | none => Tab.look [] s.port.keepMatch p
  ((List.range (byteAt img 10).toNat).map (fun k => beNat (slice img (16 + 2 * k) 2)), bit (byteAt img 11).toNat 0)

/-- A frame takes the bypass path (R51, R65, R145, R162). -/
def bypassed (s : State) (p : Nat) (f : Frame) : Bool :=
  let et := f.etype.toNat
  (wakeScope s p f).isNone &&
  (bypassAll s || ((classifies s || decide (s.power.mode = .bringup)) &&
    (let l := matchList s p
     l.1.contains et || (l.2 && ! [0x0800, 0x0806, 0x86DD, 0x8808].contains et && decide (et ≠ pcfg s p 8)))))

/-- The frame in progress has ended: it is on the wire, and its identifier leaves the list (R155). -/
def txFinish (p : Nat) (s : State) : State :=
  let r := s.src p
  match r.cur with
  | none => s
  | some f =>
    let s := (s.emit (.frame p f.bytes)).pstat p 2
    let r := { r with cur := none, outst := (match f.id with | some i => dropOutst i f.swept r.outst | none => r.outst) }
    let s := s.setSrc p r
    if r.deferReset ∧ sweepDone r then portOwnReset p s else s

/-- A frame enters the transmit MAC at DT `t` (R157, R158). -/
def txStart (p : Nat) (f : TxFrame) (t : Nat) (s : State) : State :=
  let r := s.src p
  s.setSrc p { r with cur := some f, txEnd := ticksDt (dtTicks t + (f.bytes.length + 20) * byteTicks s p) }

/-- The delay of the bypass path in ns (R159): 56 XCLK. -/
abbrev bypassNs : Nat := 36

/-- The bypass path (R51, R52, R159, R160, R177): forwarded cut-through after its fixed delay, held in the partner's buffer, or dropped and counted
on the port that received it. -/
def bypassOp (p : Nat) (f : Frame) (s : State) : State :=
  let q := if p % 2 = 0 then p + 1 else p - 1
  if ¬ portUp s q then s.pstat p 7
  else if pcfg s q 2 ≠ pcfg s p 2 then s.pstat p 8
  else
    let r := s.src q
    let t : TxFrame := { kind := 0, bytes := frameRaw f }
    let busy := (r.cur.isSome && decide (r.txEnd > s.dt + bypassNs)) || ! r.byp.isEmpty
    if busy then
      if 16384 - r.byp.foldl (fun n x => n + x.bytes.length) 0 < 9216 then s.pstat p 9
      else (s.setSrc q { r with byp := r.byp ++ [t] }).pstat p 6
    else (txStart q t (s.dt + bypassNs) (txFinish q s)).pstat p 6

/-- BYPASS_FORWARD (R159): a frame that the bypass path has taken. -/
def execBypassForward (p : Fin 32) (f : Frame) (s : State) : Res :=
  if portUp s p.val ∧ bypassed s p.val f then ok (bypassOp p.val f (s.pstat p.val 1)) else ok s

/-- The effect of a wake frame (R132, R717). -/
def wakeFrameOp (p scope : Nat) (s : State) : State :=
  let group := laneGroup s (curCfg s) p
  let quads := (List.range 16).filter (fun q => group / 2 ^ (4 * q) % 16 ≠ 0)
  let s := (s.pstat p 0x1B)
  let inDeep := decide (s.power.mode = .deep) || s.power.deepFrom.isSome
  if scope = 1 then (if inDeep then deepWake 0x03 p 0 s else s)
  else
    let s := if inDeep then deepWake 0x04 p 0 s else s
    if s.power.mode = .deep then s else wakeAll (quads.map (· + 11)) 0x04 p s

/-- A port hears frames: up, or in DEEP with its receive path kept (R132, R722). -/
def portHears (s : State) (p : Nat) : Bool :=
  portUp s p ||
  ((decide (s.power.mode = .deep) || deepOff s 29) && (s.src p).link && decide (pcfg s p 1 = 1) && (bit (s.cfg 0x8000 6) p || bit (s.cfg 0x8000 7) p))

/-- WAKE_FRAME (R132, R717). A frame that is no wake frame of the port has no effect here. -/
def execWakeFrame (p : Fin 32) (f : Frame) (s : State) : Res :=
  match wakeScope s p.val f with
  | some sc => if portHears s p.val ∧ vlanOk s p.val f then ok (wakeFrameOp p.val sc s) else ok s
  | none => ok s

/-- The link destination of a reply to a frame (20pp:0A, R169). -/
def replyMac (s : State) (p : Nat) (f : Frame) : Bytes := if (pbytes s p 0x0A).length = 6 then pbytes s p 0x0A else beBytes f.src.toNat 6

/-- An ARP request for the port's address is answered (R123). -/
def arpReply (s : State) (p : Nat) (f : Frame) : Option Bytes :=
  let a := f.payload
  if 28 ≤ a.length ∧ beNat (slice a 6 2) = 1 ∧ beNat (slice a 24 4) = pcfg s p 0x0B ∧ pcfg s p 0x0B ≠ 0 then
    some (ethFrame (replyMac s p f) (pbytes s p 4) (f.tci.map BitVec.toNat) 0x0806
      (slice a 0 6 ++ [0, 2] ++ pbytes s p 4 ++ slice a 24 4 ++ slice a 8 10))
  else none

/-- The port sees the link address of the peer or next hop in a frame (R124, log entry 86). -/
def learnFrame (p : Nat) (f : Frame) (s : State) : State := learnNbr p (beBytes f.src.toNat 6) (f.tci.map BitVec.toNat) s

/-- An ARP packet (R123): it may show the next hop's link address, and a request is answered. -/
def arpReceive (p : Nat) (f : Frame) (s : State) : State :=
  let s := if peerV4 s p ∧ 28 ≤ f.payload.length ∧ slice f.payload 14 4 = (hopAddr s p).drop 12 then learnFrame p f s else s
  match arpReply s p f with
  | some o => netFrame p o s
  | none => s

/-- An IPv4 echo reply (R123): addresses exchanged, type 0, DF set. -/
def echo4 (s : State) (p : Nat) (f : Frame) (hdr icmp : Bytes) : Bytes :=
  let body := [0, 0, 0, 0] ++ icmp.drop 4
  let body := [0, 0] ++ inetCheck body ++ icmp.drop 4
  let h := [0x45, 0] ++ beBytes (20 + body.length) 2 ++ [0, 0, 0x40, 0, 64, 1, 0, 0] ++ slice hdr 16 4 ++ slice hdr 12 4
  let h := h.take 10 ++ inetCheck h ++ h.drop 12
  ethFrame (replyMac s p f) (pbytes s p 4) (f.tci.map BitVec.toNat) 0x0800 (h ++ body)

/-- An IPv6 reply of ICMPv6 type `ty` with a body after its checksum (R123). -/
def icmp6 (s : State) (p : Nat) (f : Frame) (dst : Bytes) (ty hop : Nat) (rest : Bytes) : Bytes :=
  let own := pbytes s p 0x0D
  let b := [byte ty, 0, 0, 0] ++ rest
  let b := [byte ty, 0] ++ inetCheck (pseudo6 own dst b.length 58 ++ b) ++ rest
  ethFrame (replyMac s p f) (pbytes s p 4) (f.tci.map BitVec.toNat) 0x86DD
    ([0x60, 0, 0, 0] ++ beBytes b.length 2 ++ [58, byte hop] ++ own ++ dst ++ b)

/-- An ICMP error quotes a packet of the port's connection (R126). -/
def icmpQuotes (s : State) (p next : Nat) (dst ports : Bytes) : Bool :=
  let t := (s.src p).tcp
  let peer := pbytes s p 0x0F
  decide (t.st ≥ 2 ∧ next = 6 ∧ dst = peer.drop (16 - dst.length) ∧ beNat (ports.take 2) = pcfg s p 0x11 ∧ beNat (slice ports 2 2) = t.peerPort)

/-- ICMP from the peer (R123, R126): an echo request is answered; an error for the connection is counted, under a count that has no subindex (log
entry 87), and is a soft error. -/
def icmpReceive4 (p : Nat) (f : Frame) (hdr pl : Bytes) (s : State) : State :=
  let ty := (byteAt pl 0).toNat
  let q := pl.drop 8
  if inetSum pl ≠ 0xFFFF then s
  else if ty = 8 then netFrame p (echo4 s p f hdr pl) s
  else if [3, 4, 5, 11, 12].contains ty ∧
      icmpQuotes s p (byteAt q 9).toNat (slice q 16 4) (q.drop ((byteAt q 0).toNat % 16 * 4)) then s.pstat p 0x1D
  else s

/-- An IPv4 packet at a TCP-framing port (R123, R124). -/
def ip4Receive (p : Nat) (f : Frame) (s : State) : State :=
  let b := f.payload
  let ihl := (byteAt b 0).toNat % 16 * 4
  let tot := beNat (slice b 2 2)
  let src := 0xFFFF * 2 ^ 32 + beNat (slice b 12 4)
  let pl := slice b ihl (tot - ihl)
  if (byteAt b 0).toNat / 16 ≠ 4 ∨ ihl < 20 ∨ b.length < tot ∨ tot < ihl ∨ inetSum (b.take ihl) ≠ 0xFFFF then s
  else if beNat (slice b 6 2) % 0x4000 ≠ 0 then s.pstat p 0x14
  else if src ≠ beNat (pbytes s p 0x0F) ∨ (pbytes s p 0x0F).isEmpty then s.pstat p 0x13
  else if pcfg s p 0x0B = 0 ∨ beNat (slice b 16 4) ≠ pcfg s p 0x0B then s
  else
    let s := learnFrame p f s
    if byteAt b 9 = 1 then icmpReceive4 p f (b.take ihl) pl s
    else if byteAt b 9 = 6 ∧ inetSum (slice b 12 8 ++ [0, 6] ++ beBytes pl.length 2 ++ pl) = 0xFFFF then
      match parseTcp src f.src f.tci pl with
      | some g => tcpSegment p g s
      | none => s
    else s

/-- ICMPv6 of the peer: a solicitation or an echo request is answered, an error for the connection counted (R123, R126). -/
def icmpReceive6 (p : Nat) (f : Frame) (src pl : Bytes) (s : State) : State :=
  let ty := (byteAt pl 0).toNat
  let own := pbytes s p 0x0D
  let q := pl.drop 8
  if ty = 135 ∧ slice pl 8 16 = own then netFrame p (icmp6 s p f src 136 255 ([0x60, 0, 0, 0] ++ own ++ [2, 1] ++ pbytes s p 4)) s
  else if ty = 128 then netFrame p (icmp6 s p f src 129 64 (pl.drop 4)) s
  else if ty < 128 ∧ icmpQuotes s p (byteAt q 6).toNat (slice q 24 16) (q.drop 40) then s.pstat p 0x1D
  else s

/-- The Next Header values of extension headers (IANA; the set of RFC 7045). -/
def extHeader (n : Nat) : Bool := [0, 43, 44, 50, 51, 60, 135, 139, 140, 253, 254].contains n

/-- An IPv6 packet at a TCP-framing port (R123, R124). The answer to the port's own neighbour solicitation comes from the next hop, which need not be
the peer (log entry 86). -/
def ip6Receive (p : Nat) (f : Frame) (s : State) : State :=
  let b := f.payload
  let len := beNat (slice b 4 2)
  let next := (byteAt b 6).toNat
  let src := slice b 8 16
  let dst := slice b 24 16
  let own := pbytes s p 0x0D
  let pl := slice b 40 len
  let sum : Bool := decide (inetSum (pseudo6 src dst len next ++ pl) = 0xFFFF)
  let isNs := decide (next = 58 ∧ byteAt pl 0 = 135 ∧ slice pl 8 16 = own)
  if (byteAt b 0).toNat / 16 ≠ 6 ∨ b.length < 40 + len ∨ b.length < 40 then s
  else if extHeader next then s.pstat p 0x14
  else if next = 58 ∧ byteAt pl 0 = 136 ∧ slice pl 8 16 = hopAddr s p ∧ dst = own ∧ own.length = 16 ∧ sum then learnFrame p f s
  else if src ≠ pbytes s p 0x0F then s.pstat p 0x13
  else if own.length ≠ 16 ∨ (dst ≠ own ∧ ¬ isNs) ∨ ¬ sum then s
  else
    let s := learnFrame p f s
    if next = 58 then icmpReceive6 p f src pl s
    else if next = 6 then
      match parseTcp (beNat src) f.src f.tci pl with
      | some g => tcpSegment p g s
      | none => s
    else s

/-- A direct request (R130, R131, R133, R162). -/
def directReceive (p : Nat) (f : Frame) (s : State) : State :=
  let pl := f.payload
  let magic := beNat (pl.take 2)
  if magic ≠ 0x5351 then (if magic = 0x5357 ∧ ¬ classifies s then s else s.pstat p 0x13)
  else
    let len := beNat (slice pl 12 2)
    let bad := decide (byteAt pl 2 ≠ 1 ∨ byteAt pl 3 ≠ 0 ∨ len = 0 ∨ len > 8192 ∨ 16 + len > pl.length)
    let blk := (s.src p).block
    let blk := if blk ≠ 0 then blk else if s.power.mode = .alarm then tERASED else 0
    let pre := if blk ≠ 0 then some blk else if bad then some tFORMAT else none
    if blk = 0 ∧ ¬ classifies s then s
    else
      releaseMsg p { src := p, body := slice pl 16 len, tstamp := s.dt, rel := dtTicks s.dt, hdrId := some (beNat (slice pl 4 8)),
                     dl := beNat (slice pl 14 2), eth := beBytes f.src.toNat 6, tci := f.tci.map BitVec.toNat,
                     conn := (s.src p).conn } pre s

/-- FRAME_RECEIVE (R121-R124, R130-R134, R145, R722): the whole path of a received frame. Where the text is silent the MAC accepts frames addressed to
other stations (log entry 75), drops a frame below 64 bytes without a count (log entry 76), and looks at the VLAN ID before the EtherType 0x8808 (log entry
77): DESIGN CHOICE. -/
def execFrameReceive (p : Fin 32) (f : Frame) (s : State) : Res :=
  let p := p.val
  if ¬ portHears s p then ok s
  else if s.power.mode = .deep ∨ ¬ portUp s p then
    match wakeScope s p f with
    | some sc => if vlanOk s p f then ok (wakeFrameOp p sc s) else ok s
    | none => ok s
  else
    let s := s.pstat p 1
    if bypassed s p f then ok (bypassOp p f s)
    else if f.badFcs.isSome then ok (s.pstat p 3)
    else if frameLen f > 9216 then ok (s.pstat p 4)
    else if frameLen f < 64 then ok s
    else if ¬ vlanOk s p f then ok (s.pstat p 0x13)
    else if f.etype.toNat = 0x8808 then ok (s.pstat p 5)
    else
      match wakeScope s p f with
      | some sc => ok (wakeFrameOp p sc s)
      | none =>
        if f.etype.toNat = pcfg s p 8 ∧ pcfg s p 5 = 0 then ok (directReceive p f s)
        else if pcfg s p 5 = 0 then ok (s.pstat p 0x13)
        else if f.etype.toNat = 0x0806 then ok (arpReceive p f s)
        else if f.etype.toNat = 0x0800 then ok (ip4Receive p f s)
        else if f.etype.toNat = 0x86DD then ok (ip6Receive p f s)
        else ok (s.pstat p 0x13)

/-- PORT_LINK_UP (R120, R168, R713, R722): the link is up; the TCP engine opens; in DEEP it may wake the device. -/
def execPortLinkUp (p : Fin 32) (s : State) : Res :=
  let p := p.val
  if (s.src p).link then ok s
  else
    let r := s.src p
    let s := raiseMsix 6 (s.setSrc p { r with link := true, conn := r.conn + 1 })
    if s.power.mode = .deep ∨ s.power.deepFrom.isSome then ok (deepWake 0x05 p 0 s) else ok (tcpOpen p s)

/-- A response that waits, or is in progress, is discarded and counted with its port (R174); a sweep's answer that is not built yet still has its audit
record (R156). -/
def discardTx (p : Nat) (s : State) (f : TxFrame) : State :=
  if f.kind = 0 ∨ f.kind = 3 then s
  else
    let r := s.src p
    let hit (o : Outst) (i : Nat) : Bool := decide (o.id = i ∧ o.swept = f.swept)
    let adm := match f.id with | some i => (r.outst.find? (fun o => hit o i)).any (fun o => o.adm) | none => false
    let s := s.setSrc p { r with outst := (match f.id with | some i => dropOutst i f.swept r.outst | none => r.outst) }
    let s := match f.sweep with
      | some o => (audSelf o.msg.die r.sweepSt p o.cls o.id o.msg.tstamp 0 o.msg.epoch s).pstat p 0x0F
      | none => s
    (sentOne p adm s).pstat p 0x11

/-- What a lost link, a disabled port takes with it (R174): responses waiting or in progress are discarded and counted. -/
def portLost (p : Nat) (s : State) : State :=
  let r := s.src p
  let s := ((match r.cur with | some f => [f] | none => []) ++ r.selfQ ++ r.laneQ).foldl (discardTx p) s
  let s := tcpForget p s
  let r := s.src p
  (s.setSrc p { r with cur := none, selfQ := [], laneQ := [], byp := [], nbr := [], nbrTci := none, await := [] }).setTcp p { conn := r.conn }

/-- PORT_LINK_DOWN (R174). -/
def execPortLinkDown (p : Fin 32) (s : State) : Res :=
  let p := p.val
  if ¬ (s.src p).link then ok s
  else
    let s := portLost p s
    ok (raiseMsix 6 (s.setSrc p { s.src p with link := false }))

end Sys2Proof.Machine
end

