-- ==== Sys2Proof/Machine/Options.lean ====
section
/-!
DEFINITION. The option loader and the release of the domains (R745-R752), the option page (R789) and its entries.
-/
namespace Sys2Proof.Machine

/-- The safe value of a fuse word read marginally (R788). -/
def fuseSafe (w : Nat) : Nat :=
  if w = 3 then 1 else if w = 4 then 0x80 else if w = 5 then 0x8080 else 0

/-- One copy of the option page: its 64 words (R775, R789). -/
def optPageWords (s : State) (c : Nat) : List Nat := (chunks 4 (pageRead s c 0 256)).map beNat

/-- Word 62 of an option page: CRC-32 over words 0-61 and 63 with COMMIT taken as 0 (R789). -/
def optCrc (ws : List Nat) : Nat :=
  let w63 := setBit (ws.getD 63 0) 15 false
  crc32 ((ws.take 62 ++ [w63]).flatMap (fun w => beBytes w 4))

/-- A copy of the option page is intact: its page is, and its CRC passes (R781, class 5). -/
def optIntact (s : State) (c : Nat) : Bool :=
  let ws := optPageWords s c
  pageIntact s c && decide (ws.getD 62 0 = optCrc ws)

/-- GEN and COMMIT of an option page copy. -/
def optGen (s : State) (c : Nat) : Nat := (optPageWords s c).getD 63 0 / 2 ^ 16
def optCommit (s : State) (c : Nat) : Bool := bit ((optPageWords s c).getD 63 0) 15

/-- The copy of the option page the per-datum rule chooses (R781): the newer GEN if its COMMIT is set, else the other. -/
def optWinner (s : State) : Option Nat :=
  match optIntact s 0, optIntact s 1 with
  | true, true =>
    if optGen s 0 = optGen s 1 then some 0
    else
      let hi := if serialNewer 16 (optGen s 0) (optGen s 1) then 0 else 1
      if optCommit s hi then some hi else some (1 - hi)
  | true, false => some 0
  | false, true => some 1
  | false, false => none

/-- The value of option page word `i` for the given entry values (R789). -/
def optWordOf (get : Nat → Nat → Nat) (i : Nat) : Nat :=
  let msw (k : Nat) := get k 1 * 128 + get k 2 % 128 + get k 3 * 256
  if i = 0 then msw 0x2041
  else if i = 1 then msw 0x2042
  else if 2 ≤ i ∧ i ≤ 7 then get (0x7060 + i - 2) 1
  else if i = 8 then (List.range 6).foldl (fun a n => a + get (0x7060 + n) 2 * 2 ^ n) 0
  else if i = 9 then get 0x7000 5
  else if i = 10 then get 0x8800 8
  else if i = 11 then get 0x1100 6
  else 0

/-- The entries the option page holds (R789). -/
def optEntries : List (Nat × Nat) :=
  [(0x2041, 1), (0x2041, 2), (0x2041, 3), (0x2042, 1), (0x2042, 2), (0x2042, 3)] ++
  [(0x7060, 1), (0x7061, 1), (0x7062, 1), (0x7063, 1), (0x7064, 1), (0x7065, 1)] ++
  [(0x7060, 2), (0x7061, 2), (0x7062, 2), (0x7063, 2), (0x7064, 2), (0x7065, 2), (0x7000, 5), (0x8800, 8), (0x1100, 6)]

/-- The value of an option-page entry in a list of words. -/
def optEntryOf (ws : List Nat) (idx sub : Nat) : Nat :=
  let w (i : Nat) := ws.getD i 0
  if idx = 0x2041 ∨ idx = 0x2042 then
    let v := w (idx - 0x2041)
    if sub = 1 then bits v 7 7 else if sub = 2 then bits v 6 0 else bits v 8 8
  else if 0x7060 ≤ idx ∧ idx ≤ 0x7065 then (if sub = 1 then w (idx - 0x7060 + 2) else bits (w 8) (idx - 0x7060) (idx - 0x7060))
  else if idx = 0x7000 then bits (w 9) 0 0
  else if idx = 0x8800 then w 10
  else bits (w 11) 3 0

/-- Default of option word `i` (R745). -/
def optDefaultWords (s : State) : List Nat := (List.range 64).map (optWordOf (fun i k => beNat (s.dflt i k)))

/-- The page words the loader uses: those of the winning copy, else the defaults (R745). -/
def optPage (s : State) : List Nat :=
  match optWinner s with
  | some c => (optPageWords s c).take 62 ++ [0, 0]
  | none => optDefaultWords s

/-- The life-cycle vote (R746, R781, R794): the furthest-advanced state of the copies not marginal that decode. -/
def lcsVote (s : State) (marginal : List Nat) : Option Lcs :=
  (([0, 1, 2] : List Nat).filter (fun w => ! marginal.contains w)).foldl (fun a w =>
    match lcsDecode (s.fuse w), a with
    | some l, some m => if m.code < l.code then some l else some m
    | some l, none => some l
    | none, a => a) none

/-- Burn the lagging life-cycle copies forward (R781, R794). Each copy that differs from the winner is logged; one with a set bit beyond
it stays as it is. -/
def lcsForward (l : Lcs) (marginal : List Nat) (s : State) : State :=
  (([0, 1, 2] : List Nat).filter (fun w => ! marginal.contains w)).foldl (fun s w =>
    let v := s.fuse w
    if v = lcsFuse l then s
    else
      let s := logEvent 0x19 1 0 w s
      if v ||| lcsFuse l = lcsFuse l then (burnFuse w (lcsFuse l) 0 s).2 else s) s

/-- The secured words whose copies disagree (R781 class 10): the copy that lacks bits of the other is burned forward; each is logged. -/
def securedForward (s : State) : State :=
  ((List.range 64).map (· + 64)).foldl (fun s w =>
    let a := s.fuse w
    let b := s.fuse (w + 64)
    if s.nvm.marginal.contains w ∨ s.nvm.marginal.contains (w + 64) ∨ a = b then s
    else
      let s := logEvent 0x19 10 0 w s
      if a ||| b = a then (burnFuse (w + 64) a 0 s).2 else if a ||| b = b then (burnFuse w b 0 s).2 else s) s

/-- Put the option page's entries into force (R789). -/
def applyOptions (ws : List Nat) (s : State) : State :=
  optEntries.foldl (fun s e =>
    let v := beBytes (optEntryOf ws e.1 e.2) (entLen e.1 e.2)
    (s.setEnt e.1 e.2 v).setForce e.1 e.2 v) s

/-- The option-loading phase as one step (R745-R749): 580 ACLK, from 16 ACLK after PD04 is READY. Each entry carries the DT of its own
event (R747). `marginal` are the fuse words whose
margin reads differ. DESIGN CHOICE (log entry 98): SRC of FUSE_MARGINAL is class 1 for words 0-2 and class 10 for the others; copies of the option
page that differ only in generation are no disagreement. -/
def loadOptions (marginal : List Nat) (s : State) : State :=
  let t0 := Nat.max s.dt ((s.dom 4).since + aclk 16)
  let s := { s with dt := t0 + aclk 580 }
  let fw := (List.range 64).map (fun w => if marginal.contains w then fuseSafe w else s.fuse w)
  let pw := optPage s
  let words := fw ++ pw
  let s := marginal.foldl (fun s w => if w < 64 then logEventAt (t0 + aclk (8 * (w + 1))) 0x1A (if w ≤ 2 then 1 else 10) 0 w s
    else if w < 192 then logEvent 0x1A 10 0 w s else s) s
  let s := if pageIntact s 0 && pageIntact s 1 then s else logEventAt (t0 + aclk 576) 0x19 5 0 0 s
  let s := { s with nvm := { s.nvm with marginal := marginal } }
  let mcopy := match optWinner s with | some c => c | none => 2
  let s := { s with rst := { s.rst with
    optWords := (List.range 128).foldl (fun t i => Tab.put 0 t i (words.getD i 0)) []
    marginal := (marginal.filter (fun w => decide (w < 64))).foldl (fun a w => a ||| 2 ^ w) 0
    mcopy := mcopy, optDone := true, optAt := s.dt, optDigest := sha384 (words.flatMap (fun w => beBytes w 4)) } }
  let s := applyOptions pw s
  let s := { s with rst := { s.rst with wdto := s.cfg 0x8800 8 } }
  match lcsVote s marginal with
  | none => { s with rst := { s.rst with phase := .halt, hcause := 1, optDone := false } }
  | some l =>
    let s := securedForward <| lcsForward l marginal { s with power := { s.power with lcs := l } }
    { s with rst := { s.rst with phase := .release } }

/-- The release order (R752), PD01 first. -/
def releaseOrder : List Nat := [1, 4, 29, 2, 5, 3, 7, 8, 9, 10] ++ quadDoms ++ [27, 28, 30, 31, 32]

/-- A domain the order no longer waits for. -/
def released (s : State) (d : Nat) : Bool :=
  decide ((s.dom d).st = .ready ∨ (s.dom d).st = .fenced) ||
  (decide (d = 3) && (s.rst.kdDone || decide (s.power.lcs = .retired)))

/-- The next domain of the order that is not yet released. -/
def nextRelease (s : State) : Option Nat := releaseOrder.find? (fun d => ! released s d)

/-- When a domain of the order may be switched on (R752): 16 ACLK after the domain before it was READY or FENCED, or, where that one was
already on, the one before; behind the option loader after its end. -/
def releaseAt (s : State) (d : Nat) : Nat :=
  let before := releaseOrder.takeWhile (fun x => decide (x ≠ d))
  let t := before.foldl (fun m x => Nat.max m (s.dom x).since) s.rst.started
  Nat.max t (if d = 1 ∨ d = 4 then 0 else s.rst.optAt) + aclk 16

/-- BRINGUP goes on: a tamper erase stops it at the step in progress (R770). -/
def bringing (s : State) : Bool := decide (s.power.mode = .bringup) && ! s.tamper.erasing

end Sys2Proof.Machine
end

