-- ==== Sys2Proof/Machine/ConfigRec.lean ====
section
/-!
DEFINITION. The stored configuration (R96, R755, R781-R783): the configuration record and the option page in MRAM, COMMIT, and
what applies at BRINGUP.
-/
namespace Sys2Proof.Machine

/-- The first page of a copy of the configuration record (R775). -/
abbrev cfgPage (c : Nat) : Nat := 0x0C0 + 0x18 * c

/-- CFK (R783). -/
def cfk (s : State) : Bytes := kdfCtr pufKey (ascii "SV6400 CONFIG") (serial s) 256

/-- The entries of a record: index, subindex, length, the value padded to 4 bytes (R783). -/
def cfgEntries (es : List (Nat × Bytes)) : Bytes :=
  es.flatMap (fun e => beBytes (e.1 / 256) 2 ++ [byte (e.1 % 256), 0] ++ beBytes e.2.length 2 ++ e.2 ++ zeros ((4 - e.2.length % 4) % 4))

/-- A record before its tag, FLAGS 0 (R783). -/
def cfgHead (gen nent plen : Nat) : Bytes :=
  beBytes 0x53564346 4 ++ [1, 0, 0, 0] ++ beBytes gen 4 ++ beBytes nent 2 ++ [0, 0] ++ beBytes plen 4 ++ zeros 28

/-- The whole record with COMMIT clear. -/
def cfgRecord (s : State) (gen : Nat) (es : List (Nat × Bytes)) : Bytes :=
  let body := cfgEntries es
  let b := cfgHead gen es.length (body.length + 16) ++ body
  b ++ aesCmac (cfk s) b

/-- A record that was read: its generation, COMMIT, its bytes, and where its entries lie. -/
structure CfgRec where
  gen : Nat
  commit : Bool
  bytes : Bytes
  nent : Nat

/-- A copy of the record that is intact and whose tag passes (R781 class 4, R783). -/
def cfgRead (s : State) (c : Nat) : Option CfgRec :=
  let p := cfgPage c
  let h := mramRead s (256 * p) 48
  let plen := beNat (slice h 16 4)
  if beNat (h.take 4) ≠ 0x53564346 ∨ byteAt h 4 ≠ 1 ∨ plen < 16 ∨ 6096 < plen ∨
      ! (List.range ((48 + plen + 255) / 256)).all (fun i => pageIntact s (p + i)) then none
  else
    let b := mramRead s (256 * p) (48 + plen)
    let body := b.take (32 + plen)
    if aesCmac (cfk s) (body.take 5 ++ [0] ++ body.drop 6) ≠ b.drop (32 + plen) then none
    else some ⟨beNat (slice h 8 4), bit (byteAt h 5).toNat 0, b, beNat (slice h 12 2)⟩

/-- GEN of the winning option page (R781). -/
def winGen (s : State) : Option Nat := (optWinner s).map (optGen s)

/-- The copy of the configuration record that is chosen (R781, class 4). -/
def cfgWinner (s : State) : Option Nat :=
  match cfgRead s 0, cfgRead s 1 with
  | some a, some b =>
    let m (r : CfgRec) : Bool := decide (winGen s = some (r.gen % 65536))
    if m a && ! m b then some 0
    else if m b && ! m a then some 1
    else if a.gen = b.gen then some 0
    else
      let hi := if serialNewer 32 a.gen b.gen then 0 else 1
      if (if hi = 0 then a.commit else b.commit) then some hi else some (1 - hi)
  | some _, none => some 0
  | none, some _ => some 1
  | none, none => none

/-- The entries of a record, `n` of them from byte `o` on. -/
def cfgParse (b : Bytes) : Nat → Nat → List (Nat × Bytes)
  | 0, _ => []
  | n + 1, o =>
    let len := beNat (slice b (o + 4) 2)
    (beNat (slice b o 2) * 256 + (byteAt b (o + 2)).toNat, slice b (o + 6) len) :: cfgParse b n (o + 6 + len + (4 - len % 4) % 4)

/-- The stored values: the entries of the chosen record. -/
def storedSet (s : State) : List (Nat × Bytes) :=
  match cfgWinner s with
  | none => []
  | some c => match cfgRead s c with | some r => cfgParse r.bytes r.nent 48 | none => []

/-- An entry that the configuration record holds (R782): persistent, written by requests, and not in the option page. -/
def inRecord (idx sub : Nat) : Bool :=
  match findEnt idx sub with
  | some e => decide (e.store = .persist ∧ e.eff ≠ .none) && ! optEntries.contains (idx, sub)
  | none => false

/-- The stored set of a COMMIT (R782): every such working value that differs from its default, the installed classifier images
(R171) and the installed curve records (602c:04). -/
def commitSet (s : State) : List (Nat × Bytes) :=
  s.dict.work.filterMap (fun e => if inRecord (e.1 / 256) (e.1 % 256) then e.2.map (fun v => (e.1, v)) else none) ++
  s.port.clsImg.filterMap (fun e => if e.2.isEmpty then none else some (entKey (0x2100 + e.1) 1, e.2)) ++
  s.pk.curves.filterMap (fun e => if e.2.record.isEmpty then none else some (entKey (0x6020 + e.1) 1, e.2.record))

/-- The option page for the present working values, with its generation and COMMIT (R789). -/
def optPageBytes (s : State) (gen : Nat) (commit : Bool) : Bytes :=
  let ws := (List.range 62).map (optWordOf (fun i k => s.num i k))
  let w63 := gen % 65536 * 65536
  let crc := optCrc (ws ++ [0, w63])
  (ws ++ [crc, w63 + b2n commit * 2 ^ 15]).flatMap (fun w => beBytes w 4)

/-- Set COMMIT in a copy of the configuration record: one program of its header page. -/
def setCfgCommit (c : Nat) (s : State) : Nat × State := programPage (cfgPage c) 5 [1] 0 s

/-- COMMIT (R96, R780, R782, R783): the losing copies of the record and of the option page are written, then committed; the
stored configuration extends MR3 (R623). -/
def commitRun (k : Nat) (s : State) : State :=
  let es := commitSet s
  let w := cfgWinner s
  let gen := match w with
    | some c => (match cfgRead s c with | some r => (r.gen + 1) % 2 ^ 32 | none => 1)
    | none => 1
  let rd := cfgRecord s gen es
  if 48 + 6096 < rd.length then failSlot k 3 s
  else
    let c := match w with | some x => 1 - x | none => 0
    let o := match optWinner s with | some x => 1 - x | none => 0
    let r := writePages (cfgPage c) (chunks 256 rd) s
    if r.1 ≠ 0 then failSlot k 4 r.2
    else
      let r := programPage o 0 (optPageBytes s gen false) 0 r.2
      if r.1 ≠ 0 then failSlot k 4 r.2
      else
        let r := programPage o 0 (optPageBytes s gen true) 0 r.2
        if r.1 ≠ 0 then failSlot k 4 r.2
        else
          let r := setCfgCommit c r.2
          doneSlot k [] (mrMeasure 3 5 0 (sha384 (rd.take 5 ++ [1] ++ rd.drop 6)) r.2)

/-- Complete an interrupted COMMIT at BRINGUP (R781): a chosen record whose GEN matches the option page takes its COMMIT, logged. -/
def settleRecord (s : State) : State :=
  match cfgWinner s with
  | none => s
  | some c =>
    match cfgRead s c with
    | none => s
    | some r =>
      if r.commit ∨ winGen s ≠ some (r.gen % 65536) then s else logEvent 0x19 4 0 0 (setCfgCommit c s).2

/-- The value stored under a key. -/
def storedAt (es : List (Nat × Bytes)) (idx sub : Nat) : Bytes :=
  match es.find? (fun e => decide (e.1 = entKey idx sub)) with | some e => e.2 | none => []

/-- The stored configuration applies at BRINGUP (R96, R755): P entries take their stored value or their default; installed
classifier images and curves are present again; the record extends MR3 (R623). -/
def loadStored (s : State) : State :=
  let s := settleRecord (noteDamaged 4 (cfgPage 0) (cfgPage 1) (cfgRead s 0).isSome (cfgRead s 1).isSome s)
  let es := storedSet s
  let isOpt (k : Nat) : Bool := optEntries.contains (k / 256, k % 256)
  let ps := es.filter (fun e => inRecord (e.1 / 256) (e.1 % 256))
  let put (t : Tab (Option Bytes)) : Tab (Option Bytes) := ps.foldl (fun t e => Tab.put none t e.1 (some e.2)) t
  let work := put (s.dict.work.filter (fun e => ! inRecord (e.1 / 256) (e.1 % 256)))
  let force := put (s.dict.force.filter (fun e => isOpt e.1))
  let s := { s with dict := { s.dict with work := work, force := force, pendE := [] } }
  let s := { s with port := { s.port with
    clsImg := (List.range 16).foldl (fun t k => Tab.put [] t (k + 1) (storedAt es (0x2101 + k) 1)) [] } }
  let s := { s with pk := { s.pk with
    curves := (List.range 16).foldl (fun t c => Tab.put {} t c { record := storedAt es (0x6020 + c) 1 }) [] } }
  match cfgWinner s with
  | none => s
  | some c => match cfgRead s c with | some r => mrMeasure 3 5 0 (sha384 r.bytes) s | none => s

end Sys2Proof.Machine
end

