-- ==== Sys2Proof/Machine/Reset.lean ====
section
/-!
DEFINITION. The meanings of the reset, bring-up, self-test-result and test-access-port commands (R740-R774, R818, R841).
-/
namespace Sys2Proof.Machine

/-- POWER_ON (R740, R803, R841): PORST_N high with both power-good signals; SOURCE 0x02 after GUARD, else 0x01. -/
def execPowerOn (s : State) : Res :=
  let src := if s.power.mode = .guard then 0x02 else 0x01
  let s := powerOnReset src s
  ok { s with pins := { s.pins with pgMain := true, pgIo := true, porst := true } }

/-- PORST_N_ASSERT (R740, R818): every domain other than PD00 is held in reset; in GUARD it changes nothing further. -/
def execPorstNAssert (s : State) : Res :=
  let s := { s with pins := { s.pins with porst := false } }
  if s.power.mode = .guard then ok s
  else
    let s := powerOnReset 0x01 s
    ok { s with rst := { s.rst with porstHeld := true } }

/-- SYSRST_PIN (R740, R818): a system reset with SOURCE 0x03, held while the pin is low. -/
def execSysrstPin (s : State) : Res :=
  if s.power.mode = .guard then ok s
  else
    let s := systemReset 0x03 0 s
    ok { s with pins := { s.pins with sysrst := false }, rst := { s.rst with sysrstHeld := true } }

/-- SYSRST_N_RISE (R818): BRINGUP starts 16 ACLK later. -/
def execSysrstNRise (s : State) : Res :=
  if ¬ s.rst.sysrstHeld then ok s
  else
    let s := { s with dt := s.dt + aclk 16, pins := { s.pins with sysrst := true } }
    ok { s with rst := { s.rst with sysrstHeld := false } }

/-- The effect of 8800:06 (R766). -/
def fxSystemReset (s : State) (role : Nat) (v : Bytes) : Ans :=
  startOp 0x8800 6 role .reset v (fun _ s => systemReset 0x04 0 s) s

/-- SYSTEM_RESET_REQUEST (R740, R766). -/
def execSystemResetRequest (r : Req) (s : State) : Res :=
  ok (serveWrite (reqWith r [0x01]) 0x8800 6 always always anyValue fxSystemReset s)

/-- The effect of 8800:07 (R766): bit 0 KD, bit 1 CD0, bit 2 CD1. The request's own operation is DONE before the reset acts, so that R103
does not abort it (DESIGN CHOICE, log entry 73). -/
def fxCoreReset (s : State) (role : Nat) (v : Bytes) : Ans :=
  startOp 0x8800 7 role .reset v (fun k s => coreReset (beNat v) 0x0A (doneSlot k [] s)) s

/-- CORE_RESET_REQUEST (R740, R766). -/
def execCoreResetRequest (r : Req) (s : State) : Res :=
  ok (serveWrite r 0x8800 7 always always anyValue fxCoreReset s)

/-- RST_REQ_SYS (R740): ignored without the key 0x5253. -/
def execRstReqSys (key : BitVec 16) (s : State) : Res :=
  if key = 0x5253 then ok (systemReset 0x04 0 s) else ok s

/-- RST_REQ_CORE_KD (R740). -/
def execRstReqCoreKd (key : BitVec 16) (s : State) : Res :=
  if key = 0x5253 then ok (coreReset 1 0x0A s) else ok s

/-- RST_REQ_CORE_CD0 (R740). -/
def execRstReqCoreCd0 (key : BitVec 16) (s : State) : Res :=
  if key = 0x5253 then ok (coreReset 2 0x0A s) else ok s

/-- RST_REQ_CORE_CD1 (R740). -/
def execRstReqCoreCd1 (key : BitVec 16) (s : State) : Res :=
  if key = 0x5253 then ok (coreReset 4 0x0A s) else ok s

/-- COMPUTE_DIE_RESTORE (R743, R769): the supervisor restores a reset compute die, once it is itself out of reset. -/
def execComputeDieRestore (die : Fin 2) (s : State) : Res :=
  if bit s.rst.coreBusy (die.val + 1) ∧ ¬ bit s.rst.coreBusy 0 then
    ok (restoreCd die.val { s with rst := { s.rst with coreBusy := setBit s.rst.coreBusy (die.val + 1) false } })
  else ok s

/-- WATCHDOG_ENABLE (R744): EN starts the count; only a core reset of KD or a higher level clears it. It does not run in
recovery. -/
def execWatchdogEnable (s : State) : Res :=
  if s.rst.wdtEn ∨ s.rst.recovery then ok s
  else ok { s with rst := { s.rst with wdtEn := true, wdtFrom := s.dt } }

/-- WATCHDOG_KICK (R744, R772): 0x5AA5 restarts the count; any other value is ignored, and so is a kick while EN is 0. -/
def execWatchdogKick (v : BitVec 16) (s : State) : Res :=
  if s.rst.wdtEn ∧ v = 0x5AA5 then ok { s with rst := { s.rst with wdtFrom := s.dt } } else ok s

/-- WATCHDOG_EXPIRY (R744): a core reset of KD with SOURCE 0x0B. -/
def execWatchdogExpiry (s : State) : Res :=
  if ¬ s.rst.wdtEn then ok s
  else ok (coreReset 1 0x0B ((s.at (s.rst.wdtFrom + ms s.rst.wdto)).bump 0xB890 0x0A))

/-- A condition with response E that is asserted while options load erases the device and holds it in ALARM (R656, R750). -/
def alarmHold (c : Nat) (s : State) : State :=
  let s := logEvent 0x07 c 2 0 (tamperErase c s)
  ({ s with tamper := { s.tamper with erasing := false } }).setMode .alarm

/-- In RETIRED, which has no ALARM (R46), such a condition erases, and the options load on to INERT (DESIGN CHOICE, log entry 84). -/
def eraseAtOptions (c : Nat) (s : State) : State :=
  let s := tamperErase c s
  { s with tamper := { s.tamper with erasing := false } }

/-- OPTION_LOAD (R745, R750): in phase OPTIONS, with PD04 READY. -/
def execOptionLoad (marginal : List Nat) (s : State) : Res :=
  if bringing s ∧ s.rst.phase = .options ∧ s.domReady 4 ∧ ¬ s.rst.sysrstHeld ∧ ¬ s.rst.porstHeld then
    match s.tamper.conds.find? (fun e => e.2.asserted && respE s e.1) with
    | some e => if s.power.lcs = .retired then ok (loadOptions marginal (eraseAtOptions e.1 s)) else ok (alarmHold e.1 s)
    | none => ok (loadOptions marginal s)
  else ok s

/-- Phase RELEASE ends when every domain of the order is READY or FENCED; then KEYDIE, or BOOT where the key die is done
(R751); in RETIRED the device ends in INERT (R48). -/
def endRelease (s : State) : State :=
  if s.rst.phase ≠ .release then s
  else if s.power.lcs = .retired ∧ s.rst.kdDone then quietDomains (({ s with rst := { s.rst with phase := .done } }).setMode .inert)
  else { s with rst := { s.rst with phase := if s.rst.kdDone then .boot else .keydie } }

/-- DOMAIN_RELEASE_NEXT (R752): the next domain of the order is switched on 16 ACLK after the one before it, PD29 and later
once the options are loaded. -/
def execDomainReleaseNext (s : State) : Res :=
  if ¬ bringing s ∨ s.rst.phase = .halt ∨ s.rst.sysrstHeld ∨ s.rst.porstHeld then ok s
  else
    match nextRelease s with
    | none => ok (endRelease s)
    | some d =>
      if (s.dom d).st ≠ .off ∨ (d ≠ 1 ∧ d ≠ 4 ∧ s.rst.phase = .options) then ok s
      else
        let s := s.at (releaseAt s d)
        ok (s.setDom d { s.dom d with st := .up, since := s.dt, wokenAt := s.dt })

/-- POST_SELFTEST (R755, R756): failed units are fenced with cause POST, failed lanes replaced by their tile's spare; then
the stored configuration applies, the ports are configured, and epoch 1 is formed. At most 20 ms of DT. -/
def execPostSelftest (lanes : BitVec 68) (pk : BitVec 24) (clusters : BitVec 128) (s : State) : Res :=
  if ¬ bringing s ∨ s.rst.phase ≠ .post then ok s
  else
    let post := { s.rst with postLanes := lanes.toNat, postPk := pk.toNat, postCluster := beBytes clusters.toNat 16 }
    let s := { s with dt := s.dt + ms 20, rst := post }
    let s := (bitsSet 4 (lanes.toNat / 2 ^ 64)).foldl (fun s k => failSpareUnit k s) s
    let s := (bitsSet 64 lanes.toNat).foldl (fun s n => fenceLaneUnit n 2 s) s
    let s := (bitsSet 24 pk.toNat).foldl (fun s e => fencePkUnit e 2 s) s
    let s := (List.range 16).foldl (fun s q =>
      let b := (byteAt (beBytes clusters.toNat 16) q).toNat % 32
      if b = 0 then s else failCluster q b s) s
    let s := portsConfigure (loadStored s)
    ok (formEpoch1 { s with rst := { s.rst with phase := .epoch } })

/-- TRNG_TEST_FAIL (R761): the noise source restarts; a second failure within 1 s marks the TRNG FAILED. -/
def execTrngTestFail (s : State) : Res :=
  let again := match s.rst.trngFailAt with | some t => decide (s.dt < t + sec 1) | none => false
  ok { s with rst := { s.rst with trngFailAt := some s.dt, trngFailed := s.rst.trngFailed || again,
                                  kdTest := if again then s.rst.kdTest ||| 16 else s.rst.kdTest } }

/-- A block reset asked for through 8800:0A or RST_BLK (R762, R773): refused while its indicator is clear. -/
def blockReset (kind idx : Nat) (idle : State → Bool) (act : State → State) (s : State) : Bool × State :=
  if idle s then (true, (act { s with rst := { s.rst with blkRefused := false } }).bump 0xB890 6)
  else (false, ({ s with rst := { s.rst with blkRefused := true, blkKind := kind, blkIndex := idx } }).bump 0xB890 7)

/-- A block reset with its trigger: none is a GO of RST_BLK. -/
def runBlockReset (via : Option Req) (kind idx : Nat) (idle : State → Bool) (act : State → State) (s : State) : State :=
  match via with
  | none => (blockReset kind idx idle act { s with rst := { s.rst with blkKind := kind, blkIndex := idx } }).2
  | some r =>
    serveWrite (reqWith r [byte kind, byte idx]) 0x8800 0x0A always always anyValue (fun s role _ =>
      startOp 0x8800 0x0A role .none [byte kind, byte idx] (fun k s =>
        let b := blockReset kind idx idle act s
        if b.1 then doneSlot k [] b.2 else failSlot k 1 b.2) s) s

/-- A quad's block reset: power-down and power-up without refusers, its memories kept in retention (R762); without a
TRNG the power-up fails at W3 (R761). The two sequences are one step of at most 2,500 ns (log entry 4). -/
def quadBlockReset (q : Nat) (s : State) : State :=
  let s := emptyCache q { s with dt := s.dt + 2500 }
  let s := s.bump 0xB880 1
  if s.rst.trngFailed then failPowerUp (11 + q) (s.setDom (11 + q) { s.dom (11 + q) with st := .up, since := s.dt }) else
  quadReadyEffect q (s.setDom (11 + q) { s.dom (11 + q) with st := .ready, since := s.dt })

/-- BLOCK_RESET_QUAD (R762, R773). -/
def execBlockResetQuad (via : Option Req) (q : Fin 16) (s : State) : Res :=
  ok (runBlockReset via 1 q.val (fun s => s.domReady (11 + q.val) && quadIdle s q.val) (quadBlockReset q.val) s)

/-- BLOCK_RESET_PK (R762, R773). -/
def execBlockResetPk (via : Option Req) (e : Fin 24) (s : State) : Res :=
  ok (runBlockReset via 2 e.val (fun s => s.domReady (9 + e.val / 12) && pkUnitIdle s e.val) (blockResetPk e.val) s)

/-- BLOCK_RESET_PORT (R762). -/
def execBlockResetPort (via : Option Req) (p : Fin 32) (s : State) : Res :=
  ok (runBlockReset via 3 p.val (fun s => portIdle s p.val) (blockResetPort p.val) s)

/-- The TAP is armed now (R730, R765), and word 3 of the options does not lock it (R788). -/
def tapArmed (s : State) : Bool :=
  (match s.tap.armedUntil with | some t => decide (s.dt < t) | none => false) && ! bit (Tab.look 0 s.rst.optWords 3) 0

/-- Select a TAP instruction; a closed one acts as BYPASS (R764). -/
def tapSelect (code : Nat) (open_ : Bool) (dr : Bytes) (s : State) : State :=
  if open_ then { s with tap := { s.tap with ir := code, dr := dr } }
  else { s with tap := { s.tap with ir := 0xFF, dr := [0] } }

/-- TAP_EXTEST (R764): drives the boundary register when unlocked, otherwise BYPASS. -/
def execTapExtest (v : Bytes) (s : State) : Res :=
  let s' := tapSelect 0x00 s.tap.unlocked v s
  ok (if s.tap.unlocked then { s' with tap := { s'.tap with boundary := v } } else s')

/-- TAP_IDCODE (R764): 0x s640_0569 with the stepping number. -/
def execTapIdcode (s : State) : Res :=
  ok (tapSelect 0x01 true (beBytes ((s.secured 101 % 256 - 0x30) % 16 * 2 ^ 28 + 0x06400569) 4) s)

/-- TAP_SAMPLE_PRELOAD (R764): the boundary register is loaded. -/
def execTapSamplePreload (v : Bytes) (s : State) : Res :=
  let s := tapSelect 0x02 true v s
  ok { s with tap := { s.tap with boundary := v } }

/-- TAP_CHAL (R765): while armed, a fresh nonce; CHAL is nonce, SERIAL, life-cycle code, zeros. -/
def execTapChal (s : State) : Res :=
  if ¬ tapArmed s then ok (tapSelect 0x10 false [] s)
  else
    let n := s.draw 32
    let c := n.1 ++ serial s ++ [byte s.power.lcs.code] ++ zeros 7
    let t := tapSelect 0x10 true c n.2
    ok { t with tap := { t.tap with chal := c, nonceDrawn := true } }

/-- The Tvedmor debug key of the key-die boot ROM (R765). -/
def debugKey : Nat × Nat :=
  (beNat ((List.range 48).map (Config.romByte 1)), beNat ((List.range 48).map (fun i => Config.romByte 1 (48 + i))))

/-- TAP_UNLOCK (R765): checks the signature over the challenge. In OWNED the erase into FA follows (R47, R654);
else MR7 takes the life-cycle code and the serial number (R623). -/
def execTapUnlock (sig : Bytes) (s : State) : Res :=
  if ¬ tapArmed s then ok (tapSelect 0x11 false [] s)
  else
    let good := s.tap.nonceDrawn && decide (sig.length = 96) &&
      p384.ecdsaVerify debugKey (sha384 (ascii "SV6400 DEBUG" ++ s.tap.chal)) (beNat (sig.take 48)) (beNat (sig.drop 48))
    let s := tapSelect 0x11 true sig s
    let s := { s with tap := { s.tap with armedUntil := none, nonceDrawn := false } }
    if ¬ good then ok (s.bump 0xB890 0x0B)
    else
      match s.power.lcs with
      | .retired => ok s
      | .owned =>
        let s := systemReset 0x07 0 (finishSweeps (debugErase s))
        ok { s with tap := { s.tap with unlocked := true } }
      | c => ok (mrMeasure 7 10 0 (sha384 ([byte c.code] ++ serial s)) { s with tap := { s.tap with unlocked := true } })

/-- TAP_SYSRESET (R764): when unlocked, a system reset with SOURCE 0x09. -/
def execTapSysreset (s : State) : Res :=
  if s.tap.unlocked then ok (systemReset 0x09 0 (tapSelect 0x21 true [] s)) else ok (tapSelect 0x21 false [] s)

/-- TAP_BYPASS (R764). -/
def execTapBypass (s : State) : Res := ok (tapSelect 0xFF true [0] s)

/-- PE_PERST (R809): holds or releases the endpoint's link and configuration space; nothing else is reset. -/
def setPerst (high : Bool) (s : State) : State := { s with pins := { s.pins with perst := high } }

end Sys2Proof.Machine
end

