-- ==== Sys2Proof/Machine/PortTx.lean ====
section
/-!
DEFINITION. The meanings of the transmit side of the ports and of the host port (R152-R168, R178, R238, R239, R262).
-/
namespace Sys2Proof.Machine

/-- A response reaches its boundary after its DEADLINE (B20d:0C). -/
def lateCount (die : Nat) (deadline : Nat) (s : State) : State := if s.dt > deadline then s.bump (0xB200 + die) 0x0C else s

/-- The next frame of a port in the order of R157, and the port's queues without it. -/
def nextFrame (s : State) (r : Source) : Option (TxFrame × Source) :=
  match (if s.power.mode = .alarm then [] else r.byp), r.selfQ, r.laneQ with
  | f :: t, _, _ => some (f, { r with byp := t })
  | [], f :: t, _ => some (f, { r with selfQ := t })
  | [], [], f :: t => some (f, { r with laneQ := t })
  | [], [], [] => none

/-- TRANSMIT_FRAME_SELECT (R157, R158): the frame in progress ends, and the transmit MAC takes the next one. -/
def execTransmitFrameSelect (p : Fin 32) (s : State) : Res :=
  let p := p.val
  let s := if (s.src p).cur.isSome then txFinish p (s.at (s.src p).txEnd) else s
  if ¬ portUp s p then ok s
  else
    match nextFrame s (s.src p) with
    | none => ok s
    | some (f, r) =>
      let g := sweepFrame p f (s.setSrc p r)
      let s := g.2
      let s := match f.id with | some i => sentEntry p i f.swept s | none => s
      let s := match f.deadline with | some d => lateCount f.die d s | none => s
      ok (txStart p g.1 s.dt s)

/-- The first result header of a die to reach XD (R239): the earliest on the result link. -/
def nextHdr (d : Nat) (hs : List ResHdr) : Option ResHdr :=
  (hs.filter (fun h => decide (h.die = d))).foldl (fun m h =>
    match m with | some x => if h.due < x.due then some h else m | none => some h) none

/-- Remove the first entry equal to a header. -/
def dropHdr (h : ResHdr) : List ResHdr → List ResHdr
  | [] => []
  | x :: t => if x = h then t else x :: dropHdr h t

/-- A lane response counts as late, a dispatcher's answer does not (R227). -/
def lateResult (h : ResHdr) (s : State) : State := if h.kind = 2 then s else lateCount h.die h.deadline s

/-- The DT at which the last body byte of a result has reached XD, carried at 512 bytes per LCLK (R238). -/
def bodyEndOf (h : ResHdr) : Nat := h.due + ceilDiv h.body.length 512

/-- A response is framed for its source (R153, R157, R167). -/
def frameResult (p : Nat) (h : ResHdr) (o : Outst) (s : State) : State :=
  let r := s.src p
  let gone (s : State) : State := s.setSrc p { s.src p with outst := dropOutst o.id false r.outst }
  if p ≥ 32 then
    lateResult h (hostComplete (p - 32) o.msg h.status 0 h.msgid h.cls h.body (sentOne p o.adm (gone s)))
  else if o.lost ∨ ¬ portUp s p then (sentOne p o.adm (gone s)).pstat p 0x11
  else if pcfg s p 5 ≠ 0 then
    (tcpCommit p o.msg.tci (respPayload s p h.status 0 h.msgid h.cls h.body) (lateResult h (sentOne p o.adm (gone s)))).2
  else
    let f : TxFrame := { kind := if h.kind = 2 then 1 else 2, bytes := directFrame s p o.msg h.status 0 h.msgid h.cls h.body,
                         id := some o.id, deadline := if h.kind = 2 then none else some h.deadline, die := h.die,
                         hlen := directHead s p o.msg h.body, blen := h.body.length, bodyEnd := bodyEndOf h }
    if h.kind = 2 then s.setSrc p { r with selfQ := r.selfQ ++ [f] } else s.setSrc p { r with laneQ := r.laneQ ++ [f] }

/-- RESULT_HEADER_ARRIVAL (R155, R239): the next header of a die reaches XD and is matched by MSGID; one whose identifier is no
longer outstanding is discarded and counted. -/
def execResultHeaderArrival (die : Fin 2) (s : State) : Res :=
  match nextHdr die.val s.port.resLink with
  | none => ok s
  | some h =>
    let s := s.at h.due
    let s := { s with port := { s.port with resLink := dropHdr h s.port.resLink } }
    let s := match (s.src h.src).outst.find? (fun o => decide (o.id = h.msgid) && ! o.swept) with
      | none => s.pstat h.src 0x12
      | some o => frameResult h.src h o s
    ok (finishDrain (match h.job with | some j => jobAnswered j s | none => s))

/-- PORT_SWEEP (R162, R163). -/
def execPortSweep (src : Fin 36) (s : State) : Res := ok (portSweepOp src.val s)

/-- A submission entry as host memory holds it (R166). -/
def sqEntBytes (b : Bytes) : SqEnt :=
  ⟨beNat (slice b 0 8), beNat (slice b 8 8), beNat (slice b 16 2), beNat (slice b 18 2), beNat (slice b 20 8), beNat (slice b 28 2)⟩

/-- A fetched submission entry. -/
def sqEntOf (f : SqFetch) : SqEnt := ⟨f.msgid.toNat, f.req.toNat, f.len.toNat, f.dl.toNat, f.rsp.toNat, f.size.toNat⟩

/-- Fetch submission entries in ring order up to the tail (R166): `es` are the entries host memory holds there, beyond them it holds free values. A fetch that
faults is answered POLICY by the port; nothing of its entry is known. -/
def sqFetchF (q : Nat) : Nat → List SqFetch → State → State
  | 0, _, s => s
  | fuel + 1, es, s =>
    let h := s.hq q
    if h.sqHead = h.sqTail % 2 ^ h.sqLog then s
    else
      let r := dma 0x78 0 (hostAddr (h.sqBase + 32 * h.sqHead)) 32 s
      let s := r.2.2
      let h := { h with sqHead := (h.sqHead + 1) % 2 ^ h.sqLog }
      if r.2.1 ≠ 0 then
        let s := (s.setHq q { h with fetchFault := true }).noteSet (hqKey q) 4
        sqFetchF q fuel (es.drop 1) (releaseMsg (32 + q) { src := 32 + q, body := [], tstamp := s.dt, rel := dtTicks s.dt } (some tPOLICY) s)
      else
        match es with
        | f :: _ => sqFetchF q fuel (es.drop 1) (s.setHq q { h with fetched := h.fetched ++ [sqEntOf f] })
        | [] =>
          let d := s.draw 32
          sqFetchF q fuel [] (d.2.setHq q { h with fetched := h.fetched ++ [sqEntBytes d.1] })

/-- The device fetches what has been posted to a queue pair (R166): with EN set, PD30 ready and the link up. -/
def sqPump (q : Nat) (es : List SqFetch) (s : State) : State :=
  if (s.hq q).en ∧ s.domReady 30 ∧ s.port.link ≠ 0 then sqFetchF q (2 ^ 14) es s else s

/-- HOST_SQ_TAIL_WRITE (R166, R167): the tail moves, and the device fetches the new entries. -/
def execHostSqTailWrite (q : Fin 4) (tail : BitVec 14) (es : List SqFetch) (s : State) : Res :=
  if ¬ s.domReady 30 then ok s else ok (sqPump q.val es (s.setHq q.val { s.hq q.val with sqTail := tail.toNat }))

/-- HOST_REQUEST_ARRIVAL (R166): the next fetched request's buffer has arrived; the message is released, answered POLICY on a
fault, or FORMAT for a length outside 1-8,192 (log entry 33). -/
def execHostRequestArrival (q : Fin 4) (body : Bytes) (s : State) : Res :=
  let h := s.hq q.val
  match h.fetched with
  | [] => ok s
  | e :: rest =>
    let s := s.setHq q.val { h with fetched := rest }
    let p := 32 + q.val
    let bad := decide (e.len = 0 ∨ e.len > 8192)
    let r := if bad then (0, 0, s) else dma 0x78 0 (hostAddr e.req) e.len s
    let s := r.2.2
    let fault := decide (r.2.1 ≠ 0)
    let s := if fault then (s.setHq q.val { s.hq q.val with fetchFault := true }).noteSet (hqKey q.val) 4 else s
    let pre := if fault then some tPOLICY else if bad then some tFORMAT
      else if (s.src p).block ≠ 0 then some (s.src p).block else none
    let m : Msg := { src := p, body := fit body e.len, tstamp := s.dt, rel := dtTicks s.dt, hdrId := some e.msgid, dl := e.dl,
                     rbuf := e.rsp, rsize := e.size }
    ok (releaseMsg p m pre s)

/-- Insert a header store item in block order, a header ahead of its signature item (R262). -/
def insHeader (i : AudItem) : List AudItem → List AudItem
  | [] => [i]
  | x :: t => if i.bseq < x.bseq ∨ (i.bseq = x.bseq ∧ i.kind < x.kind) then i :: x :: t else x :: insHeader i t

/-- HPQ_QUEUE_ENABLE (R168, R253, R262): EN sets, or CFG_ERR. -/
def execHpqQueueEnable (q : Fin 5) (s : State) : Res :=
  let q := q.val
  let h := s.hq q
  let sz (n : Nat) : Bool := decide (6 ≤ n ∧ n ≤ 14)
  if ¬ s.domReady 30 ∨ h.en then ok s
  else if ¬ sz h.cqLog ∨ (q < 4 ∧ (¬ sz h.sqLog ∨ h.cqLog < h.sqLog)) then ok ((s.setHq q { h with cfgErr := true }).noteSet (hqKey q) 1)
  else
    let s := s.setHq q { h with en := true, sqHead := 0, cqTail := 0, wrapped := false, fetched := [] }
    if q < 4 then ok (sqPump q [] s)
    else ok ([0, 1].foldl (fun s d =>
      let a := s.aud d
      s.setAud d { a with items := (a.items.filter (fun i => decide (i.kind ≠ 0))).foldl (fun l i => insHeader i l) [] ++
                                    a.items.filter (fun i => decide (i.kind = 0)) }) s)

/-- HPQ_QUEUE_DISABLE (R178): fetching stops; outstanding messages still complete. -/
def execHpqQueueDisable (q : Fin 5) (s : State) : Res :=
  if ¬ s.domReady 30 then ok s else ok (s.setHq q.val { s.hq q.val with en := false })

/-- PE_PERST (R809): low holds the link and the configuration space. -/
def execPePerst (high : Bool) (s : State) : Res :=
  let s := setPerst high s
  ok (if high then s else { s with port := { s.port with link := 0, rate := 0 } })

/-- HOST_LINK_RETRAIN (R164, R187): the link trains to a width and rate, or goes down (width 0). -/
def execHostLinkRetrain (width : Nat) (rate : Nat) (s : State) : Res :=
  if ¬ s.domReady 30 ∨ ¬ s.pins.perst then ok s
  else if width = 0 then ok { s with port := { s.port with link := 0, rate := 0 } }
  else if [1, 2, 4, 8, 12, 16].contains width ∧ 1 ≤ rate ∧ rate ≤ 5 then
    ok ((List.range 4).foldl (fun s q => sqPump q [] s) { s with port := { s.port with link := width, rate := rate } })
  else ok s

/-- CQ_HEAD_WRITE (R167, R254): the host has consumed entries. -/
def execCqHeadWrite (q : Fin 5) (head : BitVec 14) (s : State) : Res :=
  if ¬ s.domReady 30 then ok s else ok (s.setHq q.val { s.hq q.val with cqHead := head.toNat })

end Sys2Proof.Machine
end

