-- ==== Sys2Proof/Machine/Audit.lean ====
section
/-!
DEFINITION. The meanings of the collector and the audit units (R235-R263).
-/
namespace Sys2Proof.Machine

/-- The lanes of a die whose oldest post is eligible at `t`, in rotating order from PTR (R236). -/
def eligible (s : State) (d t : Nat) : List Nat :=
  ((List.range 32).map (fun i => 32 * d + (i + (s.aud d).ptr) % 32)).filter (fun l =>
    match (s.lane l).posts with | h :: _ => decide (h.due < t) | [] => false)

/-- Accept one lane's oldest result in LCLK `a` (R237): its record is formed one LCLK later, its header leaves four later. -/
def acceptOne (d a l : Nat) (s : State) : State :=
  let v := s.lane l
  match v.posts with
  | [] => s
  | h :: rest =>
    let s := s.setLane l { v with posts := rest }
    let s := s.setAud d { s.aud d with ptr := (l + 1) % 32 }
    let s := s.bump (0xB380 + d) 1
    let s := audAppend d (a + 1) (audRecord h.kind h.status h.src h.cls h.msgid h.tstamp (a + 1 - h.tstamp) h.lane h.pke h.body.length
      h.epoch) s
    { s with port := { s.port with resLink := s.port.resLink ++ [{ h with due := a + 4 + 12 }] } }

/-- COLLECTOR_ACCEPT (R236, R237, R242): one LCLK of the collector, the first after the last one served at which a post is eligible; up to
eight results in rotating order. -/
def execCollectorAccept (die : Fin 2) (s : State) : Res :=
  let d := die.val
  let dues := (dieLanes d).filterMap (fun l => (s.lane l).posts.head?.map (fun h => h.due))
  match dues with
  | [] => ok s
  | x :: t =>
    let s := s.at (Nat.max (t.foldl Nat.min x + 1) ((s.aud d).served + 1))
    let a := s.dt
    let s := s.setAud d { s.aud d with served := a }
    let es := eligible s d a
    let s := if (s.aud d).pendMax < es.length then (s.setAud d { s.aud d with pendMax := es.length }).noteSet (regKey d 0x0F010000) (2 ^ 13) else s
    ok ((es.take 8).foldl (fun s l => acceptOne d a l s) s)

/-- RH of a block (R246): sixteen streams. -/
def blockHash (recs : List Bytes) : Bytes :=
  sha384 ((List.range 16).flatMap (fun i =>
    sha384 (((List.range recs.length).filter (fun k => decide (k % 16 = i))).flatMap (fun k => recs.getD k []))))

/-- The epoch current at a DT not after now (R247); a unit that outlives a system reset keeps what it was (R256). -/
def epochNumAt (s : State) (d t : Nat) : Nat :=
  match (s.aud d).heldEpoch with
  | some (p, c, last) => if t < last then p else c
  | none =>
    let e := s.unit.epoch
    if t < s.num 0x3000 4 then (match e.prev with | some p => p.num | none => 0) else (match e.cur with | some c => c.num | none => 0)

/-- A block header (R247). -/
def blockHeader (s : State) (d : Nat) (start fin flags : Nat) (recs : List Bytes) (rseq : Nat) : Bytes :=
  let a := s.aud d
  beBytes 0x53564142 4 ++ [1, byte d, byte a.alg, byte flags] ++ serial s ++ beBytes a.bootid 8 ++ beBytes a.bseq 8 ++ beBytes rseq 8 ++
  beBytes recs.length 4 ++ beBytes ((Tab.look [] s.port.foreign d).filter (fun t => decide (t < fin))).length 4 ++ beBytes start 8 ++ beBytes fin 8 ++ blockHash recs ++ a.prev ++
  beBytes (epochNumAt s d fin) 4 ++
  beBytes (((a.undeliv.filter (fun u => decide (u.1 < fin))).map (fun u => u.2)).foldl (· + ·) 0) 4 ++ zeros 24

/-- Cut and close the open block at `fin` (R245-R247): the header enters the stream, and the next block opens. -/
def closeBlock (d fin due flags : Nat) (s : State) : State :=
  let a := s.aud d
  let mine := a.recs.filter (fun r => decide (r.1 < fin))
  let later := a.recs.filter (fun r => decide (fin ≤ r.1))
  let recs := mine.map (fun r => r.2)
  let rseq := a.nrec - a.recs.length
  let flags := flags + (if a.bseq = 0 then 1 else 0) + (if a.corerst.any (fun t => decide (t < fin)) then 2 else 0)
  let h := blockHeader s d a.start fin flags recs rseq
  let b : AudBlock := { bseq := a.bseq, rseq := rseq, start := a.start, fin := fin, due := due, records := recs, header := h, written := true }
  let s := s.setAud d { a with bseq := a.bseq + 1, start := fin, recs := later, prev := sha384 h,
                               corerst := a.corerst.filter (fun t => decide (fin ≤ t)), undeliv := a.undeliv.filter (fun u => decide (fin ≤ u.1)),
                               lastCut := due, pendBlocks := a.pendBlocks ++ [b] }
  let s := { s with port := { s.port with foreign := Tab.put [] s.port.foreign d ((Tab.look [] s.port.foreign d).filter (fun t => decide (fin ≤ t))) } }
  let s := audStream d 1 b.bseq h s
  ((s.setNum (0x3801 + d) 1 b.bseq).setEnt (0x3801 + d) 3 h).bump (0xB380 + d) 3

/-- Release the signing job of a block (R215, R250, R252): on the die's audit engine, or STATUS 1 where none serves. -/
def signBlock (d : Nat) (b : AudBlock) (t : Nat) (s : State) : State :=
  let pd := (s.dom (9 + d)).st
  match (if pd = .retry ∨ pd = .fenced then none else audEngine s d) with
  | none => audSigned d b.bseq 1 0 [] s
  | some e =>
    let n := s.node 0x101
    let key := (s.run n.slot).key
    let alg := (s.aud d).alg
    let j : PkJob := { kind := 2, ref := b.bseq, pkop := audPkop alg, rem := audWork alg, rel := t, dl := t + us (s.cfg 0x3002 1),
                       arr := some t, keyAt := some t, rls := some t, oper := b.header,
                       key := some { key := key, ktype := n.ktype, use_ := 2 ^ 8 } }
    pkKick e t (pkAdd e j s)

/-- The boundary at which the open block closes (R245, R263): the first whose END lies after START, and that does not lie before both domains are on again. -/
def nextBoundary (s : State) (d : Nat) : Nat :=
  let i := audI s d
  let on := Nat.max (s.dom (7 + d)).onAt (s.dom (9 + d)).onAt
  Nat.max (((s.aud d).start + 1024) / i * i + i) (ceilDiv on i * i)

/-- AUDIT_BLOCK_CLOSE (R245, R252, R263). -/
def execAuditBlockClose (die : Fin 2) (s : State) : Res :=
  let d := die.val
  let a := s.aud d
  if ¬ a.run ∨ a.interval = 0 ∨ a.sysHold ∨ a.erased ∨ ¬ audDomains s d then ok s
  else
    let b := nextBoundary s d
    let s := closeBlock d (b - 1024) b 0 (s.at b)
    match (s.aud d).pendBlocks.reverse with
    | k :: _ => ok (signBlock d k b s)
    | [] => ok s

/-- The bytes of the next entry (R253): up to 48 with rising offsets without a gap; whether it completes a signature item, and
the items left. -/
def chunkF : Nat → Bytes → Nat → Bool → List AudItem → Bytes × Bool × List AudItem
  | 0, acc, _, sig, is => (acc, sig, is)
  | _, acc, _, sig, [] => (acc, sig, [])
  | fuel + 1, acc, off, sig, i :: is =>
    if acc.length ≥ 48 ∨ (¬ acc.isEmpty ∧ i.off ≠ off) then (acc, sig, i :: is)
    else
      let n := Nat.min (48 - acc.length) i.bytes.length
      let acc := acc ++ i.bytes.take n
      if n = i.bytes.length then chunkF fuel acc (i.off + n) (sig || decide (i.kind = 2)) is
      else (acc, sig, { i with off := i.off + n, bytes := i.bytes.drop n } :: is)

/-- Write the next chunk of a die's stream (R253): whether it was written. -/
def writeChunk (d : Nat) (s : State) : Bool × State :=
  let a := s.aud d
  match a.items with
  | [] => (false, s)
  | i :: _ =>
    let c := chunkF (a.items.length + 1) [] i.off false a.items
    let w := audEntry d i.off c.1 c.2.1 s
    if w.1 then (true, w.2.setAud d { w.2.aud d with items := c.2.2 }) else w

/-- AUDIT_CHUNK_WRITE (R253): a chunk of 48 bytes, or a shorter one once the flush time has passed since its first byte. -/
def execAuditChunkWrite (die : Fin 2) (s : State) : Res :=
  let d := die.val
  match (s.aud d).items with
  | [] => ok s
  | i :: _ =>
    let c := chunkF ((s.aud d).items.length + 1) [] i.off false (s.aud d).items
    let s := if c.1.length < 48 then s.at (i.at_ + s.cfg 0x3800 3) else s
    ok (writeChunk d s).2

/-- Every port has sent its sweep (R256, R257). -/
def sweepsDone (s : State) : Bool := s.port.srcs.all (fun r => sweepDone r.2)

/-- Write every chunk the ring takes. -/
def drainChunks (d : Nat) : Nat → State → State
  | 0, s => s
  | fuel + 1, s => let r := writeChunk d s; if r.1 then drainChunks d fuel r.2 else r.2

/-- Close a chain (R256, R257): a block already cut keeps its own END, the closing block ends now; every block not yet signed
gets a signature item of `status`. -/
def closeChain (d flag status : Nat) (s : State) : State :=
  let a := s.aud d
  let i := audI s d
  let b := if i = 0 then s.dt + 2048 else (a.start + 1024) / i * i + i
  let s := if b - 1024 ≤ s.dt ∧ a.start < b - 1024 then closeBlock d (b - 1024) b 0 s else s
  let s := closeBlock d s.dt s.dt flag s
  (s.aud d).pendBlocks.foldl (fun s k => if k.signed.isNone then audSigned d k.bseq status 0 [] s else s) s

/-- AUDIT_SYSRESET_CLOSE (R256, R257, R753): once XD's sweep is sent; what the queue does not take is discarded, and the unit resets. -/
def execAuditSysresetClose (die : Fin 2) (s : State) : Res :=
  let d := die.val
  if ¬ (s.aud d).sysHold ∨ ¬ sweepsDone s then ok s
  else
    let s := if ¬ (s.aud d).run then s else if (s.aud d).erased then closeChain d 4 2 s else closeChain d 8 3 s
    let s := s.setAud d { s.aud d with items := (s.aud d).items.filter (fun i => decide (i.kind ≠ 0)) }
    let s := drainChunks d 40000 s
    let s := s.setAud d {}
    let s := { s with port := { s.port with foreign := Tab.put [] s.port.foreign d [] } }
    ok (if (s.aud (1 - d)).sysHold then s else s.setHq 4 {})

/-- AUDIT_ERASE_CLOSE (R257): once XD's sweep is complete; no further block until the next chain. -/
def execAuditEraseClose (die : Fin 2) (s : State) : Res :=
  let d := die.val
  if ¬ (s.aud d).erased ∨ ¬ (s.aud d).run ∨ ¬ sweepsDone s then ok s
  else
    let s := closeChain d 4 2 s
    ok (s.setAud d { s.aud d with run := false })

end Sys2Proof.Machine
end

