-- ==== Sys2Proof/Machine/Classifier.lean ====
section
/-!
DEFINITION. The classifier: contexts and the 29 instructions (R135-R150). An instruction command names the instruction that a
context issues at its program counter, with its fields; the model fetches no classifier word (log entry 20).
-/
namespace Sys2Proof.Machine

/-- A context. -/
def State.ctx (s : State) (p c : Nat) : Ctx := Tab.look {} (s.src p).ctxs c
/-- Set a context. -/
def State.setCtx (s : State) (p c : Nat) (x : Ctx) : State :=
  let r := s.src p
  s.setSrc p { r with ctxs := Tab.put {} r.ctxs c x }

/-- The image header values: code words, rules, format tables (R146). -/
def imgNCode (img : Bytes) : Nat := beNat (slice img 6 2)
def imgNRule (img : Bytes) : Nat := beNat (slice img 8 2)
def imgRule (img : Bytes) (i : Nat) : Bytes := slice img (32 + 4 * imgNCode img + 12 * i) 12
def imgFormat (img : Bytes) (t i : Nat) : Nat :=
  beNat (slice img (32 + 4 * imgNCode img + 12 * imgNRule img + 384 * t + 2 * (i - 1)) 2)

/-- The image a message runs (R151). -/
def ctxImage (s : State) (m : Msg) : Bytes := (clsImage s (msgCfg s m) m.src).getD []

/-- Cb, or 0 where B is 0 (R140). -/
def cbOr0 (x : Ctx) (b : Nat) : Nat := if b = 0 then 0 else (Tab.look 0 x.regs b).toNat
/-- A register C0-C7. -/
def Ctx.c (x : Ctx) (i : Nat) : Nat := (Tab.look 0 x.regs i).toNat
/-- Set a register. -/
def Ctx.setC (x : Ctx) (i v : Nat) : Ctx := { x with regs := Tab.put 0 x.regs i (word v) }

/-- What an instruction does: go on at a program counter, end the program with FORMAT or another end. -/
inductive ClsEnd where
  | next (x : Ctx)
  | format (x : Ctx)
  | emit
  | reject (st : Nat)
  | drop
  deriving DecidableEq, Repr

/-- The identifier a message carries so far (R149). -/
def Ctx.id (x : Ctx) (m : Msg) : Nat := x.setid.getD m.baseId

/-- The descriptor a context completes (R148-R150). -/
def descOf (s : State) (m : Msg) (x : Ctx) (cls : Nat) : Desc :=
  let e := msgCfg s m
  let rel := match x.rel with
    | some r => some r
    | none => if m.dl ≠ 0 then some m.dl else none
  { cls := cls, src := m.src, dlset := rel.isSome, walked := x.walk.isSome, epoch := m.epoch, msgid := x.id m,
    tstamp := m.tstamp, deadline := m.tstamp + us (rel.getD (EpochCfg.val s e (0x3100 + cls) 5)), msglen := m.body.length,
    fieldmask := x.fieldmask, keymask := x.keymask, keyref := x.keyref, field := x.field }

/-- A context ends: its place in the release order is filled, ready at `at_`, and it is free from `free` on (R136). -/
def endCtx (p c : Nat) (st : Stand) (at_ free : Nat) (s : State) : State :=
  let r := s.src p
  let s := s.setSrc p { r with
    ctxs := Tab.put {} r.ctxs c { freeAt := free }
    line := r.line.map (fun e => if e.st = .inCtx c then { e with st := st, readyAt := at_ } else e) }
  flushLine p s

/-- Execute one instruction of `cost` XCLK in a context (R136, R138-R140). A context that is free executes nothing; one whose
stop time the instruction's end would pass retires nothing and is left for CLASSIFIER_STOP. A program that runs past its last word ends as if by
REJECT FORMAT. -/
def clsStep (i : ClsI) (cost : State → Msg → Ctx → Nat) (f : State → Msg → Ctx → ClsEnd) (s : State) : State :=
  let p := i.src.val
  let c := i.ctx.val
  let x := s.ctx p c
  match x.msg with
  | none => s
  | some m =>
    let t := x.t + xclk (cost s m x)
    let cls := x.cls.getD 0
    if t > x.stop then s
    else match f s m x with
    | .next y =>
      let y := { y with t := t, pc := y.pc + 1 }
      if y.pc ≥ imgNCode (ctxImage s m) then endCtx p c (.self tFORMAT (y.cls.getD 0) (y.id m)) t (t + xclk 1) s
      else s.setCtx p c y
    | .format y => endCtx p c (.self tFORMAT (y.cls.getD 0) (y.id m)) t (t + xclk 1) s
    | .reject st => endCtx p c (.self st cls (x.id m)) t (t + xclk 1) s
    | .drop => (endCtx p c .gone t (t + xclk 1) s).pstat p 0x0C
    | .emit =>
      match x.cls with
      | none => endCtx p c (.self tFORMAT 0 (x.id m)) t (t + xclk 1) s
      | some k => endCtx p c (.desc (descOf s m x k)) (t + xclk 4) (t + xclk 4) s

/-- A cost that depends on nothing. -/
def costs (n : Nat) (_ : State) (_ : Msg) (_ : Ctx) : Nat := n

/-- Load `n` message bytes at (Cb, or 0) + IMM[15:0] (R139, R140). -/
def clsLoad (i : ClsI) (n : Nat) (_ : State) (m : Msg) (x : Ctx) : ClsEnd :=
  let a := cbOr0 x i.b.val + i.imm.toNat % 2 ^ 16
  if a + n ≤ m.body.length then .next (x.setC i.a.val (beNat (slice m.body a n))) else .format x

/-- A register result. -/
def clsSet (i : ClsI) (v : Ctx → Nat) (_ : State) (_ : Msg) (x : Ctx) : ClsEnd := .next (x.setC i.a.val (v x % 2 ^ 32))

/-- A forward skip of IMM[8:0] instructions (R140). -/
def clsSkip (i : ClsI) (cond : Nat → Nat → Bool) (_ : State) (_ : Msg) (x : Ctx) : ClsEnd :=
  .next (if cond (x.c i.a.val) (x.c i.b.val) then { x with pc := x.pc + i.imm.toNat % 512 } else x)

/-- NOP (R140). -/
def execClsNop (i : ClsI) (s : State) : Res := ok (clsStep i (costs 1) (fun _ _ x => .next x) s)
/-- LDB (R140). -/
def execClsLdb (i : ClsI) (s : State) : Res := ok (clsStep i (costs 1) (clsLoad i 1) s)
/-- LDH (R140). -/
def execClsLdh (i : ClsI) (s : State) : Res := ok (clsStep i (costs 1) (clsLoad i 2) s)
/-- LDW (R140). -/
def execClsLdw (i : ClsI) (s : State) : Res := ok (clsStep i (costs 1) (clsLoad i 4) s)

/-- Offset:length of a walked field, 0 if absent or not walked. -/
def walkedOf (x : Ctx) (k : Nat) : Nat × Nat := match x.walk with | some w => Tab.look (0, 0) w k | none => (0, 0)

/-- LDF (R140). -/
def execClsLdf (i : ClsI) (s : State) : Res :=
  ok (clsStep i (costs 1) (clsSet i (fun x => let w := walkedOf x (i.imm.toNat % 256); w.1 % 2 ^ 16 * 2 ^ 16 + w.2)) s)

/-- NUM and NUMB (R139, R140): IMM[19:16] + 1 digits at (Cb, or 0) + IMM[15:0]. -/
def clsNum (i : ClsI) (bcd : Bool) (_ : State) (m : Msg) (x : Ctx) : ClsEnd :=
  let n := i.imm.toNat / 2 ^ 16 + 1
  let a := cbOr0 x i.b.val + i.imm.toNat % 2 ^ 16
  let len := if bcd then (n + 1) / 2 else n
  if a + len > m.body.length then .format x
  else
    let bs := slice m.body a len
    if bcd then
      let ds := (nibbles bs).take n
      if ds.all (fun d => decide (d ≤ 9)) then .next (x.setC i.a.val (decNat ds % 2 ^ 32)) else .format x
    else
      match asciiDigits bs with
      | some ds => .next (x.setC i.a.val (decNat ds % 2 ^ 32))
      | none => .format x

/-- NUM (R140). -/
def execClsNum (i : ClsI) (s : State) : Res := ok (clsStep i (costs 2) (clsNum i false) s)
/-- NUMB (R140). -/
def execClsNumb (i : ClsI) (s : State) : Res := ok (clsStep i (costs 2) (clsNum i true) s)
/-- MOVI (R140). -/
def execClsMovi (i : ClsI) (s : State) : Res := ok (clsStep i (costs 1) (clsSet i (fun _ => i.imm.toNat)) s)
/-- MOVHI (R140): bits [31:20] replaced. -/
def execClsMovhi (i : ClsI) (s : State) : Res :=
  ok (clsStep i (costs 1) (clsSet i (fun x => i.imm.toNat % 2 ^ 12 * 2 ^ 20 + x.c i.a.val % 2 ^ 20)) s)
/-- ADD (R140). -/
def execClsAdd (i : ClsI) (s : State) : Res := ok (clsStep i (costs 1) (clsSet i (fun x => cbOr0 x i.b.val + i.imm.toNat)) s)
/-- ADDR (R140). -/
def execClsAddr (i : ClsI) (s : State) : Res := ok (clsStep i (costs 1) (clsSet i (fun x => x.c i.a.val + x.c i.b.val)) s)
/-- AND (R140). -/
def execClsAnd (i : ClsI) (s : State) : Res := ok (clsStep i (costs 1) (clsSet i (fun x => x.c i.b.val &&& i.imm.toNat)) s)
/-- OR (R140). -/
def execClsOr (i : ClsI) (s : State) : Res := ok (clsStep i (costs 1) (clsSet i (fun x => x.c i.b.val ||| i.imm.toNat)) s)
/-- SHR (R140). -/
def execClsShr (i : ClsI) (s : State) : Res :=
  ok (clsStep i (costs 1) (clsSet i (fun x => x.c i.b.val >>> (i.imm.toNat % 32))) s)
/-- SHL (R140). -/
def execClsShl (i : ClsI) (s : State) : Res :=
  ok (clsStep i (costs 1) (clsSet i (fun x => x.c i.b.val <<< (i.imm.toNat % 32))) s)
/-- BEQ (R140). -/
def execClsBeq (i : ClsI) (s : State) : Res := ok (clsStep i (costs 1) (clsSkip i (fun a b => decide (a = b))) s)
/-- BNE (R140). -/
def execClsBne (i : ClsI) (s : State) : Res := ok (clsStep i (costs 1) (clsSkip i (fun a b => decide (a ≠ b))) s)
/-- BLT (R140). -/
def execClsBlt (i : ClsI) (s : State) : Res := ok (clsStep i (costs 1) (clsSkip i (fun a b => decide (a < b))) s)
/-- BGE (R140). -/
def execClsBge (i : ClsI) (s : State) : Res := ok (clsStep i (costs 1) (clsSkip i (fun a b => decide (b ≤ a))) s)

/-- An uppercase ASCII hexadecimal character (R142). -/
def hexVal (b : Byte) : Option Nat :=
  let n := b.toNat
  if 0x30 ≤ n ∧ n ≤ 0x39 then some (n - 0x30) else if 0x41 ≤ n ∧ n ≤ 0x46 then some (n - 0x41 + 10) else none

/-- Read a bitmap at an offset: 64 bits and the offset after it (R141, R142). -/
def readBitmap (body : Bytes) (off : Nat) (hex : Bool) : Option (Nat × Nat) :=
  if hex then
    let cs := slice body off 16
    if cs.length < 16 then none
    else
      match cs.mapM hexVal with
      | some ds => some (ds.foldl (fun a d => a * 16 + d) 0, off + 16)
      | none => none
  else
    let bs := slice body off 8
    if bs.length < 8 then none else some (beNat bs, off + 8)

/-- Bit `k` (1-64) of a bitmap, bit 1 the most significant. -/
def bmBit (v k : Nat) : Bool := v.testBit (64 - k)

/-- Decimal value of a length prefix in its encoding (R143): the value and the prefix's bytes. -/
def lenPrefix (body : Bytes) (off kind lenc : Nat) : Option (Nat × Nat) :=
  let n := kind + 1
  if lenc = 0 then
    let bs := slice body off n
    if bs.length < n then none else (asciiDigits bs).map (fun ds => (decNat ds, n))
  else
    let w := if kind = 1 then 1 else 2
    let bs := slice body off w
    if bs.length < w then none
    else if lenc = 1 then
      let ds := nibbles bs
      if ds.all (fun d => decide (d ≤ 9)) then some (decNat ds, w) else none
    else some (beNat bs, w)

/-- One field's data (R142, R143): its offset, the bytes it occupies, or none where the walk fails. -/
def fieldAt (body : Bytes) (entry off : Nat) : Option (Nat × Nat) :=
  let kind := entry / 2 ^ 14 % 4
  let lenc := entry / 2 ^ 12 % 4
  let unit := bit entry 11
  let len := entry % 2 ^ 11
  if len = 0 then none
  else
    let r := if kind = 0 then some (len, 0) else lenPrefix body off kind lenc
    match r with
    | none => none
    | some (v, w) =>
      if v > len then none
      else
        let n := if unit then (v + 1) / 2 else v
        if off + w + n ≤ body.length then some (off + w, n) else none

/-- A field's bit in the bitmaps read so far (R141): `tert` is the tertiary bitmap once read. -/
def fieldPresent (prim sec : Nat) (tert : Option Nat) (k : Nat) : Bool :=
  if k ≤ 64 then bmBit prim k else if k ≤ 128 then bmBit sec (k - 64) else match tert with | some t => bmBit t (k - 128) | none => false

/-- What a bitmap walk found (R141, R142): the walked fields, or none where it fails; the present fields up to the last of interest; the bitmaps read. -/
structure BmWalk where
  fields : Option (Tab (Nat × Nat))
  present : Nat
  maps : Nat
  deriving DecidableEq, Repr

/-- The present fields up to the last of interest in the bitmaps read (R142); bits 1 and 65 that mark bitmaps are none. -/
def countPresent (prim sec : Nat) (tert : Option Nat) (useTert : Bool) (last : Nat) : Nat :=
  ((List.range (last + 1)).filter (fun k => decide (2 ≤ k) && ! (decide (k = 65) && useTert) && fieldPresent prim sec tert k)).length

/-- Walk the fields `k`, `k + 1`, ... in ascending order (R141). A walk that fails has the cost of its bitmaps and of the fields they mark (R142; DEDUCED,
log entry 89). -/
def walkFields (body : Bytes) (img : Bytes) (table last : Nat) (hex useTert : Bool) (prim sec : Nat) :
    Nat → Nat → Nat → Option Nat → Tab (Nat × Nat) → Nat → BmWalk
  | 0, _, _, tert, w, b => ⟨some w, countPresent prim sec tert useTert last, b⟩
  | fuel + 1, k, off, tert, w, b =>
    let n := countPresent prim sec tert useTert last
    if k > last then ⟨some w, n, b⟩
    else if ¬ fieldPresent prim sec tert k ∨ k = 1 then walkFields body img table last hex useTert prim sec fuel (k + 1) off tert w b
    else if k = 65 ∧ useTert then
      match readBitmap body off hex with
      | none => ⟨none, n, b + 1⟩
      | some (t, off') => walkFields body img table last hex useTert prim sec fuel (k + 1) off' (some t) w (b + 1)
    else
      match fieldAt body (imgFormat img table k) off with
      | none => ⟨none, n, b⟩
      | some (o, l) =>
        walkFields body img table last hex useTert prim sec fuel (k + 1) (o + l) tert (Tab.put (0, 0) w k (o, l)) b

/-- The bitmap walk of BMW (R141, R142). -/
def bmwWalk (body img : Bytes) (off imm : Nat) : BmWalk :=
  let hex := bit imm 9
  let last := imm % 256
  match readBitmap body off hex with
  | none => ⟨none, 0, 1⟩
  | some (prim, o1) =>
    if bmBit prim 1 then
      match readBitmap body o1 hex with
      | none => ⟨none, countPresent prim 0 none (bit imm 10) last, 2⟩
      | some (sec, o2) => walkFields body img (bits imm 8 8) last hex (bit imm 10) prim sec 200 2 o2 none [] 2
    else walkFields body img (bits imm 8 8) last hex (bit imm 10) prim 0 200 2 o1 none [] 1

/-- BMW (R141-R143): 2 XCLK, one for each bitmap and one for each present field. -/
def execBmw (i : ClsI) (s : State) : Res :=
  let walk (s : State) (m : Msg) (x : Ctx) := bmwWalk m.body (ctxImage s m) (x.c i.b.val) i.imm.toNat
  ok (clsStep i (fun s m x => let w := walk s m x; 2 + w.maps + w.present)
    (fun s m x =>
      let w := walk s m x
      match w.fields with
      | some fs => .next ({ x with walk := some fs }.setC i.a.val w.present)
      | none => .format x) s)

/-- RULE (R144): the lowest-numbered entry whose masked key matches. -/
def execRule (i : ClsI) (s : State) : Res :=
  ok (clsStep i (costs 2) (fun s m x =>
    let img := ctxImage s m
    let key := x.c i.b.val
    match (List.range (imgNRule img)).find? (fun k =>
        let r := imgRule img k
        decide (key &&& beNat (slice r 4 4) = beNat (slice r 0 4))) with
    | some k => .next ({ x with cls := some (byteAt (imgRule img k) 8).toNat }.setC i.a.val k)
    | none => .next (x.setC i.a.val (2 ^ 32 - 1))) s)

/-- SETC (R140). -/
def execSetc (i : ClsI) (s : State) : Res :=
  ok (clsStep i (costs 1) (fun _ _ x => .next { x with cls := some (i.imm.toNat % 256) }) s)

/-- SETDL (R140): 0, or above 1,048,575, ends the program with FORMAT. -/
def execSetdl (i : ClsI) (s : State) : Res :=
  ok (clsStep i (costs 1) (fun _ _ x =>
    let v := if i.b.val ≠ 0 then x.c i.b.val else i.imm.toNat
    if v = 0 ∨ v > 1048575 then .format x else .next { x with rel := some v }) s)

/-- SETF (R140). -/
def execSetf (i : ClsI) (s : State) : Res :=
  ok (clsStep i (costs 1) (fun _ _ x =>
    let n := i.imm.toNat / 2 ^ 16
    let v := if bit i.imm.toNat 15 then (x.c i.b.val / 2 ^ 16, x.c i.b.val % 2 ^ 16) else walkedOf x (i.imm.toNat % 256)
    .next { x with field := Tab.put (0, 0) x.field n v, fieldmask := x.fieldmask ||| 2 ^ n }) s)

/-- SETK (R139, R140). -/
def execSetk (i : ClsI) (s : State) : Res :=
  ok (clsStep i (costs 1) (fun _ m x =>
    let k := i.imm.toNat % 4
    let o := x.c i.a.val / 2 ^ 16
    let l := x.c i.a.val % 2 ^ 16
    if l > 32 ∨ o + l > m.body.length then .format x
    else .next { x with keyref := Tab.put {} x.keyref k ⟨x.c i.b.val % 2 ^ 18, o, l⟩, keymask := x.keymask ||| 2 ^ k }) s)

/-- SETID (R139, R140). -/
def execSetid (i : ClsI) (s : State) : Res :=
  ok (clsStep i (costs 1) (fun _ m x =>
    let o := x.c i.a.val / 2 ^ 16
    let l := x.c i.a.val % 2 ^ 16
    if l = 0 ∨ l > 8 ∨ o + l > m.body.length then .format x
    else .next { x with setid := some (beNat (slice m.body o l)) }) s)

/-- EMIT (R135, R140, R148, R155). -/
def execEmit (i : ClsI) (s : State) : Res := ok (clsStep i (costs 1) (fun _ _ _ => .emit) s)

/-- REJECT (R140): FORMAT or POLICY; any other value is answered FORMAT. -/
def execReject (i : ClsI) (s : State) : Res :=
  ok (clsStep i (costs 1) (fun _ _ _ => .reject (if i.imm.toNat % 256 = tPOLICY then tPOLICY else tFORMAT)) s)

/-- DROP (R140). -/
def execDrop (i : ClsI) (s : State) : Res := ok (clsStep i (costs 1) (fun _ _ _ => .drop) s)

/-- CLASSIFIER_CONTEXT_START (R135): the first waiting message takes the context that is free first. -/
def execClassifierContextStart (src : Fin 36) (s : State) : Res :=
  let p := src.val
  let r := s.src p
  match r.line.find? (fun e => decide (e.st = .waiting)) with
  | none => ok s
  | some e =>
    let free := (List.range 8).filter (fun c => decide ((s.ctx p c).msg = none))
    match free with
    | [] => ok s
    | c0 :: rest =>
      -- the earliest instant at which some context is free, then the lowest-numbered of those
      let t := rest.foldl (fun a c => Nat.min a (s.ctx p c).freeAt) (s.ctx p c0).freeAt
      let at_ := Nat.max t e.msg.rel
      match free.find? (fun c => decide ((s.ctx p c).freeAt ≤ at_)) with
      | some c => ok (startCtx p c e.msg at_ s)
      | none => ok s

/-- CLASSIFIER_STOP (R136): at its stop time a context that has not ended is stopped and the port answers OVERRUN. A context
whose instructions have not yet reached the stop time is not stopped before it. -/
def execClassifierStop (src : Fin 36) (ctx : Fin 8) (s : State) : Res :=
  let p := src.val
  let c := ctx.val
  let x := s.ctx p c
  match x.msg with
  | none => ok s
  | some m => ok ((endCtx p c (.self tOVERRUN (x.cls.getD 0) (x.id m)) x.stop (x.stop + xclk 1) s).pstat p 0x10)

end Sys2Proof.Machine
end

