-- ==== Sys2Proof/Machine/Flags.lean ====
section
/-!
DEFINITION. The flags and conditions of Clove's integer instructions (R331-R334).
-/
namespace Sys2Proof.Machine

/-- A result with the flags C and V. -/
structure Sum where
  r : Word
  c : Bool
  v : Bool
  deriving DecidableEq, Repr

/-- An addition with carry in (R331, R332): C is the carry out of bit 31, V a signed overflow. -/
def addFlags (a b : Word) (cin : Bool) : Sum :=
  let n := a.toNat + b.toNat + b2n cin
  let i := a.toInt + b.toInt + (b2n cin : Int)
  ⟨BitVec.ofNat 32 n, decide (2 ^ 32 ≤ n), decide (i < -(2 ^ 31) ∨ 2 ^ 31 ≤ i)⟩

/-- A subtraction with borrow in (R331, R332): C is 1 exactly when a borrow occurs, V a signed overflow. -/
def subFlags (a b : Word) (bin : Bool) : Sum :=
  let i := a.toInt - b.toInt - (b2n bin : Int)
  ⟨a - b - BitVec.ofNat 32 (b2n bin), decide (a.toNat < b.toNat + b2n bin), decide (i < -(2 ^ 31) ∨ 2 ^ 31 ≤ i)⟩

/-- The comparison conditions (R334). -/
def condHolds (cond : Nat) (a b : Word) (c v : Bool) : Bool :=
  match cond with
  | 0 => decide (a = b)
  | 1 => decide (a ≠ b)
  | 2 => BitVec.slt a b
  | 3 => ! BitVec.slt a b
  | 4 => BitVec.ult a b
  | 5 => ! BitVec.ult a b
  | 6 => BitVec.slt b a
  | 7 => ! BitVec.slt b a
  | 8 => BitVec.ult b a
  | 9 => ! BitVec.ult b a
  | 10 => decide (a &&& b ≠ 0)
  | 11 => decide (a &&& b = 0)
  | 12 => c
  | 13 => ! c
  | 14 => v
  | _ => ! v

/-- The second operand of CMPI (R334): sign-extended for COND 0-3, 6 and 7, else zero-extended. -/
def cmpiOperand (cond : Nat) (imm : Nat) : Word :=
  let b : Byte := BitVec.ofNat 8 imm
  if cond ≤ 3 ∨ cond = 6 ∨ cond = 7 then b.signExtend 32 else b.zeroExtend 32

/-- Leading zeros of a word, 0-32 (R331 CLZ). -/
def clz (a : Word) : Nat := if a = 0 then 32 else 31 - Nat.log2 a.toNat

/-- Byte order reversed (R331 BSWAP). -/
def bswap (a : Word) : Word := BitVec.ofNat 32 (beNat (beBytes a.toNat 4).reverse)

/-- The ALU functions that leave FL unchanged (R331): `p` is P[PS] of SEL. -/
def aluPlain (f : Nat) (a b : Word) (p : Bool) : Word :=
  let n := b.toNat % 32
  match f with
  | 0x04 => a &&& b
  | 0x05 => a ||| b
  | 0x06 => a ^^^ b
  | 0x07 => a &&& ~~~b
  | 0x08 => a <<< n
  | 0x09 => a >>> n
  | 0x0A => a.sshiftRight n
  | 0x0B => a.rotateRight n
  | 0x0C => if BitVec.slt a b then a else b
  | 0x0D => if BitVec.slt a b then b else a
  | 0x0E => if BitVec.ult a b then a else b
  | 0x0F => if BitVec.ult a b then b else a
  | 0x10 => a * b
  | 0x11 => BitVec.ofInt 32 (a.toInt * b.toInt / 2 ^ 32)
  | 0x12 => BitVec.ofNat 32 (a.toNat * b.toNat / 2 ^ 32)
  | 0x13 => if b = 0 then BitVec.ofNat 32 (2 ^ 32 - 1) else BitVec.ofNat 32 (a.toNat / b.toNat)
  | 0x14 => if b = 0 then a else BitVec.ofNat 32 (a.toNat % b.toNat)
  | 0x15 => BitVec.ofNat 32 (clz a)
  | 0x16 => BitVec.ofNat 32 (popCount 32 a.toNat)
  | 0x17 => bswap a
  | 0x18 => if p then a else b
  | _ => a

/-- The ALU function's LCLK (R331): products 2, DIVU and REMU 34. -/
def aluTime (f : Nat) : Nat := if f = 0x13 ∨ f = 0x14 then 34 else if 0x10 ≤ f ∧ f ≤ 0x12 then 2 else 1

/-- Bit-field and immediate shifts (R333); `old` is the destination before INS. -/
def shiOp (kind : Nat) (a old : Word) (pos wm1 : Nat) : Word :=
  let w := wm1 + 1
  let mask := 2 ^ w - 1
  match kind with
  | 0 => a <<< pos
  | 1 => a >>> pos
  | 2 => a.sshiftRight pos
  | 3 => a.rotateRight pos
  | 4 => BitVec.ofNat 32 (a.toNat / 2 ^ pos % 2 ^ w)
  | 5 =>
    let f := a.toNat / 2 ^ pos % 2 ^ w
    BitVec.ofInt 32 (if f.testBit wm1 then (f : Int) - (2 ^ w : Nat) else f)
  | _ =>
    let m : Word := BitVec.ofNat 32 (mask * 2 ^ pos)
    (old &&& ~~~m) ||| (BitVec.ofNat 32 (a.toNat % 2 ^ w * 2 ^ pos) &&& m)

end Sys2Proof.Machine
end

