-- ==== Sys2Proof/Machine/CoreEnc.lean ====
section
/-!
DEFINITION. Clove's operations as a core runs them, read from an instruction word by the encoding tables (R327-R330, R361, R382), and
the words that are illegal.
-/
namespace Sys2Proof.Machine

/-- A Clove operation: opcode group and operand fields (R328, R329, R361). Registers, FN, KIND, SUB and immediates are the
fields' numbers; a pair (register, bank select) names an address operand. -/
inductive COp where
  | nop
  | trap (info : Nat)
  | wbsync
  | eret
  | wait
  | alu (f rd rs1 rs2 ps : Nat)
  | immOp (f rd rs1 imm : Nat)
  | shi (kind rd rs1 pos wm1 : Nat)
  | movi (rd imm : Nat)
  | movh (rd imm : Nat)
  | cmp (pd pdn cond rs1 rs2 : Nat)
  | cmpi (pd pdn cond rs1 imm : Nat)
  | plog (fn pd pa pb : Nat) (na nb : Bool)
  | ld (d a sz : Nat) (bsel : Bool) (mode : Nat) (sx : Bool) (off : Nat)
  | st (d a sz : Nat) (bsel : Bool) (mode off : Nat)
  | aop (fn a opnd : Nat)
  | br (off : Nat)
  | call (off : Nat)
  | jmp (fn ds : Nat)
  | loop (ds off : Nat)
  | loopi (count off : Nat)
  | stk (fn reg : Nat)
  | stkm (fn mask : Nat)
  | mac (fn ac ds dt imm : Nat)
  | cr (mtc : Bool) (d cr : Nat)
  | cry (tdes : Bool) (fn k : Nat) (sa : Nat × Bool) (da : Nat × Bool) (dn pd : Nat)
  | hash (fn : Nat) (first last : Bool) (sa da : Nat × Bool) (dn : Nat)
  | saf (sop ki ko : Nat) (sa da : Nat × Bool) (dx : Nat)
  | kchk (pd pdn k : Nat)
  | msg (fn : Nat) (sa da : Nat × Bool) (dn pd : Nat)
  | pksub (sa : Nat × Bool) (dn : Nat)
  | post (ds dt : Nat)
  | cu (u ra rb rc imm : Nat)
  deriving DecidableEq, Repr

/-- `o` where `c` holds. -/
def COp.onlyIf (c : Bool) (o : COp) : Option COp := if c then some o else none

/-- Read OP 0x00-0x0B (R328, R329): none where a reserved value or a field shown as 0 makes the word illegal. -/
def decodeLow (op w : Nat) : Option COp :=
  let f := bits w
  match op with
  | 0x00 =>
    match f 21 16 with
    | 0 => COp.onlyIf (decide (f 15 0 = 0)) .nop
    | 1 => COp.onlyIf (decide (f 15 8 = 0)) (.trap (f 7 0))
    | 2 => COp.onlyIf (decide (f 15 0 = 0)) .wbsync
    | 4 => COp.onlyIf (decide (f 15 0 = 0)) .eret
    | 5 => COp.onlyIf (decide (f 15 0 = 0)) .wait
    | _ => none
  | 0x01 =>
    let fn := f 5 0
    let one := decide (0x15 ≤ fn ∧ fn ≤ 0x17) || decide (fn = 0x19)
    COp.onlyIf (decide (fn ≤ 0x19 ∧ f 9 9 = 0) && (decide (fn = 0x18) || decide (f 8 6 = 0)) && (! one || decide (f 13 10 = 0)))
      (.alu fn (f 21 18) (f 17 14) (f 13 10) (f 8 6))
  | 0x02 => some (.immOp 0 (f 21 18) (f 17 14) (f 13 0))
  | 0x03 => some (.immOp 1 (f 21 18) (f 17 14) (f 13 0))
  | 0x04 => some (.immOp 2 (f 21 18) (f 17 14) (f 13 0))
  | 0x05 => some (.immOp 3 (f 21 18) (f 17 14) (f 13 0))
  | 0x06 =>
    COp.onlyIf (decide (f 13 11 ≠ 7 ∧ f 0 0 = 0) && (decide (4 ≤ f 13 11) || decide (f 5 1 = 0)))
      (.shi (f 13 11) (f 21 18) (f 17 14) (f 10 6) (f 5 1))
  | 0x07 => some (.movi (f 21 18) (f 17 0))
  | 0x08 => COp.onlyIf (decide (f 17 16 = 0)) (.movh (f 21 18) (f 15 0))
  | 0x09 => COp.onlyIf (decide (f 3 0 = 0)) (.cmp (f 21 19) (f 18 16) (f 15 12) (f 11 8) (f 7 4))
  | 0x0A => some (.cmpi (f 21 19) (f 18 16) (f 15 12) (f 11 8) (f 7 0))
  | _ =>
    COp.onlyIf (decide (f 10 8 ≤ 3 ∧ f 7 0 = 0) && (decide (f 10 8 ≠ 3) || decide (f 15 13 = 0 ∧ f 11 11 = 0)))
      (.plog (f 10 8) (f 21 19) (f 18 16) (f 15 13) (bit w 12) (bit w 11))

/-- Read OP 0x0C-0x17. -/
def decodeMid (op w : Nat) : Option COp :=
  let f := bits w
  match op with
  | 0x0C => COp.onlyIf (decide (f 14 13 ≠ 3) && (decide (f 11 10 ≠ 3) || decide (f 8 4 = 0)))
      (.ld (f 21 18) (f 17 15) (f 14 13) (bit w 12) (f 11 10) (bit w 9) (f 8 0))
  | 0x0D => COp.onlyIf (decide (f 14 13 ≠ 3 ∧ f 9 9 = 0) && (decide (f 11 10 ≠ 3) || decide (f 8 4 = 0)))
      (.st (f 21 18) (f 17 15) (f 14 13) (bit w 12) (f 11 10) (f 8 0))
  | 0x0E =>
    COp.onlyIf (decide (f 21 19 ≤ 4) && (decide (f 21 19 ≤ 1) || decide (f 11 0 = 0)))
      (.aop (f 21 19) (f 18 16) (if f 21 19 ≤ 1 then f 15 0 else f 15 12))
  | 0x10 => COp.onlyIf (decide (f 21 16 = 0)) (.br (f 15 0))
  | 0x11 => COp.onlyIf (decide (f 21 16 = 0)) (.call (f 15 0))
  | 0x12 => COp.onlyIf (decide (f 21 20 ≤ 2 ∧ f 15 0 = 0) && (decide (f 21 20 ≠ 2) || decide (f 19 16 = 0))) (.jmp (f 21 20) (f 19 16))
  | 0x13 => COp.onlyIf (decide (f 17 16 = 0)) (.loop (f 21 18) (f 15 0))
  | 0x14 => some (.loopi (f 21 10) (f 9 0))
  | 0x15 =>
    let fn := f 21 19
    if fn ≤ 3 then COp.onlyIf (decide (f 18 18 = 0 ∧ f 13 0 = 0) && (decide (fn ≤ 1) || ! bit w 17)) (.stk fn (f 17 14))
    else COp.onlyIf (decide (fn ≤ 5 ∧ f 18 16 = 0)) (.stkm fn (f 15 0))
  | 0x16 =>
    let fn := f 21 19
    let z (hi lo : Nat) := decide (f hi lo = 0)
    COp.onlyIf (match fn with
      | 3 => z 16 0
      | 4 => z 16 9 && z 8 7
      | 5 => z 12 9
      | 6 => z 12 0
      | 7 => z 12 0
      | _ => z 8 0) (.mac fn (f 18 17) (f 16 13) (f 12 9) (f 8 0))
  | 0x17 => COp.onlyIf (decide (f 10 0 = 0)) (.cr (bit w 21) (f 20 17) (f 16 11))
  | _ => none

/-- Read OP 0x21-0x28 (R361) and the custom opcodes (R382). -/
def decodeHigh (op w : Nat) : Option COp :=
  let f := bits w
  match op with
  | 0x21 => COp.onlyIf (decide (f 1 0 = 0)) (.cry false (f 21 19) (f 18 17) (f 16 14, bit w 13) (f 12 10, bit w 9) (f 8 5) (f 4 2))
  | 0x22 => COp.onlyIf (decide (f 1 0 = 0)) (.cry true (f 21 19) (f 18 17) (f 16 14, bit w 13) (f 12 10, bit w 9) (f 8 5) (f 4 2))
  | 0x23 => COp.onlyIf (decide (f 21 19 ≤ 3 ∧ f 4 0 = 0))
      (.hash (f 21 19) (bit w 18) (bit w 17) (f 16 14, bit w 13) (f 12 10, bit w 9) (f 8 5))
  | 0x24 => some (.saf (f 21 16) (f 15 14) (f 13 12) (f 11 9, bit w 8) (f 7 5, bit w 4) (f 3 0))
  | 0x25 => COp.onlyIf (decide (f 13 0 = 0)) (.kchk (f 21 19) (f 18 16) (f 15 14))
  | 0x26 => COp.onlyIf (decide (f 3 0 = 0)) (.msg (f 21 19) (f 18 16, bit w 15) (f 14 12, bit w 11) (f 10 7) (f 6 4))
  | 0x27 => COp.onlyIf (decide (f 13 0 = 0)) (.pksub (f 21 19, bit w 18) (f 17 14))
  | 0x28 => COp.onlyIf (decide (f 13 0 = 0)) (.post (f 21 18) (f 17 14))
  | _ => if 0x30 ≤ op then some (.cu (op - 0x30) (f 21 18) (f 17 14) (f 13 10) (f 9 0)) else none

/-- Read an instruction word (R327): its guard inversion, its guard, and its operation where no reserved value or non-zero 0
field makes it illegal. -/
def decodeWord (w : Nat) : Bool × Nat × Option COp :=
  let op := bits w 27 22
  (bit w 31, bits w 30 28, if op ≤ 0x0B then decodeLow op w else if op ≤ 0x1F then decodeMid op w else decodeHigh op w)

/-- An address operand is no A6 or A7 with its bank select 1 (R315, R361). -/
def selOk (p : Nat × Bool) : Bool := ! p.2 || decide (p.1 < 6)

/-- No instruction names one predicate for both results (R334, R374). -/
def pdOk (pd pdn : Nat) : Bool := decide (pd ≠ pdn ∨ pd = 0)

/-- The rules of legality that depend on the operation's fields alone (R315, R321, R334, R335, R338, R361, R363, R364, R369, R374,
R375). -/
def COp.legal : COp → Bool
  | .cmp pd pdn _ _ _ => pdOk pd pdn
  | .cmpi pd pdn _ _ _ => pdOk pd pdn
  | .ld _ a sz b m _ o => selOk (a, b) && decide (sz ≤ 2) && (decide (m ≠ 3) || decide (o < 16))
  | .st _ a sz b m o => selOk (a, b) && decide (sz ≤ 2) && (decide (m ≠ 3) || decide (o < 16))
  | .loop _ off => decide (off ≠ 0)
  | .loopi _ off => decide (off ≠ 0)
  | .mac fn _ _ _ imm => (decide (fn ≠ 4) || decide (imm ≤ 71)) && (decide (fn ≠ 5) || decide (imm ≤ 2))
  | .cry t fn _ sa da dn pd =>
    let verify := if t then decide (fn = 5 ∨ fn = 7) else decide (fn = 6)
    let ghkey := ! t && decide (fn = 7)
    selOk sa && selOk da && (if verify then decide (pd ≠ 0) else decide (pd = 0)) &&
      (! ghkey || decide (sa = (0, false) ∧ da = (0, false) ∧ dn = 0))
  | .hash _ _ last sa da _ => selOk sa && selOk da && (last || decide (da = (0, false)))
  | .saf _ _ _ sa da _ => selOk sa && selOk da
  | .kchk pd pdn _ => pdOk pd pdn
  | .msg fn sa da _ pd =>
    selOk sa && selOk da && (decide (fn ≠ 1) || decide (sa = (0, false))) &&
      (! [0, 1, 2, 5].contains fn || decide (pd = 0))
  | .pksub sa _ => selOk sa
  | _ => true

/-- The opcodes a micro-op may have (R384). -/
def uopAllowed (op : Nat) : Bool := decide (op ≤ 0x0E) || decide (0x15 ≤ op ∧ op ≤ 0x17) || decide (0x21 ≤ op ∧ op ≤ 0x26)

/-- The operations of a lane only, or of the supervisor only (R395, R396). -/
def COp.forCore (sup : Bool) : COp → Bool
  | .eret => sup
  | .wait => sup
  | .cry .. => ! sup
  | .hash .. => ! sup
  | .saf .. => ! sup
  | .kchk .. => ! sup
  | .pksub .. => ! sup
  | .post .. => ! sup
  | .cu .. => ! sup
  | _ => true

end Sys2Proof.Machine
end

