-- ==== Sys2Proof/Machine/Nvm.lean ====
section
/-!
DEFINITION. The meanings of the MRAM, counter and fuse commands (R775-R794). A command that finds the controller running
another waits (R778); its effect comes about when it starts, and NVM_COMMAND_DONE ends it.
-/
namespace Sys2Proof.Machine

/-- Operation numbers of the controller's jobs: NVM_CTRL.OP, and 16 more for the owner interface. -/
abbrev jobOr (op : Nat) : Nat := 16 + op

/-- End status into an interface. -/
def NvmPort.withErr (p : NvmPort) (e : Nat) : NvmPort := { p with err := e }

/-- READ through NVM_ (R775, R777): LEN bytes from page and offset, on into the following page; past its region, RANGE.
`errs` bit 0: the word at the offset is uncorrectable; bit 1: a single-bit error is corrected and the page rewritten (R776). -/
def runNvmRead (ini errs : Nat) (s : State) : State :=
  let p := s.nvm.base
  let pg := bits p.addr 18 8
  let off := bits p.addr 7 0
  let last := pg + (off + p.len - 1) / 256
  let fin (e : Nat) (buf : Memory) (s : State) : State := { s with nvm := { s.nvm with base := { p with err := e, buf := buf } } }
  if p.len = 0 ∨ 256 < p.len then fin 2 p.buf s
  else if ¬ nvmMayRead ini then fin 1 p.buf s
  else
    match regionOf pg with
    | none => fin 0 (Memory.writeN p.buf 0 (zeros p.len)) s
    | some (_, _, hi) =>
      if hi < last then fin 2 p.buf s
      else
        let s := if bit errs 0 then { s with nvm := { s.nvm with
              badPages := physPage s pg :: s.nvm.badPages, badWords := (32 * physPage s pg + off / 8) :: s.nvm.badWords } }.bump 0x9000 5
          else s
        let s := if bit errs 1 then s.bump 0x9000 6 else s
        let e := if pageIntact s pg ∧ pageIntact s last then 0 else 3
        fin e (Memory.writeN p.buf 0 (mramRead s (256 * pg + off) p.len)) s

/-- WRITE through NVM_ (R775, R777): LEN bytes into one page, wrapping at its end. -/
def runNvmWrite (ini fails : Nat) (s : State) : State :=
  let p := s.nvm.base
  let pg := bits p.addr 18 8
  let off := bits p.addr 7 0
  let fin (e : Nat) (s : State) : State := { s with nvm := { s.nvm with base := s.nvm.base.withErr e } }
  if p.len = 0 ∨ 256 < p.len then fin 2 s
  else
    match regionOf pg with
    | none => fin 1 s
    | some (code, _, _) =>
      if ¬ nvmMayWrite s ini code then fin 1 s
      else
        let r := programPage pg off (Memory.readN p.buf 0 p.len) fails s
        fin r.1 r.2

/-- A counter operation through NVM_ (R785, R792): INCREMENT, RAISE or READ of the counter NVM_ADDR names. -/
def runNvmCounter (op ini fails : Nat) (s : State) : State :=
  let p := s.nvm.base
  let k := bits p.addr 9 0
  let fin (e v : Nat) (s : State) : State :=
    { s with nvm := { s.nvm with base := { s.nvm.base with err := e, cnt := v } } }
  if ¬ nvmMayRead ini then fin 1 p.cnt s
  else if op = 3 then let r := ctrIncrement k fails s; fin r.1 p.cnt r.2
  else if op = 4 then let r := ctrRaise k p.cnt fails s; fin r.1 p.cnt r.2
  else if 3 ≤ k ∧ k ≤ 15 then fin 0 0 s
  else let r := ctrRead k s; fin 0 r.1 r.2

/-- READ of an open region through the owner interface (R784): page 0-7 within the region. -/
def runOrRead (s : State) : State :=
  let p := s.nvm.owner
  let k := orRegion s
  let pg := bits p.addr 18 8
  let off := bits p.addr 7 0
  let fin (e : Nat) (buf : Memory) : State := { s with nvm := { s.nvm with owner := { p with err := e, buf := buf } } }
  if p.len = 0 ∨ 256 < p.len ∨ 7 < pg + (off + p.len - 1) / 256 then fin 2 p.buf
  else
    let pg := 0xF0 + 8 * k + pg
    let last := pg + (off + p.len - 1) / 256
    fin (if pageIntact s pg ∧ pageIntact s last then 0 else 3) (Memory.writeN p.buf 0 (mramRead s (256 * pg + off) p.len))

/-- WRITE of an open region: only while it is unlocked (R784). -/
def runOrWrite (fails : Nat) (s : State) : State :=
  let p := s.nvm.owner
  let k := orRegion s
  let pg := bits p.addr 18 8
  let fin (e : Nat) (s : State) : State := { s with nvm := { s.nvm with owner := s.nvm.owner.withErr e } }
  if ¬ orOpen s k then fin 6 s
  else if p.len = 0 ∨ 256 < p.len ∨ 7 < pg then fin 2 s
  else
    let r := programPage (0xF0 + 8 * k + pg) (bits p.addr 7 0) (Memory.readN p.buf 0 p.len) fails s
    fin r.1 r.2

/-- UNLOCK of an open region (R784): eight failures in a row lock it until system reset. DESIGN CHOICE (log entry 98): an earlier failure
leaves ERR 0; the failure count tells it. -/
def runOrUnlock (s : State) : State :=
  let k := orRegion s
  let g := orGuard s k
  let fin (e : Nat) (s : State) : State := { s with nvm := { s.nvm with owner := s.nvm.owner.withErr e } }
  if g.locked then fin 6 s
  else if s.nvm.owner.pwd = orPassword s k then fin 0 (setOrGuard k { g with unlocked := true, failures := 0 } s)
  else
    let n := g.failures + 1
    fin (if n ≥ 8 then 6 else 0) (setOrGuard k { g with failures := n, locked := decide (n ≥ 8) } s)

/-- LOCK of an open region (R784). -/
def runOrLock (s : State) : State :=
  let k := orRegion s
  let s := setOrGuard k { orGuard s k with unlocked := false } s
  { s with nvm := { s.nvm with owner := s.nvm.owner.withErr 0 } }

/-- The effect of a job of the controller. `fails` holds the error bits of a READ. -/
def runNvmJob (j : NvmJob) (s : State) : State :=
  if j.op = 1 then runNvmRead j.ini j.fails s
  else if j.op = 2 then runNvmWrite j.ini j.fails s
  else if j.op ≤ 5 then runNvmCounter j.op j.ini j.fails s
  else if j.op = jobOr 1 then runOrRead s
  else if j.op = jobOr 2 then runOrWrite j.fails s
  else if j.op = jobOr 3 then runOrUnlock s
  else if j.op = jobOr 4 then runOrLock s
  else if 16 ≤ j.op then { s with nvm := { s.nvm with owner := s.nvm.owner.withErr 2 } }
  else { s with nvm := { s.nvm with base := s.nvm.base.withErr 2 } }

/-- A job of the base interface (rank 2) or the owner interface (rank 3). -/
def isOwnerJob (j : NvmJob) : Bool := decide (16 ≤ j.op)

/-- Set or clear BUSY and GO of a job's interface. -/
def markNvm (j : NvmJob) (busy : Bool) (s : State) : State :=
  let upd (p : NvmPort) (op : Nat) : NvmPort :=
    { p with busy := busy, done := if busy then p.done else true,
             ctrl := if busy then 2 ^ 31 + op * 2 ^ 24 + (if isOwnerJob j then p.ctrl % 2 else 0) else p.ctrl % 2 ^ 31 }
  let s := if busy then s else s.noteSet (regKey 2 (if isOwnerJob j then 0x0F0B800C else 0x0F0B000C)) (2 ^ 30)
  if isOwnerJob j then { s with nvm := { s.nvm with owner := upd s.nvm.owner (j.op - 16) } }
  else { s with nvm := { s.nvm with base := upd s.nvm.base j.op } }

/-- GO with an operation (R778): ignored while the interface is BUSY; run at once where the controller is free. The head of
`waiting` is the job that runs. -/
def startNvm (j : NvmJob) (s : State) : Res :=
  if ¬ s.domReady 4 then ok s                        -- PD04 off: the access stalls or fails under R714, R715
  else if (if isOwnerJob j then s.nvm.owner.busy else s.nvm.base.busy) then ok s
  else
    let s := markNvm j true s
    match s.nvm.waiting with
    | [] => ok (runNvmJob j { s with nvm := { s.nvm with waiting := [j] } })
    | h :: t =>
      let before := t.filter (fun i => decide (i.rank ≤ j.rank))
      let after := t.filter (fun i => decide (j.rank < i.rank))
      ok { s with nvm := { s.nvm with waiting := h :: (before ++ [j] ++ after) } }

/-- NVM_READ (R776, R777): `bad` where the word at the offset is uncorrectable, `corrected` where a single-bit error was. -/
def execNvmRead (ini : Byte) (e : ArrayErrors) (s : State) : Res := startNvm ⟨2, 1, ini.toNat, b2n e.bad + 2 * b2n e.corrected⟩ s
/-- NVM_WRITE (R777). -/
def execNvmWrite (ini : Byte) (fails : Nat) (s : State) : Res := startNvm ⟨2, 2, ini.toNat, fails⟩ s
/-- NVM_COUNTER_INCREMENT (R785). -/
def execNvmCounterIncrement (ini : Byte) (fails : Nat) (s : State) : Res := startNvm ⟨2, 3, ini.toNat, fails⟩ s
/-- NVM_COUNTER_RAISE (R785). -/
def execNvmCounterRaise (ini : Byte) (fails : Nat) (s : State) : Res := startNvm ⟨2, 4, ini.toNat, fails⟩ s
/-- NVM_COUNTER_READ (R792). -/
def execNvmCounterRead (ini : Byte) (s : State) : Res := startNvm ⟨2, 5, ini.toNat, 0⟩ s
/-- NVM_OR_READ (R784). -/
def execNvmOrRead (ini : Byte) (s : State) : Res := startNvm ⟨3, jobOr 1, ini.toNat, 0⟩ s
/-- NVM_OR_WRITE (R784). -/
def execNvmOrWrite (ini : Byte) (fails : Nat) (s : State) : Res := startNvm ⟨3, jobOr 2, ini.toNat, fails⟩ s
/-- NVM_OR_UNLOCK (R784). -/
def execNvmOrUnlock (ini : Byte) (s : State) : Res := startNvm ⟨3, jobOr 3, ini.toNat, 0⟩ s
/-- NVM_OR_LOCK (R784). -/
def execNvmOrLock (ini : Byte) (s : State) : Res := startNvm ⟨3, jobOr 4, ini.toNat, 0⟩ s

/-- NVM_COMMAND_DONE (R778): the running command ends with DONE, and the next waiting one starts. -/
def execNvmCommandDone (s : State) : Res :=
  match s.nvm.waiting with
  | [] => ok s
  | j :: t =>
    let s := markNvm j false { s with nvm := { s.nvm with waiting := t } }
    match t with
    | [] => ok s
    | k :: _ => ok (runNvmJob k s)

/-- FUSE_BURN (R786): FUS_CTRL GO. Only the key die burns words 0-2 and 64-223; 0x61 burns 3-63 on a 9110 request, which
FUSE_OPTION_BURN carries out whole. -/
def execFuseBurn (keyDie : Bool) (stuck : Word) (s : State) : Res :=
  if ¬ s.domReady 4 then ok s
  else
    let w := bits s.nvm.fusCtrl 9 0
    if keyDie ∧ (w ≤ 2 ∨ (64 ≤ w ∧ w ≤ 223)) then
      let r := burnFuse w s.nvm.fusData stuck.toNat s
      ok (({ r.2 with nvm := { r.2.nvm with fusDone := true, fusVerify := ! r.1, fusDenied := false } }).noteSet (regKey 2 0x0F0C0008) (2 ^ 30))
    else ok (({ s with nvm := { s.nvm with fusDone := true, fusDenied := true, fusVerify := false } }).noteSet (regKey 2 0x0F0C0008) (2 ^ 30))

/-- The effect of a write to 9110:01 (R790): word U16 3-63, value U32. CODE 0x0001 word refused, 0x0002 verify failed. -/
def fxFuseOption (stuck : Nat) (s : State) (role : Nat) (v : Bytes) : Ans :=
  startOp 0x9110 1 role .nvm v (fun k s =>
    let w := beNat (v.take 2)
    if v.length ≠ 6 ∨ w < 3 ∨ 63 < w then failSlot k 1 s
    else
      let r := burnFuse w (beNat (v.drop 2)) stuck s
      if r.1 then doneSlot k [] r.2 else failSlot k 2 r.2) s

/-- FUSE_OPTION_BURN (R790). -/
def execFuseOptionBurn (r : Req) (stuck : Word) (s : State) : Res :=
  ok (serveWrite r 0x9110 1 always always anyValue (fxFuseOption stuck.toNat) s)

/-- The counter 9020:01 selects. -/
def selCounter (s : State) : Nat := s.num 0x9020 1

/-- A counter an OWNER may change: 32-1,023 (R785, R790). -/
def ownerCounter (s : State) : Bool := decide (32 ≤ selCounter s ∧ selCounter s ≤ 1023)

/-- The effect of 9020:03 (R790). -/
def fxCounterIncrement (fails : Nat) (s : State) (_role : Nat) (_v : Bytes) : Ans :=
  let r := ctrIncrement (selCounter s) fails s
  if r.1 = 0 then ansOK r.2 else ansErr s rRANGE

/-- The effect of 9020:04 (R785, R790). -/
def fxCounterRaise (fails : Nat) (s : State) (_role : Nat) (v : Bytes) : Ans :=
  let r := ctrRaise (selCounter s) (beNat v) fails s
  if r.1 = 0 then ansOK r.2 else ansErr s rRANGE

/-- The effect of 9020:05 (R790): 0 into both copies of a counter of which no copy is intact. -/
def fxCounterReinit (s : State) (_role : Nat) (_v : Bytes) : Ans :=
  let k := selCounter s
  if ctrUsable s k then ansErr s rRANGE else ansOK (ctrWrite k 0 0 s).2

/-- COUNTER_INCREMENT (R790). -/
def execCounterIncrement (r : Req) (fails : Nat) (s : State) : Res :=
  ok (serveWrite r 0x9020 3 always always (fun s _ => ownerCounter s) (fxCounterIncrement fails) s)
/-- COUNTER_RAISE (R790). -/
def execCounterRaise (r : Req) (fails : Nat) (s : State) : Res :=
  ok (serveWrite r 0x9020 4 always always (fun s _ => ownerCounter s) (fxCounterRaise fails) s)
/-- COUNTER_REINIT (R790). -/
def execCounterReinit (r : Req) (s : State) : Res :=
  ok (serveWrite r 0x9020 5 always always (fun s _ => ownerCounter s) fxCounterReinit s)

end Sys2Proof.Machine
end

