-- ==== Sys2Proof/Machine/CardOps.lean ====
section
/-!
DEFINITION. The exchange with a card (R571-R574) and what a ceremony does with it (R580-R590): answers to reset, channels, sealed
components, approvals, and the steps that follow the quorum.
-/
namespace Sys2Proof.Machine

/-- What an answer to reset says (ISO/IEC 7816-3; PRESUMED, log entry 43): TA1, whether T=1 is offered, whether a protocol other
than T=0 is, IFSC and the waiting-time byte of T=1. -/
structure Atr where
  ta1 : Nat := 0x11
  t1 : Bool := false
  other : Bool := false
  ifsc : Option Nat := none
  tb : Option Nat := none
  deriving DecidableEq, Repr

/-- One interface byte, where its indicator is set: the byte and the rest. -/
def takeIf (f : Bool) (bs : Bytes) : Option (Option Nat × Bytes) :=
  if f then (match bs with | [] => none | b :: t => some (some b.toNat, t)) else some (none, bs)

/-- The interface bytes of an answer to reset: group `i`, indicator `y`, protocol `t` named by the group before. -/
def atrGroups : Nat → Nat → Nat → Nat → Bytes → Atr → Option (Atr × Bytes)
  | 0, _, _, _, _, _ => none
  | fuel + 1, i, y, t, bs, a =>
    match takeIf (bit y 0) bs with
    | none => none
    | some (ta, bs) =>
      match takeIf (bit y 1) bs with
      | none => none
      | some (tb, bs) =>
        match takeIf (bit y 2) bs with
        | none => none
        | some (_, bs) =>
          match takeIf (bit y 3) bs with
          | none => none
          | some (td, bs) =>
            let a := if i = 1 then (match ta with | some v => { a with ta1 := v } | none => a) else a
            let one : Bool := decide (3 ≤ i ∧ t = 1)
            let a := if one ∧ a.ifsc.isNone then { a with ifsc := ta } else a
            let a := if one ∧ a.tb.isNone then { a with tb := tb } else a
            match td with
            | none => some (a, bs)
            | some d =>
              let p := d % 16
              atrGroups fuel (i + 1) (d / 16) p bs { a with t1 := a.t1 || decide (p = 1), other := a.other || decide (p ≠ 0) }

/-- Read an answer to reset: TS, T0, interface bytes, historical bytes, and TCK where a protocol other than T=0 is named. -/
def readAtr (bs : Bytes) : Option Atr :=
  match bs with
  | ts :: t0 :: rest =>
    if ts ≠ 0x3B ∧ ts ≠ 0x3F then none
    else
      match atrGroups 8 1 (t0.toNat / 16) 0 rest {} with
      | none => none
      | some (a, r) =>
        let n := t0.toNat % 16 + b2n a.other
        if r.length ≠ n then none
        else if a.other ∧ (bs.drop 1).foldl (fun x b => x ^^^ b) (0 : Byte) ≠ 0 then none
        else some a
  | _ => none

/-- Fi of TA1's high half, Di of its low half, where the interface proposes them (R571); otherwise 372 and 1. -/
def ppsOf (ta1 : Nat) : Nat × Nat :=
  let fi : Nat := [372, 372, 558, 744, 0, 0, 0, 0, 0, 512].getD (ta1 / 16) 0
  let di : Nat := [0, 1, 2, 4, 8].getD (ta1 % 16) 0
  if fi * di = 0 then (372, 1) else (fi, di)

/-- Send a command to a card (R572). -/
def sendCard (i ins p1 : Nat) (data : Bytes) (s : State) : State :=
  (s.setCard i { s.card i with st := 3, cmd := some ins, cmdAt := s.dt, slot := p1 }).emit (.card i ins p1 data)

/-- An interface can take the ceremony's next command. -/
def cardFree (s : State) (i : Nat) : Bool :=
  let c := s.card i
  s.domReady 6 && decide (c.st = 2) && c.cmd.isNone && decide (s.cer.kind ≠ 0) && ! s.cer.abort

/-- A credential still owes the ceremony a component (R585, R587). -/
def owesComp (s : State) (c : Card) : Bool :=
  match c.cred with
  | some k => s.cer.comps.all (fun e => decide (e.1 ≠ k))
  | none => false

/-- The ACTIVE CUSTODIAN credential of a card (R580). -/
def credOf (s : State) (cardid qc : Bytes) : Option Nat :=
  (List.range 64).find? (fun i =>
    let r := s.cred i
    decide (credRole r = 3 ∧ credState r = 1 ∧ credCard r = cardid ∧ credKey r = qc))

/-- The CUST entry of a card in the ownership ceremony (R590). -/
def custOf (s : State) (qc : Bytes) : Option Nat :=
  let t := s.cer.params
  (List.range (ownNcust t)).find? (fun i => decide ((ownCust t i).take 16 = (sha384 qc).take 16))

/-- An ECDSA P-384 signature of 96 bytes over a text's SHA-384, under an encoded key. -/
def cardSigOk (qc text sig : Bytes) : Bool := p384Verify qc text sig

/-- Change a credential by an ENROL ceremony (R578, R606): the ceremony ends. -/
def enrolWrite (i : Nat) (rec : Bytes) (s : State) : State :=
  let rest := (custodians s).filter (fun e => decide (e.1 ≠ i))
  let groups := (if credRole rec = 3 ∧ credState rec = 1 then [credGroup rec] else []) ++ rest.map (·.2)
  let lowers : Bool := decide (credRole (s.cred i) = 3 ∧ credState (s.cred i) = 1)
  if lowers ∧ ¬ rulesMeetable s groups then cerFail 9 [] s
  else
    let r := setCred i rec s
    if r.1 ≠ 0 then cerFail 6 [] s else cerClose .done 0 [] r.2

/-- The steps of ENROL after its quorum (R606): a CUSTODIAN add waits for its card (log entry 44). -/
def runEnrol (s : State) : State :=
  let p := s.cer.params
  let i := beNat (slice p 1 2)
  let rd := s.cred i
  match (byteAt p 0).toNat with
  | 1 =>
    let r := p.drop 3
    if credState rd ≠ 0 then cerFail 3 [] s
    else if credRole r = 3 then (if credState r = 1 ∧ credGroup r ≤ 3 ∧ 12 ≤ r.length then s else cerFail 3 [] s)
    else if r.length = 112 ∧ [1, 2, 4].contains (credRole r) ∧ credState r = 1 ∧ (slice r 2 10).all (fun b => decide (b = 0)) ∧
        (p384.dec (credKey r)).isSome then enrolWrite i r s
    else cerFail 3 [] s
  | 2 => if credState rd = 1 then enrolWrite i (overlay rd 1 [2]) s else cerFail 3 [] s
  | 3 => if credState rd = 2 then enrolWrite i (overlay rd 1 [1]) s else cerFail 3 [] s
  | _ => if credState rd ≠ 0 then enrolWrite i (zeros 112) s else cerFail 3 [] s

/-- The card of a CUSTODIAN add was read (R606): its CARDID and QC must match. -/
def enrolCard (i : Nat) (cardid qc : Bytes) (s : State) : State :=
  let p := s.cer.params
  let r := p.drop 3
  let given := r.drop 12
  if credCard r = cardid ∧ given.take 97 = qc.take given.length then
    enrolWrite (beNat (slice p 1 2)) (custodianRec (credGroup r) cardid qc) s
  else cardFault i 8 s

/-- The check value of a component of a node, parity set for TDES (R586). -/
def compCheck (kt : Nat) (b : Bytes) : Bytes := checkValue kt (fixParity kt b)

/-- COMPONENTS_IN may start on a node (R585): AWAITING, or STAGED for components. -/
def compsInOk (s : State) (id : Nat) : Bool :=
  let n := s.node id
  (decide (n.kind = 2 ∨ n.kind = 3)) &&
  (decide (n.state = 1) || (decide (n.state = 3 ∧ (s.repl id).origin = 3 ∧ (s.repl id).head = 0) && (s.repl id).key.isEmpty))

/-- COMPONENTS_OUT may write a node (R587): ACTIVE, MANAGEMENT, EXPORT COMPONENTS, its path exportable. -/
def compsOutOk (s : State) (id : Nat) : Bool :=
  let n := s.node id
  decide (n.state = 2 ∧ n.exportOf = 2) && n.mgmt && ! (nodeKey s id).isEmpty &&
  (match pathOf s id with | some p => p.all (fun e => decide (1 ≤ e.2.exportOf)) | none => false)

/-- COMPONENTS_OUT draws its components (R587): the last is the key XOR all the others. -/
def drawComps (key : Bytes) : Nat → State → List Bytes × State
  | 0, s => ([key], s)
  | n + 1, s =>
    let d := s.draw key.length
    let r := drawComps (xorBytes key d.1) n d.2
    (d.1 :: r.1, r.2)

/-- Every component is in (R585, R586): the key is combined, checked and placed, or handed to the STAGE that waits for it. -/
def finishIn (s : State) : State :=
  let c := s.cer
  let id := cerNode c
  let n := s.node id
  let parts := c.comps.map (·.2)
  let key := fixParity n.ktype (match parts with | [] => [] | a :: t => t.foldl xorBytes a)
  let cv := compCheck n.ktype key
  let res := parts.flatMap (compCheck n.ktype) ++ cv
  let want := cerCheck c
  if want.any (fun b => decide (b ≠ 0)) ∧ want ≠ fit cv 5 then cerFail 4 [] s
  else if n.state = 3 then
    let r := s.repl id
    let o := stageKey id key 3 r.auto r.stageOp r.check (s.setNode id { n with state := 2 })
    if o.1 ≠ 0 then cerFail 6 (beBytes o.1 2) s else cerClose .done 0 res o.2
  else if n.state ≠ 1 then cerFail 6 (beBytes 9 2) s
  else
    let o := storeKey id (n.setOrigin 3) key s
    if o.1 ≠ 0 then cerFail 6 (beBytes o.1 2) s
    else if s.grp.id.isEmpty then cerClose .done 0 res o.2
    else
      let g := groupPrepare 0 id (recordBytes (o.2.node id)) key [] none res none (s.setCer { c with comps := [] })
      if g.1 ≠ 0 then cerFail 6 (beBytes g.1 2) s
      else if g.2.2.cer.kind = 0 then g.2.2
      else if (chgOf g.2.2 g.2.1).isSome then g.2.2.setCer { g.2.2.cer with chg := g.2.1 }
      else cerClose .done 0 res g.2.2

/-- A group change of the GROUP ceremony (R597, R598): the ceremony waits for it. -/
def cerRoster (ros : Bytes) (skip : Option Nat) (s : State) : State :=
  let g := groupPrepare 2 0x40000 [] [] ros none [] skip s
  if g.1 ≠ 0 then cerFail 0x0A [] s
  else if g.2.2.cer.kind = 0 then g.2.2
  else if (chgOf g.2.2 g.2.1).isSome then g.2.2.setCer { g.2.2.cer with chg := g.2.1 }
  else cerClose .done 0 [] g.2.2

/-- The device's own roster entry: SERIAL and the digest of its identity key (R597). -/
def selfMember (s : State) : Member :=
  { serial := serial s, idk := (sha384 (p384.enc (p384.mul s.key.idk p384.g))).take 16 }

/-- FOUND (R597, R611): GROUPID and GK are drawn; the roster holds this device alone. -/
def groupFound (s : State) : State :=
  if ¬ s.grp.id.isEmpty then cerFail 0x0A [] s
  else
    let d := s.draw 8
    let k := d.2.draw 32
    let n : Node := { kind := 2, state := 1, ktype := 3, attr := 1, use_ := 2 ^ 5, engine := 2 ^ 5, slot := 2, units := 1 }
    let r := putAnchor 2 n k.1 k.2
    if r.1 ≠ 0 ∨ ¬ groupWritable s then cerFail 6 (beBytes r.1 2) s
    else
      let t := { r.2 with grp := { r.2.grp with id := d.1, ros := [(0, selfMember s)] } }
      cerClose .done 0 [] (showGroup (writeRoster t).2)

/-- The steps of GROUP after its quorum (R597, R598). -/
def runGroup (s : State) : State :=
  let p := s.cer.params
  let ser := slice p 1 8
  let who := slice p 1 24
  let ros := s.grp.ros
  match (byteAt p 0).toNat with
  | 1 => groupFound s
  | 2 =>
    if s.grp.id.isEmpty ∨ (slotOfSerial s ser).isSome ∨ ros.length ≥ 8 then cerFail 0x0A [] s
    else { s with grp := { s.grp with invited := who } }
  | 3 =>
    if ¬ s.grp.id.isEmpty ∨ s.key.nodes.any (fun e => decide (9 ≤ e.1 ∧ e.1 ≤ 0x100 ∨ 0x200 ≤ e.1)) then cerFail 0x0A [] s
    else { s with grp := { s.grp with join := who, joining := true } }
  | 4 =>
    if s.grp.id.isEmpty then cerFail 0x0A [] s
    else
      match slotOfSerial s (serial s) with
      | some k => cerRoster (rosterBytes s.grp.id (Tab.drop ros k)) none s
      | none => cerFail 0x0A [] s
  | _ =>
    match slotOfSerial s ser with
    | some k => if ser = serial s then cerFail 0x0A [] s else cerRoster (rosterBytes s.grp.id (Tab.drop ros k)) (some k) s
    | none => cerFail 0x0A [] s

/-- The owner seed's fuse words, each with its share of the seed, in their order (R787). -/
def seedWords (seed : Bytes) : List (Nat × Nat) :=
  let w (i : Nat) : Nat := beNat (slice seed (4 * i) 4)
  let chk := beNat ((sha256 (ascii "SV6400 SEED" ++ seed)).take 4)
  (List.range 8).map (fun i => (92 + i, w i)) ++ (List.range 8).map (fun i => (156 + i, w i)) ++ [(100, chk), (164, chk)]

/-- Steps 3 to 6 of the ownership ceremony (R590): record and credentials, seed, life cycle, system reset. No row of the table stands between
them, so they are one step of the model (DESIGN CHOICE, log entry 41). -/
def ownFinish (s : State) : State :=
  let c := s.cer
  let t := c.params
  let d := s.draw 32
  let w := writePages 0x010 (chunks 256 (ownRecord d.2 t c.sigs d.1)) d.2
  if w.1 ≠ 0 then cerFail 6 [] s
  else
    let s := (List.range (ownNown t)).foldl (fun s j =>
      (setCred j ([4, 1, 0, 0] ++ zeros 8 ++ ownKey t j ++ zeros 3) s).2) w.2
    let s := c.sigs.foldl (fun s g => (setCred (0x10 + g.cust) (custodianRec (byteAt (ownCust t g.cust) 16).toNat g.cardid g.qc) s).2) s
    let s := (List.range 5).foldl (fun s k => setKept 0xA001 (k + 1) (slice t 8 2) s) s
    let s := setKept 0xA030 4 [2] s
    let s := (seedWords d.1).foldl (fun s e => (burnFuse e.1 e.2 0 s).2) s
    let s := burnLcs .owned (setKept 0xA030 4 [3] s)
    let s := cerClose .done 0 [] (setKept 0xA030 4 [4] s)
    systemResetNow 0x06 0 s

/-- The ceremony has its quorum (R581): it runs its steps. -/
def quorumReached (s : State) : State :=
  let c := s.cer
  let s := s.setCer { c with st := 2, quorumAt := s.dt }
  match c.kind with
  | 1 => startFlip Mode.ceremony.code c.slot (cerClose .done 0 [] s)
  | 2 => runEnrol s
  | 3 => if compsInOk s (cerNode c) then s else cerFail 3 [] s
  | 4 =>
    if ¬ compsOutOk s (cerNode c) then cerFail 8 [] s
    else
      let d := drawComps (nodeKey s (cerNode c)) (cerCount c - 1) s
      d.2.setCer { d.2.cer with todo := d.1 }
  | 5 => runGroup s
  | _ => ownFinish s

/-- The rule of the ceremony in progress is met by its approvals (R578, R581, R590). -/
def quorumMet (s : State) : Bool :=
  let c := s.cer
  if c.kind = 6 then decide (c.sigs.length = ownNcust c.params)
  else ruleMet (s.num 0xA001 c.kind) (c.approvals.map (fun i => credGroup (s.cred i)))

/-- A valid card signature counts once as a custodian's approval (R580, R609); after A000:03 it is ignored (R581). -/
def approve (k : Nat) (sg : OwnSig) (s : State) : State :=
  let c := s.cer
  if s.dt > c.start + ms (s.cfg 0xA000 3) ∨ c.approvals.contains k then s
  else
    let s := (s.setCer { c with approvals := c.approvals ++ [k], sigs := if c.kind = 6 then c.sigs ++ [sg] else [] }).bump 0xB800 3
    if quorumMet s then quorumReached s else s

/-- What OPEN CHANNEL signs and hashes (R573). -/
def chanText (s : State) (c : Card) (qe : Bytes) : Bytes :=
  [3] ++ serial s ++ c.cardid ++ p384.enc (p384.mul c.eph p384.g) ++ c.nonce ++ qe

/-- The channel of a card opens (R573): its signature and key are checked, KE and KM derived. -/
def openChannel (i : Nat) (d : Bytes) (s : State) : State :=
  let c := s.card i
  let qe := d.take 97
  let t := sha384 (chanText s c qe)
  match p384.dec qe with
  | none => cardFault i 9 s
  | some q =>
    if ¬ cardSigOk c.qc (chanText s c qe) (d.drop 97) then cardFault i 9 s
    else
      match p384.mul c.eph (some q) with
      | none => cardFault i 9 s
      | some (x, _) =>
        let k := kdfCtr ((sha384 (beBytes x 48 ++ t)).take 32) (ascii "SV6400 CARD") t 512
        s.setCard i { c with st := 2, cmd := none, chan := true, ke := k.take 32, km := k.drop 32, seq := 1, eph := 0 }

/-- A sealed component (R574). -/
def sealComp (c : Card) (kt : Nat) (p : Bytes) : Bytes :=
  let head := beBytes c.seq 4 ++ beBytes p.length 2 ++ [byte kt, 0]
  let ct := (ctrMode (aesEnc c.ke) (beBytes c.seq 4 ++ zeros 12) p).1
  head ++ ct ++ aesCmac c.km (head ++ ct)

/-- Open a sealed component: KTYPE and the component, none where its form, TAG or SEQ fails (R574). -/
def unsealComp (c : Card) (d : Bytes) : Option (Nat × Bytes) :=
  let n := beNat (slice d 4 2)
  let body := d.take (8 + n)
  if d.length ≠ 24 + n ∨ byteAt d 7 ≠ 0 ∨ beNat (d.take 4) ≠ c.seq ∨ aesCmac c.km body ≠ d.drop (8 + n) then none
  else some ((byteAt d 6).toNat, (ctrMode (aesEnc c.ke) (beBytes c.seq 4 ++ zeros 12) (body.drop 8)).1)

/-- A component arrives (R585, R588). -/
def compIn (i : Nat) (d : Bytes) (s : State) : State :=
  let c := s.card i
  let n := s.node (cerNode s.cer)
  match unsealComp c d, c.cred with
  | some (kt, p), some k =>
    if kt ≠ n.ktype ∨ p.length ≠ keyLen s n.ktype n.param then cerFail 5 [] (s.setCard i { c with st := 2, cmd := none })
    else
      let s := s.setCard i { c with st := 2, cmd := none, seq := c.seq + 1 }
      let s := s.setCer { s.cer with comps := s.cer.comps ++ [(k, p)] }
      if s.cer.comps.length = cerCount s.cer then finishIn s else s
  | _, _ => cardFault i 7 s

/-- A component has been written (R587). -/
def compOut (i : Nat) (s : State) : State :=
  let c := s.card i
  let kt := (s.node (cerNode s.cer)).ktype
  let s := s.setCard i { c with st := 2, cmd := none, seq := c.seq + 1, comp := [] }
  match s.cer.todo, c.cred with
  | p :: rest, some k =>
    let e := s.cer
    let s := s.setCer { e with comps := e.comps ++ [(k, [])], todo := rest, checks := e.checks ++ [compCheck kt p] }
    if rest.isEmpty then cerClose .done 0 (s.cer.checks.flatten ++ compCheck kt (nodeKey s (cerNode s.cer))) s else s
  | _, _ => s

/-- GET IDENTITY is answered (R580, R590): CARDID and QC are matched for the ceremony in progress. -/
def cardIdentity (i : Nat) (d : Bytes) (s : State) : State :=
  let c := s.card i
  let cardid := d.take 8
  let qc := d.drop 8
  if d.length ≠ 105 ∨ (p384.dec qc).isNone then cardFault i 7 s
  else
    let s := s.setEnt (0xA002 + i) 2 cardid
    let c := { c with st := 2, cmd := none, step := 2, cardid := cardid, qc := qc }
    if s.cer.kind = 2 ∧ s.cer.st = 2 then enrolCard i cardid qc (s.setCard i { c with step := 3 })
    else
      match (if s.cer.kind = 6 then custOf s qc else credOf s cardid qc) with
      | some k => s.setCard i { c with cred := some k }
      | none => cardFault i 8 (s.setCard i c)

/-- SIGN is answered (R580, R590). -/
def cardSigned (i : Nat) (d : Bytes) (s : State) : State :=
  let c := s.card i
  let text := if s.cer.kind = 6 then ownText s s.cer.params else approvalText s s.cer
  match c.cred with
  | none => cardFault i 8 s
  | some k =>
    if ¬ cardSigOk c.qc text d then cardFault i 9 s
    else approve k ⟨k, c.cardid, c.qc, d⟩ (s.setCard i { c with st := 2, cmd := none, step := 3 })

end Sys2Proof.Machine
end

