-- ==== Sys2Proof/Machine/Custody.lean ====
section
/-!
DEFINITION. The meanings of the card, ceremony and ownership commands (R571-R592, R606-R610, R813, R820, R837). A command that the
device sends to a card acts where the interface is READY and the ceremony's next command is this one; otherwise nothing is sent.
-/
namespace Sys2Proof.Machine

/-- CARD_INSERT (R571, R813): the presence contact closes; with PD06 on, the interface activates the card at class B. -/
def execCardInsert (i : Fin 4) (s : State) : Res :=
  let c := s.card i
  if c.pres then ok s
  else if s.domReady 6 then ok (s.setCard i { pres := true, st := 1, cls := 1, cardid := c.cardid })
  else ok (s.setCard i { c with pres := true })

/-- No valid answer to reset (R571): a class B card is deactivated and retried at class A; at class A the fault is NO_ATR. -/
def noAtr (i : Nat) (s : State) : State :=
  let c := s.card i
  if c.cls = 1 then s.setCard i { c with cls := 0, retry := some (s.dt + ms 10) } else cardFault i 1 s

/-- CARD_ATR (R571): the answer to reset is read, PPS and IFS follow; without T=1 the fault is NO_T1. -/
def execCardAtr (i : Fin 4) (atr : Bytes) (s : State) : Res :=
  let c := s.card i
  if c.st ≠ 1 ∨ c.cls = 0 then ok s
  else
    match readAtr atr with
    | none => ok (noAtr i s)
    | some a =>
      if ¬ a.t1 then ok (cardFault i 2 s)
      else
        let p := ppsOf a.ta1
        let tb := a.tb.getD 0x4D
        ok (s.setCard i { c with st := 2, ifsc := a.ifsc.getD 32, fi := p.1, di := p.2, cwi := tb % 16, bwi := tb / 16, step := 0 })

/-- CARD_CLASS_A_RETRY (R571, R837): at least 10 ms after VEN fell, the card is activated at class A. -/
def execCardClassARetry (i : Fin 4) (s : State) : Res :=
  let c := s.card i
  match c.retry with
  | none => ok s
  | some t => ok ((s.at t).setCard i { c with cls := 2, retry := none })

/-- CARD_REMOVE (R571, R573, R608, R820): the card is deactivated and its channel keys zeroised; an exchange in progress ends
with fault REMOVED. -/
def execCardRemove (i : Fin 4) (s : State) : Res :=
  let c := s.card i
  if ¬ c.pres then ok s
  else
    let s := if c.st = 1 ∨ c.cmd.isSome then cardFault i 5 s else s
    let c := s.card i
    ok (cerAbortPoint (s.setCard i ({ c with pres := false }.off (if c.fault = 5 then 5 else 0))))

/-- The block waiting time in ns of the ATR's BWI at the card clock of 3.125 MHz, 320 ns (R571, ISO/IEC 7816-3). -/
def blockWait (c : Card) : Nat := (11 * (c.fi / Nat.max 1 c.di) + 2 ^ c.bwi * 960 * 372) * 320

/-- CARD_WAIT_TIMEOUT (R571): no answer to reset in time, or the block waiting time of a command expired, longer by the `wtx` ns that the card's
S(WTX) requests added, which are honoured up to 30 s from the command. -/
def execCardWaitTimeout (x : CardWait) (s : State) : Res :=
  let c := s.card x.card
  let w := blockWait c
  if c.st = 1 ∧ c.cls ≠ 0 then ok (noAtr x.card s)
  else if c.cmd.isSome then ok (cerAbortPoint (cardFault x.card 4 (s.at (c.cmdAt + Nat.max w (Nat.min (w + x.wtx) (sec 30))))))
  else ok s

/-- CARD_DEACTIVATE (R813): DEACT runs the deactivation sequence; the channel's keys are zeroised (R573). -/
def execCardDeactivate (i : Fin 4) (s : State) : Res := ok (cerAbortPoint (s.setCard i ((s.card i).off 0)))

/-- CARD_SELECT (R572): the custodian application is selected by its AID. -/
def execCardSelect (i : Fin 4) (s : State) : Res :=
  if cardFree s i ∧ (s.card i).step = 0 then ok (sendCard i 0xA4 4 [0xF0, 0x53, 0x56, 0x43, 0x55, 0x53, 0x54] s) else ok s

/-- CARD_GET_IDENTITY (R572). -/
def execCardGetIdentity (i : Fin 4) (s : State) : Res :=
  if cardFree s i ∧ (s.card i).step = 1 then ok (sendCard i 0x10 0 [] s) else ok s

/-- CARD_SIGN (R572, R580, R590): while approvals are collected, the card signs the ceremony's digest. -/
def execCardSign (i : Fin 4) (s : State) : Res :=
  if cardFree s i ∧ (s.card i).step = 2 ∧ s.cer.st = 1 then
    ok (sendCard i 0x20 0 (sha384 (if s.cer.kind = 6 then ownText s s.cer.params else approvalText s s.cer)) s)
  else ok s

/-- CARD_OPEN_CHANNEL (R573): a device ephemeral key and a nonce are drawn and sent. -/
def execCardOpenChannel (i : Fin 4) (s : State) : Res :=
  let c := s.card i
  if cardFree s i ∧ s.cer.st = 2 ∧ (s.cer.kind = 3 ∨ s.cer.kind = 4) ∧ (c.step = 2 ∨ c.step = 3) ∧ ¬ c.chan ∧ owesComp s c then
    let d := drawScalar p384.n 64 s
    let r := d.2.draw 32
    let t := r.2.setCard i { c with eph := d.1, nonce := r.1 }
    ok (sendCard i 0x30 0 (p384.enc (p384.mul d.1 p384.g) ++ r.1) t)
  else ok s

/-- CARD_PUT_COMPONENT (R572, R574, R587): the next component is sealed and written to the card slot. -/
def execCardPutComponent (i : Fin 4) (s : State) : Res :=
  let c := s.card i
  match s.cer.todo with
  | p :: _ =>
    if cardFree s i ∧ s.cer.st = 2 ∧ s.cer.kind = 4 ∧ c.chan ∧ owesComp s c then
      ok (sendCard i 0x40 (cerCardSlot s.cer) (sealComp c (s.node (cerNode s.cer)).ktype p) s)
    else ok s
  | [] => ok s

/-- CARD_GET_COMPONENT (R572, R585). -/
def execCardGetComponent (i : Fin 4) (s : State) : Res :=
  let c := s.card i
  if cardFree s i ∧ s.cer.st = 2 ∧ s.cer.kind = 3 ∧ c.chan ∧ owesComp s c then
    ok (sendCard i 0x42 (cerCardSlot s.cer) [] s)
  else ok s

/-- CARD_CLEAR_COMPONENT (R572, R588): a new COMPONENTS_OUT ceremony clears a card slot that an earlier one left written. -/
def execCardClearComponent (i : Fin 4) (slot : Fin 8) (s : State) : Res :=
  if cardFree s i ∧ s.cer.st = 2 ∧ s.cer.kind = 4 ∧ ((s.card i).step = 2 ∨ (s.card i).step = 3) then ok (sendCard i 0x44 slot [] s) else ok s

/-- CARD_RESPONSE (R572, R580): judged by its status word, then by the command it answers. `edc` marks an exchange that error
recovery gave up (R571). -/
def execCardResponse (i : Fin 4) (sw : BitVec 16) (data : Bytes) (edc : Bool) (s : State) : Res :=
  let c := s.card i
  match c.cmd with
  | none => ok s
  | some ins =>
    let s' :=
      if edc then cardFault i 3 s
      else if sw = 0x6982 then cardFault i 6 s
      else if sw ≠ 0x9000 then cardFault i 7 s
      else
        match ins with
        | 0xA4 => s.setCard i { c with st := 2, cmd := none, step := 1 }
        | 0x10 => cardIdentity i data s
        | 0x20 => cardSigned i data s
        | 0x30 => openChannel i data s
        | 0x40 => compOut i s
        | 0x42 => compIn i data s
        | _ => s.setCard i { c with st := 2, cmd := none }
    ok (cerAbortPoint s')

/-- The effect of A000:02 (R577, R606): a ceremony in progress receives IN_PROGRESS. -/
def fxCeremony (s : State) (role : Nat) (v : Bytes) : Ans :=
  if s.cer.kind ≠ 0 then ansErr s rIN_PROGRESS
  else startOp 0xA000 2 role .ceremony v (fun k s => cerStart (beNat v) k role (s.entW 0xA000 4) s) s

/-- CEREMONY_START_ENROL (R606): kind 2. -/
def execCeremonyStartEnrol (r : Req) (s : State) : Res := ok (serveWrite (reqWith r [2]) 0xA000 2 always inCeremony anyValue fxCeremony s)
/-- CEREMONY_START_COMPONENTS_IN (R585): kind 3. -/
def execCeremonyStartComponentsIn (r : Req) (s : State) : Res :=
  ok (serveWrite (reqWith r [3]) 0xA000 2 always inCeremony anyValue fxCeremony s)
/-- CEREMONY_START_COMPONENTS_OUT (R587): kind 4. -/
def execCeremonyStartComponentsOut (r : Req) (s : State) : Res :=
  ok (serveWrite (reqWith r [4]) 0xA000 2 always inCeremony anyValue fxCeremony s)
/-- CEREMONY_START_GROUP (R597): kind 5. -/
def execCeremonyStartGroup (r : Req) (s : State) : Res := ok (serveWrite (reqWith r [5]) 0xA000 2 always inCeremony anyValue fxCeremony s)

/-- CEREMONY_TIMEOUT (R581, R588): A000:03 passes without the quorum, or, after it, without the cards the steps need. -/
def execCeremonyTimeout (s : State) : Res :=
  let c := s.cer
  let lim := ms (s.cfg 0xA000 3)
  if c.kind = 0 then ok s
  else if c.st = 1 then ok (cerFail 1 [] (s.at (c.start + lim)))
  else
    let s := s.at (c.quorumAt + lim)
    if c.kind = 5 then
      let s := { s with grp := { s.grp with invited := [], join := [], joining := false } }
      match chgOf s c.chg with
      | some g => ok (if g.st = 0 then chgAbort g.id 0x0B s else s)
      | none => ok (cerFail 0x0A [] s)
    else ok (cerFail 2 ([byte c.fault] ++ [byte (c.comps.length)]) s)

/-- CEREMONY_LIMIT (R584, R610): A000:07 has passed since CEREMONY was entered; the device leaves it. -/
def execCeremonyLimit (s : State) : Res :=
  if s.power.mode ≠ .ceremony ∨ changeOpen s then ok s
  else ok (cerLeave none (s.at (s.power.ceremonySince + sec (60 * s.cfg 0xA000 7))))

/-- Every seed fuse is blank (R590). -/
def seedBlank (s : State) : Bool :=
  ((List.range 9).map (· + 92) ++ (List.range 9).map (· + 156)).all (fun w => decide (s.fuse w = 0))

/-- Step 1 of the ownership ceremony (R590): seed fuses, template and mode; then the nonce, and CEREMONY by a flip. -/
def ownStart (k role : Nat) (s : State) : State :=
  let t := ownTemplate s
  if ¬ seedBlank s ∨ s.num 0xA030 4 = 6 ∨ ¬ (requestMode s = .bypass ∨ requestMode s = .update) then (failSlot k 7 s).bump 0xB800 2
  else if ¬ templateOk t then (failSlot k 3 s).bump 0xB800 2
  else
    let d := s.draw 32
    let s := cerStart 6 k role t (d.2.setEnt 0xA030 3 d.1)
    if s.cer.kind = 6 then startFlip Mode.ceremony.code none (setKept 0xA030 4 [1] s) else s

/-- The effect of A030:02 (R590). -/
def fxOwnership (s : State) (role : Nat) (v : Bytes) : Ans :=
  if s.cer.kind ≠ 0 ∨ changeOpen s ∨ s.power.modeTarget.isSome then ansErr s rIN_PROGRESS
  else startOp 0xA030 2 role .ceremony v (fun k s => ownStart k role s) s

/-- The ownership entries are VENDOR only (R606). -/
def inVendor (s : State) (_ : Nat) : Bool := decide (s.power.lcs = .vendor)

/-- OWNERSHIP_START (R590): 0x01 written to A030:02. -/
def execOwnershipStart (r : Req) (s : State) : Res := ok (serveWrite (reqWith r [1]) 0xA030 2 inVendor always anyValue fxOwnership s)

end Sys2Proof.Machine
end

