-- ==== Sys2Proof/Machine/Lanes.lean ====
section
/-!
DEFINITION. The meanings of the lane, quad, spare, self-test and bank commands (R206-R214, R264-R307, R756-R760).
-/
namespace Sys2Proof.Machine

/-- Mark `n` granules valid from granule `g` on (R269). -/
def setGranules (v g n : Nat) : Nat := v ||| ((2 ^ n - 1) * 2 ^ g)

/-- BODY_MOVE_DONE (R269, R270): the body mover has placed a job's message in its frame slot and set the valid bits of the
granules it wrote. No effect where no message is on its way to the slot, or the quad is not READY. -/
def execBodyMoveDone (lane : Fin 64) (slot : Fin 32) (s : State) : Res :=
  match s.unit.jobs.find? (fun e => decide (e.2.lane = lane.val ∧ e.2.slot = slot.val ∧ e.2.stage ≤ 4) && ! e.2.bodyIn &&
      ! e.2.slotFreed) with
  | none => ok s
  | some (jn, _) =>
    if ¬ s.domReady (11 + laneQuad lane.val) then ok s
    else
      let s := s.at (s.job jn).bodyDue
      let j := s.job jn
      let n := ceilDiv j.body.length 64
      ok (s.setJob jn { j with frame := Memory.writeN j.frame 0 (fit j.body (64 * n)), valid := setGranules j.valid 0 n, bodyIn := true })

/-- LANE_FENCE (R211-R214, R292-R295): the fence event of a lane with its cause; cause QUAD fences the whole quad, cause SPARE
fails the spare that serves the lane. -/
def execLaneFence (lane : Fin 64) (cause : Fin 7) (s : State) : Res :=
  let l := lane.val
  match cause.val with
  | 0 => ok s
  | 5 => ok (fenceQuad (laneQuad l) 5 s)
  | 6 =>
    let v := s.spare (laneTile l)
    ok (if v.st = 3 ∧ v.lane = l then failSpareUnit (laneTile l) s else s)
  | c => ok (fenceLane l c s)

/-- The bound in ns of a substitution step (R292); steps 4 and 5 are one here. -/
def substBound (step : Nat) : Nat := if step = 2 then us 100 else if step = 3 then us 150 else us 201

/-- SPARE_TILE_SWITCH (R292 steps 4 to 6): banks loaded from the supervisor's copy, the spare joined to the quad, the lane back
in admission. Past its bound the spare fails. -/
def execSpareTileSwitch (k : Fin 4) (s : State) : Res :=
  let v := s.spare k.val
  if v.st ≠ 2 ∨ v.step ≠ 4 then ok s
  else if s.dt > v.since + substBound 4 then ok (failSpareUnit k.val s)
  else ok (spareJoin k.val s)

/-- SPARE_FAIL (R295): a failing spare becomes FAILED; the lane it serves is fenced with cause SPARE. -/
def execSpareFail (k : Fin 4) (s : State) : Res := ok (if (s.spare k.val).st = 4 then s else failSpareUnit k.val s)

/-- SPARE_SUBSTITUTION_TIMEOUT (R292): a step of a substitution has exceeded its bound. -/
def execSpareSubstitutionTimeout (k : Fin 4) (s : State) : Res :=
  let v := s.spare k.val
  if v.st = 2 then ok (failSpareUnit k.val (s.at (v.since + substBound v.step))) else ok s

/-- The jobs of a quad's lanes. -/
def quadJobs (s : State) (q : Nat) : List Job := (s.unit.jobs.filter (fun e => decide (laneQuad e.2.lane = q ∧ e.2.stage ≤ 4))).map (fun e => e.2)

/-- QUAD_WAKE_CHARGE_EXPIRY (R212): a quad not READY by the end of the wake charge its jobs were committed on is treated as
fenced for admission. No effect where the quad is READY or no job waits for its wake. -/
def execQuadWakeChargeExpiry (q : Fin 16) (s : State) : Res :=
  let q := q.val
  match (quadJobs s q).filterMap (fun j => j.wakeBy) with
  | [] => ok s
  | w :: t =>
    if s.domReady (11 + q) then ok s
    else
      let s := s.at (t.foldl Nat.min w)
      let s := s.setQuad q { s.quad q with late := true }
      let ls := (quadLanes q).filter (fun l => decide ((s.lane l).cause = 0))
      ok (finishDrain (clearLanes ls s))

/-- PK_ENGINE_FENCE (R213, R564): the fence event of an engine with its cause. -/
def execPkEngineFence (e : Fin 24) (cause : Fin 7) (s : State) : Res :=
  if cause.val = 0 then ok s
  else if cause.val = 5 then ok (fencePkDie (e.val / 12) 5 s)
  else ok (fencePkUnit e.val cause.val s)

/-- The number of a unit in the rotation: lanes 0-63, spares 64-67, cluster units 68-147, engines 148-171 (R759). -/
def unitNum : TestUnit → Nat
  | .lane l => l.val
  | .spare k => 64 + k.val
  | .cluster q u => 68 + 5 * q.val + u.val
  | .engine e => 148 + e.val

/-- The unit of a number. -/
def unitOfNum (n : Nat) : TestUnit :=
  if n < 64 then .lane (Fin.ofNat 64 n)
  else if n < 68 then .spare (Fin.ofNat 4 (n - 64))
  else if n < 148 then .cluster (Fin.ofNat 16 ((n - 68) / 5)) (Fin.ofNat 5 ((n - 68) % 5))
  else .engine (Fin.ofNat 24 (n - 148))

/-- The number of units of the rotation. -/
abbrev unitCount : Nat := 172

/-- Slice length in ns (R757). -/
def sliceNs : TestUnit → Nat
  | .lane _ => us 40
  | .spare _ => us 120
  | .cluster _ u => us (if u.val < 3 then 2 else if u.val = 3 then 8 else 4)
  | .engine _ => us 400

/-- The next audit boundary of a die after now (R216, R245). -/
def auditBoundary (s : State) (d : Nat) : Nat := let i := audI s d; (s.dt / i + 1) * i

/-- The audit engine may be tested for 400 us from now (R216): the current block is signed, and the slice ends before the next
block closes. -/
def auditGap (s : State) (e : Nat) : Bool :=
  let d := e / 12
  let a := s.aud d
  decide (audEngine s d ≠ some e) || ! a.run || decide (a.interval = 0) ||
  (a.pendBlocks.all (fun b => b.signed.isSome) && decide (s.dt + us 400 < auditBoundary s d))

/-- A claim can be made (R206, R208, R216, R758, R759): the unit is in service and not claimed, its domain is READY. -/
def claimable (s : State) : TestUnit → Bool
  | .lane l =>
    let q := laneQuad l.val
    decide ((s.lane l.val).cause = 0) && ! (s.lane l.val).subst && s.domReady (11 + q) && ! quadLaneClaimed s q &&
    (s.quad q).claim.isNone
  | .spare k => decide ((s.spare k.val).st = 0) && s.domReady (27 + k.val / 2)
  | .cluster q u =>
    decide ((s.quad q.val).cause = 0 ∧ (s.quad q.val).unit u.val = 0) && s.domReady (11 + q.val) && ! quadTested s q.val
  | .engine e =>
    let d := e.val / 12
    decide ((s.eng e.val).cause = 0) && s.domReady (9 + d) && (dieEngines d).all (fun x => decide ((s.eng x).claim = 0)) &&
    auditGap s e.val

/-- New claims are made: 8802:02 is true, and BRINGUP has passed its self-test. -/
def testsOn (s : State) : Bool := decide (s.cfg 0x8802 2 = 1 ∧ s.rst.phase = .done)

/-- Make the claim of a unit; a spare needs none and starts its slice (R757). -/
def claimUnit (u : TestUnit) (s : State) : State :=
  match u with
  | .lane l => rearmIdle (11 + laneQuad l.val) (s.setLane l.val { s.lane l.val with claimed := true, claimAt := s.dt, slice := none })
  | .spare k => s.setSpare k.val { s.spare k.val with st := 1, since := s.dt, next := none }
  | .cluster q u =>
    let v := s.quad q.val
    rearmIdle (11 + q.val) (s.setQuad q.val { v with units := Tab.put 0 v.units u.val 1, claim := some u.val, claimAt := s.dt, slice := none })
  | .engine e => rearmIdle (9 + e.val / 12) (s.setEng e.val { s.eng e.val with claim := 1, claimAt := s.dt, slice := none })

/-- SELFTEST_CLAIM (R206, R208, R216): the dispatcher claims a unit, where it may. -/
def execSelftestClaim (u : TestUnit) (s : State) : Res :=
  match u with
  | .spare _ => ok s
  | _ => ok (if testsOn s && claimable s u then claimUnit u s else s)

/-- SELFTEST_SLICE_START (R206, R758): the slice of a claimed unit starts once its queue, its quad's queues or its job set is
empty; a spare has no claim. -/
def execSelftestSliceStart (u : TestUnit) (s : State) : Res :=
  match u with
  | .lane l =>
    let v := s.lane l.val
    ok (if v.claimed && v.slice.isNone && v.queue.isEmpty then s.setLane l.val { v with slice := some s.dt } else s)
  | .spare _ => ok (if testsOn s && claimable s u then claimUnit u s else s)
  | .cluster q u =>
    let v := s.quad q.val
    ok (if decide (v.claim = some u.val) && v.slice.isNone && quadQueuesEmpty s q.val then
      s.setQuad q.val { v with slice := some s.dt } else s)
  | .engine e =>
    let v := s.eng e.val
    ok (if decide (v.claim = 1) && v.slice.isNone && v.jobs.isEmpty && auditGap s e.val then
      s.setEng e.val { v with slice := some s.dt } else s)

/-- A unit takes no part in the rotation: it is fenced, failed, or a spare in use. -/
def unitOut (s : State) (n : Nat) : Bool :=
  match unitOfNum n with
  | .lane l => decide ((s.lane l.val).cause ≠ 0)
  | .spare k => decide ((s.spare k.val).st ≥ 2)
  | .cluster q u => decide ((s.quad q.val).cause ≠ 0 ∨ (s.quad q.val).unit u.val = 2)
  | .engine e => decide ((s.eng e.val).cause ≠ 0)

/-- Note that a unit has been tested; with the last one a full pass ends (8802:07). -/
def noteTested (u : TestUnit) (s : State) : State :=
  let t := s.rst.tested ||| 2 ^ unitNum u
  if (List.range unitCount).all (fun n => bit t n || unitOut s n) then
    { s with rst := { s.rst with tested := 0, lastPass := s.dt } }
  else { s with rst := { s.rst with tested := t } }

/-- Count a slice that passed or failed (B890). -/
def sliceCount (pass : Bool) (s : State) : State := s.bump 0xB890 (if pass then 8 else 9)

/-- SELFTEST_SLICE_END (R757, R760, R276, R292 step 3, R294): the slice's end with its outcome. A failed unit is fenced with
cause SELFTEST; a lane served by its spare fails the spare. No effect where the unit has no slice in progress. -/
def execSelftestSliceEnd (u : TestUnit) (r : SliceResult) (s : State) : Res :=
  match u with
  | .lane l =>
    match (s.lane l.val).slice with
    | none => ok s
    | some t =>
      let s := countCorrected l.val r.corrected (sliceCount r.pass (s.at (t + sliceNs u)))
      let s := s.setLane l.val { s.lane l.val with claimed := false, slice := none }
      let s := noteTested u s
      if r.pass then ok (rearmIdle (11 + laneQuad l.val) s)
      else if (s.lane l.val).spared then ok (failSpareUnit (laneTile l.val) s)
      else ok (fenceLane l.val 1 s)
  | .spare k =>
    let v := s.spare k.val
    if v.st = 1 then
      let s := noteTested u (sliceCount r.pass (s.at (v.since + sliceNs u)))
      if r.pass then
        let s := s.setSpare k.val { v with st := 0, since := s.dt, next := none }
        match v.next with
        | some l => ok (settleDegraded (substStart l s))
        | none => ok s
      else ok (failSpareUnit k.val s)
    else if v.st = 2 ∧ v.step = 3 then
      let s := sliceCount r.pass (s.at (v.since + sliceNs u))
      ok (if r.pass then s.setSpare k.val { v with step := 4, since := s.dt } else failSpareUnit k.val s)
    else ok s
  | .cluster q u' =>
    match (s.quad q.val).slice with
    | none => ok s
    | some t =>
      if (s.quad q.val).claim ≠ some u'.val then ok s
      else
        let s := sliceCount r.pass (s.at (t + sliceNs u))
        let v := s.quad q.val
        let s := s.setQuad q.val { v with claim := none, slice := none, units := Tab.put 0 v.units u'.val 0 }
        let s := noteTested u s
        ok (if r.pass then rearmIdle (11 + q.val) s else failCluster q.val (2 ^ u'.val) s)
  | .engine e =>
    match (s.eng e.val).slice with
    | none => ok s
    | some t =>
      let s := sliceCount r.pass (s.at (t + sliceNs u))
      let s := s.setEng e.val { s.eng e.val with claim := 0, slice := none }
      let s := noteTested u s
      ok (if r.pass then bgTry (e.val / 12) (rearmIdle (9 + e.val / 12) (pkKick e.val s.dt s)) else fencePkUnit e.val 1 s)

/-- SELFTEST_CLAIM_WITHDRAW (R758): a cluster claim whose quad has not become empty within 1 ms is withdrawn and counted; the
unit is tried again after the next one. -/
def execSelftestClaimWithdraw (q : Fin 16) (s : State) : Res :=
  let v := s.quad q.val
  match v.claim with
  | none => ok s
  | some u =>
    if v.slice.isSome || quadQueuesEmpty s q.val then ok s
    else
      let s := s.at (v.claimAt + ms 1)
      let s := s.setQuad q.val { v with claim := none, units := Tab.put 0 v.units u 0 }
      let s := { s with rst := { s.rst with again := s.rst.again ++ [(68 + 5 * q.val + u, 1)] } }
      ok (rearmIdle (11 + q.val) (s.bump 0x8802 8))

/-- The next unit of the rotation (R758, R759): a withdrawn one whose turn has come, else the first from the rotation's place
on that has not been tested in this pass and can be claimed now. -/
def nextUnit (s : State) : Option Nat :=
  match s.rst.again.find? (fun a => decide (a.2 = 0) && claimable s (unitOfNum a.1)) with
  | some a => some a.1
  | none =>
    ((List.range unitCount).map (fun i => (s.rst.rotation + i) % unitCount)).find? (fun n =>
      ! bit s.rst.tested n && claimable s (unitOfNum n))

/-- SELFTEST_SCHEDULE (R757-R759): the supervisor requests the next slice of its rotation. Units whose domain is OFF are
skipped and not woken. -/
def execSelftestSchedule (s : State) : Res :=
  if ¬ testsOn s then ok s
  else
    match nextUnit s with
    | none => ok s
    | some n =>
      let again := (s.rst.again.filter (fun a => decide (a.1 ≠ n))).map (fun a => (a.1, a.2 - 1))
      let rot := if s.rst.again.any (fun a => decide (a.1 = n ∧ a.2 = 0)) then s.rst.rotation else (n + 1) % unitCount
      ok (claimUnit (unitOfNum n) { s with rst := { s.rst with again := again, rotation := rot } })

/-- The effect of 3000:06 (R218, R221, R224): a configuration change with the pending writes, in the present mode; in DRAIN the served set stays
that of the target mode. -/
def fxFlip (s : State) (role : Nat) (v : Bytes) : Ans :=
  if changePending s then ansErr s rIN_PROGRESS
  else startOp 0x3000 6 role .none v (fun k s => startFlip (match s.power.drainTo with | some m => m.code | none => (baseMode s).code) (some k) s) s

/-- EPOCH_CHANGE_REQUEST (R218): a write of 0x01 to 3000:06. -/
def execEpochChangeRequest (r : Req) (s : State) : Res :=
  ok (serveWrite (reqWith r [0x01]) 0x3000 6 always always anyValue fxFlip s)

/-- EPOCH_LOAD_START (R221, R287): the load starts once the previous epoch has no work left. -/
def execEpochLoadStart (s : State) : Res :=
  let s := dropPrev s
  if s.unit.epoch.st = .queued ∧ ¬ prevWork s then ok (startLoad s) else ok s

/-- EPOCH_ACK_TIMEOUT (R219): 3000:05 after the start of the load a missing acknowledgement fails the change. -/
def execEpochAckTimeout (s : State) : Res :=
  let e := s.unit.epoch
  if e.st = .loading then ok (failChange (s.at (e.loadAt + us (s.cfg 0x3000 5)))) else ok s

/-- EPOCH_FLIP (R218, R223, R290): at TF every dispatcher and port switches. -/
def execEpochFlip (s : State) : Res :=
  let e := s.unit.epoch
  if e.st = .acked then ok (flip (s.at e.tf)) else ok s

/-- FRAME_SLOT_FREE (R238, R271): the result link has read the last body byte of a posted response. No effect before its header
has left the collector. -/
def execFrameSlotFree (lane : Fin 64) (slot : Fin 32) (s : State) : Res :=
  match s.unit.jobs.find? (fun e => decide (e.2.lane = lane.val ∧ e.2.slot = slot.val ∧ 5 ≤ e.2.stage) && ! e.2.slotFreed) with
  | none => ok s
  | some (jn, _) =>
    if (s.lane lane.val).posts.any (fun h => decide (h.job = some jn)) then ok s
    else
      let s := match s.port.resLink.find? (fun h => decide (h.job = some jn)) with
        | some h => s.at (h.due - 12 + ceilDiv h.body.length 512)
        | none => s
      ok (freeSlotOf jn s)

/-- A timer of a lane. -/
def Lane.timer (v : Lane) (k : Nat) : LaneTimer := Tab.look {} v.tmr k
/-- Set it. -/
def Lane.setTimer (v : Lane) (k : Nat) (t : LaneTimer) : Lane := { v with tmr := Tab.put {} v.tmr k t }

/-- LANE_TIMER_EXPIRY (R283): the count reaches 0. No effect where the timer is not enabled. -/
def execLaneTimerExpiry (lane : Fin 64) (k : Fin 4) (s : State) : Res :=
  let t := (s.lane lane.val).timer k.val
  if ¬ t.en then ok s
  else
    let s := s.at t.due
    let v := s.lane lane.val
    let again := bit v.pend k.val
    let s := s.noteSet (tevtKey lane.val)
      (2 ^ k.val + (if again then (if bit v.ovf k.val then 0 else 2 ^ (16 + k.val)) else 2 ^ (4 + k.val)))
    let v := { v with ovf := if again then v.ovf ||| 2 ^ k.val else v.ovf, pend := v.pend ||| 2 ^ k.val }
    let t := { t with epoch := (epochAt s s.dt).num, en := t.periodic, due := if t.periodic then t.due + us t.reload else t.due }
    ok (s.setLane lane.val (v.setTimer k.val t))

/-- A write of TMRk_CFG (R283): EN loads the count, which falls at each whole microsecond of DT; EN with RELOAD 0 stays 0. -/
def timerConfig (l k v : Nat) (s : State) : State :=
  let t := (s.lane l).timer k
  let reload := v % 2 ^ 24
  let on : Bool := bit v 31 && decide (reload ≠ 0)
  let due : Nat := if on then s.dt / 1000 * 1000 + us reload else t.due
  s.setLane l ((s.lane l).setTimer k { t with en := on, periodic := bit v 30, reload := reload, due := due })

/-- LANE_TIMER_CONFIG (R283). -/
def execLaneTimerConfig (lane : Fin 64) (k : Fin 4) (v : Word) (s : State) : Res := ok (timerConfig lane.val k.val v.toNat s)

/-- A write of TEVT (R284, R300): ones clear PEND with its CARRIED bit, and OVF. A timer that reached 0 in this cycle keeps PEND, and
an OVF that it set against the PEND cleared here is not set. -/
def tevtClear (l v : Nat) (s : State) : State :=
  let x := s.lane l
  let f := s.freshBits (tevtKey l)
  let p := v % 16
  let fo := f / 2 ^ 16 % 16
  let o := v / 2 ^ 16 % 16
  let o := (o - (o &&& fo)) ||| (fo &&& p)
  let pc := p - (p &&& f)
  s.setLane l { x with pend := x.pend - (x.pend &&& pc), carried := x.carried - (x.carried &&& p), ovf := x.ovf - (x.ovf &&& o) }

/-- TEVT_CLEAR (R284). -/
def execTevtClear (lane : Fin 64) (v : Word) (s : State) : Res := ok (tevtClear lane.val v.toNat s)

/-- A side sets its mailbox flag: bit 0 IN_FULL, bit 1 OUT_FULL (R286). -/
def mbxSet (l k : Nat) (s : State) : State :=
  let x := s.lane l
  (s.setLane l (if k = 0 then { x with inFull := true } else { x with outFull := true })).noteSet (mbxKey l) (2 ^ k)

/-- The other side clears it, unless it was set in the same cycle (R18). -/
def mbxClear (l k : Nat) (s : State) : State :=
  let x := s.lane l
  if bit (s.freshBits (mbxKey l)) k then s
  else s.setLane l (if k = 0 then { x with inFull := false } else { x with outFull := false })

/-- MBXI_POST (R286): the supervisor sets IN_FULL. -/
def execMbxiPost (lane : Fin 64) (s : State) : Res := ok (mbxSet lane.val 0 s)
/-- MBXI_ACK (R286): the lane clears IN_FULL. -/
def execMbxiAck (lane : Fin 64) (s : State) : Res := ok (mbxClear lane.val 0 s)
/-- MBXO_POST (R286): the lane sets OUT_FULL, which raises the supervisor's lane-mailbox interrupt. -/
def execMbxoPost (lane : Fin 64) (s : State) : Res := ok (mbxSet lane.val 1 s)
/-- MBXO_ACK (R286): the supervisor clears OUT_FULL. -/
def execMbxoAck (lane : Fin 64) (s : State) : Res := ok (mbxClear lane.val 1 s)

/-- LOAD of a bank (R290, R303). -/
def bankLoad (l b : Nat) (s : State) : State :=
  let v := { s.lane l with loadsel := decide (b = 1) }
  if v.cause = 0 ∧ loadPhase s ∧ v.bank b = 0 then rearmIdle (11 + laneQuad l) (s.setLane l (v.setBank b 1)) else s.setLane l v

/-- The supervisor has written a LOADING bank and acknowledges it (R290, R303, R392): the bank set of the shadow is in place, the
bank is READY, and the lane's acknowledgement is sent. A set that does not fit is not acknowledged (R287, R393), nor a bank of a
lane whose quad is not READY. `copyOk`: the supervisor's copies matched their digests; else the reason is code 6. -/
def bankAck (l b : Nat) (copyOk : Bool) (s : State) : State :=
  let v := { s.lane l with loadsel := decide (b = 1) }
  match s.unit.epoch.shadow with
  | none => s.setLane l v
  | some n =>
    let set := bankSet s n l
    if v.cause = 0 ∧ v.bank b = 1 ∧ Tab.look 0 n.banks l = b ∧ bankFit set = 0 ∧ s.domReady (11 + laneQuad l) then
      if copyOk then rearmIdle (11 + laneQuad l) (laneAck l ((s.setLane l ((v.loadBank b set).ackBank b s.dt)).bump 0x41F0 2))
      else (s.setLane l v).setEpoch { s.unit.epoch with loadRes := Tab.put 0 s.unit.epoch.loadRes l 6 }
    else s.setLane l v

/-- DISCARD of a bank (R290, R303). -/
def bankDiscard (l b : Nat) (s : State) : State :=
  let v := { s.lane l with loadsel := decide (b = 1) }
  if v.cause = 0 ∧ (v.bank b = 1 ∨ v.bank b = 2) then rearmIdle (11 + laneQuad l) (s.setLane l (v.setBank b 0)) else s.setLane l v

/-- BANK_LOAD (R290). -/
def execBankLoad (lane : Fin 64) (b : Fin 2) (s : State) : Res := ok (bankLoad lane.val b.val s)
/-- BANK_ACK (R290). -/
def execBankAck (lane : Fin 64) (b : BankCopy) (s : State) : Res := ok (bankAck lane.val b.bank.val b.copyOk s)
/-- BANK_DISCARD (R290). -/
def execBankDiscard (lane : Fin 64) (b : Fin 2) (s : State) : Res := ok (bankDiscard lane.val b.val s)

/-- Release a REQUEST fence (R298, R302): the lane returns to admission, or waits for its fenced quad. -/
def unfenceLane (l : Nat) (s : State) : State :=
  let v := s.lane l
  if v.cause ≠ 4 then s
  else if (s.quad (laneQuad l)).cause ≠ 0 then s.setLane l { v with cause := 5 }
  else settleDegraded (refreshBanks l (s.setLane l { v with cause := 0 }))

/-- The values 40nn:0A accepts: 1, and 2 on a REQUEST fence (R298). -/
def laneFenceRange (n : Nat) (s : State) (v : Bytes) : Bool := decide (beNat v = 1 ∨ (beNat v = 2 ∧ (s.lane n).cause = 4))

/-- The effect of 40nn:0A (R298, R302). -/
def fxLaneFence (n : Nat) (s : State) (_role : Nat) (v : Bytes) : Ans :=
  ansOK (if beNat v = 1 then fenceLane n 4 s else unfenceLane n s)

/-- LANE_FENCE_REQUEST (R298, R302): by 40nn:0A, or by LN_n_CTRL.FENCE. -/
def execLaneFenceRequest (via : Option Req) (lane : Fin 64) (s : State) : Res :=
  match via with
  | some r => ok (serveWrite (reqWith r [0x01]) (0x4000 + lane.val) 0x0A always always (laneFenceRange lane.val) (fxLaneFence lane.val) s)
  | none => ok (fenceLane lane.val 4 s)

/-- LANE_UNFENCE (R298): by 40nn:0A, or by LN_n_CTRL.UNFENCE, which other causes ignore. -/
def execLaneUnfence (via : Option Req) (lane : Fin 64) (s : State) : Res :=
  match via with
  | some r => ok (serveWrite (reqWith r [0x02]) (0x4000 + lane.val) 0x0A always always (laneFenceRange lane.val) (fxLaneFence lane.val) s)
  | none => ok (unfenceLane lane.val s)

/-- MEMORY_UNCORRECTABLE (R277): in a lane's IMEM or DMEM the lane is fenced, in the frame buffer or the derived-key cache
(`shared`) the whole quad, with cause MEMORY; the running job is answered DOMAIN_UNAVAILABLE. -/
def execMemoryUncorrectable (lane : Fin 64) (shared : Bool) (s : State) : Res :=
  ok (if shared then fenceQuad (laneQuad lane.val) 3 s else fenceLane lane.val 3 s)

/-- Remove or defer a node's entries in one quad (R281). -/
def removeNode (q node : Nat) (s : State) : State :=
  ((s.quad q).cache.filter (fun e => decide (e.2.st ≠ .empty ∧ e.2.node = node) && ! e.2.deferred)).foldl (fun s e =>
    if e.2.pins = 0 then (setCache q e.1 {} s).bump (0xB440 + q) 4
    else (setCache q e.1 { e.2 with deferred := true } s).bump (0xB440 + q) 5) s

/-- CACHE_REMOVAL (R281, R440): the next removal the key die has ordered reaches the caches of every quad and their mirrors. -/
def execCacheRemoval (s : State) : Res :=
  match s.key.removals with
  | [] => ok s
  | n :: rest =>
    let s := { s with key := { s.key with removals := rest } }
    ok ((List.range 16).foldl (fun s q => removeNode q n s) s)

end Sys2Proof.Machine
end

