-- ==== Sys2Proof/Machine/Tamper.lean ====
section
/-!
DEFINITION. The meanings of the tamper, clock-slack, enclosure, alarm-output and evidence-log commands (R643-R677, R728).
-/
namespace Sys2Proof.Machine

/-- CONDITION_ASSERT (R643, R646, R648): a sensor asserts a condition 0x01-0x11. -/
def execConditionAssert (code : Byte) (sensor : BitVec 16) (s : State) : Res := ok (condAssert code.toNat sensor.toNat s)

/-- CONDITION_DEASSERT (R646, R647): no sensor reports the condition any more. One asserted for 1 s or more is logged once as
CLEARED; escalation restarts. In GUARD nothing is logged (R661). -/
def execConditionDeassert (code : Byte) (s : State) : Res :=
  let k := code.toNat
  if ¬ (s.cond k).asserted then ok s
  else if s.power.mode = .guard then ok (guardDeassert k s)
  else
    let s := settleEscalation k s
    let c := s.cond k
    let long := decide (s.dt ≥ c.since + sec 1)
    let s := s.setCond k { c with asserted := false, sinceLog := if long then 0 else c.sinceLog }
    ok (if long then logEvent 0x04 k 0 c.sinceLog s else s)

/-- ESCALATION (R647): a W condition that stays asserted for its escalation time takes the E response. -/
def execEscalation (code : Byte) (s : State) : Res := ok (escalate code.toNat s)

/-- The effect of 7000:06 (R650). -/
def fxZeroise (s : State) (_role : Nat) (_v : Bytes) : Ans := ansOK (zeroiseErase (credOfSession s) s)
/-- Only 0x5A zeroises (R671). -/
def zeroRange (_ : State) (v : Bytes) : Bool := decide (beNat v = 0x5A)

/-- ZEROISE (R650): 0x5A written to 7000:06. -/
def execZeroise (r : Req) (s : State) : Res := ok (serveWrite (reqWith r [0x5A]) 0x7000 6 always always zeroRange fxZeroise s)

/-- TMP_ZERO_WRITE (R650): the key value starts an erase; any other value is ignored. -/
def execTmpZeroWrite (v : Word) (s : State) : Res :=
  if v = 0x5A3C96E1 ∧ s.power.mode ≠ .guard then ok (zeroiseErase 0 s) else ok s

/-- ALARM_ENTER (R653, R729; its log entry's ACT is 2, E: log entry 95): tier 2 is complete, the sweeps are sent and the audit blocks closed; bypass forwarding stops. RETIRED
has no ALARM (R46): the erase ends, and the mode does not change. -/
def execAlarmEnter (s : State) : Res :=
  if ¬ s.tamper.erasing ∨ ¬ sweepsDone s ∨ (s.aud 0).run ∨ (s.aud 1).run then ok s
  else
    if s.power.lcs = .retired then ok { s with tamper := { s.tamper with erasing := false } }
    else
    let s := quietDomains s
    let s := { s with tamper := { s.tamper with erasing := false } }
    ok ((logEvent 0x06 s.tamper.lastCond 2 0 s).setMode .alarm)

/-- The entries of R649 accept writes only in CEREMONY by OWNER. -/
def tamperWritable (s : State) (role : Nat) : Bool := decide (s.power.mode = .ceremony) && decide (role = 4)

/-- An accepted write of such an entry is logged as CONFIG (R649). -/
def logConfig (sub idx k : Nat) (s : State) : State := logEvent 0x0A sub 0 (idx * 256 + k) s

/-- The effect of 70cc:02 (R648, R649): the response in force from the next ACLK; an asserted condition erases at once. -/
def fxResponse (code : Nat) (s : State) (_role : Nat) (v : Bytes) : Ans :=
  let s := logConfig 1 (0x7010 + code) 2 (s.setEnt (0x7010 + code) 2 v)
  let c := s.cond code
  if beNat v = 1 ∧ c.asserted then ansOK (tamperErase code (logEvent 0x02 code 2 c.sensor s)) else ansOK s
/-- A write of W to a fixed condition receives RANGE (R649). -/
def responseRange (code : Nat) (_ : State) (v : Bytes) : Bool := ! (fixedE code && decide (beNat v = 0))

/-- CONDITION_RESPONSE_WRITE (R648, R649). -/
def execConditionResponseWrite (r : Req) (code : Fin 17) (s : State) : Res :=
  ok (serveWrite r (0x7011 + code) 2 always tamperWritable (responseRange (code + 1)) (fxResponse (code + 1)) s)

/-- PSTEP of a compute die (R657). -/
def pstep (s : State) (d : Nat) : Nat := if d = 0 then s.tamper.pstep0 else s.tamper.pstep1

/-- Set PSTEP; PMAX keeps the highest step reached. -/
def setPstep (d v : Nat) (s : State) : State :=
  let t := s.tamper
  let s := if (if d = 0 then t.pmax0 else t.pmax1) < v then s.noteSet (regKey 2 (tmpOff + 0x14 + 4 * d)) (2 ^ 20) else s
  let t := { t with slackDt := Tab.put 0 t.slackDt d s.dt }
  if d = 0 then { s with tamper := { t with pstep0 := v, pmax0 := Nat.max t.pmax0 v } }
  else { s with tamper := { t with pstep1 := v, pmax1 := Nat.max t.pmax1 v } }

/-- 4,096 LCLK at a step, in ns: the period is 800 ps and 12.5 ps a step (R657). -/
def recoverTime (p : Nat) : Nat := (4096 * (1600 + 25 * p) + 1999) / 2000

/-- SLACK_REPORT (R657, R658): LOW lengthens the period by one step, CRIT by four; at step 16 SLK is asserted. -/
def execSlackReport (die : Fin 2) (crit : Bool) (sensor : Fin 80) (s : State) : Res :=
  if ¬ s.domReady (7 + die) then ok s
  else if pstep s die = 16 then ok (condAssert 0x0F (die * 256 + sensor) s)
  else ok (setPstep die (Nat.min 16 (pstep s die + if crit then 4 else 1)) s)

/-- LCLK_STEP_RECOVERY (R657): after 4,096 LCLK with every sensor OK, one step shorter. -/
def execLclkStepRecovery (die : Fin 2) (s : State) : Res :=
  let p := pstep s die
  if p = 0 then ok s
  else ok (setPstep die (p - 1) (s.at (Tab.look 0 s.tamper.slackDt die.val + recoverTime p)))

/-- The board's set-point code follows the set point. -/
def setVset (v : Nat) (s : State) : State :=
  { s with power := { s.power with vset := v, vid := (v - 700) / 5, vsetDt := s.dt } }

/-- VDD_L_SETPOINT_UP (R728): 10 mV every 1 µs while PSTEP of either die is 4 or more, to 800 mV. -/
def execVddLSetpointUp (s : State) : Res :=
  if pstep s 0 < 4 ∧ pstep s 1 < 4 then ok s
  else
    let s := s.at (s.power.vsetDt + us 1)
    ok (setVset (Nat.min 800 (s.power.vset + 10)) s)

/-- VDD_L_SETPOINT_DOWN (R728): 5 mV every 1 ms while both PSTEP are 0, to 700 mV. -/
def execVddLSetpointDown (s : State) : Res :=
  if pstep s 0 ≠ 0 ∨ pstep s 1 ≠ 0 then ok s
  else
    let s := s.at (s.power.vsetDt + ms 1)
    ok (setVset (Nat.max 700 (s.power.vset - 5)) s)

/-- The effect of 7070:01 (R660). DESIGN CHOICE (log entry 95): LEARN changes the channels' configuration and falls under R649. -/
def fxLearn (s : State) (role : Nat) (v : Bytes) : Ans :=
  startOp 0x7070 1 role .none v (fun k s => logConfig 4 0x7070 1 { s with tamper := { s.tamper with learn := some k } }) s

/-- LEARN (R660): 0x01 written to 7070:01. -/
def execLearn (r : Req) (s : State) : Res := ok (serveWrite (reqWith r [1]) 0x7070 1 always tamperWritable anyValue fxLearn s)

/-- A mean lies in its kind's range (R659, R660): 100 Ω to 100 kΩ, or 10 pF to 10 nF in fF. -/
def meanOk (kind v : Nat) : Bool :=
  if kind = 0 then decide (100 ≤ v ∧ v ≤ 100000) else decide (10000 ≤ v ∧ v ≤ 10000000)

/-- One channel learned (R660): its baseline, or UNSTABLE. DESIGN CHOICE (log entry 95): an unstable channel keeps its old
baseline, and the others take theirs though LEARN fails. -/
def learnChan (c mean : Nat) (unstable : Bool) (s : State) : Bool × State :=
  let s := s.setNum (0x7080 + c) 4 mean
  let good := ! unstable && meanOk (s.num (0x7080 + c) 2) mean
  let s := { s with tamper := { s.tamper with chState := Tab.put 0 s.tamper.chState c (if good then 1 else 5)
                                              measured := Tab.put 0 s.tamper.measured c mean } }
  if good then (true, setKept (0x7080 + c) 3 (beBytes mean 4) s) else (false, s)

/-- LEARN_DONE (R660): 64 ms after LEARN the baselines of the enabled channels are stored, or LEARN fails. -/
def execLearnDone (means : List (BitVec 32)) (unstable : BitVec 64) (s : State) : Res :=
  match s.tamper.learn with
  | none => ok s
  | some k =>
    let s := s.at ((s.slot k).started + ms 64)
    let r := (List.range 64).foldl (fun (r : Bool × State) c =>
      if r.2.num (0x7080 + c) 1 = 0 then r
      else
        let q := learnChan c (means.getD c 0).toNat (unstable.getLsbD c) r.2
        (r.1 && q.1, q.2)) (true, s)
    let s := { r.2 with tamper := { r.2.tamper with learn := none } }
    ok (if r.1 then doneSlot k [] s else failSlot k 1 s)

/-- GUARD_SAMPLE (R661): every 8 SCLK32 in GUARD the island samples the enclosure channels. -/
def execGuardSample (cut short : BitVec 64) (s : State) : Res :=
  if s.power.mode ≠ .guard then ok s
  else
    let s := setRtc (rtcTicks s + 8) s
    let on (v : BitVec 64) (code : Nat) (s : State) : State :=
      let l := (bitsSet 64 v.toNat).filter (fun c => ! chanOff s code c)
      if l.isEmpty then guardDeassert code s else l.foldl (fun s c => guardAssert code c s) s
    ok (on short 0xD (on cut 0xC s))

/-- The effect of 706n:04 (R649, R663). -/
def fxAlarmAck (n : Nat) (s : State) (_role : Nat) (_v : Bytes) : Ans :=
  let s := logConfig 6 (0x7060 + n) 4 s
  ansOK { s with tamper := { s.tamper with alLatch := Tab.drop s.tamper.alLatch n, alAck := Tab.put 0 s.tamper.alAck n 1 } }

/-- ALARM_OUTPUT_ACK (R663): 0x01 written to 706n:04. -/
def execAlarmOutputAck (r : Req) (n : Fin 6) (s : State) : Res :=
  ok (serveWrite (reqWith r [1]) (0x7060 + n) 4 always tamperWritable anyValue (fxAlarmAck n) s)

/-- The order in which queued entries are written (R664): event DT, TYPE, SRC. -/
def evBefore (a b : LogEv) : Bool :=
  decide (a.dt < b.dt) || (decide (a.dt = b.dt) && (decide (a.ty < b.ty) || (decide (a.ty = b.ty) && decide (a.src < b.src))))

/-- The next event to write. -/
def firstEv : LogEv → List LogEv → LogEv
  | a, [] => a
  | a, b :: t => if evBefore b a then firstEv b t else firstEv a t

/-- An entry's bytes (R665). -/
def evBytes (s : State) (e : LogEv) : Bytes :=
  let dtv : Bool := ! bit e.act 2
  beBytes s.log.seq 4 ++ [byte e.ty, byte e.src, byte (e.act + if dtv then 8 else 0), 0] ++ beBytes e.rtcs 4 ++ beBytes e.rtcf 2 ++
  beBytes (if dtv then e.dt else 0) 8 ++ beBytes e.data 4 ++ (logHead s).take 6

/-- Write one entry at the region's end (R664-R666): MRAM, SEQ and HEAD. -/
def writeEntry (e : LogEv) (s : State) : State :=
  let b := evBytes s e
  let i := s.log.count
  let r := programPage (0x300 + i / 8) (32 * (i % 8)) b 0 s
  if r.1 ≠ 0 then vbatInc 13 { r.2 with log := { r.2.log with full := true } }
  else
    { r.2 with log := { r.2.log with seq := r.2.log.seq + 1, head := some (sha256 (logHead r.2 ++ b)), count := i + 1 } }

/-- EVIDENCE_ENTRY_WRITE (R664-R667): the GUARD queue first, then the earliest event; once 4,095 entries lie in the region,
LOG_FULL is the 4,096th. -/
def execEvidenceEntryWrite (s : State) : Res :=
  if s.power.mode = .guard ∨ (s.log.guardQ.isEmpty ∧ s.log.queue.isEmpty) then ok s
  else if ¬ s.domReady 4 then ok (wakeDomain 4 0x01 0x7A s)
  else
    let (e, s) : LogEv × State :=
      match s.log.guardQ, s.log.queue with
      | g :: gs, _ => (g, { s with log := { s.log with guardQ := gs } })
      | [], a :: t =>
        let e := firstEv a t
        (e, { s with log := { s.log with queue := s.log.queue.erase e } })
      | [], [] => (⟨0, 0, 0, 0, 0, 0, 0⟩, s)
    if s.log.full ∨ regionReadOnly s 12 then ok (vbatInc 13 { s with log := { s.log with full := true } })
    else
      let s := writeEntry e s
      if s.log.count = 4095 ∧ ¬ s.log.full then
        let s := writeEntry ⟨0x1F, 0, 0, rtcSec s, rtcFrac s, s.dt, 0⟩ s
        ok { s with log := { s.log with full := true } }
      else ok s

/-- The effect of 7103:01 (R668): the region is emptied; LOG_ROLL is its first entry. -/
def fxLogRoll (s : State) (role : Nat) (v : Bytes) : Ans :=
  startOp 0x7103 1 role .none v (fun k s =>
    if regionReadOnly s 12 then failSlot k 6 s
    else
      let n := s.log.count
      let s := { s with log := { s.log with count := 0, full := false, baseSeq := s.log.seq, baseHead := some (logHead s) } }
      doneSlot k [] (writeEntry ⟨0x09, 0, 0, rtcSec s, rtcFrac s, s.dt, n⟩ s)) s
/-- Only the SEQ of the region's last entry rolls it (R668). -/
def rollRange (s : State) (v : Bytes) : Bool := decide (0 < s.log.count ∧ beNat v + 1 = s.log.seq)

/-- LOG_ROLL (R668). -/
def execLogRoll (r : Req) (s : State) : Res := ok (serveWrite r 0x7103 1 always inCeremony rollRange fxLogRoll s)

/-- A log statement's bytes before its signature (R670). -/
def logBody (s : State) : Bytes :=
  let rolled := decide (0 < s.log.count) && decide (pageRead s 0x300 4 1 = [9])
  beBytes 0x53564C47 4 ++ [1, byte (b2n s.log.full + 2 * b2n rolled), 0, 0] ++ serial s ++ beBytes s.dt 8 ++ beBytes (rtcSec s) 4 ++
  beBytes s.log.baseSeq 4 ++ beBytes s.log.seq 4 ++ s.log.baseHead.getD (logGenesis s) ++ logHead s ++ fit (s.entW 0x7102 1) 32 ++
  (List.range 16).flatMap (fun i => beBytes (Tab.look 0 s.log.vbat i) 2)

/-- The effect of 7102:02 (R670, R457, R846): not produced without a root. -/
def fxLogStatement (s : State) (role : Nat) (v : Bytes) : Ans :=
  startOp 0x7102 2 role .none v (fun k s =>
    if s.power.lcs = .retired then failSlot k 0x0F s
    else if s.key.rootSt = 5 ∨ s.key.root.isEmpty then failSlot k 0x10 s
    else
      let b := logBody s
      let r := idkSign b s
      doneSlot k (b ++ r.1) r.2) s

/-- LOG_STATEMENT (R670): 0x01 written to 7102:02. -/
def execLogStatement (r : Req) (s : State) : Res := ok (serveWrite (reqWith r [1]) 0x7102 2 always always anyValue fxLogStatement s)

/-- The effect of 7000:08 (R676): the CONFIG entry carries the RTC from before the write. -/
def fxRtc (s : State) (_role : Nat) (v : Bytes) : Ans := ansOK (setRtc (beNat v * 32768) (logEvent 0x0A 5 0 (rtcSec s) s))

/-- RTC_SET (R676): the SCLK32 cycle after it is taken as at once (log entry 4). -/
def execRtcSet (r : Req) (s : State) : Res := ok (serveWrite r 0x7000 8 always always anyValue fxRtc s)

end Sys2Proof.Machine
end

