-- ==== Sys2Proof/Machine/Digest.lean ====
section
/-!
DEFINITION. The meanings of the digest engine's commands (R614-R621, R638, R639), of the measurement registers' commands
(R622-R625, R641), and BOOTLOCK.
-/
namespace Sys2Proof.Machine

/-- Result bytes of an algorithm (R614). -/
def digLen : Nat → Nat
  | 0 => 32 | 1 => 48 | 2 => 64 | 3 => 32 | 4 => 48 | _ => 64

/-- Block bytes of an algorithm (R614). -/
def digBlock : Nat → Nat
  | 0 => 64 | 1 => 128 | 2 => 128 | 3 => 136 | 4 => 104 | _ => 72

/-- The digest of a message (R614). -/
def digHash (alg : Nat) (m : Bytes) : Bytes :=
  match alg with
  | 0 => sha256 m | 1 => sha384 m | 2 => sha512 m | 3 => sha3 32 m | 4 => sha3 48 m | _ => sha3 64 m

/-- Set the digest engine. -/
def State.setDig (s : State) (d : DigState) : State := { s with dig := d }

/-- BUSY (R616): both blocks full, a key on its way, or the finish. -/
def digBusy (s : State) : Bool := s.dig.running && (decide (2 ≤ s.dig.full) || s.dig.keying || s.dig.finishing)

/-- An operation ends early with an ERR code (R616-R618): no result, no flags, the key zeroised. -/
def digEnd (e : Nat) (s : State) : State :=
  let d := s.dig
  s.setDig { d with running := false, keying := false, finishing := false, full := 0, msg := [], key := [], isMatch := false,
                    mismatch := false, res := [], err := e }

/-- DIG_STAT. -/
def digStat (s : State) : Nat :=
  let d := s.dig
  b2n (digBusy s) * 2 ^ 31 + b2n d.done * 2 ^ 30 + b2n d.trunc * 2 ^ 29 + b2n d.isMatch * 2 ^ 28 + b2n d.mismatch * 2 ^ 27 +
  b2n d.cmpflt * 2 ^ 26 + d.kstat % 256 * 2 ^ 16 + d.err % 16

/-- The key of an HMAC (R618): 0, the key, the state and the units of its delivery, or the status of the refusal. DESIGN CHOICE
(log entry 4): a refused delivery ends the operation at START. -/
def digKey (s : State) : Nat × Bytes × State × Nat :=
  let id := s.reg 2 (digOff + 8) % 2 ^ 18
  let r := deliver id [] 15 2 s
  if r.status ≠ 0 then (r.status, [], r.st, 0)
  else if ! bit r.eng 4 || decide (r.ktype ≠ 8) || ! bit r.use_ (if s.dig.mode = 1 then 2 else 3) then (tPOLICY, [], r.st, 0)
  else (0, r.key, r.st, r.units)

/-- KCLK per block of an algorithm (R614). -/
def digTime : Nat → Nat
  | 0 => 64 | 1 => 80 | 2 => 80 | _ => 24

/-- Blocks that the padding adds after the full blocks of a message of `n` bytes (FIPS 180-4, FIPS 202). -/
def digPad (alg n : Nat) : Nat :=
  let b := digBlock alg
  (if alg = 0 then (n + 8) / b + 1 else if alg ≤ 2 then (n + 16) / b + 1 else n / b + 1) - n / b

/-- The operation compares at its finish (R619, R620). -/
def digCompares (d : DigState) : Bool := d.cmpen || decide (d.mode = 2)

/-- When DONE sets (R614, R619, R620): the blocks, the padding, two more block times of an HMAC, 4 KCLK of a comparison. -/
def digDue (d : DigState) : Nat :=
  d.freeAt + digPad d.alg d.len * digTime d.alg + (if d.mode = 0 then 0 else 2 * digTime d.alg) + (if digCompares d then 4 else 0)

/-- The result of the running operation (R614, R618). -/
def digResult (d : DigState) : Bytes :=
  if d.mode = 0 then digHash d.alg d.msg else hmac (digHash d.alg) (digBlock d.alg) d.key d.msg

/-- DIG_EXP0-15 as bytes. -/
def digExpected (s : State) : Bytes := (List.range 16).flatMap (fun i => beBytes (s.reg 2 (digOff + 0x80 + 4 * i)) 4)

/-- A fault of the doubled comparator (R621): CMPFLT's count and the CMP event. -/
def cmpFault (s : State) : State := condAssert 0x11 0 (s.bump 0x6800 4)

/-- The finish (R615, R619-R621): the result, the comparison, DONE. `flags` gives both flags where a fault makes them equal. -/
def digFinish (flags : Option Bool) (s : State) : State :=
  let d := s.dig
  let r := digResult d
  let n := if d.cmplen = 0 then r.length else d.cmplen
  let cmp := digCompares d
  let same := decide (r.take n = (digExpected s).take n)
  let fault := cmp && flags.isSome
  let t := s.setDig { d with running := false, finishing := false, full := 0, key := [], done := true
                             res := if d.mode = 2 then [] else r
                             isMatch := cmp && flags.getD same, mismatch := cmp && flags.getD (! same)
                             cmpflt := d.cmpflt || fault }
  if fault then cmpFault t else t

/-- When the input block in work is done (R614): the blocks follow one another. -/
def digBlockDue (d : DigState) : Nat := d.freeAt - (d.full - 1) * digTime d.alg

/-- The engine can finish: the message is complete and no key is on its way. -/
def digFinishes (d : DigState) : Bool := d.running && d.finishing && ! d.keying

/-- What the engine has done by now before it takes a write (R638): an input block that is done, a finish that is reached, and
a key delivery that ended in an earlier KCLK. -/
def digSettle (s : State) : State :=
  let d := s.dig
  let s := if d.running && d.keying && decide (d.keyAt < s.dt) then
      s.setDig { d with keying := false, finishing := decide (d.len = 0) } else s
  let d := s.dig
  let s := if d.running && decide (d.full = 2) && decide (digBlockDue d ≤ s.dt) then s.setDig { d with full := 1 } else s
  let d := s.dig
  let s := if d.running && decide (d.full = 1) && decide (d.freeAt ≤ s.dt) then s.setDig { d with full := 0 } else s
  if digFinishes s.dig && decide (digDue s.dig ≤ s.dt) then digFinish none s else s

/-- CMPLEN is one that the mode allows (R619 and the DIG_CTRL table). -/
def cmplenOk (mode alg n : Nat) : Bool :=
  decide (n ≤ digLen alg) && (decide (mode ≠ 2) || decide (n = 0 ∨ 16 ≤ n))

/-- DIG_START (R615, R617-R619, R638): START of DIG_CTRL with the fields of the same write. -/
def execDigStart (ctrl : Word) (s : State) : Res :=
  if ¬ s.domReady 5 then ok s
  else
    let s := digSettle s
    let c := ctrl.toNat
    let old := s.dig
    let early := old.running && decide (old.msg.length < old.len)
    let d : DigState := { mode := bits c 29 28, alg := bits c 27 24, cmpen := bit c 23, cmplen := bits c 22 16,
                          len := s.reg 2 (digOff + 4), running := true, trunc := old.trunc || early, cmpflt := old.cmpflt,
                          freeAt := s.dt }
    let s := s.setDig d
    let s := if early then s.noteSet (regKey 2 (digOff + 0x10)) (2 ^ 29) else s
    if d.mode = 3 ∨ 6 ≤ d.alg ∨ ¬ cmplenOk d.mode d.alg d.cmplen then ok (digEnd 4 s)
    else if d.mode = 0 then ok (s.setDig { d with finishing := decide (d.len = 0) })
    else
      let k := digKey s
      let t := k.2.2.1
      if k.1 ≠ 0 then ok (digEnd 3 (t.setDig { t.dig with kstat := k.1 }))
      else
        let e := s.dt + 40 * k.2.2.2 + digTime d.alg
        ok (t.setDig { t.dig with key := k.2.1, keying := true, keyAt := e, freeAt := e })

/-- DIG_ABORT (R617): ABORT ends an operation whose count is below its length with ERR ABORTED. -/
def execDigAbort (s : State) : Res :=
  if s.domReady 5 && s.dig.running && decide (s.dig.msg.length < s.dig.len) then ok (digEnd 5 s) else ok s

/-- A message word is accepted (R615): bytes beyond DIG_LEN are ignored; at DIG_LEN the engine finishes. -/
def digAccept (w : Word) (s : State) : State :=
  let d := s.dig
  let m := d.msg ++ (beBytes w.toNat 4).take (d.len - d.msg.length)
  let blocks := m.length / digBlock d.alg - d.msg.length / digBlock d.alg
  s.setDig { d with msg := m, full := d.full + blocks, finishing := decide (m.length = d.len)
                    freeAt := Nat.max d.freeAt s.dt + blocks * digTime d.alg }

/-- DIG_DATA_WRITE (R615-R617, R638): accepted; discarded with ERR DROP while BUSY; OVERLEN after a finished message. -/
def execDigDataWrite (w : Word) (s : State) : Res :=
  if ¬ s.domReady 5 then ok s
  else
    let s := digSettle s
    let d := s.dig
    if d.running then
      (if digBusy s || (decide (d.mode ≠ 0) && decide (d.keyAt = s.dt)) then ok (digEnd 1 s) else ok (digAccept w s))
    else if d.done then ok (s.setDig { d with isMatch := false, mismatch := false, res := [], err := 2 })
    else ok s

/-- DIG_BLOCK_DONE (R614, R616, R619): an input block, or the inner key block of an HMAC, is done, at its KCLK. -/
def execDigBlockDone (s : State) : Res :=
  let d := s.dig
  if ¬ d.running then ok s
  else if d.keying then ok ((s.at d.keyAt).setDig { d with keying := false, finishing := decide (d.len = 0) })
  else if d.full = 0 then ok s
  else ok ((s.at (digBlockDue d)).setDig { d with full := d.full - 1 })

/-- DIG_FINISH (R615, R619-R621): the operation ends at its KCLK. `flags` gives both flags where a fault makes them equal. -/
def execDigFinish (flags : Option Bool) (s : State) : Res :=
  if digFinishes s.dig then ok (digFinish flags (s.at (digDue s.dig))) else ok s

/-- An extend request of an index that its port does not serve sets REFUSED (R623). -/
def mrRefuse (s : State) : State := ({ s with mr := { s.mr with refused := true } }).noteSet (regKey 2 (mrOff + 0x404)) (2 ^ 30)

/-- Twelve words of the MR_ block as bytes. -/
def mrInput (s : State) (o : Nat) : Bytes := (List.range 12).flatMap (fun i => beBytes (s.reg 2 (mrOff + o + 4 * i)) 4)

/-- The GO bit of a port is set: 1 vendor, 2 owner. -/
def mrGo (s : State) (port : Nat) : Bool := s.mr.waiting.any (fun q => decide (q.port = port))

/-- MR_VENDOR_EXTEND (R622-R624): VGO with VIDX and SRC. A GO that is set already is one request. -/
def execMrVendorExtend (vidx : BitVec 4) (src : Byte) (s : State) : Res :=
  if mrGo s 1 then ok s
  else
    let i := vidx.toNat
    let s := { s with mr := { s.mr with vidx := i, vsrc := src.toNat } }
    if i = 0 ∨ 8 ≤ i ∨ (i = 1 ∧ s.mr.bootlock) then ok (mrRefuse s)
    else ok (mrExtend ⟨i, mrInput s 0x440, src.toNat % 16, src.toNat / 16, 1, s.dt⟩ s)

/-- MR_OWNER_EXTEND (R622, R623): OGO with OIDX; the log's SOURCE is 11. -/
def execMrOwnerExtend (oidx : BitVec 4) (s : State) : Res :=
  if mrGo s 2 then ok s
  else
    let i := oidx.toNat
    let s := { s with mr := { s.mr with oidx := i } }
    if i < 8 then ok (mrRefuse s) else ok (mrExtend ⟨i, mrInput s 0x480, 11, 0, 2, s.dt⟩ s)

/-- The effect of 6802:01-08 (R637): exactly 48 bytes, or TYPE. -/
def fxExtend (k : Nat) (s : State) (_role : Nat) (v : Bytes) : Ans :=
  if v.length ≠ 48 then ansErr s rTYPE else ansOK (mrMeasure (8 + k) 11 0 v s)

/-- MR_EXTEND_ENTRY (R623, R637, R641): a write to 6802 extends MR8-MR15. -/
def execMrExtendEntry (r : Req) (k : Fin 8) (s : State) : Res :=
  ok (serveWrite r 0x6802 (k.val + 1) always always anyValue (fxExtend k.val) s)

/-- MR_EXTEND_DONE (R622, R625, R641): the measurement core performs the extend that waits longest, 80 KCLK after it begins it.
DESIGN CHOICE (log entry 4): the log entry's DT is the one at which the extend ends. -/
def execMrExtendDone (s : State) : Res :=
  match s.mr.waiting with
  | [] => ok s
  | q :: l =>
    let t := s.at (Nat.max s.mr.freeAt q.arrival + 80)
    ok (mrPerform q { t with mr := { t.mr with waiting := l, freeAt := t.dt } })

/-- BOOTLOCK (R624): set until the next system reset or power-on. -/
def execBootlock (s : State) : Res := ok { s with mr := { s.mr with bootlock := true } }

/-- MR_STAT. -/
def mrStat (s : State) : Nat :=
  b2n (! s.mr.waiting.isEmpty) * 2 ^ 31 + b2n s.mr.refused * 2 ^ 30 + b2n (decide (s.mr.log.length = 1024)) * 2 ^ 29 +
  b2n s.mr.reext * 2 ^ 28 + s.mr.log.length

end Sys2Proof.Machine
end

