-- ==== Sys2Proof/Machine/ImgOps.lean ====
section
/-!
DEFINITION. Supervisor images (R626-R630, R634), their windows (R689), the base slots and the boot (R631-R633, R640).
-/
namespace Sys2Proof.Machine

/-- A header field (R626). -/
def hdrU (h : Bytes) (o n : Nat) : Nat := beNat (slice h o n)
def hdrKind (h : Bytes) : Nat := hdrU h 6 1
def hdrModid (h : Bytes) : Nat := hdrU h 7 1
def hdrVersion (h : Bytes) : Nat := hdrU h 8 4
def hdrSecver (h : Bytes) : Nat := hdrU h 12 2
def hdrCosigned (h : Bytes) : Bool := bit (hdrU h 14 2) 0
def hdrLoad (h : Bytes) : Nat := hdrU h 16 4
def hdrBody (h : Bytes) : Nat := hdrU h 20 4
def hdrEntry (h : Bytes) : Nat := hdrU h 24 4
def hdrCaps (h : Bytes) : Nat := hdrU h 28 4
def hdrZero (h : Bytes) : Nat := hdrU h 32 4
def hdrBasemin (h : Bytes) : Nat := hdrU h 36 4

/-- The parts of an image: header, body, SIG1, SIG2. -/
def imgHead (b : Bytes) : Bytes := b.take 128
def imgBody (b : Bytes) : Bytes := slice b 128 (hdrBody b)
def imgSig (b : Bytes) (k : Nat) : Bytes := slice b (128 + hdrBody b + 96 * k) 96

/-- The length the header gives the image. -/
def imgLen (b : Bytes) : Nat := 128 + hdrBody b + 96 + (if hdrCosigned b then 96 else 0)

/-- The header fields meet R626 and R627, for a base (`m` none) or as module MODID. Overlap is checked apart. -/
def headerOk (b : Bytes) (m : Option Nat) : Bool :=
  let lo := hdrLoad b
  let top := lo + hdrBody b + hdrZero b
  decide (128 ≤ b.length ∧ hdrU b 0 4 = 0x53565346 ∧ hdrU b 4 2 = 1 ∧ hdrU b 14 2 ≤ 1) &&
  decide (lo < 2 ^ 24 ∧ lo % 64 = 0 ∧ hdrBody b % 4 = 0 ∧ 4 ≤ hdrBody b) &&
  decide (lo ≤ hdrEntry b ∧ hdrEntry b < lo + hdrBody b ∧ hdrEntry b % 4 = 0) &&
  (slice b 88 40).all (fun x => decide (x = 0)) && decide (b.length = imgLen b) &&
  (match m with
   | none => decide (hdrKind b = 1 ∧ hdrModid b = 0 ∧ hdrBody b ≤ 97984 ∧ hdrCaps b = 0 ∧ hdrBasemin b = 0 ∧ top ≤ 0x40000)
   | some i => decide (hdrKind b = 2 ∧ hdrModid b = i ∧ hdrBody b ≤ 65536 ∧ hdrCaps b < 256 ∧ 0x40000 ≤ lo ∧ top ≤ 0x80000))

/-- The Tvedmor firmware, FA firmware and test firmware keys of the ROM (R629). -/
def firmwareKey (s : State) : Bytes :=
  match s.power.lcs with
  | .blank => romKey 6 97
  | .fa => romKey 5 97
  | _ => romKey 4 97

/-- The SIG1 key of an image (R629). -/
def sig1Key (s : State) (m : Option Nat) : Bytes := if m.isNone then firmwareKey s else imageKey s

/-- The SIG2 key: the owner's image key for a base, the Tvedmor firmware key of the life-cycle state for a module (R629). -/
def sig2Key (s : State) (m : Option Nat) : Bytes := if m.isNone then imageKey s else firmwareKey s

/-- SIG2 is required (R629). -/
def sig2Needed (s : State) (b : Bytes) (m : Option Nat) : Bool :=
  match m with
  | none => decide (s.power.lcs = .owned) && decide (s.cfg 0x6800 5 = 1)
  | some _ => decide (hdrCaps b / 16 % 16 ≠ 0)

/-- The range of a module. -/
def Module.meets (v : Module) (lo size : Nat) : Bool := decide (v.lo < lo + size) && decide (lo < v.lo + v.size)

/-- Checks 1 to 6 of R630 with CODE 0x0006 for an overlap (R637): 0 or the first CODE. -/
def imgCheck (s : State) (b : Bytes) (m : Option Nat) : Nat :=
  let h := imgHead b
  if ¬ headerOk b m then 1
  else if s.img.mods.any (fun e => m.isSome && e.2.meets (hdrLoad b) (hdrBody b + hdrZero b)) then 6
  else if m.isSome && decide (s.power.lcs ≠ .owned) && decide (s.power.lcs ≠ .blank) then 7
  else if ¬ p384Verify (sig1Key s m) (6 :: h) (imgSig b 0) then 2
  else if sig2Needed s b m ∧ ¬ hdrCosigned b then 3
  else if hdrCosigned b ∧ ¬ p384Verify (sig2Key s m) (7 :: h) (imgSig b 1) then 3
  else if hdrSecver b < ctrValue s (match m with | none => 2 | some i => 15 + i) then 4
  else if m.isSome ∧ hdrBasemin b > s.num 0x1002 3 then 8
  else 0

/-- Check 7 of R630: the digest of a body, under the doubled comparator; a fault in it rejects (R621, R640). -/
def bodyOk (b body : Bytes) (fault : Bool) : Bool := decide (sha384 body = slice b 40 48) && ! fault

/-- The doubled comparator found a fault. -/
def noteFault (fault : Bool) (s : State) : State := if fault then cmpFault s else s

/-- Place bytes in supervisor SRAM and zero those after them. -/
def supPlace (a : Nat) (body : Bytes) (zlen : Nat) (s : State) : State :=
  let m := Memory.clear (Tab.look [] s.unit.shared 2) a (a + body.length + zlen)
  { s with unit := { s.unit with shared := Tab.put [] s.unit.shared 2 (Memory.load m a body) } }

/-- Set and enable a window of KD over granules `lo` to `hi` for one initiator; a locked window stays (R694). -/
def kdWindow (n lo hi ini : Nat) (r w x lock : Bool) (s : State) : State :=
  let old := (s.actTab 2).win n
  if old.lock then s
  else
    let t := winEnable 2 n (s.setWin 2 n { lo := lo, hi := hi, region := 2, first := ini, last := ini, r := r, w := w, x := x })
    t.setWin 2 n { (t.actTab 2).win n with lock := lock }

/-- Disable a window of KD. -/
def kdWindowOff (n : Nat) (s : State) : State :=
  let w := (s.actTab 2).win n
  if w.lock then s else s.setWin 2 n { w with en := false }

/-- The windows the boot ROM enables and locks (R689). -/
def baseWindows (lo body : Nat) (s : State) : State :=
  let g := (lo + body - 1) / 64
  let s := kdWindow 0 (lo / 64) g 0x61 true false true true s
  let s := if g < 0x3FFFF / 64 then kdWindow 1 (g + 1) (0x3FFFF / 64) 0x61 true true false true s else s
  if 0 < lo then kdWindow 2 0 (lo / 64 - 1) 0x61 true true false true s else s

/-- The first page of a base slot, and the page of its record (the region table under R775). -/
abbrev slotPage (c : Nat) : Nat := if c = 0 then 0x500 else 0x680
abbrev slotRecPage (c : Nat) : Nat := 6 + c

/-- MAGIC of a base slot record (log entry 51). -/
abbrev slotMagic : Nat := 0x53565342

/-- GEN and COMMIT of an intact slot record (R781 class 6). -/
def slotRec (s : State) (c : Nat) : Option (Nat × Bool) :=
  let b := pageRead s (slotRecPage c) 0 12
  if pageIntact s (slotRecPage c) && decide (b.take 5 = beBytes slotMagic 4 ++ [1]) then
    some (beNat (slice b 8 4), bit (byteAt b 5).toNat 0)
  else none

/-- The slot that wins under the dual-record rule (R781 class 6). -/
def slotWinner (s : State) : Option Nat :=
  match slotRec s 0, slotRec s 1 with
  | some a, some b =>
    if a.1 = b.1 then some 0
    else if serialNewer 32 a.1 b.1 then some (if a.2 then 0 else 1) else some (if b.2 then 1 else 0)
  | some _, none => some 0
  | none, some _ => some 1
  | none, none => none

/-- The header of the image in a slot, and the whole image, at the lengths its header gives. -/
def slotHead (s : State) (c : Nat) : Bytes := if (slotRec s c).isSome then mramRead s (256 * slotPage c) 128 else []
def slotImage (s : State) (c : Nat) : Bytes :=
  let h := slotHead s c
  mramRead s (256 * slotPage c) (Nat.min 98304 (imgLen h))

/-- Write the record of a slot with COMMIT clear or set (R780). -/
def writeSlotRec (c gen : Nat) (commit : Bool) (s : State) : Nat × State :=
  programPage (slotRecPage c) 0 (beBytes slotMagic 4 ++ [1, byte (b2n commit), 0, 0] ++ beBytes gen 4) 0 s

/-- The supervisor enters the base at its entry point, at level 0x61 (R630, R687). -/
def supEnter (entry : Nat) (s : State) : State :=
  let v := s.unit.sup
  let c := { v.core with ibk := BitVec.ofNat 8 (entry / 65536), pc := BitVec.ofNat 16 entry }
  { s with unit := { s.unit with sup := { v with core := c, level := 0x61 } } }

/-- A slot is put into force as the running base (R631, R633): body placed, zero area, MR1, windows, BOOTLOCK, entry. -/
def startBase (c : Nat) (b : Bytes) (reload : Bool) (s : State) : State :=
  let h := imgHead b
  let v := sha384 h
  let extend := ! reload || decide (v ≠ s.mr.baseDig)
  let s := if extend then mrMeasure 1 3 0 v s else s
  let s := { s with mr := { s.mr with baseDig := v, bootlock := true, reext := s.mr.reext || (reload && extend) } }
  let s := baseWindows (hdrLoad b) (hdrBody b) s
  let s := (((s.setNum 0x6800 6 c).setNum 0x1002 3 (hdrVersion b)).setNum 0x1002 4 (hdrSecver b))
  let s := { s with img := { s.img with base := { lo := hdrLoad b, size := hdrBody b + hdrZero b, header := h, st := 2 } }
                    act := { s.act with romrun := false } }
  let s := supEnter (hdrEntry b) s
  { s with rst := { s.rst with phase := if s.rst.phase = .boot then .post else s.rst.phase, recovery := false
                               coreBusy := setBit s.rst.coreBusy 0 false } }

/-- The boot ROM serves recovery (R632). -/
def enterRecovery (s : State) : State := { s with rst := { s.rst with recovery := true } }

/-- Try the slots in order (R631): the first whose image passes R630 starts; each rejection is logged; else recovery. `faults`
bit c is a fault of the comparator while slot c is checked (R640). -/
def bootSlots (faults : Nat) (reload : Bool) : List Nat → State → State
  | [], s => enterRecovery (s.setNum 0x6800 6 2)
  | c :: t, s =>
    if (slotHead s c).isEmpty then bootSlots faults reload t s
    else
      let b := slotImage s c
      let code := imgCheck s b none
      if code ≠ 0 then bootSlots faults reload t (logEvent 0x18 c 0 code s)
      else
        let s := noteFault (bit faults c) (supPlace (hdrLoad b) (imgBody b) (hdrZero b) s)
        if s.tamper.erasing then s
        else if bodyOk b (imgBody b) (bit faults c) then startBase c b reload s
        else bootSlots faults reload t (logEvent 0x18 c 0 5 s)

/-- The order of the slots (R631, R633): after a core reset first the slot the running base came from. -/
def bootOrder (s : State) (reload : Bool) : List Nat :=
  let first := if reload && decide (s.num 0x6800 6 < 2) then some (s.num 0x6800 6) else slotWinner s
  match first with
  | some c => [c, 1 - c]
  | none => []

/-- The boot ROM runs (R631-R633): in phase BOOT, or after a core reset of KD. -/
def supervisorBoot (faults : Nat) (s : State) : State :=
  let reload := bit s.rst.coreBusy 0
  if ((s.rst.phase = .boot ∧ s.power.mode = .bringup) ∨ (reload ∧ ¬ aniseMode s ∧ s.power.mode ≠ .guard ∧ (s.rst.phase = .done ∨ s.rst.phase = .epoch ∨ s.rst.phase = .post)))
      ∧ ¬ s.rst.recovery ∧ s.domReady 5 ∧ ¬ s.tamper.erasing then
    let s := noteDamaged 6 (slotRecPage 0) (slotRecPage 1) (slotRec s 0).isSome (slotRec s 1).isSome s
    bootSlots faults (reload && decide (s.rst.phase ≠ .boot)) (bootOrder s reload) s
  else s

end Sys2Proof.Machine
end

