-- ==== Sys2Proof/Machine/Images.lean ====
section
/-!
DEFINITION. The meanings of the supervisor-image commands (R626-R642): base slots, modules, floors, the boot.
-/
namespace Sys2Proof.Machine

/-- Check, write and read back the staged base image (R634): it goes to the losing slot, its COMMIT last. -/
def baseInstall (k : Nat) (fault : Bool) (s : State) : State :=
  let b := s.entW 0x6830 1
  let s := s.setEnt 0x6830 1 []
  let code := imgCheck s b none
  if code ≠ 0 then failSlot k code s
  else
    let c := match slotWinner s with | some w => 1 - w | none => 0
    let gen := match slotWinner s with | some w => (((slotRec s w).getD (0, false)).1 + 1) % 2 ^ 32 | none => 1
    let r := writePages (slotPage c) (chunks 256 b) s
    if r.1 ≠ 0 then failSlot k 6 s
    else
      let w := writeSlotRec c gen false r.2
      if w.1 ≠ 0 then failSlot k 6 w.2
      else
        let s := noteFault fault w.2
        if ¬ bodyOk b (imgBody (slotImage s c)) fault then failSlot k 5 s
        else
          let w := writeSlotRec c gen true s
          if w.1 ≠ 0 then failSlot k 6 w.2
          else
            let s := doneSlot k [] w.2
            if s.rst.recovery then supervisorBoot 0 { s with rst := { s.rst with recovery := false } } else s

/-- The effect of 0x01 to 6830:02. -/
def fxBaseInstall (fault : Bool) (s : State) (role : Nat) (v : Bytes) : Ans :=
  startOp 0x6830 2 role .install v (fun k s => baseInstall k fault s) s

/-- BASE_INSTALL (R630, R634): 0x01 written to 6830:02; accepted in recovery too (R632). -/
def execBaseInstall (r : Req) (fault : Bool) (s : State) : Res :=
  ok (serveWrite (reqWith r [1]) 0x6830 2 always always anyValue (fxBaseInstall fault) s)

/-- The mode is UPDATE. -/
def inUpdate (s : State) (_ : Nat) : Bool := decide (s.power.mode = .update)

/-- The effect of 0x02 to 6830:02: the newest committed slot by a core reset of KD. DESIGN CHOICE (log entry 51): with no
committed slot there is nothing to activate, RANGE. -/
def fxBaseActivate (s : State) (role : Nat) (v : Bytes) : Ans :=
  match slotWinner s with
  | none => ansErr s rRANGE
  | some c => startOp 0x6830 2 role .reset v (fun _ s => coreReset 1 0x0D (s.setNum 0x6800 6 c)) s

/-- BASE_ACTIVATE (R634): 0x02 written to 6830:02, in UPDATE only. -/
def execBaseActivate (r : Req) (s : State) : Res :=
  ok (serveWrite (reqWith r [2]) 0x6830 2 always inUpdate anyValue fxBaseActivate s)

/-- Granules of a module's body and of its zero area (R689). -/
def modGb (b : Bytes) : Nat × Nat := (hdrLoad b / 64, (hdrLoad b + hdrBody b - 1) / 64)
def modEnd (b : Bytes) : Nat := (hdrLoad b + hdrBody b + hdrZero b - 1) / 64

/-- Set a module. -/
def State.setMod (s : State) (m : Nat) (v : Module) : State :=
  { s with img := { s.img with mods := Tab.put {} s.img.mods m v } }

/-- Set ACT_CAPm of module number `i` = m + 1. -/
def setCap (i v : Nat) (s : State) : State := { s with act := { s.act with caps := Tab.put 0 s.act.caps i v } }

/-- Unload a module (R635, R642, R689): its windows off, its capabilities gone, its range zeroed; the open regions lock
(R784). -/
def unloadModule (m : Nat) (s : State) : State :=
  let v := Tab.look {} s.img.mods m
  let s := kdWindowOff (3 + 3 * m) (kdWindowOff (5 + 3 * m) (kdWindowOff (4 + 3 * m) s))
  let s := supPlace v.lo [] v.size (setCap (m + 1) 0 s)
  let lockOr (g : OpenRegion) : OpenRegion := { g with unlocked := false }
  let s := { s with nvm := { s.nvm with or0 := lockOr s.nvm.or0, or1 := lockOr s.nvm.or1 } }
  s.setMod m {}

/-- Load module m from its staged image (R630, R635, R637): checked in order, placed, closed to others, digested. A module that runs under m stays in use until
the body has passed (R44); then it is unloaded and the new one takes its windows. -/
def moduleLoad (m k : Nat) (d0 : Nat) (fault : Bool) (s : State) : State :=
  let b := s.entW (0x6840 + m) 1
  let s := s.setEnt (0x6840 + m) 1 []
  let code := imgCheck s b (some (m + 1))
  if code ≠ 0 then failSlot k code s
  else
    let gb := modGb b
    let last := modEnd b
    let w := (s.actTab 2).win (3 + 3 * m)
    let s := supPlace (hdrLoad b) (imgBody b) (hdrZero b) s
    let s := noteFault fault (kdWindow (3 + 3 * m) gb.1 last 0x61 true false false false s)
    if s.tamper.erasing then s
    else if ¬ bodyOk b (imgBody b) fault then failSlot k 5 (supPlace (hdrLoad b) [] (hdrBody b + hdrZero b) (s.setWin 2 (3 + 3 * m) w))
    else
      let s := if (Tab.look {} s.img.mods m).st = 0 then s else kdWindow (3 + 3 * m) gb.1 last 0x61 true false false false (unloadModule m s)
      let s := setCap (m + 1) (hdrCaps b) s
      let s := kdWindow (4 + 3 * m) gb.1 gb.2 (0x62 + m) true false true false s
      let s := if gb.2 < last then kdWindow (5 + 3 * m) (gb.2 + 1) last (0x62 + m) true true false false s else s
      let s := mrMeasure 2 4 (m + 1) (sha384 (imgHead b)) s
      let s := s.setMod m { lo := hdrLoad b, size := hdrBody b + hdrZero b, header := imgHead b, st := 2, caps := hdrCaps b }
      if d0 = 0 then doneSlot k [] s else failSlot k 9 (unloadModule m s)

/-- The effect of 0x01 to 684m:02. -/
def fxModuleLoad (m d0 : Nat) (fault : Bool) (s : State) (role : Nat) (v : Bytes) : Ans :=
  startOp (0x6840 + m) 2 role .moduleOp v (fun k s => moduleLoad m k d0 fault s) s

/-- MODULE_LOAD (R630, R635): 0x01 written to 684m:02; `d0` is what the module's ENTRY returns. -/
def execModuleLoad (r : Req) (m : Fin 16) (d0 : Word) (fault : Bool) (s : State) : Res :=
  ok (serveWrite (reqWith r [1]) (0x6840 + m.val) 2 always always anyValue (fxModuleLoad m.val d0.toNat fault) s)

/-- The effect of 0x02 to 684m:02. -/
def fxModuleUnload (m : Nat) (s : State) (role : Nat) (v : Bytes) : Ans :=
  startOp (0x6840 + m) 2 role .moduleOp v (fun k s => doneSlot k [] (unloadModule m s)) s

/-- MODULE_UNLOAD (R635): 0x02 written to 684m:02. -/
def execModuleUnload (r : Req) (m : Fin 16) (s : State) : Res :=
  ok (serveWrite (reqWith r [2]) (0x6840 + m.val) 2 always always anyValue (fxModuleUnload m.val) s)

/-- A floor may be raised to `v` (R636): not below the present floor, not above the SECVER under it. -/
def floorRange (ctr secver v : Nat) (s : State) : Bool := decide (ctrValue s ctr ≤ v) && decide (v ≤ secver)

/-- A floor counter rises to a value, one increment at a time (R636). Counters 2 and 16-31 belong to the device (R785). -/
def raiseFloor (ctr v : Nat) (s : State) : Ans :=
  let r := ctrRaise ctr v 0 s
  if r.1 = 0 then ansOK r.2 else ansErr s rRANGE

/-- The range of 6820:02. -/
def baseFloorRange (s : State) (v : Bytes) : Bool := floorRange 2 (hdrSecver s.img.base.header) (beNat v) s

/-- BASE_FLOOR_RAISE (R636): a write to 6820:02. -/
def execBaseFloorRaise (r : Req) (s : State) : Res :=
  ok (serveWrite r 0x6820 2 always always baseFloorRange (fun s _ v => raiseFloor 2 (beNat v) s) s)

/-- MODID of a value of 6820:04. -/
def floorModid (v : Bytes) : Nat := beNat (v.take 2)

/-- The range of 6820:04: a MODID of 1 to 16, and R636. -/
def moduleFloorRange (s : State) (v : Bytes) : Bool :=
  let i := floorModid v
  decide (1 ≤ i ∧ i ≤ 16) && floorRange (15 + i) (hdrSecver (Tab.look {} s.img.mods (i - 1)).header) (beNat (v.drop 2)) s

/-- MODULE_FLOOR_RAISE (R636): a write to 6820:04. -/
def execModuleFloorRaise (r : Req) (s : State) : Res :=
  ok (serveWrite r 0x6820 4 always always moduleFloorRange (fun s _ v => raiseFloor (15 + floorModid v) (beNat (v.drop 2)) s) s)

/-- SUPERVISOR_BOOT (R631-R633, R640, R755). -/
def execSupervisorBoot (faults : BitVec 2) (s : State) : Res := ok (supervisorBoot faults.toNat s)

end Sys2Proof.Machine
end

