-- ==== Sys2Proof/Machine/Prime.lean ====
section
/-!
DEFINITION. Primality by Miller-Rabin and the strong Lucas test (FIPS 186-5 appendix B.3, R553), and the constraints of a
generated RSA key (FIPS 186-5 appendix A.1.3, R555); PRESUMED (log entry 10).
-/
namespace Sys2Proof.Machine

/-- The power of 2 in `n`, by fuel. -/
def twosF : Nat → Nat → Nat
  | 0, _ => 0
  | fuel + 1, n => if n ≠ 0 ∧ n % 2 = 0 then 1 + twosF fuel (n / 2) else 0

/-- The power of 2 in `n`. -/
def twos (n : Nat) : Nat := twosF (Nat.log2 n + 1) n

/-- One Miller-Rabin round with base `a`, for odd `n` above 2. -/
def mrRound (n a : Nat) : Bool :=
  let k := twos (n - 1)
  let d := (n - 1) / 2 ^ k
  let x := modPow a d n
  decide (x = 1 ∨ x = n - 1) || (List.range (k - 1)).any (fun i => decide (modPow x (2 ^ (i + 1)) n = n - 1))

/-- The Jacobi symbol of `a` over odd `n`: 0, 1, or 2 for -1, by fuel. -/
def jacobiF : Nat → Nat → Nat → Bool → Nat
  | 0, _, _, _ => 0
  | fuel + 1, a, n, neg =>
    let a := a % n
    if a = 0 then (if n = 1 then (if neg then 2 else 1) else 0)
    else
      let k := twos a
      let b := a / 2 ^ k
      let neg := if k % 2 = 1 ∧ (n % 8 = 3 ∨ n % 8 = 5) then ! neg else neg
      let neg := if b % 4 = 3 ∧ n % 4 = 3 then ! neg else neg
      jacobiF fuel n b neg

/-- The Jacobi symbol. -/
def jacobi (a n : Nat) : Nat := jacobiF (2 * Nat.log2 n + 8) a n false

/-- `n` is a perfect square. -/
def isSquare (n : Nat) : Bool := decide (Nat.sqrt n * Nat.sqrt n = n)

/-- The Lucas parameter D of the search 5, -7, 9, ...: its residue modulo `n` where the Jacobi symbol is -1. -/
def lucasD (n : Nat) : Option Nat :=
  ((List.range 64).map (fun i => if i % 2 = 0 then (5 + 2 * i) % n else (n - (5 + 2 * i) % n) % n)).find? (fun d => decide (jacobi d n = 2))

/-- Half of `x` modulo odd `n`. -/
def halfMod (x n : Nat) : Nat := if x % 2 = 0 then x / 2 else (x + n) / 2

/-- U, V and Q of the Lucas sequence at `k` (P 1), by the bits of `k`. -/
def lucasAt (d q n k : Nat) : Nat × Nat × Nat :=
  (List.range (Nat.log2 k)).reverse.foldl (fun (st : Nat × Nat × Nat) i =>
    let u := st.1 * st.2.1 % n
    let v := (st.2.1 * st.2.1 + 2 * n - 2 * st.2.2 % n) % n
    let qq := st.2.2 * st.2.2 % n
    if bit k i then (halfMod ((u + v) % n) n, halfMod ((d * u + v) % n) n, qq * q % n) else (u, v, qq)) (1 % n, 1 % n, q % n)

/-- The strong Lucas test of odd `n`. -/
def strongLucas (n : Nat) : Bool :=
  if isSquare n then false
  else
    match lucasD n with
    | none => false
    | some d =>
      -- Q = (1 - D) / 4
      let q := ((n + 1 - d % n) % n) * modInv 4 n % n
      let k := twos (n + 1)
      let m := (n + 1) / 2 ^ k
      let st := lucasAt d q n m
      decide (st.1 = 0) ||
      ((List.range k).foldl (fun (a : Bool × Nat × Nat) _ =>
        (a.1 || decide (a.2.1 = 0), (a.2.1 * a.2.1 + 2 * n - 2 * a.2.2 % n) % n, a.2.2 * a.2.2 % n)) (false, st.2.1, st.2.2)).1

/-- Prime by rounds of Miller-Rabin with the given bases followed by a strong Lucas test. -/
def probablyPrime (n : Nat) (bases : List Nat) : Bool :=
  if n < 4 then decide (n = 2 ∨ n = 3)
  else decide (n % 2 = 1) && bases.all (fun a => mrRound n (a % (n - 3) + 2)) && strongLucas n

/-- The primes a search for an RSA key of `k` bits ends with (FIPS 186-5 A.1.3): exact sizes, p above q and not close, both
prime to e, primality by rounds with drawn bases, and a large private exponent. -/
def rsaPrimesOk (k p q : Nat) (bases : List Nat) : Bool :=
  let h := k / 2
  let e := 65537
  let l := Nat.lcm (p - 1) (q - 1)
  decide (Nat.log2 p + 1 = h ∧ Nat.log2 q + 1 = h ∧ q < p) && decide (p - q > 2 ^ (h - 100)) &&
  decide (p * p ≥ 2 ^ (k - 1) ∧ q * q ≥ 2 ^ (k - 1)) &&
  decide (Nat.gcd (p - 1) e = 1 ∧ Nat.gcd (q - 1) e = 1) && decide (modInv e l > 2 ^ h) &&
  probablyPrime p bases && probablyPrime q bases

/-- The private key layout of R531 from its primes. -/
def rsaKeyBytes (k p q : Nat) : Bytes :=
  let e := 65537
  let d := modInv e (Nat.lcm (p - 1) (q - 1))
  let w := k / 16
  beBytes (p * q) (k / 8) ++ beBytes e 4 ++ beBytes p w ++ beBytes q w ++ beBytes (d % (p - 1)) w ++ beBytes (d % (q - 1)) w ++
  beBytes (modInv q p) w

end Sys2Proof.Machine
end

