-- ==== Sys2Proof/Machine/Pk.lean ====
section
/-!
DEFINITION. The meanings of the public-key engines' commands (R523-R570).
-/
namespace Sys2Proof.Machine

/-- The hash of a HALG (R530). -/
def halgHash : Nat → Option ((Bytes → Bytes) × Nat)
  | 1 => some (sha256, 32)
  | 2 => some (sha384, 48)
  | 3 => some (sha512, 64)
  | _ => none

/-- The private RSA operation by CRT over the layout of R531. -/
def rsaPriv (key : Bytes) (c : Nat) : Nat :=
  let kb := rsaBytes key
  let h := kb / 2
  let f (i : Nat) := beNat (slice key (kb + 4 + i * h) h)
  let p := f 0
  let q := f 1
  let m1 := modPow (c % p) (f 2) p
  let m2 := modPow (c % q) (f 3) q
  m2 + (f 4 * ((m1 + p * (m2 / p + 1) - m2) % p) % p) * q

/-- The modulus of a key in either RSA layout, `kb` bytes long. -/
def rsaN (key : Bytes) (kb : Nat) : Nat := beNat (key.take kb)
/-- The public exponent. -/
def rsaE (key : Bytes) (kb : Nat) : Nat := beNat (slice key kb 4)

/-- The hash part of an operand HALG, hash, rest: the hash function, its length, the hash; none where a check fails. -/
def halgOperand (oper : Bytes) (rest : Nat) : Option ((Bytes → Bytes) × Nat × Bytes) :=
  match halgHash (byteAt oper 0).toNat with
  | none => none
  | some (f, n) => if oper.length = 1 + n + rest then some (f, n, slice oper 1 n) else none

/-- Sign by RSA (R530): the salt of a PSS signature is drawn from the engine's generator. -/
def rsaSign (pss : Bool) (key oper : Bytes) (s : State) : Nat × Bytes × State :=
  let kb := rsaBytes key
  match halgOperand oper 0 with
  | none => (tPK_INPUT, [], s)
  | some (f, n, h) =>
    if pss then
      let r := s.draw n
      (0, beBytes (rsaPriv key (beNat (pssEncode f (8 * kb - 1) h r.1))) kb, r.2)
    else (0, beBytes (rsaPriv key (beNat (pkcs1Encode kb h))) kb, s)

/-- An RSA signature's encoding holds (R530, R542 check 8). -/
def rsaHolds (pss : Bool) (n e kb : Nat) (f : Bytes → Bytes) (hl : Nat) (h sig : Bytes) : Bool :=
  let em := beBytes (modPow (beNat sig) e n) kb
  if pss then pssVerify f (8 * kb - 1) hl h em else decide (em = pkcs1Encode kb h)

/-- Verify by RSA (R530, R542). -/
def rsaVerify (pss : Bool) (key oper : Bytes) : Nat :=
  let kb := key.length - 4
  match halgOperand oper kb with
  | none => tPK_INPUT
  | some (f, hl, h) =>
    let sig := oper.drop (1 + hl)
    if beNat sig ≥ rsaN key kb then tPK_INPUT
    else if rsaHolds pss (rsaN key kb) (rsaE key kb) kb f hl h sig then 0 else tVERIFY_FAIL

/-- The curve of a job (R529, R554): a loaded curve of the job's epoch. -/
def jobCurve (s : State) (code epoch : Nat) : Option Curve :=
  match code with
  | 1 => some p256
  | 2 => some p384
  | 3 => some p521
  | c =>
    let r := match epochCfg s epoch with
      | some e => Tab.look [] e.curves (c - 0x10)
      | none => s.curveRec (c - 0x10)
    if r.isEmpty then none else some (curveOfRecord r)

/-- Byte length of a curve's order. -/
def orderLen (c : Curve) : Nat := Nat.log2 c.n / 8 + 1

/-- ECDSA verification of hash, r, s (R529, R542, R568). -/
def ecdsaCheck (c : Curve) (key oper : Bytes) : Nat :=
  let nl := orderLen c
  let hl := oper.length - 2 * nl
  if oper.length < 20 + 2 * nl ∨ oper.length > 64 + 2 * nl then tPK_INPUT
  else
    match c.dec key with
    | none => tVERIFY_FAIL
    | some q => if c.ecdsaVerify q (oper.take hl) (beNat (slice oper hl nl)) (beNat (slice oper (hl + nl) nl)) then 0 else tVERIFY_FAIL

/-- The Edwards curve of a code. -/
def edOf (code : Nat) : EdCurve := if code = 0x21 then ed25519 else ed448

/-- EdDSA verification of signature, message. -/
def eddsaCheck (code : Nat) (key oper : Bytes) : Nat :=
  let sl := if code = 0x21 then 64 else 114
  if oper.length < sl + 1 ∨ oper.length > sl + 1024 then tPK_INPUT
  else if (edOf code).verify key (oper.drop sl) (oper.take sl) then 0 else tVERIFY_FAIL

/-- Key agreement (R529, R542 checks 6 and 7, R543). -/
def agree (s : State) (code epoch : Nat) (key oper : Bytes) : Nat × Bytes :=
  if code = 0x23 then
    if oper.length ≠ 32 then (tPK_INPUT, [])
    else
      let z := x25519 key oper
      if z.all (fun b => decide (b = 0)) then (tPK_INPUT, []) else (0, z)
  else
    match jobCurve s code epoch with
    | none => (tPOLICY, [])
    | some c =>
      match c.dec oper with
      | none => (tPK_INPUT, [])
      | some q =>
        if 1 < c.h ∧ c.mul c.n (some q) ≠ none then (tPK_INPUT, [])
        else
          match c.mul (beNat key) (some q) with
          | none => (tPK_INPUT, [])
          | some z => (0, beBytes z.1 c.len)

/-- The public key of a private key under the curves of the job's epoch. -/
def jobPublic (s : State) (code epoch : Nat) (key : Bytes) : Bytes :=
  if code = 0x21 then ed25519.pub key else if code = 0x22 then ed448.pub key else if code = 0x23 then x25519 key x25519Base
  else match jobCurve s code epoch with
    | some c => c.enc (c.mul (beNat key) c.g)
    | none => []

/-- The operand an audit job signs (R250): the hash of the header for ECDSA, the header for Ed25519. -/
def audOperand (j : PkJob) : Bytes :=
  if j.kind ≠ 2 then j.oper else if j.pkop = 0x1001 then sha256 j.oper else if j.pkop = 0x1002 then sha384 j.oper else j.oper

/-- The status and result of an operation over its operand, every check of R542 from order 3 on (R529-R532, R544). -/
def pkCompute (j : PkJob) (s : State) : Nat × Bytes × State :=
  let op := j.pkop / 256
  let c := j.pkop % 256
  let key := match j.key with | some k => k.key | none => []
  let oper := audOperand j
  let kb := rsaBytes key
  let bad : Nat × Bytes × State := (tPK_INPUT, [], s)
  if op = 1 then
    if oper.length ≠ kb ∨ beNat oper ≥ rsaN key kb then bad else (0, beBytes (rsaPriv key (beNat oper)) kb, s)
  else if op = 2 then rsaSign false key oper s
  else if op = 3 then rsaSign true key oper s
  else if op = 4 then
    let n := key.length - 4
    if oper.length ≠ n ∨ beNat oper ≥ rsaN key n then bad else (0, beBytes (modPow (beNat oper) (rsaE key n) (rsaN key n)) n, s)
  else if op = 5 then (rsaVerify false key oper, [], s)
  else if op = 6 then (rsaVerify true key oper, [], s)
  else if op = 0x10 then
    match jobCurve s c j.epoch with
    | none => (tPOLICY, [], s)
    | some cv =>
      if oper.length < 20 ∨ oper.length > 64 then bad
      else
        let r := ecdsaDraw cv (beNat key) oper s
        match r.1 with
        | some sig => (0, sig, r.2)
        | none => (tPK_INPUT, [], r.2)
  else if op = 0x11 then
    match jobCurve s c j.epoch with
    | none => (tPOLICY, [], s)
    | some cv => (ecdsaCheck cv key oper, [], s)
  else if op = 0x12 then
    let r := agree s c j.epoch key oper
    (r.1, r.2, s)
  else if op = 0x13 then (if oper.isEmpty then (0, jobPublic s c j.epoch key, s) else bad)
  else if op = 0x20 then
    if oper.length < 1 ∨ oper.length > 1024 then bad else (0, (edOf c).sign key oper, s)
  else if op = 0x21 then (eddsaCheck c key oper, [], s)
  else bad

/-- Values an operation draws from its engine's generator (R530, R532, R545). -/
def pkDraws (pkop : Nat) : Nat :=
  match pkop / 256 with
  | 1 => 3 | 2 => 3 | 3 => 4 | 0x10 => 3 | 0x12 => 2 | 0x13 => 2 | 0x20 => 2 | _ => 0

/-- The verification of verify-after-sign (R548): the public key recomputed from the private one. -/
def vasHolds (s : State) (j : PkJob) : Bool :=
  let op := j.pkop / 256
  let c := j.pkop % 256
  let key := match j.key with | some k => k.key | none => []
  let kb := rsaBytes key
  if op = 1 then decide (modPow (beNat j.sig) (rsaE key kb) (rsaN key kb) = beNat j.oper)
  else if op = 2 ∨ op = 3 then
    match halgOperand j.oper 0 with
    | some (f, hl, h) => rsaHolds (decide (op = 3)) (rsaN key kb) (rsaE key kb) kb f hl h j.sig
    | none => false
  else if op = 0x10 then
    match jobCurve s c j.epoch with
    | some cv => decide (ecdsaCheck cv (jobPublic s c j.epoch key) (j.oper ++ j.sig) = 0)
    | none => false
  else decide (eddsaCheck c (jobPublic s c j.epoch key) (j.sig ++ j.oper) = 0)

/-- The inline public key of a background job is valid (R542 order 6, R543): true for any other key. -/
def inlineOk (s : State) (e : Nat) (j : PkJob) : Bool :=
  if j.kind = 3 ∧ bgSrc (s.bg (e / 12)).desc = 0 then
    match j.key with
    | some k => pubValid s k.ktype k.param k.key
    | none => true
  else true

/-- Compute the outcome of a job that has none yet. -/
def pkSettle (e : Nat) (j : PkJob) (s : State) : State :=
  if j.status.isSome then s
  else if j.kind = 1 then pkSet e { j with status := some (if vasHolds s j then 0 else tVERIFY_FAIL) } (s.bump (0xB700 + e) 7)
  else if j.pkop / 256 = 0x30 then s
  else
    let r := if inlineOk s e j then pkCompute j s else (tPK_INPUT, [], s)
    let s := pkSet e { j with status := some r.1, result := r.2.1 } r.2.2
    s.setEng e { s.eng e with reqs := (s.eng e).reqs + pkDraws j.pkop }

/-- The running job of an engine. -/
def pkRunning (s : State) (e : Nat) : Option PkJob :=
  match (s.eng e).run with
  | none => none
  | some n => pkFind s e (fun j => decide (j.seq = n))

/-- The computation of an operation: the running job of the engine, if it is of operation `op`, takes its outcome. -/
def pkOp (op e : Nat) (s : State) : State :=
  match pkRunning s e with
  | none => s
  | some j => if j.kind ≠ 1 ∧ j.pkop / 256 = op ∧ ¬ j.withdrawn then pkSettle e j s else s

/-- PK_RSA_PRIVATE (R529). -/
def execPkRsaPrivate (e : Fin 24) (s : State) : Res := ok (pkOp 0x01 e.val s)
/-- PK_RSA_SIGN_PKCS1 (R530). -/
def execPkRsaSignPkcs1 (e : Fin 24) (s : State) : Res := ok (pkOp 0x02 e.val s)
/-- PK_RSA_SIGN_PSS (R530). -/
def execPkRsaSignPss (e : Fin 24) (s : State) : Res := ok (pkOp 0x03 e.val s)
/-- PK_RSA_PUBLIC (R529). -/
def execPkRsaPublic (e : Fin 24) (s : State) : Res := ok (pkOp 0x04 e.val s)
/-- PK_RSA_VERIFY_PKCS1 (R530). -/
def execPkRsaVerifyPkcs1 (e : Fin 24) (s : State) : Res := ok (pkOp 0x05 e.val s)
/-- PK_RSA_VERIFY_PSS (R530). -/
def execPkRsaVerifyPss (e : Fin 24) (s : State) : Res := ok (pkOp 0x06 e.val s)
/-- PK_ECDSA_SIGN (R532). -/
def execPkEcdsaSign (e : Fin 24) (s : State) : Res := ok (pkOp 0x10 e.val s)
/-- PK_ECDSA_VERIFY (R529, R568). -/
def execPkEcdsaVerify (e : Fin 24) (s : State) : Res := ok (pkOp 0x11 e.val s)
/-- PK_KEY_AGREEMENT (R541, R543). -/
def execPkKeyAgreement (e : Fin 24) (s : State) : Res := ok (pkOp 0x12 e.val s)
/-- PK_PUBLIC_FROM_PRIVATE (R529). -/
def execPkPublicFromPrivate (e : Fin 24) (s : State) : Res := ok (pkOp 0x13 e.val s)
/-- PK_EDDSA_SIGN (R529). -/
def execPkEddsaSign (e : Fin 24) (s : State) : Res := ok (pkOp 0x20 e.val s)
/-- PK_EDDSA_VERIFY (R529). -/
def execPkEddsaVerify (e : Fin 24) (s : State) : Res := ok (pkOp 0x21 e.val s)

/-- PK_RSA_KEYGEN (R555): the search of the running generation ends with the primes `p` and `q`. No effect where they are no
outcome of FIPS 186-5 A.1.3 for the size. -/
def execPkRsaKeygen (e : Fin 24) (p q : Nat) (s : State) : Res :=
  match pkRunning s e.val with
  | none => ok s
  | some j =>
    let k := 2048 + 1024 * (j.pkop % 256)
    let r := s.draw 64
    if j.pkop / 256 = 0x30 ∧ j.status.isNone ∧ rsaPrimesOk k p q ((chunks 8 r.1).map beNat) then
      ok (pkSet e.val { j with status := some 0, result := rsaKeyBytes k p q, rem := r.2.dt - (r.2.eng e.val).runAt } r.2)
    else ok s

/-- VAS_VERIFY (R548, R549): the running verification of an engine is computed; `bad` marks one that does not hold because the
signature or the verification was faulted. -/
def execVasVerify (e : Fin 24) (bad : Bool) (s : State) : Res :=
  match pkRunning s e.val with
  | none => ok s
  | some j =>
    if j.kind ≠ 1 ∨ j.withdrawn then ok s
    else if bad ∧ j.status.isNone then ok (pkSet e.val { j with status := some tVERIFY_FAIL } (s.bump (0xB700 + e.val) 7))
    else ok (pkSettle e.val j s)

/-- A lane job's outcome returns to its JOB bank at `t` (R184, R379, R540, R569): the completion run can start. -/
def laneResult (jn t st : Nat) (res : Bytes) (s : State) : State :=
  let x := s.job jn
  if x.stage ≠ 2 then s
  else s.setJob jn { x with pkst := st, pkres := if st = 0 then res else [], pkAt := t, stage := 3 }

/-- A finished signature passes to the verifying engine (R548). -/
def toVas (jn h : Nat) (j : PkJob) (sig : Bytes) (s : State) : State :=
  match pkOf s h 1 jn with
  | none => s
  | some v => pkSet h { v with sig := sig, oper := j.oper, arr := some (s.dt + 16) } s

/-- A lane job ends (R540, R548). -/
def endLaneJob (j : PkJob) (st : Nat) (res : Bytes) (s : State) : State :=
  let x := s.job j.ref
  let vas := match j.key with | some k => k.vas | none => false
  match x.vas with
  | some h =>
    if decide (st = 0) && vas then toVas j.ref h j res s
    else
      let s := match pkOf s h 1 j.ref with | some v => pkCancel h v.seq s | none => s
      laneResult j.ref (s.dt + 16) st res (s.setJob j.ref { s.job j.ref with vas := none })
  | none => laneResult j.ref (s.dt + 16) st res s

/-- A verification ends (R548, R549): the signature goes to the lane, or the signing engine is fenced with cause VAS. -/
def endVasJob (j : PkJob) (st : Nat) (s : State) : State :=
  let x := s.job j.ref
  let s := s.setJob j.ref { x with vas := none }
  if st = 0 then laneResult j.ref (s.dt + 16) 0 j.sig s
  else
    let s := laneResult j.ref (s.dt + 16) tVERIFY_FAIL [] s
    match x.engine with
    | none => s
    | some g =>
      let s := (s.bump 0x6000 4).bump (0xB700 + g) 8
      fencePkUnit g 6 (logEvent 0x17 g 0 j.pkop s)

/-- An RSA key arrives at the key die (R442, R541): it fills its AWAITING node or is staged. -/
def genDone (d : Nat) (key : Bytes) (s : State) : State :=
  match s.key.gens.find? (fun g => decide (g.die = some d)) with
  | none => s
  | some g =>
    let s := { s with key := { s.key with gens := s.key.gens.filter (fun x => decide (x.node ≠ g.node)) } }
    let n := s.node g.node
    if g.staged then
      let s := s.setNode g.node { n with state := 2 }
      let r := stageKey g.node key 0 g.auto g.op g.check s
      if r.1 = 0 then r.2 else (match g.op with | some k => failSlot k r.1 r.2 | none => r.2)
    else
      let fail (c : Nat) (s : State) : State := match g.op with | some k => failSlot k c s | none => s
      if n.kind ≠ 3 ∨ n.state ≠ 1 then fail 9 s
      else if ! s.grp.id.isEmpty then
        let u := groupPrepare 0 g.node (recordBytes { n.setOrigin 0 with state := 2 }) key [] g.op
          (recordBytes { n.setOrigin 0 with state := 2 } ++ zeros 8 ++ keyProof s n key) none s
        if u.1 ≠ 0 then fail u.1 s else u.2.2
      else
        let r := storeKey g.node (n.setOrigin 0) key s
        if r.1 ≠ 0 then fail r.1 r.2
        else match g.op with
          | some k => doneSlot k (readRecord r.2 g.node ++ keyProof r.2 n key) r.2
          | none => r.2

/-- A background job ends (R540, R541, R556): its result goes to RESADDR by DMA, or to the key die. -/
def endBgJob (e : Nat) (j : PkJob) (st : Nat) (res : Bytes) (s : State) : State :=
  let d := e / 12
  let x := (s.bg d).desc
  let s := s.bump (0xB700 + e) 6
  let r : Nat × State :=
    if st ≠ 0 then (st, s.setNum 0x6000 5 0)
    else if bgDest x = 1 then (0, (if j.pkop / 256 = 0x30 then genDone d res s else s).setNum 0x6000 5 0)
    else if res.length > bgResLen x then (tPOLICY, s.setNum 0x6000 5 0)
    else
      let w := dma (0x40 + e) 1 (bgResAddr x) res.length s
      let s := fabWrite (bgResAddr x / 2 ^ 32) (bgResAddr x % 2 ^ 32) (res.take w.1) w.2.2
      (if w.2.1 = 0 then 0 else tPOLICY, s.setNum 0x6000 5 w.1)
  genPump (bgEnd d r.1 r.2)

/-- A job ends on its engine: counted, delivered by its source, and its bank zeroised (R535, R540, R561). -/
def pkFinish (e : Nat) (j : PkJob) (st : Nat) (res : Bytes) (s : State) : State :=
  let s := s.setEng e { s.eng e with count := ((s.eng e).count + 1) % 2 ^ 32 }
  let s := s.bump (0xB700 + e) 1
  let s := if st = tPK_INPUT then s.bump (0xB700 + e) 2 else if st = tVERIFY_FAIL then s.bump (0xB700 + e) 3
    else if st = tPOLICY then s.bump (0xB700 + e) 4 else s
  let s := pkRemove e j.seq s.dt s
  let s := match j.kind with
    | 0 => endLaneJob j st res s
    | 1 => endVasJob j st s
    | 2 => audSigned (e / 12) j.ref (if st = 0 then 0 else 4) st (if st = 0 then res else []) s
    | _ => endBgJob e j st res s
  rearmIdle (9 + e / 12) s

/-- RSA_GEN_LIMIT (R555): a generation not finished within 6000:03 of its submission ends with PK_INPUT. -/
def execRsaGenLimit (die : Fin 2) (s : State) : Res :=
  let d := die.val
  let e := 12 * d + (s.bg d).engine
  match pkFind s e (fun j => decide (j.kind = 3 ∧ j.pkop / 256 = 0x30)) with
  | none => ok s
  | some j =>
    if ¬ (s.bg d).busy ∨ j.status.isSome then ok s
    else ok (pkFinish e j tPK_INPUT [] (s.at ((s.bg d).at_ + ms (s.cfg 0x6000 3))))

/-- A released job with an earlier deadline has waited past the yield point that R526 sets within 2,000 PCLK: the running job has given way to it
before `t`. -/
def mustYield (v : PkEng) (j : PkJob) (t : Nat) : Bool :=
  v.jobs.any (fun b => decide (b.seq ≠ j.seq) && pkBefore b j && (decide (j.kind = 3) || decide (b.dl < j.dl)) &&
    (match b.rls with | some r => decide (Nat.max r v.yieldAt + pkY < t) | none => false))

/-- PK_JOB_END (R525, R526, R533, R540): the running job of an engine ends after its exact work. A generation ends once its search
has. No effect while a job that preempts it stands past its yield point. -/
def execPkJobEnd (e : Fin 24) (s : State) : Res :=
  match pkRunning s e.val with
  | none => ok s
  | some j =>
    let s := if j.withdrawn then s else pkSettle e.val j s
    match pkRunning s e.val with
    | none => ok s
    | some j =>
      let t := (s.eng e.val).runAt + j.rem
      if j.withdrawn then ok (rearmIdle (9 + e.val / 12) (pkRemove e.val j.seq (s.at t).dt (s.at t)))
      else if mustYield (s.eng e.val) j t then ok s
      else
        match j.status with
        | none => ok s
        | some st => ok (pkFinish e.val j st j.result (s.at t))

/-- PK_JOB_RELEASE (R202, R542): the next job of an engine whose operand has arrived and whose key, or its refusal, is in its
bank. No effect while the engine's domain is not READY. -/
def execPkJobRelease (e : Fin 24) (s : State) : Res :=
  let due (j : PkJob) : Option Nat := match j.rls, j.arr, j.keyAt with | none, some a, some k => some (Nat.max a k) | _, _, _ => none
  let best := (s.eng e.val).jobs.foldl (fun (b : Option (Nat × Nat)) j =>
    match due j, b with
    | some t, some x => if t < x.1 then some (t, j.seq) else b
    | some t, none => some (t, j.seq)
    | none, _ => b) none
  match best with
  | none => ok s
  | some b => if s.domReady (9 + e.val / 12) then ok (pkRelease e.val b.2 s) else ok s

/-- Switch an engine from its running job to another released one at a yield point (R525, R561). -/
def pkSwitch (e t : Nat) (j : PkJob) (s : State) : State :=
  let v := s.eng e
  match pkBest v t with
  | none => s
  | some b =>
    if b.seq ≠ j.seq ∧ pkBefore b j ∧ (j.kind = 3 ∨ b.dl < j.dl) then
      let s := (s.setEng e { v with run := some b.seq, runAt := t, yieldAt := t, lastOp := b.pkop }).bump (0xB700 + e) 5
      if b.started then s else pkFirst e b s
    else s

/-- PK_YIELD_POINT (R525-R527, R562, R563): the running job's next yield point, `n` PCLK after its start or last one, at most
2,000; which of the fixed points of its PKOP it is the manual does not publish (R526), so any distance up to 2,000 is taken. The engine changes to a released job with an earlier deadline; a withdrawn or aborted job ends. -/
def execPkYieldPoint (e : Fin 24) (n : Fin 2001) (s : State) : Res :=
  let e := e.val
  match pkRunning s e with
  | none => ok s
  | some j =>
    let v := s.eng e
    let t := Nat.max s.dt (v.yieldAt + n.val)
    let gen := decide (j.pkop / 256 = 0x30)
    if ¬ gen ∧ t ≥ v.runAt + j.rem then ok s
    else
      let s := s.at t
      let j := { j with rem := if gen then 0 else j.rem - (t - v.runAt) }
      let s := pkSet e j s
      let s := s.setEng e { s.eng e with runAt := t, yieldAt := t }
      if j.withdrawn then ok (rearmIdle (9 + e / 12) (pkRemove e j.seq t s))
      else if j.kind = 3 ∧ (s.bg (e / 12)).abort then ok (pkFinish e j tABORTED [] s)
      else ok (pkSwitch e t j s)

/-- PK_DRBG_RESEED (R546): between jobs, after 2^20 requests, an engine's generator is seeded anew. -/
def execPkDrbgReseed (e : Fin 24) (s : State) : Res :=
  let v := s.eng e.val
  ok (if v.run.isNone ∧ v.reqs ≥ 2 ^ 20 then s.setEng e.val { v with reqs := 0, seeded := true } else s)

/-- GO of a die's background interface (R528, R556, R557): a malformed descriptor ends with POLICY without starting. -/
def bgGo (d : Nat) (s : State) : State :=
  let b := s.bg d
  if b.go || b.busy then s
  else if ¬ bgOk b.desc then bgEnd d tPOLICY s
  else bgSubmit d b.desc s

/-- PKE_BG_GO (R556). -/
def execPkeBgGo (die : Fin 2) (s : State) : Res := ok (bgGo die.val s)

/-- ABORT of a die's background interface (R556): a running job ends at its next yield point, another at once. -/
def bgAbort (d : Nat) (s : State) : State :=
  let b := s.bg d
  if b.go then genPump (bgEnd d tABORTED s)
  else if ¬ b.busy then s
  else
    let e := 12 * d + b.engine
    match pkFind s e (fun j => decide (j.kind = 3)) with
    | none => s
    | some j =>
      if (s.eng e).run = some j.seq then s.setBg d { b with abort := true }
      else genPump (bgEnd d tABORTED (pkRemove e j.seq s.dt s))

/-- PKE_BG_ABORT (R556). -/
def execPkeBgAbort (die : Fin 2) (s : State) : Res := ok (bgAbort die.val s)

/-- BG_CLAIM_TIMEOUT (R528): a placed background job that has not started within 6000:02 of its submission has its engine
claimed. It waits while another engine of the die is claimed. -/
def execBgClaimTimeout (die : Fin 2) (s : State) : Res :=
  let d := die.val
  let b := s.bg d
  if ¬ b.busy || b.started || b.claim then ok s
  else if (dieEngines d).any (fun e => decide ((s.eng e).claim ≠ 0)) then ok s
  else
    let e := 12 * d + b.engine
    let s := s.at (b.at_ + us (s.cfg 0x6000 2))
    ok ((s.setEng e { s.eng e with claim := 2, claimAt := s.dt }).setBg d { s.bg d with claim := true })

/-- The values 60ee:05 accepts (R560). -/
def pkFenceRange (e : Nat) (s : State) (v : Bytes) : Bool := decide (beNat v = 1 ∨ (beNat v = 2 ∧ (s.eng e).cause = 4))

/-- Release a REQUEST fence of an engine. -/
def unfenceEng (e : Nat) (s : State) : State :=
  let v := s.eng e
  if v.cause ≠ 4 then s
  else bgTry (e / 12) (settleDegraded (s.setEng e { v with cause := if (s.dom (9 + e / 12)).st = .fenced ∨ (s.dom (9 + e / 12)).st = .retry then 5 else 0 }))

/-- The effect of 60ee:05 (R560). -/
def fxPkFence (e : Nat) (s : State) (_role : Nat) (v : Bytes) : Ans :=
  ansOK (if beNat v = 1 then fencePkUnit e 4 s else unfenceEng e s)

/-- PK_FENCE_REQUEST (R560). -/
def execPkFenceRequest (r : Req) (e : Fin 24) (s : State) : Res :=
  ok (serveWrite (reqWith r [0x01]) (0x6001 + e.val) 5 always always (pkFenceRange e.val) (fxPkFence e.val) s)

/-- PK_FENCE_RELEASE (R560). -/
def execPkFenceRelease (r : Req) (e : Fin 24) (s : State) : Res :=
  ok (serveWrite (reqWith r [0x02]) (0x6001 + e.val) 5 always always (pkFenceRange e.val) (fxPkFence e.val) s)

/-- A node names a loaded curve (R554). -/
def curveNamed (s : State) (c : Nat) : Bool :=
  s.key.nodes.any (fun e => decide ((e.2.ktype = 0x13 ∨ e.2.ktype = 0x23) ∧ e.2.param = c ∧ e.2.kind ≠ 0))

/-- The number of the first curve check that fails, 0 where all hold (R552, R553); the bases of check 2 are drawn. -/
def curveErr (r : Bytes) (s : State) : Nat × State :=
  let pb := beNat (r.take 2)
  let c := curveOfRecord r
  if r.length ≠ 400 ∨ byteAt r 3 ≠ 0 ∨ ¬ (224 ≤ pb ∧ pb ≤ 521) ∨ c.h < 1 ∨ c.h > 4 ∨ Nat.log2 c.p + 1 ≠ pb ∨ c.a ≥ c.p ∨ c.b ≥ c.p ∨
      c.gx ≥ c.p ∨ c.gy ≥ c.p then (1, s)
  else
    let d := s.draw 4096
    let bases := (chunks 64 d.1).map beNat
    if ¬ (probablyPrime c.p bases && probablyPrime c.n bases) then (2, d.2)
    else if (4 * c.a ^ 3 + 27 * c.b ^ 2) % c.p = 0 then (3, d.2)
    else if ¬ c.onCurve c.gx c.gy ∨ c.mul c.n c.g ≠ none then (4, d.2)
    else
      let hn := c.h * c.n
      let diff := if c.p + 1 ≥ hn then c.p + 1 - hn else hn - (c.p + 1)
      if diff * diff > 4 * c.p ∨ Nat.log2 c.n + 1 < pb - 2 then (5, d.2)
      else if c.n = c.p ∨ (List.range 100).any (fun j => decide (modPow c.p (j + 1) c.n = 1)) then (6, d.2)
      else (0, d.2)

/-- Set what a curve slot holds from the next flip on (R554). -/
def pendCurve (c : Nat) (r : Bytes) (s : State) : State :=
  { s with pk := { s.pk with curves := Tab.put {} s.pk.curves c { Tab.look {} s.pk.curves c with pend := some r } } }

/-- The effect of 602c:02 (R553, R554): check and install the staged record, or unload, for the next flip. -/
def fxCurve (c : Nat) (s : State) (role : Nat) (v : Bytes) : Ans :=
  startOp (0x6020 + c) 2 role .install v (fun k s =>
    if curveNamed s c then failSlot k 7 s
    else if beNat v = 2 then doneSlot k [] (pendCurve c [] s)
    else
      let rec_ := s.entW (0x6020 + c) 1
      let r := curveErr rec_ s
      if r.1 ≠ 0 then failSlot k r.1 r.2 else doneSlot k [] (mrMeasure 6 9 c (sha384 rec_) (pendCurve c rec_ r.2))) s

/-- CURVE_INSTALL (R553, R554). -/
def execCurveInstall (r : Req) (c : Fin 16) (s : State) : Res :=
  ok (serveWrite (reqWith r [0x01]) (0x6020 + c.val) 2 always inCeremony anyValue (fxCurve c.val) s)

/-- CURVE_UNLOAD (R554). -/
def execCurveUnload (r : Req) (c : Fin 16) (s : State) : Res :=
  ok (serveWrite (reqWith r [0x02]) (0x6020 + c.val) 2 always inCeremony anyValue (fxCurve c.val) s)

end Sys2Proof.Machine
end

