-- ==== Sys2Proof/Machine/KeyRun.lean ====
section
/-!
DEFINITION. The key commands as long operations (R460-R462), the states of a replacement (R443-R446), deliveries and the sealed key
bus (R437-R439), coherence scans and old runs (R440, R441).
-/
namespace Sys2Proof.Machine

/-- A node that the members of a group share (R598, R600). -/
def sharedNode (id : Nat) : Bool := id = 2 || id = 3 || (decide (9 ≤ id) && decide (id ≤ 0x100)) || decide (0x200 ≤ id)

/-- The device is a group member and the node is the group's. -/
def inGroup (s : State) (id : Nat) : Bool := ! s.grp.id.isEmpty && sharedNode id

/-- A key command ends: its code is shown in KEY_CMD, and its slot takes the end. -/
def endKc (k code : Nat) (res : Bytes) (s : State) : State :=
  let s := { s with key := { s.key with code := code } }
  if code = 0 then doneSlot k res s else failSlot k code s

/-- A command that creates, fills or deletes a node (R461), in a group as a group change (R600): `r` is what the command does
on this device alone. -/
def runNode (id k : Nat) (r : KC) (s : State) : State :=
  if r.code ≠ 0 then endKc k r.code [] r.st
  else if inGroup s id then
    let g := groupPrepare 0 id (recordBytes (r.st.node id)) (nodeKey r.st id) [] (some k) r.res none { s with draws := r.st.draws }
    if g.1 ≠ 0 then endKc k g.1 [] g.2.2 else g.2.2
  else endKc k 0 r.res r.st

/-- GENERATE (R442): an RSA key is made by the public-key engines. -/
def runGenerate (b : Bytes) (k : Nat) (s : State) : State :=
  let id := kbNode b
  let n := s.node id
  if s.rst.trngFailed then endKc k 6 [] s
  else if n.kind = 3 ∧ n.state = 1 ∧ n.ktype = 0x18 then
    genPump { s with key := { s.key with gens := s.key.gens ++ [({ node := id, op := some k, staged := false } : GenReq)] } }
  else runNode id k (kcGenerate b s) s

/-- Stage a key that a source gave (R443, R446). -/
def stageWith (b : Bytes) (k origin : Nat) (key : Bytes) (s : State) : State :=
  let r := stageKey (kbNode b) key origin (bit (byteAt b 1).toNat 0) (some k) (slice b 36 16) s
  if r.1 ≠ 0 then endKc k r.1 [] r.2 else r.2

/-- STAGE (R442-R446, R461): the key comes from the generator, an SKB, a key block, or components. An SKB fits a node of its own ID (CODE 0x0007
otherwise), CLASS and USE (0x0004), KTYPE and PARAM (0x0006; DEDUCED, log entry 92). -/
def runStage (b : Bytes) (k : Nat) (s : State) : State :=
  let id := kbNode b
  let n := s.node id
  let auto := bit (byteAt b 1).toNat 0
  let check := slice b 36 16
  if stageErr s id ≠ 0 then endKc k (stageErr s id) [] s
  else
    match (byteAt b 35).toNat with
    | 1 =>
      if s.rst.trngFailed then endKc k 6 [] s
      else if n.ktype = 0x18 then
        let s := s.setNode id { n with state := 3 }
        genPump { s with key := { s.key with gens := s.key.gens ++ [({ node := id, op := some k, staged := true, auto := auto, check := check } : GenReq)] } }
      else
        match genKey n.ktype n.param s with
        | none => endKc k 4 [] s
        | some (key, t) => stageWith b k 0 key t
    | 2 =>
      let o := openSkb s (kbData b)
      if o.1 ≠ 0 then endKc k o.1 [] s
      else if o.2.1 ≠ id then endKc k 7 [] s
      else if o.2.2.1.mgmt ≠ n.mgmt ∨ o.2.2.1.use_ ≠ n.use_ then endKc k 4 [] s
      else if o.2.2.1.ktype ≠ n.ktype ∨ o.2.2.1.param ≠ n.param then endKc k 6 [] s
      else stageWith b k o.2.2.1.origin (fixParity n.ktype o.2.2.2) s
    | 3 =>
      let i := importKey (kbAux b) (kbData b) n s
      if i.1 ≠ 0 then endKc k i.1 [] i.2.2 else stageWith b k 1 i.2.1 i.2.2
    | 4 => (s.setRepl id { auto := auto, stageOp := some k, check := check, origin := 3 }).setNode id { n with state := 3 }
    | _ => endKc k 0x0E [] s

/-- The group change of a node's replacement. -/
def replChange (s : State) (id : Nat) : Option Chg := s.grp.chgs.find? (fun c => decide (c.op = 1 ∧ c.node = id ∧ c.st ≤ 1) && c.mine)

/-- COMMIT (R445, R600): a PREPARED node passes its commit point; the operation ends when the old run is freed. -/
def runCommit (b : Bytes) (k : Nat) (s : State) : State :=
  let id := kbNode b
  if (s.node id).kind = 0 then endKc k 2 [] s
  else if (s.node id).state ≠ 5 then endKc k 9 [] s
  else
    let s := match replChange s id with | some c => chgCommit c s | none => s
    commitPoint id (some k) s

/-- End a replacement that has not reached its commit point (R443): its STAGE ends ABORTED, the group aborts. -/
def abortRepl (id : Nat) (s : State) : State :=
  let op := (s.repl id).stageOp
  let s := { s with key := { s.key with gens := s.key.gens.filter (fun g => decide (g.node ≠ id)) } }
  let s := unstage id s
  let s := match op with | some j => endSlot j .aborted 0xFFFD [] s | none => s
  match replChange s id with
  | some c => chgAbort c.id 0x0B s
  | none => s

/-- ABORT (R443, R461). -/
def runAbort (b : Bytes) (k : Nat) (s : State) : State :=
  let id := kbNode b
  let n := s.node id
  if n.kind = 0 then endKc k 2 [] s
  else if n.state = 3 ∨ n.state = 4 ∨ n.state = 5 then endKc k 0 [] (abortRepl id s) else endKc k 9 [] s

/-- A command that changes no node: its result. -/
def runPlain (k : Nat) (r : KC) : State := endKc k r.code r.res r.st

/-- Run a command block in slot `k` (R460-R462). -/
def runKey (b : Bytes) (k : Nat) (s : State) : State :=
  let op := (byteAt b 0).toNat
  let s := { s with key := { s.key with op := op } }
  if ¬ kbOk b then endKc k 0x0E [] s
  else if op ≠ 0x0C ∧ (s.key.rootSt = 5 ∨ s.key.root.isEmpty) then endKc k 0x10 [] s
  else
    match op with
    | 0x01 => runNode (kbNode b) k (kcCreate b s) s
    | 0x02 => runNode (kbNode b) k (kcDelete b s) s
    | 0x03 => runGenerate b k s
    | 0x04 => runNode (beNat (slice (kbData b) 16 3)) k (kcLoad b s) s
    | 0x05 => runPlain k (kcSave b s)
    | 0x06 => runNode (kbNode b) k (kcImport b s) s
    | 0x07 => runPlain k (kcExport b s)
    | 0x08 => runStage b k s
    | 0x09 => runCommit b k s
    | 0x0A => runAbort b k s
    | 0x0B => runPlain k (kcAttest b s)
    | 0x0C => runPlain k (kcRead b s)
    | 0x0D => runNode (kbNode b) k (kcLoadpub b s) s
    | _ => endKc k 0x0E [] s

/-- The block staged in 5010:01. -/
def stagedBlock (s : State) : Bytes := s.entW 0x5010 1

/-- A command that READ and ATTEST are (R461): role O, every mode. -/
def readsOnly (op : Nat) : Bool := decide (op = 0x0B ∨ op = 0x0C)

/-- The mode of a command (R461, R53). -/
def keyMode (s : State) (_ : Nat) : Bool :=
  let m := requestMode s
  readsOnly (byteAt (stagedBlock s) 0).toNat ||
  (decide (s.power.lcs ≠ .vendor) && decide (m = .service ∨ m = .degraded ∨ m = .ceremony ∨ m = .update))

/-- The effect of 0x01 to 5010:02 (R460, R461): the role is checked here. -/
def fxKey (s : State) (role : Nat) (v : Bytes) : Ans :=
  let b := stagedBlock s
  if ¬ hasRight s role (if readsOnly (byteAt b 0).toNat then 2 else 8) then ansErr s rDENIED
  else startOp 0x5010 2 role (.keyCmd b) v (fun k s => runKey b k s) s

/-- One key command: the write of 0x01 to 5010:02 while the staged block names it. -/
def serveKey (op : Nat) (r : Req) (s : State) : State :=
  if (byteAt (stagedBlock s) 0).toNat = op ∧ ¬ (stagedBlock s).isEmpty then
    serveWrite (reqWith r [1]) 0x5010 2 always keyMode anyValue fxKey s
  else s

/-- A staged key is in place, and its local checks can run. -/
def keyInPlace (s : State) (id : Nat) : Bool :=
  decide ((s.node id).state = 3) && (if (s.node id).kind = 2 then ! (s.repl id).key.isEmpty else (s.repl id).has)

/-- A staged key that fails a check (R443, R468). -/
def stageFails (id code : Nat) (s : State) : State :=
  let op := (s.repl id).stageOp
  let s := unstage id s
  match op with | some k => endKc k code [] s | none => s

/-- The local checks of a staged key complete (R443, R444, R600). -/
def verified (id : Nat) (s : State) : State :=
  if localChecks s id ≠ 0 then stageFails id (localChecks s id) s
  else
    let s := s.setNode id { s.node id with state := 4 }
    if inGroup s id then
      let n := s.node id
      let rec_ := recordBytes { n.setOrigin (s.repl id).origin with state := 2, slot := 0, newslot := 0 }
      let key := if n.kind = 2 then (s.repl id).key else (s.run (s.repl id).head).key
      let g := groupPrepare 1 id rec_ key [] none [] none s
      if g.1 ≠ 0 then stageFails id g.1 g.2.2 else g.2.2
    else prepared id s

/-- The tags that fail as a delivery reads its path (R423-R425): the node's record, or the base's slots. -/
def markBad (id : Nat) (badNode badSlot : Bool) (s : State) : State :=
  let s := if badNode ∧ (s.node id).kind ≠ 0 then s.setNode id { s.node id with bad := true } else s
  match badSlot, pathOf s id with
  | true, some p => (match p.getLast? with
    | some (_, b) => if b.kind = 3 then s.setRun b.slot { s.run b.slot with bad := true } else s
    | none => s)
  | _, _ => s

/-- The bus message a die receives next. -/
def nextBus (s : State) (die : Nat) : Option BusMsg :=
  (s.key.bus.filter (fun d => decide (d.die = die))).foldl (fun b d => match b with
    | none => some d
    | some x => if d.due < x.due then some d else b) none

/-- A quad's cache takes a key or a refusal (R278, R279); an entry that has gone is not filled. -/
def fillCache (q : Nat) (m : BusMsg) (st : Nat) (s : State) : State :=
  let e := cacheEnt s q m.idx
  if e.st = .filling ∧ e.node = m.node ∧ e.input = m.input then
    let s := if st = 0 then s else s.bump (0xB440 + q) 3
    setCache q m.idx (if st = 0 then
        { e with st := .valid, key := m.key, use_ := m.use_, eng := m.eng, klen := m.key.length, ktype := m.ktype }
      else { e with st := .error st }) s
  else s

/-- The jobs of an operation take its key or its refusal (R279, R437, R548): the job of the signing engine and the booked verification, on the
engines that hold them now (R213). -/
def fillBank (m : BusMsg) (st : Nat) (s : State) : State :=
  let x := s.job m.job
  let go (e : Option Nat) (kind : Nat) (s : State) : State :=
    match e with
    | none => s
    | some e =>
      match pkOf s e kind m.job with
      | none => s
      | some j =>
        let j := { j with keyAt := some s.dt, refused := st
                          key := if st = 0 then some { key := m.key, ktype := m.ktype, param := m.param, use_ := m.use_, vas := m.vas } else none }
        pkKick e s.dt (pkSet e j s)
  go x.vas 1 (go x.engine 0 s)

/-- The scan that runs (R440) ends or goes on by one pass: a pass marks the children of what the last one marked. -/
def scanPass (sc : Scan) (rest : List Scan) (s : State) : State :=
  let s := s.at (sc.start + (sc.pass + 1) * 4096)
  let new := (s.key.nodes.filter (fun e => decide (e.2.kind = 4) && sc.front.contains e.2.parent && ! sc.marked.contains e.1)).map (·.1)
  if new.isEmpty then
    { s with key := { s.key with
        scans := rest
        olds := s.key.olds.map (fun o => if o.node = sc.node ∧ o.marks.isEmpty then { o with marks := sc.marked } else o) } }
  else
    let s := { s with key := { s.key with
        scans := { sc with front := new, marked := sc.marked ++ new, pass := sc.pass + 1 } :: rest
        removals := s.key.removals ++ new } }
    s.bumpBy 0xB500 0x0A new.length

/-- Every removal that a change ordered has taken effect (R441). -/
def removalsDone (s : State) (o : OldRun) : Bool :=
  ! o.marks.isEmpty && ! s.key.removals.any (fun n => o.marks.contains n) &&
  ! s.unit.quads.any (fun q => q.2.cache.any (fun e => e.2.deferred && o.marks.contains e.2.node))

/-- An old run is zeroised and freed (R441, R445): the operation that passed the commit point ends, or waits for its group. -/
def freeOld (o : OldRun) (s : State) : State :=
  let s := { s with key := { s.key with olds := s.key.olds.filter (fun x => decide (x ≠ o)) } }
  let s := if o.head < 0x10000 then freeRun o.head s else s
  match o.op with
  | none => s
  | some k =>
    let res := readRecord s o.node
    match s.grp.chgs.find? (fun c => decide (c.op = 1 ∧ c.node = o.node ∧ c.st = 2) && c.mine) with
    | some c => setChg { c with slot := some k, res := res } s
    | none => endKc k 0 res s

end Sys2Proof.Machine
end

