-- ==== Sys2Proof/Machine/KeyRows.lean ====
section
/-!
DEFINITION. The meanings of the key-tree commands (R409-R472). Each of the thirteen key commands is the write of 0x01 to 5010:02
while the block staged in 5010:01 names it (R460, R461).
-/
namespace Sys2Proof.Machine

/-- KEY_CREATE (R409, R426, R461): OP 0x01. -/
def execKeyCreate (r : Req) (s : State) : Res := ok (serveKey 0x01 r s)
/-- KEY_DELETE (R461, R466): OP 0x02. -/
def execKeyDelete (r : Req) (s : State) : Res := ok (serveKey 0x02 r s)
/-- KEY_GENERATE (R442): OP 0x03. -/
def execKeyGenerate (r : Req) (s : State) : Res := ok (serveKey 0x03 r s)
/-- KEY_LOAD (R450): OP 0x04. -/
def execKeyLoad (r : Req) (s : State) : Res := ok (serveKey 0x04 r s)
/-- KEY_SAVE (R449): OP 0x05. -/
def execKeySave (r : Req) (s : State) : Res := ok (serveKey 0x05 r s)
/-- KEY_IMPORT (R451): OP 0x06. -/
def execKeyImport (r : Req) (s : State) : Res := ok (serveKey 0x06 r s)
/-- KEY_EXPORT (R453): OP 0x07. -/
def execKeyExport (r : Req) (s : State) : Res := ok (serveKey 0x07 r s)
/-- KEY_STAGE (R443): OP 0x08. -/
def execKeyStage (r : Req) (s : State) : Res := ok (serveKey 0x08 r s)
/-- KEY_COMMIT (R445): OP 0x09. -/
def execKeyCommit (r : Req) (s : State) : Res := ok (serveKey 0x09 r s)
/-- KEY_ABORT (R443): OP 0x0A. -/
def execKeyAbort (r : Req) (s : State) : Res := ok (serveKey 0x0A r s)
/-- KEY_ATTEST (R456): OP 0x0B. -/
def execKeyAttest (r : Req) (s : State) : Res := ok (serveKey 0x0B r s)
/-- KEY_READ (R461): OP 0x0C. -/
def execKeyRead (r : Req) (s : State) : Res := ok (serveKey 0x0C r s)
/-- KEY_LOADPUB (R454): OP 0x0D. -/
def execKeyLoadpub (r : Req) (s : State) : Res := ok (serveKey 0x0D r s)

/-- REPLACEMENT_VERIFIED (R443, R444, R600): the local checks of a staged key complete. -/
def execReplacementVerified (node : BitVec 18) (s : State) : Res :=
  if keyInPlace s node.toNat then ok (verified node.toNat s) else ok s

/-- KEY_DELIVERY (R437, R439): a pipeline starts its next delivery; the flags are record and slot tags that fail. -/
def execKeyDelivery (pipe : Fin 8) (badNode badSlot : Bool) (s : State) : Res :=
  match nextDeliv s pipe with
  | none => ok s
  | some v => ok (runDelivery pipe v (markBad v.node badNode badSlot s))

/-- KEY_BUS_MESSAGE (R438): it fills its cache entry or context bank, or is discarded where its tag or counter fails. -/
def execKeyBusMessage (die : Fin 2) (bad : Bool) (s : State) : Res :=
  match nextBus s die with
  | none => ok s
  | some m =>
    let s := { (s.at m.due) with key := { s.key with bus := s.key.bus.filter (fun x => decide (x ≠ m)) } }
    let s := if bad then logEvent 0x14 die.val 0 m.node (s.bump 0xB500 7) else s
    let st := if bad then tKEY_INTEGRITY else m.status
    ok (match m.quad with
      | some q => fillCache q m st s
      | none => fillBank m st s)

/-- COHERENCE_SCAN_PASS (R440): the oldest scan makes one pass of 4,096 KCLK over the node table. -/
def execCoherenceScanPass (s : State) : Res :=
  match s.key.scans with
  | [] => ok s
  | sc :: rest => ok (scanPass sc rest s)

/-- OLD_RUN_FREE (R441, R445): the first old run whose removals have all taken effect. -/
def execOldRunFree (s : State) : Res :=
  match s.key.olds.find? (removalsDone s) with
  | none => ok s
  | some o => ok (freeOld o s)

end Sys2Proof.Machine
end

