-- ==== Sys2Proof/Machine/Mirror.lean ====
section
/-!
DEFINITION. The meanings of the mirror-link and group commands (R593-R605, R612, R613). A row that names a received frame carries
the link, its SEQ, and whether its tag failed.
-/
namespace Sys2Proof.Machine

/-- MIRROR_LINK_UP (R594): a trained link starts its authentication with the peer's nonce. -/
def execMirrorLinkUp (l : Fin 8) (nonce : BitVec 256) (s : State) : Res :=
  let v := s.mlink l
  if s.cfg (0x2030 + l.val) 1 ≠ 1 ∨ ¬ s.domReady 31 ∨ 2 ≤ v.st then ok s
  else
    let d := s.draw 32
    let e := drawScalar p384.n 8 d.2
    let a := attest 0 (beBytes nonce.toNat 32) e.2
    if a.code ≠ 0 then ok s
    else
      let eph := p384.enc (p384.mul e.1 p384.g)
      let t := a.st.setMlink l { tagfail := v.tagfail, st := 2, eph := e.1, stmt := a.res, nonce := d.1, lastRx := s.dt, lastTx := s.dt }
      ok (sendMir l (.auth a.res eph) (sendMir l (.nonce d.1) t))

/-- The peer of a statement may join this link (R594, R604): a roster member that is not ERASED, or the device that the GROUP
ceremony in progress names. -/
def peerNamed (s : State) (ser idk : Bytes) : Bool :=
  s.grp.ros.any (fun e => decide (e.2.serial = ser ∧ e.2.idk = idk) && ! e.2.erased) ||
  decide (s.grp.invited = ser ++ idk) || decide (s.grp.join = ser ++ idk)

/-- The checks of a peer's statement (R456, R594). A joiner has no GROUPID of its own to compare (log entry 45). -/
def peerOk (s : State) (v : MLink) (stmt eph idk : Bytes) : Bool :=
  decide (stmt.length = 232 ∧ stmt.take 5 = beBytes 0x53564154 4 ++ [1] ∧ byteAt stmt 5 = 2 ∧ slice stmt 24 3 = [0, 0, 0]) &&
  decide (slice stmt 40 32 = v.nonce) && peerNamed s (slice stmt 8 8) idk && (p384.dec eph).isSome &&
  (! bit (byteAt stmt 7).toNat 3 || s.grp.id.isEmpty || decide (slice stmt 120 8 = s.grp.id))

/-- The keys of a link (R84, R594): the upper and the lower half. T takes the lower SERIAL's statement and key first. -/
def linkKeys (s : State) (v : MLink) (stmt eph : Bytes) : Bytes × Bytes :=
  let mine := v.stmt ++ p384.enc (p384.mul v.eph p384.g)
  let lower := decide (beNat (serial s) < beNat (slice stmt 8 8))
  let t := sha384 (if lower then mine ++ (stmt ++ eph) else (stmt ++ eph) ++ mine)
  let z := match p384.dec eph with
    | some q => (match p384.mul v.eph (some q) with | some r => beBytes r.1 48 | none => zeros 48)
    | none => zeros 48
  let k := kdfCtr ((sha384 (z ++ t)).take 32) (ascii "SV6400 MIRROR") t 512
  if lower then (k.take 32, k.drop 32) else (k.drop 32, k.take 32)

/-- The tree on its way to a joiner (R598): anchors 1, 2 and 8-255 and every owner node. -/
def sendTree (l : Nat) (s : State) : State :=
  (sharedNodes s).foldl (fun s id => sendMir l (.transfer id ((readRecord s id).take 24) (nodeKey s id)) s) s

/-- The lowest free roster slot. -/
def freeMember (s : State) : Nat := ((List.range 8).find? (fun k => (s.member k).serial.isEmpty)).getD 7

/-- ADMIT and JOIN meet (R598): the tree is sent, and the roster change that adds the joiner starts. -/
def admitJoiner (l : Nat) (s : State) : State :=
  let m : Member := { serial := s.grp.invited.take 8, idk := s.grp.invited.drop 8 }
  cerRoster (rosterBytes s.grp.id (Tab.put {} s.grp.ros (freeMember s) m)) none (sendTree l s)

/-- Members other than `peer` that this device stayed joined to (R603). -/
def joinedCount (s : State) (peer : Bytes) : Nat :=
  ((otherSlots s).filter (fun k => decide ((s.member k).serial ≠ peer) && ! isLost s k)).length

/-- A member's link has come UP again (R603): it asks for the decisions of the changes it holds, and shows its nodes. -/
def resyncStart (l : Nat) (peer : Bytes) (s : State) : State :=
  let s := s.grp.chgs.foldl (fun s c => if ! c.mine && decide (c.init = peer) then sendMir l (.note 6 c.id) s else s) s
  (sharedNodes s).foldl (fun s id => sendMir l (.copy id ((readRecord s id).take 24) [] (joinedCount s peer)) s) s

/-- The link is UP (R594, R605): keys, a token drawn and sent; then a join or an exchange. -/
def linkUp (l : Nat) (v : MLink) (stmt eph : Bytes) (s : State) : State :=
  let peer := slice stmt 8 8
  let was := (slotOfSerial s peer).isSome && (upLinks s peer).isEmpty
  let k := linkKeys s v stmt eph
  let d := s.draw 16
  let s := d.2.setMlink l { v with st := 3, peer := peer, eph := 0, stmt := [], nonce := [], txKey := k.1, rxKey := k.2,
                                   lastRx := s.dt, tokTx := d.1, tokRx := [] }
  let s := sendMir l (.token d.1) (s.bump (0xB810 + l) 3)
  if decide (s.grp.invited.take 8 = peer) && ! s.grp.invited.isEmpty && decide (s.cer.kind = 5) && s.cer.chg.isEmpty then admitJoiner l s
  else if was then resyncStart l peer s
  else s

/-- MIRROR_AUTH (R594): the peer's statement, ephemeral key and identity-key digest; `good` is the verdict of the certificate
chain, of the statement's signature and, for a joiner, of anchor 0 being the group's (R597; no message of the manual carries it, log entry 45). A
failed check takes the link DOWN. -/
def execMirrorAuth (l : Fin 8) (stmt eph : Bytes) (idk : BitVec 128) (good : Bool) (s : State) : Res :=
  let v := s.mlink l
  if v.st ≠ 2 then ok s
  else
    let s := s.bump (0xB810 + l.val) 2
    if good && peerOk s v stmt eph (beBytes idk.toNat 16) then ok (linkUp l v stmt eph s) else ok (linkDown l s)

/-- A frame arrives on an UP link (R593): accepted, or it takes the link DOWN. -/
def onFrame (l seq : Nat) (bad : Bool) (f : State → State) (s : State) : State :=
  let v := s.mlink l
  if v.st ≠ 3 then s
  else if bad ∨ seq ≤ v.rxSeq then frameFail l (s.bump (0xB810 + l) 2)
  else f ((s.setMlink l { v with rxSeq := seq, lastRx := s.dt }).bump (0xB810 + l) 2)

/-- The roster slot of a link's peer. -/
def peerSlot (s : State) (l : Nat) : Option Nat := slotOfSerial s (s.mlink l).peer

/-- MIRROR_HEARTBEAT (R594). -/
def execMirrorHeartbeat (l : Fin 8) (seq : Word) (bad : Bool) (s : State) : Res := ok (onFrame l seq.toNat bad id s)

/-- MIRROR_HEARTBEAT_TIMER (R594): a link idle for 100 µs sends a HEARTBEAT. -/
def execMirrorHeartbeatTimer (l : Fin 8) (s : State) : Res :=
  if (s.mlink l).st ≠ 3 then ok s else ok (sendMir l .heartbeat (s.at ((s.mlink l).lastTx + us 100)))

/-- MIRROR_SILENCE_TIMEOUT (R594, R595): A100:04 without a valid frame. -/
def execMirrorSilenceTimeout (l : Fin 8) (s : State) : Res :=
  if (s.mlink l).st < 2 then ok s else ok (linkDown l (s.at ((s.mlink l).lastRx + us (s.cfg 0xA100 4))))

/-- MIRROR_TOKEN (R605). -/
def execMirrorToken (l : Fin 8) (seq : Word) (bad : Bool) (t : BitVec 128) (s : State) : Res :=
  ok (onFrame l seq.toNat bad (fun s => s.setMlink l { s.mlink l with tokRx := beBytes t.toNat 16 }) s)

/-- The member of a link is ERASED (R604). -/
def memberErased (l : Nat) (s : State) : State :=
  let s := match peerSlot s l with
    | some k => (writeRoster { s with grp := { s.grp with ros := Tab.put {} s.grp.ros k { s.member k with erased := true } } }).2
    | none => s
  condAssert 0x10 l s

/-- MIRROR_TAMPER (R604, R605): judged on the token alone; without a token held it is discarded. -/
def execMirrorTamper (l : Fin 8) (body : BitVec 128) (s : State) : Res :=
  let v := s.mlink l
  let s := if v.st = 3 then s.bump (0xB810 + l.val) 2 else s
  if v.st ≠ 3 ∨ v.tokRx.isEmpty then ok s
  else if v.tokRx = beBytes body.toNat 16 then ok (memberErased l (s.setMlink l { v with tokRx := [] }))
  else ok (linkDown l (logEvent 0x16 l.val 0 (beNat (v.peer.drop 4)) s))

/-- Act once on a pair of change ID and message type (R595). -/
def acted (s : State) (id : Bytes) (ty : Nat) : Bool := s.grp.acted.any (fun e => decide (e = (id, ty)))
/-- Note the pair. -/
def noteActed (id : Bytes) (ty : Nat) (s : State) : State := { s with grp := { s.grp with acted := (id, ty) :: s.grp.acted } }

/-- Another change is held for the node (R601). -/
def heldFor (s : State) (id : Bytes) (node : Nat) : Option Chg := s.grp.chgs.find? (fun c => decide (c.node = node ∧ c.id ≠ id ∧ c.st ≠ 4))

/-- What a member's staging of a change comes to (R443, R444, R600): a replacement is staged in its node, its local checks are made, and it is
PREPARED; a new key must find room. -/
def stageHere (c : Chg) (s : State) : Nat × State :=
  if c.op = 1 then
    if stageErr s c.node ≠ 0 then (stageErr s c.node, s)
    else
      let r := stageKey c.node c.key (recordOf c.nrec).origin false none [] s
      if r.1 ≠ 0 then (r.1, s)
      else if (recordOf c.nrec).ktype ≠ (s.node c.node).ktype ∨ (recordOf c.nrec).param ≠ (s.node c.node).param then (6, unstage c.node r.2)
      else if localChecks r.2 c.node ≠ 0 then (localChecks r.2 c.node, unstage c.node r.2)
      else (0, r.2.setNode c.node { r.2.node c.node with state := 5 })
  else if ¬ groupWritable s then (0x0B, s)
  else if c.op = 0 ∧ ¬ c.key.isEmpty ∧ (recordOf c.nrec).kind = 3 then ((storeKey c.node (recordOf c.nrec) c.key s).1, s)
  else (0, s)

/-- A member stages a change and answers PREPARED or REFUSE (R600). -/
def stageChange (l : Nat) (c : Chg) (s : State) : State :=
  let r := stageHere c s
  if r.1 ≠ 0 then sendMir l (.note 2 c.id) r.2
  else sendMir l (.note 1 c.id) { r.2 with grp := { r.2.grp with chgs := r.2.grp.chgs ++ [c] } }

/-- A member receives PREPARE (R600, R601). -/
def onPrepare (l : Nat) (c : Chg) (s : State) : State :=
  let peer := (s.mlink l).peer
  if acted s c.id 0 then
    (if (chgOf s c.id).isSome then sendMir l (.note 1 c.id) s else sendMir l (.note 2 c.id) s)
  else
    let s := noteActed c.id 0 s
    match heldFor s c.id c.node with
    | none => stageChange l c s
    | some o =>
      if o.mine ∧ o.st = 0 ∧ beNat peer < beNat (serial s) then stageChange l c (dropChg o.id (chgAbort o.id 0x0B s))
      else sendMir l (.note 2 c.id) s

/-- MIRROR_PREPARE (R600, R601). -/
def execMirrorPrepare (l : Fin 8) (seq : Word) (bad : Bool) (chg : BitVec 96) (op : Fin 3) (node : BitVec 19) (rec key ros : Bytes)
    (s : State) : Res :=
  let id := beBytes chg.toNat 12
  ok (onFrame l seq.toNat bad (onPrepare l { id := id, op := op.val, node := node.toNat, nrec := rec, key := key, ros := ros,
                                             init := id.take 8, st := 1, start := s.dt }) s)

/-- A member's PREPARED reaches the initiator. -/
def onPrepared (l : Nat) (id : Bytes) (s : State) : State :=
  match chgOf s id, peerSlot s l with
  | some c, some k =>
    if c.mine ∧ c.st = 0 then
      let c := { c with waits := c.waits.filter (fun j => decide (j ≠ k)) }
      let s := setChg c s
      if c.waits.isEmpty then chgPrepared c s else s
    else s
  | _, _ => s

/-- MIRROR_PREPARED (R600). -/
def execMirrorPrepared (l : Fin 8) (seq : Word) (bad : Bool) (chg : BitVec 96) (s : State) : Res :=
  ok (onFrame l seq.toNat bad (onPrepared l (beBytes chg.toNat 12)) s)

/-- A REFUSE aborts a change in its prepare phase (R601). -/
def onRefuse (id : Bytes) (s : State) : State :=
  match chgOf s id with
  | some c => if c.mine ∧ c.st = 0 then chgAbort id 0x0B s else s
  | none => s

/-- MIRROR_REFUSE (R601). -/
def execMirrorRefuse (l : Fin 8) (seq : Word) (bad : Bool) (chg : BitVec 96) (s : State) : Res :=
  ok (onFrame l seq.toNat bad (onRefuse (beBytes chg.toNat 12)) s)

/-- A member receives COMMIT (R600): it commits what it holds and answers COMMITTED. -/
def onCommit (l : Nat) (id : Bytes) (s : State) : State :=
  match chgOf s id with
  | some c => if c.mine then s else sendMir l (.note 4 id) (memberCommit c (noteActed id 3 s))
  | none => sendMir l (.note 4 id) s

/-- MIRROR_COMMIT (R600). -/
def execMirrorCommit (l : Fin 8) (seq : Word) (bad : Bool) (chg : BitVec 96) (s : State) : Res :=
  ok (onFrame l seq.toNat bad (onCommit l (beBytes chg.toNat 12)) s)

/-- COMMITTED reaches the initiator. -/
def onCommitted (l : Nat) (id : Bytes) (s : State) : State :=
  match chgOf s id, peerSlot s l with
  | some c, some k => if c.mine ∧ c.st = 2 then chgAnswered id k s else s
  | _, _ => s

/-- MIRROR_COMMITTED (R600). -/
def execMirrorCommitted (l : Fin 8) (seq : Word) (bad : Bool) (chg : BitVec 96) (s : State) : Res :=
  ok (onFrame l seq.toNat bad (onCommitted l (beBytes chg.toNat 12)) s)

/-- A member receives ABORT (R601): its staged run is zeroised, and it answers ABORTED. -/
def onAbort (l : Nat) (id : Bytes) (s : State) : State :=
  match chgOf s id with
  | some c => if c.mine then s else sendMir l (.answer id 3) (memberAbort c (noteActed id 5 s))
  | none => sendMir l (.answer id 3) s

/-- MIRROR_ABORT (R601). -/
def execMirrorAbort (l : Fin 8) (seq : Word) (bad : Bool) (chg : BitVec 96) (s : State) : Res :=
  ok (onFrame l seq.toNat bad (onAbort l (beBytes chg.toNat 12)) s)

/-- What this device answers to STATUS (R602): 0 not holding, 1 PREPARED, 2 COMMITTED, 3 ABORTED. -/
def statusOf (s : State) (id : Bytes) : Nat :=
  match decisionOf s id with
  | 1 => 2
  | 2 => 3
  | _ => if (chgOf s id).isSome then 1 else 0

/-- A STATUS answer arrives (R602, R603): the acknowledgement of an ABORT, or an answer about a change whose initiator is lost. -/
def onAnswer (l : Nat) (id : Bytes) (a : Nat) (s : State) : State :=
  match chgOf s id, peerSlot s l with
  | some c, some k =>
    if c.mine then (if c.st = 4 ∧ a = 3 then chgAnswered id k s else s)
    else if c.init = (s.mlink l).peer ∧ a = 1 then setChg { c with st := 1, asked := false, waits := [], stats := [] } s
    else settleStatus id (setChg { c with stats := c.stats ++ [(k, a)], waits := c.waits.filter (fun j => decide (j ≠ k)) } s)
  | _, _ => s

/-- MIRROR_STATUS (R602): a query, or with `answer` its answer. -/
def execMirrorStatus (l : Fin 8) (seq : Word) (bad : Bool) (chg : BitVec 96) (answer : Option (Fin 4)) (s : State) : Res :=
  let id := beBytes chg.toNat 12
  ok (onFrame l seq.toNat bad (fun s =>
    match answer with
    | none => sendMir l (.answer id (statusOf s id)) s
    | some a => onAnswer l id a.val s) s)

/-- Apply the peer's decision for a change that is held here (R603). -/
def applyDecision (id : Bytes) (commit : Bool) (s : State) : State :=
  match chgOf s id with
  | some c => if c.mine then s else if commit then memberCommit c s else memberAbort c s
  | none => s

/-- A node of the exchange that differs (R603): the member that stayed joined to more members copies its state; on a tie the
lower SERIAL. A node shown without its key is not taken: its owner's copy, in answer to what is shown here, brings it. -/
def resyncNode (l joined node : Nat) (rec key : Bytes) (s : State) : State :=
  let peer := (s.mlink l).peer
  let mine := (readRecord s node).take 24
  let here := joinedCount s peer
  let n := recordOf (fit rec 24)
  if mine = fit rec 24 then s
  else if (here < joined ∨ (here = joined ∧ beNat peer < beNat (serial s))) ∧ (n.kind = 2 ∨ n.kind = 3) ∧ n.state = 2 ∧ key.isEmpty then
    sendMir l (.copy node mine [] here) s
  else if here < joined ∨ (here = joined ∧ beNat peer < beNat (serial s)) then installNode node (fit rec 24) key s
  else sendMir l (.copy node mine (nodeKey s node) here) s

/-- MIRROR_RESYNC (R603, R613): the peer's decisions, the number of members it stayed joined to, and its nodes. -/
def execMirrorResync (l : Fin 8) (seq : Word) (bad : Bool) (decs : List (BitVec 96 × Bool)) (joined : Fin 8)
    (nodes : List (BitVec 18 × Bytes × Bytes)) (s : State) : Res :=
  ok (onFrame l seq.toNat bad (fun s =>
    if (peerSlot s l).isNone then s
    else
      let s := decs.foldl (fun s d => applyDecision (beBytes d.1.toNat 12) d.2 s) s
      nodes.foldl (fun s n => resyncNode l joined n.1.toNat n.2.1 n.2.2 s) s) s)

/-- MIRROR_KEY_TRANSFER (R598, R599): a node of the admitting member's tree; only a joiner takes it, from the member it named. -/
def execMirrorKeyTransfer (l : Fin 8) (seq : Word) (bad : Bool) (node : BitVec 18) (rec key : Bytes) (s : State) : Res :=
  ok (onFrame l seq.toNat bad (fun s =>
    if s.grp.joining ∧ (s.mlink l).peer = s.grp.join.take 8 then installNode node.toNat (fit rec 24) key s else s) s)

/-- The message that a change resends (R595). -/
def resendMsg (c : Chg) : MirMsg :=
  if c.asked then .note 6 c.id
  else if c.st = 0 then .prepare c.id c.op c.node c.nrec c.key c.ros
  else if c.st = 2 then .note 3 c.id
  else .note 5 c.id

/-- MIRROR_RESEND_TIMER (R595): an unanswered PREPARE, COMMIT, ABORT or STATUS goes out again 200 µs after the last. -/
def execMirrorResendTimer (chg : BitVec 96) (s : State) : Res :=
  match chgOf s (beBytes chg.toNat 12) with
  | none => ok s
  | some c =>
    if c.waits.isEmpty ∨ ¬ (c.asked ∨ c.st = 0 ∨ c.st = 2 ∨ c.st = 4) then ok s
    else
      let s := s.at c.resendAt
      let s := setChg { c with resendAt := s.dt + us 200 } s
      ok (c.waits.foldl (fun s k =>
        match (upLinks s (s.member k).serial).head? with
        | some l => sendMir l (resendMsg c) (s.bump (0xB810 + l) 5)
        | none => s) s)

/-- MIRROR_PREPARE_TIMEOUT (R601): A100:05 without every PREPARED. -/
def execMirrorPrepareTimeout (chg : BitVec 96) (s : State) : Res :=
  match chgOf s (beBytes chg.toNat 12) with
  | none => ok s
  | some c => if c.mine ∧ c.st = 0 then ok (chgAbort c.id 0x0B (s.at (c.start + us (s.cfg 0xA100 5)))) else ok s

/-- The effect of 0x02 to A100:07 (R602, R613): every held change whose initiator is LOST is aborted. -/
def fxResolve (s : State) (_role : Nat) (_v : Bytes) : Ans :=
  ansOK (s.grp.chgs.foldl (fun s c =>
    if c.st = 3 ∧ ! c.mine ∧ (upLinks s c.init).isEmpty then memberAbort c s else s) s)

/-- RESOLVE_ABORT (R602): 0x02 written to A100:07. -/
def execResolveAbort (r : Req) (s : State) : Res := ok (serveWrite (reqWith r [2]) 0xA100 7 always always anyValue fxResolve s)

end Sys2Proof.Machine
end

