-- ==== Sys2Proof/Machine/RegView.lean ====
section
/-!
DEFINITION. What a register reads (R17-R20, R30-R35, and the register sections of every chapter): one function per block, on the
offset within the block. Registers whose value is held elsewhere in the state are views of it; reserved and write-only bits,
and offsets without a register, read 0.
-/
namespace Sys2Proof.Machine

/-- Word `i` of a byte string, big-endian (R15). -/
def wordAt (b : Bytes) (i : Nat) : Nat := beNat (fit (slice b (4 * i) 4) 4)

/-- LN_n_STAT.STATE (the register table under R297). -/
def laneState (s : State) (l : Nat) : Nat :=
  let v := s.lane l
  if v.subst then 6 else if v.cause ≠ 0 then 7
  else if l < 64 ∧ ¬ s.domReady (11 + laneQuad l) then 8
  else if v.slice.isSome then 5 else if v.run.isSome then 2 else if v.claimed then 4
  else if v.queue.any (fun e => decide (e.st = 0)) then 1
  else if ! v.posts.isEmpty then 3 else 0

/-- LN_n_STAT. -/
def laneStat (s : State) (l : Nat) : Nat :=
  let v := s.lane l
  laneState s l * 2 ^ 24 + b2n v.runB * 2 ^ 21 + b2n v.spared * 2 ^ 20 + v.queue.length * 2 ^ 14 + v.cause * 2 ^ 8 + v.bankB * 4 + v.bankA

/-- TMRk_CFG and TMRk_CNT (R283). -/
def timerCfg (t : LaneTimer) : Nat := b2n t.en * 2 ^ 31 + b2n t.periodic * 2 ^ 30 + t.reload
def timerCnt (s : State) (t : LaneTimer) : Nat := if t.en then ceilDiv (t.due - s.dt) 1000 % 2 ^ 24 else 0

/-- LN_n_TEVT (R284). -/
def laneTevt (v : Lane) : Nat := v.ovf * 2 ^ 16 + v.carried * 2 ^ 8 + v.pend

/-- A word of a lane's register set (R297, R345, R386). -/
def laneReg (s : State) (l o : Nat) : Nat :=
  let v := s.lane l
  if o = 0x000 then laneStat s l
  else if o = 0x004 then b2n v.loadsel * 16
  else if o = 0x008 then bankEpoch s l 0
  else if o = 0x00C then bankEpoch s l 1
  else if o = 0x010 then v.cyc
  else if o = 0x014 then v.budget
  else if o = 0x018 then v.cycmax
  else if o = 0x01C then v.ovr
  else if 0x020 ≤ o ∧ o < 0x040 then
    let t := v.timer ((o - 0x20) / 8)
    if o % 8 = 0 then timerCfg t else timerCnt s t
  else if o = 0x040 then laneTevt v
  else if o = 0x044 then s.power.gpEdge % 64
  else if 0x080 ≤ o ∧ o < 0x0C0 then (Tab.look 0 v.mbxi ((o - 0x80) / 4)).toNat
  else if 0x0C0 ≤ o ∧ o < 0x100 then (Tab.look 0 v.mbxo ((o - 0xC0) / 4)).toNat
  else if o = 0x100 then b2n v.outFull * 2 + b2n v.inFull
  else if o = 0x104 then v.trap
  else if o = 0x108 then v.trapAddr
  else if o = 0x10C then 0x01000000 + 32 * 2 ^ 18 + 4 * 2 ^ 15 + 4 * 2 ^ 12 + 256
  else if o = 0x110 then v.cudefB * 2 ^ 16 + v.cudefA
  else 0

/-- LN_SPARE of a die: states and lanes served of its two spares. -/
def laneSpareReg (s : State) (d : Nat) : Nat :=
  let f (k : Nat) : Nat := (s.spare k).st * 2 ^ 5 + (s.spare k).lane % 32
  f (2 * d + 1) * 2 ^ 8 + f (2 * d)

/-- The LN_ block. -/
def lnBlock (s : State) (d o : Nat) : Nat :=
  if o < 0x8000 then laneReg s (32 * d + o / 0x400) (o % 0x400)
  else if o < 0x8800 then laneReg s (64 + 2 * d + (o - 0x8000) / 0x400) (o % 0x400)
  else if o = 0xC000 then laneSpareReg s d
  else 0

/-- QD_FEAT3 and QD_q_STAT (the register tables under R297). -/
def quadFeat3 (s : State) (q : Nat) : Nat :=
  let v := s.quad q
  let u (i : Nat) : Nat := v.unit i
  b2n ((quadLanes q).any (fun l => (s.lane l).spared)) * 2 ^ 16 +
  ((List.range 4).foldl (fun n i => if laneInService s (4 * q + i) then n + 2 ^ i else n) 0) * 2 ^ 12 +
  u 4 * 2 ^ 8 + u 3 * 2 ^ 6 + u 2 * 2 ^ 4 + u 1 * 2 ^ 2 + u 0
def quadStat (s : State) (q : Nat) : Nat :=
  let c := (s.quad q).cache
  let pwr := match domShown s (11 + q) with | .ready => 2 | .up => 1 | .entry => 3 | .down => 4 | _ => 0
  (c.filter (fun e => decide (e.2.pins ≠ 0))).length * 2 ^ 16 +
  (c.filter (fun e => decide (e.2.st = .valid ∨ e.2.st = .filling))).length * 2 ^ 5 + b2n (decide ((s.quad q).cause ≠ 0)) * 16 + pwr

/-- QD_FEAT0 to QD_FEAT3. -/
def quadFeat (s : State) (q k : Nat) : Nat :=
  if k = 0 then qdFeat0 else if k = 1 then 0x04000B40 else if k = 2 then 0x0F0D0B1A else quadFeat3 s q

/-- The QD_ block. -/
def qdBlock (s : State) (d o : Nat) : Nat :=
  let q := 8 * d + o / 0x400
  let r := o % 0x400
  if 0x2000 ≤ o then 0 else if r < 0x10 then quadFeat s q (r / 4) else if r = 0x10 then quadStat s q else 0

/-- PKE_En_STAT. -/
def engStat (s : State) (e : Nat) : Nat :=
  let v := s.eng e
  let st := if v.cause ≠ 0 then 5 else if ¬ s.domReady (9 + e / 12) then 0 else if v.slice.isSome then 4
    else if v.run.isSome then 2 else if v.claim ≠ 0 then 3 else 1
  st * 2 ^ 28 + v.cause * 2 ^ 25 + b2n (v.jobs.any (fun j => decide (j.kind = 3))) * 2 ^ 24 +
  b2n (v.jobs.any (fun j => decide (j.kind = 2))) * 2 ^ 23 + v.banks % 64 * 2 ^ 16 + v.lastOp

/-- PKE_BG_STAT. -/
def bgStat (s : State) (d : Nat) : Nat :=
  let b := s.bg d
  b2n b.busy * 2 ^ 31 + b2n b.done * 2 ^ 30 + b2n b.claim * 2 ^ 29 + b.engine % 12 * 2 ^ 24 + b.result % 256

/-- The PKE_ block. -/
def pkeBlock (s : State) (d o : Nat) : Nat :=
  if o < 0xC00 then (let e := 12 * d + o / 0x100; if o % 0x100 = 0 then engStat s e else if o % 0x100 = 4 then (s.eng e).count else 0)
  else if 0x2000 ≤ o ∧ o < 0x2020 then wordAt (s.bg d).desc ((o - 0x2000) / 4)
  else if o = 0x2020 then b2n (s.bg d).go + 2 * b2n (s.bg d).abort
  else if o = 0x2024 then bgStat s d
  else 0

/-- ACT_VSTAT. -/
def actVstat (t : ActTable) : Nat :=
  b2n t.valid * 2 ^ 31 + b2n t.prec * 2 ^ 30 + b2n t.pcv * 2 ^ 29 + t.kind * 2 ^ 27 + t.ini * 2 ^ 16 + t.cause

/-- ACT_Wn_CTRL. -/
def winCtrl (t : ActTable) (n : Nat) : Nat :=
  let w := t.win n
  b2n w.en * 2 ^ 31 + b2n w.lock * 2 ^ 30 + b2n (winOvl t n) * 2 ^ 26 + w.region * 2 ^ 16 + w.err * 2 ^ 8 +
  b2n w.x * 4 + b2n w.w * 2 + b2n w.r

/-- The ACT_ block of a die. -/
def actBlock (s : State) (d o : Nat) : Nat :=
  let t := s.actTab d
  if o = 0 then b2n (decide (d = 2) && s.act.romrun) * 2 ^ 31 + b2n t.deflock * 2 + b2n t.defen
  else if o = 4 then actVstat t
  else if o = 8 then t.addr % 2 ^ 32
  else if o = 0xC then t.addr / 2 ^ 32
  else if o = 0x10 then t.info
  else if o = 0x14 then t.vcnt
  else if 0x40 ≤ o ∧ o < 0x80 then (if d = 2 then Tab.look 0 s.act.caps ((o - 0x40) / 4 + 1) else 0)
  else if 0x100 ≤ o ∧ o < 0x500 then
    let n := (o - 0x100) / 16
    let w := t.win n
    if o % 16 = 0 then w.lo * 64 else if o % 16 = 4 then w.hi * 64 else if o % 16 = 8 then winCtrl t n else w.first * 256 + w.last
  else 0

/-- The collector's and the audit unit's registers (the tables before R258). -/
def colStat (s : State) (d : Nat) : Nat := (s.aud d).pendMax % 64 * 2 ^ 8 + (s.aud d).ptr % 32
def audStat (s : State) (d : Nat) : Nat :=
  let a := s.aud d
  b2n a.run * 2 ^ 31 + b2n a.sysHold * 2 ^ 30 + b2n a.erased * 2 ^ 29 + a.fifoMax % 4096 * 2 ^ 8 +
  Nat.min 255 (a.items.filter (fun i => decide (i.kind = 1))).length

/-- The blocks of a compute die. -/
def cdReg (s : State) (d blk o : Nat) : Nat :=
  match blk with
  | 1 => if o = 0 then colStat s d else 0
  | 2 => if o = 0 then audStat s d else 0
  | 3 => lnBlock s d o
  | 4 => qdBlock s d o
  | 5 => pkeBlock s d o
  | 6 => actBlock s d o
  | _ => 0

/-- The slot number that a key command started through KEY_CMD runs under: none of F000-F0FF. -/
abbrev kcSlot : Nat := 256

/-- KEY_BUF: the command block, or the result once the command has ended. -/
def keyBuf (s : State) (o : Nat) : Byte :=
  let k := s.slot kcSlot
  if k.state.terminal ∧ o < k.result.length then byteAt k.result o else Memory.read s.key.buf o

/-- The KEY_ block. -/
def keyBlock (s : State) (o : Nat) : Nat :=
  let k := s.slot kcSlot
  let busy : Bool := decide (k.state ≠ .idle) && ! k.state.terminal
  if o = 0 then b2n busy * 2 ^ 31 + s.key.op
  else if o = 4 then b2n busy * 2 ^ 31 + k.progress % 128 * 2 ^ 24 + k.code
  else if o = 8 then b2n s.tamper.saltSet * 2 ^ 31 + s.key.rootSt * 2 ^ 24
  else if o = 0xC then s.key.saltGen
  else if o = 0x10 then (s.key.nodes.filter (fun n => decide (n.2.kind ≠ 0))).length
  else if o = 0x14 then s.key.runs.foldl (fun n r => n + 1 + r.2.next) 0
  else if 0x8000 ≤ o ∧ o < 0xA000 then beNat ((List.range 4).map (fun i => keyBuf s (o - 0x8000 + i)))
  else 0

/-- The DRV_ block. -/
def drvBlock (s : State) (o : Nat) : Nat :=
  let n := o % 0x40 / 4
  if o < 0x20 then
    let w := s.key.delivs.filter (fun v => decide (v.pipe = n))
    b2n (decide (s.dt < Tab.look 0 s.key.drvEnd n) || w.any (fun v => decide (v.due ≤ s.dt))) * 2 ^ 31 + Nat.min 255 (w.filter (fun v => decide (s.dt < v.due))).length * 2 ^ 8
  else if 0x40 ≤ o ∧ o < 0x60 then Tab.look 0 s.key.drvUnits n % 2 ^ 32
  else 0

/-- The PUF_ block. -/
def pufBlock (s : State) (o : Nat) : Nat :=
  if o = 0 then b2n s.key.pufDone * 2 ^ 31 + b2n s.key.pufFail * 2 ^ 30 + s.key.pufAttempts % 4 * 2 ^ 28 + s.key.pufCorrected % 2 ^ 16 else 0

/-- The DIG_ block. -/
def digBlockReg (s : State) (o : Nat) : Nat :=
  if o = 0 then s.dig.mode * 2 ^ 28 + s.dig.alg * 2 ^ 24 + b2n s.dig.cmpen * 2 ^ 23 + s.dig.cmplen * 2 ^ 16
  else if o = 0x10 then digStat s
  else if o = 0x14 then s.dig.msg.length
  else if 0x40 ≤ o ∧ o < 0x80 then wordAt s.dig.res ((o - 0x40) / 4)
  else if o = 4 ∨ o = 8 ∨ (0x80 ≤ o ∧ o < 0xC0) then s.reg 2 (digOff + o)
  else 0

/-- MR_STAT and MR_CTRL. -/
def mrStatReg (s : State) : Nat :=
  b2n (! s.mr.waiting.isEmpty) * 2 ^ 31 + b2n s.mr.refused * 2 ^ 30 + b2n (decide (1024 ≤ s.mr.log.length)) * 2 ^ 29 +
  b2n s.mr.reext * 2 ^ 28 + s.mr.log.length
def mrCtrlReg (s : State) : Nat :=
  b2n (s.mr.waiting.any (fun q => decide (q.port = 1))) * 2 ^ 31 + b2n (s.mr.waiting.any (fun q => decide (q.port = 2))) * 2 ^ 30 +
  b2n s.mr.bootlock * 2 ^ 29 + s.mr.vidx * 2 ^ 20 + s.mr.oidx * 2 ^ 12 + s.mr.vsrc

/-- The MR_ block. -/
def mrBlock (s : State) (o : Nat) : Nat :=
  if o < 0x400 then (if o % 0x40 < 0x30 then wordAt (s.mrVal (o / 0x40)) (o % 0x40 / 4) else 0)
  else if o = 0x400 then mrCtrlReg s
  else if o = 0x404 then mrStatReg s
  else if (0x440 ≤ o ∧ o < 0x470) ∨ (0x480 ≤ o ∧ o < 0x4B0) then s.reg 2 (mrOff + o)
  else if 0x4C0 ≤ o ∧ o < 0x4F0 then wordAt s.mr.baseDig ((o - 0x4C0) / 4)
  else 0


/-- The TMP_ block (R671 and its tables). -/
def tmpBlock (s : State) (o : Nat) : Nat :=
  let t := s.tamper
  if o = 0 then b2n t.erased * 2 ^ 31 + b2n t.t1done * 2 ^ 30 + b2n t.t2done * 2 ^ 29 + b2n t.guardEv * 2 ^ 28 + b2n s.log.full * 2 ^ 27 +
    t.lastCond % 256 * 2 ^ 16 + Nat.min 255 t.erases
  else if o = 4 then tmpAct s
  else if o = 8 then tmpLat s
  else if o = 0xC then t.detDt % 2 ^ 32
  else if o = 0x10 then s.reg 2 (tmpOff + 0x10)
  else if o = 0x14 then t.pmax0 * 2 ^ 16 + t.pstep0
  else if o = 0x18 then t.pmax1 * 2 ^ 16 + t.pstep1
  else 0

/-- The LOG_ block. -/
def logBlock (s : State) (o : Nat) : Nat :=
  if o = 0 then b2n s.log.full * 2 ^ 31 + b2n (! s.log.queue.isEmpty) * 2 ^ 30 + Nat.min 64 s.log.queue.length * 2 ^ 16 + s.log.count
  else if o = 4 then s.log.seq
  else if o = 8 then s.log.baseSeq
  else if 0x20 ≤ o ∧ o < 0x40 then wordAt (logHead s) ((o - 0x20) / 4)
  else 0

/-- PWR_GPIO. -/
def gpioReg (s : State) : Nat :=
  s.power.gpOe % 64 * 2 ^ 24 + s.power.gpOut % 64 * 2 ^ 16 + s.power.gpIn % 64 * 2 ^ 8 + s.power.gpEdge % 64

/-- The PWR_ block. -/
def pwrBlock (s : State) (o : Nat) : Nat :=
  let p := s.power
  if o < 0x14 then (List.range 8).foldl (fun n j => if 8 * (o / 4) + j ≤ 32 then n + (s.dom (8 * (o / 4) + j)).st.code * 2 ^ (4 * j) else n) 0
  else if o = 0x20 then p.lcs.code * 2 ^ 20 + p.retMode * 2 ^ 12 + p.ret2 * 2 ^ 8 + p.mode.code
  else if o = 0x24 then (match p.wakeRing.head? with | some w => w.src * 2 ^ 24 + w.index * 2 ^ 16 + w.dom * 2 ^ 8 + w.flags % 4 | none => 0)
  else if o = 0x28 then (match p.wakeRing.head? with | some w => w.dt % 2 ^ 32 | none => 0)
  else if o = 0x2C then s.reg 2 (pwrOff + 0x2C)
  else if o = 0x30 then
    (match p.refRing.head? with | some r => r.refuser * 2 ^ 24 + r.target * 2 ^ 16 + r.kind * 2 ^ 15 + r.point * 2 ^ 12 | none => 0)
  else if o = 0x34 then b2n p.holdDeep * 4 + b2n p.holdPk * 2 + b2n p.holdQuads
  else if o = 0x38 then p.vset
  else if o = 0x3C then p.failDom * 2 ^ 24 + p.failAttempt * 2 ^ 20 + p.fails % 2 ^ 16
  else if o = 0x40 then gpioReg s
  else 0

/-- RST_CAUSE and RST_STAT. -/
def rstCause (s : State) : Nat := s.rst.level * 2 ^ 28 + s.rst.scope * 2 ^ 16 + s.rst.info * 2 ^ 8 + s.rst.source
def Phase.code : Phase → Nat
  | .options => 0 | .release => 1 | .keydie => 2 | .boot => 3 | .post => 4 | .epoch => 5 | .done => 6 | .halt => 7
def rstStat (s : State) : Nat := s.rst.phase.code * 2 ^ 28 + s.rst.hcause * 2 ^ 24 + s.rst.coreBusy % 8 * 2 ^ 16

/-- The RST_ block: cause, its DT and RTC, state, watchdog, block reset (R740, R744, R762). -/
def rstBlock (s : State) (o : Nat) : Nat :=
  let r := s.rst
  if o = 0 then rstCause s
  else if o = 4 then r.cdt % 2 ^ 32
  else if o = 8 then s.reg 2 (rstOff + 8)
  else if o = 0xC then r.crtc
  else if o = 0x10 then rstStat s
  else if o = 0x18 then b2n r.wdtEn * 2 ^ 31
  else if o = 0x1C then r.wdto
  else if o = 0x20 then b2n r.blkRefused * 2 ^ 30 + r.blkKind * 2 ^ 8 + r.blkIndex
  else 0

/-- The OPT_ block. -/
def optBlock (s : State) (o : Nat) : Nat :=
  let r := s.rst
  let marg (k : Nat) : Nat := s.nvm.marginal.foldl (fun m w => if w / 32 = k then m ||| 2 ^ (w % 32) else m) 0
  if o = 0 then b2n r.optDone * 2 ^ 31 + Nat.min 255 r.restarts * 2 ^ 16 + r.marginal % 256 * 2 ^ 8 + r.mcopy
  else if o = 4 then marg 0
  else if o = 8 then marg 1
  else if 0x100 ≤ o ∧ o < 0x300 then Tab.look 0 r.optWords ((o - 0x100) / 4)
  else 0

/-- NVM_STAT of one interface. -/
def nvmPortStat (p : NvmPort) : Nat := b2n p.busy * 2 ^ 31 + b2n p.done * 2 ^ 30 + p.err * 2 ^ 16

/-- The NVM_ block. -/
def nvmBlock (s : State) (o : Nat) : Nat :=
  let n := s.nvm
  let buf (p : NvmPort) (a : Nat) : Nat := beNat (Memory.readN p.buf a 4)
  if o = 0 then n.base.ctrl
  else if o = 4 then n.base.addr
  else if o = 8 then n.base.len
  else if o = 0xC then nvmPortStat n.base
  else if o = 0x10 then n.readOnly
  else if o = 0x14 then n.spareBad.length * 2 ^ 8 + n.spareUsed.length
  else if o = 0x18 then n.base.cnt / 2 ^ 32
  else if o = 0x1C then n.base.cnt % 2 ^ 32
  else if 0x100 ≤ o ∧ o < 0x200 then buf n.base (o - 0x100)
  else if o = 0x8000 then n.owner.ctrl
  else if o = 0x8004 then n.owner.addr
  else if o = 0x8008 then n.owner.len
  else if o = 0x800C then nvmPortStat n.owner
  else if 0x8100 ≤ o ∧ o < 0x8200 then buf n.owner (o - 0x8100)
  else 0

/-- The FUS_ block. -/
def fusBlock (s : State) (o : Nat) : Nat :=
  let n := s.nvm
  if o = 0 then n.fusCtrl else if o = 4 then n.fusData
  else if o = 8 then b2n n.fusDone * 2 ^ 30 + b2n n.fusVerify * 2 ^ 29 + b2n n.fusDenied * 2 ^ 28 else 0

/-- The CUS_ block; DEACT reads 0, since the deactivation it starts is done at once. -/
def cusBlock (s : State) (o : Nat) : Nat :=
  if o < 0x400 then
    (if o % 0x100 = 0 then cusStat s (o / 0x100) else 0)
  else 0

/-- The blocks of the key die. -/
def kdReg (s : State) (blk o : Nat) : Nat :=
  match blk with
  | 0 => keyBlock s o
  | 1 => drvBlock s o
  | 2 => pufBlock s o
  | 3 => digBlockReg s o
  | 4 => mrBlock s o
  | 5 => tmpBlock s o
  | 6 => logBlock s o
  | 7 => actBlock s 2 o
  | 8 => pwrBlock s o
  | 9 => rstBlock s o
  | 0xA => optBlock s o
  | 0xB => nvmBlock s o
  | 0xC => fusBlock s o
  | 0xD => cusBlock s o
  | _ => 0

/-- The queue registers of the HPQ_ block (R167). -/
def hpqQueue (h : HostQ) (o : Nat) : Nat :=
  if o = 0 then h.sqBase % 2 ^ 32
  else if o = 4 then h.sqBase / 2 ^ 32
  else if o = 8 then h.cqBase % 2 ^ 32
  else if o = 0xC then h.cqBase / 2 ^ 32
  else if o = 0x10 then h.cqLog * 2 ^ 16 + h.sqLog
  else if o = 0x14 then h.sqTail
  else if o = 0x18 then h.sqHead
  else if o = 0x1C then h.cqHead
  else if o = 0x20 then h.cqTail
  else if o = 0x24 then b2n h.irqEn * 2 + b2n h.en
  else if o = 0x28 then b2n h.fetchFault * 4 + b2n h.cqOvf * 2 + b2n h.cfgErr
  else 0

/-- The HPQ_ block: queues, mailbox (R78) and its buffers. -/
def hpqBlock (s : State) (o : Nat) : Nat :=
  if o < 0x500 then (if o / 0x100 = 4 ∧ (o % 0x100 < 8 ∨ o % 0x100 = 0x14 ∨ o % 0x100 = 0x18) then 0 else hpqQueue (s.hq (o / 0x100)) (o % 0x100))
  else if 0x8000 ≤ o ∧ o < 0xA000 then wordAt s.dict.mbxReq ((o - 0x8000) / 4)
  else if 0xA000 ≤ o ∧ o < 0xC000 then wordAt s.dict.mbxRsp ((o - 0xA000) / 4)
  else if o = 0xF000 ∨ o = 0xF004 then s.reg 3 (0x0F030000 + o)
  else 0

/-- The blocks of the port die. -/
def xdReg (s : State) (blk o : Nat) : Nat :=
  match blk with
  | 3 => hpqBlock s o
  | 4 => if o < 0x800 ∧ o % 0x100 = 0 then mirStat s (o / 0x100) else 0
  | 6 => actBlock s 3 o
  | _ => 0

/-- The word at a register offset of a region (R30, R34): offsets from 0x0F00_0000 on. -/
def regRead (s : State) (region off : Nat) : Nat :=
  let blk := off / 0x10000 - 0x0F00
  let o := off % 0x10000 / 4 * 4
  if region ≤ 1 then cdReg s region blk o else if region = 2 then kdReg s blk o else if region = 3 then xdReg s blk o else 0

/-- What a read of the low half of a DT register pair latches (TMP_DTL, PWR_WAKEDTL). -/
def regLatch (s : State) (region off : Nat) : State :=
  if region = 2 ∧ off = tmpOff + 0xC then s.setReg 2 (tmpOff + 0x10) (s.tamper.detDt / 2 ^ 32)
  else if region = 2 ∧ off = pwrOff + 0x28 then
    s.setReg 2 (pwrOff + 0x2C) (match s.power.wakeRing.head? with | some w => w.dt / 2 ^ 32 | none => 0)
  else if region = 2 ∧ off = rstOff + 4 then s.setReg 2 (rstOff + 8) (s.rst.cdt / 2 ^ 32)
  else s

end Sys2Proof.Machine
end

