-- ==== Sys2Proof/Machine/RegWrite.lean ====
section
/-!
DEFINITION. What a write of a register word does (R17-R20 and the register sections of every chapter): fields act by their
access codes, and fields with a behaviour of their own have it; writes to read-only registers, reserved bits and offsets
without a register are ignored (R28).
-/
namespace Sys2Proof.Machine

/-- The state a meaning leaves. -/
def after (r : Res) (s : State) : State := match r with | .next t => t | _ => s

/-- Replace word `i` of a byte string. -/
def putWord (b : Bytes) (i v : Nat) : Bytes := overlay b (4 * i) (beBytes v 4)

/-- Apply `f` where `c` holds. -/
def onlyIf (c : Bool) (f : State → State) (s : State) : State := if c then f s else s

/-- LN_n_CTRL (R290, R298, R303): LOADSEL, then LOAD, ACK, DISCARD, UNFENCE, FENCE. -/
def laneCtrl (l v : Nat) (s : State) : State :=
  let b := b2n (bit v 4)
  let s := s.setLane l { s.lane l with loadsel := bit v 4 }
  let s := onlyIf (bit v 3) (bankLoad l b) s
  let s := onlyIf (bit v 5) (bankAck l b true) s
  let s := onlyIf (bit v 2) (bankDiscard l b) s
  let s := onlyIf (bit v 1) (unfenceLane l) s
  onlyIf (bit v 0) (fenceLane l 4) s

/-- A fabric write to a lane's register set (R283-R286): MBXO is only read, and MBXI is ignored while IN_FULL is set. -/
def laneRegWrite (l o v : Nat) (s : State) : State :=
  let x := s.lane l
  if o = 0x004 then (if l < 64 then laneCtrl l v s else s.setLane l { x with loadsel := bit v 4 })
  else if o = 0x018 then (if v = 0 then s.setLane l { x with cycmax := 0 } else s)
  else if 0x020 ≤ o ∧ o < 0x040 ∧ o % 8 = 0 then timerConfig l ((o - 0x20) / 8) v s
  else if o = 0x040 then tevtClear l v s
  else if 0x080 ≤ o ∧ o < 0x0C0 then (if x.inFull then s else s.setLane l { x with mbxi := Tab.put 0 x.mbxi ((o - 0x80) / 4) (word v) })
  else if o = 0x100 then
    let s := if bit v 0 then mbxSet l 0 s else s
    if bit v 1 then mbxClear l 1 s else s
  else s

/-- The LN_ block. -/
def lnWrite (d o v : Nat) (s : State) : State :=
  if o < 0x8000 then laneRegWrite (32 * d + o / 0x400) (o % 0x400) v s
  else if o < 0x8800 then laneRegWrite (64 + 2 * d + (o - 0x8000) / 0x400) (o % 0x400) v s
  else s

/-- The PKE_ block (R556). -/
def pkeWrite (d o v : Nat) (s : State) : State :=
  let b := s.bg d
  if 0x2000 ≤ o ∧ o < 0x2020 then
    (if b.go || b.busy then s else s.setBg d { b with desc := putWord b.desc ((o - 0x2000) / 4) v })
  else if o = 0x2020 then onlyIf (bit v 1) (bgAbort d) (onlyIf (bit v 0) (fun s => if b.go then s.noteSet (regKey d 0x0F052020) 1 else bgGo d s) s)
  else if o = 0x2024 then (if s.clears (regKey d 0x0F052024) v 30 then s.setBg d { b with done := false } else s)
  else s

/-- ACT_Wn_CTRL (R684, R685, R694): the fields while EN is 0, EN, then LOCK. -/
def winCtrlWrite (d n v : Nat) (s : State) : State :=
  let w := (s.actTab d).win n
  if winLocked s w then s
  else
    let s := if w.en then s
      else s.setWin d n { w with region := bits v 23 16, x := bit v 2, w := bit v 1, r := bit v 0 }
    let s := if bit v 31 = w.en then s
      else if bit v 31 then winEnable d n s
      else s.setWin d n { (s.actTab d).win n with en := false }
    if bit v 30 then winLock d n s else s

/-- The ACT_ block of a die. -/
def actWrite (d o v : Nat) (s : State) : State :=
  let t := s.actTab d
  if o = 0 then s.setActTab d { t with defen := if t.deflock then t.defen else bit v 0, deflock := t.deflock || bit v 1 }
  else if o = 4 then (if s.clears (regKey d 0x0F060004) v 31 then s.setActTab d { t with valid := false } else s)
  else if o = 0x14 then (if v = 0 then s.setActTab d { t with vcnt := 0 } else s)
  else if 0x40 ≤ o ∧ o < 0x80 then
    (if d = 2 then { s with act := { s.act with caps := Tab.put 0 s.act.caps ((o - 0x40) / 4 + 1) (v % 256) } } else s)
  else if 0x100 ≤ o ∧ o < 0x500 then
    let n := (o - 0x100) / 16
    let w := t.win n
    if o % 16 = 8 then winCtrlWrite d n v s
    else if winLocked s w ∨ w.en then s
    else if o % 16 = 0 then s.setWin d n { w with lo := v / 64 }
    else if o % 16 = 4 then s.setWin d n { w with hi := v / 64 }
    else s.setWin d n { w with first := bits v 15 8, last := bits v 7 0 }
  else s

/-- The blocks of a compute die. -/
def cdWrite (d blk o v : Nat) (s : State) : State :=
  let a := s.aud d
  match blk with
  | 1 => if o = 0 ∧ s.clears (regKey d 0x0F010000) v 13 then s.setAud d { a with pendMax := 0 } else s
  | 2 => if o = 0 ∧ s.clears (regKey d 0x0F020000) v 19 then s.setAud d { a with fifoMax := 0 } else s
  | 3 => lnWrite d o v s
  | 5 => pkeWrite d o v s
  | 6 => actWrite d o v s
  | _ => s

/-- GO of KEY_CMD: the command block of KEY_BUF runs; its length is that of its header, up to 8,192 bytes. A second GO while one
runs is noted for R18. -/
def keyGo (s : State) : State :=
  let k := s.slot kcSlot
  if k.state ≠ .idle ∧ ¬ k.state.terminal then s.noteSet (regKey 2 0x0F000000) (2 ^ 31)
  else runKey (Memory.readN s.key.buf 0 8192) kcSlot (s.setSlot kcSlot { state := .running, started := s.dt, byIdx := 0xF100 })

/-- The KEY_ block. -/
def keyWrite (o v : Nat) (s : State) : State :=
  if o = 0 then onlyIf (bit v 31) keyGo { s with key := { s.key with op := v % 256 } }
  else if 0x8000 ≤ o ∧ o < 0xA000 then
    let s := if (s.slot kcSlot).state.terminal then s.setSlot kcSlot {} else s
    { s with key := { s.key with buf := Memory.writeN s.key.buf (o - 0x8000) (beBytes v 4) } }
  else s

/-- The DIG_ block (R615-R621). -/
def digWrite (o v : Nat) (s : State) : State :=
  if o = 0 then
    let s := onlyIf (bit v 30) (fun s => after (execDigAbort s) s) s
    if bit v 31 then after (execDigStart (word v) s) s
    else { s with dig := { s.dig with mode := bits v 29 28, alg := bits v 27 24, cmpen := bit v 23, cmplen := bits v 22 16 } }
  else if o = 4 then (if s.dig.running then s else s.setReg 2 (digOff + 4) v)
  else if o = 8 then s.setReg 2 (digOff + 8) (v % 2 ^ 18)
  else if o = 0xC then after (execDigDataWrite (word v) s) s
  else if o = 0x10 then { s with dig := { s.dig with trunc := s.dig.trunc && ! s.clears (regKey 2 (digOff + 0x10)) v 29, cmpflt := s.dig.cmpflt && ! bit v 26 } }
  else if 0x80 ≤ o ∧ o < 0xC0 then s.setReg 2 (digOff + o) v
  else s

/-- The MR_ block: the vendor's fields by 0x60 and 0x61, the owner's by 0x61 and modules with MRX (R683). -/
def mrWrite (ini o v : Nat) (s : State) : State :=
  let ven := isBase s ini
  let own := decide (ini ≠ 0x60)
  if o = 0x400 then
    let s := if ven then { s with mr := { s.mr with vidx := bits v 23 20, vsrc := v % 256 } } else s
    let s := if own then { s with mr := { s.mr with oidx := bits v 15 12 } } else s
    let s := onlyIf (ven && bit v 31 && mrGo s 1) (fun s => s.noteSet (regKey 2 (mrOff + 0x400)) (2 ^ 31)) s
    let s := onlyIf (own && bit v 30 && mrGo s 2) (fun s => s.noteSet (regKey 2 (mrOff + 0x400)) (2 ^ 30)) s
    let s := onlyIf (ven && bit v 31) (fun s => after (execMrVendorExtend (BitVec.ofNat 4 (bits v 23 20)) (byte v) s) s) s
    let s := onlyIf (own && bit v 30) (fun s => after (execMrOwnerExtend (BitVec.ofNat 4 (bits v 15 12)) s) s) s
    onlyIf (ven && bit v 29) (fun s => after (execBootlock s) s) s
  else if o = 0x404 then (if s.clears (regKey 2 (mrOff + 0x404)) v 30 then { s with mr := { s.mr with refused := false } } else s)
  else if 0x440 ≤ o ∧ o < 0x470 then (if ¬ ven ∨ mrGo s 1 then s else s.setReg 2 (mrOff + o) v)
  else if 0x480 ≤ o ∧ o < 0x4B0 then (if ¬ own ∨ mrGo s 2 then s else s.setReg 2 (mrOff + o) v)
  else s

/-- The TMP_ block. -/
def tmpWrite (o v : Nat) (s : State) : State :=
  let t := s.tamper
  if o = 0 then (if s.clears (regKey 2 tmpOff) v 28 then { s with tamper := { t with guardEv := false } } else s)
  else if o = 8 then
    (bitsSet 17 (v - (v &&& s.freshBits (regKey 2 (tmpOff + 8))))).foldl (fun s i => s.setCond (i + 1) { s.cond (i + 1) with latched := false }) s
  else if o = 0x14 then (if s.clears (regKey 2 (tmpOff + 0x14)) v 20 then { s with tamper := { t with pmax0 := 0 } } else s)
  else if o = 0x18 then (if s.clears (regKey 2 (tmpOff + 0x18)) v 20 then { s with tamper := { t with pmax1 := 0 } } else s)
  else if o = 0x1C then after (execTmpZeroWrite (word v) s) s
  else s

/-- The PWR_ block. A pin that becomes an output driving low changes its own taken level (R814). -/
def pwrWrite (o v : Nat) (s : State) : State :=
  if o = 0x34 then
    let s := if bit v 0 = s.power.holdQuads then s else after (execPwrHoldQuads (bit v 0) s) s
    let s := if bit v 1 = s.power.holdPk then s else after (execPwrHoldPk (bit v 1) s) s
    after (execPwrHoldDeep (bit v 2) s) s
  else if o = 0x40 then
    let e := s.w1c (regKey 2 (pwrOff + 0x40)) s.power.gpEdge (v % 64)
    let p := s.power
    let low := bits v 29 24 &&& (63 - bits v 21 16)          -- R814: the pins now driven low; their own transitions set their latches
    { s with power := { p with gpOe := bits v 29 24, gpOut := bits v 21 16, gpIn := p.gpIn &&& (63 - low), gpEdge := e ||| (p.gpIn % 64 &&& low) } }
  else s

/-- RST_BLK (R762, R773). -/
def rstBlk (v : Nat) (s : State) : State :=
  let kind := bits v 9 8
  let i := v % 64
  let s := { s with rst := { s.rst with blkKind := kind, blkIndex := i } }
  if ¬ bit v 31 then s
  else if kind = 1 ∧ i < 16 then after (execBlockResetQuad none (Fin.ofNat 16 i) s) s
  else if kind = 2 ∧ i < 24 then after (execBlockResetPk none (Fin.ofNat 24 i) s) s
  else if kind = 3 ∧ i < 32 then after (execBlockResetPort none (Fin.ofNat 32 i) s) s
  else s

/-- The RST_ block (R740, R744, R762). A watchdog timeout outside its range is ignored (log entry 60). -/
def rstWrite (o v : Nat) (s : State) : State :=
  if o = 0x14 then
    if v / 2 ^ 16 ≠ 0x5253 then s
    else if bit v 0 then systemReset 0x04 0 s
    else if bits v 3 1 ≠ 0 then coreReset (bits v 3 1) 0x0A s else s
  else if o = 0x18 then
    let s := onlyIf (bit v 31) (fun s => after (execWatchdogEnable s) s) s
    after (execWatchdogKick (BitVec.ofNat 16 v) s) s
  else if o = 0x1C then
    let n := v % 2 ^ 24
    if 100 ≤ n ∧ n ≤ 60000 then { s with rst := { s.rst with wdto := n } } else s
  else if o = 0x20 then rstBlk v s
  else s

/-- GO of NVM_CTRL and NVM_OR_CTRL (R777, R784). -/
def nvmGo (ini v : Nat) (owner : Bool) (s : State) : State :=
  let op := bits v 27 24
  let ib := byte ini
  if owner then
    match op with
    | 1 => after (execNvmOrRead ib s) s
    | 2 => after (execNvmOrWrite ib 0 s) s
    | 3 => after (execNvmOrUnlock ib s) s
    | 4 => after (execNvmOrLock ib s) s
    | _ => { s with nvm := { s.nvm with owner := { s.nvm.owner with done := true, err := 2 } } }
  else
    match op with
    | 1 => after (execNvmRead ib ⟨false, false⟩ s) s
    | 2 => after (execNvmWrite ib 0 s) s
    | 3 => after (execNvmCounterIncrement ib 0 s) s
    | 4 => after (execNvmCounterRaise ib 0 s) s
    | 5 => after (execNvmCounterRead ib s) s
    | _ => { s with nvm := { s.nvm with base := { s.nvm.base with done := true, err := 2 } } }

/-- The words of one NVM_ interface; writes while BUSY are ignored. `own` is the owner interface, whose bit 0 of NVM_OR_CTRL is REGION;
the other bits are reserved and read 0 (R20). `k` is the key of the interface's NVM_STAT. -/
def nvmPortWrite (own : Bool) (s : State) (k : Nat) (p : NvmPort) (o v : Nat) : NvmPort :=
  if o = 0xC then (if s.clears k v 30 then { p with done := false } else p)
  else if p.busy then p
  else if o = 0 then { p with ctrl := bits v 27 24 * 2 ^ 24 + (if own then v % 2 else 0) }
  else if o = 4 then { p with addr := v % 2 ^ 19 }
  else if o = 8 then { p with len := v % 2 ^ 9 }
  else if 0x100 ≤ o ∧ o < 0x200 then { p with buf := Memory.writeN p.buf (o - 0x100) (beBytes v 4) }
  else p

/-- The NVM_ block. -/
def nvmRegWrite (ini o v : Nat) (s : State) : State :=
  let n := s.nvm
  if 0x8000 ≤ o then
    let q := o - 0x8000
    let pwd : NvmPort := if q = 0x10 then { n.owner with pwd := v * 2 ^ 32 + n.owner.pwd % 2 ^ 32 }
      else if q = 0x14 then { n.owner with pwd := n.owner.pwd / 2 ^ 32 * 2 ^ 32 + v } else nvmPortWrite true s (regKey 2 0x0F0B800C) n.owner q v
    let busy := n.owner.busy
    let s := { s with nvm := { n with owner := pwd } }
    if q ≠ 0 ∨ ¬ bit v 31 then s else if busy then s.noteSet (regKey 2 0x0F0B8000) (2 ^ 31 + ini) else nvmGo ini v true s
  else
    let p : NvmPort := if o = 0x18 ∧ ¬ n.base.busy then { n.base with cnt := v * 2 ^ 32 + n.base.cnt % 2 ^ 32 }
      else if o = 0x1C ∧ ¬ n.base.busy then { n.base with cnt := n.base.cnt / 2 ^ 32 * 2 ^ 32 + v } else nvmPortWrite false s (regKey 2 0x0F0B000C) n.base o v
    let busy := n.base.busy
    let s := { s with nvm := { n with base := p } }
    if o ≠ 0 ∨ ¬ bit v 31 then s else if busy then s.noteSet (regKey 2 0x0F0B0000) (2 ^ 31 + ini) else nvmGo ini v false s

/-- The FUS_ block (R786). -/
def fusWrite (o v : Nat) (s : State) : State :=
  if o = 0 then
    let s := { s with nvm := { s.nvm with fusCtrl := v % 2 ^ 10 } }
    onlyIf (bit v 31) (fun s => after (execFuseBurn false 0 s) s) s
  else if o = 4 then { s with nvm := { s.nvm with fusData := v } }
  else if o = 8 then (if s.clears (regKey 2 0x0F0C0008) v 30 then { s with nvm := { s.nvm with fusDone := false } } else s)
  else s

/-- The CUS_ block: DEACT (R573, R813). -/
def cusWrite (o v : Nat) (s : State) : State :=
  if o < 0x400 ∧ o % 0x100 = 4 ∧ bit v 0 then after (execCardDeactivate (Fin.ofNat 4 (o / 0x100)) s) s else s

/-- The blocks of the key die. -/
def kdWrite (ini blk o v : Nat) (s : State) : State :=
  match blk with
  | 0 => keyWrite o v s
  | 3 => digWrite o v s
  | 4 => mrWrite ini o v s
  | 5 => tmpWrite o v s
  | 7 => actWrite 2 o v s
  | 8 => pwrWrite o v s
  | 9 => rstWrite o v s
  | 0xB => nvmRegWrite ini o v s
  | 0xC => fusWrite o v s
  | 0xD => cusWrite o v s
  | _ => s

/-- The queue registers of the HPQ_ block (R167, R168): bases and sizes are ignored while EN is 1. The tail and the audit
queue's missing registers have commands of their own. -/
def hpqQueueWrite (q o v : Nat) (s : State) : State :=
  let h := s.hq q
  let qi := Fin.ofNat 5 q
  if o = 0x24 then
    let s := s.setHq q { h with irqEn := bit v 1 }
    if bit v 0 = h.en then s
    else if bit v 0 then after (execHpqQueueEnable qi s) s else after (execHpqQueueDisable qi s) s
  else if o = 0x28 then
    let k := hqKey q
    s.setHq q { h with fetchFault := h.fetchFault && ! s.clears k v 2, cqOvf := h.cqOvf && ! s.clears k v 1, cfgErr := h.cfgErr && ! s.clears k v 0 }
  else if o = 0x1C then s.setHq q { h with cqHead := v % 2 ^ 14 }
  else if o = 0x14 ∧ q < 4 then after (execHostSqTailWrite (Fin.ofNat 4 q) (BitVec.ofNat 14 v) [] s) s
  else if h.en then s
  else if o = 0 ∧ q < 4 then s.setHq q { h with sqBase := h.sqBase / 2 ^ 32 * 2 ^ 32 + v / 2 ^ 12 * 2 ^ 12 }
  else if o = 4 ∧ q < 4 then s.setHq q { h with sqBase := v % 16 * 2 ^ 32 + h.sqBase % 2 ^ 32 }
  else if o = 8 then s.setHq q { h with cqBase := h.cqBase / 2 ^ 32 * 2 ^ 32 + v / 2 ^ 12 * 2 ^ 12 }
  else if o = 0xC then s.setHq q { h with cqBase := v % 16 * 2 ^ 32 + h.cqBase % 2 ^ 32 }
  else if o = 0x10 then s.setHq q { h with cqLog := bits v 19 16, sqLog := if q < 4 then bits v 3 0 else 0 }
  else s

/-- HPQ_MBX_CTRL (R78): GO submits the message of REQ_LEN bytes in the request buffer and stays 1 until the server takes it, which a
dictionary command does; GO with REQ_LEN outside 22-8,192 sets LEN_ERR and is not taken. GO written again is noted for R18. -/
def mbxCtrl (v : Nat) (s : State) : State :=
  let go := bit (s.reg 3 mbxCtrlOff) 31
  let bad := decide (v % 2 ^ 14 < 22 ∨ 8192 < v % 2 ^ 14)
  let s := s.setReg 3 mbxCtrlOff (b2n (go || (bit v 31 && ! bad)) * 2 ^ 31 + b2n (bit v 30) * 2 ^ 30 + v % 2 ^ 14)
  if ¬ bit v 31 then s
  else if bad then (s.setReg 3 mbxStatOff (s.reg 3 mbxStatOff ||| 2 ^ 30)).noteSet (regKey 3 mbxStatOff) (2 ^ 30)
  else if go then s.noteSet (regKey 3 mbxCtrlOff) (2 ^ 31) else s

/-- The HPQ_ block. -/
def hpqWrite (o v : Nat) (s : State) : State :=
  if o < 0x500 then hpqQueueWrite (o / 0x100) (o % 0x100) v s
  else if 0x8000 ≤ o ∧ o < 0xA000 then
    if bit (s.reg 3 mbxCtrlOff) 31 then s                    -- R78: ignored while GO is 1
    else { s with dict := { s.dict with mbxReq := putWord s.dict.mbxReq ((o - 0x8000) / 4) v } }
  else if o = 0xF000 then mbxCtrl v s
  else if o = 0xF004 then
    s.setReg 3 mbxStatOff (s.w1c (regKey 3 mbxStatOff) (s.reg 3 mbxStatOff) (v / 2 ^ 30 * 2 ^ 30))
  else s

/-- The blocks of the port die. -/
def xdWrite (blk o v : Nat) (s : State) : State :=
  match blk with
  | 3 => hpqWrite o v s
  | 4 => if o < 0x800 ∧ o % 0x100 = 0 ∧ s.clears (regKey 3 (0x0F040000 + 0x100 * (o / 0x100))) v 15 then s.setMlink (o / 0x100) { s.mlink (o / 0x100) with tagfail := 0 } else s
  | 6 => actWrite 3 o v s
  | _ => s

/-- Write a register word as initiator `ini` (R34): offsets from 0x0F00_0000 on. -/
def regWrite (ini region off v : Nat) (s : State) : State :=
  let blk := off / 0x10000 - 0x0F00
  let o := off % 0x10000 / 4 * 4
  if region ≤ 1 then cdWrite region blk o v s
  else if region = 2 then kdWrite ini blk o v s
  else if region = 3 then xdWrite blk o v s
  else s

/-- Read `n` bytes at a fabric address, the access granted: registers by words, memory by bytes. -/
def busRead (addr n : Nat) (s : State) : Bytes × State :=
  let region := addr / 2 ^ 32
  let off := addr % 2 ^ 32
  if region ≤ 3 ∧ 0x0F000000 ≤ off ∧ off < 0x0F100000 then
    let ws := (List.range (ceilDiv (off % 4 + n) 4)).flatMap (fun i => beBytes (regRead s region (off / 4 * 4 + 4 * i)) 4)
    (slice ws (off % 4) n, regLatch s region (off / 4 * 4))
  else fabRead region off n s

/-- Write the words of a register range; bytes of a word that are not written are 0. -/
def regWords (ini region off : Nat) : List Bytes → State → State
  | [], s => s
  | w :: t, s => regWords ini region (off + 4) t (regWrite ini region off (beNat (fit w 4)) s)

/-- Write bytes at a fabric address, the access granted. -/
def busWrite (ini addr : Nat) (bs : Bytes) (s : State) : State :=
  let region := addr / 2 ^ 32
  let off := addr % 2 ^ 32
  if region ≤ 3 ∧ 0x0F000000 ≤ off ∧ off < 0x0F100000 then
    regWords ini region (off / 4 * 4) (chunks 4 (zeros (off % 4) ++ bs)) s
  else fabWrite region off bs s

/-- A W1S request that was written again in the cycle in which its action completed: the action runs again (R18). -/
def rerunGo (s : State) (e : Nat × Nat × Nat) : State :=
  if e.1 ≠ s.dt then s
  else if e.2.1 = regKey 2 0x0F000000 then keyGo s
  else if e.2.1 = regKey 2 (mrOff + 0x400) then
    let s := if bit e.2.2 31 then after (execMrVendorExtend (BitVec.ofNat 4 s.mr.vidx) (byte s.mr.vsrc) s) s else s
    if bit e.2.2 30 then after (execMrOwnerExtend (BitVec.ofNat 4 s.mr.oidx) s) s else s
  else if e.2.1 = regKey 0 0x0F052020 then bgGo 0 s
  else if e.2.1 = regKey 1 0x0F052020 then bgGo 1 s
  else if e.2.1 = regKey 2 0x0F0B0000 then (if s.nvm.base.busy then s else nvmGo (e.2.2 % 256) s.nvm.base.ctrl false s)
  else if e.2.1 = regKey 2 0x0F0B8000 then (if s.nvm.owner.busy then s else nvmGo (e.2.2 % 256) s.nvm.owner.ctrl true s)
  else s

/-- No command waits: the cycle ends (R18), and one nanosecond of DT passes (R12; DESIGN CHOICE, log entry 7). -/
def tick (s : State) : State :=
  let t := s.fresh.reverse.foldl rerunGo s
  { t with dt := t.dt + 1 }

end Sys2Proof.Machine
end

