-- ==== Sys2Proof/Machine/Fabric.lean ====
section
/-!
DEFINITION. The rows of Interconnect Access Table (R678-R703), a plain register write (R17-R20, R28), the fabric access of the debug
port (R764), and what a domain that becomes READY completes (R715).
-/
namespace Sys2Proof.Machine

/-- The identifiers of R678 are the only ones that are issued. -/
def issued (ini : Nat) : Bool :=
  decide (ini ≤ 0x59) || decide (0x60 ≤ ini ∧ ini ≤ 0x71) || [0x78, 0x79, 0x7A, 0x7F].contains ini

/-- Perform an access that was granted, its domain READY. -/
def performAcc (a : StalledAcc) (s : State) : State :=
  if a.write then (busWrite a.ini a.addr a.data s).emit (.bus a.ini a.addr 0 [])
  else
    let r := busRead a.addr a.len s
    r.2.emit (.bus a.ini a.addr 0 r.1)

/-- Wake the domain of a granted access (R715): in DEEP the device wakes first (R713, R723). -/
def wakeFor (d ini : Nat) (s : State) : State :=
  let s := deepWake 0x01 ini 0 s
  if s.domReady d then s else wakeDomain d 0x01 ini s

/-- A granted access completes, stalls until its domain is READY, or, in a domain in RETRY or FENCED, completes with
DOMAIN_UNAVAILABLE (R714, R715). -/
def grantAcc (a : StalledAcc) (s : State) : State :=
  let d := accDomain s a.addr
  if s.domReady d then performAcc a s
  else if (s.dom d).st = .retry ∨ (s.dom d).st = .fenced then s.emit (.bus a.ini a.addr tDOMAIN_UNAVAILABLE [])
  else
    let s := wakeFor d a.ini s
    if s.domReady d then performAcc a s
    else { s with act := { s.act with stall := s.act.stall ++ [a] } }

/-- The precision bits and INFO of a refusal by its initiator (R692, R693): a lane's load is precise; a supervisor's access is
precise with its PC unless it is a store through a fabric window to anything but SRAM. -/
def refusalMarks (s : State) (ini addr : Nat) (write : Bool) : Bool × Bool × Nat :=
  let c := s.unit.sup.core
  let pc := c.ibk.toNat * 65536 + c.pc.toNat
  if ini < 0x40 then (! write, false, 0)
  else if 0x60 ≤ ini ∧ ini ≤ 0x71 then
    let direct := ! write || decide (addr / 2 ^ 32 = 2 ∧ addr % 2 ^ 32 < 0x80000)
    (direct, direct, if direct then pc else 0)
  else (false, false, 0)

/-- One fabric transaction (R681, R692, R703): `kind` is 0 R, 1 W, 2 X. A refused read brings no byte; in a region that does
not exist, and to the locked TAP, it returns 0. -/
def fabricAccess (ini addr kind len : Nat) (data : Bytes) (s : State) : State :=
  if ¬ issued ini then s
  else
    let m := refusalMarks s ini addr (decide (kind = 1))
    let r := judged ini addr kind m.1 m.2.1 m.2.2 s
    if r.1 = 0 then grantAcc ⟨ini, addr, decide (kind = 1), len, data⟩ r.2
    else r.2.emit (.bus ini addr r.1 (if kind = 1 ∨ ¬ (r.1 = cUNMAPPED ∨ ini = 0x7F) then [] else zeros len))

/-- FABRIC_ACCESS (R30-R36, R681, R692, R703, R715). -/
def execFabricAccess (a : FabAccess) (s : State) : Res :=
  ok (fabricAccess a.ini.toNat a.addr.toNat (if a.fetch then 2 else if a.write then 1 else 0) a.len a.data s)

/-- DMA_PIECE (R691, R692): a piece within one granule of a transfer whose earlier pieces completed `done` bytes; a refused
piece stops the transfer. -/
def execDmaPiece (ini : Byte) (addr : BitVec 40) (write : Bool) (done : Word) (len : Fin 65) (data : Bytes) (s : State) : Res :=
  let a := addr.toNat
  let n := if write then data.length else len.val
  if n = 0 ∨ a % 64 + n > 64 ∨ ¬ (issued ini.toNat ∧ ini.toNat < 0x60 ∨ ini = 0x78) then ok s
  else
    let r := judged ini.toNat a (b2n write) false false done.toNat s
    if r.1 = 0 then ok (grantAcc ⟨ini.toNat, a, write, n, data⟩ r.2)
    else ok (r.2.emit (.bus ini.toNat a r.1 []))

/-- WINDOW_ENABLE (R684, R685, R700): a locked window ignores the write. -/
def execWindowEnable (die : Fin 4) (n : Fin 64) (s : State) : Res :=
  let w := (s.actTab die.val).win n.val
  ok (if winLocked s w ∨ w.en then s else winEnable die.val n.val s)

/-- WINDOW_LOCK (R694). -/
def execWindowLock (die : Fin 4) (n : Fin 64) (s : State) : Res :=
  ok (winLock die.val n.val s)

/-- DEFEN_LOCK (R694). -/
def execDefenLock (die : Fin 4) (s : State) : Res :=
  ok (s.setActTab die.val { s.actTab die.val with deflock := true })

/-- Leave a written value in an entry (R95, R96, R218): an entry of effect E also waits for the next flip. -/
def storeEnt (idx sub : Nat) (v : Bytes) (s : State) : State :=
  let s := s.setEnt idx sub v
  match findEnt idx sub with
  | some e => if e.eff = .flip then { s with dict := { s.dict with pendE := s.dict.pendE ++ [(entKey idx sub, v)] } } else s
  | none => s

/-- The window that a host window entry describes with one value replaced (R686, R696). -/
def hostWin (s : State) (k sub v : Nat) : Window :=
  let g (i : Nat) := if i = sub then v else s.num (0x7810 + k) i
  { lo := g 1 % 2 ^ 32 / 64, hi := g 2 % 2 ^ 32 / 64, region := g 1 / 2 ^ 32 % 256, first := g 4 / 256, last := g 4 % 256 }

/-- The window that a shared window entry describes with one value replaced. -/
def sharedWin (s : State) (k sub v : Nat) : Window :=
  let g (i : Nat) := if i = sub then v else s.num (0x7830 + k) i
  { lo := g 1 / 64, hi := g 2 / 64, region := 0, first := g 4 / 256, last := g 4 % 256 }

/-- The values that 7810-781F accept (R685, R694, R696). DESIGN CHOICE (log entry 96): what R685 judges of several fields together
is judged when :05 is written 1. -/
def hostWinRange (k sub : Nat) (s : State) (b : Bytes) : Bool :=
  let v := beNat b
  let region (a : Nat) := a / 2 ^ 32
  ! ((s.actTab 3).win (48 + k)).lock && decide (sub = 5 ∨ s.num (0x7810 + k) 5 = 0) &&
  (match sub with
   | 1 => decide (0x10 ≤ region v ∧ region v ≤ 0x1F ∧ v % 64 = 0)
   | 2 => decide (v % 64 = 63 ∧ region v = region (s.num (0x7810 + k) 1))
   | 4 => decide (v % 256 ≤ 0x7F ∧ v / 256 ≤ v % 256)
   | 5 => decide (v = 0) ||
     (decide (enableErr 3 (hostWin s k sub v) = 0) && decide (region (s.num (0x7810 + k) 2) = region (s.num (0x7810 + k) 1)))
   | _ => true)

/-- The values that 7830-783F accept (R685, R694, R696; log entry 96). -/
def sharedWinRange (k sub : Nat) (s : State) (b : Bytes) : Bool :=
  let v := beNat b
  let band := decide (0x02600000 ≤ v ∧ v < 0x02700000)
  ! ((s.actTab 0).win k).lock && ! ((s.actTab 1).win k).lock && decide (sub = 5 ∨ s.num (0x7830 + k) 5 = 0) &&
  (match sub with
   | 1 => band && decide (v % 64 = 0)
   | 2 => band && decide (v % 64 = 63)
   | 4 => decide (v % 256 ≤ 0x3F ∧ v / 256 ≤ v % 256)
   | 5 => decide (v = 0) || decide (enableErr 0 (sharedWin s k sub v) = 0)
   | _ => true)

/-- The values the access-window entries accept. -/
def winEntRange (idx sub : Nat) (s : State) (b : Bytes) : Bool :=
  if idx < 0x7820 then hostWinRange (idx - 0x7810) sub s b else sharedWinRange (idx - 0x7830) sub s b

/-- The effect of a write to an access-window entry (R686): a host window follows at once, a shared window at the next flip. -/
def fxWindow (idx sub : Nat) (s : State) (_role : Nat) (v : Bytes) : Ans :=
  let s := storeEnt idx sub v s
  ansOK (if idx < 0x7820 then applyHostWindow (idx - 0x7810) s else s)

/-- ACCESS_WINDOW_ENTRY_WRITE (R686, R694, R696): a write of 7810-781F or 7830-783F. -/
def execAccessWindowEntryWrite (r : Req) (s : State) : Res :=
  let idx := r.index.toNat
  let sub := r.sub.toNat
  if (0x7810 ≤ idx ∧ idx ≤ 0x781F) ∨ (0x7830 ≤ idx ∧ idx ≤ 0x783F) then
    ok (serveWrite r idx sub always always (winEntRange idx sub) (fxWindow idx sub) s)
  else ok s

/-- TAP_FABRIC (R764, R678): one access as initiator 0x7F while unlocked, else BYPASS; the data register holds what is read. -/
def execTapFabric (addr : BitVec 40) (write : Bool) (data : Word) (s : State) : Res :=
  if ¬ s.tap.unlocked then ok (tapSelect 0x20 false [] s)
  else
    let a := addr.toNat
    let t := tapSelect 0x20 true (beBytes data.toNat 4) s
    let u := fabricAccess 0x7F a (b2n write) 4 (beBytes data.toNat 4) t
    match u.out with
    | .bus _ _ _ d :: _ => ok (if write ∨ u.out.length = t.out.length then u else { u with tap := { u.tap with dr := fit d 4 } })
    | _ => ok u

/-- REGISTER_WRITE (R17-R20, R28): a word written to a register of a die whose domain is READY; each field acts by its access
code, reserved bits and offsets without a register ignore it. -/
def execRegisterWrite (die : Fin 4) (off : BitVec 20) (v : Word) (s : State) : Res :=
  let o := 0x0F000000 + off.toNat / 4 * 4
  if s.domReady (accDomain s (die.val * 2 ^ 32 + o)) then ok (regWrite 0x61 die.val o v.toNat s) else ok s

/-- A domain becomes READY, and the accesses that stalled on it complete in their order (R715). -/
def readyAll (d : Nat) (late : Bool) (s : State) : State :=
  let s := domainReadyNow d late s
  if ¬ s.domReady d then s
  else
    let mine (a : StalledAcc) : Bool := decide (accDomain s a.addr = d)
    let s' := { s with act := { s.act with stall := s.act.stall.filter (fun a => ! mine a) } }
    (s.act.stall.filter mine).foldl (fun s a => performAcc a s) s'

end Sys2Proof.Machine
end

