-- ==== Sys2Proof/Machine/Operands.lean ====
section
/-!
DEFINITION. The operands of Clove's instructions: registers of a core (R310, R311), addresses and addressing modes (R315, R335), the
banks of a lane and of the supervisor (R264-R272, R395), and the write buffer (R318, R319, R343). Core 0-63 is the core that
serves that lane; core 64 is the supervisor.
-/
namespace Sys2Proof.Machine

/-- The supervisor's core number. -/
abbrev supCore : Nat := 64

/-- A core's registers. -/
def State.core (s : State) (n : Nat) : Core := if n = supCore then s.unit.sup.core else Tab.look {} s.unit.cores n

/-- Set a core's registers. -/
def State.setCore (s : State) (n : Nat) (c : Core) : State :=
  if n = supCore then { s with unit := { s.unit with sup := { s.unit.sup with core := c } } }
  else { s with unit := { s.unit with cores := Tab.put {} s.unit.cores n c } }

/-- Change the supervisor's own registers. -/
def State.setSup (s : State) (v : SupState) : State := { s with unit := { s.unit with sup := v } }

/-- A data register. -/
def Core.dr (c : Core) (i : Nat) : Word := Tab.look 0 c.d i
/-- An address register. -/
def Core.ar (c : Core) (i : Nat) : BitVec 16 := Tab.look 0 c.a i
/-- An accumulator. -/
def Core.acc (c : Core) (i : Nat) : BitVec 72 := Tab.look 0 c.ac i
/-- A predicate: P0 reads 1 (R310). -/
def Core.p (c : Core) (i : Nat) : Bool := decide (i = 0) || c.pred.getLsbD i
/-- Set a data register. -/
def Core.setD (c : Core) (i : Nat) (v : Word) : Core := { c with d := Tab.put 0 c.d i v }
/-- Set an address register. -/
def Core.setA (c : Core) (i : Nat) (v : BitVec 16) : Core := { c with a := Tab.put 0 c.a i v }
/-- Set an accumulator. -/
def Core.setAcc (c : Core) (i : Nat) (v : BitVec 72) : Core := { c with ac := Tab.put 0 c.ac i v }
/-- Set a predicate: a write to P0 is ignored (R310). -/
def Core.setP (c : Core) (i : Nat) (b : Bool) : Core :=
  if i = 0 then c else { c with pred := (c.pred &&& ~~~(1#8 <<< i)) ||| (if b then 1#8 <<< i else 0) }
/-- Set a predicate and its complement (R334, R374). -/
def Core.setPs (c : Core) (pd pdn : Nat) (b : Bool) : Core := (c.setP pd b).setP pdn (! b)
/-- The flags. -/
def Core.setFl (c : Core) (cf vf : Bool) : Core := { c with c := cf, v := vf }

/-- The guard of an instruction (R313). -/
def Core.guard (c : Core) (pn : Bool) (pg : Nat) : Bool := c.p pg != pn

/-- The bank an address operand names (R315). -/
def Core.bank (c : Core) (a : Nat) (bsel : Bool) : Nat :=
  if 6 ≤ a then c.sbk.toNat else if bsel then c.dbk1.toNat else c.dbk0.toNat

/-- The address an operand pair names: bank and offset. -/
def Core.addr (c : Core) (p : Nat × Bool) : Nat × Nat := (c.bank p.1 p.2, (c.ar p.1).toNat)

/-- The offset accessed and the address register after, by addressing mode (R335). -/
def Core.ea (c : Core) (a mode off : Nat) : BitVec 16 × BitVec 16 :=
  let r := c.ar a
  let o : BitVec 16 := (BitVec.ofNat 9 off).signExtend 16
  match mode with
  | 0 => (r + o, r)
  | 1 => (r, r + o)
  | 2 => (r + o, r + o)
  | _ => (r + BitVec.ofNat 16 (c.dr (off % 16)).toNat, r)

/-- The lane's run; `runJob` is its job's number. -/
def laneRun (s : State) (l : Nat) : Run := (s.lane l).run.getD ⟨0, false, 0, 0⟩

/-- The limit of a lane bank's mapped offsets, where the bank may be accessed so (R264). -/
def laneBankMax (s : State) (l bank : Nat) (write : Bool) : Nat :=
  let b := (s.lane l).runB
  if bank = 0x00 then 0x8000
  else if bank = 0x01 then 0x2000
  else if 0x10 ≤ bank ∧ bank ≤ 0x1F then 0x10000
  else if bank = 0x20 then (if ! b && ! write then 0x8000 else 0)
  else if bank = 0x21 then (if b && ! write then 0x8000 else 0)
  else if bank = 0xFD then (if write then 0 else 0x500)
  else if bank = 0xFE then 0x210
  else 0

/-- The offsets of the LANE bank that a lane may write (R297). -/
def laneWritable (o : Nat) : Bool :=
  let w := o / 4 * 4
  [0x020, 0x028, 0x030, 0x038, 0x040, 0x100].contains w || (decide (0x0C0 ≤ w) && decide (w < 0x100))

/-- A lane may make an access (R264, R265, R297). -/
def laneMapped (s : State) (l bank off n : Nat) (write : Bool) : Bool :=
  decide (off + n ≤ laneBankMax s l bank write) && (! (write && decide (bank = 0xFE)) || laneWritable off)

/-- The access time of a bank in LCLK (R264). -/
def bankTime (bank off : Nat) : Nat :=
  if bank = 0x01 then (if off < 0x800 then 6 else 20) else if 0x10 ≤ bank ∧ bank ≤ 0x1F then 20 else 1

/-- FRAME and SHARED: the banks behind the write buffer (R318). -/
def buffered (bank : Nat) : Bool := decide (bank = 0x01) || (decide (0x10 ≤ bank) && decide (bank ≤ 0x1F))

/-- A fabric window bank of the supervisor (R395). -/
def isWindow (bank : Nat) : Bool := decide (0x40 ≤ bank ∧ bank ≤ 0x4F)

/-- The fabric address of a lane's SHARED offset (R264). -/
def sharedAddr (l bank off : Nat) : Nat := laneDie l * 2 ^ 32 + 0x02600000 + (bank - 0x10) * 0x10000 + off

/-- A descriptor's bytes (R148). -/
def descBytes (d : Desc) : Bytes :=
  let refs := (List.range 4).flatMap (fun k =>
    let r := Tab.look {} d.keyref k
    beBytes r.node 3 ++ beBytes r.off 2 ++ [byte r.len])
  let flds := (List.range 16).flatMap (fun i =>
    let f : Nat × Nat := Tab.look (0, 0) d.field i
    beBytes f.1 2 ++ beBytes f.2 2)
  [1, byte d.cls, byte d.src, byte (b2n d.dlset + 2 * b2n d.walked)] ++ beBytes d.epoch 4 ++ beBytes d.msgid 8 ++
    beBytes d.tstamp 8 ++ beBytes d.deadline 8 ++ beBytes d.msglen 2 ++ beBytes d.fieldmask 2 ++ [byte d.keymask, 0, 0, 0] ++
    refs ++ flds

/-- KEYOK (R272): references that resolve to a valid cache entry. -/
def keyOk (s : State) (jn : Nat) : Nat :=
  let j := s.job jn
  (List.range 4).foldl (fun n k =>
    match Tab.look none j.refs k with
    | some i => if (Tab.look {} (s.quad (laneQuad j.lane)).cache i).st = .valid then n + 2 ^ k else n
    | none => n) 0

/-- The JOB bank (R272). -/
def jobBank (s : State) (l : Nat) : Bytes :=
  let r := laneRun s l
  let j := s.job r.job
  let res := if r.fin then j.pkres else []
  fit (descBytes j.desc) 128 ++ [byte (b2n r.fin), byte (if r.fin then j.pkst else 0)] ++ beBytes res.length 2 ++
    beBytes (s.lane l).budget 4 ++ beBytes r.start 8 ++ [byte j.slot, byte (keyOk s r.job)] ++ zeros 0x6E ++ fit res 1024

/-- A byte of the LANE bank (R297). -/
def laneRegByte (s : State) (l o : Nat) : Byte :=
  let w := o / 4 * 4
  let v := if 0x200 ≤ w then quadFeat s (laneQuad l) ((w - 0x200) / 4) else laneReg s l w
  byteAt (beBytes v 4) (o % 4)

/-- Bytes a lane reads, the access allowed. -/
def laneRead (s : State) (l bank off n : Nat) : Bytes :=
  let v := s.lane l
  let h := if v.runB then 0x8000 else 0
  if bank = 0x00 then Memory.readN v.mem (0x10000 + h + off) n
  else if bank = 0x01 then
    let j := s.job (laneRun s l).job
    (List.range n).map (fun i => j.frameByte (off + i))
  else if bank ≤ 0x1F then (List.range n).map (fun i => fabByte s (laneDie l) (sharedAddr l bank (off + i) % 2 ^ 32))
  else if bank ≤ 0x21 then Memory.readN v.mem (h + off) n
  else if bank = 0xFD then slice (jobBank s l) off n
  else (List.range n).map (fun i => laneRegByte s l (off + i))

/-- Write a frame window (R269). -/
def frameStore (jn off : Nat) (bs : Bytes) (s : State) : State :=
  let j := (bs.zip (List.range bs.length)).foldl (fun (j : Job) (e : Byte × Nat) => j.frameWrite (off + e.2) e.1) (s.job jn)
  s.setJob jn j

/-- A store to the LANE bank (R297): a word that the lane may write; bytes of a partial store that are not written are 0 in a
field written by 1, and keep their value elsewhere. -/
def laneBankStore (l off : Nat) (bs : Bytes) (s : State) : State :=
  let w := off / 4 * 4
  let keep := (decide (w < 0x40) || decide (0xC0 ≤ w)) && decide (w ≠ 0x100)
  let old := if keep then beBytes (laneReg s l w) 4 else zeros 4
  let v := beNat (overlay old (off % 4) bs)
  if w < 0x40 then timerConfig l ((w - 0x20) / 8) v s
  else if w = 0x40 then tevtClear l v s
  else if w = 0x100 then
    let s := if bit v 1 then mbxSet l 1 s else s
    if bit v 0 then mbxClear l 0 s else s
  else
    let x := s.lane l
    if x.outFull then s else s.setLane l { x with mbxo := Tab.put 0 x.mbxo ((w - 0xC0) / 4) (BitVec.ofNat 32 v) }

/-- Bytes a lane writes, the access allowed and granted. -/
def laneWrite (l bank off : Nat) (bs : Bytes) (s : State) : State :=
  let v := s.lane l
  let h := if v.runB then 0x8000 else 0
  if bank = 0x00 then s.setLane l { v with mem := Memory.writeN v.mem (0x10000 + h + off) bs }
  else if bank = 0x01 then frameStore (laneRun s l).job off bs s
  else if bank ≤ 0x1F then fabWrite (laneDie l) (sharedAddr l bank off % 2 ^ 32) bs s
  else laneBankStore l off bs s

/-- The cycles an instruction issued at `t` waits for the write buffer to empty (R319). -/
def wbWait (c : Core) (t : Nat) : Nat :=
  (c.wb.map (fun e => e.done) ++ c.wbT).foldl (fun m d => Nat.max m (d + 1 - t)) 0

/-- The last completion of the buffer's entries. -/
def wbLast (c : Core) : Nat := (c.wb.map (fun e => e.done) ++ c.wbT).foldl Nat.max 0

/-- Complete the oldest buffered entry (R318, R343): a refused one is discarded with every entry behind it, and leaves an
imprecise ACCESS. True where it was refused. -/
def completeOldest (l : Nat) (s : State) : Bool × State :=
  let c := s.core l
  match c.wb with
  | [] => (false, s)
  | e :: t =>
    let a := sharedAddr l e.bank e.off
    let v := if e.bank = 0x01 then 0 else judge s l a 1
    if v = 0 then (false, (laneWrite l e.bank e.off e.bytes s).setCore l { c with wb := t, wbT := c.wbT ++ [e.done] })
    else
      let s := recordViolation l a 1 v false false 0 s
      (true, s.setCore l { c with wb := [], wbT := c.wbT ++ [e.done], imp := some (t.length, e.bank * 65536 + e.off) })

/-- Complete the entries whose access ends before cycle `t`; the cycle of a refusal, if one came. -/
def drainTo (l t : Nat) : Nat → State → Option Nat × State
  | 0, s => (none, s)
  | n + 1, s =>
    match (s.core l).wb with
    | [] => (none, s)
    | e :: _ =>
      if e.done < t then
        let r := completeOldest l s
        if r.1 then (some e.done, r.2) else drainTo l t n r.2
      else (none, s)

/-- Complete every entry; the cycle of a refusal, if one came. -/
def drainAll (l : Nat) (s : State) : Option Nat × State := drainTo l (wbLast (s.core l) + 1) 5 s

/-- Complete every entry after the run's stop: a refusal fills the record only (R352, R702). -/
def flushWb (l : Nat) (s : State) : State :=
  let r := drainAll l s
  r.2.setCore l { r.2.core l with wb := [], wbT := [], imp := none }

/-- The lane's cycles before issue and the instruction's own entry: a store at cycle `t` finds the buffer full until its oldest
entry completes; its count (R318). -/
def storeCount (c : Core) (t : Nat) : Nat :=
  let live := (c.wbT ++ c.wb.map (fun e => e.done)).filter (fun d => decide (t ≤ d))
  if live.length < 4 then 1 else live.foldl Nat.min (wbLast c) + 1 - t

/-- Put a store into the buffer at its issue cycle plus its wait (R318). -/
def pushWb (l t bank off : Nat) (bs : Bytes) (s : State) : State :=
  let n := storeCount (s.core l) t
  let s := (drainTo l (t + n) 5 s).2
  let c := s.core l
  let start := Nat.max (t + n) (wbLast c + 1)
  s.setCore l { c with wb := c.wb ++ [⟨bank, off, bs, start + bankTime bank off - 1⟩] }

end Sys2Proof.Machine
end

