-- ==== Sys2Proof/Machine/CloveMem.lean ====
section
/-!
DEFINITION. What an instruction comes to (R308, R337, R340-R344), and loads, stores and stack accesses by a lane or the supervisor
(R315-R320, R326, R335, R395, R692).
-/
namespace Sys2Proof.Machine

/-- A trap (R340, R380): CODE, INFO, EADDR, EPCV, the status of the job when unhandled, and the LCLK from the instruction's issue
to the one in which the trap is taken. -/
structure Trp where
  code : Nat
  info : Nat := 0
  eaddr : Nat := 0
  epcv : Bool := true
  status : Nat := tPOLICY
  wait : Nat := 0
  deriving DecidableEq, Repr

/-- Trap causes (R340, R380). -/
abbrev eILLEGAL : Nat := 0x01
abbrev eADDR : Nat := 0x02
abbrev eALIGN : Nat := 0x03
abbrev eDSOVF : Nat := 0x04
abbrev eDSUNF : Nat := 0x05
abbrev eRSOVF : Nat := 0x06
abbrev eRSUNF : Nat := 0x07
abbrev eLOOPOVF : Nat := 0x08
abbrev eACCESS : Nat := 0x09
abbrev eSOFT : Nat := 0x0A
abbrev eKEYSTATE : Nat := 0x20
abbrev eKEYUSE : Nat := 0x21
abbrev eCRYPTARG : Nat := 0x22
abbrev ePKARG : Nat := 0x23
abbrev ePOSTARG : Nat := 0x24

/-- How a run goes on after an instruction: at the next word, at a target (bank and offset, taken), after a loop body that is
skipped, by a return, by the end of the run, or by a trap. -/
inductive Nxt where
  | seq
  | go (tgt : Nat)
  | skip (tgt : Nat)
  | ret (e : RetEnt)
  | post (status off len : Nat)
  | pksub (off len : Nat)
  | trap (t : Trp)
  deriving DecidableEq, Repr

/-- What an instruction comes to: the state, how the run goes on, and the bytes a unit or MSG instruction writes to its
destination itself (R209, R357): bank, offset, bytes. -/
structure OpRes where
  st : State
  nx : Nxt
  wr : Option (Nat × Nat × Bytes) := none

/-- The next word. -/
def opSeq (s : State) : OpRes := { st := s, nx := .seq }
/-- A trap; the state holds what had happened before it. -/
def opTrap (s : State) (t : Trp) : OpRes := { st := s, nx := .trap t }

/-- Bytes read, or the trap in their place. -/
structure MemRes where
  st : State
  bs : Bytes := []
  trap : Option Trp := none

/-- A core's address as 24 bits. -/
def lane24 (bank off : Nat) : Nat := bank % 256 * 65536 + off % 65536

/-- The fabric address of a supervisor bank's offset (R395). -/
def supAddr (s : State) (bank off : Nat) : Nat :=
  if bank ≤ 7 then 2 * 2 ^ 32 + bank * 65536 + off
  else if bank = 0x10 then 2 * 2 ^ 32 + 0x100000 + off
  else (Tab.look 0 s.unit.sup.fwb (bank - 0x40)).toNat * 65536 + off

/-- The supervisor's banks (R395): ROM is not written. -/
def supMapped (bank off n : Nat) (write : Bool) : Bool :=
  (decide (bank ≤ 7) || (decide (bank = 0x10) && ! write) || isWindow bank) && decide (off + n ≤ 0x10000)

/-- A core may make an access. -/
def mapped (s : State) (n bank off len : Nat) (write : Bool) : Bool :=
  if n = supCore then supMapped bank off len write else laneMapped s n bank off len write

/-- Make a domain READY for an access of the supervisor that stalls on it (R715): it wakes, and the access completes when the
domain reports ready, at its bound. False where the domain is in RETRY or FENCED (R714). -/
def supReach (addr : Nat) (s : State) : Bool × State :=
  let d := accDomain s addr
  if s.domReady d then (true, s)
  else if (s.dom d).st = .retry ∨ (s.dom d).st = .fenced then (false, s)
  else
    let s := wakeFor d s.unit.sup.level s
    if s.domReady d then (true, s)
    else
      let s := s.at ((s.dom d).since + upBound d)
      let s := readyAll d false (if (s.dom d).st = .up then s else s.setDom d { s.dom d with st := .up })
      (s.domReady d, s)

/-- Bytes the supervisor reads, the access granted; free bytes come from a domain that is unavailable (R714). -/
def supRead (addr n : Nat) (s : State) : Bytes × State :=
  let r := supReach addr s
  if r.1 then busRead addr n r.2 else r.2.draw n

/-- Bytes the supervisor writes, the access granted. -/
def supWrite (addr : Nat) (bs : Bytes) (s : State) : State :=
  let r := supReach addr s
  if r.1 then busWrite r.2.unit.sup.level addr bs r.2 else r.2

/-- The supervisor's 24-bit PC. -/
def supPc (s : State) : Nat := let c := s.unit.sup.core; c.ibk.toNat * 65536 + c.pc.toNat

/-- The judgement of a load by core `n`, its refusal recorded as precise (R692, R693). -/
def judgeLoad (n bank off : Nat) (s : State) : Nat × State :=
  if n = supCore then judged s.unit.sup.level (supAddr s bank off) 0 true true (supPc s) s
  else if 0x10 ≤ bank ∧ bank ≤ 0x1F then judged n (sharedAddr n bank off) 0 true false 0 s
  else (0, s)

/-- Wait for the write buffer to empty (R319): an entry refused meanwhile raises its imprecise ACCESS in the next LCLK in place
of the waiting instruction (R343). -/
def waitEmpty (n t : Nat) (s : State) : MemRes :=
  if n = supCore then { st := s }
  else
    let r := drainAll n s
    match r.1 with
    | none => { st := r.2 }
    | some d =>
      let i := (r.2.core n).imp.getD (0, 0)
      { st := r.2.setCore n { r.2.core n with imp := none }
        trap := some { code := eACCESS, info := i.1, eaddr := i.2, epcv := false, wait := d + 1 - t } }

/-- A load of `len` bytes at an aligned address (R316, R335). -/
def memLoad (n t bank off len : Nat) (s : State) : MemRes :=
  if ¬ mapped s n bank off len false then { st := s, trap := some { code := eADDR, eaddr := lane24 bank off } }
  else
    let w : MemRes := if n ≠ supCore ∧ buffered bank then waitEmpty n t s else { st := s }
    match w.trap with
    | some _ => w
    | none =>
      let j := judgeLoad n bank off w.st
      if j.1 ≠ 0 then { st := j.2, trap := some { code := eACCESS, eaddr := lane24 bank off } }
      else if n = supCore then
        let r := supRead (supAddr j.2 bank off) len j.2
        { st := r.2, bs := r.1 }
      else { st := j.2, bs := laneRead j.2 n bank off len }

/-- A store of bytes at an aligned address (R318, R335, R692): through the write buffer on FRAME and SHARED; the supervisor's
store to SRAM is judged at once, and one refused at a fabric window leaves an imprecise ACCESS. -/
def memStore (n t bank off : Nat) (bs : Bytes) (s : State) : MemRes :=
  if ¬ mapped s n bank off bs.length true then { st := s, trap := some { code := eADDR, eaddr := lane24 bank off } }
  else if n ≠ supCore then { st := if buffered bank then pushWb n t bank off bs s else laneWrite n bank off bs s }
  else
    let a := supAddr s bank off
    let win := isWindow bank
    let j := judged s.unit.sup.level a 1 (! win) (! win) (if win then 0 else supPc s) s
    if j.1 = 0 then { st := supWrite a bs j.2 }
    else if win then { st := j.2.setCore n { j.2.core n with imp := some (0, lane24 bank off) } }
    else { st := j.2, trap := some { code := eACCESS, eaddr := lane24 bank off } }

/-- Bytes of an access size (R335). -/
def szBytes (sz : Nat) : Nat := if sz = 0 then 1 else if sz = 1 then 2 else 4

/-- Extend loaded bytes to a register (R316). -/
def extendLoad (sx : Bool) (bs : Bytes) : Word :=
  let v := beNat bs
  let w := 8 * bs.length
  if sx ∧ bs.length < 4 ∧ v.testBit (w - 1) then BitVec.ofNat 32 (v + 2 ^ 32 - 2 ^ w) else BitVec.ofNat 32 v

/-- LD (R335). -/
def opLd (n t d a sz : Nat) (bsel : Bool) (mode : Nat) (sx : Bool) (off : Nat) (s : State) : OpRes :=
  let c := s.core n
  let e := c.ea a mode off
  let b := c.bank a bsel
  if e.1.toNat % szBytes sz ≠ 0 then opTrap s { code := eALIGN, eaddr := lane24 b e.1.toNat }
  else
    let r := memLoad n t b e.1.toNat (szBytes sz) s
    match r.trap with
    | some x => opTrap r.st x
    | none => opSeq (r.st.setCore n (((r.st.core n).setA a e.2).setD d (extendLoad sx r.bs)))

/-- ST (R335). -/
def opSt (n t d a sz : Nat) (bsel : Bool) (mode off : Nat) (s : State) : OpRes :=
  let c := s.core n
  let e := c.ea a mode off
  let b := c.bank a bsel
  if e.1.toNat % szBytes sz ≠ 0 then opTrap s { code := eALIGN, eaddr := lane24 b e.1.toNat }
  else
    let r := memStore n t b e.1.toNat (beBytes (c.dr d).toNat (szBytes sz)) s
    match r.trap with
    | some x => opTrap r.st x
    | none => opSeq (r.st.setCore n ((r.st.core n).setA a e.2))

/-- The data-stack limit (R311, R392, R395). -/
def dsLimit (s : State) (n : Nat) : Nat :=
  if n = supCore then s.unit.sup.dslim.toNat else if (s.lane n).runB then (s.lane n).dslimB else (s.lane n).dslimA

/-- Push words in order, each at its own cycle (R326, R337). -/
def pushAll (n bank : Nat) : Nat → Nat → List Word → State → MemRes
  | _, _, [], s => { st := s }
  | t, off, w :: ws, s =>
    let k := if n ≠ supCore ∧ buffered bank then storeCount (s.core n) t else 1
    let r := memStore n t bank off (beBytes w.toNat 4) s
    match r.trap with
    | some _ => r
    | none => pushAll n bank (t + k) (off + 4) ws r.st

/-- Pop `k` words, the topmost first (R326). -/
def popAll (n t bank : Nat) : Nat → Nat → State → MemRes
  | 0, _, s => { st := s }
  | k + 1, off, s =>
    let r := memLoad n t bank (off - 4) 4 s
    match r.trap with
    | some _ => r
    | none =>
      let q := popAll n t bank k (off - 4) r.st
      match q.trap with
      | some _ => q
      | none => { st := q.st, bs := r.bs ++ q.bs }

/-- The first word of a push that the access table refuses to the supervisor's SRAM, judged before any is stored: the trapping instruction has no effect
(R342, R692). -/
def pushRefusal (n bank off k : Nat) (s : State) : Option MemRes :=
  if n ≠ supCore ∨ isWindow bank then none
  else (List.range k).findSome? (fun i =>
    let j := judged s.unit.sup.level (supAddr s bank (off + 4 * i)) 1 true true (supPc s) s
    if j.1 = 0 then none else some { st := j.2, trap := some { code := eACCESS, eaddr := lane24 bank (off + 4 * i) } })

/-- Push words onto the data stack (R326): the bound of the whole, then ALIGN, then the accesses. -/
def opPush (n t : Nat) (ws : List Word) (s : State) : OpRes :=
  let c := s.core n
  let a := (c.ar 7).toNat
  let b := c.sbk.toNat
  let e := lane24 b a
  if a + 4 * ws.length > dsLimit s n then opTrap s { code := eDSOVF, eaddr := e }
  else if a % 4 ≠ 0 then opTrap s { code := eALIGN, eaddr := e }
  else
    match (List.range ws.length).find? (fun i => ! mapped s n b (a + 4 * i) 4 true) with
    | some i => opTrap s { code := eADDR, eaddr := lane24 b (a + 4 * i) }
    | none =>
      let r := (pushRefusal n b a ws.length s).getD (pushAll n b t a ws s)
      match r.trap with
      | some x => opTrap r.st x
      | none => opSeq (r.st.setCore n ((r.st.core n).setA 7 (BitVec.ofNat 16 (a + 4 * ws.length))))

/-- Pop words off the data stack (R326); `put` places them, the topmost first, in the core whose A7 has moved. -/
def opPop (n t k : Nat) (put : List Word → Core → Core) (s : State) : OpRes :=
  let c := s.core n
  let a := (c.ar 7).toNat
  let b := c.sbk.toNat
  let e := lane24 b a
  if a < 4 * k then opTrap s { code := eDSUNF, eaddr := e }
  else if a % 4 ≠ 0 then opTrap s { code := eALIGN, eaddr := e }
  else
    let r := popAll n t b k a s
    match r.trap with
    | some x => opTrap r.st x
    | none =>
      let c := (r.st.core n).setA 7 (BitVec.ofNat 16 (a - 4 * k))
      opSeq (r.st.setCore n (put ((chunks 4 r.bs).map (fun x => BitVec.ofNat 32 (beNat x))) c))

/-- The LCLK of pushing `k` words at cycle `t` (R337). -/
def pushTime (c : Core) (bank : Nat) : Nat → Nat → Nat → Nat
  | 0, _, _ => 0
  | k + 1, t, off =>
    if buffered bank then
      let m := storeCount c t
      let start := Nat.max (t + m) (wbLast c + 1)
      m + pushTime { c with wbT := c.wbT ++ [start + bankTime bank off - 1] } bank k (t + m) (off + 4)
    else k + 1

/-- The LCLK of popping `k` words (R337). -/
def popTime (c : Core) (bank t k off : Nat) : Nat :=
  if buffered bank then (List.range k).foldl (fun m i => m + bankTime bank (off - 4 * (i + 1))) (wbWait c t) else k

end Sys2Proof.Machine
end

