-- ==== Sys2Proof/Machine/CloveInt.lean ====
section
/-!
DEFINITION. Clove's integer, predicate, address, accumulator, control, loop, stack, system and control-register instructions
(R309-R314, R321-R326, R331-R339), as a lane or the supervisor runs them.
-/
namespace Sys2Proof.Machine

/-- The PC of a core. -/
def pcOf (s : State) (n : Nat) : Nat := (s.core n).pc.toNat

/-- The last offset a word can be fetched from: IMEM in a lane, a whole bank in the supervisor (R317, R395). -/
def pcMax (n : Nat) : Nat := if n = supCore then 0xFFFC else 0x7FFC

/-- An ALU instruction on a core (R331, R332). -/
def aluCore (f rd rs1 rs2 ps : Nat) (c : Core) : Core :=
  let a := c.dr rs1
  let b := c.dr rs2
  let sum (x : Sum) : Core := (c.setD rd x.r).setFl x.c x.v
  match f with
  | 0 => sum (addFlags a b false)
  | 1 => sum (subFlags a b false)
  | 2 => sum (addFlags a b c.c)
  | 3 => sum (subFlags a b c.c)
  | _ => c.setD rd (aluPlain f a b (c.p ps))

/-- ADDI, ANDI, ORI, XORI (R333). -/
def immCore (f rd rs1 imm : Nat) (c : Core) : Core :=
  let a := c.dr rs1
  let b : Word := BitVec.ofNat 32 imm
  match f with
  | 0 =>
    let x := addFlags a ((BitVec.ofNat 14 imm).signExtend 32) false
    (c.setD rd x.r).setFl x.c x.v
  | 1 => c.setD rd (a &&& b)
  | 2 => c.setD rd (a ||| b)
  | _ => c.setD rd (a ^^^ b)

/-- A PLOG instruction (R334). -/
def plogCore (fn pd pa pb : Nat) (na nb : Bool) (c : Core) : Core :=
  let a := c.p pa != na
  let b := c.p pb != nb
  c.setP pd (match fn with | 0 => a && b | 1 => a || b | 2 => a != b | _ => a)

/-- An AOP instruction (R336). -/
def aopCore (fn a opnd : Nat) (c : Core) : Core :=
  match fn with
  | 0 => c.setA a (BitVec.ofNat 16 opnd)
  | 1 => c.setA a (c.ar a + BitVec.ofNat 16 opnd)
  | 2 => c.setA a (BitVec.ofNat 16 (c.dr opnd).toNat)
  | 3 => c.setD opnd (BitVec.ofNat 32 (c.ar a).toNat)
  | _ => c.setA a (c.ar a + BitVec.ofNat 16 (c.dr opnd).toNat)

/-- An accumulator instruction (R338). -/
def macCore (fn k ds dt imm : Nat) (c : Core) : Core :=
  let x := c.acc k
  let a := c.dr ds
  let b := c.dr dt
  match fn with
  | 0 => c.setAcc k (x + BitVec.ofInt 72 (a.toInt * b.toInt))
  | 1 => c.setAcc k (x + BitVec.ofNat 72 (a.toNat * b.toNat))
  | 2 => c.setAcc k (x - BitVec.ofInt 72 (a.toInt * b.toInt))
  | 3 => c.setAcc k 0
  | 4 => c.setAcc k (x.sshiftRight (imm % 128))
  | 5 => c.setD ds (if imm = 0 then x.extractLsb' 0 32 else if imm = 1 then x.extractLsb' 32 32 else (x.extractLsb' 64 8).signExtend 32)
  | 6 => c.setAcc k (a.signExtend 72)
  | _ => c.setAcc k (x + a.signExtend 72)

/-- A loop level of a core. -/
def Core.lvl (c : Core) (k : Nat) : LoopLvl := Tab.look {} c.loops k
/-- Set a loop level. -/
def Core.setLvl (c : Core) (k : Nat) (v : LoopLvl) : Core := { c with loops := Tab.put {} c.loops k v }

/-- Set up a loop level (R321): none of it where the count is 0. -/
def opLoop (n : Nat) (count : Word) (off : Nat) (s : State) : OpRes :=
  let c := s.core n
  let at_ := c.pc.toNat
  let fin := at_ + 4 * off
  if fin > pcMax n ∨ (List.range c.ldepth).any (fun k => decide ((c.lvl k).fin = c.pc)) then opTrap s { code := eILLEGAL }
  else if count = 0 then { st := s, nx := .skip (fin + 4) }
  else if c.ldepth ≥ 4 then opTrap s { code := eLOOPOVF }
  else
    let v : LoopLvl := ⟨BitVec.ofNat 16 (at_ + 4), BitVec.ofNat 16 fin, count, c.rstack.length⟩
    opSeq (s.setCore n { c.setLvl c.ldepth v with ldepth := c.ldepth + 1 })

/-- Levels that a taken BR or JR to `to` leaves are discarded (R323). -/
def leaveLoops (tgt : Nat) : Nat → Core → Core
  | 0, c => c
  | k + 1, c =>
    if c.ldepth = 0 then c
    else
      let v := c.lvl (c.ldepth - 1)
      if v.rsd = c.rstack.length ∧ ¬ (v.start.toNat ≤ tgt ∧ tgt ≤ v.fin.toNat) then leaveLoops tgt k { c with ldepth := c.ldepth - 1 }
      else c

/-- Levels that recorded a greater return-stack depth are discarded (R323). -/
def unwindLoops : Nat → Core → Core
  | 0, c => c
  | k + 1, c =>
    if c.ldepth ≠ 0 ∧ (c.lvl (c.ldepth - 1)).rsd > c.rstack.length then unwindLoops k { c with ldepth := c.ldepth - 1 } else c

/-- The target of a branch (R337). -/
def brTarget (s : State) (n off : Nat) : Nat :=
  (pcOf s n + 4 * ((BitVec.ofNat 16 off).signExtend 32).toNat) % 65536

/-- A core's bank and an offset as a target. -/
def inBank (s : State) (n off : Nat) : Nat := if n = supCore then (s.core n).ibk.toNat * 65536 + off else off

/-- Push the return address of a CALL or CALLR (R325); the supervisor's entry holds 24 bits (R395). -/
def pushRet (n : Nat) (s : State) : State :=
  let c := s.core n
  let e : RetEnt := { tgt := BitVec.ofNat 24 (inBank s n (c.pc.toNat + 4)) }
  s.setCore n { c with rstack := e :: c.rstack }

/-- BR and CALL (R323, R325, R337). -/
def opBranch (n off : Nat) (call : Bool) (s : State) : OpRes :=
  let c := s.core n
  let tgt := brTarget s n off
  if call ∧ c.rstack.length ≥ 32 then opTrap s { code := eRSOVF }
  else if tgt > pcMax n then opTrap s { code := eADDR, eaddr := lane24 c.ibk.toNat tgt }
  else if call then { st := pushRet n s, nx := .go (inBank s n tgt) }
  else { st := s.setCore n (leaveLoops tgt 4 c), nx := .go (inBank s n tgt) }

/-- JR, CALLR and RET (R323, R325, R337); the supervisor's targets hold a bank (R395). -/
def opJump (n fn ds : Nat) (s : State) : OpRes :=
  let c := s.core n
  if fn = 2 then
    match c.rstack with
    | [] => opTrap s { code := eRSUNF }
    | e :: t => { st := s.setCore n (unwindLoops 4 { c with rstack := t }), nx := .ret e }
  else
    let v := (c.dr ds).toNat
    let tgt := v % 65536
    let bank := if n = supCore then v / 65536 % 256 else c.ibk.toNat
    let full := if n = supCore then bank * 65536 + tgt else tgt
    if fn = 1 ∧ c.rstack.length ≥ 32 then opTrap s { code := eRSOVF }
    else if tgt % 4 ≠ 0 then opTrap s { code := eALIGN, eaddr := lane24 bank tgt }
    else if tgt > pcMax n ∨ (n = supCore ∧ ¬ (bank ≤ 7 ∨ bank = 0x10)) then opTrap s { code := eADDR, eaddr := lane24 bank tgt }
    else if fn = 1 then { st := pushRet n s, nx := .go full }
    else { st := s.setCore n (if bank = c.ibk.toNat then leaveLoops tgt 4 c else { c with ldepth := 0 }), nx := .go full }

/-- SIPEND (R395): the sources that are levels, and those latched until the interrupt is taken. -/
def sipend (s : State) : Nat :=
  let lanes (d : Nat) : Bool := (dieLanes d).any (fun l => (s.lane l).outFull)
  (s.tamper.sipend % 256 &&& 0xB9) ||| (b2n (lanes 0) * 2 + b2n (lanes 1) * 4 + b2n s.dig.done * 64)

/-- DT as a core sees it at cycle `t` (R311). -/
def dtSeen (s : State) (n t : Nat) : Nat := if n = supCore then s.dt else Nat.max s.dt ((laneRun s n).start + t)

/-- The cycle counter (R311, R354, R395). -/
def cycSeen (s : State) (n t : Nat) : Nat := if n = supCore then s.dt - s.unit.sup.since else t

/-- A control register that both kinds of core have (R311). -/
def crCommon (s : State) (n t i : Nat) : Word :=
  let c := s.core n
  let lv (k : Nat) := c.lvl k
  let w16 (x : BitVec 16) : Word := x.zeroExtend 32
  let w8 (x : Byte) : Word := x.zeroExtend 32
  match i with
  | 0 => w8 c.ibk
  | 1 => w8 c.dbk0
  | 2 => w8 c.dbk1
  | 3 => w8 c.sbk
  | 4 => BitVec.ofNat 32 (b2n c.v * 2 + b2n c.c)
  | 5 => w8 (c.pred ||| 1)
  | 6 => BitVec.ofNat 32 c.ldepth
  | 7 => BitVec.ofNat 32 c.rstack.length
  | 8 => BitVec.ofNat 32 (dsLimit s n)
  | 9 => BitVec.ofNat 32 (cycSeen s n t)
  | 10 => BitVec.ofNat 32 (dtSeen s n t)
  | 11 => c.dth
  | 24 => w16 c.epc
  | 25 => c.ecause
  | 26 => c.eaddr.zeroExtend 32
  | _ => if i < 16 then w16 ((lv (i - 12)).start) else if i < 20 then w16 ((lv (i - 16)).fin) else (lv (i - 20)).count

/-- A control register of the supervisor alone (R395); none where the number is not assigned. -/
def crSup (s : State) (i : Nat) : Option Word :=
  let v := s.unit.sup
  if i = 27 then some (BitVec.ofNat 32 (b2n v.core.inTrap * 4 + b2n v.pie * 2 + b2n v.ie))
  else if i = 28 then some (v.sien.zeroExtend 32)
  else if i = 29 then some (BitVec.ofNat 32 (sipend s))
  else if i = 30 then some (v.svec.zeroExtend 32)
  else if i = 31 then some (v.sepc.zeroExtend 32)
  else if i = 32 then some v.secause
  else if i = 33 then some (v.seaddr.zeroExtend 32)
  else if 40 ≤ i ∧ i ≤ 55 then some ((Tab.look 0 v.fwb (i - 40)).zeroExtend 32)
  else none

/-- MFC (R311, R312, R354). -/
def opMfc (n t d i : Nat) (s : State) : OpRes :=
  let c := s.core n
  if i ≤ 26 then
    let c' := if i = 10 then { c with dth := BitVec.ofNat 32 (dtSeen s n t / 2 ^ 32) } else c
    opSeq (s.setCore n (c'.setD d (crCommon s n t i)))
  else if n ≠ supCore then opTrap s { code := eILLEGAL }
  else
    match crSup s i with
    | some v => opSeq (s.setCore n (c.setD d v))
    | none => opTrap s { code := eILLEGAL }

/-- What MTC leaves in a control register that both kinds of core write (R311, R324, R347). -/
def mtcCore (i : Nat) (v : Word) (c : Core) : Core :=
  let b : Byte := v.truncate 8
  let o : BitVec 16 := v.truncate 16 &&& ~~~3#16
  match i with
  | 1 => { c with dbk0 := b }
  | 2 => { c with dbk1 := b }
  | 3 => { c with sbk := b }
  | 4 => c.setFl (v.getLsbD 0) (v.getLsbD 1)
  | 5 => { c with pred := b ||| 1 }
  | _ =>
    if i < 16 then c.setLvl (i - 12) { c.lvl (i - 12) with start := o }
    else if i < 20 then c.setLvl (i - 16) { c.lvl (i - 16) with fin := o }
    else c.setLvl (i - 20) { c.lvl (i - 20) with count := v }

/-- What MTC leaves in a register of the supervisor alone (R395); none where it is read-only or not assigned. -/
def mtcSup (i : Nat) (v : Word) (p : SupState) : Option SupState :=
  if i = 8 then some { p with dslim := v.truncate 16 }
  else if i = 27 then some { p with ie := v.getLsbD 0, pie := v.getLsbD 1, core := { p.core with inTrap := v.getLsbD 2 } }
  else if i = 28 then some { p with sien := v.truncate 16 }
  else if i = 30 then some { p with svec := v.truncate 24 }
  else if i = 31 then some { p with sepc := v.truncate 24 }
  else if 40 ≤ i ∧ i ≤ 55 then some { p with fwb := Tab.put 0 p.fwb (i - 40) (v.truncate 24) }
  else none

/-- MTC (R311, R312). -/
def opMtc (n d i : Nat) (s : State) : OpRes :=
  let c := s.core n
  if (1 ≤ i ∧ i ≤ 5) ∨ (12 ≤ i ∧ i ≤ 23) then opSeq (s.setCore n (mtcCore i (c.dr d) c))
  else if n ≠ supCore then opTrap s { code := eILLEGAL }
  else
    match mtcSup i (c.dr d) s.unit.sup with
    | some p => opSeq (s.setSup p)
    | none => opTrap s { code := eILLEGAL }

/-- WBSYNC (R319, R339). -/
def opWbsync (n t : Nat) (s : State) : OpRes :=
  let r := waitEmpty n t s
  match r.trap with
  | some x => opTrap r.st x
  | none => opSeq r.st

/-- Statuses that TRAP may name for an unhandled SOFT (R340). -/
def softStatus (info : Nat) : Nat := if [0x04, 0x05, 0x06, 0x07, 0x08, 0x0A].contains info then info else tPOLICY

/-- ERET (R396). -/
def opEret (s : State) : OpRes :=
  let p := s.unit.sup
  { st := s.setSup { p with ie := p.pie, core := { p.core with inTrap := false } }, nx := .go (2 ^ 24 + p.sepc.toNat) }

/-- WAIT (R396). -/
def opWait (s : State) : OpRes :=
  opSeq (s.setSup { s.unit.sup with wait := decide (sipend s &&& s.unit.sup.sien.toNat = 0) })

/-- The instructions that change registers of the core alone. -/
def regOp : COp → Core → Option Core
  | .nop, c => some c
  | .alu f rd a b p, c => some (aluCore f rd a b p c)
  | .immOp f rd a i, c => some (immCore f rd a i c)
  | .shi k rd a p w, c => some (c.setD rd (shiOp k (c.dr a) (c.dr rd) p w))
  | .movi rd i, c => some (c.setD rd ((BitVec.ofNat 18 i).signExtend 32))
  | .movh rd i, c => some (c.setD rd (BitVec.ofNat 32 (i % 65536 * 65536 + (c.dr rd).toNat % 65536)))
  | .cmp pd pdn k a b, c => some (c.setPs pd pdn (condHolds k (c.dr a) (c.dr b) c.c c.v))
  | .cmpi pd pdn k a i, c => some (c.setPs pd pdn (condHolds k (c.dr a) (cmpiOperand k i) c.c c.v))
  | .plog f pd a b na nb, c => some (plogCore f pd a b na nb c)
  | .aop f a o, c => some (aopCore f a o c)
  | .mac f k a b i, c => some (macCore f k a b i c)
  | _, _ => none

/-- The data registers of a mask, ascending (R326). -/
def maskRegs (mask : Nat) : List Nat := bitsSet 16 mask

/-- The core instructions other than those of the register file alone (R321-R326, R335-R339). -/
def opCtl (n t : Nat) (op : COp) (s : State) : OpRes :=
  let c := s.core n
  match op with
  | .trap info => opTrap s { code := eSOFT, info := info, status := softStatus info }
  | .wbsync => opWbsync n t s
  | .eret => opEret s
  | .wait => opWait s
  | .ld d a sz b m sx o => opLd n t d a sz b m sx o s
  | .st d a sz b m o => opSt n t d a sz b m o s
  | .br o => opBranch n o false s
  | .call o => opBranch n o true s
  | .jmp f d => opJump n f d s
  | .loop d o => opLoop n (c.dr d) o s
  | .loopi k o => opLoop n (BitVec.ofNat 32 k) o s
  | .stk 0 r => opPush n t [c.dr r] s
  | .stk 1 r => opPop n t 1 (fun ws c => c.setD r (ws.headD 0)) s
  | .stk 2 r => opPush n t [(c.ar r).zeroExtend 32] s
  | .stk _ r => opPop n t 1 (fun ws c => c.setA r ((ws.headD 0).truncate 16)) s
  | .stkm 4 m => opPush n t ((maskRegs m).map c.dr) s
  | .stkm _ m =>
    let rs := (maskRegs m).reverse
    opPop n t rs.length (fun ws c => (rs.zip ws).foldl (fun (c : Core) (p : Nat × Word) => c.setD p.1 p.2) c) s
  | .cr false d i => opMfc n t d i s
  | .cr true d i => opMtc n d i s
  | _ => opSeq s

/-- The LCLK of the core instructions (R331, R333, R335, R337, R339, R396). -/
def coreTime (n t : Nat) (op : COp) (s : State) : Nat :=
  let c := s.core n
  let wb := decide (n ≠ supCore)
  match op with
  | .alu f _ _ _ _ => aluTime f
  | .wbsync => 1 + wbWait c t
  | .eret => 2
  | .wait => 2
  | .ld _ a _ b m _ o =>
    let bank := c.bank a b
    if wb && buffered bank then wbWait c t + bankTime bank (c.ea a m o).1.toNat else 1
  | .st _ a _ b _ _ => if wb && buffered (c.bank a b) then storeCount c t else 1
  | .br _ => 2
  | .call _ => 2
  | .jmp _ _ => 2
  | .stk f _ =>
    if ! wb then 1 else if f = 0 ∨ f = 2 then pushTime c c.sbk.toNat 1 t (c.ar 7).toNat else popTime c c.sbk.toNat t 1 (c.ar 7).toNat
  | .stkm f m =>
    let k := (maskRegs m).length
    if k = 0 then 1 else if ! wb then k
    else if f = 4 then pushTime c c.sbk.toNat k t (c.ar 7).toNat else popTime c c.sbk.toNat t k (c.ar 7).toNat
  | _ => 1

/-- The count of a core instruction guarded off (R313, R314, R337). -/
def coreOffTime (n t : Nat) (op : COp) (s : State) : Nat :=
  match op with
  | .trap _ => 1
  | .br _ => 1
  | .call _ => 1
  | .jmp _ _ => 1
  | _ => coreTime n t op s

end Sys2Proof.Machine
end

