-- ==== Sys2Proof/Machine/CloveUnit.lean ====
section
/-!
DEFINITION. The instructions that use a lane's cluster units and keys (R356-R371, R374, R497, R498): AES, TDES, HASH, KCHK; the message
assists (R375, R376), PKSUB and POST (R377-R379).
-/
namespace Sys2Proof.Machine

/-- The fields of a length word (R362). -/
structure LenWord where
  top : Nat
  seg : Nat
  pad : Nat
  tlen : Nat
  fill : Nat
  len : Nat

/-- Read a length word. -/
def lenWord (w : Word) : LenWord :=
  let n := w.toNat
  ⟨bits n 31 26, bits n 25 24, bits n 23 21, bits n 20 16, bits n 23 16, bits n 15 0⟩

/-- The image of the lane's run (R394). -/
def runImage (s : State) (l : Nat) : Bytes :=
  let v := s.lane l
  let j := s.job (laneRun s l).job
  match (v.bset (b2n v.runB)).find? (fun p => decide (p.1 = j.image)) with
  | some p => p.2
  | none => []

/-- The type that the image declares for a reference (R359, R389). -/
def declared (s : State) (l k : Nat) : Nat := (byteAt (certOf (runImage s l)) (76 + k)).toNat

/-- Check 1 of R360: the reference's cache entry, or the status of KEYSTATE. -/
def keyEntry (s : State) (l k : Nat) : CacheEnt × Option Nat :=
  let j := s.job (laneRun s l).job
  let none' : CacheEnt × Option Nat := ({}, some tKEY_UNAVAILABLE)
  if ¬ bit j.desc.keymask k ∨ (j.pkOp ≠ 0 ∧ j.pkK = k) then none'
  else
    match Tab.look none j.refs k with
    | none => none'
    | some i =>
      let e : CacheEnt := Tab.look {} (s.quad (laneQuad l)).cache i
      match e.st with
      | .valid => (e, none)
      | .error st => (e, some st)
      | _ => none'

/-- The cluster units a key may be used by (R359, R360): 0 AES, 1 TDES, 2 Saffron. -/
def typeUsable (unit ty : Nat) : Bool :=
  match unit with
  | 0 => decide (1 ≤ ty ∧ ty ≤ 3)
  | 1 => decide (ty = 4 ∨ ty = 5)
  | _ => decide (1 ≤ ty ∧ ty ≤ 5)

/-- Checks 2-4 of R360; a declared three-key type is not usable by MAC algorithm 3 (R498). -/
def keyFits (s : State) (l k unit use_ : Nat) (mac3 : Bool) (e : CacheEnt) : Bool :=
  let t := declared s l k
  decide (e.ktype = t) && typeUsable unit t && ! (mac3 && decide (t ≠ 4)) && bit e.eng unit && bit e.use_ use_

/-- The key checks of the references of an instruction, check 1 of each first (R360, R381): the trap, if one fails. -/
def keyTrap (s : State) (l unit use_ : Nat) (mac3 : Bool) (ks : List Nat) : Option Trp :=
  match ks.find? (fun k => (keyEntry s l k).2.isSome) with
  | some k => some { code := eKEYSTATE, info := k, status := (keyEntry s l k).2.getD tKEY_UNAVAILABLE }
  | none =>
    match ks.find? (fun k => ! keyFits s l k unit use_ mac3 (keyEntry s l k).1) with
    | some k => some { code := eKEYUSE, info := k }
    | none => none

/-- A range of a unit instruction: bank, offset, length. -/
abbrev Rng := Nat × Nat × Nat

/-- A bank's mapped range, whatever the kind of access (R264, R367, R375). -/
def rangeMapped (s : State) (n : Nat) (r : Rng) : Bool :=
  if n = supCore then (decide (r.1 ≤ 7 ∨ r.1 = 0x10) || isWindow r.1) && decide (r.2.1 + r.2.2 ≤ 0x10000)
  else
    let m := if r.1 = 0x20 ∨ r.1 = 0x21 then 0x8000 else laneBankMax s n r.1 false
    decide (m ≠ 0) && decide (r.2.1 + r.2.2 ≤ m)

/-- A range in DMEM or the frame head (R367). -/
def nearRange (r : Rng) : Bool := decide (r.1 = 0) || (decide (r.1 = 1) && decide (r.2.1 + r.2.2 ≤ 0x800))

/-- The start of a range as a lane address. -/
def rngAt (r : Rng) : Nat := lane24 r.1 r.2.1

/-- Orders 1 to 3 of the operand checks of unit instructions (R367). -/
def unitRanges (s : State) (n : Nat) (rs : List Rng) : Option Trp :=
  match rs.find? (fun r => decide (r.2.1 % 4 ≠ 0)) with
  | some r => some { code := eALIGN, eaddr := rngAt r }
  | none =>
    match rs.find? (fun r => ! rangeMapped s n r) with
    | some r => some { code := eADDR, eaddr := rngAt r }
    | none =>
      match rs.find? (fun r => ! nearRange r) with
      | some r => some { code := eCRYPTARG, eaddr := rngAt r }
      | none => none

/-- The first of several traps that applies. -/
def firstTrap (ts : List (Option Trp)) : Option Trp := (ts.filterMap id).head?

/-- A trap where `c` holds. -/
def trapIf (c : Bool) (t : Trp) : Option Trp := if c then some t else none

/-- A range read through a unit lies in the frame window or SHARED (R319, R357). -/
def readsBuffered (rs : List Rng) : Bool := rs.any (fun r => decide (r.2.2 ≠ 0) && buffered r.1)

/-- The write-buffer wait *w* of a unit instruction (R357). -/
def unitW (n t : Nat) (rs : List Rng) (s : State) : Nat :=
  if n ≠ supCore ∧ readsBuffered rs then wbWait (s.core n) t else 0

/-- Wait for the write buffer where a range read asks for it. -/
def unitWait (n t : Nat) (rs : List Rng) (s : State) : MemRes :=
  if readsBuffered rs then waitEmpty n t s else { st := s }

/-- The first-read access time A (R370). -/
def firstRead (r : Rng) : Nat := if r.2.2 = 0 then 0 else bankTime r.1 r.2.1

/-- The chaining registers: D12-D15 for AES, D14 and D15 for TDES (R364). -/
def chainRegs (tdes : Bool) : List Nat := if tdes then [14, 15] else [12, 13, 14, 15]
def Core.chain (c : Core) (tdes : Bool) : Bytes := (chainRegs tdes).flatMap (fun i => beBytes (c.dr i).toNat 4)
def Core.setChain (c : Core) (tdes : Bool) (b : Bytes) : Core :=
  ((chainRegs tdes).zip (chunks 4 b)).foldl (fun (c : Core) (p : Nat × Bytes) => c.setD p.1 (BitVec.ofNat 32 (beNat p.2))) c

/-- One block of ECB, CBC or CTR (R364, R365): output and chaining value. -/
def blockStep (mode : Nat) (enc dec : Bytes → Bytes) (b ch : Bytes) : Bytes × Bytes :=
  match mode with
  | 0 => (enc b, ch)
  | 1 => (dec b, ch)
  | 2 => let o := enc (xorBytes b ch); (o, o)
  | 3 => (xorBytes (dec b) ch, b)
  | _ => (xorBytes b (enc ch), beBytes (beNat ch + 1) 16)

/-- Put bytes at an offset that may lie before a string's start or beyond its end. -/
def overlayAt (src : Bytes) (d : Int) (o : Bytes) : Bytes :=
  (o.zip (List.range o.length)).foldl (fun (m : Bytes) (e : Byte × Nat) =>
    let p := d + (e.2 : Int)
    if 0 ≤ p ∧ p < (m.length : Int) then m.set p.toNat e.1 else m) src

/-- A stream over a source, block by block; `d` is the destination's offset less the source's where both lie in one bank, so
that a block written is what a later block reads (R368). -/
def streamOut (bs : Nat) (step : Bytes → Bytes → Bytes × Bytes) (d : Option Int) : Nat → Nat → Bytes → Bytes → Bytes → Bytes × Bytes
  | 0, _, _, ch, out => (out, ch)
  | k + 1, i, src, ch, out =>
    let b := slice src i bs
    if b.isEmpty then (out, ch)
    else
      let r := step b ch
      let src := match d with | some d => overlayAt src (d + (i : Int)) r.1 | none => src
      streamOut bs step d k (i + bs) src r.2 (out ++ r.1)

/-- The blocks of a MAC (R364, R366). -/
def macBlocks (tdes : Bool) (seg pad len : Nat) : Nat :=
  let bs := if tdes then 8 else 16
  if seg = 1 ∨ seg = 2 then len / bs
  else if ¬ tdes then Nat.max 1 (ceilDiv len 16)
  else if pad = 2 then len / 8 + 1 else Nat.max 1 (ceilDiv len 8)

/-- The final message bytes of a TDES MAC, padded (R364, ISO/IEC 9797-1). -/
def macPad (pad : Nat) (m : Bytes) : Bytes :=
  if pad = 2 then fit (m ++ [0x80]) (8 * (m.length / 8 + 1)) else fit m (8 * Nat.max 1 (ceilDiv m.length 8))

/-- The chaining block function and the closing step of a MAC (R365, R498). -/
def macFuns (tdes mac3 : Bool) (key : Bytes) : (Bytes → Bytes) × (Bytes → Bytes) :=
  if ¬ tdes then (aesEnc key, id)
  else if mac3 then
    let k := tdesParts key
    (desEnc k.1, fun c => desEnc k.1 (desDec k.2.1 c))
  else (tdesEnc key, id)

/-- The tag over the last bytes of a MAC, from a chaining value (R365, R366). -/
def macFinal (tdes mac3 : Bool) (pad : Nat) (key ch m : Bytes) : Bytes :=
  let f := macFuns tdes mac3 key
  if tdes then f.2 (cmacChain 8 f.1 ch (macPad pad m))
  else
    let full := if m.length = 0 then 0 else (m.length - 1) / 16 * 16
    cmacLast 16 f.1 (cmacChain 16 f.1 ch (m.take full)) (m.drop full)

/-- An AES or TDES instruction is a MAC form, a verify form (R364). -/
def isMacForm (tdes : Bool) (fn : Nat) : Bool := if tdes then decide (4 ≤ fn) else decide (fn = 5 ∨ fn = 6)
def isVerify (tdes : Bool) (fn : Nat) : Bool := if tdes then decide (fn = 5 ∨ fn = 7) else decide (fn = 6)

/-- The USE bit an AES or TDES function asks for (R364): 0 ENC, 1 DEC, 2 MACG, 3 MACV. -/
def cryUse (tdes : Bool) (fn : Nat) : Nat :=
  if isMacForm tdes fn then (if isVerify tdes fn then 3 else 2) else if fn = 1 ∨ fn = 3 then 1 else 0

/-- LEN, TLEN, PAD and unused fields of an AES or TDES function (R362, R364, R366). -/
def cryArgOk (tdes : Bool) (fn : Nat) (w : LenWord) : Bool :=
  let bs := if tdes then 8 else 16
  if isMacForm tdes fn then
    decide (w.top = 0) && (if tdes then decide (w.pad = 1 ∨ w.pad = 2) else decide (w.pad = 0)) &&
    decide (4 ≤ w.tlen ∧ w.tlen ≤ (if tdes then 8 else 16) ∧ w.len ≤ 2048) &&
    (if w.seg = 1 ∨ w.seg = 2 then decide (w.len ≠ 0 ∧ w.len % bs = 0)
     else if w.seg = 3 then decide (w.len ≠ 0) || (tdes && decide (w.pad = 2)) else true)
  else
    decide (w.top = 0 ∧ w.seg = 0 ∧ w.pad = 0 ∧ w.tlen = 0 ∧ 1 ≤ w.len ∧ w.len ≤ 2048) && (decide (fn = 4) || decide (w.len % bs = 0))

/-- The ranges of an AES or TDES instruction: source, and destination or tag (R364, R366). -/
def cryRanges (c : Core) (tdes : Bool) (fn : Nat) (sa da : Nat × Bool) (w : LenWord) : Rng × Option Rng :=
  let a := c.addr sa
  let b := c.addr da
  let mac := isMacForm tdes fn
  ((a.1, a.2, w.len), if mac && decide (w.seg = 1 ∨ w.seg = 2) then none else some (b.1, b.2, if mac then w.tlen else w.len))

/-- The ranges an AES or TDES instruction reads. -/
def cryReads (c : Core) (tdes : Bool) (fn : Nat) (sa da : Nat × Bool) (w : LenWord) : List Rng :=
  let r := cryRanges c tdes fn sa da w
  r.1 :: (if isVerify tdes fn then r.2.toList else [])

/-- The MAC state agrees with the instruction (R366). -/
def macStateOk (c : Core) (tdes : Bool) (fn k : Nat) (w : LenWord) : Bool :=
  if ¬ isMacForm tdes fn ∨ w.seg = 0 then true
  else
    match c.mac with
    | none => decide (w.seg = 1)
    | some m => decide (w.seg ≠ 1 ∧ m.tdes = tdes ∧ m.fn = fn ∧ m.k = k ∧ m.pad = w.pad ∧ m.tlen = w.tlen)

/-- The effect of a MAC form whose checks passed (R364-R366). -/
def macEffect (n : Nat) (tdes : Bool) (fn k : Nat) (w : LenWord) (key src : Bytes) (dst : Option Rng) (pd : Nat) (s : State) : OpRes :=
  let c := s.core n
  let mac3 := tdes && decide (6 ≤ fn)
  let bs := if tdes then 8 else 16
  let ch := if w.seg = 2 ∨ w.seg = 3 then (match c.mac with | some m => m.chain | none => zeros bs) else zeros bs
  if w.seg = 1 ∨ w.seg = 2 then
    opSeq (s.setCore n { c with mac := some ⟨tdes, fn, k, w.pad, w.tlen, cmacChain bs (macFuns tdes mac3 key).1 ch src⟩ })
  else
    let tag := (macFinal tdes mac3 w.pad key ch src).take w.tlen
    let c := if w.seg = 3 then { c with mac := none } else c
    match dst with
    | none => opSeq (s.setCore n c)
    | some d =>
      if isVerify tdes fn then opSeq (s.setCore n (c.setP pd (decide (laneRead s n d.1 d.2.1 d.2.2 = tag))))
      else { st := s.setCore n c, nx := .seq, wr := some (d.1, d.2.1, tag) }

/-- The effect of ECB, CBC or CTR whose checks passed (R364, R365, R368, R405). -/
def streamEffect (n : Nat) (tdes : Bool) (fn : Nat) (key : Bytes) (r d : Rng) (src : Bytes) (s : State) : OpRes :=
  let c := s.core n
  let enc := if tdes then tdesEnc key else aesEnc key
  let dec := if tdes then tdesDec key else aesDec key
  let diff : Option Int := if r.1 = d.1 then some ((d.2.1 : Int) - (r.2.1 : Int)) else none
  let o := streamOut (if tdes then 8 else 16) (blockStep fn enc dec) diff (src.length + 1) 0 src (c.chain tdes) []
  { st := s.setCore n (if fn ≥ 2 then c.setChain tdes o.2 else c), nx := .seq, wr := some (d.1, d.2.1, o.1) }

/-- AES_GHKEY (R364, R365). -/
def opGhkey (n k : Nat) (s : State) : OpRes :=
  match keyTrap s n 0 0 false [k] with
  | some x => opTrap s x
  | none => opSeq (s.setCore n { s.core n with ghk := aesEnc (keyEntry s n k).1.key (zeros 16) })

/-- An AES or TDES instruction (R360-R368, R380, R381). -/
def opCry (n t : Nat) (tdes : Bool) (fn k : Nat) (sa da : Nat × Bool) (dn pd : Nat) (s : State) : OpRes :=
  if ¬ tdes ∧ fn = 7 then opGhkey n k s
  else
    let c := s.core n
    let w := lenWord (c.dr dn)
    let r := cryRanges c tdes fn sa da w
    let unit := if tdes then 1 else 0
    let tr := firstTrap
      [ unitRanges s n (r.1 :: r.2.toList)
      , trapIf (! cryArgOk tdes fn w || ! macStateOk c tdes fn k w) { code := eCRYPTARG }
      , keyTrap s n unit (cryUse tdes fn) (tdes && decide (6 ≤ fn)) [k] ]
    match tr with
    | some x => opTrap s x
    | none =>
      let q := unitWait n t (cryReads c tdes fn sa da w) s
      match q.trap with
      | some x => opTrap q.st x
      | none =>
        let key := (keyEntry s n k).1.key
        let src := laneRead q.st n r.1.1 r.1.2.1 r.1.2.2
        if isMacForm tdes fn then macEffect n tdes fn k w key src r.2 pd q.st
        else streamEffect n tdes fn key r.1 (r.2.getD r.1) src q.st

/-- La of R370. -/
def aesLat (ty : Nat) : Nat := if ty = 1 then 11 else if ty = 2 then 13 else 15

/-- The LCLK of an AES or TDES instruction (R356, R370). -/
def cryTime (n t : Nat) (tdes : Bool) (fn k : Nat) (sa da : Nat × Bool) (dn : Nat) (s : State) : Nat :=
  let c := s.core n
  let w := lenWord (c.dr dn)
  let one := decide ((s.job (laneRun s n).job).xa ≠ 0)
  let wa := if one then 3 else 1
  let ta := if one then 4 else 2
  let la := aesLat (declared s n k)
  if ¬ tdes ∧ fn = 7 then 2 + wa + la + 1
  else
    let wt := unitW n t (cryReads c tdes fn sa da w) s
    let a := firstRead (cryRanges c tdes fn sa da w).1
    let mac := isMacForm tdes fn
    let nb := Nat.max 1 (if mac then macBlocks tdes w.seg w.pad w.len else ceilDiv w.len (if tdes then 8 else 16))
    if tdes then (if mac ∨ fn = 2 then wt + 2 + a + 33 * nb + 1 else wt + 2 + a + 7 + 8 * (nb - 1) + 26 + 1)
    else if mac ∨ fn = 2 then wt + 2 + a + nb * (wa + la) + 1
    else wt + 2 + a + wa + ta * (nb - 1) + la + 1

/-- Block and result lengths of the hash functions (R369). -/
def hashBlk (fn : Nat) : Nat := if fn = 0 then 64 else if fn = 3 then 16 else 128
def hashLen (fn : Nat) : Nat := if fn = 0 then 32 else if fn = 1 then 48 else if fn = 2 then 64 else 16

/-- The initial state of a message (R369). -/
def hashStart (fn : Nat) : HashSt :=
  { fn := fn, hv := if fn = 0 then sha256H else if fn = 1 then sha384H else if fn = 2 then sha512H else [], y := zeros 16 }

/-- Bytes enter the hash unit's state, whole blocks (R369). -/
def hashMore (h : HashSt) (ghk m : Bytes) : HashSt :=
  let hv := if h.fn = 0 then sha256Blocks h.hv m else if h.fn = 3 then h.hv else sha512Blocks h.hv m
  { h with len := h.len + m.length, hv := hv, y := if h.fn = 3 then ghash (fit ghk 16) h.y m else h.y }

/-- The last bytes of a message, with the padding of FIPS 180-4 over the total length, and the result (R369). -/
def hashEnd (h : HashSt) (ghk m : Bytes) : Bytes :=
  let total := h.len + m.length
  if h.fn = 3 then (hashMore h ghk m).y
  else if h.fn = 0 then hashBytes 4 (sha256Blocks h.hv (shaPad 64 8 total m))
  else (hashBytes 8 (sha512Blocks h.hv (shaPad 128 16 total m))).take (hashLen h.fn)

/-- A HASH instruction (R362, R367, R369, R405). -/
def opHash (n t fn : Nat) (first last : Bool) (sa da : Nat × Bool) (dn : Nat) (s : State) : OpRes :=
  let c := s.core n
  let w := lenWord (c.dr dn)
  let a := c.addr sa
  let b := c.addr da
  let r : Rng := (a.1, a.2, w.len)
  let d : Rng := (b.1, b.2, hashLen fn)
  let held : Option HashSt := if first then some (hashStart fn) else
    (match c.hash with | some h => if h.fn = fn then some h else none | none => none)
  let argOk := decide ((c.dr dn).toNat < 65536) && (last || decide (w.len % hashBlk fn = 0)) && (decide (fn ≠ 3) || decide (w.len % 16 = 0)) && held.isSome
  match firstTrap [unitRanges s n (if last then [r, d] else [r]), trapIf (! argOk) { code := eCRYPTARG }] with
  | some x => opTrap s x
  | none =>
    let q := unitWait n t [r] s
    match q.trap with
    | some x => opTrap q.st x
    | none =>
      let m := laneRead q.st n r.1 r.2.1 r.2.2
      let h := held.getD (hashStart fn)
      if last then { st := q.st.setCore n { q.st.core n with hash := none }, nx := .seq, wr := some (d.1, d.2.1, hashEnd h c.ghk m) }
      else opSeq (q.st.setCore n { q.st.core n with hash := some (hashMore h c.ghk m) })

/-- The LCLK of a HASH instruction (R370). -/
def hashTime (n t fn : Nat) (last : Bool) (sa : Nat × Bool) (dn : Nat) (s : State) : Nat :=
  let c := s.core n
  let w := lenWord (c.dr dn)
  let a := c.addr sa
  let r : Rng := (a.1, a.2, w.len)
  let wt := unitW n t [r] s + firstRead r
  let nb := if fn = 3 ∨ ! last then w.len / hashBlk fn else (w.len + (if fn = 0 then 9 else 17)) / hashBlk fn + 1
  if nb = 0 then 1
  else if fn = 3 then wt + 383 + 384 * (ceilDiv nb 64 - 1) + (nb - 1) % 64 + 1 + 4 + 1
  else wt + 383 + 384 * (nb - 1) + (if fn = 0 then 66 else 82) + 1

/-- KCHK (R374). -/
def opKchk (n pd pdn k : Nat) (s : State) : OpRes :=
  let e := keyEntry s n k
  opSeq (s.setCore n ((s.core n).setPs pd pdn (e.2.isNone && decide (e.1.ktype = declared s n k))))

/-- The value of an ASCII hexadecimal character. -/
def hexNibble (b : Byte) : Option Nat :=
  let n := b.toNat
  if 0x30 ≤ n ∧ n ≤ 0x39 then some (n - 0x30)
  else if 0x41 ≤ n ∧ n ≤ 0x46 then some (n - 0x37)
  else if 0x61 ≤ n ∧ n ≤ 0x66 then some (n - 0x57) else none

/-- An upper-case hexadecimal character, and a digit with non-digits as "0" (R375). -/
def hexChar (n : Nat) : Byte := byte (if n < 10 then 0x30 + n else 0x37 + n)
def digVal (b : Byte) : Option Nat := if 0x30 ≤ b.toNat ∧ b.toNat ≤ 0x39 then some (b.toNat - 0x30) else none

/-- What a MSG function makes of its source, and its predicate (R375); `old` is the destination before. -/
def msgOut (fn fill len : Nat) (src old : Bytes) : Bytes × Bool :=
  match fn with
  | 0 => (src, true)
  | 1 => (List.replicate len (byte fill), true)
  | 2 => (xorBytes old src, true)
  | 3 => ([], decide (src = old))
  | 4 =>
    let v := src.map hexNibble
    (fromNibbles (v.map (fun x => x.getD 0)), v.all (fun x => x.isSome))
  | 5 => ((nibbles src).map hexChar, true)
  | 6 =>
    let v := src.map digVal
    let d := v.map (fun x => x.getD 0)
    (fromNibbles (if d.length % 2 = 1 then 0 :: d else d), v.all (fun x => x.isSome))
  | _ =>
    let v := nibbles src
    (v.map (fun x => byte (0x30 + (if x < 10 then x else 0))), v.all (fun x => decide (x < 10)))

/-- The bytes a MSG function writes (R375), and those its destination takes up. -/
def msgWrites (fn len : Nat) : Nat :=
  match fn with | 4 => len / 2 | 5 => 2 * len | 6 => ceilDiv len 2 | 7 => 2 * len | _ => len

/-- The ranges of a MSG instruction: sources read and destination. -/
def msgRanges (c : Core) (fn : Nat) (sa da : Nat × Bool) (len : Nat) : List Rng × Rng :=
  let a := c.addr sa
  let b := c.addr da
  (if fn = 1 then [] else [(a.1, a.2, len)], (b.1, b.2, msgWrites fn len))

/-- The ranges a MSG instruction reads (R375): MXOR and MCMP read both. -/
def msgReads (c : Core) (fn : Nat) (sa da : Nat × Bool) (len : Nat) : List Rng :=
  let r := msgRanges c fn sa da len
  r.1 ++ (if fn = 2 ∨ fn = 3 then [r.2] else [])

/-- A bank that MSG may use (R375, R395). -/
def msgBank (n bank : Nat) : Bool :=
  if n = supCore then decide (bank ≤ 7) || isWindow bank else decide (bank = 0) || buffered bank

/-- The judgement of a byte that a MSG instruction reads or writes directly (R692): not of DMEM and FRAME. -/
def msgJudge (s : State) (n bank off kind : Nat) : Nat :=
  if n = supCore then judge s s.unit.sup.level (supAddr s bank off) kind
  else if 0x10 ≤ bank ∧ bank ≤ 0x1F then judge s n (sharedAddr n bank off) kind
  else 0

/-- The bytes of a range before its first refused granule (R691, R692), where one is refused. -/
def msgStop (s : State) (n : Nat) (r : Rng) (kind : Nat) : Option Nat :=
  match (dmaPieces (r.2.2 / 64 + 2) r.2.1 r.2.2).find? (fun p => decide (msgJudge s n r.1 p.1 kind ≠ 0)) with
  | some p => some (p.1 - r.2.1)
  | none => none

/-- Bytes a core reads without a trap. -/
def coreRead (n : Nat) (r : Rng) (s : State) : Bytes × State :=
  if n = supCore then supRead (supAddr s r.1 r.2.1) r.2.2 s else (laneRead s n r.1 r.2.1 r.2.2, s)

/-- Bytes a unit or MSG instruction writes to its destination (R357). -/
def coreWrite (n bank off : Nat) (bs : Bytes) (s : State) : State :=
  if bs.isEmpty then s else if n = supCore then supWrite (supAddr s bank off) bs s else laneWrite n bank off bs s

/-- The first refusal a MSG instruction meets: the output bytes before it, its bank, offset and kind (R692). -/
def msgRefusal (s : State) (n fn len : Nat) (src : List Rng) (dst : Rng) : Option (Nat × Rng × Nat) :=
  let total := if fn = 3 then len else dst.2.2
  let scale (r : Rng) (k : Nat) : Nat := if r.2.2 = 0 then 0 else k * total / r.2.2
  let one (r : Rng) (kind : Nat) : List (Nat × Rng × Nat) :=
    match msgStop s n r kind with | some k => [(scale r k, (r.1, r.2.1 + k, 1), kind)] | none => []
  let all := src.flatMap (fun r => one r 0) ++ (if fn = 2 ∨ fn = 3 then one dst 0 else []) ++ (if fn = 3 then [] else one dst 1)
  all.foldl (fun (m : Option (Nat × Rng × Nat)) x => match m with | some y => if x.1 < y.1 then some x else m | none => some x) none

/-- A MSG instruction (R375, R376, R692). -/
def opMsg (n t fn : Nat) (sa da : Nat × Bool) (dn pd : Nat) (s : State) : OpRes :=
  let c := s.core n
  let w := lenWord (c.dr dn)
  let r := msgRanges c fn sa da w.len
  let all := r.1 ++ [r.2]
  let argOk := decide (w.top = 0 ∧ w.seg = 0 ∧ w.len ≤ 8192) && (decide (fn = 1) || decide (w.fill = 0)) &&
    (decide (fn ≠ 4) || decide (w.len % 2 = 0))
  let tr := firstTrap
    [ (all.find? (fun x => ! rangeMapped s n x)).map (fun x => { code := eADDR, eaddr := rngAt x })
    , (all.find? (fun x => ! msgBank n x.1)).map (fun x => { code := eCRYPTARG, eaddr := rngAt x })
    , trapIf (! argOk) { code := eCRYPTARG } ]
  match tr with
  | some x => opTrap s x
  | none =>
    let q := unitWait n t (msgReads c fn sa da w.len) s
    match q.trap with
    | some x => opTrap q.st x
    | none =>
      let s := q.st
      let src := match r.1 with | a :: _ => coreRead n a s | [] => ([], s)
      let old := if fn = 2 ∨ fn = 3 then coreRead n r.2 src.2 else ([], src.2)
      let o := msgOut fn w.fill w.len src.1 old.1
      match msgRefusal s n fn w.len r.1 r.2 with
      | some x =>
        let a := if n = supCore then supAddr s x.2.1.1 x.2.1.2.1 else sharedAddr n x.2.1.1 x.2.1.2.1
        let ini := if n = supCore then s.unit.sup.level else n
        let s := recordViolation ini a x.2.2 (msgJudge s n x.2.1.1 x.2.1.2.1 x.2.2) true (decide (n = supCore))
          (if n = supCore then supPc s else 0) s
        opTrap (coreWrite n r.2.1 r.2.2.1 (o.1.take x.1) s) { code := eACCESS, eaddr := rngAt x.2.1 }
      | none =>
        let s := old.2.setCore n ((old.2.core n).setP pd o.2)
        { st := s, nx := .seq, wr := if fn = 3 then none else some (r.2.1, r.2.2.1, o.1) }

/-- The LCLK of a MSG instruction (R370). -/
def msgTime (n t fn : Nat) (sa da : Nat × Bool) (dn : Nat) (s : State) : Nat :=
  let c := s.core n
  let len := (lenWord (c.dr dn)).len
  let r := msgRanges c fn sa da len
  let a := (msgReads c fn sa da len).foldl (fun m x => Nat.max m (firstRead x)) 0
  let p := if (r.1 ++ [r.2]).all nearRange then 1 else 20
  let m := if fn = 2 ∨ fn = 3 then len else Nat.max (if fn = 1 then 0 else len) (msgWrites fn len)
  unitW n t (msgReads c fn sa da len) s + 1 + a + ceilDiv m 16 * p

/-- PKSUB (R362, R378, R381, R406). -/
def opPksub (n t : Nat) (sa : Nat × Bool) (dn : Nat) (s : State) : OpRes :=
  let c := s.core n
  let r := laneRun s n
  let j := s.job r.job
  let a := c.addr sa
  let len := (c.dr dn).toNat % 65536
  let tr := firstTrap
    [ trapIf (decide (65536 ≤ (c.dr dn).toNat)) { code := eCRYPTARG }
    , trapIf (r.fin || decide (j.pkOp = 0 ∨ len = 0 ∨ len > 1024 ∨ a.1 ≠ 1 ∨ a.2 + len > 0x2000)) { code := ePKARG } ]
  match tr with
  | some x => opTrap s x
  | none =>
    let q := waitEmpty n t s
    match q.trap with
    | some x => opTrap q.st x
    | none => { st := q.st, nx := .pksub a.2 len }

/-- The statuses POST may name (R377). -/
def postable (st : Nat) : Bool := [0x00, 0x04, 0x05, 0x06, 0x07, 0x08, 0x0A].contains st

/-- POST (R305, R377, R381). -/
def opPost (n t ds dt : Nat) (s : State) : OpRes :=
  let c := s.core n
  let st := (c.dr ds).toNat
  let off := (c.dr dt).toNat / 65536
  let len := (c.dr dt).toNat % 65536
  let rmax := (s.job (laneRun s n).job).rmax
  let tr := firstTrap
    [ trapIf (decide (len ≠ 0 ∧ (off + len > 0x2000 ∨ len > rmax))) { code := eADDR, eaddr := lane24 1 off }
    , trapIf (decide (256 ≤ st) || ! postable st) { code := ePOSTARG, info := st % 256 } ]
  match tr with
  | some x => opTrap s x
  | none =>
    let q := waitEmpty n t s
    match q.trap with
    | some x => opTrap q.st x
    | none => { st := q.st, nx := .post st off len }

/-- The stall of a post at LCLK `at_` while the lane's previous result is not accepted, at most 4 (R235). -/
def postStall (s : State) (l at_ : Nat) : Nat :=
  match (s.lane l).posts.getLast? with
  | some h => Nat.min 4 (h.due + 4 - at_)
  | none => 0

end Sys2Proof.Machine
end

