-- ==== Sys2Proof/Machine/Saffron.lean ====
section
/-!
DEFINITION. Saffron: PIN blocks, PIN verification, card verification values (R372, R373, R473-R494, R514-R522).
-/
namespace Sys2Proof.Machine

/-- The Saffron operations (R486): required roles of KI and KO, and whether they write a destination. -/
abbrev sopTRANSLATE : Nat := 1
abbrev sopOFSVERIFY : Nat := 2
abbrev sopOFSGEN : Nat := 3
abbrev sopPVVVERIFY : Nat := 4
abbrev sopPVVGEN : Nat := 5
abbrev sopCVVVERIFY : Nat := 6
abbrev sopCVVGEN : Nat := 7

/-- The parameter word (R484). -/
structure SafPar where
  z1 : Nat
  chk : Nat
  aux : Nat
  z2 : Nat
  panlen : Nat
  z3 : Nat
  fout : Nat
  fin : Nat

/-- Read a parameter word. -/
def safPar (w : Word) : SafPar :=
  let n := w.toNat
  ⟨bits n 31 28, bits n 27 24, bits n 23 20, bits n 19 16, bits n 15 11, bits n 10 8, bits n 7 4, bits n 3 0⟩

/-- A PIN block format of the device. -/
def isFormat (f : Nat) : Bool := [0, 1, 3, 4].contains f
/-- Families of the SOPs. -/
def isOfs (sop : Nat) : Bool := decide (sop = 2 ∨ sop = 3)
def isPvv (sop : Nat) : Bool := decide (sop = 4 ∨ sop = 5)
def isCvv (sop : Nat) : Bool := decide (sop = 6 ∨ sop = 7)

/-- The operation uses a PAN (R478, R493, R494, R515). -/
def usesPan (sop : Nat) (p : SafPar) : Bool :=
  isPvv sop || isCvv sop || decide (p.fin ≠ 1) || (decide (sop = 1) && decide (p.fout ≠ 1))

/-- The parameter word is in range (R484; R487 order 1). -/
def parOk (sop : Nat) (p : SafPar) : Bool :=
  decide (p.z1 = 0 ∧ p.z2 = 0 ∧ p.z3 = 0) &&
  (if sop = 2 then decide (4 ≤ p.chk ∧ p.chk ≤ 12) else if sop = 3 then decide (4 ≤ p.chk ∧ p.chk ≤ 6)
   else if isCvv sop then decide (3 ≤ p.chk ∧ p.chk ≤ 5) else decide (p.chk = 0)) &&
  (if isOfs sop then true else if isPvv sop then decide (p.aux ≤ 9) else decide (p.aux = 0)) &&
  (! usesPan sop p || decide (12 ≤ p.panlen ∧ p.panlen ≤ 19)) &&
  (if sop = 1 then isFormat p.fout else decide (p.fout = 0)) &&
  (if isCvv sop then decide (p.fin = 0) else isFormat p.fin)

/-- A PEK with a given right (R473): PIN and the right, and neither MACG nor MACV. -/
def isPek (e : CacheEnt) (right : Nat) : Bool := bit e.use_ 4 && bit e.use_ right && ! bit e.use_ 2 && ! bit e.use_ 3
/-- A value key with a given right (R473): PIN and the right, and neither ENC nor DEC. -/
def isValueKey (e : CacheEnt) (right : Nat) : Bool := bit e.use_ 4 && bit e.use_ right && ! bit e.use_ 0 && ! bit e.use_ 1

/-- The keys fit their roles (R474; R487 order 3). -/
def rolesOk (sop : Nat) (ki ko : CacheEnt) : Bool :=
  let gen := if sop % 2 = 1 then 2 else 3
  if sop = 1 then isPek ki 1 && isPek ko 0 else if isCvv sop then isValueKey ki gen else isPek ki 1 && isValueKey ko gen

/-- A PEK's type is that of its format (R473). -/
def pekType (f : Nat) (e : CacheEnt) : Bool := if f = 4 then decide (1 ≤ e.ktype ∧ e.ktype ≤ 3) else decide (e.ktype = 4 ∨ e.ktype = 5)

/-- The key types fit (R487 order 4). -/
def typesOk (sop : Nat) (p : SafPar) (ki ko : CacheEnt) : Bool :=
  if sop = 1 then pekType p.fin ki && pekType p.fout ko
  else if isCvv sop then decide (ki.ktype = 4)
  else pekType p.fin ki && (decide (ko.ktype = 4) || (isOfs sop && decide (ko.ktype = 5)))

/-- The format pairs that TRANSLATE permits (R489); `down` is 5402:01. -/
def pairOk (down : Bool) (fin fout : Nat) : Bool :=
  if fin = 0 ∨ fin = 3 then decide (fout ≠ 1)
  else if fin = 1 then true
  else decide (fout = 4) || (down && decide (fout ≠ 1))

/-- The digits of packed BCD bytes, where every nibble is one. -/
def bcdDigits (b : Bytes) : Option (List Nat) := let n := nibbles b; if n.all (fun x => decide (x < 10)) then some n else none

/-- The plain PAN field (R478). -/
def panField (f : Nat) (pan : List Nat) : Bytes :=
  if f = 4 then fit (fromNibbles (let n := (pan.length - 12) :: pan; if n.length % 2 = 1 then n ++ [0] else n)) 16
  else if f = 1 then zeros 8
  else
    let d := pan.dropLast
    let r := d.drop (d.length - 12)
    fromNibbles ([0, 0, 0, 0] ++ List.replicate (12 - r.length) 0 ++ r)

/-- Decipher a PIN block to the plain PIN field (R479). -/
def pinDecipher (f : Nat) (key blk : Bytes) (pan : List Nat) : Bytes :=
  if f = 4 then aesDec key (xorBytes (aesDec key blk) (panField 4 pan))
  else if f = 1 then tdesDec key (blk.take 8)
  else xorBytes (tdesDec key (blk.take 8)) (panField f pan)

/-- Encipher a plain PIN field (R479); a TDES block is followed by 0 (R486). -/
def pinEncipher (f : Nat) (key field : Bytes) (pan : List Nat) : Bytes :=
  if f = 4 then aesEnc key (xorBytes (aesEnc key field) (panField 4 pan))
  else if f = 1 then tdesEnc key field ++ zeros 8
  else tdesEnc key (xorBytes field (panField f pan)) ++ zeros 8

/-- The checks of a plain PIN field (R480): the REASON of the first that fails, or the PIN digits. -/
def pinCheck (f minLen : Nat) (field : Bytes) : Nat × List Nat :=
  let n := nibbles field
  let len := n.getD 1 0
  let pin := (n.drop 2).take len
  let fill := (n.drop (2 + len)).take (14 - len)
  if n.getD 0 0 ≠ f then (1, [])
  else if len < 4 ∨ len > 12 ∨ len < minLen then (2, [])
  else if ! pin.all (fun x => decide (x < 10)) then (3, [])
  else if f = 0 ∧ ! fill.all (fun x => decide (x = 15)) then (4, [])
  else if f = 3 ∧ ! fill.all (fun x => decide (10 ≤ x)) then (4, [])
  else if f = 4 ∧ ! fill.all (fun x => decide (x = 10)) then (4, [])
  else (0, pin)

/-- A plain PIN field with fresh random fields (R477, R481, R482): each request of the unit's generator counts one. -/
def pinForm (f : Nat) (pin : List Nat) (s : State) : Bytes × State :=
  let n := pin.length
  let head := [f, n] ++ pin
  if f = 0 then (fromNibbles (head ++ List.replicate (14 - n) 15), s)
  else if f = 1 then
    let r := s.draw (14 - n)
    (fromNibbles (head ++ r.1.map (fun b => b.toNat % 16)), r.2)
  else if f = 3 then
    let r := s.draw (4 * (14 - n))
    (fromNibbles (head ++ (chunks 4 r.1).map (fun b => 10 + beNat b % 6)), r.2)
  else
    let r := s.draw 8
    (fromNibbles (head ++ List.replicate (14 - n) 10) ++ r.1, r.2)

/-- Digits read from result nibbles in two passes (R493). -/
def twoPass (n : Nat) (b : Bytes) : List Nat :=
  let v := nibbles b
  ((v.filter (fun x => decide (x < 10))) ++ (v.filter (fun x => decide (10 ≤ x))).map (fun x => x - 10)).take n

/-- The natural PIN of the offset method (R491): the first `chk` nibbles through a decimalisation table. -/
def naturalPin (key vdata tab : Bytes) (chk : Nat) : List Nat :=
  ((nibbles (tdesEnc key (vdata.take 8))).map (fun v => (byteAt tab v).toNat - 0x30)).take chk

/-- The PVV (R493). -/
def pvvOf (key : Bytes) (pan pin : List Nat) (pvki : Nat) : List Nat :=
  let d := pan.dropLast
  twoPass 4 (tdesEnc key (fromNibbles (d.drop (d.length - 11) ++ [pvki] ++ pin.take 4)))

/-- The card verification value (R494). -/
def cvvOf (key : Bytes) (pan : List Nat) (vdata : Bytes) (chk : Nat) : List Nat :=
  let n := pan ++ nibbles (vdata.take 2) ++ (nibbles (slice vdata 2 2)).drop 1
  let b := fromNibbles (n ++ List.replicate (32 - n.length) 0)
  let ka := key.take 8
  let kb := (key.drop 8).take 8
  let y := xorBytes (desEnc ka (b.take 8)) (b.drop 8)
  twoPass chk (desEnc ka (desDec kb (desEnc ka y)))

/-- What a Saffron operation comes to: STATUS, REASON or VALUE, and the destination's bytes. -/
structure SafRes where
  st : State
  status : Nat := 0
  value : Nat := 0
  out : Option Bytes := none

/-- VDATA digits in range (R487 order 8, R520). -/
def vdataOk (sop : Nat) (v : Bytes) : Bool :=
  match sop with
  | 2 => (bcdDigits (slice v 8 6)).isSome
  | 4 => (bcdDigits (v.take 2)).isSome
  | 6 => (bcdDigits (v.take 7)).isSome && decide ((byteAt v 2).toNat < 16)
  | 7 => (bcdDigits (v.take 4)).isSome && decide ((byteAt v 2).toNat < 16)
  | _ => true

/-- A value of BCD digits, right-aligned (R485). -/
def bcdValue (ds : List Nat) : Nat := ds.foldl (fun n d => n * 16 + d) 0

/-- Compare, or give a value (R485, R487 order 11). -/
def safCompare (s : State) (okay : Bool) : SafRes := if okay then { st := s } else { st := s, status := tVERIFY_FAIL, value := 0x20 }

/-- The operation after its PIN block has been deciphered and checked (R490-R493). -/
def safPin (sop : Nat) (p : SafPar) (ko : CacheEnt) (tab v : Bytes) (pan pin : List Nat) (s : State) : SafRes :=
  if isOfs sop ∧ pin.length < p.chk then { st := s, status := tFORMAT, value := 7 }
  else
    match sop with
    | 1 =>
      let f := pinForm p.fout pin s
      { st := f.2, out := some (pinEncipher p.fout ko.key f.1 pan) }
    | 2 =>
      let nat := naturalPin ko.key v tab p.chk
      let off := nibbles (slice v 8 6)
      safCompare s ((List.range p.chk).all (fun i => decide ((nat.getD i 0 + off.getD i 0) % 10 = pin.getD i 0)))
    | 3 =>
      let nat := naturalPin ko.key v tab p.chk
      { st := s, value := bcdValue ((List.range p.chk).map (fun i => (pin.getD i 0 + 10 - nat.getD i 0) % 10)) }
    | 4 => safCompare s (decide (pvvOf ko.key pan pin p.aux = nibbles (v.take 2)))
    | _ => { st := s, value := bcdValue (pvvOf ko.key pan pin p.aux) }

/-- A Saffron operation with its keys and operand block (R487): the checks in order, then the operation. -/
def safRun (sop : Nat) (p : SafPar) (same : Bool) (ki ko : CacheEnt) (cfg : Option EpochCfg) (blk : Bytes) (s : State) : SafRes :=
  let c := cfg.getD (curCfg s)
  let fail (status reason : Nat) : SafRes := { st := s, status := status, value := reason }
  let tab := EpochCfg.bytes s c 0x5400 (p.aux + 1)
  let v := slice blk 36 16
  let pan := asciiDigits (slice blk 16 p.panlen)
  if ¬ parOk sop p then fail tFORMAT 0x06
  else if isCvv sop ∧ ¬ same then fail tPOLICY 0x14
  else if ¬ rolesOk sop ki ko then fail tPOLICY 0x12
  else if ¬ typesOk sop p ki ko then fail tPOLICY 0x10
  else if isOfs sop ∧ tab.isEmpty then fail tPOLICY 0x13
  else if sop = 1 ∧ ¬ pairOk (decide (EpochCfg.val s c 0x5402 1 = 1)) p.fin p.fout then fail tPOLICY 0x11
  else if usesPan sop p ∧ pan.isNone then fail tFORMAT 0x05
  else if ¬ vdataOk sop v then fail tFORMAT 0x15
  else
    let pan := pan.getD []
    if isCvv sop then
      let x := cvvOf ki.key pan v p.chk
      if sop = 7 then { st := s, value := bcdValue x }
      else safCompare s (decide (x = (nibbles (slice v 4 3)).drop (6 - p.chk)))
    else
      let r := pinCheck p.fin (EpochCfg.val s c 0x5402 2) (pinDecipher p.fin ki.key (blk.take 16) pan)
      if r.1 ≠ 0 then fail tFORMAT r.1 else safPin sop p ko tab v pan r.2 s

/-- Count a completed operation (R514), and its request of the unit's generator where it drew from it (R482). -/
def safCount (l sop status : Nat) (drew : Bool) (s : State) : State :=
  let s := (s.bump 0xB600 1).bump 0xB600 (if status = 0 then 2 else if status = tVERIFY_FAIL then 3 else if status = tFORMAT then 4 else 5)
  let s := s.bump 0xB600 (if sop = 1 then 6 else if isCvv sop then 8 else 7)
  if drew then s.setQuad (laneQuad l) { s.quad (laneQuad l) with sgen := (s.quad (laneQuad l)).sgen + 1 } else s

/-- A SAF instruction (R372, R373, R381, R486, R519). -/
def opSaf (n t sop ki ko : Nat) (sa da : Nat × Bool) (dx : Nat) (s : State) : OpRes :=
  let c := s.core n
  let a := c.addr sa
  let b := c.addr da
  let r : Rng := (a.1, a.2, 64)
  let d : Rng := (b.1, b.2, 16)
  let tr := firstTrap
    [ unitRanges s n (if sop = 1 then [r, d] else [r])
    , trapIf (decide (sop = 0 ∨ sop > 7)) { code := eCRYPTARG }
    , keyTrap s n 2 4 false [ki, ko] ]
  match tr with
  | some x => opTrap s x
  | none =>
    let q := unitWait n t [r] s
    match q.trap with
    | some x => opTrap q.st x
    | none =>
      let s := q.st
      let j := s.job (laneRun s n).job
      let o := safRun sop (safPar (c.dr dx)) (decide (ki = ko)) (keyEntry s n ki).1 (keyEntry s n ko).1 (epochCfg s j.epoch)
        (laneRead s n r.1 r.2.1 64) s
      let s := safCount n sop o.status (decide (o.st.draws ≠ s.draws)) o.st
      let w : Word := BitVec.ofNat 32 (o.value * 256 + o.status)
      { st := s.setCore n ((s.core n).setD dx w), nx := .seq, wr := o.out.map (fun x => (d.1, d.2.1, x)) }

/-- C(K) of R486. -/
def safKeyLat (ty : Nat) : Nat := if ty = 4 ∨ ty = 5 then 26 else if 1 ≤ ty ∧ ty ≤ 3 then 2 * aesLat ty + 8 else 38

/-- LS (R486). -/
def safLat (s : State) (n sop ki ko : Nat) : Nat :=
  let c (k : Nat) := safKeyLat (declared s n k)
  if sop = 1 then 24 + c ki + c ko
  else if 2 ≤ sop ∧ sop ≤ 5 then 24 + c ki + 42
  else if isCvv sop then 92 else 160

/-- The LCLK of a SAF instruction (R370, R373). -/
def safTime (n t sop ki ko : Nat) (sa : Nat × Bool) (s : State) : Nat :=
  let a := (s.core n).addr sa
  let r : Rng := (a.1, a.2, 64)
  unitW n t [r] s + 4 + firstRead r + 639 + safLat s n sop ki ko + 1

end Sys2Proof.Machine
end

