-- ==== Sys2Proof/Machine/CloveRun.lean ====
section
/-!
DEFINITION. Issue: one Clove instruction issued by a lane or by the supervisor (R308, R313, R322, R340-R355, R377-R379, R382-R385, R396,
R687, R688), the start of a run and its stop (R191, R209, R273, R274).
-/
namespace Sys2Proof.Machine

/-- Run one operation on core `n`, its guard 1, issued at cycle `t` of the run. Custom opcodes are run by their micro-ops. -/
def runOp (n t : Nat) (op : COp) (s : State) : OpRes :=
  match regOp op (s.core n) with
  | some c => opSeq (s.setCore n c)
  | none =>
    match op with
    | .cry td fn k sa da dn pd => opCry n t td fn k sa da dn pd s
    | .hash fn f l sa da dn => opHash n t fn f l sa da dn s
    | .saf sop ki ko sa da dx => opSaf n t sop ki ko sa da dx s
    | .kchk pd pdn k => opKchk n pd pdn k s
    | .msg fn sa da dn pd => opMsg n t fn sa da dn pd s
    | .pksub sa dn => opPksub n t sa dn s
    | .post ds dt => opPost n t ds dt s
    | op => opCtl n t op s

/-- The count of an operation that executes (R308, R370). -/
def opTime (n t : Nat) (op : COp) (s : State) : Nat :=
  match op with
  | .cry td fn k sa da dn _ => cryTime n t td fn k sa da dn s
  | .hash fn _ l sa _ dn => hashTime n t fn l sa dn s
  | .saf sop ki ko sa _ _ => safTime n t sop ki ko sa s
  | .kchk _ _ _ => 2
  | .msg fn sa da dn _ => msgTime n t fn sa da dn s
  | .pksub _ _ => 1 + wbWait (s.core n) t
  | .post _ _ => let w := wbWait (s.core n) t; w + 1 + postStall s n (s.dt + w)
  | op => coreTime n t op s

/-- The count of an operation guarded off (R313, R358). -/
def offTime (n t : Nat) (op : COp) (s : State) : Nat :=
  match op with
  | .post _ _ => 1 + wbWait (s.core n) t + 4
  | .br _ => coreOffTime n t op s
  | .call _ => coreOffTime n t op s
  | .jmp _ _ => coreOffTime n t op s
  | .trap _ => coreOffTime n t op s
  | op => opTime n t op s

/-- The bytes of a buffered store that a direct write to its bank covers are the direct write's: a later load sees what it wrote (R320, R357). -/
def WbEnt.cover (bank off : Nat) (bs : Bytes) (e : WbEnt) : WbEnt :=
  if e.bank ≠ bank then e
  else { e with bytes := (List.range e.bytes.length).map (fun i =>
    let o := e.off + i
    if off ≤ o ∧ o < off + bs.length then byteAt bs (o - off) else byteAt e.bytes i) }

/-- Bytes that a unit or MSG instruction writes itself (R357), over buffered stores that came before it. -/
def directWrite (n bank off : Nat) (bs : Bytes) (s : State) : State :=
  let s := coreWrite n bank off bs s
  if n = supCore then s
  else
    let c := s.core n
    s.setCore n { c with wb := c.wb.map (fun (e : WbEnt) => e.cover bank off bs) }

/-- The destination's bytes of an instruction that retires (R357). -/
def applyWr (n : Nat) (r : OpRes) : State :=
  match r.wr with
  | some (b, o, bs) => directWrite n b o bs r.st
  | none => r.st

/-- The write-buffer wait of an instruction that writes its destination itself (R319, R357). -/
def opW (n t : Nat) (op : COp) (s : State) : Nat :=
  let c := s.core n
  match op with
  | .cry td fn _ sa da dn _ => if ¬ td ∧ fn = 7 then 0 else unitW n t (cryReads c td fn sa da (lenWord (c.dr dn))) s
  | .hash _ _ _ sa _ dn => let a := c.addr sa; unitW n t [(a.1, a.2, (lenWord (c.dr dn)).len)] s
  | .saf _ _ _ sa _ _ => let a := c.addr sa; unitW n t [(a.1, a.2, 64)] s
  | .msg fn sa da dn _ => unitW n t (msgReads c fn sa da (lenWord (c.dr dn)).len) s
  | _ => 0

/-- An instruction stopped before it retires, its write-buffer wait over (R209, R352): of the bytes a unit or MSG instruction writes, an unstated number
have been written. -/
def partialWr (n : Nat) (r : OpRes) (s : State) : State :=
  match r.wr with
  | some (b, o, bs) =>
    let k := s.draw 2
    directWrite n b o (bs.take (beNat k.1 % (bs.length + 1))) k.2
  | none => s

/-- How far a sequence of operations has come: the state, the cycle reached, how the run goes on, and whether the budget ran
out. -/
structure Prog where
  st : State
  t : Nat
  nx : Nxt := .seq
  ovr : Bool := false

/-- One operation within the budget `lim` (R209, R341, R345): an illegal word traps; a trap is taken at its own LCLK. -/
def oneOp (n t lim : Nat) (guard : Bool) (op : Option COp) (s : State) : Prog :=
  match op with
  | none => if guard then { st := s, t := t, nx := .trap { code := eILLEGAL } } else { st := s, t := t + 1, ovr := decide (lim < t + 1) }
  | some op =>
    if ¬ guard then
      let k := offTime n t op s
      let nx : Nxt := match op with
        | .loop _ o => if op.legal then .skip (pcOf s n + 4 * o + 4) else .seq
        | .loopi _ o => if op.legal then .skip (pcOf s n + 4 * o + 4) else .seq
        | _ => .seq
      { st := s, t := t + k, nx := nx, ovr := decide (lim < t + k) }
    else if ¬ op.legal then { st := s, t := t, nx := .trap { code := eILLEGAL } }
    else
      let k := opTime n t op s
      let r := runOp n t op s
      match r.nx with
      | .trap x => { st := r.st, t := t + x.wait, nx := r.nx, ovr := decide (lim < t + x.wait + 1) }
      | nx => if lim < t + k then { st := if lim ≤ t + opW n t op s then s else partialWr n r s, t := lim, ovr := true } else { st := applyWr n r, t := t + k, nx := nx }

/-- The micro-ops of a custom opcode in a lane's bank: its slots, where the bank defines it (R382, R383). -/
def cuSlots (s : State) (l u : Nat) : Option (List Nat) :=
  let v := s.lane l
  let b := bankBases (b2n v.runB)
  let w := beNat (Memory.readN v.mem (b.2.2.2 + 4 * u) 4)
  if bit w 31 then
    some ((List.range (bits w 5 0)).map (fun i => beNat (Memory.readN v.mem (b.2.2.1 + 8 * ((bits w 23 16 + i) % 256)) 8)))
  else none

/-- The instruction word of a micro-op slot with the fields of the custom word (R382, R383). -/
def uopWord (slot ra rb rc imm : Nat) : Nat :=
  let pick (sel old : Nat) : Nat := if sel = 1 then ra else if sel = 2 then rb else if sel = 3 then rc else old
  let w := slot % 2 ^ 32
  let w := setBits w 21 18 (pick (bits slot 38 37) (bits w 21 18))
  let w := setBits w 17 14 (pick (bits slot 36 35) (bits w 17 14))
  let w := setBits w 13 10 (pick (bits slot 34 33) (bits w 13 10))
  if bit slot 32 then setBits w 9 0 imm else w

/-- A custom word's fields that no micro-op substitutes are 0 (R382). -/
def cuWordOk (slots : List Nat) (ra rb rc imm : Nat) : Bool :=
  let used (k : Nat) : Bool := slots.any (fun w => decide (bits w 38 37 = k ∨ bits w 36 35 = k ∨ bits w 34 33 = k))
  (decide (ra = 0) || used 1) && (decide (rb = 0) || used 2) && (decide (rc = 0) || used 3) &&
  (decide (imm = 0) || slots.any (fun w => bit w 32))

/-- Run the micro-ops in order (R385): each under its own guard and the custom word's; a pending imprecise ACCESS is taken at the
next micro-op's issue. -/
def runUops (n lim : Nat) (guard : Bool) : List Nat → Prog → Prog
  | [], p => p
  | w :: ws, p =>
    let s := (drainTo n p.t 5 p.st).2
    match (s.core n).imp with
    | some i =>
      { st := s.setCore n { s.core n with imp := none }, t := p.t, nx := .trap { code := eACCESS, info := i.1, eaddr := i.2, epcv := false } }
    | none =>
      let d := decodeWord w
      let q := oneOp n p.t lim (guard && (s.core n).guard d.1 d.2.1) d.2.2 s
      match q.nx with
      | .trap _ => q
      | _ => if q.ovr then q else runUops n lim guard ws { q with nx := .seq }

/-- A custom instruction (R382-R385, R401). -/
def runCustom (n t lim : Nat) (guard : Bool) (u ra rb rc imm : Nat) (s : State) : Prog :=
  match cuSlots s n u with
  | none => oneOp n t lim guard none s
  | some sl =>
    if cuWordOk sl ra rb rc imm then runUops n lim guard (sl.map (fun w => uopWord w ra rb rc imm)) { st := s, t := t }
    else oneOp n t lim guard none s

/-- The end check of the innermost loop level at the offset an instruction retired at (R322, R350): the core, and where it goes
on. -/
def endCheck (at_ : BitVec 16) : Nat → Core → Core × Option Nat
  | 0, c => (c, none)
  | k + 1, c =>
    if c.ldepth = 0 then (c, none)
    else
      let i := c.ldepth - 1
      let v := c.lvl i
      if v.fin ≠ at_ ∨ v.rsd ≠ c.rstack.length then (c, none)
      else if 1 < v.count.toNat then (c.setLvl i { v with count := v.count - 1 }, some v.start.toNat)
      else endCheck at_ k { c.setLvl i { v with count := 0 } with ldepth := i }

/-- The corrected errors of a run, counted as it ends: no command brings them, so their number is free (log entry 90). -/
def runCorrected (l : Nat) (s : State) : State := let d := s.draw 1; countCorrected l (beNat d.1) d.2

/-- The stop of a run at its budget (R209, R210, R352): buffered entries complete, and the job posts OVERRUN. -/
def overrunStop (l : Nat) (s : State) : State :=
  let r := laneRun s l
  let v := s.lane l
  let s := s.at (r.start + v.budget + 1)
  let s := runCorrected l (flushWb l s)
  let j := s.job r.job
  let s := s.setLane l { s.lane l with ovr := satInc 32 v.ovr, cyc := v.budget }
  let s := ((s.bump (0x4000 + l) 9).bump (0xB100 + j.desc.cls) 3).bump (0xB200 + laneDie l) 8
  postJob r.job tOVERRUN [] s

/-- A run ends at cycle `t` with a result (R209, R274, R344, R377). -/
def endRun (l t status : Nat) (body : Bytes) (s : State) : State :=
  let r := laneRun s l
  let s := runCorrected l (s.at (r.start + t))
  let v := s.lane l
  postJob r.job status body (s.setLane l { v with cyc := t, cycmax := Nat.max v.cycmax t })

/-- A first run ends with PKSUB at cycle `t` (R202, R378): the PK job's operand reaches its engine 16 ns later. -/
def endPksub (l t off len : Nat) (s : State) : State :=
  let r := laneRun s l
  let s := runCorrected l (s.at (r.start + t))
  let j := s.job r.job
  let e := j.engine.getD 0
  let s := match pkOf s e 0 r.job with
    | some x => pkSet e { x with off := off, len := len, arr := some (s.dt + 16) } s
    | none => s
  let v := s.lane l
  let s := s.setLane l { v with run := none, cyc := t, cycmax := Nat.max v.cycmax t
                                queue := v.queue.filter (fun x => decide (x.job ≠ r.job) || x.fin) }
  s.setJob r.job { j with stage := 2 }

/-- The trap entry of a lane's image (R342, R394): none for 0xFFFF. -/
def trapEntry (s : State) (l : Nat) : Option Nat :=
  let e := imgU (runImage s l) 28 2
  if e = 0xFFFF then none else some e

/-- Go on at cycle `t`, or stop where the budget is used up (R209). -/
def laneGoOn (l t : Nat) (s : State) : State :=
  let v := s.lane l
  if v.budget ≤ t then overrunStop l s
  else (s.setLane l { v with cyc := t }).at ((laneRun s l).start + t)

/-- The LCLK for which an ending waits for the write buffer (R344): an entry refused meanwhile empties it in the LCLK in which that is known (R343). -/
def endWait (l t : Nat) (s : State) : Nat :=
  match (drainAll l s).1 with
  | some d => d + 1 - t
  | none => wbWait (s.core l) t

/-- A lane takes a trap at cycle `t` (R342-R346, R404): recorded, then the handler, or the end of the run. -/
def laneTrap (l t : Nat) (x : Trp) (s : State) : State :=
  let v := s.lane l
  let c := s.core l
  let h := if c.inTrap then none else trapEntry s l
  let epc := if x.epcv then c.pc.toNat else 0
  let s := s.setLane l { v with trap := epc * 65536 + b2n x.epcv * 32768 + b2n h.isNone * 16384 + b2n v.runB * 8192 + x.code
                                trapAddr := x.info % 256 * 2 ^ 24 + x.eaddr % 2 ^ 24 }
  match h with
  | some e =>
    let c := { c with epc := BitVec.ofNat 16 epc, ecause := BitVec.ofNat 32 (b2n x.epcv * 2 ^ 31 + x.info % 256 * 256 + x.code)
                      eaddr := BitVec.ofNat 24 x.eaddr, ldepth := 0, inTrap := true, pc := BitVec.ofNat 16 e }
    laneGoOn l (t + 3) ((s.setCore l c).bump (0xB400 + l) 5)
  | none =>
    let w := endWait l t s
    let n := t + w + 1 + postStall s l ((laneRun s l).start + t + w)
    if v.budget < n then overrunStop l s
    else endRun l n x.status [] ((flushWb l s).bump (0xB400 + l) 6)

/-- The next PC of a lane (R317): `s0` is the state before the instruction, whose effect an address exception undoes. -/
def laneNext (l t tgt : Nat) (s0 s : State) (c : Core) : State :=
  let c0 := s0.core l
  if tgt > pcMax l then laneTrap l (s0.lane l).cyc { code := eADDR, eaddr := lane24 c0.ibk.toNat tgt } s0
  else laneGoOn l t (s.setCore l { c with pc := BitVec.ofNat 16 tgt })

/-- The body of a POST: bytes of the job's frame window (R271, R377). -/
def frameBody (s : State) (jn off len : Nat) : Bytes := (List.range len).map (fun i => (s.job jn).frameByte (off + i))

/-- How the lane's run goes on after an instruction (R317, R322, R323, R377-R379). -/
def laneFinish (l : Nat) (s0 : State) (p : Prog) : State :=
  let c := p.st.core l
  let at_ := (s0.core l).pc
  if p.ovr then overrunStop l p.st
  else
    match p.nx with
    | .seq =>
      let e := endCheck at_ 5 c
      laneNext l p.t (e.2.getD (at_.toNat + 4)) s0 p.st e.1
    | .go tgt => laneNext l p.t tgt s0 p.st c
    | .skip tgt =>
      let e := endCheck at_ 5 c
      laneNext l p.t (e.2.getD tgt) s0 p.st e.1
    | .ret e => laneNext l p.t (e.tgt.toNat % 65536) s0 p.st c
    | .post st off len => endRun l p.t st (frameBody p.st (laneRun p.st l).job off len) p.st
    | .pksub off len => endPksub l p.t off len p.st
    | .trap x => laneTrap l p.t x p.st

/-- A lane issues an instruction at its PC (R308, R313, R341, R343): no effect while it has no run. -/
def issueLane (l : Nat) (pn : Bool) (pg : Nat) (op : Option COp) (s : State) : State :=
  let v := s.lane l
  match v.run with
  | none => s
  | some r =>
    let t := v.cyc
    let s := (drainTo l t 5 (s.at (r.start + t))).2
    let c := s.core l
    let s := s.setCore l { c with wbT := c.wbT.filter (fun d => decide (t ≤ d)) }
    match c.imp with
    | some i =>
      laneTrap l t { code := eACCESS, info := i.1, eaddr := i.2, epcv := false } (s.setCore l { s.core l with imp := none })
    | none =>
      let op := op.filter (fun o => o.forCore false)
      let g := c.guard pn pg
      match op with
      | some (.cu u ra rb rc imm) => laneFinish l s (runCustom l t v.budget g u ra rb rc imm s)
      | op => laneFinish l s (oneOp l t v.budget g op s)

/-- The level that the fetch of a supervisor address has (R687): none where the fetch is refused. -/
def fetchLevel (s : State) (addr : Nat) : Option Nat :=
  let bank := addr / 65536
  if bank = 0x10 then (if s.act.romrun then some 0x60 else none)
  else if bank ≤ 7 then
    match (s.actTab 2).wins.filter (fun e => e.2.en && e.2.x && decide (e.2.region = 2 ∧ e.2.lo ≤ addr / 64 ∧ addr / 64 ≤ e.2.hi)) with
    | [e] => if e.2.first = e.2.last then some e.2.first else none
    | _ => none
  else none

/-- How a transfer came about, for the level rules of R688. -/
inductive Via where
  | plain
  | entry
  | eret
  | gate (level : Nat)
  deriving DecidableEq, Repr

/-- A level change is allowed (R688). -/
def levelOk (via : Via) (from_ tgt : Nat) : Bool :=
  match via with
  | .gate l => decide (tgt = l)
  | .plain => decide (tgt = from_) || decide (from_ = 0x60 ∧ tgt = 0x61) || decide (from_ = 0x61 ∧ tgt ≥ 0x62)
  | .entry => decide (tgt = from_) || decide (from_ = 0x60 ∧ tgt = 0x61) || decide (tgt = 0x61)
  | .eret => decide (tgt = from_) || decide (from_ = 0x60 ∧ tgt = 0x61) || decide (from_ = 0x61 ∧ tgt ≥ 0x62)

/-- Move the supervisor's PC where the fetch is granted and its level allowed; none where it is refused with FETCH. -/
def supFetch (via : Via) (tgt : Nat) (s : State) : Option State :=
  let p := s.unit.sup
  match fetchLevel s tgt with
  | none => none
  | some l =>
    if levelOk via p.level l then
      let c := { p.core with ibk := BitVec.ofNat 8 (tgt / 65536), pc := BitVec.ofNat 16 tgt }
      let s := s.setSup { p with core := c, level := l }
      some (if l ≠ 0x60 then { s with act := { s.act with romrun := false } } else s)
    else none

/-- The supervisor core resets on a trap while INTRAP is 1 (R396, R740). -/
def doubleFault (s : State) : State := coreReset 1 0x0C s

/-- The supervisor takes a trap (R396): the registers written, and entry at SVEC + 0x100, or a double fault. -/
def supTrap (x : Trp) (s : State) : State :=
  let p := s.unit.sup
  if p.core.inTrap then doubleFault s
  else
    let c := { p.core with inTrap := true, ldepth := 0 }
    let s := s.setSup { p with core := c, sepc := BitVec.ofNat 24 (supPc s), ie := false, pie := p.ie
                               secause := BitVec.ofNat 32 (b2n x.epcv * 2 ^ 31 + x.info % 256 * 256 + x.code)
                               seaddr := BitVec.ofNat 24 x.eaddr, free := s.dt + 3 }
    (supFetch .entry ((p.svec.toNat + 0x100) % 2 ^ 24) s).getD (doubleFault s)

/-- A fetch that is refused (R687, R692, R693): recorded with cause FETCH, and an ACCESS trap with INFO 0x80 at the transferring
instruction. -/
def fetchRefused (tgt : Nat) (s : State) : State :=
  let kd := if tgt / 65536 = 0x10 then 0x100000 + tgt % 65536 else tgt
  let s := recordViolation s.unit.sup.level (2 * 2 ^ 32 + kd) 2 cFETCH true true (supPc s) s
  supTrap { code := eACCESS, info := 0x80, eaddr := tgt } s

/-- The interrupts that are pending and enabled (R396). -/
def supPending (s : State) : Nat := sipend s &&& s.unit.sup.sien.toNat

/-- The supervisor takes an interrupt between instructions where one is pending and IE is 1 (R396). Latched sources clear as the
interrupt is taken. -/
def supInterrupt (s : State) : State :=
  let p := s.unit.sup
  if supPending s = 0 ∨ ¬ p.ie then s
  else
    let s := { s with tamper := { s.tamper with sipend := s.tamper.sipend &&& (65535 - (supPending s &&& 0xB9)) } }
    let s := s.setSup { p with sepc := BitVec.ofNat 24 (supPc s), pie := p.ie, ie := false, wait := false
                               core := { p.core with ldepth := 0 } }
    match supFetch .entry p.svec.toNat s with
    | some t => t
    | none => fetchRefused p.svec.toNat s

/-- The supervisor can issue: its domain is READY, and no WAIT holds it (R396, R706). -/
def supRuns (s : State) : Bool := s.domReady 2 && ! s.unit.sup.wait

/-- A CALL or CALLR to a lower level marks its return entry as a gate entry (R688). -/
def markGate (lvl : Nat) (depth : Nat) (s : State) : State :=
  let p := s.unit.sup
  match p.core.rstack with
  | e :: t =>
    if p.level ≠ lvl ∧ t.length = depth then s.setSup { p with core := { p.core with rstack := { e with gate := some lvl } :: t } } else s
  | [] => s

/-- How the supervisor goes on after an instruction (R317, R395, R396, R688). `s0` is the state before it. -/
def supFinish (s0 : State) (p : Prog) : State :=
  let c0 := s0.core supCore
  let busy (s : State) : State := s.setSup { s.unit.sup with free := s0.dt + p.t }
  let move (via : Via) (tgt : Nat) (s : State) : State :=
    match supFetch via tgt s with
    | some t => markGate s0.unit.sup.level c0.rstack.length (busy t)
    | none => fetchRefused tgt s0
  let inB (o : Nat) : Nat := c0.ibk.toNat * 65536 + o
  match p.nx with
  | .seq =>
    let e := endCheck c0.pc 5 (p.st.core supCore)
    let tgt := e.2.getD (c0.pc.toNat + 4)
    if tgt > 0xFFFC then supTrap { code := eADDR, eaddr := lane24 c0.ibk.toNat tgt } s0
    else move .plain (inB tgt) (p.st.setCore supCore e.1)
  | .skip o =>
    let e := endCheck c0.pc 5 (p.st.core supCore)
    let tgt := e.2.getD o
    if tgt > 0xFFFC then supTrap { code := eADDR, eaddr := lane24 c0.ibk.toNat tgt } s0
    else move .plain (inB tgt) (p.st.setCore supCore e.1)
  | .go tgt => if 2 ^ 24 ≤ tgt then move .eret (tgt - 2 ^ 24) p.st else move .plain tgt p.st
  | .ret e => move (match e.gate with | some l => .gate l | none => .plain) e.tgt.toNat p.st
  | .trap x => supTrap x p.st
  | _ => p.st

/-- The supervisor issues an instruction at its PC (R395, R396); an enabled interrupt that is pending is taken first. No effect while
it cannot issue. -/
def issueSup (pn : Bool) (pg : Nat) (op : Option COp) (s : State) : State :=
  if ¬ supRuns s then s
  else
    let s := supInterrupt (s.at s.unit.sup.free)
    let c := s.core supCore
    match c.imp with
    | some i => supTrap { code := eACCESS, info := i.1, eaddr := i.2, epcv := false } (s.setCore supCore { c with imp := none })
    | none => supFinish s (oneOp supCore 0 (2 ^ 64) (c.guard pn pg) (op.filter (fun o => o.forCore true)) s)

/-- A core issues an instruction whose guard fields and operation are given; none is an illegal word. -/
def issueOp (core : Nat) (pn : Bool) (pg : Nat) (op : Option COp) (s : State) : State :=
  if core = supCore then issueSup pn pg op s else issueLane core pn pg op s

/-- A core issues the instruction of a command. -/
def issue (i : Issue) (op : COp) (s : State) : State := issueOp i.core.val i.pn i.pg.val (some op) s

/-- The lane can take up the entry at the head of its queue (R191): released, and the lane in service with its quad READY. -/
def headReady (s : State) (l : Nat) : Option QEnt :=
  let v := s.lane l
  if v.run.isSome ∨ ¬ laneInService s l ∨ ¬ s.domReady (11 + laneQuad l) then none
  else
    match v.queue.find? (fun e => decide (e.st = 0)) with
    | none => none
    | some e =>
      let j := s.job e.job
      let ready := if e.fin then decide (j.stage = 3)
        else decide (j.stage = 0) && j.bodyIn && (List.range 4).all (fun k =>
          match Tab.look none j.refs k with
          | some i => decide ((Tab.look {} (s.quad (laneQuad l)).cache i).st ≠ .filling)
          | none => true)
      if ready then some e else none

/-- The core at the first instruction of a run (R273, R310, R311). -/
def startCore (bankB : Bool) (entry : Nat) : Core := { pc := BitVec.ofNat 16 entry, ibk := if bankB then 0x21 else 0x20 }

/-- CARRIED at the start of a run (R284, R301): PEND as it stood before this cycle, recorded in another epoch. -/
def carriedBits (v : Lane) (fresh epoch : Nat) : Nat :=
  (List.range 4).foldl (fun n k => if bit v.pend k ∧ ! bit fresh (4 + k) ∧ (v.timer k).epoch ≠ epoch then n + 2 ^ k else n) 0

/-- A run starts at the head of a lane's queue (R191, R273, R274, R284, R394). -/
def runStart (l : Nat) (s : State) : State :=
  match headReady s l with
  | none => s
  | some e =>
    let j := s.job e.job
    let s := if e.fin then s.at j.pkAt else s
    let v := s.lane l
    let v := { v with run := some ⟨e.job, e.fin, s.dt, s.dt + e.cost⟩, runB := decide (j.bank = 1), cyc := 0, budget := e.cost
                      carried := carriedBits v (s.freshBits (tevtKey l)) j.epoch
                      queue := v.queue.map (fun x => if x.job = e.job ∧ x.fin = e.fin then { x with st := 1 } else x) }
    let s := s.setLane l v
    let s := s.setCore l (startCore v.runB (imgU (runImage s l) (if e.fin then 26 else 24) 2))
    let s := s.setJob e.job { j with stage := if e.fin then 4 else 1 }
    let s := s.bump (0xB400 + l) 1
    if e.fin then s.bump (0xB400 + l) 3 else s

end Sys2Proof.Machine
end

