-- ==== Sys2Proof/Machine/CloveRows.lean ====
section
/-!
DEFINITION. The core's instructions (R331-R339): each command is one instruction, with the core and guard that issue it.
-/
namespace Sys2Proof.Machine

/-- NOP (R339). -/
def execNop (i : Issue) (s : State) : Res := ok (issue i .nop s)

/-- TRAP (R339, R340). -/
def execTrap (i : Issue) (info : Byte) (s : State) : Res := ok (issue i (.trap info.toNat) s)

/-- WBSYNC (R319, R339). -/
def execWbsync (i : Issue) (s : State) : Res := ok (issue i .wbsync s)

/-- MFC (R311, R312, R339). -/
def execMfc (i : Issue) (d : Fin 16) (cr : Fin 64) (s : State) : Res := ok (issue i (.cr false d.val cr.val) s)

/-- MTC (R311, R312, R339, R347). -/
def execMtc (i : Issue) (d : Fin 16) (cr : Fin 64) (s : State) : Res := ok (issue i (.cr true d.val cr.val) s)

/-- ADD (R331, R332). -/
def execAdd (i : Issue) (rd rs1 rs2 : Fin 16) (s : State) : Res := ok (issue i (.alu 0 rd.val rs1.val rs2.val 0) s)

/-- SUB (R331, R332). -/
def execSub (i : Issue) (rd rs1 rs2 : Fin 16) (s : State) : Res := ok (issue i (.alu 1 rd.val rs1.val rs2.val 0) s)

/-- ADDC (R331, R332). -/
def execAddc (i : Issue) (rd rs1 rs2 : Fin 16) (s : State) : Res := ok (issue i (.alu 2 rd.val rs1.val rs2.val 0) s)

/-- SUBB (R331, R332). -/
def execSubb (i : Issue) (rd rs1 rs2 : Fin 16) (s : State) : Res := ok (issue i (.alu 3 rd.val rs1.val rs2.val 0) s)

/-- AND (R331). -/
def execAnd (i : Issue) (rd rs1 rs2 : Fin 16) (s : State) : Res := ok (issue i (.alu 4 rd.val rs1.val rs2.val 0) s)

/-- OR (R331). -/
def execOr (i : Issue) (rd rs1 rs2 : Fin 16) (s : State) : Res := ok (issue i (.alu 5 rd.val rs1.val rs2.val 0) s)

/-- XOR (R331). -/
def execXor (i : Issue) (rd rs1 rs2 : Fin 16) (s : State) : Res := ok (issue i (.alu 6 rd.val rs1.val rs2.val 0) s)

/-- ANDN (R331). -/
def execAndn (i : Issue) (rd rs1 rs2 : Fin 16) (s : State) : Res := ok (issue i (.alu 7 rd.val rs1.val rs2.val 0) s)

/-- SLL (R331). -/
def execSll (i : Issue) (rd rs1 rs2 : Fin 16) (s : State) : Res := ok (issue i (.alu 8 rd.val rs1.val rs2.val 0) s)

/-- SRL (R331). -/
def execSrl (i : Issue) (rd rs1 rs2 : Fin 16) (s : State) : Res := ok (issue i (.alu 9 rd.val rs1.val rs2.val 0) s)

/-- SRA (R331). -/
def execSra (i : Issue) (rd rs1 rs2 : Fin 16) (s : State) : Res := ok (issue i (.alu 10 rd.val rs1.val rs2.val 0) s)

/-- ROR (R331). -/
def execRor (i : Issue) (rd rs1 rs2 : Fin 16) (s : State) : Res := ok (issue i (.alu 11 rd.val rs1.val rs2.val 0) s)

/-- MIN (R331). -/
def execMin (i : Issue) (rd rs1 rs2 : Fin 16) (s : State) : Res := ok (issue i (.alu 12 rd.val rs1.val rs2.val 0) s)

/-- MAX (R331). -/
def execMax (i : Issue) (rd rs1 rs2 : Fin 16) (s : State) : Res := ok (issue i (.alu 13 rd.val rs1.val rs2.val 0) s)

/-- MINU (R331). -/
def execMinu (i : Issue) (rd rs1 rs2 : Fin 16) (s : State) : Res := ok (issue i (.alu 14 rd.val rs1.val rs2.val 0) s)

/-- MAXU (R331). -/
def execMaxu (i : Issue) (rd rs1 rs2 : Fin 16) (s : State) : Res := ok (issue i (.alu 15 rd.val rs1.val rs2.val 0) s)

/-- MUL (R331). -/
def execMul (i : Issue) (rd rs1 rs2 : Fin 16) (s : State) : Res := ok (issue i (.alu 16 rd.val rs1.val rs2.val 0) s)

/-- MULH (R331). -/
def execMulh (i : Issue) (rd rs1 rs2 : Fin 16) (s : State) : Res := ok (issue i (.alu 17 rd.val rs1.val rs2.val 0) s)

/-- MULHU (R331). -/
def execMulhu (i : Issue) (rd rs1 rs2 : Fin 16) (s : State) : Res := ok (issue i (.alu 18 rd.val rs1.val rs2.val 0) s)

/-- DIVU (R331). -/
def execDivu (i : Issue) (rd rs1 rs2 : Fin 16) (s : State) : Res := ok (issue i (.alu 19 rd.val rs1.val rs2.val 0) s)

/-- REMU (R331). -/
def execRemu (i : Issue) (rd rs1 rs2 : Fin 16) (s : State) : Res := ok (issue i (.alu 20 rd.val rs1.val rs2.val 0) s)

/-- CLZ (R331). -/
def execClz (i : Issue) (rd rs1 : Fin 16) (s : State) : Res := ok (issue i (.alu 21 rd.val rs1.val 0 0) s)

/-- POPC (R331). -/
def execPopc (i : Issue) (rd rs1 : Fin 16) (s : State) : Res := ok (issue i (.alu 22 rd.val rs1.val 0 0) s)

/-- BSWAP (R331). -/
def execBswap (i : Issue) (rd rs1 : Fin 16) (s : State) : Res := ok (issue i (.alu 23 rd.val rs1.val 0 0) s)

/-- SEL (R331). -/
def execSel (i : Issue) (rd rs1 rs2 : Fin 16) (ps : Fin 8) (s : State) : Res :=
  ok (issue i (.alu 0x18 rd.val rs1.val rs2.val ps.val) s)

/-- MOV (R331). -/
def execMov (i : Issue) (rd rs1 : Fin 16) (s : State) : Res := ok (issue i (.alu 0x19 rd.val rs1.val 0 0) s)

/-- ADDI (R333). -/
def execAddi (i : Issue) (rd rs1 : Fin 16) (imm : BitVec 14) (s : State) : Res :=
  ok (issue i (.immOp 0 rd.val rs1.val imm.toNat) s)

/-- ANDI (R333). -/
def execAndi (i : Issue) (rd rs1 : Fin 16) (imm : BitVec 14) (s : State) : Res :=
  ok (issue i (.immOp 1 rd.val rs1.val imm.toNat) s)

/-- ORI (R333). -/
def execOri (i : Issue) (rd rs1 : Fin 16) (imm : BitVec 14) (s : State) : Res :=
  ok (issue i (.immOp 2 rd.val rs1.val imm.toNat) s)

/-- XORI (R333). -/
def execXori (i : Issue) (rd rs1 : Fin 16) (imm : BitVec 14) (s : State) : Res :=
  ok (issue i (.immOp 3 rd.val rs1.val imm.toNat) s)

/-- SHI.SLL (R333). -/
def execShiSll (i : Issue) (rd rs1 : Fin 16) (pos : Fin 32) (s : State) : Res :=
  ok (issue i (.shi 0 rd.val rs1.val pos.val 0) s)

/-- SHI.SRL (R333). -/
def execShiSrl (i : Issue) (rd rs1 : Fin 16) (pos : Fin 32) (s : State) : Res :=
  ok (issue i (.shi 1 rd.val rs1.val pos.val 0) s)

/-- SHI.SRA (R333). -/
def execShiSra (i : Issue) (rd rs1 : Fin 16) (pos : Fin 32) (s : State) : Res :=
  ok (issue i (.shi 2 rd.val rs1.val pos.val 0) s)

/-- SHI.ROR (R333). -/
def execShiRor (i : Issue) (rd rs1 : Fin 16) (pos : Fin 32) (s : State) : Res :=
  ok (issue i (.shi 3 rd.val rs1.val pos.val 0) s)

/-- SHI.EXTU (R333). -/
def execShiExtu (i : Issue) (rd rs1 : Fin 16) (pos wm1 : Fin 32) (s : State) : Res :=
  ok (issue i (.shi 4 rd.val rs1.val pos.val wm1.val) s)

/-- SHI.EXTS (R333). -/
def execShiExts (i : Issue) (rd rs1 : Fin 16) (pos wm1 : Fin 32) (s : State) : Res :=
  ok (issue i (.shi 5 rd.val rs1.val pos.val wm1.val) s)

/-- SHI.INS (R333). -/
def execShiIns (i : Issue) (rd rs1 : Fin 16) (pos wm1 : Fin 32) (s : State) : Res :=
  ok (issue i (.shi 6 rd.val rs1.val pos.val wm1.val) s)

/-- MOVI (R333). -/
def execMovi (i : Issue) (rd : Fin 16) (imm : BitVec 18) (s : State) : Res := ok (issue i (.movi rd.val imm.toNat) s)

/-- MOVH (R333). -/
def execMovh (i : Issue) (rd : Fin 16) (imm : BitVec 16) (s : State) : Res := ok (issue i (.movh rd.val imm.toNat) s)

/-- CMP (R334). -/
def execCmp (i : Issue) (pd pdn : Fin 8) (cond rs1 rs2 : Fin 16) (s : State) : Res :=
  ok (issue i (.cmp pd.val pdn.val cond.val rs1.val rs2.val) s)

/-- CMPI (R334). -/
def execCmpi (i : Issue) (pd pdn : Fin 8) (cond rs1 : Fin 16) (imm : Byte) (s : State) : Res :=
  ok (issue i (.cmpi pd.val pdn.val cond.val rs1.val imm.toNat) s)

/-- PLOG.AND (R334). -/
def execPlogAnd (i : Issue) (pd pa pb : Fin 8) (na nb : Bool) (s : State) : Res :=
  ok (issue i (.plog 0 pd.val pa.val pb.val na nb) s)

/-- PLOG.OR (R334). -/
def execPlogOr (i : Issue) (pd pa pb : Fin 8) (na nb : Bool) (s : State) : Res :=
  ok (issue i (.plog 1 pd.val pa.val pb.val na nb) s)

/-- PLOG.XOR (R334). -/
def execPlogXor (i : Issue) (pd pa pb : Fin 8) (na nb : Bool) (s : State) : Res :=
  ok (issue i (.plog 2 pd.val pa.val pb.val na nb) s)

/-- PLOG.MOV (R334). -/
def execPlogMov (i : Issue) (pd pa : Fin 8) (na : Bool) (s : State) : Res :=
  ok (issue i (.plog 3 pd.val pa.val 0 na false) s)

/-- LD (R315-R320, R335, R341). -/
def execLd (i : Issue) (d : Fin 16) (a : Fin 8) (sz : Fin 4) (bsel : Bool) (mode : Fin 4) (sx : Bool) (off : BitVec 9) (s : State) : Res :=
  ok (issue i (.ld d.val a.val sz.val bsel mode.val sx off.toNat) s)

/-- ST (R315-R320, R335, R341). -/
def execSt (i : Issue) (d : Fin 16) (a : Fin 8) (sz : Fin 4) (bsel : Bool) (mode : Fin 4) (off : BitVec 9) (s : State) : Res :=
  ok (issue i (.st d.val a.val sz.val bsel mode.val off.toNat) s)

/-- AI (R336). -/
def execAi (i : Issue) (a : Fin 8) (imm : BitVec 16) (s : State) : Res := ok (issue i (.aop 0 a.val imm.toNat) s)

/-- AADDI (R336, R348). -/
def execAaddi (i : Issue) (a : Fin 8) (imm : BitVec 16) (s : State) : Res := ok (issue i (.aop 1 a.val imm.toNat) s)

/-- AMOV (R336). -/
def execAmov (i : Issue) (a : Fin 8) (ds : Fin 16) (s : State) : Res := ok (issue i (.aop 2 a.val ds.val) s)

/-- AREAD (R336). -/
def execAread (i : Issue) (a : Fin 8) (dd : Fin 16) (s : State) : Res := ok (issue i (.aop 3 a.val dd.val) s)

/-- AADD (R336). -/
def execAadd (i : Issue) (a : Fin 8) (ds : Fin 16) (s : State) : Res := ok (issue i (.aop 4 a.val ds.val) s)

/-- BR (R323, R337). -/
def execBr (i : Issue) (off : BitVec 16) (s : State) : Res := ok (issue i (.br off.toNat) s)

/-- CALL (R325, R337). -/
def execCall (i : Issue) (off : BitVec 16) (s : State) : Res := ok (issue i (.call off.toNat) s)

/-- JR (R323, R337). -/
def execJr (i : Issue) (ds : Fin 16) (s : State) : Res := ok (issue i (.jmp 0 ds.val) s)

/-- CALLR (R325, R337). -/
def execCallr (i : Issue) (ds : Fin 16) (s : State) : Res := ok (issue i (.jmp 1 ds.val) s)

/-- RET (R323, R325, R337). -/
def execRet (i : Issue) (s : State) : Res := ok (issue i (.jmp 2 0) s)

/-- LOOP (R314, R321, R337). -/
def execLoop (i : Issue) (ds : Fin 16) (off : BitVec 16) (s : State) : Res := ok (issue i (.loop ds.val off.toNat) s)

/-- LOOPI (R314, R321, R337). -/
def execLoopi (i : Issue) (count : BitVec 12) (off : BitVec 10) (s : State) : Res :=
  ok (issue i (.loopi count.toNat off.toNat) s)

/-- PUSH (R326, R337). -/
def execPush (i : Issue) (r : Fin 16) (s : State) : Res := ok (issue i (.stk 0 r.val) s)

/-- POP (R326, R337). -/
def execPop (i : Issue) (r : Fin 16) (s : State) : Res := ok (issue i (.stk 1 r.val) s)

/-- PUSHA (R326, R337, R349). -/
def execPusha (i : Issue) (r : Fin 8) (s : State) : Res := ok (issue i (.stk 2 r.val) s)

/-- POPA (R326, R337, R349). -/
def execPopa (i : Issue) (r : Fin 8) (s : State) : Res := ok (issue i (.stk 3 r.val) s)

/-- PUSHM (R326, R337). -/
def execPushm (i : Issue) (mask : BitVec 16) (s : State) : Res := ok (issue i (.stkm 4 mask.toNat) s)

/-- POPM (R326, R337). -/
def execPopm (i : Issue) (mask : BitVec 16) (s : State) : Res := ok (issue i (.stkm 5 mask.toNat) s)

/-- MAC (R338). -/
def execMac (i : Issue) (ac : Fin 4) (ds dt : Fin 16) (s : State) : Res :=
  ok (issue i (.mac 0 ac.val ds.val dt.val 0) s)

/-- MACU (R338). -/
def execMacu (i : Issue) (ac : Fin 4) (ds dt : Fin 16) (s : State) : Res :=
  ok (issue i (.mac 1 ac.val ds.val dt.val 0) s)

/-- MSU (R338). -/
def execMsu (i : Issue) (ac : Fin 4) (ds dt : Fin 16) (s : State) : Res :=
  ok (issue i (.mac 2 ac.val ds.val dt.val 0) s)

/-- ACLR (R338). -/
def execAclr (i : Issue) (ac : Fin 4) (s : State) : Res := ok (issue i (.mac 3 ac.val 0 0 0) s)

/-- ACSRA (R338). -/
def execAcsra (i : Issue) (ac : Fin 4) (n : BitVec 7) (s : State) : Res := ok (issue i (.mac 4 ac.val 0 0 n.toNat) s)

/-- ACRD (R338). -/
def execAcrd (i : Issue) (ac : Fin 4) (dd : Fin 16) (part : BitVec 9) (s : State) : Res :=
  ok (issue i (.mac 5 ac.val dd.val 0 part.toNat) s)

/-- ACWR (R338). -/
def execAcwr (i : Issue) (ac : Fin 4) (ds : Fin 16) (s : State) : Res := ok (issue i (.mac 6 ac.val ds.val 0 0) s)

/-- ACADD (R338). -/
def execAcadd (i : Issue) (ac : Fin 4) (ds : Fin 16) (s : State) : Res := ok (issue i (.mac 7 ac.val ds.val 0 0) s)

end Sys2Proof.Machine
end

