-- ==== Sys2Proof/Machine/CloveUnitRows.lean ====
section
/-!
DEFINITION. The instructions of the cluster units, keys, assists and run endings, the supervisor's own instructions, and the events of a run (R356-R385, R396).
-/
namespace Sys2Proof.Machine

/-- AES ECB.E (R362-R370). -/
def execAesEcbE (i : Issue) (k : Fin 4) (sa : Fin 8) (sb : Bool) (da : Fin 8) (db : Bool) (dn : Fin 16) (s : State) : Res :=
  ok (issue i (.cry false 0 k.val (sa.val, sb) (da.val, db) dn.val 0) s)

/-- AES ECB.D (R362-R370). -/
def execAesEcbD (i : Issue) (k : Fin 4) (sa : Fin 8) (sb : Bool) (da : Fin 8) (db : Bool) (dn : Fin 16) (s : State) : Res :=
  ok (issue i (.cry false 1 k.val (sa.val, sb) (da.val, db) dn.val 0) s)

/-- AES CBC.E (R362-R370). -/
def execAesCbcE (i : Issue) (k : Fin 4) (sa : Fin 8) (sb : Bool) (da : Fin 8) (db : Bool) (dn : Fin 16) (s : State) : Res :=
  ok (issue i (.cry false 2 k.val (sa.val, sb) (da.val, db) dn.val 0) s)

/-- AES CBC.D (R362-R370). -/
def execAesCbcD (i : Issue) (k : Fin 4) (sa : Fin 8) (sb : Bool) (da : Fin 8) (db : Bool) (dn : Fin 16) (s : State) : Res :=
  ok (issue i (.cry false 3 k.val (sa.val, sb) (da.val, db) dn.val 0) s)

/-- AES CTR (R362-R370). -/
def execAesCtr (i : Issue) (k : Fin 4) (sa : Fin 8) (sb : Bool) (da : Fin 8) (db : Bool) (dn : Fin 16) (s : State) : Res :=
  ok (issue i (.cry false 4 k.val (sa.val, sb) (da.val, db) dn.val 0) s)

/-- AES CMAC.G (R362-R370). -/
def execAesCmacG (i : Issue) (k : Fin 4) (sa : Fin 8) (sb : Bool) (da : Fin 8) (db : Bool) (dn : Fin 16) (s : State) : Res :=
  ok (issue i (.cry false 5 k.val (sa.val, sb) (da.val, db) dn.val 0) s)

/-- AES CMAC.V (R362-R370). -/
def execAesCmacV (i : Issue) (k : Fin 4) (sa : Fin 8) (sb : Bool) (da : Fin 8) (db : Bool) (dn : Fin 16) (pd : Fin 8) (s : State) : Res :=
  ok (issue i (.cry false 6 k.val (sa.val, sb) (da.val, db) dn.val pd.val) s)

/-- AES GHKEY (R364, R365). -/
def execAesGhkey (i : Issue) (k : Fin 4) (s : State) : Res :=
  ok (issue i (.cry false 7 k.val (0, false) (0, false) 0 0) s)

/-- TDES ECB.E (R362-R370). -/
def execTdesEcbE (i : Issue) (k : Fin 4) (sa : Fin 8) (sb : Bool) (da : Fin 8) (db : Bool) (dn : Fin 16) (s : State) : Res :=
  ok (issue i (.cry true 0 k.val (sa.val, sb) (da.val, db) dn.val 0) s)

/-- TDES ECB.D (R362-R370). -/
def execTdesEcbD (i : Issue) (k : Fin 4) (sa : Fin 8) (sb : Bool) (da : Fin 8) (db : Bool) (dn : Fin 16) (s : State) : Res :=
  ok (issue i (.cry true 1 k.val (sa.val, sb) (da.val, db) dn.val 0) s)

/-- TDES CBC.E (R362-R370). -/
def execTdesCbcE (i : Issue) (k : Fin 4) (sa : Fin 8) (sb : Bool) (da : Fin 8) (db : Bool) (dn : Fin 16) (s : State) : Res :=
  ok (issue i (.cry true 2 k.val (sa.val, sb) (da.val, db) dn.val 0) s)

/-- TDES CBC.D (R362-R370). -/
def execTdesCbcD (i : Issue) (k : Fin 4) (sa : Fin 8) (sb : Bool) (da : Fin 8) (db : Bool) (dn : Fin 16) (s : State) : Res :=
  ok (issue i (.cry true 3 k.val (sa.val, sb) (da.val, db) dn.val 0) s)

/-- TDES MAC1.G (R362-R370). -/
def execTdesMac1G (i : Issue) (k : Fin 4) (sa : Fin 8) (sb : Bool) (da : Fin 8) (db : Bool) (dn : Fin 16) (s : State) : Res :=
  ok (issue i (.cry true 4 k.val (sa.val, sb) (da.val, db) dn.val 0) s)

/-- TDES MAC1.V (R362-R370). -/
def execTdesMac1V (i : Issue) (k : Fin 4) (sa : Fin 8) (sb : Bool) (da : Fin 8) (db : Bool) (dn : Fin 16) (pd : Fin 8) (s : State) : Res :=
  ok (issue i (.cry true 5 k.val (sa.val, sb) (da.val, db) dn.val pd.val) s)

/-- TDES MAC3.G (R362-R370, R498). -/
def execTdesMac3G (i : Issue) (k : Fin 4) (sa : Fin 8) (sb : Bool) (da : Fin 8) (db : Bool) (dn : Fin 16) (s : State) : Res :=
  ok (issue i (.cry true 6 k.val (sa.val, sb) (da.val, db) dn.val 0) s)

/-- TDES MAC3.V (R362-R370, R498). -/
def execTdesMac3V (i : Issue) (k : Fin 4) (sa : Fin 8) (sb : Bool) (da : Fin 8) (db : Bool) (dn : Fin 16) (pd : Fin 8) (s : State) : Res :=
  ok (issue i (.cry true 7 k.val (sa.val, sb) (da.val, db) dn.val pd.val) s)

/-- HASH SHA256 (R367, R369, R370). -/
def execHashSha256 (i : Issue) (first last : Bool) (sa : Fin 8) (sb : Bool) (da : Fin 8) (db : Bool) (dn : Fin 16) (s : State) : Res :=
  ok (issue i (.hash 0 first last (sa.val, sb) (da.val, db) dn.val) s)

/-- HASH SHA384 (R367, R369, R370). -/
def execHashSha384 (i : Issue) (first last : Bool) (sa : Fin 8) (sb : Bool) (da : Fin 8) (db : Bool) (dn : Fin 16) (s : State) : Res :=
  ok (issue i (.hash 1 first last (sa.val, sb) (da.val, db) dn.val) s)

/-- HASH SHA512 (R367, R369, R370). -/
def execHashSha512 (i : Issue) (first last : Bool) (sa : Fin 8) (sb : Bool) (da : Fin 8) (db : Bool) (dn : Fin 16) (s : State) : Res :=
  ok (issue i (.hash 2 first last (sa.val, sb) (da.val, db) dn.val) s)

/-- HASH GHASH (R367, R369, R370). -/
def execHashGhash (i : Issue) (first last : Bool) (sa : Fin 8) (sb : Bool) (da : Fin 8) (db : Bool) (dn : Fin 16) (s : State) : Res :=
  ok (issue i (.hash 3 first last (sa.val, sb) (da.val, db) dn.val) s)

/-- SAF TRANSLATE (R372, R373, R483-R494). -/
def execSafTranslate (i : Issue) (ki ko : Fin 4) (sa : Fin 8) (sb : Bool) (da : Fin 8) (db : Bool) (dx : Fin 16) (s : State) : Res :=
  ok (issue i (.saf 1 ki.val ko.val (sa.val, sb) (da.val, db) dx.val) s)

/-- SAF OFS.VERIFY (R372, R373, R483-R494). -/
def execSafOfsVerify (i : Issue) (ki ko : Fin 4) (sa : Fin 8) (sb : Bool) (da : Fin 8) (db : Bool) (dx : Fin 16) (s : State) : Res :=
  ok (issue i (.saf 2 ki.val ko.val (sa.val, sb) (da.val, db) dx.val) s)

/-- SAF OFS.GEN (R372, R373, R483-R494). -/
def execSafOfsGen (i : Issue) (ki ko : Fin 4) (sa : Fin 8) (sb : Bool) (da : Fin 8) (db : Bool) (dx : Fin 16) (s : State) : Res :=
  ok (issue i (.saf 3 ki.val ko.val (sa.val, sb) (da.val, db) dx.val) s)

/-- SAF PVV.VERIFY (R372, R373, R483-R494). -/
def execSafPvvVerify (i : Issue) (ki ko : Fin 4) (sa : Fin 8) (sb : Bool) (da : Fin 8) (db : Bool) (dx : Fin 16) (s : State) : Res :=
  ok (issue i (.saf 4 ki.val ko.val (sa.val, sb) (da.val, db) dx.val) s)

/-- SAF PVV.GEN (R372, R373, R483-R494). -/
def execSafPvvGen (i : Issue) (ki ko : Fin 4) (sa : Fin 8) (sb : Bool) (da : Fin 8) (db : Bool) (dx : Fin 16) (s : State) : Res :=
  ok (issue i (.saf 5 ki.val ko.val (sa.val, sb) (da.val, db) dx.val) s)

/-- SAF CVV.VERIFY (R372, R373, R483-R494). -/
def execSafCvvVerify (i : Issue) (ki ko : Fin 4) (sa : Fin 8) (sb : Bool) (da : Fin 8) (db : Bool) (dx : Fin 16) (s : State) : Res :=
  ok (issue i (.saf 6 ki.val ko.val (sa.val, sb) (da.val, db) dx.val) s)

/-- SAF CVV.GEN (R372, R373, R483-R494). -/
def execSafCvvGen (i : Issue) (ki ko : Fin 4) (sa : Fin 8) (sb : Bool) (da : Fin 8) (db : Bool) (dx : Fin 16) (s : State) : Res :=
  ok (issue i (.saf 7 ki.val ko.val (sa.val, sb) (da.val, db) dx.val) s)

/-- KCHK (R374). -/
def execKchk (i : Issue) (pd pdn : Fin 8) (k : Fin 4) (s : State) : Res := ok (issue i (.kchk pd.val pdn.val k.val) s)

/-- MCPY (R375, R376). -/
def execMcpy (i : Issue) (sa : Fin 8) (sb : Bool) (da : Fin 8) (db : Bool) (dn : Fin 16) (s : State) : Res :=
  ok (issue i (.msg 0 (sa.val, sb) (da.val, db) dn.val 0) s)

/-- MFILL (R375). -/
def execMfill (i : Issue) (da : Fin 8) (db : Bool) (dn : Fin 16) (s : State) : Res :=
  ok (issue i (.msg 1 (0, false) (da.val, db) dn.val 0) s)

/-- MXOR (R375, R376). -/
def execMxor (i : Issue) (sa : Fin 8) (sb : Bool) (da : Fin 8) (db : Bool) (dn : Fin 16) (s : State) : Res :=
  ok (issue i (.msg 2 (sa.val, sb) (da.val, db) dn.val 0) s)

/-- MCMP (R375, R376). -/
def execMcmp (i : Issue) (sa : Fin 8) (sb : Bool) (da : Fin 8) (db : Bool) (dn : Fin 16) (pd : Fin 8) (s : State) : Res :=
  ok (issue i (.msg 3 (sa.val, sb) (da.val, db) dn.val pd.val) s)

/-- HEXD (R375, R376). -/
def execHexd (i : Issue) (sa : Fin 8) (sb : Bool) (da : Fin 8) (db : Bool) (dn : Fin 16) (pd : Fin 8) (s : State) : Res :=
  ok (issue i (.msg 4 (sa.val, sb) (da.val, db) dn.val pd.val) s)

/-- HEXE (R375, R376). -/
def execHexe (i : Issue) (sa : Fin 8) (sb : Bool) (da : Fin 8) (db : Bool) (dn : Fin 16) (s : State) : Res :=
  ok (issue i (.msg 5 (sa.val, sb) (da.val, db) dn.val 0) s)

/-- BCDP (R375, R376). -/
def execBcdp (i : Issue) (sa : Fin 8) (sb : Bool) (da : Fin 8) (db : Bool) (dn : Fin 16) (pd : Fin 8) (s : State) : Res :=
  ok (issue i (.msg 6 (sa.val, sb) (da.val, db) dn.val pd.val) s)

/-- BCDU (R375, R376). -/
def execBcdu (i : Issue) (sa : Fin 8) (sb : Bool) (da : Fin 8) (db : Bool) (dn : Fin 16) (pd : Fin 8) (s : State) : Res :=
  ok (issue i (.msg 7 (sa.val, sb) (da.val, db) dn.val pd.val) s)

/-- PKSUB (R378, R406). -/
def execPksub (i : Issue) (sa : Fin 8) (sb : Bool) (dn : Fin 16) (s : State) : Res :=
  ok (issue i (.pksub (sa.val, sb) dn.val) s)

/-- POST (R235, R377, R379). -/
def execPost (i : Issue) (ds dt : Fin 16) (s : State) : Res := ok (issue i (.post ds.val dt.val) s)

/-- CUSTOM_OPCODE (R382-R385, R401). -/
def execCustomOpcode (i : Issue) (u ra rb rc : Fin 16) (imm : BitVec 10) (s : State) : Res :=
  ok (issue i (.cu u.val ra.val rb.val rc.val imm.toNat) s)

/-- ERET (R396, R688). -/
def execEret (i : Issue) (s : State) : Res := ok (issue i .eret s)

/-- WAIT (R396). -/
def execWait (i : Issue) (s : State) : Res := ok (issue i .wait s)

/-- WAIT_RESUME (R396): a pending enabled interrupt lets the supervisor issue again. -/
def execWaitResume (s : State) : Res :=
  if s.unit.sup.wait ∧ supPending s ≠ 0 then ok (s.setSup { s.unit.sup with wait := false }) else ok s

/-- SUPERVISOR_INTERRUPT (R396): an event of a source sets its SIPEND bit, and the supervisor takes an enabled interrupt between
instructions. -/
def execSupervisorInterrupt (src : Option (Fin 8)) (s : State) : Res :=
  let s := match src with
    | some b => { s with tamper := { s.tamper with sipend := s.tamper.sipend ||| (2 ^ b.val &&& 0xB9) } }
    | none => s
  if s.domReady 2 then ok (supInterrupt s) else ok s

/-- ILLEGAL_WORD (R330, R341): a core issues a word; a word that is illegal raises ILLEGAL where its guard is 1. -/
def execIllegalWord (core : Fin 65) (w : Word) (s : State) : Res :=
  let d := decodeWord w.toNat
  ok (issueOp core.val d.1 d.2.1 d.2.2 s)

/-- RUN_START (R191, R273, R274). -/
def execRunStart (lane : Fin 64) (s : State) : Res := ok (runStart lane.val s)

/-- OVERRUN_STOP (R209, R210, R352, R390). -/
def execOverrunStop (lane : Fin 64) (s : State) : Res :=
  if (s.lane lane.val).run.isSome then ok (overrunStop lane.val s) else ok s

/-- WRITE_BUFFER_ENTRY_COMPLETE (R318, R343): the oldest entry of a lane's buffer completes its access. -/
def execWriteBufferEntryComplete (lane : Fin 64) (s : State) : Res :=
  match (s.core lane.val).wb with
  | [] => ok s
  | e :: _ => ok (completeOldest lane.val (s.at ((laneRun s lane.val).start + e.done))).2

/-- SAFFRON_DRBG_RESEED (R482, R514): after 2^20 generate requests. -/
def execSaffronDrbgReseed (q : Fin 16) (s : State) : Res :=
  let v := s.quad q.val
  if v.sgen < 2 ^ 20 then ok s else ok ((s.setQuad q.val { v with sgen := 0 }).bump 0xB600 9)

end Sys2Proof.Machine
end

