-- ==== Sys2Proof/Machine/KeyDie.lean ====
section
/-!
DEFINITION. The key-die steps of BRINGUP (R410-R417, R576, R591, R592, R754).
-/
namespace Sys2Proof.Machine

/-- The owner seed in the fuses, and its check word (R591, R786). -/
def ownerSeed (s : State) : Bytes := (List.range 8).flatMap (fun i => beBytes (s.secured (92 + i)) 4)
def seedChecked (s : State) : Bool := decide (beBytes (s.secured 100) 4 = (sha256 (ascii "SV6400 SEED" ++ ownerSeed s)).take 4)

/-- The root of the life-cycle state (R410), and its code in KEY_ROOT. -/
def rootOf (s : State) : Nat × Bytes :=
  let k (ctx : Bytes) : Bytes := kdfCtr pufKey (ascii "SV6400 ROOT") ctx 256
  match s.power.lcs with
  | .blank => (1, testRoot)
  | .vendor => (2, k (1 :: serial s))
  | .owned => (3, k (2 :: serial s ++ ownerSeed s))
  | .fa => (4, k (3 :: serial s))
  | .retired => (0, [])

/-- The scalar of the attestation identity key (R414). -/
def idkScalar (s : State) : Nat :=
  scalarOf p384.n (kdfCtr (if s.power.lcs = .blank then testRoot else pufKey) (ascii "SV6400 IDENT") (serial s) 512)

/-- No root (R412): what its loss leaves of credentials and group. -/
def rootFail (s : State) : State :=
  let s := (List.range 64).foldl (fun s i => s.setEnt (0xA010 + i) 1 []) s
  { s with key := { s.key with root := [], rootSt := 5 }, grp := { s.grp with id := [], ros := [] } }

/-- Step 2 (R411-R413): what the regeneration reports, and the root; in BLANK the test root needs none. -/
def rootStep (r : KeyDieResult) (s : State) : State :=
  let att := r.attempts.val
  if s.power.lcs = .blank then { s with key := { s.key with rootSt := 1, root := testRoot } }
  else
    let k := { s.key with pufDone := r.good, pufFail := ! r.good, pufAttempts := att, pufCorrected := if r.good then r.corrected.toNat else 0 }
    let s := { s with key := k }
    let s := if r.rewrite then logEvent 0x12 att 0 (1 - r.copy.val) s else s
    if r.good then
      let v := rootOf s
      { s with key := { s.key with rootSt := v.1, root := v.2 } }
    else
      let n := s.num 0x5001 3 + 1
      rootFail (setKept 0x5001 3 (beBytes n 4) (logEvent 0x11 att 0 0 s))

/-- Step 3 (R415, R662, R780): a cleared salt takes a new SALTGEN and a new value; false where MRAM allows none. -/
def saltStep (s : State) : Bool × State :=
  if s.tamper.saltSet then (true, s)
  else
    let guarded := s.tamper.guardEv || s.log.guardQ.any (fun e => decide (e.ty = 2))
    let r := ctrIncrement 0 0 s
    let s := if guarded then r.2 else vbatInc 14 (logEvent 0x08 0 0 (ctrValue r.2 0 % 2 ^ 32) r.2)
    if r.1 ≠ 0 then (false, s)
    else
      let d := s.draw 32
      (true, { d.2 with tamper := { d.2.tamper with saltSet := true, salt := d.1 } })

/-- Step 4 (R414, R417, R780): the internal keys, then the anchors; without a salt every anchor reads ERASED. -/
def keysStep (salted : Bool) (s : State) : State :=
  let bn := s.draw 32
  let k0 := bn.2.draw 32
  let k1 := k0.2.draw 32
  let s := k1.2
  let gen := ctrValue s 0 % 2 ^ 32
  let ak := if salted then kdfCtr s.key.root (ascii "SV6400 ANCHOR") (beBytes gen 4 ++ s.tamper.salt) 512 else []
  let s := { s with key := { s.key with saltGen := gen, ak := ak, bootNonce := bn.1, kb0 := k0.1, kb1 := k1.1, idk := idkScalar s } }
  if salted then (List.range 256).foldl (fun s a => restoreAnchor a s) s
  else
    (List.range 256).foldl (fun s a =>
      { (s.setNode (1 + a) { kind := 2, state := 7, slot := a }) with key :=
        { (s.setNode (1 + a) { kind := 2, state := 7, slot := a }).key with anchorSt := Tab.put 0 s.key.anchorSt a 2 } }) s

/-- The group of the roster in MRAM (R596, R781 class 7): the copy its own GROUPID's key opens; none reads as in no group. -/
def rosterStep (s : State) : State :=
  let try_ (c : Nat) : Option (Nat × Nat × Bytes) :=
    let id := pageRead s (8 + c) 12 8
    rosterChoice s (kdfCtr (groupKey s) (ascii "SV6400 ROSTER") id 256)
  let r := match try_ 0 with | some x => some x | none => try_ 1
  match r with
  | some (_, _, b) =>
    let key := kdfCtr (groupKey s) (ascii "SV6400 ROSTER") (b.take 8) 256
    let s := noteDamaged 7 8 9 (rosterCopy s key 0).isSome (rosterCopy s key 1).isSome s
    let v := rosterOf b
    showGroup { s with grp := { s.grp with id := v.1, ros := v.2 } }
  | none => showGroup { s with grp := { s.grp with id := [], ros := [] } }

/-- Anchor 0: the owner image key, a P-384 public key (R459, R590; its record's other fields are the model's, log entry 46). -/
def imageAnchor : Node := { kind := 2, ktype := 0x21, attr := 2 ^ 5 + 1, use_ := 2 ^ 9, engine := 2 ^ 3, units := 1 }
/-- Anchor 1: AES-256, MANAGEMENT, WRAP and UNWRAP, DERIVE, EXPORT NONE (R590). -/
def storageAnchor : Node := { kind := 2, ktype := 3, attr := 1, use_ := 2 ^ 6 + 2 ^ 7, engine := 2 ^ 5, units := 1 }

/-- An anchor is EMPTY or ERASED. -/
def anchorGone (s : State) (a : Nat) : Bool := decide ((s.node (1 + a)).kind = 0 ∨ (s.node (1 + a)).state = 7)

/-- Anchors 0 and 1 in OWNED (R592): from the ownership record; generated anew outside a group. -/
def ownedAnchors (s : State) : State :=
  let s := match readOwn s with
    | some b => if anchorGone s 0 then (putAnchor 0 imageAnchor (slice (ownOf b) 16 97) s).2 else s
    | none => s
  if anchorGone s 1 ∧ s.grp.id.isEmpty then
    let d := s.draw 32
    (putAnchor 1 storageAnchor d.1 d.2).2
  else s

/-- The ownership record and its credentials are discarded (R591). -/
def discardOwn (s : State) : State :=
  let s := match readOwn s with
    | none => s
    | some b =>
      let s := (List.range (ownNown b)).foldl (fun s j => (setCred j (zeros 112) s).2) s
      let s := (List.range 8).foldl (fun s i => if i < ownNcust b then (setCred (0x10 + i) (zeros 112) s).2 else s) s
      (writePages 0x010 (List.replicate 7 (zeros 256)) s).2
  setKept 0xA030 4 [0] s

/-- Step 6 (R591, R592): the ownership ceremony resumes, is found damaged, or is discarded; the owner's anchors stand. -/
def ownershipStep (s : State) : State :=
  match s.power.lcs with
  | .vendor =>
    if seedBlank s then (if s.num 0xA030 4 = 0 then s else discardOwn s)
    else if seedChecked s ∧ (readOwn s).isSome then
      systemResetNow 0x06 0 (setKept 0xA030 4 [4] (burnLcs .owned s))
    else setKept 0xA030 4 [6] s
  | .owned => ownedAnchors (if s.num 0xA030 4 = 4 then setKept 0xA030 4 [5] s else s)
  | _ => s

/-- Steps 2 to 6, in order (R754); a failed self-test leaves no root. -/
def keyDieSteps (r : KeyDieResult) (s : State) : State :=
  let s := { s with rst := { s.rst with kdTest := r.tests.toNat % 16 } }
  if r.tests.toNat % 16 ≠ 0 then rootFail (logEvent 0x11 0 0 0 s)
  else
    let s := rootStep r s
    if s.key.rootSt = 5 then s
    else
      let v := saltStep s
      let s := keysStep v.1 v.2
      let s := (List.range 64).foldl (fun s i => restoreCred i s) s
      ownershipStep (rosterStep s)

/-- KEYDIE has ended (R751): PD03 is switched off, and the phase moves on. -/
def keyDieDone (s : State) : State :=
  let s := if (s.dom 3).st = .off then s else cutOff 3 .off s
  { s with rst := { s.rst with kdDone := true, phase := if s.rst.phase = .keydie then .boot else s.rst.phase } }

/-- KEY_DIE_BRINGUP (R410-R417, R48, R591, R592, R754): once PD03 is ready; in RETIRED nothing is regenerated, and the device ends
in INERT. -/
def execKeyDieBringup (res : KeyDieResult) (s : State) : Res :=
  if ¬ bringing s ∨ s.rst.kdDone ∨ (s.rst.phase ≠ .release ∧ s.rst.phase ≠ .keydie) then ok s
  else if s.power.lcs = .retired then
    let s := { s with rst := { s.rst with kdDone := true } }
    ok (if s.rst.phase = .keydie then quietDomains (({ s with rst := { s.rst with phase := .done } }).setMode .inert) else s)
  else if ¬ s.domReady 3 then ok s
  else
    let t := keyDieSteps res s
    ok (if t.rst.phase = .release ∨ t.rst.phase = .keydie then keyDieDone t else t)

end Sys2Proof.Machine
end

