-- ==== Sys2Proof/Machine/Programs.lean ====
section
/-!
DEFINITION. Installing classifier images (R146, R147, R171) and program images (R387-R391, R397-R400), and the decimalisation
tables (R495).
-/
namespace Sys2Proof.Machine

/-- The signature of an image: its last 96 bytes over all before them, under the image key in force (R146, R388). -/
def imgSigned (s : State) (b : Bytes) : Bool := p384Verify (imageKey s) (b.take (b.length - 96)) (b.drop (b.length - 96))

/-- What a classifier OP uses (R140): the IMM bits its Action names, and whether it names A and B; none for an OP not listed. -/
def clsFields : Nat → Option (Nat × Bool × Bool)
  | 0x00 => some (0, false, false)
  | 0x01 => some (0xFFFF, true, true)
  | 0x02 => some (0xFFFF, true, true)
  | 0x03 => some (0xFFFF, true, true)
  | 0x04 => some (0xFF, true, false)
  | 0x05 => some (0xFFFFF, true, true)
  | 0x06 => some (0xFFFFF, true, true)
  | 0x08 => some (0xFFFFF, true, false)
  | 0x09 => some (0xFFF, true, false)
  | 0x0A => some (0xFFFFF, true, true)
  | 0x0B => some (0, true, true)
  | 0x0C => some (0xFFFFF, true, true)
  | 0x0D => some (0xFFFFF, true, true)
  | 0x0E => some (0x1F, true, true)
  | 0x0F => some (0x1F, true, true)
  | 0x10 => some (0x1FF, true, true)
  | 0x11 => some (0x1FF, true, true)
  | 0x12 => some (0x1FF, true, true)
  | 0x13 => some (0x1FF, true, true)
  | 0x14 => some (0x7FF, true, true)
  | 0x15 => some (0, true, true)
  | 0x16 => some (0xFF, false, false)
  | 0x17 => some (0xFFFFF, false, true)
  | 0x18 => some (0xF80FF, false, true)
  | 0x19 => some (0x3, true, true)
  | 0x1A => some (0, true, false)
  | 0x3C => some (0, false, false)
  | 0x3D => some (0xFF, false, false)
  | 0x3E => some (0, false, false)
  | _ => none

/-- A classifier code word passes R147: a listed OP, no reserved bit set, and the ranges of NUM, NUMB and BMW. -/
def clsWordOk (nfmt w : Nat) : Bool :=
  let op := bits w 31 26
  let a := bits w 25 23
  let b := bits w 22 20
  let imm := bits w 19 0
  match clsFields op with
  | none => false
  | some (mask, ua, ub) =>
    let mask := if op = 0x17 ∧ b ≠ 0 then 0 else if op = 0x18 ∧ bit imm 15 then 0xF8000 else mask
    let ub := ub && ! (decide (op = 0x18) && ! bit imm 15)
    decide (imm &&& mask = imm) && (ua || decide (a = 0)) && (ub || decide (b = 0)) &&
    (! (decide (op = 0x05) || decide (op = 0x06)) || decide (bits imm 19 16 ≤ 8)) &&
    (decide (op ≠ 0x14) || (decide (2 ≤ bits imm 7 0) && decide (bits imm 7 0 ≤ 192) && decide (bits imm 8 8 < nfmt)))

/-- The header of a classifier image is in range and implies its length (R146). -/
def clsHeaderOk (b : Bytes) : Bool :=
  let nbyp := imgU b 10 1
  let nfmt := imgU b 24 1
  let nc := imgNCode b
  let nr := imgNRule b
  decide (imgU b 0 4 = 0x53564350 ∧ imgU b 4 2 = 1 ∧ 1 ≤ nc ∧ nc ≤ 512 ∧ nr ≤ 256) &&
  decide (nbyp ≤ 4 ∧ imgU b 11 1 ≤ 1 ∧ nfmt ≤ 2) &&
  (slice b (16 + 2 * nbyp) (8 - 2 * nbyp)).all (fun x => decide (x = 0)) &&
  (slice b 25 7).all (fun x => decide (x = 0)) &&
  decide (b.length = 32 + 4 * nc + 12 * nr + 384 * nfmt + 96)

/-- The install check of a classifier image (R147). -/
def clsImageOk (s : State) (b : Bytes) : Bool :=
  let nfmt := imgU b 24 1
  clsHeaderOk b &&
  ((chunks 4 (slice b 32 (4 * imgNCode b))).map beNat).all (clsWordOk nfmt) &&
  (List.range nfmt).all (fun t => (List.range 192).all (fun i => decide (bits (imgFormat b t (i + 1)) 13 12 ≠ 3))) &&
  imgSigned s b

/-- Check and install the staged classifier image of slot `k`, 1 to 16 (R171); its digest extends MR4 (R623). -/
def clsInstall (k slot : Nat) (s : State) : State :=
  let b := s.entW (0x2100 + k) 1
  if clsImageOk s b then
    doneSlot slot [] (mrMeasure 4 7 k (sha384 b) { s with port := { s.port with clsImg := Tab.put [] s.port.clsImg k b } })
  else failSlot slot 1 s

/-- The effect of 0x01 to 21ss:02. -/
def fxClassifier (k : Nat) (s : State) (role : Nat) (v : Bytes) : Ans :=
  startOp (0x2100 + k) 2 role .install v (clsInstall k) s

/-- CLASSIFIER_INSTALL (R171). -/
def execClassifierInstall (r : Req) (k : Fin 16) (s : State) : Res :=
  ok (serveWrite (reqWith r [1]) (0x2101 + k.val) 2 always always anyValue (fxClassifier (k.val + 1)) s)

/-- The header of a program image is within R387 and implies its length. -/
def progHeaderOk (b : Bytes) : Bool :=
  let cb := imgCodeBase b
  let cl := imgCodeLen b
  decide (imgU b 0 4 = 0x53565049 ∧ imgU b 4 2 = 1 ∧ imgU b 6 2 = 0) &&
  decide (cb % 4 = 0 ∧ cl % 4 = 0 ∧ 4 ≤ cl ∧ cb + cl ≤ 32768) &&
  decide (imgDataBase b % 4 = 0 ∧ imgDataBase b + imgDataLen b + imgZeroLen b ≤ 32768) &&
  decide (imgDslim b % 4 = 0 ∧ imgDslim b ≤ 32768 ∧ imgNuop b ≤ 256) &&
  (slice b 38 26).all (fun x => decide (x = 0)) && decide (b.length = imgLength b)

/-- The certificate is bound to its image, within R389 and consistent under R391. -/
def certOk (b : Bytes) : Bool :=
  let c := certOf b
  let pkop := imgU c 70 2
  let pkk := imgU c 69 1
  let kt (i : Nat) := imgU c (76 + i) 1
  let four (f : Nat → Bool) : Bool := f 0 && f 1 && f 2 && f 3
  decide (imgU c 0 4 = 0x53564345 ∧ imgU c 4 2 = 1) && decide (slice c 8 48 = sha384 (b.take (b.length - 224))) &&
  decide (1 ≤ imgU c 56 4) && decide ((imgU c 60 4 = 0) ↔ (pkop = 0)) && decide (imgU c 68 1 < 8 ∧ pkk ≤ 3 ∧ imgU c 80 2 ≤ 8192) &&
  (slice c 82 46).all (fun x => decide (x = 0)) &&
  four (fun i => decide (imgU c (72 + i) 1 ≤ 15 ∧ kt i ≤ 6) && (decide (imgU c (72 + i) 1 = 0) || decide (kt i ≠ 0)) &&
    decide ((kt i = 6) ↔ (pkop ≠ 0 ∧ i = pkk))) &&
  (decide (pkop ≠ 0) || decide (pkk = 0)) && (decide (pkop = 0) || pkLaneOp pkop)

/-- A word is legal in a lane at offset `pc` of its bank (R330): the end of a loop lies in the bank. -/
def wordLegal (pc w : Nat) : Bool :=
  match (decodeWord w).2.2 with
  | none => false
  | some op =>
    op.legal && op.forCore false &&
    (match op with
     | .loop _ o => decide (pc + 4 * o ≤ 0x7FFC)
     | .loopi _ o => decide (pc + 4 * o ≤ 0x7FFC)
     | _ => true)

/-- A code word at `pc` is legal, custom opcodes judged by the image's own definitions (R382, R391). -/
def codeWordOk (b : Bytes) (pc w : Nat) : Bool :=
  match (decodeWord w).2.2 with
  | some (.cu u ra rb rc imm) =>
    (match imgCu b u with
     | some sl => cuWordOk sl ra rb rc imm
     | none => false)
  | _ => wordLegal pc w

/-- The substitutions a micro-op may make in a word's format (R384): its data-register fields and its immediate. -/
def uopFieldsOk (w slot : Nat) : Bool :=
  let op := bits w 27 22
  let fn := bits w 21 19
  let s21 := (decide (1 ≤ op) && decide (op ≤ 8)) || decide (op = 0x0C) || decide (op = 0x0D)
  let s17 := (decide (1 ≤ op) && decide (op ≤ 6)) || (decide (op = 0x15) && decide (fn ≤ 1))
  let simm := (decide (2 ≤ op) && decide (op ≤ 5)) || decide (op = 7) || decide (op = 8) || (decide (op = 0x0E) && decide (fn ≤ 1))
  (decide (bits slot 38 37 = 0) || s21) && (decide (bits slot 36 35 = 0) || s17) && (decide (bits slot 34 33 = 0) || decide (op = 1)) &&
  (! bit slot 32 || simm)

/-- A micro-op slot is legal (R383, R384): substituted fields at all zeros and at all ones. -/
def uopOk (slot : Nat) (last : Bool) : Bool :=
  let w := slot % 2 ^ 32
  decide (slot < 2 ^ 40) && (bit slot 39 == last) && uopAllowed (bits w 27 22) && uopFieldsOk w slot &&
  wordLegal 0 (uopWord slot 0 0 0 0) && wordLegal 0 (uopWord slot 15 15 15 1023)

/-- Every definition is legal, of 1 to 32 micro-ops where CUMASK names it and of none elsewhere (R384, R387). -/
def ucodeOk (b : Bytes) : Bool :=
  let t := imgCutab b
  decide (t.foldl (· + ·) 0 = imgNuop b) &&
  (List.range 16).all (fun u =>
    let n := t.getD u 0
    match imgCu b u with
    | none => decide (n = 0)
    | some sl => decide (1 ≤ n ∧ n ≤ 32) && decide (sl.length = n) && (sl.dropLast).all (fun w => uopOk w false) && (sl.drop (n - 1)).all (fun w => uopOk w true))

/-- An entry point is a multiple of 4 inside the code. -/
def entryIn (b : Bytes) (e : Nat) : Bool := decide (e % 4 = 0 ∧ imgCodeBase b ≤ e ∧ e < imgCodeBase b + imgCodeLen b)

/-- The entry points (R387): ENTRY2 is 0xFFFF exactly when PKOP is 0. -/
def entriesOk (b : Bytes) : Bool :=
  let pkop := imgU (certOf b) 70 2
  entryIn b (imgU b 24 2) && (if pkop = 0 then decide (imgU b 26 2 = 0xFFFF) else entryIn b (imgU b 26 2)) &&
  (decide (imgU b 28 2 = 0xFFFF) || entryIn b (imgU b 28 2))

/-- Every code word is legal. -/
def codeOk (b : Bytes) : Bool :=
  let ws := (chunks 4 (imgCode b)).map beNat
  (List.zip (List.range ws.length) ws).all (fun p => codeWordOk b (imgCodeBase b + 4 * p.1) p.2)

/-- The checks of R391 in its order, with the CODE of R398: 0 when all hold. -/
def progCheck (s : State) (ii : Nat) (b : Bytes) : Nat :=
  if ¬ progHeaderOk b ∨ ¬ imgSigned s b then 1
  else if ¬ certOk b then 2
  else if ¬ codeOk b ∨ ¬ ucodeOk b ∨ ¬ entriesOk b then 1
  else if imgU b 8 4 < s.num (0x4100 + ii) 5 then 4
  else 0

/-- An enabled class of a configuration names an image number. -/
def namesImage (s : State) (e : EpochCfg) (ii : Nat) : Bool :=
  (List.range 256).any (fun c => decide (clsVal s e c 1 = 1 ∧ clsVal s e c 2 = ii))

/-- An enabled class of the current or previous epoch names an image number (R398, R399). -/
def imageNamed (s : State) (ii : Nat) : Bool :=
  (match s.unit.epoch.cur with | some e => namesImage s e ii | none => false) ||
  (match s.unit.epoch.prev with | some e => namesImage s e ii | none => false)

/-- The images in the store (R397, R398): installed, pending, and those an epoch still names. -/
def storeImages (s : State) : List (Nat × Bytes) :=
  let e := s.unit.epoch
  let held (c : Option EpochCfg) : List (Nat × Bytes) :=
    match c with | some c => c.progs.filter (fun p => namesImage s c p.1) | none => []
  (e.images ++ e.pendImages ++ held e.cur ++ held e.prev).eraseDups

/-- The bytes used of the image store. -/
def storeBytes (s : State) : Nat := (storeImages s).foldl (fun n p => n + p.2.length) 0

/-- Place an image that passed its checks (R398, R400): at once, or pending for a flip. -/
def placeImage (ii : Nat) (b : Bytes) (s : State) : State :=
  let e := s.unit.epoch
  if imageNamed s ii ∨ e.st = .loading ∨ e.st = .acked then s.setEpoch { e with pendImages := Tab.put [] e.pendImages ii b }
  else s.setEpoch { e with images := Tab.put [] e.images ii b, pendImages := Tab.put [] e.pendImages ii [] }

/-- Install the staged program image of a number (R391, R398); its digest extends MR4 (R623). -/
def progInstall (ii slot : Nat) (s : State) : State :=
  let b := s.entW (0x4100 + ii) 1
  let code := progCheck s ii b
  let t := placeImage ii b s
  let code := if code = 0 ∧ storeBytes t > 262144 then 3 else code
  if code ≠ 0 then failSlot slot code (s.bump 0x4100 4) else doneSlot slot [] (mrMeasure 4 6 ii (sha384 b) t)

/-- Remove an image that no epoch names, with its pending image (R399). -/
def progRemove (ii : Nat) (s : State) : Ans :=
  if imageNamed s ii then ansErr s rIN_PROGRESS
  else
    let e := s.unit.epoch
    ansOK (s.setEpoch { e with images := Tab.put [] e.images ii [], pendImages := Tab.put [] e.pendImages ii [] })

/-- The effect of 41ii:02. -/
def fxImage (ii : Nat) (s : State) (role : Nat) (v : Bytes) : Ans :=
  if beNat v = 1 then startOp (0x4100 + ii) 2 role .install v (progInstall ii) s else progRemove ii s

/-- IMAGE_INSTALL (R391, R398, R400). -/
def execImageInstall (r : Req) (ii : Fin 64) (s : State) : Res :=
  ok (serveWrite (reqWith r [1]) (0x4101 + ii.val) 2 always always anyValue (fxImage (ii.val + 1)) s)

/-- IMAGE_REMOVE (R399). -/
def execImageRemove (r : Req) (ii : Fin 64) (s : State) : Res :=
  ok (serveWrite (reqWith r [2]) (0x4101 + ii.val) 2 always always anyValue (fxImage (ii.val + 1)) s)

/-- A decimalisation table that may be loaded (R495): empty, or 16 ASCII digits with every digit among them. -/
def decTableOk (_ : State) (v : Bytes) : Bool :=
  v.isEmpty || (decide (v.length = 16) && v.all (fun b => decide (0x30 ≤ b.toNat ∧ b.toNat ≤ 0x39)) &&
    (List.range 10).all (fun d => v.contains (byte (0x30 + d))))

/-- The check value of a decimalisation table (R513): 4 bytes, 0 when not loaded. -/
def decCheck (v : Bytes) : Bytes := if v.isEmpty then zeros 4 else (sha256 v).take 4

/-- The effect of a write of 5400: held for the next flip, its check value measured in MR6 (R495, R623). -/
def fxDecTable (t : Nat) (s : State) (_role : Nat) (v : Bytes) : Ans :=
  ansOK (mrMeasure 6 9 (t - 1) (fit (decCheck v) 48) (storeEnt 0x5400 t v s))

/-- DECIMAL_TABLE_WRITE (R495, R513). -/
def execDecimalTableWrite (r : Req) (t : Fin 16) (s : State) : Res :=
  ok (serveWrite r 0x5400 (t.val + 1) always inCeremony decTableOk (fxDecTable (t.val + 1)) s)

end Sys2Proof.Machine
end

