-- ==== Sys2Proof/Machine/DictView.lean ====
section
/-!
DEFINITION. What a READ of each entry returns (R70, R71, R93, R95, R108 and the entry tables of every chapter). Entries whose
value is held elsewhere in the state are views of it; every other entry returns its working value.
-/
namespace Sys2Proof.Machine

/-- A number in `n` bytes. -/
abbrev num1 (v : Nat) : Option Bytes := some (beBytes v 1)
abbrev num2 (v : Nat) : Option Bytes := some (beBytes v 2)
abbrev num4 (v : Nat) : Option Bytes := some (beBytes v 4)
abbrev num8 (v : Nat) : Option Bytes := some (beBytes v 8)

/-- A string of the certificate fuses from byte `o` on: a U16 length and the DER (R786). -/
def certAt (s : State) (o : Nat) : Bytes :=
  let b (i : Nat) : Byte := byteAt (beBytes (s.fuse (256 + (o + i) / 4)) 4) ((o + i) % 4)
  let n := Nat.min 2048 (beNat [b 0, b 1])
  (List.range n).map (fun i => b (2 + i))

/-- A marginal certificate word empties the certificate that contains it (R786). -/
def certRead (s : State) (o : Nat) : Bytes :=
  let c := certAt s o
  let lo := 256 + o / 4
  let hi := 256 + (o + 1 + c.length) / 4
  if s.nvm.marginal.any (fun w => decide (lo ≤ w ∧ w ≤ hi)) then [] else c

/-- The identity entries (R108). -/
def viewIdentity (s : State) (idx sub : Nat) : Option Bytes :=
  let l := s.power.lcs
  let certs := ! decide (l = .blank ∨ l = .retired)
  match idx, sub with
  | 0x1000, 4 => num2 (s.secured 101 % 65536)
  | 0x1000, 5 => some (serial s)
  | 0x1000, 6 => some (if l = .retired then [] else p384.enc (p384.mul (idkScalar s) p384.g))
  | 0x1000, 7 => some (if certs then certRead s 0 else [])
  | 0x1000, 8 => some (certRead s (2 + (certAt s 0).length))
  | 0x1001, k =>
    if 1 ≤ k ∧ k ≤ 4 then some (beBytes (s.secured (64 + 2 * k)) 4 ++ beBytes (s.secured (65 + 2 * k)) 4)
    else if 5 ≤ k ∧ k ≤ 8 then some (slice (beBytes (s.secured 74) 4 ++ beBytes (s.secured 75) 4) (2 * (k - 5)) 2)
    else none
  | 0x1002, 1 => some (romKey 8 4)
  | 0x1002, 2 => some (romKey 9 4)
  | _, _ => none

/-- The session entries 10E0 (R108). -/
def viewSession (s : State) (sub : Nat) : Option Bytes :=
  match sub, s.dict.sess with
  | 1, se => num1 (match se with | some v => v.role | none => 0)
  | 2, se => num1 (match se with | some v => (if v.tr = .mge then 1 else 2) | none => 0)
  | 3, se => num8 (match se with | some v => v.since | none => 0)
  | 7, se => num2 (match se with | some v => v.cred | none => 0)
  | _, _ => none

/-- The mode entries 1100 (R724-R727). -/
def viewMode (s : State) (sub : Nat) : Option Bytes :=
  match sub with
  | 1 => num1 s.power.lcs.code
  | 2 => num1 s.power.mode.code
  | 3 => num1 s.power.retMode
  | 4 => num8 s.power.modeSince
  | _ => none

/-- The port entries 20pp, 2020, 2030-2037 and 2100-2110. -/
def viewPort (s : State) (idx sub : Nat) : Option Bytes :=
  if idx ≤ 0x201F then
    let r := s.src (idx - 0x2000)
    match sub with
    | 0x1D => num1 (b2n r.link)
    | 0x1E => num1 r.tcp.st
    | 0x1F => num2 r.outst.length
    | 0x20 => num8 r.arr
    | _ => none
  else if idx = 0x2020 then (if sub = 3 then num1 s.port.link else if sub = 4 then num1 s.port.rate else none)
  else if 0x2030 ≤ idx ∧ idx ≤ 0x2037 then
    (if sub = 2 then num4 (mirStat s (idx - 0x2030)) else if sub = 3 then some (fit (s.mlink (idx - 0x2030)).peer 8) else none)
  else if 0x2101 ≤ idx ∧ idx ≤ 0x2110 then
    let b := Tab.look [] s.port.clsImg (idx - 0x2100)
    (if sub = 3 then some (if b.isEmpty then [] else sha384 b) else if sub = 4 then num4 (imgU b 12 4) else none)
  else none

/-- The dispatcher and epoch entries 3000-3003 (R224). -/
def viewEpoch (s : State) (idx sub : Nat) : Option Bytes :=
  let e := s.unit.epoch
  let pend := s.dict.pendE.length + e.pendImages.length + (s.pk.curves.filter (fun c => c.2.pend.isSome)).length
  match idx, sub with
  | 0x3000, 2 => num4 (match e.cur with | some c => c.num | none => 1)
  | 0x3000, 3 => num4 (match e.prev with | some c => c.num | none => 0)
  | 0x3000, 7 => num2 pend
  | 0x3000, 8 => num1 (b2n (changeOpen s))
  | 0x3002, 2 => num1 ((audEngine s 0).getD 11)
  | 0x3002, 3 => num1 ((audEngine s 1).getD 23)
  | 0x3003, 1 => num8 ((List.range 64).foldl (fun m l => if (s.lane l).claimed then m + 2 ^ l else m) 0)
  | 0x3003, 2 => num4 ((List.range 24).foldl (fun m n => if (s.eng n).claim = 1 then m + 2 ^ n else m) 0)
  | 0x3003, 3 => some ((List.range 16).map (fun q => match (s.quad q).claim with | some u => byte (2 ^ u) | none => 0))
  | _, _ => none

/-- The class entries 31cc:08-12: the certificate of the class's image in the current epoch (R183, R389). -/
def viewClass (s : State) (c sub : Nat) : Option Bytes :=
  if sub < 8 ∨ 0x12 < sub then none
  else
    let e := curCfg s
    let img := Tab.look [] e.progs (clsVal s e c 2)
    let v := if img.isEmpty then zeros 128 else certOf img
    let op := imgU v 70 2
    let w := (pkWork op).getD (0, 0)
    match sub with
    | 0x08 => some (slice v 56 4)
    | 0x09 => some (slice v 60 4)
    | 0x0A => some (slice v 64 4)
    | 0x0B => some (slice v 68 1)
    | 0x0C => some (slice v 72 4)
    | 0x0D => some (slice v 70 2)
    | 0x0E => num4 w.1
    | 0x0F => num4 (if op = 0 then 0 else pkY)
    | 0x10 => some (slice v 69 1)
    | 0x11 => num4 (if clsVal s e c 7 = 1 then w.2 else 0)
    | _ => some (slice v 80 2)

/-- The admission, class and audit entries 3000-38FF. -/
def viewAdm (s : State) (idx sub : Nat) : Option Bytes :=
  if idx < 0x3010 then viewEpoch s idx sub
  else if idx ≤ 0x3033 then
    let p := idx - 0x3010
    (if sub = 2 ∧ (p ≥ 32 ∨ pcfg s p 5 ≠ 0) then num1 0 else if sub = 4 then num4 (egressWait s (curCfg s) p) else if sub = 5 then num2 (unsent s p) else none)
  else if 0x3100 ≤ idx ∧ idx ≤ 0x31FF then viewClass s (idx - 0x3100) sub
  else if idx = 0x3801 ∨ idx = 0x3802 then
    let a := s.aud (idx - 0x3801)
    (if sub = 2 then num8 a.nrec else if sub = 5 then num4 (audHeld a) else none)
  else none

/-- Health of a lane (40nn:01). -/
def laneHealth (s : State) (l : Nat) : Nat :=
  let v := s.lane l
  if v.subst then 2 else if v.cause ≠ 0 then 3 else if ¬ s.domReady (11 + laneQuad l) then 4 else if v.claimed then 1 else 0

/-- The lane entries 40nn (R298). -/
def viewLane (s : State) (l sub : Nat) : Option Bytes :=
  let v := s.lane l
  match sub with
  | 1 => num1 (laneHealth s l)
  | 2 => num1 v.cause
  | 3 => num1 (if v.spared then laneTile l else 0xFF)
  | 4 => num8 v.fenceDt
  | 5 => num4 (bankEpoch s l 0)
  | 6 => num4 (bankEpoch s l 1)
  | 7 => num1 (v.bankB * 4 + v.bankA)
  | 8 => num4 v.cycmax
  | 0xB => num1 (s.spare (laneTile l)).st
  | _ => none

/-- The program-image entries 4100-41F0 (R401). -/
def viewImage (s : State) (idx sub : Nat) : Option Bytes :=
  let e := s.unit.epoch
  if idx = 0x4100 then (if sub = 1 then num1 e.images.length else if sub = 2 then num4 (storeBytes s) else none)
  else if idx = 0x41F0 then (if sub = 1 then some ((List.range 64).map (fun l => byte (Tab.look 0 e.loadRes l))) else none)
  else if idx ≤ 0x4140 then
    let b := Tab.look [] e.images (idx - 0x4100)
    let p := Tab.look [] e.pendImages (idx - 0x4100)
    match sub with
    | 3 => some (if b.isEmpty then [] else sha384 b)
    | 4 => num4 (imgU b 8 4)
    | 6 => some (if p.isEmpty then [] else sha384 p)
    | 7 => num4 b.length
    | 8 => some (if b.isEmpty then [] else certOf b)
    | _ => none
  else none

/-- State of an anchor as 5000:09 shows it: 0 EMPTY, 1 ACTIVE, 2 ERASED, 3 UNUSABLE; without a root every one reads ERASED (R412). -/
def anchorCode (s : State) (a : Nat) : Nat := if s.key.rootSt = 5 then 2 else Tab.look 0 s.key.anchorSt a

/-- The check value of the selected node (5100:03, R455): empty for PK types, DERIVED and EMPTY nodes. -/
def nodeCheck (s : State) (id : Nat) : Bytes :=
  let n := s.node id
  if id = 0 ∨ n.kind = 0 ∨ n.kind = 4 ∨ n.state < 2 ∨ 6 ≤ n.state ∨ s.key.root.isEmpty ∨ s.key.rootSt = 5 then []
  else checkValue n.ktype (baseKey s id n)

/-- The key entries 5000-5FFF (R461, R513). -/
def viewKey (s : State) (idx sub : Nat) : Option Bytes :=
  let k := s.key
  let anchors (c : Nat) : Nat := ((List.range 256).filter (fun a => decide (anchorCode s a = c))).length
  match idx, sub with
  | 0x5000, 1 => num1 k.rootSt
  | 0x5000, 2 => num4 k.saltGen
  | 0x5000, 3 => num4 (k.nodes.filter (fun n => decide (n.2.kind ≠ 0))).length
  | 0x5000, 4 => num4 (k.runs.foldl (fun n r => n + 1 + r.2.next) 0)
  | 0x5000, 5 => num2 (anchors 1)
  | 0x5000, 6 => num2 (anchors 2)
  | 0x5000, 7 => num4 (if k.rootSt = 5 then 0 else (k.nodes.filter (fun n => decide (n.2.kind ≠ 0 ∧ n.2.state = 6))).length)
  | 0x5000, 8 => some (imageKey s)
  | 0x5000, 9 => some ((List.range 256).map (fun a => byte (anchorCode s a)))
  | 0x5001, 1 => num1 k.pufAttempts
  | 0x5001, 2 => num2 k.pufCorrected
  | 0x5100, 2 => some (readRecord s (s.num 0x5100 1))
  | 0x5100, 3 => some (nodeCheck s (s.num 0x5100 1))
  | 0x5401, t => if 1 ≤ t ∧ t ≤ 16 then some (decCheck (EpochCfg.bytes s (curCfg s) 0x5400 t)) else none
  | _, _ => none

/-- The engine and curve entries 6000-60FF (R567, R554). -/
def viewPk (s : State) (idx sub : Nat) : Option Bytes :=
  if idx = 0x6000 then
    (if sub = 1 then num4 ((List.range 24).foldl (fun m e => if engInService s e then m + 2 ^ e else m) 0) else none)
  else if 0x6001 ≤ idx ∧ idx ≤ 0x6018 then
    let e := idx - 0x6001
    let v := s.eng e
    match sub with
    | 1 => num1 (if v.cause ≠ 0 then 2 else if ¬ s.domReady (9 + e / 12) then 3 else if v.claim ≠ 0 then 1 else 0)
    | 2 => num1 v.cause
    | 3 => num1 (v.jobs.filter (fun j => decide (j.kind ≤ 1))).length
    | 4 => num1 v.banks
    | 6 => num8 v.fenceDt
    | _ => none
  else if 0x6020 ≤ idx ∧ idx ≤ 0x602F then
    let c : CurveSlot := Tab.look {} s.pk.curves (idx - 0x6020)
    match sub with
    | 3 => num1 (if c.pend.isSome then 2 else if c.record.isEmpty then 0 else 1)
    | 4 => some (if c.record.isEmpty then [] else sha384 c.record)
    | _ => none
  else none

/-- The measurement and image entries 6800-68FF (R622, R625, R634-R636, R642). -/
def viewMeasure (s : State) (idx sub : Nat) : Option Bytes :=
  match idx, sub with
  | 0x6801, k => if 1 ≤ k ∧ k ≤ 16 then some (s.mrVal (k - 1)) else none
  | 0x6810, 2 => some (s.mr.log.getD (s.num 0x6810 1) [])
  | 0x6820, 1 => num2 (ctrValue s 2)
  | 0x6820, 3 => some ((List.range 16).flatMap (fun i => beBytes (ctrValue s (16 + i)) 2))
  | 0x6830, 3 => some (slotHead s 0)
  | 0x6830, 4 => some (slotHead s 1)
  | i, k =>
    if 0x6840 ≤ i ∧ i ≤ 0x684F then
      let v : Module := Tab.look {} s.img.mods (i - 0x6840)
      match k with
      | 3 => some (if v.st = 0 then [] else sha384 v.header)
      | 4 => num1 v.st
      | 5 => num4 (if v.st = 0 then 0 else hdrVersion v.header)
      | _ => none
    else none

/-- State of an enclosure channel (7080-70BF:05): 0 off, 1 OK, 2 drift, 3 cut, 4 short, 5 UNSTABLE. -/
def chanState (s : State) (c : Nat) : Nat :=
  let on (code : Nat) : Bool := (s.cond code).asserted && decide ((s.cond code).sensor = c)
  if s.num (0x7080 + c) 1 = 0 then 0 else if on 0x0C then 3 else if on 0x0D then 4 else if on 0x0E || decide (s.num (0x7080 + c) 3 = 0) then 2
  else if Tab.look 0 s.tamper.chState c = 5 then 5 else 1

/-- The tamper and log entries 7000-71FF (R671). -/
def viewTamper (s : State) (idx sub : Nat) : Option Bytes :=
  let t := s.tamper
  match idx, sub with
  | 0x7000, 1 => num4 (tmpAct s)
  | 0x7000, 2 => num1 t.erases
  | 0x7000, 3 => num8 t.lastErase
  | 0x7000, 4 => num1 t.lastCond
  | 0x7000, 8 => num4 (rtcSec s)
  | 0x7000, 9 => num2 (rtcFrac s)
  | 0x7050, k => if 1 ≤ k ∧ k ≤ 16 then num2 (Tab.look 0 s.log.vbat (k - 1)) else none
  | 0x7100, 1 => num4 s.log.seq
  | 0x7100, 2 => num2 s.log.count
  | 0x7100, 3 => num1 (b2n s.log.full)
  | 0x7100, 4 => some (logHead s)
  | 0x7100, 5 => num4 s.log.baseSeq
  | 0x7101, 1 => some (mramRead s 0x30000 (32 * s.log.count))
  | i, k =>
    if 0x7060 ≤ i ∧ i ≤ 0x7065 ∧ k = 3 then num1 (b2n (alarmOn s (i - 0x7060)))
    else if 0x7080 ≤ i ∧ i ≤ 0x70BF ∧ k = 5 then num1 (chanState s (i - 0x7080))
    else none

/-- A wake record (R713) and a refusal record (R719) in bytes. -/
def WakeRec.bytes (w : WakeRec) : Bytes :=
  beBytes w.dt 8 ++ [byte w.src, byte w.index, byte w.dom, byte w.flags] ++ beBytes (Nat.min w.stall (2 ^ 32 - 1)) 4
def RefRec.bytes (r : RefRec) : Bytes := beBytes r.dt 8 ++ [byte r.target, byte r.refuser, byte r.kind, byte r.point] ++ zeros 4

/-- The access-table entries 7800 (R696). -/
def viewAct (s : State) (sub : Nat) : Option Bytes :=
  if 1 ≤ sub ∧ sub ≤ 4 then
    let t := s.actTab (sub - 1)
    some (beBytes (actVstat t) 4 ++ beBytes (t.addr / 2 ^ 32) 4 ++ beBytes (t.addr % 2 ^ 32) 4 ++ beBytes t.info 4 ++ beBytes t.vcnt 4)
  else if 5 ≤ sub ∧ sub ≤ 8 then
    let t := s.actTab (sub - 5)
    num8 ((List.range 64).foldl (fun m n => if (t.win n).lock then m + 2 ^ n else m) 0)
  else none

/-- The power entries 8001 and 8002 (R736). -/
def viewPower (s : State) (idx sub : Nat) : Option Bytes :=
  let p := s.power
  match idx, sub with
  | 0x8001, 1 => some ((List.range 33).map (fun d => byte (s.dom d).st.code))
  | 0x8001, 2 => some ((p.wakeRing.take 16).reverse.flatMap WakeRec.bytes)
  | 0x8001, 3 => num8 ((List.range 33).foldl (fun m d => if (s.dom d).st = .fenced then m + 2 ^ d else m) 0)
  | 0x8001, 4 => num2 p.vset
  | 0x8001, 5 => some (match p.wakeRing.head? with | some w => w.bytes | none => [])
  | 0x8002, 1 => some ((p.refRing.take 16).reverse.flatMap RefRec.bytes)
  | _, _ => none

/-- The reset and option entries 8800-8802 (R766). -/
def viewReset (s : State) (idx sub : Nat) : Option Bytes :=
  let r := s.rst
  match idx, sub with
  | 0x8800, 1 => num4 (rstCause s)
  | 0x8800, 2 => num8 r.cdt
  | 0x8800, 3 => num4 r.crtc
  | 0x8800, 4 => num1 r.phase.code
  | 0x8800, 5 => num1 r.hcause
  | 0x8800, 9 => num8 r.lastDur
  | 0x8800, 0xB => num1 (Nat.min 255 r.restarts)
  | 0x8801, 1 => some ((List.range 128).flatMap (fun i => beBytes (Tab.look 0 r.optWords i) 4))
  | 0x8801, 2 => num8 r.marginal
  | 0x8801, 3 => num1 r.mcopy
  | 0x8801, 4 => some r.optDigest
  | 0x8802, 3 => some (beBytes r.postLanes 9)
  | 0x8802, 4 => num4 r.postPk
  | 0x8802, 5 => some (fit r.postCluster 16)
  | 0x8802, 6 => num1 r.kdTest
  | 0x8802, 7 => num8 r.lastPass
  | _, _ => none

/-- A pair of secured words is unusable (R781, class 10): both copies marginal, or neither holds every set bit of the other. -/
def wordUnusable (s : State) (w : Nat) : Bool :=
  let a := s.fuse w
  let b := s.fuse (w + 64)
  let ma := s.nvm.marginal.contains w
  let mb := s.nvm.marginal.contains (w + 64)
  (ma && mb) || (! ma && ! mb && decide (a ||| b ≠ a) && decide (a ||| b ≠ b))

/-- The MRAM and fuse entries 9000-91FF (R790). -/
def viewNvm (s : State) (idx sub : Nat) : Option Bytes :=
  let n := s.nvm
  match idx, sub with
  | 0x9000, 2 => num1 n.spareUsed.length
  | 0x9000, 3 => num1 n.spareBad.length
  | 0x9000, 4 => num4 n.readOnly
  | 0x9010, 3 => num1 n.or0.failures
  | 0x9010, 4 => num1 n.or1.failures
  | 0x9020, 2 => num8 (ctrValue s (s.num 0x9020 1))
  | 0x9100, 1 => some ([0, 1, 2].flatMap (fun w => beBytes (s.fuse w) 4))
  | 0x9100, 2 => some ((List.range 32).flatMap (fun i => beBytes (s.fuse (192 + i)) 4))
  | 0x9100, 3 => num4 ((List.range 32).foldl (fun m i => if wordUnusable s (64 + 2 * i) || wordUnusable s (65 + 2 * i) then m + 2 ^ i else m) 0)
  | _, _ => none

/-- The ceremony and group entries A000-A1FF. -/
def viewCer (s : State) (idx sub : Nat) : Option Bytes :=
  if 0xA002 ≤ idx ∧ idx ≤ 0xA005 then (if sub = 1 then num4 (cusStat s (idx - 0xA002)) else none)
  else if 0xA101 ≤ idx ∧ idx ≤ 0xA108 then (if sub = 2 then num1 (memberState s (idx - 0xA101)) else none)
  else none

/-- The slot entries F000-F0FF (R98). -/
def viewSlot (s : State) (k sub : Nat) : Option Bytes :=
  let v := s.slot k
  match sub with
  | 1 => num4 v.word
  | 2 => num4 (if v.used then handleOf k v.seq else 0)
  | 3 => num4 (v.byIdx * 256 + v.bySub)
  | 4 => num8 v.started
  | 5 => num8 v.ended
  | 6 => some v.result
  | _ => none

/-- The view of an entry; none where its working value is its value. -/
def viewOf (s : State) (idx sub : Nat) : Option Bytes :=
  if idx < 0x10E0 then viewIdentity s idx sub
  else if idx = 0x10E0 then viewSession s sub
  else if idx = 0x1100 then viewMode s sub
  else if idx < 0x3000 then (if 0x2000 ≤ idx then viewPort s idx sub else none)
  else if idx < 0x4000 then viewAdm s idx sub
  else if idx < 0x4040 then viewLane s (idx - 0x4000) sub
  else if idx < 0x5000 then viewImage s idx sub
  else if idx < 0x6000 then viewKey s idx sub
  else if idx < 0x6800 then viewPk s idx sub
  else if idx < 0x7000 then viewMeasure s idx sub
  else if idx < 0x7800 then viewTamper s idx sub
  else if idx = 0x7800 then viewAct s sub
  else if idx < 0x8800 then viewPower s idx sub
  else if idx < 0x9000 then viewReset s idx sub
  else if idx < 0xA000 then viewNvm s idx sub
  else if idx < 0xB000 then viewCer s idx sub
  else if 0xF000 ≤ idx ∧ idx ≤ 0xF0FF then viewSlot s (idx - 0xF000) sub
  else none

/-- The value a READ returns (R70, R96): subindex 00 is the highest subindex of the index. -/
def readValue (s : State) (idx sub : Nat) : Bytes :=
  if sub = 0 then [byte ((maxSub idx).getD 0)]
  else (viewOf s idx sub).getD (s.entW idx sub)

/-- Fresh random bytes (1080:01, R53, R118, R761): OFFSET must be 0; MODE where the CTR_DRBG gives none. -/
def readRandom (r : Req) (s : State) : Ans :=
  if s.rst.trngFailed ∨ s.power.lcs = .retired then ansErr s rMODE
  else if r.offset ≠ 0 then ansErr s rRANGE
  else
    let d := s.draw (Nat.min r.length.toNat 4096)
    ⟨rOK, d.1, d.2.bump 0x1080 2⟩

/-- The bytes of a value that a READ returns (R70); an entry that is not BYTES is read at OFFSET 0 (R68). -/
def readSlice (r : Req) (idx sub : Nat) (s : State) : Ans :=
  let v := readValue s idx sub
  let isB : Bool := match findEnt idx sub with | some e => e.ty.isBytes | none => false
  if (! isB && decide (r.offset ≠ 0)) || decide (v.length < r.offset.toNat) then ansErr s rRANGE
  else ⟨rOK, slice v r.offset.toNat (Nat.min r.length.toNat (v.length - r.offset.toNat)), s⟩

/-- A response that would exceed its transport's limit receives TOO_LONG and no data (R75). -/
def limitAnswer (r : Req) (s : State) (a : Ans) : Ans :=
  if a.code = rOK ∧ maxRsp r.tr < 22 + a.data.length + (if r.session = 0 then 0 else 16) then ansErr s rTOO_LONG else a

/-- What a READ answers once its session is checked (R70, R77, R92, R93, R104, R632). -/
def readAnswer (r : Req) (s : State) (role : Nat) : Ans :=
  let idx := r.index.toNat
  let sub := r.sub.toNat
  if ¬ entryExists idx sub then ansErr s rNO_ENTRY
  else if ¬ hasRight s role (rdRight idx sub) ∧ ¬ recoveryServes s r opREAD then ansErr s rDENIED
  else limitAnswer r s (if idx = 0x1080 ∧ sub = 1 then readRandom r s else readSlice r idx sub s)

/-- The domain of a READ has failed to power up and is not READY again (R114, R714). -/
def readFails (s : State) (idx : Nat) : Bool :=
  match readDomain idx with
  | none => false
  | some d =>
    let v := s.dom d
    decide (v.st = .retry ∨ v.st = .fenced) || (decide (v.st = .up) && decide (v.attempt ≠ 0))

/-- The domain that a READ which may be answered has to wait for (R114, R715). -/
def readWaits (s : State) (idx : Nat) (a : Ans) : Option Nat :=
  match readDomain idx with
  | none => none
  | some d => if a.code = rOK ∧ ¬ s.domReady d then some d else none

/-- Answer a READ, or let it wait for its domain, which it wakes (R114, R715). -/
def answerRead (r : Req) (role : Nat) (s : State) : State :=
  let a := modeFirst (deepMs s r opREAD || readFails s r.index.toNat) s (readAnswer r s role)
  match readWaits s r.index.toNat a with
  | some d =>
    let s := wakeFor d (if aniseMode s then 0x78 else 0x61) s
    { s with dict := { s.dict with stalled := s.dict.stalled ++ [(role, r)] } }
  | none => replyIn s r opREAD a.code a.data (if a.code = rOK then a.st else s)

/-- The READs that waited for a domain are answered once it is READY (R114), under the session as it then is. -/
def serveStalled (d : Nat) (s : State) : State :=
  let mine (e : Nat × Req) : Bool := decide (readDomain e.2.index.toNat = some d)
  let s' := { s with dict := { s.dict with stalled := s.dict.stalled.filter (fun e => ! mine e) } }
  (s.dict.stalled.filter mine).foldl (fun s e => answerRead e.2 e.1 s) s'

/-- DOMAIN_READY (R114, R708, R709, R714, R715). -/
def execDomainReady (d : Nat) (late : Bool) (s : State) : Res :=
  let t := readyAll d late s
  ok (if t.domReady d then serveStalled d t else t)

/-- DICT_READ (R70, R71, R77, R104, R107, R114). -/
def execDictRead (r : Req) (s : State) : Res :=
  match gate r opREAD (fun _ => isIdentity r.index.toNat || isMarkedA r.index.toNat r.sub.toNat) s with
  | .ovr s => ok s
  | .anise s => ok (answerRead r 0 s)
  | .session s =>
    match sessionCheck s r opREAD with
    | .code c => ok (refuse r opREAD c s)
    | .resend p => ok (sendReply p s)
    | .go role => ok (answerRead r role s)

end Sys2Proof.Machine
end

