-- ==== Sys2Proof/Machine/DictWrite.lean ====
section
/-!
DEFINITION. Writing entries (R72, R94-R97, R112, R116, R117): the conditions, the range and the effect of every entry that has any of
its own, and the rows DICT_WRITE and DICT_DEFAULT.
-/
namespace Sys2Proof.Machine

/-- An entry's own life-cycle and mode conditions, its own range, and what a write does. -/
structure WRule where
  lc : State → Nat → Bool
  md : State → Nat → Bool
  rg : State → Bytes → Bool
  fx : State → Nat → Bytes → Ans

/-- An entry with no behaviour of its own: its working value changes (R95, R96). -/
def plainFx (idx sub : Nat) (s : State) (_role : Nat) (v : Bytes) : Ans := ansOK (storeEnt idx sub v s)

/-- The rule of such an entry. -/
def plainRule (idx sub : Nat) : WRule := ⟨always, always, anyValue, plainFx idx sub⟩

/-- An entry with a range of its own. -/
def rangeRule (idx sub : Nat) (rg : State → Bytes → Bool) : WRule := ⟨always, always, rg, plainFx idx sub⟩

/-- A command entry with neither condition. -/
def fxRule (fx : State → Nat → Bytes → Ans) : WRule := ⟨always, always, anyValue, fx⟩

/-- A value read as two's complement (I32). -/
def asI32 (b : Bytes) : Int := (BitVec.ofNat 32 (beNat b)).toInt

/-- A value lies between two bounds. -/
def within (lo hi : Int) (b : Bytes) : Bool := decide (lo ≤ asI32 b) && decide (asI32 b ≤ hi)

/-- A lane group is not empty and lies on one die (R37, R169). -/
def groupRange (_ : State) (b : Bytes) : Bool :=
  let v := beNat b
  decide (v ≠ 0) && (decide (v < 2 ^ 32) || decide (v % 2 ^ 32 = 0))

/-- The port is disabled (R169). -/
def portOff (p : Nat) (s : State) (_ : Nat) : Bool := decide (s.num (0x2000 + p) 1 = 0)

/-- The own ranges of a transaction port's entries (R169). -/
def portRange (p sub : Nat) (s : State) (b : Bytes) : Bool :=
  let v := beNat b
  match sub with
  | 0x08 => ! [0x0800, 0x0806, 0x8100, 0x86DD, 0x8808].contains v
  | 0x13 => decide (2 * (v - 40) ≤ s.num (0x2000 + p) 0x19)
  | 0x19 => decide (2 * (s.num (0x2000 + p) 0x13 - 40) ≤ v ∧ v ≤ 1048576)
  | 0x1B => groupRange s b
  | _ => true

/-- The effect of 20pp:01 (R174): a port that is disabled loses its responses and its connection; one that is enabled opens. -/
def fxPortEnable (p : Nat) (s : State) (_role : Nat) (v : Bytes) : Ans :=
  let was := s.num (0x2000 + p) 1
  let s := storeEnt (0x2000 + p) 1 v s
  if beNat v = was then ansOK s
  else if beNat v = 0 then ansOK (if (s.src p).link then portLost p s else s)
  else ansOK (tcpOpen p s)

/-- The effect of 2030-2037:01: a disabled mirror link goes DOWN. -/
def fxMirrorEnable (l : Nat) (s : State) (_role : Nat) (v : Bytes) : Ans :=
  let s := storeEnt (0x2030 + l) 1 v s
  ansOK (if beNat v = 0 then linkDown l s else s)

/-- The port and management-port entries. -/
def rulePort (idx sub : Nat) : WRule :=
  if idx ≤ 0x201F then
    let p := idx - 0x2000
    if sub = 1 then fxRule (fxPortEnable p)
    else if sub ≤ 0x1A then ⟨always, portOff p, portRange p sub, plainFx idx sub⟩
    else rangeRule idx sub (portRange p sub)
  else if idx = 0x2020 ∧ 5 ≤ sub ∧ sub ≤ 8 then rangeRule idx sub groupRange
  else if 0x2030 ≤ idx ∧ idx ≤ 0x2037 then fxRule (fxMirrorEnable (idx - 0x2030))
  else if (idx = 0x2041 ∨ idx = 0x2042) ∧ sub = 2 then
    rangeRule idx sub (fun s b => decide (beNat b ≠ s.num (if idx = 0x2041 then 0x2042 else 0x2041) 2))
  else if 0x2101 ≤ idx ∧ idx ≤ 0x2110 ∧ sub = 2 then fxRule (fxClassifier (idx - 0x2100))
  else plainRule idx sub

/-- The mode entries but the mode request. -/
def ruleMode (sub : Nat) : WRule :=
  match sub with
  | 6 => rangeRule 0x1100 6 (fun _ b => decide (beNat b ≠ 3))
  | 7 => ⟨retireLcs, retireMode, anyValue, fxRetire⟩
  | 8 => fxRule fxDebugArm
  | _ => plainRule 0x1100 sub

/-- The lane, image and key entries. -/
def ruleUnits (idx sub : Nat) : WRule :=
  if idx = 0x3000 ∧ sub = 6 then fxRule fxFlip
  else if 0x4000 ≤ idx ∧ idx ≤ 0x403F ∧ sub = 0x0A then ⟨always, always, laneFenceRange (idx - 0x4000), fxLaneFence (idx - 0x4000)⟩
  else if 0x4000 ≤ idx ∧ idx ≤ 0x403F ∧ sub = 8 then
    fxRule (fun s _ _ => ansOK (s.setLane (idx - 0x4000) { s.lane (idx - 0x4000) with cycmax := 0 }))
  else if 0x4101 ≤ idx ∧ idx ≤ 0x4140 ∧ sub = 2 then fxRule (fxImage (idx - 0x4100))
  else if 0x4101 ≤ idx ∧ idx ≤ 0x4140 ∧ sub = 5 then rangeRule idx sub (fun s b => decide (s.num idx 5 ≤ beNat b))
  else if idx = 0x5010 ∧ sub = 2 then ⟨always, keyMode, anyValue, fxKey⟩
  else if idx = 0x5400 then ⟨always, inCeremony, decTableOk, fxDecTable sub⟩
  else if idx = 0x5402 then ⟨always, inCeremony, anyValue, plainFx idx sub⟩
  else if 0x6001 ≤ idx ∧ idx ≤ 0x6018 ∧ sub = 5 then ⟨always, always, pkFenceRange (idx - 0x6001), fxPkFence (idx - 0x6001)⟩
  else if 0x6020 ≤ idx ∧ idx ≤ 0x602F ∧ sub = 2 then ⟨always, inCeremony, anyValue, fxCurve (idx - 0x6020)⟩
  else plainRule idx sub

/-- The value of 6800:05 that was committed is true: a write of false receives RANGE. -/
def cosignRange (s : State) (b : Bytes) : Bool :=
  decide (beNat b = 1) || decide (storedAt (storedSet s) 0x6800 5 ≠ [1])

/-- 6830:02: 0x01 installs, 0x02 activates, in UPDATE only. -/
def fxBase (s : State) (role : Nat) (v : Bytes) : Ans :=
  if beNat v = 1 then fxBaseInstall false s role v
  else if ¬ inUpdate s role then ansErr s rMODE
  else fxBaseActivate s role v

/-- 684m:02: 0x01 loads, 0x02 unloads; what the module's ENTRY returns is a free value. -/
def fxModule (m : Nat) (s : State) (role : Nat) (v : Bytes) : Ans :=
  if beNat v = 1 then
    let d := s.draw 4
    fxModuleLoad m (beNat d.1) false d.2 role v
  else fxModuleUnload m s role v

/-- The measurement and image entries. -/
def ruleMeasure (idx sub : Nat) : WRule :=
  if idx = 0x6800 ∧ sub = 5 then ⟨always, inCeremony, cosignRange, plainFx idx sub⟩
  else if idx = 0x6802 then fxRule (fxExtend (sub - 1))
  else if idx = 0x6820 ∧ sub = 2 then ⟨always, always, baseFloorRange, fun s _ v => raiseFloor 2 (beNat v) s⟩
  else if idx = 0x6820 ∧ sub = 4 then ⟨always, always, moduleFloorRange, fun s _ v => raiseFloor (15 + floorModid v) (beNat (v.drop 2)) s⟩
  else if idx = 0x6830 ∧ sub = 2 then fxRule fxBase
  else if 0x6840 ≤ idx ∧ idx ≤ 0x684F ∧ sub = 2 then fxRule (fxModule (idx - 0x6840))
  else plainRule idx sub

/-- The ranges of the condition thresholds 70cc:03 and 70cc:04 (R645); a condition without one takes none. -/
def thresholdRange (code sub : Nat) (_ : State) (b : Bytes) : Bool :=
  match code, sub with
  | 0x08, 3 => within (-40) (-10) b
  | 0x08, 4 => within 100 125 b
  | 0x09, 4 => within 2 100 b
  | 0x0E, 3 => within (-50) (-5) b
  | 0x0E, 4 => within 5 50 b
  | _, _ => false

/-- The ranges of the rail thresholds 7030-7039 (R645): 12 % to 3 % off nominal on each side, VDD_L and VBAT of their own. -/
def railRange (n sub : Nat) (_ : State) (b : Bytes) : Bool :=
  let v := asI32 b * 100
  let nom : Int := railNominal n
  if n = 0 then (if sub = 1 then within 620 690 b else within 820 900 b)
  else if n = 9 then (if sub = 1 then within 2000 2200 b else within 3600 3900 b)
  else if sub = 1 then decide (nom * 88 ≤ v) && decide (v ≤ nom * 97) else decide (nom * 103 ≤ v) && decide (v ≤ nom * 112)

/-- The effect of an entry of R649: stored, and logged as CONFIG under `src`. -/
def fxTamper (src idx sub : Nat) (s : State) (_role : Nat) (v : Bytes) : Ans := ansOK (logConfig src idx sub (storeEnt idx sub v s))

/-- The effect of 7080-70BF:01: an enabled channel with no baseline raises drift at once (R660). -/
def fxChannel (c : Nat) (s : State) (_role : Nat) (v : Bytes) : Ans :=
  let s := logConfig 3 (0x7080 + c) 1 (storeEnt (0x7080 + c) 1 v s)
  ansOK (if beNat v = 1 ∧ s.num (0x7080 + c) 3 = 0 then condAssert 0x0E c s else s)

/-- The tamper and log entries. -/
def ruleTamper (idx sub : Nat) : WRule :=
  if idx = 0x7000 ∧ sub = 6 then ⟨always, always, zeroRange, fxZeroise⟩
  else if idx = 0x7000 ∧ sub = 8 then fxRule fxRtc
  else if 0x7011 ≤ idx ∧ idx ≤ 0x7021 ∧ sub ≤ 5 then
    if sub = 2 then ⟨always, tamperWritable, responseRange (idx - 0x7010), fxResponse (idx - 0x7010)⟩
    else if sub = 5 then ⟨always, tamperWritable, anyValue, fxTamper 1 idx sub⟩
    else ⟨always, tamperWritable, thresholdRange (idx - 0x7010) sub, fxTamper 2 idx sub⟩
  else if 0x7030 ≤ idx ∧ idx ≤ 0x7039 then ⟨always, tamperWritable, railRange (idx - 0x7030) sub, fxTamper 2 idx sub⟩
  else if 0x7040 ≤ idx ∧ idx ≤ 0x7043 then ⟨always, tamperWritable, anyValue, fxTamper 2 idx sub⟩
  else if 0x7060 ≤ idx ∧ idx ≤ 0x7065 then
    ⟨always, tamperWritable, anyValue, if sub = 4 then fxAlarmAck (idx - 0x7060) else fxTamper 6 idx sub⟩
  else if idx = 0x7070 then ⟨always, tamperWritable, anyValue, fxLearn⟩
  else if 0x7080 ≤ idx ∧ idx ≤ 0x70BF then
    ⟨always, tamperWritable, anyValue, if sub = 1 then fxChannel (idx - 0x7080) else fxTamper 3 idx sub⟩
  else if idx = 0x7102 ∧ sub = 2 then fxRule fxLogStatement
  else if idx = 0x7103 then ⟨always, inCeremony, rollRange, fxLogRoll⟩
  else plainRule idx sub

/-- The kinds and indices of a block reset (R762). -/
def blockRange (_ : State) (b : Bytes) : Bool :=
  let k := beNat b / 256
  let i := beNat b % 256
  decide (k = 1 ∧ i < 16) || decide (k = 2 ∧ i < 24) || decide (k = 3 ∧ i < 32)

/-- The effect of 8800:0A (R762, R773). -/
def fxBlock (s : State) (role : Nat) (v : Bytes) : Ans :=
  let k := beNat v / 256
  let i := beNat v % 256
  startOp 0x8800 0x0A role .none v (fun n s =>
    let b :=
      if k = 1 then blockReset 1 i (fun s => s.domReady (11 + i) && quadIdle s i) (quadBlockReset i) s
      else if k = 2 then blockReset 2 i (fun s => s.domReady (9 + i / 12) && pkUnitIdle s i) (blockResetPk i) s
      else blockReset 3 i (fun s => portIdle s i) (blockResetPort i) s
    if b.1 then doneSlot n [] b.2 else failSlot n 1 b.2) s

/-- The effect of 8000:03 (R720): DOZE holds only while it is true. -/
def fxDozeEnable (s : State) (_role : Nat) (v : Bytes) : Ans :=
  let s := storeEnt 0x8000 3 v s
  ansOK (if beNat v = 0 ∧ s.power.deepFrom.isNone then dozeLeave s else s)

/-- The access-table, power, reset, MRAM, ceremony and group entries. -/
def ruleSystem (idx sub : Nat) : WRule :=
  if (0x7810 ≤ idx ∧ idx ≤ 0x781F) ∨ (0x7830 ≤ idx ∧ idx ≤ 0x783F) then ⟨always, always, winEntRange idx sub, fxWindow idx sub⟩
  else if idx = 0x8000 ∧ sub = 3 then fxRule fxDozeEnable
  else if idx = 0x8800 ∧ sub = 6 then fxRule fxSystemReset
  else if idx = 0x8800 ∧ sub = 7 then fxRule fxCoreReset
  else if idx = 0x8800 ∧ sub = 0x0A then ⟨always, always, blockRange, fxBlock⟩
  else if idx = 0x9010 then ⟨always, inCeremony, anyValue, plainFx idx sub⟩
  else if idx = 0x9020 ∧ sub = 3 then ⟨always, always, fun s _ => ownerCounter s, fxCounterIncrement 0⟩
  else if idx = 0x9020 ∧ sub = 4 then ⟨always, always, fun s _ => ownerCounter s, fxCounterRaise 0⟩
  else if idx = 0x9020 ∧ sub = 5 then ⟨always, always, fun s _ => ownerCounter s, fxCounterReinit⟩
  else if idx = 0x9110 then fxRule (fxFuseOption 0)
  else if idx = 0xA000 ∧ sub = 2 then ⟨always, inCeremony, anyValue, fxCeremony⟩
  else if idx = 0xA001 then ⟨always, inCeremony, ruleRange, plainFx idx sub⟩
  else if idx = 0xA030 ∧ sub = 1 then ⟨inVendor, always, anyValue, plainFx idx 0xFF⟩
  else if idx = 0xA030 ∧ sub = 2 then ⟨inVendor, always, anyValue, fxOwnership⟩
  else if idx = 0xA100 ∧ sub = 7 then fxRule fxResolve
  else plainRule idx sub

/-- ABORT of an operation (R102): one that waits ends at once, but for a configuration change, whose chapter names no abort point; a
ceremony ends at its next abort point (R582), a STAGE before its commit point (R443); an operation whose chapter names no abort point
goes on. An IDLE or terminal slot is left as it is (DESIGN CHOICE, log entry 72). -/
def abortOp (k : Nat) (s : State) : State :=
  let v := s.slot k
  if v.state = .idle ∨ v.state.terminal then s
  else if v.state = .queued ∧ s.unit.epoch.slot ≠ some k then endSlot k .aborted 0xFFFD [] s
  else if s.cer.kind ≠ 0 ∧ s.cer.slot = some k then cerAbort s
  else
    match s.key.repl.find? (fun e => decide (e.2.stageOp = some k)) with
    | some e => abortRepl e.1 s
    | none => s

/-- A slot returns to IDLE (R102): its status word reads 0. -/
def releaseSlot (k : Nat) (s : State) : State := s.setSlot k { s.slot k with state := .idle, code := 0, progress := 0 }

/-- The effect of F0ss:07 (R102): ABORT by the role that started the operation or by W; RELEASE of a slot that is not terminal
receives IN_PROGRESS. RELEASE of a slot that is IDLE receives OK (DESIGN CHOICE, log entry 72). -/
def fxSlot (k : Nat) (s : State) (role : Nat) (v : Bytes) : Ans :=
  let sl := s.slot k
  if beNat v = 1 then (if role ≠ sl.role ∧ ¬ mayWrite s role 8 then ansErr s rDENIED else ansOK (abortOp k s))
  else if sl.state ≠ .idle ∧ ¬ sl.state.terminal then ansErr s rIN_PROGRESS
  else ansOK (releaseSlot k s)

/-- The rule of every entry. -/
def writeRule (idx sub : Nat) : WRule :=
  if idx = 0x1100 then ruleMode sub
  else if 0x2000 ≤ idx ∧ idx ≤ 0x21FF then rulePort idx sub
  else if 0x3000 ≤ idx ∧ idx < 0x6800 then ruleUnits idx sub
  else if 0x6800 ≤ idx ∧ idx < 0x7000 then ruleMeasure idx sub
  else if 0x7000 ≤ idx ∧ idx < 0x7800 then ruleTamper idx sub
  else if 0x7800 ≤ idx ∧ idx < 0xB000 then ruleSystem idx sub
  else if 0xF000 ≤ idx ∧ idx ≤ 0xF0FF then fxRule (fxSlot (idx - 0xF000))
  else plainRule idx sub

/-- DICT_WRITE (R72, R94-R97, R104): any entry; a write of 1100:05 is a mode request. -/
def execDictWrite (r : Req) (s : State) : Res :=
  let idx := r.index.toNat
  let sub := r.sub.toNat
  if idx = 0x1100 ∧ sub = 5 then ok (serveMode r s)
  else
    let w := writeRule idx sub
    ok (serveWrite r idx sub w.lc w.md w.rg w.fx s)

/-- Entries whose table gives no default: commands, and RTC seconds. -/
def noDefault (idx sub : Nat) (e : Ent) : Bool :=
  (decide (e.rd = 0 ∧ e.store = .volat) && (! e.ty.isBytes || decide (idx = 0x6802 ∨ idx = 0x9110))) || decide (idx = 0x7000 ∧ sub = 8)

/-- The value a DEFAULT gives: RANGE where the entry has none (DESIGN CHOICE, log entry 62). -/
def defaultValue (idx sub : Nat) (s : State) (e : Ent) : Nat × Bytes :=
  if noDefault idx sub e then (rRANGE, []) else (rOK, entDefault s idx sub e)

/-- DICT_DEFAULT (R69, R117): the working value becomes the default, under the conditions of a write. -/
def execDictDefault (r : Req) (s : State) : Res :=
  let idx := r.index.toNat
  let sub := r.sub.toNat
  let w := writeRule idx sub
  ok (serve r opDEFAULT (fun _ => false) (judgeWrite r opDEFAULT idx sub w.lc w.md w.rg (defaultValue idx sub) w.fx) s)

/-- COMMIT accepted (R96, R98): a slot, QUEUED; the access it needs is W (DESIGN CHOICE, log entry 61). -/
def commitAnswer (s : State) (role : Nat) : Ans :=
  if ¬ mayWrite s role 8 then ansErr s rDENIED
  else if opBusy s 0 0 then ansErr s rIN_PROGRESS
  else
    match takeSlot s 0 0 role .commit with
    | none => ansErr s rNO_RESOURCE
    | some (k, t) => ⟨rOK, beBytes (handleOf k (t.slot k).seq) 4, t⟩

/-- DICT_COMMIT (R96). -/
def execDictCommit (r : Req) (s : State) : Res := ok (serve r opCOMMIT (fun _ => false) commitAnswer s)

/-- A waiting operation of a command entry starts (R101): what was written acts as it would have at once. Where the entry's own
conditions no longer hold it ends FAILED with CODE 0 (DESIGN CHOICE, log entry 83). -/
def resumeOp (k : Nat) (s : State) : State :=
  let v := s.slot k
  match v.work with
  | .keyCmd b => runKey b k (runSlot k s)
  | _ =>
    let t := { s with dict := { s.dict with resume := some k } }
    let a := if v.byIdx = 0x1100 ∧ v.bySub = 5 then startMode v.value t v.role else (writeRule v.byIdx v.bySub).fx t v.role v.value
    let u := if a.code = rOK then a.st else failSlot k 0 s
    { u with dict := { u.dict with resume := none } }

/-- LONGOP_START (R99, R101): the longest-waiting queued operation starts: a COMMIT runs, a configuration change loads once the
previous epoch has no work (R221), another does its work. -/
def execLongopStart (slot : Byte) (s : State) : Res :=
  let k := slot.toNat
  if firstQueued s ≠ some k then ok s
  else if (s.slot k).work = .commit then ok (commitRun k (runSlot k s))
  else if s.unit.epoch.slot = some k ∧ s.unit.epoch.st = .queued then (if prevWork s then ok s else ok (startLoad s))
  else ok (resumeOp k s)

/-- LONGOP_ABORT (R102): 0x01 written to F0ss:07. -/
def execLongopAbort (r : Req) (slot : Byte) (s : State) : Res :=
  ok (serveWrite (reqWith r [1]) (0xF000 + slot.toNat) 7 always always anyValue (fxSlot slot.toNat) s)

/-- LONGOP_RELEASE (R102): 0x02 written to F0ss:07. -/
def execLongopRelease (r : Req) (slot : Byte) (s : State) : Res :=
  ok (serveWrite (reqWith r [2]) (0xF000 + slot.toNat) 7 always always anyValue (fxSlot slot.toNat) s)

/-- LONGOP_AUTO_RELEASE (R102): 60 s after its end a terminal slot returns to IDLE. -/
def execLongopAutoRelease (slot : Byte) (s : State) : Res :=
  let v := s.slot slot.toNat
  if v.state.terminal then ok (releaseSlot slot.toNat (s.at (v.ended + sec 60))) else ok s

end Sys2Proof.Machine
end

