-- ==== Sys2Proof/Machine/Session.lean ====
section
/-!
DEFINITION. Sessions (R79-R91, R110, R113, R115): establishment, end, timers; and the other frames of the management Ethernet port
(R74).
-/
namespace Sys2Proof.Machine

/-- PREEMPT is granted (R89): OWNER in OWNED, VENDOR in BLANK or FA. -/
def mayPreempt (s : State) (role : Nat) : Bool :=
  (decide (role = 4) && decide (s.power.lcs = .owned)) || (decide (role = 5) && vendorOwns s)

/-- The one session is taken (R79, R85, R89): PREEMPT passes only over a fully open session, for a role that may. -/
def sessionBusy (s : State) (r : Req) : Bool :=
  s.dict.half.isSome ||
  (if bit r.flags.toNat 2 then ! (s.dict.sess.isSome && mayPreempt s (byteAt r.data 0).toNat) else s.dict.sess.isSome)

/-- The code an OPEN receives, 0 where it opens (R82, R91, R110, R412, R761). An unlisted role, or a key that is no point, receives
RANGE (DESIGN CHOICE, log entry 70). -/
def openCode (s : State) (r : Req) : Nat :=
  let role := (byteAt r.data 0).toNat
  if 1 ≤ role ∧ role ≤ 5 ∧ ¬ roleAllowed s role then rLIFE_CYCLE
  else if isMs r.tr then rDENIED
  else if s.rst.trngFailed ∨ s.key.rootSt = 5 ∨ s.key.root.isEmpty then rMODE
  else if role = 0 ∨ 5 < role ∨ (p384.dec (slice r.data 4 97)).isNone then rRANGE
  else if sessionBusy s r then rBUSY
  else 0

/-- Open a half session (R83): a session identifier, the device's nonce and ephemeral key, and IDK's signature over the transcript; the
reply's identifier and DATA, and the state. -/
def openHalf (r : Req) (s : State) : Nat × Bytes × State :=
  let i := s.draw 4
  let id := beNat i.1 % (2 ^ 32 - 1) + 1
  let n := i.2.draw 32
  let e := n.2.draw 56
  let d := beNat e.1 % (p384.n - 1) + 1
  let s := e.2
  let pub := p384.enc (p384.mul d p384.g)
  let t := sha384 (r.data ++ n.1 ++ pub)
  let eph := slice r.data 4 97
  let z := match p384.dec eph with
    | some q => (p384.enc (p384.mul d (some q))).drop 1 |>.take 48
    | none => []
  let sg := idkSign (1 :: t) s
  let h : HalfSession := { id := id, role := (byteAt r.data 0).toNat, tr := r.tr, src := r.src.toNat, cred := beNat (slice r.data 2 2),
                           started := s.dt, transcript := t, z := z, eph := eph }
  (id, n.1 ++ pub ++ sg.1, { sg.2 with dict := { sg.2.dict with half := some h } })

/-- Answer an OPEN that the session checks let pass under `s` (R83, R86, R87): the reply names the new session, and inside an open
session it is tagged and stored like every other. -/
def openReply (r : Req) (s : State) : State :=
  let c := openCode s r
  if c ≠ 0 then replyIn s r opOPEN c [] (if c = rBUSY then s.bump 0x10E0 5 else s)
  else
    let h := openHalf r s
    let p := mkReplyAs h.1 s r opOPEN rOK h.2.1 (decide (r.session ≠ 0))
    noteAnswer r p (sendReply p h.2.2)

/-- SESSION_OPEN (R79, R80, R82, R83, R89, R91, R110). -/
def execSessionOpen (r : Req) (s : State) : Res :=
  match gate r opOPEN (fun _ => false) s with
  | .ovr s => ok s
  | .anise s => ok s
  | .session s =>
    match sessionCheck s r opOPEN with
    | .code c => ok (refuse r opOPEN c s)
    | .resend p => ok (sendReply p s)
    | .go _ => ok (openReply r s)

/-- The public key that checks SESSION_AUTH (R84, R575): of a credential enrolled for the role; 0xFFFF is Tvedmor's, 0xFFFE the
bootstrap credential, which is the client's own ephemeral key. -/
def sessionKey (s : State) (h : HalfSession) : Bytes :=
  let l := s.power.lcs
  if h.cred = 0xFFFF then (if h.role = 5 then romKey 7 97 else [])
  else if h.cred = 0xFFFE then (if h.role = 1 ∧ (l = .blank ∨ l = .vendor ∨ l = .fa) then h.eph else [])
  else if h.cred < 64 ∧ credRole (s.cred h.cred) = h.role ∧ credState (s.cred h.cred) = 1 then credKey (s.cred h.cred)
  else []

/-- K_req and K_rsp (R84). -/
def sessionKeys (z t : Bytes) : Bytes × Bytes :=
  let k := kdfCtr ((sha384 (z ++ t)).take 32) (ascii "SV6400 DICT") t 512
  (k.take 32, k.drop 32)

/-- The session opens (R84, R89): an existing one ends first; the reply carries OK and a tag. -/
def openFull (r : Req) (h : HalfSession) (s : State) : State :=
  let k := sessionKeys h.z h.transcript
  let se : Session := { id := h.id, role := h.role, tr := h.tr, src := h.src, cred := h.cred, since := s.dt, idleFrom := s.dt,
                        kreq := k.1, krsp := k.2, lastSeq := 0, stored := none }
  let s := closeSession s
  let s := { s with dict := { s.dict with sess := some se, half := none } }
  replyIn s r opAUTH rOK [] s

/-- The check of SESSION_AUTH (R84): it opens the session, or ends the half-open one. -/
def authHalf (r : Req) (h : HalfSession) (s : State) : State :=
  if p384Verify (sessionKey s h) (2 :: h.transcript) r.data then openFull r h s
  else
    let s := { s with dict := { s.dict with half := none } }
    replyPlain r opAUTH rAUTH_FAIL [] (logEvent 0x10 h.role 0 h.cred (s.bump 0x10E0 6))

/-- An AUTH that no half-open session waits for (R81, R86, R87): the stored reply again where it repeats the answered one; else it is a
request of the open session like any other, and finds no session to open. -/
def authLate (r : Req) (s : State) : State :=
  let again : Option Reply :=
    match s.dict.sess with
    | some se =>
      if se.id = r.session.toNat ∧ se.tr = r.tr ∧ se.src = r.src.toNat ∧ se.lastSeq = 0 ∧ r.seq = 0 ∧ r.tag.isEmpty then se.stored
      else none
    | none => none
  match again with
  | some p => sendReply p s
  | none =>
    match sessionCheck s r opAUTH with
    | .code c => refuse r opAUTH c s
    | .resend p => sendReply p s
    | .go _ => replyIn s r opAUTH rNO_SESSION [] s

/-- SESSION_AUTH (R84, R87, R89). -/
def execSessionAuth (r : Req) (s : State) : Res :=
  match gate r opAUTH (fun _ => false) s with
  | .ovr s => ok s
  | .anise s => ok s
  | .session s =>
    match s.dict.half with
    | some h =>
      if h.id ≠ r.session.toNat ∨ h.tr ≠ r.tr ∨ h.src ≠ r.src.toNat then ok (authLate r s)
      else if r.seq ≠ 0 then ok (replyPlain r opAUTH rSEQUENCE [] (countRefusal r rSEQUENCE s))
      else ok (authHalf r h s)
    | none => ok (authLate r s)

/-- A request that only a session may send. -/
def inSession (r : Req) (f : State → State) (s : State) (role : Nat) : Ans :=
  if isMs r.tr then ansErr s rDENIED else if role = 0 then ansErr s rNO_SESSION else ansOK (f s)

/-- SESSION_CLOSE (R90, R113). -/
def execSessionClose (r : Req) (s : State) : Res := ok (serve r opCLOSE (fun _ => false) (inSession r closeSession) s)

/-- KEEPALIVE (R90): the idle timer restarts with the answer. -/
def execKeepalive (r : Req) (s : State) : Res := ok (serve r opKEEPALIVE (fun _ => false) (inSession r (fun s => s)) s)

/-- HALF_OPEN_TIMEOUT (R85): 2 s after the reply to SESSION_OPEN. -/
def execHalfOpenTimeout (s : State) : Res :=
  match s.dict.half with
  | none => ok s
  | some h =>
    let s := s.at (h.started + sec 2)
    ok { s with dict := { s.dict with half := none } }

/-- SESSION_IDLE_TIMEOUT (R90, R115, R116). -/
def execSessionIdleTimeout (s : State) : Res :=
  match s.dict.sess with
  | none => ok s
  | some se => ok (closeSession (s.at (se.idleFrom + ms (s.cfg 0x10E0 4))))

/-- MGE_ARP_ICMP (R74): the answers to ARP and neighbour discovery are the address asked for and the MAC address; an echo answers its
data; a fragment of a request is dropped and counted. -/
def execMgeArpIcmp (f : MgeFrame) (s : State) : Res :=
  if ¬ s.domReady 32 ∨ s.cfg 0x2040 1 = 0 then ok s
  else
    let mac := s.entV 0x2040 2
    match f with
    | .arp t => ok (if mgeV4 s t.toNat then s.emit (.mge (beBytes t.toNat 4 ++ mac)) else s)
    | .neighbour t => ok (if mgeV6 s (beBytes t.toNat 16) then s.emit (.mge (beBytes t.toNat 16 ++ mac)) else s)
    | .echo4 t b => ok (if mgeV4 s t.toNat then s.emit (.mge b) else s)
    | .echo6 t b => ok (if mgeV6 s (beBytes t.toNat 16) then s.emit (.mge b) else s)
    | .fragment => ok (s.bump 0x2040 0x0A)
    | .other => ok s

end Sys2Proof.Machine
end

