-- ==== Sys2Proof/Machine/All.lean ====
section
/-!
DEFINITION. Every file of meanings, gathered for the dispatch.
-/
end

