-- ==== Sys2Proof/Machine/Dispatch.lean ====
section
/-!
DEFINITION. The dispatch: one arm per command, each one direct call of its meaning.
-/
namespace Sys2Proof.Machine

/-- The effect of one command on everything but the queue. -/
def exec (i : Instr) (s : State) : Host.Outcome State Fault Refusal :=
  match i with
  | .dictRead r => Sys2Proof.Machine.execDictRead r s
  | .dictWrite r => Sys2Proof.Machine.execDictWrite r s
  | .dictDefault r => Sys2Proof.Machine.execDictDefault r s
  | .dictCommit r => Sys2Proof.Machine.execDictCommit r s
  | .sessionOpen r => Sys2Proof.Machine.execSessionOpen r s
  | .sessionAuth r => Sys2Proof.Machine.execSessionAuth r s
  | .sessionClose r => Sys2Proof.Machine.execSessionClose r s
  | .keepalive r => Sys2Proof.Machine.execKeepalive r s
  | .halfOpenTimeout => Sys2Proof.Machine.execHalfOpenTimeout s
  | .sessionIdleTimeout => Sys2Proof.Machine.execSessionIdleTimeout s
  | .mgeArpIcmp f => Sys2Proof.Machine.execMgeArpIcmp f s
  | .longopStart slot => Sys2Proof.Machine.execLongopStart slot s
  | .longopAbort r slot => Sys2Proof.Machine.execLongopAbort r slot s
  | .longopRelease r slot => Sys2Proof.Machine.execLongopRelease r slot s
  | .longopAutoRelease slot => Sys2Proof.Machine.execLongopAutoRelease slot s
  | .frameReceive p f => Sys2Proof.Machine.execFrameReceive p f s
  | .wakeFrame p f => Sys2Proof.Machine.execWakeFrame p f s
  | .tcpSegmentReceive p g => Sys2Proof.Machine.execTcpSegmentReceive p g s
  | .tcpRetransmitTimeout p => Sys2Proof.Machine.execTcpRetransmitTimeout p s
  | .tcpKeepaliveTimer p => Sys2Proof.Machine.execTcpKeepaliveTimer p s
  | .tcpZeroWindowProbe p => Sys2Proof.Machine.execTcpZeroWindowProbe p s
  | .tcpTimeWaitExpiry p => Sys2Proof.Machine.execTcpTimeWaitExpiry p s
  | .tcpReconnectTimer p => Sys2Proof.Machine.execTcpReconnectTimer p s
  | .classifierContextStart src => Sys2Proof.Machine.execClassifierContextStart src s
  | .classifierStop src ctx => Sys2Proof.Machine.execClassifierStop src ctx s
  | .clsNop f => Sys2Proof.Machine.execClsNop f s
  | .clsLdb f => Sys2Proof.Machine.execClsLdb f s
  | .clsLdh f => Sys2Proof.Machine.execClsLdh f s
  | .clsLdw f => Sys2Proof.Machine.execClsLdw f s
  | .clsLdf f => Sys2Proof.Machine.execClsLdf f s
  | .clsNum f => Sys2Proof.Machine.execClsNum f s
  | .clsNumb f => Sys2Proof.Machine.execClsNumb f s
  | .clsMovi f => Sys2Proof.Machine.execClsMovi f s
  | .clsMovhi f => Sys2Proof.Machine.execClsMovhi f s
  | .clsAdd f => Sys2Proof.Machine.execClsAdd f s
  | .clsAddr f => Sys2Proof.Machine.execClsAddr f s
  | .clsAnd f => Sys2Proof.Machine.execClsAnd f s
  | .clsOr f => Sys2Proof.Machine.execClsOr f s
  | .clsShr f => Sys2Proof.Machine.execClsShr f s
  | .clsShl f => Sys2Proof.Machine.execClsShl f s
  | .clsBeq f => Sys2Proof.Machine.execClsBeq f s
  | .clsBne f => Sys2Proof.Machine.execClsBne f s
  | .clsBlt f => Sys2Proof.Machine.execClsBlt f s
  | .clsBge f => Sys2Proof.Machine.execClsBge f s
  | .bmw f => Sys2Proof.Machine.execBmw f s
  | .rule f => Sys2Proof.Machine.execRule f s
  | .setc f => Sys2Proof.Machine.execSetc f s
  | .setdl f => Sys2Proof.Machine.execSetdl f s
  | .setf f => Sys2Proof.Machine.execSetf f s
  | .setk f => Sys2Proof.Machine.execSetk f s
  | .setid f => Sys2Proof.Machine.execSetid f s
  | .emit f => Sys2Proof.Machine.execEmit f s
  | .reject f => Sys2Proof.Machine.execReject f s
  | .drop f => Sys2Proof.Machine.execDrop f s
  | .bypassForward p f => Sys2Proof.Machine.execBypassForward p f s
  | .transmitFrameSelect p => Sys2Proof.Machine.execTransmitFrameSelect p s
  | .resultHeaderArrival die => Sys2Proof.Machine.execResultHeaderArrival die s
  | .portSweep src => Sys2Proof.Machine.execPortSweep src s
  | .portLinkUp p => Sys2Proof.Machine.execPortLinkUp p s
  | .portLinkDown p => Sys2Proof.Machine.execPortLinkDown p s
  | .hostSqTailWrite q tail es => Sys2Proof.Machine.execHostSqTailWrite q tail es s
  | .hostRequestArrival q body => Sys2Proof.Machine.execHostRequestArrival q body s
  | .hpqQueueEnable q => Sys2Proof.Machine.execHpqQueueEnable q s
  | .hpqQueueDisable q => Sys2Proof.Machine.execHpqQueueDisable q s
  | .pePerst high => Sys2Proof.Machine.execPePerst high s
  | .classifierInstall r k => Sys2Proof.Machine.execClassifierInstall r k s
  | .admissionTest die => Sys2Proof.Machine.execAdmissionTest die s
  | .bodyMoveDone lane slot => Sys2Proof.Machine.execBodyMoveDone lane slot s
  | .runStart lane => Sys2Proof.Machine.execRunStart lane s
  | .overrunStop lane => Sys2Proof.Machine.execOverrunStop lane s
  | .laneFence lane cause => Sys2Proof.Machine.execLaneFence lane cause s
  | .spareTileSwitch k => Sys2Proof.Machine.execSpareTileSwitch k s
  | .spareFail k => Sys2Proof.Machine.execSpareFail k s
  | .quadWakeChargeExpiry q => Sys2Proof.Machine.execQuadWakeChargeExpiry q s
  | .pkEngineFence e cause => Sys2Proof.Machine.execPkEngineFence e cause s
  | .selftestClaim u => Sys2Proof.Machine.execSelftestClaim u s
  | .selftestSliceStart u => Sys2Proof.Machine.execSelftestSliceStart u s
  | .selftestSliceEnd u r => Sys2Proof.Machine.execSelftestSliceEnd u r s
  | .selftestClaimWithdraw q => Sys2Proof.Machine.execSelftestClaimWithdraw q s
  | .selftestSchedule => Sys2Proof.Machine.execSelftestSchedule s
  | .epochChangeRequest r => Sys2Proof.Machine.execEpochChangeRequest r s
  | .epochLoadStart => Sys2Proof.Machine.execEpochLoadStart s
  | .epochAckTimeout => Sys2Proof.Machine.execEpochAckTimeout s
  | .epochFlip => Sys2Proof.Machine.execEpochFlip s
  | .collectorAccept die => Sys2Proof.Machine.execCollectorAccept die s
  | .auditBlockClose die => Sys2Proof.Machine.execAuditBlockClose die s
  | .auditChunkWrite die => Sys2Proof.Machine.execAuditChunkWrite die s
  | .auditSysresetClose die => Sys2Proof.Machine.execAuditSysresetClose die s
  | .auditEraseClose die => Sys2Proof.Machine.execAuditEraseClose die s
  | .frameSlotFree lane slot => Sys2Proof.Machine.execFrameSlotFree lane slot s
  | .laneTimerExpiry lane k => Sys2Proof.Machine.execLaneTimerExpiry lane k s
  | .laneTimerConfig lane k v => Sys2Proof.Machine.execLaneTimerConfig lane k v s
  | .tevtClear lane v => Sys2Proof.Machine.execTevtClear lane v s
  | .mbxiPost lane => Sys2Proof.Machine.execMbxiPost lane s
  | .mbxiAck lane => Sys2Proof.Machine.execMbxiAck lane s
  | .mbxoPost lane => Sys2Proof.Machine.execMbxoPost lane s
  | .mbxoAck lane => Sys2Proof.Machine.execMbxoAck lane s
  | .bankLoad lane b => Sys2Proof.Machine.execBankLoad lane b s
  | .bankAck lane b => Sys2Proof.Machine.execBankAck lane b s
  | .bankDiscard lane b => Sys2Proof.Machine.execBankDiscard lane b s
  | .laneFenceRequest via lane => Sys2Proof.Machine.execLaneFenceRequest via lane s
  | .laneUnfence via lane => Sys2Proof.Machine.execLaneUnfence via lane s
  | .memoryUncorrectable lane shared => Sys2Proof.Machine.execMemoryUncorrectable lane shared s
  | .cacheRemoval => Sys2Proof.Machine.execCacheRemoval s
  | .nop f => Sys2Proof.Machine.execNop f s
  | .trap f info => Sys2Proof.Machine.execTrap f info s
  | .wbsync f => Sys2Proof.Machine.execWbsync f s
  | .mfc f d cr => Sys2Proof.Machine.execMfc f d cr s
  | .mtc f d cr => Sys2Proof.Machine.execMtc f d cr s
  | .add f rd rs1 rs2 => Sys2Proof.Machine.execAdd f rd rs1 rs2 s
  | .sub f rd rs1 rs2 => Sys2Proof.Machine.execSub f rd rs1 rs2 s
  | .addc f rd rs1 rs2 => Sys2Proof.Machine.execAddc f rd rs1 rs2 s
  | .subb f rd rs1 rs2 => Sys2Proof.Machine.execSubb f rd rs1 rs2 s
  | .and f rd rs1 rs2 => Sys2Proof.Machine.execAnd f rd rs1 rs2 s
  | .or f rd rs1 rs2 => Sys2Proof.Machine.execOr f rd rs1 rs2 s
  | .xor f rd rs1 rs2 => Sys2Proof.Machine.execXor f rd rs1 rs2 s
  | .andn f rd rs1 rs2 => Sys2Proof.Machine.execAndn f rd rs1 rs2 s
  | .sll f rd rs1 rs2 => Sys2Proof.Machine.execSll f rd rs1 rs2 s
  | .srl f rd rs1 rs2 => Sys2Proof.Machine.execSrl f rd rs1 rs2 s
  | .sra f rd rs1 rs2 => Sys2Proof.Machine.execSra f rd rs1 rs2 s
  | .ror f rd rs1 rs2 => Sys2Proof.Machine.execRor f rd rs1 rs2 s
  | .min f rd rs1 rs2 => Sys2Proof.Machine.execMin f rd rs1 rs2 s
  | .max f rd rs1 rs2 => Sys2Proof.Machine.execMax f rd rs1 rs2 s
  | .minu f rd rs1 rs2 => Sys2Proof.Machine.execMinu f rd rs1 rs2 s
  | .maxu f rd rs1 rs2 => Sys2Proof.Machine.execMaxu f rd rs1 rs2 s
  | .mul f rd rs1 rs2 => Sys2Proof.Machine.execMul f rd rs1 rs2 s
  | .mulh f rd rs1 rs2 => Sys2Proof.Machine.execMulh f rd rs1 rs2 s
  | .mulhu f rd rs1 rs2 => Sys2Proof.Machine.execMulhu f rd rs1 rs2 s
  | .divu f rd rs1 rs2 => Sys2Proof.Machine.execDivu f rd rs1 rs2 s
  | .remu f rd rs1 rs2 => Sys2Proof.Machine.execRemu f rd rs1 rs2 s
  | .clz f rd rs1 => Sys2Proof.Machine.execClz f rd rs1 s
  | .popc f rd rs1 => Sys2Proof.Machine.execPopc f rd rs1 s
  | .bswap f rd rs1 => Sys2Proof.Machine.execBswap f rd rs1 s
  | .sel f rd rs1 rs2 ps => Sys2Proof.Machine.execSel f rd rs1 rs2 ps s
  | .mov f rd rs1 => Sys2Proof.Machine.execMov f rd rs1 s
  | .addi f rd rs1 imm => Sys2Proof.Machine.execAddi f rd rs1 imm s
  | .andi f rd rs1 imm => Sys2Proof.Machine.execAndi f rd rs1 imm s
  | .ori f rd rs1 imm => Sys2Proof.Machine.execOri f rd rs1 imm s
  | .xori f rd rs1 imm => Sys2Proof.Machine.execXori f rd rs1 imm s
  | .shiSll f rd rs1 pos => Sys2Proof.Machine.execShiSll f rd rs1 pos s
  | .shiSrl f rd rs1 pos => Sys2Proof.Machine.execShiSrl f rd rs1 pos s
  | .shiSra f rd rs1 pos => Sys2Proof.Machine.execShiSra f rd rs1 pos s
  | .shiRor f rd rs1 pos => Sys2Proof.Machine.execShiRor f rd rs1 pos s
  | .shiExtu f rd rs1 pos wm1 => Sys2Proof.Machine.execShiExtu f rd rs1 pos wm1 s
  | .shiExts f rd rs1 pos wm1 => Sys2Proof.Machine.execShiExts f rd rs1 pos wm1 s
  | .shiIns f rd rs1 pos wm1 => Sys2Proof.Machine.execShiIns f rd rs1 pos wm1 s
  | .movi f rd imm => Sys2Proof.Machine.execMovi f rd imm s
  | .movh f rd imm => Sys2Proof.Machine.execMovh f rd imm s
  | .cmp f pd pdn cond rs1 rs2 => Sys2Proof.Machine.execCmp f pd pdn cond rs1 rs2 s
  | .cmpi f pd pdn cond rs1 imm => Sys2Proof.Machine.execCmpi f pd pdn cond rs1 imm s
  | .plogAnd f pd pa pb na nb => Sys2Proof.Machine.execPlogAnd f pd pa pb na nb s
  | .plogOr f pd pa pb na nb => Sys2Proof.Machine.execPlogOr f pd pa pb na nb s
  | .plogXor f pd pa pb na nb => Sys2Proof.Machine.execPlogXor f pd pa pb na nb s
  | .plogMov f pd pa na => Sys2Proof.Machine.execPlogMov f pd pa na s
  | .ld f d a sz bsel mode sx off => Sys2Proof.Machine.execLd f d a sz bsel mode sx off s
  | .st f d a sz bsel mode off => Sys2Proof.Machine.execSt f d a sz bsel mode off s
  | .writeBufferEntryComplete lane => Sys2Proof.Machine.execWriteBufferEntryComplete lane s
  | .ai f a imm => Sys2Proof.Machine.execAi f a imm s
  | .aaddi f a imm => Sys2Proof.Machine.execAaddi f a imm s
  | .amov f a ds => Sys2Proof.Machine.execAmov f a ds s
  | .aread f a dd => Sys2Proof.Machine.execAread f a dd s
  | .aadd f a ds => Sys2Proof.Machine.execAadd f a ds s
  | .br f off => Sys2Proof.Machine.execBr f off s
  | .call f off => Sys2Proof.Machine.execCall f off s
  | .jr f ds => Sys2Proof.Machine.execJr f ds s
  | .callr f ds => Sys2Proof.Machine.execCallr f ds s
  | .ret f => Sys2Proof.Machine.execRet f s
  | .loop f ds off => Sys2Proof.Machine.execLoop f ds off s
  | .loopi f count off => Sys2Proof.Machine.execLoopi f count off s
  | .push f r => Sys2Proof.Machine.execPush f r s
  | .pop f r => Sys2Proof.Machine.execPop f r s
  | .pusha f r => Sys2Proof.Machine.execPusha f r s
  | .popa f r => Sys2Proof.Machine.execPopa f r s
  | .pushm f mask => Sys2Proof.Machine.execPushm f mask s
  | .popm f mask => Sys2Proof.Machine.execPopm f mask s
  | .mac f ac ds dt => Sys2Proof.Machine.execMac f ac ds dt s
  | .macu f ac ds dt => Sys2Proof.Machine.execMacu f ac ds dt s
  | .msu f ac ds dt => Sys2Proof.Machine.execMsu f ac ds dt s
  | .aclr f ac => Sys2Proof.Machine.execAclr f ac s
  | .acsra f ac n => Sys2Proof.Machine.execAcsra f ac n s
  | .acrd f ac dd part => Sys2Proof.Machine.execAcrd f ac dd part s
  | .acwr f ac ds => Sys2Proof.Machine.execAcwr f ac ds s
  | .acadd f ac ds => Sys2Proof.Machine.execAcadd f ac ds s
  | .aesEcbE f k sa sb da db dn => Sys2Proof.Machine.execAesEcbE f k sa sb da db dn s
  | .aesEcbD f k sa sb da db dn => Sys2Proof.Machine.execAesEcbD f k sa sb da db dn s
  | .aesCbcE f k sa sb da db dn => Sys2Proof.Machine.execAesCbcE f k sa sb da db dn s
  | .aesCbcD f k sa sb da db dn => Sys2Proof.Machine.execAesCbcD f k sa sb da db dn s
  | .aesCtr f k sa sb da db dn => Sys2Proof.Machine.execAesCtr f k sa sb da db dn s
  | .aesCmacG f k sa sb da db dn => Sys2Proof.Machine.execAesCmacG f k sa sb da db dn s
  | .aesCmacV f k sa sb da db dn pd => Sys2Proof.Machine.execAesCmacV f k sa sb da db dn pd s
  | .aesGhkey f k => Sys2Proof.Machine.execAesGhkey f k s
  | .tdesEcbE f k sa sb da db dn => Sys2Proof.Machine.execTdesEcbE f k sa sb da db dn s
  | .tdesEcbD f k sa sb da db dn => Sys2Proof.Machine.execTdesEcbD f k sa sb da db dn s
  | .tdesCbcE f k sa sb da db dn => Sys2Proof.Machine.execTdesCbcE f k sa sb da db dn s
  | .tdesCbcD f k sa sb da db dn => Sys2Proof.Machine.execTdesCbcD f k sa sb da db dn s
  | .tdesMac1G f k sa sb da db dn => Sys2Proof.Machine.execTdesMac1G f k sa sb da db dn s
  | .tdesMac1V f k sa sb da db dn pd => Sys2Proof.Machine.execTdesMac1V f k sa sb da db dn pd s
  | .tdesMac3G f k sa sb da db dn => Sys2Proof.Machine.execTdesMac3G f k sa sb da db dn s
  | .tdesMac3V f k sa sb da db dn pd => Sys2Proof.Machine.execTdesMac3V f k sa sb da db dn pd s
  | .hashSha256 f first last sa sb da db dn => Sys2Proof.Machine.execHashSha256 f first last sa sb da db dn s
  | .hashSha384 f first last sa sb da db dn => Sys2Proof.Machine.execHashSha384 f first last sa sb da db dn s
  | .hashSha512 f first last sa sb da db dn => Sys2Proof.Machine.execHashSha512 f first last sa sb da db dn s
  | .hashGhash f first last sa sb da db dn => Sys2Proof.Machine.execHashGhash f first last sa sb da db dn s
  | .safTranslate f ki ko sa sb da db dx => Sys2Proof.Machine.execSafTranslate f ki ko sa sb da db dx s
  | .safOfsVerify f ki ko sa sb da db dx => Sys2Proof.Machine.execSafOfsVerify f ki ko sa sb da db dx s
  | .safOfsGen f ki ko sa sb da db dx => Sys2Proof.Machine.execSafOfsGen f ki ko sa sb da db dx s
  | .safPvvVerify f ki ko sa sb da db dx => Sys2Proof.Machine.execSafPvvVerify f ki ko sa sb da db dx s
  | .safPvvGen f ki ko sa sb da db dx => Sys2Proof.Machine.execSafPvvGen f ki ko sa sb da db dx s
  | .safCvvVerify f ki ko sa sb da db dx => Sys2Proof.Machine.execSafCvvVerify f ki ko sa sb da db dx s
  | .safCvvGen f ki ko sa sb da db dx => Sys2Proof.Machine.execSafCvvGen f ki ko sa sb da db dx s
  | .saffronDrbgReseed q => Sys2Proof.Machine.execSaffronDrbgReseed q s
  | .kchk f pd pdn k => Sys2Proof.Machine.execKchk f pd pdn k s
  | .mcpy f sa sb da db dn => Sys2Proof.Machine.execMcpy f sa sb da db dn s
  | .mfill f da db dn => Sys2Proof.Machine.execMfill f da db dn s
  | .mxor f sa sb da db dn => Sys2Proof.Machine.execMxor f sa sb da db dn s
  | .mcmp f sa sb da db dn pd => Sys2Proof.Machine.execMcmp f sa sb da db dn pd s
  | .hexd f sa sb da db dn pd => Sys2Proof.Machine.execHexd f sa sb da db dn pd s
  | .hexe f sa sb da db dn => Sys2Proof.Machine.execHexe f sa sb da db dn s
  | .bcdp f sa sb da db dn pd => Sys2Proof.Machine.execBcdp f sa sb da db dn pd s
  | .bcdu f sa sb da db dn pd => Sys2Proof.Machine.execBcdu f sa sb da db dn pd s
  | .pksub f sa sb dn => Sys2Proof.Machine.execPksub f sa sb dn s
  | .post f ds dt => Sys2Proof.Machine.execPost f ds dt s
  | .customOpcode f u ra rb rc imm => Sys2Proof.Machine.execCustomOpcode f u ra rb rc imm s
  | .eret f => Sys2Proof.Machine.execEret f s
  | .wait f => Sys2Proof.Machine.execWait f s
  | .waitResume => Sys2Proof.Machine.execWaitResume s
  | .supervisorInterrupt src => Sys2Proof.Machine.execSupervisorInterrupt src s
  | .imageInstall r ii => Sys2Proof.Machine.execImageInstall r ii s
  | .imageRemove r ii => Sys2Proof.Machine.execImageRemove r ii s
  | .keyCreate r => Sys2Proof.Machine.execKeyCreate r s
  | .keyDelete r => Sys2Proof.Machine.execKeyDelete r s
  | .keyGenerate r => Sys2Proof.Machine.execKeyGenerate r s
  | .keyLoad r => Sys2Proof.Machine.execKeyLoad r s
  | .keySave r => Sys2Proof.Machine.execKeySave r s
  | .keyImport r => Sys2Proof.Machine.execKeyImport r s
  | .keyExport r => Sys2Proof.Machine.execKeyExport r s
  | .keyStage r => Sys2Proof.Machine.execKeyStage r s
  | .keyCommit r => Sys2Proof.Machine.execKeyCommit r s
  | .keyAbort r => Sys2Proof.Machine.execKeyAbort r s
  | .keyAttest r => Sys2Proof.Machine.execKeyAttest r s
  | .keyRead r => Sys2Proof.Machine.execKeyRead r s
  | .keyLoadpub r => Sys2Proof.Machine.execKeyLoadpub r s
  | .replacementVerified node => Sys2Proof.Machine.execReplacementVerified node s
  | .keyDelivery pipe badNode badSlot => Sys2Proof.Machine.execKeyDelivery pipe badNode badSlot s
  | .keyBusMessage die bad => Sys2Proof.Machine.execKeyBusMessage die bad s
  | .coherenceScanPass => Sys2Proof.Machine.execCoherenceScanPass s
  | .oldRunFree => Sys2Proof.Machine.execOldRunFree s
  | .decimalTableWrite r t => Sys2Proof.Machine.execDecimalTableWrite r t s
  | .pkJobRelease e => Sys2Proof.Machine.execPkJobRelease e s
  | .pkYieldPoint e n => Sys2Proof.Machine.execPkYieldPoint e n s
  | .pkJobEnd e => Sys2Proof.Machine.execPkJobEnd e s
  | .pkRsaPrivate e => Sys2Proof.Machine.execPkRsaPrivate e s
  | .pkRsaSignPkcs1 e => Sys2Proof.Machine.execPkRsaSignPkcs1 e s
  | .pkRsaSignPss e => Sys2Proof.Machine.execPkRsaSignPss e s
  | .pkRsaPublic e => Sys2Proof.Machine.execPkRsaPublic e s
  | .pkRsaVerifyPkcs1 e => Sys2Proof.Machine.execPkRsaVerifyPkcs1 e s
  | .pkRsaVerifyPss e => Sys2Proof.Machine.execPkRsaVerifyPss e s
  | .pkEcdsaSign e => Sys2Proof.Machine.execPkEcdsaSign e s
  | .pkEcdsaVerify e => Sys2Proof.Machine.execPkEcdsaVerify e s
  | .pkKeyAgreement e => Sys2Proof.Machine.execPkKeyAgreement e s
  | .pkPublicFromPrivate e => Sys2Proof.Machine.execPkPublicFromPrivate e s
  | .pkEddsaSign e => Sys2Proof.Machine.execPkEddsaSign e s
  | .pkEddsaVerify e => Sys2Proof.Machine.execPkEddsaVerify e s
  | .pkRsaKeygen e p q => Sys2Proof.Machine.execPkRsaKeygen e p q s
  | .rsaGenLimit die => Sys2Proof.Machine.execRsaGenLimit die s
  | .vasVerify e bad => Sys2Proof.Machine.execVasVerify e bad s
  | .pkDrbgReseed e => Sys2Proof.Machine.execPkDrbgReseed e s
  | .pkeBgGo die => Sys2Proof.Machine.execPkeBgGo die s
  | .pkeBgAbort die => Sys2Proof.Machine.execPkeBgAbort die s
  | .bgClaimTimeout die => Sys2Proof.Machine.execBgClaimTimeout die s
  | .pkFenceRequest r e => Sys2Proof.Machine.execPkFenceRequest r e s
  | .pkFenceRelease r e => Sys2Proof.Machine.execPkFenceRelease r e s
  | .curveInstall r c => Sys2Proof.Machine.execCurveInstall r c s
  | .curveUnload r c => Sys2Proof.Machine.execCurveUnload r c s
  | .cardInsert f => Sys2Proof.Machine.execCardInsert f s
  | .cardAtr f atr => Sys2Proof.Machine.execCardAtr f atr s
  | .cardRemove f => Sys2Proof.Machine.execCardRemove f s
  | .cardWaitTimeout w => Sys2Proof.Machine.execCardWaitTimeout w s
  | .cardSelect f => Sys2Proof.Machine.execCardSelect f s
  | .cardGetIdentity f => Sys2Proof.Machine.execCardGetIdentity f s
  | .cardSign f => Sys2Proof.Machine.execCardSign f s
  | .cardOpenChannel f => Sys2Proof.Machine.execCardOpenChannel f s
  | .cardPutComponent f => Sys2Proof.Machine.execCardPutComponent f s
  | .cardGetComponent f => Sys2Proof.Machine.execCardGetComponent f s
  | .cardClearComponent f slot => Sys2Proof.Machine.execCardClearComponent f slot s
  | .cardResponse f sw data edc => Sys2Proof.Machine.execCardResponse f sw data edc s
  | .cardDeactivate f => Sys2Proof.Machine.execCardDeactivate f s
  | .ceremonyStartEnrol r => Sys2Proof.Machine.execCeremonyStartEnrol r s
  | .ceremonyStartComponentsIn r => Sys2Proof.Machine.execCeremonyStartComponentsIn r s
  | .ceremonyStartComponentsOut r => Sys2Proof.Machine.execCeremonyStartComponentsOut r s
  | .ceremonyStartGroup r => Sys2Proof.Machine.execCeremonyStartGroup r s
  | .ceremonyTimeout => Sys2Proof.Machine.execCeremonyTimeout s
  | .ceremonyLimit => Sys2Proof.Machine.execCeremonyLimit s
  | .ownershipStart r => Sys2Proof.Machine.execOwnershipStart r s
  | .mirrorLinkUp l nonce => Sys2Proof.Machine.execMirrorLinkUp l nonce s
  | .mirrorAuth l stmt eph idk good => Sys2Proof.Machine.execMirrorAuth l stmt eph idk good s
  | .mirrorHeartbeat l seq bad => Sys2Proof.Machine.execMirrorHeartbeat l seq bad s
  | .mirrorHeartbeatTimer l => Sys2Proof.Machine.execMirrorHeartbeatTimer l s
  | .mirrorSilenceTimeout l => Sys2Proof.Machine.execMirrorSilenceTimeout l s
  | .mirrorToken l seq bad t => Sys2Proof.Machine.execMirrorToken l seq bad t s
  | .mirrorTamper l body => Sys2Proof.Machine.execMirrorTamper l body s
  | .mirrorPrepare l seq bad chg op node rec key ros => Sys2Proof.Machine.execMirrorPrepare l seq bad chg op node rec key ros s
  | .mirrorPrepared l seq bad chg => Sys2Proof.Machine.execMirrorPrepared l seq bad chg s
  | .mirrorRefuse l seq bad chg => Sys2Proof.Machine.execMirrorRefuse l seq bad chg s
  | .mirrorCommit l seq bad chg => Sys2Proof.Machine.execMirrorCommit l seq bad chg s
  | .mirrorCommitted l seq bad chg => Sys2Proof.Machine.execMirrorCommitted l seq bad chg s
  | .mirrorAbort l seq bad chg => Sys2Proof.Machine.execMirrorAbort l seq bad chg s
  | .mirrorStatus l seq bad chg answer => Sys2Proof.Machine.execMirrorStatus l seq bad chg answer s
  | .mirrorResync l seq bad decs joined nodes => Sys2Proof.Machine.execMirrorResync l seq bad decs joined nodes s
  | .mirrorKeyTransfer l seq bad node rec key => Sys2Proof.Machine.execMirrorKeyTransfer l seq bad node rec key s
  | .mirrorResendTimer chg => Sys2Proof.Machine.execMirrorResendTimer chg s
  | .mirrorPrepareTimeout chg => Sys2Proof.Machine.execMirrorPrepareTimeout chg s
  | .resolveAbort r => Sys2Proof.Machine.execResolveAbort r s
  | .digStart ctrl => Sys2Proof.Machine.execDigStart ctrl s
  | .digAbort => Sys2Proof.Machine.execDigAbort s
  | .digDataWrite w => Sys2Proof.Machine.execDigDataWrite w s
  | .digBlockDone => Sys2Proof.Machine.execDigBlockDone s
  | .digFinish flags => Sys2Proof.Machine.execDigFinish flags s
  | .mrVendorExtend vidx src => Sys2Proof.Machine.execMrVendorExtend vidx src s
  | .mrOwnerExtend oidx => Sys2Proof.Machine.execMrOwnerExtend oidx s
  | .mrExtendEntry r k => Sys2Proof.Machine.execMrExtendEntry r k s
  | .mrExtendDone => Sys2Proof.Machine.execMrExtendDone s
  | .bootlock => Sys2Proof.Machine.execBootlock s
  | .baseInstall r fault => Sys2Proof.Machine.execBaseInstall r fault s
  | .baseActivate r => Sys2Proof.Machine.execBaseActivate r s
  | .moduleLoad r m d0 fault => Sys2Proof.Machine.execModuleLoad r m d0 fault s
  | .moduleUnload r m => Sys2Proof.Machine.execModuleUnload r m s
  | .baseFloorRaise r => Sys2Proof.Machine.execBaseFloorRaise r s
  | .moduleFloorRaise r => Sys2Proof.Machine.execModuleFloorRaise r s
  | .supervisorBoot faults => Sys2Proof.Machine.execSupervisorBoot faults s
  | .conditionAssert code sensor => Sys2Proof.Machine.execConditionAssert code sensor s
  | .conditionDeassert code => Sys2Proof.Machine.execConditionDeassert code s
  | .escalation code => Sys2Proof.Machine.execEscalation code s
  | .zeroise r => Sys2Proof.Machine.execZeroise r s
  | .tmpZeroWrite v => Sys2Proof.Machine.execTmpZeroWrite v s
  | .alarmEnter => Sys2Proof.Machine.execAlarmEnter s
  | .conditionResponseWrite r code => Sys2Proof.Machine.execConditionResponseWrite r code s
  | .slackReport die crit sensor => Sys2Proof.Machine.execSlackReport die crit sensor s
  | .lclkStepRecovery die => Sys2Proof.Machine.execLclkStepRecovery die s
  | .vddLSetpointUp => Sys2Proof.Machine.execVddLSetpointUp s
  | .vddLSetpointDown => Sys2Proof.Machine.execVddLSetpointDown s
  | .learn r => Sys2Proof.Machine.execLearn r s
  | .learnDone means unstable => Sys2Proof.Machine.execLearnDone means unstable s
  | .guardSample cut short => Sys2Proof.Machine.execGuardSample cut short s
  | .alarmOutputAck r n => Sys2Proof.Machine.execAlarmOutputAck r n s
  | .evidenceEntryWrite => Sys2Proof.Machine.execEvidenceEntryWrite s
  | .logRoll r => Sys2Proof.Machine.execLogRoll r s
  | .logStatement r => Sys2Proof.Machine.execLogStatement r s
  | .rtcSet r => Sys2Proof.Machine.execRtcSet r s
  | .fabricAccess a => Sys2Proof.Machine.execFabricAccess a s
  | .dmaPiece ini addr write done len data => Sys2Proof.Machine.execDmaPiece ini addr write done len data s
  | .windowEnable die n => Sys2Proof.Machine.execWindowEnable die n s
  | .windowLock die n => Sys2Proof.Machine.execWindowLock die n s
  | .defenLock die => Sys2Proof.Machine.execDefenLock die s
  | .accessWindowEntryWrite r => Sys2Proof.Machine.execAccessWindowEntryWrite r s
  | .domainIdleTimeout d => Sys2Proof.Machine.execDomainIdleTimeout d s
  | .powerDownComplete d => Sys2Proof.Machine.execPowerDownComplete d s
  | .powerUp d src idx => Sys2Proof.Machine.execPowerUp d src idx s
  | .domainReady d late => Sys2Proof.Machine.execDomainReady d late s
  | .readyTimeout d => Sys2Proof.Machine.execReadyTimeout d s
  | .retryBackoff d => Sys2Proof.Machine.execRetryBackoff d s
  | .deepTimer => Sys2Proof.Machine.execDeepTimer s
  | .deepWake src r => Sys2Proof.Machine.execDeepWake src r s
  | .msAddressMatch port served => Sys2Proof.Machine.execMsAddressMatch port served s
  | .gpEdge pin level => Sys2Proof.Machine.execGpEdge pin level s
  | .rtcWake => Sys2Proof.Machine.execRtcWake s
  | .modeRequestService r => Sys2Proof.Machine.execModeRequestService r s
  | .modeRequestBypass r => Sys2Proof.Machine.execModeRequestBypass r s
  | .modeRequestCeremony r => Sys2Proof.Machine.execModeRequestCeremony r s
  | .modeRequestUpdate r => Sys2Proof.Machine.execModeRequestUpdate r s
  | .modeRequestReturn r => Sys2Proof.Machine.execModeRequestReturn r s
  | .pwrHoldQuads v => Sys2Proof.Machine.execPwrHoldQuads v s
  | .pwrHoldPk v => Sys2Proof.Machine.execPwrHoldPk v s
  | .pwrHoldDeep v => Sys2Proof.Machine.execPwrHoldDeep v s
  | .powerGoodFall main => Sys2Proof.Machine.execPowerGoodFall main s
  | .retire r => Sys2Proof.Machine.execRetire r s
  | .debugUnlockArm r => Sys2Proof.Machine.execDebugUnlockArm r s
  | .debugArmExpiry => Sys2Proof.Machine.execDebugArmExpiry s
  | .powerOn => Sys2Proof.Machine.execPowerOn s
  | .sysrstPin => Sys2Proof.Machine.execSysrstPin s
  | .systemResetRequest r => Sys2Proof.Machine.execSystemResetRequest r s
  | .coreResetRequest r => Sys2Proof.Machine.execCoreResetRequest r s
  | .rstReqSys key => Sys2Proof.Machine.execRstReqSys key s
  | .rstReqCoreKd key => Sys2Proof.Machine.execRstReqCoreKd key s
  | .rstReqCoreCd0 key => Sys2Proof.Machine.execRstReqCoreCd0 key s
  | .rstReqCoreCd1 key => Sys2Proof.Machine.execRstReqCoreCd1 key s
  | .computeDieRestore die => Sys2Proof.Machine.execComputeDieRestore die s
  | .watchdogEnable => Sys2Proof.Machine.execWatchdogEnable s
  | .watchdogKick v => Sys2Proof.Machine.execWatchdogKick v s
  | .watchdogExpiry => Sys2Proof.Machine.execWatchdogExpiry s
  | .optionLoad marginal => Sys2Proof.Machine.execOptionLoad marginal s
  | .domainReleaseNext => Sys2Proof.Machine.execDomainReleaseNext s
  | .keyDieBringup res => Sys2Proof.Machine.execKeyDieBringup res s
  | .postSelftest lanes pk clusters => Sys2Proof.Machine.execPostSelftest lanes pk clusters s
  | .trngTestFail => Sys2Proof.Machine.execTrngTestFail s
  | .blockResetQuad via q => Sys2Proof.Machine.execBlockResetQuad via q s
  | .blockResetPk via e => Sys2Proof.Machine.execBlockResetPk via e s
  | .blockResetPort via p => Sys2Proof.Machine.execBlockResetPort via p s
  | .tapExtest v => Sys2Proof.Machine.execTapExtest v s
  | .tapIdcode => Sys2Proof.Machine.execTapIdcode s
  | .tapSamplePreload v => Sys2Proof.Machine.execTapSamplePreload v s
  | .tapChal => Sys2Proof.Machine.execTapChal s
  | .tapUnlock sig => Sys2Proof.Machine.execTapUnlock sig s
  | .tapFabric addr write data => Sys2Proof.Machine.execTapFabric addr write data s
  | .tapSysreset => Sys2Proof.Machine.execTapSysreset s
  | .tapBypass => Sys2Proof.Machine.execTapBypass s
  | .nvmRead ini e => Sys2Proof.Machine.execNvmRead ini e s
  | .nvmWrite ini fails => Sys2Proof.Machine.execNvmWrite ini fails s
  | .nvmCounterIncrement ini fails => Sys2Proof.Machine.execNvmCounterIncrement ini fails s
  | .nvmCounterRaise ini fails => Sys2Proof.Machine.execNvmCounterRaise ini fails s
  | .nvmCounterRead ini => Sys2Proof.Machine.execNvmCounterRead ini s
  | .nvmCommandDone => Sys2Proof.Machine.execNvmCommandDone s
  | .nvmOrRead ini => Sys2Proof.Machine.execNvmOrRead ini s
  | .nvmOrWrite ini fails => Sys2Proof.Machine.execNvmOrWrite ini fails s
  | .nvmOrUnlock ini => Sys2Proof.Machine.execNvmOrUnlock ini s
  | .nvmOrLock ini => Sys2Proof.Machine.execNvmOrLock ini s
  | .fuseBurn keyDie stuck => Sys2Proof.Machine.execFuseBurn keyDie stuck s
  | .fuseOptionBurn r stuck => Sys2Proof.Machine.execFuseOptionBurn r stuck s
  | .counterIncrement r fails => Sys2Proof.Machine.execCounterIncrement r fails s
  | .counterRaise r fails => Sys2Proof.Machine.execCounterRaise r fails s
  | .counterReinit r => Sys2Proof.Machine.execCounterReinit r s
  | .registerWrite die off v => Sys2Proof.Machine.execRegisterWrite die off v s
  | .sysrstNRise => Sys2Proof.Machine.execSysrstNRise s
  | .porstNAssert => Sys2Proof.Machine.execPorstNAssert s
  | .cardClassARetry f => Sys2Proof.Machine.execCardClassARetry f s
  | .spareSubstitutionTimeout k => Sys2Proof.Machine.execSpareSubstitutionTimeout k s
  | .hostLinkRetrain width rate => Sys2Proof.Machine.execHostLinkRetrain width rate s
  | .illegalWord core w => Sys2Proof.Machine.execIllegalWord core w s
  | .cqHeadWrite q head => Sys2Proof.Machine.execCqHeadWrite q head s

end Sys2Proof.Machine
end

