-- ==== Sys2Proof/WellFormed.lean ====
section
/-!
DEFINITION. What a well-formed command is: the bounds its operands' types do not carry. A device cannot meet an ill-formed command;
a meaning is total all the same.
-/
namespace Sys2Proof

/-- A dictionary message fits the largest carrier: 22 header bytes, DATA and TAG in 8,192 bytes (R68, R78). -/
def Req.fits (r : Req) : Bool := decide (22 + r.data.length + r.tag.length ≤ 8192)

/-- A frame whose EtherType is that of an 802.1Q tag carries one (R121). -/
def Frame.plain (f : Frame) : Bool := f.tci.isSome || decide (f.etype ≠ 0x8100)

/-- A write carries its bytes; a fetch is no write (R681). -/
def FabAccess.sized (a : FabAccess) : Bool := if a.write then decide (a.data.length = a.len) && ! a.fetch else a.data.isEmpty

/-- A power domain PD00 to PD32 (R704). -/
def domainOk (d : Nat) : Bool := decide (d ≤ 32)

/-- A wake source of R713. -/
def wakeSrcOk (n : Nat) : Bool := decide (1 ≤ n) && decide (n ≤ 0x0C)

/-- A command is well formed. -/
def Instr.wf (i : Instr) : Bool :=
  match i with
  | .dictRead r => r.fits
  | .dictWrite r => r.fits
  | .dictDefault r => r.fits
  | .dictCommit r => r.fits
  | .sessionOpen r => r.fits
  | .sessionAuth r => r.fits
  | .sessionClose r => r.fits
  | .keepalive r => r.fits
  | .halfOpenTimeout => true
  | .sessionIdleTimeout => true
  | .mgeArpIcmp .. => true
  | .longopStart .. => true
  | .longopAbort r _ => r.fits
  | .longopRelease r _ => r.fits
  | .longopAutoRelease .. => true
  | .frameReceive _ f => f.plain
  | .wakeFrame _ f => f.plain
  | .tcpSegmentReceive .. => true
  | .tcpRetransmitTimeout .. => true
  | .tcpKeepaliveTimer .. => true
  | .tcpZeroWindowProbe .. => true
  | .tcpTimeWaitExpiry .. => true
  | .tcpReconnectTimer .. => true
  | .classifierContextStart .. => true
  | .classifierStop .. => true
  | .clsNop .. => true
  | .clsLdb .. => true
  | .clsLdh .. => true
  | .clsLdw .. => true
  | .clsLdf .. => true
  | .clsNum .. => true
  | .clsNumb .. => true
  | .clsMovi .. => true
  | .clsMovhi .. => true
  | .clsAdd .. => true
  | .clsAddr .. => true
  | .clsAnd .. => true
  | .clsOr .. => true
  | .clsShr .. => true
  | .clsShl .. => true
  | .clsBeq .. => true
  | .clsBne .. => true
  | .clsBlt .. => true
  | .clsBge .. => true
  | .bmw .. => true
  | .rule .. => true
  | .setc .. => true
  | .setdl .. => true
  | .setf .. => true
  | .setk .. => true
  | .setid .. => true
  | .emit .. => true
  | .reject .. => true
  | .drop .. => true
  | .bypassForward _ f => f.plain
  | .transmitFrameSelect .. => true
  | .resultHeaderArrival .. => true
  | .portSweep .. => true
  | .portLinkUp .. => true
  | .portLinkDown .. => true
  | .hostSqTailWrite .. => true
  | .hostRequestArrival .. => true
  | .hpqQueueEnable .. => true
  | .hpqQueueDisable .. => true
  | .pePerst .. => true
  | .classifierInstall r _ => r.fits
  | .admissionTest .. => true
  | .bodyMoveDone .. => true
  | .runStart .. => true
  | .overrunStop .. => true
  | .laneFence .. => true
  | .spareTileSwitch .. => true
  | .spareFail .. => true
  | .quadWakeChargeExpiry .. => true
  | .pkEngineFence .. => true
  | .selftestClaim .. => true
  | .selftestSliceStart .. => true
  | .selftestSliceEnd .. => true
  | .selftestClaimWithdraw .. => true
  | .selftestSchedule => true
  | .epochChangeRequest r => r.fits
  | .epochLoadStart => true
  | .epochAckTimeout => true
  | .epochFlip => true
  | .collectorAccept .. => true
  | .auditBlockClose .. => true
  | .auditChunkWrite .. => true
  | .auditSysresetClose .. => true
  | .auditEraseClose .. => true
  | .frameSlotFree .. => true
  | .laneTimerExpiry .. => true
  | .laneTimerConfig .. => true
  | .tevtClear .. => true
  | .mbxiPost .. => true
  | .mbxiAck .. => true
  | .mbxoPost .. => true
  | .mbxoAck .. => true
  | .bankLoad .. => true
  | .bankAck .. => true
  | .bankDiscard .. => true
  | .laneFenceRequest via _ => via.all Req.fits
  | .laneUnfence via _ => via.all Req.fits
  | .memoryUncorrectable .. => true
  | .cacheRemoval => true
  | .nop .. => true
  | .trap .. => true
  | .wbsync .. => true
  | .mfc .. => true
  | .mtc .. => true
  | .add .. => true
  | .sub .. => true
  | .addc .. => true
  | .subb .. => true
  | .and .. => true
  | .or .. => true
  | .xor .. => true
  | .andn .. => true
  | .sll .. => true
  | .srl .. => true
  | .sra .. => true
  | .ror .. => true
  | .min .. => true
  | .max .. => true
  | .minu .. => true
  | .maxu .. => true
  | .mul .. => true
  | .mulh .. => true
  | .mulhu .. => true
  | .divu .. => true
  | .remu .. => true
  | .clz .. => true
  | .popc .. => true
  | .bswap .. => true
  | .sel .. => true
  | .mov .. => true
  | .addi .. => true
  | .andi .. => true
  | .ori .. => true
  | .xori .. => true
  | .shiSll .. => true
  | .shiSrl .. => true
  | .shiSra .. => true
  | .shiRor .. => true
  | .shiExtu .. => true
  | .shiExts .. => true
  | .shiIns .. => true
  | .movi .. => true
  | .movh .. => true
  | .cmp .. => true
  | .cmpi .. => true
  | .plogAnd .. => true
  | .plogOr .. => true
  | .plogXor .. => true
  | .plogMov .. => true
  | .ld .. => true
  | .st .. => true
  | .writeBufferEntryComplete .. => true
  | .ai .. => true
  | .aaddi .. => true
  | .amov .. => true
  | .aread .. => true
  | .aadd .. => true
  | .br .. => true
  | .call .. => true
  | .jr .. => true
  | .callr .. => true
  | .ret .. => true
  | .loop .. => true
  | .loopi .. => true
  | .push .. => true
  | .pop .. => true
  | .pusha .. => true
  | .popa .. => true
  | .pushm .. => true
  | .popm .. => true
  | .mac .. => true
  | .macu .. => true
  | .msu .. => true
  | .aclr .. => true
  | .acsra .. => true
  | .acrd .. => true
  | .acwr .. => true
  | .acadd .. => true
  | .aesEcbE .. => true
  | .aesEcbD .. => true
  | .aesCbcE .. => true
  | .aesCbcD .. => true
  | .aesCtr .. => true
  | .aesCmacG .. => true
  | .aesCmacV .. => true
  | .aesGhkey .. => true
  | .tdesEcbE .. => true
  | .tdesEcbD .. => true
  | .tdesCbcE .. => true
  | .tdesCbcD .. => true
  | .tdesMac1G .. => true
  | .tdesMac1V .. => true
  | .tdesMac3G .. => true
  | .tdesMac3V .. => true
  | .hashSha256 .. => true
  | .hashSha384 .. => true
  | .hashSha512 .. => true
  | .hashGhash .. => true
  | .safTranslate .. => true
  | .safOfsVerify .. => true
  | .safOfsGen .. => true
  | .safPvvVerify .. => true
  | .safPvvGen .. => true
  | .safCvvVerify .. => true
  | .safCvvGen .. => true
  | .saffronDrbgReseed .. => true
  | .kchk .. => true
  | .mcpy .. => true
  | .mfill .. => true
  | .mxor .. => true
  | .mcmp .. => true
  | .hexd .. => true
  | .hexe .. => true
  | .bcdp .. => true
  | .bcdu .. => true
  | .pksub .. => true
  | .post .. => true
  | .customOpcode .. => true
  | .eret .. => true
  | .wait .. => true
  | .waitResume => true
  | .supervisorInterrupt .. => true
  | .imageInstall r _ => r.fits
  | .imageRemove r _ => r.fits
  | .keyCreate r => r.fits
  | .keyDelete r => r.fits
  | .keyGenerate r => r.fits
  | .keyLoad r => r.fits
  | .keySave r => r.fits
  | .keyImport r => r.fits
  | .keyExport r => r.fits
  | .keyStage r => r.fits
  | .keyCommit r => r.fits
  | .keyAbort r => r.fits
  | .keyAttest r => r.fits
  | .keyRead r => r.fits
  | .keyLoadpub r => r.fits
  | .replacementVerified .. => true
  | .keyDelivery .. => true
  | .keyBusMessage .. => true
  | .coherenceScanPass => true
  | .oldRunFree => true
  | .decimalTableWrite r _ => r.fits
  | .pkJobRelease .. => true
  | .pkYieldPoint .. => true
  | .pkJobEnd .. => true
  | .pkRsaPrivate .. => true
  | .pkRsaSignPkcs1 .. => true
  | .pkRsaSignPss .. => true
  | .pkRsaPublic .. => true
  | .pkRsaVerifyPkcs1 .. => true
  | .pkRsaVerifyPss .. => true
  | .pkEcdsaSign .. => true
  | .pkEcdsaVerify .. => true
  | .pkKeyAgreement .. => true
  | .pkPublicFromPrivate .. => true
  | .pkEddsaSign .. => true
  | .pkEddsaVerify .. => true
  | .pkRsaKeygen _ p q => decide (p < 2 ^ 2048) && decide (q < 2 ^ 2048)
  | .rsaGenLimit .. => true
  | .vasVerify .. => true
  | .pkDrbgReseed .. => true
  | .pkeBgGo .. => true
  | .pkeBgAbort .. => true
  | .bgClaimTimeout .. => true
  | .pkFenceRequest r _ => r.fits
  | .pkFenceRelease r _ => r.fits
  | .curveInstall r _ => r.fits
  | .curveUnload r _ => r.fits
  | .cardInsert .. => true
  | .cardAtr .. => true
  | .cardRemove .. => true
  | .cardWaitTimeout .. => true
  | .cardSelect .. => true
  | .cardGetIdentity .. => true
  | .cardSign .. => true
  | .cardOpenChannel .. => true
  | .cardPutComponent .. => true
  | .cardGetComponent .. => true
  | .cardClearComponent .. => true
  | .cardResponse .. => true
  | .cardDeactivate .. => true
  | .ceremonyStartEnrol r => r.fits
  | .ceremonyStartComponentsIn r => r.fits
  | .ceremonyStartComponentsOut r => r.fits
  | .ceremonyStartGroup r => r.fits
  | .ceremonyTimeout => true
  | .ceremonyLimit => true
  | .ownershipStart r => r.fits
  | .mirrorLinkUp .. => true
  | .mirrorAuth .. => true
  | .mirrorHeartbeat .. => true
  | .mirrorHeartbeatTimer .. => true
  | .mirrorSilenceTimeout .. => true
  | .mirrorToken .. => true
  | .mirrorTamper .. => true
  | .mirrorPrepare .. => true
  | .mirrorPrepared .. => true
  | .mirrorRefuse .. => true
  | .mirrorCommit .. => true
  | .mirrorCommitted .. => true
  | .mirrorAbort .. => true
  | .mirrorStatus .. => true
  | .mirrorResync .. => true
  | .mirrorKeyTransfer .. => true
  | .mirrorResendTimer .. => true
  | .mirrorPrepareTimeout .. => true
  | .resolveAbort r => r.fits
  | .digStart .. => true
  | .digAbort => true
  | .digDataWrite .. => true
  | .digBlockDone => true
  | .digFinish .. => true
  | .mrVendorExtend .. => true
  | .mrOwnerExtend .. => true
  | .mrExtendEntry r _ => r.fits
  | .mrExtendDone => true
  | .bootlock => true
  | .baseInstall r _ => r.fits
  | .baseActivate r => r.fits
  | .moduleLoad r _ _ _ => r.fits
  | .moduleUnload r _ => r.fits
  | .baseFloorRaise r => r.fits
  | .moduleFloorRaise r => r.fits
  | .supervisorBoot .. => true
  | .conditionAssert .. => true
  | .conditionDeassert .. => true
  | .escalation .. => true
  | .zeroise r => r.fits
  | .tmpZeroWrite .. => true
  | .alarmEnter => true
  | .conditionResponseWrite r _ => r.fits
  | .slackReport .. => true
  | .lclkStepRecovery .. => true
  | .vddLSetpointUp => true
  | .vddLSetpointDown => true
  | .learn r => r.fits
  | .learnDone means _ => decide (means.length = 64)
  | .guardSample .. => true
  | .alarmOutputAck r _ => r.fits
  | .evidenceEntryWrite => true
  | .logRoll r => r.fits
  | .logStatement r => r.fits
  | .rtcSet r => r.fits
  | .fabricAccess a => a.sized
  | .dmaPiece _ _ write _ len data => (! write || decide (data.length = len.val))
  | .windowEnable .. => true
  | .windowLock .. => true
  | .defenLock .. => true
  | .accessWindowEntryWrite r => r.fits
  | .domainIdleTimeout d => domainOk d
  | .powerDownComplete d => (domainOk d || decide (d = 0x41))
  | .powerUp d src _ => domainOk d && wakeSrcOk src
  | .domainReady d _ => domainOk d
  | .readyTimeout d => domainOk d
  | .retryBackoff d => domainOk d
  | .deepTimer => true
  | .deepWake src _ => wakeSrcOk src
  | .msAddressMatch .. => true
  | .gpEdge .. => true
  | .rtcWake => true
  | .modeRequestService r => r.fits
  | .modeRequestBypass r => r.fits
  | .modeRequestCeremony r => r.fits
  | .modeRequestUpdate r => r.fits
  | .modeRequestReturn r => r.fits
  | .pwrHoldQuads .. => true
  | .pwrHoldPk .. => true
  | .pwrHoldDeep .. => true
  | .powerGoodFall .. => true
  | .retire r => r.fits
  | .debugUnlockArm r => r.fits
  | .debugArmExpiry => true
  | .powerOn => true
  | .sysrstPin => true
  | .systemResetRequest r => r.fits
  | .coreResetRequest r => r.fits
  | .rstReqSys .. => true
  | .rstReqCoreKd .. => true
  | .rstReqCoreCd0 .. => true
  | .rstReqCoreCd1 .. => true
  | .computeDieRestore .. => true
  | .watchdogEnable => true
  | .watchdogKick .. => true
  | .watchdogExpiry => true
  | .optionLoad marginal => marginal.all (fun w => decide (w < 256))
  | .domainReleaseNext => true
  | .keyDieBringup .. => true
  | .postSelftest .. => true
  | .trngTestFail => true
  | .blockResetQuad via _ => via.all Req.fits
  | .blockResetPk via _ => via.all Req.fits
  | .blockResetPort via _ => via.all Req.fits
  | .tapExtest .. => true
  | .tapIdcode => true
  | .tapSamplePreload .. => true
  | .tapChal => true
  | .tapUnlock .. => true
  | .tapFabric .. => true
  | .tapSysreset => true
  | .tapBypass => true
  | .nvmRead .. => true
  | .nvmWrite _ fails => decide (fails ≤ 67)
  | .nvmCounterIncrement _ fails => decide (fails ≤ 67)
  | .nvmCounterRaise _ fails => decide (fails ≤ 67)
  | .nvmCounterRead .. => true
  | .nvmCommandDone => true
  | .nvmOrRead .. => true
  | .nvmOrWrite _ fails => decide (fails ≤ 67)
  | .nvmOrUnlock .. => true
  | .nvmOrLock .. => true
  | .fuseBurn .. => true
  | .fuseOptionBurn r _ => r.fits
  | .counterIncrement r fails => r.fits && decide (fails ≤ 67)
  | .counterRaise r fails => r.fits && decide (fails ≤ 67)
  | .counterReinit r => r.fits
  | .registerWrite .. => true
  | .sysrstNRise => true
  | .porstNAssert => true
  | .cardClassARetry .. => true
  | .spareSubstitutionTimeout .. => true
  | .hostLinkRetrain width rate => [0, 1, 2, 4, 8, 12, 16].contains width && decide (rate ≤ 5)
  | .illegalWord .. => true
  | .cqHeadWrite .. => true

end Sys2Proof
end

