-- ==== Sys2Proof/Safety.lean ====
section
/-!
DEFINITION. What a safe run is, in the terms the statements use: one step after another, each a next state, and the invariant
`Inv` of the state's data.
-/
namespace Sys2Proof.Machine

/-- A step answers a next state. -/
def State.runs (s : State) : Prop := ∃ t, step s = .next t

/-- `t` is reached from `s` by steps that each answer a next state. -/
inductive Reaches : State → State → Prop where
  | refl (s : State) : Reaches s s
  | step (s t u : State) (h : Reaches s t) (n : step t = .next u) : Reaches s u

/-- The invariant of the state's data: the MRAM is in its canonical form, and every command that waits is well formed. -/
structure Inv (s : State) : Prop where
  mram : Memory.wf s.nvm.mram = true
  queue : ∀ c ∈ s.pending, c.wf = true

/-- A lane can issue the instruction of `i` and run it for `k` cycles of run `r` inside its budget: guard 1, no store waiting in
the write buffer and no imprecise access waiting (R209, R313, R318, R343). -/
structure CanIssue (s : State) (i : Issue) (r : Run) (k : Nat) : Prop where
  lane : i.core.val < 64
  run : (s.lane i.core.val).run = some r
  guard : (s.core i.core.val).guard i.pn i.pg.val = true
  wb : (s.core i.core.val).wb = []
  wbT : (s.core i.core.val).wbT = []
  imp : (s.core i.core.val).imp = none
  left : (s.lane i.core.val).cyc + k < (s.lane i.core.val).budget

/-- It can go on at the next word: no loop level open, and a next word to fetch (R317, R322). -/
structure Ready (s : State) (i : Issue) (r : Run) (k : Nat) : Prop extends CanIssue s i r k where
  loops : (s.core i.core.val).ldepth = 0
  word : (s.core i.core.val).pc.toNat + 4 ≤ 0x7FFC

/-- The state in which the instruction of `i` issues: DT is that of its cycle of the run. -/
def State.atIssue (s : State) (i : Issue) (r : Run) : State :=
  (s.at (r.start + (s.lane i.core.val).cyc)).setCore i.core.val (s.core i.core.val)

/-- The state after an instruction of `k` cycles whose effect, before the PC moves, is `u`; the core becomes `c`. -/
def State.afterLane (s u : State) (i : Issue) (r : Run) (k : Nat) (c : Core) : State :=
  ((u.setCore i.core.val c).setLane i.core.val { u.lane i.core.val with cyc := (s.lane i.core.val).cyc + k }).at
    (r.start + ((s.lane i.core.val).cyc + k))

/-- `t` differs from `s` in DT, and in the registers and the run of core and lane `l`, alone. -/
structure LaneOnly (l : Nat) (s t : State) : Prop where
  rest : t = { s with dt := t.dt, unit := { s.unit with cores := t.unit.cores, lanes := t.unit.lanes } }
  cores : ∀ m, m ≠ l → t.core m = s.core m
  lanes : ∀ m, m ≠ l → t.lane m = s.lane m

/-- After an instruction of `k` cycles that leaves the core `c`: nothing else changes but the run's cycle count and DT. -/
structure LaneAfter (i : Issue) (r : Run) (k : Nat) (c : Core) (s t : State) : Prop where
  only : LaneOnly i.core.val s t
  core : t.core i.core.val = c
  lane : t.lane i.core.val = { s.lane i.core.val with cyc := (s.lane i.core.val).cyc + k }
  dt : t.dt = Nat.max s.dt (r.start + (s.lane i.core.val).cyc + k)

/-- A command is an instruction of `k` cycles that leaves the core `c`. -/
def Goes (x : Instr) (i : Issue) (r : Run) (k : Nat) (c : Core) (s : State) : Prop :=
  ∃ t, exec x s = .next t ∧ LaneAfter i r k c s t

/-- A command is an instruction of `k` cycles that leaves the core `c` and goes on at the next word. -/
def Runs (x : Instr) (i : Issue) (r : Run) (k : Nat) (c : Core) (s : State) : Prop :=
  ∃ t, exec x s = .next t ∧ LaneAfter i r k { c with pc := c.pc + 4 } s t

/-- A command is an instruction of `k` cycles that leaves the core `c`, writes `bs` at offset `o` of bank `b`, and goes on at the next
word. -/
def Writes (x : Instr) (i : Issue) (r : Run) (k : Nat) (c : Core) (b o : Nat) (bs : Bytes) (s : State) : Prop :=
  exec x s = .next (s.afterLane (coreWrite i.core.val b o bs ((s.atIssue i r).setCore i.core.val c)) i r k { c with pc := c.pc + 4 })

/-- The supervisor can issue, at level `v` and at once: no interrupt that it would take, guard 1, no imprecise access, no loop level,
and the next word is fetched at the same level (R395, R396, R687). -/
structure SupReady (s : State) (i : Issue) : Prop where
  core : i.core.val = 64
  runs : supRuns s = true
  quiet : supPending s = 0 ∨ s.unit.sup.ie = false
  guard : s.unit.sup.core.guard i.pn i.pg.val = true
  imp : s.unit.sup.core.imp = none
  loops : s.unit.sup.core.ldepth = 0
  word : s.unit.sup.core.pc.toNat + 4 ≤ 0xFFFC
  fetch : fetchLevel s (s.unit.sup.core.ibk.toNat * 65536 + s.unit.sup.core.pc.toNat + 4) = some s.unit.sup.level

/-- The supervisor after an instruction of `k` cycles that leaves the core `c` and goes on at the next word: nothing else changes, but
the boot ROM's run ends above its level (R687). -/
def State.afterSup (s : State) (k : Nat) (c : Core) : State :=
  let d := Nat.max s.dt s.unit.sup.free
  { s with
    dt := d, unit := { s.unit with sup := { s.unit.sup with core := { c with pc := c.pc + 4 }, free := d + k } }
    act := if s.unit.sup.level = 0x60 then s.act else { s.act with romrun := false } }

/-- The request of a row, naming the entry of that row. -/
def asking (r : Req) (idx sub : Nat) : Req := { r with index := BitVec.ofNat 16 idx, sub := BitVec.ofNat 8 sub }

/-- A request with opcode `op` passes the checks of its carrier, its form and its session (R104, points 1 to 6): `t` is the state that
counts it, and `role` the role it has. -/
structure Heard (s : State) (r : Req) (op : Nat) (t : State) (role : Nat) : Prop where
  heard : ∀ free, gate r op free s = .session t
  check : sessionCheck t r op = .go role

/-- A write of entry `idx:sub` with the value `v` passes the checks of existence, rights, type and plain range too (R104). -/
structure Granted (s : State) (r : Req) (idx sub : Nat) (t : State) (role : Nat) (v : Bytes) : Prop extends Heard s (asking r idx sub) 2 t role where
  row : ∃ e, findEnt idx sub = some e ∧ e.wr ≠ 0 ∧ mayWrite t role e.wr = true ∧ plainRange e v = true ∧ writtenValue t idx sub e r = (0, v)
  notMs : isMs r.tr = false

/-- The command answers its request OK with `d`, and leaves `u` but for the reply. -/
def Answers (x : Instr) (s : State) (r : Req) (idx sub : Nat) (t : State) (d : Bytes) (u : State) : Prop :=
  exec x s = .next (replyIn t (asking r idx sub) 2 0 d u)

/-- A long operation of entry `idx:sub` can begin in slot `k` at once: none of that entry is open, a slot is free and no operation
waits (R98, R101). -/
structure CanBegin (t : State) (idx sub k : Nat) : Prop where
  idle : opBusy t idx sub = false
  free : freeSlot t = some k
  first : firstQueued t = none
  resume : t.dict.resume = none

/-- Slot `k` holds an operation of entry `idx:sub` that waits. -/
def queued (t : State) (idx sub role : Nat) (w : Work) (k : Nat) : State :=
  { t.setSlot k { state := .queued, seq := t.dict.nextSeq, used := true, byIdx := idx, bySub := sub, started := t.dt, role := role, work := w } with
    dict := { (t.setSlot k { state := .queued, seq := t.dict.nextSeq, used := true, byIdx := idx, bySub := sub, started := t.dt, role := role, work := w }).dict with
      nextSeq := (t.dict.nextSeq + 1) % 2 ^ 16, order := t.dict.order ++ [k] } }

/-- The operation in slot `k` has begun to run. -/
def begun (t : State) (idx sub role : Nat) (w : Work) (k : Nat) : State := runSlot k (queued t idx sub role w k)

/-- The handle that the reply of a long operation begun in slot `k` carries (R98). -/
def handle (t : State) (k : Nat) : Bytes := beBytes (0xF0 * 2 ^ 24 + t.dict.nextSeq % 2 ^ 16 * 256 + k) 4

end Sys2Proof.Machine
end

