-- ==== Sys2Proof/Certificates/Slice0/Obligations.lean ====
section
/-!
DEFINITION. The statements for the provers.
-/
open Sys2Proof Sys2Proof.Machine

/-- With a command at the front of the queue, a step is that command's execution on the state whose queue is the rest; on
an empty queue one nanosecond of DT passes, which is the model's own choice (log entry 7), and nothing else changes. -/
def Obligations.StepTakesFront : Prop :=
  (∀ (s : State) (c : Instr) (rest : List Instr), step { s with pending := c :: rest } = exec c { s with pending := rest }) ∧
  (∀ s : State, s.pending = [] → step s = .next { s with dt := s.dt + 1 })

/-- From every state a step answers a next state, never a fault or a refusal; the queue of that state is the queue less
its front. -/
def Obligations.EveryStepCompletes : Prop :=
  ∀ s : State, ∃ t, step s = .next t ∧ t.pending = s.pending.tail

/-- After reset the MRAM's data is in its canonical form and no command waits; that nothing is listed in the MRAM is the
model's choice (log entry 1). -/
def Obligations.ResetInvariant : Prop :=
  Inv State.reset ∧ State.reset.pending = [] ∧ State.reset.nvm.mram = []

/-- From every state whose MRAM is in its canonical form and whose waiting commands are well formed, every step answers a
state of which the same holds, whatever the command does to the MRAM: configuration records, key images, counters,
evidence entries, open regions and erases. -/
def Obligations.StepKeepsInvariant : Prop :=
  ∀ s t : State, Inv s → step s = .next t → Inv t

/-- From every state, a fuse bit that is 1 before a step is 1 after it, in every fuse word, whatever the command: a burn
only adds bits, and no reset, erase or power event takes one away. -/
def Obligations.BlownFusesStay : Prop :=
  ∀ (s t : State) (w b : Nat), step s = .next t → (s.fuse w).testBit b = true → (t.fuse w).testBit b = true

/-- After a power-on reset DT is 0, the mode is BRINGUP in phase OPTIONS, every domain is OFF, no session or long
operation exists, no lane, engine, port or key holds anything, the tables are in their reset state with DEFEN set, and
the cause is a power-on reset of the device. The life-cycle state VENDOR is the model's choice (log entry 2). -/
def Obligations.ResetState : Prop :=
  let s := State.reset
  s.dt = 0 ∧ s.power.mode = .bringup ∧ s.rst.phase = .options ∧ s.power.lcs = .vendor ∧ (∀ d, (s.dom d).st = .off) ∧
  s.dict.sess = none ∧ s.dict.half = none ∧ (∀ k, (Tab.look {} s.dict.slots k).state = .idle) ∧
  (∀ l, s.lane l = {}) ∧ (∀ l, s.core l = if l = 64 then { ibk := 0x10 } else {}) ∧ (∀ q, s.quad q = {}) ∧ (∀ p, s.src p = {}) ∧
  (∀ e, s.eng e = {}) ∧ s.key.nodes = [] ∧ s.key.runs = [] ∧ (∀ d, (s.actTab d).defen = true ∧ (s.actTab d).wins = []) ∧
  s.act.romrun = true ∧ s.unit.sup.level = 0x60 ∧ s.unit.sup.svec = 0x100000 ∧ (∀ k, (Tab.look {} s.grp.links k).st = 0) ∧
  s.mr.vals = [] ∧ s.mr.log = [] ∧ s.mr.bootlock = false ∧ s.tap.unlocked = false ∧ s.rst.source = 1 ∧ s.rst.level = 1 ∧ s.out = []

/-- On a lane that can run it, each of ADD, SUB, ADDC and SUBB answers the state in which Dd holds the sum or difference
modulo 2^32, C the carry out of bit 31 or the borrow, V the signed overflow, the PC has moved to the next word, 1 LCLK
is counted, and no other register, lane or part of the state has changed. On a lane that can run it, each of AND, OR,
XOR, ANDN, SLL, SRL, SRA, ROR, MIN, MAX, MINU, MAXU, SEL and MOV answers the state in which Dd holds the value of the
ALU table, with C, V and everything but the PC, the cycle count and DT as before. -/
def Obligations.ArithmeticAndLogic : Prop :=
  (∀ (s : State) (i : Issue) (r : Run) (rd a b : Fin 16), Ready s i r 1 →
     let c := s.core i.core.val
     let x := c.dr a.val
     let y := c.dr b.val
     let ovf (n : Int) : Bool := decide (n < -(2 ^ 31) ∨ 2 ^ 31 ≤ n)
     Runs (.add i rd a b) i r 1 ((c.setD rd.val (x + y)).setFl (decide (2 ^ 32 ≤ x.toNat + y.toNat)) (ovf (x.toInt + y.toInt))) s ∧
     Runs (.sub i rd a b) i r 1 ((c.setD rd.val (x - y)).setFl (decide (x.toNat < y.toNat)) (ovf (x.toInt - y.toInt))) s ∧
     Runs (.addc i rd a b) i r 1 ((c.setD rd.val (x + y + BitVec.ofNat 32 c.c.toNat)).setFl
       (decide (2 ^ 32 ≤ x.toNat + y.toNat + c.c.toNat)) (ovf (x.toInt + y.toInt + (c.c.toNat : Int)))) s ∧
     Runs (.subb i rd a b) i r 1 ((c.setD rd.val (x - y - BitVec.ofNat 32 c.c.toNat)).setFl
       (decide (x.toNat < y.toNat + c.c.toNat)) (ovf (x.toInt - y.toInt - (c.c.toNat : Int)))) s) ∧
  (∀ (s : State) (i : Issue) (r : Run) (rd a b : Fin 16) (p : Fin 8), Ready s i r 1 →
     let c := s.core i.core.val
     let x := c.dr a.val
     let y := c.dr b.val
     Runs (.and i rd a b) i r 1 (c.setD rd.val (x &&& y)) s ∧
     Runs (.or i rd a b) i r 1 (c.setD rd.val (x ||| y)) s ∧
     Runs (.xor i rd a b) i r 1 (c.setD rd.val (x ^^^ y)) s ∧
     Runs (.andn i rd a b) i r 1 (c.setD rd.val (x &&& ~~~y)) s ∧
     Runs (.sll i rd a b) i r 1 (c.setD rd.val (x <<< (y.toNat % 32))) s ∧
     Runs (.srl i rd a b) i r 1 (c.setD rd.val (x >>> (y.toNat % 32))) s ∧
     Runs (.sra i rd a b) i r 1 (c.setD rd.val (x.sshiftRight (y.toNat % 32))) s ∧
     Runs (.ror i rd a b) i r 1 (c.setD rd.val ((x >>> (y.toNat % 32)) ||| (x <<< (32 - y.toNat % 32)))) s ∧
     Runs (.min i rd a b) i r 1 (c.setD rd.val (if x.toInt < y.toInt then x else y)) s ∧
     Runs (.max i rd a b) i r 1 (c.setD rd.val (if x.toInt < y.toInt then y else x)) s ∧
     Runs (.minu i rd a b) i r 1 (c.setD rd.val (if x.toNat < y.toNat then x else y)) s ∧
     Runs (.maxu i rd a b) i r 1 (c.setD rd.val (if x.toNat < y.toNat then y else x)) s ∧
     Runs (.sel i rd a b p) i r 1 (c.setD rd.val (if p.val = 0 ∨ c.pred.getLsbD p.val then x else y)) s ∧
     Runs (.mov i rd a) i r 1 (c.setD rd.val x) s)

/-- On a lane that can run it, MUL, MULH and MULHU answer the halves of the product in 2 LCLK, DIVU and REMU the quotient
and the remainder in 34 LCLK, with all ones and the dividend for a divisor of 0, and CLZ, POPC and BSWAP their counts
and bytes in 1 LCLK; nothing else changes. -/
def Obligations.AluProducts : Prop :=
  (∀ (s : State) (i : Issue) (r : Run) (rd a b : Fin 16), Ready s i r 2 →
    let c := s.core i.core.val
    let x := c.dr a.val
    let y := c.dr b.val
    Runs (.mul i rd a b) i r 2 (c.setD rd.val (BitVec.ofNat 32 (x.toNat * y.toNat))) s ∧
    Runs (.mulh i rd a b) i r 2 (c.setD rd.val ((x.signExtend 64 * y.signExtend 64).extractLsb' 32 32)) s ∧
    Runs (.mulhu i rd a b) i r 2 (c.setD rd.val (BitVec.ofNat 32 (x.toNat * y.toNat / 2 ^ 32))) s) ∧
  (∀ (s : State) (i : Issue) (r : Run) (rd a b : Fin 16), Ready s i r 34 →
    let c := s.core i.core.val
    let x := c.dr a.val
    let y := c.dr b.val
    Runs (.divu i rd a b) i r 34 (c.setD rd.val (if y = 0 then 0xFFFFFFFF#32 else x / y)) s ∧
    Runs (.remu i rd a b) i r 34 (c.setD rd.val (if y = 0 then x else x % y)) s) ∧
  (∀ (s : State) (i : Issue) (r : Run) (rd a : Fin 16), Ready s i r 1 →
    let c := s.core i.core.val
    let x := c.dr a.val
    (∃ z : Fin 33, Runs (.clz i rd a) i r 1 (c.setD rd.val (BitVec.ofNat 32 z.val)) s ∧ x.toNat < 2 ^ (32 - z.val) ∧
      (z.val < 32 → 2 ^ (31 - z.val) ≤ x.toNat)) ∧
    Runs (.popc i rd a) i r 1 (c.setD rd.val (BitVec.ofNat 32 ((List.range 32).filter (fun k => x.getLsbD k)).length)) s ∧
    Runs (.bswap i rd a) i r 1 (c.setD rd.val (x.extractLsb' 0 8 ++ x.extractLsb' 8 8 ++ x.extractLsb' 16 8 ++ x.extractLsb' 24 8)) s)

/-- On a lane that can run it, each of ADDI, ANDI, ORI, XORI, the SHI kinds, MOVI and MOVH answers the state in which Dd
holds the value of the immediate table; ADDI also writes C and V; nothing else changes. On a lane that can run it, CMP
and CMPI write P[PD] with the condition's result and P[PDN] with its inverse, CMPI with its operand extended by the
sign for COND 0-3, 6 and 7 and by zeros otherwise; PLOG writes P[PD]; a write to P0 writes nothing; the data
registers, C, V and the rest of the state are unchanged. -/
def Obligations.ImmediatesAndPredicates : Prop :=
  (∀ (s : State) (i : Issue) (r : Run) (rd a : Fin 16) (imm : BitVec 14) (pos wm1 : Fin 32) (m : BitVec 18) (h : BitVec 16),
     Ready s i r 1 →
     let c := s.core i.core.val
     let x := c.dr a.val
     let y := imm.signExtend 32
     let w := wm1.val + 1
     let ovf (n : Int) : Bool := decide (n < -(2 ^ 31) ∨ 2 ^ 31 ≤ n)
     Runs (.addi i rd a imm) i r 1 ((c.setD rd.val (x + y)).setFl (decide (2 ^ 32 ≤ x.toNat + y.toNat)) (ovf (x.toInt + y.toInt))) s ∧
     Runs (.andi i rd a imm) i r 1 (c.setD rd.val (x &&& imm.zeroExtend 32)) s ∧
     Runs (.ori i rd a imm) i r 1 (c.setD rd.val (x ||| imm.zeroExtend 32)) s ∧
     Runs (.xori i rd a imm) i r 1 (c.setD rd.val (x ^^^ imm.zeroExtend 32)) s ∧
     Runs (.shiSll i rd a pos) i r 1 (c.setD rd.val (x <<< pos.val)) s ∧
     Runs (.shiSrl i rd a pos) i r 1 (c.setD rd.val (x >>> pos.val)) s ∧
     Runs (.shiSra i rd a pos) i r 1 (c.setD rd.val (x.sshiftRight pos.val)) s ∧
     Runs (.shiRor i rd a pos) i r 1 (c.setD rd.val ((x >>> pos.val) ||| (x <<< (32 - pos.val)))) s ∧
     Runs (.shiExtu i rd a pos wm1) i r 1 (c.setD rd.val (BitVec.ofNat 32 (x.toNat / 2 ^ pos.val % 2 ^ w))) s ∧
     (∃ v : Word, Runs (.shiExts i rd a pos wm1) i r 1 (c.setD rd.val v) s ∧
       ∀ k : Fin 32, v.getLsbD k.val = x.getLsbD (pos.val + Nat.min k.val wm1.val)) ∧
     (∃ v : Word, Runs (.shiIns i rd a pos wm1) i r 1 (c.setD rd.val v) s ∧
       ∀ k : Fin 32, v.getLsbD k.val =
         if pos.val ≤ k.val ∧ k.val < pos.val + w then x.getLsbD (k.val - pos.val) else (c.dr rd.val).getLsbD k.val) ∧
     Runs (.movi i rd m) i r 1 (c.setD rd.val (m.signExtend 32)) s ∧
     Runs (.movh i rd h) i r 1 (c.setD rd.val (h ++ (c.dr rd.val).extractLsb' 0 16)) s) ∧
  (∀ (s : State) (i : Issue) (r : Run) (pd pdn : Fin 8) (cond a b : Fin 16) (imm : Byte) (pa pb : Fin 8) (na nb : Bool),
     Ready s i r 1 →
     let c := s.core i.core.val
     let x := c.dr a.val
     let holds (y : Word) : Bool :=
       [decide (x = y), decide (x ≠ y), decide (x.toInt < y.toInt), decide (y.toInt ≤ x.toInt), decide (x.toNat < y.toNat),
        decide (y.toNat ≤ x.toNat), decide (y.toInt < x.toInt), decide (x.toInt ≤ y.toInt), decide (y.toNat < x.toNat),
        decide (x.toNat ≤ y.toNat), decide (x &&& y ≠ 0), decide (x &&& y = 0), c.c, ! c.c, c.v, ! c.v].getD cond.val false
     let signed : Bool := decide (cond.val ≤ 3 ∨ cond.val = 6 ∨ cond.val = 7)
     let pr (k : Fin 8) : Bool := decide (k.val = 0) || c.pred.getLsbD k.val
     (pd ≠ pdn ∨ pd.val = 0 →
       Runs (.cmp i pd pdn cond a b) i r 1 ((c.setP pd.val (holds (c.dr b.val))).setP pdn.val (! holds (c.dr b.val))) s ∧
       Runs (.cmpi i pd pdn cond a imm) i r 1
         ((c.setP pd.val (holds (if signed then imm.signExtend 32 else imm.zeroExtend 32))).setP pdn.val
           (! holds (if signed then imm.signExtend 32 else imm.zeroExtend 32))) s) ∧
     Runs (.plogAnd i pd pa pb na nb) i r 1 (c.setP pd.val ((pr pa ^^ na) && (pr pb ^^ nb))) s ∧
     Runs (.plogOr i pd pa pb na nb) i r 1 (c.setP pd.val ((pr pa ^^ na) || (pr pb ^^ nb))) s ∧
     Runs (.plogXor i pd pa pb na nb) i r 1 (c.setP pd.val ((pr pa ^^ na) ^^ (pr pb ^^ nb))) s ∧
     Runs (.plogMov i pd pa na) i r 1 (c.setP pd.val (pr pa ^^ na)) s ∧
     (c.setP 0 na = c ∧ (pd.val ≠ 0 → (c.setP pd.val na).p pd.val = na)))

/-- On a lane that can run it, AI, AADDI, AMOV and AADD write an address register modulo 2^16, and AREAD writes Dd with
the address register zero-extended; nothing else changes. On a lane that can run it, MAC, MACU, MSU, ACLR, ACSRA, ACWR
and ACADD write the accumulator modulo 2^72, and ACRD writes Dd with the chosen part of it; nothing else changes. -/
def Obligations.AddressesAndAccumulators : Prop :=
  (∀ (s : State) (i : Issue) (r : Run) (a : Fin 8) (d : Fin 16) (imm : BitVec 16), Ready s i r 1 →
     let c := s.core i.core.val
     Runs (.ai i a imm) i r 1 (c.setA a.val imm) s ∧
     Runs (.aaddi i a imm) i r 1 (c.setA a.val (c.ar a.val + imm)) s ∧
     Runs (.amov i a d) i r 1 (c.setA a.val ((c.dr d.val).extractLsb' 0 16)) s ∧
     Runs (.aread i a d) i r 1 (c.setD d.val ((c.ar a.val).zeroExtend 32)) s ∧
     Runs (.aadd i a d) i r 1 (c.setA a.val (c.ar a.val + (c.dr d.val).extractLsb' 0 16)) s) ∧
  (∀ (s : State) (i : Issue) (r : Run) (k : Fin 4) (a b : Fin 16) (n : BitVec 7) (part : BitVec 9), Ready s i r 1 →
     let c := s.core i.core.val
     let x := c.acc k.val
     let y := c.dr a.val
     let z := c.dr b.val
     Runs (.mac i k a b) i r 1 (c.setAcc k.val (x + y.signExtend 72 * z.signExtend 72)) s ∧
     Runs (.macu i k a b) i r 1 (c.setAcc k.val (x + y.zeroExtend 72 * z.zeroExtend 72)) s ∧
     Runs (.msu i k a b) i r 1 (c.setAcc k.val (x - y.signExtend 72 * z.signExtend 72)) s ∧
     Runs (.aclr i k) i r 1 (c.setAcc k.val 0) s ∧
     (n.toNat ≤ 71 → Runs (.acsra i k n) i r 1 (c.setAcc k.val (x.sshiftRight n.toNat)) s) ∧
     (part = 0 → Runs (.acrd i k a part) i r 1 (c.setD a.val (x.extractLsb' 0 32)) s) ∧
     (part = 1 → Runs (.acrd i k a part) i r 1 (c.setD a.val (x.extractLsb' 32 32)) s) ∧
     (part = 2 → Runs (.acrd i k a part) i r 1 (c.setD a.val ((x.extractLsb' 64 8).signExtend 32)) s) ∧
     Runs (.acwr i k a) i r 1 (c.setAcc k.val (y.signExtend 72)) s ∧
     Runs (.acadd i k a) i r 1 (c.setAcc k.val (x + y.signExtend 72)) s)

/-- On a lane that can run it, NOP goes on at the next word in 1 LCLK; BR and CALL go to the PC plus four times the offset
modulo 2^16 and JR and CALLR to Ds[15:0], in 2 LCLK; CALL and CALLR push the PC plus 4 while fewer than 32 entries are
held; RET pops into the PC; nothing else changes. -/
def Obligations.ControlFlow : Prop :=
  (∀ (s : State) (i : Issue) (r : Run), Ready s i r 1 → Runs (.nop i) i r 1 (s.core i.core.val) s) ∧
  (∀ (s : State) (i : Issue) (r : Run) (off : BitVec 16) (d : Fin 16) (e : RetEnt) (es : List RetEnt), Ready s i r 2 →
    let c := s.core i.core.val
    let b := c.pc + 4 * off
    let j := (c.dr d.val).extractLsb' 0 16
    let ret : RetEnt := ⟨(c.pc + 4).zeroExtend 24, none⟩
    (b.toNat ≤ 0x7FFC → Goes (.br i off) i r 2 { c with pc := b } s) ∧
    (b.toNat ≤ 0x7FFC → c.rstack.length < 32 → Goes (.call i off) i r 2 { c with pc := b, rstack := ret :: c.rstack } s) ∧
    (j.toNat ≤ 0x7FFC → j.toNat % 4 = 0 → Goes (.jr i d) i r 2 { c with pc := j } s) ∧
    (j.toNat ≤ 0x7FFC → j.toNat % 4 = 0 → c.rstack.length < 32 →
      Goes (.callr i d) i r 2 { c with pc := j, rstack := ret :: c.rstack } s) ∧
    (c.rstack = e :: es → (e.tgt.extractLsb' 0 16).toNat ≤ 0x7FFC →
      Goes (.ret i) i r 2 { c with pc := e.tgt.extractLsb' 0 16, rstack := es } s))

/-- On a lane that can run it with no level open, LOOP and LOOPI with a count other than 0 open level 0 with the next word
as its start, the PC plus four times the offset as its end, the count and the return-stack depth; a count of 0 goes on
after the end; each takes 1 LCLK. An instruction that retires at the end of the innermost level, here NOP, goes to the
level's start with its count one less while the count is more than 1, and otherwise closes the level and goes on at
the next word. -/
def Obligations.Loops : Prop :=
  (∀ (s : State) (i : Issue) (r : Run) (d : Fin 16) (off : BitVec 16) (count : BitVec 12) (off' : BitVec 10), Ready s i r 1 →
     let c := s.core i.core.val
     let fin (o : Nat) : Nat := c.pc.toNat + 4 * o
     let opened (n : Word) (o : Nat) : Core :=
       { c.setLvl 0 ⟨c.pc + 4, BitVec.ofNat 16 (fin o), n, c.rstack.length⟩ with ldepth := 1, pc := c.pc + 4 }
     (off ≠ 0 → fin off.toNat ≤ 0x7FFC → c.dr d.val ≠ 0 → Goes (.loop i d off) i r 1 (opened (c.dr d.val) off.toNat) s) ∧
     (off ≠ 0 → fin off.toNat + 4 ≤ 0x7FFC → c.dr d.val = 0 →
       Goes (.loop i d off) i r 1 { c with pc := BitVec.ofNat 16 (fin off.toNat + 4) } s) ∧
     (off' ≠ 0 → fin off'.toNat ≤ 0x7FFC → count ≠ 0 → Goes (.loopi i count off') i r 1 (opened (count.zeroExtend 32) off'.toNat) s) ∧
     (off' ≠ 0 → fin off'.toNat + 4 ≤ 0x7FFC → count = 0 →
       Goes (.loopi i count off') i r 1 { c with pc := BitVec.ofNat 16 (fin off'.toNat + 4) } s)) ∧
  (∀ (s : State) (i : Issue) (r : Run) (v : LoopLvl), CanIssue s i r 1 →
     let c := s.core i.core.val
     c.ldepth = 1 → c.lvl 0 = v → v.fin = c.pc → v.rsd = c.rstack.length →
     (1 < v.count.toNat → v.start.toNat ≤ 0x7FFC →
       Goes (.nop i) i r 1 { c.setLvl 0 { v with count := v.count - 1 } with pc := v.start } s) ∧
     (v.count.toNat ≤ 1 → c.pc.toNat + 4 ≤ 0x7FFC →
       Goes (.nop i) i r 1 { c.setLvl 0 { v with count := 0 } with ldepth := 0, pc := c.pc + 4 } s))

/-- On a lane that can issue it, an instruction of the register file alone whose guard is 0, here MOVI and ADD, counts 1
LCLK and moves the PC to the next word, and changes no register. -/
def Obligations.GuardedOff : Prop :=
  ∀ (s : State) (i : Issue) (r : Run) (rd a b : Fin 16) (m : BitVec 18), Ready s { i with pn := ! i.pn } r 1 →
    Runs (.movi i rd m) i r 1 (s.core i.core.val) s ∧ Runs (.add i rd a b) i r 1 (s.core i.core.val) s

/-- On a lane that can run it, MFC reads each control register of the lane, with DTL latching the upper half of DT for
DTH, and MTC writes DBK0, DBK1, SBK, FL, PRED and the loop registers; nothing else changes. -/
def Obligations.ControlRegisters : Prop :=
  ∀ (s : State) (i : Issue) (r : Run) (d : Fin 16), Ready s i r 1 →
    let c := s.core i.core.val
    let v := s.lane i.core.val
    let x := c.dr d.val
    let dt := Nat.max s.dt (r.start + v.cyc)
    let reads (cr : Fin 64) (w : Word) : Prop := Runs (.mfc i d cr) i r 1 (c.setD d.val w) s
    let leaves (cr : Fin 64) (e : Core) : Prop := Runs (.mtc i d cr) i r 1 e s
    reads 0 (c.ibk.zeroExtend 32) ∧ reads 1 (c.dbk0.zeroExtend 32) ∧ reads 2 (c.dbk1.zeroExtend 32) ∧ reads 3 (c.sbk.zeroExtend 32) ∧
    reads 4 (BitVec.ofNat 32 (2 * c.v.toNat + c.c.toNat)) ∧ reads 5 ((c.pred ||| 1).zeroExtend 32) ∧ reads 6 0 ∧
    reads 7 (BitVec.ofNat 32 c.rstack.length) ∧ reads 8 (BitVec.ofNat 32 (if v.runB then v.dslimB else v.dslimA)) ∧
    reads 9 (BitVec.ofNat 32 v.cyc) ∧
    Runs (.mfc i d 10) i r 1 ({ c with dth := BitVec.ofNat 32 (dt / 2 ^ 32) }.setD d.val (BitVec.ofNat 32 dt)) s ∧
    reads 11 c.dth ∧ reads 24 (c.epc.zeroExtend 32) ∧ reads 25 c.ecause ∧ reads 26 (c.eaddr.zeroExtend 32) ∧
    (∀ k : Fin 4, reads ⟨12 + k.val, by omega⟩ ((c.lvl k.val).start.zeroExtend 32) ∧
      reads ⟨16 + k.val, by omega⟩ ((c.lvl k.val).fin.zeroExtend 32) ∧ reads ⟨20 + k.val, by omega⟩ (c.lvl k.val).count) ∧
    leaves 1 { c with dbk0 := x.extractLsb' 0 8 } ∧ leaves 2 { c with dbk1 := x.extractLsb' 0 8 } ∧
    leaves 3 { c with sbk := x.extractLsb' 0 8 } ∧ leaves 4 { c with c := x.getLsbD 0, v := x.getLsbD 1 } ∧
    leaves 5 { c with pred := x.extractLsb' 0 8 ||| 1 } ∧
    (∀ k : Fin 4, leaves ⟨12 + k.val, by omega⟩ (c.setLvl k.val { c.lvl k.val with start := x.extractLsb' 0 16 &&& ~~~3#16 }) ∧
      leaves ⟨16 + k.val, by omega⟩ (c.setLvl k.val { c.lvl k.val with fin := x.extractLsb' 0 16 &&& ~~~3#16 }) ∧
      leaves ⟨20 + k.val, by omega⟩ (c.setLvl k.val { c.lvl k.val with count := x }))

/-- On a lane that can run it, LD of an aligned operand in a mapped bank, granted where it is SHARED, answers Dd with the
bytes of the bank, sign-extended or zero-extended, and the address register of its mode, in the bank's access time;
the bytes of DMEM are those of the running bank's half of the lane's memory; nothing else changes. -/
def Obligations.Loads : Prop :=
  ∀ (s : State) (i : Issue) (r : Run) (k : Nat) (d : Fin 16) (a : Fin 8) (sz : Fin 3) (bsel : Bool) (mode : Fin 4) (sx : Bool) (off : BitVec 9),
    Ready s i r k →
    let l := i.core.val
    let c := s.core l
    let u := s.atIssue i r
    let o : BitVec 16 := if mode = 1 then c.ar a.val else if mode = 3 then c.ar a.val + (c.dr (off.toNat % 16)).extractLsb' 0 16
      else c.ar a.val + off.signExtend 16
    let a' : BitVec 16 := if mode = 0 ∨ mode = 3 then c.ar a.val else c.ar a.val + off.signExtend 16
    let b := c.bank a.val bsel
    let n := if sz = 0 then 1 else if sz = 1 then 2 else 4
    let v := beNat (laneRead u l b o.toNat n)
    let w : Word := if ! sx then BitVec.ofNat 32 v else if sz = 0 then (BitVec.ofNat 8 v).signExtend 32
      else if sz = 1 then (BitVec.ofNat 16 v).signExtend 32 else BitVec.ofNat 32 v
    (bsel = true → a.val < 6) → (mode = 3 → off.toNat < 16) → o.toNat % n = 0 → laneMapped s l b o.toNat n false = true →
    (0x10 ≤ b ∧ b ≤ 0x1F → judge u l (sharedAddr l b o.toNat) 0 = 0) →
    k = (if b = 1 then (if o.toNat < 0x800 then 6 else 20) else if 0x10 ≤ b ∧ b ≤ 0x1F then 20 else 1) →
    Runs (.ld i d a ⟨sz.val, by omega⟩ bsel mode sx off) i r k ((c.setA a.val a').setD d.val w) s ∧
    laneRead u l 0 o.toNat n = Memory.readN (s.lane l).mem (0x10000 + (if (s.lane l).runB then 0x8000 else 0) + o.toNat) n

/-- On a lane that can run it, ST of an aligned operand stores Dd's low bytes, most significant first: to DMEM at once,
where every other byte of the lane's memory reads as before; to the frame window or SHARED as the one entry of the
write buffer, which leaves the memory as it is. The address register is that of the mode, and nothing else changes. -/
def Obligations.Stores : Prop :=
  ∀ (s : State) (i : Issue) (r : Run) (d : Fin 16) (a : Fin 8) (sz : Fin 3) (bsel : Bool) (mode : Fin 4) (off : BitVec 9), Ready s i r 1 →
    let l := i.core.val
    let c := s.core l
    let v := s.lane l
    let o : BitVec 16 := if mode = 1 then c.ar a.val else if mode = 3 then c.ar a.val + (c.dr (off.toNat % 16)).extractLsb' 0 16
      else c.ar a.val + off.signExtend 16
    let a' : BitVec 16 := if mode = 0 ∨ mode = 3 then c.ar a.val else c.ar a.val + off.signExtend 16
    let b := c.bank a.val bsel
    let n := if sz = 0 then 1 else if sz = 1 then 2 else 4
    let bytes := beBytes (c.dr d.val).toNat n
    let x : Instr := .st i d a ⟨sz.val, by omega⟩ bsel mode off
    let base := 0x10000 + (if v.runB then 0x8000 else 0) + o.toNat
    (bsel = true → a.val < 6) → (mode = 3 → off.toNat < 16) → o.toNat % n = 0 → laneMapped s l b o.toNat n true = true →
    (b = 0 → ∃ t, exec x s = .next t ∧ LaneOnly l s t ∧ t.core l = { c.setA a.val a' with pc := c.pc + 4 } ∧
      t.lane l = { v with cyc := v.cyc + 1, mem := v.mem.writeN base bytes } ∧
      (∀ j, j < n → (t.lane l).mem.read (base + j) = bytes.getD j 0) ∧
      (∀ y, y < base ∨ base + n ≤ y → (t.lane l).mem.read y = v.mem.read y)) ∧
    (b = 1 ∨ (0x10 ≤ b ∧ b ≤ 0x1F) →
      Runs x i r 1 { c.setA a.val a' with
        wb := [⟨b, o.toNat, bytes, v.cyc + (if b = 1 ∧ o.toNat < 0x800 then 6 else 20)⟩] } s)

/-- On a lane that can run it, with the stack bank DMEM, an aligned stack pointer A7 and room below the limit, PUSH, PUSHA
and PUSHM store the registers' words, ascending, from A7 on and move A7 up; POP, POPA and POPM read the words below A7
and move it down; the other registers, the other bytes of the lane's memory and the rest of the state are unchanged. -/
def Obligations.Stack : Prop :=
  ∀ (s : State) (i : Issue) (r : Run) (d : Fin 16) (a : Fin 8) (mask : BitVec 16) (k : Nat), Ready s i r k →
    let l := i.core.val
    let c := s.core l
    let v := s.lane l
    let p := (c.ar 7).toNat
    let base := 0x10000 + (if v.runB then 0x8000 else 0)
    let rs := (List.range 16).filter (fun j => mask.getLsbD j)
    let room (n : Nat) : Prop := p + 4 * n ≤ (if v.runB then v.dslimB else v.dslimA) ∧ p + 4 * n ≤ 0x8000
    let word (q : Nat) : Word := BitVec.ofNat 32 (beNat (v.mem.readN (base + q) 4))
    let pushed (x : Instr) (bytes : Bytes) : Prop := ∃ t, exec x s = .next t ∧ LaneOnly l s t ∧
      t.core l = { c.setA 7 (BitVec.ofNat 16 (p + bytes.length)) with pc := c.pc + 4 } ∧
      t.lane l = { v with cyc := v.cyc + k, mem := v.mem.writeN (base + p) bytes }
    c.sbk = 0 → p % 4 = 0 →
    (k = 1 → room 1 → pushed (.push i d) (beBytes (c.dr d.val).toNat 4) ∧ pushed (.pusha i a) (beBytes (c.ar a.val).toNat 4)) ∧
    (k = rs.length → rs ≠ [] → room rs.length → pushed (.pushm i mask) (rs.flatMap (fun j => beBytes (c.dr j).toNat 4))) ∧
    (k = 1 → 4 ≤ p → p ≤ 0x8000 →
      Runs (.pop i d) i r 1 ((c.setA 7 (BitVec.ofNat 16 (p - 4))).setD d.val (word (p - 4))) s ∧
      Runs (.popa i a) i r 1 ((c.setA 7 (BitVec.ofNat 16 (p - 4))).setA a.val ((word (p - 4)).extractLsb' 0 16)) s) ∧
    (k = rs.length → rs ≠ [] → 4 * rs.length ≤ p → p ≤ 0x8000 →
      ∃ e : Core, Runs (.popm i mask) i r k e s ∧ e.ar 7 = BitVec.ofNat 16 (p - 4 * rs.length) ∧
        (∀ j : Fin 16, e.dr j.val = if mask.getLsbD j.val then word (p - 4 * rs.length + 4 * (rs.idxOf j.val)) else c.dr j.val) ∧
        (∀ j : Fin 7, e.ar j.val = c.ar j.val) ∧ { e with d := c.d, a := c.a } = c)

/-- On a lane and on the supervisor, whether levels are open or not, a LOOP or LOOPI whose guard is 0 and which is not
itself the end of the innermost level opens no level and changes no register; the PC becomes the address after the
last word of the body, in 1 LCLK, as it does where the guard is 1 and the count 0. -/
def Obligations.GuardedOffLoops : Prop :=
  ∀ (s : State) (i : Issue) (r : Run) (d : Fin 16) (off : BitVec 16) (count : BitVec 12) (off' : BitVec 10),
    let n := i.core.val
    let c := s.core n
    let free := { i with pn := ! i.pn }
    let fin (o : Nat) : Nat := c.pc.toNat + 4 * o
    let after (o : Nat) : Core := { c with pc := BitVec.ofNat 16 (fin o + 4) }
    let inside : Prop := c.ldepth = 0 ∨ (c.lvl (c.ldepth - 1)).fin ≠ c.pc
    let goes (o : Nat) (x y : Instr) (zero : Prop) : Prop := o ≠ 0 →
      (CanIssue s free r 1 → inside → fin o + 4 ≤ 0x7FFC → Goes x i r 1 (after o) s ∧
        (c.ldepth = 0 → zero → Goes y free r 1 (after o) s)) ∧
      (n = 64 → supRuns s = true → supPending s = 0 ∨ s.unit.sup.ie = false → c.guard i.pn i.pg.val = false → c.imp = none → inside →
        fin o + 4 ≤ 0xFFFC → fetchLevel s (c.ibk.toNat * 65536 + fin o + 4) = some s.unit.sup.level →
        let t := s.afterSup 1 { c with pc := BitVec.ofNat 16 (fin o) }
        exec x s = .next t ∧ (c.ldepth = 0 → zero → exec y s = .next t))
    goes off.toNat (.loop i d off) (.loop free d off) (c.dr d.val = 0) ∧
    goes off'.toNat (.loopi i count off') (.loopi free count off') (count = 0)

/-- On a lane that can issue it, TRAP raises SOFT with its INFO, and a word that decodes to no legal instruction raises
ILLEGAL: the trap is recorded for the lane; where the image has a handler and no trap is being handled the run goes on
there 3 LCLK later, with EPC, ECAUSE and EADDR saved, no loop level left and the trap count raised; otherwise the run
ends, and the job posts POLICY, or for TRAP the status that INFO names. -/
def Obligations.Traps : Prop :=
  ∀ (s : State) (i : Issue) (r : Run) (info : Byte) (w : Word), CanIssue s i r 3 →
    let l := i.core.val
    let c := s.core l
    let v := s.lane l
    let u := s.atIssue i r
    let code (h : Bool) (cause : Nat) : Nat :=
      c.pc.toNat * 65536 + 32768 + (if h then 0 else 16384) + (if v.runB then 8192 else 0) + cause
    let entered (cause inf e : Nat) : State :=
      let a := u.setLane l { v with trap := code true cause, trapAddr := inf * 2 ^ 24 }
      let b := (a.setCore l { c with
        epc := c.pc, ecause := BitVec.ofNat 32 (2 ^ 31 + inf * 256 + cause), eaddr := 0, ldepth := 0
        inTrap := true, pc := BitVec.ofNat 16 e }).bump (0xB400 + l) 5
      (b.setLane l { b.lane l with cyc := v.cyc + 3 }).at (r.start + (v.cyc + 3))
    let ended (cause inf status : Nat) : State :=
      let a := u.setLane l { v with trap := code false cause, trapAddr := inf * 2 ^ 24 }
      endRun l (v.cyc + 1 + postStall a l (r.start + v.cyc)) status [] ((flushWb l a).bump (0xB400 + l) 6)
    let d := decodeWord w.toNat
    (∀ e, c.inTrap = false → trapEntry u l = some e →
      exec (.trap i info) s = .next (entered 0x0A info.toNat e) ∧
      (d.1 = i.pn → d.2.1 = i.pg.val → d.2.2 = none →
        exec (.illegalWord i.core w) s = .next (entered 0x01 0 e))) ∧
    (c.inTrap = true ∨ trapEntry u l = none →
      v.cyc + 1 + postStall u l (r.start + v.cyc) ≤ v.budget →
      exec (.trap i info) s = .next (ended 0x0A info.toNat
        (if info.toNat ∈ [0x04, 0x05, 0x06, 0x07, 0x08, 0x0A] then info.toNat else 0x06)) ∧
      (d.1 = i.pn → d.2.1 = i.pg.val → d.2.2 = none →
        exec (.illegalWord i.core w) s = .next (ended 0x01 0 0x06)))

/-- On a lane that can run it, a custom opcode that the bank defines, with micro-ops of the register file alone, runs them
in the order of their slots with the custom word's fields substituted, each under its own guard and in its own LCLK,
and goes on at the next word; nothing but those registers, the cycle count and DT changes. -/
def Obligations.CustomOpcodes : Prop :=
  ∀ (s : State) (i : Issue) (r : Run) (u ra rb rc : Fin 16) (imm : BitVec 10) (slots : List Nat) (ops : List (Bool × Nat × COp)),
    Ready s i r ops.length →
    let l := i.core.val
    cuSlots (s.atIssue i r) l u.val = some slots → cuWordOk slots ra.val rb.val rc.val imm.toNat = true →
    slots.map (fun w => decodeWord (uopWord w ra.val rb.val rc.val imm.toNat)) = ops.map (fun o => (o.1, o.2.1, some o.2.2)) →
    (∀ o ∈ ops, o.2.2.legal = true ∧ (∀ c, (regOp o.2.2 c).isSome = true) ∧ ∀ t x, opTime l t o.2.2 x = 1) →
    Runs (.customOpcode i u ra rb rc imm) i r ops.length
      (ops.foldl (fun (c : Core) (o : Bool × Nat × COp) => if c.guard o.1 o.2.1 then (regOp o.2.2 c).getD c else c) (s.core l)) s

/-- On a lane that can run it, WBSYNC with nothing waiting in the write buffer takes 1 LCLK. An oldest entry for the frame
window, or one for SHARED whose access is granted, completes in the cycle of its access: its bytes are stored at its
offset, it leaves the buffer, and the entries behind it stay. -/
def Obligations.WriteBuffer : Prop :=
  (∀ (s : State) (i : Issue) (r : Run), Ready s i r 1 → Runs (.wbsync i) i r 1 (s.core i.core.val) s) ∧
  (∀ (s : State) (l : Fin 64) (r : Run) (e : WbEnt) (es : List WbEnt),
    (s.lane l.val).run = some r → (s.core l.val).wb = e :: es →
    let u := s.at (r.start + e.done)
    e.bank = 1 ∨ (0x10 ≤ e.bank ∧ e.bank ≤ 0x1F ∧ judge u l.val (sharedAddr l.val e.bank e.off) 1 = 0) →
    exec (.writeBufferEntryComplete l) s =
      .next ((laneWrite l.val e.bank e.off e.bytes u).setCore l.val { s.core l.val with wb := es, wbT := (s.core l.val).wbT ++ [e.done] }))

/-- A lane in service, idle, its quad READY, that finds the entry at the head of its queue released starts that run: the
core's registers are those of a new run at the entry point of the image, the cycle count is 0 and the budget the
entry's cost. A run that has not ended is stopped one LCLK after its budget, counted, and its job posts OVERRUN
without a body; how many memory errors were corrected in the run is a free value (log entry 90). On a lane that can
issue it, POST of a permitted status and a body inside the window and the class's bound ends the run, and the bytes of
the frame window at the offset go out with the status; PKSUB of a first run, whose class has a PK operation, ends it,
and the operand's place reaches the engine 16 ns later. -/
def Obligations.LaneRuns : Prop :=
  (∀ (s : State) (l : Fin 64) (e : QEnt), headReady s l.val = some e →
    let j := s.job e.job
    let u := if e.fin then s.at j.pkAt else s
    let v := s.lane l.val
    ∃ t, exec (.runStart l) s = .next t ∧
      t.lane l.val = { v with
        run := some ⟨e.job, e.fin, u.dt, u.dt + e.cost⟩, runB := decide (j.bank = 1), cyc := 0, budget := e.cost
        carried := carriedBits v (u.freshBits (tevtKey l.val)) j.epoch
        queue := v.queue.map (fun x => if x.job = e.job ∧ x.fin = e.fin then { x with st := 1 } else x) } ∧
      t.core l.val = {
        pc := BitVec.ofNat 16 (imgU (runImage t l.val) (if e.fin then 26 else 24) 2)
        ibk := if j.bank = 1 then 0x21 else 0x20 } ∧
      t.job e.job = { j with stage := if e.fin then 4 else 1 } ∧
      (∀ m, m ≠ l.val → t.lane m = s.lane m) ∧ (∀ m, m ≠ l.val → t.core m = s.core m) ∧ (∀ m, m ≠ e.job → t.job m = s.job m) ∧
      t.dict = (if e.fin then (s.bump (0xB400 + l.val) 1).bump (0xB400 + l.val) 3 else s.bump (0xB400 + l.val) 1).dict ∧
      t = { s with dt := u.dt, dict := t.dict, unit := { s.unit with lanes := t.unit.lanes, cores := t.unit.cores, jobs := t.unit.jobs } }) ∧
  (∀ (s : State) (l : Fin 64) (r : Run), (s.lane l.val).run = some r →
    let v := s.lane l.val
    let u := runCorrected l.val (flushWb l.val (s.at (r.start + v.budget + 1)))
    let a := u.setLane l.val { u.lane l.val with ovr := satInc 32 v.ovr, cyc := v.budget }
    exec (.overrunStop l) s = .next (postJob r.job 0x03 []
      (((a.bump (0x4000 + l.val) 9).bump (0xB100 + (u.job r.job).desc.cls) 3).bump (0xB200 + l.val / 32) 8))) ∧
  (∀ (s : State) (i : Issue) (r : Run) (a b : Fin 16) (p : Fin 8) (sb : Bool), CanIssue s i r 5 →
     let l := i.core.val
     let c := s.core l
     let v := s.lane l
     let u := s.atIssue i r
     let st := (c.dr a.val).toNat
     let off := (c.dr b.val).toNat / 65536
     let len := (c.dr b.val).toNat % 65536
     let o := c.ar p.val
     let n := (c.dr a.val).toNat
     (st ∈ [0x00, 0x04, 0x05, 0x06, 0x07, 0x08, 0x0A] → (len = 0 ∨ (off + len ≤ 0x2000 ∧ len ≤ (s.job r.job).rmax)) →
       exec (.post i a b) s = .next (endRun l (v.cyc + 1 + postStall u l u.dt) st
         ((List.range len).map (fun k => (s.job r.job).frameByte (off + k))) u)) ∧
     ((sb = true → p.val < 6) → r.fin = false → (s.job r.job).pkOp ≠ 0 → 1 ≤ n → n ≤ 1024 → c.bank p.val sb = 1 → o.toNat + n ≤ 0x2000 →
       exec (.pksub i p sb a) s = .next (endPksub l (v.cyc + 1) o.toNat n u)))

/-- A supervisor that can issue runs the register instructions as a lane does, here NOP, ADD and MOVI; MTC writes its own
control registers; WAIT holds it where no enabled interrupt is pending; ERET restores IE from PIE, leaves the trap and
goes to SEPC. Nothing but its registers, its level, the DT at which it may issue again, DT and the boot ROM's run
changes. -/
def Obligations.SupervisorInstructions : Prop :=
  ∀ (s : State) (i : Issue) (rd a b : Fin 16) (m : BitVec 18),
    let p := s.unit.sup
    let c := p.core
    (SupReady s i →
      exec (.nop i) s = .next (s.afterSup 1 c) ∧
      exec (.add i rd a b) s = .next (s.afterSup 1 ((c.setD rd.val (c.dr a.val + c.dr b.val)).setFl
        (decide (2 ^ 32 ≤ (c.dr a.val).toNat + (c.dr b.val).toNat))
        (decide ((c.dr a.val).toInt + (c.dr b.val).toInt < -(2 ^ 31) ∨ 2 ^ 31 ≤ (c.dr a.val).toInt + (c.dr b.val).toInt)))) ∧
      exec (.movi i rd m) s = .next (s.afterSup 1 (c.setD rd.val (m.signExtend 32))) ∧
      exec (.mtc i rd 28) s = .next (State.afterSup (s.setSup { p with sien := (c.dr rd.val).extractLsb' 0 16 }) 1 c) ∧
      exec (.mtc i rd 30) s = .next (State.afterSup (s.setSup { p with svec := (c.dr rd.val).extractLsb' 0 24 }) 1 c) ∧
      exec (.mtc i rd 31) s = .next (State.afterSup (s.setSup { p with sepc := (c.dr rd.val).extractLsb' 0 24 }) 1 c) ∧
      exec (.wait i) s = .next (State.afterSup (s.setSup { p with wait := decide (supPending s = 0) }) 2 c)) ∧
    (∀ lv, i.core.val = 64 → supRuns s = true → supPending s = 0 ∨ p.ie = false → c.guard i.pn i.pg.val = true → c.imp = none →
      fetchLevel s p.sepc.toNat = some lv → lv = p.level ∨ (p.level = 0x60 ∧ lv = 0x61) ∨ (p.level = 0x61 ∧ 0x62 ≤ lv) →
      exec (.eret i) s = .next { s with
        dt := Nat.max s.dt p.free
        unit := { s.unit with sup := { p with
          core := { c with inTrap := false, ibk := BitVec.ofNat 8 (p.sepc.toNat / 65536), pc := BitVec.ofNat 16 p.sepc.toNat }
          ie := p.pie, level := lv, free := Nat.max s.dt p.free + 2 } }
        act := if lv = 0x60 then s.act else { s.act with romrun := false } })

/-- While KD is READY, the event of a latched source sets its SIPEND bit; with IE 1 and the source enabled the supervisor
goes to SVEC with the PC in SEPC, IE in PIE, IE 0, no loop level, the latched sources taken cleared and WAIT ended.
With no enabled source pending the event leaves only the bit. WAIT_RESUME ends a WAIT where an enabled interrupt is
pending. -/
def Obligations.SupervisorInterrupts : Prop :=
  (∀ (s : State) (k : Fin 8), s.domReady 2 = true → 2 ^ k.val &&& 0xB9 ≠ 0 →
    let p := s.unit.sup
    let u := { s with tamper := { s.tamper with sipend := s.tamper.sipend ||| 2 ^ k.val } }
    (supPending u = 0 ∨ p.ie = false → exec (.supervisorInterrupt (some k)) s = .next u) ∧
    (∀ lv, supPending u ≠ 0 → p.ie = true → fetchLevel s p.svec.toNat = some lv → lv = p.level ∨ lv = 0x61 →
      exec (.supervisorInterrupt (some k)) s = .next { u with
        tamper := { u.tamper with sipend := u.tamper.sipend &&& (65535 - (supPending u &&& 0xB9)) }
        unit := { s.unit with sup := { p with
          core := { p.core with ldepth := 0, ibk := BitVec.ofNat 8 (p.svec.toNat / 65536), pc := BitVec.ofNat 16 p.svec.toNat }
          sepc := BitVec.ofNat 24 (p.core.ibk.toNat * 65536 + p.core.pc.toNat), pie := true, ie := false, wait := false, level := lv } }
        act := if lv = 0x60 then s.act else { s.act with romrun := false } })) ∧
  (∀ s : State, s.unit.sup.wait = true → supPending s ≠ 0 →
    exec .waitResume s = .next { s with unit := { s.unit with sup := { s.unit.sup with wait := false } } })

/-- On a lane that can run it, with ranges in place, a length word in range and a key whose entry passes every check, each
AES and TDES ECB, CBC and CTR instruction writes to its destination the blocks of its mode over the source, leaves the
next chaining value in D12 to D15 or D14 and D15 where the mode chains, and takes the cycles of its unit; nothing else
changes. On a lane that can run it, with ranges in place, a length word in range, a MAC state that agrees and a key
whose entry passes every check: a first or middle segment leaves its chaining value in the MAC state and writes
nothing; a whole message or a last segment writes TLEN bytes of the tag, or for a verification leaves in the predicate
whether the bytes at the destination equal it, and ends the MAC state of a last segment; GHKEY leaves the encipherment
of the zero block as the lane's GHASH key; nothing else changes. -/
def Obligations.Ciphers : Prop :=
  (∀ (s : State) (i : Issue) (r : Run) (T : Nat) (kk : Fin 4) (sa da : Fin 8) (sb db : Bool) (dn : Fin 16), Ready s i r T →
     let l := i.core.val
     let c := s.core l
     let u := s.atIssue i r
     let w := lenWord (c.dr dn.val)
     let a := c.addr (sa.val, sb)
     let b := c.addr (da.val, db)
     let key := (keyEntry u l kk.val).1.key
     let one : Bool := decide ((s.job r.job).xa ≠ 0)
     let la := if declared u l kk.val = 1 then 11 else if declared u l kk.val = 2 then 13 else 15
     let wa := if one then 3 else 1
     let ta := if one then 4 else 2
     let first := if a.1 = 1 then 6 else 1
     let form (x : Instr) (tdes : Bool) (fn : Nat) : Prop :=
       let n := (w.len + (if tdes then 7 else 15)) / (if tdes then 8 else 16)
       (sb = true → sa.val < 6) → (db = true → da.val < 6) →
       unitRanges u l [(a.1, a.2, w.len), (b.1, b.2, w.len)] = none → cryArgOk tdes fn w = true →
       keyTrap u l (if tdes then 1 else 0) (if fn = 1 ∨ fn = 3 then 1 else 0) false [kk.val] = none →
       T = 2 + first + 1 + (if fn = 2 then n * (if tdes then 33 else wa + la) else if tdes then 7 + 8 * (n - 1) + 26
         else wa + ta * (n - 1) + la) →
       let o := streamOut (if tdes then 8 else 16)
         (blockStep fn (if tdes then tdesEnc key else aesEnc key) (if tdes then tdesDec key else aesDec key))
         (if a.1 = b.1 then some ((b.2 : Int) - (a.2 : Int)) else none) (w.len + 1) 0 (laneRead u l a.1 a.2 w.len) (c.chain tdes) []
       Writes x i r T (if 2 ≤ fn then c.setChain tdes o.2 else c) b.1 b.2 o.1 s
     form (.aesEcbE i kk sa sb da db dn) false 0 ∧ form (.aesEcbD i kk sa sb da db dn) false 1 ∧
     form (.aesCbcE i kk sa sb da db dn) false 2 ∧ form (.aesCbcD i kk sa sb da db dn) false 3 ∧
     form (.aesCtr i kk sa sb da db dn) false 4 ∧
     form (.tdesEcbE i kk sa sb da db dn) true 0 ∧ form (.tdesEcbD i kk sa sb da db dn) true 1 ∧
     form (.tdesCbcE i kk sa sb da db dn) true 2 ∧ form (.tdesCbcD i kk sa sb da db dn) true 3) ∧
  (∀ (s : State) (i : Issue) (r : Run) (T : Nat) (kk : Fin 4) (sa da pd : Fin 8) (sb db : Bool) (dn : Fin 16), Ready s i r T →
     let l := i.core.val
     let c := s.core l
     let u := s.atIssue i r
     let w := lenWord (c.dr dn.val)
     let a := c.addr (sa.val, sb)
     let b := c.addr (da.val, db)
     let key := (keyEntry u l kk.val).1.key
     let part : Bool := decide (w.seg = 1 ∨ w.seg = 2)
     let src := laneRead u l a.1 a.2 w.len
     let form (x : Instr) (tdes : Bool) (fn : Nat) (mac3 verify : Bool) : Prop :=
       let bs := if tdes then 8 else 16
       let held := match c.mac with | some m => m.chain | none => zeros bs
       let start := if w.seg = 2 ∨ w.seg = 3 then held else zeros bs
       let f := (macFuns tdes mac3 key).1
       let tag := (macFinal tdes mac3 w.pad key start src).take w.tlen
       let e := if w.seg = 3 then { c with mac := none } else c
       (sb = true → sa.val < 6) → (db = true → da.val < 6) →
       unitRanges u l ((a.1, a.2, w.len) :: (if part then [] else [(b.1, b.2, w.tlen)])) = none →
       cryArgOk tdes fn w = true → macStateOk c tdes fn kk.val w = true →
       keyTrap u l (if tdes then 1 else 0) (if verify then 3 else 2) mac3 [kk.val] = none →
       T = cryTime l (s.lane l).cyc tdes fn kk.val (sa.val, sb) (da.val, db) dn.val u →
       (part = true → Runs x i r T { c with mac := some ⟨tdes, fn, kk.val, w.pad, w.tlen, cmacChain bs f start src⟩ } s) ∧
       (part = false → verify = true → Runs x i r T (e.setP pd.val (decide (laneRead u l b.1 b.2 w.tlen = tag))) s) ∧
       (part = false → verify = false → Writes x i r T e b.1 b.2 tag s)
     form (.aesCmacG i kk sa sb da db dn) false 5 false false ∧ form (.aesCmacV i kk sa sb da db dn pd) false 6 false true ∧
     form (.tdesMac1G i kk sa sb da db dn) true 4 false false ∧ form (.tdesMac1V i kk sa sb da db dn pd) true 5 false true ∧
     form (.tdesMac3G i kk sa sb da db dn) true 6 true false ∧ form (.tdesMac3V i kk sa sb da db dn pd) true 7 true true ∧
     (keyTrap u l 0 0 false [kk.val] = none →
       T = 3 + (if (s.job r.job).xa ≠ 0 then 3 else 1) + aesLat (declared u l kk.val) →
       Runs (.aesGhkey i kk) i r T { c with ghk := aesEnc key (zeros 16) } s))

/-- On a lane that can run it, with ranges in place and a length that the segment allows, each HASH instruction of a first
segment starts the function's initial state, of a later one takes up the state that the lane holds for that function;
without LAST it leaves the state with the bytes taken in, and with LAST it writes the padded message's digest, or the
GHASH value, and leaves no state. -/
def Obligations.HashUnit : Prop :=
  ∀ (s : State) (i : Issue) (r : Run) (T : Nat) (first last : Bool) (sa da : Fin 8) (sb db : Bool) (dn : Fin 16) (h0 : HashSt),
    Ready s i r T →
    let l := i.core.val
    let c := s.core l
    let u := s.atIssue i r
    let n := (c.dr dn.val).toNat
    let a := c.addr (sa.val, sb)
    let b := c.addr (da.val, db)
    let m := laneRead u l a.1 a.2 n
    let form (x : Instr) (fn blk len : Nat) : Prop :=
      let h := if first then hashStart fn else h0
      (sb = true → sa.val < 6) → (db = true → da.val < 6) → (last = false → da.val = 0 ∧ db = false) →
      n < 65536 → (last = false ∨ fn = 3 → n % blk = 0) → (first = false → c.hash = some h0 ∧ h0.fn = fn) →
      unitRanges u l (if last then [(a.1, a.2, n), (b.1, b.2, len)] else [(a.1, a.2, n)]) = none →
      T = hashTime l (s.lane l).cyc fn last (sa.val, sb) dn.val u →
      (last = false → Runs x i r T { c with hash := some (hashMore h c.ghk m) } s) ∧
      (last = true → Writes x i r T { c with hash := none } b.1 b.2 (hashEnd h c.ghk m) s)
    form (.hashSha256 i first last sa sb da db dn) 0 64 32 ∧ form (.hashSha384 i first last sa sb da db dn) 1 128 48 ∧
    form (.hashSha512 i first last sa sb da db dn) 2 128 64 ∧ form (.hashGhash i first last sa sb da db dn) 3 16 16

/-- On a lane that can run it, with ranges and length in place and no byte refused, each message assist writes its output
to the destination and its predicate: MCPY the source, MFILL the fill byte, MXOR the destination exclusive-ored with
the source, HEXD the bytes of the hexadecimal digits, HEXE the digits of the bytes, BCDP the packed digits, BCDU the
digits of the nibbles; MCMP writes only the predicate. KCHK sets P[PD] where the reference's entry is valid and of the
declared type, and P[PDN] to the inverse. -/
def Obligations.MessageAssists : Prop :=
  ∀ (s : State) (i : Issue) (r : Run) (T : Nat) (sa da pd pdn : Fin 8) (sb db : Bool) (dn : Fin 16) (kk : Fin 4), Ready s i r T →
    let l := i.core.val
    let c := s.core l
    let u := s.atIssue i r
    let w := lenWord (c.dr dn.val)
    let a := c.addr (sa.val, sb)
    let b := c.addr (da.val, db)
    let src := laneRead u l a.1 a.2 w.len
    let old := laneRead u l b.1 b.2 w.len
    let digits := src.map digVal
    let ok (fn n : Nat) : Prop :=
      let from' := if fn = 1 then [] else [(a.1, a.2, w.len)]
      (sb = true → sa.val < 6) ∧ (db = true → da.val < 6) ∧ w.top = 0 ∧ w.seg = 0 ∧ w.len ≤ 8192 ∧ (fn ≠ 1 → w.fill = 0) ∧
      (fn = 4 → w.len % 2 = 0) ∧
      (∀ x ∈ from' ++ [(b.1, b.2, n)], rangeMapped u l x = true ∧ (x.1 = 0 ∨ x.1 = 1 ∨ (0x10 ≤ x.1 ∧ x.1 ≤ 0x1F))) ∧
      msgRefusal u l fn w.len from' (b.1, b.2, n) = none ∧
      T = msgTime l (s.lane l).cyc fn (sa.val, sb) (da.val, db) dn.val u
    (ok 0 w.len → Writes (.mcpy i sa sb da db dn) i r T c b.1 b.2 src s) ∧
    (ok 1 w.len → Writes (.mfill i da db dn) i r T c b.1 b.2 (List.replicate w.len (BitVec.ofNat 8 w.fill)) s) ∧
    (ok 2 w.len → Writes (.mxor i sa sb da db dn) i r T c b.1 b.2 (xorBytes old src) s) ∧
    (ok 3 w.len → Runs (.mcmp i sa sb da db dn pd) i r T (c.setP pd.val (decide (src = old))) s) ∧
    (ok 4 (w.len / 2) → Writes (.hexd i sa sb da db dn pd) i r T (c.setP pd.val (src.all (fun x => (hexNibble x).isSome))) b.1 b.2
      (fromNibbles (src.map (fun x => (hexNibble x).getD 0))) s) ∧
    (ok 5 (2 * w.len) → Writes (.hexe i sa sb da db dn) i r T c b.1 b.2 ((nibbles src).map hexChar) s) ∧
    (ok 6 ((w.len + 1) / 2) → Writes (.bcdp i sa sb da db dn pd) i r T (c.setP pd.val (digits.all (fun x => x.isSome))) b.1 b.2
      (fromNibbles ((if w.len % 2 = 1 then [0] else []) ++ digits.map (fun x => x.getD 0))) s) ∧
    (ok 7 (2 * w.len) → Writes (.bcdu i sa sb da db dn pd) i r T (c.setP pd.val ((nibbles src).all (fun x => decide (x < 10)))) b.1 b.2
      ((nibbles src).map (fun x => BitVec.ofNat 8 (0x30 + (if x < 10 then x else 0)))) s) ∧
    (T = 2 → pd ≠ pdn ∨ pd.val = 0 →
      let e := keyEntry u l kk.val
      Runs (.kchk i pd pdn kk) i r 2 (c.setPs pd.val pdn.val (e.2.isNone && decide (e.1.ktype = declared u l kk.val))) s)

/-- On a lane that can run it, with the operand block in place and both keys passing the checks of SAF, each Saffron
operation leaves in Dx the status in bits 7 to 0 and the reason or value above it, counts the operation, and for
TRANSLATE writes the new block. Where every check of the operation passes: TRANSLATE answers OK with the PIN formed
and enciphered under KO; the verifications answer OK or VERIFY_FAIL by their comparison; the generations answer OK
with the digits in BCD. Where a quad's generator has served 2^20 requests its count returns to 0 and the reseed is
counted; nothing else changes. -/
def Obligations.SaffronOperations : Prop :=
  (∀ (s : State) (i : Issue) (r : Run) (T : Nat) (ki ko : Fin 4) (sa da : Fin 8) (sb db : Bool) (dx : Fin 16), Ready s i r T →
    let l := i.core.val
    let c := s.core l
    let u := s.atIssue i r
    let a := c.addr (sa.val, sb)
    let b := c.addr (da.val, db)
    let form (x : Instr) (sop : Nat) : Prop :=
      let o := safRun sop (safPar (c.dr dx.val)) (decide (ki = ko)) (keyEntry u l ki.val).1 (keyEntry u l ko.val).1
        (epochCfg u (s.job r.job).epoch) (laneRead u l a.1 a.2 64) u
      let e := c.setD dx.val (BitVec.ofNat 32 (o.value * 256 + o.status))
      let n := (safCount l sop o.status (decide (o.st.draws ≠ u.draws)) o.st).setCore l e
      (sb = true → sa.val < 6) → (db = true → da.val < 6) → (sop ≠ 1 → da.val = 0 ∧ db = false) →
      unitRanges u l (if sop = 1 then [(a.1, a.2, 64), (b.1, b.2, 16)] else [(a.1, a.2, 64)]) = none →
      keyTrap u l 2 4 false [ki.val, ko.val] = none →
      T = 4 + (if a.1 = 1 then 6 else 1) + 639 + safLat u l sop ki.val ko.val + 1 →
      exec x s = .next (s.afterLane (match o.out with | some bs => coreWrite l b.1 b.2 bs n | none => n) i r T { e with pc := c.pc + 4 })
    form (.safTranslate i ki ko sa sb da db dx) 1 ∧ form (.safOfsVerify i ki ko sa sb da db dx) 2 ∧
    form (.safOfsGen i ki ko sa sb da db dx) 3 ∧ form (.safPvvVerify i ki ko sa sb da db dx) 4 ∧
    form (.safPvvGen i ki ko sa sb da db dx) 5 ∧ form (.safCvvVerify i ki ko sa sb da db dx) 6 ∧
    form (.safCvvGen i ki ko sa sb da db dx) 7) ∧
  (∀ (s : State) (sop : Fin 8) (p : SafPar) (same : Bool) (ki ko : CacheEnt) (cfg : EpochCfg) (blk : Bytes) (pan pin : List Nat),
    let tab := EpochCfg.bytes s cfg 0x5400 (p.aux + 1)
    let v := slice blk 36 16
    let o := safRun sop.val p same ki ko (some cfg) blk s
    let digit (x y : List Nat) (k : Nat) : Nat := (x.getD k 0 + y.getD k 0) % 10
    sop.val ≠ 0 → parOk sop.val p = true → (isCvv sop.val = true → same = true) → rolesOk sop.val ki ko = true → typesOk sop.val p ki ko = true →
    (isOfs sop.val = true → tab ≠ [] ∧ p.chk ≤ pin.length) →
    (sop.val = 1 → pairOk (decide (EpochCfg.val s cfg 0x5402 1 = 1)) p.fin p.fout = true) →
    (usesPan sop.val p = true → asciiDigits (slice blk 16 p.panlen) = some pan) →
    (usesPan sop.val p = false → asciiDigits (slice blk 16 p.panlen) = some pan ∨ (asciiDigits (slice blk 16 p.panlen) = none ∧ pan = [])) →
    vdataOk sop.val v = true →
    (isCvv sop.val = false → pinCheck p.fin (EpochCfg.val s cfg 0x5402 2) (pinDecipher p.fin ki.key (blk.take 16) pan) = (0, pin)) →
    (sop.val = 1 → o.status = 0 ∧ o.value = 0 ∧ o.out = some (pinEncipher p.fout ko.key (pinForm p.fout pin s).1 pan)) ∧
    (sop.val = 2 → o.status = if ∀ k, k < p.chk → digit (naturalPin ko.key v tab p.chk) (nibbles (slice v 8 6)) k = pin.getD k 0 then 0 else 0x07) ∧
    (sop.val = 3 → o.status = 0 ∧ o.value = bcdValue ((List.range p.chk).map
      (fun k => (pin.getD k 0 + 10 - (naturalPin ko.key v tab p.chk).getD k 0) % 10))) ∧
    (sop.val = 4 → o.status = if pvvOf ko.key pan pin p.aux = nibbles (v.take 2) then 0 else 0x07) ∧
    (sop.val = 5 → o.status = 0 ∧ o.value = bcdValue (pvvOf ko.key pan pin p.aux)) ∧
    (sop.val = 6 → o.status = if cvvOf ki.key pan v p.chk = (nibbles (slice v 4 3)).drop (6 - p.chk) then 0 else 0x07) ∧
    (sop.val = 7 → o.status = 0 ∧ o.value = bcdValue (cvvOf ki.key pan v p.chk)) ∧
    (sop.val ≠ 1 → o.out = none ∧ o.st = s)) ∧
  (∀ (s : State) (q : Fin 16), 2 ^ 20 ≤ (s.quad q.val).sgen →
     exec (.saffronDrbgReseed q) s = .next ((s.setQuad q.val { s.quad q.val with sgen := 0 }).bump 0xB600 9))

/-- In a context that holds a message, before its stop time and before its program's last word, each classifier
instruction writes its register or descriptor field, moves to the next word, or beyond the words skipped, and takes
its XCLK; a load, a number, a key or an identifier that lies outside the message, or is no number, a deadline outside
its range, and the last word of a program, here CLS_NOP, end the program and the port answers FORMAT. Nothing else
changes. The oldest waiting message takes the lowest-numbered context that is free at the later of its release and the
first instant at which one is. EMIT with a class set ends the program with the message's descriptor 4 XCLK after its
last instruction, and without one the port answers FORMAT; REJECT ends it with FORMAT or POLICY, DROP with no answer,
counted; a context that reaches its stop time ends with OVERRUN, counted. The message then leaves the line in release
order. -/
def Obligations.Classifier : Prop :=
  (∀ (s : State) (i : ClsI) (m : Msg),
     let p := i.src.val
     let c := i.ctx.val
     let x := s.ctx p c
     let r (k : Fin 8) : Nat := (Tab.look 0 x.regs k.val).toNat
     let base := if i.b.val = 0 then 0 else r i.b
     let n := i.imm.toNat
     let len := m.body.length
     let at16 := base + n % 65536
     let digits := slice m.body at16 (n / 65536 + 1)
     let packed := (nibbles (slice m.body at16 ((n / 65536 + 2) / 2))).take (n / 65536 + 1)
     let field := walkedOf x (n % 256)
     let off := r i.a / 65536
     let size := r i.a % 65536
     let img := ctxImage s m
     let rule := (List.range (imgNRule img)).find? (fun k => decide (r i.b &&& beNat (slice (imgRule img k) 4 4) = beNat (slice (imgRule img k) 0 4)))
     let walk := bmwWalk m.body img (r i.b) n
     let fits (k : Nat) : Prop := x.msg = some m ∧ x.t + 16 * k ≤ x.stop
     let goes (y : Instr) (k : Nat) (e : Ctx) : Prop :=
       fits k → e.pc + 1 < imgNCode img → exec y s = .next (s.setCtx p c { e with t := x.t + 16 * k, pc := e.pc + 1 })
     let fails (y : Instr) (k : Nat) : Prop :=
       fits k → exec y s = .next (endCtx p c (.self 0x08 (x.cls.getD 0) (x.id m)) (x.t + 16 * k) (x.t + 16 * k + 16) s)
     let skips (y : Instr) (b : Bool) : Prop := goes y 1 (if b then { x with pc := x.pc + n % 512 } else x)
     goes (.clsNop i) 1 x ∧
     (at16 + 1 ≤ len → goes (.clsLdb i) 1 (x.setC i.a.val (beNat (slice m.body at16 1)))) ∧
     (at16 + 2 ≤ len → goes (.clsLdh i) 1 (x.setC i.a.val (beNat (slice m.body at16 2)))) ∧
     (at16 + 4 ≤ len → goes (.clsLdw i) 1 (x.setC i.a.val (beNat (slice m.body at16 4)))) ∧
     (len < at16 + 1 → fails (.clsLdb i) 1) ∧
     (len < at16 + 2 → fails (.clsLdh i) 1) ∧
     (len < at16 + 4 → fails (.clsLdw i) 1) ∧
     goes (.clsLdf i) 1 (x.setC i.a.val ((field.1 % 65536 * 65536 + field.2) % 2 ^ 32)) ∧
     (∀ ds, at16 + n / 65536 + 1 ≤ len → asciiDigits digits = some ds → goes (.clsNum i) 2 (x.setC i.a.val (decNat ds % 2 ^ 32))) ∧
     (len < at16 + n / 65536 + 1 ∨ asciiDigits digits = none → fails (.clsNum i) 2) ∧
     (at16 + (n / 65536 + 2) / 2 ≤ len → packed.all (fun d => decide (d ≤ 9)) = true → goes (.clsNumb i) 2 (x.setC i.a.val (decNat packed % 2 ^ 32))) ∧
     (len < at16 + (n / 65536 + 2) / 2 ∨ packed.all (fun d => decide (d ≤ 9)) = false → fails (.clsNumb i) 2) ∧
     goes (.clsMovi i) 1 (x.setC i.a.val n) ∧
     goes (.clsMovhi i) 1 (x.setC i.a.val (n % 4096 * 2 ^ 20 + r i.a % 2 ^ 20)) ∧
     goes (.clsAdd i) 1 (x.setC i.a.val ((base + n) % 2 ^ 32)) ∧
     goes (.clsAddr i) 1 (x.setC i.a.val ((r i.a + r i.b) % 2 ^ 32)) ∧
     goes (.clsAnd i) 1 (x.setC i.a.val (r i.b &&& n)) ∧
     goes (.clsOr i) 1 (x.setC i.a.val (r i.b ||| n)) ∧
     goes (.clsShr i) 1 (x.setC i.a.val (r i.b / 2 ^ (n % 32))) ∧
     goes (.clsShl i) 1 (x.setC i.a.val (r i.b * 2 ^ (n % 32) % 2 ^ 32)) ∧
     skips (.clsBeq i) (decide (r i.a = r i.b)) ∧
     skips (.clsBne i) (decide (r i.a ≠ r i.b)) ∧
     skips (.clsBlt i) (decide (r i.a < r i.b)) ∧
     skips (.clsBge i) (decide (r i.b ≤ r i.a)) ∧
     (∀ w, walk.fields = some w → goes (.bmw i) (2 + walk.maps + walk.present) ({ x with walk := some w }.setC i.a.val walk.present)) ∧
     (walk.fields = none → fails (.bmw i) (2 + walk.maps + walk.present)) ∧
     (∀ k, rule = some k → goes (.rule i) 2 ({ x with cls := some (byteAt (imgRule img k) 8).toNat }.setC i.a.val k)) ∧
     (rule = none → goes (.rule i) 2 (x.setC i.a.val 0xFFFFFFFF)) ∧
     goes (.setc i) 1 { x with cls := some (n % 256) } ∧
     (i.b.val = 0 → 1 ≤ n → n ≤ 1048575 → goes (.setdl i) 1 { x with rel := some n }) ∧
     (i.b.val ≠ 0 → 1 ≤ r i.b → r i.b ≤ 1048575 → goes (.setdl i) 1 { x with rel := some (r i.b) }) ∧
     goes (.setf i) 1 { x with
       field := Tab.put (0, 0) x.field (n / 65536) (if bit n 15 then (r i.b / 65536, r i.b % 65536) else field)
       fieldmask := x.fieldmask ||| 2 ^ (n / 65536) } ∧
     (size ≤ 32 → off + size ≤ len → goes (.setk i) 1 { x with
       keyref := Tab.put {} x.keyref (n % 4) ⟨r i.b % 2 ^ 18, off, size⟩, keymask := x.keymask ||| 2 ^ (n % 4) }) ∧
     (32 < size ∨ len < off + size → fails (.setk i) 1) ∧
     (1 ≤ size → size ≤ 8 → off + size ≤ len → goes (.setid i) 1 { x with setid := some (beNat (slice m.body off size)) }) ∧
     (size = 0 ∨ 8 < size ∨ len < off + size → fails (.setid i) 1) ∧
     (i.b.val = 0 → n = 0 ∨ 1048575 < n → fails (.setdl i) 1) ∧
     (i.b.val ≠ 0 → r i.b = 0 ∨ 1048575 < r i.b → fails (.setdl i) 1) ∧
     (imgNCode img ≤ x.pc + 1 → fails (.clsNop i) 1)) ∧
  (∀ (s : State) (i : ClsI) (m : Msg),
     let p := i.src.val
     let c := i.ctx.val
     let x := s.ctx p c
     let t := x.t + 16
     let cls := x.cls.getD 0
     (x.msg = some m → t ≤ x.stop →
       (∀ k, x.cls = some k → exec (.emit i) s = .next (endCtx p c (.desc (descOf s m x k)) (x.t + 80) (x.t + 80) s)) ∧
       (x.cls = none → exec (.emit i) s = .next (endCtx p c (.self 0x08 0 (x.id m)) t (t + 16) s)) ∧
       (i.imm.toNat % 256 = 0x06 → exec (.reject i) s = .next (endCtx p c (.self 0x06 cls (x.id m)) t (t + 16) s)) ∧
       (i.imm.toNat % 256 ≠ 0x06 → exec (.reject i) s = .next (endCtx p c (.self 0x08 cls (x.id m)) t (t + 16) s)) ∧
       exec (.drop i) s = .next (State.pstat (endCtx p c .gone t (t + 16) s) p 0x0C)) ∧
     (x.msg = some m →
       exec (.classifierStop i.src i.ctx) s = .next (State.pstat (endCtx p c (.self 0x03 cls (x.id m)) x.stop (x.stop + 16) s) p 0x10)) ∧
     (∀ (e : LineEnt) (t0 : Nat), (s.src p).line.find? (fun e => decide (e.st = .waiting)) = some e →
       (∃ k : Fin 8, (s.ctx p k.val).msg = none ∧ (s.ctx p k.val).freeAt = t0) →
       (∀ k : Fin 8, (s.ctx p k.val).msg = none → t0 ≤ (s.ctx p k.val).freeAt) →
       x.msg = none → x.freeAt ≤ Nat.max t0 e.msg.rel →
       (∀ k : Fin 8, k.val < c → (s.ctx p k.val).msg = none → Nat.max t0 e.msg.rel < (s.ctx p k.val).freeAt) →
       exec (.classifierContextStart i.src) s = .next (startCtx p c e.msg (Nat.max t0 e.msg.rel) s)))

/-- A request that passes the checks of its carrier, form and session is answered OK, inside its session with a tag, and
has its effect: READ the bytes of the value from OFFSET on where the domain that holds them is on, or fresh random
bytes, counted; WRITE the entry's effect, which for an entry without one is the working value; DEFAULT the default as
the working value; COMMIT a slot that waits; SESSION_CLOSE the end of the session; KEEPALIVE nothing else. -/
def Obligations.DictionaryRequests : Prop :=
  ∀ (s t : State) (r : Req) (role k : Nat) (v : Bytes),
    let idx := r.index.toNat
    let sub := r.sub.toNat
    let off := r.offset.toNat
    let value := readValue t idx sub
    let n := Nat.min r.length.toNat (value.length - off)
    let big : Bool := match findEnt idx sub with | some e => e.ty.isBytes | none => false
    let room (m : Nat) : Prop := 22 + m + (if r.session = 0 then 0 else 16) ≤ maxRsp r.tr
    let w := writeRule idx sub
    let dflt := t.dflt idx sub
    (Heard s r 1 t role → deepMs t r 1 = false → (∀ d, readDomain idx = some d → t.domReady d = true) → readFails t idx = false →
      entryExists idx sub = true → hasRight t role (rdRight idx sub) = true → ¬ (idx = 0x1080 ∧ sub = 1) → (off = 0 ∨ big = true) → off ≤ value.length → room n →
      exec (.dictRead r) s = .next (replyIn t r 1 0 (slice value off n) t)) ∧
    (Heard s r 1 t role → deepMs t r 1 = false → idx = 0x1080 → sub = 1 → hasRight t role (rdRight idx sub) = true → t.rst.trngFailed = false → t.power.lcs ≠ .retired → off = 0 →
      room (Nat.min r.length.toNat 4096) →
      exec (.dictRead r) s = .next (replyIn t r 1 0 (t.draw (Nat.min r.length.toNat 4096)).1 ((t.draw (Nat.min r.length.toNat 4096)).2.bump 0x1080 2))) ∧
    (Granted s r idx sub t role v → ¬ (idx = 0x1100 ∧ sub = 5) → w.lc t role = true → w.md t role = true → w.rg t v = true → (w.fx t role v).code = 0 →
      Answers (.dictWrite r) s r idx sub t (w.fx t role v).data (w.fx t role v).st) ∧
    (Granted s r idx sub t role v → idx < 0x1100 → Answers (.dictWrite r) s r idx sub t [] (storeEnt idx sub v t)) ∧
    (Heard s r 3 t role → idx < 0x1100 → (∃ e, findEnt idx sub = some e ∧ e.wr ≠ 0 ∧ mayWrite t role e.wr = true ∧ noDefault idx sub e = false ∧
      plainRange e dflt = true) → isMs r.tr = false → exec (.dictDefault r) s = .next (replyIn t r 3 0 [] (storeEnt idx sub dflt t))) ∧
    (Heard s r 4 t role → isMs r.tr = false → mayWrite t role 8 = true → CanBegin t 0 0 k →
      exec (.dictCommit r) s = .next (replyIn t r 4 0 (handle t k) (queued t 0 0 role .commit k))) ∧
    (Heard s r 0x12 t role → role ≠ 0 → isMs r.tr = false → exec (.sessionClose r) s = .next (replyIn t r 0x12 0 [] (closeSession t))) ∧
    (Heard s r 0x13 t role → role ≠ 0 → isMs r.tr = false → exec (.keepalive r) s = .next (replyIn t r 0x13 0 [] t)) ∧
    (storeEnt idx sub v t).entW idx sub = v ∧ (closeSession t).dict.sess = none

/-- The operation that has waited longest in QUEUED starts: a COMMIT runs and a configuration change begins to load where
no work of the previous epoch is left. ABORT of a queued COMMIT ends it ABORTED, and of an idle or ended slot changes
nothing; RELEASE of an idle or ended slot, and 60 s after its end the automatic release, leave it IDLE with status
word 0. -/
def Obligations.LongOperations : Prop :=
  ∀ (s t : State) (r : Req) (k : Byte) (role : Nat),
    let sl := t.slot k.toNat
    let ended : Bool := sl.state.terminal || decide (sl.state = .idle)
    let idle := t.setSlot k.toNat { sl with state := .idle, code := 0, progress := 0 }
    (firstQueued s = some k.toNat → (s.slot k.toNat).work = .commit →
      exec (.longopStart k) s = .next (commitRun k.toNat (s.setSlot k.toNat { s.slot k.toNat with state := .running }))) ∧
    (firstQueued s = some k.toNat → (s.slot k.toNat).work ≠ .commit → s.unit.epoch.slot = some k.toNat → s.unit.epoch.st = .queued →
      prevWork s = false → exec (.longopStart k) s = .next (startLoad s)) ∧
    (Granted s (reqWith r [1]) (0xF000 + k.toNat) 7 t role [1] → role = sl.role ∨ mayWrite t role 8 = true →
      (ended = true → Answers (.longopAbort r k) s (reqWith r [1]) (0xF000 + k.toNat) 7 t [] t) ∧
      (sl.state = .queued → sl.work = .commit →
        Answers (.longopAbort r k) s (reqWith r [1]) (0xF000 + k.toNat) 7 t [] (endSlot k.toNat .aborted 0xFFFD [] t))) ∧
    (Granted s (reqWith r [2]) (0xF000 + k.toNat) 7 t role [2] → ended = true →
      Answers (.longopRelease r k) s (reqWith r [2]) (0xF000 + k.toNat) 7 t [] idle) ∧
    ((s.slot k.toNat).state.terminal = true →
      exec (.longopAutoRelease k) s = .next (State.setSlot (s.at ((s.slot k.toNat).ended + 60000000000)) k.toNat
        { s.slot k.toNat with state := .idle, code := 0, progress := 0 })) ∧
    idle.slot k.toNat = { sl with state := .idle, code := 0, progress := 0 } ∧ (idle.slot k.toNat).word = 0 ∧
    (∀ j, j ≠ k.toNat → idle.slot j = t.slot j)

/-- A SESSION_OPEN without fault leaves a half-open session with a fresh identifier, the role asked for and fresh values,
and answers with them; a SESSION_AUTH of the half-open session opens it where the client's signature verifies, and
ends it with AUTH_FAIL, logged and counted, otherwise. 2 s after its start a half-open session ends; a session whose
idle time has passed ends. MGE answers ARP, neighbour discovery and echo of its own addresses, and counts a fragment. -/
def Obligations.Sessions : Prop :=
  (∀ (s t : State) (r : Req) (role : Nat) (h : HalfSession),
    ((∀ free, gate r 0x10 free s = .session t) → sessionCheck t r 0x10 = .go role → openCode t r = 0 → exec (.sessionOpen r) s = .next (
        let o := openHalf r t
        let p := mkReplyAs o.1 t r 0x10 0 o.2.1 (decide (r.session ≠ 0))
        noteAnswer r p (sendReply p o.2.2))) ∧
    (∃ x, (openHalf r t).2.2.dict.half = some x ∧ x.id = (openHalf r t).1 ∧ x.id ≠ 0 ∧ x.role = (byteAt r.data 0).toNat ∧
      x.tr = r.tr ∧ x.src = r.src.toNat ∧ x.started = t.dt) ∧
    ((∀ free, gate r 0x11 free s = .session t) → t.dict.half = some h → h.id = r.session.toNat → h.tr = r.tr → h.src = r.src.toNat → r.seq = 0 →
      exec (.sessionAuth r) s = .next (
        if p384Verify (sessionKey t h) (2 :: h.transcript) r.data then openFull r h t
        else replyPlain r 0x11 0x03 [] (logEvent 0x10 h.role 0 h.cred
          (State.bump { t with dict := { t.dict with half := none } } 0x10E0 6)))) ∧
    (openFull r h t).dict.half = none ∧ (∃ se, (openFull r h t).dict.sess = some se ∧ se.id = h.id ∧ se.role = h.role ∧ se.since = t.dt)) ∧
  (∀ (s : State) (h : HalfSession), s.dict.half = some h →
    exec .halfOpenTimeout s = .next { s with dt := Nat.max s.dt (h.started + 2000000000), dict := { s.dict with half := none } }) ∧
  (∀ (s : State) (se : Session), s.dict.sess = some se →
    exec .sessionIdleTimeout s = .next (closeSession { s with dt := Nat.max s.dt (se.idleFrom + s.cfg 0x10E0 4 * 1000000) })) ∧
  (∀ (s : State) (a : BitVec 32) (b : BitVec 128) (d : Bytes), s.domReady 32 = true → s.cfg 0x2040 1 ≠ 0 →
    let mac := s.entV 0x2040 2
    let mine : Bool := decide (beBytes b.toNat 16 = linkLocal mac ∨ beBytes b.toNat 16 = s.entV 0x2040 5)
    let sends (x : MgeFrame) (o : Bytes) : Prop := exec (.mgeArpIcmp x) s = .next { s with out := .mge o :: s.out }
    (a.toNat ≠ 0 → s.cfg 0x2040 3 = a.toNat → sends (.arp a) (beBytes a.toNat 4 ++ mac) ∧ sends (.echo4 a d) d) ∧
    (mine = true → sends (.neighbour b) (beBytes b.toNat 16 ++ mac) ∧ sends (.echo6 b d) d) ∧
    exec (.mgeArpIcmp .fragment) s = .next (s.bump 0x2040 0x0A) ∧ exec (.mgeArpIcmp .other) s = .next s)

/-- On MS0 and MS1 a SESSION_OPEN leaves the half-open session as it was, and an open session as it was but for its count
of requests, and one that is well formed and names a role of the life-cycle state is answered DENIED. -/
def Obligations.NoSessionOnMs : Prop :=
  (∀ (s t : State) (r : Req), isMs r.tr = true → exec (.sessionOpen r) s = .next t → t.dict.half = s.dict.half ∧
    t.dict.sess.map (fun e => (e.id, e.role, e.tr, e.src)) = s.dict.sess.map (fun e => (e.id, e.role, e.tr, e.src))) ∧
  (∀ (s t : State) (r : Req) (role : Nat), isMs r.tr = true → (∀ free, gate r 0x10 free s = .session t) → sessionCheck t r 0x10 = .go role →
    r.data.length = 133 → byteAt r.data 1 = 0 →
    ((byteAt r.data 0).toNat = 0 ∨ 5 < (byteAt r.data 0).toNat ∨ roleAllowed t (byteAt r.data 0).toNat = true) →
    exec (.sessionOpen r) s = .next (replyIn t r 0x10 0x04 [] t))

/-- A frame that reaches a port which is up, outside DEEP, is counted and then forwarded by the bypass, discarded and
counted by its cause (a frame below 64 bytes without a count: log entry 76), obeyed as a wake frame, or taken as a
Direct message, an ARP packet, or an IPv4 or IPv6 packet; WAKE_FRAME and BYPASS_FORWARD do the same for their own
frame; a link that comes up or goes down starts or loses the port's connection and tells the host. -/
def Obligations.PortFrames : Prop :=
  ∀ (s : State) (p : Fin 32) (f : Frame),
    let c := s.pstat p.val 1
    let et := f.etype.toNat
    let linked := s.setSrc p.val { s.src p.val with link := true, conn := (s.src p.val).conn + 1 }
    let lost := portLost p.val s
    let takes (h : Prop) (t : State) : Prop := portUp s p.val = true → s.power.mode ≠ .deep → h → exec (.frameReceive p f) s = .next t
    let good : Prop := bypassed c p.val f = false ∧ f.badFcs = none ∧ 64 ≤ frameLen f ∧ frameLen f ≤ 9216
    let mine : Prop := good ∧ vlanOk c p.val f = true ∧ et ≠ 0x8808 ∧ wakeScope c p.val f = none
    takes (bypassed c p.val f = true) (bypassOp p.val f c) ∧
    takes (bypassed c p.val f = false ∧ f.badFcs.isSome = true) (c.pstat p.val 3) ∧
    takes (bypassed c p.val f = false ∧ f.badFcs = none ∧ 9216 < frameLen f) (c.pstat p.val 4) ∧
    takes (good ∧ vlanOk c p.val f = false) (c.pstat p.val 0x13) ∧
    takes (good ∧ vlanOk c p.val f = true ∧ et = 0x8808) (c.pstat p.val 5) ∧
    (∀ sc, takes (good ∧ vlanOk c p.val f = true ∧ et ≠ 0x8808 ∧ wakeScope c p.val f = some sc) (wakeFrameOp p.val sc c)) ∧
    takes (mine ∧ pcfg c p.val 5 = 0 ∧ et = pcfg c p.val 8) (directReceive p.val f c) ∧
    takes (mine ∧ pcfg c p.val 5 = 0 ∧ et ≠ pcfg c p.val 8) (c.pstat p.val 0x13) ∧
    takes (bypassed c p.val f = false ∧ f.badFcs = none ∧ frameLen f < 64) c ∧
    takes (mine ∧ pcfg c p.val 5 ≠ 0 ∧ et = 0x0806) (arpReceive p.val f c) ∧
    takes (mine ∧ pcfg c p.val 5 ≠ 0 ∧ et = 0x0800) (ip4Receive p.val f c) ∧
    takes (mine ∧ pcfg c p.val 5 ≠ 0 ∧ et = 0x86DD) (ip6Receive p.val f c) ∧
    takes (mine ∧ pcfg c p.val 5 ≠ 0 ∧ et ≠ 0x0806 ∧ et ≠ 0x0800 ∧ et ≠ 0x86DD) (c.pstat p.val 0x13) ∧
    (∀ (o : Bytes) (u : State), arpReply u p.val f = some o → peerV4 u p.val = false → arpReceive p.val f u = netFrame p.val o u) ∧
    (portUp s p.val = true → bypassed s p.val f = true → exec (.bypassForward p f) s = .next (bypassOp p.val f c)) ∧
    (∀ sc, wakeScope s p.val f = some sc → portHears s p.val = true → vlanOk s p.val f = true →
      exec (.wakeFrame p f) s = .next (wakeFrameOp p.val sc s)) ∧
    ((s.src p.val).link = false → s.power.mode ≠ .deep → s.power.deepFrom = none →
      exec (.portLinkUp p) s = .next (tcpOpen p.val (raiseMsix 6 linked))) ∧
    ((s.src p.val).link = false → s.power.mode = .deep ∨ s.power.deepFrom.isSome = true →
      exec (.portLinkUp p) s = .next (deepWake 0x05 p.val 0 (raiseMsix 6 linked))) ∧
    ((s.src p.val).link = true →
      exec (.portLinkDown p) s = .next (raiseMsix 6 (lost.setSrc p.val { lost.src p.val with link := false })))

/-- A port that is up and sends nothing starts the frame that is next: bypassed, then self-issued, then a lane's. The next
result header of a die answers the message of its identifier, or is counted where none is outstanding. A sweep answers
every outstanding message of its dies: on TCP and host sources, and where the message's link is gone, at once; on a
Direct port through its transmitter, where the frame is built when it is selected. -/
def Obligations.PortAnswers : Prop :=
  (∀ (s : State) (p : Fin 32) (f : TxFrame) (r : Source),
    let g := sweepFrame p.val f (s.setSrc p.val r)
    let v := match f.id with | some i => sentEntry p.val i f.swept g.2 | none => g.2
    let w := match f.deadline with | some d => lateCount f.die d v | none => v
    portUp s p.val = true → (s.src p.val).cur = none → nextFrame s (s.src p.val) = some (f, r) →
    exec (.transmitFrameSelect p) s = .next (txStart p.val g.1 w.dt w) ∧ ((txStart p.val g.1 w.dt w).src p.val).cur = some g.1 ∧
    (f.sweep = none → g = (f, s.setSrc p.val r))) ∧
  (∀ (s : State) (die : Fin 2) (h : ResHdr),
    let a := s.at h.due
    let u := { a with port := { a.port with resLink := dropHdr h a.port.resLink } }
    let done (t : State) : State := finishDrain (match h.job with | some j => jobAnswered j t | none => t)
    let open_ := (u.src h.src).outst.find? (fun o => decide (o.id = h.msgid) && ! o.swept)
    nextHdr die.val s.port.resLink = some h →
    (open_ = none → exec (.resultHeaderArrival die) s = .next (done (u.pstat h.src 0x12))) ∧
    (∀ o, open_ = some o → exec (.resultHeaderArrival die) s = .next (done (frameResult h.src h o u)))) ∧
  (∀ (s : State) (src : Fin 36) (st x : Nat),
    let p := src.val
    let r := s.src p
    let u := s.setSrc p { r with sweepReq := none, sweepDies := 0 }
    let hit (o : Outst) : Bool := ! o.swept && bit r.sweepDies o.die
    r.sweepReq = some (st, x) → r.deferReset = false → r.cur = none →
    exec (.portSweep src) s = .next ((r.outst.filter hit).foldl (fun s o => answerOutst p st o s) u) ∧
    (p < 32 → pcfg u p 5 = 0 → (∀ o ∈ r.outst, o.lost = false) → ∃ t, exec (.portSweep src) s = .next t ∧
      (t.src p).sweepReq = none ∧ (t.src p).byp = r.byp ∧ (t.src p).outst = r.outst.map (fun o => if hit o then { o with swept := true } else o))) ∧
  (∀ (s : State) (p st : Nat) (o : Outst), p ≥ 32 ∨ pcfg s p 5 ≠ 0 ∨ o.lost = true →
    answerOutst p st o s = selfIssue p o.msg st o.cls o.id
      (sentOne p o.adm (s.setSrc p { s.src p with outst := (s.src p).outst.filter (fun x => decide (x ≠ o)) })))

/-- A segment of the configured peer for the configured ports shows the peer's link address; any other is counted and
dropped. It opens a connection in LISTEN with a SYN ACK, completes or ends one that opens, is answered by a reset
where no connection exists, and otherwise goes to the connection, which an exact RST ends and a SYN in TIME-WAIT
replaces. A retransmission timeout sends the first segment again and doubles its time, up to the configured count, and
then ends the connection; keepalive and zero-window probes are sent and armed again; TIME-WAIT ends and the reconnect
timer opens a connection. -/
def Obligations.TcpEngine : Prop :=
  (∀ (s : State) (p : Fin 32) (g : TcpSeg), portUp s p.val = true → pcfg s p.val 5 ≠ 0 →
    g.src.toNat ≠ beNat (pbytes s p.val 0x0F) ∨ pbytes s p.val 0x0F = [] → exec (.tcpSegmentReceive p g) s = .next (s.pstat p.val 0x13)) ∧
  (∀ (s : State) (p : Fin 32) (g : TcpSeg), tcpMay s p.val = true → g.src.toNat = beNat (pbytes s p.val 0x0F) → pbytes s p.val 0x0F ≠ [] →
    let q := p.val
    let t := (s.src q).tcp
    let fl := g.flags.toNat
    let u := learnNbr q (beBytes g.mac.toNat 6) (g.tci.map BitVec.toNat) s
    let len := g.data.length + (if bit fl 1 then 1 else 0) + (if bit fl 0 then 1 else 0)
    let d := drawSeq u
    (g.dport.toNat ≠ pcfg s q 0x11 ∨ (pcfg s q 0x12 ≠ 0 ∧ g.sport.toNat ≠ pcfg s q 0x12) →
      exec (.tcpSegmentReceive p g) s = .next (s.pstat q 0x13)) ∧
    (g.dport.toNat = pcfg s q 0x11 → (g.sport.toNat = pcfg s q 0x12 ∧ pcfg s q 0x12 ≠ 0) ∨ (pcfg s q 0x12 = 0 ∧ t.st ≤ 1) ∨
        (pcfg s q 0x12 = 0 ∧ g.sport.toNat = t.peerPort) ∨ (pcfg s q 0x12 = 0 ∧ t.st = 10 ∧ bit fl 1 = true) →
      (t.st = 0 → bit fl 2 = false → bit fl 4 = false → exec (.tcpSegmentReceive p g) s =
        .next ((tcpSend q g.sport.toNat 0 (seqAdd g.seq.toNat len) 20 0 [] [] (u.src q).nbrTci u).pstat q 0x17)) ∧
      (t.st ≤ 1 → bit fl 2 = false → bit fl 4 = true → exec (.tcpSegmentReceive p g) s =
        .next ((tcpSend q g.sport.toNat g.ack.toNat 0 4 0 [] [] (u.src q).nbrTci u).pstat q 0x17)) ∧
      (t.st = 1 → bit fl 2 = false → bit fl 4 = false → bit fl 1 = true → exec (.tcpSegmentReceive p g) s =
        .next (tcpSeg q d.1 18 [] (d.2.setTcp q (tcpOptions u q g
          { conn := (u.src q).conn, st := 3, iss := d.1, una := d.1, nxt := seqAdd d.1 1, rcv := seqAdd g.seq.toNat 1,
            peerPort := g.sport.toNat, rtoDue := some (u.dt + sec 1) })))) ∧
      (t.st = 2 → bit fl 2 = true → bit fl 4 = true → g.ack.toNat = t.nxt →
        exec (.tcpSegmentReceive p g) s = .next (tcpClose q (u.pstat q 0x18))) ∧
      (t.st = 2 → bit fl 2 = false → bit fl 4 = true → g.ack.toNat = t.nxt → bit fl 1 = true →
        exec (.tcpSegmentReceive p g) s = .next (
          let n := tcpOptions u q g { t with rcv := seqAdd g.seq.toNat 1 }
          tcpAck q (tcpEstablish q { n with una := n.nxt } u))) ∧
      (t.st = 3 → bit fl 2 = false → bit fl 1 = false → bit fl 4 = true → g.ack.toNat = t.nxt → exec (.tcpSegmentReceive p g) s =
        .next (tcpSynced q g (tcpEstablish q { t with una := t.nxt, wnd := g.wnd.toNat * 2 ^ t.shift } u))) ∧
      (4 ≤ t.st → exec (.tcpSegmentReceive p g) s = .next (tcpSynced q g u)) ∧
      (4 ≤ t.st → bit fl 2 = true → g.seq.toNat = t.rcv → exec (.tcpSegmentReceive p g) s = .next (tcpClose q (u.pstat q 0x18))) ∧
      (t.st = 10 → bit fl 2 = false → bit fl 1 = true → exec (.tcpSegmentReceive p g) s = .next (tcpAccept q g (tcpForget q u))))) ∧
  (∀ (s : State) (p : Fin 32) (due : Nat), (s.src p.val).tcp.rtoDue = some due →
    let q := p.val
    let a := s.at due
    let k := (s.src q).tcp
    let n := { k with retx := k.retx + 1, timed := none }
    let m := { n with rtoDue := some (a.dt + rtoNs a q n) }
    (pcfg s q 0x15 < k.retx + 1 → k.st = 2 → exec (.tcpRetransmitTimeout p) s = .next (tcpClose q a)) ∧
    (pcfg s q 0x15 < k.retx + 1 → k.st ≠ 2 → exec (.tcpRetransmitTimeout p) s = .next (tcpReset q (a.pstat q 0x19))) ∧
    (k.retx + 1 ≤ pcfg s q 0x15 → k.st < 4 → exec (.tcpRetransmitTimeout p) s =
      .next ((tcpSeg q k.iss (if k.st = 2 then 2 else 18) [] (a.setTcp q m)).pstat q 0x15)) ∧
    (k.retx + 1 ≤ pcfg s q 0x15 → 4 ≤ k.st → exec (.tcpRetransmitTimeout p) s =
      .next (tcpFirst q (a.setTcp q { m with
        dup := 0, sacked := [], recover := some k.nxt, rxt := k.una, rescued := false, timedOut := true,
        ssthresh := if k.retx = 0 then Nat.max (inFlight k / 2) (2 * k.mss) else k.ssthresh, cwnd := k.mss })))) ∧
  (∀ (s : State) (p : Fin 32) (due : Nat), (s.src p.val).tcp.kaDue = some due → (s.src p.val).tcp.st = 4 →
    let q := p.val
    let a := s.at due
    let k := (s.src q).tcp
    (pcfg s q 0x18 ≤ k.probes → exec (.tcpKeepaliveTimer p) s = .next (tcpReset q (a.pstat q 0x19))) ∧
    (k.probes < pcfg s q 0x18 → exec (.tcpKeepaliveTimer p) s = .next (tcpSeg q (seqSub k.una 1) 16 []
      (a.setTcp q { k with probes := k.probes + 1, kaDue := some (a.dt + ms (pcfg s q 0x17)) })))) ∧
  (∀ (s : State) (p : Fin 32) (due : Nat), (s.src p.val).tcp.zwDue = some due →
    let q := p.val
    let a := s.at due
    let k := (s.src q).tcp
    exec (.tcpZeroWindowProbe p) s = .next (tcpSeg q k.una 24 (k.sendQ.take 1) (a.setTcp q { k with
      zwN := k.zwN + 1, zwDue := some (a.dt + Nat.min (sec 60) (rtoNs a q k * 2 ^ (k.zwN + 1))),
      nxt := if inFlight k = 0 then seqAdd k.una 1 else k.nxt }))) ∧
  (∀ (s : State) (p : Fin 32) (due : Nat), (s.src p.val).tcp.twDue = some due → exec (.tcpTimeWaitExpiry p) s = .next (tcpClose p.val (s.at due))) ∧
  (∀ (s : State) (p : Fin 32) (due : Nat), (s.src p.val).tcp.reDue = some due → exec (.tcpReconnectTimer p) s = .next (tcpOpen p.val (s.at due)))

/-- A tail write moves the tail and, with the queue enabled and the link up, fetches the entries up to it, a request
buffer that arrives becomes a message, or is answered FORMAT or POLICY, a queue of valid sizes is enabled empty,
fetches what has been posted, the audit queue with its headers in block order ahead of its records, and one of invalid
sizes is refused with CFG_ERR, a disabled queue stops, and a head write moves the head. The link follows its training,
fetching what has been posted, and the pins. A granted installation measures the image and makes it the classifier's,
or fails with code 1. -/
def Obligations.HostPort : Prop :=
  (∀ (s : State) (q : Fin 4) (tail : BitVec 14) (es : List SqFetch) (body : Bytes) (e : SqEnt) (rest : List SqEnt),
    let u := s.setHq q.val { s.hq q.val with sqTail := tail.toNat }
    let a := s.setHq q.val { s.hq q.val with fetched := rest }
    let d := dma 0x78 0 (hostAddr e.req) e.len a
    let m (t : State) : Msg := { src := 32 + q.val, body := fit body e.len, tstamp := t.dt, rel := dtTicks t.dt, hdrId := some e.msgid, dl := e.dl,
                                 rbuf := e.rsp, rsize := e.size }
    let blk := (d.2.2.src (32 + q.val)).block
    let faulty := (d.2.2.setHq q.val { d.2.2.hq q.val with fetchFault := true }).noteSet (hqKey q.val) 4
    (s.domReady 30 = true → s.port.link ≠ 0 → (s.hq q.val).en = true →
      exec (.hostSqTailWrite q tail es) s = .next (sqFetchF q.val (2 ^ 14) es u)) ∧
    (s.domReady 30 = true → s.port.link = 0 ∨ (s.hq q.val).en = false → exec (.hostSqTailWrite q tail es) s = .next u) ∧
    ((s.hq q.val).fetched = e :: rest → 1 ≤ e.len → e.len ≤ 8192 →
      (d.2.1 = 0 → exec (.hostRequestArrival q body) s = .next (releaseMsg (32 + q.val) (m d.2.2) (if blk = 0 then none else some blk) d.2.2)) ∧
      (d.2.1 ≠ 0 → exec (.hostRequestArrival q body) s = .next (releaseMsg (32 + q.val) (m faulty) (some tPOLICY) faulty))) ∧
    ((s.hq q.val).fetched = e :: rest → e.len = 0 ∨ 8192 < e.len →
      exec (.hostRequestArrival q body) s = .next (releaseMsg (32 + q.val) (m a) (some tFORMAT) a))) ∧
  (∀ (s : State) (q : Fin 5) (head : BitVec 14),
    let h := s.hq q.val
    let sz (n : Nat) : Prop := 6 ≤ n ∧ n ≤ 14
    let u := s.setHq q.val { h with en := true, sqHead := 0, cqTail := 0, wrapped := false, fetched := [] }
    let fins (a : AudUnit) : AudUnit := { a with
      items := (a.items.filter (fun i => decide (i.kind ≠ 0))).foldl (fun l i => insHeader i l) [] ++ a.items.filter (fun i => decide (i.kind = 0)) }
    (s.domReady 30 = true → h.en = false → q.val < 4 → sz h.cqLog → sz h.sqLog → h.sqLog ≤ h.cqLog →
      exec (.hpqQueueEnable q) s = .next (if s.port.link = 0 then u else sqFetchF q.val (2 ^ 14) [] u)) ∧
    (s.domReady 30 = true → h.en = false → q.val = 4 → sz h.cqLog → exec (.hpqQueueEnable q) s =
      .next (let v := u.setAud 0 (fins (u.aud 0)); v.setAud 1 (fins (v.aud 1)))) ∧
    (s.domReady 30 = true → h.en = false → ¬ sz h.cqLog ∨ (q.val < 4 ∧ (¬ sz h.sqLog ∨ h.cqLog < h.sqLog)) →
      exec (.hpqQueueEnable q) s = .next ((s.setHq q.val { h with cfgErr := true }).noteSet (hqKey q.val) 1)) ∧
    (s.domReady 30 = true → exec (.hpqQueueDisable q) s = .next (s.setHq q.val { h with en := false })) ∧
    (s.domReady 30 = true → exec (.cqHeadWrite q head) s = .next (s.setHq q.val { h with cqHead := head.toNat }))) ∧
  (∀ (s : State) (width rate : Nat),
    exec (.pePerst true) s = .next (setPerst true s) ∧
    (exec (.pePerst false) s = .next { setPerst false s with port := { (setPerst false s).port with link := 0, rate := 0 } }) ∧
    (s.domReady 30 = true → s.pins.perst = true → [1, 2, 4, 8, 12, 16].contains width = true → 1 ≤ rate → rate ≤ 5 →
      exec (.hostLinkRetrain width rate) s = .next ([0, 1, 2, 3].foldl (fun s q => sqPump q [] s) { s with port := { s.port with link := width, rate := rate } })) ∧
    (s.domReady 30 = true → s.pins.perst = true → exec (.hostLinkRetrain 0 rate) s = .next { s with port := { s.port with link := 0, rate := 0 } })) ∧
  (∀ (s t : State) (r : Req) (role : Nat) (c : Fin 16) (k : Nat),
    let r1 := reqWith r [1]
    let u := begun t (0x2101 + c.val) 2 role .install k
    let b := u.entW (0x2101 + c.val) 1
    let done (w : State) : Prop := Granted s r1 (0x2101 + c.val) 2 t role [1] → CanBegin t (0x2101 + c.val) 2 k →
      Answers (.classifierInstall r c) s r1 (0x2101 + c.val) 2 t (handle t k) w
    done (if clsImageOk u b then doneSlot k [] (mrMeasure 4 7 (c.val + 1) (sha384 b)
      { u with port := { u.port with clsImg := Tab.put [] u.port.clsImg (c.val + 1) b } }) else failSlot k 1 u))

/-- The descriptor that reaches a dispatcher first is judged eight ticks later: EPOCH where the dispatcher holds no such
epoch, MODE where the mode admits nothing or its class is not served, NOT_ADMITTED with the count of its cause where
the deadline, the response size, the source's limit or the work that is due does not allow it, SERVICE_IN_TEST where
only units under test would; otherwise the chosen candidate is committed. What reached a die in reset is answered
ABORTED by its port. The collector accepts results of up to eight lanes, one tick after the first is due, and once in
a tick. -/
def Obligations.AdmissionTest : Prop :=
  (∀ (s : State) (die : Fin 2) (a : Arrival) (e : EpochCfg),
    let d := die.val
    let x := a.desc
    let ta := a.due + 8
    let v := (s.at ta).setDisp d { (s.at ta).disp d with arrivals := dropArrival a ((s.at ta).disp d).arrivals }
    let u := { v with unit := { v.unit with nextJob := v.unit.nextJob + 1 } }
    let no (st count : Nat) : State := dispAnswer d ta x st count false u
    let cv := costOf (Tab.look [] e.progs (clsVal u e x.cls 2))
    let dln := x.deadline - tailOf u e x.src
    let test (h : Prop) (t : State) : Prop :=
      nextArrival (s.disp d) = some a → (v.disp d).inReset = false → a.lost = false → h → exec (.admissionTest die) s = .next t
    let held : Prop := x.epoch ≠ 0 ∧ (x.epoch = (u.disp d).cur ∨ x.epoch = (u.disp d).prev) ∧ epochCfg u x.epoch = some e
    let served : Prop := held ∧ classifies u = true ∧ classServed u e x.cls = true
    let fits : Prop := served ∧ ta < x.deadline ∧ cv.rmax ≤ EpochCfg.val u e (srcIdx x.src) 3 ∧
      unsent u x.src + 1 ≤ EpochCfg.val u e (srcIdx x.src) 1
    test (x.epoch = 0 ∨ (x.epoch ≠ (u.disp d).cur ∧ x.epoch ≠ (u.disp d).prev)) (no tEPOCH 7) ∧
    test (held ∧ (classifies u = false ∨ classServed u e x.cls = false)) (no tMODE 7) ∧
    test (served ∧ x.deadline ≤ ta) (no tNOT_ADMITTED 3) ∧
    test (served ∧ ta < x.deadline ∧ EpochCfg.val u e (srcIdx x.src) 3 < cv.rmax) (no tNOT_ADMITTED 4) ∧
    test (served ∧ ta < x.deadline ∧ cv.rmax ≤ EpochCfg.val u e (srcIdx x.src) 3 ∧ EpochCfg.val u e (srcIdx x.src) 1 < unsent u x.src + 1)
      (no tNOT_ADMITTED 5) ∧
    test (fits ∧ x.deadline < tailOf u e x.src) (no tNOT_ADMITTED 2) ∧
    test (fits ∧ tailOf u e x.src ≤ x.deadline)
      (match choose (EpochCfg.val u e 0x3000 1) (place u x a.keyIn e cv dln ta false) with
       | some c => commitCand v.unit.nextJob x a.body e cv ta c u
       | none => if (place u x a.keyIn e cv dln ta true).isEmpty then no tNOT_ADMITTED 2 else no tSERVICE_IN_TEST 6) ∧
    (∀ st n, (no st n).port.resLink = u.port.resLink ++ [⟨ta + 12, d, x.src, st, x.cls, x.msgid, [], x.deadline, 2, 0xFF, 0xFF, x.tstamp, x.epoch, none⟩]) ∧
    (∀ o, nextArrival (s.disp d) = some a → (v.disp d).inReset = true ∨ a.lost = true →
      (v.src x.src).outst.find? (fun o => decide (o.id = x.msgid) && ! o.swept) = some o →
      exec (.admissionTest die) s = .next (answerOutst x.src tABORTED o v))) ∧
  (∀ (s : State) (die : Fin 2) (x : Nat) (rest : List Nat),
    let d := die.val
    let u := s.at (Nat.max (rest.foldl Nat.min x + 1) ((s.aud d).served + 1))
    let v := u.setAud d { u.aud d with served := u.dt }
    let es := eligible v d u.dt
    let w := if (u.aud d).pendMax < es.length then (v.setAud d { v.aud d with pendMax := es.length }).noteSet (regKey d 0x0F010000) (2 ^ 13) else v
    (dieLanes d).filterMap (fun l => (s.lane l).posts.head?.map (fun h => h.due)) = x :: rest →
    exec (.collectorAccept die) s = .next ((es.take 8).foldl (fun s l => acceptOne d u.dt l s) w)) ∧
  (∀ (s : State) (d at_ l : Nat) (h : ResHdr) (rest : List ResHdr), (s.lane l).posts = h :: rest →
    ((acceptOne d at_ l s).lane l).posts = rest ∧
    (acceptOne d at_ l s).port.resLink.getLast? = some { h with due := at_ + 16 })

/-- While the audit unit runs, a block closes at the next boundary, takes the records up to it and is signed; one more
chunk of at most 48 bytes is written where the queue has room, and at once where 48 are there or else once the oldest
has waited; a system reset and an erase close the chain once every sweep is done. -/
def Obligations.AuditStream : Prop :=
  (∀ (s : State) (die : Fin 2),
    let d := die.val
    let a := s.aud d
    let b := nextBoundary s d
    let c := closeBlock d (b - 1024) b 0 (s.at b)
    (a.run = true → a.interval ≠ 0 → a.sysHold = false → a.erased = false → audDomains s d = true →
      exec (.auditBlockClose die) s = .next (match (c.aud d).pendBlocks.reverse with | k :: _ => signBlock d k b c | [] => c)) ∧
    (∀ i rest, a.items = i :: rest → 48 ≤ (chunkF (a.items.length + 1) [] i.off false a.items).1.length →
      exec (.auditChunkWrite die) s = .next (writeChunk d s).2) ∧
    (∀ i rest, a.items = i :: rest → (chunkF (a.items.length + 1) [] i.off false a.items).1.length < 48 →
      exec (.auditChunkWrite die) s = .next (writeChunk d (s.at (i.at_ + s.cfg 0x3800 3))).2) ∧
    (a.sysHold = true → sweepsDone s = true →
      let e := if a.run = false then s else if a.erased = true then closeChain d 4 2 s else closeChain d 8 3 s
      let u := drainChunks d 40000 (e.setAud d { e.aud d with items := (e.aud d).items.filter (fun i => decide (i.kind ≠ 0)) })
      let w := u.setAud d {}
      let x := { w with port := { w.port with foreign := Tab.put [] w.port.foreign d [] } }
      exec (.auditSysresetClose die) s = .next (if (x.aud (1 - d)).sysHold then x else x.setHq 4 {})) ∧
    (a.erased = true → a.run = true → sweepsDone s = true →
      exec (.auditEraseClose die) s =
        .next ((closeChain d 4 2 s).setAud d { (closeChain d 4 2 s).aud d with run := false }))) ∧
  (∀ (s : State) (d fin due flags : Nat),
    let a := s.aud d
    let t := closeBlock d fin due flags s
    (t.aud d).bseq = a.bseq + 1 ∧ (t.aud d).start = fin ∧ (t.aud d).recs = a.recs.filter (fun r => decide (fin ≤ r.1)) ∧
    (t.aud d).nrec = a.nrec)

/-- A granted change request begins a long operation that waits in QUEUED and holds the pending configuration as the next
epoch; loading starts once no work of the previous epoch is left; at its time-out a change that still loads fails and
its banks are discarded; an acknowledged change flips at its instant. FRAME_SLOT_FREE gives the slot of an answered
job back, once the result link has read its body. -/
def Obligations.EpochChange : Prop :=
  (∀ (s t : State) (r : Req) (role k : Nat),
    let r1 := reqWith r [1]
    let b := begun t 0x3000 6 role .none k
    let u := startFlip (match b.power.drainTo with | some m => m.code | none => (baseMode b).code) (some k) b
    (Granted s r1 0x3000 6 t role [1] → changePending t = false → CanBegin t 0x3000 6 k →
      Answers (.epochChangeRequest r) s r1 0x3000 6 t (handle t k) u) ∧
    u.unit.epoch.st = .queued ∧ u.unit.epoch.slot = some k ∧ u.unit.epoch.shadow.map (fun e => e.ents) = some (pendingEnts (b.setSlot k { b.slot k with state := .queued }))) ∧
  (∀ (s : State),
    let e := s.unit.epoch
    ((dropPrev s).unit.epoch.st = .queued → prevWork (dropPrev s) = false → exec .epochLoadStart s = .next (startLoad (dropPrev s))) ∧
    (e.st = .loading → exec .epochAckTimeout s = .next (failChange (s.at (e.loadAt + us (s.cfg 0x3000 5))))) ∧
    (e.st = .acked → exec .epochFlip s = .next (flip (s.at e.tf)))) ∧
  (∀ (s : State) (lane : Fin 64) (slot : Fin 32) (jn : Nat) (j : Job),
    s.unit.jobs.find? (fun e => decide (e.2.lane = lane.val ∧ e.2.slot = slot.val ∧ 5 ≤ e.2.stage) && ! e.2.slotFreed) = some (jn, j) →
    (s.lane lane.val).posts.any (fun h => decide (h.job = some jn)) = false →
    exec (.frameSlotFree lane slot) s = .next (freeSlotOf jn (match s.port.resLink.find? (fun h => decide (h.job = some jn)) with
      | some h => s.at (h.due - 12 + ceilDiv h.body.length 512)
      | none => s)))

/-- Writing a timer's configuration arms it at the next whole microsecond plus its count; at its instant a timer pends its
event, overflows where it is pending already, and arms again where it is periodic; TEVT_CLEAR clears the bits it
names. A post fills a mailbox and an acknowledgement empties it. What is set in a nanosecond is not cleared in it. A
bank loads where it is free and its lane serves, is acknowledged with the images of the next epoch, or refused with
code 6 where the copy did not match, is discarded back to FREE. A body that has moved is in the frame; a removed node
leaves every cache. A fence request, by the lane's register or the dictionary, fences a lane and an unfence serves it
again; an uncorrectable error fences the lane, or its quad where the memory is shared. -/
def Obligations.LaneControls : Prop :=
  ∀ (s t : State) (r : Req) (role : Nat) (lane : Fin 64) (k : Fin 4) (b : Fin 2) (v : Word) (slot : Fin 32),
    let l := lane.val
    let x := s.lane l
    let tm := x.timer k.val
    let q := 11 + laneQuad l
    let w := v.toNat
    let y := { x with loadsel := decide (b.val = 1) }
    let a := s.at tm.due
    let fired := { x with ovf := if bit x.pend k.val then x.ovf ||| 2 ^ k.val else x.ovf, pend := x.pend ||| 2 ^ k.val }
    let set_ := 2 ^ k.val + (if bit x.pend k.val then (if bit x.ovf k.val then 0 else 2 ^ (16 + k.val)) else 2 ^ (4 + k.val))
    let f := s.freshBits (tevtKey l)
    let ones := w / 2 ^ 16 % 16
    let clr := (ones - (ones &&& f / 2 ^ 16 % 16)) ||| (f / 2 ^ 16 % 16 &&& w % 16)
    let mbx := s.freshBits (mbxKey l)
    let full (c : Lane) : State := s.setLane l c
    let req (n : Nat) : Req := reqWith r [BitVec.ofNat 8 n]
    exec (.laneTimerConfig lane k v) s = .next (full (x.setTimer k.val { tm with
      en := bit w 31 && decide (w % 2 ^ 24 ≠ 0)
      periodic := bit w 30
      reload := w % 2 ^ 24
      due := if bit w 31 && decide (w % 2 ^ 24 ≠ 0) then s.dt / 1000 * 1000 + us (w % 2 ^ 24) else tm.due })) ∧
    (tm.en = true → exec (.laneTimerExpiry lane k) s = .next ((a.noteSet (tevtKey l) set_).setLane l (fired.setTimer k.val { tm with
      epoch := (epochAt a a.dt).num
      en := tm.periodic
      due := if tm.periodic then tm.due + us tm.reload else tm.due }))) ∧
    exec (.tevtClear lane v) s = .next (full { x with
      pend := x.pend - (x.pend &&& (w % 16 - (w % 16 &&& f)))
      carried := x.carried - (x.carried &&& w % 16)
      ovf := x.ovf - (x.ovf &&& clr) }) ∧
    exec (.mbxiPost lane) s = .next ((full { x with inFull := true }).noteSet (mbxKey l) 1) ∧
    exec (.mbxiAck lane) s = .next (if bit mbx 0 then s else full { x with inFull := false }) ∧
    exec (.mbxoPost lane) s = .next ((full { x with outFull := true }).noteSet (mbxKey l) 2) ∧
    exec (.mbxoAck lane) s = .next (if bit mbx 1 then s else full { x with outFull := false }) ∧
    (x.cause = 0 → loadPhase s = true → x.bank b.val = 0 → exec (.bankLoad lane b) s = .next (rearmIdle q (full (y.setBank b.val 1)))) ∧
    (∀ n, s.unit.epoch.shadow = some n → x.cause = 0 → x.bank b.val = 1 → Tab.look 0 n.banks l = b.val → bankFit (bankSet s n l) = 0 →
      s.domReady q = true →
      exec (.bankAck lane ⟨b, true⟩) s = .next (rearmIdle q (laneAck l ((full ((y.loadBank b.val (bankSet s n l)).ackBank b.val s.dt)).bump 0x41F0 2))) ∧
      exec (.bankAck lane ⟨b, false⟩) s = .next ((full y).setEpoch { s.unit.epoch with loadRes := Tab.put 0 s.unit.epoch.loadRes l 6 })) ∧
    (x.cause = 0 → x.bank b.val = 1 ∨ x.bank b.val = 2 → exec (.bankDiscard lane b) s = .next (rearmIdle q (full (y.setBank b.val 0)))) ∧
    (∀ jn j, s.unit.jobs.find? (fun e => decide (e.2.lane = l ∧ e.2.slot = slot.val ∧ e.2.stage ≤ 4) && ! e.2.bodyIn &&
        ! e.2.slotFreed) = some (jn, j) → s.domReady q = true →
      let u := s.at (s.job jn).bodyDue
      let n := ceilDiv (u.job jn).body.length 64
      exec (.bodyMoveDone lane slot) s = .next (u.setJob jn { u.job jn with
        frame := Memory.writeN (u.job jn).frame 0 (fit (u.job jn).body (64 * n))
        valid := setGranules (u.job jn).valid 0 n
        bodyIn := true })) ∧
    (∀ node more, s.key.removals = node :: more → exec .cacheRemoval s =
      .next ((List.range 16).foldl (fun s q => removeNode q node s) { s with key := { s.key with removals := more } })) ∧
    exec (.laneFenceRequest none lane) s = .next (fenceLane l 4 s) ∧
    exec (.laneUnfence none lane) s = .next (unfenceLane l s) ∧
    (Granted s (req 1) (0x4000 + l) 0x0A t role [1] →
      Answers (.laneFenceRequest (some r) lane) s (req 1) (0x4000 + l) 0x0A t [] (fenceLane l 4 t)) ∧
    (Granted s (req 2) (0x4000 + l) 0x0A t role [2] → (t.lane l).cause = 4 →
      Answers (.laneUnfence (some r) lane) s (req 2) (0x4000 + l) 0x0A t [] (unfenceLane l t)) ∧
    exec (.memoryUncorrectable lane false) s = .next (fenceLane l 3 s) ∧
    exec (.memoryUncorrectable lane true) s = .next (fenceQuad (laneQuad l) 3 s) ∧
    (x.cause = 0 → ((markLane 4 l s).lane l).cause = 4 ∧ ((markLane 4 l s).lane l).fenceDt = s.dt ∧ ((markLane 4 l s).lane l).claimed = false)

/-- A fence of a cause takes a lane that serves out of service once, a quad's takes all of its lanes, one of a spare ends
its use, and an engine's takes that engine or its die; a lane fenced already stays as it is. A spare takes its lane's
place after its last step in time, and fails otherwise or at its time-out. A quad whose domain has not come up when
its work must start is marked late and its lanes' work is cleared. -/
def Obligations.UnitFences : Prop :=
  ∀ (s : State) (lane : Fin 64) (e : Fin 24) (k : Fin 4) (q : Fin 16) (w : Nat) (ws : List Nat) (c : Fin 7),
    let l := lane.val
    let v := s.spare k.val
    let late := s.at (ws.foldl Nat.min w)
    let u := late.setQuad q.val { late.quad q.val with late := true }
    (c.val ≠ 0 → c.val ≠ 5 → c.val ≠ 6 → exec (.laneFence lane c) s = .next (fenceLane l c.val s)) ∧
    (c.val = 5 → exec (.laneFence lane c) s = .next (fenceQuad (laneQuad l) 5 s)) ∧
    (c.val = 6 → (s.spare (laneTile l)).st = 3 → (s.spare (laneTile l)).lane = l →
      exec (.laneFence lane c) s = .next (failSpareUnit (laneTile l) s)) ∧
    ((s.lane l).cause ≠ 0 → fenceLane l c.val s = s) ∧
    ((s.lane l).cause = 0 → fenceLane l c.val s = finishDrain (settleDegraded (clearLanes [l] (spareFor l c.val (markLane c.val l s))))) ∧
    (c.val ≠ 0 → c.val ≠ 5 → exec (.pkEngineFence e c) s = .next (fencePkUnit e.val c.val s)) ∧
    (c.val = 5 → exec (.pkEngineFence e c) s = .next (fencePkDie (e.val / 12) 5 s)) ∧
    ((s.eng e.val).cause ≠ 0 → fencePkUnit e.val c.val s = s) ∧
    (v.st = 2 → v.step = 4 → s.dt ≤ v.since + substBound 4 → exec (.spareTileSwitch k) s = .next (spareJoin k.val s)) ∧
    (v.st = 2 → v.step = 4 → v.since + substBound 4 < s.dt → exec (.spareTileSwitch k) s = .next (failSpareUnit k.val s)) ∧
    (v.st ≠ 4 → exec (.spareFail k) s = .next (failSpareUnit k.val s)) ∧
    (v.st = 2 → exec (.spareSubstitutionTimeout k) s = .next (failSpareUnit k.val (s.at (v.since + substBound v.step)))) ∧
    ((quadJobs s q.val).filterMap (fun j => j.wakeBy) = w :: ws → s.domReady (11 + q.val) = false →
      exec (.quadWakeChargeExpiry q) s =
        .next (finishDrain (clearLanes ((quadLanes q.val).filter (fun l => decide ((u.lane l).cause = 0))) u)))

/-- The schedule claims the unit that is next; a claim takes a unit that may be claimed out of the placement; its slice
starts once the unit has no work; at the slice's end the result is counted, with a lane's corrected errors, and a unit
that passed serves again while one that failed is fenced; a cluster's claim that never became idle is withdrawn. -/
def Obligations.SelfTests : Prop :=
  ∀ (s : State) (lane : Fin 64) (e : Fin 24) (k : Fin 4) (q : Fin 16) (u : Fin 5) (pass : Bool) (cor : Nat),
    let l := lane.val
    let x := s.lane l
    let v := s.spare k.val
    let g := s.quad q.val
    let n := s.eng e.val
    let ended (un : TestUnit) (t : Nat) : State := sliceCount pass (s.at (t + sliceNs un))
    (∀ m, testsOn s = true → nextUnit s = some m → exec .selftestSchedule s = .next (claimUnit (unitOfNum m)
      { s with rst := { s.rst with
          again := (s.rst.again.filter (fun a => decide (a.1 ≠ m))).map (fun a => (a.1, a.2 - 1))
          rotation := if s.rst.again.any (fun a => decide (a.1 = m ∧ a.2 = 0)) then s.rst.rotation else (m + 1) % unitCount } })) ∧
    (testsOn s = true → claimable s (.lane lane) = true → exec (.selftestClaim (.lane lane)) s = .next (claimUnit (.lane lane) s)) ∧
    (testsOn s = true → claimable s (.cluster q u) = true → exec (.selftestClaim (.cluster q u)) s = .next (claimUnit (.cluster q u) s)) ∧
    (testsOn s = true → claimable s (.engine e) = true → exec (.selftestClaim (.engine e)) s = .next (claimUnit (.engine e) s)) ∧
    (testsOn s = true → claimable s (.spare k) = true → exec (.selftestSliceStart (.spare k)) s = .next (claimUnit (.spare k) s)) ∧
    (x.claimed = true → x.slice = none → x.queue = [] →
      exec (.selftestSliceStart (.lane lane)) s = .next (s.setLane l { x with slice := some s.dt })) ∧
    (g.claim = some u.val → g.slice = none → quadQueuesEmpty s q.val = true →
      exec (.selftestSliceStart (.cluster q u)) s = .next (s.setQuad q.val { g with slice := some s.dt })) ∧
    (n.claim = 1 → n.slice = none → n.jobs = [] → auditGap s e.val = true →
      exec (.selftestSliceStart (.engine e)) s = .next (s.setEng e.val { n with slice := some s.dt })) ∧
    (∀ t, x.slice = some t →
      let c := countCorrected l cor (ended (.lane lane) t)
      let d := noteTested (.lane lane) (c.setLane l { c.lane l with claimed := false, slice := none })
      exec (.selftestSliceEnd (.lane lane) ⟨pass, cor⟩) s = .next (if pass then rearmIdle (11 + laneQuad l) d
        else if (d.lane l).spared then failSpareUnit (laneTile l) d else fenceLane l 1 d)) ∧
    (∀ t, g.slice = some t → g.claim = some u.val →
      let c := ended (.cluster q u) t
      let d := noteTested (.cluster q u) (c.setQuad q.val { c.quad q.val with
        claim := none
        slice := none
        units := Tab.put 0 (c.quad q.val).units u.val 0 })
      exec (.selftestSliceEnd (.cluster q u) ⟨pass, cor⟩) s = .next (if pass then rearmIdle (11 + q.val) d else failCluster q.val (2 ^ u.val) d)) ∧
    (∀ t, n.slice = some t →
      let c := ended (.engine e) t
      let d := noteTested (.engine e) (c.setEng e.val { c.eng e.val with claim := 0, slice := none })
      exec (.selftestSliceEnd (.engine e) ⟨pass, cor⟩) s =
        .next (if pass then bgTry (e.val / 12) (rearmIdle (9 + e.val / 12) (pkKick e.val d.dt d)) else fencePkUnit e.val 1 d)) ∧
    (v.st = 1 → v.next = none →
      let c := noteTested (.spare k) (ended (.spare k) v.since)
      exec (.selftestSliceEnd (.spare k) ⟨pass, cor⟩) s =
        .next (if pass then c.setSpare k.val { v with st := 0, since := c.dt, next := none } else failSpareUnit k.val c)) ∧
    (v.st = 2 → v.step = 3 →
      let c := ended (.spare k) v.since
      exec (.selftestSliceEnd (.spare k) ⟨pass, cor⟩) s =
        .next (if pass then c.setSpare k.val { v with step := 4, since := c.dt } else failSpareUnit k.val c)) ∧
    (∀ un, g.claim = some un → g.slice = none → quadQueuesEmpty s q.val = false →
      let a := s.at (g.claimAt + ms 1)
      let c := a.setQuad q.val { g with claim := none, units := Tab.put 0 g.units un 0 }
      exec (.selftestClaimWithdraw q) s = .next (rearmIdle (11 + q.val)
        (State.bump { c with rst := { c.rst with again := c.rst.again ++ [(68 + 5 * q.val + un, 1)] } } 0x8802 8)))

/-- A granted write of 0x01 to 5010:02, in a mode that allows the staged command and by a role with its right, runs the
staged block as a long operation. A command whose checks pass ends DONE with its result: CREATE, LOAD, GENERATE,
IMPORT and LOADPUB with the node they made, DELETE with the node gone and its removal ordered, SAVE, EXPORT, ATTEST
and READ with their bytes. A CREATE, DELETE, LOAD or IMPORT whose checks fail ends FAILED with its code. -/
def Obligations.KeyCommands : Prop :=
  ∀ (s t : State) (r : Req) (role k : Nat),
    let r1 := reqWith r [1]
    let b := stagedBlock t
    let id := kbNode b
    let v := begun t 0x5010 2 role (.keyCmd b) k
    let op := (byteAt b 0).toNat
    let u := { v with key := { v.key with op := op } }
    let cmd (n : Nat) (x : Instr) (e : State) : Prop :=
      (byteAt (stagedBlock s) 0).toNat = n → stagedBlock s ≠ [] → b = stagedBlock s → Granted s r1 0x5010 2 t role [1] → CanBegin t 0x5010 2 k →
      keyMode t role = true → hasRight t role (if readsOnly n then 2 else 8) = true → kbOk b = true →
      (n = 0x0C ∨ (u.key.rootSt ≠ 5 ∧ u.key.root ≠ [])) → Answers x s r1 0x5010 2 t (handle t k) e
    let works (n : Nat) (x : Instr) (c : KC) (node : Nat) : Prop := c.code = 0 → inGroup u node = false → cmd n x (endKc k 0 c.res c.st)
    let tells (n : Nat) (x : Instr) (c : KC) : Prop := c.code = 0 → cmd n x (endKc k 0 c.res c.st)
    let opens (n : Nat) (x : Instr) (c : KC) (node : Nat) : Prop := inGroup u node = false →
      cmd n x (if c.code = 0 then endKc k 0 c.res c.st else endKc k c.code [] c.st)
    works 0x01 (.keyCreate r) (kcCreate b u) id ∧
    works 0x02 (.keyDelete r) (kcDelete b u) id ∧
    (u.rst.trngFailed = false → (u.node id).ktype ≠ 0x18 → works 0x03 (.keyGenerate r) (kcGenerate b u) id) ∧
    opens 0x04 (.keyLoad r) (kcLoad b u) (beNat (slice (kbData b) 16 3)) ∧
    tells 0x05 (.keySave r) (kcSave b u) ∧
    opens 0x06 (.keyImport r) (kcImport b u) id ∧
    tells 0x07 (.keyExport r) (kcExport b u) ∧
    tells 0x0B (.keyAttest r) (kcAttest b u) ∧
    tells 0x0C (.keyRead r) (kcRead b u) ∧
    works 0x0D (.keyLoadpub r) (kcLoadpub b u) id ∧
    ((kcCreate b u).code ≠ 0 → cmd 0x01 (.keyCreate r) (endKc k (kcCreate b u).code [] u)) ∧
    ((kcDelete b u).code ≠ 0 → cmd 0x02 (.keyDelete r) (endKc k (kcDelete b u).code [] u)) ∧
    ((kcDelete b u).code = 0 → ((kcDelete b u).st.node id).kind = 0 ∧ id ∈ (kcDelete b u).st.key.removals) ∧
    ((kcCreate b u).code = 0 → (u.node id).kind = 0 ∧ ((kcCreate b u).st.node id).kind = (recordOf (slice b 8 24)).kind)

/-- STAGE from components waits STAGED and STAGE from the generator holds the drawn key; COMMIT of a PREPARED node passes
its commit point, and ABORT before it returns the node to ACTIVE and aborts the STAGE. A staged key in place is
verified, or its STAGE fails. The delivery that is due sends its key, and a bus message that arrives fills the cache
entry, or the job's key bank, with the key or with its error. A scan pass marks the children of its front, or ends the
scan; an old run is freed once no removal of its nodes is left. -/
def Obligations.KeyReplacement : Prop :=
  (∀ (s t : State) (r : Req) (role k : Nat),
    let r1 := reqWith r [1]
    let b := stagedBlock t
    let id := kbNode b
    let v := begun t 0x5010 2 role (.keyCmd b) k
    let u := { v with key := { v.key with op := (byteAt b 0).toNat } }
    let n := u.node id
    let cmd (c : Nat) (x : Instr) (e : State) : Prop :=
      (byteAt (stagedBlock s) 0).toNat = c → stagedBlock s ≠ [] → b = stagedBlock s → Granted s r1 0x5010 2 t role [1] → CanBegin t 0x5010 2 k →
      keyMode t role = true → hasRight t role 8 = true → kbOk b = true → u.key.rootSt ≠ 5 → u.key.root ≠ [] →
      Answers x s r1 0x5010 2 t (handle t k) e
    (stageErr u id = 0 → (byteAt b 35).toNat = 4 →
      cmd 0x08 (.keyStage r) ((u.setRepl id { auto := bit (byteAt b 1).toNat 0, stageOp := some k, check := slice b 36 16, origin := 3 }).setNode id
        { n with state := 3 })) ∧
    (∀ key w, stageErr u id = 0 → (byteAt b 35).toNat = 1 → u.rst.trngFailed = false → n.ktype ≠ 0x18 → genKey n.ktype n.param u = some (key, w) →
      (stageKey id key 0 (bit (byteAt b 1).toNat 0) (some k) (slice b 36 16) w).1 = 0 →
      cmd 0x08 (.keyStage r) (stageKey id key 0 (bit (byteAt b 1).toNat 0) (some k) (slice b 36 16) w).2) ∧
    (n.kind ≠ 0 → n.state = 5 → replChange u id = none → cmd 0x09 (.keyCommit r) (commitPoint id (some k) u)) ∧
    (n.kind ≠ 0 → n.state = 3 ∨ n.state = 4 ∨ n.state = 5 → cmd 0x0A (.keyAbort r) (endKc k 0 [] (abortRepl id u))) ∧
    (n.kind = 3 → ((commitPoint id (some k) u).node id).version = n.version + 1 ∧ ((commitPoint id (some k) u).node id).state = 2 ∧
      ((commitPoint id (some k) u).node id).slot = (u.repl id).head)) ∧
  (∀ (s : State) (node : BitVec 18) (pipe : Fin 8) (die : Fin 2) (badNode badSlot bad : Bool),
    (keyInPlace s node.toNat = true → exec (.replacementVerified node) s = .next (verified node.toNat s)) ∧
    (∀ v, nextDeliv s pipe.val = some v →
      exec (.keyDelivery pipe badNode badSlot) s = .next (runDelivery pipe.val v (markBad v.node badNode badSlot s))) ∧
    (∀ m, nextBus s die.val = some m →
      let a := s.at m.due
      let w := { a with key := { a.key with bus := a.key.bus.filter (fun x => decide (x ≠ m)) } }
      let x := if bad then logEvent 0x14 die.val 0 m.node (w.bump 0xB500 7) else w
      let st := if bad then tKEY_INTEGRITY else m.status
      exec (.keyBusMessage die bad) s = .next (match m.quad with | some q => fillCache q m st x | none => fillBank m st x)) ∧
    (∀ sc more, s.key.scans = sc :: more → exec .coherenceScanPass s = .next (scanPass sc more s)) ∧
    (∀ old, s.key.olds.find? (removalsDone s) = some old → exec .oldRunFree s = .next (freeOld old s)))

/-- A granted installation of a staged program image runs as a long operation: an image that passes its checks and fits
the store is placed and measured, any other fails with its code and is counted. Removal of an image that no epoch
names takes it out of the store. A granted write of a valid decimalisation table in CEREMONY stores it and measures
its check value. -/
def Obligations.ImagesAndTables : Prop :=
  ∀ (s t : State) (r : Req) (role k : Nat) (i : Fin 64) (d : Fin 16) (v : Bytes),
    let n := i.val + 1
    let idx := 0x4101 + i.val
    let u := begun t idx 2 role .install k
    let b := u.entW idx 1
    let code := if progCheck u n b = 0 ∧ storeBytes (placeImage n b u) > 262144 then 3 else progCheck u n b
    (Granted s (reqWith r [1]) idx 2 t role [1] → CanBegin t idx 2 k →
      Answers (.imageInstall r i) s (reqWith r [1]) idx 2 t (handle t k)
        (if code = 0 then doneSlot k [] (mrMeasure 4 6 n (sha384 b) (placeImage n b u)) else failSlot k code (u.bump 0x4100 4))) ∧
    (Granted s (reqWith r [2]) idx 2 t role [2] → imageNamed t n = false →
      Answers (.imageRemove r i) s (reqWith r [2]) idx 2 t [] (t.setEpoch { t.unit.epoch with
        images := Tab.put [] t.unit.epoch.images n []
        pendImages := Tab.put [] t.unit.epoch.pendImages n [] })) ∧
    (Granted s r 0x5400 (d.val + 1) t role v → inCeremony t role = true → decTableOk t v = true →
      Answers (.decimalTableWrite r d) s r 0x5400 (d.val + 1) t []
        (mrMeasure 6 9 d.val (fit (decCheck v) 48) (storeEnt 0x5400 (d.val + 1) v t)))

/-- The running job of an engine takes its outcome from its operation: the RSA private and public operations give their
power of the operand, or PK_INPUT where the operand does not fit; the signatures and verifications give the signature
or the verdict under their scheme; key agreement and public keys give their value, and POLICY where the curve is not
loaded; the engine's generator counts the values drawn. A generation ends where the primes found are an outcome for
its size, and with PK_INPUT at its limit. A verification of a fresh signature gives VERIFY_FAIL where it is faulted or
does not hold. -/
def Obligations.PkOperations : Prop :=
  ∀ (s : State) (eng : Fin 24) (die : Fin 2) (j : PkJob) (p q : Nat),
    let e := eng.val
    let c := j.pkop % 256
    let key := match j.key with | some k => k.key | none => []
    let oper := audOperand j
    let kb := rsaBytes key
    let pb := key.length - 4
    let running : Prop := pkRunning s e = some j ∧ j.withdrawn = false ∧ j.status = none
    let outcome (r : Nat × Bytes × State) : State :=
      let v := pkSet e { j with status := some r.1, result := r.2.1 } r.2.2
      v.setEng e { v.eng e with reqs := (v.eng e).reqs + pkDraws j.pkop }
    let gives (n : Nat) (y : Instr) (h : Prop) (r : Nat × Bytes × State) : Prop :=
      running → j.kind ≠ 1 → j.pkop / 256 = n → h → exec y s = .next (outcome (if inlineOk s e j then r else (tPK_INPUT, [], s)))
    gives 0x01 (.pkRsaPrivate eng) (oper.length = kb ∧ beNat oper < rsaN key kb) (0, beBytes (rsaPriv key (beNat oper)) kb, s) ∧
    gives 0x01 (.pkRsaPrivate eng) (oper.length ≠ kb ∨ rsaN key kb ≤ beNat oper) (tPK_INPUT, [], s) ∧
    gives 0x02 (.pkRsaSignPkcs1 eng) True (rsaSign false key oper s) ∧
    gives 0x03 (.pkRsaSignPss eng) True (rsaSign true key oper s) ∧
    gives 0x04 (.pkRsaPublic eng) (oper.length = pb ∧ beNat oper < rsaN key pb) (0, beBytes (modPow (beNat oper) (rsaE key pb) (rsaN key pb)) pb, s) ∧
    gives 0x04 (.pkRsaPublic eng) (oper.length ≠ pb ∨ rsaN key pb ≤ beNat oper) (tPK_INPUT, [], s) ∧
    gives 0x05 (.pkRsaVerifyPkcs1 eng) True (rsaVerify false key oper, [], s) ∧
    gives 0x06 (.pkRsaVerifyPss eng) True (rsaVerify true key oper, [], s) ∧
    (∀ cv, gives 0x10 (.pkEcdsaSign eng) (jobCurve s c j.epoch = some cv ∧ 20 ≤ oper.length ∧ oper.length ≤ 64)
      (match (ecdsaDraw cv (beNat key) oper s).1 with
       | some sig => (0, sig, (ecdsaDraw cv (beNat key) oper s).2)
       | none => (tPK_INPUT, [], (ecdsaDraw cv (beNat key) oper s).2)) ∧
     gives 0x11 (.pkEcdsaVerify eng) (jobCurve s c j.epoch = some cv) (ecdsaCheck cv key oper, [], s)) ∧
    gives 0x10 (.pkEcdsaSign eng) (jobCurve s c j.epoch = none) (tPOLICY, [], s) ∧
    gives 0x11 (.pkEcdsaVerify eng) (jobCurve s c j.epoch = none) (tPOLICY, [], s) ∧
    gives 0x12 (.pkKeyAgreement eng) True ((agree s c j.epoch key oper).1, (agree s c j.epoch key oper).2, s) ∧
    gives 0x13 (.pkPublicFromPrivate eng) (oper = []) (0, jobPublic s c j.epoch key, s) ∧
    gives 0x20 (.pkEddsaSign eng) (1 ≤ oper.length ∧ oper.length ≤ 1024) (0, (edOf c).sign key oper, s) ∧
    gives 0x21 (.pkEddsaVerify eng) True (eddsaCheck c key oper, [], s) ∧
    (running → j.pkop / 256 = 0x30 →
      let k := 2048 + 1024 * c
      let r := s.draw 64
      exec (.pkRsaKeygen eng p q) s = .next (if rsaPrimesOk k p q ((chunks 8 r.1).map beNat) then
        pkSet e { j with status := some 0, result := rsaKeyBytes k p q, rem := r.2.dt - (r.2.eng e).runAt } r.2 else s)) ∧
    (running → j.kind = 1 → exec (.vasVerify eng true) s = .next (pkSet e { j with status := some tVERIFY_FAIL } (s.bump (0xB700 + e) 7))) ∧
    (running → j.kind = 1 → exec (.vasVerify eng false) s =
      .next (pkSet e { j with status := some (if vasHolds s j then 0 else tVERIFY_FAIL) } (s.bump (0xB700 + e) 7))) ∧
    (∀ g, pkFind s (12 * die.val + (s.bg die.val).engine) (fun x => decide (x.kind = 3 ∧ x.pkop / 256 = 0x30)) = some g →
      (s.bg die.val).busy = true → g.status = none →
      let n := 12 * die.val + (s.bg die.val).engine
      let a := s.at ((s.bg die.val).at_ + ms (s.cfg 0x6000 3))
      exec (.rsaGenLimit die) s = .next (pkFinish n g tPK_INPUT [] a)) ∧
    (ecdsaDraw p256 1 oper s).2 = { s with draws := (ecdsaDraw p256 1 oper s).2.draws }

/-- The job of an engine that can be released first is released at the later of its arrival and its key; at a yield point
before its end the running job keeps what is left of its work and gives way to an earlier one; at its end, where no
earlier one waits for its yield point, its outcome is delivered, and a withdrawn one leaves without a trace. A
submitted descriptor that is well formed becomes a background job, another ends with POLICY; an abort ends it; a claim
that has waited for its time takes the engine. A fence request takes an engine out, a release puts it back; a staged
curve is checked, measured and pends, and an unload pends. -/
def Obligations.PkJobs : Prop :=
  (∀ (s : State) (eng : Fin 24) (n : Fin 2001) (j : PkJob),
    let e := eng.val
    let v := s.eng e
    let when_ (x : PkJob) : Option Nat := match x.rls, x.arr, x.keyAt with | none, some a, some k => some (Nat.max a k) | _, _, _ => none
    let first := v.jobs.foldl (fun (b : Option (Nat × Nat)) x =>
      match when_ x, b with
      | some t, some y => if t < y.1 then some (t, x.seq) else b
      | some t, none => some (t, x.seq)
      | none, _ => b) none
    let t := Nat.max s.dt (v.yieldAt + n.val)
    let a := s.at t
    let left := { j with rem := if j.pkop / 256 = 0x30 then 0 else j.rem - (t - v.runAt) }
    let b := pkSet e left a
    let u := b.setEng e { b.eng e with runAt := t, yieldAt := t }
    let fin := s.at (v.runAt + j.rem)
    let on : Prop := pkRunning s e = some j
    (∀ x, first = some x → s.domReady (9 + e / 12) = true → exec (.pkJobRelease eng) s = .next (pkRelease e x.2 s)) ∧
    (on → j.pkop / 256 ≠ 0x30 → t < v.runAt + j.rem → j.withdrawn = false → j.kind ≠ 3 → exec (.pkYieldPoint eng n) s = .next (pkSwitch e t left u)) ∧
    (on → j.withdrawn = true → j.pkop / 256 = 0x30 → exec (.pkYieldPoint eng n) s = .next (rearmIdle (9 + e / 12) (pkRemove e j.seq t u))) ∧
    (∀ st, on → j.withdrawn = false → j.status = some st → mustYield v j (v.runAt + j.rem) = false → exec (.pkJobEnd eng) s = .next (pkFinish e j st j.result fin)) ∧
    (on → j.withdrawn = true → exec (.pkJobEnd eng) s = .next (rearmIdle (9 + e / 12) (pkRemove e j.seq fin.dt fin))) ∧
    (v.run = none → 2 ^ 20 ≤ v.reqs → exec (.pkDrbgReseed eng) s = .next (s.setEng e { v with reqs := 0, seeded := true })) ∧
    (v.run = none → v.reqs < 2 ^ 20 → exec (.pkDrbgReseed eng) s = .next s)) ∧
  (∀ (s : State) (die : Fin 2) (j : PkJob),
    let d := die.val
    let b := s.bg d
    let e := 12 * d + b.engine
    let u := s.at (b.at_ + us (s.cfg 0x6000 2))
    let w := u.setEng e { u.eng e with claim := 2, claimAt := u.dt }
    (b.go = false → b.busy = false → bgOk b.desc = true → exec (.pkeBgGo die) s = .next (bgSubmit d b.desc s)) ∧
    (b.go = false → b.busy = false → bgOk b.desc = false → exec (.pkeBgGo die) s = .next (bgEnd d tPOLICY s)) ∧
    (b.go = true ∨ b.busy = true → exec (.pkeBgGo die) s = .next s) ∧
    (b.go = true → exec (.pkeBgAbort die) s = .next (genPump (bgEnd d tABORTED s))) ∧
    (b.go = false → b.busy = true → pkFind s e (fun j => decide (j.kind = 3)) = some j → (s.eng e).run ≠ some j.seq →
      exec (.pkeBgAbort die) s = .next (genPump (bgEnd d tABORTED (pkRemove e j.seq s.dt s)))) ∧
    (b.go = false → b.busy = true → pkFind s e (fun j => decide (j.kind = 3)) = some j → (s.eng e).run = some j.seq →
      exec (.pkeBgAbort die) s = .next (s.setBg d { b with abort := true })) ∧
    (b.busy = true → b.started = false → b.claim = false → (dieEngines d).any (fun e => decide ((s.eng e).claim ≠ 0)) = false →
      exec (.bgClaimTimeout die) s = .next (w.setBg d { w.bg d with claim := true }))) ∧
  (∀ (s t : State) (r : Req) (role k : Nat) (eng : Fin 24) (c : Fin 16),
    let idx := 0x6001 + eng.val
    let cdx := 0x6020 + c.val
    let u := begun t cdx 2 role .install k
    let b := u.entW cdx 1
    let err := curveErr b u
    let ask (n : Nat) : Req := reqWith r [BitVec.ofNat 8 n]
    (Granted s (ask 1) idx 5 t role [1] → Answers (.pkFenceRequest r eng) s (ask 1) idx 5 t [] (fencePkUnit eng.val 4 t)) ∧
    (Granted s (ask 2) idx 5 t role [2] → (t.eng eng.val).cause = 4 →
      Answers (.pkFenceRelease r eng) s (ask 2) idx 5 t [] (unfenceEng eng.val t)) ∧
    (Granted s (ask 1) cdx 2 t role [1] → inCeremony t role = true → CanBegin t cdx 2 k → curveNamed u c.val = false →
      Answers (.curveInstall r c) s (ask 1) cdx 2 t (handle t k) (if err.1 = 0 then
        doneSlot k [] (mrMeasure 6 9 c.val (sha384 b) (pendCurve c.val b err.2)) else failSlot k err.1 err.2)) ∧
    (Granted s (ask 2) cdx 2 t role [2] → inCeremony t role = true → CanBegin t cdx 2 k → curveNamed u c.val = false →
      Answers (.curveUnload r c) s (ask 2) cdx 2 t (handle t k) (doneSlot k [] (pendCurve c.val [] u))))

/-- A card inserted in a powered interface starts in class A; an answer to reset with T=1 activates it with its values,
one without T=1 fails with fault 2, and where class A gives none class B follows after its retry time. A removed card,
or one silent past its block waiting time with its extensions, faults and its ceremony ends at an abort point. On a
free card each command is sent in its place: SELECT, GET IDENTITY, SIGN, OPEN CHANNEL, and the component commands. A
response without error and with status 9000 advances its command; an error, a refusal or another status is fault 3, 6
or 7. -/
def Obligations.CustodianCards : Prop :=
  ∀ (s : State) (i : Fin 4) (atr data : Bytes) (sw : BitVec 16) (slot : Fin 8) (a : Atr) (ins wtx : Nat),
    let n := i.val
    let c := s.card n
    let st := s.cer.st
    let kind := s.cer.kind
    let can (h : Prop) (y : Instr) (t : State) : Prop := cardFree s n = true → h → exec y s = .next t
    let channel : Prop := c.chan = true ∧ owesComp s c = true
    let d := drawScalar p384.n 64 s
    let r := d.2.draw 32
    let t := r.2.setCard n { c with eph := d.1, nonce := r.1 }
    let sent (y : Instr) (u : State) : Prop := c.cmd = some ins → exec y s = .next (cerAbortPoint u)
    let f := if c.st = 1 ∨ c.cmd.isSome then cardFault n 5 s else s
    (c.pres = false → s.domReady 6 = true →
      exec (.cardInsert i) s = .next (s.setCard n { pres := true, st := 1, cls := 1, cardid := c.cardid })) ∧
    (c.pres = false → s.domReady 6 = false → exec (.cardInsert i) s = .next (s.setCard n { c with pres := true })) ∧
    (c.st = 1 → c.cls ≠ 0 → readAtr atr = some a → a.t1 = true → exec (.cardAtr i atr) s = .next (s.setCard n { c with
      st := 2
      ifsc := a.ifsc.getD 32
      fi := (ppsOf a.ta1).1
      di := (ppsOf a.ta1).2
      cwi := a.tb.getD 0x4D % 16
      bwi := a.tb.getD 0x4D / 16
      step := 0 })) ∧
    (c.st = 1 → c.cls ≠ 0 → readAtr atr = some a → a.t1 = false → exec (.cardAtr i atr) s = .next (cardFault n 2 s)) ∧
    (c.st = 1 → c.cls = 1 → readAtr atr = none →
      exec (.cardAtr i atr) s = .next (s.setCard n { c with cls := 0, retry := some (s.dt + ms 10) })) ∧
    (∀ at_, c.retry = some at_ → exec (.cardClassARetry i) s = .next ((s.at at_).setCard n { c with cls := 2, retry := none })) ∧
    (c.pres = true → exec (.cardRemove i) s =
      .next (cerAbortPoint (f.setCard n (({ f.card n with pres := false } : Card).off (if (f.card n).fault = 5 then 5 else 0))))) ∧
    (c.st = 1 → c.cls = 1 → exec (.cardWaitTimeout ⟨i, wtx⟩) s = .next (s.setCard n { c with cls := 0, retry := some (s.dt + ms 10) })) ∧
    (c.st = 1 → c.cls = 2 → exec (.cardWaitTimeout ⟨i, wtx⟩) s = .next (cardFault n 1 s)) ∧
    (c.st ≠ 1 → c.cmd.isSome = true →
      exec (.cardWaitTimeout ⟨i, wtx⟩) s =
        .next (cerAbortPoint (cardFault n 4 (s.at (c.cmdAt + Nat.max (blockWait c) (Nat.min (blockWait c + wtx) (sec 30))))))) ∧
    exec (.cardDeactivate i) s = .next (cerAbortPoint (s.setCard n (c.off 0))) ∧
    can (c.step = 0) (.cardSelect i) (sendCard n 0xA4 4 [0xF0, 0x53, 0x56, 0x43, 0x55, 0x53, 0x54] s) ∧
    can (c.step = 1) (.cardGetIdentity i) (sendCard n 0x10 0 [] s) ∧
    can (c.step = 2 ∧ st = 1 ∧ kind ≠ 6) (.cardSign i) (sendCard n 0x20 0 (sha384 (approvalText s s.cer)) s) ∧
    can (c.step = 2 ∧ st = 1 ∧ kind = 6) (.cardSign i) (sendCard n 0x20 0 (sha384 (ownText s s.cer.params)) s) ∧
    can (st = 2 ∧ (kind = 3 ∨ kind = 4) ∧ (c.step = 2 ∨ c.step = 3) ∧ c.chan = false ∧ owesComp s c = true) (.cardOpenChannel i)
      (sendCard n 0x30 0 (p384.enc (p384.mul d.1 p384.g) ++ r.1) t) ∧
    (∀ p rest, can (s.cer.todo = p :: rest ∧ st = 2 ∧ kind = 4 ∧ channel) (.cardPutComponent i)
      (sendCard n 0x40 (cerCardSlot s.cer) (sealComp c (s.node (cerNode s.cer)).ktype p) s)) ∧
    can (st = 2 ∧ kind = 3 ∧ channel) (.cardGetComponent i) (sendCard n 0x42 (cerCardSlot s.cer) [] s) ∧
    can (st = 2 ∧ kind = 4 ∧ (c.step = 2 ∨ c.step = 3)) (.cardClearComponent i slot) (sendCard n 0x44 slot.val [] s) ∧
    sent (.cardResponse i sw data true) (cardFault n 3 s) ∧
    (sw = 0x6982 → sent (.cardResponse i sw data false) (cardFault n 6 s)) ∧
    (sw ≠ 0x6982 → sw ≠ 0x9000 → sent (.cardResponse i sw data false) (cardFault n 7 s)) ∧
    (sw = 0x9000 → ins = 0xA4 → sent (.cardResponse i sw data false) (s.setCard n { c with st := 2, cmd := none, step := 1 })) ∧
    (sw = 0x9000 → ins = 0x10 → sent (.cardResponse i sw data false) (cardIdentity n data s)) ∧
    (sw = 0x9000 → ins = 0x20 → sent (.cardResponse i sw data false) (cardSigned n data s)) ∧
    (sw = 0x9000 → ins = 0x30 → sent (.cardResponse i sw data false) (openChannel n data s)) ∧
    (sw = 0x9000 → ins = 0x40 → sent (.cardResponse i sw data false) (compOut n s)) ∧
    (sw = 0x9000 → ins = 0x42 → sent (.cardResponse i sw data false) (compIn n data s)) ∧
    ((sendCard n ins 4 data s).out.head? = some (.card n ins 4 data) ∧ ((sendCard n ins 4 data s).card n).cmd = some ins) ∧
    ((cardFault n 7 s).card n).fault = 7

/-- A granted start of an ENROL, COMPONENTS_IN, COMPONENTS_OUT or GROUP ceremony in CEREMONY, with none in progress,
begins a long operation: parameters of the right form take the next ceremony number and collect approvals, others fail
with code 3. The ownership ceremony starts in VENDOR alike. A ceremony not approved in its time fails with code 1, and
one not finished with code 2; the limit of the mode leaves CEREMONY. -/
def Obligations.Ceremonies : Prop :=
  (∀ (s t : State) (r : Req) (role k : Nat),
    let p := (begun t 0xA000 2 role .ceremony k).entW 0xA000 4
    let begins (n : Nat) (y : Instr) : Prop :=
      Granted s (reqWith r [BitVec.ofNat 8 n]) 0xA000 2 t role [BitVec.ofNat 8 n] → inCeremony t role = true → t.cer.kind = 0 → CanBegin t 0xA000 2 k →
      Answers y s (reqWith r [BitVec.ofNat 8 n]) 0xA000 2 t (handle t k) (cerStart n k role p (begun t 0xA000 2 role .ceremony k))
    begins 2 (.ceremonyStartEnrol r) ∧ begins 3 (.ceremonyStartComponentsIn r) ∧ begins 4 (.ceremonyStartComponentsOut r) ∧
    begins 5 (.ceremonyStartGroup r) ∧
    (Granted s (reqWith r [1]) 0xA030 2 t role [1] → inVendor t role = true → t.cer.kind = 0 → changeOpen t = false → t.power.modeTarget = none →
      CanBegin t 0xA030 2 k → Answers (.ownershipStart r) s (reqWith r [1]) 0xA030 2 t (handle t k) (ownStart k role (begun t 0xA030 2 role .ceremony k)))) ∧
  (∀ (s : State) (kind slot role : Nat) (p : Bytes),
    let c := ctrIncrement 1 0 s
    let t := cerStart kind slot role p s
    (paramsOk kind p = false → t = (failSlot slot 3 s).bump 0xB800 2) ∧
    (paramsOk kind p = true → c.1 ≠ 0 → t = (failSlot slot 6 s).bump 0xB800 2) ∧
    (paramsOk kind p = true → c.1 = 0 → t.cer.kind = kind ∧ t.cer.st = 1 ∧ t.cer.slot = some slot ∧ t.cer.role = role ∧ t.cer.params = p ∧
      t.cer.num = ctrValue c.2 1 % 2 ^ 32 ∧ t.cer.approvals = [])) ∧
  (∀ (s : State),
    let c := s.cer
    let lim := ms (s.cfg 0xA000 3)
    let a := s.at (c.quorumAt + lim)
    let u := { a with grp := { a.grp with invited := [], join := [], joining := false } }
    (c.kind ≠ 0 → c.st = 1 → exec .ceremonyTimeout s = .next (cerFail 1 [] (s.at (c.start + lim)))) ∧
    (c.kind ≠ 0 → c.kind ≠ 5 → c.st ≠ 1 → exec .ceremonyTimeout s = .next (cerFail 2 ([byte c.fault] ++ [byte (c.comps.length)]) a)) ∧
    (c.kind = 5 → c.st ≠ 1 → chgOf u c.chg = none → exec .ceremonyTimeout s = .next (cerFail 0x0A [] u)) ∧
    (∀ g, c.kind = 5 → c.st ≠ 1 → chgOf u c.chg = some g → exec .ceremonyTimeout s = .next (if g.st = 0 then chgAbort g.id 0x0B u else u)) ∧
    (s.power.mode = .ceremony → changeOpen s = false →
      exec .ceremonyLimit s = .next (cerLeave none (s.at (s.power.ceremonySince + sec (60 * s.cfg 0xA000 7))))) ∧
    (c.kind = 0 → cerLeave none s = startFlip s.power.retMode none s))

/-- An enabled link that comes up sends its nonce and its statement, and a good statement of the other side takes it UP, a
bad one DOWN. Every frame that arrives is counted. In UP a frame with a greater sequence number is accepted and acted
on once; a bad or a repeated one is not. Heartbeats are sent in their time and silence takes the link DOWN. A token is
kept, a tamper message that shows it marks the peer erased. PREPARE, PREPARED, REFUSE, COMMIT, COMMITTED, ABORT and
STATUS run the group change of their identifier; a change not prepared in its time aborts, and unanswered messages are
sent again. RESOLVE aborts the held changes of members that are away. -/
def Obligations.MirrorGroup : Prop :=
  ∀ (s t : State) (r : Req) (role : Nat) (l : Fin 8) (seq : Word) (chg : BitVec 96) (nonce : BitVec 256) (stmt eph nrec key ros : Bytes)
    (idk tok : BitVec 128) (op : Fin 3) (node : BitVec 19) (n18 : BitVec 18) (c : Chg) (decs : List (BitVec 96 × Bool)) (joined : Fin 8)
    (nodes : List (BitVec 18 × Bytes × Bytes)),
    let n := l.val
    let v := s.mlink n
    let id := beBytes chg.toNat 12
    let u := (s.setMlink n { v with rxSeq := seq.toNat, lastRx := s.dt }).bump (0xB810 + n) 2
    let cnt := s.bump (0xB810 + n) 2
    let up (h : Prop) (y : Instr) (w : State) : Prop := v.st = 3 → h → exec y s = .next w
    let new : Prop := v.rxSeq < seq.toNat
    let acts (y : Bool → Instr) (w : State) : Prop := up new (y false) w ∧ up True (y true) (frameFail n cnt)
    let d := s.draw 32
    let e := drawScalar p384.n 8 d.2
    let a := attest 0 (beBytes nonce.toNat 32) e.2
    let pt := p384.enc (p384.mul e.1 p384.g)
    let link : MLink := { tagfail := v.tagfail, st := 2, eph := e.1, stmt := a.res, nonce := d.1, lastRx := s.dt, lastTx := s.dt }
    (s.cfg (0x2030 + n) 1 = 1 → s.domReady 31 = true → v.st < 2 → a.code = 0 →
      exec (.mirrorLinkUp l nonce) s = .next (sendMir n (.auth a.res pt) (sendMir n (.nonce d.1) (a.st.setMlink n link)))) ∧
    (v.st = 2 → exec (.mirrorAuth l stmt eph idk true) s =
      .next (if peerOk cnt v stmt eph (beBytes idk.toNat 16) then linkUp n v stmt eph cnt else linkDown n cnt)) ∧
    (v.st = 2 → exec (.mirrorAuth l stmt eph idk false) s = .next (linkDown n cnt)) ∧
    acts (.mirrorHeartbeat l seq) u ∧
    up (¬ new) (.mirrorHeartbeat l seq false) (frameFail n cnt) ∧
    up True (.mirrorHeartbeatTimer l) (sendMir n .heartbeat (s.at (v.lastTx + us 100))) ∧
    (2 ≤ v.st → exec (.mirrorSilenceTimeout l) s = .next (linkDown n (s.at (v.lastRx + us (s.cfg 0xA100 4))))) ∧
    acts (fun b => .mirrorToken l seq b tok) (u.setMlink n { u.mlink n with tokRx := beBytes tok.toNat 16 }) ∧
    up (v.tokRx ≠ [] ∧ v.tokRx = beBytes tok.toNat 16) (.mirrorTamper l tok) (memberErased n (cnt.setMlink n { v with tokRx := [] })) ∧
    up (v.tokRx ≠ [] ∧ v.tokRx ≠ beBytes tok.toNat 16) (.mirrorTamper l tok) (linkDown n (logEvent 0x16 n 0 (beNat (v.peer.drop 4)) cnt)) ∧
    acts (fun b => .mirrorPrepare l seq b chg op node nrec key ros)
      (onPrepare n { id := id, op := op.val, node := node.toNat, nrec := nrec, key := key, ros := ros, init := id.take 8, st := 1, start := s.dt } u) ∧
    acts (fun b => .mirrorPrepared l seq b chg) (onPrepared n id u) ∧
    acts (fun b => .mirrorRefuse l seq b chg) (onRefuse id u) ∧
    acts (fun b => .mirrorCommit l seq b chg) (onCommit n id u) ∧
    acts (fun b => .mirrorCommitted l seq b chg) (onCommitted n id u) ∧
    acts (fun b => .mirrorAbort l seq b chg) (onAbort n id u) ∧
    acts (fun b => .mirrorStatus l seq b chg none) (sendMir n (.answer id (statusOf u id)) u) ∧
    acts (fun b => .mirrorStatus l seq b chg (some 1)) (onAnswer n id 1 u) ∧
    up (new ∧ (peerSlot u n).isSome = true) (.mirrorResync l seq false decs joined nodes)
      (nodes.foldl (fun w x => resyncNode n joined.val x.1.toNat x.2.1 x.2.2 w)
        (decs.foldl (fun w x => applyDecision (beBytes x.1.toNat 12) x.2 w) u)) ∧
    up (new ∧ u.grp.joining = true ∧ (u.mlink n).peer = u.grp.join.take 8) (.mirrorKeyTransfer l seq false n18 nrec key)
      (installNode n18.toNat (fit nrec 24) key u) ∧
    (chgOf s id = some c → c.waits ≠ [] → c.st = 0 →
      let b := s.at c.resendAt
      exec (.mirrorResendTimer chg) s = .next (c.waits.foldl (fun w k =>
        match (upLinks w (w.member k).serial).head? with
        | some m => sendMir m (resendMsg { c with resendAt := b.dt + us 200 }) (w.bump (0xB810 + m) 5)
        | none => w) (setChg { c with resendAt := b.dt + us 200 } b))) ∧
    (chgOf s id = some c → c.mine = true → c.st = 0 →
      exec (.mirrorPrepareTimeout chg) s = .next (chgAbort c.id 0x0B (s.at (c.start + us (s.cfg 0xA100 5))))) ∧
    (Granted s (reqWith r [2]) 0xA100 7 t role [2] → Answers (.resolveAbort r) s (reqWith r [2]) 0xA100 7 t []
      (t.grp.chgs.foldl (fun w x => if x.st = 3 ∧ ! x.mine ∧ (upLinks w x.init).isEmpty then memberAbort x w else w) t)) ∧
    ((sendMir n .heartbeat s).mlink n).txSeq = v.txSeq + 1

/-- A start of the digest engine takes its fields, counts an operation cut short, and fails with error 4 for a reserved
mode, algorithm or compare length and with error 3 where the key is not its own; a word written is accepted up to the
length, is error 1 where the engine is busy and error 2 after a finished message; an abort cuts a message short with
error 5; a block and the finish are done at their instants, with the digest and its comparison, and a comparator fault
is counted. A granted extend queues its value and is performed in order, eighty ticks after the core is free: the
register becomes the SHA-384 of itself and the value, and the log takes an entry while it has room. The vendor port
extends registers 1 to 7 and the owner port 8 to 15. Images install, activate, load and unload as long operations, the
floors rise, and a boot, or a reload after a core reset, tries the base slots in their order. -/
def Obligations.DigestAndImages : Prop :=
  (∀ (s : State) (ctrl : Word), s.domReady 5 = true →
    let c := ctrl.toNat
    let a := digSettle s
    let o := a.dig
    let early : Bool := o.running && decide (o.msg.length < o.len)
    let n : DigState := { mode := bits c 29 28, alg := bits c 27 24, cmpen := bit c 23, cmplen := bits c 22 16, len := a.reg 2 (digOff + 4),
                          running := true, trunc := o.trunc || early, cmpflt := o.cmpflt, freeAt := a.dt }
    let u := if early then (a.setDig n).noteSet (regKey 2 (digOff + 0x10)) (2 ^ 29) else a.setDig n
    let key := digKey u
    let e := u.dt + 40 * key.2.2.2 + digTime n.alg
    (n.mode = 3 ∨ 6 ≤ n.alg ∨ cmplenOk n.mode n.alg n.cmplen = false → exec (.digStart ctrl) s = .next (digEnd 4 u)) ∧
    (n.mode = 0 → n.alg < 6 → cmplenOk n.mode n.alg n.cmplen = true →
      exec (.digStart ctrl) s = .next (u.setDig { n with finishing := decide (n.len = 0) })) ∧
    (n.mode = 1 ∨ n.mode = 2 → n.alg < 6 → cmplenOk n.mode n.alg n.cmplen = true → exec (.digStart ctrl) s =
      .next (if key.1 = 0 then key.2.2.1.setDig { key.2.2.1.dig with key := key.2.1, keying := true, keyAt := e, freeAt := e }
        else digEnd 3 (key.2.2.1.setDig { key.2.2.1.dig with kstat := key.1 })))) ∧
  (∀ (s : State), s.domReady 5 = true → s.dig.running = true → s.dig.msg.length < s.dig.len → exec .digAbort s = .next (digEnd 5 s)) ∧
  (∀ (s : State) (w : Word), s.domReady 5 = true →
    let a := digSettle s
    let d := a.dig
    let late : Prop := digBusy a = true ∨ (d.mode ≠ 0 ∧ d.keyAt = a.dt)
    (d.running = true → ¬ late → exec (.digDataWrite w) s = .next (digAccept w a)) ∧
    (d.running = true → late → exec (.digDataWrite w) s = .next (digEnd 1 a)) ∧
    (d.running = false → d.done = true →
      exec (.digDataWrite w) s = .next (a.setDig { d with isMatch := false, mismatch := false, res := [], err := 2 })) ∧
    (digAccept w a).dig.msg = d.msg ++ (beBytes w.toNat 4).take (d.len - d.msg.length)) ∧
  (∀ (s : State), s.dig.running = true →
    let d := s.dig
    (d.keying = true → exec .digBlockDone s = .next ((s.at d.keyAt).setDig { d with keying := false, finishing := decide (d.len = 0) })) ∧
    (d.keying = false → d.full ≠ 0 → exec .digBlockDone s = .next ((s.at (digBlockDue d)).setDig { d with full := d.full - 1 }))) ∧
  (∀ (s : State) (flags : Option Bool), s.dig.running = true → s.dig.finishing = true → s.dig.keying = false →
    let d := s.dig
    let r := digResult d
    let cut := if d.cmplen = 0 then r.length else d.cmplen
    let cmp : Bool := d.cmpen || decide (d.mode = 2)
    let same : Bool := decide (r.take cut = (digExpected s).take cut)
    let x := (s.at (digDue d)).setDig { d with
      running := false
      finishing := false
      full := 0
      key := []
      done := true
      res := if d.mode = 2 then [] else r
      isMatch := cmp && flags.getD same
      mismatch := cmp && flags.getD (! same)
      cmpflt := d.cmpflt || (cmp && flags.isSome) }
    exec (.digFinish flags) s = .next (if cmp && flags.isSome then cmpFault x else x)) ∧
  (∀ (s : State) (i : BitVec 4) (src : Byte), mrGo s 1 = false →
    let a := { s with mr := { s.mr with vidx := i.toNat, vsrc := src.toNat } }
    (1 ≤ i.toNat → i.toNat < 8 → ¬ (i.toNat = 1 ∧ s.mr.bootlock = true) → exec (.mrVendorExtend i src) s =
      .next { a with mr := { a.mr with waiting := mrInsert ⟨i.toNat, mrInput a 0x440, src.toNat % 16, src.toNat / 16, 1, s.dt⟩ a.mr.waiting } }) ∧
    (i.toNat = 0 ∨ 8 ≤ i.toNat ∨ (i.toNat = 1 ∧ s.mr.bootlock = true) → exec (.mrVendorExtend i src) s =
      .next (State.noteSet { a with mr := { a.mr with refused := true } } (regKey 2 (mrOff + 0x404)) (2 ^ 30)))) ∧
  (∀ (s : State) (i : BitVec 4), mrGo s 2 = false →
    let b := { s with mr := { s.mr with oidx := i.toNat } }
    (8 ≤ i.toNat → exec (.mrOwnerExtend i) s =
      .next { b with mr := { b.mr with waiting := mrInsert ⟨i.toNat, mrInput b 0x480, 11, 0, 2, s.dt⟩ b.mr.waiting } }) ∧
    (i.toNat < 8 → exec (.mrOwnerExtend i) s =
      .next (State.noteSet { b with mr := { b.mr with refused := true } } (regKey 2 (mrOff + 0x404)) (2 ^ 30)))) ∧
  (∀ (s t : State) (r : Req) (role : Nat) (k : Fin 8) (v : Bytes), Granted s r 0x6802 (k.val + 1) t role v → v.length = 48 →
    exec (.mrExtendEntry r k) s = .next (replyIn t (asking r 0x6802 (k.val + 1)) 2 0 [] (mrMeasure (8 + k.val) 11 0 v t))) ∧
  (∀ (s : State) (q : MrReq) (rest : List MrReq), s.mr.waiting = q :: rest →
    let a := s.at (Nat.max s.mr.freeAt q.arrival + 80)
    let m := mrPerform q { a with mr := { a.mr with waiting := rest, freeAt := a.dt } }
    exec .mrExtendDone s = .next m ∧ m.mrVal q.mr = sha384 (s.mrVal q.mr ++ q.v) ∧
    (∀ j, j ≠ q.mr → m.mrVal j = s.mrVal j) ∧ m.mr.log.length = Nat.max s.mr.log.length (Nat.min 1024 (s.mr.log.length + 1))) ∧
  (∀ (s : State), exec .bootlock s = .next { s with mr := { s.mr with bootlock := true } }) ∧
  (∀ (s t : State) (r : Req) (role k : Nat) (m : Fin 16) (d0 : Word) (fault : Bool), CanBegin t 0x6830 2 k →
    let q (n : Nat) : Req := reqWith r [BitVec.ofNat 8 n]
    (Granted s (q 1) 0x6830 2 t role [1] → exec (.baseInstall r fault) s =
      .next (replyIn t (asking (q 1) 0x6830 2) 2 0 (handle t k) (baseInstall k fault (begun t 0x6830 2 role .install k)))) ∧
    (∀ c, Granted s (q 2) 0x6830 2 t role [2] → inUpdate t role = true → slotWinner t = some c → exec (.baseActivate r) s =
      .next (replyIn t (asking (q 2) 0x6830 2) 2 0 (handle t k) (coreReset 1 0x0D ((begun t 0x6830 2 role .reset k).setNum 0x6800 6 c))))) ∧
  (∀ (s t : State) (r : Req) (role k : Nat) (m : Fin 16) (d0 : Word) (fault : Bool), CanBegin t (0x6840 + m.val) 2 k →
    let n := 0x6840 + m.val
    let q (n : Nat) : Req := reqWith r [BitVec.ofNat 8 n]
    (Granted s (q 1) n 2 t role [1] → exec (.moduleLoad r m d0 fault) s =
      .next (replyIn t (asking (q 1) n 2) 2 0 (handle t k) (moduleLoad m.val k d0.toNat fault (begun t n 2 role .moduleOp k)))) ∧
    (Granted s (q 2) n 2 t role [2] → exec (.moduleUnload r m) s =
      .next (replyIn t (asking (q 2) n 2) 2 0 (handle t k) (doneSlot k [] (unloadModule m.val (begun t n 2 role .moduleOp k)))))) ∧
  (∀ (s t : State) (r : Req) (role : Nat) (v : Bytes),
    (Granted s r 0x6820 2 t role v → baseFloorRange t v = true → (ctrRaise 2 (beNat v) 0 t).1 = 0 → exec (.baseFloorRaise r) s =
      .next (replyIn t (asking r 0x6820 2) 2 0 [] (ctrRaise 2 (beNat v) 0 t).2)) ∧
    (Granted s r 0x6820 4 t role v → moduleFloorRange t v = true → (ctrRaise (15 + floorModid v) (beNat (v.drop 2)) 0 t).1 = 0 →
      exec (.moduleFloorRaise r) s =
        .next (replyIn t (asking r 0x6820 4) 2 0 [] (ctrRaise (15 + floorModid v) (beNat (v.drop 2)) 0 t).2))) ∧
  (∀ (s : State) (faults : BitVec 2), s.rst.recovery = false → s.domReady 5 = true → s.tamper.erasing = false →
    let u := noteDamaged 6 (slotRecPage 0) (slotRecPage 1) (slotRec s 0).isSome (slotRec s 1).isSome s
    let busy := bit s.rst.coreBusy 0
    (s.rst.phase = .boot → s.power.mode = .bringup → exec (.supervisorBoot faults) s = .next (bootSlots faults.toNat false (bootOrder u busy) u)) ∧
    (s.rst.phase = .done → busy = true → aniseMode s = false → s.power.mode ≠ .guard →
      exec (.supervisorBoot faults) s = .next (bootSlots faults.toNat true (bootOrder u true) u)))

/-- A condition that asserts is latched, shown with its sensor, counted and logged, and with response E erases; it
deasserts, an escalation that is due first, logging what was held back. Escalation, ZEROISE, the zero write and a
response turned to E while the condition is asserted erase. Once the sweeps and the chains are done the device enters
ALARM, which RETIRED does not have. Slack reports raise a die's step and recovery lowers it, and the set-point
follows. LEARN runs as a long operation and its end stores the baselines. GUARD samples count time and note what
changed. The first queued event is written while the log has room; the log rolls, and a statement of it is signed. The
clock is set. -/
def Obligations.TamperAndEvidence : Prop :=
  (∀ (s : State) (code : Byte) (sensor : BitVec 16) (die : Fin 2) (crit : Bool) (n : Fin 80),
    let k := code.toNat
    let c := s.cond k
    let e := respE s k
    let t := condAssert k sensor.toNat s
    let esc := (s.at (c.escFrom + ms (s.cfg (0x7010 + k) 5))).setCond k { c with escd := true }
    let b := settleEscalation k s
    let z := b.cond k
    let d := die.val
    exec (.conditionAssert code sensor) s = .next t ∧
    (1 ≤ k → k ≤ 0x11 → s.power.mode ≠ .guard → c.asserted = false → chanOff s k sensor.toNat = false → e = false →
      (t.cond k).latched = true ∧ (t.cond k).sensor = sensor.toNat ∧ (t.cond k).asserted = ! momentary k ∧ t.tamper.detDt = s.dt) ∧
    (1 ≤ k → k ≤ 0x11 → s.power.mode ≠ .guard → c.asserted = false → chanOff s k sensor.toNat = false → e = true → s.tamper.erasing = false →
      t.tamper.erasing = true ∧ t.tamper.lastCond = k) ∧
    (c.asserted = true → s.power.mode ≠ .guard → b.dt < z.since + sec 1 →
      exec (.conditionDeassert code) s = .next (b.setCond k { z with asserted := false })) ∧
    (c.asserted = true → s.power.mode ≠ .guard → z.since + sec 1 ≤ b.dt → exec (.conditionDeassert code) s =
      .next (logEvent 0x04 k 0 z.sinceLog (b.setCond k { z with asserted := false, sinceLog := 0 }))) ∧
    (c.asserted = true → s.power.mode = .guard → exec (.conditionDeassert code) s = .next (s.setCond k { c with asserted := false })) ∧
    (c.asserted = true → c.escd = false → e = false → s.cfg (0x7010 + k) 5 ≠ 0 → s.power.mode ≠ .guard →
      exec (.escalation code) s = .next (tamperErase k (logEvent 0x03 k 2 c.sensor esc))) ∧
    (s.domReady (7 + d) = true → pstep s d < 16 →
      exec (.slackReport die crit n) s = .next (setPstep d (Nat.min 16 (pstep s d + if crit then 4 else 1)) s)) ∧
    (s.domReady (7 + d) = true → pstep s d = 16 → exec (.slackReport die crit n) s = .next (condAssert 0x0F (d * 256 + n.val) s)) ∧
    (pstep s d ≠ 0 → exec (.lclkStepRecovery die) s =
      .next (setPstep d (pstep s d - 1) (s.at (Tab.look 0 s.tamper.slackDt d + recoverTime (pstep s d)))))) ∧
  (∀ (s : State) (means : List (BitVec 32)) (cut short unstable : BitVec 64) (k : Nat) (v : Word),
    let up := s.at (s.power.vsetDt + us 1)
    let down := s.at (s.power.vsetDt + ms 1)
    let still := { quietDomains s with tamper := { (quietDomains s).tamper with erasing := false } }
    let a := s.at ((s.slot k).started + ms 64)
    let r := (List.range 64).foldl (fun (r : Bool × State) c => if r.2.num (0x7080 + c) 1 = 0 then r else
      let q := learnChan c (means.getD c 0).toNat (unstable.getLsbD c) r.2
      (r.1 && q.1, q.2)) (true, a)
    let learnt := { r.2 with tamper := { r.2.tamper with learn := none } }
    let g := setRtc (rtcTicks s + 8) s
    let watch (v : BitVec 64) (code : Nat) (w : State) : State :=
      let l := (bitsSet 64 v.toNat).filter (fun c => ! chanOff w code c)
      if l.isEmpty then guardDeassert code w else l.foldl (fun w c => guardAssert code c w) w
    (4 ≤ pstep s 0 ∨ 4 ≤ pstep s 1 → exec .vddLSetpointUp s = .next (setVset (Nat.min 800 (up.power.vset + 10)) up)) ∧
    (pstep s 0 = 0 → pstep s 1 = 0 → exec .vddLSetpointDown s = .next (setVset (Nat.max 700 (down.power.vset - 5)) down)) ∧
    (s.power.mode ≠ .guard → v = 0x5A3C96E1 → exec (.tmpZeroWrite v) s = .next (zeroiseErase 0 s)) ∧
    (v ≠ 0x5A3C96E1 → exec (.tmpZeroWrite v) s = .next s) ∧
    (s.tamper.erasing = true → sweepsDone s = true → (s.aud 0).run = false → (s.aud 1).run = false →
      exec .alarmEnter s = .next (if s.power.lcs = .retired then { s with tamper := { s.tamper with erasing := false } }
        else (logEvent 0x06 still.tamper.lastCond 2 0 still).setMode .alarm)) ∧
    (s.tamper.learn = some k →
      exec (.learnDone means unstable) s = .next (if r.1 then doneSlot k [] learnt else failSlot k 1 learnt)) ∧
    (s.power.mode = .guard →
      exec (.guardSample cut short) s = .next (watch short 0xD (watch cut 0xC g)))) ∧
  (∀ (s : State) (e : LogEv) (rest : List LogEv),
    let u := { s with log := { s.log with queue := s.log.queue.erase (firstEv e rest) } }
    let w := { s with log := { s.log with guardQ := rest } }
    let t := writeEntry (firstEv e rest) u
    let open_ (x : State) : Prop := s.power.mode ≠ .guard ∧ s.domReady 4 = true ∧ x.log.full = false ∧ regionReadOnly x 12 = false
    (s.power.mode ≠ .guard → s.log.queue = e :: rest → s.domReady 4 = false →
      exec .evidenceEntryWrite s = .next (wakeDomain 4 0x01 0x7A s)) ∧
    (open_ u → s.log.guardQ = [] → s.log.queue = e :: rest → t.log.count ≠ 4095 → exec .evidenceEntryWrite s = .next t) ∧
    (open_ w → s.log.guardQ = e :: rest → (writeEntry e w).log.count ≠ 4095 → exec .evidenceEntryWrite s = .next (writeEntry e w)) ∧
    (s.power.mode ≠ .guard → s.domReady 4 = true → s.log.guardQ = [] → s.log.queue = e :: rest → s.log.full = true →
      exec .evidenceEntryWrite s = .next (vbatInc 13 { u with log := { u.log with full := true } }))) ∧
  (∀ (s t : State) (r : Req) (role k : Nat) (code : Fin 17) (n : Fin 6) (v : Bytes),
    let row := 0x7011 + code.val
    let stored := logConfig 1 row 2 (t.setEnt row 2 v)
    let b := begun t 0x7070 1 role .none k
    let rb := begun t 0x7103 1 role .none k
    let sb := begun t 0x7102 2 role .none k
    let rolled := { rb with log := { rb.log with count := 0, full := false, baseSeq := rb.log.seq, baseHead := some (logHead rb) } }
    let signed := idkSign (logBody sb) sb
    let acked := logConfig 6 (0x7060 + n.val) 4 t
    (Granted s (reqWith r [0x5A]) 0x7000 6 t role [0x5A] →
      Answers (.zeroise r) s (reqWith r [0x5A]) 0x7000 6 t [] (zeroiseErase (credOfSession t) t)) ∧
    (Granted s r row 2 t role v → tamperWritable t role = true → responseRange (code.val + 1) t v = true → beNat v = 0 →
      Answers (.conditionResponseWrite r code) s r row 2 t [] stored) ∧
    (Granted s r row 2 t role v → tamperWritable t role = true → beNat v = 1 → (stored.cond (code.val + 1)).asserted = true →
      Answers (.conditionResponseWrite r code) s r row 2 t []
        (tamperErase (code.val + 1) (logEvent 0x02 (code.val + 1) 2 (stored.cond (code.val + 1)).sensor stored))) ∧
    (Granted s (reqWith r [1]) 0x7070 1 t role [1] → tamperWritable t role = true → CanBegin t 0x7070 1 k →
      Answers (.learn r) s (reqWith r [1]) 0x7070 1 t (handle t k) (logConfig 4 0x7070 1 { b with tamper := { b.tamper with learn := some k } })) ∧
    (Granted s (reqWith r [1]) (0x7060 + n.val) 4 t role [1] → tamperWritable t role = true →
      Answers (.alarmOutputAck r n) s (reqWith r [1]) (0x7060 + n.val) 4 t [] { acked with tamper := { acked.tamper with
        alLatch := Tab.drop acked.tamper.alLatch n.val
        alAck := Tab.put 0 acked.tamper.alAck n.val 1 } }) ∧
    (Granted s r 0x7103 1 t role v → inCeremony t role = true → rollRange t v = true → CanBegin t 0x7103 1 k → regionReadOnly rb 12 = false →
      Answers (.logRoll r) s r 0x7103 1 t (handle t k)
        (doneSlot k [] (writeEntry ⟨0x09, 0, 0, rtcSec rolled, rtcFrac rolled, rolled.dt, rb.log.count⟩ rolled))) ∧
    (Granted s (reqWith r [1]) 0x7102 2 t role [1] → CanBegin t 0x7102 2 k → sb.power.lcs ≠ .retired → sb.key.rootSt ≠ 5 → sb.key.root ≠ [] →
      Answers (.logStatement r) s (reqWith r [1]) 0x7102 2 t (handle t k) (doneSlot k (logBody sb ++ signed.1) signed.2)) ∧
    (Granted s r 0x7000 8 t role v →
      Answers (.rtcSet r) s r 0x7000 8 t [] (setRtc (beNat v * 32768) (logEvent 0x0A 5 0 (rtcSec t) t))))

/-- An access is judged: granted, it is performed where its target's domain is on, wakes the domain and waits, or is
answered unavailable; refused, it is recorded in the table of its die and answered without data. A piece of a DMA
within one granule is judged alike. An enabled window has no error; one that breaks a rule is not enabled and shows
which. A locked window keeps its lock (a command of the very nanosecond of the lock still meets it unlocked, log 4),
and DEFEN is locked. A window entry that is granted is stored. -/
def Obligations.FabricAccesses : Prop :=
  (∀ (s : State) (a : FabAccess),
    let ini := a.ini.toNat
    let addr := a.addr.toNat
    let kind := if a.fetch then 2 else if a.write then 1 else 0
    let m := refusalMarks s ini addr (decide (kind = 1))
    let c := judge s ini addr kind
    let g := judged ini addr kind m.1 m.2.1 m.2.2 s
    let acc : StalledAcc := ⟨ini, addr, decide (kind = 1), a.len, a.data⟩
    let refused : Bool := decide (kind = 1) || ! (decide (c = cUNMAPPED) || decide (ini = 0x7F))
    let dom := accDomain s addr
    (issued ini = true → c = 0 → s.domReady dom = true → exec (.fabricAccess a) s = .next (performAcc acc s)) ∧
    (issued ini = true → c = 0 → s.domReady dom = false → (s.dom dom).st = .retry ∨ (s.dom dom).st = .fenced →
      exec (.fabricAccess a) s = .next (s.emit (.bus ini addr tDOMAIN_UNAVAILABLE []))) ∧
    (issued ini = true → c = 0 → s.domReady dom = false → (s.dom dom).st ≠ .retry → (s.dom dom).st ≠ .fenced →
      (wakeFor dom ini s).domReady dom = false → exec (.fabricAccess a) s =
        .next { wakeFor dom ini s with act := { (wakeFor dom ini s).act with stall := (wakeFor dom ini s).act.stall ++ [acc] } }) ∧
    (issued ini = true → c ≠ 0 → exec (.fabricAccess a) s = .next (g.2.emit (.bus ini addr c (if refused then [] else zeros a.len)))) ∧
    (c ≠ 0 → g.2.unit = s.unit ∧ g.2.nvm = s.nvm ∧ g.2.key = s.key ∧ (g.2.actTab (judgeDie (addr / 2 ^ 32))).valid = true)) ∧
  (∀ (s : State) (ini : Byte) (addr : BitVec 40) (write : Bool) (done : Word) (len : Fin 65) (data : Bytes),
    let n := if write then data.length else len.val
    let c := judge s ini.toNat addr.toNat (b2n write)
    let g := judged ini.toNat addr.toNat (b2n write) false false done.toNat s
    (1 ≤ n → addr.toNat % 64 + n ≤ 64 → (issued ini.toNat = true ∧ ini.toNat < 0x60) ∨ ini = 0x78 → c = 0 →
      exec (.dmaPiece ini addr write done len data) s = .next (grantAcc ⟨ini.toNat, addr.toNat, write, n, data⟩ s)) ∧
    (1 ≤ n → addr.toNat % 64 + n ≤ 64 → (issued ini.toNat = true ∧ ini.toNat < 0x60) ∨ ini = 0x78 → c ≠ 0 →
      exec (.dmaPiece ini addr write done len data) s = .next (g.2.emit (.bus ini.toNat addr.toNat c [])))) ∧
  (∀ (s : State) (die : Fin 4) (n : Fin 64),
    let w := (s.actTab die.val).win n.val
    let err := enableErr die.val w
    (winLocked s w = false → w.en = false →
      exec (.windowEnable die n) s = .next (s.setWin die.val n.val { w with en := decide (err = 0), err := err })) ∧
    (winLocked s w = true ∨ w.en = true → exec (.windowEnable die n) s = .next s) ∧
    (w.lock = false → exec (.windowLock die n) s = .next (s.setWin die.val n.val { w with lock := true, lockAt := some s.dt })) ∧
    (w.lock = true → exec (.windowLock die n) s = .next s) ∧
    exec (.defenLock die) s = .next (s.setActTab die.val { s.actTab die.val with deflock := true })) ∧
  (∀ (s t : State) (r : Req) (role : Nat) (v : Bytes),
    let idx := r.index.toNat
    let sub := r.sub.toNat
    Granted s r idx sub t role v → winEntRange idx sub t v = true →
    (0x7810 ≤ idx → idx ≤ 0x781F → Answers (.accessWindowEntryWrite r) s r idx sub t [] (applyHostWindow (idx - 0x7810) (storeEnt idx sub v t))) ∧
    (0x7830 ≤ idx → idx ≤ 0x783F → Answers (.accessWindowEntryWrite r) s r idx sub t [] (storeEnt idx sub v t)))

/-- Whatever its initiator, privileged or not, and whatever its kind, an access to a region that is none of those of R30
is judged UNMAPPED; it is answered UNMAPPED, a read and a fetch with zeros, and what a write would store is stored
nowhere. -/
def Obligations.UnmappedRegions : Prop :=
  (∀ (s : State) (ini addr kind : Nat), isRegion (addr / 2 ^ 32) = false → judge s ini addr kind = cUNMAPPED) ∧
  (∀ (s : State) (a : FabAccess), isRegion (a.addr.toNat / 2 ^ 32) = false → issued a.ini.toNat = true →
    ∃ t, exec (.fabricAccess a) s = .next t ∧
      t.out.head? = some (.bus a.ini.toNat a.addr.toNat cUNMAPPED (if a.write ∧ ¬ a.fetch then [] else zeros a.len)) ∧
      t.unit = s.unit ∧ t.nvm = s.nvm ∧ t.regs = s.regs ∧ t.key = s.key ∧ t.pk = s.pk ∧ t.img = s.img ∧ t.port = s.port ∧ t.act.stall = s.act.stall)

/-- A domain that has been idle for its time enters its sequence to OFF, or is refused and times again; after its sequence
it is OFF. A wake switches it on, and READY completes the accesses that waited for it; one that is not READY in its
time is tried again after its back-off. DOZE enters DEEP after its timer unless something refuses. In DEEP, and on the
way to it, a wake source ends it: a wake command, an MS address match with the source enabled, a pin's edge, the
clock; up to the point of no return of the entry it ends the entry. The holds keep their domains on. A fall of a power
input takes the device to GUARD. -/
def Obligations.PowerDomains : Prop :=
  (∀ (s : State) (d due src idx : Nat) (late : Bool),
    let v := s.dom d
    let a := s.at due
    let back := s.at (v.since + aclk (if v.attempt ≤ 1 then 1600 else if v.attempt = 2 then 3200 else 6400))
    (v.idleDue = some due → hasTimer d = true → v.st = .ready → domRefuser a d = none →
      exec (.domainIdleTimeout d) s = .next (a.setDom d { v with st := .entry, since := a.dt, idleDue := none })) ∧
    (∀ f, v.idleDue = some due → hasTimer d = true → v.st = .ready → domRefuser a d = some f →
      exec (.domainIdleTimeout d) s = .next (rearmIdle d (recordRefusal d f 0 0 a))) ∧
    (d ≠ 0x41 → v.st = .entry ∨ v.st = .down → exec (.powerDownComplete d) s = .next (reachOff d (s.at (v.since + 500)))) ∧
    (s.power.deepFrom = some due → exec (.powerDownComplete 0x41) s = .next (deepSteps (s.at (due + aclk 144)))) ∧
    (d ≤ 32 → 1 ≤ src → src ≤ 0x0C → exec (.powerUp d src idx) s = .next (wakeDomain d src idx s)) ∧
    (d ≤ 32 → 1 ≤ src → src ≤ 0x0C → v.st = .off →
      exec (.powerUp d src idx) s = .next (recordWake src idx d 0 0 (switchOn d src idx false s.dt s))) ∧
    (v.st = .up → (hasTimer d = true → s.rst.trngFailed = false) → s.act.stall = [] → s.dict.stalled = [] →
      exec (.domainReady d late) s = .next (domainReadyNow d late s) ∧ ((domainReadyNow d late s).dom d).st = .ready) ∧
    (v.st = .up → exec (.readyTimeout d) s = .next (failPowerUp d (s.at (v.since + aclk (if hasPll d then 4800 else 1600))))) ∧
    (v.st = .retry → exec (.retryBackoff d) s =
      .next (recordWake 0x0B v.attempt d 0 0 (switchOn d 0x0B v.attempt false back.dt back)))) ∧
  (∀ (s : State) (src idx from_ : Nat) (failed : BitVec 33),
    let dozed := s.at (s.power.dozeSince + ms (s.cfg 0x8000 4))
    (s.power.mode = .doze → s.cfg 0x8000 4 ≠ 0 → s.power.deepFrom = none → deepRefuser dozed = none →
      exec .deepTimer s = .next { dozed with power := { dozed.power with deepFrom := some dozed.dt } }) ∧
    (∀ f, s.power.mode = .doze → s.cfg 0x8000 4 ≠ 0 → s.power.deepFrom = none → deepRefuser dozed = some f →
      exec .deepTimer s = .next { recordRefusal 0x41 f 0 0 dozed with
        power := { (recordRefusal 0x41 f 0 0 dozed).power with dozeSince := (recordRefusal 0x41 f 0 0 dozed).dt } }) ∧
    (s.power.mode = .deep → deepSource s src idx = true →
      exec (.deepWake src ⟨idx, failed⟩) s = .next (deepWakeNow src idx failed.toNat none s)) ∧
    (s.power.mode ≠ .deep → s.power.deepFrom = some from_ → deepSource s src idx = true → s.dt - from_ < aclk 80 →
      exec (.deepWake src ⟨idx, failed⟩) s = .next (deepAbort s)) ∧
    (s.power.mode ≠ .deep → s.power.deepFrom = some from_ → deepSource s src idx = true → aclk 80 ≤ s.dt - from_ →
      exec (.deepWake src ⟨idx, failed⟩) s = .next (deepWakeNow src idx failed.toNat (some from_) s)) ∧
    (s.power.mode = .deep → deepSource s src idx = false → exec (.deepWake src ⟨idx, failed⟩) s = .next s) ∧
    (s.power.mode ≠ .deep → s.power.deepFrom = none → exec (.deepWake src ⟨idx, failed⟩) s = .next s)) ∧
  (∀ (s : State) (port : Fin 2),
    (s.power.mode = .deep → s.cfg (0x2041 + port.val) 3 = 1 →
      exec (.msAddressMatch port false) s = .next (deepWakeNow 0x06 port.val 0 none s)) ∧
    (s.power.deepFrom.isSome = true → s.cfg (0x2041 + port.val) 3 = 1 →
      exec (.msAddressMatch port false) s = .next (deepWake 0x06 port.val 0 s)) ∧
    (s.power.mode = .deep ∨ s.power.deepFrom.isSome = true → s.cfg (0x2041 + port.val) 3 ≠ 1 →
      exec (.msAddressMatch port false) s =
        .next (sendReply ⟨if port.val = 0 then .ms0 else .ms1, 0, 0, opREAD, rMODE, 0, 0, 0, 0, 0, [], []⟩ s)) ∧
    exec (.msAddressMatch port true) s = .next s) ∧
  (∀ (s : State) (level : Bool) (pin : Fin 6),
    let taken : PowerState := { s.power with gpIn := setBit s.power.gpIn pin.val level, gpEdge := s.power.gpEdge ||| 2 ^ pin.val }
    let edge := { s with power := taken }.noteSet (regKey 2 (pwrOff + 0x40)) (2 ^ pin.val)
    (s.power.mode ≠ .guard → bit s.power.gpIn pin.val ≠ level →
      ¬ (bit s.power.gpOe pin.val = true ∧ bit s.power.gpOut pin.val = false ∧ level = true) → s.power.mode ≠ .deep → s.power.deepFrom = none →
      exec (.gpEdge pin level) s = .next edge) ∧
    (s.power.mode ≠ .guard → bit s.power.gpIn pin.val ≠ level →
      ¬ (bit s.power.gpOe pin.val = true ∧ bit s.power.gpOut pin.val = false ∧ level = true) →
      exec (.gpEdge pin level) s = .next (deepWake 0x07 pin.val 0 edge)) ∧
    (bit s.power.gpOe pin.val = true → bit s.power.gpOut pin.val = false → exec (.gpEdge pin true) s = .next s)) ∧
  (∀ (s : State),
    (s.power.mode = .deep → bit (s.cfg 0x8000 5) 6 = true → s.cfg 0x8000 8 ≠ 0 → s.cfg 0x8000 8 ≤ rtcSec s →
      exec .rtcWake s = .next (deepWakeNow 0x08 0 0 none s)) ∧
    (s.cfg 0x8000 8 ≠ 0 → s.cfg 0x8000 8 ≤ rtcSec s → exec .rtcWake s = .next (deepWake 0x08 0 0 s)) ∧
    (rtcSec s < s.cfg 0x8000 8 → exec .rtcWake s = .next (deepWake 0x08 0 0 (setRtc (s.cfg 0x8000 8 * 32768) s)))) ∧
  (∀ (s : State) (hold : Bool),
    exec (.pwrHoldQuads false) s = .next { s with power := { s.power with holdQuads := false } } ∧
    exec (.pwrHoldQuads true) s = .next (wakeAll quadDoms 0x0C 0 { s with power := { s.power with holdQuads := true } }) ∧
    exec (.pwrHoldPk false) s = .next { s with power := { s.power with holdPk := false } } ∧
    exec (.pwrHoldPk true) s = .next (wakeAll [9, 10] 0x0C 1 { s with power := { s.power with holdPk := true } }) ∧
    exec (.pwrHoldDeep hold) s = .next { s with power := { s.power with holdDeep := hold } }) ∧
  (∀ (s : State) (main : Bool),
    let fall := { s with pins := if main then { s.pins with pgMain := false } else { s.pins with pgIo := false } }
    (s.power.mode ≠ .guard → exec (.powerGoodFall main) s = .next (enterGuard fall)) ∧
    (s.power.mode = .guard → exec (.powerGoodFall main) s = .next fall))

/-- A request for a mode that the life-cycle state, the role and the present mode allow runs as a long operation: CEREMONY
starts its entry ceremony, a return from CEREMONY leaves it, and every other request begins a configuration change to
its mode; a request for the present mode is answered OK at once. RETIRE zeroises, burns the life-cycle state RETIRED
and resets. Arming allows an unlock for 60 s, and its expiry takes that back. -/
def Obligations.ModeRequests : Prop :=
  (∀ (s t : State) (r : Req) (role k : Nat),
    let q (n : Nat) : Req := reqWith r [BitVec.ofNat 8 n]
    let b := begun t 0x1100 5 role .none k
    (Heard s (q 0x04) 2 t role → modeAllowed t.power.lcs .service = true → isMs r.tr = false → requestRight t role 0x04 = true →
      requestMode t ≠ .service → requestFrom t 0x04 = true → changePending t = false → CanBegin t 0x1100 5 k →
      exec (.modeRequestService r) s = .next (replyIn t (q 0x04) 2 0 (handle t k) (startFlip 4 (some k) b))) ∧
    (Heard s (q 0x04) 2 t role → modeAllowed t.power.lcs .service = true → isMs r.tr = false → requestRight t role 0x04 = true → requestMode t = .service →
      exec (.modeRequestService r) s = .next (replyIn t (q 0x04) 2 0 [] t)) ∧
    (Heard s (q 0x02) 2 t role → modeAllowed t.power.lcs .bypass = true → isMs r.tr = false → requestRight t role 0x02 = true →
      requestMode t ≠ .bypass → requestFrom t 0x02 = true → changePending t = false → CanBegin t 0x1100 5 k →
      exec (.modeRequestBypass r) s = .next (replyIn t (q 0x02) 2 0 (handle t k) (startFlip 2 (some k) b))) ∧
    (Heard s (q 0x02) 2 t role → modeAllowed t.power.lcs .bypass = true → isMs r.tr = false → requestRight t role 0x02 = true → requestMode t = .bypass →
      exec (.modeRequestBypass r) s = .next (replyIn t (q 0x02) 2 0 [] t)) ∧
    (Heard s (q 0x09) 2 t role → modeAllowed t.power.lcs .update = true → isMs r.tr = false → requestRight t role 0x09 = true →
      requestMode t ≠ .update → requestFrom t 0x09 = true → changePending t = false → CanBegin t 0x1100 5 k →
      exec (.modeRequestUpdate r) s = .next (replyIn t (q 0x09) 2 0 (handle t k) (startFlip 9 (some k) b))) ∧
    (Heard s (q 0x09) 2 t role → modeAllowed t.power.lcs .update = true → isMs r.tr = false → requestRight t role 0x09 = true → requestMode t = .update →
      exec (.modeRequestUpdate r) s = .next (replyIn t (q 0x09) 2 0 [] t)) ∧
    (Heard s (q 0x03) 2 t role → modeAllowed t.power.lcs .ceremony = true → isMs r.tr = false → requestRight t role 0x03 = true →
      requestMode t ≠ .ceremony → requestFrom t 0x03 = true → changePending t = false → CanBegin t 0x1100 5 k →
      exec (.modeRequestCeremony r) s = .next (replyIn t (q 0x03) 2 0 (handle t k) (startEntryCeremony k role b))) ∧
    (Heard s (q 0x03) 2 t role → modeAllowed t.power.lcs .ceremony = true → isMs r.tr = false → requestRight t role 0x03 = true → requestMode t = .ceremony →
      exec (.modeRequestCeremony r) s = .next (replyIn t (q 0x03) 2 0 [] t)) ∧
    (Heard s (q 0x0F) 2 t role → modeAllowed t.power.lcs (Mode.ofCode t.power.retMode) = true → isMs r.tr = false → requestRight t role 0x0F = true →
      requestFrom t 0x0F = true → changePending t = false → CanBegin t 0x1100 5 k → requestMode b = .ceremony →
      exec (.modeRequestReturn r) s = .next (replyIn t (q 0x0F) 2 0 (handle t k) (cerLeave (some k) b))) ∧
    (Heard s (q 0x0F) 2 t role → modeAllowed t.power.lcs (Mode.ofCode t.power.retMode) = true → isMs r.tr = false → requestRight t role 0x0F = true →
      requestFrom t 0x0F = true → changePending t = false → CanBegin t 0x1100 5 k → requestMode b ≠ .ceremony →
      exec (.modeRequestReturn r) s = .next (replyIn t (q 0x0F) 2 0 (handle t k) (startFlip (Mode.ofCode t.power.retMode).code (some k) b)))) ∧
  (∀ (s t : State) (r : Req) (role k : Nat),
    let q := reqWith r [1]
    let rb := begun t 0x1100 7 role .retire k
    (Granted s q 0x1100 7 t role [1] → retireLcs t role = true → retireMode t role = true → CanBegin t 0x1100 7 k →
      exec (.retire r) s = .next (replyIn t (asking q 0x1100 7) 2 0 (handle t k)
        (systemResetNow 0x08 0 (burnLcs .retired (finishSweeps (zeroiseErase (credOfSession rb) rb)))))) ∧
    (Granted s q 0x1100 8 t role [1] → exec (.debugUnlockArm r) s = .next (replyIn t (asking q 0x1100 8) 2 0 []
      { t with tap := { t.tap with armedUntil := some (t.dt + sec 60), nonceDrawn := false } }))) ∧
  (∀ (s : State) (end_ : Nat), s.tap.armedUntil = some end_ → exec .debugArmExpiry s =
    .next { s.at end_ with tap := { (s.at end_).tap with armedUntil := none, nonceDrawn := false } })

/-- Power-on and the PORST_N pin reset the device with source 1, or 2 out of GUARD; SYSRST_N with source 3 and holds until
it rises 16 ACLK after; requests with their key or a granted entry reset the system with source 4 and the cores with
source 0x0A; a die in core reset is restored once KD has come back. The watchdog counts from its enable and its kicks,
and expires into a core reset. In BRINGUP the options load once, domains are released in order, the key die's steps
run, the self-test fences what failed, and epoch 1 forms. A second failure of the TRNG within 1 s fails it. A block
that is idle is reset, and one that is not is refused. -/
def Obligations.Resets : Prop :=
  (∀ (s : State) (key v : BitVec 16) (die : Fin 2),
    let pw := powerOnReset (if s.power.mode = .guard then 0x02 else 0x01) s
    let asserted := { s with pins := { s.pins with porst := false } }
    let pr := powerOnReset 0x01 asserted
    let sys := systemReset 0x03 0 s
    let risen := { s with dt := s.dt + aclk 16, pins := { s.pins with sysrst := true } }
    let back := { s with rst := { s.rst with coreBusy := setBit s.rst.coreBusy (die.val + 1) false } }
    (exec .powerOn s = .next { pw with pins := { pw.pins with pgMain := true, pgIo := true, porst := true } }) ∧
    (s.power.mode = .guard → exec .porstNAssert s = .next asserted) ∧
    (s.power.mode ≠ .guard → exec .porstNAssert s = .next { pr with rst := { pr.rst with porstHeld := true } }) ∧
    (s.power.mode ≠ .guard → exec .sysrstPin s =
      .next { sys with pins := { sys.pins with sysrst := false }, rst := { sys.rst with sysrstHeld := true } }) ∧
    (s.rst.sysrstHeld = true → exec .sysrstNRise s = .next { risen with rst := { risen.rst with sysrstHeld := false } }) ∧
    exec (.rstReqSys 0x5253) s = .next (systemReset 0x04 0 s) ∧
    (key ≠ 0x5253 → exec (.rstReqSys key) s = .next s ∧ exec (.rstReqCoreKd key) s = .next s) ∧
    exec (.rstReqCoreKd 0x5253) s = .next (coreReset 1 0x0A s) ∧
    exec (.rstReqCoreCd0 0x5253) s = .next (coreReset 2 0x0A s) ∧
    exec (.rstReqCoreCd1 0x5253) s = .next (coreReset 4 0x0A s) ∧
    (key ≠ 0x5253 → exec (.rstReqCoreCd0 key) s = .next s ∧ exec (.rstReqCoreCd1 key) s = .next s) ∧
    (bit s.rst.coreBusy (die.val + 1) = true → bit s.rst.coreBusy 0 = false →
      exec (.computeDieRestore die) s = .next (restoreCd die.val back)) ∧
    (s.rst.wdtEn = false → s.rst.recovery = false → exec .watchdogEnable s =
      .next { s with rst := { s.rst with wdtEn := true, wdtFrom := s.dt } }) ∧
    (s.rst.wdtEn = true → v = 0x5AA5 → exec (.watchdogKick v) s = .next { s with rst := { s.rst with wdtFrom := s.dt } }) ∧
    (s.rst.wdtEn = false ∨ v ≠ 0x5AA5 → exec (.watchdogKick v) s = .next s) ∧
    (s.rst.wdtEn = true →
      exec .watchdogExpiry s = .next (coreReset 1 0x0B ((s.at (s.rst.wdtFrom + ms s.rst.wdto)).bump 0xB890 0x0A)))) ∧
  (∀ (s : State) (marginal : List Nat) (res : KeyDieResult) (lanes : BitVec 68) (pk : BitVec 24) (clusters : BitVec 128) (d : Nat) (c : Nat × Cond),
    let later := s.at (releaseAt s d)
    let tested := { s with dt := s.dt + ms 20, rst := { s.rst with postLanes := lanes.toNat, postPk := pk.toNat, postCluster := beBytes clusters.toNat 16 } }
    let a := (bitsSet 4 (lanes.toNat / 2 ^ 64)).foldl (fun w k => failSpareUnit k w) tested
    let b := (bitsSet 64 lanes.toNat).foldl (fun w n => fenceLaneUnit n 2 w) a
    let e := (bitsSet 24 pk.toNat).foldl (fun w n => fencePkUnit n 2 w) b
    let f := (List.range 16).foldl (fun w q =>
      let n := (byteAt (beBytes clusters.toNat 16) q).toNat % 32
      if n = 0 then w else failCluster q n w) e
    let p := portsConfigure (loadStored f)
    let u := keyDieSteps res s
    let again : Bool := match s.rst.trngFailAt with | some t => decide (s.dt < t + sec 1) | none => false
    (s.power.mode = .bringup → s.rst.phase = .options → s.domReady 4 = true → s.rst.sysrstHeld = false → s.rst.porstHeld = false →
      s.tamper.conds.find? (fun x => x.2.asserted && respE s x.1) = none →
      exec (.optionLoad marginal) s = .next (loadOptions marginal s)) ∧
    (s.power.mode = .bringup → s.rst.phase = .options → s.domReady 4 = true → s.rst.sysrstHeld = false → s.rst.porstHeld = false →
      s.tamper.conds.find? (fun x => x.2.asserted && respE s x.1) = some c → s.power.lcs ≠ .retired →
      exec (.optionLoad marginal) s = .next (alarmHold c.1 s)) ∧
    (s.power.mode = .bringup → s.rst.phase = .options → s.domReady 4 = true → s.rst.sysrstHeld = false → s.rst.porstHeld = false →
      s.tamper.conds.find? (fun x => x.2.asserted && respE s x.1) = some c → s.power.lcs = .retired →
      exec (.optionLoad marginal) s = .next (loadOptions marginal (eraseAtOptions c.1 s))) ∧
    (s.power.mode = .bringup → s.rst.phase ≠ .halt → s.rst.sysrstHeld = false → s.rst.porstHeld = false → nextRelease s = none →
      exec .domainReleaseNext s = .next (endRelease s)) ∧
    (s.power.mode = .bringup → s.rst.phase ≠ .halt → s.rst.sysrstHeld = false → s.rst.porstHeld = false →
      nextRelease s = some d → (s.dom d).st = .off → d = 1 ∨ d = 4 ∨ s.rst.phase ≠ .options →
      exec .domainReleaseNext s = .next (later.setDom d { s.dom d with st := .up, since := later.dt, wokenAt := later.dt })) ∧
    (s.power.mode = .bringup → s.rst.kdDone = false → s.rst.phase = .keydie → s.power.lcs ≠ .retired → s.domReady 3 = true →
      exec (.keyDieBringup res) s = .next (if u.rst.phase = .release ∨ u.rst.phase = .keydie then keyDieDone u else u)) ∧
    (s.power.mode = .bringup → s.rst.phase = .post →
      exec (.postSelftest lanes pk clusters) s = .next (formEpoch1 { p with rst := { p.rst with phase := .epoch } })) ∧
    (exec .trngTestFail s = .next { s with rst := { s.rst with
      trngFailAt := some s.dt
      trngFailed := s.rst.trngFailed || again
      kdTest := if again then s.rst.kdTest ||| 16 else s.rst.kdTest } })) ∧
  (∀ (s t : State) (r : Req) (role k : Nat) (q : Fin 16) (e : Fin 24) (p : Fin 32) (v : Bytes),
    let named (kind idx : Nat) : State := { s with rst := { s.rst with blkKind := kind, blkIndex := idx } }
    let clear (x : State) : State := { x with rst := { x.rst with blkRefused := false } }
    let ask (kind idx : Nat) : Req := reqWith r [byte kind, byte idx]
    let b := begun t 0x8800 0x0A role .none k
    ((named 1 q.val).domReady (11 + q.val) = true ∧ quadIdle (named 1 q.val) q.val = true →
      exec (.blockResetQuad none q) s = .next ((quadBlockReset q.val (clear (named 1 q.val))).bump 0xB890 6)) ∧
    (¬ ((named 1 q.val).domReady (11 + q.val) = true ∧ quadIdle (named 1 q.val) q.val = true) →
      exec (.blockResetQuad none q) s = .next (State.bump { named 1 q.val with rst := { (named 1 q.val).rst with blkRefused := true } } 0xB890 7)) ∧
    (Granted s (ask 1 q.val) 0x8800 0x0A t role [byte 1, byte q.val] → CanBegin t 0x8800 0x0A k → b.domReady (11 + q.val) = true ∧ quadIdle b q.val = true →
      exec (.blockResetQuad (some r) q) s = .next (replyIn t (asking (ask 1 q.val) 0x8800 0x0A) 2 0 (handle t k)
        (doneSlot k [] ((quadBlockReset q.val (clear b)).bump 0xB890 6)))) ∧
    ((named 2 e.val).domReady (9 + e.val / 12) = true ∧ pkUnitIdle (named 2 e.val) e.val = true →
      exec (.blockResetPk none e) s = .next ((blockResetPk e.val (clear (named 2 e.val))).bump 0xB890 6)) ∧
    (¬ ((named 2 e.val).domReady (9 + e.val / 12) = true ∧ pkUnitIdle (named 2 e.val) e.val = true) →
      exec (.blockResetPk none e) s = .next (State.bump { named 2 e.val with rst := { (named 2 e.val).rst with blkRefused := true } } 0xB890 7)) ∧
    (Granted s (ask 2 e.val) 0x8800 0x0A t role [byte 2, byte e.val] → CanBegin t 0x8800 0x0A k → b.domReady (9 + e.val / 12) = true ∧ pkUnitIdle b e.val = true →
      exec (.blockResetPk (some r) e) s = .next (replyIn t (asking (ask 2 e.val) 0x8800 0x0A) 2 0 (handle t k)
        (doneSlot k [] ((blockResetPk e.val (clear b)).bump 0xB890 6)))) ∧
    (portIdle (named 3 p.val) p.val = true →
      exec (.blockResetPort none p) s = .next ((blockResetPort p.val (clear (named 3 p.val))).bump 0xB890 6)) ∧
    (¬ (portIdle (named 3 p.val) p.val = true) →
      exec (.blockResetPort none p) s = .next (State.bump { named 3 p.val with rst := { (named 3 p.val).rst with blkRefused := true } } 0xB890 7)) ∧
    (Granted s (ask 3 p.val) 0x8800 0x0A t role [byte 3, byte p.val] → CanBegin t 0x8800 0x0A k → portIdle b p.val = true →
      exec (.blockResetPort (some r) p) s = .next (replyIn t (asking (ask 3 p.val) 0x8800 0x0A) 2 0 (handle t k)
        (doneSlot k [] ((blockResetPort p.val (clear b)).bump 0xB890 6)))) ∧
    (Granted s (reqWith r [1]) 0x8800 6 t role [1] → CanBegin t 0x8800 6 k →
      exec (.systemResetRequest r) s = .next (replyIn t (asking (reqWith r [1]) 0x8800 6) 2 0 (handle t k)
        (systemReset 0x04 0 (begun t 0x8800 6 role .reset k)))) ∧
    (Granted s r 0x8800 7 t role v → CanBegin t 0x8800 7 k → exec (.coreResetRequest r) s = .next (replyIn t (asking r 0x8800 7) 2 0 (handle t k)
      (coreReset (beNat v) 0x0A (doneSlot k [] (begun t 0x8800 7 role .reset k))))))

/-- IDCODE, BYPASS and SAMPLE/PRELOAD are always open, and EXTEST and SYSRESET once the port is unlocked; a locked
instruction selects BYPASS. While armed, CHAL draws a nonce into its challenge, and UNLOCK takes the arming and, with
a good signature over it, unlocks the port, in OWNED after an erase and a system reset, in the other states but
RETIRED with the unlock measured into MR7. An unlocked FABRIC access is made with initiator 0x7F. -/
def Obligations.TestAccessPort : Prop :=
  ∀ (s : State) (v sig : Bytes) (addr : BitVec 40) (write : Bool) (w : Word),
    let sel (code : Nat) (dr : Bytes) : State := { s with tap := { s.tap with ir := code, dr := dr } }
    let shut := { s with tap := { s.tap with ir := 0xFF, dr := [0] } }
    let n := s.draw 32
    let c := n.1 ++ serial s ++ [byte s.power.lcs.code] ++ zeros 7
    let x := sel 0x11 sig
    let used := { x with tap := { x.tap with armedUntil := none, nonceDrawn := false } }
    let good : Bool := s.tap.nonceDrawn && decide (sig.length = 96) &&
      p384.ecdsaVerify debugKey (sha384 (ascii "SV6400 DEBUG" ++ s.tap.chal)) (beNat (sig.take 48)) (beNat (sig.drop 48))
    let erased := systemReset 0x07 0 (finishSweeps (debugErase used))
    let opened := { used with tap := { used.tap with unlocked := true } }
    let a := sel 0x20 (beBytes w.toNat 4)
    let u := fabricAccess 0x7F addr.toNat (b2n write) 4 (beBytes w.toNat 4) a
    let read : Bytes := match u.out with
      | .bus _ _ _ d :: _ => if u.out.length = a.out.length then u.tap.dr else fit d 4
      | _ => u.tap.dr
    (s.tap.unlocked = true → exec (.tapExtest v) s = .next { sel 0x00 v with tap := { (sel 0x00 v).tap with boundary := v } }) ∧
    (s.tap.unlocked = false → exec (.tapExtest v) s = .next shut) ∧
    exec .tapIdcode s = .next (sel 0x01 (beBytes ((s.secured 101 % 256 - 0x30) % 16 * 2 ^ 28 + 0x06400569) 4)) ∧
    (exec (.tapSamplePreload v) s = .next { sel 0x02 v with tap := { (sel 0x02 v).tap with boundary := v } }) ∧
    (tapArmed s = true → exec .tapChal s = .next { n.2 with tap := { n.2.tap with ir := 0x10, dr := c, chal := c, nonceDrawn := true } }) ∧
    (tapArmed s = false → exec .tapChal s = .next shut ∧ exec (.tapUnlock sig) s = .next shut) ∧
    (tapArmed s = true → exec (.tapUnlock sig) s = .next (
      if ¬ good then used.bump 0xB890 0x0B
      else if s.power.lcs = .owned then { erased with tap := { erased.tap with unlocked := true } }
      else if s.power.lcs = .retired then used
      else mrMeasure 7 10 0 (sha384 ([byte s.power.lcs.code] ++ serial s)) opened)) ∧
    (s.tap.unlocked = true → exec (.tapFabric addr write w) s = .next (if write then u else { u with tap := { u.tap with dr := read } })) ∧
    (s.tap.unlocked = false → exec (.tapFabric addr write w) s = .next shut) ∧
    (s.tap.unlocked = true → exec .tapSysreset s = .next (systemReset 0x09 0 (sel 0x21 []))) ∧
    (s.tap.unlocked = false → exec .tapSysreset s = .next shut) ∧
    exec .tapBypass s = .next (sel 0xFF [0])

/-- A command of an interface that is not busy, in a powered domain, marks it busy and runs at once where the controller
is free, and waits by its rank otherwise; the end of the running command marks it done and starts the next one. An
unlock with the region's password opens it, and the eighth failure in a row locks it; a lock closes it. A burn sets
the bits that take and tells whether all of the value took, for the words of its initiator only. A granted increment,
raise or re-initialisation changes the selected counter. A register write in a powered domain writes the register. -/
def Obligations.NonVolatileMemory : Prop :=
  (∀ (s : State) (ini : Byte) (fails : Nat) (bad corr : Bool) (w : Nat) (j : NvmJob) (rest : List NvmJob),
    let start (x : NvmJob) : State := runNvmJob x { markNvm x true s with nvm := { (markNvm x true s).nvm with waiting := [x] } }
    let line (x : NvmJob) : State := { markNvm x true s with nvm := { (markNvm x true s).nvm with
      waiting := j :: (rest.filter (fun i => decide (i.rank ≤ x.rank)) ++ [x] ++ rest.filter (fun i => decide (x.rank < i.rank))) } }
    let popped := markNvm j false { s with nvm := { s.nvm with waiting := rest } }
    let g := orGuard s (orRegion s)
    let own (x : State) (e : Nat) : State := { x with nvm := { x.nvm with owner := { x.nvm.owner with err := e } } }
    let word := bits s.nvm.fusCtrl 9 0
    let burnt := burnFuse word s.nvm.fusData w s
    let shown (x : State) (denied verify : Bool) : State := { x with nvm := { x.nvm with fusDone := true, fusVerify := verify, fusDenied := denied } }.noteSet (regKey 2 0x0F0C0008) (2 ^ 30)
    (s.domReady 4 = true → s.nvm.base.busy = false → s.nvm.waiting = [] → exec (.nvmRead ini ⟨bad, corr⟩) s = .next (start ⟨2, 1, ini.toNat, b2n bad + 2 * b2n corr⟩)) ∧
    (s.domReady 4 = true → s.nvm.base.busy = false → s.nvm.waiting = j :: rest → exec (.nvmRead ini ⟨bad, corr⟩) s = .next (line ⟨2, 1, ini.toNat, b2n bad + 2 * b2n corr⟩)) ∧
    (s.domReady 4 = true → s.nvm.base.busy = false → s.nvm.waiting = [] → exec (.nvmWrite ini fails) s = .next (start ⟨2, 2, ini.toNat, fails⟩)) ∧
    (s.domReady 4 = true → s.nvm.base.busy = false → s.nvm.waiting = j :: rest → exec (.nvmWrite ini fails) s = .next (line ⟨2, 2, ini.toNat, fails⟩)) ∧
    (s.domReady 4 = true → s.nvm.base.busy = false → s.nvm.waiting = [] → exec (.nvmCounterIncrement ini fails) s = .next (start ⟨2, 3, ini.toNat, fails⟩)) ∧
    (s.domReady 4 = true → s.nvm.base.busy = false → s.nvm.waiting = j :: rest → exec (.nvmCounterIncrement ini fails) s = .next (line ⟨2, 3, ini.toNat, fails⟩)) ∧
    (s.domReady 4 = true → s.nvm.base.busy = false → s.nvm.waiting = [] → exec (.nvmCounterRaise ini fails) s = .next (start ⟨2, 4, ini.toNat, fails⟩)) ∧
    (s.domReady 4 = true → s.nvm.base.busy = false → s.nvm.waiting = j :: rest → exec (.nvmCounterRaise ini fails) s = .next (line ⟨2, 4, ini.toNat, fails⟩)) ∧
    (s.domReady 4 = true → s.nvm.base.busy = false → s.nvm.waiting = [] → exec (.nvmCounterRead ini) s = .next (start ⟨2, 5, ini.toNat, 0⟩)) ∧
    (s.domReady 4 = true → s.nvm.base.busy = false → s.nvm.waiting = j :: rest → exec (.nvmCounterRead ini) s = .next (line ⟨2, 5, ini.toNat, 0⟩)) ∧
    (s.domReady 4 = true → s.nvm.owner.busy = false → s.nvm.waiting = [] → exec (.nvmOrRead ini) s = .next (start ⟨3, jobOr 1, ini.toNat, 0⟩)) ∧
    (s.domReady 4 = true → s.nvm.owner.busy = false → s.nvm.waiting = j :: rest → exec (.nvmOrRead ini) s = .next (line ⟨3, jobOr 1, ini.toNat, 0⟩)) ∧
    (s.domReady 4 = true → s.nvm.owner.busy = false → s.nvm.waiting = [] → exec (.nvmOrWrite ini fails) s = .next (start ⟨3, jobOr 2, ini.toNat, fails⟩)) ∧
    (s.domReady 4 = true → s.nvm.owner.busy = false → s.nvm.waiting = j :: rest → exec (.nvmOrWrite ini fails) s = .next (line ⟨3, jobOr 2, ini.toNat, fails⟩)) ∧
    (s.domReady 4 = true → s.nvm.owner.busy = false → s.nvm.waiting = [] → exec (.nvmOrUnlock ini) s = .next (start ⟨3, jobOr 3, ini.toNat, 0⟩)) ∧
    (s.domReady 4 = true → s.nvm.owner.busy = false → s.nvm.waiting = j :: rest → exec (.nvmOrUnlock ini) s = .next (line ⟨3, jobOr 3, ini.toNat, 0⟩)) ∧
    (s.domReady 4 = true → s.nvm.owner.busy = false → s.nvm.waiting = [] → exec (.nvmOrLock ini) s = .next (start ⟨3, jobOr 4, ini.toNat, 0⟩)) ∧
    (s.domReady 4 = true → s.nvm.owner.busy = false → s.nvm.waiting = j :: rest → exec (.nvmOrLock ini) s = .next (line ⟨3, jobOr 4, ini.toNat, 0⟩)) ∧
    (s.nvm.waiting = [j] → rest = [] → exec .nvmCommandDone s = .next popped) ∧
    (∀ nx more, s.nvm.waiting = j :: rest → rest = nx :: more → exec .nvmCommandDone s = .next (runNvmJob nx popped)) ∧
    (g.locked = false → s.nvm.owner.pwd = orPassword s (orRegion s) →
      runOrUnlock s = own (setOrGuard (orRegion s) { g with unlocked := true, failures := 0 } s) 0) ∧
    (g.locked = false → s.nvm.owner.pwd ≠ orPassword s (orRegion s) → 7 ≤ g.failures →
      runOrUnlock s = own (setOrGuard (orRegion s) { g with failures := g.failures + 1, locked := true } s) 6) ∧
    runOrLock s = own (setOrGuard (orRegion s) { g with unlocked := false } s) 0 ∧
    (s.domReady 4 = true → word ≤ 2 ∨ (64 ≤ word ∧ word ≤ 223) → exec (.fuseBurn true (BitVec.ofNat 32 w)) s =
      .next (shown (burnFuse word s.nvm.fusData (w % 2 ^ 32) s).2 false (! (burnFuse word s.nvm.fusData (w % 2 ^ 32) s).1))) ∧
    (s.domReady 4 = true → ¬ (word ≤ 2 ∨ (64 ≤ word ∧ word ≤ 223)) → exec (.fuseBurn true (BitVec.ofNat 32 w)) s = .next (shown s true false)) ∧
    (s.domReady 4 = true → exec (.fuseBurn false (BitVec.ofNat 32 w)) s = .next (shown s true false)) ∧
    burnt.2.fuse word = (s.fuse word ||| (s.nvm.fusData - (s.nvm.fusData &&& w)))) ∧
  (∀ (s t : State) (r : Req) (role k fails : Nat) (v : Bytes) (stuck : Word),
    let c := selCounter t
    let u := begun t 0x9110 1 role .nvm k
    let b := burnFuse (beNat (v.take 2)) (beNat (v.drop 2)) stuck.toNat u
    (Granted s r 0x9020 3 t role v → ownerCounter t = true → (ctrIncrement c fails t).1 = 0 →
      exec (.counterIncrement r fails) s = .next (replyIn t (asking r 0x9020 3) 2 0 [] (ctrIncrement c fails t).2)) ∧
    (Granted s r 0x9020 4 t role v → ownerCounter t = true → (ctrRaise c (beNat v) fails t).1 = 0 →
      exec (.counterRaise r fails) s = .next (replyIn t (asking r 0x9020 4) 2 0 [] (ctrRaise c (beNat v) fails t).2)) ∧
    (Granted s r 0x9020 5 t role v → ownerCounter t = true → ctrUsable t c = false →
      exec (.counterReinit r) s = .next (replyIn t (asking r 0x9020 5) 2 0 [] (ctrWrite c 0 0 t).2)) ∧
    (Granted s r 0x9110 1 t role v → CanBegin t 0x9110 1 k → v.length = 6 → 3 ≤ beNat (v.take 2) → beNat (v.take 2) ≤ 63 →
      exec (.fuseOptionBurn r stuck) s = .next (replyIn t (asking r 0x9110 1) 2 0 (handle t k) (if b.1 then doneSlot k [] b.2 else failSlot k 2 b.2)))) ∧
  (∀ (s : State) (die : Fin 4) (off : BitVec 20) (v : Word),
    let o := 0x0F000000 + off.toNat / 4 * 4
    s.domReady (accDomain s (die.val * 2 ^ 32 + o)) = true → exec (.registerWrite die off v) s = .next (regWrite 0x61 die.val o v.toNat s))
end

