-- ==== Sys2Proof/Laws/Tab.lean ====
section
/-!
SUPPORT. The laws of the sparse tables: reading after writing, and that every operation keeps the canonical form.
-/
namespace Sys2Proof.Machine
variable {α : Type}

theorem Tab.rising_mono {t : Tab α} {a b : Nat} (h : a ≤ b) (w : Tab.rising b t = true) : Tab.rising a t = true := by
  cases t with
  | nil => rfl
  | cons e t =>
    simp only [Tab.rising, Bool.and_eq_true, decide_eq_true_eq] at w ⊢
    exact ⟨by omega, w.2⟩

/-- Below the first listed number a table reads its unlisted value. -/
theorem Tab.look_below {t : Tab α} {lo k : Nat} (d : α) (w : Tab.rising lo t = true) (h : k < lo) : Tab.look d t k = d := by
  induction t generalizing lo with
  | nil => rfl
  | cons e t ih =>
    simp only [Tab.rising, Bool.and_eq_true, decide_eq_true_eq] at w
    simp only [Tab.look]
    rw [if_neg (by omega)]
    exact ih w.2 (by omega)

@[simp] theorem Tab.look_place_same (d : α) (t : Tab α) (k : Nat) (v : α) : Tab.look d (Tab.place t k v) k = v := by
  induction t with
  | nil => simp [Tab.place, Tab.look]
  | cons e t ih =>
    simp only [Tab.place]
    split_ifs with h1 h2
    · simp [Tab.look]
    · simp [Tab.look]
    · simp [Tab.look, h2, ih]

theorem Tab.look_place_other (d : α) (t : Tab α) {k j : Nat} (v : α) (h : j ≠ k) :
    Tab.look d (Tab.place t k v) j = Tab.look d t j := by
  induction t with
  | nil => simp [Tab.place, Tab.look, Ne.symm h]
  | cons e t ih =>
    simp only [Tab.place]
    split_ifs with h1 h2
    · simp [Tab.look, Ne.symm h]
    · simp [Tab.look, h2, Ne.symm h]
    · simp [Tab.look, ih]

theorem Tab.look_drop_other (d : α) (t : Tab α) {k j : Nat} (h : j ≠ k) : Tab.look d (Tab.drop t k) j = Tab.look d t j := by
  induction t with
  | nil => rfl
  | cons e t ih =>
    simp only [Tab.drop]
    split_ifs with h1
    · simp [Tab.look, h1, Ne.symm h, ih]
    · simp [Tab.look, ih]

@[simp] theorem Tab.look_drop_same (d : α) (t : Tab α) (k : Nat) : Tab.look d (Tab.drop t k) k = d := by
  induction t with
  | nil => rfl
  | cons e t ih =>
    simp only [Tab.drop]
    split_ifs with h1
    · exact ih
    · simp only [Tab.look, if_neg h1]
      exact ih

variable [DecidableEq α]

/-- Reading what was written. -/
@[simp] theorem Tab.look_put_same (d : α) (t : Tab α) (k : Nat) (v : α) : Tab.look d (Tab.put d t k v) k = v := by
  unfold Tab.put
  split_ifs with h
  · rw [h]; exact Tab.look_drop_same d t k
  · exact Tab.look_place_same d t k v

/-- Writing leaves every other number alone. -/
theorem Tab.look_put_other (d : α) (t : Tab α) {k j : Nat} (v : α) (h : j ≠ k) :
    Tab.look d (Tab.put d t k v) j = Tab.look d t j := by
  unfold Tab.put
  split_ifs with hv
  · exact Tab.look_drop_other d t h
  · exact Tab.look_place_other d t v h

omit [DecidableEq α] in
theorem Tab.rising_place {t : Tab α} {lo k : Nat} (v : α) (w : Tab.rising lo t = true) (h : lo ≤ k) :
    Tab.rising lo (Tab.place t k v) = true := by
  induction t generalizing lo with
  | nil => simp [Tab.place, Tab.rising, h]
  | cons e t ih =>
    simp only [Tab.rising, Bool.and_eq_true, decide_eq_true_eq] at w
    simp only [Tab.place]
    split_ifs with h1 h2
    · simp only [Tab.rising, Bool.and_eq_true, decide_eq_true_eq]
      exact ⟨h, by omega, w.2⟩
    · subst h2
      simp only [Tab.rising, Bool.and_eq_true, decide_eq_true_eq]
      exact ⟨h, w.2⟩
    · simp only [Tab.rising, Bool.and_eq_true, decide_eq_true_eq]
      exact ⟨w.1, ih w.2 (by omega)⟩

omit [DecidableEq α] in
theorem Tab.rising_drop {t : Tab α} {lo : Nat} (k : Nat) (w : Tab.rising lo t = true) : Tab.rising lo (Tab.drop t k) = true := by
  induction t generalizing lo with
  | nil => rfl
  | cons e t ih =>
    simp only [Tab.rising, Bool.and_eq_true, decide_eq_true_eq] at w
    simp only [Tab.drop]
    split_ifs with h1
    · exact Tab.rising_mono (by omega) (ih w.2)
    · simp only [Tab.rising, Bool.and_eq_true, decide_eq_true_eq]
      exact ⟨w.1, ih w.2⟩

omit [DecidableEq α] in
theorem Tab.mem_place {t : Tab α} {k : Nat} {v : α} {e : Nat × α} (h : e ∈ Tab.place t k v) : e = (k, v) ∨ e ∈ t := by
  induction t with
  | nil => simpa [Tab.place] using h
  | cons x t ih =>
    simp only [Tab.place] at h
    split_ifs at h with h1 h2
    · simpa using h
    · simp only [List.mem_cons] at h ⊢; tauto
    · simp only [List.mem_cons] at h ⊢
      rcases h with h | h
      · tauto
      · rcases ih h with h | h <;> tauto

omit [DecidableEq α] in
theorem Tab.mem_drop {t : Tab α} {k : Nat} {e : Nat × α} (h : e ∈ Tab.drop t k) : e ∈ t := by
  induction t with
  | nil => simp [Tab.drop] at h
  | cons x t ih =>
    simp only [Tab.drop] at h
    split_ifs at h with h1
    · exact List.mem_cons_of_mem _ (ih h)
    · simp only [List.mem_cons] at h ⊢
      rcases h with h | h
      · exact Or.inl h
      · exact Or.inr (ih h)

/-- A write keeps the canonical form. -/
theorem Tab.wf_put {d : α} {t : Tab α} (k : Nat) (v : α) (w : Tab.wf d t = true) : Tab.wf d (Tab.put d t k v) = true := by
  simp only [Tab.wf, Bool.and_eq_true, List.all_eq_true, decide_eq_true_eq] at w ⊢
  unfold Tab.put
  split_ifs with h
  · exact ⟨Tab.rising_drop k w.1, fun e m => w.2 e (Tab.mem_drop m)⟩
  · refine ⟨Tab.rising_place v w.1 (Nat.zero_le _), fun e m => ?_⟩
    rcases Tab.mem_place m with m | m
    · subst m; exact h
    · exact w.2 e m

omit [DecidableEq α] in
theorem Tab.rising_filter {t : Tab α} {lo : Nat} (p : Nat × α → Bool) (w : Tab.rising lo t = true) :
    Tab.rising lo (t.filter p) = true := by
  induction t generalizing lo with
  | nil => rfl
  | cons e t ih =>
    simp only [Tab.rising, Bool.and_eq_true, decide_eq_true_eq] at w
    simp only [List.filter_cons]
    split_ifs
    · simp only [Tab.rising, Bool.and_eq_true, decide_eq_true_eq]
      exact ⟨w.1, ih w.2⟩
    · exact Tab.rising_mono (by omega) (ih w.2)

/-- Removing entries keeps the canonical form. -/
theorem Tab.wf_filter {d : α} {t : Tab α} (p : Nat × α → Bool) (w : Tab.wf d t = true) : Tab.wf d (t.filter p) = true := by
  simp only [Tab.wf, Bool.and_eq_true, List.all_eq_true, decide_eq_true_eq] at w ⊢
  exact ⟨Tab.rising_filter p w.1, fun e m => w.2 e (List.mem_of_mem_filter m)⟩

end Sys2Proof.Machine
end

