-- ==== Sys2Proof/Laws/Memory.lean ====
section
/-!
SUPPORT. Byte memory: a read after a write, and that `write`, `writeN`, `load` and `clear` keep the canonical form.
-/
namespace Sys2Proof.Machine

@[simp] theorem Memory.read_write_same (m : Memory) (a : Nat) (b : Byte) : (m.write a b).read a = b := Tab.look_put_same 0 m a b

theorem Memory.read_write_other (m : Memory) {a x : Nat} (b : Byte) (h : x ≠ a) : (m.write a b).read x = m.read x :=
  Tab.look_put_other 0 m b h

theorem Memory.wf_write {m : Memory} (a : Nat) (b : Byte) (w : m.wf = true) : (m.write a b).wf = true := Tab.wf_put a b w

theorem Memory.wf_writeN {m : Memory} (a : Nat) (bs : Bytes) (w : m.wf = true) : (m.writeN a bs).wf = true := by
  induction bs generalizing m a with
  | nil => exact w
  | cons b bs ih => exact ih (a + 1) (Memory.wf_write a b w)

/-- A block of bytes leaves every address outside it alone. -/
theorem Memory.read_writeN_other (m : Memory) {a x : Nat} (bs : Bytes) (h : x < a ∨ a + bs.length ≤ x) :
    (m.writeN a bs).read x = m.read x := by
  induction bs generalizing m a with
  | nil => rfl
  | cons b bs ih =>
    simp only [List.length_cons] at h
    show ((m.write a b).writeN (a + 1) bs).read x = m.read x
    rw [ih _ (by omega), Memory.read_write_other m b (by omega)]

theorem Memory.wf_clear {m : Memory} (lo hi : Nat) (w : m.wf = true) : (m.clear lo hi).wf = true := Tab.wf_filter _ w

theorem Memory.rising_cells (a : Nat) (bs : Bytes) : Tab.rising a (Memory.cells a bs) = true := by
  induction bs generalizing a with
  | nil => rfl
  | cons b bs ih =>
    simp only [Memory.cells]
    split_ifs
    · exact Tab.rising_mono (Nat.le_succ a) (ih (a + 1))
    · simp [Tab.rising, ih (a + 1)]

theorem Memory.mem_cells {a : Nat} {bs : Bytes} {e : Host.Cell} (h : e ∈ Memory.cells a bs) : e.1 < a + bs.length ∧ e.2 ≠ 0 := by
  induction bs generalizing a with
  | nil => simp [Memory.cells] at h
  | cons b bs ih =>
    simp only [Memory.cells] at h
    split_ifs at h with hb
    · have := ih h; simp only [List.length_cons]; exact ⟨by omega, this.2⟩
    · simp only [List.mem_cons] at h
      rcases h with h | h
      · subst h; simp only [List.length_cons]; exact ⟨by omega, hb⟩
      · have := ih h; simp only [List.length_cons]; exact ⟨by omega, this.2⟩

/-- Two rising tables, the first below `n` and the second from `n` on, join to a rising table. -/
theorem Tab.rising_append {α : Type} {t u : Tab α} {lo n : Nat} (w : Tab.rising lo t = true) (b : ∀ e ∈ t, e.1 < n)
    (v : Tab.rising n u = true) (h : lo ≤ n) : Tab.rising lo (t ++ u) = true := by
  induction t generalizing lo with
  | nil => exact Tab.rising_mono h v
  | cons e t ih =>
    simp only [Tab.rising, Bool.and_eq_true, decide_eq_true_eq] at w
    simp only [List.cons_append, Tab.rising, Bool.and_eq_true, decide_eq_true_eq]
    have := b e (by simp)
    exact ⟨w.1, ih w.2 (fun x m => b x (by simp [m])) (by omega)⟩

theorem Tab.rising_mem {α : Type} {t : Tab α} {lo : Nat} (w : Tab.rising lo t = true) {e : Nat × α} (m : e ∈ t) : lo ≤ e.1 := by
  induction t generalizing lo with
  | nil => cases m
  | cons y t ih =>
    simp only [Tab.rising, Bool.and_eq_true, decide_eq_true_eq] at w
    rcases List.mem_cons.mp m with m | m
    · subst m; exact w.1
    · have := ih w.2 m; omega

/-- The entries of a rising table from `n` on rise from `n`. -/
theorem Tab.rising_from {α : Type} {t : Tab α} {lo : Nat} (n : Nat) (w : Tab.rising lo t = true) :
    Tab.rising n (t.filter (fun e => decide (n ≤ e.1))) = true := by
  induction t generalizing lo with
  | nil => rfl
  | cons e t ih =>
    simp only [Tab.rising, Bool.and_eq_true, decide_eq_true_eq] at w
    simp only [List.filter_cons]
    split_ifs with h
    · simp only [decide_eq_true_eq] at h
      have r : t.filter (fun x => decide (n ≤ x.1)) = t := by
        apply List.filter_eq_self.mpr
        intro x m
        have := Tab.rising_mem w.2 m
        simp only [decide_eq_true_eq]; omega
      simp only [Tab.rising, Bool.and_eq_true, decide_eq_true_eq]
      exact ⟨h, by rw [r]; exact w.2⟩
    · exact ih w.2

theorem Memory.wf_load {m : Memory} (a : Nat) (bs : Bytes) (w : m.wf = true) : (m.load a bs).wf = true := by
  simp only [Memory.wf, Tab.wf, Bool.and_eq_true, List.all_eq_true, decide_eq_true_eq] at w ⊢
  refine ⟨?_, ?_⟩
  · unfold Memory.load
    rw [List.append_assoc]
    apply Tab.rising_append (n := a) (Tab.rising_filter _ w.1)
    · intro e h; simpa using (List.mem_filter.mp h).2
    · exact Tab.rising_append (n := a + bs.length) (Memory.rising_cells a bs) (fun e h => (Memory.mem_cells h).1)
        (Tab.rising_from _ w.1) (by omega)
    · omega
  · intro e h
    simp only [Memory.load, List.mem_append] at h
    rcases h with (h | h) | h
    · exact w.2 e (List.mem_of_mem_filter h)
    · exact (Memory.mem_cells h).2
    · exact w.2 e (List.mem_of_mem_filter h)

end Sys2Proof.Machine
end

