-- ==== Sys2Proof/Laws/KeepsBase.lean ====
section
/-!
SUPPORT. What every function keeps (the shared operations and serving a dictionary request): the queue of waiting commands, the canonical form of the MRAM,
and every fuse bit that is blown. One lemma per function; later lemmas cite the earlier ones.
-/
namespace Sys2Proof.Machine
variable {q : State}

/-- The word of a fuse table (R786). -/
def fuseOf (f : Tab (Option Nat)) (w : Nat) : Nat := State.fuse { nvm := { fuses := f } } w

structure Keeps (q s : State) : Prop where
  queue : s.pending = q.pending
  mram : Memory.wf q.nvm.mram = true → Memory.wf s.nvm.mram = true
  fuse : ∀ w b, (fuseOf q.nvm.fuses w).testBit b = true → (fuseOf s.nvm.fuses w).testBit b = true

theorem Keeps.refl (q : State) : Keeps q q := ⟨rfl, id, fun _ _ h => h⟩

theorem keeps_mk {p d1 d2 o r fr di po rs ta pi n tm lo ac pt un ke pk mr dg im gr} :
    Keeps q ⟨p, d1, d2, o, r, fr, di, po, rs, ta, pi, n, tm, lo, ac, pt, un, ke, pk, mr, dg, im, gr⟩ ↔ p = q.pending ∧
      (Memory.wf q.nvm.mram = true → Memory.wf n.mram = true) ∧
      (∀ w b, (fuseOf q.nvm.fuses w).testBit b = true → (fuseOf n.fuses w).testBit b = true) :=
  ⟨fun h => ⟨h.1, h.2, h.3⟩, fun h => ⟨h.1, h.2.1, h.2.2⟩⟩

theorem Keeps.both {s : State} (h : Keeps q s) : s.pending = q.pending ∧ (Memory.wf q.nvm.mram = true → Memory.wf s.nvm.mram = true) ∧
    (∀ w b, (fuseOf q.nvm.fuses w).testBit b = true → (fuseOf s.nvm.fuses w).testBit b = true) := ⟨h.1, h.2, h.3⟩

theorem fuseOf_place (f : Tab (Option Nat)) (k v w b : Nat) (h : (fuseOf f w).testBit b = true) (hv : (fuseOf f k ||| v) = v) :
    (fuseOf (Tab.place f k (some v)) w).testBit b = true := by
  by_cases e : w = k
  · subst e
    have : fuseOf (Tab.place f w (some v)) w = v := by simp [fuseOf, State.fuse]
    rw [this, ← hv, Nat.testBit_or, h]; rfl
  · have : fuseOf (Tab.place f k (some v)) w = fuseOf f w := by simp [fuseOf, State.fuse, Tab.look_place_other _ _ _ e]
    rw [this]; exact h

theorem keeps_ite {c : Prop} [Decidable c] {a b : State} (ha : Keeps q a) (hb : Keeps q b) : Keeps q (if c then a else b) := by
  split <;> assumption
theorem keeps_ite1 {α} {c : Prop} [Decidable c] {a b : State × α} (ha : Keeps q a.1) (hb : Keeps q b.1) : Keeps q (if c then a else b).1 := by
  split <;> assumption
theorem keeps_ite2 {α} {c : Prop} [Decidable c] {a b : α × State} (ha : Keeps q a.2) (hb : Keeps q b.2) : Keeps q (if c then a else b).2 := by
  split <;> assumption

theorem keeps_foldl {α} {f : State → α → State} {l : List α} {s : State} (hf : ∀ s a, Keeps q s → Keeps q (f s a)) (h : Keeps q s) :
    Keeps q (l.foldl f s) := by
  induction l generalizing s with
  | nil => exact h
  | cons a l ih => exact ih (hf _ _ h)
theorem keeps_foldl1 {α β} {f : State × β → α → State × β} {l : List α} {s : State × β}
    (hf : ∀ s a, Keeps q s.1 → Keeps q (f s a).1) (h : Keeps q s.1) : Keeps q (l.foldl f s).1 := by
  induction l generalizing s with
  | nil => exact h
  | cons a l ih => exact ih (hf _ _ h)
theorem keeps_foldl2 {α β} {f : β × State → α → β × State} {l : List α} {s : β × State}
    (hf : ∀ s a, Keeps q s.2 → Keeps q (f s a).2) (h : Keeps q s.2) : Keeps q (l.foldl f s).2 := by
  induction l generalizing s with
  | nil => exact h
  | cons a l ih => exact ih (hf _ _ h)

theorem keeps_foldl22 {α β γ : Type} {f : β × γ × State → α → β × γ × State} {l : List α} {s : β × γ × State}
    (hf : ∀ s a, Keeps q s.2.2 → Keeps q (f s a).2.2) (h : Keeps q s.2.2) : Keeps q (l.foldl f s).2.2 := by
  induction l generalizing s with
  | nil => exact h
  | cons a l ih => exact ih (hf _ _ h)

theorem keeps_iteD {c : Prop} [Decidable c] {a b : Deliv} (ha : Keeps q a.st) (hb : Keeps q b.st) : Keeps q (if c then a else b).st := by
  split <;> assumption

theorem next_ite {c : Prop} [Decidable c] {a b : Res} (ha : ∃ t, a = .next t ∧ Keeps q t) (hb : ∃ t, b = .next t ∧ Keeps q t) :
    ∃ t, (if c then a else b) = .next t ∧ Keeps q t := by
  split <;> assumption

theorem next_ok {s : State} (h : Keeps q s) : ∃ t, ok s = .next t ∧ Keeps q t := ⟨s, rfl, h⟩

theorem keeps_snd {α : Type} {r : α × State} {a : α} {t : State} (he : some r = some (a, t)) (h : Keeps q r.2) : Keeps q t := by
  rw [Option.some.injEq] at he
  subst he
  exact h

theorem keeps_iteK {c : Prop} [Decidable c] {a b : KC} (ha : Keeps q a.st) (hb : Keeps q b.st) : Keeps q (if c then a else b).st := by
  split <;> assumption

theorem keeps_ite22 {α β : Type} {c : Prop} [Decidable c] {a b : α × β × State} (ha : Keeps q a.2.2) (hb : Keeps q b.2.2) :
    Keeps q (if c then a else b).2.2 := by
  split <;> assumption

theorem pageStore_wf (m : Memory) (phys off : Nat) (bs : Bytes) (h : m.wf = true) : (pageStore m phys off bs).wf = true := by
  unfold pageStore
  generalize bs.zip (List.range bs.length) = l
  induction l generalizing m with
  | nil => exact h
  | cons e l ih => exact ih _ (Memory.wf_write _ _ h)

theorem keeps_iteS {c : Prop} [Decidable c] {a b : SafRes} (ha : Keeps q a.st) (hb : Keeps q b.st) : Keeps q (if c then a else b).st := by
  split <;> assumption

/-- `Keeps` of whatever state a gate's outcome holds. -/
def Gate.keeps (q : State) : Gate → Prop
  | .ovr t => Keeps q t
  | .anise t => Keeps q t
  | .session t => Keeps q t

theorem keeps_gate {c : Prop} [Decidable c] {a b : Gate} (ha : a.keeps q) (hb : b.keeps q) : (if c then a else b).keeps q := by
  split <;> assumption

/-- A dictionary rule whose effect keeps the queue, the MRAM's form and every blown fuse. -/
def WRule.Keeping (q : State) (w : WRule) : Prop := ∀ s role v, Keeps q s → Keeps q (w.fx s role v).st

theorem rule_ite {c : Prop} [Decidable c] {a b : WRule} (ha : a.Keeping q) (hb : b.Keeping q) : (if c then a else b).Keeping q := by
  split <;> assumption

theorem State.setForce_keeps (s : State) (idx : Nat) (sub : Nat) (v : Bytes) (hs : Keeps q s) :
    Keeps q (State.setForce s idx sub v) := by
  unfold State.setForce
  (try dsimp only)
  repeat' (first | with_reducible assumption | with_reducible apply keeps_ite | (simp only [keeps_mk]; with_reducible apply Keeps.both))

theorem State.setEnt_keeps (s : State) (idx : Nat) (sub : Nat) (v : Bytes) (hs : Keeps q s) :
    Keeps q (State.setEnt s idx sub v) := by
  unfold State.setEnt
  (try dsimp only)
  repeat' (first | with_reducible assumption | with_reducible apply keeps_ite | (simp only [keeps_mk]; with_reducible apply Keeps.both))

theorem State.setNum_keeps (s : State) (idx : Nat) (sub : Nat) (n : Nat) (hs : Keeps q s) :
    Keeps q (State.setNum s idx sub n) := by
  unfold State.setNum
  (try dsimp only)
  repeat' (first | with_reducible assumption | with_reducible apply State.setEnt_keeps)

theorem State.bumpBy_keeps (s : State) (idx : Nat) (sub : Nat) (n : Nat) (hs : Keeps q s) :
    Keeps q (State.bumpBy s idx sub n) := by
  unfold State.bumpBy
  (try dsimp only)
  repeat' (first | with_reducible assumption | with_reducible apply State.setNum_keeps)

theorem State.setMode_keeps (s : State) (m : Mode) (hs : Keeps q s) :
    Keeps q (State.setMode s m) := ⟨hs.1, hs.2, hs.3⟩

theorem State.at_keeps (s : State) (due : Nat) (hs : Keeps q s) :
    Keeps q (State.at s due) := ⟨hs.1, hs.2, hs.3⟩

theorem ok_keeps (s : State) (hs : Keeps q s) :
    ∃ s1, ok s = .next s1 ∧ Keeps q s1 := by
  unfold ok
  (try dsimp only)
  repeat' (first | intro _ | with_reducible assumption | refine ⟨_, rfl, ?_⟩)

theorem State.setReg_keeps (s : State) (die : Nat) (off : Nat) (v : Nat) (d : optParam Nat 0) (hs : Keeps q s) :
    Keeps q (State.setReg s die off v d) := ⟨hs.1, hs.2, hs.3⟩

theorem State.setLcs_keeps (s : State) (l : Lcs) (hs : Keeps q s) :
    Keeps q (State.setLcs s l) := by
  unfold State.setLcs
  (try dsimp only)
  repeat' (first | with_reducible assumption | with_reducible apply keeps_ite | (simp only [keeps_mk]; with_reducible apply Keeps.both))

theorem State.bump_keeps (s : State) (idx : Nat) (sub : Nat) (hs : Keeps q s) :
    Keeps q (State.bump s idx sub) := by
  unfold State.bump
  (try dsimp only)
  repeat' (first | with_reducible assumption | with_reducible apply State.setNum_keeps)

theorem recordRefusal_keeps (target : Nat) (refuser : Nat) (kind : Nat) (point : Nat) (s : State) (hs : Keeps q s) :
    Keeps q (recordRefusal target refuser kind point s) := by
  unfold recordRefusal
  (try dsimp only)
  repeat' (first | with_reducible assumption | with_reducible apply keeps_ite | with_reducible apply State.bump_keeps | (simp only [keeps_mk]; with_reducible apply Keeps.both))

theorem State.setDom_keeps (s : State) (d : Nat) (v : Dom) (hs : Keeps q s) :
    Keeps q (State.setDom s d v) := ⟨hs.1, hs.2, hs.3⟩

theorem deepAbort_keeps (s : State) (hs : Keeps q s) :
    Keeps q (deepAbort s) := by
  unfold deepAbort
  (try dsimp only)
  repeat' (first | intro _ | with_reducible assumption | with_reducible apply keeps_ite | with_reducible apply recordRefusal_keeps | with_reducible apply State.setDom_keeps | contradiction | split | (simp only [keeps_mk]; with_reducible apply Keeps.both) | with_reducible apply keeps_foldl)

theorem State.noteSet_keeps (s : State) (k : Nat) (m : Nat) (hs : Keeps q s) :
    Keeps q (State.noteSet s k m) := ⟨hs.1, hs.2, hs.3⟩

theorem State.domTo_keeps (s : State) (d : Nat) (st : DomState) (hs : Keeps q s) :
    Keeps q (State.domTo s d st) := by
  unfold State.domTo
  (try dsimp only)
  repeat' (first | with_reducible assumption | with_reducible apply State.setDom_keeps)

theorem State.draw_keeps (s : State) (n : Nat) (hs : Keeps q s) :
    Keeps q (State.draw s n).2 := ⟨hs.1, hs.2, hs.3⟩

theorem State.emit_keeps (s : State) (o : Out) (hs : Keeps q s) :
    Keeps q (State.emit s o) := ⟨hs.1, hs.2, hs.3⟩

theorem setMsRsp_keeps (k : Nat) (b : Bytes) (s : State) (hs : Keeps q s) :
    Keeps q (setMsRsp k b s) := ⟨hs.1, hs.2, hs.3⟩

theorem sendReply_keeps (p : Reply) (s : State) (hs : Keeps q s) :
    Keeps q (sendReply p s) := by
  unfold sendReply
  (try dsimp only)
  repeat' (first | with_reducible assumption | with_reducible apply keeps_ite | with_reducible apply State.emit_keeps | with_reducible apply setMsRsp_keeps | with_reducible apply State.setReg_keeps | with_reducible apply State.noteSet_keeps | contradiction | split | (simp only [keeps_mk]; with_reducible apply Keeps.both))

theorem replyPlain_keeps (r : Req) (op : Nat) (st : Nat) (data : Bytes) (s : State) (hs : Keeps q s) :
    Keeps q (replyPlain r op st data s) := by
  unfold replyPlain
  (try dsimp only)
  repeat' (first | with_reducible assumption | with_reducible apply sendReply_keeps)

theorem countRefusal_keeps (r : Req) (c : Nat) (s : State) (hs : Keeps q s) :
    Keeps q (countRefusal r c s) := by
  unfold countRefusal
  (try dsimp only)
  repeat' (first | with_reducible assumption | with_reducible apply keeps_ite | with_reducible apply State.bump_keeps)

theorem refuse_keeps (r : Req) (op : Nat) (c : Nat) (s : State) (hs : Keeps q s) :
    Keeps q (refuse r op c s) := by
  unfold refuse
  (try dsimp only)
  repeat' (first | with_reducible assumption | with_reducible apply sendReply_keeps | with_reducible apply countRefusal_keeps)

theorem ansErr_keeps (s : State) (c : Nat) (hs : Keeps q s) :
    Keeps q (ansErr s c).st := by
  unfold ansErr
  (try dsimp only)
  repeat' (first | intro _ | with_reducible assumption)

theorem modeFirst_keeps (b : Bool) (s : State) (a : Ans) (hs : Keeps q s) (ha : Keeps q a.st) : Keeps q (modeFirst b s a).st := by
  unfold modeFirst
  split
  · exact hs
  · exact ha

theorem noteAnswer_keeps (r : Req) (p : Reply) (s : State) (hs : Keeps q s) :
    Keeps q (noteAnswer r p s) := by
  unfold noteAnswer
  (try dsimp only)
  repeat' (first | with_reducible assumption | with_reducible apply keeps_ite | contradiction | split | (simp only [keeps_mk]; with_reducible apply Keeps.both))

theorem replyIn_keeps (s0 : State) (r : Req) (op : Nat) (st : Nat) (data : Bytes) (s : State) (hs0 : Keeps q s0) (hs : Keeps q s) :
    Keeps q (replyIn s0 r op st data s) := by
  unfold replyIn
  (try dsimp only)
  repeat' (first | with_reducible assumption | with_reducible apply noteAnswer_keeps | with_reducible apply sendReply_keeps)

theorem dropRequest_keeps (r : Req) (s : State) (hs : Keeps q s) :
    Keeps q (dropRequest r s) := by
  unfold dropRequest
  (try dsimp only)
  repeat' (first | with_reducible assumption | with_reducible apply State.bump_keeps | contradiction | split)

theorem takeReq_keeps (r : Req) (s : State) (hs : Keeps q s) :
    Keeps q (takeReq r s) := by
  unfold takeReq
  (try dsimp only)
  repeat' (first | with_reducible assumption | with_reducible apply keeps_ite | with_reducible apply State.at_keeps | with_reducible apply State.bump_keeps | with_reducible apply State.setReg_keeps | with_reducible apply setMsRsp_keeps | contradiction | split | (simp only [keeps_mk]; with_reducible apply Keeps.both))

theorem gate_keeps (r : Req) (op : Nat) (free : State → Bool) (s : State) (hs : Keeps q s) : (gate r op free s).keeps q := by
  have ht : Keeps q (takeReq r s) := takeReq_keeps _ _ hs
  have h1 : Keeps q (if aniseRead r op then takeReq r s else deepAbort (takeReq r s)) := keeps_ite ht (deepAbort_keeps _ ht)
  unfold gate
  dsimp only
  generalize (if aniseRead r op = true then takeReq r s else deepAbort (takeReq r s)) = t at h1 ⊢
  repeat' (first | (with_reducible apply keeps_gate) | exact dropRequest_keeps r s hs | exact replyPlain_keeps _ _ _ _ _ h1 | exact h1 | exact hs)
theorem serve_keeps (r : Req) (op : Nat) (free : State → Bool) (f : State → Nat → Ans) (s : State)
    (hf : ∀ (x0 : State) (x1 : Nat), Keeps q x0 → Keeps q (f x0 x1).st) (hs : Keeps q s) : Keeps q (serve r op free f s) := by
  have h := gate_keeps r op free s hs
  unfold serve
  generalize gate r op free s = g at h ⊢
  rcases g with t | t | t
  · exact h
  · exact replyPlain_keeps _ _ _ _ _ (hf _ _ h)
  · dsimp only
    split
    · exact refuse_keeps _ _ _ _ h
    · exact sendReply_keeps _ _ h
    · exact replyIn_keeps _ _ _ _ _ _ h (keeps_ite (modeFirst_keeps _ _ _ h (hf _ _ h)) h)

theorem ansOK_keeps (s : State) (hs : Keeps q s) :
    Keeps q (ansOK s).st := ⟨hs.1, hs.2, hs.3⟩

theorem State.setSlot_keeps (s : State) (k : Nat) (v : Slot) (hs : Keeps q s) :
    Keeps q (State.setSlot s k v) := ⟨hs.1, hs.2, hs.3⟩

theorem endSlot_keeps (k : Nat) (st : SlotState) (code : Nat) (res : Bytes) (s : State) (hs : Keeps q s) :
    Keeps q (endSlot k st code res s) := by
  unfold endSlot
  (try dsimp only)
  repeat' (first | intro _ | with_reducible assumption | with_reducible apply keeps_ite | with_reducible apply State.setSlot_keeps | (simp only [keeps_mk]; with_reducible apply Keeps.both))

theorem takeSlot_keeps {s : State} {idx sub role : Nat} {w : Work} {a t} (he : takeSlot s idx sub role w = some (a, t)) (hs : Keeps q s) :
    Keeps q t := by
  unfold takeSlot at he
  split at he
  · contradiction
  · simp only [Option.some.injEq, Prod.mk.injEq] at he
    obtain ⟨-, rfl⟩ := he
    simp only [keeps_mk]
    exact (State.setSlot_keeps _ _ _ hs).both

theorem judgeWrite_keeps (r : Req) (op : Nat) (idx : Nat) (sub : Nat) (lc : State → Nat → Bool) (md : State → Nat → Bool) (rg : State → Bytes → Bool) (value : State → Ent → Nat × Bytes) (f : State → Nat → Bytes → Ans) (s : State) (role : Nat) (hf : ∀ (x0 : State) (x1 : Nat) (x2 : Bytes), Keeps q x0 → Keeps q (f x0 x1 x2).st) (hs : Keeps q s) :
    Keeps q (judgeWrite r op idx sub lc md rg value f s role).st := by
  unfold judgeWrite
  (try dsimp only)
  repeat' (first | with_reducible assumption | with_reducible apply keeps_ite | with_reducible apply ansErr_keeps | with_reducible apply hf | contradiction | split)

theorem serveWrite_keeps (r : Req) (idx : Nat) (sub : Nat) (lc : State → Nat → Bool) (md : State → Nat → Bool) (rg : State → Bytes → Bool) (f : State → Nat → Bytes → Ans) (s : State) (hf : ∀ (x0 : State) (x1 : Nat) (x2 : Bytes), Keeps q x0 → Keeps q (f x0 x1 x2).st) (hs : Keeps q s) :
    Keeps q (serveWrite r idx sub lc md rg f s) := by
  unfold serveWrite
  (try dsimp only)
  repeat' (first | intro _ | with_reducible assumption | with_reducible apply serve_keeps | with_reducible apply judgeWrite_keeps | with_reducible apply hf)

theorem runSlot_keeps (k : Nat) (s : State) (hs : Keeps q s) :
    Keeps q (runSlot k s) := by
  unfold runSlot
  (try dsimp only)
  repeat' (first | with_reducible assumption | with_reducible apply State.setSlot_keeps)

theorem startOp_keeps (idx sub role : Nat) (w : Work) (v : Bytes) (run : Nat → State → State) (s : State)
    (hrun : ∀ (x0 : Nat) (x1 : State), Keeps q x1 → Keeps q (run x0 x1)) (hs : Keeps q s) : Keeps q (startOp idx sub role w v run s).st := by
  unfold startOp
  split
  · exact hrun _ _ (runSlot_keeps _ _ hs)
  · split
    · exact hs
    · split
      · exact hs
      · have ht := takeSlot_keeps ‹_› hs
        exact keeps_ite (State.setSlot_keeps _ _ _ ht) (hrun _ _ (runSlot_keeps _ _ ht))

theorem applyClose_keeps (s : State) (hs : Keeps q s) :
    Keeps q (applyClose s) := by
  unfold applyClose
  (try dsimp only)
  repeat' (first | intro _ | with_reducible assumption | with_reducible apply State.setForce_keeps | with_reducible apply keeps_foldl)

theorem doneSlot_keeps (k : Nat) (res : Bytes) (s : State) (hs : Keeps q s) :
    Keeps q (doneSlot k res s) := by
  unfold doneSlot
  (try dsimp only)
  repeat' (first | with_reducible assumption | with_reducible apply endSlot_keeps)

theorem closeSession_keeps (s : State) (hs : Keeps q s) :
    Keeps q (closeSession s) := by
  unfold closeSession
  (try dsimp only)
  repeat' (first | with_reducible assumption | with_reducible apply keeps_ite | with_reducible apply applyClose_keeps | (simp only [keeps_mk]; with_reducible apply Keeps.both))

theorem endSessions_keeps (s : State) (hs : Keeps q s) :
    Keeps q (endSessions s) := by
  unfold endSessions
  (try dsimp only)
  repeat' (first | with_reducible assumption | with_reducible apply closeSession_keeps | (simp only [keeps_mk]; with_reducible apply Keeps.both))

theorem abortSlots_keeps (code : Nat) (s : State) (hs : Keeps q s) :
    Keeps q (abortSlots code s) := by
  unfold abortSlots
  (try dsimp only)
  repeat' (first | intro _ | with_reducible assumption | with_reducible apply keeps_ite | (simp only [keeps_mk]; with_reducible apply Keeps.both))

theorem failSlot_keeps (k : Nat) (code : Nat) (s : State) (hs : Keeps q s) :
    Keeps q (failSlot k code s) := by
  unfold failSlot
  (try dsimp only)
  repeat' (first | with_reducible assumption | with_reducible apply endSlot_keeps)

theorem vbatInc_keeps (k : Nat) (s : State) (hs : Keeps q s) :
    Keeps q (vbatInc k s) := ⟨hs.1, hs.2, hs.3⟩

theorem logEvent_keeps (ty : Nat) (src : Nat) (act : Nat) (data : Nat) (s : State) (hs : Keeps q s) :
    Keeps q (logEvent ty src act data s) := by
  unfold logEvent
  (try dsimp only)
  repeat' (first | with_reducible assumption | with_reducible apply keeps_ite | with_reducible apply vbatInc_keeps | (simp only [keeps_mk]; with_reducible apply Keeps.both))

theorem setRtc_keeps (t : Nat) (s : State) (hs : Keeps q s) :
    Keeps q (setRtc t s) := ⟨hs.1, hs.2, hs.3⟩

theorem logEventAt_keeps (t : Nat) (ty : Nat) (src : Nat) (act : Nat) (data : Nat) (s : State) (hs : Keeps q s) :
    Keeps q (logEventAt t ty src act data s) := by
  unfold logEventAt
  (try dsimp only)
  repeat' (first | with_reducible assumption | with_reducible apply logEvent_keeps | (simp only [keeps_mk]; with_reducible apply Keeps.both))

theorem mrExtend_keeps (z0 : MrReq) (s : State) (hs : Keeps q s) :
    Keeps q (mrExtend z0 s) := ⟨hs.1, hs.2, hs.3⟩

theorem mrMeasure_keeps (m : Nat) (source : Nat) (aux : Nat) (v : Bytes) (s : State) (hs : Keeps q s) :
    Keeps q (mrMeasure m source aux v s) := by
  unfold mrMeasure
  (try dsimp only)
  repeat' (first | with_reducible assumption | with_reducible apply mrExtend_keeps)

theorem mrBoot_keeps (opts : Bytes) (s : State) (hs : Keeps q s) :
    Keeps q (mrBoot opts s) := by
  unfold mrBoot
  (try dsimp only)
  repeat' (first | with_reducible assumption | with_reducible apply mrMeasure_keeps)

theorem mrPerform_keeps (z0 : MrReq) (s : State) (hs : Keeps q s) :
    Keeps q (mrPerform z0 s) := by
  unfold mrPerform
  (try dsimp only)
  repeat' (first | with_reducible assumption | with_reducible apply keeps_ite | with_reducible apply State.setNum_keeps | with_reducible apply State.bump_keeps | (simp only [keeps_mk]; with_reducible apply Keeps.both))

end Sys2Proof.Machine
end

