-- ==== Sys2Proof/Laws/KeepsUnits.lean ====
section
/-!
SUPPORT. What every function keeps (the operations of storage, units, keys, power and ports): the queue of waiting commands, the canonical form of the MRAM,
and every fuse bit that is blown. One lemma per function; later lemmas cite the earlier ones.
-/
namespace Sys2Proof.Machine
variable {q : State}

theorem setOrGuard_keeps (k : Nat) (g : OpenRegion) (s : State) (hs : Keeps q s) :
    Keeps q (setOrGuard k g s) := by
  unfold setOrGuard
  (try dsimp only)
  repeat' (first | with_reducible assumption | with_reducible apply keeps_ite | (simp only [keeps_mk]; with_reducible apply Keeps.both))

theorem burnRemap_keeps (k v : Nat) (s : State) (hs : Keeps q s) : Keeps q (burnRemap k v s) := by
  refine ⟨hs.1, hs.2, fun w b h => fuseOf_place _ _ _ w b (hs.3 w b h) ?_⟩
  show s.fuse _ ||| (s.fuse _ ||| _) = s.fuse _ ||| _
  rw [← Nat.or_assoc, Nat.or_self]

theorem remapPage_keeps {p n : Nat} {s : State} {t} (he : remapPage p n s = some t) (hs : Keeps q s) : Keeps q t := by
  induction n generalizing s with
  | zero =>
    unfold remapPage at he
    split at he
    · contradiction
    · rename_i k _
      injection he with he
      subst he
      apply logEvent_keeps
      have h := burnRemap_keeps k (2 ^ 15 + p) s hs
      simp only [keeps_mk]
      exact ⟨h.1, fun w => pageStore_wf _ _ _ _ (h.2 w), h.3⟩
  | succ n ih =>
    unfold remapPage at he
    split at he
    · contradiction
    · exact ih he (burnRemap_keeps _ _ _ ⟨hs.1, hs.2, hs.3⟩)

theorem burnFuse_keeps (w v stuck : Nat) (s : State) (hs : Keeps q s) : Keeps q (burnFuse w v stuck s).2 := by
  refine ⟨hs.1, hs.2, fun x b h => fuseOf_place _ _ _ x b (hs.3 x b h) ?_⟩
  show s.fuse _ ||| (s.fuse _ ||| _) = s.fuse _ ||| _
  rw [← Nat.or_assoc, Nat.or_self]

theorem burnAllBad_keeps (s : State) (hs : Keeps q s) :
    Keeps q (burnAllBad s) := by
  unfold burnAllBad
  (try dsimp only)
  repeat' (first | intro _ | with_reducible assumption | with_reducible apply keeps_ite | with_reducible apply burnRemap_keeps | (simp only [keeps_mk]; with_reducible apply Keeps.both) | with_reducible apply keeps_foldl)

theorem programPage_keeps (p off : Nat) (bs : Bytes) (fails : Nat) (s : State) (hs : Keeps q s) : Keeps q (programPage p off bs fails s).2 := by
  have put (t : State) (h : Keeps q t) : Keeps q { t with nvm := { mendPage (physPage t p) off bs.length t.nvm with
      mram := pageStore t.nvm.mram (physPage t p) off bs } } :=
    ⟨h.1, fun w => pageStore_wf _ _ _ _ (h.2 w), h.3⟩
  unfold programPage
  dsimp only
  split
  · exact hs
  · split
    · exact hs
    · split
      · exact put _ hs
      · split
        · exact put _ (remapPage_keeps ‹_› hs)
        · have hb := burnAllBad_keeps s hs
          generalize burnAllBad s = t at hb ⊢
          exact ⟨hb.1, hb.2, hb.3⟩

theorem ctrProgram_keeps (k : Nat) (c : Nat) (v : Nat) (fails : Nat) (s : State) (hs : Keeps q s) :
    Keeps q (ctrProgram k c v fails s).2 := by
  unfold ctrProgram
  (try dsimp only)
  repeat' (first | with_reducible assumption | with_reducible apply programPage_keeps)

theorem ctrWrite_keeps (k : Nat) (v : Nat) (fails : Nat) (s : State) (hs : Keeps q s) :
    Keeps q (ctrWrite k v fails s).2 := by
  unfold ctrWrite
  (try dsimp only)
  repeat' (first | with_reducible assumption | with_reducible apply keeps_ite | with_reducible apply keeps_ite2 | with_reducible apply ctrProgram_keeps)

theorem ctrRead_keeps (k : Nat) (s : State) (hs : Keeps q s) :
    Keeps q (ctrRead k s).2 := by
  unfold ctrRead
  (try dsimp only)
  repeat' (first | with_reducible assumption | with_reducible apply keeps_ite | with_reducible apply keeps_ite2 | with_reducible apply logEvent_keeps | with_reducible apply State.bump_keeps | with_reducible apply ctrProgram_keeps)

theorem ctrIncrement_keeps (k : Nat) (fails : Nat) (s : State) (hs : Keeps q s) :
    Keeps q (ctrIncrement k fails s).2 := by
  unfold ctrIncrement
  (try dsimp only)
  repeat' (first | with_reducible assumption | with_reducible apply keeps_ite | with_reducible apply keeps_ite2 | with_reducible apply ctrRead_keeps | with_reducible apply ctrWrite_keeps)

theorem ctrRaise_keeps (k : Nat) (v : Nat) (fails : Nat) (s : State) (hs : Keeps q s) :
    Keeps q (ctrRaise k v fails s).2 := by
  unfold ctrRaise
  (try dsimp only)
  repeat' (first | with_reducible assumption | with_reducible apply keeps_ite | with_reducible apply keeps_ite2 | with_reducible apply ctrRead_keeps | with_reducible apply ctrWrite_keeps)

theorem burnLcs_keeps (l : Lcs) (s : State) (hs : Keeps q s) :
    Keeps q (burnLcs l s) := by
  unfold burnLcs
  (try dsimp only)
  repeat' (first | intro _ | with_reducible assumption | with_reducible apply burnFuse_keeps | with_reducible apply mrMeasure_keeps | with_reducible apply logEvent_keeps | with_reducible apply State.setLcs_keeps | with_reducible apply keeps_foldl)

theorem noteDamaged_keeps (cls : Nat) (p0 : Nat) (p1 : Nat) (ok0 : Bool) (ok1 : Bool) (s : State) (hs : Keeps q s) :
    Keeps q (noteDamaged cls p0 p1 ok0 ok1 s) := by
  unfold noteDamaged
  (try dsimp only)
  repeat' (first | with_reducible assumption | with_reducible apply keeps_ite | with_reducible apply logEvent_keeps)

theorem State.setLane_keeps (s : State) (n : Nat) (v : Lane) (hs : Keeps q s) :
    Keeps q (State.setLane s n v) := by
  unfold State.setLane
  (try dsimp only)
  repeat' (first | intro _ | with_reducible assumption | with_reducible apply keeps_ite | contradiction | split | (simp only [keeps_mk]; with_reducible apply Keeps.both))

theorem State.setSpare_keeps (s : State) (k : Nat) (v : Spare) (hs : Keeps q s) :
    Keeps q (State.setSpare s k v) := by
  unfold State.setSpare
  (try dsimp only)
  repeat' (first | intro _ | with_reducible assumption | with_reducible apply keeps_ite | contradiction | split | (simp only [keeps_mk]; with_reducible apply Keeps.both))

theorem State.setHq_keeps (s : State) (z1 : Nat) (v : HostQ) (hs : Keeps q s) :
    Keeps q (State.setHq s z1 v) := by
  unfold State.setHq
  (try dsimp only)
  repeat' (first | intro _ | with_reducible assumption | with_reducible apply keeps_ite | contradiction | split | (simp only [keeps_mk]; with_reducible apply Keeps.both))

theorem State.setAud_keeps (s : State) (d : Nat) (v : AudUnit) (hs : Keeps q s) :
    Keeps q (State.setAud s d v) := by
  unfold State.setAud
  (try dsimp only)
  repeat' (first | intro _ | with_reducible assumption | with_reducible apply keeps_ite | contradiction | split | (simp only [keeps_mk]; with_reducible apply Keeps.both))

theorem State.setJob_keeps (s : State) (j : Nat) (v : Job) (hs : Keeps q s) :
    Keeps q (State.setJob s j v) := by
  unfold State.setJob
  (try dsimp only)
  repeat' (first | intro _ | with_reducible assumption | with_reducible apply keeps_ite | contradiction | split | (simp only [keeps_mk]; with_reducible apply Keeps.both))

theorem State.setDisp_keeps (s : State) (d : Nat) (v : Dispatch) (hs : Keeps q s) :
    Keeps q (State.setDisp s d v) := by
  unfold State.setDisp
  (try dsimp only)
  repeat' (first | intro _ | with_reducible assumption | with_reducible apply keeps_ite | contradiction | split | (simp only [keeps_mk]; with_reducible apply Keeps.both))

theorem State.setSrc_keeps (s : State) (p : Nat) (v : Source) (hs : Keeps q s) :
    Keeps q (State.setSrc s p v) := by
  unfold State.setSrc
  (try dsimp only)
  repeat' (first | intro _ | with_reducible assumption | with_reducible apply keeps_ite | contradiction | split | (simp only [keeps_mk]; with_reducible apply Keeps.both))

theorem State.setActTab_keeps (s : State) (d : Nat) (v : ActTable) (hs : Keeps q s) :
    Keeps q (State.setActTab s d v) := by
  unfold State.setActTab
  (try dsimp only)
  repeat' (first | intro _ | with_reducible assumption | with_reducible apply keeps_ite | contradiction | split | (simp only [keeps_mk]; with_reducible apply Keeps.both))

theorem State.setQuad_keeps (s : State) (z1 : Nat) (v : Quad) (hs : Keeps q s) :
    Keeps q (State.setQuad s z1 v) := by
  unfold State.setQuad
  (try dsimp only)
  repeat' (first | intro _ | with_reducible assumption | with_reducible apply keeps_ite | contradiction | split | (simp only [keeps_mk]; with_reducible apply Keeps.both))

theorem State.setWin_keeps (s : State) (d : Nat) (n : Nat) (v : Window) (hs : Keeps q s) :
    Keeps q (State.setWin s d n v) := by
  unfold State.setWin
  (try dsimp only)
  repeat' (first | intro _ | with_reducible assumption | with_reducible apply keeps_ite | with_reducible apply State.setActTab_keeps)

theorem freeRun_keeps (h : Nat) (s : State) (hs : Keeps q s) :
    Keeps q (freeRun h s) := by
  unfold freeRun
  (try dsimp only)
  repeat' (first | intro _ | with_reducible assumption | with_reducible apply keeps_ite | contradiction | split | (simp only [keeps_mk]; with_reducible apply Keeps.both))

theorem State.setNode_keeps (s : State) (id : Nat) (v : Node) (hs : Keeps q s) :
    Keeps q (State.setNode s id v) := by
  unfold State.setNode
  (try dsimp only)
  repeat' (first | intro _ | with_reducible assumption | with_reducible apply keeps_ite | contradiction | split | (simp only [keeps_mk]; with_reducible apply Keeps.both))

theorem State.setRun_keeps (s : State) (h : Nat) (v : KRun) (hs : Keeps q s) :
    Keeps q (State.setRun s h v) := by
  unfold State.setRun
  (try dsimp only)
  repeat' (first | intro _ | with_reducible assumption | with_reducible apply keeps_ite | contradiction | split | (simp only [keeps_mk]; with_reducible apply Keeps.both))

theorem startScan_keeps (id : Nat) (s : State) (hs : Keeps q s) :
    Keeps q (startScan id s) := by
  unfold startScan
  (try dsimp only)
  repeat' (first | with_reducible assumption | with_reducible apply State.bump_keeps | (simp only [keeps_mk]; with_reducible apply Keeps.both))

theorem nodeUnusable_keeps (id : Nat) (src : Nat) (data : Nat) (s : State) (hs : Keeps q s) :
    Keeps q (nodeUnusable id src data s) := by
  unfold nodeUnusable
  (try dsimp only)
  repeat' (first | with_reducible assumption | with_reducible apply keeps_ite | with_reducible apply State.bump_keeps | with_reducible apply freeRun_keeps | with_reducible apply failSlot_keeps | with_reducible apply State.setNode_keeps | with_reducible apply State.setRun_keeps | with_reducible apply startScan_keeps | with_reducible apply logEvent_keeps | contradiction | split | (simp only [keeps_mk]; with_reducible apply Keeps.both))

theorem deliver_keeps (id : Nat) (input : Bytes) (du dest : Nat) (s : State) (hs : Keeps q s) : Keeps q (deliver id input du dest s).st := by
  unfold deliver
  dsimp only
  repeat' (first | exact hs | (with_reducible apply keeps_iteD) | (with_reducible apply nodeUnusable_keeps) | (with_reducible apply keeps_foldl) | (intro _ _ h; exact nodeUnusable_keeps _ _ _ _ h) | split)

theorem runDelivery_keeps (pipe : Nat) (v : Delivery) (s : State) (hs : Keeps q s) :
    Keeps q (runDelivery pipe v s) := by
  unfold runDelivery
  (try dsimp only)
  repeat' (first | intro _ | with_reducible assumption | with_reducible apply keeps_ite | with_reducible apply State.at_keeps | with_reducible apply deliver_keeps | with_reducible apply State.bump_keeps | (simp only [keeps_mk]; with_reducible apply Keeps.both))

theorem allocRun_keeps {owner kt param role version : Nat} {key pub : Bytes} {reserved : Bool} {s : State} {a t}
    (he : allocRun owner kt param role version key pub reserved s = some (a, t)) (hs : Keeps q s) : Keeps q t := by
  unfold allocRun at he
  dsimp only at he
  split at he
  · contradiction
  · simp only [Option.some.injEq, Prod.mk.injEq] at he
    obtain ⟨-, rfl⟩ := he
    exact State.setRun_keeps _ _ _ hs

theorem pastDelivs_keeps (n : Nat) (s : State) (hs : Keeps q s) : Keeps q (pastDelivs n s) := by
  induction n generalizing s with
  | zero => exact hs
  | succ n ih =>
    unfold pastDelivs
    split
    · exact hs
    · exact ih _ (runDelivery_keeps _ _ _ hs)

theorem settleDelivs_keeps (s : State) (hs : Keeps q s) :
    Keeps q (settleDelivs s) := by
  unfold settleDelivs
  (try dsimp only)
  repeat' (first | with_reducible assumption | with_reducible apply pastDelivs_keeps)

theorem ecdsaDraw_keeps (c : Curve) (d : Nat) (h : Bytes) (s : State) (hs : Keeps q s) :
    Keeps q (ecdsaDraw c d h s).2 := by
  unfold ecdsaDraw
  (try dsimp only)
  repeat' (first | intro _ | with_reducible assumption | with_reducible apply State.draw_keeps)

theorem restoreAnchor_keeps (a : Nat) (s : State) (hs : Keeps q s) : Keeps q (restoreAnchor a s) := by
  unfold restoreAnchor
  extract_lets blank setSt
  have st (v : Nat) (t : State) (h : Keeps q t) : Keeps q (setSt v t) := ⟨h.1, h.2, h.3⟩
  split
  · exact keeps_ite hs (st _ _ (State.setNode_keeps _ _ _ hs))
  · extract_lets t r n wl bad
    have ht : Keeps q t := keeps_ite hs (logEvent_keeps _ _ _ _ _ hs)
    refine keeps_ite (st _ _ (State.setNode_keeps _ _ _ ht)) ?_
    split
    rename_i awk aik _
    have hb : Keeps q bad := st _ _ (State.setNode_keeps _ _ _ ht)
    refine keeps_ite hb ?_
    split
    · exact hb
    · exact keeps_ite hb (st _ _ (State.setNode_keeps _ _ _ ⟨ht.1, ht.2, ht.3⟩))

theorem writeAnchor_keeps (a : Nat) (c : Nat) (rec : Bytes) (s : State) (hs : Keeps q s) :
    Keeps q (writeAnchor a c rec s).2 := by
  unfold writeAnchor
  (try dsimp only)
  repeat' (first | with_reducible assumption | with_reducible apply programPage_keeps)

theorem putAnchor_keeps (a : Nat) (n : Node) (key : Bytes) (s : State) (hs : Keeps q s) :
    Keeps q (putAnchor a n key s).2 := by
  unfold putAnchor
  (try dsimp only)
  repeat' (first | with_reducible assumption | with_reducible apply keeps_ite | with_reducible apply keeps_ite2 | with_reducible apply writeAnchor_keeps | with_reducible apply State.setNode_keeps | (simp only [keeps_mk]; with_reducible apply Keeps.both))

theorem State.setBg_keeps (s : State) (d : Nat) (v : PkBg) (hs : Keeps q s) :
    Keeps q (State.setBg s d v) := by
  unfold State.setBg
  (try dsimp only)
  repeat' (first | intro _ | with_reducible assumption | with_reducible apply keeps_ite | contradiction | split | (simp only [keeps_mk]; with_reducible apply Keeps.both))

theorem recomputeRated_keeps (s : State) (hs : Keeps q s) :
    Keeps q (recomputeRated s) := by
  unfold recomputeRated
  (try dsimp only)
  repeat' (first | intro _ | with_reducible assumption | with_reducible apply keeps_ite | with_reducible apply State.setNum_keeps | (simp only [keeps_mk]; with_reducible apply Keeps.both) | with_reducible apply keeps_foldl)

theorem emptyCache_keeps (z0 : Nat) (s : State) (hs : Keeps q s) :
    Keeps q (emptyCache z0 s) := by
  unfold emptyCache
  (try dsimp only)
  repeat' (first | intro _ | with_reducible assumption | with_reducible apply State.setQuad_keeps)

theorem State.setEng_keeps (s : State) (e : Nat) (v : PkEng) (hs : Keeps q s) :
    Keeps q (State.setEng s e v) := by
  unfold State.setEng
  (try dsimp only)
  repeat' (first | intro _ | with_reducible assumption | with_reducible apply keeps_ite | contradiction | split | (simp only [keeps_mk]; with_reducible apply Keeps.both))

theorem zeroisePkDie_keeps (d : Nat) (s : State) (hs : Keeps q s) :
    Keeps q (zeroisePkDie d s) := by
  unfold zeroisePkDie
  (try dsimp only)
  repeat' (first | intro _ | with_reducible assumption | with_reducible apply State.setEng_keeps | with_reducible apply keeps_foldl)

theorem loseDomain_keeps (d : Nat) (s : State) (hs : Keeps q s) :
    Keeps q (loseDomain d s) := by
  unfold loseDomain
  (try dsimp only)
  repeat' (first | intro _ | with_reducible assumption | with_reducible apply keeps_ite | with_reducible apply emptyCache_keeps | with_reducible apply State.setQuad_keeps | with_reducible apply zeroisePkDie_keeps | with_reducible apply State.setLane_keeps | with_reducible apply State.setAud_keeps | with_reducible apply State.setDisp_keeps | (simp only [keeps_mk]; with_reducible apply Keeps.both) | with_reducible apply keeps_foldl)

theorem actReset_keeps (s : State) (hs : Keeps q s) :
    Keeps q (actReset s) := ⟨hs.1, hs.2, hs.3⟩

theorem winEnable_keeps (die : Nat) (n : Nat) (s : State) (hs : Keeps q s) :
    Keeps q (winEnable die n s) := by
  unfold winEnable
  (try dsimp only)
  repeat' (first | with_reducible assumption | with_reducible apply State.setWin_keeps)

theorem recordViolation_keeps (ini : Nat) (addr : Nat) (kind : Nat) (cause : Nat) (prec : Bool) (pcv : Bool) (info : Nat) (s : State) (hs : Keeps q s) :
    Keeps q (recordViolation ini addr kind cause prec pcv info s) := by
  unfold recordViolation
  (try dsimp only)
  repeat' (first | with_reducible assumption | with_reducible apply keeps_ite | with_reducible apply State.bump_keeps | with_reducible apply State.setActTab_keeps | with_reducible apply State.noteSet_keeps)

theorem winRewrite_keeps (die : Nat) (n : Nat) (region : Nat) (lo : Nat) (hi : Nat) (rights : Nat) (first : Nat) (last : Nat) (en : Bool) (s : State) (hs : Keeps q s) :
    Keeps q (winRewrite die n region lo hi rights first last en s) := by
  unfold winRewrite
  (try dsimp only)
  repeat' (first | with_reducible assumption | with_reducible apply keeps_ite | with_reducible apply State.setWin_keeps | with_reducible apply winEnable_keeps)

theorem applySharedWindow_keeps (k : Nat) (s : State) (hs : Keeps q s) :
    Keeps q (applySharedWindow k s) := by
  unfold applySharedWindow
  (try dsimp only)
  repeat' (first | with_reducible assumption | with_reducible apply winRewrite_keeps)

theorem judged_keeps (ini : Nat) (addr : Nat) (kind : Nat) (prec : Bool) (pcv : Bool) (info : Nat) (s : State) (hs : Keeps q s) :
    Keeps q (judged ini addr kind prec pcv info s).2 := by
  unfold judged
  (try dsimp only)
  repeat' (first | with_reducible assumption | with_reducible apply keeps_ite | with_reducible apply keeps_ite2 | with_reducible apply recordViolation_keeps)

theorem dmaJudge_keeps (ini kind : Nat) (l : List (Nat × Nat)) (done : Nat) (s : State) (hs : Keeps q s) :
    Keeps q (dmaJudge ini kind l done s).2.2 := by
  induction l generalizing done with
  | nil => exact hs
  | cons e l ih =>
    unfold dmaJudge
    dsimp only
    split
    · exact ih _
    · exact recordViolation_keeps _ _ _ _ _ _ _ _ hs

theorem applyHostWindow_keeps (k : Nat) (s : State) (hs : Keeps q s) :
    Keeps q (applyHostWindow k s) := by
  unfold applyHostWindow
  (try dsimp only)
  repeat' (first | with_reducible assumption | with_reducible apply winRewrite_keeps)

theorem dma_keeps (ini : Nat) (kind : Nat) (addr : Nat) (len : Nat) (s : State) (hs : Keeps q s) :
    Keeps q (dma ini kind addr len s).2.2 := by
  unfold dma
  (try dsimp only)
  repeat' (first | with_reducible assumption | with_reducible apply dmaJudge_keeps)

theorem winLock_keeps (die : Nat) (n : Nat) (s : State) (hs : Keeps q s) :
    Keeps q (winLock die n s) := by
  unfold winLock
  (try dsimp only)
  repeat' (first | with_reducible assumption | with_reducible apply keeps_ite | with_reducible apply State.setWin_keeps)

theorem actCoreKd_keeps (s : State) (hs : Keeps q s) :
    Keeps q (actCoreKd s) := by
  unfold actCoreKd
  (try dsimp only)
  repeat' (first | intro _ | with_reducible assumption | with_reducible apply keeps_ite | with_reducible apply State.setActTab_keeps | (simp only [keeps_mk]; with_reducible apply Keeps.both) | with_reducible apply keeps_foldl)

theorem fabPut_keeps (region : Nat) (off : Nat) (b : Byte) (s : State) (hs : Keeps q s) :
    Keeps q (fabPut region off b s) := by
  unfold fabPut
  (try dsimp only)
  repeat' (first | with_reducible assumption | with_reducible apply keeps_ite | with_reducible apply State.setLane_keeps | with_reducible apply State.setJob_keeps | contradiction | split | (simp only [keeps_mk]; with_reducible apply Keeps.both))

theorem fabWrite_keeps (region : Nat) (off : Nat) (bs : Bytes) (s : State) (hs : Keeps q s) :
    Keeps q (fabWrite region off bs s) := by
  unfold fabWrite
  (try dsimp only)
  repeat' (first | intro _ | with_reducible assumption | with_reducible apply keeps_ite | with_reducible apply State.emit_keeps | with_reducible apply fabPut_keeps | with_reducible apply keeps_foldl)

theorem fabRead_keeps (region : Nat) (off : Nat) (n : Nat) (s : State) (hs : Keeps q s) :
    Keeps q (fabRead region off n s).2 := by
  unfold fabRead
  (try dsimp only)
  repeat' (first | intro _ | with_reducible assumption | with_reducible apply keeps_ite | with_reducible apply keeps_ite2 | with_reducible apply State.draw_keeps)

theorem pkSet_keeps (e : Nat) (j : PkJob) (s : State) (hs : Keeps q s) :
    Keeps q (pkSet e j s) := by
  unfold pkSet
  (try dsimp only)
  repeat' (first | intro _ | with_reducible assumption | with_reducible apply keeps_ite | with_reducible apply State.setEng_keeps)

theorem pkFirstBg_keeps (e : Nat) (j : PkJob) (s : State) (hs : Keeps q s) :
    Keeps q (pkFirstBg e j s) := by
  unfold pkFirstBg
  (try dsimp only)
  repeat' (first | with_reducible assumption | with_reducible apply keeps_ite | with_reducible apply State.setBg_keeps | with_reducible apply pkSet_keeps | with_reducible apply dma_keeps | with_reducible apply fabRead_keeps | contradiction | split)

theorem pkFirst_keeps (e : Nat) (j : PkJob) (s : State) (hs : Keeps q s) :
    Keeps q (pkFirst e j s) := by
  unfold pkFirst
  (try dsimp only)
  repeat' (first | intro _ | with_reducible assumption | with_reducible apply keeps_ite | with_reducible apply pkSet_keeps | with_reducible apply pkFirstBg_keeps | with_reducible apply dmaJudge_keeps | contradiction | split)

theorem pkKick_keeps (e : Nat) (t : Nat) (s : State) (hs : Keeps q s) :
    Keeps q (pkKick e t s) := by
  unfold pkKick
  (try dsimp only)
  repeat' (first | with_reducible assumption | with_reducible apply keeps_ite | with_reducible apply State.setEng_keeps | with_reducible apply pkFirst_keeps | contradiction | split)

theorem pkRemove_keeps (e : Nat) (seq : Nat) (t : Nat) (s : State) (hs : Keeps q s) :
    Keeps q (pkRemove e seq t s) := by
  unfold pkRemove
  (try dsimp only)
  repeat' (first | intro _ | with_reducible assumption | with_reducible apply keeps_ite | with_reducible apply pkKick_keeps | with_reducible apply State.setEng_keeps)

theorem pkRelease_keeps (e : Nat) (seq : Nat) (s : State) (hs : Keeps q s) :
    Keeps q (pkRelease e seq s) := by
  unfold pkRelease
  (try dsimp only)
  repeat' (first | intro _ | with_reducible assumption | with_reducible apply keeps_ite | with_reducible apply State.at_keeps | with_reducible apply pkKick_keeps | with_reducible apply pkSet_keeps | contradiction | split)

theorem pkAdd_keeps (e : Nat) (j : PkJob) (s : State) (hs : Keeps q s) :
    Keeps q (pkAdd e j s) := by
  unfold pkAdd
  (try dsimp only)
  repeat' (first | with_reducible assumption | with_reducible apply State.setEng_keeps | (simp only [keeps_mk]; with_reducible apply Keeps.both))

theorem pkCancel_keeps (e : Nat) (seq : Nat) (s : State) (hs : Keeps q s) :
    Keeps q (pkCancel e seq s) := by
  unfold pkCancel
  (try dsimp only)
  repeat' (first | intro _ | with_reducible assumption | with_reducible apply keeps_ite | with_reducible apply State.setEng_keeps)

theorem pkDrop_keeps (jn : Nat) (s : State) (hs : Keeps q s) :
    Keeps q (pkDrop jn s) := by
  unfold pkDrop
  (try dsimp only)
  repeat' (first | with_reducible assumption | with_reducible apply pkCancel_keeps | with_reducible apply State.setJob_keeps | contradiction | split)

theorem recordWake_keeps (src : Nat) (idx : Nat) (dom : Nat) (flags : Nat) (stall : Nat) (s : State) (hs : Keeps q s) :
    Keeps q (recordWake src idx dom flags stall s) := ⟨hs.1, hs.2, hs.3⟩

theorem settleDegraded_keeps (s : State) (hs : Keeps q s) :
    Keeps q (settleDegraded s) := by
  unfold settleDegraded
  (try dsimp only)
  repeat' (first | with_reducible assumption | with_reducible apply keeps_ite | with_reducible apply recomputeRated_keeps | with_reducible apply State.setMode_keeps | (simp only [keeps_mk]; with_reducible apply Keeps.both))

theorem dozeLeave_keeps (s : State) (hs : Keeps q s) :
    Keeps q (dozeLeave s) := by
  unfold dozeLeave
  (try dsimp only)
  repeat' (first | with_reducible assumption | with_reducible apply keeps_ite | with_reducible apply settleDegraded_keeps | with_reducible apply State.setMode_keeps)

theorem switchOn_keeps (d : Nat) (src : Nat) (idx : Nat) (rev : Bool) (from_ : Nat) (s : State) (hs : Keeps q s) :
    Keeps q (switchOn d src idx rev from_ s) := by
  unfold switchOn
  (try dsimp only)
  repeat' (first | with_reducible assumption | with_reducible apply keeps_ite | with_reducible apply State.setDom_keeps | with_reducible apply State.bump_keeps | with_reducible apply dozeLeave_keeps)

theorem rearmIdle_keeps (d : Nat) (s : State) (hs : Keeps q s) :
    Keeps q (rearmIdle d s) := by
  unfold rearmIdle
  (try dsimp only)
  repeat' (first | with_reducible assumption | with_reducible apply keeps_ite | with_reducible apply State.setDom_keeps)

theorem coWake_keeps (d : Nat) (src : Nat) (idx : Nat) (s : State) (hs : Keeps q s) :
    Keeps q (coWake d src idx s) := by
  unfold coWake
  (try dsimp only)
  repeat' (first | intro _ | with_reducible assumption | with_reducible apply keeps_ite | (simp only [keeps_mk]; with_reducible apply Keeps.both))

theorem holdWake_keeps (d : Nat) (src : Nat) (idx : Nat) (s : State) (hs : Keeps q s) :
    Keeps q (holdWake d src idx s) := by
  unfold holdWake
  (try dsimp only)
  repeat' (first | with_reducible assumption | with_reducible apply keeps_ite | with_reducible apply coWake_keeps | with_reducible apply State.bump_keeps | with_reducible apply recordWake_keeps | with_reducible apply State.setDom_keeps)

theorem wakeDomain_keeps (d : Nat) (src : Nat) (idx : Nat) (s : State) (hs : Keeps q s) :
    Keeps q (wakeDomain d src idx s) := by
  unfold wakeDomain
  (try dsimp only)
  repeat' (first | with_reducible assumption | with_reducible apply keeps_ite | with_reducible apply recordWake_keeps | with_reducible apply switchOn_keeps | with_reducible apply rearmIdle_keeps | with_reducible apply State.setDom_keeps | with_reducible apply recordRefusal_keeps | with_reducible apply emptyCache_keeps | with_reducible apply holdWake_keeps | with_reducible apply coWake_keeps | with_reducible apply State.bump_keeps | contradiction | split)

theorem wakeAll_keeps (ds : List Nat) (src : Nat) (idx : Nat) (s : State) (hs : Keeps q s) :
    Keeps q (wakeAll ds src idx s) := by
  unfold wakeAll
  (try dsimp only)
  repeat' (first | intro _ | with_reducible assumption | with_reducible apply wakeDomain_keeps | with_reducible apply keeps_foldl)

theorem cutOff_keeps (d : Nat) (st : DomState) (s : State) (hs : Keeps q s) :
    Keeps q (cutOff d st s) := by
  unfold cutOff
  (try dsimp only)
  repeat' (first | with_reducible assumption | with_reducible apply loseDomain_keeps | with_reducible apply State.setDom_keeps)

theorem cutAll_keeps (ds : List Nat) (s : State) (hs : Keeps q s) :
    Keeps q (cutAll ds s) := by
  unfold cutAll
  (try dsimp only)
  repeat' (first | intro _ | with_reducible assumption | with_reducible apply keeps_ite | with_reducible apply cutOff_keeps | with_reducible apply keeps_foldl)

theorem rearmAll_keeps (s : State) (hs : Keeps q s) :
    Keeps q (rearmAll s) := by
  unfold rearmAll
  (try dsimp only)
  repeat' (first | intro _ | with_reducible assumption | with_reducible apply rearmIdle_keeps | with_reducible apply keeps_foldl)

theorem dozeEnter_keeps (s : State) (hs : Keeps q s) :
    Keeps q (dozeEnter s) := by
  unfold dozeEnter
  (try dsimp only)
  repeat' (first | with_reducible assumption | with_reducible apply keeps_ite | with_reducible apply State.bump_keeps | with_reducible apply State.setMode_keeps | (simp only [keeps_mk]; with_reducible apply Keeps.both))

theorem endWake_keeps (d : Nat) (failed : Bool) (s : State) (hs : Keeps q s) :
    Keeps q (endWake d failed s) := by
  unfold endWake
  (try dsimp only)
  repeat' (first | with_reducible assumption | with_reducible apply keeps_ite | (simp only [keeps_mk]; with_reducible apply Keeps.both))

theorem recordFail_keeps (d : Nat) (s : State) (hs : Keeps q s) :
    Keeps q (recordFail d s) := by
  unfold recordFail
  (try dsimp only)
  repeat' (first | with_reducible assumption | with_reducible apply endWake_keeps | with_reducible apply State.bump_keeps | (simp only [keeps_mk]; with_reducible apply Keeps.both))

theorem quietDomains_keeps (s : State) (hs : Keeps q s) :
    Keeps q (quietDomains s) := by
  unfold quietDomains
  (try dsimp only)
  repeat' (first | intro _ | with_reducible assumption | with_reducible apply cutAll_keeps)

theorem hostWrite_keeps (ini a : Nat) (bs : Bytes) (s : State) (hs : Keeps q s) : Keeps q (hostWrite ini a bs s).2.2 := by
  unfold hostWrite
  dsimp only
  exact keeps_foldl (fun t w h => State.emit_keeps _ _ h) (dma_keeps _ _ _ _ _ hs)

theorem raiseMsix_keeps (v : Nat) (s : State) (hs : Keeps q s) :
    Keeps q (raiseMsix v s) := by
  unfold raiseMsix
  (try dsimp only)
  repeat' (first | with_reducible assumption | with_reducible apply keeps_ite | with_reducible apply State.emit_keeps | (simp only [keeps_mk]; with_reducible apply Keeps.both))

theorem audEntry_keeps (d : Nat) (off : Nat) (payload : Bytes) (sig : Bool) (s : State) (hs : Keeps q s) :
    Keeps q (audEntry d off payload sig s).2 := by
  unfold audEntry
  (try dsimp only)
  repeat' (first | with_reducible assumption | with_reducible apply keeps_ite | with_reducible apply keeps_ite2 | with_reducible apply hostWrite_keeps | with_reducible apply State.noteSet_keeps | with_reducible apply State.setHq_keeps | with_reducible apply raiseMsix_keeps)

theorem audDiscard_keeps (d : Nat) (n : Nat) (s : State) (hs : Keeps q s) :
    Keeps q (audDiscard d n s) := by
  unfold audDiscard
  (try dsimp only)
  repeat' (first | with_reducible assumption | with_reducible apply State.setAud_keeps | with_reducible apply State.noteSet_keeps | with_reducible apply State.setHq_keeps | with_reducible apply State.bumpBy_keeps)

theorem audRecordBytes_keeps (d : Nat) (bs : Bytes) (s : State) (hs : Keeps q s) :
    Keeps q (audRecordBytes d bs s) := by
  unfold audRecordBytes
  (try dsimp only)
  repeat' (first | with_reducible assumption | with_reducible apply keeps_ite | with_reducible apply audEntry_keeps | with_reducible apply State.setAud_keeps | with_reducible apply audDiscard_keeps)

theorem audAppend_keeps (d : Nat) (at_ : Nat) (rec : Bytes) (s : State) (hs : Keeps q s) :
    Keeps q (audAppend d at_ rec s) := by
  unfold audAppend
  (try dsimp only)
  repeat' (first | intro _ | with_reducible assumption | with_reducible apply keeps_ite | with_reducible apply State.setAud_keeps | with_reducible apply audRecordBytes_keeps | with_reducible apply State.bump_keeps)

theorem audDispatch_keeps (d : Nat) (ta : Nat) (status : Nat) (x : Desc) (s : State) (hs : Keeps q s) :
    Keeps q (audDispatch d ta status x s) := by
  unfold audDispatch
  (try dsimp only)
  repeat' (first | with_reducible assumption | with_reducible apply audAppend_keeps)

theorem audStream_keeps (d : Nat) (kind : Nat) (bseq : Nat) (bs : Bytes) (s : State) (hs : Keeps q s) :
    Keeps q (audStream d kind bseq bs s) := by
  unfold audStream
  (try dsimp only)
  repeat' (first | intro _ | with_reducible assumption | with_reducible apply keeps_ite | with_reducible apply State.bump_keeps | with_reducible apply State.setAud_keeps | contradiction | split)

theorem audSelf_keeps (d : Nat) (status : Nat) (src : Nat) (cls : Nat) (msgid : Nat) (tstamp : Nat) (bodylen : Nat) (epoch : Nat) (s : State) (hs : Keeps q s) :
    Keeps q (audSelf d status src cls msgid tstamp bodylen epoch s) := by
  unfold audSelf
  (try dsimp only)
  repeat' (first | with_reducible assumption | with_reducible apply audAppend_keeps)

theorem State.pstat_keeps (s : State) (p : Nat) (sub : Nat) (hs : Keeps q s) :
    Keeps q (State.pstat s p sub) := by
  unfold State.pstat
  (try dsimp only)
  repeat' (first | with_reducible assumption | with_reducible apply State.bump_keeps)

theorem hostComplete_keeps (z0 : Nat) (m : Msg) (status : Nat) (self : Nat) (msgid : Nat) (cls : Nat) (body : Bytes) (s : State) (hs : Keeps q s) :
    Keeps q (hostComplete z0 m status self msgid cls body s) := by
  unfold hostComplete
  (try dsimp only)
  repeat' (first | intro _ | with_reducible assumption | with_reducible apply keeps_ite | with_reducible apply keeps_ite1 | with_reducible apply keeps_ite2 | with_reducible apply hostWrite_keeps | with_reducible apply State.pstat_keeps | with_reducible apply State.noteSet_keeps | with_reducible apply State.setHq_keeps | with_reducible apply raiseMsix_keeps | contradiction | split)

theorem netFrame_keeps (p : Nat) (bytes : Bytes) (s : State) (hs : Keeps q s) :
    Keeps q (netFrame p bytes s) := by
  unfold netFrame
  (try dsimp only)
  repeat' (first | with_reducible assumption | with_reducible apply State.setSrc_keeps)

theorem ipSend_keeps (p : Nat) (etype : Nat) (tci : Option Nat) (pkt : Bytes) (s : State) (hs : Keeps q s) :
    Keeps q (ipSend p etype tci pkt s) := by
  unfold ipSend
  (try dsimp only)
  repeat' (first | with_reducible assumption | with_reducible apply keeps_ite | with_reducible apply netFrame_keeps | with_reducible apply State.setSrc_keeps)

theorem tcpSend_keeps (p : Nat) (dport : Nat) (seq : Nat) (ack : Nat) (flags : Nat) (wnd : Nat) (opts : Bytes) (data : Bytes) (tci : Option Nat) (s : State) (hs : Keeps q s) :
    Keeps q (tcpSend p dport seq ack flags wnd opts data tci s) := by
  unfold tcpSend
  (try dsimp only)
  repeat' (first | with_reducible assumption | with_reducible apply ipSend_keeps)

theorem tcpSeg_keeps (p : Nat) (seq : Nat) (flags : Nat) (data : Bytes) (s : State) (hs : Keeps q s) :
    Keeps q (tcpSeg p seq flags data s) := by
  unfold tcpSeg
  (try dsimp only)
  repeat' (first | with_reducible assumption | with_reducible apply keeps_ite | with_reducible apply tcpSend_keeps)

theorem State.setTcp_keeps (s : State) (p : Nat) (t : Tcp) (hs : Keeps q s) :
    Keeps q (State.setTcp s p t) := by
  unfold State.setTcp
  (try dsimp only)
  repeat' (first | with_reducible assumption | with_reducible apply keeps_ite | with_reducible apply State.setSrc_keeps | with_reducible apply raiseMsix_keeps)

theorem tcpMaybeFin_keeps (p : Nat) (s : State) (hs : Keeps q s) :
    Keeps q (tcpMaybeFin p s) := by
  unfold tcpMaybeFin
  (try dsimp only)
  repeat' (first | with_reducible assumption | with_reducible apply keeps_ite | with_reducible apply tcpSeg_keeps | with_reducible apply State.setTcp_keeps)

theorem tcpResend_keeps (p : Nat) (o : Nat) (n : Nat) (rescue : Bool) (s : State) (hs : Keeps q s) :
    Keeps q (tcpResend p o n rescue s) := by
  unfold tcpResend
  (try dsimp only)
  repeat' (first | with_reducible assumption | with_reducible apply keeps_ite | with_reducible apply State.setTcp_keeps | with_reducible apply State.pstat_keeps | with_reducible apply tcpSeg_keeps)

theorem tcpSendNew_keeps (p : Nat) (n : Nat) (s : State) (hs : Keeps q s) :
    Keeps q (tcpSendNew p n s) := by
  unfold tcpSendNew
  (try dsimp only)
  repeat' (first | with_reducible assumption | with_reducible apply tcpSeg_keeps | with_reducible apply State.setTcp_keeps)

theorem sackSendF_keeps (p n : Nat) (s : State) (hs : Keeps q s) : Keeps q (sackSendF p n s) := by
  induction n generalizing s with
  | zero => exact hs
  | succ n ih =>
    unfold sackSendF
    extract_lets t x m gs from_ k e
    refine keeps_ite hs ?_
    split
    · exact ih _ (tcpResend_keeps _ _ _ _ _ hs)
    · refine keeps_ite (ih _ (tcpSendNew_keeps _ _ _ hs)) ?_
      split
      · exact ih _ (tcpResend_keeps _ _ _ _ _ hs)
      · exact keeps_ite hs (tcpResend_keeps _ _ _ _ _ hs)

theorem tcpOutputF_keeps (p n : Nat) (s : State) (hs : Keeps q s) : Keeps q (tcpOutputF p n s) := by
  induction n generalizing s with
  | zero => exact hs
  | succ n ih =>
    unfold tcpOutputF
    dsimp only
    repeat' (first | exact hs | (with_reducible apply keeps_ite) | exact State.setTcp_keeps _ _ _ hs | exact ih _ (State.setTcp_keeps _ _ _ (tcpSeg_keeps _ _ _ _ _ hs)))

theorem tcpOutput_keeps (p : Nat) (s : State) (hs : Keeps q s) : Keeps q (tcpOutput p s) := by
  unfold tcpOutput
  exact tcpMaybeFin_keeps _ _ (keeps_ite (sackSendF_keeps _ _ _ hs) (tcpOutputF_keeps _ _ _ hs))

theorem tcpCommit_keeps (p : Nat) (tci : Option Nat) (bs : Bytes) (s : State) (hs : Keeps q s) :
    Keeps q (tcpCommit p tci bs s).2 := by
  unfold tcpCommit
  (try dsimp only)
  repeat' (first | with_reducible assumption | with_reducible apply keeps_ite | with_reducible apply keeps_ite2 | with_reducible apply State.pstat_keeps | with_reducible apply tcpOutput_keeps | with_reducible apply State.setTcp_keeps)

theorem selfSend_keeps (p : Nat) (m : Msg) (status : Nat) (cls : Nat) (msgid : Nat) (s : State) (hs : Keeps q s) :
    Keeps q (selfSend p m status cls msgid s) := by
  unfold selfSend
  (try dsimp only)
  repeat' (first | with_reducible assumption | with_reducible apply keeps_ite | with_reducible apply State.pstat_keeps | with_reducible apply hostComplete_keeps | with_reducible apply tcpCommit_keeps | with_reducible apply State.setSrc_keeps)

theorem sentOne_keeps (p : Nat) (adm : Bool) (s : State) (hs : Keeps q s) :
    Keeps q (sentOne p adm s) := by
  unfold sentOne
  (try dsimp only)
  repeat' (first | with_reducible assumption | with_reducible apply keeps_ite | (simp only [keeps_mk]; with_reducible apply Keeps.both))

theorem sentEntry_keeps (p : Nat) (id : Nat) (swept : Bool) (s : State) (hs : Keeps q s) :
    Keeps q (sentEntry p id swept s) := by
  unfold sentEntry
  (try dsimp only)
  repeat' (first | intro _ | with_reducible assumption | with_reducible apply keeps_ite | with_reducible apply sentOne_keeps | with_reducible apply State.setSrc_keeps | contradiction | split)

theorem sweepFrame_keeps (p : Nat) (f : TxFrame) (s : State) (hs : Keeps q s) :
    Keeps q (sweepFrame p f s).2 := by
  unfold sweepFrame
  (try dsimp only)
  repeat' (first | with_reducible assumption | with_reducible apply State.pstat_keeps | with_reducible apply audSelf_keeps | contradiction | split)

theorem learnNbr_keeps (p : Nat) (mac : Bytes) (tci : Option Nat) (s : State) (hs : Keeps q s) :
    Keeps q (learnNbr p mac tci s) := by
  unfold learnNbr
  (try dsimp only)
  repeat' (first | intro _ | with_reducible assumption | with_reducible apply State.setSrc_keeps | with_reducible apply ipSend_keeps | with_reducible apply keeps_foldl)

theorem queueAnswer_keeps (p : Nat) (o : Outst) (s : State) (hs : Keeps q s) :
    Keeps q (queueAnswer p o s) := by
  unfold queueAnswer
  (try dsimp only)
  repeat' (first | intro _ | with_reducible assumption | with_reducible apply keeps_ite | with_reducible apply State.setSrc_keeps)

theorem tcpAck_keeps (p : Nat) (s : State) (hs : Keeps q s) :
    Keeps q (tcpAck p s) := by
  unfold tcpAck
  (try dsimp only)
  repeat' (first | with_reducible assumption | with_reducible apply tcpSeg_keeps)

theorem selfIssue_keeps (p : Nat) (m : Msg) (status : Nat) (cls : Nat) (msgid : Nat) (s : State) (hs : Keeps q s) :
    Keeps q (selfIssue p m status cls msgid s) := by
  unfold selfIssue
  (try dsimp only)
  repeat' (first | with_reducible assumption | with_reducible apply selfSend_keeps | with_reducible apply audSelf_keeps)

theorem descLeave_keeps (p : Nat) (m : Msg) (d : Desc) (at_ : Nat) (s : State) (hs : Keeps q s) :
    Keeps q (descLeave p m d at_ s) := by
  unfold descLeave
  (try dsimp only)
  repeat' (first | with_reducible assumption | with_reducible apply keeps_ite | with_reducible apply selfIssue_keeps | with_reducible apply State.pstat_keeps | with_reducible apply selfSend_keeps | with_reducible apply State.setSrc_keeps | with_reducible apply State.setDisp_keeps | (simp only [keeps_mk]; with_reducible apply Keeps.both))

theorem flushLineF_keeps (p n : Nat) (s : State) (hs : Keeps q s) : Keeps q (flushLineF p n s) := by
  induction n generalizing s with
  | zero => exact hs
  | succ n ih =>
    unfold flushLineF
    dsimp only
    split
    · exact hs
    · split
      · exact hs
      · exact hs
      · exact ih _ (State.setSrc_keeps _ _ _ hs)
      · exact ih _ (selfIssue_keeps _ _ _ _ _ _ (State.at_keeps _ _ (State.setSrc_keeps _ _ _ hs)))
      · exact ih _ (descLeave_keeps _ _ _ _ _ (State.at_keeps _ _ (State.setSrc_keeps _ _ _ hs)))

theorem flushLine_keeps (p : Nat) (s : State) (hs : Keeps q s) :
    Keeps q (flushLine p s) := by
  unfold flushLine
  (try dsimp only)
  repeat' (first | with_reducible assumption | with_reducible apply keeps_ite | with_reducible apply flushLineF_keeps | with_reducible apply tcpMaybeFin_keeps)

theorem startCtx_keeps (p : Nat) (c : Nat) (m : Msg) (at_ : Nat) (s : State) (hs : Keeps q s) :
    Keeps q (startCtx p c m at_ s) := by
  unfold startCtx
  (try dsimp only)
  repeat' (first | intro _ | with_reducible assumption | with_reducible apply keeps_ite | with_reducible apply State.setSrc_keeps)

theorem releaseMsg_keeps (p : Nat) (m : Msg) (pre : Option Nat) (s : State) (hs : Keeps q s) :
    Keeps q (releaseMsg p m pre s) := by
  unfold releaseMsg
  (try dsimp only)
  repeat' (first | intro _ | with_reducible assumption | with_reducible apply keeps_ite | with_reducible apply State.pstat_keeps | with_reducible apply State.setSrc_keeps | with_reducible apply flushLine_keeps | with_reducible apply startCtx_keeps | contradiction | split)

theorem answerOutst_keeps (p : Nat) (status : Nat) (o : Outst) (s : State) (hs : Keeps q s) :
    Keeps q (answerOutst p status o s) := by
  unfold answerOutst
  (try dsimp only)
  repeat' (first | intro _ | with_reducible assumption | with_reducible apply keeps_ite | with_reducible apply State.setSrc_keeps | with_reducible apply selfIssue_keeps | with_reducible apply sentOne_keeps | with_reducible apply queueAnswer_keeps)

end Sys2Proof.Machine
end

