-- ==== Sys2Proof/Laws/KeepsAdmission.lean ====
section
/-!
SUPPORT. What every function keeps (admission, TCP, key commands and epochs): the queue of waiting commands, the canonical form of the MRAM,
and every fuse bit that is blown. One lemma per function; later lemmas cite the earlier ones.
-/
namespace Sys2Proof.Machine
variable {q : State}

theorem setCache_keeps (z0 : Nat) (i : Nat) (e : CacheEnt) (s : State) (hs : Keeps q s) :
    Keeps q (setCache z0 i e s) := by
  unfold setCache
  (try dsimp only)
  repeat' (first | with_reducible assumption | with_reducible apply State.setQuad_keeps)

theorem dispAnswer_keeps (d : Nat) (ta : Nat) (x : Desc) (status : Nat) (count : Nat) (again : Bool) (s : State) (hs : Keeps q s) :
    Keeps q (dispAnswer d ta x status count again s) := by
  unfold dispAnswer
  (try dsimp only)
  repeat' (first | with_reducible assumption | with_reducible apply keeps_ite | with_reducible apply State.bump_keeps | with_reducible apply audDispatch_keeps | (simp only [keeps_mk]; with_reducible apply Keeps.both))

theorem commitKey_keeps (jn : Nat) (z1 : Nat) (d : Nat) (ta : Nat) (p : KeyPlan) (s : State) (hs : Keeps q s) :
    Keeps q (commitKey jn z1 d ta p s).2 := by
  unfold commitKey
  (try dsimp only)
  repeat' (first | with_reducible assumption | with_reducible apply setCache_keeps | with_reducible apply State.bump_keeps | contradiction | split | (simp only [keeps_mk]; with_reducible apply Keeps.both))

theorem addEnt_keeps (l : Nat) (x : QEnt) (s : State) (hs : Keeps q s) :
    Keeps q (addEnt l x s) := by
  unfold addEnt
  (try dsimp only)
  repeat' (first | with_reducible assumption | with_reducible apply State.setLane_keeps | (simp only [keeps_mk]; with_reducible apply Keeps.both))

theorem setAdm_keeps (p : Nat) (id : Nat) (b : Bool) (s : State) (hs : Keeps q s) :
    Keeps q (setAdm p id b s) := by
  unfold setAdm
  (try dsimp only)
  repeat' (first | intro _ | with_reducible assumption | with_reducible apply keeps_ite | with_reducible apply State.setSrc_keeps)

theorem commitCand_keeps (jn : Nat) (x : Desc) (body : Bytes) (e : EpochCfg) (cv : CostVec) (ta : Nat) (c : Cand) (s : State)
    (hs : Keeps q s) : Keeps q (commitCand jn x body e cv ta c s) := by
  unfold commitCand
  extract_lets qd d slot _ s14 s13 _ s12 s11 s10 _ s9 kp s8 j s7 s6 s5 s4 _ s3 noKey pj s2 _ s1 s0
  have h12 : Keeps q s12 := State.setDom_keeps _ _ _ (wakeDomain_keeps _ _ _ _ (State.setDisp_keeps _ _ _ hs))
  have h11 : Keeps q s11 := keeps_ite (State.bump_keeps _ _ _ h12) h12
  have h10 : Keeps q s10 := keeps_ite (State.bump_keeps _ _ _ h11) h11
  have h8 : Keeps q s8 := keeps_foldl22 (fun a p h => commitKey_keeps _ _ _ _ _ _ h) (State.setQuad_keeps _ _ _ h10)
  have h6 : Keeps q s6 := addEnt_keeps _ _ _ (State.setJob_keeps _ _ _ h8)
  have h3 : Keeps q s3 := State.setDom_keeps _ _ _ (wakeDomain_keeps _ _ _ _ (addEnt_keeps _ _ _ h6))
  clear_value s3 pj s6
  have h2 : Keeps q s2 := by
    unfold s2
    split
    · exact h6
    · rename_i g _
      have hp : Keeps q (pkAdd g pj s3) := pkAdd_keeps _ _ _ h3
      have hk (t : State) (ht : Keeps q t) (k : KeyState) : Keeps q { t with key := k } := ⟨ht.1, ht.2, ht.3⟩
      dsimp only
      repeat' (first | exact hp | exact pkAdd_keeps _ _ _ hp | exact hk _ hp _ | exact hk _ (pkAdd_keeps _ _ _ hp) _ | split)
  clear_value s2
  have h1 : Keeps q s1 := ⟨h2.1, h2.2, h2.3⟩
  exact State.bump_keeps _ _ _ (State.bump_keeps _ _ _ (setAdm_keeps _ _ _ _ h1))

theorem decideDesc_keeps (d : Nat) (jn : Nat) (ta : Nat) (x : Desc) (body : Bytes) (ins : Tab Bytes) (again : Bool) (s : State) (hs : Keeps q s) :
    Keeps q (decideDesc d jn ta x body ins again s) := by
  unfold decideDesc
  (try dsimp only)
  repeat' (first | with_reducible assumption | with_reducible apply keeps_ite | with_reducible apply dispAnswer_keeps | with_reducible apply commitCand_keeps | contradiction | split)

theorem execAdmissionTest_keeps (die : Fin 2) (s : State) (hs : Keeps q s) :
    ∃ s1, execAdmissionTest die s = .next s1 ∧ Keeps q s1 := by
  unfold execAdmissionTest
  (try dsimp only)
  repeat' (first | intro _ | with_reducible assumption | refine ⟨_, rfl, ?_⟩ | with_reducible apply keeps_ite | with_reducible apply ok_keeps | with_reducible apply State.at_keeps | with_reducible apply State.setDisp_keeps | with_reducible apply answerOutst_keeps | with_reducible apply decideDesc_keeps | split | (simp only [keeps_mk]; with_reducible apply Keeps.both))

theorem tcpForget_keeps (p : Nat) (s : State) (hs : Keeps q s) :
    Keeps q (tcpForget p s) := by
  unfold tcpForget
  (try dsimp only)
  repeat' (first | intro _ | with_reducible assumption | with_reducible apply State.setSrc_keeps)

theorem tcpClose_keeps (p : Nat) (s : State) (hs : Keeps q s) :
    Keeps q (tcpClose p s) := by
  unfold tcpClose
  (try dsimp only)
  repeat' (first | with_reducible assumption | with_reducible apply keeps_ite | with_reducible apply tcpForget_keeps | with_reducible apply State.setTcp_keeps)

theorem tcpRstIn_keeps (p : Nat) (g : TcpSeg) (s : State) (hs : Keeps q s) :
    Keeps q (tcpRstIn p g s) := by
  unfold tcpRstIn
  (try dsimp only)
  repeat' (first | with_reducible assumption | with_reducible apply keeps_ite | with_reducible apply tcpClose_keeps | with_reducible apply State.pstat_keeps | with_reducible apply tcpAck_keeps)

theorem tcpEstablish_keeps (p : Nat) (t : Tcp) (s : State) (hs : Keeps q s) :
    Keeps q (tcpEstablish p t s) := by
  unfold tcpEstablish
  (try dsimp only)
  repeat' (first | with_reducible assumption | with_reducible apply keeps_ite | with_reducible apply tcpForget_keeps | with_reducible apply State.pstat_keeps | with_reducible apply State.setTcp_keeps)

theorem drawSeq_keeps (s : State) (hs : Keeps q s) :
    Keeps q (drawSeq s).2 := by
  unfold drawSeq
  (try dsimp only)
  repeat' (first | with_reducible assumption | with_reducible apply State.draw_keeps)

theorem execTcpZeroWindowProbe_keeps (p : Fin 32) (s : State) (hs : Keeps q s) :
    ∃ s1, execTcpZeroWindowProbe p s = .next s1 ∧ Keeps q s1 := by
  unfold execTcpZeroWindowProbe
  (try dsimp only)
  repeat' (first | with_reducible assumption | refine ⟨_, rfl, ?_⟩ | with_reducible apply keeps_ite | with_reducible apply ok_keeps | with_reducible apply State.at_keeps | with_reducible apply tcpSeg_keeps | with_reducible apply State.setTcp_keeps | split)

theorem tcpOpen_keeps (p : Nat) (s : State) (hs : Keeps q s) :
    Keeps q (tcpOpen p s) := by
  unfold tcpOpen
  (try dsimp only)
  repeat' (first | with_reducible assumption | with_reducible apply keeps_ite | with_reducible apply State.setTcp_keeps | with_reducible apply drawSeq_keeps | with_reducible apply tcpSeg_keeps)

theorem execTcpReconnectTimer_keeps (p : Fin 32) (s : State) (hs : Keeps q s) :
    ∃ s1, execTcpReconnectTimer p s = .next s1 ∧ Keeps q s1 := by
  unfold execTcpReconnectTimer
  (try dsimp only)
  repeat' (first | with_reducible assumption | refine ⟨_, rfl, ?_⟩ | with_reducible apply ok_keeps | with_reducible apply tcpOpen_keeps | with_reducible apply State.at_keeps | split)

theorem tcpFirst_keeps (p : Nat) (s : State) (hs : Keeps q s) :
    Keeps q (tcpFirst p s) := by
  unfold tcpFirst
  (try dsimp only)
  repeat' (first | with_reducible assumption | with_reducible apply keeps_ite | with_reducible apply State.pstat_keeps | with_reducible apply tcpSeg_keeps | with_reducible apply tcpResend_keeps)

theorem tcpFastRecovery_keeps (p : Nat) (s : State) (hs : Keeps q s) :
    Keeps q (tcpFastRecovery p s) := by
  unfold tcpFastRecovery
  (try dsimp only)
  repeat' (first | with_reducible assumption | with_reducible apply keeps_ite | with_reducible apply tcpFirst_keeps | with_reducible apply State.setTcp_keeps)

theorem tcpRefuse_keeps (p : Nat) (g : TcpSeg) (s : State) (hs : Keeps q s) :
    Keeps q (tcpRefuse p g s) := by
  unfold tcpRefuse
  (try dsimp only)
  repeat' (first | with_reducible assumption | with_reducible apply keeps_ite | with_reducible apply State.pstat_keeps | with_reducible apply tcpSend_keeps)

theorem tcpAccept_keeps (p : Nat) (g : TcpSeg) (s : State) (hs : Keeps q s) :
    Keeps q (tcpAccept p g s) := by
  unfold tcpAccept
  (try dsimp only)
  repeat' (first | with_reducible assumption | with_reducible apply drawSeq_keeps | with_reducible apply tcpSeg_keeps | with_reducible apply State.setTcp_keeps)

theorem tcpSynSent_keeps (p : Nat) (g : TcpSeg) (s : State) (hs : Keeps q s) :
    Keeps q (tcpSynSent p g s) := by
  unfold tcpSynSent
  (try dsimp only)
  repeat' (first | with_reducible assumption | with_reducible apply keeps_ite | with_reducible apply tcpRefuse_keeps | with_reducible apply tcpClose_keeps | with_reducible apply State.pstat_keeps | with_reducible apply tcpAck_keeps | with_reducible apply tcpEstablish_keeps | with_reducible apply tcpSeg_keeps | with_reducible apply State.setTcp_keeps)

theorem tcpDup_keeps (p : Nat) (dup : Bool) (s : State) (hs : Keeps q s) :
    Keeps q (tcpDup p dup s) := by
  unfold tcpDup
  (try dsimp only)
  repeat' (first | with_reducible assumption | with_reducible apply keeps_ite | with_reducible apply State.setTcp_keeps | with_reducible apply tcpFastRecovery_keeps)

theorem tcpAckIn_keeps (p : Nat) (g : TcpSeg) (s : State) (hs : Keeps q s) :
    Keeps q (tcpAckIn p g s) := by
  unfold tcpAckIn
  (try dsimp only)
  repeat' (first | intro _ | with_reducible assumption | with_reducible apply keeps_ite | with_reducible apply State.setTcp_keeps | with_reducible apply tcpDup_keeps)

theorem tcpReset_keeps (p : Nat) (s : State) (hs : Keeps q s) :
    Keeps q (tcpReset p s) := by
  unfold tcpReset
  (try dsimp only)
  repeat' (first | with_reducible assumption | with_reducible apply tcpClose_keeps | with_reducible apply State.pstat_keeps | with_reducible apply tcpSeg_keeps)

theorem tcpMessages_keeps (p k n : Nat) (s : State) (hs : Keeps q s) : Keeps q (tcpMessages p k n s) := by
  induction n generalizing s with
  | zero => exact hs
  | succ n ih =>
    unfold tcpMessages
    dsimp only
    have ht (t : Tcp) : Keeps q (s.setTcp p t) := State.setTcp_keeps _ _ _ hs
    repeat' (first | exact hs | exact ht _ | exact ih _ (ht _) | exact ih _ (State.pstat_keeps _ _ _ (ht _)) | exact tcpReset_keeps _ _ hs | exact ih _ (releaseMsg_keeps _ _ _ _ (ht _)) | (with_reducible apply keeps_ite))

theorem tcpData_keeps (p : Nat) (g : TcpSeg) (s : State) (hs : Keeps q s) :
    Keeps q (tcpData p g s) := by
  unfold tcpData
  (try dsimp only)
  repeat' (first | intro _ | with_reducible assumption | with_reducible apply keeps_ite | with_reducible apply State.draw_keeps | with_reducible apply State.setTcp_keeps | with_reducible apply tcpMessages_keeps | with_reducible apply tcpAck_keeps)

theorem tcpFin_keeps (p : Nat) (s : State) (hs : Keeps q s) :
    Keeps q (tcpFin p s) := by
  unfold tcpFin
  (try dsimp only)
  repeat' (first | with_reducible assumption | with_reducible apply keeps_ite | with_reducible apply State.pstat_keeps | with_reducible apply tcpAck_keeps | with_reducible apply State.setTcp_keeps)

theorem tcpSynced_keeps (p : Nat) (g : TcpSeg) (s : State) (hs : Keeps q s) : Keeps q (tcpSynced p g s) := by
  unfold tcpSynced
  extract_lets t f sq n s1 t1 fa t2 ka s2 takes s3 t3 fh
  have ha := tcpAck_keeps p s hs
  have h1 : Keeps q s1 := tcpAckIn_keeps _ _ _ (State.setTcp_keeps _ _ _ hs)
  have h2 : Keeps q s2 := State.setTcp_keeps _ _ _ h1
  have h3 : Keeps q s3 := keeps_ite h2 (tcpData_keeps _ _ _ h2)
  refine keeps_ite (tcpRstIn_keeps _ _ _ hs) (keeps_ite (keeps_ite (tcpAccept_keeps _ _ _ (tcpForget_keeps _ _ hs)) ha) ?_)
  refine keeps_ite hs (keeps_ite hs (keeps_ite ha (keeps_ite ha (keeps_ite (tcpClose_keeps _ _ h1) ?_))))
  exact tcpOutput_keeps _ _ (keeps_ite (tcpFin_keeps _ _ h3) h3)

theorem tcpSynReceived_keeps (p : Nat) (g : TcpSeg) (s : State) (hs : Keeps q s) :
    Keeps q (tcpSynReceived p g s) := by
  unfold tcpSynReceived
  (try dsimp only)
  repeat' (first | with_reducible assumption | with_reducible apply keeps_ite | with_reducible apply tcpRstIn_keeps | with_reducible apply tcpAck_keeps | with_reducible apply tcpRefuse_keeps | with_reducible apply tcpSynced_keeps | with_reducible apply tcpEstablish_keeps)

theorem tcpSegment_keeps (p : Nat) (g : TcpSeg) (s : State) (hs : Keeps q s) :
    Keeps q (tcpSegment p g s) := by
  unfold tcpSegment
  (try dsimp only)
  repeat' (first | with_reducible assumption | with_reducible apply keeps_ite | with_reducible apply State.pstat_keeps | with_reducible apply learnNbr_keeps | with_reducible apply tcpRefuse_keeps | with_reducible apply tcpAccept_keeps | with_reducible apply tcpSynSent_keeps | with_reducible apply tcpSynReceived_keeps | with_reducible apply tcpSynced_keeps | contradiction | split)

theorem execTcpSegmentReceive_keeps (p : Fin 32) (g : TcpSeg) (s : State) (hs : Keeps q s) :
    ∃ s1, execTcpSegmentReceive p g s = .next s1 ∧ Keeps q s1 := by
  unfold execTcpSegmentReceive
  (try dsimp only)
  repeat' (first | with_reducible assumption | refine ⟨_, rfl, ?_⟩ | with_reducible apply ok_keeps | with_reducible apply tcpSegment_keeps)

theorem execTcpRetransmitTimeout_keeps (p : Fin 32) (s : State) (hs : Keeps q s) :
    ∃ s1, execTcpRetransmitTimeout p s = .next s1 ∧ Keeps q s1 := by
  unfold execTcpRetransmitTimeout
  (try dsimp only)
  repeat' (first | with_reducible assumption | refine ⟨_, rfl, ?_⟩ | with_reducible apply keeps_ite | with_reducible apply ok_keeps | with_reducible apply State.at_keeps | with_reducible apply tcpClose_keeps | with_reducible apply tcpReset_keeps | with_reducible apply State.pstat_keeps | with_reducible apply tcpSeg_keeps | with_reducible apply State.setTcp_keeps | with_reducible apply tcpFirst_keeps | split)

theorem execTcpTimeWaitExpiry_keeps (p : Fin 32) (s : State) (hs : Keeps q s) :
    ∃ s1, execTcpTimeWaitExpiry p s = .next s1 ∧ Keeps q s1 := by
  unfold execTcpTimeWaitExpiry
  (try dsimp only)
  repeat' (first | with_reducible assumption | refine ⟨_, rfl, ?_⟩ | with_reducible apply ok_keeps | with_reducible apply tcpClose_keeps | with_reducible apply State.at_keeps | split)

theorem execTcpKeepaliveTimer_keeps (p : Fin 32) (s : State) (hs : Keeps q s) :
    ∃ s1, execTcpKeepaliveTimer p s = .next s1 ∧ Keeps q s1 := by
  unfold execTcpKeepaliveTimer
  (try dsimp only)
  repeat' (first | with_reducible assumption | refine ⟨_, rfl, ?_⟩ | with_reducible apply keeps_ite | with_reducible apply ok_keeps | with_reducible apply State.at_keeps | with_reducible apply tcpReset_keeps | with_reducible apply State.pstat_keeps | with_reducible apply State.setTcp_keeps | with_reducible apply tcpSeg_keeps | split)

theorem bankFree_keeps (l : Nat) (s : State) (hs : Keeps q s) :
    Keeps q (bankFree l s) := by
  unfold bankFree
  (try dsimp only)
  repeat' (first | intro _ | with_reducible assumption | with_reducible apply keeps_ite | with_reducible apply State.setLane_keeps)

theorem banksFree_keeps (s : State) (hs : Keeps q s) :
    Keeps q (banksFree s) := by
  unfold banksFree
  (try dsimp only)
  repeat' (first | intro _ | with_reducible assumption | with_reducible apply bankFree_keeps | with_reducible apply keeps_foldl)

theorem kcFail_keeps (c : Nat) (s : State) (hs : Keeps q s) :
    Keeps q (kcFail c s).st := ⟨hs.1, hs.2, hs.3⟩

theorem idkSign_keeps (body : Bytes) (s : State) (hs : Keeps q s) :
    Keeps q (idkSign body s).2 := by
  unfold idkSign
  (try dsimp only)
  repeat' (first | with_reducible assumption | with_reducible apply ecdsaDraw_keeps)

theorem attest_keeps (id : Nat) (nonce : Bytes) (s : State) (hs : Keeps q s) :
    Keeps q (attest id nonce s).st := by
  unfold attest
  (try dsimp only)
  repeat' (first | intro _ | with_reducible assumption | with_reducible apply keeps_ite | with_reducible apply kcFail_keeps | with_reducible apply idkSign_keeps | contradiction | split)

theorem kcAttest_keeps (b : Bytes) (s : State) (hs : Keeps q s) :
    Keeps q (kcAttest b s).st := by
  unfold kcAttest
  (try dsimp only)
  repeat' (first | intro _ | with_reducible assumption | with_reducible apply keeps_ite | with_reducible apply keeps_ite1 | with_reducible apply keeps_ite2 | with_reducible apply kcFail_keeps | with_reducible apply attest_keeps | contradiction | split)

theorem State.setRepl_keeps (s : State) (id : Nat) (r : Repl) (hs : Keeps q s) :
    Keeps q (State.setRepl s id r) := by
  unfold State.setRepl
  (try dsimp only)
  repeat' (first | intro _ | with_reducible assumption | with_reducible apply keeps_ite | contradiction | split | (simp only [keeps_mk]; with_reducible apply Keeps.both))

theorem kcSave_keeps (b : Bytes) (s : State) (hs : Keeps q s) :
    Keeps q (kcSave b s).st := by
  unfold kcSave
  (try dsimp only)
  repeat' (first | intro _ | with_reducible assumption | with_reducible apply keeps_ite | with_reducible apply keeps_ite1 | with_reducible apply keeps_ite2 | with_reducible apply kcFail_keeps | with_reducible apply nodeUnusable_keeps | contradiction | split)

theorem wrapKey_keeps (aux : Nat) (useBit : Nat) (s : State) (hs : Keeps q s) :
    Keeps q (wrapKey aux useBit s).2.2.2 := by
  unfold wrapKey
  (try dsimp only)
  repeat' (first | intro _ | with_reducible assumption | with_reducible apply keeps_ite | with_reducible apply keeps_ite1 | with_reducible apply keeps_ite2 | with_reducible apply deliver_keeps | contradiction | split)

theorem makeX9_keeps (kbpk : Bytes) (key : Bytes) (ktype : Nat) (us : String) (mode : Nat) (s : State) (hs : Keeps q s) :
    Keeps q (makeX9 kbpk key ktype us mode s).2 := by
  unfold makeX9
  (try dsimp only)
  repeat' (first | with_reducible assumption | with_reducible apply keeps_ite | with_reducible apply keeps_ite2 | with_reducible apply State.draw_keeps)

theorem kcExport_keeps (b : Bytes) (s : State) (hs : Keeps q s) : Keeps q (kcExport b s).st := by
  have h (c : Nat) : Keeps q (kcFail c s).st := kcFail_keeps _ _ hs
  have hw := wrapKey_keeps (kbAux b) 6 s hs
  unfold kcExport
  dsimp only
  generalize wrapKey (kbAux b) 6 s = w at hw ⊢
  have hd := deliver_keeps (kbNode b) [] 15 2 w.2.2.2 hw
  generalize deliver (kbNode b) [] 15 2 w.2.2.2 = d at hd ⊢
  refine keeps_iteK (h _) (keeps_iteK (h _) ?_)
  split
  · exact h _
  · refine keeps_iteK (h _) (keeps_iteK (h _) ?_)
    split
    · exact h _
    · rename_i us mode _
      exact keeps_iteK (kcFail_keeps _ _ hw) (keeps_iteK (kcFail_keeps _ _ hw) (keeps_iteK (kcFail_keeps _ _ hd) (makeX9_keeps w.2.1 d.key (s.node (kbNode b)).ktype us mode d.st hd)))

theorem clearAnchor_keeps (a : Nat) (s : State) (hs : Keeps q s) :
    Keeps q (clearAnchor a s) := by
  unfold clearAnchor
  (try dsimp only)
  repeat' (first | with_reducible assumption | with_reducible apply writeAnchor_keeps | (simp only [keeps_mk]; with_reducible apply Keeps.both))

theorem deleteNode_keeps (id : Nat) (s : State) (hs : Keeps q s) :
    Keeps q (deleteNode id s) := by
  unfold deleteNode
  (try dsimp only)
  repeat' (first | with_reducible assumption | with_reducible apply keeps_ite | with_reducible apply settleDelivs_keeps | with_reducible apply State.setNode_keeps | with_reducible apply clearAnchor_keeps | with_reducible apply State.setRun_keeps | with_reducible apply startScan_keeps | (simp only [keeps_mk]; with_reducible apply Keeps.both))

theorem commitPoint_keeps (id : Nat) (op : Option Nat) (s : State) (hs : Keeps q s) :
    Keeps q (commitPoint id op s) := by
  unfold commitPoint
  (try dsimp only)
  repeat' (first | with_reducible assumption | with_reducible apply keeps_ite | with_reducible apply settleDelivs_keeps | with_reducible apply State.bump_keeps | with_reducible apply writeAnchor_keeps | with_reducible apply State.setNode_keeps | with_reducible apply State.setRun_keeps | with_reducible apply startScan_keeps | (simp only [keeps_mk]; with_reducible apply Keeps.both))

theorem kcCreate_keeps (b : Bytes) (s : State) (hs : Keeps q s) : Keeps q (kcCreate b s).st := by
  have h (c : Nat) : Keeps q (kcFail c s).st := kcFail_keeps _ _ hs
  unfold kcCreate
  extract_lets id t n p n2 t2 u t3
  exact keeps_iteK (h _) (keeps_iteK (h _) (keeps_iteK (h _) (keeps_iteK (h _) (keeps_iteK (h _) (keeps_iteK (h _)
    (keeps_iteK (h _) (State.setNode_keeps _ _ _ (State.setNode_keeps _ _ _ hs))))))))

theorem drawScalar_keeps (n k : Nat) (s : State) (hs : Keeps q s) : Keeps q (drawScalar n k s).2 := by
  induction k generalizing s with
  | zero => exact State.draw_keeps _ _ hs
  | succ k ih =>
    unfold drawScalar
    extract_lets nb r x
    exact keeps_ite2 (State.draw_keeps _ _ hs) (ih _ (State.draw_keeps _ _ hs))

theorem importKey_keeps (aux : Nat) (d : Bytes) (n : Node) (s : State) (hs : Keeps q s) :
    Keeps q (importKey aux d n s).2.2 := by
  unfold importKey
  (try dsimp only)
  repeat' (first | with_reducible assumption | with_reducible apply keeps_ite | with_reducible apply keeps_ite2 | with_reducible apply wrapKey_keeps | with_reducible apply State.bump_keeps | contradiction | split)

theorem storeKey_keeps (id : Nat) (n : Node) (key : Bytes) (s : State) (hs : Keeps q s) :
    Keeps q (storeKey id n key s).2 := by
  unfold storeKey
  (try dsimp only)
  repeat' (first | with_reducible assumption | (with_reducible refine allocRun_keeps (he := by assumption) ?_) | with_reducible apply keeps_ite | with_reducible apply keeps_ite2 | with_reducible apply putAnchor_keeps | with_reducible apply State.setNode_keeps | contradiction | split)

theorem kcImport_keeps (b : Bytes) (s : State) (hs : Keeps q s) :
    Keeps q (kcImport b s).st := by
  unfold kcImport
  (try dsimp only)
  repeat' (first | intro _ | with_reducible assumption | with_reducible apply keeps_ite | with_reducible apply keeps_ite1 | with_reducible apply keeps_ite2 | with_reducible apply kcFail_keeps | with_reducible apply importKey_keeps | with_reducible apply storeKey_keeps | contradiction | split)

theorem drawTdes_keeps (n k : Nat) (s : State) (hs : Keeps q s) : Keeps q (drawTdes n k s).2 := by
  induction k generalizing s with
  | zero => exact State.draw_keeps _ _ hs
  | succ k ih =>
    unfold drawTdes
    dsimp only
    split
    · exact State.draw_keeps _ _ hs
    · exact ih _ (State.draw_keeps _ _ hs)

theorem genKey_keeps {kt param : Nat} {s : State} {a t} (he : genKey kt param s = some (a, t)) (hs : Keeps q s) : Keeps q t := by
  unfold genKey at he
  split at he
  · exact keeps_snd he (drawTdes_keeps _ _ _ hs)
  · split at he
    · exact keeps_snd he (State.draw_keeps _ _ hs)
    · split at he
      · split at he
        · exact keeps_snd he (drawScalar_keeps _ _ _ hs)
        · contradiction
      · contradiction

theorem kcGenerate_keeps (b : Bytes) (s : State) (hs : Keeps q s) :
    Keeps q (kcGenerate b s).st := by
  unfold kcGenerate
  (try dsimp only)
  repeat' (first | with_reducible assumption | (with_reducible refine genKey_keeps (he := by assumption) ?_) | with_reducible apply keeps_ite | with_reducible apply kcFail_keeps | with_reducible apply storeKey_keeps | contradiction | split)

theorem dropAuditKey_keeps (s : State) (hs : Keeps q s) :
    Keeps q (dropAuditKey s) := by
  unfold dropAuditKey
  (try dsimp only)
  repeat' (first | with_reducible assumption | with_reducible apply keeps_ite | with_reducible apply freeRun_keeps | with_reducible apply State.setNode_keeps)

theorem stageKey_keeps (id : Nat) (key : Bytes) (origin : Nat) (auto : Bool) (op : Option Nat) (check : Bytes) (s : State) (hs : Keeps q s) :
    Keeps q (stageKey id key origin auto op check s).2 := by
  unfold stageKey
  (try dsimp only)
  repeat' (first | with_reducible assumption | (with_reducible refine allocRun_keeps (he := by assumption) ?_) | with_reducible apply keeps_ite | with_reducible apply keeps_ite2 | with_reducible apply writeAnchor_keeps | with_reducible apply State.setNode_keeps | with_reducible apply State.setRepl_keeps | contradiction | split)

theorem kcLoadpub_keeps (b : Bytes) (s : State) (hs : Keeps q s) :
    Keeps q (kcLoadpub b s).st := by
  unfold kcLoadpub
  (try dsimp only)
  repeat' (first | with_reducible assumption | with_reducible apply keeps_ite | with_reducible apply kcFail_keeps | with_reducible apply storeKey_keeps | contradiction | split)

theorem prepared_keeps (id : Nat) (s : State) (hs : Keeps q s) :
    Keeps q (prepared id s) := by
  unfold prepared
  (try dsimp only)
  repeat' (first | with_reducible assumption | with_reducible apply keeps_ite | with_reducible apply State.setNode_keeps | with_reducible apply commitPoint_keeps | with_reducible apply State.setRepl_keeps | with_reducible apply doneSlot_keeps | contradiction | split)

theorem unstage_keeps (id : Nat) (s : State) (hs : Keeps q s) :
    Keeps q (unstage id s) := by
  unfold unstage
  (try dsimp only)
  repeat' (first | with_reducible assumption | with_reducible apply keeps_ite | with_reducible apply freeRun_keeps | with_reducible apply State.setNode_keeps | with_reducible apply State.bump_keeps | (simp only [keeps_mk]; with_reducible apply Keeps.both))

theorem kcLoad_keeps (b : Bytes) (s : State) (hs : Keeps q s) :
    Keeps q (kcLoad b s).st := by
  unfold kcLoad
  (try dsimp only)
  repeat' (first | intro _ | with_reducible assumption | with_reducible apply keeps_ite | with_reducible apply keeps_ite1 | with_reducible apply keeps_ite2 | with_reducible apply kcFail_keeps | with_reducible apply State.setNode_keeps | with_reducible apply storeKey_keeps | contradiction | split)

theorem kcDelete_keeps (b : Bytes) (s : State) (hs : Keeps q s) :
    Keeps q (kcDelete b s).st := by
  unfold kcDelete
  (try dsimp only)
  repeat' (first | intro _ | with_reducible assumption | with_reducible apply keeps_ite | with_reducible apply keeps_ite1 | with_reducible apply keeps_ite2 | with_reducible apply kcFail_keeps | with_reducible apply deleteNode_keeps | contradiction | split)

theorem kcRead_keeps (b : Bytes) (s : State) (hs : Keeps q s) :
    Keeps q (kcRead b s).st := by
  unfold kcRead
  (try dsimp only)
  repeat' (first | intro _ | with_reducible assumption | with_reducible apply keeps_ite | with_reducible apply keeps_ite1 | with_reducible apply keeps_ite2 | with_reducible apply kcFail_keeps | contradiction | split)

theorem makeAuditKey_keeps (alg : Nat) (bootid : Nat) (s : State) (hs : Keeps q s) :
    Keeps q (makeAuditKey alg bootid s).2.2 := by
  unfold makeAuditKey
  (try dsimp only)
  repeat' (first | with_reducible assumption | (with_reducible refine genKey_keeps (he := by assumption) ?_) | (with_reducible refine allocRun_keeps (he := by assumption) ?_) | with_reducible apply keeps_ite | with_reducible apply keeps_ite2 | with_reducible apply freeRun_keeps | with_reducible apply State.setNode_keeps | with_reducible apply attest_keeps | contradiction | split)

theorem State.setEpoch_keeps (s : State) (e : EpochState) (hs : Keeps q s) :
    Keeps q (State.setEpoch s e) := ⟨hs.1, hs.2, hs.3⟩

theorem discardLoad_keeps (s : State) (hs : Keeps q s) :
    Keeps q (discardLoad s) := by
  unfold discardLoad
  (try dsimp only)
  repeat' (first | intro _ | with_reducible assumption | with_reducible apply keeps_ite | with_reducible apply rearmIdle_keeps | with_reducible apply State.setLane_keeps | with_reducible apply State.setEpoch_keeps | (simp only [keeps_mk]; with_reducible apply Keeps.both) | with_reducible apply keeps_foldl)

theorem startFlip_keeps (target : Nat) (slot : Option Nat) (s : State) (hs : Keeps q s) :
    Keeps q (startFlip target slot s) := by
  unfold startFlip
  (try dsimp only)
  repeat' (first | with_reducible assumption | with_reducible apply keeps_ite | with_reducible apply State.setSlot_keeps | with_reducible apply State.setEpoch_keeps | contradiction | split | (simp only [keeps_mk]; with_reducible apply Keeps.both))

theorem failChange_keeps (s : State) (hs : Keeps q s) :
    Keeps q (failChange s) := by
  unfold failChange
  (try dsimp only)
  repeat' (first | with_reducible assumption | with_reducible apply keeps_ite | with_reducible apply discardLoad_keeps | with_reducible apply endSlot_keeps | contradiction | split)

theorem chainStart_keeps (s : State) (hs : Keeps q s) :
    Keeps q (chainStart s) := by
  unfold chainStart
  (try dsimp only)
  repeat' (first | intro _ | with_reducible assumption | with_reducible apply keeps_ite | with_reducible apply State.draw_keeps | with_reducible apply makeAuditKey_keeps | with_reducible apply State.setEnt_keeps | with_reducible apply State.setNum_keeps | with_reducible apply State.setAud_keeps | with_reducible apply keeps_foldl)

theorem enterMode_keeps (m : Mode) (s : State) (hs : Keeps q s) :
    Keeps q (enterMode m s) := by
  unfold enterMode
  (try dsimp only)
  repeat' (first | with_reducible assumption | with_reducible apply keeps_ite | with_reducible apply chainStart_keeps | with_reducible apply State.setDom_keeps | with_reducible apply cutOff_keeps | with_reducible apply State.setMode_keeps | (simp only [keeps_mk]; with_reducible apply Keeps.both))

theorem ackCheck_keeps (s : State) (hs : Keeps q s) :
    Keeps q (ackCheck s) := by
  unfold ackCheck
  (try dsimp only)
  repeat' (first | with_reducible assumption | with_reducible apply keeps_ite | with_reducible apply State.setEpoch_keeps)

theorem dropPrev_keeps (s : State) (hs : Keeps q s) :
    Keeps q (dropPrev s) := by
  unfold dropPrev
  (try dsimp only)
  repeat' (first | with_reducible assumption | with_reducible apply keeps_ite | with_reducible apply State.setEpoch_keeps | with_reducible apply banksFree_keeps | with_reducible apply State.setDisp_keeps)

theorem settlePending_keeps (n : EpochCfg) (s : State) (hs : Keeps q s) :
    Keeps q (settlePending n s) := by
  unfold settlePending
  (try dsimp only)
  repeat' (first | intro _ | with_reducible assumption | with_reducible apply keeps_ite | with_reducible apply State.setEpoch_keeps | contradiction | split | (simp only [keeps_mk]; with_reducible apply Keeps.both))

theorem noteReturn_keeps (target : Mode) (s : State) (hs : Keeps q s) :
    Keeps q (noteReturn target s) := by
  unfold noteReturn
  (try dsimp only)
  repeat' (first | with_reducible assumption | with_reducible apply keeps_ite | contradiction | split | (simp only [keeps_mk]; with_reducible apply Keeps.both))

theorem flip_keeps (s : State) (hs : Keeps q s) :
    Keeps q (flip s) := by
  unfold flip
  (try dsimp only)
  repeat' (first | intro _ | with_reducible assumption | with_reducible apply keeps_ite | with_reducible apply State.setEpoch_keeps | with_reducible apply settlePending_keeps | with_reducible apply State.setDisp_keeps | with_reducible apply State.setLane_keeps | with_reducible apply applySharedWindow_keeps | with_reducible apply State.setNum_keeps | with_reducible apply noteReturn_keeps | with_reducible apply enterMode_keeps | with_reducible apply State.setMode_keeps | with_reducible apply dropPrev_keeps | with_reducible apply doneSlot_keeps | contradiction | split | (simp only [keeps_mk]; with_reducible apply Keeps.both) | with_reducible apply keeps_foldl)

theorem leaveLoad_keeps (l : Nat) (s : State) (hs : Keeps q s) :
    Keeps q (leaveLoad l s) := by
  unfold leaveLoad
  (try dsimp only)
  repeat' (first | with_reducible assumption | with_reducible apply keeps_ite | with_reducible apply ackCheck_keeps | with_reducible apply State.setEpoch_keeps)

theorem finishDrain_keeps (s : State) (hs : Keeps q s) :
    Keeps q (finishDrain s) := by
  unfold finishDrain
  (try dsimp only)
  repeat' (first | with_reducible assumption | with_reducible apply keeps_ite | with_reducible apply enterMode_keeps | contradiction | split | (simp only [keeps_mk]; with_reducible apply Keeps.both))

theorem laneAck_keeps (l : Nat) (s : State) (hs : Keeps q s) :
    Keeps q (laneAck l s) := by
  unfold laneAck
  (try dsimp only)
  repeat' (first | with_reducible assumption | with_reducible apply keeps_ite | with_reducible apply ackCheck_keeps | with_reducible apply State.setEpoch_keeps)

theorem startLoad_keeps (s : State) (hs : Keeps q s) :
    Keeps q (startLoad s) := by
  unfold startLoad
  (try dsimp only)
  repeat' (first | intro _ | with_reducible assumption | with_reducible apply keeps_ite | with_reducible apply dropPrev_keeps | with_reducible apply State.setEpoch_keeps | with_reducible apply runSlot_keeps | with_reducible apply ackCheck_keeps | with_reducible apply wakeDomain_keeps | contradiction | split | with_reducible apply keeps_foldl)

theorem formEpoch1_keeps (s : State) (hs : Keeps q s) :
    Keeps q (formEpoch1 s) := by
  unfold formEpoch1
  (try dsimp only)
  repeat' (first | with_reducible assumption | with_reducible apply keeps_ite | with_reducible apply startLoad_keeps | with_reducible apply startFlip_keeps)

end Sys2Proof.Machine
end

