-- ==== Sys2Proof/Laws/KeepsFence.lean ====
section
/-!
SUPPORT. What every function keeps (fences, ceremonies, the mirror, resets and tamper): the queue of waiting commands, the canonical form of the MRAM,
and every fuse bit that is blown. One lemma per function; later lemmas cite the earlier ones.
-/
namespace Sys2Proof.Machine
variable {q : State}

theorem bgJob_keeps (d : Nat) (s : State) (hs : Keeps q s) :
    Keeps q (bgJob d s).2 := by
  unfold bgJob
  (try dsimp only)
  repeat' (first | with_reducible assumption | with_reducible apply keeps_ite | with_reducible apply keeps_ite2 | with_reducible apply deliver_keeps)

theorem genFail_keeps (g : GenReq) (s : State) (hs : Keeps q s) :
    Keeps q (genFail g s) := by
  unfold genFail
  (try dsimp only)
  repeat' (first | intro _ | with_reducible assumption | with_reducible apply keeps_ite | with_reducible apply failSlot_keeps | with_reducible apply State.bump_keeps | with_reducible apply State.setNode_keeps | contradiction | split | (simp only [keeps_mk]; with_reducible apply Keeps.both))

theorem genEnded_keeps (d : Nat) (status : Nat) (s : State) (hs : Keeps q s) :
    Keeps q (genEnded d status s) := by
  unfold genEnded
  (try dsimp only)
  repeat' (first | intro _ | with_reducible assumption | with_reducible apply keeps_ite | with_reducible apply genFail_keeps | contradiction | split | (simp only [keeps_mk]; with_reducible apply Keeps.both))

theorem bgEnd_keeps (d : Nat) (status : Nat) (s : State) (hs : Keeps q s) :
    Keeps q (bgEnd d status s) := by
  unfold bgEnd
  (try dsimp only)
  repeat' (first | intro _ | with_reducible assumption | with_reducible apply keeps_ite | with_reducible apply State.setBg_keeps | with_reducible apply State.noteSet_keeps | with_reducible apply State.setEng_keeps | with_reducible apply genEnded_keeps | with_reducible apply keeps_foldl)

theorem bgTry_keeps (d : Nat) (s : State) (hs : Keeps q s) :
    Keeps q (bgTry d s) := by
  unfold bgTry
  (try dsimp only)
  repeat' (first | intro _ | with_reducible assumption | with_reducible apply keeps_ite | with_reducible apply bgJob_keeps | with_reducible apply State.setBg_keeps | with_reducible apply State.setDom_keeps | with_reducible apply pkKick_keeps | with_reducible apply pkAdd_keeps | with_reducible apply bgEnd_keeps | with_reducible apply wakeDomain_keeps | contradiction | split)

theorem bgSubmit_keeps (d : Nat) (desc : Bytes) (s : State) (hs : Keeps q s) :
    Keeps q (bgSubmit d desc s) := by
  unfold bgSubmit
  (try dsimp only)
  repeat' (first | with_reducible assumption | with_reducible apply bgTry_keeps | with_reducible apply State.setBg_keeps)

theorem genPumpF_keeps (n : Nat) (s : State) (hs : Keeps q s) : Keeps q (genPumpF n s) := by
  induction n generalizing s with
  | zero => exact hs
  | succ n ih =>
    unfold genPumpF
    split
    · exact hs
    · split
      · exact hs
      · exact ih _ (bgSubmit_keeps _ _ _ ⟨hs.1, hs.2, hs.3⟩)

theorem genPump_keeps (s : State) (hs : Keeps q s) :
    Keeps q (genPump s) := by
  unfold genPump
  (try dsimp only)
  repeat' (first | with_reducible assumption | with_reducible apply genPumpF_keeps)

theorem refreshBanks_keeps (l : Nat) (s : State) (hs : Keeps q s) :
    Keeps q (refreshBanks l s) := by
  unfold refreshBanks
  (try dsimp only)
  repeat' (first | with_reducible assumption | with_reducible apply keeps_ite | with_reducible apply State.setLane_keeps | contradiction | split)

theorem spareJoin_keeps (k : Nat) (s : State) (hs : Keeps q s) :
    Keeps q (spareJoin k s) := by
  unfold spareJoin
  (try dsimp only)
  repeat' (first | with_reducible assumption | with_reducible apply State.setLane_keeps | with_reducible apply State.setSpare_keeps | with_reducible apply settleDegraded_keeps | with_reducible apply refreshBanks_keeps)

theorem State.unbump_keeps (s : State) (idx : Nat) (sub : Nat) (hs : Keeps q s) :
    Keeps q (State.unbump s idx sub) := by
  unfold State.unbump
  (try dsimp only)
  repeat' (first | with_reducible assumption | with_reducible apply State.setNum_keeps)

theorem quadReadyEffect_keeps (z0 : Nat) (s : State) (hs : Keeps q s) :
    Keeps q (quadReadyEffect z0 s) := by
  unfold quadReadyEffect
  (try dsimp only)
  repeat' (first | intro _ | with_reducible assumption | with_reducible apply keeps_ite | with_reducible apply State.bump_keeps | with_reducible apply State.setQuad_keeps | with_reducible apply refreshBanks_keeps | with_reducible apply State.setLane_keeps | (simp only [keeps_mk]; with_reducible apply Keeps.both) | with_reducible apply keeps_foldl)

theorem failCluster_keeps (z0 : Nat) (bits : Nat) (s : State) (hs : Keeps q s) :
    Keeps q (failCluster z0 bits s) := by
  unfold failCluster
  (try dsimp only)
  repeat' (first | intro _ | with_reducible assumption | with_reducible apply settleDegraded_keeps | with_reducible apply State.setQuad_keeps)

theorem relPin_keeps (z0 : Nat) (i : Nat) (s : State) (hs : Keeps q s) :
    Keeps q (relPin z0 i s) := by
  unfold relPin
  (try dsimp only)
  repeat' (first | with_reducible assumption | with_reducible apply keeps_ite | with_reducible apply State.bump_keeps | with_reducible apply setCache_keeps)

theorem relPins_keeps (jn : Nat) (s : State) (hs : Keeps q s) :
    Keeps q (relPins jn s) := by
  unfold relPins
  (try dsimp only)
  repeat' (first | intro _ | with_reducible assumption | with_reducible apply keeps_ite | with_reducible apply relPin_keeps | with_reducible apply State.setJob_keeps | with_reducible apply rearmIdle_keeps | with_reducible apply keeps_foldl)

theorem redecide_keeps (jn : Nat) (s : State) (hs : Keeps q s) :
    Keeps q (redecide jn s) := by
  unfold redecide
  (try dsimp only)
  repeat' (first | intro _ | with_reducible assumption | with_reducible apply relPins_keeps | with_reducible apply pkDrop_keeps | with_reducible apply State.setLane_keeps | with_reducible apply setAdm_keeps | with_reducible apply sentOne_keeps | with_reducible apply State.setJob_keeps | with_reducible apply decideDesc_keeps | with_reducible apply State.unbump_keeps)

theorem dropWb_keeps (l : Nat) (s : State) (hs : Keeps q s) :
    Keeps q (dropWb l s) := ⟨hs.1, hs.2, hs.3⟩

theorem freeSlotOf_keeps (jn : Nat) (s : State) (hs : Keeps q s) :
    Keeps q (freeSlotOf jn s) := by
  unfold freeSlotOf
  (try dsimp only)
  repeat' (first | intro _ | with_reducible assumption | with_reducible apply keeps_ite | with_reducible apply State.setLane_keeps | with_reducible apply State.setJob_keeps | with_reducible apply rearmIdle_keeps | with_reducible apply dropPrev_keeps | with_reducible apply bankFree_keeps)

theorem lanePost_keeps (l : Nat) (h : ResHdr) (s : State) (hs : Keeps q s) :
    Keeps q (lanePost l h s) := by
  unfold lanePost
  (try dsimp only)
  repeat' (first | with_reducible assumption | with_reducible apply State.setLane_keeps)

theorem laneControl_keeps (jn : Nat) (s : State) (hs : Keeps q s) :
    Keeps q (laneControl jn s) := by
  unfold laneControl
  (try dsimp only)
  repeat' (first | with_reducible assumption | with_reducible apply keeps_ite | with_reducible apply relPins_keeps | with_reducible apply pkDrop_keeps | with_reducible apply State.setJob_keeps | with_reducible apply dropWb_keeps | with_reducible apply State.setLane_keeps | with_reducible apply freeSlotOf_keeps | with_reducible apply State.bump_keeps | with_reducible apply lanePost_keeps | contradiction | split)

theorem readmit_keeps (jn : Nat) (ta : Nat) (s : State) (hs : Keeps q s) :
    Keeps q (readmit jn ta s) := by
  unfold readmit
  (try dsimp only)
  repeat' (first | intro _ | with_reducible assumption | with_reducible apply relPins_keeps | with_reducible apply pkDrop_keeps | with_reducible apply State.setLane_keeps | with_reducible apply setAdm_keeps | with_reducible apply sentOne_keeps | with_reducible apply State.setJob_keeps | with_reducible apply decideDesc_keeps | with_reducible apply State.bump_keeps)

theorem clearLanes_keeps (ls : List Nat) (s : State) (hs : Keeps q s) :
    Keeps q (clearLanes ls s) := by
  unfold clearLanes
  (try dsimp only)
  repeat' (first | intro _ | with_reducible assumption | with_reducible apply keeps_ite | with_reducible apply laneControl_keeps | with_reducible apply redecide_keeps | with_reducible apply readmit_keeps | with_reducible apply keeps_foldl)

theorem substStart_keeps (l : Nat) (s : State) (hs : Keeps q s) :
    Keeps q (substStart l s) := by
  unfold substStart
  (try dsimp only)
  repeat' (first | with_reducible assumption | with_reducible apply keeps_ite | with_reducible apply State.setSpare_keeps | with_reducible apply State.setLane_keeps | with_reducible apply wakeDomain_keeps)

theorem spareFor_keeps (l : Nat) (cause : Nat) (s : State) (hs : Keeps q s) :
    Keeps q (spareFor l cause s) := by
  unfold spareFor
  (try dsimp only)
  repeat' (first | with_reducible assumption | with_reducible apply keeps_ite | with_reducible apply substStart_keeps | with_reducible apply State.setSpare_keeps | with_reducible apply State.setLane_keeps)

theorem markLane_keeps (cause : Nat) (l : Nat) (s : State) (hs : Keeps q s) :
    Keeps q (markLane cause l s) := by
  unfold markLane
  (try dsimp only)
  repeat' (first | with_reducible assumption | with_reducible apply keeps_ite | with_reducible apply leaveLoad_keeps | with_reducible apply State.setLane_keeps)

theorem fenceLane_keeps (l : Nat) (cause : Nat) (s : State) (hs : Keeps q s) :
    Keeps q (fenceLane l cause s) := by
  unfold fenceLane
  (try dsimp only)
  repeat' (first | with_reducible assumption | with_reducible apply keeps_ite | with_reducible apply finishDrain_keeps | with_reducible apply settleDegraded_keeps | with_reducible apply clearLanes_keeps | with_reducible apply spareFor_keeps | with_reducible apply markLane_keeps)

theorem failSpareUnit_keeps (k : Nat) (s : State) (hs : Keeps q s) :
    Keeps q (failSpareUnit k s) := by
  unfold failSpareUnit
  (try dsimp only)
  repeat' (first | with_reducible assumption | with_reducible apply keeps_ite | with_reducible apply State.setSpare_keeps | with_reducible apply State.setLane_keeps | with_reducible apply fenceLane_keeps | with_reducible apply settleDegraded_keeps)

theorem failSpares_keeps (d : Nat) (s : State) (hs : Keeps q s) :
    Keeps q (failSpares d s) := by
  unfold failSpares
  (try dsimp only)
  repeat' (first | intro _ | with_reducible assumption | with_reducible apply keeps_ite | with_reducible apply failSpareUnit_keeps | with_reducible apply keeps_foldl)

theorem takeEng_keeps (cause : Nat) (e : Nat) (s : State) (hs : Keeps q s) :
    Keeps q (takeEng cause e s).1 := by
  unfold takeEng
  (try dsimp only)
  repeat' (first | intro _ | with_reducible assumption | with_reducible apply State.setEng_keeps)

theorem audSigItem_keeps (d : Nat) (bseq : Nat) (alg : Nat) (status : Nat) (jobst : Nat) (sig : Bytes) (s : State) (hs : Keeps q s) :
    Keeps q (audSigItem d bseq alg status jobst sig s) := by
  unfold audSigItem
  (try dsimp only)
  repeat' (first | with_reducible assumption | with_reducible apply keeps_ite | with_reducible apply State.setEnt_keeps | with_reducible apply audStream_keeps | with_reducible apply State.bump_keeps)

theorem audIssueF_keeps (d n : Nat) (s : State) (hs : Keeps q s) : Keeps q (audIssueF d n s) := by
  induction n generalizing s with
  | zero => exact hs
  | succ n ih =>
    unfold audIssueF
    dsimp only
    split
    · split
      · split
        · exact ih _ (audSigItem_keeps _ _ _ _ _ _ _ (State.setAud_keeps _ _ _ hs))
        · exact hs
      · exact hs
    · exact hs

theorem audSigned_keeps (d : Nat) (bseq : Nat) (status : Nat) (jobst : Nat) (sig : Bytes) (s : State) (hs : Keeps q s) :
    Keeps q (audSigned d bseq status jobst sig s) := by
  unfold audSigned
  (try dsimp only)
  repeat' (first | intro _ | with_reducible assumption | with_reducible apply keeps_ite | with_reducible apply audIssueF_keeps | with_reducible apply State.setAud_keeps)

theorem replaceJob_keeps (e : Nat) (ta : Nat) (left : Nat) (j : PkJob) (s : State) (hs : Keeps q s) :
    Keeps q (replaceJob e ta left j s) := by
  unfold replaceJob
  (try dsimp only)
  repeat' (first | intro _ | with_reducible assumption | with_reducible apply keeps_ite | with_reducible apply redecide_keeps | with_reducible apply State.setBg_keeps | with_reducible apply pkKick_keeps | with_reducible apply pkAdd_keeps | with_reducible apply bgEnd_keeps | with_reducible apply State.setJob_keeps | with_reducible apply audSigned_keeps | with_reducible apply laneControl_keeps | contradiction | split)

theorem holdFence_keeps (d : Nat) (s : State) (hs : Keeps q s) :
    Keeps q (holdFence d s) := by
  unfold holdFence
  (try dsimp only)
  repeat' (first | with_reducible assumption | with_reducible apply keeps_ite | with_reducible apply State.setDom_keeps)

theorem fencePkDie_keeps (d : Nat) (cause : Nat) (s : State) (hs : Keeps q s) :
    Keeps q (fencePkDie d cause s) := by
  unfold fencePkDie
  (try dsimp only)
  repeat' (first | intro _ | with_reducible assumption | with_reducible apply keeps_ite | with_reducible apply keeps_ite1 | with_reducible apply keeps_ite2 | with_reducible apply takeEng_keeps | with_reducible apply bgTry_keeps | with_reducible apply finishDrain_keeps | with_reducible apply settleDegraded_keeps | with_reducible apply replaceJob_keeps | with_reducible apply holdFence_keeps | contradiction | split | with_reducible apply keeps_foldl | with_reducible apply keeps_foldl1)

theorem pkReadyEffect_keeps (d : Nat) (s : State) (hs : Keeps q s) :
    Keeps q (pkReadyEffect d s) := by
  unfold pkReadyEffect
  (try dsimp only)
  repeat' (first | intro _ | with_reducible assumption | with_reducible apply keeps_ite | with_reducible apply bgTry_keeps | with_reducible apply State.setEng_keeps | with_reducible apply keeps_foldl)

theorem fenceLaneUnit_keeps (l : Nat) (cause : Nat) (s : State) (hs : Keeps q s) :
    Keeps q (fenceLaneUnit l cause s) := by
  unfold fenceLaneUnit
  (try dsimp only)
  repeat' (first | with_reducible assumption | with_reducible apply keeps_ite | with_reducible apply fenceLane_keeps | with_reducible apply spareJoin_keeps)

theorem fenceDie_keeps (d : Nat) (s : State) (hs : Keeps q s) :
    Keeps q (fenceDie d s) := by
  unfold fenceDie
  (try dsimp only)
  repeat' (first | intro _ | with_reducible assumption | with_reducible apply State.setQuad_keeps | with_reducible apply markLane_keeps | with_reducible apply finishDrain_keeps | with_reducible apply settleDegraded_keeps | with_reducible apply takeEng_keeps | with_reducible apply keeps_foldl)

theorem fenceQuad_keeps (z0 : Nat) (cause : Nat) (s : State) (hs : Keeps q s) :
    Keeps q (fenceQuad z0 cause s) := by
  unfold fenceQuad
  (try dsimp only)
  repeat' (first | intro _ | with_reducible assumption | with_reducible apply keeps_ite | with_reducible apply holdFence_keeps | with_reducible apply State.setQuad_keeps | with_reducible apply finishDrain_keeps | with_reducible apply settleDegraded_keeps | with_reducible apply clearLanes_keeps | with_reducible apply markLane_keeps | with_reducible apply keeps_foldl)

theorem fencedEffect_keeps (d : Nat) (s : State) (hs : Keeps q s) :
    Keeps q (fencedEffect d s) := by
  unfold fencedEffect
  (try dsimp only)
  repeat' (first | with_reducible assumption | with_reducible apply keeps_ite | with_reducible apply fenceDie_keeps | with_reducible apply fencePkDie_keeps | with_reducible apply fenceQuad_keeps | with_reducible apply failSpares_keeps)

theorem sparesReady_keeps (d : Nat) (s : State) (hs : Keeps q s) :
    Keeps q (sparesReady d s) := by
  unfold sparesReady
  (try dsimp only)
  repeat' (first | intro _ | with_reducible assumption | with_reducible apply keeps_ite | with_reducible apply State.setSpare_keeps | with_reducible apply keeps_foldl)

theorem postJob_keeps (jn : Nat) (status : Nat) (body : Bytes) (s : State) (hs : Keeps q s) :
    Keeps q (postJob jn status body s) := by
  unfold postJob
  (try dsimp only)
  repeat' (first | intro _ | with_reducible assumption | with_reducible apply keeps_ite | with_reducible apply relPins_keeps | with_reducible apply pkDrop_keeps | with_reducible apply State.setJob_keeps | with_reducible apply State.setLane_keeps | with_reducible apply State.bump_keeps | with_reducible apply lanePost_keeps | with_reducible apply freeSlotOf_keeps)

theorem jobAnswered_keeps (jn : Nat) (s : State) (hs : Keeps q s) :
    Keeps q (jobAnswered jn s) := by
  unfold jobAnswered
  (try dsimp only)
  repeat' (first | with_reducible assumption | with_reducible apply keeps_ite | with_reducible apply dropPrev_keeps | with_reducible apply finishDrain_keeps | with_reducible apply State.setJob_keeps)

theorem countCorrected_keeps (l : Nat) (n : Nat) (s : State) (hs : Keeps q s) :
    Keeps q (countCorrected l n s) := by
  unfold countCorrected
  (try dsimp only)
  repeat' (first | with_reducible assumption | with_reducible apply State.bumpBy_keeps)

theorem fencePkUnit_keeps (e : Nat) (cause : Nat) (s : State) (hs : Keeps q s) :
    Keeps q (fencePkUnit e cause s) := by
  unfold fencePkUnit
  (try dsimp only)
  repeat' (first | intro _ | with_reducible assumption | with_reducible apply keeps_ite | with_reducible apply takeEng_keeps | with_reducible apply finishDrain_keeps | with_reducible apply settleDegraded_keeps | with_reducible apply replaceJob_keeps | with_reducible apply keeps_foldl)

theorem setKept_keeps (idx : Nat) (sub : Nat) (v : Bytes) (s : State) (hs : Keeps q s) :
    Keeps q (setKept idx sub v s) := by
  unfold setKept
  (try dsimp only)
  repeat' (first | with_reducible assumption | with_reducible apply keeps_ite | with_reducible apply State.setEnt_keeps | (simp only [keeps_mk]; with_reducible apply Keeps.both))

theorem State.setCard_keeps (s : State) (i : Nat) (c : Card) (hs : Keeps q s) :
    Keeps q (State.setCard s i c) := by
  unfold State.setCard
  (try dsimp only)
  repeat' (first | intro _ | with_reducible assumption | with_reducible apply keeps_ite | contradiction | split | (simp only [keeps_mk]; with_reducible apply Keeps.both))

theorem State.setCer_keeps (s : State) (c : Ceremony) (hs : Keeps q s) :
    Keeps q (State.setCer s c) := by
  unfold State.setCer
  (try dsimp only)
  repeat' (first | intro _ | with_reducible assumption | with_reducible apply keeps_ite | with_reducible apply State.setNum_keeps | contradiction | split | (simp only [keeps_mk]; with_reducible apply Keeps.both))

theorem cardFault_keeps (i : Nat) (f : Nat) (s : State) (hs : Keeps q s) :
    Keeps q (cardFault i f s) := by
  unfold cardFault
  (try dsimp only)
  repeat' (first | with_reducible assumption | with_reducible apply keeps_ite | with_reducible apply State.setCard_keeps | with_reducible apply State.bump_keeps | with_reducible apply State.setCer_keeps)

theorem zeroiseCards_keeps (s : State) (hs : Keeps q s) :
    Keeps q (zeroiseCards s) := ⟨hs.1, hs.2, hs.3⟩

theorem cerClose_keeps (st : SlotState) (code : Nat) (res : Bytes) (s : State) (hs : Keeps q s) :
    Keeps q (cerClose st code res s) := by
  unfold cerClose
  (try dsimp only)
  repeat' (first | with_reducible assumption | with_reducible apply keeps_ite | with_reducible apply State.setCer_keeps | with_reducible apply zeroiseCards_keeps | with_reducible apply State.bump_keeps | with_reducible apply mrMeasure_keeps | with_reducible apply setKept_keeps | with_reducible apply cutOff_keeps | with_reducible apply endSlot_keeps | with_reducible apply startFlip_keeps | contradiction | split | (simp only [keeps_mk]; with_reducible apply Keeps.both))

theorem cerAbortPoint_keeps (s : State) (hs : Keeps q s) :
    Keeps q (cerAbortPoint s) := by
  unfold cerAbortPoint
  (try dsimp only)
  repeat' (first | with_reducible assumption | with_reducible apply keeps_ite | with_reducible apply cerClose_keeps)

theorem cerAbort_keeps (s : State) (hs : Keeps q s) :
    Keeps q (cerAbort s) := by
  unfold cerAbort
  (try dsimp only)
  repeat' (first | with_reducible assumption | with_reducible apply keeps_ite | with_reducible apply cerAbortPoint_keeps | with_reducible apply State.setCer_keeps)

theorem restCards_keeps (s : State) (hs : Keeps q s) :
    Keeps q (restCards s) := by
  unfold restCards
  (try dsimp only)
  repeat' (first | intro _ | with_reducible assumption | with_reducible apply keeps_ite | (simp only [keeps_mk]; with_reducible apply Keeps.both))

theorem cerStart_keeps (kind : Nat) (slot : Nat) (role : Nat) (params : Bytes) (s : State) (hs : Keeps q s) :
    Keeps q (cerStart kind slot role params s) := by
  unfold cerStart
  (try dsimp only)
  repeat' (first | with_reducible assumption | with_reducible apply keeps_ite | with_reducible apply State.bump_keeps | with_reducible apply failSlot_keeps | with_reducible apply ctrIncrement_keeps | with_reducible apply State.setNum_keeps | with_reducible apply State.setCer_keeps | with_reducible apply restCards_keeps)

theorem startEntryCeremony_keeps (slot : Nat) (role : Nat) (s : State) (hs : Keeps q s) :
    Keeps q (startEntryCeremony slot role s) := by
  unfold startEntryCeremony
  (try dsimp only)
  repeat' (first | with_reducible assumption | with_reducible apply keeps_ite | with_reducible apply State.setDom_keeps | with_reducible apply cerStart_keeps | (simp only [keeps_mk]; with_reducible apply Keeps.both))

theorem cerLeave_keeps (slot : Option Nat) (s : State) (hs : Keeps q s) :
    Keeps q (cerLeave slot s) := by
  unfold cerLeave
  (try dsimp only)
  repeat' (first | with_reducible assumption | with_reducible apply keeps_ite | with_reducible apply startFlip_keeps | with_reducible apply cerAbortPoint_keeps | with_reducible apply State.setCer_keeps)

theorem restoreCred_keeps (i : Nat) (s : State) (hs : Keeps q s) :
    Keeps q (restoreCred i s) := by
  unfold restoreCred
  (try dsimp only)
  repeat' (first | intro _ | with_reducible assumption | with_reducible apply keeps_ite | with_reducible apply setKept_keeps | with_reducible apply logEvent_keeps)

theorem cerFail_keeps (code : Nat) (res : Bytes) (s : State) (hs : Keeps q s) :
    Keeps q (cerFail code res s) := by
  unfold cerFail
  (try dsimp only)
  repeat' (first | with_reducible assumption | with_reducible apply cerClose_keeps)

theorem writePages_keeps (p : Nat) (l : List Bytes) (s : State) (hs : Keeps q s) : Keeps q (writePages p l s).2 := by
  induction l generalizing p s with
  | nil => exact hs
  | cons b l ih =>
    unfold writePages
    have h := programPage_keeps p 0 b 0 s hs
    exact keeps_ite2 h (ih _ _ h)

theorem cerDrop_keeps (s : State) (hs : Keeps q s) :
    Keeps q (cerDrop s) := by
  unfold cerDrop
  (try dsimp only)
  repeat' (first | with_reducible assumption | with_reducible apply keeps_ite | with_reducible apply zeroiseCards_keeps | with_reducible apply setKept_keeps | with_reducible apply State.bump_keeps | with_reducible apply State.setCer_keeps | (simp only [keeps_mk]; with_reducible apply Keeps.both))

theorem setCred_keeps (i : Nat) (rec : Bytes) (s : State) (hs : Keeps q s) :
    Keeps q (setCred i rec s).2 := by
  unfold setCred
  (try dsimp only)
  repeat' (first | with_reducible assumption | with_reducible apply keeps_ite | with_reducible apply keeps_ite2 | with_reducible apply programPage_keeps | with_reducible apply setKept_keeps)

theorem State.setMlink_keeps (s : State) (l : Nat) (v : MLink) (hs : Keeps q s) :
    Keeps q (State.setMlink s l v) := by
  unfold State.setMlink
  (try dsimp only)
  repeat' (first | intro _ | with_reducible assumption | with_reducible apply keeps_ite | contradiction | split | (simp only [keeps_mk]; with_reducible apply Keeps.both))

theorem sendMir_keeps (l : Nat) (m : MirMsg) (s : State) (hs : Keeps q s) :
    Keeps q (sendMir l m s) := by
  unfold sendMir
  (try dsimp only)
  repeat' (first | with_reducible assumption | with_reducible apply State.setMlink_keeps | with_reducible apply State.emit_keeps | with_reducible apply State.bump_keeps)

theorem sendSerial_keeps (ser : Bytes) (m : MirMsg) (s : State) (hs : Keeps q s) :
    Keeps q (sendSerial ser m s) := by
  unfold sendSerial
  (try dsimp only)
  repeat' (first | with_reducible assumption | with_reducible apply sendMir_keeps | contradiction | split)

theorem sendTo_keeps (k : Nat) (m : MirMsg) (s : State) (hs : Keeps q s) :
    Keeps q (sendTo k m s) := by
  unfold sendTo
  (try dsimp only)
  repeat' (first | with_reducible assumption | with_reducible apply sendSerial_keeps)

theorem setChg_keeps (c : Chg) (s : State) (hs : Keeps q s) :
    Keeps q (setChg c s) := by
  unfold setChg
  (try dsimp only)
  repeat' (first | intro _ | with_reducible assumption | with_reducible apply keeps_ite | contradiction | split | (simp only [keeps_mk]; with_reducible apply Keeps.both))

theorem logDecision_keeps (chg : Bytes) (node : Nat) (d : Nat) (s : State) (hs : Keeps q s) :
    Keeps q (logDecision chg node d s) := by
  unfold logDecision
  (try dsimp only)
  repeat' (first | with_reducible assumption | with_reducible apply programPage_keeps | (simp only [keeps_mk]; with_reducible apply Keeps.both))

theorem dropChg_keeps (id : Bytes) (s : State) (hs : Keeps q s) :
    Keeps q (dropChg id s) := by
  unfold dropChg
  (try dsimp only)
  repeat' (first | intro _ | with_reducible assumption | with_reducible apply keeps_ite | with_reducible apply State.setNum_keeps | contradiction | split | (simp only [keeps_mk]; with_reducible apply Keeps.both))

theorem chgAbort_keeps (id : Bytes) (code : Nat) (s : State) (hs : Keeps q s) :
    Keeps q (chgAbort id code s) := by
  unfold chgAbort
  (try dsimp only)
  repeat' (first | intro _ | with_reducible assumption | with_reducible apply keeps_ite | with_reducible apply State.bump_keeps | with_reducible apply logDecision_keeps | with_reducible apply sendTo_keeps | with_reducible apply setChg_keeps | with_reducible apply unstage_keeps | with_reducible apply failSlot_keeps | with_reducible apply cerFail_keeps | with_reducible apply dropChg_keeps | contradiction | split | with_reducible apply keeps_foldl)

theorem installNode_keeps (id : Nat) (rec : Bytes) (key : Bytes) (s : State) (hs : Keeps q s) :
    Keeps q (installNode id rec key s) := by
  unfold installNode
  (try dsimp only)
  repeat' (first | with_reducible assumption | with_reducible apply keeps_ite | with_reducible apply deleteNode_keeps | with_reducible apply State.setNode_keeps | with_reducible apply State.setRun_keeps | with_reducible apply storeKey_keeps | with_reducible apply startScan_keeps | (simp only [keeps_mk]; with_reducible apply Keeps.both))

theorem showGroup_keeps (s : State) (hs : Keeps q s) :
    Keeps q (showGroup s) := by
  unfold showGroup
  (try dsimp only)
  repeat' (first | intro _ | with_reducible assumption | with_reducible apply State.setEnt_keeps | with_reducible apply State.setNum_keeps | with_reducible apply keeps_foldl)

theorem leaveGroup_keeps (s : State) (hs : Keeps q s) :
    Keeps q (leaveGroup s) := by
  unfold leaveGroup
  (try dsimp only)
  repeat' (first | intro _ | with_reducible assumption | with_reducible apply deleteNode_keeps | with_reducible apply showGroup_keeps | (simp only [keeps_mk]; with_reducible apply Keeps.both) | with_reducible apply keeps_foldl)

theorem writeRoster_keeps (s : State) (hs : Keeps q s) :
    Keeps q (writeRoster s).2 := by
  unfold writeRoster
  (try dsimp only)
  repeat' (first | with_reducible assumption | with_reducible apply keeps_ite | with_reducible apply keeps_ite2 | with_reducible apply programPage_keeps)

theorem takeRoster_keeps (b : Bytes) (s : State) (hs : Keeps q s) :
    Keeps q (takeRoster b s) := by
  unfold takeRoster
  (try dsimp only)
  repeat' (first | intro _ | with_reducible assumption | with_reducible apply keeps_ite | with_reducible apply showGroup_keeps | with_reducible apply writeRoster_keeps | (simp only [keeps_mk]; with_reducible apply Keeps.both))

theorem chgDone_keeps (c : Chg) (s : State) (hs : Keeps q s) :
    Keeps q (chgDone c s) := by
  unfold chgDone
  (try dsimp only)
  repeat' (first | with_reducible assumption | with_reducible apply keeps_ite | with_reducible apply dropChg_keeps | with_reducible apply doneSlot_keeps | with_reducible apply cerClose_keeps | contradiction | split)

theorem chgCommit_keeps (c : Chg) (s : State) (hs : Keeps q s) :
    Keeps q (chgCommit c s) := by
  unfold chgCommit
  (try dsimp only)
  repeat' (first | intro _ | with_reducible assumption | with_reducible apply keeps_ite | with_reducible apply State.bump_keeps | with_reducible apply logDecision_keeps | with_reducible apply setChg_keeps | with_reducible apply sendSerial_keeps | with_reducible apply installNode_keeps | with_reducible apply leaveGroup_keeps | with_reducible apply takeRoster_keeps | with_reducible apply chgDone_keeps | (simp only [keeps_mk]; with_reducible apply Keeps.both) | with_reducible apply keeps_foldl)

theorem chgPrepared_keeps (c : Chg) (s : State) (hs : Keeps q s) :
    Keeps q (chgPrepared c s) := by
  unfold chgPrepared
  (try dsimp only)
  repeat' (first | with_reducible assumption | with_reducible apply keeps_ite | with_reducible apply setChg_keeps | with_reducible apply chgAbort_keeps | with_reducible apply chgCommit_keeps | with_reducible apply prepared_keeps)

theorem groupPrepare_keeps (op : Nat) (node : Nat) (rec : Bytes) (key : Bytes) (ros : Bytes) (slot : Option Nat) (res : Bytes) (skip : Option Nat) (s : State) (hs : Keeps q s) :
    Keeps q (groupPrepare op node rec key ros slot res skip s).2.2 := by
  unfold groupPrepare
  (try dsimp only)
  repeat' (first | intro _ | with_reducible assumption | with_reducible apply keeps_ite | with_reducible apply keeps_ite1 | with_reducible apply keeps_ite2 | with_reducible apply State.bump_keeps | with_reducible apply State.setEnt_keeps | with_reducible apply sendTo_keeps | with_reducible apply sendSerial_keeps | with_reducible apply chgPrepared_keeps | contradiction | split | (simp only [keeps_mk]; with_reducible apply Keeps.both) | with_reducible apply keeps_foldl)

theorem askStatus_keeps (c : Chg) (s : State) (hs : Keeps q s) :
    Keeps q (askStatus c s) := by
  unfold askStatus
  (try dsimp only)
  repeat' (first | intro _ | with_reducible assumption | with_reducible apply keeps_ite | with_reducible apply setChg_keeps | with_reducible apply State.setNum_keeps | with_reducible apply sendTo_keeps | with_reducible apply keeps_foldl)

theorem memberAbort_keeps (c : Chg) (s : State) (hs : Keeps q s) :
    Keeps q (memberAbort c s) := by
  unfold memberAbort
  (try dsimp only)
  repeat' (first | with_reducible assumption | with_reducible apply keeps_ite | with_reducible apply State.bump_keeps | with_reducible apply logDecision_keeps | with_reducible apply unstage_keeps | with_reducible apply dropChg_keeps)

theorem memberCommit_keeps (c : Chg) (s : State) (hs : Keeps q s) :
    Keeps q (memberCommit c s) := by
  unfold memberCommit
  (try dsimp only)
  repeat' (first | with_reducible assumption | with_reducible apply keeps_ite | with_reducible apply State.bump_keeps | with_reducible apply logDecision_keeps | with_reducible apply commitPoint_keeps | with_reducible apply installNode_keeps | with_reducible apply takeRoster_keeps | with_reducible apply cerClose_keeps | with_reducible apply dropChg_keeps)

theorem settleStatus_keeps (id : Bytes) (s : State) (hs : Keeps q s) :
    Keeps q (settleStatus id s) := by
  unfold settleStatus
  (try dsimp only)
  repeat' (first | intro _ | with_reducible assumption | with_reducible apply keeps_ite | with_reducible apply memberCommit_keeps | with_reducible apply memberAbort_keeps | with_reducible apply setChg_keeps | with_reducible apply State.setNum_keeps | contradiction | split)

theorem chgAnswered_keeps (id : Bytes) (k : Nat) (s : State) (hs : Keeps q s) :
    Keeps q (chgAnswered id k s) := by
  unfold chgAnswered
  (try dsimp only)
  repeat' (first | intro _ | with_reducible assumption | with_reducible apply keeps_ite | with_reducible apply setChg_keeps | with_reducible apply chgDone_keeps | with_reducible apply dropChg_keeps | contradiction | split)

theorem memberLost_keeps (k : Nat) (s : State) (hs : Keeps q s) :
    Keeps q (memberLost k s) := by
  unfold memberLost
  (try dsimp only)
  repeat' (first | intro _ | with_reducible assumption | with_reducible apply keeps_ite | with_reducible apply chgAbort_keeps | with_reducible apply chgAnswered_keeps | with_reducible apply askStatus_keeps | with_reducible apply keeps_foldl)

theorem linkDown_keeps (l : Nat) (s : State) (hs : Keeps q s) :
    Keeps q (linkDown l s) := by
  unfold linkDown
  (try dsimp only)
  repeat' (first | with_reducible assumption | with_reducible apply keeps_ite | with_reducible apply State.bump_keeps | with_reducible apply State.setMlink_keeps | with_reducible apply memberLost_keeps | contradiction | split)

theorem groupCoreReset_keeps (s : State) (hs : Keeps q s) :
    Keeps q (groupCoreReset s) := by
  unfold groupCoreReset
  (try dsimp only)
  repeat' (first | intro _ | with_reducible assumption | with_reducible apply keeps_ite | with_reducible apply chgAbort_keeps | with_reducible apply dropChg_keeps | with_reducible apply keeps_foldl)

theorem frameFail_keeps (l : Nat) (s : State) (hs : Keeps q s) :
    Keeps q (frameFail l s) := by
  unfold frameFail
  (try dsimp only)
  repeat' (first | with_reducible assumption | with_reducible apply State.noteSet_keeps | with_reducible apply State.setMlink_keeps | with_reducible apply linkDown_keeps | with_reducible apply logEvent_keeps)

theorem tamperFrames_keeps (s : State) (hs : Keeps q s) :
    Keeps q (tamperFrames s) := by
  unfold tamperFrames
  (try dsimp only)
  repeat' (first | intro _ | with_reducible assumption | with_reducible apply keeps_ite | with_reducible apply sendMir_keeps | with_reducible apply State.bump_keeps | with_reducible apply State.setMlink_keeps | with_reducible apply keeps_foldl)

theorem clearLanesQuads_keeps (d : Nat) (s : State) (hs : Keeps q s) :
    Keeps q (clearLanesQuads d s) := by
  unfold clearLanesQuads
  (try dsimp only)
  repeat' (first | intro _ | with_reducible assumption | with_reducible apply State.setLane_keeps | with_reducible apply State.setQuad_keeps | contradiction | split | (simp only [keeps_mk]; with_reducible apply Keeps.both) | with_reducible apply keeps_foldl)

theorem clearEngines_keeps (d : Nat) (s : State) (hs : Keeps q s) :
    Keeps q (clearEngines d s) := by
  unfold clearEngines
  (try dsimp only)
  repeat' (first | intro _ | with_reducible assumption | with_reducible apply keeps_ite | with_reducible apply State.setEng_keeps | with_reducible apply audSigned_keeps | with_reducible apply bgEnd_keeps | with_reducible apply keeps_foldl)

theorem dropChange_keeps (code : Nat) (s : State) (hs : Keeps q s) :
    Keeps q (dropChange code s) := by
  unfold dropChange
  (try dsimp only)
  repeat' (first | with_reducible assumption | with_reducible apply keeps_ite | with_reducible apply discardLoad_keeps | with_reducible apply endSlot_keeps | contradiction | split)

theorem cutFrame_keeps (p : Nat) (dies : Nat) (s : State) (hs : Keeps q s) :
    Keeps q (cutFrame p dies s) := by
  unfold cutFrame
  (try dsimp only)
  repeat' (first | intro _ | with_reducible assumption | with_reducible apply keeps_ite | with_reducible apply State.pstat_keeps | with_reducible apply State.emit_keeps | with_reducible apply State.setSrc_keeps | contradiction | split)

theorem sweepStart_keeps (p : Nat) (status : Nat) (dies : Nat) (full : Bool) (s : State) (hs : Keeps q s) :
    Keeps q (sweepStart p status dies full s) := by
  unfold sweepStart
  (try dsimp only)
  repeat' (first | intro _ | with_reducible assumption | with_reducible apply keeps_ite | with_reducible apply cutFrame_keeps | with_reducible apply State.setSrc_keeps | with_reducible apply flushLine_keeps)

theorem coreResetCd_keeps (d : Nat) (s : State) (hs : Keeps q s) :
    Keeps q (coreResetCd d s) := by
  unfold coreResetCd
  (try dsimp only)
  repeat' (first | intro _ | with_reducible assumption | with_reducible apply keeps_ite | with_reducible apply clearLanesQuads_keeps | with_reducible apply clearEngines_keeps | with_reducible apply dropChange_keeps | with_reducible apply State.setDisp_keeps | with_reducible apply State.setAud_keeps | with_reducible apply sweepStart_keeps | with_reducible apply finishDrain_keeps | with_reducible apply rearmAll_keeps | (simp only [keeps_mk]; with_reducible apply Keeps.both) | with_reducible apply keeps_foldl)

theorem coreResetKd_keeps (s : State) (hs : Keeps q s) :
    Keeps q (coreResetKd s) := by
  unfold coreResetKd
  (try dsimp only)
  repeat' (first | intro _ | with_reducible assumption | with_reducible apply keeps_ite | with_reducible apply groupCoreReset_keeps | with_reducible apply cerDrop_keeps | with_reducible apply unstage_keeps | with_reducible apply State.setNode_keeps | with_reducible apply discardLoad_keeps | with_reducible apply actCoreKd_keeps | (simp only [keeps_mk]; with_reducible apply Keeps.both) | with_reducible apply keeps_foldl)

theorem portsConfigure_keeps (s : State) (hs : Keeps q s) :
    Keeps q (portsConfigure s) := by
  unfold portsConfigure
  (try dsimp only)
  repeat' (first | intro _ | with_reducible assumption | with_reducible apply keeps_ite | with_reducible apply State.setSrc_keeps | with_reducible apply tcpOpen_keeps | (simp only [keeps_mk]; with_reducible apply Keeps.both) | with_reducible apply keeps_foldl)

theorem portOwnReset_keeps (p : Nat) (s : State) (hs : Keeps q s) :
    Keeps q (portOwnReset p s) := by
  unfold portOwnReset
  (try dsimp only)
  repeat' (first | intro _ | with_reducible assumption | with_reducible apply keeps_ite | with_reducible apply State.pstat_keeps | with_reducible apply tcpSeg_keeps | with_reducible apply State.setTcp_keeps | with_reducible apply State.setSrc_keeps)

theorem portSweepOp_keeps (p : Nat) (s : State) (hs : Keeps q s) :
    Keeps q (portSweepOp p s) := by
  unfold portSweepOp
  (try dsimp only)
  repeat' (first | intro _ | with_reducible assumption | with_reducible apply keeps_ite | with_reducible apply State.setSrc_keeps | with_reducible apply answerOutst_keeps | with_reducible apply portOwnReset_keeps | contradiction | split | with_reducible apply keeps_foldl)

theorem finishSweeps_keeps (s : State) (hs : Keeps q s) : Keeps q (finishSweeps s) := by
  unfold finishSweeps
  exact keeps_foldl (fun t p h => State.setSrc_keeps _ _ _ (keeps_foldl2 (fun a f h => sweepFrame_keeps _ _ _ h) (portSweepOp_keeps _ _ h))) hs

theorem clearUnitsSystem_keeps (s : State) (hs : Keeps q s) :
    Keeps q (clearUnitsSystem s) := ⟨hs.1, hs.2, hs.3⟩

theorem blockResetPk_keeps (e : Nat) (s : State) (hs : Keeps q s) :
    Keeps q (blockResetPk e s) := by
  unfold blockResetPk
  (try dsimp only)
  repeat' (first | with_reducible assumption | with_reducible apply State.setEng_keeps)

theorem sweepHost_keeps (z0 : Nat) (status : Nat) (reset : Bool) (s : State) (hs : Keeps q s) :
    Keeps q (sweepHost z0 status reset s) := by
  unfold sweepHost
  (try dsimp only)
  repeat' (first | intro _ | with_reducible assumption | with_reducible apply keeps_ite | with_reducible apply answerOutst_keeps | with_reducible apply State.setSrc_keeps | with_reducible apply State.setHq_keeps | with_reducible apply keeps_foldl)

theorem sweepAll_keeps (erased : Bool) (s : State) (hs : Keeps q s) :
    Keeps q (sweepAll erased s) := by
  unfold sweepAll
  (try dsimp only)
  repeat' (first | intro _ | with_reducible assumption | with_reducible apply keeps_ite | with_reducible apply sweepStart_keeps | with_reducible apply sweepHost_keeps | (simp only [keeps_mk]; with_reducible apply Keeps.both) | with_reducible apply keeps_foldl)

theorem blockResetPort_keeps (p : Nat) (s : State) (hs : Keeps q s) :
    Keeps q (blockResetPort p s) := by
  unfold blockResetPort
  (try dsimp only)
  repeat' (first | with_reducible assumption | with_reducible apply keeps_ite | with_reducible apply portOwnReset_keeps | with_reducible apply tcpOpen_keeps)

theorem auditSysClose_keeps (s : State) (hs : Keeps q s) :
    Keeps q (auditSysClose s) := by
  unfold auditSysClose
  (try dsimp only)
  repeat' (first | intro _ | with_reducible assumption | with_reducible apply keeps_ite | with_reducible apply State.setAud_keeps | contradiction | split | with_reducible apply keeps_foldl)

theorem restoreCd_keeps (d : Nat) (s : State) (hs : Keeps q s) :
    Keeps q (restoreCd d s) := by
  unfold restoreCd
  (try dsimp only)
  repeat' (first | intro _ | with_reducible assumption | with_reducible apply keeps_ite | with_reducible apply State.setDisp_keeps | with_reducible apply refreshBanks_keeps | with_reducible apply keeps_foldl)

theorem eraseKd_keeps (s : State) (hs : Keeps q s) :
    Keeps q (eraseKd s) := by
  unfold eraseKd
  (try dsimp only)
  repeat' (first | intro _ | with_reducible assumption | with_reducible apply cerDrop_keeps | contradiction | split | (simp only [keeps_mk]; with_reducible apply Keeps.both))

theorem State.setCond_keeps (s : State) (c : Nat) (v : Cond) (hs : Keeps q s) :
    Keeps q (State.setCond s c v) := by
  unfold State.setCond
  (try dsimp only)
  repeat' (first | intro _ | with_reducible assumption | with_reducible apply keeps_ite | contradiction | split | (simp only [keeps_mk]; with_reducible apply Keeps.both))

theorem cutRamps_keeps (s : State) (hs : Keeps q s) :
    Keeps q (cutRamps s) := by
  unfold cutRamps
  (try dsimp only)
  repeat' (first | intro _ | with_reducible assumption | with_reducible apply keeps_ite | with_reducible apply cutOff_keeps | contradiction | split | with_reducible apply keeps_foldl)

theorem eraseAudit_keeps (s : State) (hs : Keeps q s) :
    Keeps q (eraseAudit s) := by
  unfold eraseAudit
  (try dsimp only)
  repeat' (first | intro _ | with_reducible assumption | with_reducible apply keeps_ite | with_reducible apply State.setAud_keeps | with_reducible apply keeps_foldl)

theorem eraseUnits_keeps (s : State) (hs : Keeps q s) :
    Keeps q (eraseUnits s) := by
  unfold eraseUnits
  (try dsimp only)
  repeat' (first | intro _ | with_reducible assumption | with_reducible apply keeps_ite | (simp only [keeps_mk]; with_reducible apply Keeps.both))

theorem eraseSlots_keeps (s : State) (hs : Keeps q s) :
    Keeps q (eraseSlots s) := by
  unfold eraseSlots
  (try dsimp only)
  repeat' (first | with_reducible assumption | with_reducible apply failSlot_keeps | with_reducible apply endSessions_keeps | with_reducible apply abortSlots_keeps | contradiction | split | (simp only [keeps_mk]; with_reducible apply Keeps.both))

theorem eraseSup_keeps (s : State) (hs : Keeps q s) :
    Keeps q (eraseSup s) := ⟨hs.1, hs.2, hs.3⟩

theorem latchAlarms_keeps (s : State) (hs : Keeps q s) :
    Keeps q (latchAlarms s) := ⟨hs.1, hs.2, hs.3⟩

theorem tamperErase_keeps (code : Nat) (s : State) (hs : Keeps q s) :
    Keeps q (tamperErase code s) := by
  unfold tamperErase
  (try dsimp only)
  repeat' (first | with_reducible assumption | with_reducible apply keeps_ite | with_reducible apply tamperFrames_keeps | with_reducible apply cutRamps_keeps | with_reducible apply sweepAll_keeps | with_reducible apply eraseAudit_keeps | with_reducible apply eraseUnits_keeps | with_reducible apply eraseKd_keeps | with_reducible apply eraseSlots_keeps | with_reducible apply eraseSup_keeps | with_reducible apply latchAlarms_keeps | (simp only [keeps_mk]; with_reducible apply Keeps.both))

theorem escalate_keeps (k : Nat) (s : State) (hs : Keeps q s) :
    Keeps q (escalate k s) := by
  unfold escalate
  (try dsimp only)
  repeat' (first | with_reducible assumption | with_reducible apply keeps_ite | with_reducible apply State.setCond_keeps | with_reducible apply State.at_keeps | with_reducible apply tamperErase_keeps | with_reducible apply logEvent_keeps)

theorem settleEscalation_keeps (k : Nat) (s : State) (hs : Keeps q s) :
    Keeps q (settleEscalation k s) := by
  unfold settleEscalation
  (try dsimp only)
  repeat' (first | with_reducible assumption | with_reducible apply keeps_ite | with_reducible apply escalate_keeps)

theorem guardAssert_keeps (code : Nat) (sensor : Nat) (s : State) (hs : Keeps q s) :
    Keeps q (guardAssert code sensor s) := by
  unfold guardAssert
  (try dsimp only)
  repeat' (first | with_reducible assumption | with_reducible apply keeps_ite | with_reducible apply vbatInc_keeps | with_reducible apply State.setCond_keeps | with_reducible apply State.noteSet_keeps | (simp only [keeps_mk]; with_reducible apply Keeps.both))

theorem guardDeassert_keeps (code : Nat) (s : State) (hs : Keeps q s) :
    Keeps q (guardDeassert code s) := by
  unfold guardDeassert
  (try dsimp only)
  repeat' (first | with_reducible assumption | with_reducible apply keeps_ite | with_reducible apply State.setCond_keeps)

theorem zeroiseErase_keeps (cred : Nat) (s : State) (hs : Keeps q s) :
    Keeps q (zeroiseErase cred s) := by
  unfold zeroiseErase
  (try dsimp only)
  repeat' (first | with_reducible assumption | with_reducible apply tamperErase_keeps | with_reducible apply vbatInc_keeps | with_reducible apply logEvent_keeps)

theorem condAssert_keeps (code : Nat) (sensor : Nat) (s : State) (hs : Keeps q s) :
    Keeps q (condAssert code sensor s) := by
  unfold condAssert
  (try dsimp only)
  repeat' (first | with_reducible assumption | with_reducible apply keeps_ite | with_reducible apply guardAssert_keeps | with_reducible apply vbatInc_keeps | with_reducible apply State.bump_keeps | with_reducible apply State.noteSet_keeps | with_reducible apply State.setCond_keeps | with_reducible apply logEvent_keeps | with_reducible apply tamperErase_keeps | contradiction | split | (simp only [keeps_mk]; with_reducible apply Keeps.both))

theorem debugErase_keeps (s : State) (hs : Keeps q s) :
    Keeps q (debugErase s) := by
  unfold debugErase
  (try dsimp only)
  repeat' (first | with_reducible assumption | with_reducible apply tamperErase_keeps | with_reducible apply vbatInc_keeps | with_reducible apply logEvent_keeps | with_reducible apply burnLcs_keeps | (simp only [keeps_mk]; with_reducible apply Keeps.both))

theorem survivors_keeps (s : State) (hs : Keeps q s) : Keeps q (survivors s) := ⟨hs.1, hs.2, hs.3⟩

theorem enterGuard_keeps (s : State) (hs : Keeps q s) :
    Keeps q (enterGuard s) := by
  unfold enterGuard
  (try dsimp only)
  repeat' (first | with_reducible assumption | with_reducible apply keeps_ite | with_reducible apply survivors_keeps | with_reducible apply State.setMode_keeps | (simp only [keeps_mk]; with_reducible apply Keeps.both))

theorem writeCause_keeps (level : Nat) (scope : Nat) (info : Nat) (source : Nat) (s : State) (hs : Keeps q s) :
    Keeps q (writeCause level scope info source s) := by
  unfold writeCause
  (try dsimp only)
  repeat' (first | with_reducible assumption | with_reducible apply keeps_ite | (simp only [keeps_mk]; with_reducible apply Keeps.both))

theorem noteRestart_keeps (s : State) (hs : Keeps q s) :
    Keeps q (noteRestart s) := by
  unfold noteRestart
  (try dsimp only)
  repeat' (first | with_reducible assumption | with_reducible apply keeps_ite | (simp only [keeps_mk]; with_reducible apply Keeps.both))

theorem coreKd_keeps (s : State) (hs : Keeps q s) :
    Keeps q (coreKd s) := by
  unfold coreKd
  (try dsimp only)
  repeat' (first | with_reducible assumption | with_reducible apply coreResetKd_keeps | with_reducible apply endSessions_keeps | with_reducible apply abortSlots_keeps | (simp only [keeps_mk]; with_reducible apply Keeps.both))

theorem coreReset_keeps (scope : Nat) (source : Nat) (s : State) (hs : Keeps q s) :
    Keeps q (coreReset scope source s) := by
  unfold coreReset
  (try dsimp only)
  repeat' (first | with_reducible assumption | with_reducible apply keeps_ite | with_reducible apply writeCause_keeps | with_reducible apply noteRestart_keeps | with_reducible apply State.bump_keeps | with_reducible apply coreKd_keeps | with_reducible apply coreResetCd_keeps | (simp only [keeps_mk]; with_reducible apply Keeps.both))

theorem volatileDefaults_keeps (s : State) (hs : Keeps q s) :
    Keeps q (volatileDefaults s) := by
  unfold volatileDefaults
  (try dsimp only)
  repeat' (first | intro _ | with_reducible assumption | contradiction | split | (simp only [keeps_mk]; with_reducible apply Keeps.both))

theorem systemClear_keeps (s : State) (hs : Keeps q s) :
    Keeps q (systemClear s) := by
  unfold systemClear
  (try dsimp only)
  repeat' (first | intro _ | with_reducible assumption | with_reducible apply noteRestart_keeps | with_reducible apply clearUnitsSystem_keeps | with_reducible apply auditSysClose_keeps | with_reducible apply sweepAll_keeps | with_reducible apply cerDrop_keeps | with_reducible apply volatileDefaults_keeps | (simp only [keeps_mk]; with_reducible apply Keeps.both))

theorem systemResetSteps_keeps (source info : Nat) (s : State) (hs : Keeps q s) : Keeps q (systemResetSteps source info s) := by
  unfold systemResetSteps
  have h1 : Keeps q (systemClear s) := systemClear_keeps _ hs
  generalize systemClear s = t at h1 ⊢
  exact State.bump_keeps _ _ _ (State.setMode_keeps _ _ (writeCause_keeps _ _ _ _ _ ⟨h1.1, h1.2, h1.3⟩))

theorem systemReset_keeps (source : Nat) (info : Nat) (s : State) (hs : Keeps q s) :
    Keeps q (systemReset source info s) := by
  unfold systemReset
  (try dsimp only)
  repeat' (first | with_reducible assumption | with_reducible apply keeps_ite | with_reducible apply systemResetSteps_keeps)

theorem systemResetNow_keeps (source : Nat) (info : Nat) (s : State) (hs : Keeps q s) :
    Keeps q (systemResetNow source info s) := by
  unfold systemResetNow
  (try dsimp only)
  repeat' (first | with_reducible assumption | with_reducible apply systemReset_keeps)

theorem powerOnReset_keeps (source : Nat) (s : State) (hs : Keeps q s) :
    Keeps q (powerOnReset source s) := by
  unfold powerOnReset
  (try dsimp only)
  repeat' (first | with_reducible assumption | with_reducible apply survivors_keeps | with_reducible apply State.bump_keeps | with_reducible apply writeCause_keeps | (simp only [keeps_mk]; with_reducible apply Keeps.both))

end Sys2Proof.Machine
end

