-- ==== Sys2Proof/Laws/KeepsReset.lean ====
section
/-!
SUPPORT. What every function keeps (power, ports, options, the configuration record, resets and audit): the queue of waiting commands, the canonical form of the MRAM,
and every fuse bit that is blown. One lemma per function; later lemmas cite the earlier ones.
-/
namespace Sys2Proof.Machine
variable {q : State}

theorem reachOff_keeps (d : Nat) (s : State) (hs : Keeps q s) :
    Keeps q (reachOff d s) := by
  unfold reachOff
  (try dsimp only)
  repeat' (first | with_reducible assumption | with_reducible apply keeps_ite | with_reducible apply emptyCache_keeps | with_reducible apply zeroisePkDie_keeps | with_reducible apply loseDomain_keeps | with_reducible apply State.setDom_keeps | with_reducible apply dozeEnter_keeps | with_reducible apply switchOn_keeps | contradiction | split)

theorem deepSteps_keeps (s : State) (hs : Keeps q s) :
    Keeps q (deepSteps s) := by
  unfold deepSteps
  (try dsimp only)
  repeat' (first | intro _ | with_reducible assumption | with_reducible apply keeps_ite | with_reducible apply cutAll_keeps | with_reducible apply State.setLane_keeps | with_reducible apply State.domTo_keeps | with_reducible apply State.bump_keeps | with_reducible apply State.setMode_keeps | (simp only [keeps_mk]; with_reducible apply Keeps.both) | with_reducible apply keeps_foldl)

theorem failReads_keeps (d : Nat) (s : State) (hs : Keeps q s) :
    Keeps q (failReads d s) := by
  unfold failReads
  (try dsimp only)
  repeat' (first | intro _ | with_reducible assumption | with_reducible apply replyIn_keeps | (simp only [keeps_mk]; with_reducible apply Keeps.both) | with_reducible apply keeps_foldl)

theorem failStalled_keeps (d : Nat) (s : State) (hs : Keeps q s) :
    Keeps q (failStalled d s) := by
  unfold failStalled
  (try dsimp only)
  repeat' (first | intro _ | with_reducible assumption | with_reducible apply State.emit_keeps | (simp only [keeps_mk]; with_reducible apply Keeps.both) | with_reducible apply keeps_foldl)

theorem failPowerUp_keeps (d : Nat) (s : State) (hs : Keeps q s) :
    Keeps q (failPowerUp d s) := by
  unfold failPowerUp
  (try dsimp only)
  repeat' (first | with_reducible assumption | with_reducible apply keeps_ite | with_reducible apply failReads_keeps | with_reducible apply failStalled_keeps | with_reducible apply recordFail_keeps | with_reducible apply systemResetNow_keeps | with_reducible apply cutOff_keeps | with_reducible apply State.setDom_keeps | with_reducible apply settleDegraded_keeps | with_reducible apply fencedEffect_keeps | with_reducible apply State.bump_keeps | (simp only [keeps_mk]; with_reducible apply Keeps.both))

theorem deepUp_keeps (failed : Nat) (src : Nat) (idx : Nat) (s : State) (d : Nat) (hs : Keeps q s) :
    Keeps q (deepUp failed src idx s d) := by
  unfold deepUp
  (try dsimp only)
  repeat' (first | with_reducible assumption | with_reducible apply keeps_ite | with_reducible apply failPowerUp_keeps | with_reducible apply State.setDom_keeps)

theorem deepWakeNow_keeps (src : Nat) (idx : Nat) (failed : Nat) (late : Option Nat) (s : State) (hs : Keeps q s) :
    Keeps q (deepWakeNow src idx failed late s) := by
  unfold deepWakeNow
  (try dsimp only)
  repeat' (first | intro _ | with_reducible assumption | with_reducible apply keeps_ite | with_reducible apply State.bump_keeps | with_reducible apply recordWake_keeps | with_reducible apply deepSteps_keeps | with_reducible apply State.at_keeps | with_reducible apply deepUp_keeps | with_reducible apply quadReadyEffect_keeps | with_reducible apply pkReadyEffect_keeps | with_reducible apply State.setLane_keeps | with_reducible apply rearmAll_keeps | with_reducible apply settleDegraded_keeps | with_reducible apply State.setMode_keeps | with_reducible apply coreReset_keeps | contradiction | split | (simp only [keeps_mk]; with_reducible apply Keeps.both) | with_reducible apply keeps_foldl)

theorem deepWake_keeps (src : Nat) (idx : Nat) (failed : Nat) (s : State) (hs : Keeps q s) :
    Keeps q (deepWake src idx failed s) := by
  unfold deepWake
  (try dsimp only)
  repeat' (first | with_reducible assumption | with_reducible apply keeps_ite | with_reducible apply deepWakeNow_keeps | with_reducible apply deepAbort_keeps | contradiction | split)

theorem execDeepWake_keeps (src : Nat) (r : DeepRise) (s : State) (hs : Keeps q s) :
    ∃ s1, execDeepWake src r s = .next s1 ∧ Keeps q s1 := by
  unfold execDeepWake
  (try dsimp only)
  repeat' (first | with_reducible assumption | refine ⟨_, rfl, ?_⟩ | with_reducible apply ok_keeps | with_reducible apply deepWake_keeps)

theorem startMode_keeps (v : Bytes) (s : State) (role : Nat) (hs : Keeps q s) :
    Keeps q (startMode v s role).st := by
  unfold startMode
  (try dsimp only)
  repeat' (first | intro _ | with_reducible assumption | with_reducible apply keeps_ite | with_reducible apply startOp_keeps | with_reducible apply startEntryCeremony_keeps | with_reducible apply cerLeave_keeps | with_reducible apply startFlip_keeps | contradiction | split)

theorem serveMode_keeps (r : Req) (s : State) (hs : Keeps q s) :
    Keeps q (serveMode r s) := by
  unfold serveMode
  (try dsimp only)
  repeat' (first | intro _ | with_reducible assumption | with_reducible apply keeps_ite | with_reducible apply serve_keeps | with_reducible apply ansErr_keeps | with_reducible apply ansOK_keeps | with_reducible apply startMode_keeps | contradiction | split)

theorem execModeRequestService_keeps (r : Req) (s : State) (hs : Keeps q s) :
    ∃ s1, execModeRequestService r s = .next s1 ∧ Keeps q s1 := by
  unfold execModeRequestService
  (try dsimp only)
  repeat' (first | with_reducible assumption | refine ⟨_, rfl, ?_⟩ | with_reducible apply ok_keeps | with_reducible apply serveMode_keeps)

theorem execModeRequestBypass_keeps (r : Req) (s : State) (hs : Keeps q s) :
    ∃ s1, execModeRequestBypass r s = .next s1 ∧ Keeps q s1 := by
  unfold execModeRequestBypass
  (try dsimp only)
  repeat' (first | intro _ | with_reducible assumption | refine ⟨_, rfl, ?_⟩ | with_reducible apply keeps_ite | with_reducible apply ok_keeps | with_reducible apply serveMode_keeps)

theorem execPowerGoodFall_keeps (main : Bool) (s : State) (hs : Keeps q s) :
    ∃ s1, execPowerGoodFall main s = .next s1 ∧ Keeps q s1 := by
  unfold execPowerGoodFall
  (try dsimp only)
  repeat' (first | with_reducible assumption | refine ⟨_, rfl, ?_⟩ | with_reducible apply keeps_ite | with_reducible apply ok_keeps | with_reducible apply enterGuard_keeps | (simp only [keeps_mk]; with_reducible apply Keeps.both))

theorem execPowerDownComplete_keeps (d : Nat) (s : State) (hs : Keeps q s) :
    ∃ s1, execPowerDownComplete d s = .next s1 ∧ Keeps q s1 := by
  unfold execPowerDownComplete
  (try dsimp only)
  repeat' (first | with_reducible assumption | refine ⟨_, rfl, ?_⟩ | with_reducible apply keeps_ite | with_reducible apply ok_keeps | with_reducible apply deepSteps_keeps | with_reducible apply State.at_keeps | with_reducible apply reachOff_keeps | split)

theorem readyEffect_keeps (d : Nat) (s : State) (hs : Keeps q s) :
    Keeps q (readyEffect d s) := by
  unfold readyEffect
  (try dsimp only)
  repeat' (first | with_reducible assumption | with_reducible apply keeps_ite | with_reducible apply quadReadyEffect_keeps | with_reducible apply pkReadyEffect_keeps | with_reducible apply sparesReady_keeps | with_reducible apply rearmIdle_keeps | with_reducible apply settleDegraded_keeps)

theorem domainReadyNow_keeps (d : Nat) (late : Bool) (s : State) (hs : Keeps q s) :
    Keeps q (domainReadyNow d late s) := by
  unfold domainReadyNow
  (try dsimp only)
  repeat' (first | intro _ | with_reducible assumption | with_reducible apply keeps_ite | with_reducible apply failPowerUp_keeps | with_reducible apply State.bump_keeps | with_reducible apply endWake_keeps | with_reducible apply State.setDom_keeps | with_reducible apply mrBoot_keeps | with_reducible apply readyEffect_keeps | (simp only [keeps_mk]; with_reducible apply Keeps.both))

theorem execMsAddressMatch_keeps (port : Fin 2) (served : Bool) (s : State) (hs : Keeps q s) :
    ∃ s1, execMsAddressMatch port served s = .next s1 ∧ Keeps q s1 := by
  unfold execMsAddressMatch
  (try dsimp only)
  repeat' (first | intro _ | with_reducible assumption | refine ⟨_, rfl, ?_⟩ | with_reducible apply keeps_ite | with_reducible apply keeps_ite1 | with_reducible apply keeps_ite2 | with_reducible apply ok_keeps | with_reducible apply deepWake_keeps | with_reducible apply sendReply_keeps | contradiction | split)

theorem execRetryBackoff_keeps (d : Nat) (s : State) (hs : Keeps q s) :
    ∃ s1, execRetryBackoff d s = .next s1 ∧ Keeps q s1 := by
  unfold execRetryBackoff
  (try dsimp only)
  repeat' (first | intro _ | with_reducible assumption | refine ⟨_, rfl, ?_⟩ | with_reducible apply keeps_ite | with_reducible apply keeps_ite1 | with_reducible apply keeps_ite2 | with_reducible apply ok_keeps | with_reducible apply State.at_keeps | with_reducible apply recordWake_keeps | with_reducible apply switchOn_keeps | contradiction | split)

theorem execRtcWake_keeps (s : State) (hs : Keeps q s) :
    ∃ s1, execRtcWake s = .next s1 ∧ Keeps q s1 := by
  unfold execRtcWake
  (try dsimp only)
  repeat' (first | intro _ | with_reducible assumption | refine ⟨_, rfl, ?_⟩ | with_reducible apply keeps_ite | with_reducible apply keeps_ite1 | with_reducible apply keeps_ite2 | with_reducible apply ok_keeps | with_reducible apply setRtc_keeps | with_reducible apply deepWake_keeps | contradiction | split)

theorem execModeRequestCeremony_keeps (r : Req) (s : State) (hs : Keeps q s) :
    ∃ s1, execModeRequestCeremony r s = .next s1 ∧ Keeps q s1 := by
  unfold execModeRequestCeremony
  (try dsimp only)
  repeat' (first | intro _ | with_reducible assumption | refine ⟨_, rfl, ?_⟩ | with_reducible apply keeps_ite | with_reducible apply ok_keeps | with_reducible apply serveMode_keeps)

theorem execGpEdge_keeps (pin : Fin 6) (level : Bool) (s : State) (hs : Keeps q s) :
    ∃ s1, execGpEdge pin level s = .next s1 ∧ Keeps q s1 := by
  unfold execGpEdge
  (try dsimp only)
  repeat' (first | intro _ | with_reducible assumption | refine ⟨_, rfl, ?_⟩ | with_reducible apply keeps_ite | with_reducible apply keeps_ite1 | with_reducible apply keeps_ite2 | with_reducible apply ok_keeps | with_reducible apply State.noteSet_keeps | with_reducible apply deepWake_keeps | contradiction | split | (simp only [keeps_mk]; with_reducible apply Keeps.both))

theorem execDeepTimer_keeps (s : State) (hs : Keeps q s) :
    ∃ s1, execDeepTimer s = .next s1 ∧ Keeps q s1 := by
  unfold execDeepTimer
  (try dsimp only)
  repeat' (first | with_reducible assumption | refine ⟨_, rfl, ?_⟩ | with_reducible apply keeps_ite | with_reducible apply ok_keeps | with_reducible apply State.at_keeps | with_reducible apply recordRefusal_keeps | split | (simp only [keeps_mk]; with_reducible apply Keeps.both))

theorem execPwrHoldPk_keeps (v : Bool) (s : State) (hs : Keeps q s) :
    ∃ s1, execPwrHoldPk v s = .next s1 ∧ Keeps q s1 := by
  unfold execPwrHoldPk
  (try dsimp only)
  repeat' (first | with_reducible assumption | refine ⟨_, rfl, ?_⟩ | with_reducible apply keeps_ite | with_reducible apply ok_keeps | with_reducible apply wakeAll_keeps | (simp only [keeps_mk]; with_reducible apply Keeps.both))

theorem execModeRequestUpdate_keeps (r : Req) (s : State) (hs : Keeps q s) :
    ∃ s1, execModeRequestUpdate r s = .next s1 ∧ Keeps q s1 := by
  unfold execModeRequestUpdate
  (try dsimp only)
  repeat' (first | intro _ | with_reducible assumption | refine ⟨_, rfl, ?_⟩ | with_reducible apply keeps_ite | with_reducible apply ok_keeps | with_reducible apply serveMode_keeps)

theorem execPowerUp_keeps (d : Nat) (src : Nat) (idx : Nat) (s : State) (hs : Keeps q s) :
    ∃ s1, execPowerUp d src idx s = .next s1 ∧ Keeps q s1 := by
  unfold execPowerUp
  (try dsimp only)
  repeat' (first | intro _ | with_reducible assumption | refine ⟨_, rfl, ?_⟩ | with_reducible apply keeps_ite | with_reducible apply keeps_ite1 | with_reducible apply keeps_ite2 | with_reducible apply ok_keeps | with_reducible apply wakeDomain_keeps | contradiction | split)

theorem fxDebugArm_keeps (s : State) (_role : Nat) (_v : Bytes) (hs : Keeps q s) :
    Keeps q (fxDebugArm s _role _v).st := by
  unfold fxDebugArm
  (try dsimp only)
  repeat' (first | with_reducible assumption | with_reducible apply ansOK_keeps | (simp only [keeps_mk]; with_reducible apply Keeps.both))

theorem execReadyTimeout_keeps (d : Nat) (s : State) (hs : Keeps q s) :
    ∃ s1, execReadyTimeout d s = .next s1 ∧ Keeps q s1 := by
  unfold execReadyTimeout
  (try dsimp only)
  repeat' (first | intro _ | with_reducible assumption | refine ⟨_, rfl, ?_⟩ | with_reducible apply keeps_ite | with_reducible apply keeps_ite1 | with_reducible apply keeps_ite2 | with_reducible apply ok_keeps | with_reducible apply failPowerUp_keeps | with_reducible apply State.at_keeps | contradiction | split)

theorem execPwrHoldQuads_keeps (v : Bool) (s : State) (hs : Keeps q s) :
    ∃ s1, execPwrHoldQuads v s = .next s1 ∧ Keeps q s1 := by
  unfold execPwrHoldQuads
  (try dsimp only)
  repeat' (first | with_reducible assumption | refine ⟨_, rfl, ?_⟩ | with_reducible apply keeps_ite | with_reducible apply ok_keeps | with_reducible apply wakeAll_keeps | (simp only [keeps_mk]; with_reducible apply Keeps.both))

theorem fxRetire_keeps (s : State) (role : Nat) (v : Bytes) (hs : Keeps q s) :
    Keeps q (fxRetire s role v).st := by
  unfold fxRetire
  (try dsimp only)
  repeat' (first | intro _ | with_reducible assumption | with_reducible apply startOp_keeps | with_reducible apply systemResetNow_keeps | with_reducible apply burnLcs_keeps | with_reducible apply finishSweeps_keeps | with_reducible apply zeroiseErase_keeps)

theorem execRetire_keeps (r : Req) (s : State) (hs : Keeps q s) :
    ∃ s1, execRetire r s = .next s1 ∧ Keeps q s1 := by
  unfold execRetire
  (try dsimp only)
  repeat' (first | with_reducible assumption | refine ⟨_, rfl, ?_⟩ | with_reducible apply ok_keeps | with_reducible apply serveWrite_keeps | with_reducible apply fxRetire_keeps)

theorem execDebugUnlockArm_keeps (r : Req) (s : State) (hs : Keeps q s) :
    ∃ s1, execDebugUnlockArm r s = .next s1 ∧ Keeps q s1 := by
  unfold execDebugUnlockArm
  (try dsimp only)
  repeat' (first | with_reducible assumption | refine ⟨_, rfl, ?_⟩ | with_reducible apply ok_keeps | with_reducible apply serveWrite_keeps | with_reducible apply fxDebugArm_keeps)

theorem execDomainIdleTimeout_keeps (d : Nat) (s : State) (hs : Keeps q s) :
    ∃ s1, execDomainIdleTimeout d s = .next s1 ∧ Keeps q s1 := by
  unfold execDomainIdleTimeout
  (try dsimp only)
  repeat' (first | with_reducible assumption | refine ⟨_, rfl, ?_⟩ | with_reducible apply keeps_ite | with_reducible apply ok_keeps | with_reducible apply State.at_keeps | with_reducible apply rearmIdle_keeps | with_reducible apply recordRefusal_keeps | with_reducible apply State.setDom_keeps | split)

theorem execModeRequestReturn_keeps (r : Req) (s : State) (hs : Keeps q s) :
    ∃ s1, execModeRequestReturn r s = .next s1 ∧ Keeps q s1 := by
  unfold execModeRequestReturn
  (try dsimp only)
  repeat' (first | intro _ | with_reducible assumption | refine ⟨_, rfl, ?_⟩ | with_reducible apply keeps_ite | with_reducible apply ok_keeps | with_reducible apply serveMode_keeps)

theorem execPwrHoldDeep_keeps (v : Bool) (s : State) (hs : Keeps q s) :
    ∃ s1, execPwrHoldDeep v s = .next s1 ∧ Keeps q s1 := by
  unfold execPwrHoldDeep
  (try dsimp only)
  repeat' (first | with_reducible assumption | refine ⟨_, rfl, ?_⟩ | with_reducible apply ok_keeps | (simp only [keeps_mk]; with_reducible apply Keeps.both))

theorem execDebugArmExpiry_keeps (s : State) (hs : Keeps q s) :
    ∃ s1, execDebugArmExpiry s = .next s1 ∧ Keeps q s1 := by
  unfold execDebugArmExpiry
  (try dsimp only)
  repeat' (first | with_reducible assumption | refine ⟨_, rfl, ?_⟩ | with_reducible apply ok_keeps | with_reducible apply State.at_keeps | split | (simp only [keeps_mk]; with_reducible apply Keeps.both))

theorem wakeFrameOp_keeps (p : Nat) (scope : Nat) (s : State) (hs : Keeps q s) :
    Keeps q (wakeFrameOp p scope s) := by
  unfold wakeFrameOp
  (try dsimp only)
  repeat' (first | intro _ | with_reducible assumption | with_reducible apply keeps_ite | with_reducible apply State.pstat_keeps | with_reducible apply deepWake_keeps | with_reducible apply wakeAll_keeps)

theorem txStart_keeps (p : Nat) (f : TxFrame) (t : Nat) (s : State) (hs : Keeps q s) :
    Keeps q (txStart p f t s) := by
  unfold txStart
  (try dsimp only)
  repeat' (first | with_reducible assumption | with_reducible apply State.setSrc_keeps)

theorem txFinish_keeps (p : Nat) (s : State) (hs : Keeps q s) :
    Keeps q (txFinish p s) := by
  unfold txFinish
  (try dsimp only)
  repeat' (first | with_reducible assumption | with_reducible apply keeps_ite | with_reducible apply State.pstat_keeps | with_reducible apply State.emit_keeps | with_reducible apply State.setSrc_keeps | with_reducible apply portOwnReset_keeps | contradiction | split)

theorem bypassOp_keeps (p : Nat) (f : Frame) (s : State) (hs : Keeps q s) :
    Keeps q (bypassOp p f s) := by
  unfold bypassOp
  (try dsimp only)
  repeat' (first | intro _ | with_reducible assumption | with_reducible apply keeps_ite | with_reducible apply State.pstat_keeps | with_reducible apply State.setSrc_keeps | with_reducible apply txStart_keeps | with_reducible apply txFinish_keeps)

theorem directReceive_keeps (p : Nat) (f : Frame) (s : State) (hs : Keeps q s) :
    Keeps q (directReceive p f s) := by
  unfold directReceive
  (try dsimp only)
  repeat' (first | with_reducible assumption | with_reducible apply keeps_ite | with_reducible apply State.pstat_keeps | with_reducible apply releaseMsg_keeps)

theorem learnFrame_keeps (p : Nat) (f : Frame) (s : State) (hs : Keeps q s) :
    Keeps q (learnFrame p f s) := by
  unfold learnFrame
  (try dsimp only)
  repeat' (first | with_reducible assumption | with_reducible apply learnNbr_keeps)

theorem arpReceive_keeps (p : Nat) (f : Frame) (s : State) (hs : Keeps q s) :
    Keeps q (arpReceive p f s) := by
  unfold arpReceive
  (try dsimp only)
  repeat' (first | with_reducible assumption | with_reducible apply keeps_ite | with_reducible apply learnFrame_keeps | with_reducible apply netFrame_keeps | contradiction | split)

theorem icmpReceive4_keeps (p : Nat) (f : Frame) (hdr : Bytes) (pl : Bytes) (s : State) (hs : Keeps q s) :
    Keeps q (icmpReceive4 p f hdr pl s) := by
  unfold icmpReceive4
  (try dsimp only)
  repeat' (first | with_reducible assumption | with_reducible apply keeps_ite | with_reducible apply netFrame_keeps | with_reducible apply State.pstat_keeps)

theorem ip4Receive_keeps (p : Nat) (f : Frame) (s : State) (hs : Keeps q s) :
    Keeps q (ip4Receive p f s) := by
  unfold ip4Receive
  (try dsimp only)
  repeat' (first | with_reducible assumption | with_reducible apply keeps_ite | with_reducible apply State.pstat_keeps | with_reducible apply learnFrame_keeps | with_reducible apply icmpReceive4_keeps | with_reducible apply tcpSegment_keeps | contradiction | split)

theorem icmpReceive6_keeps (p : Nat) (f : Frame) (src : Bytes) (pl : Bytes) (s : State) (hs : Keeps q s) :
    Keeps q (icmpReceive6 p f src pl s) := by
  unfold icmpReceive6
  (try dsimp only)
  repeat' (first | with_reducible assumption | with_reducible apply keeps_ite | with_reducible apply netFrame_keeps | with_reducible apply State.pstat_keeps)

theorem ip6Receive_keeps (p : Nat) (f : Frame) (s : State) (hs : Keeps q s) :
    Keeps q (ip6Receive p f s) := by
  unfold ip6Receive
  (try dsimp only)
  repeat' (first | with_reducible assumption | with_reducible apply keeps_ite | with_reducible apply State.pstat_keeps | with_reducible apply learnFrame_keeps | with_reducible apply icmpReceive6_keeps | with_reducible apply tcpSegment_keeps | contradiction | split)

theorem execFrameReceive_keeps (p : Fin 32) (f : Frame) (s : State) (hs : Keeps q s) : ∃ s1, execFrameReceive p f s = .next s1 ∧ Keeps q s1 := by
  have hp (k : Nat) : Keeps q (s.pstat p.val k) := State.pstat_keeps _ _ _ hs
  unfold execFrameReceive
  dsimp only
  refine next_ite (next_ok hs) (next_ite ?_ ?_)
  · split
    · exact next_ite (next_ok (wakeFrameOp_keeps _ _ _ hs)) (next_ok hs)
    · exact next_ok hs
  · have h1 := hp 1
    generalize s.pstat p.val 1 = u at h1 ⊢
    have hu (k : Nat) : Keeps q (u.pstat p.val k) := State.pstat_keeps _ _ _ h1
    refine next_ite (next_ok (bypassOp_keeps _ _ _ h1)) (next_ite (next_ok (hu _)) (next_ite (next_ok (hu _)) (next_ite (next_ok h1)
      (next_ite (next_ok (hu _)) (next_ite (next_ok (hu _)) ?_)))))
    split
    · exact next_ok (wakeFrameOp_keeps _ _ _ h1)
    · exact next_ite (next_ok (directReceive_keeps _ _ _ h1)) (next_ite (next_ok (hu _)) (next_ite (next_ok (arpReceive_keeps _ _ _ h1))
        (next_ite (next_ok (ip4Receive_keeps _ _ _ h1)) (next_ite (next_ok (ip6Receive_keeps _ _ _ h1)) (next_ok (hu _))))))

theorem discardTx_keeps (p : Nat) (s : State) (f : TxFrame) (hs : Keeps q s) :
    Keeps q (discardTx p s f) := by
  unfold discardTx
  (try dsimp only)
  repeat' (first | intro _ | with_reducible assumption | with_reducible apply keeps_ite | with_reducible apply State.setSrc_keeps | with_reducible apply State.pstat_keeps | with_reducible apply audSelf_keeps | with_reducible apply sentOne_keeps | contradiction | split)

theorem portLost_keeps (p : Nat) (s : State) (hs : Keeps q s) :
    Keeps q (portLost p s) := by
  unfold portLost
  (try dsimp only)
  repeat' (first | intro _ | with_reducible assumption | with_reducible apply discardTx_keeps | with_reducible apply tcpForget_keeps | with_reducible apply State.setTcp_keeps | with_reducible apply State.setSrc_keeps | contradiction | split | with_reducible apply keeps_foldl)

theorem execPortLinkUp_keeps (p : Fin 32) (s : State) (hs : Keeps q s) :
    ∃ s1, execPortLinkUp p s = .next s1 ∧ Keeps q s1 := by
  unfold execPortLinkUp
  (try dsimp only)
  repeat' (first | intro _ | with_reducible assumption | refine ⟨_, rfl, ?_⟩ | with_reducible apply keeps_ite | with_reducible apply keeps_ite1 | with_reducible apply keeps_ite2 | with_reducible apply ok_keeps | with_reducible apply raiseMsix_keeps | with_reducible apply State.setSrc_keeps | with_reducible apply deepWake_keeps | with_reducible apply tcpOpen_keeps | contradiction | split)

theorem execPortLinkDown_keeps (p : Fin 32) (s : State) (hs : Keeps q s) :
    ∃ s1, execPortLinkDown p s = .next s1 ∧ Keeps q s1 := by
  unfold execPortLinkDown
  (try dsimp only)
  repeat' (first | intro _ | with_reducible assumption | refine ⟨_, rfl, ?_⟩ | with_reducible apply keeps_ite | with_reducible apply keeps_ite1 | with_reducible apply keeps_ite2 | with_reducible apply ok_keeps | with_reducible apply portLost_keeps | with_reducible apply raiseMsix_keeps | with_reducible apply State.setSrc_keeps | contradiction | split)

theorem execBypassForward_keeps (p : Fin 32) (f : Frame) (s : State) (hs : Keeps q s) :
    ∃ s1, execBypassForward p f s = .next s1 ∧ Keeps q s1 := by
  unfold execBypassForward
  (try dsimp only)
  repeat' (first | intro _ | with_reducible assumption | refine ⟨_, rfl, ?_⟩ | with_reducible apply keeps_ite | with_reducible apply keeps_ite1 | with_reducible apply keeps_ite2 | with_reducible apply ok_keeps | with_reducible apply bypassOp_keeps | with_reducible apply State.pstat_keeps | contradiction | split)

theorem execWakeFrame_keeps (p : Fin 32) (f : Frame) (s : State) (hs : Keeps q s) :
    ∃ s1, execWakeFrame p f s = .next s1 ∧ Keeps q s1 := by
  unfold execWakeFrame
  (try dsimp only)
  repeat' (first | with_reducible assumption | refine ⟨_, rfl, ?_⟩ | with_reducible apply keeps_ite | with_reducible apply ok_keeps | with_reducible apply wakeFrameOp_keeps | split)

theorem securedForward_keeps (s : State) (hs : Keeps q s) :
    Keeps q (securedForward s) := by
  unfold securedForward
  (try dsimp only)
  repeat' (first | intro _ | with_reducible assumption | with_reducible apply keeps_ite | with_reducible apply logEvent_keeps | with_reducible apply burnFuse_keeps | with_reducible apply keeps_foldl)

theorem lcsForward_keeps (l : Lcs) (marginal : List Nat) (s : State) (hs : Keeps q s) :
    Keeps q (lcsForward l marginal s) := by
  unfold lcsForward
  (try dsimp only)
  repeat' (first | intro _ | with_reducible assumption | with_reducible apply keeps_ite | with_reducible apply logEvent_keeps | with_reducible apply burnFuse_keeps | with_reducible apply keeps_foldl)

theorem applyOptions_keeps (ws : List Nat) (s : State) (hs : Keeps q s) :
    Keeps q (applyOptions ws s) := by
  unfold applyOptions
  (try dsimp only)
  repeat' (first | intro _ | with_reducible assumption | with_reducible apply State.setForce_keeps | with_reducible apply State.setEnt_keeps | with_reducible apply keeps_foldl)

theorem loadOptions_keeps (marginal : List Nat) (s : State) (hs : Keeps q s) : Keeps q (loadOptions marginal s) := by
  unfold loadOptions
  extract_lets t0 s1 fw pw words s2 s3 _ s4 mcopy _ s5 s6 _ s7 r0 p0 s8 r1
  have h1 : Keeps q s1 := ⟨hs.1, hs.2, hs.3⟩
  have h2 : Keeps q s2 := keeps_foldl (fun s a h => keeps_ite (logEventAt_keeps _ _ _ _ _ _ h) (keeps_ite (logEvent_keeps _ _ _ _ _ h) h)) h1
  have h3 : Keeps q s3 := keeps_ite h2 (logEventAt_keeps _ _ _ _ _ _ h2)
  have h4 : Keeps q s4 := ⟨h3.1, h3.2, h3.3⟩
  have h5 : Keeps q s5 := ⟨h4.1, h4.2, h4.3⟩
  have h6 : Keeps q s6 := applyOptions_keeps _ _ h5
  have h7 : Keeps q s7 := ⟨h6.1, h6.2, h6.3⟩
  clear_value s7
  split
  · exact ⟨h7.1, h7.2, h7.3⟩
  · rename_i l _
    have h8 := securedForward_keeps _ (lcsForward_keeps l marginal { s7 with power := { s7.power with lcs := l } } ⟨h7.1, h7.2, h7.3⟩)
    generalize securedForward _ = t at h8 ⊢
    exact ⟨h8.1, h8.2, h8.3⟩

theorem setCfgCommit_keeps (c : Nat) (s : State) (hs : Keeps q s) :
    Keeps q (setCfgCommit c s).2 := by
  unfold setCfgCommit
  (try dsimp only)
  repeat' (first | with_reducible assumption | with_reducible apply programPage_keeps)

theorem commitRun_keeps (k : Nat) (s : State) (hs : Keeps q s) :
    Keeps q (commitRun k s) := by
  unfold commitRun
  (try dsimp only)
  repeat' (first | with_reducible assumption | with_reducible apply keeps_ite | with_reducible apply failSlot_keeps | with_reducible apply writePages_keeps | with_reducible apply programPage_keeps | with_reducible apply setCfgCommit_keeps | with_reducible apply doneSlot_keeps | with_reducible apply mrMeasure_keeps)

theorem settleRecord_keeps (s : State) (hs : Keeps q s) :
    Keeps q (settleRecord s) := by
  unfold settleRecord
  (try dsimp only)
  repeat' (first | with_reducible assumption | with_reducible apply keeps_ite | with_reducible apply logEvent_keeps | with_reducible apply setCfgCommit_keeps | contradiction | split)

theorem loadStored_keeps (s : State) (hs : Keeps q s) : Keeps q (loadStored s) := by
  have h0 := settleRecord_keeps _ (noteDamaged_keeps 4 (cfgPage 0) (cfgPage 1) (cfgRead s 0).isSome (cfgRead s 1).isSome s hs)
  unfold loadStored
  generalize settleRecord _ = t at h0 ⊢
  extract_lets
  split
  · exact ⟨h0.1, h0.2, h0.3⟩
  · split
    · exact mrMeasure_keeps _ _ _ _ _ ⟨h0.1, h0.2, h0.3⟩
    · exact ⟨h0.1, h0.2, h0.3⟩

theorem execComputeDieRestore_keeps (die : Fin 2) (s : State) (hs : Keeps q s) :
    ∃ s1, execComputeDieRestore die s = .next s1 ∧ Keeps q s1 := by
  unfold execComputeDieRestore
  (try dsimp only)
  repeat' (first | intro _ | with_reducible assumption | refine ⟨_, rfl, ?_⟩ | with_reducible apply keeps_ite | with_reducible apply keeps_ite1 | with_reducible apply keeps_ite2 | with_reducible apply ok_keeps | with_reducible apply restoreCd_keeps | contradiction | split | (simp only [keeps_mk]; with_reducible apply Keeps.both))

theorem tapSelect_keeps (code : Nat) (open_ : Bool) (dr : Bytes) (s : State) (hs : Keeps q s) :
    Keeps q (tapSelect code open_ dr s) := by
  unfold tapSelect
  (try dsimp only)
  repeat' (first | with_reducible assumption | with_reducible apply keeps_ite | (simp only [keeps_mk]; with_reducible apply Keeps.both))

theorem execTapSysreset_keeps (s : State) (hs : Keeps q s) :
    ∃ s1, execTapSysreset s = .next s1 ∧ Keeps q s1 := by
  unfold execTapSysreset
  (try dsimp only)
  repeat' (first | intro _ | with_reducible assumption | refine ⟨_, rfl, ?_⟩ | with_reducible apply keeps_ite | with_reducible apply keeps_ite1 | with_reducible apply keeps_ite2 | with_reducible apply ok_keeps | with_reducible apply systemReset_keeps | with_reducible apply tapSelect_keeps | contradiction | split)

theorem fxCoreReset_keeps (s : State) (role : Nat) (v : Bytes) (hs : Keeps q s) :
    Keeps q (fxCoreReset s role v).st := by
  unfold fxCoreReset
  (try dsimp only)
  repeat' (first | intro _ | with_reducible assumption | with_reducible apply startOp_keeps | with_reducible apply coreReset_keeps | with_reducible apply doneSlot_keeps)

theorem execCoreResetRequest_keeps (r : Req) (s : State) (hs : Keeps q s) :
    ∃ s1, execCoreResetRequest r s = .next s1 ∧ Keeps q s1 := by
  unfold execCoreResetRequest
  (try dsimp only)
  repeat' (first | with_reducible assumption | refine ⟨_, rfl, ?_⟩ | with_reducible apply ok_keeps | with_reducible apply serveWrite_keeps | with_reducible apply fxCoreReset_keeps)

theorem execSysrstNRise_keeps (s : State) (hs : Keeps q s) :
    ∃ s1, execSysrstNRise s = .next s1 ∧ Keeps q s1 := by
  unfold execSysrstNRise
  (try dsimp only)
  repeat' (first | intro _ | with_reducible assumption | refine ⟨_, rfl, ?_⟩ | with_reducible apply keeps_ite | with_reducible apply keeps_ite1 | with_reducible apply keeps_ite2 | with_reducible apply ok_keeps | contradiction | split | (simp only [keeps_mk]; with_reducible apply Keeps.both))

theorem execPorstNAssert_keeps (s : State) (hs : Keeps q s) :
    ∃ s1, execPorstNAssert s = .next s1 ∧ Keeps q s1 := by
  unfold execPorstNAssert
  (try dsimp only)
  repeat' (first | intro _ | with_reducible assumption | refine ⟨_, rfl, ?_⟩ | with_reducible apply keeps_ite | with_reducible apply keeps_ite1 | with_reducible apply keeps_ite2 | with_reducible apply ok_keeps | with_reducible apply powerOnReset_keeps | contradiction | split | (simp only [keeps_mk]; with_reducible apply Keeps.both))

theorem execTapChal_keeps (s : State) (hs : Keeps q s) :
    ∃ s1, execTapChal s = .next s1 ∧ Keeps q s1 := by
  unfold execTapChal
  (try dsimp only)
  repeat' (first | intro _ | with_reducible assumption | refine ⟨_, rfl, ?_⟩ | with_reducible apply keeps_ite | with_reducible apply keeps_ite1 | with_reducible apply keeps_ite2 | with_reducible apply ok_keeps | with_reducible apply tapSelect_keeps | with_reducible apply State.draw_keeps | contradiction | split | (simp only [keeps_mk]; with_reducible apply Keeps.both))

theorem execWatchdogEnable_keeps (s : State) (hs : Keeps q s) :
    ∃ s1, execWatchdogEnable s = .next s1 ∧ Keeps q s1 := by
  unfold execWatchdogEnable
  (try dsimp only)
  repeat' (first | intro _ | with_reducible assumption | refine ⟨_, rfl, ?_⟩ | with_reducible apply keeps_ite | with_reducible apply keeps_ite1 | with_reducible apply keeps_ite2 | with_reducible apply ok_keeps | contradiction | split | (simp only [keeps_mk]; with_reducible apply Keeps.both))

theorem execTapSamplePreload_keeps (v : Bytes) (s : State) (hs : Keeps q s) :
    ∃ s1, execTapSamplePreload v s = .next s1 ∧ Keeps q s1 := by
  unfold execTapSamplePreload
  (try dsimp only)
  repeat' (first | with_reducible assumption | refine ⟨_, rfl, ?_⟩ | with_reducible apply tapSelect_keeps | with_reducible apply ok_keeps | (simp only [keeps_mk]; with_reducible apply Keeps.both))

theorem execPowerOn_keeps (s : State) (hs : Keeps q s) :
    ∃ s1, execPowerOn s = .next s1 ∧ Keeps q s1 := by
  unfold execPowerOn
  (try dsimp only)
  repeat' (first | with_reducible assumption | refine ⟨_, rfl, ?_⟩ | with_reducible apply keeps_ite | with_reducible apply powerOnReset_keeps | with_reducible apply ok_keeps | (simp only [keeps_mk]; with_reducible apply Keeps.both))

theorem execTapExtest_keeps (v : Bytes) (s : State) (hs : Keeps q s) :
    ∃ s1, execTapExtest v s = .next s1 ∧ Keeps q s1 := by
  unfold execTapExtest
  (try dsimp only)
  repeat' (first | with_reducible assumption | refine ⟨_, rfl, ?_⟩ | with_reducible apply keeps_ite | with_reducible apply tapSelect_keeps | with_reducible apply ok_keeps | (simp only [keeps_mk]; with_reducible apply Keeps.both))

theorem execRstReqCoreKd_keeps (key : BitVec 16) (s : State) (hs : Keeps q s) :
    ∃ s1, execRstReqCoreKd key s = .next s1 ∧ Keeps q s1 := by
  unfold execRstReqCoreKd
  (try dsimp only)
  repeat' (first | intro _ | with_reducible assumption | refine ⟨_, rfl, ?_⟩ | with_reducible apply keeps_ite | with_reducible apply keeps_ite1 | with_reducible apply keeps_ite2 | with_reducible apply ok_keeps | with_reducible apply coreReset_keeps | contradiction | split)

theorem quadBlockReset_keeps (z0 : Nat) (s : State) (hs : Keeps q s) :
    Keeps q (quadBlockReset z0 s) := by
  unfold quadBlockReset
  (try dsimp only)
  repeat' (first | with_reducible assumption | with_reducible apply keeps_ite | with_reducible apply emptyCache_keeps | with_reducible apply State.bump_keeps | with_reducible apply failPowerUp_keeps | with_reducible apply State.setDom_keeps | with_reducible apply quadReadyEffect_keeps | (simp only [keeps_mk]; with_reducible apply Keeps.both))

theorem execRstReqCoreCd1_keeps (key : BitVec 16) (s : State) (hs : Keeps q s) :
    ∃ s1, execRstReqCoreCd1 key s = .next s1 ∧ Keeps q s1 := by
  unfold execRstReqCoreCd1
  (try dsimp only)
  repeat' (first | intro _ | with_reducible assumption | refine ⟨_, rfl, ?_⟩ | with_reducible apply keeps_ite | with_reducible apply keeps_ite1 | with_reducible apply keeps_ite2 | with_reducible apply ok_keeps | with_reducible apply coreReset_keeps | contradiction | split)

theorem execTapIdcode_keeps (s : State) (hs : Keeps q s) :
    ∃ s1, execTapIdcode s = .next s1 ∧ Keeps q s1 := by
  unfold execTapIdcode
  (try dsimp only)
  repeat' (first | with_reducible assumption | refine ⟨_, rfl, ?_⟩ | with_reducible apply ok_keeps | with_reducible apply tapSelect_keeps)

theorem blockReset_keeps (kind : Nat) (idx : Nat) (idle : State → Bool) (act : State → State) (s : State) (hact : ∀ (x0 : State), Keeps q x0 → Keeps q (act x0)) (hs : Keeps q s) :
    Keeps q (blockReset kind idx idle act s).2 := by
  unfold blockReset
  (try dsimp only)
  repeat' (first | with_reducible assumption | with_reducible apply keeps_ite | with_reducible apply keeps_ite2 | with_reducible apply State.bump_keeps | with_reducible apply hact | (simp only [keeps_mk]; with_reducible apply Keeps.both))

theorem runBlockReset_keeps (via : Option Req) (kind : Nat) (idx : Nat) (idle : State → Bool) (act : State → State) (s : State) (hact : ∀ (x0 : State), Keeps q x0 → Keeps q (act x0)) (hs : Keeps q s) :
    Keeps q (runBlockReset via kind idx idle act s) := by
  unfold runBlockReset
  (try dsimp only)
  repeat' (first | intro _ | with_reducible assumption | with_reducible apply keeps_ite | with_reducible apply blockReset_keeps | with_reducible apply serveWrite_keeps | with_reducible apply startOp_keeps | with_reducible apply doneSlot_keeps | with_reducible apply failSlot_keeps | with_reducible apply hact | contradiction | split | (simp only [keeps_mk]; with_reducible apply Keeps.both))

theorem execTapBypass_keeps (s : State) (hs : Keeps q s) :
    ∃ s1, execTapBypass s = .next s1 ∧ Keeps q s1 := by
  unfold execTapBypass
  (try dsimp only)
  repeat' (first | with_reducible assumption | refine ⟨_, rfl, ?_⟩ | with_reducible apply ok_keeps | with_reducible apply tapSelect_keeps)

theorem execRstReqSys_keeps (key : BitVec 16) (s : State) (hs : Keeps q s) :
    ∃ s1, execRstReqSys key s = .next s1 ∧ Keeps q s1 := by
  unfold execRstReqSys
  (try dsimp only)
  repeat' (first | intro _ | with_reducible assumption | refine ⟨_, rfl, ?_⟩ | with_reducible apply keeps_ite | with_reducible apply keeps_ite1 | with_reducible apply keeps_ite2 | with_reducible apply ok_keeps | with_reducible apply systemReset_keeps | contradiction | split)

theorem execRstReqCoreCd0_keeps (key : BitVec 16) (s : State) (hs : Keeps q s) :
    ∃ s1, execRstReqCoreCd0 key s = .next s1 ∧ Keeps q s1 := by
  unfold execRstReqCoreCd0
  (try dsimp only)
  repeat' (first | intro _ | with_reducible assumption | refine ⟨_, rfl, ?_⟩ | with_reducible apply keeps_ite | with_reducible apply keeps_ite1 | with_reducible apply keeps_ite2 | with_reducible apply ok_keeps | with_reducible apply coreReset_keeps | contradiction | split)

theorem setPerst_keeps (high : Bool) (s : State) (hs : Keeps q s) :
    Keeps q (setPerst high s) := ⟨hs.1, hs.2, hs.3⟩

theorem eraseAtOptions_keeps (c : Nat) (s : State) (hs : Keeps q s) :
    Keeps q (eraseAtOptions c s) := by
  unfold eraseAtOptions
  (try dsimp only)
  repeat' (first | with_reducible assumption | with_reducible apply tamperErase_keeps | (simp only [keeps_mk]; with_reducible apply Keeps.both))

theorem alarmHold_keeps (c : Nat) (s : State) (hs : Keeps q s) :
    Keeps q (alarmHold c s) := by
  unfold alarmHold
  (try dsimp only)
  repeat' (first | with_reducible assumption | with_reducible apply logEvent_keeps | with_reducible apply tamperErase_keeps | with_reducible apply State.setMode_keeps | (simp only [keeps_mk]; with_reducible apply Keeps.both))

theorem execOptionLoad_keeps (marginal : List Nat) (s : State) (hs : Keeps q s) :
    ∃ s1, execOptionLoad marginal s = .next s1 ∧ Keeps q s1 := by
  unfold execOptionLoad
  (try dsimp only)
  repeat' (first | intro _ | with_reducible assumption | refine ⟨_, rfl, ?_⟩ | with_reducible apply keeps_ite | with_reducible apply ok_keeps | with_reducible apply loadOptions_keeps | with_reducible apply eraseAtOptions_keeps | with_reducible apply alarmHold_keeps | split)

theorem execPostSelftest_keeps (lanes : BitVec 68) (pk : BitVec 24) (clusters : BitVec 128) (s : State) (hs : Keeps q s) :
    ∃ s1, execPostSelftest lanes pk clusters s = .next s1 ∧ Keeps q s1 := by
  unfold execPostSelftest
  (try dsimp only)
  repeat' (first | intro _ | with_reducible assumption | refine ⟨_, rfl, ?_⟩ | with_reducible apply keeps_ite | with_reducible apply keeps_ite1 | with_reducible apply keeps_ite2 | with_reducible apply ok_keeps | with_reducible apply failSpareUnit_keeps | with_reducible apply fenceLaneUnit_keeps | with_reducible apply fencePkUnit_keeps | with_reducible apply failCluster_keeps | with_reducible apply portsConfigure_keeps | with_reducible apply loadStored_keeps | with_reducible apply formEpoch1_keeps | contradiction | split | (simp only [keeps_mk]; with_reducible apply Keeps.both) | with_reducible apply keeps_foldl)

theorem endRelease_keeps (s : State) (hs : Keeps q s) :
    Keeps q (endRelease s) := by
  unfold endRelease
  (try dsimp only)
  repeat' (first | with_reducible assumption | with_reducible apply keeps_ite | with_reducible apply quietDomains_keeps | with_reducible apply State.setMode_keeps | (simp only [keeps_mk]; with_reducible apply Keeps.both))

theorem execDomainReleaseNext_keeps (s : State) (hs : Keeps q s) :
    ∃ s1, execDomainReleaseNext s = .next s1 ∧ Keeps q s1 := by
  unfold execDomainReleaseNext
  (try dsimp only)
  repeat' (first | with_reducible assumption | refine ⟨_, rfl, ?_⟩ | with_reducible apply keeps_ite | with_reducible apply ok_keeps | with_reducible apply endRelease_keeps | with_reducible apply State.at_keeps | with_reducible apply State.setDom_keeps | split)

theorem execTapUnlock_keeps (sig : Bytes) (s : State) (hs : Keeps q s) :
    ∃ s1, execTapUnlock sig s = .next s1 ∧ Keeps q s1 := by
  unfold execTapUnlock
  (try dsimp only)
  repeat' (first | with_reducible assumption | refine ⟨_, rfl, ?_⟩ | with_reducible apply keeps_ite | with_reducible apply ok_keeps | with_reducible apply tapSelect_keeps | with_reducible apply State.bump_keeps | with_reducible apply systemReset_keeps | with_reducible apply finishSweeps_keeps | with_reducible apply debugErase_keeps | with_reducible apply mrMeasure_keeps | split | (simp only [keeps_mk]; with_reducible apply Keeps.both))

theorem fxSystemReset_keeps (s : State) (role : Nat) (v : Bytes) (hs : Keeps q s) :
    Keeps q (fxSystemReset s role v).st := by
  unfold fxSystemReset
  (try dsimp only)
  repeat' (first | intro _ | with_reducible assumption | with_reducible apply startOp_keeps | with_reducible apply systemReset_keeps)

theorem execSystemResetRequest_keeps (r : Req) (s : State) (hs : Keeps q s) :
    ∃ s1, execSystemResetRequest r s = .next s1 ∧ Keeps q s1 := by
  unfold execSystemResetRequest
  (try dsimp only)
  repeat' (first | with_reducible assumption | refine ⟨_, rfl, ?_⟩ | with_reducible apply ok_keeps | with_reducible apply serveWrite_keeps | with_reducible apply fxSystemReset_keeps)

theorem execWatchdogKick_keeps (v : BitVec 16) (s : State) (hs : Keeps q s) :
    ∃ s1, execWatchdogKick v s = .next s1 ∧ Keeps q s1 := by
  unfold execWatchdogKick
  (try dsimp only)
  repeat' (first | intro _ | with_reducible assumption | refine ⟨_, rfl, ?_⟩ | with_reducible apply keeps_ite | with_reducible apply keeps_ite1 | with_reducible apply keeps_ite2 | with_reducible apply ok_keeps | contradiction | split | (simp only [keeps_mk]; with_reducible apply Keeps.both))

theorem execWatchdogExpiry_keeps (s : State) (hs : Keeps q s) :
    ∃ s1, execWatchdogExpiry s = .next s1 ∧ Keeps q s1 := by
  unfold execWatchdogExpiry
  (try dsimp only)
  repeat' (first | intro _ | with_reducible assumption | refine ⟨_, rfl, ?_⟩ | with_reducible apply keeps_ite | with_reducible apply keeps_ite1 | with_reducible apply keeps_ite2 | with_reducible apply ok_keeps | with_reducible apply coreReset_keeps | with_reducible apply State.bump_keeps | with_reducible apply State.at_keeps | contradiction | split)

theorem execTrngTestFail_keeps (s : State) (hs : Keeps q s) :
    ∃ s1, execTrngTestFail s = .next s1 ∧ Keeps q s1 := by
  unfold execTrngTestFail
  (try dsimp only)
  repeat' (first | with_reducible assumption | refine ⟨_, rfl, ?_⟩ | with_reducible apply keeps_ite | with_reducible apply ok_keeps | split | (simp only [keeps_mk]; with_reducible apply Keeps.both))

theorem execBlockResetPk_keeps (via : Option Req) (e : Fin 24) (s : State) (hs : Keeps q s) :
    ∃ s1, execBlockResetPk via e s = .next s1 ∧ Keeps q s1 := by
  unfold execBlockResetPk
  (try dsimp only)
  repeat' (first | intro _ | with_reducible assumption | refine ⟨_, rfl, ?_⟩ | with_reducible apply ok_keeps | with_reducible apply runBlockReset_keeps | with_reducible apply blockResetPk_keeps)

theorem execBlockResetQuad_keeps (via : Option Req) (z1 : Fin 16) (s : State) (hs : Keeps q s) :
    ∃ s1, execBlockResetQuad via z1 s = .next s1 ∧ Keeps q s1 := by
  unfold execBlockResetQuad
  (try dsimp only)
  repeat' (first | intro _ | with_reducible assumption | refine ⟨_, rfl, ?_⟩ | with_reducible apply ok_keeps | with_reducible apply runBlockReset_keeps | with_reducible apply quadBlockReset_keeps)

theorem execSysrstPin_keeps (s : State) (hs : Keeps q s) :
    ∃ s1, execSysrstPin s = .next s1 ∧ Keeps q s1 := by
  unfold execSysrstPin
  (try dsimp only)
  repeat' (first | intro _ | with_reducible assumption | refine ⟨_, rfl, ?_⟩ | with_reducible apply keeps_ite | with_reducible apply keeps_ite1 | with_reducible apply keeps_ite2 | with_reducible apply ok_keeps | with_reducible apply systemReset_keeps | contradiction | split | (simp only [keeps_mk]; with_reducible apply Keeps.both))

theorem execBlockResetPort_keeps (via : Option Req) (p : Fin 32) (s : State) (hs : Keeps q s) :
    ∃ s1, execBlockResetPort via p s = .next s1 ∧ Keeps q s1 := by
  unfold execBlockResetPort
  (try dsimp only)
  repeat' (first | intro _ | with_reducible assumption | refine ⟨_, rfl, ?_⟩ | with_reducible apply ok_keeps | with_reducible apply runBlockReset_keeps | with_reducible apply blockResetPort_keeps)

theorem execHostRequestArrival_keeps (z0 : Fin 4) (body : Bytes) (s : State) (hs : Keeps q s) :
    ∃ s1, execHostRequestArrival z0 body s = .next s1 ∧ Keeps q s1 := by
  unfold execHostRequestArrival
  (try dsimp only)
  repeat' (first | with_reducible assumption | refine ⟨_, rfl, ?_⟩ | with_reducible apply keeps_ite | with_reducible apply ok_keeps | with_reducible apply State.setHq_keeps | with_reducible apply dma_keeps | with_reducible apply State.noteSet_keeps | with_reducible apply releaseMsg_keeps | split)

theorem lateCount_keeps (die : Nat) (deadline : Nat) (s : State) (hs : Keeps q s) :
    Keeps q (lateCount die deadline s) := by
  unfold lateCount
  (try dsimp only)
  repeat' (first | with_reducible assumption | with_reducible apply keeps_ite | with_reducible apply State.bump_keeps)

theorem execTransmitFrameSelect_keeps (p : Fin 32) (s : State) (hs : Keeps q s) :
    ∃ s1, execTransmitFrameSelect p s = .next s1 ∧ Keeps q s1 := by
  unfold execTransmitFrameSelect
  (try dsimp only)
  repeat' (first | with_reducible assumption | refine ⟨_, rfl, ?_⟩ | with_reducible apply keeps_ite | with_reducible apply txFinish_keeps | with_reducible apply State.at_keeps | with_reducible apply ok_keeps | with_reducible apply sweepFrame_keeps | with_reducible apply State.setSrc_keeps | with_reducible apply sentEntry_keeps | with_reducible apply lateCount_keeps | with_reducible apply txStart_keeps | split)

theorem execCqHeadWrite_keeps (z0 : Fin 5) (head : BitVec 14) (s : State) (hs : Keeps q s) :
    ∃ s1, execCqHeadWrite z0 head s = .next s1 ∧ Keeps q s1 := by
  unfold execCqHeadWrite
  (try dsimp only)
  repeat' (first | intro _ | with_reducible assumption | refine ⟨_, rfl, ?_⟩ | with_reducible apply keeps_ite | with_reducible apply keeps_ite1 | with_reducible apply keeps_ite2 | with_reducible apply ok_keeps | with_reducible apply State.setHq_keeps | contradiction | split)

theorem sqFetchF_keeps (k n : Nat) (es : List SqFetch) (s : State) (hs : Keeps q s) : Keeps q (sqFetchF k n es s) := by
  induction n generalizing s es with
  | zero => exact hs
  | succ n ih =>
    unfold sqFetchF
    dsimp only
    have h := dma_keeps 0x78 0 (hostAddr ((s.hq k).sqBase + 32 * (s.hq k).sqHead)) 32 s hs
    generalize dma 0x78 0 (hostAddr ((s.hq k).sqBase + 32 * (s.hq k).sqHead)) 32 s = r at h ⊢
    refine keeps_ite hs (keeps_ite (ih _ _ (releaseMsg_keeps _ _ _ _ (State.noteSet_keeps _ _ _ (State.setHq_keeps _ _ _ h)))) ?_)
    split
    · exact ih _ _ (State.setHq_keeps _ _ _ h)
    · exact ih _ _ (State.setHq_keeps _ _ _ (State.draw_keeps _ _ h))

theorem sqPump_keeps (z0 : Nat) (es : List SqFetch) (s : State) (hs : Keeps q s) :
    Keeps q (sqPump z0 es s) := by
  unfold sqPump
  (try dsimp only)
  repeat' (first | with_reducible assumption | with_reducible apply keeps_ite | with_reducible apply sqFetchF_keeps)

theorem execHpqQueueEnable_keeps (z0 : Fin 5) (s : State) (hs : Keeps q s) :
    ∃ s1, execHpqQueueEnable z0 s = .next s1 ∧ Keeps q s1 := by
  unfold execHpqQueueEnable
  (try dsimp only)
  repeat' (first | intro _ | with_reducible assumption | refine ⟨_, rfl, ?_⟩ | with_reducible apply keeps_ite | with_reducible apply keeps_ite1 | with_reducible apply keeps_ite2 | with_reducible apply ok_keeps | with_reducible apply State.noteSet_keeps | with_reducible apply State.setHq_keeps | with_reducible apply sqPump_keeps | with_reducible apply State.setAud_keeps | contradiction | split | with_reducible apply keeps_foldl)

theorem lateResult_keeps (h : ResHdr) (s : State) (hs : Keeps q s) :
    Keeps q (lateResult h s) := by
  unfold lateResult
  (try dsimp only)
  repeat' (first | with_reducible assumption | with_reducible apply keeps_ite | with_reducible apply lateCount_keeps)

theorem frameResult_keeps (p : Nat) (h : ResHdr) (o : Outst) (s : State) (hs : Keeps q s) :
    Keeps q (frameResult p h o s) := by
  unfold frameResult
  (try dsimp only)
  repeat' (first | with_reducible assumption | with_reducible apply keeps_ite | with_reducible apply State.setSrc_keeps | with_reducible apply lateResult_keeps | with_reducible apply hostComplete_keeps | with_reducible apply sentOne_keeps | with_reducible apply State.pstat_keeps | with_reducible apply tcpCommit_keeps)

theorem execPortSweep_keeps (src : Fin 36) (s : State) (hs : Keeps q s) :
    ∃ s1, execPortSweep src s = .next s1 ∧ Keeps q s1 := by
  unfold execPortSweep
  (try dsimp only)
  repeat' (first | with_reducible assumption | refine ⟨_, rfl, ?_⟩ | with_reducible apply ok_keeps | with_reducible apply portSweepOp_keeps)

theorem execHostLinkRetrain_keeps (width : Nat) (rate : Nat) (s : State) (hs : Keeps q s) :
    ∃ s1, execHostLinkRetrain width rate s = .next s1 ∧ Keeps q s1 := by
  unfold execHostLinkRetrain
  (try dsimp only)
  repeat' (first | intro _ | with_reducible assumption | refine ⟨_, rfl, ?_⟩ | with_reducible apply keeps_ite | with_reducible apply keeps_ite1 | with_reducible apply keeps_ite2 | with_reducible apply ok_keeps | with_reducible apply sqPump_keeps | contradiction | split | (simp only [keeps_mk]; with_reducible apply Keeps.both) | with_reducible apply keeps_foldl)

theorem execResultHeaderArrival_keeps (die : Fin 2) (s : State) (hs : Keeps q s) :
    ∃ s1, execResultHeaderArrival die s = .next s1 ∧ Keeps q s1 := by
  unfold execResultHeaderArrival
  (try dsimp only)
  repeat' (first | intro _ | with_reducible assumption | refine ⟨_, rfl, ?_⟩ | with_reducible apply ok_keeps | with_reducible apply State.at_keeps | with_reducible apply State.pstat_keeps | with_reducible apply frameResult_keeps | with_reducible apply finishDrain_keeps | with_reducible apply jobAnswered_keeps | split | (simp only [keeps_mk]; with_reducible apply Keeps.both))

theorem execHostSqTailWrite_keeps (k : Fin 4) (tail : BitVec 14) (es : List SqFetch) (s : State) (hs : Keeps q s) :
    ∃ s1, execHostSqTailWrite k tail es s = .next s1 ∧ Keeps q s1 := by
  unfold execHostSqTailWrite
  exact next_ite (next_ok hs) (next_ok (keeps_ite (sqFetchF_keeps _ _ _ _ (State.setHq_keeps _ _ _ hs)) (State.setHq_keeps _ _ _ hs)))

theorem execPePerst_keeps (high : Bool) (s : State) (hs : Keeps q s) :
    ∃ s1, execPePerst high s = .next s1 ∧ Keeps q s1 := by
  unfold execPePerst
  (try dsimp only)
  repeat' (first | with_reducible assumption | refine ⟨_, rfl, ?_⟩ | with_reducible apply keeps_ite | with_reducible apply setPerst_keeps | with_reducible apply ok_keeps | (simp only [keeps_mk]; with_reducible apply Keeps.both))

theorem execHpqQueueDisable_keeps (z0 : Fin 5) (s : State) (hs : Keeps q s) :
    ∃ s1, execHpqQueueDisable z0 s = .next s1 ∧ Keeps q s1 := by
  unfold execHpqQueueDisable
  (try dsimp only)
  repeat' (first | intro _ | with_reducible assumption | refine ⟨_, rfl, ?_⟩ | with_reducible apply keeps_ite | with_reducible apply keeps_ite1 | with_reducible apply keeps_ite2 | with_reducible apply ok_keeps | with_reducible apply State.setHq_keeps | contradiction | split)

theorem closeBlock_keeps (d : Nat) (fin : Nat) (due : Nat) (flags : Nat) (s : State) (hs : Keeps q s) :
    Keeps q (closeBlock d fin due flags s) := by
  unfold closeBlock
  (try dsimp only)
  repeat' (first | intro _ | with_reducible assumption | with_reducible apply keeps_ite | with_reducible apply State.setAud_keeps | with_reducible apply audStream_keeps | with_reducible apply State.bump_keeps | with_reducible apply State.setEnt_keeps | with_reducible apply State.setNum_keeps | (simp only [keeps_mk]; with_reducible apply Keeps.both))

theorem writeChunk_keeps (d : Nat) (s : State) (hs : Keeps q s) :
    Keeps q (writeChunk d s).2 := by
  unfold writeChunk
  (try dsimp only)
  repeat' (first | with_reducible assumption | with_reducible apply keeps_ite | with_reducible apply keeps_ite2 | with_reducible apply audEntry_keeps | with_reducible apply State.setAud_keeps | contradiction | split)

theorem drainChunks_keeps (d n : Nat) (s : State) (hs : Keeps q s) : Keeps q (drainChunks d n s) := by
  induction n generalizing s with
  | zero => exact hs
  | succ n ih => exact keeps_ite (ih _ (writeChunk_keeps _ _ hs)) (writeChunk_keeps _ _ hs)

theorem acceptOne_keeps (d : Nat) (a : Nat) (l : Nat) (s : State) (hs : Keeps q s) :
    Keeps q (acceptOne d a l s) := by
  unfold acceptOne
  (try dsimp only)
  repeat' (first | with_reducible assumption | with_reducible apply State.setLane_keeps | with_reducible apply State.setAud_keeps | with_reducible apply State.bump_keeps | with_reducible apply audAppend_keeps | contradiction | split | (simp only [keeps_mk]; with_reducible apply Keeps.both))

theorem signBlock_keeps (d : Nat) (b : AudBlock) (t : Nat) (s : State) (hs : Keeps q s) :
    Keeps q (signBlock d b t s) := by
  unfold signBlock
  (try dsimp only)
  repeat' (first | with_reducible assumption | with_reducible apply keeps_ite | with_reducible apply audSigned_keeps | with_reducible apply pkKick_keeps | with_reducible apply pkAdd_keeps | contradiction | split)

theorem execAuditBlockClose_keeps (die : Fin 2) (s : State) (hs : Keeps q s) :
    ∃ s1, execAuditBlockClose die s = .next s1 ∧ Keeps q s1 := by
  unfold execAuditBlockClose
  (try dsimp only)
  repeat' (first | with_reducible assumption | refine ⟨_, rfl, ?_⟩ | with_reducible apply keeps_ite | with_reducible apply ok_keeps | with_reducible apply closeBlock_keeps | with_reducible apply State.at_keeps | with_reducible apply signBlock_keeps | split)

theorem closeChain_keeps (d : Nat) (flag : Nat) (status : Nat) (s : State) (hs : Keeps q s) :
    Keeps q (closeChain d flag status s) := by
  unfold closeChain
  (try dsimp only)
  repeat' (first | intro _ | with_reducible assumption | with_reducible apply keeps_ite | with_reducible apply closeBlock_keeps | with_reducible apply audSigned_keeps | with_reducible apply keeps_foldl)

theorem execAuditEraseClose_keeps (die : Fin 2) (s : State) (hs : Keeps q s) :
    ∃ s1, execAuditEraseClose die s = .next s1 ∧ Keeps q s1 := by
  unfold execAuditEraseClose
  (try dsimp only)
  repeat' (first | intro _ | with_reducible assumption | refine ⟨_, rfl, ?_⟩ | with_reducible apply keeps_ite | with_reducible apply keeps_ite1 | with_reducible apply keeps_ite2 | with_reducible apply ok_keeps | with_reducible apply closeChain_keeps | with_reducible apply State.setAud_keeps | contradiction | split)

theorem execAuditSysresetClose_keeps (die : Fin 2) (s : State) (hs : Keeps q s) :
    ∃ s1, execAuditSysresetClose die s = .next s1 ∧ Keeps q s1 := by
  unfold execAuditSysresetClose
  (try dsimp only)
  repeat' (first | intro _ | with_reducible assumption | refine ⟨_, rfl, ?_⟩ | with_reducible apply keeps_ite | with_reducible apply keeps_ite1 | with_reducible apply keeps_ite2 | with_reducible apply ok_keeps | with_reducible apply closeChain_keeps | with_reducible apply State.setAud_keeps | with_reducible apply drainChunks_keeps | with_reducible apply State.setHq_keeps | contradiction | split | (simp only [keeps_mk]; with_reducible apply Keeps.both))

theorem execAuditChunkWrite_keeps (die : Fin 2) (s : State) (hs : Keeps q s) :
    ∃ s1, execAuditChunkWrite die s = .next s1 ∧ Keeps q s1 := by
  unfold execAuditChunkWrite
  (try dsimp only)
  repeat' (first | with_reducible assumption | refine ⟨_, rfl, ?_⟩ | with_reducible apply keeps_ite | with_reducible apply ok_keeps | with_reducible apply State.at_keeps | with_reducible apply writeChunk_keeps | split)

theorem execCollectorAccept_keeps (die : Fin 2) (s : State) (hs : Keeps q s) :
    ∃ s1, execCollectorAccept die s = .next s1 ∧ Keeps q s1 := by
  unfold execCollectorAccept
  (try dsimp only)
  repeat' (first | intro _ | with_reducible assumption | refine ⟨_, rfl, ?_⟩ | with_reducible apply keeps_ite | with_reducible apply ok_keeps | with_reducible apply State.at_keeps | with_reducible apply State.setAud_keeps | with_reducible apply State.noteSet_keeps | with_reducible apply acceptOne_keeps | split | with_reducible apply keeps_foldl)

end Sys2Proof.Machine
end

