-- ==== Sys2Proof/Laws/KeepsLanes.lean ====
section
/-!
SUPPORT. What every function keeps (the classifiers, the lanes and the public-key engines): the queue of waiting commands, the canonical form of the MRAM,
and every fuse bit that is blown. One lemma per function; later lemmas cite the earlier ones.
-/
namespace Sys2Proof.Machine
variable {q : State}

theorem endCtx_keeps (p : Nat) (c : Nat) (st : Stand) (at_ : Nat) (free : Nat) (s : State) (hs : Keeps q s) :
    Keeps q (endCtx p c st at_ free s) := by
  unfold endCtx
  (try dsimp only)
  repeat' (first | intro _ | with_reducible assumption | with_reducible apply keeps_ite | with_reducible apply State.setSrc_keeps | with_reducible apply flushLine_keeps)

theorem State.setCtx_keeps (s : State) (p : Nat) (c : Nat) (x : Ctx) (hs : Keeps q s) :
    Keeps q (State.setCtx s p c x) := by
  unfold State.setCtx
  (try dsimp only)
  repeat' (first | intro _ | with_reducible assumption | with_reducible apply keeps_ite | with_reducible apply State.setSrc_keeps)

theorem clsStep_keeps (i : ClsI) (cost : State → Msg → Ctx → Nat) (f : State → Msg → Ctx → ClsEnd) (s : State) (hs : Keeps q s) :
    Keeps q (clsStep i cost f s) := by
  unfold clsStep
  (try dsimp only)
  repeat' (first | with_reducible assumption | with_reducible apply keeps_ite | with_reducible apply endCtx_keeps | with_reducible apply State.setCtx_keeps | with_reducible apply State.pstat_keeps | contradiction | split)

theorem execClsAdd_keeps (i : ClsI) (s : State) (hs : Keeps q s) :
    ∃ s1, execClsAdd i s = .next s1 ∧ Keeps q s1 := by
  unfold execClsAdd
  (try dsimp only)
  repeat' (first | intro _ | with_reducible assumption | refine ⟨_, rfl, ?_⟩ | with_reducible apply keeps_ite | with_reducible apply ok_keeps | with_reducible apply clsStep_keeps)

theorem execClassifierStop_keeps (src : Fin 36) (ctx : Fin 8) (s : State) (hs : Keeps q s) :
    ∃ s1, execClassifierStop src ctx s = .next s1 ∧ Keeps q s1 := by
  unfold execClassifierStop
  (try dsimp only)
  repeat' (first | with_reducible assumption | refine ⟨_, rfl, ?_⟩ | with_reducible apply ok_keeps | with_reducible apply State.pstat_keeps | with_reducible apply endCtx_keeps | split)

theorem execSetk_keeps (i : ClsI) (s : State) (hs : Keeps q s) :
    ∃ s1, execSetk i s = .next s1 ∧ Keeps q s1 := by
  unfold execSetk
  (try dsimp only)
  repeat' (first | intro _ | with_reducible assumption | refine ⟨_, rfl, ?_⟩ | with_reducible apply keeps_ite | with_reducible apply ok_keeps | with_reducible apply clsStep_keeps)

theorem execClsNumb_keeps (i : ClsI) (s : State) (hs : Keeps q s) :
    ∃ s1, execClsNumb i s = .next s1 ∧ Keeps q s1 := by
  unfold execClsNumb
  (try dsimp only)
  repeat' (first | intro _ | with_reducible assumption | refine ⟨_, rfl, ?_⟩ | with_reducible apply keeps_ite | with_reducible apply ok_keeps | with_reducible apply clsStep_keeps)

theorem execClsBne_keeps (i : ClsI) (s : State) (hs : Keeps q s) :
    ∃ s1, execClsBne i s = .next s1 ∧ Keeps q s1 := by
  unfold execClsBne
  (try dsimp only)
  repeat' (first | intro _ | with_reducible assumption | refine ⟨_, rfl, ?_⟩ | with_reducible apply keeps_ite | with_reducible apply ok_keeps | with_reducible apply clsStep_keeps)

theorem execClsOr_keeps (i : ClsI) (s : State) (hs : Keeps q s) :
    ∃ s1, execClsOr i s = .next s1 ∧ Keeps q s1 := by
  unfold execClsOr
  (try dsimp only)
  repeat' (first | intro _ | with_reducible assumption | refine ⟨_, rfl, ?_⟩ | with_reducible apply keeps_ite | with_reducible apply ok_keeps | with_reducible apply clsStep_keeps)

theorem execClsLdh_keeps (i : ClsI) (s : State) (hs : Keeps q s) :
    ∃ s1, execClsLdh i s = .next s1 ∧ Keeps q s1 := by
  unfold execClsLdh
  (try dsimp only)
  repeat' (first | intro _ | with_reducible assumption | refine ⟨_, rfl, ?_⟩ | with_reducible apply keeps_ite | with_reducible apply ok_keeps | with_reducible apply clsStep_keeps)

theorem execReject_keeps (i : ClsI) (s : State) (hs : Keeps q s) :
    ∃ s1, execReject i s = .next s1 ∧ Keeps q s1 := by
  unfold execReject
  (try dsimp only)
  repeat' (first | intro _ | with_reducible assumption | refine ⟨_, rfl, ?_⟩ | with_reducible apply keeps_ite | with_reducible apply ok_keeps | with_reducible apply clsStep_keeps)

theorem execClsShl_keeps (i : ClsI) (s : State) (hs : Keeps q s) :
    ∃ s1, execClsShl i s = .next s1 ∧ Keeps q s1 := by
  unfold execClsShl
  (try dsimp only)
  repeat' (first | intro _ | with_reducible assumption | refine ⟨_, rfl, ?_⟩ | with_reducible apply keeps_ite | with_reducible apply ok_keeps | with_reducible apply clsStep_keeps)

theorem execSetf_keeps (i : ClsI) (s : State) (hs : Keeps q s) :
    ∃ s1, execSetf i s = .next s1 ∧ Keeps q s1 := by
  unfold execSetf
  (try dsimp only)
  repeat' (first | intro _ | with_reducible assumption | refine ⟨_, rfl, ?_⟩ | with_reducible apply keeps_ite | with_reducible apply ok_keeps | with_reducible apply clsStep_keeps)

theorem execClsShr_keeps (i : ClsI) (s : State) (hs : Keeps q s) :
    ∃ s1, execClsShr i s = .next s1 ∧ Keeps q s1 := by
  unfold execClsShr
  (try dsimp only)
  repeat' (first | intro _ | with_reducible assumption | refine ⟨_, rfl, ?_⟩ | with_reducible apply keeps_ite | with_reducible apply ok_keeps | with_reducible apply clsStep_keeps)

theorem execDrop_keeps (i : ClsI) (s : State) (hs : Keeps q s) :
    ∃ s1, execDrop i s = .next s1 ∧ Keeps q s1 := by
  unfold execDrop
  (try dsimp only)
  repeat' (first | intro _ | with_reducible assumption | refine ⟨_, rfl, ?_⟩ | with_reducible apply ok_keeps | with_reducible apply clsStep_keeps)

theorem execClsBge_keeps (i : ClsI) (s : State) (hs : Keeps q s) :
    ∃ s1, execClsBge i s = .next s1 ∧ Keeps q s1 := by
  unfold execClsBge
  (try dsimp only)
  repeat' (first | intro _ | with_reducible assumption | refine ⟨_, rfl, ?_⟩ | with_reducible apply keeps_ite | with_reducible apply ok_keeps | with_reducible apply clsStep_keeps)

theorem execClsBlt_keeps (i : ClsI) (s : State) (hs : Keeps q s) :
    ∃ s1, execClsBlt i s = .next s1 ∧ Keeps q s1 := by
  unfold execClsBlt
  (try dsimp only)
  repeat' (first | intro _ | with_reducible assumption | refine ⟨_, rfl, ?_⟩ | with_reducible apply keeps_ite | with_reducible apply ok_keeps | with_reducible apply clsStep_keeps)

theorem execRule_keeps (i : ClsI) (s : State) (hs : Keeps q s) :
    ∃ s1, execRule i s = .next s1 ∧ Keeps q s1 := by
  unfold execRule
  (try dsimp only)
  repeat' (first | intro _ | with_reducible assumption | refine ⟨_, rfl, ?_⟩ | with_reducible apply ok_keeps | with_reducible apply clsStep_keeps)

theorem execClsMovi_keeps (i : ClsI) (s : State) (hs : Keeps q s) :
    ∃ s1, execClsMovi i s = .next s1 ∧ Keeps q s1 := by
  unfold execClsMovi
  (try dsimp only)
  repeat' (first | intro _ | with_reducible assumption | refine ⟨_, rfl, ?_⟩ | with_reducible apply keeps_ite | with_reducible apply ok_keeps | with_reducible apply clsStep_keeps)

theorem execClsAnd_keeps (i : ClsI) (s : State) (hs : Keeps q s) :
    ∃ s1, execClsAnd i s = .next s1 ∧ Keeps q s1 := by
  unfold execClsAnd
  (try dsimp only)
  repeat' (first | intro _ | with_reducible assumption | refine ⟨_, rfl, ?_⟩ | with_reducible apply keeps_ite | with_reducible apply ok_keeps | with_reducible apply clsStep_keeps)

theorem execSetdl_keeps (i : ClsI) (s : State) (hs : Keeps q s) :
    ∃ s1, execSetdl i s = .next s1 ∧ Keeps q s1 := by
  unfold execSetdl
  (try dsimp only)
  repeat' (first | intro _ | with_reducible assumption | refine ⟨_, rfl, ?_⟩ | with_reducible apply keeps_ite | with_reducible apply ok_keeps | with_reducible apply clsStep_keeps)

theorem execClsBeq_keeps (i : ClsI) (s : State) (hs : Keeps q s) :
    ∃ s1, execClsBeq i s = .next s1 ∧ Keeps q s1 := by
  unfold execClsBeq
  (try dsimp only)
  repeat' (first | intro _ | with_reducible assumption | refine ⟨_, rfl, ?_⟩ | with_reducible apply keeps_ite | with_reducible apply ok_keeps | with_reducible apply clsStep_keeps)

theorem execSetc_keeps (i : ClsI) (s : State) (hs : Keeps q s) :
    ∃ s1, execSetc i s = .next s1 ∧ Keeps q s1 := by
  unfold execSetc
  (try dsimp only)
  repeat' (first | intro _ | with_reducible assumption | refine ⟨_, rfl, ?_⟩ | with_reducible apply ok_keeps | with_reducible apply clsStep_keeps)

theorem execSetid_keeps (i : ClsI) (s : State) (hs : Keeps q s) :
    ∃ s1, execSetid i s = .next s1 ∧ Keeps q s1 := by
  unfold execSetid
  (try dsimp only)
  repeat' (first | intro _ | with_reducible assumption | refine ⟨_, rfl, ?_⟩ | with_reducible apply keeps_ite | with_reducible apply ok_keeps | with_reducible apply clsStep_keeps)

theorem execClsAddr_keeps (i : ClsI) (s : State) (hs : Keeps q s) :
    ∃ s1, execClsAddr i s = .next s1 ∧ Keeps q s1 := by
  unfold execClsAddr
  (try dsimp only)
  repeat' (first | intro _ | with_reducible assumption | refine ⟨_, rfl, ?_⟩ | with_reducible apply keeps_ite | with_reducible apply ok_keeps | with_reducible apply clsStep_keeps)

theorem execClsLdf_keeps (i : ClsI) (s : State) (hs : Keeps q s) :
    ∃ s1, execClsLdf i s = .next s1 ∧ Keeps q s1 := by
  unfold execClsLdf
  (try dsimp only)
  repeat' (first | intro _ | with_reducible assumption | refine ⟨_, rfl, ?_⟩ | with_reducible apply ok_keeps | with_reducible apply clsStep_keeps)

theorem execClsNum_keeps (i : ClsI) (s : State) (hs : Keeps q s) :
    ∃ s1, execClsNum i s = .next s1 ∧ Keeps q s1 := by
  unfold execClsNum
  (try dsimp only)
  repeat' (first | intro _ | with_reducible assumption | refine ⟨_, rfl, ?_⟩ | with_reducible apply ok_keeps | with_reducible apply clsStep_keeps)

theorem execBmw_keeps (i : ClsI) (s : State) (hs : Keeps q s) :
    ∃ s1, execBmw i s = .next s1 ∧ Keeps q s1 := by
  unfold execBmw
  (try dsimp only)
  repeat' (first | intro _ | with_reducible assumption | refine ⟨_, rfl, ?_⟩ | with_reducible apply ok_keeps | with_reducible apply clsStep_keeps)

theorem execClsLdb_keeps (i : ClsI) (s : State) (hs : Keeps q s) :
    ∃ s1, execClsLdb i s = .next s1 ∧ Keeps q s1 := by
  unfold execClsLdb
  (try dsimp only)
  repeat' (first | intro _ | with_reducible assumption | refine ⟨_, rfl, ?_⟩ | with_reducible apply keeps_ite | with_reducible apply ok_keeps | with_reducible apply clsStep_keeps)

theorem execClsNop_keeps (i : ClsI) (s : State) (hs : Keeps q s) :
    ∃ s1, execClsNop i s = .next s1 ∧ Keeps q s1 := by
  unfold execClsNop
  (try dsimp only)
  repeat' (first | intro _ | with_reducible assumption | refine ⟨_, rfl, ?_⟩ | with_reducible apply ok_keeps | with_reducible apply clsStep_keeps)

theorem execClassifierContextStart_keeps (src : Fin 36) (s : State) (hs : Keeps q s) :
    ∃ s1, execClassifierContextStart src s = .next s1 ∧ Keeps q s1 := by
  unfold execClassifierContextStart
  (try dsimp only)
  repeat' (first | intro _ | with_reducible assumption | refine ⟨_, rfl, ?_⟩ | with_reducible apply ok_keeps | with_reducible apply startCtx_keeps | split)

theorem execClsLdw_keeps (i : ClsI) (s : State) (hs : Keeps q s) :
    ∃ s1, execClsLdw i s = .next s1 ∧ Keeps q s1 := by
  unfold execClsLdw
  (try dsimp only)
  repeat' (first | intro _ | with_reducible assumption | refine ⟨_, rfl, ?_⟩ | with_reducible apply keeps_ite | with_reducible apply ok_keeps | with_reducible apply clsStep_keeps)

theorem execClsMovhi_keeps (i : ClsI) (s : State) (hs : Keeps q s) :
    ∃ s1, execClsMovhi i s = .next s1 ∧ Keeps q s1 := by
  unfold execClsMovhi
  (try dsimp only)
  repeat' (first | intro _ | with_reducible assumption | refine ⟨_, rfl, ?_⟩ | with_reducible apply keeps_ite | with_reducible apply ok_keeps | with_reducible apply clsStep_keeps)

theorem execEmit_keeps (i : ClsI) (s : State) (hs : Keeps q s) :
    ∃ s1, execEmit i s = .next s1 ∧ Keeps q s1 := by
  unfold execEmit
  (try dsimp only)
  repeat' (first | intro _ | with_reducible assumption | refine ⟨_, rfl, ?_⟩ | with_reducible apply ok_keeps | with_reducible apply clsStep_keeps)

theorem bankDiscard_keeps (l : Nat) (b : Nat) (s : State) (hs : Keeps q s) :
    Keeps q (bankDiscard l b s) := by
  unfold bankDiscard
  (try dsimp only)
  repeat' (first | with_reducible assumption | with_reducible apply keeps_ite | with_reducible apply rearmIdle_keeps | with_reducible apply State.setLane_keeps)

theorem execBankDiscard_keeps (lane : Fin 64) (b : Fin 2) (s : State) (hs : Keeps q s) :
    ∃ s1, execBankDiscard lane b s = .next s1 ∧ Keeps q s1 := by
  unfold execBankDiscard
  (try dsimp only)
  repeat' (first | intro _ | with_reducible assumption | refine ⟨_, rfl, ?_⟩ | with_reducible apply keeps_ite | with_reducible apply ok_keeps | with_reducible apply bankDiscard_keeps)

theorem execPkEngineFence_keeps (e : Fin 24) (cause : Fin 7) (s : State) (hs : Keeps q s) :
    ∃ s1, execPkEngineFence e cause s = .next s1 ∧ Keeps q s1 := by
  unfold execPkEngineFence
  (try dsimp only)
  repeat' (first | intro _ | with_reducible assumption | refine ⟨_, rfl, ?_⟩ | with_reducible apply keeps_ite | with_reducible apply keeps_ite1 | with_reducible apply keeps_ite2 | with_reducible apply ok_keeps | with_reducible apply fencePkDie_keeps | with_reducible apply fencePkUnit_keeps | contradiction | split)

theorem claimUnit_keeps (u : TestUnit) (s : State) (hs : Keeps q s) :
    Keeps q (claimUnit u s) := by
  unfold claimUnit
  (try dsimp only)
  repeat' (first | with_reducible assumption | with_reducible apply rearmIdle_keeps | with_reducible apply State.setLane_keeps | with_reducible apply State.setSpare_keeps | with_reducible apply State.setQuad_keeps | with_reducible apply State.setEng_keeps | contradiction | split)

theorem execSelftestSchedule_keeps (s : State) (hs : Keeps q s) :
    ∃ s1, execSelftestSchedule s = .next s1 ∧ Keeps q s1 := by
  unfold execSelftestSchedule
  (try dsimp only)
  repeat' (first | intro _ | with_reducible assumption | refine ⟨_, rfl, ?_⟩ | with_reducible apply keeps_ite | with_reducible apply ok_keeps | with_reducible apply claimUnit_keeps | split | (simp only [keeps_mk]; with_reducible apply Keeps.both))

theorem bankAck_keeps (l : Nat) (b : Nat) (copyOk : Bool) (s : State) (hs : Keeps q s) :
    Keeps q (bankAck l b copyOk s) := by
  unfold bankAck
  (try dsimp only)
  repeat' (first | with_reducible assumption | with_reducible apply keeps_ite | with_reducible apply State.setLane_keeps | with_reducible apply rearmIdle_keeps | with_reducible apply laneAck_keeps | with_reducible apply State.bump_keeps | with_reducible apply State.setEpoch_keeps | contradiction | split)

theorem execBankAck_keeps (lane : Fin 64) (b : BankCopy) (s : State) (hs : Keeps q s) :
    ∃ s1, execBankAck lane b s = .next s1 ∧ Keeps q s1 := by
  unfold execBankAck
  (try dsimp only)
  repeat' (first | intro _ | with_reducible assumption | refine ⟨_, rfl, ?_⟩ | with_reducible apply keeps_ite | with_reducible apply ok_keeps | with_reducible apply bankAck_keeps)

theorem removeNode_keeps (z0 : Nat) (node : Nat) (s : State) (hs : Keeps q s) :
    Keeps q (removeNode z0 node s) := by
  unfold removeNode
  (try dsimp only)
  repeat' (first | intro _ | with_reducible assumption | with_reducible apply keeps_ite | with_reducible apply State.bump_keeps | with_reducible apply setCache_keeps | with_reducible apply keeps_foldl)

theorem execCacheRemoval_keeps (s : State) (hs : Keeps q s) :
    ∃ s1, execCacheRemoval s = .next s1 ∧ Keeps q s1 := by
  unfold execCacheRemoval
  (try dsimp only)
  repeat' (first | intro _ | with_reducible assumption | refine ⟨_, rfl, ?_⟩ | with_reducible apply ok_keeps | with_reducible apply removeNode_keeps | split | (simp only [keeps_mk]; with_reducible apply Keeps.both) | with_reducible apply keeps_foldl)

theorem tevtClear_keeps (l : Nat) (v : Nat) (s : State) (hs : Keeps q s) :
    Keeps q (tevtClear l v s) := by
  unfold tevtClear
  (try dsimp only)
  repeat' (first | with_reducible assumption | with_reducible apply State.setLane_keeps)

theorem execSpareFail_keeps (k : Fin 4) (s : State) (hs : Keeps q s) :
    ∃ s1, execSpareFail k s = .next s1 ∧ Keeps q s1 := by
  unfold execSpareFail
  (try dsimp only)
  repeat' (first | with_reducible assumption | refine ⟨_, rfl, ?_⟩ | with_reducible apply keeps_ite | with_reducible apply ok_keeps | with_reducible apply failSpareUnit_keeps)

theorem timerConfig_keeps (l : Nat) (k : Nat) (v : Nat) (s : State) (hs : Keeps q s) :
    Keeps q (timerConfig l k v s) := by
  unfold timerConfig
  (try dsimp only)
  repeat' (first | with_reducible assumption | with_reducible apply keeps_ite | with_reducible apply State.setLane_keeps)

theorem execLaneTimerConfig_keeps (lane : Fin 64) (k : Fin 4) (v : Word) (s : State) (hs : Keeps q s) :
    ∃ s1, execLaneTimerConfig lane k v s = .next s1 ∧ Keeps q s1 := by
  unfold execLaneTimerConfig
  (try dsimp only)
  repeat' (first | with_reducible assumption | refine ⟨_, rfl, ?_⟩ | with_reducible apply ok_keeps | with_reducible apply timerConfig_keeps)

theorem unfenceLane_keeps (l : Nat) (s : State) (hs : Keeps q s) :
    Keeps q (unfenceLane l s) := by
  unfold unfenceLane
  (try dsimp only)
  repeat' (first | with_reducible assumption | with_reducible apply keeps_ite | with_reducible apply State.setLane_keeps | with_reducible apply settleDegraded_keeps | with_reducible apply refreshBanks_keeps)

theorem fxLaneFence_keeps (n : Nat) (s : State) (_role : Nat) (v : Bytes) (hs : Keeps q s) :
    Keeps q (fxLaneFence n s _role v).st := by
  unfold fxLaneFence
  (try dsimp only)
  repeat' (first | with_reducible assumption | with_reducible apply keeps_ite | with_reducible apply ansOK_keeps | with_reducible apply fenceLane_keeps | with_reducible apply unfenceLane_keeps)

theorem execLaneUnfence_keeps (via : Option Req) (lane : Fin 64) (s : State) (hs : Keeps q s) :
    ∃ s1, execLaneUnfence via lane s = .next s1 ∧ Keeps q s1 := by
  unfold execLaneUnfence
  (try dsimp only)
  repeat' (first | with_reducible assumption | refine ⟨_, rfl, ?_⟩ | with_reducible apply ok_keeps | with_reducible apply serveWrite_keeps | with_reducible apply fxLaneFence_keeps | with_reducible apply unfenceLane_keeps | split)

theorem noteTested_keeps (u : TestUnit) (s : State) (hs : Keeps q s) :
    Keeps q (noteTested u s) := by
  unfold noteTested
  (try dsimp only)
  repeat' (first | intro _ | with_reducible assumption | with_reducible apply keeps_ite | (simp only [keeps_mk]; with_reducible apply Keeps.both))

theorem fxFlip_keeps (s : State) (role : Nat) (v : Bytes) (hs : Keeps q s) :
    Keeps q (fxFlip s role v).st := by
  unfold fxFlip
  (try dsimp only)
  repeat' (first | intro _ | with_reducible assumption | with_reducible apply keeps_ite | with_reducible apply keeps_ite1 | with_reducible apply keeps_ite2 | with_reducible apply ansErr_keeps | with_reducible apply startOp_keeps | with_reducible apply startFlip_keeps | contradiction | split)

theorem execSelftestClaim_keeps (u : TestUnit) (s : State) (hs : Keeps q s) :
    ∃ s1, execSelftestClaim u s = .next s1 ∧ Keeps q s1 := by
  unfold execSelftestClaim
  (try dsimp only)
  repeat' (first | with_reducible assumption | refine ⟨_, rfl, ?_⟩ | with_reducible apply keeps_ite | with_reducible apply ok_keeps | with_reducible apply claimUnit_keeps | split)

theorem execQuadWakeChargeExpiry_keeps (z0 : Fin 16) (s : State) (hs : Keeps q s) :
    ∃ s1, execQuadWakeChargeExpiry z0 s = .next s1 ∧ Keeps q s1 := by
  unfold execQuadWakeChargeExpiry
  (try dsimp only)
  repeat' (first | intro _ | with_reducible assumption | refine ⟨_, rfl, ?_⟩ | with_reducible apply keeps_ite | with_reducible apply ok_keeps | with_reducible apply State.at_keeps | with_reducible apply State.setQuad_keeps | with_reducible apply finishDrain_keeps | with_reducible apply clearLanes_keeps | split)

theorem execSelftestSliceStart_keeps (u : TestUnit) (s : State) (hs : Keeps q s) :
    ∃ s1, execSelftestSliceStart u s = .next s1 ∧ Keeps q s1 := by
  unfold execSelftestSliceStart
  (try dsimp only)
  repeat' (first | with_reducible assumption | refine ⟨_, rfl, ?_⟩ | with_reducible apply keeps_ite | with_reducible apply ok_keeps | with_reducible apply State.setLane_keeps | with_reducible apply claimUnit_keeps | with_reducible apply State.setQuad_keeps | with_reducible apply State.setEng_keeps | split)

theorem execSelftestClaimWithdraw_keeps (z0 : Fin 16) (s : State) (hs : Keeps q s) :
    ∃ s1, execSelftestClaimWithdraw z0 s = .next s1 ∧ Keeps q s1 := by
  unfold execSelftestClaimWithdraw
  (try dsimp only)
  repeat' (first | with_reducible assumption | refine ⟨_, rfl, ?_⟩ | with_reducible apply keeps_ite | with_reducible apply ok_keeps | with_reducible apply State.at_keeps | with_reducible apply State.setQuad_keeps | with_reducible apply rearmIdle_keeps | with_reducible apply State.bump_keeps | split | (simp only [keeps_mk]; with_reducible apply Keeps.both))

theorem execFrameSlotFree_keeps (lane : Fin 64) (slot : Fin 32) (s : State) (hs : Keeps q s) :
    ∃ s1, execFrameSlotFree lane slot s = .next s1 ∧ Keeps q s1 := by
  unfold execFrameSlotFree
  (try dsimp only)
  repeat' (first | intro _ | with_reducible assumption | refine ⟨_, rfl, ?_⟩ | with_reducible apply keeps_ite | with_reducible apply ok_keeps | with_reducible apply State.at_keeps | with_reducible apply freeSlotOf_keeps | split)

theorem mbxClear_keeps (l : Nat) (k : Nat) (s : State) (hs : Keeps q s) :
    Keeps q (mbxClear l k s) := by
  unfold mbxClear
  (try dsimp only)
  repeat' (first | with_reducible assumption | with_reducible apply keeps_ite | with_reducible apply State.setLane_keeps)

theorem execMbxoAck_keeps (lane : Fin 64) (s : State) (hs : Keeps q s) :
    ∃ s1, execMbxoAck lane s = .next s1 ∧ Keeps q s1 := by
  unfold execMbxoAck
  (try dsimp only)
  repeat' (first | intro _ | with_reducible assumption | refine ⟨_, rfl, ?_⟩ | with_reducible apply keeps_ite | with_reducible apply ok_keeps | with_reducible apply mbxClear_keeps)

theorem execSpareSubstitutionTimeout_keeps (k : Fin 4) (s : State) (hs : Keeps q s) :
    ∃ s1, execSpareSubstitutionTimeout k s = .next s1 ∧ Keeps q s1 := by
  unfold execSpareSubstitutionTimeout
  (try dsimp only)
  repeat' (first | intro _ | with_reducible assumption | refine ⟨_, rfl, ?_⟩ | with_reducible apply keeps_ite | with_reducible apply keeps_ite1 | with_reducible apply keeps_ite2 | with_reducible apply ok_keeps | with_reducible apply failSpareUnit_keeps | with_reducible apply State.at_keeps | contradiction | split)

theorem mbxSet_keeps (l : Nat) (k : Nat) (s : State) (hs : Keeps q s) :
    Keeps q (mbxSet l k s) := by
  unfold mbxSet
  (try dsimp only)
  repeat' (first | with_reducible assumption | with_reducible apply keeps_ite | with_reducible apply State.noteSet_keeps | with_reducible apply State.setLane_keeps)

theorem execMbxoPost_keeps (lane : Fin 64) (s : State) (hs : Keeps q s) :
    ∃ s1, execMbxoPost lane s = .next s1 ∧ Keeps q s1 := by
  unfold execMbxoPost
  (try dsimp only)
  repeat' (first | intro _ | with_reducible assumption | refine ⟨_, rfl, ?_⟩ | with_reducible apply keeps_ite | with_reducible apply ok_keeps | with_reducible apply mbxSet_keeps)

theorem execLaneTimerExpiry_keeps (lane : Fin 64) (k : Fin 4) (s : State) (hs : Keeps q s) :
    ∃ s1, execLaneTimerExpiry lane k s = .next s1 ∧ Keeps q s1 := by
  unfold execLaneTimerExpiry
  (try dsimp only)
  repeat' (first | intro _ | with_reducible assumption | refine ⟨_, rfl, ?_⟩ | with_reducible apply keeps_ite | with_reducible apply keeps_ite1 | with_reducible apply keeps_ite2 | with_reducible apply ok_keeps | with_reducible apply State.at_keeps | with_reducible apply State.noteSet_keeps | with_reducible apply State.setLane_keeps | contradiction | split)

theorem bankLoad_keeps (l : Nat) (b : Nat) (s : State) (hs : Keeps q s) :
    Keeps q (bankLoad l b s) := by
  unfold bankLoad
  (try dsimp only)
  repeat' (first | with_reducible assumption | with_reducible apply keeps_ite | with_reducible apply rearmIdle_keeps | with_reducible apply State.setLane_keeps)

theorem execLaneFence_keeps (lane : Fin 64) (cause : Fin 7) (s : State) (hs : Keeps q s) :
    ∃ s1, execLaneFence lane cause s = .next s1 ∧ Keeps q s1 := by
  unfold execLaneFence
  (try dsimp only)
  repeat' (first | with_reducible assumption | refine ⟨_, rfl, ?_⟩ | with_reducible apply keeps_ite | with_reducible apply ok_keeps | with_reducible apply fenceQuad_keeps | with_reducible apply failSpareUnit_keeps | with_reducible apply fenceLane_keeps | split)

theorem sliceCount_keeps (pass : Bool) (s : State) (hs : Keeps q s) :
    Keeps q (sliceCount pass s) := by
  unfold sliceCount
  (try dsimp only)
  repeat' (first | with_reducible assumption | with_reducible apply keeps_ite | with_reducible apply State.bump_keeps)

theorem execSelftestSliceEnd_keeps (u : TestUnit) (r : SliceResult) (s : State) (hs : Keeps q s) :
    ∃ s1, execSelftestSliceEnd u r s = .next s1 ∧ Keeps q s1 := by
  unfold execSelftestSliceEnd
  (try dsimp only)
  repeat' (first | with_reducible assumption | refine ⟨_, rfl, ?_⟩ | with_reducible apply keeps_ite | with_reducible apply ok_keeps | with_reducible apply countCorrected_keeps | with_reducible apply sliceCount_keeps | with_reducible apply State.at_keeps | with_reducible apply State.setLane_keeps | with_reducible apply noteTested_keeps | with_reducible apply rearmIdle_keeps | with_reducible apply failSpareUnit_keeps | with_reducible apply fenceLane_keeps | with_reducible apply State.setSpare_keeps | with_reducible apply settleDegraded_keeps | with_reducible apply substStart_keeps | with_reducible apply State.setQuad_keeps | with_reducible apply failCluster_keeps | with_reducible apply State.setEng_keeps | with_reducible apply bgTry_keeps | with_reducible apply pkKick_keeps | with_reducible apply fencePkUnit_keeps | split)

theorem execBankLoad_keeps (lane : Fin 64) (b : Fin 2) (s : State) (hs : Keeps q s) :
    ∃ s1, execBankLoad lane b s = .next s1 ∧ Keeps q s1 := by
  unfold execBankLoad
  (try dsimp only)
  repeat' (first | with_reducible assumption | refine ⟨_, rfl, ?_⟩ | with_reducible apply ok_keeps | with_reducible apply bankLoad_keeps)

theorem execMbxiPost_keeps (lane : Fin 64) (s : State) (hs : Keeps q s) :
    ∃ s1, execMbxiPost lane s = .next s1 ∧ Keeps q s1 := by
  unfold execMbxiPost
  (try dsimp only)
  repeat' (first | with_reducible assumption | refine ⟨_, rfl, ?_⟩ | with_reducible apply ok_keeps | with_reducible apply mbxSet_keeps)

theorem execMemoryUncorrectable_keeps (lane : Fin 64) (shared : Bool) (s : State) (hs : Keeps q s) :
    ∃ s1, execMemoryUncorrectable lane shared s = .next s1 ∧ Keeps q s1 := by
  unfold execMemoryUncorrectable
  (try dsimp only)
  repeat' (first | with_reducible assumption | refine ⟨_, rfl, ?_⟩ | with_reducible apply keeps_ite | with_reducible apply ok_keeps | with_reducible apply fenceQuad_keeps | with_reducible apply fenceLane_keeps)

theorem execLaneFenceRequest_keeps (via : Option Req) (lane : Fin 64) (s : State) (hs : Keeps q s) :
    ∃ s1, execLaneFenceRequest via lane s = .next s1 ∧ Keeps q s1 := by
  unfold execLaneFenceRequest
  (try dsimp only)
  repeat' (first | with_reducible assumption | refine ⟨_, rfl, ?_⟩ | with_reducible apply ok_keeps | with_reducible apply serveWrite_keeps | with_reducible apply fxLaneFence_keeps | with_reducible apply fenceLane_keeps | split)

theorem execEpochLoadStart_keeps (s : State) (hs : Keeps q s) :
    ∃ s1, execEpochLoadStart s = .next s1 ∧ Keeps q s1 := by
  unfold execEpochLoadStart
  (try dsimp only)
  repeat' (first | intro _ | with_reducible assumption | refine ⟨_, rfl, ?_⟩ | with_reducible apply keeps_ite | with_reducible apply keeps_ite1 | with_reducible apply keeps_ite2 | with_reducible apply dropPrev_keeps | with_reducible apply ok_keeps | with_reducible apply startLoad_keeps | contradiction | split)

theorem execEpochAckTimeout_keeps (s : State) (hs : Keeps q s) :
    ∃ s1, execEpochAckTimeout s = .next s1 ∧ Keeps q s1 := by
  unfold execEpochAckTimeout
  (try dsimp only)
  repeat' (first | intro _ | with_reducible assumption | refine ⟨_, rfl, ?_⟩ | with_reducible apply keeps_ite | with_reducible apply keeps_ite1 | with_reducible apply keeps_ite2 | with_reducible apply ok_keeps | with_reducible apply failChange_keeps | with_reducible apply State.at_keeps | contradiction | split)

theorem execSpareTileSwitch_keeps (k : Fin 4) (s : State) (hs : Keeps q s) :
    ∃ s1, execSpareTileSwitch k s = .next s1 ∧ Keeps q s1 := by
  unfold execSpareTileSwitch
  (try dsimp only)
  repeat' (first | intro _ | with_reducible assumption | refine ⟨_, rfl, ?_⟩ | with_reducible apply keeps_ite | with_reducible apply keeps_ite1 | with_reducible apply keeps_ite2 | with_reducible apply ok_keeps | with_reducible apply failSpareUnit_keeps | with_reducible apply spareJoin_keeps | contradiction | split)

theorem execEpochFlip_keeps (s : State) (hs : Keeps q s) :
    ∃ s1, execEpochFlip s = .next s1 ∧ Keeps q s1 := by
  unfold execEpochFlip
  (try dsimp only)
  repeat' (first | intro _ | with_reducible assumption | refine ⟨_, rfl, ?_⟩ | with_reducible apply keeps_ite | with_reducible apply keeps_ite1 | with_reducible apply keeps_ite2 | with_reducible apply ok_keeps | with_reducible apply flip_keeps | with_reducible apply State.at_keeps | contradiction | split)

theorem execTevtClear_keeps (lane : Fin 64) (v : Word) (s : State) (hs : Keeps q s) :
    ∃ s1, execTevtClear lane v s = .next s1 ∧ Keeps q s1 := by
  unfold execTevtClear
  (try dsimp only)
  repeat' (first | with_reducible assumption | refine ⟨_, rfl, ?_⟩ | with_reducible apply ok_keeps | with_reducible apply tevtClear_keeps)

theorem execBodyMoveDone_keeps (lane : Fin 64) (slot : Fin 32) (s : State) (hs : Keeps q s) :
    ∃ s1, execBodyMoveDone lane slot s = .next s1 ∧ Keeps q s1 := by
  unfold execBodyMoveDone
  (try dsimp only)
  repeat' (first | intro _ | with_reducible assumption | refine ⟨_, rfl, ?_⟩ | with_reducible apply keeps_ite | with_reducible apply ok_keeps | with_reducible apply State.at_keeps | with_reducible apply State.setJob_keeps | split)

theorem execEpochChangeRequest_keeps (r : Req) (s : State) (hs : Keeps q s) :
    ∃ s1, execEpochChangeRequest r s = .next s1 ∧ Keeps q s1 := by
  unfold execEpochChangeRequest
  (try dsimp only)
  repeat' (first | with_reducible assumption | refine ⟨_, rfl, ?_⟩ | with_reducible apply ok_keeps | with_reducible apply serveWrite_keeps | with_reducible apply fxFlip_keeps)

theorem execMbxiAck_keeps (lane : Fin 64) (s : State) (hs : Keeps q s) :
    ∃ s1, execMbxiAck lane s = .next s1 ∧ Keeps q s1 := by
  unfold execMbxiAck
  (try dsimp only)
  repeat' (first | intro _ | with_reducible assumption | refine ⟨_, rfl, ?_⟩ | with_reducible apply keeps_ite | with_reducible apply ok_keeps | with_reducible apply mbxClear_keeps)

theorem rsaSign_keeps (pss : Bool) (key : Bytes) (oper : Bytes) (s : State) (hs : Keeps q s) :
    Keeps q (rsaSign pss key oper s).2.2 := by
  unfold rsaSign
  (try dsimp only)
  repeat' (first | with_reducible assumption | with_reducible apply keeps_ite | with_reducible apply keeps_ite2 | with_reducible apply State.draw_keeps | contradiction | split)

theorem pkCompute_keeps (j : PkJob) (s : State) (hs : Keeps q s) : Keeps q (pkCompute j s).2.2 := by
  unfold pkCompute
  extract_lets op c key oper kb bad
  have he (cv : Curve) : Keeps q (ecdsaDraw cv (beNat key) oper s).2 := ecdsaDraw_keeps _ _ _ _ hs
  have hx (cv : Curve) : Keeps q (match (ecdsaDraw cv (beNat key) oper s).1 with
      | some sig => ((0 : Nat), sig, (ecdsaDraw cv (beNat key) oper s).2)
      | none => (tPK_INPUT, ([] : Bytes), (ecdsaDraw cv (beNat key) oper s).2)).2.2 := by
    split <;> exact he cv
  repeat' (first | exact hs | exact hx _ | exact rsaSign_keeps _ _ _ _ hs | exact ecdsaDraw_keeps _ _ _ _ hs | (with_reducible apply keeps_ite22) | split)

theorem pkSettle_keeps (e : Nat) (j : PkJob) (s : State) (hs : Keeps q s) : Keeps q (pkSettle e j s) := by
  unfold pkSettle
  refine keeps_ite hs (keeps_ite (pkSet_keeps _ _ _ (State.bump_keeps _ _ _ hs)) (keeps_ite hs ?_))
  exact State.setEng_keeps _ _ _ (pkSet_keeps _ _ _ (keeps_ite22 (pkCompute_keeps _ _ hs) hs))

theorem pkOp_keeps (op : Nat) (e : Nat) (s : State) (hs : Keeps q s) :
    Keeps q (pkOp op e s) := by
  unfold pkOp
  (try dsimp only)
  repeat' (first | with_reducible assumption | with_reducible apply keeps_ite | with_reducible apply pkSettle_keeps | contradiction | split)

theorem execPkRsaVerifyPkcs1_keeps (e : Fin 24) (s : State) (hs : Keeps q s) :
    ∃ s1, execPkRsaVerifyPkcs1 e s = .next s1 ∧ Keeps q s1 := by
  unfold execPkRsaVerifyPkcs1
  (try dsimp only)
  repeat' (first | intro _ | with_reducible assumption | refine ⟨_, rfl, ?_⟩ | with_reducible apply keeps_ite | with_reducible apply ok_keeps | with_reducible apply pkOp_keeps)

theorem bgAbort_keeps (d : Nat) (s : State) (hs : Keeps q s) :
    Keeps q (bgAbort d s) := by
  unfold bgAbort
  (try dsimp only)
  repeat' (first | intro _ | with_reducible assumption | with_reducible apply keeps_ite | with_reducible apply genPump_keeps | with_reducible apply bgEnd_keeps | with_reducible apply State.setBg_keeps | with_reducible apply pkRemove_keeps | contradiction | split)

theorem execPkeBgAbort_keeps (die : Fin 2) (s : State) (hs : Keeps q s) :
    ∃ s1, execPkeBgAbort die s = .next s1 ∧ Keeps q s1 := by
  unfold execPkeBgAbort
  (try dsimp only)
  repeat' (first | with_reducible assumption | refine ⟨_, rfl, ?_⟩ | with_reducible apply ok_keeps | with_reducible apply bgAbort_keeps)

theorem unfenceEng_keeps (e : Nat) (s : State) (hs : Keeps q s) :
    Keeps q (unfenceEng e s) := by
  unfold unfenceEng
  (try dsimp only)
  repeat' (first | with_reducible assumption | with_reducible apply keeps_ite | with_reducible apply bgTry_keeps | with_reducible apply settleDegraded_keeps | with_reducible apply State.setEng_keeps)

theorem fxPkFence_keeps (e : Nat) (s : State) (_role : Nat) (v : Bytes) (hs : Keeps q s) :
    Keeps q (fxPkFence e s _role v).st := by
  unfold fxPkFence
  (try dsimp only)
  repeat' (first | with_reducible assumption | with_reducible apply keeps_ite | with_reducible apply ansOK_keeps | with_reducible apply fencePkUnit_keeps | with_reducible apply unfenceEng_keeps)

theorem execPkFenceRequest_keeps (r : Req) (e : Fin 24) (s : State) (hs : Keeps q s) :
    ∃ s1, execPkFenceRequest r e s = .next s1 ∧ Keeps q s1 := by
  unfold execPkFenceRequest
  (try dsimp only)
  repeat' (first | with_reducible assumption | refine ⟨_, rfl, ?_⟩ | with_reducible apply ok_keeps | with_reducible apply serveWrite_keeps | with_reducible apply fxPkFence_keeps)

theorem execPkEddsaSign_keeps (e : Fin 24) (s : State) (hs : Keeps q s) :
    ∃ s1, execPkEddsaSign e s = .next s1 ∧ Keeps q s1 := by
  unfold execPkEddsaSign
  (try dsimp only)
  repeat' (first | intro _ | with_reducible assumption | refine ⟨_, rfl, ?_⟩ | with_reducible apply keeps_ite | with_reducible apply ok_keeps | with_reducible apply pkOp_keeps)

theorem laneResult_keeps (jn : Nat) (t : Nat) (st : Nat) (res : Bytes) (s : State) (hs : Keeps q s) :
    Keeps q (laneResult jn t st res s) := by
  unfold laneResult
  (try dsimp only)
  repeat' (first | with_reducible assumption | with_reducible apply keeps_ite | with_reducible apply State.setJob_keeps)

theorem execPkRsaKeygen_keeps (e : Fin 24) (p : Nat) (z2 : Nat) (s : State) (hs : Keeps q s) :
    ∃ s1, execPkRsaKeygen e p z2 s = .next s1 ∧ Keeps q s1 := by
  unfold execPkRsaKeygen
  (try dsimp only)
  repeat' (first | with_reducible assumption | refine ⟨_, rfl, ?_⟩ | with_reducible apply keeps_ite | with_reducible apply ok_keeps | with_reducible apply State.draw_keeps | with_reducible apply pkSet_keeps | split)

theorem execPkFenceRelease_keeps (r : Req) (e : Fin 24) (s : State) (hs : Keeps q s) :
    ∃ s1, execPkFenceRelease r e s = .next s1 ∧ Keeps q s1 := by
  unfold execPkFenceRelease
  (try dsimp only)
  repeat' (first | with_reducible assumption | refine ⟨_, rfl, ?_⟩ | with_reducible apply ok_keeps | with_reducible apply serveWrite_keeps | with_reducible apply fxPkFence_keeps)

theorem endVasJob_keeps (j : PkJob) (st : Nat) (s : State) (hs : Keeps q s) :
    Keeps q (endVasJob j st s) := by
  unfold endVasJob
  (try dsimp only)
  repeat' (first | with_reducible assumption | with_reducible apply keeps_ite | with_reducible apply State.setJob_keeps | with_reducible apply laneResult_keeps | with_reducible apply State.bump_keeps | with_reducible apply fencePkUnit_keeps | with_reducible apply logEvent_keeps | contradiction | split)

theorem toVas_keeps (jn : Nat) (h : Nat) (j : PkJob) (sig : Bytes) (s : State) (hs : Keeps q s) :
    Keeps q (toVas jn h j sig s) := by
  unfold toVas
  (try dsimp only)
  repeat' (first | with_reducible assumption | with_reducible apply pkSet_keeps | contradiction | split)

theorem endLaneJob_keeps (j : PkJob) (st : Nat) (res : Bytes) (s : State) (hs : Keeps q s) :
    Keeps q (endLaneJob j st res s) := by
  unfold endLaneJob
  (try dsimp only)
  repeat' (first | with_reducible assumption | with_reducible apply keeps_ite | with_reducible apply toVas_keeps | with_reducible apply pkCancel_keeps | with_reducible apply laneResult_keeps | with_reducible apply State.setJob_keeps | contradiction | split)

theorem genDone_keeps (d : Nat) (key : Bytes) (s : State) (hs : Keeps q s) :
    Keeps q (genDone d key s) := by
  unfold genDone
  (try dsimp only)
  repeat' (first | intro _ | with_reducible assumption | with_reducible apply keeps_ite | with_reducible apply State.setNode_keeps | with_reducible apply stageKey_keeps | with_reducible apply failSlot_keeps | with_reducible apply groupPrepare_keeps | with_reducible apply storeKey_keeps | with_reducible apply doneSlot_keeps | contradiction | split | (simp only [keeps_mk]; with_reducible apply Keeps.both))

theorem endBgJob_keeps (e : Nat) (j : PkJob) (st : Nat) (res : Bytes) (s : State) (hs : Keeps q s) :
    Keeps q (endBgJob e j st res s) := by
  unfold endBgJob
  (try dsimp only)
  repeat' (first | intro _ | with_reducible assumption | with_reducible apply keeps_ite | with_reducible apply keeps_ite1 | with_reducible apply keeps_ite2 | with_reducible apply State.bump_keeps | with_reducible apply State.setNum_keeps | with_reducible apply genDone_keeps | with_reducible apply dma_keeps | with_reducible apply fabWrite_keeps | with_reducible apply genPump_keeps | with_reducible apply bgEnd_keeps)

theorem pkFinish_keeps (e : Nat) (j : PkJob) (st : Nat) (res : Bytes) (s : State) (hs : Keeps q s) :
    Keeps q (pkFinish e j st res s) := by
  unfold pkFinish
  (try dsimp only)
  repeat' (first | with_reducible assumption | with_reducible apply keeps_ite | with_reducible apply State.setEng_keeps | with_reducible apply State.bump_keeps | with_reducible apply pkRemove_keeps | with_reducible apply endLaneJob_keeps | with_reducible apply endVasJob_keeps | with_reducible apply audSigned_keeps | with_reducible apply endBgJob_keeps | with_reducible apply rearmIdle_keeps | contradiction | split)

theorem execPkKeyAgreement_keeps (e : Fin 24) (s : State) (hs : Keeps q s) :
    ∃ s1, execPkKeyAgreement e s = .next s1 ∧ Keeps q s1 := by
  unfold execPkKeyAgreement
  (try dsimp only)
  repeat' (first | intro _ | with_reducible assumption | refine ⟨_, rfl, ?_⟩ | with_reducible apply keeps_ite | with_reducible apply ok_keeps | with_reducible apply pkOp_keeps)

theorem pendCurve_keeps (c : Nat) (r : Bytes) (s : State) (hs : Keeps q s) :
    Keeps q (pendCurve c r s) := ⟨hs.1, hs.2, hs.3⟩

theorem curveErr_keeps (r : Bytes) (s : State) (hs : Keeps q s) :
    Keeps q (curveErr r s).2 := by
  unfold curveErr
  (try dsimp only)
  repeat' (first | intro _ | with_reducible assumption | with_reducible apply keeps_ite | with_reducible apply keeps_ite2 | with_reducible apply State.draw_keeps)

theorem fxCurve_keeps (c : Nat) (s : State) (role : Nat) (v : Bytes) (hs : Keeps q s) :
    Keeps q (fxCurve c s role v).st := by
  unfold fxCurve
  (try dsimp only)
  repeat' (first | intro _ | with_reducible assumption | with_reducible apply keeps_ite | with_reducible apply startOp_keeps | with_reducible apply failSlot_keeps | with_reducible apply doneSlot_keeps | with_reducible apply pendCurve_keeps | with_reducible apply curveErr_keeps | with_reducible apply mrMeasure_keeps)

theorem execPkRsaPublic_keeps (e : Fin 24) (s : State) (hs : Keeps q s) :
    ∃ s1, execPkRsaPublic e s = .next s1 ∧ Keeps q s1 := by
  unfold execPkRsaPublic
  (try dsimp only)
  repeat' (first | intro _ | with_reducible assumption | refine ⟨_, rfl, ?_⟩ | with_reducible apply keeps_ite | with_reducible apply ok_keeps | with_reducible apply pkOp_keeps)

theorem execPkJobRelease_keeps (e : Fin 24) (s : State) (hs : Keeps q s) :
    ∃ s1, execPkJobRelease e s = .next s1 ∧ Keeps q s1 := by
  unfold execPkJobRelease
  (try dsimp only)
  repeat' (first | intro _ | with_reducible assumption | refine ⟨_, rfl, ?_⟩ | with_reducible apply keeps_ite | with_reducible apply ok_keeps | with_reducible apply pkRelease_keeps | split)

theorem execCurveInstall_keeps (r : Req) (c : Fin 16) (s : State) (hs : Keeps q s) :
    ∃ s1, execCurveInstall r c s = .next s1 ∧ Keeps q s1 := by
  unfold execCurveInstall
  (try dsimp only)
  repeat' (first | with_reducible assumption | refine ⟨_, rfl, ?_⟩ | with_reducible apply ok_keeps | with_reducible apply serveWrite_keeps | with_reducible apply fxCurve_keeps)

theorem pkSwitch_keeps (e : Nat) (t : Nat) (j : PkJob) (s : State) (hs : Keeps q s) :
    Keeps q (pkSwitch e t j s) := by
  unfold pkSwitch
  (try dsimp only)
  repeat' (first | with_reducible assumption | with_reducible apply keeps_ite | with_reducible apply State.bump_keeps | with_reducible apply State.setEng_keeps | with_reducible apply pkFirst_keeps | contradiction | split)

theorem execPkYieldPoint_keeps (e : Fin 24) (n : Fin 2001) (s : State) (hs : Keeps q s) :
    ∃ s1, execPkYieldPoint e n s = .next s1 ∧ Keeps q s1 := by
  unfold execPkYieldPoint
  (try dsimp only)
  repeat' (first | with_reducible assumption | refine ⟨_, rfl, ?_⟩ | with_reducible apply keeps_ite | with_reducible apply ok_keeps | with_reducible apply State.at_keeps | with_reducible apply pkSet_keeps | with_reducible apply State.setEng_keeps | with_reducible apply rearmIdle_keeps | with_reducible apply pkRemove_keeps | with_reducible apply pkFinish_keeps | with_reducible apply pkSwitch_keeps | split)

theorem execPkRsaVerifyPss_keeps (e : Fin 24) (s : State) (hs : Keeps q s) :
    ∃ s1, execPkRsaVerifyPss e s = .next s1 ∧ Keeps q s1 := by
  unfold execPkRsaVerifyPss
  (try dsimp only)
  repeat' (first | intro _ | with_reducible assumption | refine ⟨_, rfl, ?_⟩ | with_reducible apply keeps_ite | with_reducible apply ok_keeps | with_reducible apply pkOp_keeps)

theorem execPkRsaSignPss_keeps (e : Fin 24) (s : State) (hs : Keeps q s) :
    ∃ s1, execPkRsaSignPss e s = .next s1 ∧ Keeps q s1 := by
  unfold execPkRsaSignPss
  (try dsimp only)
  repeat' (first | intro _ | with_reducible assumption | refine ⟨_, rfl, ?_⟩ | with_reducible apply keeps_ite | with_reducible apply ok_keeps | with_reducible apply pkOp_keeps)

theorem execPkDrbgReseed_keeps (e : Fin 24) (s : State) (hs : Keeps q s) :
    ∃ s1, execPkDrbgReseed e s = .next s1 ∧ Keeps q s1 := by
  unfold execPkDrbgReseed
  (try dsimp only)
  repeat' (first | with_reducible assumption | refine ⟨_, rfl, ?_⟩ | with_reducible apply keeps_ite | with_reducible apply ok_keeps | with_reducible apply State.setEng_keeps)

theorem execPkEcdsaVerify_keeps (e : Fin 24) (s : State) (hs : Keeps q s) :
    ∃ s1, execPkEcdsaVerify e s = .next s1 ∧ Keeps q s1 := by
  unfold execPkEcdsaVerify
  (try dsimp only)
  repeat' (first | intro _ | with_reducible assumption | refine ⟨_, rfl, ?_⟩ | with_reducible apply keeps_ite | with_reducible apply ok_keeps | with_reducible apply pkOp_keeps)

theorem execPkRsaPrivate_keeps (e : Fin 24) (s : State) (hs : Keeps q s) :
    ∃ s1, execPkRsaPrivate e s = .next s1 ∧ Keeps q s1 := by
  unfold execPkRsaPrivate
  (try dsimp only)
  repeat' (first | with_reducible assumption | refine ⟨_, rfl, ?_⟩ | with_reducible apply ok_keeps | with_reducible apply pkOp_keeps)

theorem execPkEcdsaSign_keeps (e : Fin 24) (s : State) (hs : Keeps q s) :
    ∃ s1, execPkEcdsaSign e s = .next s1 ∧ Keeps q s1 := by
  unfold execPkEcdsaSign
  (try dsimp only)
  repeat' (first | intro _ | with_reducible assumption | refine ⟨_, rfl, ?_⟩ | with_reducible apply keeps_ite | with_reducible apply ok_keeps | with_reducible apply pkOp_keeps)

theorem execPkRsaSignPkcs1_keeps (e : Fin 24) (s : State) (hs : Keeps q s) :
    ∃ s1, execPkRsaSignPkcs1 e s = .next s1 ∧ Keeps q s1 := by
  unfold execPkRsaSignPkcs1
  (try dsimp only)
  repeat' (first | intro _ | with_reducible assumption | refine ⟨_, rfl, ?_⟩ | with_reducible apply keeps_ite | with_reducible apply ok_keeps | with_reducible apply pkOp_keeps)

theorem execCurveUnload_keeps (r : Req) (c : Fin 16) (s : State) (hs : Keeps q s) :
    ∃ s1, execCurveUnload r c s = .next s1 ∧ Keeps q s1 := by
  unfold execCurveUnload
  (try dsimp only)
  repeat' (first | with_reducible assumption | refine ⟨_, rfl, ?_⟩ | with_reducible apply ok_keeps | with_reducible apply serveWrite_keeps | with_reducible apply fxCurve_keeps)

theorem execPkEddsaVerify_keeps (e : Fin 24) (s : State) (hs : Keeps q s) :
    ∃ s1, execPkEddsaVerify e s = .next s1 ∧ Keeps q s1 := by
  unfold execPkEddsaVerify
  (try dsimp only)
  repeat' (first | intro _ | with_reducible assumption | refine ⟨_, rfl, ?_⟩ | with_reducible apply keeps_ite | with_reducible apply ok_keeps | with_reducible apply pkOp_keeps)

theorem bgGo_keeps (d : Nat) (s : State) (hs : Keeps q s) :
    Keeps q (bgGo d s) := by
  unfold bgGo
  (try dsimp only)
  repeat' (first | with_reducible assumption | with_reducible apply keeps_ite | with_reducible apply bgEnd_keeps | with_reducible apply bgSubmit_keeps)

theorem execPkeBgGo_keeps (die : Fin 2) (s : State) (hs : Keeps q s) :
    ∃ s1, execPkeBgGo die s = .next s1 ∧ Keeps q s1 := by
  unfold execPkeBgGo
  (try dsimp only)
  repeat' (first | with_reducible assumption | refine ⟨_, rfl, ?_⟩ | with_reducible apply ok_keeps | with_reducible apply bgGo_keeps)

theorem execPkJobEnd_keeps (e : Fin 24) (s : State) (hs : Keeps q s) :
    ∃ s1, execPkJobEnd e s = .next s1 ∧ Keeps q s1 := by
  unfold execPkJobEnd
  (try dsimp only)
  repeat' (first | with_reducible assumption | refine ⟨_, rfl, ?_⟩ | with_reducible apply keeps_ite | with_reducible apply ok_keeps | with_reducible apply pkSettle_keeps | with_reducible apply rearmIdle_keeps | with_reducible apply pkRemove_keeps | with_reducible apply State.at_keeps | with_reducible apply pkFinish_keeps | split)

theorem execRsaGenLimit_keeps (die : Fin 2) (s : State) (hs : Keeps q s) :
    ∃ s1, execRsaGenLimit die s = .next s1 ∧ Keeps q s1 := by
  unfold execRsaGenLimit
  (try dsimp only)
  repeat' (first | intro _ | with_reducible assumption | refine ⟨_, rfl, ?_⟩ | with_reducible apply keeps_ite | with_reducible apply ok_keeps | with_reducible apply pkFinish_keeps | with_reducible apply State.at_keeps | split)

theorem execBgClaimTimeout_keeps (die : Fin 2) (s : State) (hs : Keeps q s) :
    ∃ s1, execBgClaimTimeout die s = .next s1 ∧ Keeps q s1 := by
  unfold execBgClaimTimeout
  (try dsimp only)
  repeat' (first | intro _ | with_reducible assumption | refine ⟨_, rfl, ?_⟩ | with_reducible apply keeps_ite | with_reducible apply keeps_ite1 | with_reducible apply keeps_ite2 | with_reducible apply ok_keeps | with_reducible apply State.at_keeps | with_reducible apply State.setBg_keeps | with_reducible apply State.setEng_keeps | contradiction | split)

theorem execVasVerify_keeps (e : Fin 24) (bad : Bool) (s : State) (hs : Keeps q s) :
    ∃ s1, execVasVerify e bad s = .next s1 ∧ Keeps q s1 := by
  unfold execVasVerify
  (try dsimp only)
  repeat' (first | with_reducible assumption | refine ⟨_, rfl, ?_⟩ | with_reducible apply keeps_ite | with_reducible apply ok_keeps | with_reducible apply pkSet_keeps | with_reducible apply State.bump_keeps | with_reducible apply pkSettle_keeps | split)

theorem execPkPublicFromPrivate_keeps (e : Fin 24) (s : State) (hs : Keeps q s) :
    ∃ s1, execPkPublicFromPrivate e s = .next s1 ∧ Keeps q s1 := by
  unfold execPkPublicFromPrivate
  (try dsimp only)
  repeat' (first | intro _ | with_reducible assumption | refine ⟨_, rfl, ?_⟩ | with_reducible apply keeps_ite | with_reducible apply ok_keeps | with_reducible apply pkOp_keeps)

end Sys2Proof.Machine
end

