-- ==== Sys2Proof/Laws/KeepsKeys.lean ====
section
/-!
SUPPORT. What every function keeps (keys, tamper, digests and images): the queue of waiting commands, the canonical form of the MRAM,
and every fuse bit that is blown. One lemma per function; later lemmas cite the earlier ones.
-/
namespace Sys2Proof.Machine
variable {q : State}

theorem endKc_keeps (k : Nat) (code : Nat) (res : Bytes) (s : State) (hs : Keeps q s) :
    Keeps q (endKc k code res s) := by
  unfold endKc
  (try dsimp only)
  repeat' (first | with_reducible assumption | with_reducible apply keeps_ite | with_reducible apply doneSlot_keeps | with_reducible apply failSlot_keeps | (simp only [keeps_mk]; with_reducible apply Keeps.both))

theorem stageWith_keeps (b : Bytes) (k : Nat) (origin : Nat) (key : Bytes) (s : State) (hs : Keeps q s) :
    Keeps q (stageWith b k origin key s) := by
  unfold stageWith
  (try dsimp only)
  repeat' (first | with_reducible assumption | with_reducible apply keeps_ite | with_reducible apply stageKey_keeps | with_reducible apply endKc_keeps)

theorem runStage_keeps (b : Bytes) (k : Nat) (s : State) (hs : Keeps q s) :
    Keeps q (runStage b k s) := by
  unfold runStage
  (try dsimp only)
  repeat' (first | with_reducible assumption | (with_reducible refine genKey_keeps (he := by assumption) ?_) | with_reducible apply keeps_ite | with_reducible apply endKc_keeps | with_reducible apply State.setNode_keeps | with_reducible apply genPump_keeps | with_reducible apply stageWith_keeps | with_reducible apply importKey_keeps | with_reducible apply State.setRepl_keeps | contradiction | split | (simp only [keeps_mk]; with_reducible apply Keeps.both))

theorem scanPass_keeps (sc : Scan) (rest : List Scan) (s : State) (hs : Keeps q s) :
    Keeps q (scanPass sc rest s) := by
  unfold scanPass
  (try dsimp only)
  repeat' (first | intro _ | with_reducible assumption | with_reducible apply keeps_ite | with_reducible apply State.at_keeps | with_reducible apply State.bumpBy_keeps | (simp only [keeps_mk]; with_reducible apply Keeps.both))

theorem freeOld_keeps (o : OldRun) (s : State) (hs : Keeps q s) :
    Keeps q (freeOld o s) := by
  unfold freeOld
  (try dsimp only)
  repeat' (first | intro _ | with_reducible assumption | with_reducible apply keeps_ite | with_reducible apply freeRun_keeps | with_reducible apply setChg_keeps | with_reducible apply endKc_keeps | contradiction | split | (simp only [keeps_mk]; with_reducible apply Keeps.both))

theorem runNode_keeps (id : Nat) (k : Nat) (r : KC) (s : State) (hr : Keeps q r.st) (hs : Keeps q s) :
    Keeps q (runNode id k r s) := by
  unfold runNode
  (try dsimp only)
  repeat' (first | with_reducible assumption | with_reducible apply keeps_ite | with_reducible apply endKc_keeps | with_reducible apply groupPrepare_keeps | (simp only [keeps_mk]; with_reducible apply Keeps.both))

theorem fillBank_keeps (m : BusMsg) (st : Nat) (s : State) (hs : Keeps q s) :
    Keeps q (fillBank m st s) := by
  unfold fillBank
  (try dsimp only)
  repeat' (first | with_reducible assumption | with_reducible apply keeps_ite | with_reducible apply pkKick_keeps | with_reducible apply pkSet_keeps | contradiction | split)

theorem runGenerate_keeps (b : Bytes) (k : Nat) (s : State) (hs : Keeps q s) :
    Keeps q (runGenerate b k s) := by
  unfold runGenerate
  (try dsimp only)
  repeat' (first | with_reducible assumption | with_reducible apply keeps_ite | with_reducible apply endKc_keeps | with_reducible apply genPump_keeps | with_reducible apply runNode_keeps | with_reducible apply kcGenerate_keeps | (simp only [keeps_mk]; with_reducible apply Keeps.both))

theorem runPlain_keeps (k : Nat) (r : KC) (hr : Keeps q r.st) :
    Keeps q (runPlain k r) := by
  unfold runPlain
  (try dsimp only)
  repeat' (first | with_reducible assumption | with_reducible apply endKc_keeps)

theorem runCommit_keeps (b : Bytes) (k : Nat) (s : State) (hs : Keeps q s) :
    Keeps q (runCommit b k s) := by
  unfold runCommit
  (try dsimp only)
  repeat' (first | with_reducible assumption | with_reducible apply keeps_ite | with_reducible apply endKc_keeps | with_reducible apply chgCommit_keeps | with_reducible apply commitPoint_keeps | contradiction | split)

theorem abortRepl_keeps (id : Nat) (s : State) (hs : Keeps q s) :
    Keeps q (abortRepl id s) := by
  unfold abortRepl
  (try dsimp only)
  repeat' (first | intro _ | with_reducible assumption | with_reducible apply unstage_keeps | with_reducible apply endSlot_keeps | with_reducible apply chgAbort_keeps | contradiction | split | (simp only [keeps_mk]; with_reducible apply Keeps.both))

theorem runAbort_keeps (b : Bytes) (k : Nat) (s : State) (hs : Keeps q s) :
    Keeps q (runAbort b k s) := by
  unfold runAbort
  (try dsimp only)
  repeat' (first | with_reducible assumption | with_reducible apply keeps_ite | with_reducible apply endKc_keeps | with_reducible apply abortRepl_keeps)

theorem runKey_keeps (b : Bytes) (k : Nat) (s : State) (hs : Keeps q s) :
    Keeps q (runKey b k s) := by
  unfold runKey
  (try dsimp only)
  repeat' (first | with_reducible assumption | with_reducible apply keeps_ite | with_reducible apply endKc_keeps | with_reducible apply runNode_keeps | with_reducible apply kcCreate_keeps | with_reducible apply kcDelete_keeps | with_reducible apply runGenerate_keeps | with_reducible apply kcLoad_keeps | with_reducible apply runPlain_keeps | with_reducible apply kcSave_keeps | with_reducible apply kcImport_keeps | with_reducible apply kcExport_keeps | with_reducible apply runStage_keeps | with_reducible apply runCommit_keeps | with_reducible apply runAbort_keeps | with_reducible apply kcAttest_keeps | with_reducible apply kcRead_keeps | with_reducible apply kcLoadpub_keeps | contradiction | split | (simp only [keeps_mk]; with_reducible apply Keeps.both))

theorem fxKey_keeps (s : State) (role : Nat) (v : Bytes) (hs : Keeps q s) :
    Keeps q (fxKey s role v).st := by
  unfold fxKey
  (try dsimp only)
  repeat' (first | intro _ | with_reducible assumption | with_reducible apply keeps_ite | with_reducible apply keeps_ite1 | with_reducible apply keeps_ite2 | with_reducible apply ansErr_keeps | with_reducible apply startOp_keeps | with_reducible apply runKey_keeps | contradiction | split)

theorem serveKey_keeps (op : Nat) (r : Req) (s : State) (hs : Keeps q s) :
    Keeps q (serveKey op r s) := by
  unfold serveKey
  (try dsimp only)
  repeat' (first | with_reducible assumption | with_reducible apply keeps_ite | with_reducible apply serveWrite_keeps | with_reducible apply fxKey_keeps)

theorem stageFails_keeps (id : Nat) (code : Nat) (s : State) (hs : Keeps q s) :
    Keeps q (stageFails id code s) := by
  unfold stageFails
  (try dsimp only)
  repeat' (first | with_reducible assumption | with_reducible apply unstage_keeps | with_reducible apply endKc_keeps | contradiction | split)

theorem verified_keeps (id : Nat) (s : State) (hs : Keeps q s) :
    Keeps q (verified id s) := by
  unfold verified
  (try dsimp only)
  repeat' (first | with_reducible assumption | with_reducible apply keeps_ite | with_reducible apply stageFails_keeps | with_reducible apply State.setNode_keeps | with_reducible apply groupPrepare_keeps | with_reducible apply prepared_keeps)

theorem fillCache_keeps (z0 : Nat) (m : BusMsg) (st : Nat) (s : State) (hs : Keeps q s) :
    Keeps q (fillCache z0 m st s) := by
  unfold fillCache
  (try dsimp only)
  repeat' (first | with_reducible assumption | with_reducible apply keeps_ite | with_reducible apply State.bump_keeps | with_reducible apply setCache_keeps)

theorem markBad_keeps (id : Nat) (badNode : Bool) (badSlot : Bool) (s : State) (hs : Keeps q s) :
    Keeps q (markBad id badNode badSlot s) := by
  unfold markBad
  (try dsimp only)
  repeat' (first | with_reducible assumption | with_reducible apply keeps_ite | with_reducible apply State.setNode_keeps | with_reducible apply State.setRun_keeps | contradiction | split)

theorem execKeyGenerate_keeps (r : Req) (s : State) (hs : Keeps q s) :
    ∃ s1, execKeyGenerate r s = .next s1 ∧ Keeps q s1 := by
  unfold execKeyGenerate
  (try dsimp only)
  repeat' (first | intro _ | with_reducible assumption | refine ⟨_, rfl, ?_⟩ | with_reducible apply keeps_ite | with_reducible apply ok_keeps | with_reducible apply serveKey_keeps)

theorem execKeyImport_keeps (r : Req) (s : State) (hs : Keeps q s) :
    ∃ s1, execKeyImport r s = .next s1 ∧ Keeps q s1 := by
  unfold execKeyImport
  (try dsimp only)
  repeat' (first | intro _ | with_reducible assumption | refine ⟨_, rfl, ?_⟩ | with_reducible apply keeps_ite | with_reducible apply ok_keeps | with_reducible apply serveKey_keeps)

theorem execCoherenceScanPass_keeps (s : State) (hs : Keeps q s) :
    ∃ s1, execCoherenceScanPass s = .next s1 ∧ Keeps q s1 := by
  unfold execCoherenceScanPass
  (try dsimp only)
  repeat' (first | with_reducible assumption | refine ⟨_, rfl, ?_⟩ | with_reducible apply ok_keeps | with_reducible apply scanPass_keeps | split)

theorem execReplacementVerified_keeps (node : BitVec 18) (s : State) (hs : Keeps q s) :
    ∃ s1, execReplacementVerified node s = .next s1 ∧ Keeps q s1 := by
  unfold execReplacementVerified
  (try dsimp only)
  repeat' (first | intro _ | with_reducible assumption | refine ⟨_, rfl, ?_⟩ | with_reducible apply keeps_ite | with_reducible apply keeps_ite1 | with_reducible apply keeps_ite2 | with_reducible apply ok_keeps | with_reducible apply verified_keeps | contradiction | split)

theorem execKeyLoadpub_keeps (r : Req) (s : State) (hs : Keeps q s) :
    ∃ s1, execKeyLoadpub r s = .next s1 ∧ Keeps q s1 := by
  unfold execKeyLoadpub
  (try dsimp only)
  repeat' (first | intro _ | with_reducible assumption | refine ⟨_, rfl, ?_⟩ | with_reducible apply keeps_ite | with_reducible apply ok_keeps | with_reducible apply serveKey_keeps)

theorem execKeyLoad_keeps (r : Req) (s : State) (hs : Keeps q s) :
    ∃ s1, execKeyLoad r s = .next s1 ∧ Keeps q s1 := by
  unfold execKeyLoad
  (try dsimp only)
  repeat' (first | intro _ | with_reducible assumption | refine ⟨_, rfl, ?_⟩ | with_reducible apply keeps_ite | with_reducible apply ok_keeps | with_reducible apply serveKey_keeps)

theorem execOldRunFree_keeps (s : State) (hs : Keeps q s) :
    ∃ s1, execOldRunFree s = .next s1 ∧ Keeps q s1 := by
  unfold execOldRunFree
  (try dsimp only)
  repeat' (first | with_reducible assumption | refine ⟨_, rfl, ?_⟩ | with_reducible apply ok_keeps | with_reducible apply freeOld_keeps | split)

theorem execKeyDelivery_keeps (pipe : Fin 8) (badNode : Bool) (badSlot : Bool) (s : State) (hs : Keeps q s) :
    ∃ s1, execKeyDelivery pipe badNode badSlot s = .next s1 ∧ Keeps q s1 := by
  unfold execKeyDelivery
  (try dsimp only)
  repeat' (first | with_reducible assumption | refine ⟨_, rfl, ?_⟩ | with_reducible apply ok_keeps | with_reducible apply runDelivery_keeps | with_reducible apply markBad_keeps | split)

theorem execKeyCommit_keeps (r : Req) (s : State) (hs : Keeps q s) :
    ∃ s1, execKeyCommit r s = .next s1 ∧ Keeps q s1 := by
  unfold execKeyCommit
  (try dsimp only)
  repeat' (first | intro _ | with_reducible assumption | refine ⟨_, rfl, ?_⟩ | with_reducible apply keeps_ite | with_reducible apply ok_keeps | with_reducible apply serveKey_keeps)

theorem execKeyAbort_keeps (r : Req) (s : State) (hs : Keeps q s) :
    ∃ s1, execKeyAbort r s = .next s1 ∧ Keeps q s1 := by
  unfold execKeyAbort
  (try dsimp only)
  repeat' (first | intro _ | with_reducible assumption | refine ⟨_, rfl, ?_⟩ | with_reducible apply keeps_ite | with_reducible apply ok_keeps | with_reducible apply serveKey_keeps)

theorem execKeyDelete_keeps (r : Req) (s : State) (hs : Keeps q s) :
    ∃ s1, execKeyDelete r s = .next s1 ∧ Keeps q s1 := by
  unfold execKeyDelete
  (try dsimp only)
  repeat' (first | intro _ | with_reducible assumption | refine ⟨_, rfl, ?_⟩ | with_reducible apply keeps_ite | with_reducible apply ok_keeps | with_reducible apply serveKey_keeps)

theorem execKeySave_keeps (r : Req) (s : State) (hs : Keeps q s) :
    ∃ s1, execKeySave r s = .next s1 ∧ Keeps q s1 := by
  unfold execKeySave
  (try dsimp only)
  repeat' (first | intro _ | with_reducible assumption | refine ⟨_, rfl, ?_⟩ | with_reducible apply keeps_ite | with_reducible apply ok_keeps | with_reducible apply serveKey_keeps)

theorem execKeyStage_keeps (r : Req) (s : State) (hs : Keeps q s) :
    ∃ s1, execKeyStage r s = .next s1 ∧ Keeps q s1 := by
  unfold execKeyStage
  (try dsimp only)
  repeat' (first | intro _ | with_reducible assumption | refine ⟨_, rfl, ?_⟩ | with_reducible apply keeps_ite | with_reducible apply ok_keeps | with_reducible apply serveKey_keeps)

theorem execKeyBusMessage_keeps (die : Fin 2) (bad : Bool) (s : State) (hs : Keeps q s) :
    ∃ s1, execKeyBusMessage die bad s = .next s1 ∧ Keeps q s1 := by
  unfold execKeyBusMessage
  (try dsimp only)
  repeat' (first | intro _ | with_reducible assumption | refine ⟨_, rfl, ?_⟩ | with_reducible apply keeps_ite | with_reducible apply ok_keeps | with_reducible apply State.at_keeps | with_reducible apply logEvent_keeps | with_reducible apply State.bump_keeps | with_reducible apply fillCache_keeps | with_reducible apply fillBank_keeps | split | (simp only [keeps_mk]; with_reducible apply Keeps.both))

theorem execKeyExport_keeps (r : Req) (s : State) (hs : Keeps q s) :
    ∃ s1, execKeyExport r s = .next s1 ∧ Keeps q s1 := by
  unfold execKeyExport
  (try dsimp only)
  repeat' (first | intro _ | with_reducible assumption | refine ⟨_, rfl, ?_⟩ | with_reducible apply keeps_ite | with_reducible apply ok_keeps | with_reducible apply serveKey_keeps)

theorem execKeyRead_keeps (r : Req) (s : State) (hs : Keeps q s) :
    ∃ s1, execKeyRead r s = .next s1 ∧ Keeps q s1 := by
  unfold execKeyRead
  (try dsimp only)
  repeat' (first | intro _ | with_reducible assumption | refine ⟨_, rfl, ?_⟩ | with_reducible apply keeps_ite | with_reducible apply ok_keeps | with_reducible apply serveKey_keeps)

theorem execKeyCreate_keeps (r : Req) (s : State) (hs : Keeps q s) :
    ∃ s1, execKeyCreate r s = .next s1 ∧ Keeps q s1 := by
  unfold execKeyCreate
  (try dsimp only)
  repeat' (first | with_reducible assumption | refine ⟨_, rfl, ?_⟩ | with_reducible apply ok_keeps | with_reducible apply serveKey_keeps)

theorem execKeyAttest_keeps (r : Req) (s : State) (hs : Keeps q s) :
    ∃ s1, execKeyAttest r s = .next s1 ∧ Keeps q s1 := by
  unfold execKeyAttest
  (try dsimp only)
  repeat' (first | intro _ | with_reducible assumption | refine ⟨_, rfl, ?_⟩ | with_reducible apply keeps_ite | with_reducible apply ok_keeps | with_reducible apply serveKey_keeps)

theorem logConfig_keeps (sub : Nat) (idx : Nat) (k : Nat) (s : State) (hs : Keeps q s) :
    Keeps q (logConfig sub idx k s) := by
  unfold logConfig
  (try dsimp only)
  repeat' (first | with_reducible assumption | with_reducible apply logEvent_keeps)

theorem fxResponse_keeps (code : Nat) (s : State) (_role : Nat) (v : Bytes) (hs : Keeps q s) :
    Keeps q (fxResponse code s _role v).st := by
  unfold fxResponse
  (try dsimp only)
  repeat' (first | intro _ | with_reducible assumption | with_reducible apply keeps_ite | with_reducible apply keeps_ite1 | with_reducible apply keeps_ite2 | with_reducible apply logConfig_keeps | with_reducible apply State.setEnt_keeps | with_reducible apply ansOK_keeps | with_reducible apply tamperErase_keeps | with_reducible apply logEvent_keeps | contradiction | split)

theorem fxAlarmAck_keeps (n : Nat) (s : State) (_role : Nat) (_v : Bytes) (hs : Keeps q s) :
    Keeps q (fxAlarmAck n s _role _v).st := by
  unfold fxAlarmAck
  (try dsimp only)
  repeat' (first | with_reducible assumption | with_reducible apply logConfig_keeps | with_reducible apply ansOK_keeps | (simp only [keeps_mk]; with_reducible apply Keeps.both))

theorem setVset_keeps (v : Nat) (s : State) (hs : Keeps q s) :
    Keeps q (setVset v s) := ⟨hs.1, hs.2, hs.3⟩

theorem execAlarmOutputAck_keeps (r : Req) (n : Fin 6) (s : State) (hs : Keeps q s) :
    ∃ s1, execAlarmOutputAck r n s = .next s1 ∧ Keeps q s1 := by
  unfold execAlarmOutputAck
  (try dsimp only)
  repeat' (first | with_reducible assumption | refine ⟨_, rfl, ?_⟩ | with_reducible apply ok_keeps | with_reducible apply serveWrite_keeps | with_reducible apply fxAlarmAck_keeps)

theorem execTmpZeroWrite_keeps (v : Word) (s : State) (hs : Keeps q s) :
    ∃ s1, execTmpZeroWrite v s = .next s1 ∧ Keeps q s1 := by
  unfold execTmpZeroWrite
  (try dsimp only)
  repeat' (first | intro _ | with_reducible assumption | refine ⟨_, rfl, ?_⟩ | with_reducible apply keeps_ite | with_reducible apply keeps_ite1 | with_reducible apply keeps_ite2 | with_reducible apply ok_keeps | with_reducible apply zeroiseErase_keeps | contradiction | split)

theorem setPstep_keeps (d : Nat) (v : Nat) (s : State) (hs : Keeps q s) :
    Keeps q (setPstep d v s) := by
  unfold setPstep
  (try dsimp only)
  repeat' (first | with_reducible assumption | with_reducible apply keeps_ite | with_reducible apply State.noteSet_keeps | (simp only [keeps_mk]; with_reducible apply Keeps.both))

theorem execSlackReport_keeps (die : Fin 2) (crit : Bool) (sensor : Fin 80) (s : State) (hs : Keeps q s) :
    ∃ s1, execSlackReport die crit sensor s = .next s1 ∧ Keeps q s1 := by
  unfold execSlackReport
  (try dsimp only)
  repeat' (first | intro _ | with_reducible assumption | refine ⟨_, rfl, ?_⟩ | with_reducible apply keeps_ite | with_reducible apply keeps_ite1 | with_reducible apply keeps_ite2 | with_reducible apply ok_keeps | with_reducible apply condAssert_keeps | with_reducible apply setPstep_keeps | contradiction | split)

theorem learnChan_keeps (c : Nat) (mean : Nat) (unstable : Bool) (s : State) (hs : Keeps q s) :
    Keeps q (learnChan c mean unstable s).2 := by
  unfold learnChan
  (try dsimp only)
  repeat' (first | with_reducible assumption | with_reducible apply keeps_ite | with_reducible apply keeps_ite2 | with_reducible apply State.setNum_keeps | with_reducible apply setKept_keeps | (simp only [keeps_mk]; with_reducible apply Keeps.both))

theorem execConditionDeassert_keeps (code : Byte) (s : State) (hs : Keeps q s) :
    ∃ s1, execConditionDeassert code s = .next s1 ∧ Keeps q s1 := by
  unfold execConditionDeassert
  (try dsimp only)
  repeat' (first | intro _ | with_reducible assumption | refine ⟨_, rfl, ?_⟩ | with_reducible apply keeps_ite | with_reducible apply keeps_ite1 | with_reducible apply keeps_ite2 | with_reducible apply ok_keeps | with_reducible apply guardDeassert_keeps | with_reducible apply settleEscalation_keeps | with_reducible apply State.setCond_keeps | with_reducible apply logEvent_keeps | contradiction | split)

theorem fxLogStatement_keeps (s : State) (role : Nat) (v : Bytes) (hs : Keeps q s) :
    Keeps q (fxLogStatement s role v).st := by
  unfold fxLogStatement
  (try dsimp only)
  repeat' (first | intro _ | with_reducible assumption | with_reducible apply keeps_ite | with_reducible apply startOp_keeps | with_reducible apply failSlot_keeps | with_reducible apply idkSign_keeps | with_reducible apply doneSlot_keeps)

theorem execLogStatement_keeps (r : Req) (s : State) (hs : Keeps q s) :
    ∃ s1, execLogStatement r s = .next s1 ∧ Keeps q s1 := by
  unfold execLogStatement
  (try dsimp only)
  repeat' (first | with_reducible assumption | refine ⟨_, rfl, ?_⟩ | with_reducible apply ok_keeps | with_reducible apply serveWrite_keeps | with_reducible apply fxLogStatement_keeps)

theorem execConditionAssert_keeps (code : Byte) (sensor : BitVec 16) (s : State) (hs : Keeps q s) :
    ∃ s1, execConditionAssert code sensor s = .next s1 ∧ Keeps q s1 := by
  unfold execConditionAssert
  (try dsimp only)
  repeat' (first | with_reducible assumption | refine ⟨_, rfl, ?_⟩ | with_reducible apply ok_keeps | with_reducible apply condAssert_keeps)

theorem execGuardSample_keeps (cut : BitVec 64) (short : BitVec 64) (s : State) (hs : Keeps q s) :
    ∃ s1, execGuardSample cut short s = .next s1 ∧ Keeps q s1 := by
  unfold execGuardSample
  (try dsimp only)
  repeat' (first | intro _ | with_reducible assumption | refine ⟨_, rfl, ?_⟩ | with_reducible apply keeps_ite | with_reducible apply keeps_ite1 | with_reducible apply keeps_ite2 | with_reducible apply ok_keeps | with_reducible apply setRtc_keeps | with_reducible apply guardDeassert_keeps | with_reducible apply guardAssert_keeps | contradiction | split | with_reducible apply keeps_foldl)

theorem execConditionResponseWrite_keeps (r : Req) (code : Fin 17) (s : State) (hs : Keeps q s) :
    ∃ s1, execConditionResponseWrite r code s = .next s1 ∧ Keeps q s1 := by
  unfold execConditionResponseWrite
  (try dsimp only)
  repeat' (first | with_reducible assumption | refine ⟨_, rfl, ?_⟩ | with_reducible apply ok_keeps | with_reducible apply serveWrite_keeps | with_reducible apply fxResponse_keeps)

theorem execVddLSetpointDown_keeps (s : State) (hs : Keeps q s) :
    ∃ s1, execVddLSetpointDown s = .next s1 ∧ Keeps q s1 := by
  unfold execVddLSetpointDown
  (try dsimp only)
  repeat' (first | intro _ | with_reducible assumption | refine ⟨_, rfl, ?_⟩ | with_reducible apply keeps_ite | with_reducible apply keeps_ite1 | with_reducible apply keeps_ite2 | with_reducible apply ok_keeps | with_reducible apply State.at_keeps | with_reducible apply setVset_keeps | contradiction | split)

theorem execAlarmEnter_keeps (s : State) (hs : Keeps q s) :
    ∃ s1, execAlarmEnter s = .next s1 ∧ Keeps q s1 := by
  unfold execAlarmEnter
  (try dsimp only)
  repeat' (first | intro _ | with_reducible assumption | refine ⟨_, rfl, ?_⟩ | with_reducible apply keeps_ite | with_reducible apply keeps_ite1 | with_reducible apply keeps_ite2 | with_reducible apply ok_keeps | with_reducible apply quietDomains_keeps | with_reducible apply State.setMode_keeps | with_reducible apply logEvent_keeps | contradiction | split | (simp only [keeps_mk]; with_reducible apply Keeps.both))

theorem execLearnDone_keeps (means : List (BitVec 32)) (unstable : BitVec 64) (s : State) (hs : Keeps q s) :
    ∃ s1, execLearnDone means unstable s = .next s1 ∧ Keeps q s1 := by
  unfold execLearnDone
  (try dsimp only)
  repeat' (first | intro _ | with_reducible assumption | refine ⟨_, rfl, ?_⟩ | with_reducible apply keeps_ite | with_reducible apply keeps_ite1 | with_reducible apply keeps_ite2 | with_reducible apply ok_keeps | with_reducible apply State.at_keeps | with_reducible apply learnChan_keeps | with_reducible apply doneSlot_keeps | with_reducible apply failSlot_keeps | contradiction | split | (simp only [keeps_mk]; with_reducible apply Keeps.both) | with_reducible apply keeps_foldl | with_reducible apply keeps_foldl1 | with_reducible apply keeps_foldl2)

theorem execVddLSetpointUp_keeps (s : State) (hs : Keeps q s) :
    ∃ s1, execVddLSetpointUp s = .next s1 ∧ Keeps q s1 := by
  unfold execVddLSetpointUp
  (try dsimp only)
  repeat' (first | intro _ | with_reducible assumption | refine ⟨_, rfl, ?_⟩ | with_reducible apply keeps_ite | with_reducible apply keeps_ite1 | with_reducible apply keeps_ite2 | with_reducible apply ok_keeps | with_reducible apply State.at_keeps | with_reducible apply setVset_keeps | contradiction | split)

theorem fxZeroise_keeps (s : State) (_role : Nat) (_v : Bytes) (hs : Keeps q s) :
    Keeps q (fxZeroise s _role _v).st := by
  unfold fxZeroise
  (try dsimp only)
  repeat' (first | with_reducible assumption | with_reducible apply ansOK_keeps | with_reducible apply zeroiseErase_keeps)

theorem fxLearn_keeps (s : State) (role : Nat) (v : Bytes) (hs : Keeps q s) :
    Keeps q (fxLearn s role v).st := by
  unfold fxLearn
  (try dsimp only)
  repeat' (first | intro _ | with_reducible assumption | with_reducible apply startOp_keeps | with_reducible apply logConfig_keeps | (simp only [keeps_mk]; with_reducible apply Keeps.both))

theorem execLearn_keeps (r : Req) (s : State) (hs : Keeps q s) :
    ∃ s1, execLearn r s = .next s1 ∧ Keeps q s1 := by
  unfold execLearn
  (try dsimp only)
  repeat' (first | with_reducible assumption | refine ⟨_, rfl, ?_⟩ | with_reducible apply ok_keeps | with_reducible apply serveWrite_keeps | with_reducible apply fxLearn_keeps)

theorem writeEntry_keeps (e : LogEv) (s : State) (hs : Keeps q s) :
    Keeps q (writeEntry e s) := by
  unfold writeEntry
  (try dsimp only)
  repeat' (first | with_reducible assumption | with_reducible apply keeps_ite | with_reducible apply programPage_keeps | with_reducible apply vbatInc_keeps | (simp only [keeps_mk]; with_reducible apply Keeps.both))

theorem fxLogRoll_keeps (s : State) (role : Nat) (v : Bytes) (hs : Keeps q s) :
    Keeps q (fxLogRoll s role v).st := by
  unfold fxLogRoll
  (try dsimp only)
  repeat' (first | intro _ | with_reducible assumption | with_reducible apply keeps_ite | with_reducible apply startOp_keeps | with_reducible apply failSlot_keeps | with_reducible apply doneSlot_keeps | with_reducible apply writeEntry_keeps | (simp only [keeps_mk]; with_reducible apply Keeps.both))

theorem execLclkStepRecovery_keeps (die : Fin 2) (s : State) (hs : Keeps q s) :
    ∃ s1, execLclkStepRecovery die s = .next s1 ∧ Keeps q s1 := by
  unfold execLclkStepRecovery
  exact next_ite (next_ok hs) (next_ok (setPstep_keeps _ _ _ (State.at_keeps _ _ hs)))

theorem execEvidenceEntryWrite_keeps (s : State) (hs : Keeps q s) :
    ∃ s1, execEvidenceEntryWrite s = .next s1 ∧ Keeps q s1 := by
  unfold execEvidenceEntryWrite
  (try dsimp only)
  repeat' (first | with_reducible assumption | refine ⟨_, rfl, ?_⟩ | with_reducible apply keeps_ite | with_reducible apply ok_keeps | with_reducible apply wakeDomain_keeps | with_reducible apply vbatInc_keeps | with_reducible apply writeEntry_keeps | split | (simp only [keeps_mk]; with_reducible apply Keeps.both))

theorem fxRtc_keeps (s : State) (_role : Nat) (v : Bytes) (hs : Keeps q s) :
    Keeps q (fxRtc s _role v).st := by
  unfold fxRtc
  (try dsimp only)
  repeat' (first | with_reducible assumption | with_reducible apply ansOK_keeps | with_reducible apply setRtc_keeps | with_reducible apply logEvent_keeps)

theorem execRtcSet_keeps (r : Req) (s : State) (hs : Keeps q s) :
    ∃ s1, execRtcSet r s = .next s1 ∧ Keeps q s1 := by
  unfold execRtcSet
  (try dsimp only)
  repeat' (first | with_reducible assumption | refine ⟨_, rfl, ?_⟩ | with_reducible apply ok_keeps | with_reducible apply serveWrite_keeps | with_reducible apply fxRtc_keeps)

theorem execLogRoll_keeps (r : Req) (s : State) (hs : Keeps q s) :
    ∃ s1, execLogRoll r s = .next s1 ∧ Keeps q s1 := by
  unfold execLogRoll
  (try dsimp only)
  repeat' (first | with_reducible assumption | refine ⟨_, rfl, ?_⟩ | with_reducible apply ok_keeps | with_reducible apply serveWrite_keeps | with_reducible apply fxLogRoll_keeps)

theorem execZeroise_keeps (r : Req) (s : State) (hs : Keeps q s) :
    ∃ s1, execZeroise r s = .next s1 ∧ Keeps q s1 := by
  unfold execZeroise
  (try dsimp only)
  repeat' (first | with_reducible assumption | refine ⟨_, rfl, ?_⟩ | with_reducible apply ok_keeps | with_reducible apply serveWrite_keeps | with_reducible apply fxZeroise_keeps)

theorem execEscalation_keeps (code : Byte) (s : State) (hs : Keeps q s) :
    ∃ s1, execEscalation code s = .next s1 ∧ Keeps q s1 := by
  unfold execEscalation
  (try dsimp only)
  repeat' (first | intro _ | with_reducible assumption | refine ⟨_, rfl, ?_⟩ | with_reducible apply keeps_ite | with_reducible apply keeps_ite1 | with_reducible apply keeps_ite2 | with_reducible apply ok_keeps | with_reducible apply escalate_keeps)

theorem State.setDig_keeps (s : State) (d : DigState) (hs : Keeps q s) :
    Keeps q (State.setDig s d) := ⟨hs.1, hs.2, hs.3⟩

theorem cmpFault_keeps (s : State) (hs : Keeps q s) :
    Keeps q (cmpFault s) := by
  unfold cmpFault
  (try dsimp only)
  repeat' (first | with_reducible assumption | with_reducible apply condAssert_keeps | with_reducible apply State.bump_keeps)

theorem digFinish_keeps (flags : Option Bool) (s : State) (hs : Keeps q s) :
    Keeps q (digFinish flags s) := by
  unfold digFinish
  (try dsimp only)
  repeat' (first | with_reducible assumption | with_reducible apply keeps_ite | with_reducible apply State.setDig_keeps | with_reducible apply cmpFault_keeps)

theorem execDigFinish_keeps (flags : Option Bool) (s : State) (hs : Keeps q s) :
    ∃ s1, execDigFinish flags s = .next s1 ∧ Keeps q s1 := by
  unfold execDigFinish
  exact next_ite (next_ok (digFinish_keeps _ _ (State.at_keeps _ _ hs))) (next_ok hs)

theorem digEnd_keeps (e : Nat) (s : State) (hs : Keeps q s) :
    Keeps q (digEnd e s) := by
  unfold digEnd
  (try dsimp only)
  repeat' (first | with_reducible assumption | with_reducible apply State.setDig_keeps)

theorem execDigAbort_keeps (s : State) (hs : Keeps q s) :
    ∃ s1, execDigAbort s = .next s1 ∧ Keeps q s1 := by
  unfold execDigAbort
  (try dsimp only)
  repeat' (first | intro _ | with_reducible assumption | refine ⟨_, rfl, ?_⟩ | with_reducible apply keeps_ite | with_reducible apply keeps_ite1 | with_reducible apply keeps_ite2 | with_reducible apply ok_keeps | with_reducible apply digEnd_keeps | contradiction | split)

theorem digAccept_keeps (w : Word) (s : State) (hs : Keeps q s) :
    Keeps q (digAccept w s) := by
  unfold digAccept
  (try dsimp only)
  repeat' (first | with_reducible assumption | with_reducible apply State.setDig_keeps)

theorem execDigBlockDone_keeps (s : State) (hs : Keeps q s) :
    ∃ s1, execDigBlockDone s = .next s1 ∧ Keeps q s1 := by
  unfold execDigBlockDone
  (try dsimp only)
  repeat' (first | intro _ | with_reducible assumption | refine ⟨_, rfl, ?_⟩ | with_reducible apply keeps_ite | with_reducible apply keeps_ite1 | with_reducible apply keeps_ite2 | with_reducible apply ok_keeps | with_reducible apply State.setDig_keeps | with_reducible apply State.at_keeps | contradiction | split)

theorem execMrExtendDone_keeps (s : State) (hs : Keeps q s) :
    ∃ s1, execMrExtendDone s = .next s1 ∧ Keeps q s1 := by
  unfold execMrExtendDone
  (try dsimp only)
  repeat' (first | with_reducible assumption | refine ⟨_, rfl, ?_⟩ | with_reducible apply ok_keeps | with_reducible apply State.at_keeps | with_reducible apply mrPerform_keeps | split | (simp only [keeps_mk]; with_reducible apply Keeps.both))

theorem digSettle_keeps (s : State) (hs : Keeps q s) :
    Keeps q (digSettle s) := by
  unfold digSettle
  (try dsimp only)
  repeat' (first | with_reducible assumption | with_reducible apply keeps_ite | with_reducible apply State.setDig_keeps | with_reducible apply digFinish_keeps)

theorem digKey_keeps (s : State) (hs : Keeps q s) :
    Keeps q (digKey s).2.2.1 := by
  unfold digKey
  (try dsimp only)
  repeat' (first | intro _ | with_reducible assumption | with_reducible apply keeps_ite | with_reducible apply keeps_ite1 | with_reducible apply keeps_ite2 | with_reducible apply deliver_keeps | contradiction | split)

theorem execDigStart_keeps (ctrl : Word) (s : State) (hs : Keeps q s) :
    ∃ s1, execDigStart ctrl s = .next s1 ∧ Keeps q s1 := by
  unfold execDigStart
  (try dsimp only)
  repeat' (first | intro _ | with_reducible assumption | refine ⟨_, rfl, ?_⟩ | with_reducible apply keeps_ite | with_reducible apply keeps_ite1 | with_reducible apply keeps_ite2 | with_reducible apply ok_keeps | with_reducible apply digSettle_keeps | with_reducible apply State.setDig_keeps | with_reducible apply State.noteSet_keeps | with_reducible apply digEnd_keeps | with_reducible apply digKey_keeps | contradiction | split)

theorem fxExtend_keeps (k : Nat) (s : State) (_role : Nat) (v : Bytes) (hs : Keeps q s) :
    Keeps q (fxExtend k s _role v).st := by
  unfold fxExtend
  (try dsimp only)
  repeat' (first | intro _ | with_reducible assumption | with_reducible apply keeps_ite | with_reducible apply keeps_ite1 | with_reducible apply keeps_ite2 | with_reducible apply ansErr_keeps | with_reducible apply ansOK_keeps | with_reducible apply mrMeasure_keeps | contradiction | split)

theorem execMrExtendEntry_keeps (r : Req) (k : Fin 8) (s : State) (hs : Keeps q s) :
    ∃ s1, execMrExtendEntry r k s = .next s1 ∧ Keeps q s1 := by
  unfold execMrExtendEntry
  (try dsimp only)
  repeat' (first | with_reducible assumption | refine ⟨_, rfl, ?_⟩ | with_reducible apply ok_keeps | with_reducible apply serveWrite_keeps | with_reducible apply fxExtend_keeps)

theorem mrRefuse_keeps (s : State) (hs : Keeps q s) :
    Keeps q (mrRefuse s) := by
  unfold mrRefuse
  (try dsimp only)
  repeat' (first | with_reducible assumption | with_reducible apply State.noteSet_keeps | (simp only [keeps_mk]; with_reducible apply Keeps.both))

theorem execMrVendorExtend_keeps (vidx : BitVec 4) (src : Byte) (s : State) (hs : Keeps q s) :
    ∃ s1, execMrVendorExtend vidx src s = .next s1 ∧ Keeps q s1 := by
  unfold execMrVendorExtend
  (try dsimp only)
  repeat' (first | intro _ | with_reducible assumption | refine ⟨_, rfl, ?_⟩ | with_reducible apply keeps_ite | with_reducible apply keeps_ite1 | with_reducible apply keeps_ite2 | with_reducible apply ok_keeps | with_reducible apply mrRefuse_keeps | with_reducible apply mrExtend_keeps | contradiction | split | (simp only [keeps_mk]; with_reducible apply Keeps.both))

theorem execMrOwnerExtend_keeps (oidx : BitVec 4) (s : State) (hs : Keeps q s) :
    ∃ s1, execMrOwnerExtend oidx s = .next s1 ∧ Keeps q s1 := by
  unfold execMrOwnerExtend
  (try dsimp only)
  repeat' (first | intro _ | with_reducible assumption | refine ⟨_, rfl, ?_⟩ | with_reducible apply keeps_ite | with_reducible apply keeps_ite1 | with_reducible apply keeps_ite2 | with_reducible apply ok_keeps | with_reducible apply mrRefuse_keeps | with_reducible apply mrExtend_keeps | contradiction | split | (simp only [keeps_mk]; with_reducible apply Keeps.both))

theorem execBootlock_keeps (s : State) (hs : Keeps q s) :
    ∃ s1, execBootlock s = .next s1 ∧ Keeps q s1 := by
  unfold execBootlock
  (try dsimp only)
  repeat' (first | with_reducible assumption | refine ⟨_, rfl, ?_⟩ | with_reducible apply ok_keeps | (simp only [keeps_mk]; with_reducible apply Keeps.both))

theorem execDigDataWrite_keeps (w : Word) (s : State) (hs : Keeps q s) :
    ∃ s1, execDigDataWrite w s = .next s1 ∧ Keeps q s1 := by
  unfold execDigDataWrite
  (try dsimp only)
  repeat' (first | with_reducible assumption | refine ⟨_, rfl, ?_⟩ | with_reducible apply keeps_ite | with_reducible apply ok_keeps | with_reducible apply digSettle_keeps | with_reducible apply digEnd_keeps | with_reducible apply digAccept_keeps | with_reducible apply State.setDig_keeps | split)

theorem kdWindow_keeps (n : Nat) (lo : Nat) (hi : Nat) (ini : Nat) (r : Bool) (w : Bool) (x : Bool) (lock : Bool) (s : State) (hs : Keeps q s) :
    Keeps q (kdWindow n lo hi ini r w x lock s) := by
  unfold kdWindow
  (try dsimp only)
  repeat' (first | with_reducible assumption | with_reducible apply keeps_ite | with_reducible apply winEnable_keeps | with_reducible apply State.setWin_keeps)

theorem baseWindows_keeps (lo : Nat) (body : Nat) (s : State) (hs : Keeps q s) :
    Keeps q (baseWindows lo body s) := by
  unfold baseWindows
  (try dsimp only)
  repeat' (first | with_reducible assumption | with_reducible apply keeps_ite | with_reducible apply kdWindow_keeps)

theorem supEnter_keeps (entry : Nat) (s : State) (hs : Keeps q s) :
    Keeps q (supEnter entry s) := ⟨hs.1, hs.2, hs.3⟩

theorem startBase_keeps (c : Nat) (b : Bytes) (reload : Bool) (s : State) (hs : Keeps q s) :
    Keeps q (startBase c b reload s) := by
  unfold startBase
  (try dsimp only)
  repeat' (first | with_reducible assumption | with_reducible apply keeps_ite | with_reducible apply mrMeasure_keeps | with_reducible apply baseWindows_keeps | with_reducible apply State.setNum_keeps | with_reducible apply supEnter_keeps | (simp only [keeps_mk]; with_reducible apply Keeps.both))

theorem kdWindowOff_keeps (n : Nat) (s : State) (hs : Keeps q s) :
    Keeps q (kdWindowOff n s) := by
  unfold kdWindowOff
  (try dsimp only)
  repeat' (first | with_reducible assumption | with_reducible apply keeps_ite | with_reducible apply State.setWin_keeps)

theorem enterRecovery_keeps (s : State) (hs : Keeps q s) :
    Keeps q (enterRecovery s) := ⟨hs.1, hs.2, hs.3⟩

theorem noteFault_keeps (fault : Bool) (s : State) (hs : Keeps q s) :
    Keeps q (noteFault fault s) := by
  unfold noteFault
  (try dsimp only)
  repeat' (first | with_reducible assumption | with_reducible apply keeps_ite | with_reducible apply cmpFault_keeps)

theorem supPlace_keeps (a : Nat) (body : Bytes) (zlen : Nat) (s : State) (hs : Keeps q s) :
    Keeps q (supPlace a body zlen s) := ⟨hs.1, hs.2, hs.3⟩

theorem bootSlots_keeps (faults : Nat) (reload : Bool) (l : List Nat) (s : State) (hs : Keeps q s) : Keeps q (bootSlots faults reload l s) := by
  induction l generalizing s with
  | nil => exact enterRecovery_keeps _ (State.setNum_keeps _ _ _ _ hs)
  | cons c l ih =>
    unfold bootSlots
    dsimp only
    have h (s0 : State) (h0 : Keeps q s0) := noteFault_keeps (bit faults c) s0 h0
    refine keeps_ite (ih _ hs) (keeps_ite (ih _ (logEvent_keeps _ _ _ _ _ hs)) ?_)
    have h := noteFault_keeps (bit faults c) _ (supPlace_keeps (hdrLoad (slotImage s c)) (imgBody (slotImage s c)) (hdrZero (slotImage s c)) s hs)
    exact keeps_ite h (keeps_ite (startBase_keeps _ _ _ _ h) (ih _ (logEvent_keeps _ _ _ _ _ h)))

theorem supervisorBoot_keeps (faults : Nat) (s : State) (hs : Keeps q s) : Keeps q (supervisorBoot faults s) :=
  keeps_ite (bootSlots_keeps _ _ _ _ (noteDamaged_keeps _ _ _ _ _ _ hs)) hs

theorem writeSlotRec_keeps (c : Nat) (gen : Nat) (commit : Bool) (s : State) (hs : Keeps q s) :
    Keeps q (writeSlotRec c gen commit s).2 := by
  unfold writeSlotRec
  (try dsimp only)
  repeat' (first | with_reducible assumption | with_reducible apply programPage_keeps)

theorem setCap_keeps (i : Nat) (v : Nat) (s : State) (hs : Keeps q s) :
    Keeps q (setCap i v s) := ⟨hs.1, hs.2, hs.3⟩

theorem State.setMod_keeps (s : State) (m : Nat) (v : Module) (hs : Keeps q s) :
    Keeps q (State.setMod s m v) := ⟨hs.1, hs.2, hs.3⟩

theorem unloadModule_keeps (m : Nat) (s : State) (hs : Keeps q s) :
    Keeps q (unloadModule m s) := by
  unfold unloadModule
  (try dsimp only)
  repeat' (first | with_reducible assumption | with_reducible apply kdWindowOff_keeps | with_reducible apply supPlace_keeps | with_reducible apply setCap_keeps | with_reducible apply State.setMod_keeps | (simp only [keeps_mk]; with_reducible apply Keeps.both))

theorem fxModuleUnload_keeps (m : Nat) (s : State) (role : Nat) (v : Bytes) (hs : Keeps q s) :
    Keeps q (fxModuleUnload m s role v).st := by
  unfold fxModuleUnload
  (try dsimp only)
  repeat' (first | intro _ | with_reducible assumption | with_reducible apply startOp_keeps | with_reducible apply doneSlot_keeps | with_reducible apply unloadModule_keeps)

theorem execModuleUnload_keeps (r : Req) (m : Fin 16) (s : State) (hs : Keeps q s) :
    ∃ s1, execModuleUnload r m s = .next s1 ∧ Keeps q s1 := by
  unfold execModuleUnload
  (try dsimp only)
  repeat' (first | with_reducible assumption | refine ⟨_, rfl, ?_⟩ | with_reducible apply ok_keeps | with_reducible apply serveWrite_keeps | with_reducible apply fxModuleUnload_keeps)

theorem baseInstall_keeps (k : Nat) (fault : Bool) (s : State) (hs : Keeps q s) :
    Keeps q (baseInstall k fault s) := by
  unfold baseInstall
  (try dsimp only)
  repeat' (first | with_reducible assumption | with_reducible apply keeps_ite | with_reducible apply State.setEnt_keeps | with_reducible apply failSlot_keeps | with_reducible apply writePages_keeps | with_reducible apply writeSlotRec_keeps | with_reducible apply noteFault_keeps | with_reducible apply doneSlot_keeps | with_reducible apply supervisorBoot_keeps | contradiction | split | (simp only [keeps_mk]; with_reducible apply Keeps.both))

theorem moduleLoad_keeps (m : Nat) (k : Nat) (d0 : Nat) (fault : Bool) (s : State) (hs : Keeps q s) :
    Keeps q (moduleLoad m k d0 fault s) := by
  unfold moduleLoad
  (try dsimp only)
  repeat' (first | with_reducible assumption | with_reducible apply keeps_ite | with_reducible apply State.setEnt_keeps | with_reducible apply failSlot_keeps | with_reducible apply supPlace_keeps | with_reducible apply noteFault_keeps | with_reducible apply kdWindow_keeps | with_reducible apply State.setWin_keeps | with_reducible apply unloadModule_keeps | with_reducible apply setCap_keeps | with_reducible apply mrMeasure_keeps | with_reducible apply State.setMod_keeps | with_reducible apply doneSlot_keeps)

theorem fxModuleLoad_keeps (m : Nat) (d0 : Nat) (fault : Bool) (s : State) (role : Nat) (v : Bytes) (hs : Keeps q s) :
    Keeps q (fxModuleLoad m d0 fault s role v).st := by
  unfold fxModuleLoad
  (try dsimp only)
  repeat' (first | intro _ | with_reducible assumption | with_reducible apply startOp_keeps | with_reducible apply moduleLoad_keeps)

theorem execModuleLoad_keeps (r : Req) (m : Fin 16) (d0 : Word) (fault : Bool) (s : State) (hs : Keeps q s) :
    ∃ s1, execModuleLoad r m d0 fault s = .next s1 ∧ Keeps q s1 := by
  unfold execModuleLoad
  (try dsimp only)
  repeat' (first | with_reducible assumption | refine ⟨_, rfl, ?_⟩ | with_reducible apply ok_keeps | with_reducible apply serveWrite_keeps | with_reducible apply fxModuleLoad_keeps)

theorem raiseFloor_keeps (ctr : Nat) (v : Nat) (s : State) (hs : Keeps q s) :
    Keeps q (raiseFloor ctr v s).st := by
  unfold raiseFloor
  (try dsimp only)
  repeat' (first | intro _ | with_reducible assumption | with_reducible apply keeps_ite | with_reducible apply keeps_ite1 | with_reducible apply keeps_ite2 | with_reducible apply ctrRaise_keeps | with_reducible apply ansOK_keeps | with_reducible apply ansErr_keeps | contradiction | split)

theorem execModuleFloorRaise_keeps (r : Req) (s : State) (hs : Keeps q s) :
    ∃ s1, execModuleFloorRaise r s = .next s1 ∧ Keeps q s1 := by
  unfold execModuleFloorRaise
  (try dsimp only)
  repeat' (first | intro _ | with_reducible assumption | refine ⟨_, rfl, ?_⟩ | with_reducible apply ok_keeps | with_reducible apply serveWrite_keeps | with_reducible apply raiseFloor_keeps)

theorem fxBaseInstall_keeps (fault : Bool) (s : State) (role : Nat) (v : Bytes) (hs : Keeps q s) :
    Keeps q (fxBaseInstall fault s role v).st := by
  unfold fxBaseInstall
  (try dsimp only)
  repeat' (first | intro _ | with_reducible assumption | with_reducible apply startOp_keeps | with_reducible apply baseInstall_keeps)

theorem execBaseInstall_keeps (r : Req) (fault : Bool) (s : State) (hs : Keeps q s) :
    ∃ s1, execBaseInstall r fault s = .next s1 ∧ Keeps q s1 := by
  unfold execBaseInstall
  (try dsimp only)
  repeat' (first | with_reducible assumption | refine ⟨_, rfl, ?_⟩ | with_reducible apply ok_keeps | with_reducible apply serveWrite_keeps | with_reducible apply fxBaseInstall_keeps)

theorem execBaseFloorRaise_keeps (r : Req) (s : State) (hs : Keeps q s) :
    ∃ s1, execBaseFloorRaise r s = .next s1 ∧ Keeps q s1 := by
  unfold execBaseFloorRaise
  (try dsimp only)
  repeat' (first | intro _ | with_reducible assumption | refine ⟨_, rfl, ?_⟩ | with_reducible apply ok_keeps | with_reducible apply serveWrite_keeps | with_reducible apply raiseFloor_keeps)

theorem fxBaseActivate_keeps (s : State) (role : Nat) (v : Bytes) (hs : Keeps q s) :
    Keeps q (fxBaseActivate s role v).st := by
  unfold fxBaseActivate
  (try dsimp only)
  repeat' (first | intro _ | with_reducible assumption | with_reducible apply ansErr_keeps | with_reducible apply startOp_keeps | with_reducible apply coreReset_keeps | with_reducible apply State.setNum_keeps | contradiction | split)

theorem execBaseActivate_keeps (r : Req) (s : State) (hs : Keeps q s) :
    ∃ s1, execBaseActivate r s = .next s1 ∧ Keeps q s1 := by
  unfold execBaseActivate
  (try dsimp only)
  repeat' (first | with_reducible assumption | refine ⟨_, rfl, ?_⟩ | with_reducible apply ok_keeps | with_reducible apply serveWrite_keeps | with_reducible apply fxBaseActivate_keeps)

theorem execSupervisorBoot_keeps (faults : BitVec 2) (s : State) (hs : Keeps q s) :
    ∃ s1, execSupervisorBoot faults s = .next s1 ∧ Keeps q s1 := by
  unfold execSupervisorBoot
  (try dsimp only)
  repeat' (first | with_reducible assumption | refine ⟨_, rfl, ?_⟩ | with_reducible apply ok_keeps | with_reducible apply supervisorBoot_keeps)

end Sys2Proof.Machine
end

