-- ==== Sys2Proof/Laws/KeepsGroup.lean ====
section
/-!
SUPPORT. What every function keeps (cards, the mirror, custody and storage): the queue of waiting commands, the canonical form of the MRAM,
and every fuse bit that is blown. One lemma per function; later lemmas cite the earlier ones.
-/
namespace Sys2Proof.Machine
variable {q : State}

theorem cerRoster_keeps (ros : Bytes) (skip : Option Nat) (s : State) (hs : Keeps q s) :
    Keeps q (cerRoster ros skip s) := by
  unfold cerRoster
  (try dsimp only)
  repeat' (first | with_reducible assumption | with_reducible apply keeps_ite | with_reducible apply groupPrepare_keeps | with_reducible apply cerFail_keeps | with_reducible apply State.setCer_keeps | with_reducible apply cerClose_keeps)

theorem enrolWrite_keeps (i : Nat) (rec : Bytes) (s : State) (hs : Keeps q s) :
    Keeps q (enrolWrite i rec s) := by
  unfold enrolWrite
  (try dsimp only)
  repeat' (first | intro _ | with_reducible assumption | with_reducible apply keeps_ite | with_reducible apply cerFail_keeps | with_reducible apply setCred_keeps | with_reducible apply cerClose_keeps)

theorem runEnrol_keeps (s : State) (hs : Keeps q s) :
    Keeps q (runEnrol s) := by
  unfold runEnrol
  (try dsimp only)
  repeat' (first | intro _ | with_reducible assumption | with_reducible apply keeps_ite | with_reducible apply cerFail_keeps | with_reducible apply enrolWrite_keeps | contradiction | split)

theorem drawComps_keeps (key : Bytes) (n : Nat) (s : State) (hs : Keeps q s) : Keeps q (drawComps key n s).2 := by
  induction n generalizing key s with
  | zero => exact hs
  | succ n ih => exact ih _ _ (State.draw_keeps _ _ hs)

theorem groupFound_keeps (s : State) (hs : Keeps q s) :
    Keeps q (groupFound s) := by
  unfold groupFound
  (try dsimp only)
  repeat' (first | with_reducible assumption | with_reducible apply keeps_ite | with_reducible apply cerFail_keeps | with_reducible apply State.draw_keeps | with_reducible apply putAnchor_keeps | with_reducible apply cerClose_keeps | with_reducible apply showGroup_keeps | with_reducible apply writeRoster_keeps | (simp only [keeps_mk]; with_reducible apply Keeps.both))

theorem runGroup_keeps (s : State) (hs : Keeps q s) :
    Keeps q (runGroup s) := by
  unfold runGroup
  (try dsimp only)
  repeat' (first | intro _ | with_reducible assumption | with_reducible apply keeps_ite | with_reducible apply groupFound_keeps | with_reducible apply cerFail_keeps | with_reducible apply cerRoster_keeps | contradiction | split | (simp only [keeps_mk]; with_reducible apply Keeps.both))

theorem ownFinish_keeps (s : State) (hs : Keeps q s) :
    Keeps q (ownFinish s) := by
  unfold ownFinish
  (try dsimp only)
  repeat' (first | intro _ | with_reducible assumption | with_reducible apply keeps_ite | with_reducible apply State.draw_keeps | with_reducible apply writePages_keeps | with_reducible apply cerFail_keeps | with_reducible apply setCred_keeps | with_reducible apply setKept_keeps | with_reducible apply burnFuse_keeps | with_reducible apply burnLcs_keeps | with_reducible apply cerClose_keeps | with_reducible apply systemResetNow_keeps | with_reducible apply keeps_foldl)

theorem quorumReached_keeps (s : State) (hs : Keeps q s) :
    Keeps q (quorumReached s) := by
  unfold quorumReached
  (try dsimp only)
  repeat' (first | with_reducible assumption | with_reducible apply keeps_ite | with_reducible apply State.setCer_keeps | with_reducible apply startFlip_keeps | with_reducible apply cerClose_keeps | with_reducible apply runEnrol_keeps | with_reducible apply cerFail_keeps | with_reducible apply drawComps_keeps | with_reducible apply runGroup_keeps | with_reducible apply ownFinish_keeps | contradiction | split)

theorem approve_keeps (k : Nat) (sg : OwnSig) (s : State) (hs : Keeps q s) :
    Keeps q (approve k sg s) := by
  unfold approve
  (try dsimp only)
  repeat' (first | with_reducible assumption | with_reducible apply keeps_ite | with_reducible apply State.bump_keeps | with_reducible apply State.setCer_keeps | with_reducible apply quorumReached_keeps)

theorem cardSigned_keeps (i : Nat) (d : Bytes) (s : State) (hs : Keeps q s) :
    Keeps q (cardSigned i d s) := by
  unfold cardSigned
  (try dsimp only)
  repeat' (first | with_reducible assumption | with_reducible apply keeps_ite | with_reducible apply cardFault_keeps | with_reducible apply approve_keeps | with_reducible apply State.setCard_keeps | contradiction | split)

theorem enrolCard_keeps (i : Nat) (cardid : Bytes) (qc : Bytes) (s : State) (hs : Keeps q s) :
    Keeps q (enrolCard i cardid qc s) := by
  unfold enrolCard
  (try dsimp only)
  repeat' (first | with_reducible assumption | with_reducible apply keeps_ite | with_reducible apply enrolWrite_keeps | with_reducible apply cardFault_keeps)

theorem finishIn_keeps (s : State) (hs : Keeps q s) :
    Keeps q (finishIn s) := by
  unfold finishIn
  (try dsimp only)
  repeat' (first | intro _ | with_reducible assumption | with_reducible apply keeps_ite | with_reducible apply cerFail_keeps | with_reducible apply stageKey_keeps | with_reducible apply State.setNode_keeps | with_reducible apply cerClose_keeps | with_reducible apply storeKey_keeps | with_reducible apply groupPrepare_keeps | with_reducible apply State.setCer_keeps)

theorem compIn_keeps (i : Nat) (d : Bytes) (s : State) (hs : Keeps q s) :
    Keeps q (compIn i d s) := by
  unfold compIn
  (try dsimp only)
  repeat' (first | with_reducible assumption | with_reducible apply keeps_ite | with_reducible apply cerFail_keeps | with_reducible apply State.setCard_keeps | with_reducible apply State.setCer_keeps | with_reducible apply finishIn_keeps | with_reducible apply cardFault_keeps | contradiction | split)

theorem sendCard_keeps (i : Nat) (ins : Nat) (p1 : Nat) (data : Bytes) (s : State) (hs : Keeps q s) :
    Keeps q (sendCard i ins p1 data s) := by
  unfold sendCard
  (try dsimp only)
  repeat' (first | with_reducible assumption | with_reducible apply State.emit_keeps | with_reducible apply State.setCard_keeps)

theorem openChannel_keeps (i : Nat) (d : Bytes) (s : State) (hs : Keeps q s) :
    Keeps q (openChannel i d s) := by
  unfold openChannel
  (try dsimp only)
  repeat' (first | with_reducible assumption | with_reducible apply keeps_ite | with_reducible apply cardFault_keeps | with_reducible apply State.setCard_keeps | contradiction | split)

theorem cardIdentity_keeps (i : Nat) (d : Bytes) (s : State) (hs : Keeps q s) :
    Keeps q (cardIdentity i d s) := by
  unfold cardIdentity
  (try dsimp only)
  repeat' (first | with_reducible assumption | with_reducible apply keeps_ite | with_reducible apply cardFault_keeps | with_reducible apply State.setEnt_keeps | with_reducible apply enrolCard_keeps | with_reducible apply State.setCard_keeps | contradiction | split)

theorem compOut_keeps (i : Nat) (s : State) (hs : Keeps q s) :
    Keeps q (compOut i s) := by
  unfold compOut
  (try dsimp only)
  repeat' (first | with_reducible assumption | with_reducible apply keeps_ite | with_reducible apply State.setCard_keeps | with_reducible apply State.setCer_keeps | with_reducible apply cerClose_keeps | contradiction | split)

theorem noteActed_keeps (id : Bytes) (ty : Nat) (s : State) (hs : Keeps q s) :
    Keeps q (noteActed id ty s) := by
  unfold noteActed
  (try dsimp only)
  repeat' (first | intro _ | with_reducible assumption | with_reducible apply keeps_ite | contradiction | split | (simp only [keeps_mk]; with_reducible apply Keeps.both))

theorem onAnswer_keeps (l : Nat) (id : Bytes) (a : Nat) (s : State) (hs : Keeps q s) :
    Keeps q (onAnswer l id a s) := by
  unfold onAnswer
  (try dsimp only)
  repeat' (first | intro _ | with_reducible assumption | with_reducible apply keeps_ite | with_reducible apply chgAnswered_keeps | with_reducible apply setChg_keeps | with_reducible apply settleStatus_keeps | contradiction | split)

theorem execMirrorHeartbeatTimer_keeps (l : Fin 8) (s : State) (hs : Keeps q s) :
    ∃ s1, execMirrorHeartbeatTimer l s = .next s1 ∧ Keeps q s1 := by
  unfold execMirrorHeartbeatTimer
  (try dsimp only)
  repeat' (first | intro _ | with_reducible assumption | refine ⟨_, rfl, ?_⟩ | with_reducible apply keeps_ite | with_reducible apply keeps_ite1 | with_reducible apply keeps_ite2 | with_reducible apply ok_keeps | with_reducible apply sendMir_keeps | with_reducible apply State.at_keeps | contradiction | split)

theorem resyncStart_keeps (l : Nat) (peer : Bytes) (s : State) (hs : Keeps q s) :
    Keeps q (resyncStart l peer s) := by
  unfold resyncStart
  (try dsimp only)
  repeat' (first | intro _ | with_reducible assumption | with_reducible apply keeps_ite | with_reducible apply sendMir_keeps | with_reducible apply keeps_foldl)

theorem sendTree_keeps (l : Nat) (s : State) (hs : Keeps q s) :
    Keeps q (sendTree l s) := by
  unfold sendTree
  (try dsimp only)
  repeat' (first | intro _ | with_reducible assumption | with_reducible apply sendMir_keeps | with_reducible apply keeps_foldl)

theorem admitJoiner_keeps (l : Nat) (s : State) (hs : Keeps q s) :
    Keeps q (admitJoiner l s) := by
  unfold admitJoiner
  (try dsimp only)
  repeat' (first | with_reducible assumption | with_reducible apply cerRoster_keeps | with_reducible apply sendTree_keeps)

theorem onFrame_keeps (l : Nat) (seq : Nat) (bad : Bool) (f : State → State) (s : State) (hf : ∀ (x0 : State), Keeps q x0 → Keeps q (f x0)) (hs : Keeps q s) :
    Keeps q (onFrame l seq bad f s) := by
  unfold onFrame
  (try dsimp only)
  repeat' (first | with_reducible assumption | with_reducible apply keeps_ite | with_reducible apply frameFail_keeps | with_reducible apply State.bump_keeps | with_reducible apply State.setMlink_keeps | with_reducible apply hf)

theorem execMirrorKeyTransfer_keeps (l : Fin 8) (seq : Word) (bad : Bool) (node : BitVec 18) (rec : Bytes) (key : Bytes) (s : State) (hs : Keeps q s) :
    ∃ s1, execMirrorKeyTransfer l seq bad node rec key s = .next s1 ∧ Keeps q s1 := by
  unfold execMirrorKeyTransfer
  (try dsimp only)
  repeat' (first | intro _ | with_reducible assumption | refine ⟨_, rfl, ?_⟩ | with_reducible apply keeps_ite | with_reducible apply ok_keeps | with_reducible apply onFrame_keeps | with_reducible apply installNode_keeps)

theorem resyncNode_keeps (l : Nat) (joined : Nat) (node : Nat) (rec : Bytes) (key : Bytes) (s : State) (hs : Keeps q s) :
    Keeps q (resyncNode l joined node rec key s) := by
  unfold resyncNode
  (try dsimp only)
  repeat' (first | with_reducible assumption | with_reducible apply keeps_ite | with_reducible apply sendMir_keeps | with_reducible apply installNode_keeps)

theorem execMirrorResendTimer_keeps (chg : BitVec 96) (s : State) (hs : Keeps q s) :
    ∃ s1, execMirrorResendTimer chg s = .next s1 ∧ Keeps q s1 := by
  unfold execMirrorResendTimer
  (try dsimp only)
  repeat' (first | intro _ | with_reducible assumption | refine ⟨_, rfl, ?_⟩ | with_reducible apply keeps_ite | with_reducible apply ok_keeps | with_reducible apply State.at_keeps | with_reducible apply setChg_keeps | with_reducible apply sendMir_keeps | with_reducible apply State.bump_keeps | split | with_reducible apply keeps_foldl)

theorem onPrepared_keeps (l : Nat) (id : Bytes) (s : State) (hs : Keeps q s) :
    Keeps q (onPrepared l id s) := by
  unfold onPrepared
  (try dsimp only)
  repeat' (first | intro _ | with_reducible assumption | with_reducible apply keeps_ite | with_reducible apply setChg_keeps | with_reducible apply chgPrepared_keeps | contradiction | split)

theorem onAbort_keeps (l : Nat) (id : Bytes) (s : State) (hs : Keeps q s) :
    Keeps q (onAbort l id s) := by
  unfold onAbort
  (try dsimp only)
  repeat' (first | with_reducible assumption | with_reducible apply keeps_ite | with_reducible apply sendMir_keeps | with_reducible apply memberAbort_keeps | with_reducible apply noteActed_keeps | contradiction | split)

theorem execMirrorAbort_keeps (l : Fin 8) (seq : Word) (bad : Bool) (chg : BitVec 96) (s : State) (hs : Keeps q s) :
    ∃ s1, execMirrorAbort l seq bad chg s = .next s1 ∧ Keeps q s1 := by
  unfold execMirrorAbort
  (try dsimp only)
  repeat' (first | with_reducible assumption | refine ⟨_, rfl, ?_⟩ | with_reducible apply ok_keeps | with_reducible apply onFrame_keeps | with_reducible apply onAbort_keeps)

theorem memberErased_keeps (l : Nat) (s : State) (hs : Keeps q s) :
    Keeps q (memberErased l s) := by
  unfold memberErased
  (try dsimp only)
  repeat' (first | with_reducible assumption | with_reducible apply writeRoster_keeps | with_reducible apply condAssert_keeps | contradiction | split | (simp only [keeps_mk]; with_reducible apply Keeps.both))

theorem onCommit_keeps (l : Nat) (id : Bytes) (s : State) (hs : Keeps q s) :
    Keeps q (onCommit l id s) := by
  unfold onCommit
  (try dsimp only)
  repeat' (first | with_reducible assumption | with_reducible apply keeps_ite | with_reducible apply sendMir_keeps | with_reducible apply memberCommit_keeps | with_reducible apply noteActed_keeps | contradiction | split)

theorem applyDecision_keeps (id : Bytes) (commit : Bool) (s : State) (hs : Keeps q s) :
    Keeps q (applyDecision id commit s) := by
  unfold applyDecision
  (try dsimp only)
  repeat' (first | with_reducible assumption | with_reducible apply keeps_ite | with_reducible apply memberCommit_keeps | with_reducible apply memberAbort_keeps | contradiction | split)

theorem execMirrorResync_keeps (l : Fin 8) (seq : Word) (bad : Bool) (decs : List (BitVec 96 × Bool)) (joined : Fin 8) (nodes : List (BitVec 18 × Bytes × Bytes)) (s : State) (hs : Keeps q s) :
    ∃ s1, execMirrorResync l seq bad decs joined nodes s = .next s1 ∧ Keeps q s1 := by
  unfold execMirrorResync
  (try dsimp only)
  repeat' (first | intro _ | with_reducible assumption | refine ⟨_, rfl, ?_⟩ | with_reducible apply keeps_ite | with_reducible apply ok_keeps | with_reducible apply onFrame_keeps | with_reducible apply applyDecision_keeps | with_reducible apply resyncNode_keeps | with_reducible apply keeps_foldl)

theorem execMirrorTamper_keeps (l : Fin 8) (body : BitVec 128) (s : State) (hs : Keeps q s) :
    ∃ s1, execMirrorTamper l body s = .next s1 ∧ Keeps q s1 := by
  unfold execMirrorTamper
  (try dsimp only)
  repeat' (first | intro _ | with_reducible assumption | refine ⟨_, rfl, ?_⟩ | with_reducible apply keeps_ite | with_reducible apply keeps_ite1 | with_reducible apply keeps_ite2 | with_reducible apply State.bump_keeps | with_reducible apply ok_keeps | with_reducible apply memberErased_keeps | with_reducible apply State.setMlink_keeps | with_reducible apply linkDown_keeps | with_reducible apply logEvent_keeps | contradiction | split)

theorem linkUp_keeps (l : Nat) (v : MLink) (stmt : Bytes) (eph : Bytes) (s : State) (hs : Keeps q s) :
    Keeps q (linkUp l v stmt eph s) := by
  unfold linkUp
  (try dsimp only)
  repeat' (first | with_reducible assumption | with_reducible apply keeps_ite | with_reducible apply State.draw_keeps | with_reducible apply State.setMlink_keeps | with_reducible apply sendMir_keeps | with_reducible apply State.bump_keeps | with_reducible apply admitJoiner_keeps | with_reducible apply resyncStart_keeps)

theorem execMirrorPrepareTimeout_keeps (chg : BitVec 96) (s : State) (hs : Keeps q s) :
    ∃ s1, execMirrorPrepareTimeout chg s = .next s1 ∧ Keeps q s1 := by
  unfold execMirrorPrepareTimeout
  (try dsimp only)
  repeat' (first | with_reducible assumption | refine ⟨_, rfl, ?_⟩ | with_reducible apply keeps_ite | with_reducible apply ok_keeps | with_reducible apply chgAbort_keeps | with_reducible apply State.at_keeps | split)

theorem execMirrorToken_keeps (l : Fin 8) (seq : Word) (bad : Bool) (t : BitVec 128) (s : State) (hs : Keeps q s) :
    ∃ s1, execMirrorToken l seq bad t s = .next s1 ∧ Keeps q s1 := by
  unfold execMirrorToken
  (try dsimp only)
  repeat' (first | intro _ | with_reducible assumption | refine ⟨_, rfl, ?_⟩ | with_reducible apply ok_keeps | with_reducible apply onFrame_keeps | with_reducible apply State.setMlink_keeps)

theorem onCommitted_keeps (l : Nat) (id : Bytes) (s : State) (hs : Keeps q s) :
    Keeps q (onCommitted l id s) := by
  unfold onCommitted
  (try dsimp only)
  repeat' (first | with_reducible assumption | with_reducible apply keeps_ite | with_reducible apply chgAnswered_keeps | contradiction | split)

theorem fxResolve_keeps (s : State) (_role : Nat) (_v : Bytes) (hs : Keeps q s) :
    Keeps q (fxResolve s _role _v).st := by
  unfold fxResolve
  (try dsimp only)
  repeat' (first | intro _ | with_reducible assumption | with_reducible apply keeps_ite | with_reducible apply ansOK_keeps | with_reducible apply memberAbort_keeps | with_reducible apply keeps_foldl)

theorem stageHere_keeps (c : Chg) (s : State) (hs : Keeps q s) :
    Keeps q (stageHere c s).2 := by
  unfold stageHere
  (try dsimp only)
  repeat' (first | with_reducible assumption | with_reducible apply keeps_ite | with_reducible apply keeps_ite2 | with_reducible apply stageKey_keeps | with_reducible apply unstage_keeps | with_reducible apply State.setNode_keeps)

theorem stageChange_keeps (l : Nat) (c : Chg) (s : State) (hs : Keeps q s) :
    Keeps q (stageChange l c s) := by
  unfold stageChange
  (try dsimp only)
  repeat' (first | intro _ | with_reducible assumption | with_reducible apply keeps_ite | with_reducible apply keeps_ite1 | with_reducible apply keeps_ite2 | with_reducible apply stageHere_keeps | with_reducible apply sendMir_keeps | contradiction | split | (simp only [keeps_mk]; with_reducible apply Keeps.both))

theorem onPrepare_keeps (l : Nat) (c : Chg) (s : State) (hs : Keeps q s) :
    Keeps q (onPrepare l c s) := by
  unfold onPrepare
  (try dsimp only)
  repeat' (first | with_reducible assumption | with_reducible apply keeps_ite | with_reducible apply sendMir_keeps | with_reducible apply noteActed_keeps | with_reducible apply stageChange_keeps | with_reducible apply dropChg_keeps | with_reducible apply chgAbort_keeps | contradiction | split)

theorem onRefuse_keeps (id : Bytes) (s : State) (hs : Keeps q s) :
    Keeps q (onRefuse id s) := by
  unfold onRefuse
  (try dsimp only)
  repeat' (first | with_reducible assumption | with_reducible apply keeps_ite | with_reducible apply chgAbort_keeps | contradiction | split)

theorem execMirrorRefuse_keeps (l : Fin 8) (seq : Word) (bad : Bool) (chg : BitVec 96) (s : State) (hs : Keeps q s) :
    ∃ s1, execMirrorRefuse l seq bad chg s = .next s1 ∧ Keeps q s1 := by
  unfold execMirrorRefuse
  (try dsimp only)
  repeat' (first | with_reducible assumption | refine ⟨_, rfl, ?_⟩ | with_reducible apply ok_keeps | with_reducible apply onFrame_keeps | with_reducible apply onRefuse_keeps)

theorem execMirrorCommitted_keeps (l : Fin 8) (seq : Word) (bad : Bool) (chg : BitVec 96) (s : State) (hs : Keeps q s) :
    ∃ s1, execMirrorCommitted l seq bad chg s = .next s1 ∧ Keeps q s1 := by
  unfold execMirrorCommitted
  (try dsimp only)
  repeat' (first | with_reducible assumption | refine ⟨_, rfl, ?_⟩ | with_reducible apply ok_keeps | with_reducible apply onFrame_keeps | with_reducible apply onCommitted_keeps)

theorem execMirrorCommit_keeps (l : Fin 8) (seq : Word) (bad : Bool) (chg : BitVec 96) (s : State) (hs : Keeps q s) :
    ∃ s1, execMirrorCommit l seq bad chg s = .next s1 ∧ Keeps q s1 := by
  unfold execMirrorCommit
  (try dsimp only)
  repeat' (first | with_reducible assumption | refine ⟨_, rfl, ?_⟩ | with_reducible apply ok_keeps | with_reducible apply onFrame_keeps | with_reducible apply onCommit_keeps)

theorem execResolveAbort_keeps (r : Req) (s : State) (hs : Keeps q s) :
    ∃ s1, execResolveAbort r s = .next s1 ∧ Keeps q s1 := by
  unfold execResolveAbort
  (try dsimp only)
  repeat' (first | with_reducible assumption | refine ⟨_, rfl, ?_⟩ | with_reducible apply ok_keeps | with_reducible apply serveWrite_keeps | with_reducible apply fxResolve_keeps)

theorem execMirrorLinkUp_keeps (l : Fin 8) (nonce : BitVec 256) (s : State) (hs : Keeps q s) :
    ∃ s1, execMirrorLinkUp l nonce s = .next s1 ∧ Keeps q s1 := by
  unfold execMirrorLinkUp
  (try dsimp only)
  repeat' (first | intro _ | with_reducible assumption | refine ⟨_, rfl, ?_⟩ | with_reducible apply keeps_ite | with_reducible apply keeps_ite1 | with_reducible apply keeps_ite2 | with_reducible apply ok_keeps | with_reducible apply State.draw_keeps | with_reducible apply drawScalar_keeps | with_reducible apply attest_keeps | with_reducible apply State.setMlink_keeps | with_reducible apply sendMir_keeps | contradiction | split)

theorem execMirrorHeartbeat_keeps (l : Fin 8) (seq : Word) (bad : Bool) (s : State) (hs : Keeps q s) :
    ∃ s1, execMirrorHeartbeat l seq bad s = .next s1 ∧ Keeps q s1 :=
  ⟨_, rfl, onFrame_keeps _ _ _ _ _ (fun _ h => h) hs⟩

theorem execMirrorAuth_keeps (l : Fin 8) (stmt : Bytes) (eph : Bytes) (idk : BitVec 128) (good : Bool) (s : State) (hs : Keeps q s) :
    ∃ s1, execMirrorAuth l stmt eph idk good s = .next s1 ∧ Keeps q s1 := by
  unfold execMirrorAuth
  (try dsimp only)
  repeat' (first | intro _ | with_reducible assumption | refine ⟨_, rfl, ?_⟩ | with_reducible apply keeps_ite | with_reducible apply keeps_ite1 | with_reducible apply keeps_ite2 | with_reducible apply ok_keeps | with_reducible apply State.bump_keeps | with_reducible apply linkUp_keeps | with_reducible apply linkDown_keeps | contradiction | split)

theorem execMirrorStatus_keeps (l : Fin 8) (seq : Word) (bad : Bool) (chg : BitVec 96) (answer : Option (Fin 4)) (s : State) (hs : Keeps q s) :
    ∃ s1, execMirrorStatus l seq bad chg answer s = .next s1 ∧ Keeps q s1 := by
  unfold execMirrorStatus
  (try dsimp only)
  repeat' (first | intro _ | with_reducible assumption | refine ⟨_, rfl, ?_⟩ | with_reducible apply ok_keeps | with_reducible apply onFrame_keeps | with_reducible apply sendMir_keeps | with_reducible apply onAnswer_keeps | split)

theorem execMirrorSilenceTimeout_keeps (l : Fin 8) (s : State) (hs : Keeps q s) :
    ∃ s1, execMirrorSilenceTimeout l s = .next s1 ∧ Keeps q s1 := by
  unfold execMirrorSilenceTimeout
  (try dsimp only)
  repeat' (first | intro _ | with_reducible assumption | refine ⟨_, rfl, ?_⟩ | with_reducible apply keeps_ite | with_reducible apply keeps_ite1 | with_reducible apply keeps_ite2 | with_reducible apply ok_keeps | with_reducible apply linkDown_keeps | with_reducible apply State.at_keeps | contradiction | split)

theorem execMirrorPrepared_keeps (l : Fin 8) (seq : Word) (bad : Bool) (chg : BitVec 96) (s : State) (hs : Keeps q s) :
    ∃ s1, execMirrorPrepared l seq bad chg s = .next s1 ∧ Keeps q s1 := by
  unfold execMirrorPrepared
  (try dsimp only)
  repeat' (first | with_reducible assumption | refine ⟨_, rfl, ?_⟩ | with_reducible apply ok_keeps | with_reducible apply onFrame_keeps | with_reducible apply onPrepared_keeps)

theorem execMirrorPrepare_keeps (l : Fin 8) (seq : Word) (bad : Bool) (chg : BitVec 96) (op : Fin 3) (node : BitVec 19) (rec : Bytes) (key : Bytes) (ros : Bytes) (s : State) (hs : Keeps q s) :
    ∃ s1, execMirrorPrepare l seq bad chg op node rec key ros s = .next s1 ∧ Keeps q s1 := by
  unfold execMirrorPrepare
  (try dsimp only)
  repeat' (first | with_reducible assumption | refine ⟨_, rfl, ?_⟩ | with_reducible apply ok_keeps | with_reducible apply onFrame_keeps | with_reducible apply onPrepare_keeps)

theorem execCardDeactivate_keeps (i : Fin 4) (s : State) (hs : Keeps q s) :
    ∃ s1, execCardDeactivate i s = .next s1 ∧ Keeps q s1 := by
  unfold execCardDeactivate
  (try dsimp only)
  repeat' (first | with_reducible assumption | refine ⟨_, rfl, ?_⟩ | with_reducible apply ok_keeps | with_reducible apply cerAbortPoint_keeps | with_reducible apply State.setCard_keeps)

theorem execCardClearComponent_keeps (i : Fin 4) (slot : Fin 8) (s : State) (hs : Keeps q s) :
    ∃ s1, execCardClearComponent i slot s = .next s1 ∧ Keeps q s1 := by
  unfold execCardClearComponent
  (try dsimp only)
  repeat' (first | intro _ | with_reducible assumption | refine ⟨_, rfl, ?_⟩ | with_reducible apply keeps_ite | with_reducible apply keeps_ite1 | with_reducible apply keeps_ite2 | with_reducible apply ok_keeps | with_reducible apply sendCard_keeps | contradiction | split)

theorem execCardOpenChannel_keeps (i : Fin 4) (s : State) (hs : Keeps q s) :
    ∃ s1, execCardOpenChannel i s = .next s1 ∧ Keeps q s1 := by
  unfold execCardOpenChannel
  (try dsimp only)
  repeat' (first | intro _ | with_reducible assumption | refine ⟨_, rfl, ?_⟩ | with_reducible apply keeps_ite | with_reducible apply keeps_ite1 | with_reducible apply keeps_ite2 | with_reducible apply drawScalar_keeps | with_reducible apply State.draw_keeps | with_reducible apply State.setCard_keeps | with_reducible apply ok_keeps | with_reducible apply sendCard_keeps | contradiction | split)

theorem execCardGetIdentity_keeps (i : Fin 4) (s : State) (hs : Keeps q s) :
    ∃ s1, execCardGetIdentity i s = .next s1 ∧ Keeps q s1 := by
  unfold execCardGetIdentity
  (try dsimp only)
  repeat' (first | intro _ | with_reducible assumption | refine ⟨_, rfl, ?_⟩ | with_reducible apply keeps_ite | with_reducible apply keeps_ite1 | with_reducible apply keeps_ite2 | with_reducible apply ok_keeps | with_reducible apply sendCard_keeps | contradiction | split)

theorem fxCeremony_keeps (s : State) (role : Nat) (v : Bytes) (hs : Keeps q s) :
    Keeps q (fxCeremony s role v).st := by
  unfold fxCeremony
  (try dsimp only)
  repeat' (first | intro _ | with_reducible assumption | with_reducible apply keeps_ite | with_reducible apply keeps_ite1 | with_reducible apply keeps_ite2 | with_reducible apply ansErr_keeps | with_reducible apply startOp_keeps | with_reducible apply cerStart_keeps | contradiction | split)

theorem execCeremonyStartGroup_keeps (r : Req) (s : State) (hs : Keeps q s) :
    ∃ s1, execCeremonyStartGroup r s = .next s1 ∧ Keeps q s1 := by
  unfold execCeremonyStartGroup
  (try dsimp only)
  repeat' (first | intro _ | with_reducible assumption | refine ⟨_, rfl, ?_⟩ | with_reducible apply keeps_ite | with_reducible apply ok_keeps | with_reducible apply serveWrite_keeps | with_reducible apply fxCeremony_keeps)

theorem execCardClassARetry_keeps (i : Fin 4) (s : State) (hs : Keeps q s) :
    ∃ s1, execCardClassARetry i s = .next s1 ∧ Keeps q s1 := by
  unfold execCardClassARetry
  (try dsimp only)
  repeat' (first | with_reducible assumption | refine ⟨_, rfl, ?_⟩ | with_reducible apply ok_keeps | with_reducible apply State.setCard_keeps | with_reducible apply State.at_keeps | split)

theorem ownStart_keeps (k : Nat) (role : Nat) (s : State) (hs : Keeps q s) :
    Keeps q (ownStart k role s) := by
  unfold ownStart
  (try dsimp only)
  repeat' (first | with_reducible assumption | with_reducible apply keeps_ite | with_reducible apply State.bump_keeps | with_reducible apply failSlot_keeps | with_reducible apply State.draw_keeps | with_reducible apply cerStart_keeps | with_reducible apply State.setEnt_keeps | with_reducible apply startFlip_keeps | with_reducible apply setKept_keeps)

theorem fxOwnership_keeps (s : State) (role : Nat) (v : Bytes) (hs : Keeps q s) :
    Keeps q (fxOwnership s role v).st := by
  unfold fxOwnership
  (try dsimp only)
  repeat' (first | intro _ | with_reducible assumption | with_reducible apply keeps_ite | with_reducible apply keeps_ite1 | with_reducible apply keeps_ite2 | with_reducible apply ansErr_keeps | with_reducible apply startOp_keeps | with_reducible apply ownStart_keeps | contradiction | split)

theorem execOwnershipStart_keeps (r : Req) (s : State) (hs : Keeps q s) :
    ∃ s1, execOwnershipStart r s = .next s1 ∧ Keeps q s1 := by
  unfold execOwnershipStart
  (try dsimp only)
  repeat' (first | with_reducible assumption | refine ⟨_, rfl, ?_⟩ | with_reducible apply ok_keeps | with_reducible apply serveWrite_keeps | with_reducible apply fxOwnership_keeps)

theorem execCeremonyStartEnrol_keeps (r : Req) (s : State) (hs : Keeps q s) :
    ∃ s1, execCeremonyStartEnrol r s = .next s1 ∧ Keeps q s1 := by
  unfold execCeremonyStartEnrol
  (try dsimp only)
  repeat' (first | with_reducible assumption | refine ⟨_, rfl, ?_⟩ | with_reducible apply ok_keeps | with_reducible apply serveWrite_keeps | with_reducible apply fxCeremony_keeps)

theorem execCardInsert_keeps (i : Fin 4) (s : State) (hs : Keeps q s) :
    ∃ s1, execCardInsert i s = .next s1 ∧ Keeps q s1 := by
  unfold execCardInsert
  (try dsimp only)
  repeat' (first | intro _ | with_reducible assumption | refine ⟨_, rfl, ?_⟩ | with_reducible apply keeps_ite | with_reducible apply keeps_ite1 | with_reducible apply keeps_ite2 | with_reducible apply ok_keeps | with_reducible apply State.setCard_keeps | contradiction | split)

theorem noAtr_keeps (i : Nat) (s : State) (hs : Keeps q s) :
    Keeps q (noAtr i s) := by
  unfold noAtr
  (try dsimp only)
  repeat' (first | with_reducible assumption | with_reducible apply keeps_ite | with_reducible apply State.setCard_keeps | with_reducible apply cardFault_keeps)

theorem execCardSign_keeps (i : Fin 4) (s : State) (hs : Keeps q s) :
    ∃ s1, execCardSign i s = .next s1 ∧ Keeps q s1 := by
  unfold execCardSign
  (try dsimp only)
  repeat' (first | intro _ | with_reducible assumption | refine ⟨_, rfl, ?_⟩ | with_reducible apply keeps_ite | with_reducible apply keeps_ite1 | with_reducible apply keeps_ite2 | with_reducible apply ok_keeps | with_reducible apply sendCard_keeps | contradiction | split)

theorem execCeremonyStartComponentsIn_keeps (r : Req) (s : State) (hs : Keeps q s) :
    ∃ s1, execCeremonyStartComponentsIn r s = .next s1 ∧ Keeps q s1 := by
  unfold execCeremonyStartComponentsIn
  (try dsimp only)
  repeat' (first | intro _ | with_reducible assumption | refine ⟨_, rfl, ?_⟩ | with_reducible apply keeps_ite | with_reducible apply ok_keeps | with_reducible apply serveWrite_keeps | with_reducible apply fxCeremony_keeps)

theorem execCardAtr_keeps (i : Fin 4) (atr : Bytes) (s : State) (hs : Keeps q s) :
    ∃ s1, execCardAtr i atr s = .next s1 ∧ Keeps q s1 := by
  unfold execCardAtr
  (try dsimp only)
  repeat' (first | with_reducible assumption | refine ⟨_, rfl, ?_⟩ | with_reducible apply keeps_ite | with_reducible apply ok_keeps | with_reducible apply noAtr_keeps | with_reducible apply cardFault_keeps | with_reducible apply State.setCard_keeps | split)

theorem execCardResponse_keeps (i : Fin 4) (sw : BitVec 16) (data : Bytes) (edc : Bool) (s : State) (hs : Keeps q s) :
    ∃ s1, execCardResponse i sw data edc s = .next s1 ∧ Keeps q s1 := by
  unfold execCardResponse
  (try dsimp only)
  repeat' (first | with_reducible assumption | refine ⟨_, rfl, ?_⟩ | with_reducible apply keeps_ite | with_reducible apply ok_keeps | with_reducible apply cardFault_keeps | with_reducible apply State.setCard_keeps | with_reducible apply cardIdentity_keeps | with_reducible apply cardSigned_keeps | with_reducible apply openChannel_keeps | with_reducible apply compOut_keeps | with_reducible apply compIn_keeps | with_reducible apply cerAbortPoint_keeps | split)

theorem execCeremonyLimit_keeps (s : State) (hs : Keeps q s) :
    ∃ s1, execCeremonyLimit s = .next s1 ∧ Keeps q s1 := by
  unfold execCeremonyLimit
  (try dsimp only)
  repeat' (first | intro _ | with_reducible assumption | refine ⟨_, rfl, ?_⟩ | with_reducible apply keeps_ite | with_reducible apply keeps_ite1 | with_reducible apply keeps_ite2 | with_reducible apply ok_keeps | with_reducible apply cerLeave_keeps | with_reducible apply State.at_keeps | contradiction | split)

theorem execCardSelect_keeps (i : Fin 4) (s : State) (hs : Keeps q s) :
    ∃ s1, execCardSelect i s = .next s1 ∧ Keeps q s1 := by
  unfold execCardSelect
  (try dsimp only)
  repeat' (first | intro _ | with_reducible assumption | refine ⟨_, rfl, ?_⟩ | with_reducible apply keeps_ite | with_reducible apply keeps_ite1 | with_reducible apply keeps_ite2 | with_reducible apply ok_keeps | with_reducible apply sendCard_keeps | contradiction | split)

theorem execCardPutComponent_keeps (i : Fin 4) (s : State) (hs : Keeps q s) :
    ∃ s1, execCardPutComponent i s = .next s1 ∧ Keeps q s1 := by
  unfold execCardPutComponent
  (try dsimp only)
  repeat' (first | with_reducible assumption | refine ⟨_, rfl, ?_⟩ | with_reducible apply keeps_ite | with_reducible apply ok_keeps | with_reducible apply sendCard_keeps | split)

theorem execCardGetComponent_keeps (i : Fin 4) (s : State) (hs : Keeps q s) :
    ∃ s1, execCardGetComponent i s = .next s1 ∧ Keeps q s1 := by
  unfold execCardGetComponent
  (try dsimp only)
  repeat' (first | intro _ | with_reducible assumption | refine ⟨_, rfl, ?_⟩ | with_reducible apply keeps_ite | with_reducible apply keeps_ite1 | with_reducible apply keeps_ite2 | with_reducible apply ok_keeps | with_reducible apply sendCard_keeps | contradiction | split)

theorem execCardWaitTimeout_keeps (w : CardWait) (s : State) (hs : Keeps q s) :
    ∃ s1, execCardWaitTimeout w s = .next s1 ∧ Keeps q s1 := by
  unfold execCardWaitTimeout
  (try dsimp only)
  repeat' (first | intro _ | with_reducible assumption | refine ⟨_, rfl, ?_⟩ | with_reducible apply keeps_ite | with_reducible apply keeps_ite1 | with_reducible apply keeps_ite2 | with_reducible apply ok_keeps | with_reducible apply noAtr_keeps | with_reducible apply cerAbortPoint_keeps | with_reducible apply cardFault_keeps | with_reducible apply State.at_keeps | contradiction | split)

theorem execCardRemove_keeps (i : Fin 4) (s : State) (hs : Keeps q s) :
    ∃ s1, execCardRemove i s = .next s1 ∧ Keeps q s1 := by
  unfold execCardRemove
  (try dsimp only)
  repeat' (first | intro _ | with_reducible assumption | refine ⟨_, rfl, ?_⟩ | with_reducible apply keeps_ite | with_reducible apply keeps_ite1 | with_reducible apply keeps_ite2 | with_reducible apply ok_keeps | with_reducible apply cardFault_keeps | with_reducible apply cerAbortPoint_keeps | with_reducible apply State.setCard_keeps | contradiction | split)

theorem execCeremonyStartComponentsOut_keeps (r : Req) (s : State) (hs : Keeps q s) :
    ∃ s1, execCeremonyStartComponentsOut r s = .next s1 ∧ Keeps q s1 := by
  unfold execCeremonyStartComponentsOut
  (try dsimp only)
  repeat' (first | intro _ | with_reducible assumption | refine ⟨_, rfl, ?_⟩ | with_reducible apply keeps_ite | with_reducible apply ok_keeps | with_reducible apply serveWrite_keeps | with_reducible apply fxCeremony_keeps)

theorem execCeremonyTimeout_keeps (s : State) (hs : Keeps q s) :
    ∃ s1, execCeremonyTimeout s = .next s1 ∧ Keeps q s1 := by
  unfold execCeremonyTimeout
  (try dsimp only)
  repeat' (first | with_reducible assumption | refine ⟨_, rfl, ?_⟩ | with_reducible apply keeps_ite | with_reducible apply ok_keeps | with_reducible apply cerFail_keeps | with_reducible apply State.at_keeps | with_reducible apply chgAbort_keeps | split | (simp only [keeps_mk]; with_reducible apply Keeps.both))

theorem regLatch_keeps (s : State) (region : Nat) (off : Nat) (hs : Keeps q s) :
    Keeps q (regLatch s region off) := by
  unfold regLatch
  (try dsimp only)
  repeat' (first | with_reducible assumption | with_reducible apply keeps_ite | with_reducible apply State.setReg_keeps)

theorem runOrUnlock_keeps (s : State) (hs : Keeps q s) :
    Keeps q (runOrUnlock s) := by
  unfold runOrUnlock
  (try dsimp only)
  repeat' (first | with_reducible assumption | with_reducible apply keeps_ite | with_reducible apply setOrGuard_keeps | (simp only [keeps_mk]; with_reducible apply Keeps.both))

theorem fxCounterIncrement_keeps (fails : Nat) (s : State) (_role : Nat) (_v : Bytes) (hs : Keeps q s) :
    Keeps q (fxCounterIncrement fails s _role _v).st := by
  unfold fxCounterIncrement
  (try dsimp only)
  repeat' (first | intro _ | with_reducible assumption | with_reducible apply keeps_ite | with_reducible apply keeps_ite1 | with_reducible apply keeps_ite2 | with_reducible apply ctrIncrement_keeps | with_reducible apply ansOK_keeps | with_reducible apply ansErr_keeps | contradiction | split)

theorem fxCounterRaise_keeps (fails : Nat) (s : State) (_role : Nat) (v : Bytes) (hs : Keeps q s) :
    Keeps q (fxCounterRaise fails s _role v).st := by
  unfold fxCounterRaise
  (try dsimp only)
  repeat' (first | intro _ | with_reducible assumption | with_reducible apply keeps_ite | with_reducible apply keeps_ite1 | with_reducible apply keeps_ite2 | with_reducible apply ctrRaise_keeps | with_reducible apply ansOK_keeps | with_reducible apply ansErr_keeps | contradiction | split)

theorem execCounterRaise_keeps (r : Req) (fails : Nat) (s : State) (hs : Keeps q s) :
    ∃ s1, execCounterRaise r fails s = .next s1 ∧ Keeps q s1 := by
  unfold execCounterRaise
  (try dsimp only)
  repeat' (first | intro _ | with_reducible assumption | refine ⟨_, rfl, ?_⟩ | with_reducible apply keeps_ite | with_reducible apply ok_keeps | with_reducible apply serveWrite_keeps | with_reducible apply fxCounterRaise_keeps)

theorem runOrLock_keeps (s : State) (hs : Keeps q s) :
    Keeps q (runOrLock s) := by
  unfold runOrLock
  (try dsimp only)
  repeat' (first | with_reducible assumption | with_reducible apply setOrGuard_keeps | (simp only [keeps_mk]; with_reducible apply Keeps.both))

theorem markNvm_keeps (j : NvmJob) (busy : Bool) (s : State) (hs : Keeps q s) :
    Keeps q (markNvm j busy s) := by
  unfold markNvm
  (try dsimp only)
  repeat' (first | with_reducible assumption | with_reducible apply keeps_ite | with_reducible apply State.noteSet_keeps | (simp only [keeps_mk]; with_reducible apply Keeps.both))

theorem runNvmRead_keeps (ini : Nat) (errs : Nat) (s : State) (hs : Keeps q s) :
    Keeps q (runNvmRead ini errs s) := by
  unfold runNvmRead
  (try dsimp only)
  repeat' (first | with_reducible assumption | with_reducible apply keeps_ite | with_reducible apply State.bump_keeps | contradiction | split | (simp only [keeps_mk]; with_reducible apply Keeps.both))

theorem runNvmWrite_keeps (ini : Nat) (fails : Nat) (s : State) (hs : Keeps q s) :
    Keeps q (runNvmWrite ini fails s) := by
  unfold runNvmWrite
  (try dsimp only)
  repeat' (first | with_reducible assumption | with_reducible apply keeps_ite | with_reducible apply programPage_keeps | contradiction | split | (simp only [keeps_mk]; with_reducible apply Keeps.both))

theorem runNvmCounter_keeps (op : Nat) (ini : Nat) (fails : Nat) (s : State) (hs : Keeps q s) :
    Keeps q (runNvmCounter op ini fails s) := by
  unfold runNvmCounter
  (try dsimp only)
  repeat' (first | with_reducible assumption | with_reducible apply keeps_ite | with_reducible apply ctrIncrement_keeps | with_reducible apply ctrRaise_keeps | with_reducible apply ctrRead_keeps | (simp only [keeps_mk]; with_reducible apply Keeps.both))

theorem runOrRead_keeps (s : State) (hs : Keeps q s) :
    Keeps q (runOrRead s) := by
  unfold runOrRead
  (try dsimp only)
  repeat' (first | with_reducible assumption | with_reducible apply keeps_ite | (simp only [keeps_mk]; with_reducible apply Keeps.both))

theorem runOrWrite_keeps (fails : Nat) (s : State) (hs : Keeps q s) :
    Keeps q (runOrWrite fails s) := by
  unfold runOrWrite
  (try dsimp only)
  repeat' (first | with_reducible assumption | with_reducible apply keeps_ite | with_reducible apply programPage_keeps | (simp only [keeps_mk]; with_reducible apply Keeps.both))

theorem runNvmJob_keeps (j : NvmJob) (s : State) (hs : Keeps q s) :
    Keeps q (runNvmJob j s) := by
  unfold runNvmJob
  (try dsimp only)
  repeat' (first | with_reducible assumption | with_reducible apply keeps_ite | with_reducible apply runNvmRead_keeps | with_reducible apply runNvmWrite_keeps | with_reducible apply runNvmCounter_keeps | with_reducible apply runOrRead_keeps | with_reducible apply runOrWrite_keeps | with_reducible apply runOrUnlock_keeps | with_reducible apply runOrLock_keeps | (simp only [keeps_mk]; with_reducible apply Keeps.both))

theorem startNvm_keeps (j : NvmJob) (s : State) (hs : Keeps q s) :
    ∃ s1, startNvm j s = .next s1 ∧ Keeps q s1 := by
  unfold startNvm
  (try dsimp only)
  repeat' (first | intro _ | with_reducible assumption | refine ⟨_, rfl, ?_⟩ | with_reducible apply keeps_ite | with_reducible apply ok_keeps | with_reducible apply markNvm_keeps | with_reducible apply runNvmJob_keeps | split | (simp only [keeps_mk]; with_reducible apply Keeps.both))

theorem execNvmCounterRead_keeps (ini : Byte) (s : State) (hs : Keeps q s) :
    ∃ s1, execNvmCounterRead ini s = .next s1 ∧ Keeps q s1 := by
  unfold execNvmCounterRead
  (try dsimp only)
  repeat' (first | intro _ | with_reducible assumption | refine ⟨_, rfl, ?_⟩ | with_reducible apply keeps_ite | with_reducible apply startNvm_keeps)

theorem execFuseBurn_keeps (keyDie : Bool) (stuck : Word) (s : State) (hs : Keeps q s) :
    ∃ s1, execFuseBurn keyDie stuck s = .next s1 ∧ Keeps q s1 := by
  unfold execFuseBurn
  (try dsimp only)
  repeat' (first | intro _ | with_reducible assumption | refine ⟨_, rfl, ?_⟩ | with_reducible apply keeps_ite | with_reducible apply keeps_ite1 | with_reducible apply keeps_ite2 | with_reducible apply ok_keeps | with_reducible apply burnFuse_keeps | with_reducible apply State.noteSet_keeps | contradiction | split | (simp only [keeps_mk]; with_reducible apply Keeps.both))

theorem fxCounterReinit_keeps (s : State) (_role : Nat) (_v : Bytes) (hs : Keeps q s) :
    Keeps q (fxCounterReinit s _role _v).st := by
  unfold fxCounterReinit
  (try dsimp only)
  repeat' (first | intro _ | with_reducible assumption | with_reducible apply keeps_ite | with_reducible apply keeps_ite1 | with_reducible apply keeps_ite2 | with_reducible apply ansErr_keeps | with_reducible apply ansOK_keeps | with_reducible apply ctrWrite_keeps | contradiction | split)

theorem execNvmOrRead_keeps (ini : Byte) (s : State) (hs : Keeps q s) :
    ∃ s1, execNvmOrRead ini s = .next s1 ∧ Keeps q s1 := by
  unfold execNvmOrRead
  (try dsimp only)
  repeat' (first | intro _ | with_reducible assumption | refine ⟨_, rfl, ?_⟩ | with_reducible apply keeps_ite | with_reducible apply startNvm_keeps)

theorem execCounterIncrement_keeps (r : Req) (fails : Nat) (s : State) (hs : Keeps q s) :
    ∃ s1, execCounterIncrement r fails s = .next s1 ∧ Keeps q s1 := by
  unfold execCounterIncrement
  (try dsimp only)
  repeat' (first | intro _ | with_reducible assumption | refine ⟨_, rfl, ?_⟩ | with_reducible apply ok_keeps | with_reducible apply serveWrite_keeps | with_reducible apply fxCounterIncrement_keeps)

theorem execNvmCounterIncrement_keeps (ini : Byte) (fails : Nat) (s : State) (hs : Keeps q s) :
    ∃ s1, execNvmCounterIncrement ini fails s = .next s1 ∧ Keeps q s1 := by
  unfold execNvmCounterIncrement
  (try dsimp only)
  repeat' (first | intro _ | with_reducible assumption | refine ⟨_, rfl, ?_⟩ | with_reducible apply keeps_ite | with_reducible apply startNvm_keeps)

theorem execNvmRead_keeps (ini : Byte) (e : ArrayErrors) (s : State) (hs : Keeps q s) :
    ∃ s1, execNvmRead ini e s = .next s1 ∧ Keeps q s1 := by
  unfold execNvmRead
  (try dsimp only)
  repeat' (first | with_reducible assumption | refine ⟨_, rfl, ?_⟩ | with_reducible apply startNvm_keeps)

theorem fxFuseOption_keeps (stuck : Nat) (s : State) (role : Nat) (v : Bytes) (hs : Keeps q s) :
    Keeps q (fxFuseOption stuck s role v).st := by
  unfold fxFuseOption
  (try dsimp only)
  repeat' (first | intro _ | with_reducible assumption | with_reducible apply keeps_ite | with_reducible apply startOp_keeps | with_reducible apply failSlot_keeps | with_reducible apply burnFuse_keeps | with_reducible apply doneSlot_keeps)

theorem execFuseOptionBurn_keeps (r : Req) (stuck : Word) (s : State) (hs : Keeps q s) :
    ∃ s1, execFuseOptionBurn r stuck s = .next s1 ∧ Keeps q s1 := by
  unfold execFuseOptionBurn
  (try dsimp only)
  repeat' (first | with_reducible assumption | refine ⟨_, rfl, ?_⟩ | with_reducible apply ok_keeps | with_reducible apply serveWrite_keeps | with_reducible apply fxFuseOption_keeps)

theorem execCounterReinit_keeps (r : Req) (s : State) (hs : Keeps q s) :
    ∃ s1, execCounterReinit r s = .next s1 ∧ Keeps q s1 := by
  unfold execCounterReinit
  (try dsimp only)
  repeat' (first | intro _ | with_reducible assumption | refine ⟨_, rfl, ?_⟩ | with_reducible apply keeps_ite | with_reducible apply ok_keeps | with_reducible apply serveWrite_keeps | with_reducible apply fxCounterReinit_keeps)

theorem execNvmOrUnlock_keeps (ini : Byte) (s : State) (hs : Keeps q s) :
    ∃ s1, execNvmOrUnlock ini s = .next s1 ∧ Keeps q s1 := by
  unfold execNvmOrUnlock
  (try dsimp only)
  repeat' (first | intro _ | with_reducible assumption | refine ⟨_, rfl, ?_⟩ | with_reducible apply keeps_ite | with_reducible apply startNvm_keeps)

theorem execNvmWrite_keeps (ini : Byte) (fails : Nat) (s : State) (hs : Keeps q s) :
    ∃ s1, execNvmWrite ini fails s = .next s1 ∧ Keeps q s1 := by
  unfold execNvmWrite
  (try dsimp only)
  repeat' (first | intro _ | with_reducible assumption | refine ⟨_, rfl, ?_⟩ | with_reducible apply keeps_ite | with_reducible apply startNvm_keeps)

theorem execNvmOrWrite_keeps (ini : Byte) (fails : Nat) (s : State) (hs : Keeps q s) :
    ∃ s1, execNvmOrWrite ini fails s = .next s1 ∧ Keeps q s1 := by
  unfold execNvmOrWrite
  (try dsimp only)
  repeat' (first | intro _ | with_reducible assumption | refine ⟨_, rfl, ?_⟩ | with_reducible apply keeps_ite | with_reducible apply startNvm_keeps)

theorem execNvmOrLock_keeps (ini : Byte) (s : State) (hs : Keeps q s) :
    ∃ s1, execNvmOrLock ini s = .next s1 ∧ Keeps q s1 := by
  unfold execNvmOrLock
  (try dsimp only)
  repeat' (first | intro _ | with_reducible assumption | refine ⟨_, rfl, ?_⟩ | with_reducible apply keeps_ite | with_reducible apply startNvm_keeps)

theorem execNvmCounterRaise_keeps (ini : Byte) (fails : Nat) (s : State) (hs : Keeps q s) :
    ∃ s1, execNvmCounterRaise ini fails s = .next s1 ∧ Keeps q s1 := by
  unfold execNvmCounterRaise
  (try dsimp only)
  repeat' (first | intro _ | with_reducible assumption | refine ⟨_, rfl, ?_⟩ | with_reducible apply keeps_ite | with_reducible apply startNvm_keeps)

theorem execNvmCommandDone_keeps (s : State) (hs : Keeps q s) :
    ∃ s1, execNvmCommandDone s = .next s1 ∧ Keeps q s1 := by
  unfold execNvmCommandDone
  (try dsimp only)
  repeat' (first | with_reducible assumption | refine ⟨_, rfl, ?_⟩ | with_reducible apply ok_keeps | with_reducible apply markNvm_keeps | with_reducible apply runNvmJob_keeps | split | (simp only [keeps_mk]; with_reducible apply Keeps.both))

end Sys2Proof.Machine
end

