-- ==== Sys2Proof/Laws/KeepsRegisters.lean ====
section
/-!
SUPPORT. What every function keeps (registers, the fabric and the parts of a lane instruction): the queue of waiting commands, the canonical form of the MRAM,
and every fuse bit that is blown. One lemma per function; later lemmas cite the earlier ones.
-/
namespace Sys2Proof.Machine
variable {q : State}

theorem mbxCtrl_keeps (v : Nat) (s : State) (hs : Keeps q s) :
    Keeps q (mbxCtrl v s) := by
  unfold mbxCtrl
  (try dsimp only)
  repeat' (first | with_reducible assumption | with_reducible apply keeps_ite | with_reducible apply State.setReg_keeps | with_reducible apply State.noteSet_keeps)

theorem keyGo_keeps (s : State) (hs : Keeps q s) :
    Keeps q (keyGo s) := by
  unfold keyGo
  (try dsimp only)
  repeat' (first | with_reducible assumption | with_reducible apply keeps_ite | with_reducible apply State.noteSet_keeps | with_reducible apply runKey_keeps | with_reducible apply State.setSlot_keeps)

theorem after_keeps {r : Res} {s : State} (hr : ∃ t, r = .next t ∧ Keeps q t) : Keeps q (after r s) := by
  obtain ⟨t, rfl, h⟩ := hr
  exact h

theorem nvmGo_keeps (ini : Nat) (v : Nat) (owner : Bool) (s : State) (hs : Keeps q s) :
    Keeps q (nvmGo ini v owner s) := by
  unfold nvmGo
  (try dsimp only)
  repeat' (first | with_reducible assumption | with_reducible apply keeps_ite | with_reducible apply after_keeps | with_reducible apply execNvmOrRead_keeps | with_reducible apply execNvmOrWrite_keeps | with_reducible apply execNvmOrUnlock_keeps | with_reducible apply execNvmOrLock_keeps | with_reducible apply execNvmRead_keeps | with_reducible apply execNvmWrite_keeps | with_reducible apply execNvmCounterIncrement_keeps | with_reducible apply execNvmCounterRaise_keeps | with_reducible apply execNvmCounterRead_keeps | contradiction | split | (simp only [keeps_mk]; with_reducible apply Keeps.both))

theorem rerunGo_keeps (s : State) (e : Nat × Nat × Nat) (hs : Keeps q s) :
    Keeps q (rerunGo s e) := by
  unfold rerunGo
  (try dsimp only)
  repeat' (first | with_reducible assumption | with_reducible apply keeps_ite | with_reducible apply keyGo_keeps | with_reducible apply after_keeps | with_reducible apply execMrVendorExtend_keeps | with_reducible apply execMrOwnerExtend_keeps | with_reducible apply bgGo_keeps | with_reducible apply nvmGo_keeps)

theorem winCtrlWrite_keeps (d : Nat) (n : Nat) (v : Nat) (s : State) (hs : Keeps q s) :
    Keeps q (winCtrlWrite d n v s) := by
  unfold winCtrlWrite
  (try dsimp only)
  repeat' (first | with_reducible assumption | with_reducible apply keeps_ite | with_reducible apply State.setWin_keeps | with_reducible apply winEnable_keeps | with_reducible apply winLock_keeps)

theorem onlyIf_keeps (c : Bool) (f : State → State) (s : State) (hf : ∀ (x0 : State), Keeps q x0 → Keeps q (f x0)) (hs : Keeps q s) :
    Keeps q (onlyIf c f s) := by
  unfold onlyIf
  (try dsimp only)
  repeat' (first | with_reducible assumption | with_reducible apply keeps_ite | with_reducible apply hf)

theorem keyWrite_keeps (o : Nat) (v : Nat) (s : State) (hs : Keeps q s) :
    Keeps q (keyWrite o v s) := by
  unfold keyWrite
  (try dsimp only)
  repeat' (first | with_reducible assumption | with_reducible apply keeps_ite | with_reducible apply onlyIf_keeps | with_reducible apply keyGo_keeps | with_reducible apply State.setSlot_keeps | (simp only [keeps_mk]; with_reducible apply Keeps.both))

theorem fusWrite_keeps (o : Nat) (v : Nat) (s : State) (hs : Keeps q s) :
    Keeps q (fusWrite o v s) := by
  unfold fusWrite
  (try dsimp only)
  repeat' (first | intro _ | with_reducible assumption | with_reducible apply keeps_ite | with_reducible apply onlyIf_keeps | with_reducible apply after_keeps | with_reducible apply execFuseBurn_keeps | (simp only [keeps_mk]; with_reducible apply Keeps.both))

theorem rstBlk_keeps (v : Nat) (s : State) (hs : Keeps q s) :
    Keeps q (rstBlk v s) := by
  unfold rstBlk
  (try dsimp only)
  repeat' (first | with_reducible assumption | with_reducible apply keeps_ite | with_reducible apply after_keeps | with_reducible apply execBlockResetQuad_keeps | with_reducible apply execBlockResetPk_keeps | with_reducible apply execBlockResetPort_keeps | (simp only [keeps_mk]; with_reducible apply Keeps.both))

theorem rstWrite_keeps (o : Nat) (v : Nat) (s : State) (hs : Keeps q s) :
    Keeps q (rstWrite o v s) := by
  unfold rstWrite
  (try dsimp only)
  repeat' (first | intro _ | with_reducible assumption | with_reducible apply keeps_ite | with_reducible apply systemReset_keeps | with_reducible apply coreReset_keeps | with_reducible apply onlyIf_keeps | with_reducible apply after_keeps | with_reducible apply execWatchdogEnable_keeps | with_reducible apply execWatchdogKick_keeps | with_reducible apply rstBlk_keeps | (simp only [keeps_mk]; with_reducible apply Keeps.both))

theorem pkeWrite_keeps (d : Nat) (o : Nat) (v : Nat) (s : State) (hs : Keeps q s) :
    Keeps q (pkeWrite d o v s) := by
  unfold pkeWrite
  (try dsimp only)
  repeat' (first | intro _ | with_reducible assumption | with_reducible apply keeps_ite | with_reducible apply State.setBg_keeps | with_reducible apply onlyIf_keeps | with_reducible apply bgAbort_keeps | with_reducible apply State.noteSet_keeps | with_reducible apply bgGo_keeps)

theorem hpqQueueWrite_keeps (z0 : Nat) (o : Nat) (v : Nat) (s : State) (hs : Keeps q s) :
    Keeps q (hpqQueueWrite z0 o v s) := by
  unfold hpqQueueWrite
  (try dsimp only)
  repeat' (first | with_reducible assumption | with_reducible apply keeps_ite | with_reducible apply State.setHq_keeps | with_reducible apply after_keeps | with_reducible apply execHpqQueueEnable_keeps | with_reducible apply execHpqQueueDisable_keeps | with_reducible apply execHostSqTailWrite_keeps)

theorem hpqWrite_keeps (o : Nat) (v : Nat) (s : State) (hs : Keeps q s) :
    Keeps q (hpqWrite o v s) := by
  unfold hpqWrite
  (try dsimp only)
  repeat' (first | with_reducible assumption | with_reducible apply keeps_ite | with_reducible apply hpqQueueWrite_keeps | with_reducible apply mbxCtrl_keeps | with_reducible apply State.setReg_keeps | (simp only [keeps_mk]; with_reducible apply Keeps.both))

theorem actWrite_keeps (d : Nat) (o : Nat) (v : Nat) (s : State) (hs : Keeps q s) :
    Keeps q (actWrite d o v s) := by
  unfold actWrite
  (try dsimp only)
  repeat' (first | with_reducible assumption | with_reducible apply keeps_ite | with_reducible apply State.setActTab_keeps | with_reducible apply winCtrlWrite_keeps | with_reducible apply State.setWin_keeps | (simp only [keeps_mk]; with_reducible apply Keeps.both))

theorem xdWrite_keeps (blk : Nat) (o : Nat) (v : Nat) (s : State) (hs : Keeps q s) :
    Keeps q (xdWrite blk o v s) := by
  unfold xdWrite
  (try dsimp only)
  repeat' (first | with_reducible assumption | with_reducible apply keeps_ite | with_reducible apply hpqWrite_keeps | with_reducible apply State.setMlink_keeps | with_reducible apply actWrite_keeps | contradiction | split)

theorem laneCtrl_keeps (l : Nat) (v : Nat) (s : State) (hs : Keeps q s) :
    Keeps q (laneCtrl l v s) := by
  unfold laneCtrl
  (try dsimp only)
  repeat' (first | with_reducible assumption | with_reducible apply State.setLane_keeps | with_reducible apply onlyIf_keeps | with_reducible apply bankLoad_keeps | with_reducible apply bankAck_keeps | with_reducible apply bankDiscard_keeps | with_reducible apply unfenceLane_keeps | with_reducible apply fenceLane_keeps)

theorem laneRegWrite_keeps (l : Nat) (o : Nat) (v : Nat) (s : State) (hs : Keeps q s) :
    Keeps q (laneRegWrite l o v s) := by
  unfold laneRegWrite
  (try dsimp only)
  repeat' (first | with_reducible assumption | with_reducible apply keeps_ite | with_reducible apply laneCtrl_keeps | with_reducible apply State.setLane_keeps | with_reducible apply timerConfig_keeps | with_reducible apply tevtClear_keeps | with_reducible apply mbxSet_keeps | with_reducible apply mbxClear_keeps)

theorem lnWrite_keeps (d : Nat) (o : Nat) (v : Nat) (s : State) (hs : Keeps q s) :
    Keeps q (lnWrite d o v s) := by
  unfold lnWrite
  (try dsimp only)
  repeat' (first | with_reducible assumption | with_reducible apply keeps_ite | with_reducible apply laneRegWrite_keeps)

theorem cdWrite_keeps (d : Nat) (blk : Nat) (o : Nat) (v : Nat) (s : State) (hs : Keeps q s) :
    Keeps q (cdWrite d blk o v s) := by
  unfold cdWrite
  (try dsimp only)
  repeat' (first | with_reducible assumption | with_reducible apply keeps_ite | with_reducible apply State.setAud_keeps | with_reducible apply lnWrite_keeps | with_reducible apply pkeWrite_keeps | with_reducible apply actWrite_keeps | contradiction | split)

theorem digWrite_keeps (o : Nat) (v : Nat) (s : State) (hs : Keeps q s) :
    Keeps q (digWrite o v s) := by
  unfold digWrite
  (try dsimp only)
  repeat' (first | intro _ | with_reducible assumption | with_reducible apply keeps_ite | with_reducible apply onlyIf_keeps | with_reducible apply after_keeps | with_reducible apply execDigAbort_keeps | with_reducible apply execDigStart_keeps | with_reducible apply State.setReg_keeps | with_reducible apply execDigDataWrite_keeps | (simp only [keeps_mk]; with_reducible apply Keeps.both))

theorem mrWrite_keeps (ini : Nat) (o : Nat) (v : Nat) (s : State) (hs : Keeps q s) :
    Keeps q (mrWrite ini o v s) := by
  unfold mrWrite
  (try dsimp only)
  repeat' (first | intro _ | with_reducible assumption | with_reducible apply keeps_ite | with_reducible apply onlyIf_keeps | with_reducible apply State.noteSet_keeps | with_reducible apply after_keeps | with_reducible apply execMrVendorExtend_keeps | with_reducible apply execMrOwnerExtend_keeps | with_reducible apply execBootlock_keeps | with_reducible apply State.setReg_keeps | (simp only [keeps_mk]; with_reducible apply Keeps.both))

theorem tmpWrite_keeps (o : Nat) (v : Nat) (s : State) (hs : Keeps q s) :
    Keeps q (tmpWrite o v s) := by
  unfold tmpWrite
  (try dsimp only)
  repeat' (first | intro _ | with_reducible assumption | with_reducible apply keeps_ite | with_reducible apply State.setCond_keeps | with_reducible apply after_keeps | with_reducible apply execTmpZeroWrite_keeps | (simp only [keeps_mk]; with_reducible apply Keeps.both) | with_reducible apply keeps_foldl)

theorem pwrWrite_keeps (o : Nat) (v : Nat) (s : State) (hs : Keeps q s) :
    Keeps q (pwrWrite o v s) := by
  unfold pwrWrite
  (try dsimp only)
  repeat' (first | with_reducible assumption | with_reducible apply keeps_ite | with_reducible apply after_keeps | with_reducible apply execPwrHoldQuads_keeps | with_reducible apply execPwrHoldPk_keeps | with_reducible apply execPwrHoldDeep_keeps | (simp only [keeps_mk]; with_reducible apply Keeps.both))

theorem nvmRegWrite_keeps (ini o v : Nat) (s : State) (hs : Keeps q s) : Keeps q (nvmRegWrite ini o v s) := by
  have h (n : NvmState) (hm : n.mram = s.nvm.mram) (hf : n.fuses = s.nvm.fuses) : Keeps q { s with nvm := n } :=
    ⟨hs.1, by rw [hm]; exact hs.2, by rw [hf]; exact hs.3⟩
  unfold nvmRegWrite
  extract_lets n q1 _ pwd busy s1 _ p busy2 s2
  have h1 : Keeps q s1 := h _ rfl rfl
  have h2 : Keeps q s2 := h _ rfl rfl
  exact keeps_ite (keeps_ite h1 (keeps_ite (State.noteSet_keeps _ _ _ h1) (nvmGo_keeps _ _ _ _ h1)))
    (keeps_ite h2 (keeps_ite (State.noteSet_keeps _ _ _ h2) (nvmGo_keeps _ _ _ _ h2)))

theorem cusWrite_keeps (o : Nat) (v : Nat) (s : State) (hs : Keeps q s) :
    Keeps q (cusWrite o v s) := by
  unfold cusWrite
  (try dsimp only)
  repeat' (first | with_reducible assumption | with_reducible apply keeps_ite | with_reducible apply after_keeps | with_reducible apply execCardDeactivate_keeps)

theorem kdWrite_keeps (ini : Nat) (blk : Nat) (o : Nat) (v : Nat) (s : State) (hs : Keeps q s) :
    Keeps q (kdWrite ini blk o v s) := by
  unfold kdWrite
  (try dsimp only)
  repeat' (first | with_reducible assumption | with_reducible apply keyWrite_keeps | with_reducible apply digWrite_keeps | with_reducible apply mrWrite_keeps | with_reducible apply tmpWrite_keeps | with_reducible apply actWrite_keeps | with_reducible apply pwrWrite_keeps | with_reducible apply rstWrite_keeps | with_reducible apply nvmRegWrite_keeps | with_reducible apply fusWrite_keeps | with_reducible apply cusWrite_keeps | contradiction | split)

theorem regWrite_keeps (ini : Nat) (region : Nat) (off : Nat) (v : Nat) (s : State) (hs : Keeps q s) :
    Keeps q (regWrite ini region off v s) := by
  unfold regWrite
  (try dsimp only)
  repeat' (first | with_reducible assumption | with_reducible apply keeps_ite | with_reducible apply cdWrite_keeps | with_reducible apply kdWrite_keeps | with_reducible apply xdWrite_keeps)

theorem regWords_keeps (ini region off : Nat) (l : List Bytes) (s : State) (hs : Keeps q s) : Keeps q (regWords ini region off l s) := by
  induction l generalizing off s with
  | nil => exact hs
  | cons w l ih => exact ih _ _ (regWrite_keeps _ _ _ _ _ hs)

theorem tick_keeps (s : State) (hs : Keeps q s) :
    Keeps q (tick s) := by
  unfold tick
  (try dsimp only)
  repeat' (first | intro _ | with_reducible assumption | with_reducible apply rerunGo_keeps | (simp only [keeps_mk]; with_reducible apply Keeps.both) | with_reducible apply keeps_foldl)

theorem busRead_keeps (addr : Nat) (n : Nat) (s : State) (hs : Keeps q s) :
    Keeps q (busRead addr n s).2 := by
  unfold busRead
  (try dsimp only)
  repeat' (first | intro _ | with_reducible assumption | with_reducible apply keeps_ite | with_reducible apply keeps_ite2 | with_reducible apply regLatch_keeps | with_reducible apply fabRead_keeps)

theorem busWrite_keeps (ini : Nat) (addr : Nat) (bs : Bytes) (s : State) (hs : Keeps q s) :
    Keeps q (busWrite ini addr bs s) := by
  unfold busWrite
  (try dsimp only)
  repeat' (first | with_reducible assumption | with_reducible apply keeps_ite | with_reducible apply regWords_keeps | with_reducible apply fabWrite_keeps)

theorem storeEnt_keeps (idx : Nat) (sub : Nat) (v : Bytes) (s : State) (hs : Keeps q s) :
    Keeps q (storeEnt idx sub v s) := by
  unfold storeEnt
  (try dsimp only)
  repeat' (first | with_reducible assumption | with_reducible apply keeps_ite | with_reducible apply State.setEnt_keeps | contradiction | split | (simp only [keeps_mk]; with_reducible apply Keeps.both))

theorem fxWindow_keeps (idx : Nat) (sub : Nat) (s : State) (_role : Nat) (v : Bytes) (hs : Keeps q s) :
    Keeps q (fxWindow idx sub s _role v).st := by
  unfold fxWindow
  (try dsimp only)
  repeat' (first | with_reducible assumption | with_reducible apply keeps_ite | with_reducible apply storeEnt_keeps | with_reducible apply ansOK_keeps | with_reducible apply applyHostWindow_keeps)

theorem performAcc_keeps (a : StalledAcc) (s : State) (hs : Keeps q s) :
    Keeps q (performAcc a s) := by
  unfold performAcc
  (try dsimp only)
  repeat' (first | with_reducible assumption | with_reducible apply keeps_ite | with_reducible apply State.emit_keeps | with_reducible apply busWrite_keeps | with_reducible apply busRead_keeps)

theorem wakeFor_keeps (d : Nat) (ini : Nat) (s : State) (hs : Keeps q s) :
    Keeps q (wakeFor d ini s) := by
  unfold wakeFor
  (try dsimp only)
  repeat' (first | with_reducible assumption | with_reducible apply keeps_ite | with_reducible apply deepWake_keeps | with_reducible apply wakeDomain_keeps)

theorem grantAcc_keeps (a : StalledAcc) (s : State) (hs : Keeps q s) :
    Keeps q (grantAcc a s) := by
  unfold grantAcc
  (try dsimp only)
  repeat' (first | with_reducible assumption | with_reducible apply keeps_ite | with_reducible apply performAcc_keeps | with_reducible apply State.emit_keeps | with_reducible apply wakeFor_keeps | (simp only [keeps_mk]; with_reducible apply Keeps.both))

theorem execDmaPiece_keeps (ini : Byte) (addr : BitVec 40) (write : Bool) (done : Word) (len : Fin 65) (data : Bytes) (s : State) (hs : Keeps q s) :
    ∃ s1, execDmaPiece ini addr write done len data s = .next s1 ∧ Keeps q s1 := by
  unfold execDmaPiece
  (try dsimp only)
  repeat' (first | intro _ | with_reducible assumption | refine ⟨_, rfl, ?_⟩ | with_reducible apply keeps_ite | with_reducible apply keeps_ite1 | with_reducible apply keeps_ite2 | with_reducible apply ok_keeps | with_reducible apply judged_keeps | with_reducible apply grantAcc_keeps | with_reducible apply State.emit_keeps | contradiction | split)

theorem execAccessWindowEntryWrite_keeps (r : Req) (s : State) (hs : Keeps q s) :
    ∃ s1, execAccessWindowEntryWrite r s = .next s1 ∧ Keeps q s1 := by
  unfold execAccessWindowEntryWrite
  (try dsimp only)
  repeat' (first | intro _ | with_reducible assumption | refine ⟨_, rfl, ?_⟩ | with_reducible apply keeps_ite | with_reducible apply keeps_ite1 | with_reducible apply keeps_ite2 | with_reducible apply ok_keeps | with_reducible apply serveWrite_keeps | with_reducible apply fxWindow_keeps | contradiction | split)

theorem fabricAccess_keeps (ini : Nat) (addr : Nat) (kind : Nat) (len : Nat) (data : Bytes) (s : State) (hs : Keeps q s) :
    Keeps q (fabricAccess ini addr kind len data s) := by
  unfold fabricAccess
  (try dsimp only)
  repeat' (first | with_reducible assumption | with_reducible apply keeps_ite | with_reducible apply judged_keeps | with_reducible apply grantAcc_keeps | with_reducible apply State.emit_keeps)

theorem execTapFabric_keeps (addr : BitVec 40) (write : Bool) (data : Word) (s : State) (hs : Keeps q s) :
    ∃ s1, execTapFabric addr write data s = .next s1 ∧ Keeps q s1 := by
  unfold execTapFabric
  (try dsimp only)
  repeat' (first | with_reducible assumption | refine ⟨_, rfl, ?_⟩ | with_reducible apply keeps_ite | with_reducible apply ok_keeps | with_reducible apply tapSelect_keeps | with_reducible apply fabricAccess_keeps | split | (simp only [keeps_mk]; with_reducible apply Keeps.both))

theorem readyAll_keeps (d : Nat) (late : Bool) (s : State) (hs : Keeps q s) :
    Keeps q (readyAll d late s) := by
  unfold readyAll
  (try dsimp only)
  repeat' (first | intro _ | with_reducible assumption | with_reducible apply keeps_ite | with_reducible apply domainReadyNow_keeps | with_reducible apply performAcc_keeps | (simp only [keeps_mk]; with_reducible apply Keeps.both) | with_reducible apply keeps_foldl)

theorem execDefenLock_keeps (die : Fin 4) (s : State) (hs : Keeps q s) :
    ∃ s1, execDefenLock die s = .next s1 ∧ Keeps q s1 := by
  unfold execDefenLock
  (try dsimp only)
  repeat' (first | with_reducible assumption | refine ⟨_, rfl, ?_⟩ | with_reducible apply ok_keeps | with_reducible apply State.setActTab_keeps)

theorem execRegisterWrite_keeps (die : Fin 4) (off : BitVec 20) (v : Word) (s : State) (hs : Keeps q s) :
    ∃ s1, execRegisterWrite die off v s = .next s1 ∧ Keeps q s1 := by
  unfold execRegisterWrite
  (try dsimp only)
  repeat' (first | intro _ | with_reducible assumption | refine ⟨_, rfl, ?_⟩ | with_reducible apply keeps_ite | with_reducible apply keeps_ite1 | with_reducible apply keeps_ite2 | with_reducible apply ok_keeps | with_reducible apply regWrite_keeps | contradiction | split)

theorem execFabricAccess_keeps (a : FabAccess) (s : State) (hs : Keeps q s) :
    ∃ s1, execFabricAccess a s = .next s1 ∧ Keeps q s1 := by
  unfold execFabricAccess
  (try dsimp only)
  repeat' (first | with_reducible assumption | refine ⟨_, rfl, ?_⟩ | with_reducible apply keeps_ite | with_reducible apply ok_keeps | with_reducible apply fabricAccess_keeps)

theorem execWindowLock_keeps (die : Fin 4) (n : Fin 64) (s : State) (hs : Keeps q s) :
    ∃ s1, execWindowLock die n s = .next s1 ∧ Keeps q s1 := by
  unfold execWindowLock
  (try dsimp only)
  repeat' (first | with_reducible assumption | refine ⟨_, rfl, ?_⟩ | with_reducible apply ok_keeps | with_reducible apply winLock_keeps)

theorem execWindowEnable_keeps (die : Fin 4) (n : Fin 64) (s : State) (hs : Keeps q s) :
    ∃ s1, execWindowEnable die n s = .next s1 ∧ Keeps q s1 := by
  unfold execWindowEnable
  (try dsimp only)
  repeat' (first | with_reducible assumption | refine ⟨_, rfl, ?_⟩ | with_reducible apply keeps_ite | with_reducible apply ok_keeps | with_reducible apply winEnable_keeps)

theorem State.setCore_keeps (s : State) (n : Nat) (c : Core) (hs : Keeps q s) :
    Keeps q (State.setCore s n c) := by
  unfold State.setCore
  (try dsimp only)
  repeat' (first | with_reducible assumption | with_reducible apply keeps_ite | (simp only [keeps_mk]; with_reducible apply Keeps.both))

theorem frameStore_keeps (jn : Nat) (off : Nat) (bs : Bytes) (s : State) (hs : Keeps q s) :
    Keeps q (frameStore jn off bs s) := by
  unfold frameStore
  (try dsimp only)
  repeat' (first | intro _ | with_reducible assumption | with_reducible apply State.setJob_keeps)

theorem laneBankStore_keeps (l : Nat) (off : Nat) (bs : Bytes) (s : State) (hs : Keeps q s) :
    Keeps q (laneBankStore l off bs s) := by
  unfold laneBankStore
  (try dsimp only)
  repeat' (first | with_reducible assumption | with_reducible apply keeps_ite | with_reducible apply timerConfig_keeps | with_reducible apply tevtClear_keeps | with_reducible apply mbxSet_keeps | with_reducible apply mbxClear_keeps | with_reducible apply State.setLane_keeps)

theorem laneWrite_keeps (l : Nat) (bank : Nat) (off : Nat) (bs : Bytes) (s : State) (hs : Keeps q s) :
    Keeps q (laneWrite l bank off bs s) := by
  unfold laneWrite
  (try dsimp only)
  repeat' (first | with_reducible assumption | with_reducible apply keeps_ite | with_reducible apply State.setLane_keeps | with_reducible apply frameStore_keeps | with_reducible apply fabWrite_keeps | with_reducible apply laneBankStore_keeps)

theorem completeOldest_keeps (l : Nat) (s : State) (hs : Keeps q s) :
    Keeps q (completeOldest l s).2 := by
  unfold completeOldest
  (try dsimp only)
  repeat' (first | with_reducible assumption | with_reducible apply keeps_ite | with_reducible apply keeps_ite2 | with_reducible apply State.setCore_keeps | with_reducible apply laneWrite_keeps | with_reducible apply recordViolation_keeps | contradiction | split)

theorem drainTo_keeps (l t n : Nat) (s : State) (hs : Keeps q s) : Keeps q (drainTo l t n s).2 := by
  induction n generalizing s with
  | zero => exact hs
  | succ n ih =>
    unfold drainTo
    split
    · exact hs
    · have h := completeOldest_keeps l s hs
      exact keeps_ite2 (keeps_ite2 h (ih _ h)) hs

theorem drainAll_keeps (l : Nat) (s : State) (hs : Keeps q s) : Keeps q (drainAll l s).2 := drainTo_keeps _ _ _ _ hs

theorem flushWb_keeps (l : Nat) (s : State) (hs : Keeps q s) :
    Keeps q (flushWb l s) := by
  unfold flushWb
  (try dsimp only)
  repeat' (first | with_reducible assumption | with_reducible apply drainAll_keeps | with_reducible apply State.setCore_keeps)

theorem State.setSup_keeps (s : State) (v : SupState) (hs : Keeps q s) :
    Keeps q (State.setSup s v) := ⟨hs.1, hs.2, hs.3⟩

theorem pushWb_keeps (l t bank off : Nat) (bs : Bytes) (s : State) (hs : Keeps q s) : Keeps q (pushWb l t bank off bs s) :=
  State.setCore_keeps _ _ _ (drainTo_keeps _ _ _ _ hs)

theorem opTrap_keeps (s : State) (t : Trp) (hs : Keeps q s) :
    Keeps q (opTrap s t).st := by
  unfold opTrap
  (try dsimp only)
  repeat' (first | intro _ | with_reducible assumption)

theorem waitEmpty_keeps (n : Nat) (t : Nat) (s : State) (hs : Keeps q s) :
    Keeps q (waitEmpty n t s).st := by
  unfold waitEmpty
  (try dsimp only)
  repeat' (first | with_reducible assumption | with_reducible apply keeps_ite | with_reducible apply drainAll_keeps | with_reducible apply State.setCore_keeps | contradiction | split)

theorem judgeLoad_keeps (n : Nat) (bank : Nat) (off : Nat) (s : State) (hs : Keeps q s) :
    Keeps q (judgeLoad n bank off s).2 := by
  unfold judgeLoad
  (try dsimp only)
  repeat' (first | with_reducible assumption | with_reducible apply keeps_ite | with_reducible apply keeps_ite2 | with_reducible apply judged_keeps)

theorem supReach_keeps (addr : Nat) (s : State) (hs : Keeps q s) :
    Keeps q (supReach addr s).2 := by
  unfold supReach
  (try dsimp only)
  repeat' (first | with_reducible assumption | with_reducible apply keeps_ite | with_reducible apply keeps_ite2 | with_reducible apply wakeFor_keeps | with_reducible apply State.at_keeps | with_reducible apply readyAll_keeps | with_reducible apply State.setDom_keeps)

theorem supRead_keeps (addr : Nat) (n : Nat) (s : State) (hs : Keeps q s) :
    Keeps q (supRead addr n s).2 := by
  unfold supRead
  (try dsimp only)
  repeat' (first | with_reducible assumption | with_reducible apply keeps_ite | with_reducible apply keeps_ite2 | with_reducible apply supReach_keeps | with_reducible apply busRead_keeps | with_reducible apply State.draw_keeps)

theorem memLoad_keeps (n : Nat) (t : Nat) (bank : Nat) (off : Nat) (len : Nat) (s : State) (hs : Keeps q s) :
    Keeps q (memLoad n t bank off len s).st := by
  unfold memLoad
  (try dsimp only)
  repeat' (first | with_reducible assumption | with_reducible apply keeps_ite | with_reducible apply waitEmpty_keeps | with_reducible apply judgeLoad_keeps | with_reducible apply supRead_keeps | contradiction | split)

theorem popAll_keeps (n t bank k off : Nat) (s : State) (hs : Keeps q s) : Keeps q (popAll n t bank k off s).st := by
  induction k generalizing off s with
  | zero => exact hs
  | succ k ih =>
    unfold popAll
    dsimp only
    have h := memLoad_keeps n t bank (off - 4) 4 s hs
    split
    · exact h
    · split
      · exact ih _ _ h
      · exact ih _ _ h

theorem opSeq_keeps (s : State) (hs : Keeps q s) :
    Keeps q (opSeq s).st := ⟨hs.1, hs.2, hs.3⟩

theorem opPop_keeps (n : Nat) (t : Nat) (k : Nat) (put : List Word → Core → Core) (s : State) (hs : Keeps q s) :
    Keeps q (opPop n t k put s).st := by
  unfold opPop
  (try dsimp only)
  repeat' (first | intro _ | with_reducible assumption | with_reducible apply keeps_ite | with_reducible apply opTrap_keeps | with_reducible apply popAll_keeps | with_reducible apply opSeq_keeps | with_reducible apply State.setCore_keeps | contradiction | split)

theorem supWrite_keeps (addr : Nat) (bs : Bytes) (s : State) (hs : Keeps q s) :
    Keeps q (supWrite addr bs s) := by
  unfold supWrite
  (try dsimp only)
  repeat' (first | with_reducible assumption | with_reducible apply keeps_ite | with_reducible apply supReach_keeps | with_reducible apply busWrite_keeps)

theorem memStore_keeps (n : Nat) (t : Nat) (bank : Nat) (off : Nat) (bs : Bytes) (s : State) (hs : Keeps q s) :
    Keeps q (memStore n t bank off bs s).st := by
  unfold memStore
  (try dsimp only)
  repeat' (first | intro _ | with_reducible assumption | with_reducible apply keeps_ite | with_reducible apply keeps_ite1 | with_reducible apply keeps_ite2 | with_reducible apply pushWb_keeps | with_reducible apply laneWrite_keeps | with_reducible apply judged_keeps | with_reducible apply supWrite_keeps | with_reducible apply State.setCore_keeps | contradiction | split)

theorem pushAll_keeps (n bank t off : Nat) (l : List Word) (s : State) (hs : Keeps q s) : Keeps q (pushAll n bank t off l s).st := by
  induction l generalizing t off s with
  | nil => exact hs
  | cons w l ih =>
    unfold pushAll
    dsimp only
    have h := memStore_keeps n t bank off (beBytes w.toNat 4) s hs
    split
    · exact h
    · exact ih _ _ _ h

theorem opLd_keeps (n : Nat) (t : Nat) (d : Nat) (a : Nat) (sz : Nat) (bsel : Bool) (mode : Nat) (sx : Bool) (off : Nat) (s : State) (hs : Keeps q s) :
    Keeps q (opLd n t d a sz bsel mode sx off s).st := by
  unfold opLd
  (try dsimp only)
  repeat' (first | with_reducible assumption | with_reducible apply keeps_ite | with_reducible apply opTrap_keeps | with_reducible apply memLoad_keeps | with_reducible apply opSeq_keeps | with_reducible apply State.setCore_keeps | contradiction | split)

theorem opSt_keeps (n : Nat) (t : Nat) (d : Nat) (a : Nat) (sz : Nat) (bsel : Bool) (mode : Nat) (off : Nat) (s : State) (hs : Keeps q s) :
    Keeps q (opSt n t d a sz bsel mode off s).st := by
  unfold opSt
  (try dsimp only)
  repeat' (first | with_reducible assumption | with_reducible apply keeps_ite | with_reducible apply opTrap_keeps | with_reducible apply memStore_keeps | with_reducible apply opSeq_keeps | with_reducible apply State.setCore_keeps | contradiction | split)

theorem pushRefusal_keeps {n b a k : Nat} {s : State} {r : MemRes} (he : pushRefusal n b a k s = some r) (hs : Keeps q s) : Keeps q r.st := by
  unfold pushRefusal at he
  split at he
  · contradiction
  · obtain ⟨i, _, hi⟩ := List.exists_of_findSome?_eq_some he
    dsimp only at hi
    split at hi
    · contradiction
    · rw [← Option.some.inj hi]
      exact judged_keeps _ _ _ _ _ _ _ hs
theorem opPush_keeps (n : Nat) (t : Nat) (ws : List Word) (s : State) (hs : Keeps q s) : Keeps q (opPush n t ws s).st := by
  unfold opPush
  extract_lets c a b e r
  have hr (r' : MemRes) (h : r' = r) : Keeps q r'.st := by
    subst h
    unfold r
    cases h : pushRefusal n b a ws.length s with
    | none => exact pushAll_keeps _ _ _ _ _ _ hs
    | some x => exact pushRefusal_keeps h hs
  have h1 := hr r rfl
  clear_value r
  repeat' (first | exact opTrap_keeps _ _ hs | exact opTrap_keeps _ _ h1 | split | exact opSeq_keeps _ (State.setCore_keeps _ _ _ h1))

theorem pushRet_keeps (n : Nat) (s : State) (hs : Keeps q s) :
    Keeps q (pushRet n s) := by
  unfold pushRet
  (try dsimp only)
  repeat' (first | with_reducible assumption | with_reducible apply State.setCore_keeps)

theorem opJump_keeps (n : Nat) (fn : Nat) (ds : Nat) (s : State) (hs : Keeps q s) :
    Keeps q (opJump n fn ds s).st := by
  unfold opJump
  (try dsimp only)
  repeat' (first | with_reducible assumption | with_reducible apply keeps_ite | with_reducible apply opTrap_keeps | with_reducible apply State.setCore_keeps | with_reducible apply pushRet_keeps | contradiction | split)

theorem opBranch_keeps (n : Nat) (off : Nat) (call : Bool) (s : State) (hs : Keeps q s) :
    Keeps q (opBranch n off call s).st := by
  unfold opBranch
  (try dsimp only)
  repeat' (first | intro _ | with_reducible assumption | with_reducible apply keeps_ite | with_reducible apply keeps_ite1 | with_reducible apply keeps_ite2 | with_reducible apply opTrap_keeps | with_reducible apply pushRet_keeps | with_reducible apply State.setCore_keeps | contradiction | split)

theorem opWait_keeps (s : State) (hs : Keeps q s) :
    Keeps q (opWait s).st := by
  unfold opWait
  (try dsimp only)
  repeat' (first | with_reducible assumption | with_reducible apply opSeq_keeps | with_reducible apply State.setSup_keeps)

theorem opMtc_keeps (n : Nat) (d : Nat) (i : Nat) (s : State) (hs : Keeps q s) :
    Keeps q (opMtc n d i s).st := by
  unfold opMtc
  (try dsimp only)
  repeat' (first | with_reducible assumption | with_reducible apply keeps_ite | with_reducible apply opSeq_keeps | with_reducible apply State.setCore_keeps | with_reducible apply opTrap_keeps | with_reducible apply State.setSup_keeps | contradiction | split)

theorem opMfc_keeps (n : Nat) (t : Nat) (d : Nat) (i : Nat) (s : State) (hs : Keeps q s) :
    Keeps q (opMfc n t d i s).st := by
  unfold opMfc
  (try dsimp only)
  repeat' (first | with_reducible assumption | with_reducible apply keeps_ite | with_reducible apply opSeq_keeps | with_reducible apply State.setCore_keeps | with_reducible apply opTrap_keeps | contradiction | split)

theorem opEret_keeps (s : State) (hs : Keeps q s) :
    Keeps q (opEret s).st := by
  unfold opEret
  (try dsimp only)
  repeat' (first | with_reducible assumption | with_reducible apply State.setSup_keeps)

theorem opLoop_keeps (n : Nat) (count : Word) (off : Nat) (s : State) (hs : Keeps q s) :
    Keeps q (opLoop n count off s).st := by
  unfold opLoop
  (try dsimp only)
  repeat' (first | intro _ | with_reducible assumption | with_reducible apply keeps_ite | with_reducible apply keeps_ite1 | with_reducible apply keeps_ite2 | with_reducible apply opTrap_keeps | with_reducible apply opSeq_keeps | with_reducible apply State.setCore_keeps | contradiction | split)

theorem opWbsync_keeps (n : Nat) (t : Nat) (s : State) (hs : Keeps q s) :
    Keeps q (opWbsync n t s).st := by
  unfold opWbsync
  (try dsimp only)
  repeat' (first | with_reducible assumption | with_reducible apply waitEmpty_keeps | with_reducible apply opTrap_keeps | with_reducible apply opSeq_keeps | contradiction | split)

theorem opCtl_keeps (n : Nat) (t : Nat) (op : COp) (s : State) (hs : Keeps q s) :
    Keeps q (opCtl n t op s).st := by
  unfold opCtl
  (try dsimp only)
  repeat' (first | intro _ | with_reducible assumption | with_reducible apply opTrap_keeps | with_reducible apply opWbsync_keeps | with_reducible apply opEret_keeps | with_reducible apply opWait_keeps | with_reducible apply opLd_keeps | with_reducible apply opSt_keeps | with_reducible apply opBranch_keeps | with_reducible apply opJump_keeps | with_reducible apply opLoop_keeps | with_reducible apply opPush_keeps | with_reducible apply opPop_keeps | with_reducible apply opMfc_keeps | with_reducible apply opMtc_keeps | with_reducible apply opSeq_keeps | contradiction | split)

theorem coreRead_keeps (n : Nat) (r : Rng) (s : State) (hs : Keeps q s) :
    Keeps q (coreRead n r s).2 := by
  unfold coreRead
  (try dsimp only)
  repeat' (first | with_reducible assumption | with_reducible apply keeps_ite | with_reducible apply keeps_ite2 | with_reducible apply supRead_keeps)

theorem unitWait_keeps (n : Nat) (t : Nat) (rs : List Rng) (s : State) (hs : Keeps q s) :
    Keeps q (unitWait n t rs s).st := by
  unfold unitWait
  (try dsimp only)
  repeat' (first | intro _ | with_reducible assumption | with_reducible apply keeps_ite | with_reducible apply keeps_ite1 | with_reducible apply keeps_ite2 | with_reducible apply waitEmpty_keeps | contradiction | split)

theorem opHash_keeps (n : Nat) (t : Nat) (fn : Nat) (first : Bool) (last : Bool) (sa : Nat × Bool) (da : Nat × Bool) (dn : Nat) (s : State) (hs : Keeps q s) :
    Keeps q (opHash n t fn first last sa da dn s).st := by
  unfold opHash
  (try dsimp only)
  repeat' (first | with_reducible assumption | with_reducible apply keeps_ite | with_reducible apply opTrap_keeps | with_reducible apply unitWait_keeps | with_reducible apply State.setCore_keeps | with_reducible apply opSeq_keeps | contradiction | split)

theorem opKchk_keeps (n : Nat) (pd : Nat) (pdn : Nat) (k : Nat) (s : State) (hs : Keeps q s) :
    Keeps q (opKchk n pd pdn k s).st := by
  unfold opKchk
  (try dsimp only)
  repeat' (first | with_reducible assumption | with_reducible apply opSeq_keeps | with_reducible apply State.setCore_keeps)

theorem coreWrite_keeps (n : Nat) (bank : Nat) (off : Nat) (bs : Bytes) (s : State) (hs : Keeps q s) :
    Keeps q (coreWrite n bank off bs s) := by
  unfold coreWrite
  (try dsimp only)
  repeat' (first | with_reducible assumption | with_reducible apply keeps_ite | with_reducible apply supWrite_keeps | with_reducible apply laneWrite_keeps)

theorem opMsg_keeps (n : Nat) (t : Nat) (fn : Nat) (sa : Nat × Bool) (da : Nat × Bool) (dn : Nat) (pd : Nat) (s : State) (hs : Keeps q s) :
    Keeps q (opMsg n t fn sa da dn pd s).st := by
  unfold opMsg
  (try dsimp only)
  repeat' (first | intro _ | with_reducible assumption | with_reducible apply keeps_ite | with_reducible apply opTrap_keeps | with_reducible apply unitWait_keeps | with_reducible apply coreRead_keeps | with_reducible apply recordViolation_keeps | with_reducible apply coreWrite_keeps | with_reducible apply State.setCore_keeps | contradiction | split)

theorem opPost_keeps (n : Nat) (t : Nat) (ds : Nat) (dt : Nat) (s : State) (hs : Keeps q s) :
    Keeps q (opPost n t ds dt s).st := by
  unfold opPost
  (try dsimp only)
  repeat' (first | with_reducible assumption | with_reducible apply opTrap_keeps | with_reducible apply waitEmpty_keeps | contradiction | split)

theorem opPksub_keeps (n : Nat) (t : Nat) (sa : Nat × Bool) (dn : Nat) (s : State) (hs : Keeps q s) :
    Keeps q (opPksub n t sa dn s).st := by
  unfold opPksub
  (try dsimp only)
  repeat' (first | with_reducible assumption | with_reducible apply opTrap_keeps | with_reducible apply waitEmpty_keeps | contradiction | split)

theorem opGhkey_keeps (n : Nat) (k : Nat) (s : State) (hs : Keeps q s) :
    Keeps q (opGhkey n k s).st := by
  unfold opGhkey
  (try dsimp only)
  repeat' (first | with_reducible assumption | with_reducible apply opTrap_keeps | with_reducible apply opSeq_keeps | with_reducible apply State.setCore_keeps | contradiction | split)

theorem macEffect_keeps (n : Nat) (tdes : Bool) (fn : Nat) (k : Nat) (w : LenWord) (key : Bytes) (src : Bytes) (dst : Option Rng) (pd : Nat) (s : State) (hs : Keeps q s) :
    Keeps q (macEffect n tdes fn k w key src dst pd s).st := by
  unfold macEffect
  (try dsimp only)
  repeat' (first | with_reducible assumption | with_reducible apply keeps_ite | with_reducible apply opSeq_keeps | with_reducible apply State.setCore_keeps | contradiction | split)

theorem streamEffect_keeps (n : Nat) (tdes : Bool) (fn : Nat) (key : Bytes) (r : Rng) (d : Rng) (src : Bytes) (s : State) (hs : Keeps q s) :
    Keeps q (streamEffect n tdes fn key r d src s).st := by
  unfold streamEffect
  (try dsimp only)
  repeat' (first | with_reducible assumption | with_reducible apply keeps_ite | with_reducible apply State.setCore_keeps)

theorem opCry_keeps (n : Nat) (t : Nat) (tdes : Bool) (fn : Nat) (k : Nat) (sa : Nat × Bool) (da : Nat × Bool) (dn : Nat) (pd : Nat) (s : State) (hs : Keeps q s) :
    Keeps q (opCry n t tdes fn k sa da dn pd s).st := by
  unfold opCry
  (try dsimp only)
  repeat' (first | with_reducible assumption | with_reducible apply keeps_ite | with_reducible apply opGhkey_keeps | with_reducible apply opTrap_keeps | with_reducible apply unitWait_keeps | with_reducible apply macEffect_keeps | with_reducible apply streamEffect_keeps | contradiction | split)

end Sys2Proof.Machine
end

