-- ==== Sys2Proof/Laws/KeepsClove.lean ====
section
/-!
SUPPORT. What every function keeps (the lanes' instructions): the queue of waiting commands, the canonical form of the MRAM,
and every fuse bit that is blown. One lemma per function; later lemmas cite the earlier ones.
-/
namespace Sys2Proof.Machine
variable {q : State}

theorem pinForm_keeps (f : Nat) (pin : List Nat) (s : State) (hs : Keeps q s) :
    Keeps q (pinForm f pin s).2 := by
  unfold pinForm
  (try dsimp only)
  repeat' (first | intro _ | with_reducible assumption | with_reducible apply keeps_ite | with_reducible apply keeps_ite2 | with_reducible apply State.draw_keeps)

theorem safCompare_keeps (s : State) (okay : Bool) (hs : Keeps q s) :
    Keeps q (safCompare s okay).st := by
  unfold safCompare
  (try dsimp only)
  repeat' (first | intro _ | with_reducible assumption | with_reducible apply keeps_ite | with_reducible apply keeps_ite1 | with_reducible apply keeps_ite2 | contradiction | split)

theorem safPin_keeps (sop : Nat) (p : SafPar) (ko : CacheEnt) (tab : Bytes) (v : Bytes) (pan : List Nat) (pin : List Nat) (s : State) (hs : Keeps q s) :
    Keeps q (safPin sop p ko tab v pan pin s).st := by
  unfold safPin
  (try dsimp only)
  repeat' (first | intro _ | with_reducible assumption | with_reducible apply keeps_ite | with_reducible apply pinForm_keeps | with_reducible apply safCompare_keeps | contradiction | split)

theorem safCount_keeps (l : Nat) (sop : Nat) (status : Nat) (drew : Bool) (s : State) (hs : Keeps q s) :
    Keeps q (safCount l sop status drew s) := by
  unfold safCount
  (try dsimp only)
  repeat' (first | with_reducible assumption | with_reducible apply keeps_ite | with_reducible apply State.bump_keeps | with_reducible apply State.setQuad_keeps)

theorem safRun_keeps (sop : Nat) (p : SafPar) (same : Bool) (ki ko : CacheEnt) (cfg : Option EpochCfg) (blk : Bytes) (s : State)
    (hs : Keeps q s) : Keeps q (safRun sop p same ki ko cfg blk s).st := by
  unfold safRun
  extract_lets c fail tab v pan pan2 x r
  repeat' (first | exact hs | exact safCompare_keeps _ _ hs | exact safPin_keeps _ _ _ _ _ _ _ _ hs | (with_reducible apply keeps_iteS))

theorem opSaf_keeps (n t sop ki ko : Nat) (sa da : Nat × Bool) (dx : Nat) (s : State) (hs : Keeps q s) :
    Keeps q (opSaf n t sop ki ko sa da dx s).st := by
  unfold opSaf
  extract_lets c a b r d tr w s1 j o s2 v
  have hw : Keeps q w.st := unitWait_keeps _ _ _ _ hs
  have ho : Keeps q o.st := safRun_keeps _ _ _ _ _ _ _ _ hw
  have h2 : Keeps q s2 := safCount_keeps _ _ _ _ _ ho
  clear_value tr s2
  rcases tr with _ | x
  · dsimp only
    split
    · exact opTrap_keeps _ _ hw
    · exact State.setCore_keeps _ _ _ h2
  · exact opTrap_keeps _ _ hs

theorem supFetch_keeps {via : Via} {dst : Nat} {s t : State} (he : supFetch via dst s = some t) (hs : Keeps q s) : Keeps q t := by
  unfold supFetch at he
  dsimp only at he
  split at he
  · contradiction
  · split at he
    · rw [Option.some.injEq] at he
      subst he
      split
      · exact ⟨hs.1, hs.2, hs.3⟩
      · exact State.setSup_keeps _ _ hs
    · contradiction

theorem doubleFault_keeps (s : State) (hs : Keeps q s) :
    Keeps q (doubleFault s) := by
  unfold doubleFault
  (try dsimp only)
  repeat' (first | with_reducible assumption | with_reducible apply coreReset_keeps)

theorem supTrap_keeps (x : Trp) (s : State) (hs : Keeps q s) : Keeps q (supTrap x s) := by
  unfold supTrap
  extract_lets p _ c s1
  have h : Keeps q s1 := State.setSup_keeps _ _ hs
  refine keeps_ite (doubleFault_keeps _ hs) ?_
  rcases he : supFetch .entry ((p.svec.toNat + 0x100) % 2 ^ 24) s1 with _ | t
  · exact doubleFault_keeps _ h
  · exact supFetch_keeps he h

theorem fetchRefused_keeps (tgt : Nat) (s : State) (hs : Keeps q s) :
    Keeps q (fetchRefused tgt s) := by
  unfold fetchRefused
  (try dsimp only)
  repeat' (first | with_reducible assumption | with_reducible apply keeps_ite | with_reducible apply recordViolation_keeps | with_reducible apply supTrap_keeps)

theorem supInterrupt_keeps (s : State) (hs : Keeps q s) : Keeps q (supInterrupt s) := by
  unfold supInterrupt
  extract_lets p _ s1 _ s2
  have h1 : Keeps q s1 := ⟨hs.1, hs.2, hs.3⟩
  have h : Keeps q s2 := State.setSup_keeps _ _ h1
  refine keeps_ite hs ?_
  split
  · exact supFetch_keeps ‹_› h
  · exact fetchRefused_keeps _ _ h

theorem markGate_keeps (lvl : Nat) (depth : Nat) (s : State) (hs : Keeps q s) :
    Keeps q (markGate lvl depth s) := by
  unfold markGate
  (try dsimp only)
  repeat' (first | with_reducible assumption | with_reducible apply keeps_ite | with_reducible apply State.setSup_keeps | contradiction | split)

theorem supFinish_keeps (s0 : State) (p : Prog) (h0 : Keeps q s0) (hp : Keeps q p.st) : Keeps q (supFinish s0 p) := by
  have move (via : Via) (dst : Nat) (s : State) (hs : Keeps q s) : Keeps q (match supFetch via dst s with
      | some t => markGate s0.unit.sup.level (s0.core supCore).rstack.length (t.setSup { t.unit.sup with free := s0.dt + p.t })
      | none => fetchRefused dst s0) := by
    split
    · exact markGate_keeps _ _ _ (State.setSup_keeps _ _ (supFetch_keeps ‹_› hs))
    · exact fetchRefused_keeps _ _ h0
  unfold supFinish
  extract_lets c0 busy mv inB
  have hm (via : Via) (dst : Nat) (s : State) (hs : Keeps q s) : Keeps q (mv via dst s) := move via dst s hs
  clear_value mv inB
  split
  · exact keeps_ite (supTrap_keeps _ _ h0) (hm _ _ _ (State.setCore_keeps _ _ _ hp))
  · exact keeps_ite (supTrap_keeps _ _ h0) (hm _ _ _ (State.setCore_keeps _ _ _ hp))
  · exact keeps_ite (hm _ _ _ hp) (hm _ _ _ hp)
  · exact hm _ _ _ hp
  · exact supTrap_keeps _ _ hp
  · exact hp

theorem runOp_keeps (n : Nat) (t : Nat) (op : COp) (s : State) (hs : Keeps q s) :
    Keeps q (runOp n t op s).st := by
  unfold runOp
  (try dsimp only)
  repeat' (first | with_reducible assumption | with_reducible apply opSeq_keeps | with_reducible apply State.setCore_keeps | with_reducible apply opCry_keeps | with_reducible apply opHash_keeps | with_reducible apply opSaf_keeps | with_reducible apply opKchk_keeps | with_reducible apply opMsg_keeps | with_reducible apply opPksub_keeps | with_reducible apply opPost_keeps | with_reducible apply opCtl_keeps | contradiction | split)

theorem directWrite_keeps (n : Nat) (bank : Nat) (off : Nat) (bs : Bytes) (s : State) (hs : Keeps q s) :
    Keeps q (directWrite n bank off bs s) := by
  unfold directWrite
  (try dsimp only)
  repeat' (first | intro _ | with_reducible assumption | with_reducible apply keeps_ite | with_reducible apply coreWrite_keeps | with_reducible apply State.setCore_keeps)

theorem partialWr_keeps (n : Nat) (r : OpRes) (s : State) (hr : Keeps q r.st) (hs : Keeps q s) :
    Keeps q (partialWr n r s) := by
  unfold partialWr
  (try dsimp only)
  repeat' (first | with_reducible assumption | with_reducible apply State.draw_keeps | with_reducible apply directWrite_keeps | contradiction | split)

theorem applyWr_keeps (n : Nat) (r : OpRes) (hr : Keeps q r.st) :
    Keeps q (applyWr n r) := by
  unfold applyWr
  (try dsimp only)
  repeat' (first | with_reducible assumption | with_reducible apply directWrite_keeps | contradiction | split)

theorem oneOp_keeps (n : Nat) (t : Nat) (lim : Nat) (guard : Bool) (op : Option COp) (s : State) (hs : Keeps q s) :
    Keeps q (oneOp n t lim guard op s).st := by
  unfold oneOp
  (try dsimp only)
  repeat' (first | with_reducible assumption | with_reducible apply keeps_ite | with_reducible apply runOp_keeps | with_reducible apply partialWr_keeps | with_reducible apply applyWr_keeps | contradiction | split)

theorem issueSup_keeps (pn : Bool) (pg : Nat) (op : Option COp) (s : State) (hs : Keeps q s) :
    Keeps q (issueSup pn pg op s) := by
  unfold issueSup
  (try dsimp only)
  repeat' (first | intro _ | with_reducible assumption | with_reducible apply keeps_ite | with_reducible apply supInterrupt_keeps | with_reducible apply State.at_keeps | with_reducible apply supTrap_keeps | with_reducible apply State.setCore_keeps | with_reducible apply supFinish_keeps | with_reducible apply oneOp_keeps | contradiction | split)

theorem runCorrected_keeps (l : Nat) (s : State) (hs : Keeps q s) :
    Keeps q (runCorrected l s) := by
  unfold runCorrected
  (try dsimp only)
  repeat' (first | with_reducible assumption | with_reducible apply State.draw_keeps | with_reducible apply countCorrected_keeps)

theorem overrunStop_keeps (l : Nat) (s : State) (hs : Keeps q s) :
    Keeps q (overrunStop l s) := by
  unfold overrunStop
  (try dsimp only)
  repeat' (first | with_reducible assumption | with_reducible apply State.at_keeps | with_reducible apply runCorrected_keeps | with_reducible apply flushWb_keeps | with_reducible apply State.setLane_keeps | with_reducible apply State.bump_keeps | with_reducible apply postJob_keeps)

theorem laneGoOn_keeps (l : Nat) (t : Nat) (s : State) (hs : Keeps q s) :
    Keeps q (laneGoOn l t s) := by
  unfold laneGoOn
  (try dsimp only)
  repeat' (first | with_reducible assumption | with_reducible apply keeps_ite | with_reducible apply overrunStop_keeps | with_reducible apply State.at_keeps | with_reducible apply State.setLane_keeps)

theorem endRun_keeps (l : Nat) (t : Nat) (status : Nat) (body : Bytes) (s : State) (hs : Keeps q s) :
    Keeps q (endRun l t status body s) := by
  unfold endRun
  (try dsimp only)
  repeat' (first | with_reducible assumption | with_reducible apply runCorrected_keeps | with_reducible apply State.at_keeps | with_reducible apply postJob_keeps | with_reducible apply State.setLane_keeps)

theorem laneTrap_keeps (l : Nat) (t : Nat) (x : Trp) (s : State) (hs : Keeps q s) :
    Keeps q (laneTrap l t x s) := by
  unfold laneTrap
  (try dsimp only)
  repeat' (first | with_reducible assumption | with_reducible apply keeps_ite | with_reducible apply State.setLane_keeps | with_reducible apply laneGoOn_keeps | with_reducible apply State.bump_keeps | with_reducible apply State.setCore_keeps | with_reducible apply overrunStop_keeps | with_reducible apply endRun_keeps | with_reducible apply flushWb_keeps | contradiction | split)

theorem laneNext_keeps (l : Nat) (t : Nat) (tgt : Nat) (s0 : State) (s : State) (c : Core) (hs0 : Keeps q s0) (hs : Keeps q s) :
    Keeps q (laneNext l t tgt s0 s c) := by
  unfold laneNext
  (try dsimp only)
  repeat' (first | with_reducible assumption | with_reducible apply keeps_ite | with_reducible apply laneTrap_keeps | with_reducible apply laneGoOn_keeps | with_reducible apply State.setCore_keeps)

theorem endPksub_keeps (l : Nat) (t : Nat) (off : Nat) (len : Nat) (s : State) (hs : Keeps q s) :
    Keeps q (endPksub l t off len s) := by
  unfold endPksub
  (try dsimp only)
  repeat' (first | intro _ | with_reducible assumption | with_reducible apply runCorrected_keeps | with_reducible apply State.at_keeps | with_reducible apply pkSet_keeps | with_reducible apply State.setLane_keeps | with_reducible apply State.setJob_keeps | contradiction | split)

theorem laneFinish_keeps (l : Nat) (s0 : State) (p : Prog) (hs0 : Keeps q s0) (hp : Keeps q p.st) :
    Keeps q (laneFinish l s0 p) := by
  unfold laneFinish
  (try dsimp only)
  repeat' (first | with_reducible assumption | with_reducible apply keeps_ite | with_reducible apply overrunStop_keeps | with_reducible apply laneNext_keeps | with_reducible apply endRun_keeps | with_reducible apply endPksub_keeps | with_reducible apply laneTrap_keeps | contradiction | split)

theorem runUops_keeps (n lim : Nat) (guard : Bool) (l : List Nat) (p : Prog) (hp : Keeps q p.st) : Keeps q (runUops n lim guard l p).st := by
  induction l generalizing p with
  | nil => exact hp
  | cons w l ih =>
    unfold runUops
    dsimp only
    have h := drainTo_keeps n p.t 5 p.st hp
    split
    · exact State.setCore_keeps _ _ _ h
    · have h2 := oneOp_keeps n p.t lim (guard && ((drainTo n p.t 5 p.st).2.core n).guard (decodeWord w).1 (decodeWord w).2.1) (decodeWord w).2.2 _ h
      split
      · exact h2
      · split
        · exact h2
        · exact ih _ h2

theorem runCustom_keeps (n t lim : Nat) (guard : Bool) (u ra rb rc imm : Nat) (s : State) (hs : Keeps q s) :
    Keeps q (runCustom n t lim guard u ra rb rc imm s).st := by
  have h := oneOp_keeps n t lim guard none s hs
  unfold runCustom
  split
  · exact h
  · split
    · exact runUops_keeps _ _ _ _ _ hs
    · exact h

theorem issueLane_keeps (l : Nat) (pn : Bool) (pg : Nat) (op : Option COp) (s : State) (hs : Keeps q s) :
    Keeps q (issueLane l pn pg op s) := by
  unfold issueLane
  (try dsimp only)
  repeat' (first | intro _ | with_reducible assumption | with_reducible apply drainTo_keeps | with_reducible apply State.at_keeps | with_reducible apply State.setCore_keeps | with_reducible apply laneTrap_keeps | with_reducible apply laneFinish_keeps | with_reducible apply runCustom_keeps | with_reducible apply oneOp_keeps | contradiction | split)

theorem issueOp_keeps (core : Nat) (pn : Bool) (pg : Nat) (op : Option COp) (s : State) (hs : Keeps q s) :
    Keeps q (issueOp core pn pg op s) := by
  unfold issueOp
  (try dsimp only)
  repeat' (first | with_reducible assumption | with_reducible apply keeps_ite | with_reducible apply issueSup_keeps | with_reducible apply issueLane_keeps)

theorem issue_keeps (i : Issue) (op : COp) (s : State) (hs : Keeps q s) :
    Keeps q (issue i op s) := by
  unfold issue
  (try dsimp only)
  repeat' (first | with_reducible assumption | with_reducible apply issueOp_keeps)

theorem runStart_keeps (l : Nat) (s : State) (hs : Keeps q s) :
    Keeps q (runStart l s) := by
  unfold runStart
  (try dsimp only)
  repeat' (first | intro _ | with_reducible assumption | with_reducible apply keeps_ite | with_reducible apply State.at_keeps | with_reducible apply State.setLane_keeps | with_reducible apply State.setCore_keeps | with_reducible apply State.setJob_keeps | with_reducible apply State.bump_keeps | contradiction | split)

theorem execMfc_keeps (i : Issue) (d : Fin 16) (cr : Fin 64) (s : State) (hs : Keeps q s) :
    ∃ s1, execMfc i d cr s = .next s1 ∧ Keeps q s1 := by
  unfold execMfc
  (try dsimp only)
  repeat' (first | with_reducible assumption | refine ⟨_, rfl, ?_⟩ | with_reducible apply ok_keeps | with_reducible apply issue_keeps)

theorem execSll_keeps (i : Issue) (rd : Fin 16) (rs1 : Fin 16) (rs2 : Fin 16) (s : State) (hs : Keeps q s) :
    ∃ s1, execSll i rd rs1 rs2 s = .next s1 ∧ Keeps q s1 := by
  unfold execSll
  (try dsimp only)
  repeat' (first | with_reducible assumption | refine ⟨_, rfl, ?_⟩ | with_reducible apply ok_keeps | with_reducible apply issue_keeps)

theorem execShiExtu_keeps (i : Issue) (rd : Fin 16) (rs1 : Fin 16) (pos : Fin 32) (wm1 : Fin 32) (s : State) (hs : Keeps q s) :
    ∃ s1, execShiExtu i rd rs1 pos wm1 s = .next s1 ∧ Keeps q s1 := by
  unfold execShiExtu
  (try dsimp only)
  repeat' (first | with_reducible assumption | refine ⟨_, rfl, ?_⟩ | with_reducible apply ok_keeps | with_reducible apply issue_keeps)

theorem execAndn_keeps (i : Issue) (rd : Fin 16) (rs1 : Fin 16) (rs2 : Fin 16) (s : State) (hs : Keeps q s) :
    ∃ s1, execAndn i rd rs1 rs2 s = .next s1 ∧ Keeps q s1 := by
  unfold execAndn
  (try dsimp only)
  repeat' (first | with_reducible assumption | refine ⟨_, rfl, ?_⟩ | with_reducible apply ok_keeps | with_reducible apply issue_keeps)

theorem execJr_keeps (i : Issue) (ds : Fin 16) (s : State) (hs : Keeps q s) :
    ∃ s1, execJr i ds s = .next s1 ∧ Keeps q s1 := by
  unfold execJr
  (try dsimp only)
  repeat' (first | with_reducible assumption | refine ⟨_, rfl, ?_⟩ | with_reducible apply ok_keeps | with_reducible apply issue_keeps)

theorem execAcsra_keeps (i : Issue) (ac : Fin 4) (n : BitVec 7) (s : State) (hs : Keeps q s) :
    ∃ s1, execAcsra i ac n s = .next s1 ∧ Keeps q s1 := by
  unfold execAcsra
  (try dsimp only)
  repeat' (first | with_reducible assumption | refine ⟨_, rfl, ?_⟩ | with_reducible apply ok_keeps | with_reducible apply issue_keeps)

theorem execMtc_keeps (i : Issue) (d : Fin 16) (cr : Fin 64) (s : State) (hs : Keeps q s) :
    ∃ s1, execMtc i d cr s = .next s1 ∧ Keeps q s1 := by
  unfold execMtc
  (try dsimp only)
  repeat' (first | with_reducible assumption | refine ⟨_, rfl, ?_⟩ | with_reducible apply ok_keeps | with_reducible apply issue_keeps)

theorem execAadd_keeps (i : Issue) (a : Fin 8) (ds : Fin 16) (s : State) (hs : Keeps q s) :
    ∃ s1, execAadd i a ds s = .next s1 ∧ Keeps q s1 := by
  unfold execAadd
  (try dsimp only)
  repeat' (first | with_reducible assumption | refine ⟨_, rfl, ?_⟩ | with_reducible apply ok_keeps | with_reducible apply issue_keeps)

theorem execXori_keeps (i : Issue) (rd : Fin 16) (rs1 : Fin 16) (imm : BitVec 14) (s : State) (hs : Keeps q s) :
    ∃ s1, execXori i rd rs1 imm s = .next s1 ∧ Keeps q s1 := by
  unfold execXori
  (try dsimp only)
  repeat' (first | with_reducible assumption | refine ⟨_, rfl, ?_⟩ | with_reducible apply ok_keeps | with_reducible apply issue_keeps)

theorem execShiRor_keeps (i : Issue) (rd : Fin 16) (rs1 : Fin 16) (pos : Fin 32) (s : State) (hs : Keeps q s) :
    ∃ s1, execShiRor i rd rs1 pos s = .next s1 ∧ Keeps q s1 := by
  unfold execShiRor
  (try dsimp only)
  repeat' (first | with_reducible assumption | refine ⟨_, rfl, ?_⟩ | with_reducible apply ok_keeps | with_reducible apply issue_keeps)

theorem execMinu_keeps (i : Issue) (rd : Fin 16) (rs1 : Fin 16) (rs2 : Fin 16) (s : State) (hs : Keeps q s) :
    ∃ s1, execMinu i rd rs1 rs2 s = .next s1 ∧ Keeps q s1 := by
  unfold execMinu
  (try dsimp only)
  repeat' (first | with_reducible assumption | refine ⟨_, rfl, ?_⟩ | with_reducible apply ok_keeps | with_reducible apply issue_keeps)

theorem execCmpi_keeps (i : Issue) (pd : Fin 8) (pdn : Fin 8) (cond : Fin 16) (rs1 : Fin 16) (imm : Byte) (s : State) (hs : Keeps q s) :
    ∃ s1, execCmpi i pd pdn cond rs1 imm s = .next s1 ∧ Keeps q s1 := by
  unfold execCmpi
  (try dsimp only)
  repeat' (first | with_reducible assumption | refine ⟨_, rfl, ?_⟩ | with_reducible apply ok_keeps | with_reducible apply issue_keeps)

theorem execPopm_keeps (i : Issue) (mask : BitVec 16) (s : State) (hs : Keeps q s) :
    ∃ s1, execPopm i mask s = .next s1 ∧ Keeps q s1 := by
  unfold execPopm
  (try dsimp only)
  repeat' (first | with_reducible assumption | refine ⟨_, rfl, ?_⟩ | with_reducible apply ok_keeps | with_reducible apply issue_keeps)

theorem execAread_keeps (i : Issue) (a : Fin 8) (dd : Fin 16) (s : State) (hs : Keeps q s) :
    ∃ s1, execAread i a dd s = .next s1 ∧ Keeps q s1 := by
  unfold execAread
  (try dsimp only)
  repeat' (first | with_reducible assumption | refine ⟨_, rfl, ?_⟩ | with_reducible apply ok_keeps | with_reducible apply issue_keeps)

theorem execLoopi_keeps (i : Issue) (count : BitVec 12) (off : BitVec 10) (s : State) (hs : Keeps q s) :
    ∃ s1, execLoopi i count off s = .next s1 ∧ Keeps q s1 := by
  unfold execLoopi
  (try dsimp only)
  repeat' (first | with_reducible assumption | refine ⟨_, rfl, ?_⟩ | with_reducible apply ok_keeps | with_reducible apply issue_keeps)

theorem execWbsync_keeps (i : Issue) (s : State) (hs : Keeps q s) :
    ∃ s1, execWbsync i s = .next s1 ∧ Keeps q s1 := by
  unfold execWbsync
  (try dsimp only)
  repeat' (first | with_reducible assumption | refine ⟨_, rfl, ?_⟩ | with_reducible apply ok_keeps | with_reducible apply issue_keeps)

theorem execClz_keeps (i : Issue) (rd : Fin 16) (rs1 : Fin 16) (s : State) (hs : Keeps q s) :
    ∃ s1, execClz i rd rs1 s = .next s1 ∧ Keeps q s1 := by
  unfold execClz
  (try dsimp only)
  repeat' (first | with_reducible assumption | refine ⟨_, rfl, ?_⟩ | with_reducible apply ok_keeps | with_reducible apply issue_keeps)

theorem execSrl_keeps (i : Issue) (rd : Fin 16) (rs1 : Fin 16) (rs2 : Fin 16) (s : State) (hs : Keeps q s) :
    ∃ s1, execSrl i rd rs1 rs2 s = .next s1 ∧ Keeps q s1 := by
  unfold execSrl
  (try dsimp only)
  repeat' (first | with_reducible assumption | refine ⟨_, rfl, ?_⟩ | with_reducible apply ok_keeps | with_reducible apply issue_keeps)

theorem execSt_keeps (i : Issue) (d : Fin 16) (a : Fin 8) (sz : Fin 4) (bsel : Bool) (mode : Fin 4) (off : BitVec 9) (s : State) (hs : Keeps q s) :
    ∃ s1, execSt i d a sz bsel mode off s = .next s1 ∧ Keeps q s1 := by
  unfold execSt
  (try dsimp only)
  repeat' (first | with_reducible assumption | refine ⟨_, rfl, ?_⟩ | with_reducible apply ok_keeps | with_reducible apply issue_keeps)

theorem execPop_keeps (i : Issue) (r : Fin 16) (s : State) (hs : Keeps q s) :
    ∃ s1, execPop i r s = .next s1 ∧ Keeps q s1 := by
  unfold execPop
  (try dsimp only)
  repeat' (first | with_reducible assumption | refine ⟨_, rfl, ?_⟩ | with_reducible apply ok_keeps | with_reducible apply issue_keeps)

theorem execDivu_keeps (i : Issue) (rd : Fin 16) (rs1 : Fin 16) (rs2 : Fin 16) (s : State) (hs : Keeps q s) :
    ∃ s1, execDivu i rd rs1 rs2 s = .next s1 ∧ Keeps q s1 := by
  unfold execDivu
  (try dsimp only)
  repeat' (first | with_reducible assumption | refine ⟨_, rfl, ?_⟩ | with_reducible apply ok_keeps | with_reducible apply issue_keeps)

theorem execMovh_keeps (i : Issue) (rd : Fin 16) (imm : BitVec 16) (s : State) (hs : Keeps q s) :
    ∃ s1, execMovh i rd imm s = .next s1 ∧ Keeps q s1 := by
  unfold execMovh
  (try dsimp only)
  repeat' (first | with_reducible assumption | refine ⟨_, rfl, ?_⟩ | with_reducible apply ok_keeps | with_reducible apply issue_keeps)

theorem execAcadd_keeps (i : Issue) (ac : Fin 4) (ds : Fin 16) (s : State) (hs : Keeps q s) :
    ∃ s1, execAcadd i ac ds s = .next s1 ∧ Keeps q s1 := by
  unfold execAcadd
  (try dsimp only)
  repeat' (first | with_reducible assumption | refine ⟨_, rfl, ?_⟩ | with_reducible apply ok_keeps | with_reducible apply issue_keeps)

theorem execRor_keeps (i : Issue) (rd : Fin 16) (rs1 : Fin 16) (rs2 : Fin 16) (s : State) (hs : Keeps q s) :
    ∃ s1, execRor i rd rs1 rs2 s = .next s1 ∧ Keeps q s1 := by
  unfold execRor
  (try dsimp only)
  repeat' (first | with_reducible assumption | refine ⟨_, rfl, ?_⟩ | with_reducible apply ok_keeps | with_reducible apply issue_keeps)

theorem execAddc_keeps (i : Issue) (rd : Fin 16) (rs1 : Fin 16) (rs2 : Fin 16) (s : State) (hs : Keeps q s) :
    ∃ s1, execAddc i rd rs1 rs2 s = .next s1 ∧ Keeps q s1 := by
  unfold execAddc
  (try dsimp only)
  repeat' (first | with_reducible assumption | refine ⟨_, rfl, ?_⟩ | with_reducible apply ok_keeps | with_reducible apply issue_keeps)

theorem execShiSll_keeps (i : Issue) (rd : Fin 16) (rs1 : Fin 16) (pos : Fin 32) (s : State) (hs : Keeps q s) :
    ∃ s1, execShiSll i rd rs1 pos s = .next s1 ∧ Keeps q s1 := by
  unfold execShiSll
  (try dsimp only)
  repeat' (first | with_reducible assumption | refine ⟨_, rfl, ?_⟩ | with_reducible apply ok_keeps | with_reducible apply issue_keeps)

theorem execMacu_keeps (i : Issue) (ac : Fin 4) (ds : Fin 16) (dt : Fin 16) (s : State) (hs : Keeps q s) :
    ∃ s1, execMacu i ac ds dt s = .next s1 ∧ Keeps q s1 := by
  unfold execMacu
  (try dsimp only)
  repeat' (first | with_reducible assumption | refine ⟨_, rfl, ?_⟩ | with_reducible apply ok_keeps | with_reducible apply issue_keeps)

theorem execCall_keeps (i : Issue) (off : BitVec 16) (s : State) (hs : Keeps q s) :
    ∃ s1, execCall i off s = .next s1 ∧ Keeps q s1 := by
  unfold execCall
  (try dsimp only)
  repeat' (first | with_reducible assumption | refine ⟨_, rfl, ?_⟩ | with_reducible apply ok_keeps | with_reducible apply issue_keeps)

theorem execShiIns_keeps (i : Issue) (rd : Fin 16) (rs1 : Fin 16) (pos : Fin 32) (wm1 : Fin 32) (s : State) (hs : Keeps q s) :
    ∃ s1, execShiIns i rd rs1 pos wm1 s = .next s1 ∧ Keeps q s1 := by
  unfold execShiIns
  (try dsimp only)
  repeat' (first | with_reducible assumption | refine ⟨_, rfl, ?_⟩ | with_reducible apply ok_keeps | with_reducible apply issue_keeps)

theorem execLoop_keeps (i : Issue) (ds : Fin 16) (off : BitVec 16) (s : State) (hs : Keeps q s) :
    ∃ s1, execLoop i ds off s = .next s1 ∧ Keeps q s1 := by
  unfold execLoop
  (try dsimp only)
  repeat' (first | with_reducible assumption | refine ⟨_, rfl, ?_⟩ | with_reducible apply ok_keeps | with_reducible apply issue_keeps)

theorem execMaxu_keeps (i : Issue) (rd : Fin 16) (rs1 : Fin 16) (rs2 : Fin 16) (s : State) (hs : Keeps q s) :
    ∃ s1, execMaxu i rd rs1 rs2 s = .next s1 ∧ Keeps q s1 := by
  unfold execMaxu
  (try dsimp only)
  repeat' (first | with_reducible assumption | refine ⟨_, rfl, ?_⟩ | with_reducible apply ok_keeps | with_reducible apply issue_keeps)

theorem execAddi_keeps (i : Issue) (rd : Fin 16) (rs1 : Fin 16) (imm : BitVec 14) (s : State) (hs : Keeps q s) :
    ∃ s1, execAddi i rd rs1 imm s = .next s1 ∧ Keeps q s1 := by
  unfold execAddi
  (try dsimp only)
  repeat' (first | with_reducible assumption | refine ⟨_, rfl, ?_⟩ | with_reducible apply ok_keeps | with_reducible apply issue_keeps)

theorem execBr_keeps (i : Issue) (off : BitVec 16) (s : State) (hs : Keeps q s) :
    ∃ s1, execBr i off s = .next s1 ∧ Keeps q s1 := by
  unfold execBr
  (try dsimp only)
  repeat' (first | with_reducible assumption | refine ⟨_, rfl, ?_⟩ | with_reducible apply ok_keeps | with_reducible apply issue_keeps)

theorem execPopc_keeps (i : Issue) (rd : Fin 16) (rs1 : Fin 16) (s : State) (hs : Keeps q s) :
    ∃ s1, execPopc i rd rs1 s = .next s1 ∧ Keeps q s1 := by
  unfold execPopc
  (try dsimp only)
  repeat' (first | with_reducible assumption | refine ⟨_, rfl, ?_⟩ | with_reducible apply ok_keeps | with_reducible apply issue_keeps)

theorem execBswap_keeps (i : Issue) (rd : Fin 16) (rs1 : Fin 16) (s : State) (hs : Keeps q s) :
    ∃ s1, execBswap i rd rs1 s = .next s1 ∧ Keeps q s1 := by
  unfold execBswap
  (try dsimp only)
  repeat' (first | with_reducible assumption | refine ⟨_, rfl, ?_⟩ | with_reducible apply ok_keeps | with_reducible apply issue_keeps)

theorem execCallr_keeps (i : Issue) (ds : Fin 16) (s : State) (hs : Keeps q s) :
    ∃ s1, execCallr i ds s = .next s1 ∧ Keeps q s1 := by
  unfold execCallr
  (try dsimp only)
  repeat' (first | with_reducible assumption | refine ⟨_, rfl, ?_⟩ | with_reducible apply ok_keeps | with_reducible apply issue_keeps)

theorem execPushm_keeps (i : Issue) (mask : BitVec 16) (s : State) (hs : Keeps q s) :
    ∃ s1, execPushm i mask s = .next s1 ∧ Keeps q s1 := by
  unfold execPushm
  (try dsimp only)
  repeat' (first | with_reducible assumption | refine ⟨_, rfl, ?_⟩ | with_reducible apply ok_keeps | with_reducible apply issue_keeps)

theorem execPopa_keeps (i : Issue) (r : Fin 8) (s : State) (hs : Keeps q s) :
    ∃ s1, execPopa i r s = .next s1 ∧ Keeps q s1 := by
  unfold execPopa
  (try dsimp only)
  repeat' (first | with_reducible assumption | refine ⟨_, rfl, ?_⟩ | with_reducible apply ok_keeps | with_reducible apply issue_keeps)

theorem execMulhu_keeps (i : Issue) (rd : Fin 16) (rs1 : Fin 16) (rs2 : Fin 16) (s : State) (hs : Keeps q s) :
    ∃ s1, execMulhu i rd rs1 rs2 s = .next s1 ∧ Keeps q s1 := by
  unfold execMulhu
  (try dsimp only)
  repeat' (first | with_reducible assumption | refine ⟨_, rfl, ?_⟩ | with_reducible apply ok_keeps | with_reducible apply issue_keeps)

theorem execAndi_keeps (i : Issue) (rd : Fin 16) (rs1 : Fin 16) (imm : BitVec 14) (s : State) (hs : Keeps q s) :
    ∃ s1, execAndi i rd rs1 imm s = .next s1 ∧ Keeps q s1 := by
  unfold execAndi
  (try dsimp only)
  repeat' (first | with_reducible assumption | refine ⟨_, rfl, ?_⟩ | with_reducible apply ok_keeps | with_reducible apply issue_keeps)

theorem execMin_keeps (i : Issue) (rd : Fin 16) (rs1 : Fin 16) (rs2 : Fin 16) (s : State) (hs : Keeps q s) :
    ∃ s1, execMin i rd rs1 rs2 s = .next s1 ∧ Keeps q s1 := by
  unfold execMin
  (try dsimp only)
  repeat' (first | with_reducible assumption | refine ⟨_, rfl, ?_⟩ | with_reducible apply ok_keeps | with_reducible apply issue_keeps)

theorem execRemu_keeps (i : Issue) (rd : Fin 16) (rs1 : Fin 16) (rs2 : Fin 16) (s : State) (hs : Keeps q s) :
    ∃ s1, execRemu i rd rs1 rs2 s = .next s1 ∧ Keeps q s1 := by
  unfold execRemu
  (try dsimp only)
  repeat' (first | with_reducible assumption | refine ⟨_, rfl, ?_⟩ | with_reducible apply ok_keeps | with_reducible apply issue_keeps)

theorem execSel_keeps (i : Issue) (rd : Fin 16) (rs1 : Fin 16) (rs2 : Fin 16) (ps : Fin 8) (s : State) (hs : Keeps q s) :
    ∃ s1, execSel i rd rs1 rs2 ps s = .next s1 ∧ Keeps q s1 := by
  unfold execSel
  (try dsimp only)
  repeat' (first | with_reducible assumption | refine ⟨_, rfl, ?_⟩ | with_reducible apply ok_keeps | with_reducible apply issue_keeps)

theorem execMov_keeps (i : Issue) (rd : Fin 16) (rs1 : Fin 16) (s : State) (hs : Keeps q s) :
    ∃ s1, execMov i rd rs1 s = .next s1 ∧ Keeps q s1 := by
  unfold execMov
  (try dsimp only)
  repeat' (first | with_reducible assumption | refine ⟨_, rfl, ?_⟩ | with_reducible apply ok_keeps | with_reducible apply issue_keeps)

theorem execSub_keeps (i : Issue) (rd : Fin 16) (rs1 : Fin 16) (rs2 : Fin 16) (s : State) (hs : Keeps q s) :
    ∃ s1, execSub i rd rs1 rs2 s = .next s1 ∧ Keeps q s1 := by
  unfold execSub
  (try dsimp only)
  repeat' (first | with_reducible assumption | refine ⟨_, rfl, ?_⟩ | with_reducible apply ok_keeps | with_reducible apply issue_keeps)

theorem execOr_keeps (i : Issue) (rd : Fin 16) (rs1 : Fin 16) (rs2 : Fin 16) (s : State) (hs : Keeps q s) :
    ∃ s1, execOr i rd rs1 rs2 s = .next s1 ∧ Keeps q s1 := by
  unfold execOr
  (try dsimp only)
  repeat' (first | with_reducible assumption | refine ⟨_, rfl, ?_⟩ | with_reducible apply ok_keeps | with_reducible apply issue_keeps)

theorem execMovi_keeps (i : Issue) (rd : Fin 16) (imm : BitVec 18) (s : State) (hs : Keeps q s) :
    ∃ s1, execMovi i rd imm s = .next s1 ∧ Keeps q s1 := by
  unfold execMovi
  (try dsimp only)
  repeat' (first | with_reducible assumption | refine ⟨_, rfl, ?_⟩ | with_reducible apply ok_keeps | with_reducible apply issue_keeps)

theorem execShiSra_keeps (i : Issue) (rd : Fin 16) (rs1 : Fin 16) (pos : Fin 32) (s : State) (hs : Keeps q s) :
    ∃ s1, execShiSra i rd rs1 pos s = .next s1 ∧ Keeps q s1 := by
  unfold execShiSra
  (try dsimp only)
  repeat' (first | with_reducible assumption | refine ⟨_, rfl, ?_⟩ | with_reducible apply ok_keeps | with_reducible apply issue_keeps)

theorem execAaddi_keeps (i : Issue) (a : Fin 8) (imm : BitVec 16) (s : State) (hs : Keeps q s) :
    ∃ s1, execAaddi i a imm s = .next s1 ∧ Keeps q s1 := by
  unfold execAaddi
  (try dsimp only)
  repeat' (first | with_reducible assumption | refine ⟨_, rfl, ?_⟩ | with_reducible apply ok_keeps | with_reducible apply issue_keeps)

theorem execMax_keeps (i : Issue) (rd : Fin 16) (rs1 : Fin 16) (rs2 : Fin 16) (s : State) (hs : Keeps q s) :
    ∃ s1, execMax i rd rs1 rs2 s = .next s1 ∧ Keeps q s1 := by
  unfold execMax
  (try dsimp only)
  repeat' (first | with_reducible assumption | refine ⟨_, rfl, ?_⟩ | with_reducible apply ok_keeps | with_reducible apply issue_keeps)

theorem execTrap_keeps (i : Issue) (info : Byte) (s : State) (hs : Keeps q s) :
    ∃ s1, execTrap i info s = .next s1 ∧ Keeps q s1 := by
  unfold execTrap
  (try dsimp only)
  repeat' (first | with_reducible assumption | refine ⟨_, rfl, ?_⟩ | with_reducible apply ok_keeps | with_reducible apply issue_keeps)

theorem execShiSrl_keeps (i : Issue) (rd : Fin 16) (rs1 : Fin 16) (pos : Fin 32) (s : State) (hs : Keeps q s) :
    ∃ s1, execShiSrl i rd rs1 pos s = .next s1 ∧ Keeps q s1 := by
  unfold execShiSrl
  (try dsimp only)
  repeat' (first | with_reducible assumption | refine ⟨_, rfl, ?_⟩ | with_reducible apply ok_keeps | with_reducible apply issue_keeps)

theorem execLd_keeps (i : Issue) (d : Fin 16) (a : Fin 8) (sz : Fin 4) (bsel : Bool) (mode : Fin 4) (sx : Bool) (off : BitVec 9) (s : State) (hs : Keeps q s) :
    ∃ s1, execLd i d a sz bsel mode sx off s = .next s1 ∧ Keeps q s1 := by
  unfold execLd
  (try dsimp only)
  repeat' (first | with_reducible assumption | refine ⟨_, rfl, ?_⟩ | with_reducible apply ok_keeps | with_reducible apply issue_keeps)

theorem execPusha_keeps (i : Issue) (r : Fin 8) (s : State) (hs : Keeps q s) :
    ∃ s1, execPusha i r s = .next s1 ∧ Keeps q s1 := by
  unfold execPusha
  (try dsimp only)
  repeat' (first | with_reducible assumption | refine ⟨_, rfl, ?_⟩ | with_reducible apply ok_keeps | with_reducible apply issue_keeps)

theorem execSra_keeps (i : Issue) (rd : Fin 16) (rs1 : Fin 16) (rs2 : Fin 16) (s : State) (hs : Keeps q s) :
    ∃ s1, execSra i rd rs1 rs2 s = .next s1 ∧ Keeps q s1 := by
  unfold execSra
  (try dsimp only)
  repeat' (first | with_reducible assumption | refine ⟨_, rfl, ?_⟩ | with_reducible apply ok_keeps | with_reducible apply issue_keeps)

theorem execPlogOr_keeps (i : Issue) (pd : Fin 8) (pa : Fin 8) (pb : Fin 8) (na : Bool) (nb : Bool) (s : State) (hs : Keeps q s) :
    ∃ s1, execPlogOr i pd pa pb na nb s = .next s1 ∧ Keeps q s1 := by
  unfold execPlogOr
  (try dsimp only)
  repeat' (first | with_reducible assumption | refine ⟨_, rfl, ?_⟩ | with_reducible apply ok_keeps | with_reducible apply issue_keeps)

theorem execAclr_keeps (i : Issue) (ac : Fin 4) (s : State) (hs : Keeps q s) :
    ∃ s1, execAclr i ac s = .next s1 ∧ Keeps q s1 := by
  unfold execAclr
  (try dsimp only)
  repeat' (first | with_reducible assumption | refine ⟨_, rfl, ?_⟩ | with_reducible apply ok_keeps | with_reducible apply issue_keeps)

theorem execMul_keeps (i : Issue) (rd : Fin 16) (rs1 : Fin 16) (rs2 : Fin 16) (s : State) (hs : Keeps q s) :
    ∃ s1, execMul i rd rs1 rs2 s = .next s1 ∧ Keeps q s1 := by
  unfold execMul
  (try dsimp only)
  repeat' (first | with_reducible assumption | refine ⟨_, rfl, ?_⟩ | with_reducible apply ok_keeps | with_reducible apply issue_keeps)

theorem execAcwr_keeps (i : Issue) (ac : Fin 4) (ds : Fin 16) (s : State) (hs : Keeps q s) :
    ∃ s1, execAcwr i ac ds s = .next s1 ∧ Keeps q s1 := by
  unfold execAcwr
  (try dsimp only)
  repeat' (first | with_reducible assumption | refine ⟨_, rfl, ?_⟩ | with_reducible apply ok_keeps | with_reducible apply issue_keeps)

theorem execAi_keeps (i : Issue) (a : Fin 8) (imm : BitVec 16) (s : State) (hs : Keeps q s) :
    ∃ s1, execAi i a imm s = .next s1 ∧ Keeps q s1 := by
  unfold execAi
  (try dsimp only)
  repeat' (first | with_reducible assumption | refine ⟨_, rfl, ?_⟩ | with_reducible apply ok_keeps | with_reducible apply issue_keeps)

theorem execOri_keeps (i : Issue) (rd : Fin 16) (rs1 : Fin 16) (imm : BitVec 14) (s : State) (hs : Keeps q s) :
    ∃ s1, execOri i rd rs1 imm s = .next s1 ∧ Keeps q s1 := by
  unfold execOri
  (try dsimp only)
  repeat' (first | with_reducible assumption | refine ⟨_, rfl, ?_⟩ | with_reducible apply ok_keeps | with_reducible apply issue_keeps)

theorem execAcrd_keeps (i : Issue) (ac : Fin 4) (dd : Fin 16) (part : BitVec 9) (s : State) (hs : Keeps q s) :
    ∃ s1, execAcrd i ac dd part s = .next s1 ∧ Keeps q s1 := by
  unfold execAcrd
  (try dsimp only)
  repeat' (first | with_reducible assumption | refine ⟨_, rfl, ?_⟩ | with_reducible apply ok_keeps | with_reducible apply issue_keeps)

theorem execPush_keeps (i : Issue) (r : Fin 16) (s : State) (hs : Keeps q s) :
    ∃ s1, execPush i r s = .next s1 ∧ Keeps q s1 := by
  unfold execPush
  (try dsimp only)
  repeat' (first | with_reducible assumption | refine ⟨_, rfl, ?_⟩ | with_reducible apply ok_keeps | with_reducible apply issue_keeps)

theorem execShiExts_keeps (i : Issue) (rd : Fin 16) (rs1 : Fin 16) (pos : Fin 32) (wm1 : Fin 32) (s : State) (hs : Keeps q s) :
    ∃ s1, execShiExts i rd rs1 pos wm1 s = .next s1 ∧ Keeps q s1 := by
  unfold execShiExts
  (try dsimp only)
  repeat' (first | with_reducible assumption | refine ⟨_, rfl, ?_⟩ | with_reducible apply ok_keeps | with_reducible apply issue_keeps)

theorem execMsu_keeps (i : Issue) (ac : Fin 4) (ds : Fin 16) (dt : Fin 16) (s : State) (hs : Keeps q s) :
    ∃ s1, execMsu i ac ds dt s = .next s1 ∧ Keeps q s1 := by
  unfold execMsu
  (try dsimp only)
  repeat' (first | with_reducible assumption | refine ⟨_, rfl, ?_⟩ | with_reducible apply ok_keeps | with_reducible apply issue_keeps)

theorem execXor_keeps (i : Issue) (rd : Fin 16) (rs1 : Fin 16) (rs2 : Fin 16) (s : State) (hs : Keeps q s) :
    ∃ s1, execXor i rd rs1 rs2 s = .next s1 ∧ Keeps q s1 := by
  unfold execXor
  (try dsimp only)
  repeat' (first | with_reducible assumption | refine ⟨_, rfl, ?_⟩ | with_reducible apply ok_keeps | with_reducible apply issue_keeps)

theorem execNop_keeps (i : Issue) (s : State) (hs : Keeps q s) :
    ∃ s1, execNop i s = .next s1 ∧ Keeps q s1 := by
  unfold execNop
  (try dsimp only)
  repeat' (first | with_reducible assumption | refine ⟨_, rfl, ?_⟩ | with_reducible apply ok_keeps | with_reducible apply issue_keeps)

theorem execPlogMov_keeps (i : Issue) (pd : Fin 8) (pa : Fin 8) (na : Bool) (s : State) (hs : Keeps q s) :
    ∃ s1, execPlogMov i pd pa na s = .next s1 ∧ Keeps q s1 := by
  unfold execPlogMov
  (try dsimp only)
  repeat' (first | with_reducible assumption | refine ⟨_, rfl, ?_⟩ | with_reducible apply ok_keeps | with_reducible apply issue_keeps)

theorem execAmov_keeps (i : Issue) (a : Fin 8) (ds : Fin 16) (s : State) (hs : Keeps q s) :
    ∃ s1, execAmov i a ds s = .next s1 ∧ Keeps q s1 := by
  unfold execAmov
  (try dsimp only)
  repeat' (first | with_reducible assumption | refine ⟨_, rfl, ?_⟩ | with_reducible apply ok_keeps | with_reducible apply issue_keeps)

theorem execPlogXor_keeps (i : Issue) (pd : Fin 8) (pa : Fin 8) (pb : Fin 8) (na : Bool) (nb : Bool) (s : State) (hs : Keeps q s) :
    ∃ s1, execPlogXor i pd pa pb na nb s = .next s1 ∧ Keeps q s1 := by
  unfold execPlogXor
  (try dsimp only)
  repeat' (first | with_reducible assumption | refine ⟨_, rfl, ?_⟩ | with_reducible apply ok_keeps | with_reducible apply issue_keeps)

theorem execSubb_keeps (i : Issue) (rd : Fin 16) (rs1 : Fin 16) (rs2 : Fin 16) (s : State) (hs : Keeps q s) :
    ∃ s1, execSubb i rd rs1 rs2 s = .next s1 ∧ Keeps q s1 := by
  unfold execSubb
  (try dsimp only)
  repeat' (first | with_reducible assumption | refine ⟨_, rfl, ?_⟩ | with_reducible apply ok_keeps | with_reducible apply issue_keeps)

theorem execAnd_keeps (i : Issue) (rd : Fin 16) (rs1 : Fin 16) (rs2 : Fin 16) (s : State) (hs : Keeps q s) :
    ∃ s1, execAnd i rd rs1 rs2 s = .next s1 ∧ Keeps q s1 := by
  unfold execAnd
  (try dsimp only)
  repeat' (first | with_reducible assumption | refine ⟨_, rfl, ?_⟩ | with_reducible apply ok_keeps | with_reducible apply issue_keeps)

theorem execCmp_keeps (i : Issue) (pd : Fin 8) (pdn : Fin 8) (cond : Fin 16) (rs1 : Fin 16) (rs2 : Fin 16) (s : State) (hs : Keeps q s) :
    ∃ s1, execCmp i pd pdn cond rs1 rs2 s = .next s1 ∧ Keeps q s1 := by
  unfold execCmp
  (try dsimp only)
  repeat' (first | with_reducible assumption | refine ⟨_, rfl, ?_⟩ | with_reducible apply ok_keeps | with_reducible apply issue_keeps)

theorem execAdd_keeps (i : Issue) (rd : Fin 16) (rs1 : Fin 16) (rs2 : Fin 16) (s : State) (hs : Keeps q s) :
    ∃ s1, execAdd i rd rs1 rs2 s = .next s1 ∧ Keeps q s1 := by
  unfold execAdd
  (try dsimp only)
  repeat' (first | with_reducible assumption | refine ⟨_, rfl, ?_⟩ | with_reducible apply ok_keeps | with_reducible apply issue_keeps)

theorem execRet_keeps (i : Issue) (s : State) (hs : Keeps q s) :
    ∃ s1, execRet i s = .next s1 ∧ Keeps q s1 := by
  unfold execRet
  (try dsimp only)
  repeat' (first | with_reducible assumption | refine ⟨_, rfl, ?_⟩ | with_reducible apply ok_keeps | with_reducible apply issue_keeps)

theorem execMac_keeps (i : Issue) (ac : Fin 4) (ds : Fin 16) (dt : Fin 16) (s : State) (hs : Keeps q s) :
    ∃ s1, execMac i ac ds dt s = .next s1 ∧ Keeps q s1 := by
  unfold execMac
  (try dsimp only)
  repeat' (first | with_reducible assumption | refine ⟨_, rfl, ?_⟩ | with_reducible apply ok_keeps | with_reducible apply issue_keeps)

theorem execPlogAnd_keeps (i : Issue) (pd : Fin 8) (pa : Fin 8) (pb : Fin 8) (na : Bool) (nb : Bool) (s : State) (hs : Keeps q s) :
    ∃ s1, execPlogAnd i pd pa pb na nb s = .next s1 ∧ Keeps q s1 := by
  unfold execPlogAnd
  (try dsimp only)
  repeat' (first | with_reducible assumption | refine ⟨_, rfl, ?_⟩ | with_reducible apply ok_keeps | with_reducible apply issue_keeps)

theorem execMulh_keeps (i : Issue) (rd : Fin 16) (rs1 : Fin 16) (rs2 : Fin 16) (s : State) (hs : Keeps q s) :
    ∃ s1, execMulh i rd rs1 rs2 s = .next s1 ∧ Keeps q s1 := by
  unfold execMulh
  (try dsimp only)
  repeat' (first | with_reducible assumption | refine ⟨_, rfl, ?_⟩ | with_reducible apply ok_keeps | with_reducible apply issue_keeps)

theorem execAesCmacV_keeps (i : Issue) (k : Fin 4) (sa : Fin 8) (sb : Bool) (da : Fin 8) (db : Bool) (dn : Fin 16) (pd : Fin 8) (s : State) (hs : Keeps q s) :
    ∃ s1, execAesCmacV i k sa sb da db dn pd s = .next s1 ∧ Keeps q s1 := by
  unfold execAesCmacV
  (try dsimp only)
  repeat' (first | with_reducible assumption | refine ⟨_, rfl, ?_⟩ | with_reducible apply ok_keeps | with_reducible apply issue_keeps)

theorem execAesCbcD_keeps (i : Issue) (k : Fin 4) (sa : Fin 8) (sb : Bool) (da : Fin 8) (db : Bool) (dn : Fin 16) (s : State) (hs : Keeps q s) :
    ∃ s1, execAesCbcD i k sa sb da db dn s = .next s1 ∧ Keeps q s1 := by
  unfold execAesCbcD
  (try dsimp only)
  repeat' (first | with_reducible assumption | refine ⟨_, rfl, ?_⟩ | with_reducible apply ok_keeps | with_reducible apply issue_keeps)

theorem execHashSha512_keeps (i : Issue) (first : Bool) (last : Bool) (sa : Fin 8) (sb : Bool) (da : Fin 8) (db : Bool) (dn : Fin 16) (s : State) (hs : Keeps q s) :
    ∃ s1, execHashSha512 i first last sa sb da db dn s = .next s1 ∧ Keeps q s1 := by
  unfold execHashSha512
  (try dsimp only)
  repeat' (first | with_reducible assumption | refine ⟨_, rfl, ?_⟩ | with_reducible apply ok_keeps | with_reducible apply issue_keeps)

theorem execSafCvvGen_keeps (i : Issue) (ki : Fin 4) (ko : Fin 4) (sa : Fin 8) (sb : Bool) (da : Fin 8) (db : Bool) (dx : Fin 16) (s : State) (hs : Keeps q s) :
    ∃ s1, execSafCvvGen i ki ko sa sb da db dx s = .next s1 ∧ Keeps q s1 := by
  unfold execSafCvvGen
  (try dsimp only)
  repeat' (first | with_reducible assumption | refine ⟨_, rfl, ?_⟩ | with_reducible apply ok_keeps | with_reducible apply issue_keeps)

theorem execCustomOpcode_keeps (i : Issue) (u : Fin 16) (ra : Fin 16) (rb : Fin 16) (rc : Fin 16) (imm : BitVec 10) (s : State) (hs : Keeps q s) :
    ∃ s1, execCustomOpcode i u ra rb rc imm s = .next s1 ∧ Keeps q s1 := by
  unfold execCustomOpcode
  (try dsimp only)
  repeat' (first | with_reducible assumption | refine ⟨_, rfl, ?_⟩ | with_reducible apply ok_keeps | with_reducible apply issue_keeps)

theorem execSafPvvVerify_keeps (i : Issue) (ki : Fin 4) (ko : Fin 4) (sa : Fin 8) (sb : Bool) (da : Fin 8) (db : Bool) (dx : Fin 16) (s : State) (hs : Keeps q s) :
    ∃ s1, execSafPvvVerify i ki ko sa sb da db dx s = .next s1 ∧ Keeps q s1 := by
  unfold execSafPvvVerify
  (try dsimp only)
  repeat' (first | with_reducible assumption | refine ⟨_, rfl, ?_⟩ | with_reducible apply ok_keeps | with_reducible apply issue_keeps)

theorem execIllegalWord_keeps (core : Fin 65) (w : Word) (s : State) (hs : Keeps q s) :
    ∃ s1, execIllegalWord core w s = .next s1 ∧ Keeps q s1 := by
  unfold execIllegalWord
  (try dsimp only)
  repeat' (first | with_reducible assumption | refine ⟨_, rfl, ?_⟩ | with_reducible apply ok_keeps | with_reducible apply issueOp_keeps)

theorem execSafOfsGen_keeps (i : Issue) (ki : Fin 4) (ko : Fin 4) (sa : Fin 8) (sb : Bool) (da : Fin 8) (db : Bool) (dx : Fin 16) (s : State) (hs : Keeps q s) :
    ∃ s1, execSafOfsGen i ki ko sa sb da db dx s = .next s1 ∧ Keeps q s1 := by
  unfold execSafOfsGen
  (try dsimp only)
  repeat' (first | with_reducible assumption | refine ⟨_, rfl, ?_⟩ | with_reducible apply ok_keeps | with_reducible apply issue_keeps)

theorem execSafCvvVerify_keeps (i : Issue) (ki : Fin 4) (ko : Fin 4) (sa : Fin 8) (sb : Bool) (da : Fin 8) (db : Bool) (dx : Fin 16) (s : State) (hs : Keeps q s) :
    ∃ s1, execSafCvvVerify i ki ko sa sb da db dx s = .next s1 ∧ Keeps q s1 := by
  unfold execSafCvvVerify
  (try dsimp only)
  repeat' (first | with_reducible assumption | refine ⟨_, rfl, ?_⟩ | with_reducible apply ok_keeps | with_reducible apply issue_keeps)

theorem execBcdp_keeps (i : Issue) (sa : Fin 8) (sb : Bool) (da : Fin 8) (db : Bool) (dn : Fin 16) (pd : Fin 8) (s : State) (hs : Keeps q s) :
    ∃ s1, execBcdp i sa sb da db dn pd s = .next s1 ∧ Keeps q s1 := by
  unfold execBcdp
  (try dsimp only)
  repeat' (first | with_reducible assumption | refine ⟨_, rfl, ?_⟩ | with_reducible apply ok_keeps | with_reducible apply issue_keeps)

theorem execAesCbcE_keeps (i : Issue) (k : Fin 4) (sa : Fin 8) (sb : Bool) (da : Fin 8) (db : Bool) (dn : Fin 16) (s : State) (hs : Keeps q s) :
    ∃ s1, execAesCbcE i k sa sb da db dn s = .next s1 ∧ Keeps q s1 := by
  unfold execAesCbcE
  (try dsimp only)
  repeat' (first | with_reducible assumption | refine ⟨_, rfl, ?_⟩ | with_reducible apply ok_keeps | with_reducible apply issue_keeps)

theorem execTdesMac3V_keeps (i : Issue) (k : Fin 4) (sa : Fin 8) (sb : Bool) (da : Fin 8) (db : Bool) (dn : Fin 16) (pd : Fin 8) (s : State) (hs : Keeps q s) :
    ∃ s1, execTdesMac3V i k sa sb da db dn pd s = .next s1 ∧ Keeps q s1 := by
  unfold execTdesMac3V
  (try dsimp only)
  repeat' (first | with_reducible assumption | refine ⟨_, rfl, ?_⟩ | with_reducible apply ok_keeps | with_reducible apply issue_keeps)

theorem execRunStart_keeps (lane : Fin 64) (s : State) (hs : Keeps q s) :
    ∃ s1, execRunStart lane s = .next s1 ∧ Keeps q s1 := by
  unfold execRunStart
  (try dsimp only)
  repeat' (first | with_reducible assumption | refine ⟨_, rfl, ?_⟩ | with_reducible apply ok_keeps | with_reducible apply runStart_keeps)

theorem execTdesEcbD_keeps (i : Issue) (k : Fin 4) (sa : Fin 8) (sb : Bool) (da : Fin 8) (db : Bool) (dn : Fin 16) (s : State) (hs : Keeps q s) :
    ∃ s1, execTdesEcbD i k sa sb da db dn s = .next s1 ∧ Keeps q s1 := by
  unfold execTdesEcbD
  (try dsimp only)
  repeat' (first | with_reducible assumption | refine ⟨_, rfl, ?_⟩ | with_reducible apply ok_keeps | with_reducible apply issue_keeps)

theorem execKchk_keeps (i : Issue) (pd : Fin 8) (pdn : Fin 8) (k : Fin 4) (s : State) (hs : Keeps q s) :
    ∃ s1, execKchk i pd pdn k s = .next s1 ∧ Keeps q s1 := by
  unfold execKchk
  (try dsimp only)
  repeat' (first | with_reducible assumption | refine ⟨_, rfl, ?_⟩ | with_reducible apply ok_keeps | with_reducible apply issue_keeps)

theorem execSaffronDrbgReseed_keeps (z0 : Fin 16) (s : State) (hs : Keeps q s) :
    ∃ s1, execSaffronDrbgReseed z0 s = .next s1 ∧ Keeps q s1 := by
  unfold execSaffronDrbgReseed
  (try dsimp only)
  repeat' (first | intro _ | with_reducible assumption | refine ⟨_, rfl, ?_⟩ | with_reducible apply keeps_ite | with_reducible apply keeps_ite1 | with_reducible apply keeps_ite2 | with_reducible apply ok_keeps | with_reducible apply State.bump_keeps | with_reducible apply State.setQuad_keeps | contradiction | split)

theorem execTdesEcbE_keeps (i : Issue) (k : Fin 4) (sa : Fin 8) (sb : Bool) (da : Fin 8) (db : Bool) (dn : Fin 16) (s : State) (hs : Keeps q s) :
    ∃ s1, execTdesEcbE i k sa sb da db dn s = .next s1 ∧ Keeps q s1 := by
  unfold execTdesEcbE
  (try dsimp only)
  repeat' (first | with_reducible assumption | refine ⟨_, rfl, ?_⟩ | with_reducible apply ok_keeps | with_reducible apply issue_keeps)

theorem execWait_keeps (i : Issue) (s : State) (hs : Keeps q s) :
    ∃ s1, execWait i s = .next s1 ∧ Keeps q s1 := by
  unfold execWait
  (try dsimp only)
  repeat' (first | with_reducible assumption | refine ⟨_, rfl, ?_⟩ | with_reducible apply ok_keeps | with_reducible apply issue_keeps)

theorem execMcmp_keeps (i : Issue) (sa : Fin 8) (sb : Bool) (da : Fin 8) (db : Bool) (dn : Fin 16) (pd : Fin 8) (s : State) (hs : Keeps q s) :
    ∃ s1, execMcmp i sa sb da db dn pd s = .next s1 ∧ Keeps q s1 := by
  unfold execMcmp
  (try dsimp only)
  repeat' (first | with_reducible assumption | refine ⟨_, rfl, ?_⟩ | with_reducible apply ok_keeps | with_reducible apply issue_keeps)

theorem execTdesCbcE_keeps (i : Issue) (k : Fin 4) (sa : Fin 8) (sb : Bool) (da : Fin 8) (db : Bool) (dn : Fin 16) (s : State) (hs : Keeps q s) :
    ∃ s1, execTdesCbcE i k sa sb da db dn s = .next s1 ∧ Keeps q s1 := by
  unfold execTdesCbcE
  (try dsimp only)
  repeat' (first | with_reducible assumption | refine ⟨_, rfl, ?_⟩ | with_reducible apply ok_keeps | with_reducible apply issue_keeps)

theorem execMcpy_keeps (i : Issue) (sa : Fin 8) (sb : Bool) (da : Fin 8) (db : Bool) (dn : Fin 16) (s : State) (hs : Keeps q s) :
    ∃ s1, execMcpy i sa sb da db dn s = .next s1 ∧ Keeps q s1 := by
  unfold execMcpy
  (try dsimp only)
  repeat' (first | with_reducible assumption | refine ⟨_, rfl, ?_⟩ | with_reducible apply ok_keeps | with_reducible apply issue_keeps)

theorem execHexd_keeps (i : Issue) (sa : Fin 8) (sb : Bool) (da : Fin 8) (db : Bool) (dn : Fin 16) (pd : Fin 8) (s : State) (hs : Keeps q s) :
    ∃ s1, execHexd i sa sb da db dn pd s = .next s1 ∧ Keeps q s1 := by
  unfold execHexd
  (try dsimp only)
  repeat' (first | with_reducible assumption | refine ⟨_, rfl, ?_⟩ | with_reducible apply ok_keeps | with_reducible apply issue_keeps)

theorem execHexe_keeps (i : Issue) (sa : Fin 8) (sb : Bool) (da : Fin 8) (db : Bool) (dn : Fin 16) (s : State) (hs : Keeps q s) :
    ∃ s1, execHexe i sa sb da db dn s = .next s1 ∧ Keeps q s1 := by
  unfold execHexe
  (try dsimp only)
  repeat' (first | with_reducible assumption | refine ⟨_, rfl, ?_⟩ | with_reducible apply ok_keeps | with_reducible apply issue_keeps)

theorem execOverrunStop_keeps (lane : Fin 64) (s : State) (hs : Keeps q s) :
    ∃ s1, execOverrunStop lane s = .next s1 ∧ Keeps q s1 := by
  unfold execOverrunStop
  (try dsimp only)
  repeat' (first | intro _ | with_reducible assumption | refine ⟨_, rfl, ?_⟩ | with_reducible apply keeps_ite | with_reducible apply keeps_ite1 | with_reducible apply keeps_ite2 | with_reducible apply ok_keeps | with_reducible apply overrunStop_keeps | contradiction | split)

theorem execHashSha256_keeps (i : Issue) (first : Bool) (last : Bool) (sa : Fin 8) (sb : Bool) (da : Fin 8) (db : Bool) (dn : Fin 16) (s : State) (hs : Keeps q s) :
    ∃ s1, execHashSha256 i first last sa sb da db dn s = .next s1 ∧ Keeps q s1 := by
  unfold execHashSha256
  (try dsimp only)
  repeat' (first | with_reducible assumption | refine ⟨_, rfl, ?_⟩ | with_reducible apply ok_keeps | with_reducible apply issue_keeps)

theorem execTdesCbcD_keeps (i : Issue) (k : Fin 4) (sa : Fin 8) (sb : Bool) (da : Fin 8) (db : Bool) (dn : Fin 16) (s : State) (hs : Keeps q s) :
    ∃ s1, execTdesCbcD i k sa sb da db dn s = .next s1 ∧ Keeps q s1 := by
  unfold execTdesCbcD
  (try dsimp only)
  repeat' (first | with_reducible assumption | refine ⟨_, rfl, ?_⟩ | with_reducible apply ok_keeps | with_reducible apply issue_keeps)

theorem execWriteBufferEntryComplete_keeps (lane : Fin 64) (s : State) (hs : Keeps q s) :
    ∃ s1, execWriteBufferEntryComplete lane s = .next s1 ∧ Keeps q s1 := by
  unfold execWriteBufferEntryComplete
  (try dsimp only)
  repeat' (first | with_reducible assumption | refine ⟨_, rfl, ?_⟩ | with_reducible apply ok_keeps | with_reducible apply completeOldest_keeps | with_reducible apply State.at_keeps | split)

theorem execAesEcbD_keeps (i : Issue) (k : Fin 4) (sa : Fin 8) (sb : Bool) (da : Fin 8) (db : Bool) (dn : Fin 16) (s : State) (hs : Keeps q s) :
    ∃ s1, execAesEcbD i k sa sb da db dn s = .next s1 ∧ Keeps q s1 := by
  unfold execAesEcbD
  (try dsimp only)
  repeat' (first | with_reducible assumption | refine ⟨_, rfl, ?_⟩ | with_reducible apply ok_keeps | with_reducible apply issue_keeps)

theorem execAesEcbE_keeps (i : Issue) (k : Fin 4) (sa : Fin 8) (sb : Bool) (da : Fin 8) (db : Bool) (dn : Fin 16) (s : State) (hs : Keeps q s) :
    ∃ s1, execAesEcbE i k sa sb da db dn s = .next s1 ∧ Keeps q s1 := by
  unfold execAesEcbE
  (try dsimp only)
  repeat' (first | with_reducible assumption | refine ⟨_, rfl, ?_⟩ | with_reducible apply ok_keeps | with_reducible apply issue_keeps)

theorem execTdesMac1V_keeps (i : Issue) (k : Fin 4) (sa : Fin 8) (sb : Bool) (da : Fin 8) (db : Bool) (dn : Fin 16) (pd : Fin 8) (s : State) (hs : Keeps q s) :
    ∃ s1, execTdesMac1V i k sa sb da db dn pd s = .next s1 ∧ Keeps q s1 := by
  unfold execTdesMac1V
  (try dsimp only)
  repeat' (first | with_reducible assumption | refine ⟨_, rfl, ?_⟩ | with_reducible apply ok_keeps | with_reducible apply issue_keeps)

theorem execHashSha384_keeps (i : Issue) (first : Bool) (last : Bool) (sa : Fin 8) (sb : Bool) (da : Fin 8) (db : Bool) (dn : Fin 16) (s : State) (hs : Keeps q s) :
    ∃ s1, execHashSha384 i first last sa sb da db dn s = .next s1 ∧ Keeps q s1 := by
  unfold execHashSha384
  (try dsimp only)
  repeat' (first | with_reducible assumption | refine ⟨_, rfl, ?_⟩ | with_reducible apply ok_keeps | with_reducible apply issue_keeps)

theorem execSupervisorInterrupt_keeps (src : Option (Fin 8)) (s : State) (hs : Keeps q s) :
    ∃ s1, execSupervisorInterrupt src s = .next s1 ∧ Keeps q s1 := by
  unfold execSupervisorInterrupt
  (try dsimp only)
  repeat' (first | with_reducible assumption | refine ⟨_, rfl, ?_⟩ | with_reducible apply keeps_ite | with_reducible apply ok_keeps | with_reducible apply supInterrupt_keeps | split | (simp only [keeps_mk]; with_reducible apply Keeps.both))

theorem execWaitResume_keeps (s : State) (hs : Keeps q s) :
    ∃ s1, execWaitResume s = .next s1 ∧ Keeps q s1 := by
  unfold execWaitResume
  (try dsimp only)
  repeat' (first | intro _ | with_reducible assumption | refine ⟨_, rfl, ?_⟩ | with_reducible apply keeps_ite | with_reducible apply keeps_ite1 | with_reducible apply keeps_ite2 | with_reducible apply ok_keeps | with_reducible apply State.setSup_keeps | contradiction | split)

theorem execSafOfsVerify_keeps (i : Issue) (ki : Fin 4) (ko : Fin 4) (sa : Fin 8) (sb : Bool) (da : Fin 8) (db : Bool) (dx : Fin 16) (s : State) (hs : Keeps q s) :
    ∃ s1, execSafOfsVerify i ki ko sa sb da db dx s = .next s1 ∧ Keeps q s1 := by
  unfold execSafOfsVerify
  (try dsimp only)
  repeat' (first | with_reducible assumption | refine ⟨_, rfl, ?_⟩ | with_reducible apply ok_keeps | with_reducible apply issue_keeps)

theorem execMxor_keeps (i : Issue) (sa : Fin 8) (sb : Bool) (da : Fin 8) (db : Bool) (dn : Fin 16) (s : State) (hs : Keeps q s) :
    ∃ s1, execMxor i sa sb da db dn s = .next s1 ∧ Keeps q s1 := by
  unfold execMxor
  (try dsimp only)
  repeat' (first | with_reducible assumption | refine ⟨_, rfl, ?_⟩ | with_reducible apply ok_keeps | with_reducible apply issue_keeps)

theorem execTdesMac3G_keeps (i : Issue) (k : Fin 4) (sa : Fin 8) (sb : Bool) (da : Fin 8) (db : Bool) (dn : Fin 16) (s : State) (hs : Keeps q s) :
    ∃ s1, execTdesMac3G i k sa sb da db dn s = .next s1 ∧ Keeps q s1 := by
  unfold execTdesMac3G
  (try dsimp only)
  repeat' (first | with_reducible assumption | refine ⟨_, rfl, ?_⟩ | with_reducible apply ok_keeps | with_reducible apply issue_keeps)

theorem execAesGhkey_keeps (i : Issue) (k : Fin 4) (s : State) (hs : Keeps q s) :
    ∃ s1, execAesGhkey i k s = .next s1 ∧ Keeps q s1 := by
  unfold execAesGhkey
  (try dsimp only)
  repeat' (first | with_reducible assumption | refine ⟨_, rfl, ?_⟩ | with_reducible apply ok_keeps | with_reducible apply issue_keeps)

theorem execAesCtr_keeps (i : Issue) (k : Fin 4) (sa : Fin 8) (sb : Bool) (da : Fin 8) (db : Bool) (dn : Fin 16) (s : State) (hs : Keeps q s) :
    ∃ s1, execAesCtr i k sa sb da db dn s = .next s1 ∧ Keeps q s1 := by
  unfold execAesCtr
  (try dsimp only)
  repeat' (first | with_reducible assumption | refine ⟨_, rfl, ?_⟩ | with_reducible apply ok_keeps | with_reducible apply issue_keeps)

theorem execBcdu_keeps (i : Issue) (sa : Fin 8) (sb : Bool) (da : Fin 8) (db : Bool) (dn : Fin 16) (pd : Fin 8) (s : State) (hs : Keeps q s) :
    ∃ s1, execBcdu i sa sb da db dn pd s = .next s1 ∧ Keeps q s1 := by
  unfold execBcdu
  (try dsimp only)
  repeat' (first | with_reducible assumption | refine ⟨_, rfl, ?_⟩ | with_reducible apply ok_keeps | with_reducible apply issue_keeps)

theorem execPost_keeps (i : Issue) (ds : Fin 16) (dt : Fin 16) (s : State) (hs : Keeps q s) :
    ∃ s1, execPost i ds dt s = .next s1 ∧ Keeps q s1 := by
  unfold execPost
  (try dsimp only)
  repeat' (first | with_reducible assumption | refine ⟨_, rfl, ?_⟩ | with_reducible apply ok_keeps | with_reducible apply issue_keeps)

theorem execHashGhash_keeps (i : Issue) (first : Bool) (last : Bool) (sa : Fin 8) (sb : Bool) (da : Fin 8) (db : Bool) (dn : Fin 16) (s : State) (hs : Keeps q s) :
    ∃ s1, execHashGhash i first last sa sb da db dn s = .next s1 ∧ Keeps q s1 := by
  unfold execHashGhash
  (try dsimp only)
  repeat' (first | with_reducible assumption | refine ⟨_, rfl, ?_⟩ | with_reducible apply ok_keeps | with_reducible apply issue_keeps)

theorem execSafPvvGen_keeps (i : Issue) (ki : Fin 4) (ko : Fin 4) (sa : Fin 8) (sb : Bool) (da : Fin 8) (db : Bool) (dx : Fin 16) (s : State) (hs : Keeps q s) :
    ∃ s1, execSafPvvGen i ki ko sa sb da db dx s = .next s1 ∧ Keeps q s1 := by
  unfold execSafPvvGen
  (try dsimp only)
  repeat' (first | with_reducible assumption | refine ⟨_, rfl, ?_⟩ | with_reducible apply ok_keeps | with_reducible apply issue_keeps)

theorem execMfill_keeps (i : Issue) (da : Fin 8) (db : Bool) (dn : Fin 16) (s : State) (hs : Keeps q s) :
    ∃ s1, execMfill i da db dn s = .next s1 ∧ Keeps q s1 := by
  unfold execMfill
  (try dsimp only)
  repeat' (first | with_reducible assumption | refine ⟨_, rfl, ?_⟩ | with_reducible apply ok_keeps | with_reducible apply issue_keeps)

theorem execSafTranslate_keeps (i : Issue) (ki : Fin 4) (ko : Fin 4) (sa : Fin 8) (sb : Bool) (da : Fin 8) (db : Bool) (dx : Fin 16) (s : State) (hs : Keeps q s) :
    ∃ s1, execSafTranslate i ki ko sa sb da db dx s = .next s1 ∧ Keeps q s1 := by
  unfold execSafTranslate
  (try dsimp only)
  repeat' (first | with_reducible assumption | refine ⟨_, rfl, ?_⟩ | with_reducible apply ok_keeps | with_reducible apply issue_keeps)

theorem execPksub_keeps (i : Issue) (sa : Fin 8) (sb : Bool) (dn : Fin 16) (s : State) (hs : Keeps q s) :
    ∃ s1, execPksub i sa sb dn s = .next s1 ∧ Keeps q s1 := by
  unfold execPksub
  (try dsimp only)
  repeat' (first | with_reducible assumption | refine ⟨_, rfl, ?_⟩ | with_reducible apply ok_keeps | with_reducible apply issue_keeps)

theorem execAesCmacG_keeps (i : Issue) (k : Fin 4) (sa : Fin 8) (sb : Bool) (da : Fin 8) (db : Bool) (dn : Fin 16) (s : State) (hs : Keeps q s) :
    ∃ s1, execAesCmacG i k sa sb da db dn s = .next s1 ∧ Keeps q s1 := by
  unfold execAesCmacG
  (try dsimp only)
  repeat' (first | with_reducible assumption | refine ⟨_, rfl, ?_⟩ | with_reducible apply ok_keeps | with_reducible apply issue_keeps)

theorem execTdesMac1G_keeps (i : Issue) (k : Fin 4) (sa : Fin 8) (sb : Bool) (da : Fin 8) (db : Bool) (dn : Fin 16) (s : State) (hs : Keeps q s) :
    ∃ s1, execTdesMac1G i k sa sb da db dn s = .next s1 ∧ Keeps q s1 := by
  unfold execTdesMac1G
  (try dsimp only)
  repeat' (first | with_reducible assumption | refine ⟨_, rfl, ?_⟩ | with_reducible apply ok_keeps | with_reducible apply issue_keeps)

theorem execEret_keeps (i : Issue) (s : State) (hs : Keeps q s) :
    ∃ s1, execEret i s = .next s1 ∧ Keeps q s1 := by
  unfold execEret
  (try dsimp only)
  repeat' (first | with_reducible assumption | refine ⟨_, rfl, ?_⟩ | with_reducible apply ok_keeps | with_reducible apply issue_keeps)

end Sys2Proof.Machine
end

