-- ==== Sys2Proof/Laws/KeepsDict.lean ====
section
/-!
SUPPORT. What every function keeps (programs, the dictionary and sessions): the queue of waiting commands, the canonical form of the MRAM,
and every fuse bit that is blown. One lemma per function; later lemmas cite the earlier ones.
-/
namespace Sys2Proof.Machine
variable {q : State}

theorem placeImage_keeps (ii : Nat) (b : Bytes) (s : State) (hs : Keeps q s) :
    Keeps q (placeImage ii b s) := by
  unfold placeImage
  (try dsimp only)
  repeat' (first | with_reducible assumption | with_reducible apply keeps_ite | with_reducible apply State.setEpoch_keeps)

theorem progInstall_keeps (ii : Nat) (slot : Nat) (s : State) (hs : Keeps q s) :
    Keeps q (progInstall ii slot s) := by
  unfold progInstall
  (try dsimp only)
  repeat' (first | with_reducible assumption | with_reducible apply keeps_ite | with_reducible apply placeImage_keeps | with_reducible apply failSlot_keeps | with_reducible apply State.bump_keeps | with_reducible apply doneSlot_keeps | with_reducible apply mrMeasure_keeps)

theorem progRemove_keeps (ii : Nat) (s : State) (hs : Keeps q s) :
    Keeps q (progRemove ii s).st := by
  unfold progRemove
  (try dsimp only)
  repeat' (first | intro _ | with_reducible assumption | with_reducible apply keeps_ite | with_reducible apply keeps_ite1 | with_reducible apply keeps_ite2 | with_reducible apply ansErr_keeps | with_reducible apply ansOK_keeps | with_reducible apply State.setEpoch_keeps | contradiction | split)

theorem clsInstall_keeps (k : Nat) (slot : Nat) (s : State) (hs : Keeps q s) :
    Keeps q (clsInstall k slot s) := by
  unfold clsInstall
  (try dsimp only)
  repeat' (first | with_reducible assumption | with_reducible apply keeps_ite | with_reducible apply doneSlot_keeps | with_reducible apply mrMeasure_keeps | with_reducible apply failSlot_keeps | (simp only [keeps_mk]; with_reducible apply Keeps.both))

theorem fxClassifier_keeps (k : Nat) (s : State) (role : Nat) (v : Bytes) (hs : Keeps q s) :
    Keeps q (fxClassifier k s role v).st := by
  unfold fxClassifier
  (try dsimp only)
  repeat' (first | with_reducible assumption | with_reducible apply startOp_keeps | with_reducible apply clsInstall_keeps)

theorem execClassifierInstall_keeps (r : Req) (k : Fin 16) (s : State) (hs : Keeps q s) :
    ∃ s1, execClassifierInstall r k s = .next s1 ∧ Keeps q s1 := by
  unfold execClassifierInstall
  (try dsimp only)
  repeat' (first | with_reducible assumption | refine ⟨_, rfl, ?_⟩ | with_reducible apply ok_keeps | with_reducible apply serveWrite_keeps | with_reducible apply fxClassifier_keeps)

theorem fxDecTable_keeps (t : Nat) (s : State) (_role : Nat) (v : Bytes) (hs : Keeps q s) :
    Keeps q (fxDecTable t s _role v).st := by
  unfold fxDecTable
  (try dsimp only)
  repeat' (first | with_reducible assumption | with_reducible apply ansOK_keeps | with_reducible apply mrMeasure_keeps | with_reducible apply storeEnt_keeps)

theorem execDecimalTableWrite_keeps (r : Req) (t : Fin 16) (s : State) (hs : Keeps q s) :
    ∃ s1, execDecimalTableWrite r t s = .next s1 ∧ Keeps q s1 := by
  unfold execDecimalTableWrite
  (try dsimp only)
  repeat' (first | with_reducible assumption | refine ⟨_, rfl, ?_⟩ | with_reducible apply ok_keeps | with_reducible apply serveWrite_keeps | with_reducible apply fxDecTable_keeps)

theorem fxImage_keeps (ii : Nat) (s : State) (role : Nat) (v : Bytes) (hs : Keeps q s) :
    Keeps q (fxImage ii s role v).st := by
  unfold fxImage
  (try dsimp only)
  repeat' (first | intro _ | with_reducible assumption | with_reducible apply keeps_ite | with_reducible apply keeps_ite1 | with_reducible apply keeps_ite2 | with_reducible apply startOp_keeps | with_reducible apply progInstall_keeps | with_reducible apply progRemove_keeps | contradiction | split)

theorem execImageInstall_keeps (r : Req) (ii : Fin 64) (s : State) (hs : Keeps q s) :
    ∃ s1, execImageInstall r ii s = .next s1 ∧ Keeps q s1 := by
  unfold execImageInstall
  (try dsimp only)
  repeat' (first | with_reducible assumption | refine ⟨_, rfl, ?_⟩ | with_reducible apply ok_keeps | with_reducible apply serveWrite_keeps | with_reducible apply fxImage_keeps)

theorem execImageRemove_keeps (r : Req) (ii : Fin 64) (s : State) (hs : Keeps q s) :
    ∃ s1, execImageRemove r ii s = .next s1 ∧ Keeps q s1 := by
  unfold execImageRemove
  (try dsimp only)
  repeat' (first | with_reducible assumption | refine ⟨_, rfl, ?_⟩ | with_reducible apply ok_keeps | with_reducible apply serveWrite_keeps | with_reducible apply fxImage_keeps)

theorem rootFail_keeps (s : State) (hs : Keeps q s) :
    Keeps q (rootFail s) := by
  unfold rootFail
  (try dsimp only)
  repeat' (first | intro _ | with_reducible assumption | with_reducible apply State.setEnt_keeps | (simp only [keeps_mk]; with_reducible apply Keeps.both) | with_reducible apply keeps_foldl)

theorem rootStep_keeps (r : KeyDieResult) (s : State) (hs : Keeps q s) :
    Keeps q (rootStep r s) := by
  unfold rootStep
  (try dsimp only)
  repeat' (first | with_reducible assumption | with_reducible apply keeps_ite | with_reducible apply logEvent_keeps | with_reducible apply rootFail_keeps | with_reducible apply setKept_keeps | (simp only [keeps_mk]; with_reducible apply Keeps.both))

theorem saltStep_keeps (s : State) (hs : Keeps q s) :
    Keeps q (saltStep s).2 := by
  unfold saltStep
  (try dsimp only)
  repeat' (first | intro _ | with_reducible assumption | with_reducible apply keeps_ite | with_reducible apply keeps_ite2 | with_reducible apply ctrIncrement_keeps | with_reducible apply vbatInc_keeps | with_reducible apply logEvent_keeps | with_reducible apply State.draw_keeps | (simp only [keeps_mk]; with_reducible apply Keeps.both))

theorem keysStep_keeps (salted : Bool) (s : State) (hs : Keeps q s) :
    Keeps q (keysStep salted s) := by
  unfold keysStep
  (try dsimp only)
  repeat' (first | intro _ | with_reducible assumption | with_reducible apply keeps_ite | with_reducible apply State.draw_keeps | with_reducible apply restoreAnchor_keeps | with_reducible apply State.setNode_keeps | (simp only [keeps_mk]; with_reducible apply Keeps.both) | with_reducible apply keeps_foldl)

theorem discardOwn_keeps (s : State) (hs : Keeps q s) : Keeps q (discardOwn s) := by
  unfold discardOwn
  extract_lets s1
  refine setKept_keeps _ _ _ _ ?_
  show Keeps q (match readOwn s with | none => s | some b => _)
  split
  · exact hs
  · exact writePages_keeps _ _ _ (keeps_foldl (fun s j h => keeps_ite (setCred_keeps _ _ _ h) h)
      (keeps_foldl (fun s j h => setCred_keeps _ _ _ h) hs))

theorem ownedAnchors_keeps (s : State) (hs : Keeps q s) :
    Keeps q (ownedAnchors s) := by
  unfold ownedAnchors
  (try dsimp only)
  repeat' (first | with_reducible assumption | with_reducible apply keeps_ite | with_reducible apply putAnchor_keeps | with_reducible apply State.draw_keeps | contradiction | split)

theorem ownershipStep_keeps (s : State) (hs : Keeps q s) :
    Keeps q (ownershipStep s) := by
  unfold ownershipStep
  (try dsimp only)
  repeat' (first | with_reducible assumption | with_reducible apply keeps_ite | with_reducible apply discardOwn_keeps | with_reducible apply systemResetNow_keeps | with_reducible apply setKept_keeps | with_reducible apply burnLcs_keeps | with_reducible apply ownedAnchors_keeps | contradiction | split)

theorem rosterStep_keeps (s : State) (hs : Keeps q s) :
    Keeps q (rosterStep s) := by
  unfold rosterStep
  (try dsimp only)
  repeat' (first | with_reducible assumption | with_reducible apply noteDamaged_keeps | with_reducible apply showGroup_keeps | contradiction | split | (simp only [keeps_mk]; with_reducible apply Keeps.both))

theorem keyDieSteps_keeps (r : KeyDieResult) (s : State) (hs : Keeps q s) :
    Keeps q (keyDieSteps r s) := by
  unfold keyDieSteps
  (try dsimp only)
  repeat' (first | intro _ | with_reducible assumption | with_reducible apply keeps_ite | with_reducible apply rootFail_keeps | with_reducible apply logEvent_keeps | with_reducible apply rootStep_keeps | with_reducible apply saltStep_keeps | with_reducible apply keysStep_keeps | with_reducible apply restoreCred_keeps | with_reducible apply ownershipStep_keeps | with_reducible apply rosterStep_keeps | (simp only [keeps_mk]; with_reducible apply Keeps.both) | with_reducible apply keeps_foldl)

theorem keyDieDone_keeps (s : State) (hs : Keeps q s) :
    Keeps q (keyDieDone s) := by
  unfold keyDieDone
  (try dsimp only)
  repeat' (first | with_reducible assumption | with_reducible apply keeps_ite | with_reducible apply cutOff_keeps | (simp only [keeps_mk]; with_reducible apply Keeps.both))

theorem execKeyDieBringup_keeps (res : KeyDieResult) (s : State) (hs : Keeps q s) :
    ∃ s1, execKeyDieBringup res s = .next s1 ∧ Keeps q s1 := by
  unfold execKeyDieBringup
  (try dsimp only)
  repeat' (first | intro _ | with_reducible assumption | refine ⟨_, rfl, ?_⟩ | with_reducible apply keeps_ite | with_reducible apply keeps_ite1 | with_reducible apply keeps_ite2 | with_reducible apply ok_keeps | with_reducible apply quietDomains_keeps | with_reducible apply State.setMode_keeps | with_reducible apply keyDieSteps_keeps | with_reducible apply keyDieDone_keeps | contradiction | split | (simp only [keeps_mk]; with_reducible apply Keeps.both))

theorem readSlice_keeps (r : Req) (idx : Nat) (sub : Nat) (s : State) (hs : Keeps q s) :
    Keeps q (readSlice r idx sub s).st := by
  unfold readSlice
  (try dsimp only)
  repeat' (first | with_reducible assumption | with_reducible apply keeps_ite | with_reducible apply ansErr_keeps | contradiction | split)

theorem limitAnswer_keeps (r : Req) (s : State) (a : Ans) (hs : Keeps q s) (ha : Keeps q a.st) :
    Keeps q (limitAnswer r s a).st := by
  unfold limitAnswer
  (try dsimp only)
  repeat' (first | intro _ | with_reducible assumption | with_reducible apply keeps_ite | with_reducible apply keeps_ite1 | with_reducible apply keeps_ite2 | with_reducible apply ansErr_keeps | contradiction | split)

theorem readRandom_keeps (r : Req) (s : State) (hs : Keeps q s) :
    Keeps q (readRandom r s).st := by
  unfold readRandom
  (try dsimp only)
  repeat' (first | intro _ | with_reducible assumption | with_reducible apply keeps_ite | with_reducible apply keeps_ite1 | with_reducible apply keeps_ite2 | with_reducible apply ansErr_keeps | with_reducible apply State.draw_keeps | with_reducible apply State.bump_keeps | contradiction | split)

theorem readAnswer_keeps (r : Req) (s : State) (role : Nat) (hs : Keeps q s) :
    Keeps q (readAnswer r s role).st := by
  unfold readAnswer
  (try dsimp only)
  repeat' (first | intro _ | with_reducible assumption | with_reducible apply keeps_ite | with_reducible apply keeps_ite1 | with_reducible apply keeps_ite2 | with_reducible apply ansErr_keeps | with_reducible apply limitAnswer_keeps | with_reducible apply readRandom_keeps | with_reducible apply readSlice_keeps | contradiction | split)

theorem answerRead_keeps (r : Req) (role : Nat) (s : State) (hs : Keeps q s) :
    Keeps q (answerRead r role s) := by
  unfold answerRead
  (try dsimp only)
  repeat' (first | with_reducible assumption | with_reducible apply keeps_ite | with_reducible apply modeFirst_keeps | with_reducible apply readAnswer_keeps | with_reducible apply wakeFor_keeps | with_reducible apply replyIn_keeps | contradiction | split | (simp only [keeps_mk]; with_reducible apply Keeps.both))

theorem serveStalled_keeps (d : Nat) (s : State) (hs : Keeps q s) :
    Keeps q (serveStalled d s) := by
  unfold serveStalled
  (try dsimp only)
  repeat' (first | intro _ | with_reducible assumption | with_reducible apply answerRead_keeps | (simp only [keeps_mk]; with_reducible apply Keeps.both) | with_reducible apply keeps_foldl)

theorem execDomainReady_keeps (d : Nat) (late : Bool) (s : State) (hs : Keeps q s) :
    ∃ s1, execDomainReady d late s = .next s1 ∧ Keeps q s1 := by
  unfold execDomainReady
  (try dsimp only)
  repeat' (first | with_reducible assumption | refine ⟨_, rfl, ?_⟩ | with_reducible apply keeps_ite | with_reducible apply readyAll_keeps | with_reducible apply ok_keeps | with_reducible apply serveStalled_keeps)

theorem execDictRead_keeps (r : Req) (s : State) (hs : Keeps q s) : ∃ s1, execDictRead r s = .next s1 ∧ Keeps q s1 := by
  have h := gate_keeps r opREAD (fun _ => isIdentity r.index.toNat || isMarkedA r.index.toNat r.sub.toNat) s hs
  unfold execDictRead
  generalize gate r opREAD _ s = g at h ⊢
  rcases g with t | t | t
  · exact next_ok h
  · exact next_ok (answerRead_keeps _ _ _ h)
  · dsimp only
    split
    · exact next_ok (refuse_keeps _ _ _ _ h)
    · exact next_ok (sendReply_keeps _ _ h)
    · exact next_ok (answerRead_keeps _ _ _ h)

theorem abortOp_keeps (k : Nat) (s : State) (hs : Keeps q s) :
    Keeps q (abortOp k s) := by
  unfold abortOp
  (try dsimp only)
  repeat' (first | intro _ | with_reducible assumption | with_reducible apply keeps_ite | with_reducible apply endSlot_keeps | with_reducible apply cerAbort_keeps | with_reducible apply abortRepl_keeps | contradiction | split)

theorem releaseSlot_keeps (k : Nat) (s : State) (hs : Keeps q s) :
    Keeps q (releaseSlot k s) := by
  unfold releaseSlot
  (try dsimp only)
  repeat' (first | with_reducible assumption | with_reducible apply State.setSlot_keeps)

theorem fxSlot_keeps (k : Nat) (s : State) (role : Nat) (v : Bytes) (hs : Keeps q s) :
    Keeps q (fxSlot k s role v).st := by
  unfold fxSlot
  (try dsimp only)
  repeat' (first | intro _ | with_reducible assumption | with_reducible apply keeps_ite | with_reducible apply keeps_ite1 | with_reducible apply keeps_ite2 | with_reducible apply ansErr_keeps | with_reducible apply ansOK_keeps | with_reducible apply abortOp_keeps | with_reducible apply releaseSlot_keeps | contradiction | split)

theorem commitAnswer_keeps (s : State) (role : Nat) (hs : Keeps q s) :
    Keeps q (commitAnswer s role).st := by
  unfold commitAnswer
  (try dsimp only)
  repeat' (first | with_reducible assumption | (with_reducible refine takeSlot_keeps (he := by assumption) ?_) | with_reducible apply keeps_ite | with_reducible apply ansErr_keeps | contradiction | split)

theorem execDictCommit_keeps (r : Req) (s : State) (hs : Keeps q s) :
    ∃ s1, execDictCommit r s = .next s1 ∧ Keeps q s1 := by
  unfold execDictCommit
  (try dsimp only)
  repeat' (first | intro _ | with_reducible assumption | refine ⟨_, rfl, ?_⟩ | with_reducible apply ok_keeps | with_reducible apply serve_keeps | with_reducible apply commitAnswer_keeps)

theorem execLongopAbort_keeps (r : Req) (slot : Byte) (s : State) (hs : Keeps q s) :
    ∃ s1, execLongopAbort r slot s = .next s1 ∧ Keeps q s1 := by
  unfold execLongopAbort
  (try dsimp only)
  repeat' (first | with_reducible assumption | refine ⟨_, rfl, ?_⟩ | with_reducible apply ok_keeps | with_reducible apply serveWrite_keeps | with_reducible apply fxSlot_keeps)

theorem fxDozeEnable_keeps (s : State) (_role : Nat) (v : Bytes) (hs : Keeps q s) :
    Keeps q (fxDozeEnable s _role v).st := by
  unfold fxDozeEnable
  (try dsimp only)
  repeat' (first | with_reducible assumption | with_reducible apply keeps_ite | with_reducible apply storeEnt_keeps | with_reducible apply ansOK_keeps | with_reducible apply dozeLeave_keeps)

theorem fxPortEnable_keeps (p : Nat) (s : State) (_role : Nat) (v : Bytes) (hs : Keeps q s) :
    Keeps q (fxPortEnable p s _role v).st := by
  unfold fxPortEnable
  (try dsimp only)
  repeat' (first | intro _ | with_reducible assumption | with_reducible apply keeps_ite | with_reducible apply keeps_ite1 | with_reducible apply keeps_ite2 | with_reducible apply storeEnt_keeps | with_reducible apply ansOK_keeps | with_reducible apply portLost_keeps | with_reducible apply tcpOpen_keeps | contradiction | split)

theorem fxMirrorEnable_keeps (l : Nat) (s : State) (_role : Nat) (v : Bytes) (hs : Keeps q s) :
    Keeps q (fxMirrorEnable l s _role v).st := by
  unfold fxMirrorEnable
  (try dsimp only)
  repeat' (first | with_reducible assumption | with_reducible apply keeps_ite | with_reducible apply storeEnt_keeps | with_reducible apply ansOK_keeps | with_reducible apply linkDown_keeps)

theorem fxChannel_keeps (c : Nat) (s : State) (_role : Nat) (v : Bytes) (hs : Keeps q s) :
    Keeps q (fxChannel c s _role v).st := by
  unfold fxChannel
  (try dsimp only)
  repeat' (first | with_reducible assumption | with_reducible apply keeps_ite | with_reducible apply logConfig_keeps | with_reducible apply storeEnt_keeps | with_reducible apply ansOK_keeps | with_reducible apply condAssert_keeps)

theorem fxModule_keeps (m : Nat) (s : State) (role : Nat) (v : Bytes) (hs : Keeps q s) :
    Keeps q (fxModule m s role v).st := by
  unfold fxModule
  (try dsimp only)
  repeat' (first | intro _ | with_reducible assumption | with_reducible apply keeps_ite | with_reducible apply keeps_ite1 | with_reducible apply keeps_ite2 | with_reducible apply State.draw_keeps | with_reducible apply fxModuleLoad_keeps | with_reducible apply fxModuleUnload_keeps | contradiction | split)

theorem fxBlock_keeps (s : State) (role : Nat) (v : Bytes) (hs : Keeps q s) :
    Keeps q (fxBlock s role v).st := by
  unfold fxBlock
  (try dsimp only)
  repeat' (first | intro _ | with_reducible assumption | with_reducible apply keeps_ite | with_reducible apply keeps_ite1 | with_reducible apply keeps_ite2 | with_reducible apply startOp_keeps | with_reducible apply blockReset_keeps | with_reducible apply quadBlockReset_keeps | with_reducible apply blockResetPk_keeps | with_reducible apply blockResetPort_keeps | with_reducible apply doneSlot_keeps | with_reducible apply failSlot_keeps)

theorem fxTamper_keeps (src : Nat) (idx : Nat) (sub : Nat) (s : State) (_role : Nat) (v : Bytes) (hs : Keeps q s) :
    Keeps q (fxTamper src idx sub s _role v).st := by
  unfold fxTamper
  (try dsimp only)
  repeat' (first | with_reducible assumption | with_reducible apply ansOK_keeps | with_reducible apply logConfig_keeps | with_reducible apply storeEnt_keeps)

theorem plainFx_keeps (idx : Nat) (sub : Nat) (s : State) (_role : Nat) (v : Bytes) (hs : Keeps q s) :
    Keeps q (plainFx idx sub s _role v).st := by
  unfold plainFx
  (try dsimp only)
  repeat' (first | with_reducible assumption | with_reducible apply ansOK_keeps | with_reducible apply storeEnt_keeps)

theorem fxBase_keeps (s : State) (role : Nat) (v : Bytes) (hs : Keeps q s) :
    Keeps q (fxBase s role v).st := by
  unfold fxBase
  (try dsimp only)
  repeat' (first | intro _ | with_reducible assumption | with_reducible apply keeps_ite | with_reducible apply keeps_ite1 | with_reducible apply keeps_ite2 | with_reducible apply fxBaseInstall_keeps | with_reducible apply ansErr_keeps | with_reducible apply fxBaseActivate_keeps | contradiction | split)

theorem plainRule_keeps (idx sub : Nat) : (plainRule idx sub).Keeping q := fun s a b h => plainFx_keeps _ _ s a b h
theorem rangeRule_keeps (idx sub : Nat) (rg : State → Bytes → Bool) : (rangeRule idx sub rg).Keeping q := fun s a b h => plainFx_keeps _ _ s a b h
theorem ruleMode_keeps (sub : Nat) : (ruleMode sub).Keeping q := by
  unfold ruleMode
  split
  · exact rangeRule_keeps _ _ _
  · exact fun s a b h => fxRetire_keeps s a b h
  · exact fun s a b h => fxDebugArm_keeps s a b h
  · exact plainRule_keeps _ _
theorem rulePort_keeps (idx sub : Nat) : (rulePort idx sub).Keeping q :=
  rule_ite (rule_ite (fun s a b h => fxPortEnable_keeps _ s a b h) (rule_ite (plainRule_keeps idx sub) (rangeRule_keeps _ _ _)))
    (rule_ite (rangeRule_keeps _ _ _) (rule_ite (fun s a b h => fxMirrorEnable_keeps _ s a b h) (rule_ite (rangeRule_keeps _ _ _)
      (rule_ite (fun s a b h => fxClassifier_keeps _ s a b h) (plainRule_keeps _ _)))))
theorem ruleUnits_keeps (idx sub : Nat) : (ruleUnits idx sub).Keeping q :=
  rule_ite (fun s a b h => fxFlip_keeps s a b h) (rule_ite (fun s a b h => fxLaneFence_keeps _ s a b h)
    (rule_ite (fun _ _ _ h => State.setLane_keeps _ _ _ h) (rule_ite (fun s a b h => fxImage_keeps _ s a b h)
      (rule_ite (rangeRule_keeps _ _ _) (rule_ite (fun s a b h => fxKey_keeps s a b h) (rule_ite (fun s a b h => fxDecTable_keeps _ s a b h)
        (rule_ite (plainRule_keeps idx sub) (rule_ite (fun s a b h => fxPkFence_keeps _ s a b h)
          (rule_ite (fun s a b h => fxCurve_keeps _ s a b h) (plainRule_keeps _ _))))))))))
theorem ruleMeasure_keeps (idx sub : Nat) : (ruleMeasure idx sub).Keeping q :=
  rule_ite (plainRule_keeps idx sub) (rule_ite (fun s a b h => fxExtend_keeps _ s a b h) (rule_ite (fun s _ _ h => raiseFloor_keeps _ _ s h)
    (rule_ite (fun s _ _ h => raiseFloor_keeps _ _ s h) (rule_ite (fun s a b h => fxBase_keeps s a b h)
      (rule_ite (fun s a b h => fxModule_keeps _ s a b h) (plainRule_keeps _ _))))))
theorem ruleTamper_keeps (idx sub : Nat) : (ruleTamper idx sub).Keeping q := by
  refine rule_ite (fun s a b h => fxZeroise_keeps s a b h) (rule_ite (fun s a b h => fxRtc_keeps s a b h) (rule_ite (rule_ite
    (fun s a b h => fxResponse_keeps _ s a b h) (rule_ite (fun s a b h => fxTamper_keeps _ _ _ s a b h)
      (fun s a b h => fxTamper_keeps _ _ _ s a b h)))
    (rule_ite (fun s a b h => fxTamper_keeps _ _ _ s a b h) (rule_ite (fun s a b h => fxTamper_keeps _ _ _ s a b h) (rule_ite (fun s a b h => ?_)
      (rule_ite (fun s a b h => fxLearn_keeps s a b h) (rule_ite (fun s a b h => ?_) (rule_ite (fun s a b h => fxLogStatement_keeps s a b h)
        (rule_ite (fun s a b h => fxLogRoll_keeps s a b h) (plainRule_keeps _ _))))))))))
  · dsimp only
    split
    · exact fxAlarmAck_keeps _ _ a b h
    · exact fxTamper_keeps _ _ _ _ a b h
  · dsimp only
    split
    · exact fxChannel_keeps _ _ a b h
    · exact fxTamper_keeps _ _ _ _ a b h
theorem ruleSystem_keeps (idx sub : Nat) : (ruleSystem idx sub).Keeping q :=
  rule_ite (fun s a b h => fxWindow_keeps _ _ s a b h) (rule_ite (fun s a b h => fxDozeEnable_keeps s a b h)
    (rule_ite (fun s a b h => fxSystemReset_keeps s a b h)
      (rule_ite (fun s a b h => fxCoreReset_keeps s a b h) (rule_ite (fun s a b h => fxBlock_keeps s a b h) (rule_ite (plainRule_keeps idx sub)
        (rule_ite (fun s a b h => fxCounterIncrement_keeps _ s a b h) (rule_ite (fun s a b h => fxCounterRaise_keeps _ s a b h)
          (rule_ite (fun s a b h => fxCounterReinit_keeps s a b h) (rule_ite (fun s a b h => fxFuseOption_keeps _ s a b h)
            (rule_ite (fun s a b h => fxCeremony_keeps s a b h) (rule_ite (plainRule_keeps idx sub) (rule_ite (fun s a b h => plainFx_keeps idx 0xFF s a b h)
              (rule_ite (fun s a b h => fxOwnership_keeps s a b h) (rule_ite (fun s a b h => fxResolve_keeps s a b h)
                (plainRule_keeps _ _)))))))))))))))

theorem writeRule_keeps (idx sub : Nat) : (writeRule idx sub).Keeping q :=
  rule_ite (ruleMode_keeps _) (rule_ite (rulePort_keeps _ _) (rule_ite (ruleUnits_keeps _ _) (rule_ite (ruleMeasure_keeps _ _)
    (rule_ite (ruleTamper_keeps _ _) (rule_ite (ruleSystem_keeps _ _) (rule_ite (fun s a b h => fxSlot_keeps _ s a b h) (plainRule_keeps _ _)))))))

theorem resumeOp_keeps (k : Nat) (s : State) (hs : Keeps q s) : Keeps q (resumeOp k s) := by
  unfold resumeOp
  extract_lets v d t a u
  split
  · exact runKey_keeps _ _ _ (runSlot_keeps _ _ hs)
  · have ht : Keeps q t := ⟨hs.1, hs.2, hs.3⟩
    clear_value t
    have ha : Keeps q a.st := by
      unfold a
      split
      · exact startMode_keeps _ _ _ ht
      · exact writeRule_keeps _ _ _ _ _ ht
    clear_value a
    have hu : Keeps q u := keeps_ite ha (failSlot_keeps _ _ _ hs)
    clear_value u
    exact ⟨hu.1, hu.2, hu.3⟩

theorem execLongopStart_keeps (slot : Byte) (s : State) (hs : Keeps q s) :
    ∃ s1, execLongopStart slot s = .next s1 ∧ Keeps q s1 := by
  unfold execLongopStart
  (try dsimp only)
  repeat' (first | intro _ | with_reducible assumption | refine ⟨_, rfl, ?_⟩ | with_reducible apply keeps_ite | with_reducible apply keeps_ite1 | with_reducible apply keeps_ite2 | with_reducible apply ok_keeps | with_reducible apply commitRun_keeps | with_reducible apply runSlot_keeps | with_reducible apply startLoad_keeps | with_reducible apply resumeOp_keeps | contradiction | split)

theorem execLongopRelease_keeps (r : Req) (slot : Byte) (s : State) (hs : Keeps q s) :
    ∃ s1, execLongopRelease r slot s = .next s1 ∧ Keeps q s1 := by
  unfold execLongopRelease
  (try dsimp only)
  repeat' (first | with_reducible assumption | refine ⟨_, rfl, ?_⟩ | with_reducible apply ok_keeps | with_reducible apply serveWrite_keeps | with_reducible apply fxSlot_keeps)

theorem execDictWrite_keeps (r : Req) (s : State) (hs : Keeps q s) : ∃ s1, execDictWrite r s = .next s1 ∧ Keeps q s1 :=
  next_ite (next_ok (serveMode_keeps _ _ hs)) (next_ok (serveWrite_keeps _ _ _ _ _ _ _ _ (writeRule_keeps _ _) hs))

theorem execDictDefault_keeps (r : Req) (s : State) (hs : Keeps q s) : ∃ s1, execDictDefault r s = .next s1 ∧ Keeps q s1 :=
  next_ok (serve_keeps _ _ _ _ _ (fun _ _ h => judgeWrite_keeps _ _ _ _ _ _ _ _ _ _ _ (writeRule_keeps _ _) h) hs)

theorem execLongopAutoRelease_keeps (slot : Byte) (s : State) (hs : Keeps q s) :
    ∃ s1, execLongopAutoRelease slot s = .next s1 ∧ Keeps q s1 := by
  unfold execLongopAutoRelease
  (try dsimp only)
  repeat' (first | intro _ | with_reducible assumption | refine ⟨_, rfl, ?_⟩ | with_reducible apply keeps_ite | with_reducible apply keeps_ite1 | with_reducible apply keeps_ite2 | with_reducible apply ok_keeps | with_reducible apply releaseSlot_keeps | with_reducible apply State.at_keeps | contradiction | split)

theorem openFull_keeps (r : Req) (h : HalfSession) (s : State) (hs : Keeps q s) :
    Keeps q (openFull r h s) := by
  unfold openFull
  (try dsimp only)
  repeat' (first | with_reducible assumption | with_reducible apply closeSession_keeps | with_reducible apply replyIn_keeps | (simp only [keeps_mk]; with_reducible apply Keeps.both))

theorem execSessionIdleTimeout_keeps (s : State) (hs : Keeps q s) :
    ∃ s1, execSessionIdleTimeout s = .next s1 ∧ Keeps q s1 := by
  unfold execSessionIdleTimeout
  (try dsimp only)
  repeat' (first | with_reducible assumption | refine ⟨_, rfl, ?_⟩ | with_reducible apply ok_keeps | with_reducible apply closeSession_keeps | with_reducible apply State.at_keeps | split)

theorem openHalf_keeps (r : Req) (s : State) (hs : Keeps q s) :
    Keeps q (openHalf r s).2.2 := by
  unfold openHalf
  (try dsimp only)
  repeat' (first | with_reducible assumption | with_reducible apply State.draw_keeps | with_reducible apply idkSign_keeps | contradiction | split | (simp only [keeps_mk]; with_reducible apply Keeps.both))

theorem openReply_keeps (r : Req) (s : State) (hs : Keeps q s) :
    Keeps q (openReply r s) := by
  unfold openReply
  (try dsimp only)
  repeat' (first | with_reducible assumption | with_reducible apply keeps_ite | with_reducible apply replyIn_keeps | with_reducible apply State.bump_keeps | with_reducible apply openHalf_keeps | with_reducible apply noteAnswer_keeps | with_reducible apply sendReply_keeps)

theorem inSession_keeps (r : Req) (f : State → State) (s : State) (role : Nat) (hf : ∀ (x0 : State), Keeps q x0 → Keeps q (f x0)) (hs : Keeps q s) :
    Keeps q (inSession r f s role).st := by
  unfold inSession
  (try dsimp only)
  repeat' (first | intro _ | with_reducible assumption | with_reducible apply keeps_ite | with_reducible apply keeps_ite1 | with_reducible apply keeps_ite2 | with_reducible apply ansErr_keeps | with_reducible apply ansOK_keeps | with_reducible apply hf | contradiction | split)

theorem execSessionClose_keeps (r : Req) (s : State) (hs : Keeps q s) :
    ∃ s1, execSessionClose r s = .next s1 ∧ Keeps q s1 := by
  unfold execSessionClose
  (try dsimp only)
  repeat' (first | intro _ | with_reducible assumption | refine ⟨_, rfl, ?_⟩ | with_reducible apply ok_keeps | with_reducible apply serve_keeps | with_reducible apply inSession_keeps | with_reducible apply closeSession_keeps)

theorem execKeepalive_keeps (r : Req) (s : State) (hs : Keeps q s) :
    ∃ s1, execKeepalive r s = .next s1 ∧ Keeps q s1 := by
  unfold execKeepalive
  (try dsimp only)
  repeat' (first | intro _ | with_reducible assumption | refine ⟨_, rfl, ?_⟩ | with_reducible apply ok_keeps | with_reducible apply serve_keeps | with_reducible apply inSession_keeps)

theorem execHalfOpenTimeout_keeps (s : State) (hs : Keeps q s) :
    ∃ s1, execHalfOpenTimeout s = .next s1 ∧ Keeps q s1 := by
  unfold execHalfOpenTimeout
  (try dsimp only)
  repeat' (first | with_reducible assumption | refine ⟨_, rfl, ?_⟩ | with_reducible apply ok_keeps | with_reducible apply State.at_keeps | split | (simp only [keeps_mk]; with_reducible apply Keeps.both))

theorem execMgeArpIcmp_keeps (f : MgeFrame) (s : State) (hs : Keeps q s) :
    ∃ s1, execMgeArpIcmp f s = .next s1 ∧ Keeps q s1 := by
  unfold execMgeArpIcmp
  (try dsimp only)
  repeat' (first | with_reducible assumption | refine ⟨_, rfl, ?_⟩ | with_reducible apply keeps_ite | with_reducible apply ok_keeps | with_reducible apply State.emit_keeps | with_reducible apply State.bump_keeps | split)

theorem authLate_keeps (r : Req) (s : State) (hs : Keeps q s) :
    Keeps q (authLate r s) := by
  unfold authLate
  (try dsimp only)
  repeat' (first | with_reducible assumption | with_reducible apply keeps_ite | with_reducible apply sendReply_keeps | with_reducible apply refuse_keeps | with_reducible apply replyIn_keeps | contradiction | split)

theorem authHalf_keeps (r : Req) (h : HalfSession) (s : State) (hs : Keeps q s) :
    Keeps q (authHalf r h s) := by
  unfold authHalf
  (try dsimp only)
  repeat' (first | with_reducible assumption | with_reducible apply keeps_ite | with_reducible apply openFull_keeps | with_reducible apply replyPlain_keeps | with_reducible apply logEvent_keeps | with_reducible apply State.bump_keeps | (simp only [keeps_mk]; with_reducible apply Keeps.both))

theorem execSessionAuth_keeps (r : Req) (s : State) (hs : Keeps q s) : ∃ s1, execSessionAuth r s = .next s1 ∧ Keeps q s1 := by
  have h := gate_keeps r opAUTH (fun _ => false) s hs
  unfold execSessionAuth
  generalize gate r opAUTH _ s = g at h ⊢
  rcases g with t | t | t
  · exact next_ok h
  · exact next_ok h
  · dsimp only
    split
    · exact next_ite (next_ok (authLate_keeps _ _ h)) (next_ite (next_ok (replyPlain_keeps _ _ _ _ _ (countRefusal_keeps _ _ _ h)))
        (next_ok (authHalf_keeps _ _ _ h)))
    · exact next_ok (authLate_keeps _ _ h)

theorem execSessionOpen_keeps (r : Req) (s : State) (hs : Keeps q s) : ∃ s1, execSessionOpen r s = .next s1 ∧ Keeps q s1 := by
  have h := gate_keeps r opOPEN (fun _ => false) s hs
  unfold execSessionOpen
  generalize gate r opOPEN _ s = g at h ⊢
  rcases g with t | t | t
  · exact next_ok h
  · exact next_ok h
  · dsimp only
    split
    · exact next_ok (refuse_keeps _ _ _ _ h)
    · exact next_ok (sendReply_keeps _ _ h)
    · exact next_ok (openReply_keeps _ _ h)

end Sys2Proof.Machine
end

