-- ==== Sys2Proof/Laws/KeepsExec.lean ====
section
/-!
SUPPORT. Every command answers a next state, and what it keeps: the queue, the canonical form of the MRAM, every blown fuse bit.
-/
namespace Sys2Proof.Machine
variable {q : State}

theorem exec_keeps (i : Instr) (s : State) (hs : Keeps q s) : ∃ s1, exec i s = .next s1 ∧ Keeps q s1 :=
  match i with
  | .dictRead r => execDictRead_keeps r s hs
  | .dictWrite r => execDictWrite_keeps r s hs
  | .dictDefault r => execDictDefault_keeps r s hs
  | .dictCommit r => execDictCommit_keeps r s hs
  | .sessionOpen r => execSessionOpen_keeps r s hs
  | .sessionAuth r => execSessionAuth_keeps r s hs
  | .sessionClose r => execSessionClose_keeps r s hs
  | .keepalive r => execKeepalive_keeps r s hs
  | .halfOpenTimeout => execHalfOpenTimeout_keeps s hs
  | .sessionIdleTimeout => execSessionIdleTimeout_keeps s hs
  | .mgeArpIcmp f => execMgeArpIcmp_keeps f s hs
  | .longopStart slot => execLongopStart_keeps slot s hs
  | .longopAbort r slot => execLongopAbort_keeps r slot s hs
  | .longopRelease r slot => execLongopRelease_keeps r slot s hs
  | .longopAutoRelease slot => execLongopAutoRelease_keeps slot s hs
  | .frameReceive p f => execFrameReceive_keeps p f s hs
  | .wakeFrame p f => execWakeFrame_keeps p f s hs
  | .tcpSegmentReceive p g => execTcpSegmentReceive_keeps p g s hs
  | .tcpRetransmitTimeout p => execTcpRetransmitTimeout_keeps p s hs
  | .tcpKeepaliveTimer p => execTcpKeepaliveTimer_keeps p s hs
  | .tcpZeroWindowProbe p => execTcpZeroWindowProbe_keeps p s hs
  | .tcpTimeWaitExpiry p => execTcpTimeWaitExpiry_keeps p s hs
  | .tcpReconnectTimer p => execTcpReconnectTimer_keeps p s hs
  | .classifierContextStart src => execClassifierContextStart_keeps src s hs
  | .classifierStop src ctx => execClassifierStop_keeps src ctx s hs
  | .clsNop f => execClsNop_keeps f s hs
  | .clsLdb f => execClsLdb_keeps f s hs
  | .clsLdh f => execClsLdh_keeps f s hs
  | .clsLdw f => execClsLdw_keeps f s hs
  | .clsLdf f => execClsLdf_keeps f s hs
  | .clsNum f => execClsNum_keeps f s hs
  | .clsNumb f => execClsNumb_keeps f s hs
  | .clsMovi f => execClsMovi_keeps f s hs
  | .clsMovhi f => execClsMovhi_keeps f s hs
  | .clsAdd f => execClsAdd_keeps f s hs
  | .clsAddr f => execClsAddr_keeps f s hs
  | .clsAnd f => execClsAnd_keeps f s hs
  | .clsOr f => execClsOr_keeps f s hs
  | .clsShr f => execClsShr_keeps f s hs
  | .clsShl f => execClsShl_keeps f s hs
  | .clsBeq f => execClsBeq_keeps f s hs
  | .clsBne f => execClsBne_keeps f s hs
  | .clsBlt f => execClsBlt_keeps f s hs
  | .clsBge f => execClsBge_keeps f s hs
  | .bmw f => execBmw_keeps f s hs
  | .rule f => execRule_keeps f s hs
  | .setc f => execSetc_keeps f s hs
  | .setdl f => execSetdl_keeps f s hs
  | .setf f => execSetf_keeps f s hs
  | .setk f => execSetk_keeps f s hs
  | .setid f => execSetid_keeps f s hs
  | .emit f => execEmit_keeps f s hs
  | .reject f => execReject_keeps f s hs
  | .drop f => execDrop_keeps f s hs
  | .bypassForward p f => execBypassForward_keeps p f s hs
  | .transmitFrameSelect p => execTransmitFrameSelect_keeps p s hs
  | .resultHeaderArrival die => execResultHeaderArrival_keeps die s hs
  | .portSweep src => execPortSweep_keeps src s hs
  | .portLinkUp p => execPortLinkUp_keeps p s hs
  | .portLinkDown p => execPortLinkDown_keeps p s hs
  | .hostSqTailWrite q1 tail es => execHostSqTailWrite_keeps q1 tail es s hs
  | .hostRequestArrival q1 body => execHostRequestArrival_keeps q1 body s hs
  | .hpqQueueEnable q1 => execHpqQueueEnable_keeps q1 s hs
  | .hpqQueueDisable q1 => execHpqQueueDisable_keeps q1 s hs
  | .pePerst high => execPePerst_keeps high s hs
  | .classifierInstall r k => execClassifierInstall_keeps r k s hs
  | .admissionTest die => execAdmissionTest_keeps die s hs
  | .bodyMoveDone lane slot => execBodyMoveDone_keeps lane slot s hs
  | .runStart lane => execRunStart_keeps lane s hs
  | .overrunStop lane => execOverrunStop_keeps lane s hs
  | .laneFence lane cause => execLaneFence_keeps lane cause s hs
  | .spareTileSwitch k => execSpareTileSwitch_keeps k s hs
  | .spareFail k => execSpareFail_keeps k s hs
  | .quadWakeChargeExpiry q1 => execQuadWakeChargeExpiry_keeps q1 s hs
  | .pkEngineFence e cause => execPkEngineFence_keeps e cause s hs
  | .selftestClaim u => execSelftestClaim_keeps u s hs
  | .selftestSliceStart u => execSelftestSliceStart_keeps u s hs
  | .selftestSliceEnd u r => execSelftestSliceEnd_keeps u r s hs
  | .selftestClaimWithdraw q1 => execSelftestClaimWithdraw_keeps q1 s hs
  | .selftestSchedule => execSelftestSchedule_keeps s hs
  | .epochChangeRequest r => execEpochChangeRequest_keeps r s hs
  | .epochLoadStart => execEpochLoadStart_keeps s hs
  | .epochAckTimeout => execEpochAckTimeout_keeps s hs
  | .epochFlip => execEpochFlip_keeps s hs
  | .collectorAccept die => execCollectorAccept_keeps die s hs
  | .auditBlockClose die => execAuditBlockClose_keeps die s hs
  | .auditChunkWrite die => execAuditChunkWrite_keeps die s hs
  | .auditSysresetClose die => execAuditSysresetClose_keeps die s hs
  | .auditEraseClose die => execAuditEraseClose_keeps die s hs
  | .frameSlotFree lane slot => execFrameSlotFree_keeps lane slot s hs
  | .laneTimerExpiry lane k => execLaneTimerExpiry_keeps lane k s hs
  | .laneTimerConfig lane k v => execLaneTimerConfig_keeps lane k v s hs
  | .tevtClear lane v => execTevtClear_keeps lane v s hs
  | .mbxiPost lane => execMbxiPost_keeps lane s hs
  | .mbxiAck lane => execMbxiAck_keeps lane s hs
  | .mbxoPost lane => execMbxoPost_keeps lane s hs
  | .mbxoAck lane => execMbxoAck_keeps lane s hs
  | .bankLoad lane b => execBankLoad_keeps lane b s hs
  | .bankAck lane b => execBankAck_keeps lane b s hs
  | .bankDiscard lane b => execBankDiscard_keeps lane b s hs
  | .laneFenceRequest via lane => execLaneFenceRequest_keeps via lane s hs
  | .laneUnfence via lane => execLaneUnfence_keeps via lane s hs
  | .memoryUncorrectable lane shared => execMemoryUncorrectable_keeps lane shared s hs
  | .cacheRemoval => execCacheRemoval_keeps s hs
  | .nop f => execNop_keeps f s hs
  | .trap f info => execTrap_keeps f info s hs
  | .wbsync f => execWbsync_keeps f s hs
  | .mfc f d cr => execMfc_keeps f d cr s hs
  | .mtc f d cr => execMtc_keeps f d cr s hs
  | .add f rd rs1 rs2 => execAdd_keeps f rd rs1 rs2 s hs
  | .sub f rd rs1 rs2 => execSub_keeps f rd rs1 rs2 s hs
  | .addc f rd rs1 rs2 => execAddc_keeps f rd rs1 rs2 s hs
  | .subb f rd rs1 rs2 => execSubb_keeps f rd rs1 rs2 s hs
  | .and f rd rs1 rs2 => execAnd_keeps f rd rs1 rs2 s hs
  | .or f rd rs1 rs2 => execOr_keeps f rd rs1 rs2 s hs
  | .xor f rd rs1 rs2 => execXor_keeps f rd rs1 rs2 s hs
  | .andn f rd rs1 rs2 => execAndn_keeps f rd rs1 rs2 s hs
  | .sll f rd rs1 rs2 => execSll_keeps f rd rs1 rs2 s hs
  | .srl f rd rs1 rs2 => execSrl_keeps f rd rs1 rs2 s hs
  | .sra f rd rs1 rs2 => execSra_keeps f rd rs1 rs2 s hs
  | .ror f rd rs1 rs2 => execRor_keeps f rd rs1 rs2 s hs
  | .min f rd rs1 rs2 => execMin_keeps f rd rs1 rs2 s hs
  | .max f rd rs1 rs2 => execMax_keeps f rd rs1 rs2 s hs
  | .minu f rd rs1 rs2 => execMinu_keeps f rd rs1 rs2 s hs
  | .maxu f rd rs1 rs2 => execMaxu_keeps f rd rs1 rs2 s hs
  | .mul f rd rs1 rs2 => execMul_keeps f rd rs1 rs2 s hs
  | .mulh f rd rs1 rs2 => execMulh_keeps f rd rs1 rs2 s hs
  | .mulhu f rd rs1 rs2 => execMulhu_keeps f rd rs1 rs2 s hs
  | .divu f rd rs1 rs2 => execDivu_keeps f rd rs1 rs2 s hs
  | .remu f rd rs1 rs2 => execRemu_keeps f rd rs1 rs2 s hs
  | .clz f rd rs1 => execClz_keeps f rd rs1 s hs
  | .popc f rd rs1 => execPopc_keeps f rd rs1 s hs
  | .bswap f rd rs1 => execBswap_keeps f rd rs1 s hs
  | .sel f rd rs1 rs2 ps => execSel_keeps f rd rs1 rs2 ps s hs
  | .mov f rd rs1 => execMov_keeps f rd rs1 s hs
  | .addi f rd rs1 imm => execAddi_keeps f rd rs1 imm s hs
  | .andi f rd rs1 imm => execAndi_keeps f rd rs1 imm s hs
  | .ori f rd rs1 imm => execOri_keeps f rd rs1 imm s hs
  | .xori f rd rs1 imm => execXori_keeps f rd rs1 imm s hs
  | .shiSll f rd rs1 pos => execShiSll_keeps f rd rs1 pos s hs
  | .shiSrl f rd rs1 pos => execShiSrl_keeps f rd rs1 pos s hs
  | .shiSra f rd rs1 pos => execShiSra_keeps f rd rs1 pos s hs
  | .shiRor f rd rs1 pos => execShiRor_keeps f rd rs1 pos s hs
  | .shiExtu f rd rs1 pos wm1 => execShiExtu_keeps f rd rs1 pos wm1 s hs
  | .shiExts f rd rs1 pos wm1 => execShiExts_keeps f rd rs1 pos wm1 s hs
  | .shiIns f rd rs1 pos wm1 => execShiIns_keeps f rd rs1 pos wm1 s hs
  | .movi f rd imm => execMovi_keeps f rd imm s hs
  | .movh f rd imm => execMovh_keeps f rd imm s hs
  | .cmp f pd pdn cond rs1 rs2 => execCmp_keeps f pd pdn cond rs1 rs2 s hs
  | .cmpi f pd pdn cond rs1 imm => execCmpi_keeps f pd pdn cond rs1 imm s hs
  | .plogAnd f pd pa pb na nb => execPlogAnd_keeps f pd pa pb na nb s hs
  | .plogOr f pd pa pb na nb => execPlogOr_keeps f pd pa pb na nb s hs
  | .plogXor f pd pa pb na nb => execPlogXor_keeps f pd pa pb na nb s hs
  | .plogMov f pd pa na => execPlogMov_keeps f pd pa na s hs
  | .ld f d a sz bsel mode sx off => execLd_keeps f d a sz bsel mode sx off s hs
  | .st f d a sz bsel mode off => execSt_keeps f d a sz bsel mode off s hs
  | .writeBufferEntryComplete lane => execWriteBufferEntryComplete_keeps lane s hs
  | .ai f a imm => execAi_keeps f a imm s hs
  | .aaddi f a imm => execAaddi_keeps f a imm s hs
  | .amov f a ds => execAmov_keeps f a ds s hs
  | .aread f a dd => execAread_keeps f a dd s hs
  | .aadd f a ds => execAadd_keeps f a ds s hs
  | .br f off => execBr_keeps f off s hs
  | .call f off => execCall_keeps f off s hs
  | .jr f ds => execJr_keeps f ds s hs
  | .callr f ds => execCallr_keeps f ds s hs
  | .ret f => execRet_keeps f s hs
  | .loop f ds off => execLoop_keeps f ds off s hs
  | .loopi f count off => execLoopi_keeps f count off s hs
  | .push f r => execPush_keeps f r s hs
  | .pop f r => execPop_keeps f r s hs
  | .pusha f r => execPusha_keeps f r s hs
  | .popa f r => execPopa_keeps f r s hs
  | .pushm f mask => execPushm_keeps f mask s hs
  | .popm f mask => execPopm_keeps f mask s hs
  | .mac f ac ds dt => execMac_keeps f ac ds dt s hs
  | .macu f ac ds dt => execMacu_keeps f ac ds dt s hs
  | .msu f ac ds dt => execMsu_keeps f ac ds dt s hs
  | .aclr f ac => execAclr_keeps f ac s hs
  | .acsra f ac n => execAcsra_keeps f ac n s hs
  | .acrd f ac dd part => execAcrd_keeps f ac dd part s hs
  | .acwr f ac ds => execAcwr_keeps f ac ds s hs
  | .acadd f ac ds => execAcadd_keeps f ac ds s hs
  | .aesEcbE f k sa sb da db dn => execAesEcbE_keeps f k sa sb da db dn s hs
  | .aesEcbD f k sa sb da db dn => execAesEcbD_keeps f k sa sb da db dn s hs
  | .aesCbcE f k sa sb da db dn => execAesCbcE_keeps f k sa sb da db dn s hs
  | .aesCbcD f k sa sb da db dn => execAesCbcD_keeps f k sa sb da db dn s hs
  | .aesCtr f k sa sb da db dn => execAesCtr_keeps f k sa sb da db dn s hs
  | .aesCmacG f k sa sb da db dn => execAesCmacG_keeps f k sa sb da db dn s hs
  | .aesCmacV f k sa sb da db dn pd => execAesCmacV_keeps f k sa sb da db dn pd s hs
  | .aesGhkey f k => execAesGhkey_keeps f k s hs
  | .tdesEcbE f k sa sb da db dn => execTdesEcbE_keeps f k sa sb da db dn s hs
  | .tdesEcbD f k sa sb da db dn => execTdesEcbD_keeps f k sa sb da db dn s hs
  | .tdesCbcE f k sa sb da db dn => execTdesCbcE_keeps f k sa sb da db dn s hs
  | .tdesCbcD f k sa sb da db dn => execTdesCbcD_keeps f k sa sb da db dn s hs
  | .tdesMac1G f k sa sb da db dn => execTdesMac1G_keeps f k sa sb da db dn s hs
  | .tdesMac1V f k sa sb da db dn pd => execTdesMac1V_keeps f k sa sb da db dn pd s hs
  | .tdesMac3G f k sa sb da db dn => execTdesMac3G_keeps f k sa sb da db dn s hs
  | .tdesMac3V f k sa sb da db dn pd => execTdesMac3V_keeps f k sa sb da db dn pd s hs
  | .hashSha256 f first last sa sb da db dn => execHashSha256_keeps f first last sa sb da db dn s hs
  | .hashSha384 f first last sa sb da db dn => execHashSha384_keeps f first last sa sb da db dn s hs
  | .hashSha512 f first last sa sb da db dn => execHashSha512_keeps f first last sa sb da db dn s hs
  | .hashGhash f first last sa sb da db dn => execHashGhash_keeps f first last sa sb da db dn s hs
  | .safTranslate f ki ko sa sb da db dx => execSafTranslate_keeps f ki ko sa sb da db dx s hs
  | .safOfsVerify f ki ko sa sb da db dx => execSafOfsVerify_keeps f ki ko sa sb da db dx s hs
  | .safOfsGen f ki ko sa sb da db dx => execSafOfsGen_keeps f ki ko sa sb da db dx s hs
  | .safPvvVerify f ki ko sa sb da db dx => execSafPvvVerify_keeps f ki ko sa sb da db dx s hs
  | .safPvvGen f ki ko sa sb da db dx => execSafPvvGen_keeps f ki ko sa sb da db dx s hs
  | .safCvvVerify f ki ko sa sb da db dx => execSafCvvVerify_keeps f ki ko sa sb da db dx s hs
  | .safCvvGen f ki ko sa sb da db dx => execSafCvvGen_keeps f ki ko sa sb da db dx s hs
  | .saffronDrbgReseed q1 => execSaffronDrbgReseed_keeps q1 s hs
  | .kchk f pd pdn k => execKchk_keeps f pd pdn k s hs
  | .mcpy f sa sb da db dn => execMcpy_keeps f sa sb da db dn s hs
  | .mfill f da db dn => execMfill_keeps f da db dn s hs
  | .mxor f sa sb da db dn => execMxor_keeps f sa sb da db dn s hs
  | .mcmp f sa sb da db dn pd => execMcmp_keeps f sa sb da db dn pd s hs
  | .hexd f sa sb da db dn pd => execHexd_keeps f sa sb da db dn pd s hs
  | .hexe f sa sb da db dn => execHexe_keeps f sa sb da db dn s hs
  | .bcdp f sa sb da db dn pd => execBcdp_keeps f sa sb da db dn pd s hs
  | .bcdu f sa sb da db dn pd => execBcdu_keeps f sa sb da db dn pd s hs
  | .pksub f sa sb dn => execPksub_keeps f sa sb dn s hs
  | .post f ds dt => execPost_keeps f ds dt s hs
  | .customOpcode f u ra rb rc imm => execCustomOpcode_keeps f u ra rb rc imm s hs
  | .eret f => execEret_keeps f s hs
  | .wait f => execWait_keeps f s hs
  | .waitResume => execWaitResume_keeps s hs
  | .supervisorInterrupt src => execSupervisorInterrupt_keeps src s hs
  | .imageInstall r ii => execImageInstall_keeps r ii s hs
  | .imageRemove r ii => execImageRemove_keeps r ii s hs
  | .keyCreate r => execKeyCreate_keeps r s hs
  | .keyDelete r => execKeyDelete_keeps r s hs
  | .keyGenerate r => execKeyGenerate_keeps r s hs
  | .keyLoad r => execKeyLoad_keeps r s hs
  | .keySave r => execKeySave_keeps r s hs
  | .keyImport r => execKeyImport_keeps r s hs
  | .keyExport r => execKeyExport_keeps r s hs
  | .keyStage r => execKeyStage_keeps r s hs
  | .keyCommit r => execKeyCommit_keeps r s hs
  | .keyAbort r => execKeyAbort_keeps r s hs
  | .keyAttest r => execKeyAttest_keeps r s hs
  | .keyRead r => execKeyRead_keeps r s hs
  | .keyLoadpub r => execKeyLoadpub_keeps r s hs
  | .replacementVerified node => execReplacementVerified_keeps node s hs
  | .keyDelivery pipe badNode badSlot => execKeyDelivery_keeps pipe badNode badSlot s hs
  | .keyBusMessage die bad => execKeyBusMessage_keeps die bad s hs
  | .coherenceScanPass => execCoherenceScanPass_keeps s hs
  | .oldRunFree => execOldRunFree_keeps s hs
  | .decimalTableWrite r t => execDecimalTableWrite_keeps r t s hs
  | .pkJobRelease e => execPkJobRelease_keeps e s hs
  | .pkYieldPoint e n => execPkYieldPoint_keeps e n s hs
  | .pkJobEnd e => execPkJobEnd_keeps e s hs
  | .pkRsaPrivate e => execPkRsaPrivate_keeps e s hs
  | .pkRsaSignPkcs1 e => execPkRsaSignPkcs1_keeps e s hs
  | .pkRsaSignPss e => execPkRsaSignPss_keeps e s hs
  | .pkRsaPublic e => execPkRsaPublic_keeps e s hs
  | .pkRsaVerifyPkcs1 e => execPkRsaVerifyPkcs1_keeps e s hs
  | .pkRsaVerifyPss e => execPkRsaVerifyPss_keeps e s hs
  | .pkEcdsaSign e => execPkEcdsaSign_keeps e s hs
  | .pkEcdsaVerify e => execPkEcdsaVerify_keeps e s hs
  | .pkKeyAgreement e => execPkKeyAgreement_keeps e s hs
  | .pkPublicFromPrivate e => execPkPublicFromPrivate_keeps e s hs
  | .pkEddsaSign e => execPkEddsaSign_keeps e s hs
  | .pkEddsaVerify e => execPkEddsaVerify_keeps e s hs
  | .pkRsaKeygen e p q1 => execPkRsaKeygen_keeps e p q1 s hs
  | .rsaGenLimit die => execRsaGenLimit_keeps die s hs
  | .vasVerify e bad => execVasVerify_keeps e bad s hs
  | .pkDrbgReseed e => execPkDrbgReseed_keeps e s hs
  | .pkeBgGo die => execPkeBgGo_keeps die s hs
  | .pkeBgAbort die => execPkeBgAbort_keeps die s hs
  | .bgClaimTimeout die => execBgClaimTimeout_keeps die s hs
  | .pkFenceRequest r e => execPkFenceRequest_keeps r e s hs
  | .pkFenceRelease r e => execPkFenceRelease_keeps r e s hs
  | .curveInstall r c => execCurveInstall_keeps r c s hs
  | .curveUnload r c => execCurveUnload_keeps r c s hs
  | .cardInsert f => execCardInsert_keeps f s hs
  | .cardAtr f atr => execCardAtr_keeps f atr s hs
  | .cardRemove f => execCardRemove_keeps f s hs
  | .cardWaitTimeout w => execCardWaitTimeout_keeps w s hs
  | .cardSelect f => execCardSelect_keeps f s hs
  | .cardGetIdentity f => execCardGetIdentity_keeps f s hs
  | .cardSign f => execCardSign_keeps f s hs
  | .cardOpenChannel f => execCardOpenChannel_keeps f s hs
  | .cardPutComponent f => execCardPutComponent_keeps f s hs
  | .cardGetComponent f => execCardGetComponent_keeps f s hs
  | .cardClearComponent f slot => execCardClearComponent_keeps f slot s hs
  | .cardResponse f sw data edc => execCardResponse_keeps f sw data edc s hs
  | .cardDeactivate f => execCardDeactivate_keeps f s hs
  | .ceremonyStartEnrol r => execCeremonyStartEnrol_keeps r s hs
  | .ceremonyStartComponentsIn r => execCeremonyStartComponentsIn_keeps r s hs
  | .ceremonyStartComponentsOut r => execCeremonyStartComponentsOut_keeps r s hs
  | .ceremonyStartGroup r => execCeremonyStartGroup_keeps r s hs
  | .ceremonyTimeout => execCeremonyTimeout_keeps s hs
  | .ceremonyLimit => execCeremonyLimit_keeps s hs
  | .ownershipStart r => execOwnershipStart_keeps r s hs
  | .mirrorLinkUp l nonce => execMirrorLinkUp_keeps l nonce s hs
  | .mirrorAuth l stmt eph idk good => execMirrorAuth_keeps l stmt eph idk good s hs
  | .mirrorHeartbeat l seq bad => execMirrorHeartbeat_keeps l seq bad s hs
  | .mirrorHeartbeatTimer l => execMirrorHeartbeatTimer_keeps l s hs
  | .mirrorSilenceTimeout l => execMirrorSilenceTimeout_keeps l s hs
  | .mirrorToken l seq bad t => execMirrorToken_keeps l seq bad t s hs
  | .mirrorTamper l body => execMirrorTamper_keeps l body s hs
  | .mirrorPrepare l seq bad chg op node rec key ros => execMirrorPrepare_keeps l seq bad chg op node rec key ros s hs
  | .mirrorPrepared l seq bad chg => execMirrorPrepared_keeps l seq bad chg s hs
  | .mirrorRefuse l seq bad chg => execMirrorRefuse_keeps l seq bad chg s hs
  | .mirrorCommit l seq bad chg => execMirrorCommit_keeps l seq bad chg s hs
  | .mirrorCommitted l seq bad chg => execMirrorCommitted_keeps l seq bad chg s hs
  | .mirrorAbort l seq bad chg => execMirrorAbort_keeps l seq bad chg s hs
  | .mirrorStatus l seq bad chg answer => execMirrorStatus_keeps l seq bad chg answer s hs
  | .mirrorResync l seq bad decs joined nodes => execMirrorResync_keeps l seq bad decs joined nodes s hs
  | .mirrorKeyTransfer l seq bad node rec key => execMirrorKeyTransfer_keeps l seq bad node rec key s hs
  | .mirrorResendTimer chg => execMirrorResendTimer_keeps chg s hs
  | .mirrorPrepareTimeout chg => execMirrorPrepareTimeout_keeps chg s hs
  | .resolveAbort r => execResolveAbort_keeps r s hs
  | .digStart ctrl => execDigStart_keeps ctrl s hs
  | .digAbort => execDigAbort_keeps s hs
  | .digDataWrite w => execDigDataWrite_keeps w s hs
  | .digBlockDone => execDigBlockDone_keeps s hs
  | .digFinish flags => execDigFinish_keeps flags s hs
  | .mrVendorExtend vidx src => execMrVendorExtend_keeps vidx src s hs
  | .mrOwnerExtend oidx => execMrOwnerExtend_keeps oidx s hs
  | .mrExtendEntry r k => execMrExtendEntry_keeps r k s hs
  | .mrExtendDone => execMrExtendDone_keeps s hs
  | .bootlock => execBootlock_keeps s hs
  | .baseInstall r fault => execBaseInstall_keeps r fault s hs
  | .baseActivate r => execBaseActivate_keeps r s hs
  | .moduleLoad r m d0 fault => execModuleLoad_keeps r m d0 fault s hs
  | .moduleUnload r m => execModuleUnload_keeps r m s hs
  | .baseFloorRaise r => execBaseFloorRaise_keeps r s hs
  | .moduleFloorRaise r => execModuleFloorRaise_keeps r s hs
  | .supervisorBoot faults => execSupervisorBoot_keeps faults s hs
  | .conditionAssert code sensor => execConditionAssert_keeps code sensor s hs
  | .conditionDeassert code => execConditionDeassert_keeps code s hs
  | .escalation code => execEscalation_keeps code s hs
  | .zeroise r => execZeroise_keeps r s hs
  | .tmpZeroWrite v => execTmpZeroWrite_keeps v s hs
  | .alarmEnter => execAlarmEnter_keeps s hs
  | .conditionResponseWrite r code => execConditionResponseWrite_keeps r code s hs
  | .slackReport die crit sensor => execSlackReport_keeps die crit sensor s hs
  | .lclkStepRecovery die => execLclkStepRecovery_keeps die s hs
  | .vddLSetpointUp => execVddLSetpointUp_keeps s hs
  | .vddLSetpointDown => execVddLSetpointDown_keeps s hs
  | .learn r => execLearn_keeps r s hs
  | .learnDone means unstable => execLearnDone_keeps means unstable s hs
  | .guardSample cut short => execGuardSample_keeps cut short s hs
  | .alarmOutputAck r n => execAlarmOutputAck_keeps r n s hs
  | .evidenceEntryWrite => execEvidenceEntryWrite_keeps s hs
  | .logRoll r => execLogRoll_keeps r s hs
  | .logStatement r => execLogStatement_keeps r s hs
  | .rtcSet r => execRtcSet_keeps r s hs
  | .fabricAccess a => execFabricAccess_keeps a s hs
  | .dmaPiece ini addr write done len data => execDmaPiece_keeps ini addr write done len data s hs
  | .windowEnable die n => execWindowEnable_keeps die n s hs
  | .windowLock die n => execWindowLock_keeps die n s hs
  | .defenLock die => execDefenLock_keeps die s hs
  | .accessWindowEntryWrite r => execAccessWindowEntryWrite_keeps r s hs
  | .domainIdleTimeout d => execDomainIdleTimeout_keeps d s hs
  | .powerDownComplete d => execPowerDownComplete_keeps d s hs
  | .powerUp d src idx => execPowerUp_keeps d src idx s hs
  | .domainReady d late => execDomainReady_keeps d late s hs
  | .readyTimeout d => execReadyTimeout_keeps d s hs
  | .retryBackoff d => execRetryBackoff_keeps d s hs
  | .deepTimer => execDeepTimer_keeps s hs
  | .deepWake src r => execDeepWake_keeps src r s hs
  | .msAddressMatch port served => execMsAddressMatch_keeps port served s hs
  | .gpEdge pin level => execGpEdge_keeps pin level s hs
  | .rtcWake => execRtcWake_keeps s hs
  | .modeRequestService r => execModeRequestService_keeps r s hs
  | .modeRequestBypass r => execModeRequestBypass_keeps r s hs
  | .modeRequestCeremony r => execModeRequestCeremony_keeps r s hs
  | .modeRequestUpdate r => execModeRequestUpdate_keeps r s hs
  | .modeRequestReturn r => execModeRequestReturn_keeps r s hs
  | .pwrHoldQuads v => execPwrHoldQuads_keeps v s hs
  | .pwrHoldPk v => execPwrHoldPk_keeps v s hs
  | .pwrHoldDeep v => execPwrHoldDeep_keeps v s hs
  | .powerGoodFall main => execPowerGoodFall_keeps main s hs
  | .retire r => execRetire_keeps r s hs
  | .debugUnlockArm r => execDebugUnlockArm_keeps r s hs
  | .debugArmExpiry => execDebugArmExpiry_keeps s hs
  | .powerOn => execPowerOn_keeps s hs
  | .sysrstPin => execSysrstPin_keeps s hs
  | .systemResetRequest r => execSystemResetRequest_keeps r s hs
  | .coreResetRequest r => execCoreResetRequest_keeps r s hs
  | .rstReqSys key => execRstReqSys_keeps key s hs
  | .rstReqCoreKd key => execRstReqCoreKd_keeps key s hs
  | .rstReqCoreCd0 key => execRstReqCoreCd0_keeps key s hs
  | .rstReqCoreCd1 key => execRstReqCoreCd1_keeps key s hs
  | .computeDieRestore die => execComputeDieRestore_keeps die s hs
  | .watchdogEnable => execWatchdogEnable_keeps s hs
  | .watchdogKick v => execWatchdogKick_keeps v s hs
  | .watchdogExpiry => execWatchdogExpiry_keeps s hs
  | .optionLoad marginal => execOptionLoad_keeps marginal s hs
  | .domainReleaseNext => execDomainReleaseNext_keeps s hs
  | .keyDieBringup res => execKeyDieBringup_keeps res s hs
  | .postSelftest lanes pk clusters => execPostSelftest_keeps lanes pk clusters s hs
  | .trngTestFail => execTrngTestFail_keeps s hs
  | .blockResetQuad via q1 => execBlockResetQuad_keeps via q1 s hs
  | .blockResetPk via e => execBlockResetPk_keeps via e s hs
  | .blockResetPort via p => execBlockResetPort_keeps via p s hs
  | .tapExtest v => execTapExtest_keeps v s hs
  | .tapIdcode => execTapIdcode_keeps s hs
  | .tapSamplePreload v => execTapSamplePreload_keeps v s hs
  | .tapChal => execTapChal_keeps s hs
  | .tapUnlock sig => execTapUnlock_keeps sig s hs
  | .tapFabric addr write data => execTapFabric_keeps addr write data s hs
  | .tapSysreset => execTapSysreset_keeps s hs
  | .tapBypass => execTapBypass_keeps s hs
  | .nvmRead ini e => execNvmRead_keeps ini e s hs
  | .nvmWrite ini fails => execNvmWrite_keeps ini fails s hs
  | .nvmCounterIncrement ini fails => execNvmCounterIncrement_keeps ini fails s hs
  | .nvmCounterRaise ini fails => execNvmCounterRaise_keeps ini fails s hs
  | .nvmCounterRead ini => execNvmCounterRead_keeps ini s hs
  | .nvmCommandDone => execNvmCommandDone_keeps s hs
  | .nvmOrRead ini => execNvmOrRead_keeps ini s hs
  | .nvmOrWrite ini fails => execNvmOrWrite_keeps ini fails s hs
  | .nvmOrUnlock ini => execNvmOrUnlock_keeps ini s hs
  | .nvmOrLock ini => execNvmOrLock_keeps ini s hs
  | .fuseBurn keyDie stuck => execFuseBurn_keeps keyDie stuck s hs
  | .fuseOptionBurn r stuck => execFuseOptionBurn_keeps r stuck s hs
  | .counterIncrement r fails => execCounterIncrement_keeps r fails s hs
  | .counterRaise r fails => execCounterRaise_keeps r fails s hs
  | .counterReinit r => execCounterReinit_keeps r s hs
  | .registerWrite die off v => execRegisterWrite_keeps die off v s hs
  | .sysrstNRise => execSysrstNRise_keeps s hs
  | .porstNAssert => execPorstNAssert_keeps s hs
  | .cardClassARetry f => execCardClassARetry_keeps f s hs
  | .spareSubstitutionTimeout k => execSpareSubstitutionTimeout_keeps k s hs
  | .hostLinkRetrain width rate => execHostLinkRetrain_keeps width rate s hs
  | .illegalWord core w => execIllegalWord_keeps core w s hs
  | .cqHeadWrite q1 head => execCqHeadWrite_keeps q1 head s hs

/-- What a command answers, as a rule to cite: the queue is as before, the MRAM keeps its form, blown fuses stay blown. -/
theorem exec_next {i : Instr} {s t : State} (h : exec i s = .next t) : Keeps s t := by
  obtain ⟨u, hu, hk⟩ := exec_keeps i s (Keeps.refl s)
  rw [h] at hu
  injection hu with hu
  exact hu ▸ hk

end Sys2Proof.Machine
end

