-- ==== Sys2Proof/Laws/State.lean ====
section
/-!
SUPPORT. What each setter of the state changes and what it leaves: one equation for each setter and each part.
-/
namespace Sys2Proof.Machine

@[simp] theorem State.at_pending (s : State) (d : Nat) : (s.at d).pending = s.pending := rfl
@[simp] theorem State.at_draws (s : State) (d : Nat) : (s.at d).draws = s.draws := rfl
@[simp] theorem State.at_out (s : State) (d : Nat) : (s.at d).out = s.out := rfl
@[simp] theorem State.at_regs (s : State) (d : Nat) : (s.at d).regs = s.regs := rfl
@[simp] theorem State.at_dict (s : State) (d : Nat) : (s.at d).dict = s.dict := rfl
@[simp] theorem State.at_power (s : State) (d : Nat) : (s.at d).power = s.power := rfl
@[simp] theorem State.at_rst (s : State) (d : Nat) : (s.at d).rst = s.rst := rfl
@[simp] theorem State.at_tap (s : State) (d : Nat) : (s.at d).tap = s.tap := rfl
@[simp] theorem State.at_pins (s : State) (d : Nat) : (s.at d).pins = s.pins := rfl
@[simp] theorem State.at_nvm (s : State) (d : Nat) : (s.at d).nvm = s.nvm := rfl
@[simp] theorem State.at_tamper (s : State) (d : Nat) : (s.at d).tamper = s.tamper := rfl
@[simp] theorem State.at_log (s : State) (d : Nat) : (s.at d).log = s.log := rfl
@[simp] theorem State.at_act (s : State) (d : Nat) : (s.at d).act = s.act := rfl
@[simp] theorem State.at_port (s : State) (d : Nat) : (s.at d).port = s.port := rfl
@[simp] theorem State.at_unit (s : State) (d : Nat) : (s.at d).unit = s.unit := rfl
@[simp] theorem State.at_key (s : State) (d : Nat) : (s.at d).key = s.key := rfl
@[simp] theorem State.at_pk (s : State) (d : Nat) : (s.at d).pk = s.pk := rfl
@[simp] theorem State.at_mr (s : State) (d : Nat) : (s.at d).mr = s.mr := rfl
@[simp] theorem State.at_dig (s : State) (d : Nat) : (s.at d).dig = s.dig := rfl
@[simp] theorem State.at_img (s : State) (d : Nat) : (s.at d).img = s.img := rfl
@[simp] theorem State.at_grp (s : State) (d : Nat) : (s.at d).grp = s.grp := rfl
@[simp] theorem State.dom_at (s : State) (d : Nat) (d : Nat) : (s.at d).dom d = s.dom d := rfl
@[simp] theorem State.lane_at (s : State) (d : Nat) (l : Nat) : (s.at d).lane l = s.lane l := rfl
@[simp] theorem State.spare_at (s : State) (d : Nat) (l : Nat) : (s.at d).spare l = s.spare l := rfl
@[simp] theorem State.quad_at (s : State) (d : Nat) (l : Nat) : (s.at d).quad l = s.quad l := rfl
@[simp] theorem State.disp_at (s : State) (d : Nat) (l : Nat) : (s.at d).disp l = s.disp l := rfl
@[simp] theorem State.job_at (s : State) (d : Nat) (l : Nat) : (s.at d).job l = s.job l := rfl
@[simp] theorem State.aud_at (s : State) (d : Nat) (l : Nat) : (s.at d).aud l = s.aud l := rfl
@[simp] theorem State.core_at (s : State) (d : Nat) (l : Nat) : (s.at d).core l = s.core l := rfl
@[simp] theorem State.src_at (s : State) (d : Nat) (l : Nat) : (s.at d).src l = s.src l := rfl
@[simp] theorem State.hq_at (s : State) (d : Nat) (l : Nat) : (s.at d).hq l = s.hq l := rfl
@[simp] theorem State.actTab_at (s : State) (d : Nat) (l : Nat) : (s.at d).actTab l = s.actTab l := rfl
@[simp] theorem State.eng_at (s : State) (d : Nat) (l : Nat) : (s.at d).eng l = s.eng l := rfl
@[simp] theorem State.bg_at (s : State) (d : Nat) (l : Nat) : (s.at d).bg l = s.bg l := rfl
@[simp] theorem State.node_at (s : State) (d : Nat) (l : Nat) : (s.at d).node l = s.node l := rfl
@[simp] theorem State.run_at (s : State) (d : Nat) (l : Nat) : (s.at d).run l = s.run l := rfl
@[simp] theorem State.repl_at (s : State) (d : Nat) (l : Nat) : (s.at d).repl l = s.repl l := rfl
@[simp] theorem State.cond_at (s : State) (d : Nat) (l : Nat) : (s.at d).cond l = s.cond l := rfl
@[simp] theorem State.card_at (s : State) (d : Nat) (l : Nat) : (s.at d).card l = s.card l := rfl
@[simp] theorem State.mlink_at (s : State) (d : Nat) (l : Nat) : (s.at d).mlink l = s.mlink l := rfl
@[simp] theorem State.slot_at (s : State) (d : Nat) (l : Nat) : (s.at d).slot l = s.slot l := rfl
@[simp] theorem State.entW_at (s : State) (d : Nat) (x y : Nat) : (s.at d).entW x y = s.entW x y := rfl
@[simp] theorem State.num_at (s : State) (d : Nat) (x y : Nat) : (s.at d).num x y = s.num x y := rfl
@[simp] theorem State.emit_pending (s : State) (o : Out) : (s.emit o).pending = s.pending := rfl
@[simp] theorem State.emit_dt (s : State) (o : Out) : (s.emit o).dt = s.dt := rfl
@[simp] theorem State.emit_draws (s : State) (o : Out) : (s.emit o).draws = s.draws := rfl
@[simp] theorem State.emit_regs (s : State) (o : Out) : (s.emit o).regs = s.regs := rfl
@[simp] theorem State.emit_dict (s : State) (o : Out) : (s.emit o).dict = s.dict := rfl
@[simp] theorem State.emit_power (s : State) (o : Out) : (s.emit o).power = s.power := rfl
@[simp] theorem State.emit_rst (s : State) (o : Out) : (s.emit o).rst = s.rst := rfl
@[simp] theorem State.emit_tap (s : State) (o : Out) : (s.emit o).tap = s.tap := rfl
@[simp] theorem State.emit_pins (s : State) (o : Out) : (s.emit o).pins = s.pins := rfl
@[simp] theorem State.emit_nvm (s : State) (o : Out) : (s.emit o).nvm = s.nvm := rfl
@[simp] theorem State.emit_tamper (s : State) (o : Out) : (s.emit o).tamper = s.tamper := rfl
@[simp] theorem State.emit_log (s : State) (o : Out) : (s.emit o).log = s.log := rfl
@[simp] theorem State.emit_act (s : State) (o : Out) : (s.emit o).act = s.act := rfl
@[simp] theorem State.emit_port (s : State) (o : Out) : (s.emit o).port = s.port := rfl
@[simp] theorem State.emit_unit (s : State) (o : Out) : (s.emit o).unit = s.unit := rfl
@[simp] theorem State.emit_key (s : State) (o : Out) : (s.emit o).key = s.key := rfl
@[simp] theorem State.emit_pk (s : State) (o : Out) : (s.emit o).pk = s.pk := rfl
@[simp] theorem State.emit_mr (s : State) (o : Out) : (s.emit o).mr = s.mr := rfl
@[simp] theorem State.emit_dig (s : State) (o : Out) : (s.emit o).dig = s.dig := rfl
@[simp] theorem State.emit_img (s : State) (o : Out) : (s.emit o).img = s.img := rfl
@[simp] theorem State.emit_grp (s : State) (o : Out) : (s.emit o).grp = s.grp := rfl
@[simp] theorem State.dom_emit (s : State) (o : Out) (d : Nat) : (s.emit o).dom d = s.dom d := rfl
@[simp] theorem State.lane_emit (s : State) (o : Out) (l : Nat) : (s.emit o).lane l = s.lane l := rfl
@[simp] theorem State.spare_emit (s : State) (o : Out) (l : Nat) : (s.emit o).spare l = s.spare l := rfl
@[simp] theorem State.quad_emit (s : State) (o : Out) (l : Nat) : (s.emit o).quad l = s.quad l := rfl
@[simp] theorem State.disp_emit (s : State) (o : Out) (l : Nat) : (s.emit o).disp l = s.disp l := rfl
@[simp] theorem State.job_emit (s : State) (o : Out) (l : Nat) : (s.emit o).job l = s.job l := rfl
@[simp] theorem State.aud_emit (s : State) (o : Out) (l : Nat) : (s.emit o).aud l = s.aud l := rfl
@[simp] theorem State.core_emit (s : State) (o : Out) (l : Nat) : (s.emit o).core l = s.core l := rfl
@[simp] theorem State.src_emit (s : State) (o : Out) (l : Nat) : (s.emit o).src l = s.src l := rfl
@[simp] theorem State.hq_emit (s : State) (o : Out) (l : Nat) : (s.emit o).hq l = s.hq l := rfl
@[simp] theorem State.actTab_emit (s : State) (o : Out) (l : Nat) : (s.emit o).actTab l = s.actTab l := rfl
@[simp] theorem State.eng_emit (s : State) (o : Out) (l : Nat) : (s.emit o).eng l = s.eng l := rfl
@[simp] theorem State.bg_emit (s : State) (o : Out) (l : Nat) : (s.emit o).bg l = s.bg l := rfl
@[simp] theorem State.node_emit (s : State) (o : Out) (l : Nat) : (s.emit o).node l = s.node l := rfl
@[simp] theorem State.run_emit (s : State) (o : Out) (l : Nat) : (s.emit o).run l = s.run l := rfl
@[simp] theorem State.repl_emit (s : State) (o : Out) (l : Nat) : (s.emit o).repl l = s.repl l := rfl
@[simp] theorem State.cond_emit (s : State) (o : Out) (l : Nat) : (s.emit o).cond l = s.cond l := rfl
@[simp] theorem State.card_emit (s : State) (o : Out) (l : Nat) : (s.emit o).card l = s.card l := rfl
@[simp] theorem State.mlink_emit (s : State) (o : Out) (l : Nat) : (s.emit o).mlink l = s.mlink l := rfl
@[simp] theorem State.slot_emit (s : State) (o : Out) (l : Nat) : (s.emit o).slot l = s.slot l := rfl
@[simp] theorem State.entW_emit (s : State) (o : Out) (x y : Nat) : (s.emit o).entW x y = s.entW x y := rfl
@[simp] theorem State.num_emit (s : State) (o : Out) (x y : Nat) : (s.emit o).num x y = s.num x y := rfl
@[simp] theorem State.setEnt_pending (s : State) (i k : Nat) (v : Bytes) : (s.setEnt i k v).pending = s.pending := rfl
@[simp] theorem State.setEnt_dt (s : State) (i k : Nat) (v : Bytes) : (s.setEnt i k v).dt = s.dt := rfl
@[simp] theorem State.setEnt_draws (s : State) (i k : Nat) (v : Bytes) : (s.setEnt i k v).draws = s.draws := rfl
@[simp] theorem State.setEnt_out (s : State) (i k : Nat) (v : Bytes) : (s.setEnt i k v).out = s.out := rfl
@[simp] theorem State.setEnt_regs (s : State) (i k : Nat) (v : Bytes) : (s.setEnt i k v).regs = s.regs := rfl
@[simp] theorem State.setEnt_power (s : State) (i k : Nat) (v : Bytes) : (s.setEnt i k v).power = s.power := rfl
@[simp] theorem State.setEnt_rst (s : State) (i k : Nat) (v : Bytes) : (s.setEnt i k v).rst = s.rst := rfl
@[simp] theorem State.setEnt_tap (s : State) (i k : Nat) (v : Bytes) : (s.setEnt i k v).tap = s.tap := rfl
@[simp] theorem State.setEnt_pins (s : State) (i k : Nat) (v : Bytes) : (s.setEnt i k v).pins = s.pins := rfl
@[simp] theorem State.setEnt_nvm (s : State) (i k : Nat) (v : Bytes) : (s.setEnt i k v).nvm = s.nvm := rfl
@[simp] theorem State.setEnt_tamper (s : State) (i k : Nat) (v : Bytes) : (s.setEnt i k v).tamper = s.tamper := rfl
@[simp] theorem State.setEnt_log (s : State) (i k : Nat) (v : Bytes) : (s.setEnt i k v).log = s.log := rfl
@[simp] theorem State.setEnt_act (s : State) (i k : Nat) (v : Bytes) : (s.setEnt i k v).act = s.act := rfl
@[simp] theorem State.setEnt_port (s : State) (i k : Nat) (v : Bytes) : (s.setEnt i k v).port = s.port := rfl
@[simp] theorem State.setEnt_unit (s : State) (i k : Nat) (v : Bytes) : (s.setEnt i k v).unit = s.unit := rfl
@[simp] theorem State.setEnt_key (s : State) (i k : Nat) (v : Bytes) : (s.setEnt i k v).key = s.key := rfl
@[simp] theorem State.setEnt_pk (s : State) (i k : Nat) (v : Bytes) : (s.setEnt i k v).pk = s.pk := rfl
@[simp] theorem State.setEnt_mr (s : State) (i k : Nat) (v : Bytes) : (s.setEnt i k v).mr = s.mr := rfl
@[simp] theorem State.setEnt_dig (s : State) (i k : Nat) (v : Bytes) : (s.setEnt i k v).dig = s.dig := rfl
@[simp] theorem State.setEnt_img (s : State) (i k : Nat) (v : Bytes) : (s.setEnt i k v).img = s.img := rfl
@[simp] theorem State.setEnt_grp (s : State) (i k : Nat) (v : Bytes) : (s.setEnt i k v).grp = s.grp := rfl
@[simp] theorem State.dom_setEnt (s : State) (i k : Nat) (v : Bytes) (d : Nat) : (s.setEnt i k v).dom d = s.dom d := rfl
@[simp] theorem State.lane_setEnt (s : State) (i k : Nat) (v : Bytes) (l : Nat) : (s.setEnt i k v).lane l = s.lane l := rfl
@[simp] theorem State.spare_setEnt (s : State) (i k : Nat) (v : Bytes) (l : Nat) : (s.setEnt i k v).spare l = s.spare l := rfl
@[simp] theorem State.quad_setEnt (s : State) (i k : Nat) (v : Bytes) (l : Nat) : (s.setEnt i k v).quad l = s.quad l := rfl
@[simp] theorem State.disp_setEnt (s : State) (i k : Nat) (v : Bytes) (l : Nat) : (s.setEnt i k v).disp l = s.disp l := rfl
@[simp] theorem State.job_setEnt (s : State) (i k : Nat) (v : Bytes) (l : Nat) : (s.setEnt i k v).job l = s.job l := rfl
@[simp] theorem State.aud_setEnt (s : State) (i k : Nat) (v : Bytes) (l : Nat) : (s.setEnt i k v).aud l = s.aud l := rfl
@[simp] theorem State.core_setEnt (s : State) (i k : Nat) (v : Bytes) (l : Nat) : (s.setEnt i k v).core l = s.core l := rfl
@[simp] theorem State.src_setEnt (s : State) (i k : Nat) (v : Bytes) (l : Nat) : (s.setEnt i k v).src l = s.src l := rfl
@[simp] theorem State.hq_setEnt (s : State) (i k : Nat) (v : Bytes) (l : Nat) : (s.setEnt i k v).hq l = s.hq l := rfl
@[simp] theorem State.actTab_setEnt (s : State) (i k : Nat) (v : Bytes) (l : Nat) : (s.setEnt i k v).actTab l = s.actTab l := rfl
@[simp] theorem State.eng_setEnt (s : State) (i k : Nat) (v : Bytes) (l : Nat) : (s.setEnt i k v).eng l = s.eng l := rfl
@[simp] theorem State.bg_setEnt (s : State) (i k : Nat) (v : Bytes) (l : Nat) : (s.setEnt i k v).bg l = s.bg l := rfl
@[simp] theorem State.node_setEnt (s : State) (i k : Nat) (v : Bytes) (l : Nat) : (s.setEnt i k v).node l = s.node l := rfl
@[simp] theorem State.run_setEnt (s : State) (i k : Nat) (v : Bytes) (l : Nat) : (s.setEnt i k v).run l = s.run l := rfl
@[simp] theorem State.repl_setEnt (s : State) (i k : Nat) (v : Bytes) (l : Nat) : (s.setEnt i k v).repl l = s.repl l := rfl
@[simp] theorem State.cond_setEnt (s : State) (i k : Nat) (v : Bytes) (l : Nat) : (s.setEnt i k v).cond l = s.cond l := rfl
@[simp] theorem State.card_setEnt (s : State) (i k : Nat) (v : Bytes) (l : Nat) : (s.setEnt i k v).card l = s.card l := rfl
@[simp] theorem State.mlink_setEnt (s : State) (i k : Nat) (v : Bytes) (l : Nat) : (s.setEnt i k v).mlink l = s.mlink l := rfl
@[simp] theorem State.slot_setEnt (s : State) (i k : Nat) (v : Bytes) (l : Nat) : (s.setEnt i k v).slot l = s.slot l := rfl
@[simp] theorem State.setForce_pending (s : State) (i k : Nat) (v : Bytes) : (s.setForce i k v).pending = s.pending := rfl
@[simp] theorem State.setForce_dt (s : State) (i k : Nat) (v : Bytes) : (s.setForce i k v).dt = s.dt := rfl
@[simp] theorem State.setForce_draws (s : State) (i k : Nat) (v : Bytes) : (s.setForce i k v).draws = s.draws := rfl
@[simp] theorem State.setForce_out (s : State) (i k : Nat) (v : Bytes) : (s.setForce i k v).out = s.out := rfl
@[simp] theorem State.setForce_regs (s : State) (i k : Nat) (v : Bytes) : (s.setForce i k v).regs = s.regs := rfl
@[simp] theorem State.setForce_power (s : State) (i k : Nat) (v : Bytes) : (s.setForce i k v).power = s.power := rfl
@[simp] theorem State.setForce_rst (s : State) (i k : Nat) (v : Bytes) : (s.setForce i k v).rst = s.rst := rfl
@[simp] theorem State.setForce_tap (s : State) (i k : Nat) (v : Bytes) : (s.setForce i k v).tap = s.tap := rfl
@[simp] theorem State.setForce_pins (s : State) (i k : Nat) (v : Bytes) : (s.setForce i k v).pins = s.pins := rfl
@[simp] theorem State.setForce_nvm (s : State) (i k : Nat) (v : Bytes) : (s.setForce i k v).nvm = s.nvm := rfl
@[simp] theorem State.setForce_tamper (s : State) (i k : Nat) (v : Bytes) : (s.setForce i k v).tamper = s.tamper := rfl
@[simp] theorem State.setForce_log (s : State) (i k : Nat) (v : Bytes) : (s.setForce i k v).log = s.log := rfl
@[simp] theorem State.setForce_act (s : State) (i k : Nat) (v : Bytes) : (s.setForce i k v).act = s.act := rfl
@[simp] theorem State.setForce_port (s : State) (i k : Nat) (v : Bytes) : (s.setForce i k v).port = s.port := rfl
@[simp] theorem State.setForce_unit (s : State) (i k : Nat) (v : Bytes) : (s.setForce i k v).unit = s.unit := rfl
@[simp] theorem State.setForce_key (s : State) (i k : Nat) (v : Bytes) : (s.setForce i k v).key = s.key := rfl
@[simp] theorem State.setForce_pk (s : State) (i k : Nat) (v : Bytes) : (s.setForce i k v).pk = s.pk := rfl
@[simp] theorem State.setForce_mr (s : State) (i k : Nat) (v : Bytes) : (s.setForce i k v).mr = s.mr := rfl
@[simp] theorem State.setForce_dig (s : State) (i k : Nat) (v : Bytes) : (s.setForce i k v).dig = s.dig := rfl
@[simp] theorem State.setForce_img (s : State) (i k : Nat) (v : Bytes) : (s.setForce i k v).img = s.img := rfl
@[simp] theorem State.setForce_grp (s : State) (i k : Nat) (v : Bytes) : (s.setForce i k v).grp = s.grp := rfl
@[simp] theorem State.dom_setForce (s : State) (i k : Nat) (v : Bytes) (d : Nat) : (s.setForce i k v).dom d = s.dom d := rfl
@[simp] theorem State.lane_setForce (s : State) (i k : Nat) (v : Bytes) (l : Nat) : (s.setForce i k v).lane l = s.lane l := rfl
@[simp] theorem State.spare_setForce (s : State) (i k : Nat) (v : Bytes) (l : Nat) : (s.setForce i k v).spare l = s.spare l := rfl
@[simp] theorem State.quad_setForce (s : State) (i k : Nat) (v : Bytes) (l : Nat) : (s.setForce i k v).quad l = s.quad l := rfl
@[simp] theorem State.disp_setForce (s : State) (i k : Nat) (v : Bytes) (l : Nat) : (s.setForce i k v).disp l = s.disp l := rfl
@[simp] theorem State.job_setForce (s : State) (i k : Nat) (v : Bytes) (l : Nat) : (s.setForce i k v).job l = s.job l := rfl
@[simp] theorem State.aud_setForce (s : State) (i k : Nat) (v : Bytes) (l : Nat) : (s.setForce i k v).aud l = s.aud l := rfl
@[simp] theorem State.core_setForce (s : State) (i k : Nat) (v : Bytes) (l : Nat) : (s.setForce i k v).core l = s.core l := rfl
@[simp] theorem State.src_setForce (s : State) (i k : Nat) (v : Bytes) (l : Nat) : (s.setForce i k v).src l = s.src l := rfl
@[simp] theorem State.hq_setForce (s : State) (i k : Nat) (v : Bytes) (l : Nat) : (s.setForce i k v).hq l = s.hq l := rfl
@[simp] theorem State.actTab_setForce (s : State) (i k : Nat) (v : Bytes) (l : Nat) : (s.setForce i k v).actTab l = s.actTab l := rfl
@[simp] theorem State.eng_setForce (s : State) (i k : Nat) (v : Bytes) (l : Nat) : (s.setForce i k v).eng l = s.eng l := rfl
@[simp] theorem State.bg_setForce (s : State) (i k : Nat) (v : Bytes) (l : Nat) : (s.setForce i k v).bg l = s.bg l := rfl
@[simp] theorem State.node_setForce (s : State) (i k : Nat) (v : Bytes) (l : Nat) : (s.setForce i k v).node l = s.node l := rfl
@[simp] theorem State.run_setForce (s : State) (i k : Nat) (v : Bytes) (l : Nat) : (s.setForce i k v).run l = s.run l := rfl
@[simp] theorem State.repl_setForce (s : State) (i k : Nat) (v : Bytes) (l : Nat) : (s.setForce i k v).repl l = s.repl l := rfl
@[simp] theorem State.cond_setForce (s : State) (i k : Nat) (v : Bytes) (l : Nat) : (s.setForce i k v).cond l = s.cond l := rfl
@[simp] theorem State.card_setForce (s : State) (i k : Nat) (v : Bytes) (l : Nat) : (s.setForce i k v).card l = s.card l := rfl
@[simp] theorem State.mlink_setForce (s : State) (i k : Nat) (v : Bytes) (l : Nat) : (s.setForce i k v).mlink l = s.mlink l := rfl
@[simp] theorem State.slot_setForce (s : State) (i k : Nat) (v : Bytes) (l : Nat) : (s.setForce i k v).slot l = s.slot l := rfl
@[simp] theorem State.setNum_pending (s : State) (i k n : Nat) : (s.setNum i k n).pending = s.pending := rfl
@[simp] theorem State.setNum_dt (s : State) (i k n : Nat) : (s.setNum i k n).dt = s.dt := rfl
@[simp] theorem State.setNum_draws (s : State) (i k n : Nat) : (s.setNum i k n).draws = s.draws := rfl
@[simp] theorem State.setNum_out (s : State) (i k n : Nat) : (s.setNum i k n).out = s.out := rfl
@[simp] theorem State.setNum_regs (s : State) (i k n : Nat) : (s.setNum i k n).regs = s.regs := rfl
@[simp] theorem State.setNum_power (s : State) (i k n : Nat) : (s.setNum i k n).power = s.power := rfl
@[simp] theorem State.setNum_rst (s : State) (i k n : Nat) : (s.setNum i k n).rst = s.rst := rfl
@[simp] theorem State.setNum_tap (s : State) (i k n : Nat) : (s.setNum i k n).tap = s.tap := rfl
@[simp] theorem State.setNum_pins (s : State) (i k n : Nat) : (s.setNum i k n).pins = s.pins := rfl
@[simp] theorem State.setNum_nvm (s : State) (i k n : Nat) : (s.setNum i k n).nvm = s.nvm := rfl
@[simp] theorem State.setNum_tamper (s : State) (i k n : Nat) : (s.setNum i k n).tamper = s.tamper := rfl
@[simp] theorem State.setNum_log (s : State) (i k n : Nat) : (s.setNum i k n).log = s.log := rfl
@[simp] theorem State.setNum_act (s : State) (i k n : Nat) : (s.setNum i k n).act = s.act := rfl
@[simp] theorem State.setNum_port (s : State) (i k n : Nat) : (s.setNum i k n).port = s.port := rfl
@[simp] theorem State.setNum_unit (s : State) (i k n : Nat) : (s.setNum i k n).unit = s.unit := rfl
@[simp] theorem State.setNum_key (s : State) (i k n : Nat) : (s.setNum i k n).key = s.key := rfl
@[simp] theorem State.setNum_pk (s : State) (i k n : Nat) : (s.setNum i k n).pk = s.pk := rfl
@[simp] theorem State.setNum_mr (s : State) (i k n : Nat) : (s.setNum i k n).mr = s.mr := rfl
@[simp] theorem State.setNum_dig (s : State) (i k n : Nat) : (s.setNum i k n).dig = s.dig := rfl
@[simp] theorem State.setNum_img (s : State) (i k n : Nat) : (s.setNum i k n).img = s.img := rfl
@[simp] theorem State.setNum_grp (s : State) (i k n : Nat) : (s.setNum i k n).grp = s.grp := rfl
@[simp] theorem State.dom_setNum (s : State) (i k n : Nat) (d : Nat) : (s.setNum i k n).dom d = s.dom d := rfl
@[simp] theorem State.lane_setNum (s : State) (i k n : Nat) (l : Nat) : (s.setNum i k n).lane l = s.lane l := rfl
@[simp] theorem State.spare_setNum (s : State) (i k n : Nat) (l : Nat) : (s.setNum i k n).spare l = s.spare l := rfl
@[simp] theorem State.quad_setNum (s : State) (i k n : Nat) (l : Nat) : (s.setNum i k n).quad l = s.quad l := rfl
@[simp] theorem State.disp_setNum (s : State) (i k n : Nat) (l : Nat) : (s.setNum i k n).disp l = s.disp l := rfl
@[simp] theorem State.job_setNum (s : State) (i k n : Nat) (l : Nat) : (s.setNum i k n).job l = s.job l := rfl
@[simp] theorem State.aud_setNum (s : State) (i k n : Nat) (l : Nat) : (s.setNum i k n).aud l = s.aud l := rfl
@[simp] theorem State.core_setNum (s : State) (i k n : Nat) (l : Nat) : (s.setNum i k n).core l = s.core l := rfl
@[simp] theorem State.src_setNum (s : State) (i k n : Nat) (l : Nat) : (s.setNum i k n).src l = s.src l := rfl
@[simp] theorem State.hq_setNum (s : State) (i k n : Nat) (l : Nat) : (s.setNum i k n).hq l = s.hq l := rfl
@[simp] theorem State.actTab_setNum (s : State) (i k n : Nat) (l : Nat) : (s.setNum i k n).actTab l = s.actTab l := rfl
@[simp] theorem State.eng_setNum (s : State) (i k n : Nat) (l : Nat) : (s.setNum i k n).eng l = s.eng l := rfl
@[simp] theorem State.bg_setNum (s : State) (i k n : Nat) (l : Nat) : (s.setNum i k n).bg l = s.bg l := rfl
@[simp] theorem State.node_setNum (s : State) (i k n : Nat) (l : Nat) : (s.setNum i k n).node l = s.node l := rfl
@[simp] theorem State.run_setNum (s : State) (i k n : Nat) (l : Nat) : (s.setNum i k n).run l = s.run l := rfl
@[simp] theorem State.repl_setNum (s : State) (i k n : Nat) (l : Nat) : (s.setNum i k n).repl l = s.repl l := rfl
@[simp] theorem State.cond_setNum (s : State) (i k n : Nat) (l : Nat) : (s.setNum i k n).cond l = s.cond l := rfl
@[simp] theorem State.card_setNum (s : State) (i k n : Nat) (l : Nat) : (s.setNum i k n).card l = s.card l := rfl
@[simp] theorem State.mlink_setNum (s : State) (i k n : Nat) (l : Nat) : (s.setNum i k n).mlink l = s.mlink l := rfl
@[simp] theorem State.slot_setNum (s : State) (i k n : Nat) (l : Nat) : (s.setNum i k n).slot l = s.slot l := rfl
@[simp] theorem State.bump_pending (s : State) (i k : Nat) : (s.bump i k).pending = s.pending := rfl
@[simp] theorem State.bump_dt (s : State) (i k : Nat) : (s.bump i k).dt = s.dt := rfl
@[simp] theorem State.bump_draws (s : State) (i k : Nat) : (s.bump i k).draws = s.draws := rfl
@[simp] theorem State.bump_out (s : State) (i k : Nat) : (s.bump i k).out = s.out := rfl
@[simp] theorem State.bump_regs (s : State) (i k : Nat) : (s.bump i k).regs = s.regs := rfl
@[simp] theorem State.bump_power (s : State) (i k : Nat) : (s.bump i k).power = s.power := rfl
@[simp] theorem State.bump_rst (s : State) (i k : Nat) : (s.bump i k).rst = s.rst := rfl
@[simp] theorem State.bump_tap (s : State) (i k : Nat) : (s.bump i k).tap = s.tap := rfl
@[simp] theorem State.bump_pins (s : State) (i k : Nat) : (s.bump i k).pins = s.pins := rfl
@[simp] theorem State.bump_nvm (s : State) (i k : Nat) : (s.bump i k).nvm = s.nvm := rfl
@[simp] theorem State.bump_tamper (s : State) (i k : Nat) : (s.bump i k).tamper = s.tamper := rfl
@[simp] theorem State.bump_log (s : State) (i k : Nat) : (s.bump i k).log = s.log := rfl
@[simp] theorem State.bump_act (s : State) (i k : Nat) : (s.bump i k).act = s.act := rfl
@[simp] theorem State.bump_port (s : State) (i k : Nat) : (s.bump i k).port = s.port := rfl
@[simp] theorem State.bump_unit (s : State) (i k : Nat) : (s.bump i k).unit = s.unit := rfl
@[simp] theorem State.bump_key (s : State) (i k : Nat) : (s.bump i k).key = s.key := rfl
@[simp] theorem State.bump_pk (s : State) (i k : Nat) : (s.bump i k).pk = s.pk := rfl
@[simp] theorem State.bump_mr (s : State) (i k : Nat) : (s.bump i k).mr = s.mr := rfl
@[simp] theorem State.bump_dig (s : State) (i k : Nat) : (s.bump i k).dig = s.dig := rfl
@[simp] theorem State.bump_img (s : State) (i k : Nat) : (s.bump i k).img = s.img := rfl
@[simp] theorem State.bump_grp (s : State) (i k : Nat) : (s.bump i k).grp = s.grp := rfl
@[simp] theorem State.dom_bump (s : State) (i k : Nat) (d : Nat) : (s.bump i k).dom d = s.dom d := rfl
@[simp] theorem State.lane_bump (s : State) (i k : Nat) (l : Nat) : (s.bump i k).lane l = s.lane l := rfl
@[simp] theorem State.spare_bump (s : State) (i k : Nat) (l : Nat) : (s.bump i k).spare l = s.spare l := rfl
@[simp] theorem State.quad_bump (s : State) (i k : Nat) (l : Nat) : (s.bump i k).quad l = s.quad l := rfl
@[simp] theorem State.disp_bump (s : State) (i k : Nat) (l : Nat) : (s.bump i k).disp l = s.disp l := rfl
@[simp] theorem State.job_bump (s : State) (i k : Nat) (l : Nat) : (s.bump i k).job l = s.job l := rfl
@[simp] theorem State.aud_bump (s : State) (i k : Nat) (l : Nat) : (s.bump i k).aud l = s.aud l := rfl
@[simp] theorem State.core_bump (s : State) (i k : Nat) (l : Nat) : (s.bump i k).core l = s.core l := rfl
@[simp] theorem State.src_bump (s : State) (i k : Nat) (l : Nat) : (s.bump i k).src l = s.src l := rfl
@[simp] theorem State.hq_bump (s : State) (i k : Nat) (l : Nat) : (s.bump i k).hq l = s.hq l := rfl
@[simp] theorem State.actTab_bump (s : State) (i k : Nat) (l : Nat) : (s.bump i k).actTab l = s.actTab l := rfl
@[simp] theorem State.eng_bump (s : State) (i k : Nat) (l : Nat) : (s.bump i k).eng l = s.eng l := rfl
@[simp] theorem State.bg_bump (s : State) (i k : Nat) (l : Nat) : (s.bump i k).bg l = s.bg l := rfl
@[simp] theorem State.node_bump (s : State) (i k : Nat) (l : Nat) : (s.bump i k).node l = s.node l := rfl
@[simp] theorem State.run_bump (s : State) (i k : Nat) (l : Nat) : (s.bump i k).run l = s.run l := rfl
@[simp] theorem State.repl_bump (s : State) (i k : Nat) (l : Nat) : (s.bump i k).repl l = s.repl l := rfl
@[simp] theorem State.cond_bump (s : State) (i k : Nat) (l : Nat) : (s.bump i k).cond l = s.cond l := rfl
@[simp] theorem State.card_bump (s : State) (i k : Nat) (l : Nat) : (s.bump i k).card l = s.card l := rfl
@[simp] theorem State.mlink_bump (s : State) (i k : Nat) (l : Nat) : (s.bump i k).mlink l = s.mlink l := rfl
@[simp] theorem State.slot_bump (s : State) (i k : Nat) (l : Nat) : (s.bump i k).slot l = s.slot l := rfl
@[simp] theorem State.bumpBy_pending (s : State) (i k n : Nat) : (s.bumpBy i k n).pending = s.pending := rfl
@[simp] theorem State.bumpBy_dt (s : State) (i k n : Nat) : (s.bumpBy i k n).dt = s.dt := rfl
@[simp] theorem State.bumpBy_draws (s : State) (i k n : Nat) : (s.bumpBy i k n).draws = s.draws := rfl
@[simp] theorem State.bumpBy_out (s : State) (i k n : Nat) : (s.bumpBy i k n).out = s.out := rfl
@[simp] theorem State.bumpBy_regs (s : State) (i k n : Nat) : (s.bumpBy i k n).regs = s.regs := rfl
@[simp] theorem State.bumpBy_power (s : State) (i k n : Nat) : (s.bumpBy i k n).power = s.power := rfl
@[simp] theorem State.bumpBy_rst (s : State) (i k n : Nat) : (s.bumpBy i k n).rst = s.rst := rfl
@[simp] theorem State.bumpBy_tap (s : State) (i k n : Nat) : (s.bumpBy i k n).tap = s.tap := rfl
@[simp] theorem State.bumpBy_pins (s : State) (i k n : Nat) : (s.bumpBy i k n).pins = s.pins := rfl
@[simp] theorem State.bumpBy_nvm (s : State) (i k n : Nat) : (s.bumpBy i k n).nvm = s.nvm := rfl
@[simp] theorem State.bumpBy_tamper (s : State) (i k n : Nat) : (s.bumpBy i k n).tamper = s.tamper := rfl
@[simp] theorem State.bumpBy_log (s : State) (i k n : Nat) : (s.bumpBy i k n).log = s.log := rfl
@[simp] theorem State.bumpBy_act (s : State) (i k n : Nat) : (s.bumpBy i k n).act = s.act := rfl
@[simp] theorem State.bumpBy_port (s : State) (i k n : Nat) : (s.bumpBy i k n).port = s.port := rfl
@[simp] theorem State.bumpBy_unit (s : State) (i k n : Nat) : (s.bumpBy i k n).unit = s.unit := rfl
@[simp] theorem State.bumpBy_key (s : State) (i k n : Nat) : (s.bumpBy i k n).key = s.key := rfl
@[simp] theorem State.bumpBy_pk (s : State) (i k n : Nat) : (s.bumpBy i k n).pk = s.pk := rfl
@[simp] theorem State.bumpBy_mr (s : State) (i k n : Nat) : (s.bumpBy i k n).mr = s.mr := rfl
@[simp] theorem State.bumpBy_dig (s : State) (i k n : Nat) : (s.bumpBy i k n).dig = s.dig := rfl
@[simp] theorem State.bumpBy_img (s : State) (i k n : Nat) : (s.bumpBy i k n).img = s.img := rfl
@[simp] theorem State.bumpBy_grp (s : State) (i k n : Nat) : (s.bumpBy i k n).grp = s.grp := rfl
@[simp] theorem State.dom_bumpBy (s : State) (i k n : Nat) (d : Nat) : (s.bumpBy i k n).dom d = s.dom d := rfl
@[simp] theorem State.lane_bumpBy (s : State) (i k n : Nat) (l : Nat) : (s.bumpBy i k n).lane l = s.lane l := rfl
@[simp] theorem State.spare_bumpBy (s : State) (i k n : Nat) (l : Nat) : (s.bumpBy i k n).spare l = s.spare l := rfl
@[simp] theorem State.quad_bumpBy (s : State) (i k n : Nat) (l : Nat) : (s.bumpBy i k n).quad l = s.quad l := rfl
@[simp] theorem State.disp_bumpBy (s : State) (i k n : Nat) (l : Nat) : (s.bumpBy i k n).disp l = s.disp l := rfl
@[simp] theorem State.job_bumpBy (s : State) (i k n : Nat) (l : Nat) : (s.bumpBy i k n).job l = s.job l := rfl
@[simp] theorem State.aud_bumpBy (s : State) (i k n : Nat) (l : Nat) : (s.bumpBy i k n).aud l = s.aud l := rfl
@[simp] theorem State.core_bumpBy (s : State) (i k n : Nat) (l : Nat) : (s.bumpBy i k n).core l = s.core l := rfl
@[simp] theorem State.src_bumpBy (s : State) (i k n : Nat) (l : Nat) : (s.bumpBy i k n).src l = s.src l := rfl
@[simp] theorem State.hq_bumpBy (s : State) (i k n : Nat) (l : Nat) : (s.bumpBy i k n).hq l = s.hq l := rfl
@[simp] theorem State.actTab_bumpBy (s : State) (i k n : Nat) (l : Nat) : (s.bumpBy i k n).actTab l = s.actTab l := rfl
@[simp] theorem State.eng_bumpBy (s : State) (i k n : Nat) (l : Nat) : (s.bumpBy i k n).eng l = s.eng l := rfl
@[simp] theorem State.bg_bumpBy (s : State) (i k n : Nat) (l : Nat) : (s.bumpBy i k n).bg l = s.bg l := rfl
@[simp] theorem State.node_bumpBy (s : State) (i k n : Nat) (l : Nat) : (s.bumpBy i k n).node l = s.node l := rfl
@[simp] theorem State.run_bumpBy (s : State) (i k n : Nat) (l : Nat) : (s.bumpBy i k n).run l = s.run l := rfl
@[simp] theorem State.repl_bumpBy (s : State) (i k n : Nat) (l : Nat) : (s.bumpBy i k n).repl l = s.repl l := rfl
@[simp] theorem State.cond_bumpBy (s : State) (i k n : Nat) (l : Nat) : (s.bumpBy i k n).cond l = s.cond l := rfl
@[simp] theorem State.card_bumpBy (s : State) (i k n : Nat) (l : Nat) : (s.bumpBy i k n).card l = s.card l := rfl
@[simp] theorem State.mlink_bumpBy (s : State) (i k n : Nat) (l : Nat) : (s.bumpBy i k n).mlink l = s.mlink l := rfl
@[simp] theorem State.slot_bumpBy (s : State) (i k n : Nat) (l : Nat) : (s.bumpBy i k n).slot l = s.slot l := rfl
@[simp] theorem State.setReg_pending (s : State) (d o v u : Nat) : (s.setReg d o v u).pending = s.pending := rfl
@[simp] theorem State.setReg_dt (s : State) (d o v u : Nat) : (s.setReg d o v u).dt = s.dt := rfl
@[simp] theorem State.setReg_draws (s : State) (d o v u : Nat) : (s.setReg d o v u).draws = s.draws := rfl
@[simp] theorem State.setReg_out (s : State) (d o v u : Nat) : (s.setReg d o v u).out = s.out := rfl
@[simp] theorem State.setReg_dict (s : State) (d o v u : Nat) : (s.setReg d o v u).dict = s.dict := rfl
@[simp] theorem State.setReg_power (s : State) (d o v u : Nat) : (s.setReg d o v u).power = s.power := rfl
@[simp] theorem State.setReg_rst (s : State) (d o v u : Nat) : (s.setReg d o v u).rst = s.rst := rfl
@[simp] theorem State.setReg_tap (s : State) (d o v u : Nat) : (s.setReg d o v u).tap = s.tap := rfl
@[simp] theorem State.setReg_pins (s : State) (d o v u : Nat) : (s.setReg d o v u).pins = s.pins := rfl
@[simp] theorem State.setReg_nvm (s : State) (d o v u : Nat) : (s.setReg d o v u).nvm = s.nvm := rfl
@[simp] theorem State.setReg_tamper (s : State) (d o v u : Nat) : (s.setReg d o v u).tamper = s.tamper := rfl
@[simp] theorem State.setReg_log (s : State) (d o v u : Nat) : (s.setReg d o v u).log = s.log := rfl
@[simp] theorem State.setReg_act (s : State) (d o v u : Nat) : (s.setReg d o v u).act = s.act := rfl
@[simp] theorem State.setReg_port (s : State) (d o v u : Nat) : (s.setReg d o v u).port = s.port := rfl
@[simp] theorem State.setReg_unit (s : State) (d o v u : Nat) : (s.setReg d o v u).unit = s.unit := rfl
@[simp] theorem State.setReg_key (s : State) (d o v u : Nat) : (s.setReg d o v u).key = s.key := rfl
@[simp] theorem State.setReg_pk (s : State) (d o v u : Nat) : (s.setReg d o v u).pk = s.pk := rfl
@[simp] theorem State.setReg_mr (s : State) (d o v u : Nat) : (s.setReg d o v u).mr = s.mr := rfl
@[simp] theorem State.setReg_dig (s : State) (d o v u : Nat) : (s.setReg d o v u).dig = s.dig := rfl
@[simp] theorem State.setReg_img (s : State) (d o v u : Nat) : (s.setReg d o v u).img = s.img := rfl
@[simp] theorem State.setReg_grp (s : State) (d o v u : Nat) : (s.setReg d o v u).grp = s.grp := rfl
@[simp] theorem State.dom_setReg (s : State) (d o v u : Nat) (d : Nat) : (s.setReg d o v u).dom d = s.dom d := rfl
@[simp] theorem State.lane_setReg (s : State) (d o v u : Nat) (l : Nat) : (s.setReg d o v u).lane l = s.lane l := rfl
@[simp] theorem State.spare_setReg (s : State) (d o v u : Nat) (l : Nat) : (s.setReg d o v u).spare l = s.spare l := rfl
@[simp] theorem State.quad_setReg (s : State) (d o v u : Nat) (l : Nat) : (s.setReg d o v u).quad l = s.quad l := rfl
@[simp] theorem State.disp_setReg (s : State) (d o v u : Nat) (l : Nat) : (s.setReg d o v u).disp l = s.disp l := rfl
@[simp] theorem State.job_setReg (s : State) (d o v u : Nat) (l : Nat) : (s.setReg d o v u).job l = s.job l := rfl
@[simp] theorem State.aud_setReg (s : State) (d o v u : Nat) (l : Nat) : (s.setReg d o v u).aud l = s.aud l := rfl
@[simp] theorem State.core_setReg (s : State) (d o v u : Nat) (l : Nat) : (s.setReg d o v u).core l = s.core l := rfl
@[simp] theorem State.src_setReg (s : State) (d o v u : Nat) (l : Nat) : (s.setReg d o v u).src l = s.src l := rfl
@[simp] theorem State.hq_setReg (s : State) (d o v u : Nat) (l : Nat) : (s.setReg d o v u).hq l = s.hq l := rfl
@[simp] theorem State.actTab_setReg (s : State) (d o v u : Nat) (l : Nat) : (s.setReg d o v u).actTab l = s.actTab l := rfl
@[simp] theorem State.eng_setReg (s : State) (d o v u : Nat) (l : Nat) : (s.setReg d o v u).eng l = s.eng l := rfl
@[simp] theorem State.bg_setReg (s : State) (d o v u : Nat) (l : Nat) : (s.setReg d o v u).bg l = s.bg l := rfl
@[simp] theorem State.node_setReg (s : State) (d o v u : Nat) (l : Nat) : (s.setReg d o v u).node l = s.node l := rfl
@[simp] theorem State.run_setReg (s : State) (d o v u : Nat) (l : Nat) : (s.setReg d o v u).run l = s.run l := rfl
@[simp] theorem State.repl_setReg (s : State) (d o v u : Nat) (l : Nat) : (s.setReg d o v u).repl l = s.repl l := rfl
@[simp] theorem State.cond_setReg (s : State) (d o v u : Nat) (l : Nat) : (s.setReg d o v u).cond l = s.cond l := rfl
@[simp] theorem State.card_setReg (s : State) (d o v u : Nat) (l : Nat) : (s.setReg d o v u).card l = s.card l := rfl
@[simp] theorem State.mlink_setReg (s : State) (d o v u : Nat) (l : Nat) : (s.setReg d o v u).mlink l = s.mlink l := rfl
@[simp] theorem State.slot_setReg (s : State) (d o v u : Nat) (l : Nat) : (s.setReg d o v u).slot l = s.slot l := rfl
@[simp] theorem State.entW_setReg (s : State) (d o v u : Nat) (x y : Nat) : (s.setReg d o v u).entW x y = s.entW x y := rfl
@[simp] theorem State.num_setReg (s : State) (d o v u : Nat) (x y : Nat) : (s.setReg d o v u).num x y = s.num x y := rfl
@[simp] theorem State.setDom_pending (s : State) (d : Nat) (v : Dom) : (s.setDom d v).pending = s.pending := rfl
@[simp] theorem State.setDom_dt (s : State) (d : Nat) (v : Dom) : (s.setDom d v).dt = s.dt := rfl
@[simp] theorem State.setDom_draws (s : State) (d : Nat) (v : Dom) : (s.setDom d v).draws = s.draws := rfl
@[simp] theorem State.setDom_out (s : State) (d : Nat) (v : Dom) : (s.setDom d v).out = s.out := rfl
@[simp] theorem State.setDom_regs (s : State) (d : Nat) (v : Dom) : (s.setDom d v).regs = s.regs := rfl
@[simp] theorem State.setDom_dict (s : State) (d : Nat) (v : Dom) : (s.setDom d v).dict = s.dict := rfl
@[simp] theorem State.setDom_rst (s : State) (d : Nat) (v : Dom) : (s.setDom d v).rst = s.rst := rfl
@[simp] theorem State.setDom_tap (s : State) (d : Nat) (v : Dom) : (s.setDom d v).tap = s.tap := rfl
@[simp] theorem State.setDom_pins (s : State) (d : Nat) (v : Dom) : (s.setDom d v).pins = s.pins := rfl
@[simp] theorem State.setDom_nvm (s : State) (d : Nat) (v : Dom) : (s.setDom d v).nvm = s.nvm := rfl
@[simp] theorem State.setDom_tamper (s : State) (d : Nat) (v : Dom) : (s.setDom d v).tamper = s.tamper := rfl
@[simp] theorem State.setDom_log (s : State) (d : Nat) (v : Dom) : (s.setDom d v).log = s.log := rfl
@[simp] theorem State.setDom_act (s : State) (d : Nat) (v : Dom) : (s.setDom d v).act = s.act := rfl
@[simp] theorem State.setDom_port (s : State) (d : Nat) (v : Dom) : (s.setDom d v).port = s.port := rfl
@[simp] theorem State.setDom_unit (s : State) (d : Nat) (v : Dom) : (s.setDom d v).unit = s.unit := rfl
@[simp] theorem State.setDom_key (s : State) (d : Nat) (v : Dom) : (s.setDom d v).key = s.key := rfl
@[simp] theorem State.setDom_pk (s : State) (d : Nat) (v : Dom) : (s.setDom d v).pk = s.pk := rfl
@[simp] theorem State.setDom_mr (s : State) (d : Nat) (v : Dom) : (s.setDom d v).mr = s.mr := rfl
@[simp] theorem State.setDom_dig (s : State) (d : Nat) (v : Dom) : (s.setDom d v).dig = s.dig := rfl
@[simp] theorem State.setDom_img (s : State) (d : Nat) (v : Dom) : (s.setDom d v).img = s.img := rfl
@[simp] theorem State.setDom_grp (s : State) (d : Nat) (v : Dom) : (s.setDom d v).grp = s.grp := rfl
@[simp] theorem State.dom_setDom (s : State) (d : Nat) (v : Dom) : (s.setDom d v).dom d = v := Tab.look_put_same _ _ _ _
theorem State.dom_setDom_other (s : State) (d : Nat) (v : Dom) {l : Nat} (h : l ≠ d) : (s.setDom d v).dom l = s.dom l := Tab.look_put_other _ _ _ h
@[simp] theorem State.lane_setDom (s : State) (d : Nat) (v : Dom) (l : Nat) : (s.setDom d v).lane l = s.lane l := rfl
@[simp] theorem State.spare_setDom (s : State) (d : Nat) (v : Dom) (l : Nat) : (s.setDom d v).spare l = s.spare l := rfl
@[simp] theorem State.quad_setDom (s : State) (d : Nat) (v : Dom) (l : Nat) : (s.setDom d v).quad l = s.quad l := rfl
@[simp] theorem State.disp_setDom (s : State) (d : Nat) (v : Dom) (l : Nat) : (s.setDom d v).disp l = s.disp l := rfl
@[simp] theorem State.job_setDom (s : State) (d : Nat) (v : Dom) (l : Nat) : (s.setDom d v).job l = s.job l := rfl
@[simp] theorem State.aud_setDom (s : State) (d : Nat) (v : Dom) (l : Nat) : (s.setDom d v).aud l = s.aud l := rfl
@[simp] theorem State.core_setDom (s : State) (d : Nat) (v : Dom) (l : Nat) : (s.setDom d v).core l = s.core l := rfl
@[simp] theorem State.src_setDom (s : State) (d : Nat) (v : Dom) (l : Nat) : (s.setDom d v).src l = s.src l := rfl
@[simp] theorem State.hq_setDom (s : State) (d : Nat) (v : Dom) (l : Nat) : (s.setDom d v).hq l = s.hq l := rfl
@[simp] theorem State.actTab_setDom (s : State) (d : Nat) (v : Dom) (l : Nat) : (s.setDom d v).actTab l = s.actTab l := rfl
@[simp] theorem State.eng_setDom (s : State) (d : Nat) (v : Dom) (l : Nat) : (s.setDom d v).eng l = s.eng l := rfl
@[simp] theorem State.bg_setDom (s : State) (d : Nat) (v : Dom) (l : Nat) : (s.setDom d v).bg l = s.bg l := rfl
@[simp] theorem State.node_setDom (s : State) (d : Nat) (v : Dom) (l : Nat) : (s.setDom d v).node l = s.node l := rfl
@[simp] theorem State.run_setDom (s : State) (d : Nat) (v : Dom) (l : Nat) : (s.setDom d v).run l = s.run l := rfl
@[simp] theorem State.repl_setDom (s : State) (d : Nat) (v : Dom) (l : Nat) : (s.setDom d v).repl l = s.repl l := rfl
@[simp] theorem State.cond_setDom (s : State) (d : Nat) (v : Dom) (l : Nat) : (s.setDom d v).cond l = s.cond l := rfl
@[simp] theorem State.card_setDom (s : State) (d : Nat) (v : Dom) (l : Nat) : (s.setDom d v).card l = s.card l := rfl
@[simp] theorem State.mlink_setDom (s : State) (d : Nat) (v : Dom) (l : Nat) : (s.setDom d v).mlink l = s.mlink l := rfl
@[simp] theorem State.slot_setDom (s : State) (d : Nat) (v : Dom) (l : Nat) : (s.setDom d v).slot l = s.slot l := rfl
@[simp] theorem State.entW_setDom (s : State) (d : Nat) (v : Dom) (x y : Nat) : (s.setDom d v).entW x y = s.entW x y := rfl
@[simp] theorem State.num_setDom (s : State) (d : Nat) (v : Dom) (x y : Nat) : (s.setDom d v).num x y = s.num x y := rfl
@[simp] theorem State.domTo_pending (s : State) (d : Nat) (v : DomState) : (s.domTo d v).pending = s.pending := rfl
@[simp] theorem State.domTo_dt (s : State) (d : Nat) (v : DomState) : (s.domTo d v).dt = s.dt := rfl
@[simp] theorem State.domTo_draws (s : State) (d : Nat) (v : DomState) : (s.domTo d v).draws = s.draws := rfl
@[simp] theorem State.domTo_out (s : State) (d : Nat) (v : DomState) : (s.domTo d v).out = s.out := rfl
@[simp] theorem State.domTo_regs (s : State) (d : Nat) (v : DomState) : (s.domTo d v).regs = s.regs := rfl
@[simp] theorem State.domTo_dict (s : State) (d : Nat) (v : DomState) : (s.domTo d v).dict = s.dict := rfl
@[simp] theorem State.domTo_rst (s : State) (d : Nat) (v : DomState) : (s.domTo d v).rst = s.rst := rfl
@[simp] theorem State.domTo_tap (s : State) (d : Nat) (v : DomState) : (s.domTo d v).tap = s.tap := rfl
@[simp] theorem State.domTo_pins (s : State) (d : Nat) (v : DomState) : (s.domTo d v).pins = s.pins := rfl
@[simp] theorem State.domTo_nvm (s : State) (d : Nat) (v : DomState) : (s.domTo d v).nvm = s.nvm := rfl
@[simp] theorem State.domTo_tamper (s : State) (d : Nat) (v : DomState) : (s.domTo d v).tamper = s.tamper := rfl
@[simp] theorem State.domTo_log (s : State) (d : Nat) (v : DomState) : (s.domTo d v).log = s.log := rfl
@[simp] theorem State.domTo_act (s : State) (d : Nat) (v : DomState) : (s.domTo d v).act = s.act := rfl
@[simp] theorem State.domTo_port (s : State) (d : Nat) (v : DomState) : (s.domTo d v).port = s.port := rfl
@[simp] theorem State.domTo_unit (s : State) (d : Nat) (v : DomState) : (s.domTo d v).unit = s.unit := rfl
@[simp] theorem State.domTo_key (s : State) (d : Nat) (v : DomState) : (s.domTo d v).key = s.key := rfl
@[simp] theorem State.domTo_pk (s : State) (d : Nat) (v : DomState) : (s.domTo d v).pk = s.pk := rfl
@[simp] theorem State.domTo_mr (s : State) (d : Nat) (v : DomState) : (s.domTo d v).mr = s.mr := rfl
@[simp] theorem State.domTo_dig (s : State) (d : Nat) (v : DomState) : (s.domTo d v).dig = s.dig := rfl
@[simp] theorem State.domTo_img (s : State) (d : Nat) (v : DomState) : (s.domTo d v).img = s.img := rfl
@[simp] theorem State.domTo_grp (s : State) (d : Nat) (v : DomState) : (s.domTo d v).grp = s.grp := rfl
@[simp] theorem State.lane_domTo (s : State) (d : Nat) (v : DomState) (l : Nat) : (s.domTo d v).lane l = s.lane l := rfl
@[simp] theorem State.spare_domTo (s : State) (d : Nat) (v : DomState) (l : Nat) : (s.domTo d v).spare l = s.spare l := rfl
@[simp] theorem State.quad_domTo (s : State) (d : Nat) (v : DomState) (l : Nat) : (s.domTo d v).quad l = s.quad l := rfl
@[simp] theorem State.disp_domTo (s : State) (d : Nat) (v : DomState) (l : Nat) : (s.domTo d v).disp l = s.disp l := rfl
@[simp] theorem State.job_domTo (s : State) (d : Nat) (v : DomState) (l : Nat) : (s.domTo d v).job l = s.job l := rfl
@[simp] theorem State.aud_domTo (s : State) (d : Nat) (v : DomState) (l : Nat) : (s.domTo d v).aud l = s.aud l := rfl
@[simp] theorem State.core_domTo (s : State) (d : Nat) (v : DomState) (l : Nat) : (s.domTo d v).core l = s.core l := rfl
@[simp] theorem State.src_domTo (s : State) (d : Nat) (v : DomState) (l : Nat) : (s.domTo d v).src l = s.src l := rfl
@[simp] theorem State.hq_domTo (s : State) (d : Nat) (v : DomState) (l : Nat) : (s.domTo d v).hq l = s.hq l := rfl
@[simp] theorem State.actTab_domTo (s : State) (d : Nat) (v : DomState) (l : Nat) : (s.domTo d v).actTab l = s.actTab l := rfl
@[simp] theorem State.eng_domTo (s : State) (d : Nat) (v : DomState) (l : Nat) : (s.domTo d v).eng l = s.eng l := rfl
@[simp] theorem State.bg_domTo (s : State) (d : Nat) (v : DomState) (l : Nat) : (s.domTo d v).bg l = s.bg l := rfl
@[simp] theorem State.node_domTo (s : State) (d : Nat) (v : DomState) (l : Nat) : (s.domTo d v).node l = s.node l := rfl
@[simp] theorem State.run_domTo (s : State) (d : Nat) (v : DomState) (l : Nat) : (s.domTo d v).run l = s.run l := rfl
@[simp] theorem State.repl_domTo (s : State) (d : Nat) (v : DomState) (l : Nat) : (s.domTo d v).repl l = s.repl l := rfl
@[simp] theorem State.cond_domTo (s : State) (d : Nat) (v : DomState) (l : Nat) : (s.domTo d v).cond l = s.cond l := rfl
@[simp] theorem State.card_domTo (s : State) (d : Nat) (v : DomState) (l : Nat) : (s.domTo d v).card l = s.card l := rfl
@[simp] theorem State.mlink_domTo (s : State) (d : Nat) (v : DomState) (l : Nat) : (s.domTo d v).mlink l = s.mlink l := rfl
@[simp] theorem State.slot_domTo (s : State) (d : Nat) (v : DomState) (l : Nat) : (s.domTo d v).slot l = s.slot l := rfl
@[simp] theorem State.entW_domTo (s : State) (d : Nat) (v : DomState) (x y : Nat) : (s.domTo d v).entW x y = s.entW x y := rfl
@[simp] theorem State.num_domTo (s : State) (d : Nat) (v : DomState) (x y : Nat) : (s.domTo d v).num x y = s.num x y := rfl
@[simp] theorem State.setMode_pending (s : State) (m : Mode) : (s.setMode m).pending = s.pending := rfl
@[simp] theorem State.setMode_dt (s : State) (m : Mode) : (s.setMode m).dt = s.dt := rfl
@[simp] theorem State.setMode_draws (s : State) (m : Mode) : (s.setMode m).draws = s.draws := rfl
@[simp] theorem State.setMode_out (s : State) (m : Mode) : (s.setMode m).out = s.out := rfl
@[simp] theorem State.setMode_regs (s : State) (m : Mode) : (s.setMode m).regs = s.regs := rfl
@[simp] theorem State.setMode_dict (s : State) (m : Mode) : (s.setMode m).dict = s.dict := rfl
@[simp] theorem State.setMode_rst (s : State) (m : Mode) : (s.setMode m).rst = s.rst := rfl
@[simp] theorem State.setMode_tap (s : State) (m : Mode) : (s.setMode m).tap = s.tap := rfl
@[simp] theorem State.setMode_pins (s : State) (m : Mode) : (s.setMode m).pins = s.pins := rfl
@[simp] theorem State.setMode_nvm (s : State) (m : Mode) : (s.setMode m).nvm = s.nvm := rfl
@[simp] theorem State.setMode_tamper (s : State) (m : Mode) : (s.setMode m).tamper = s.tamper := rfl
@[simp] theorem State.setMode_log (s : State) (m : Mode) : (s.setMode m).log = s.log := rfl
@[simp] theorem State.setMode_act (s : State) (m : Mode) : (s.setMode m).act = s.act := rfl
@[simp] theorem State.setMode_port (s : State) (m : Mode) : (s.setMode m).port = s.port := rfl
@[simp] theorem State.setMode_unit (s : State) (m : Mode) : (s.setMode m).unit = s.unit := rfl
@[simp] theorem State.setMode_key (s : State) (m : Mode) : (s.setMode m).key = s.key := rfl
@[simp] theorem State.setMode_pk (s : State) (m : Mode) : (s.setMode m).pk = s.pk := rfl
@[simp] theorem State.setMode_mr (s : State) (m : Mode) : (s.setMode m).mr = s.mr := rfl
@[simp] theorem State.setMode_dig (s : State) (m : Mode) : (s.setMode m).dig = s.dig := rfl
@[simp] theorem State.setMode_img (s : State) (m : Mode) : (s.setMode m).img = s.img := rfl
@[simp] theorem State.setMode_grp (s : State) (m : Mode) : (s.setMode m).grp = s.grp := rfl
@[simp] theorem State.dom_setMode (s : State) (m : Mode) (d : Nat) : (s.setMode m).dom d = s.dom d := rfl
@[simp] theorem State.lane_setMode (s : State) (m : Mode) (l : Nat) : (s.setMode m).lane l = s.lane l := rfl
@[simp] theorem State.spare_setMode (s : State) (m : Mode) (l : Nat) : (s.setMode m).spare l = s.spare l := rfl
@[simp] theorem State.quad_setMode (s : State) (m : Mode) (l : Nat) : (s.setMode m).quad l = s.quad l := rfl
@[simp] theorem State.disp_setMode (s : State) (m : Mode) (l : Nat) : (s.setMode m).disp l = s.disp l := rfl
@[simp] theorem State.job_setMode (s : State) (m : Mode) (l : Nat) : (s.setMode m).job l = s.job l := rfl
@[simp] theorem State.aud_setMode (s : State) (m : Mode) (l : Nat) : (s.setMode m).aud l = s.aud l := rfl
@[simp] theorem State.core_setMode (s : State) (m : Mode) (l : Nat) : (s.setMode m).core l = s.core l := rfl
@[simp] theorem State.src_setMode (s : State) (m : Mode) (l : Nat) : (s.setMode m).src l = s.src l := rfl
@[simp] theorem State.hq_setMode (s : State) (m : Mode) (l : Nat) : (s.setMode m).hq l = s.hq l := rfl
@[simp] theorem State.actTab_setMode (s : State) (m : Mode) (l : Nat) : (s.setMode m).actTab l = s.actTab l := rfl
@[simp] theorem State.eng_setMode (s : State) (m : Mode) (l : Nat) : (s.setMode m).eng l = s.eng l := rfl
@[simp] theorem State.bg_setMode (s : State) (m : Mode) (l : Nat) : (s.setMode m).bg l = s.bg l := rfl
@[simp] theorem State.node_setMode (s : State) (m : Mode) (l : Nat) : (s.setMode m).node l = s.node l := rfl
@[simp] theorem State.run_setMode (s : State) (m : Mode) (l : Nat) : (s.setMode m).run l = s.run l := rfl
@[simp] theorem State.repl_setMode (s : State) (m : Mode) (l : Nat) : (s.setMode m).repl l = s.repl l := rfl
@[simp] theorem State.cond_setMode (s : State) (m : Mode) (l : Nat) : (s.setMode m).cond l = s.cond l := rfl
@[simp] theorem State.card_setMode (s : State) (m : Mode) (l : Nat) : (s.setMode m).card l = s.card l := rfl
@[simp] theorem State.mlink_setMode (s : State) (m : Mode) (l : Nat) : (s.setMode m).mlink l = s.mlink l := rfl
@[simp] theorem State.slot_setMode (s : State) (m : Mode) (l : Nat) : (s.setMode m).slot l = s.slot l := rfl
@[simp] theorem State.entW_setMode (s : State) (m : Mode) (x y : Nat) : (s.setMode m).entW x y = s.entW x y := rfl
@[simp] theorem State.num_setMode (s : State) (m : Mode) (x y : Nat) : (s.setMode m).num x y = s.num x y := rfl
@[simp] theorem State.setLcs_pending (s : State) (c : Lcs) : (s.setLcs c).pending = s.pending := by unfold State.setLcs; split <;> rfl
@[simp] theorem State.setLcs_dt (s : State) (c : Lcs) : (s.setLcs c).dt = s.dt := by unfold State.setLcs; split <;> rfl
@[simp] theorem State.setLcs_draws (s : State) (c : Lcs) : (s.setLcs c).draws = s.draws := by unfold State.setLcs; split <;> rfl
@[simp] theorem State.setLcs_out (s : State) (c : Lcs) : (s.setLcs c).out = s.out := by unfold State.setLcs; split <;> rfl
@[simp] theorem State.setLcs_regs (s : State) (c : Lcs) : (s.setLcs c).regs = s.regs := by unfold State.setLcs; split <;> rfl
@[simp] theorem State.setLcs_dict (s : State) (c : Lcs) : (s.setLcs c).dict = s.dict := by unfold State.setLcs; split <;> rfl
@[simp] theorem State.setLcs_rst (s : State) (c : Lcs) : (s.setLcs c).rst = s.rst := by unfold State.setLcs; split <;> rfl
@[simp] theorem State.setLcs_tap (s : State) (c : Lcs) : (s.setLcs c).tap = s.tap := by unfold State.setLcs; split <;> rfl
@[simp] theorem State.setLcs_pins (s : State) (c : Lcs) : (s.setLcs c).pins = s.pins := by unfold State.setLcs; split <;> rfl
@[simp] theorem State.setLcs_nvm (s : State) (c : Lcs) : (s.setLcs c).nvm = s.nvm := by unfold State.setLcs; split <;> rfl
@[simp] theorem State.setLcs_tamper (s : State) (c : Lcs) : (s.setLcs c).tamper = s.tamper := by unfold State.setLcs; split <;> rfl
@[simp] theorem State.setLcs_log (s : State) (c : Lcs) : (s.setLcs c).log = s.log := by unfold State.setLcs; split <;> rfl
@[simp] theorem State.setLcs_act (s : State) (c : Lcs) : (s.setLcs c).act = s.act := by unfold State.setLcs; split <;> rfl
@[simp] theorem State.setLcs_port (s : State) (c : Lcs) : (s.setLcs c).port = s.port := by unfold State.setLcs; split <;> rfl
@[simp] theorem State.setLcs_unit (s : State) (c : Lcs) : (s.setLcs c).unit = s.unit := by unfold State.setLcs; split <;> rfl
@[simp] theorem State.setLcs_key (s : State) (c : Lcs) : (s.setLcs c).key = s.key := by unfold State.setLcs; split <;> rfl
@[simp] theorem State.setLcs_pk (s : State) (c : Lcs) : (s.setLcs c).pk = s.pk := by unfold State.setLcs; split <;> rfl
@[simp] theorem State.setLcs_mr (s : State) (c : Lcs) : (s.setLcs c).mr = s.mr := by unfold State.setLcs; split <;> rfl
@[simp] theorem State.setLcs_dig (s : State) (c : Lcs) : (s.setLcs c).dig = s.dig := by unfold State.setLcs; split <;> rfl
@[simp] theorem State.setLcs_img (s : State) (c : Lcs) : (s.setLcs c).img = s.img := by unfold State.setLcs; split <;> rfl
@[simp] theorem State.setLcs_grp (s : State) (c : Lcs) : (s.setLcs c).grp = s.grp := by unfold State.setLcs; split <;> rfl
@[simp] theorem State.dom_setLcs (s : State) (c : Lcs) (d : Nat) : (s.setLcs c).dom d = s.dom d := by unfold State.setLcs; split <;> rfl
@[simp] theorem State.lane_setLcs (s : State) (c : Lcs) (l : Nat) : (s.setLcs c).lane l = s.lane l := by unfold State.setLcs; split <;> rfl
@[simp] theorem State.spare_setLcs (s : State) (c : Lcs) (l : Nat) : (s.setLcs c).spare l = s.spare l := by unfold State.setLcs; split <;> rfl
@[simp] theorem State.quad_setLcs (s : State) (c : Lcs) (l : Nat) : (s.setLcs c).quad l = s.quad l := by unfold State.setLcs; split <;> rfl
@[simp] theorem State.disp_setLcs (s : State) (c : Lcs) (l : Nat) : (s.setLcs c).disp l = s.disp l := by unfold State.setLcs; split <;> rfl
@[simp] theorem State.job_setLcs (s : State) (c : Lcs) (l : Nat) : (s.setLcs c).job l = s.job l := by unfold State.setLcs; split <;> rfl
@[simp] theorem State.aud_setLcs (s : State) (c : Lcs) (l : Nat) : (s.setLcs c).aud l = s.aud l := by unfold State.setLcs; split <;> rfl
@[simp] theorem State.core_setLcs (s : State) (c : Lcs) (l : Nat) : (s.setLcs c).core l = s.core l := by unfold State.setLcs; split <;> rfl
@[simp] theorem State.src_setLcs (s : State) (c : Lcs) (l : Nat) : (s.setLcs c).src l = s.src l := by unfold State.setLcs; split <;> rfl
@[simp] theorem State.hq_setLcs (s : State) (c : Lcs) (l : Nat) : (s.setLcs c).hq l = s.hq l := by unfold State.setLcs; split <;> rfl
@[simp] theorem State.actTab_setLcs (s : State) (c : Lcs) (l : Nat) : (s.setLcs c).actTab l = s.actTab l := by unfold State.setLcs; split <;> rfl
@[simp] theorem State.eng_setLcs (s : State) (c : Lcs) (l : Nat) : (s.setLcs c).eng l = s.eng l := by unfold State.setLcs; split <;> rfl
@[simp] theorem State.bg_setLcs (s : State) (c : Lcs) (l : Nat) : (s.setLcs c).bg l = s.bg l := by unfold State.setLcs; split <;> rfl
@[simp] theorem State.node_setLcs (s : State) (c : Lcs) (l : Nat) : (s.setLcs c).node l = s.node l := by unfold State.setLcs; split <;> rfl
@[simp] theorem State.run_setLcs (s : State) (c : Lcs) (l : Nat) : (s.setLcs c).run l = s.run l := by unfold State.setLcs; split <;> rfl
@[simp] theorem State.repl_setLcs (s : State) (c : Lcs) (l : Nat) : (s.setLcs c).repl l = s.repl l := by unfold State.setLcs; split <;> rfl
@[simp] theorem State.cond_setLcs (s : State) (c : Lcs) (l : Nat) : (s.setLcs c).cond l = s.cond l := by unfold State.setLcs; split <;> rfl
@[simp] theorem State.card_setLcs (s : State) (c : Lcs) (l : Nat) : (s.setLcs c).card l = s.card l := by unfold State.setLcs; split <;> rfl
@[simp] theorem State.mlink_setLcs (s : State) (c : Lcs) (l : Nat) : (s.setLcs c).mlink l = s.mlink l := by unfold State.setLcs; split <;> rfl
@[simp] theorem State.slot_setLcs (s : State) (c : Lcs) (l : Nat) : (s.setLcs c).slot l = s.slot l := by unfold State.setLcs; split <;> rfl
@[simp] theorem State.entW_setLcs (s : State) (c : Lcs) (x y : Nat) : (s.setLcs c).entW x y = s.entW x y := by unfold State.setLcs; split <;> rfl
@[simp] theorem State.num_setLcs (s : State) (c : Lcs) (x y : Nat) : (s.setLcs c).num x y = s.num x y := by unfold State.setLcs; split <;> rfl
@[simp] theorem State.setSlot_pending (s : State) (k : Nat) (v : Slot) : (s.setSlot k v).pending = s.pending := rfl
@[simp] theorem State.setSlot_dt (s : State) (k : Nat) (v : Slot) : (s.setSlot k v).dt = s.dt := rfl
@[simp] theorem State.setSlot_draws (s : State) (k : Nat) (v : Slot) : (s.setSlot k v).draws = s.draws := rfl
@[simp] theorem State.setSlot_out (s : State) (k : Nat) (v : Slot) : (s.setSlot k v).out = s.out := rfl
@[simp] theorem State.setSlot_regs (s : State) (k : Nat) (v : Slot) : (s.setSlot k v).regs = s.regs := rfl
@[simp] theorem State.setSlot_power (s : State) (k : Nat) (v : Slot) : (s.setSlot k v).power = s.power := rfl
@[simp] theorem State.setSlot_rst (s : State) (k : Nat) (v : Slot) : (s.setSlot k v).rst = s.rst := rfl
@[simp] theorem State.setSlot_tap (s : State) (k : Nat) (v : Slot) : (s.setSlot k v).tap = s.tap := rfl
@[simp] theorem State.setSlot_pins (s : State) (k : Nat) (v : Slot) : (s.setSlot k v).pins = s.pins := rfl
@[simp] theorem State.setSlot_nvm (s : State) (k : Nat) (v : Slot) : (s.setSlot k v).nvm = s.nvm := rfl
@[simp] theorem State.setSlot_tamper (s : State) (k : Nat) (v : Slot) : (s.setSlot k v).tamper = s.tamper := rfl
@[simp] theorem State.setSlot_log (s : State) (k : Nat) (v : Slot) : (s.setSlot k v).log = s.log := rfl
@[simp] theorem State.setSlot_act (s : State) (k : Nat) (v : Slot) : (s.setSlot k v).act = s.act := rfl
@[simp] theorem State.setSlot_port (s : State) (k : Nat) (v : Slot) : (s.setSlot k v).port = s.port := rfl
@[simp] theorem State.setSlot_unit (s : State) (k : Nat) (v : Slot) : (s.setSlot k v).unit = s.unit := rfl
@[simp] theorem State.setSlot_key (s : State) (k : Nat) (v : Slot) : (s.setSlot k v).key = s.key := rfl
@[simp] theorem State.setSlot_pk (s : State) (k : Nat) (v : Slot) : (s.setSlot k v).pk = s.pk := rfl
@[simp] theorem State.setSlot_mr (s : State) (k : Nat) (v : Slot) : (s.setSlot k v).mr = s.mr := rfl
@[simp] theorem State.setSlot_dig (s : State) (k : Nat) (v : Slot) : (s.setSlot k v).dig = s.dig := rfl
@[simp] theorem State.setSlot_img (s : State) (k : Nat) (v : Slot) : (s.setSlot k v).img = s.img := rfl
@[simp] theorem State.setSlot_grp (s : State) (k : Nat) (v : Slot) : (s.setSlot k v).grp = s.grp := rfl
@[simp] theorem State.dom_setSlot (s : State) (k : Nat) (v : Slot) (d : Nat) : (s.setSlot k v).dom d = s.dom d := rfl
@[simp] theorem State.lane_setSlot (s : State) (k : Nat) (v : Slot) (l : Nat) : (s.setSlot k v).lane l = s.lane l := rfl
@[simp] theorem State.spare_setSlot (s : State) (k : Nat) (v : Slot) (l : Nat) : (s.setSlot k v).spare l = s.spare l := rfl
@[simp] theorem State.quad_setSlot (s : State) (k : Nat) (v : Slot) (l : Nat) : (s.setSlot k v).quad l = s.quad l := rfl
@[simp] theorem State.disp_setSlot (s : State) (k : Nat) (v : Slot) (l : Nat) : (s.setSlot k v).disp l = s.disp l := rfl
@[simp] theorem State.job_setSlot (s : State) (k : Nat) (v : Slot) (l : Nat) : (s.setSlot k v).job l = s.job l := rfl
@[simp] theorem State.aud_setSlot (s : State) (k : Nat) (v : Slot) (l : Nat) : (s.setSlot k v).aud l = s.aud l := rfl
@[simp] theorem State.core_setSlot (s : State) (k : Nat) (v : Slot) (l : Nat) : (s.setSlot k v).core l = s.core l := rfl
@[simp] theorem State.src_setSlot (s : State) (k : Nat) (v : Slot) (l : Nat) : (s.setSlot k v).src l = s.src l := rfl
@[simp] theorem State.hq_setSlot (s : State) (k : Nat) (v : Slot) (l : Nat) : (s.setSlot k v).hq l = s.hq l := rfl
@[simp] theorem State.actTab_setSlot (s : State) (k : Nat) (v : Slot) (l : Nat) : (s.setSlot k v).actTab l = s.actTab l := rfl
@[simp] theorem State.eng_setSlot (s : State) (k : Nat) (v : Slot) (l : Nat) : (s.setSlot k v).eng l = s.eng l := rfl
@[simp] theorem State.bg_setSlot (s : State) (k : Nat) (v : Slot) (l : Nat) : (s.setSlot k v).bg l = s.bg l := rfl
@[simp] theorem State.node_setSlot (s : State) (k : Nat) (v : Slot) (l : Nat) : (s.setSlot k v).node l = s.node l := rfl
@[simp] theorem State.run_setSlot (s : State) (k : Nat) (v : Slot) (l : Nat) : (s.setSlot k v).run l = s.run l := rfl
@[simp] theorem State.repl_setSlot (s : State) (k : Nat) (v : Slot) (l : Nat) : (s.setSlot k v).repl l = s.repl l := rfl
@[simp] theorem State.cond_setSlot (s : State) (k : Nat) (v : Slot) (l : Nat) : (s.setSlot k v).cond l = s.cond l := rfl
@[simp] theorem State.card_setSlot (s : State) (k : Nat) (v : Slot) (l : Nat) : (s.setSlot k v).card l = s.card l := rfl
@[simp] theorem State.mlink_setSlot (s : State) (k : Nat) (v : Slot) (l : Nat) : (s.setSlot k v).mlink l = s.mlink l := rfl
@[simp] theorem State.slot_setSlot (s : State) (k : Nat) (v : Slot) : (s.setSlot k v).slot k = v := Tab.look_put_same _ _ _ _
theorem State.slot_setSlot_other (s : State) (k : Nat) (v : Slot) {l : Nat} (h : l ≠ k) : (s.setSlot k v).slot l = s.slot l := Tab.look_put_other _ _ _ h
@[simp] theorem State.entW_setSlot (s : State) (k : Nat) (v : Slot) (x y : Nat) : (s.setSlot k v).entW x y = s.entW x y := rfl
@[simp] theorem State.num_setSlot (s : State) (k : Nat) (v : Slot) (x y : Nat) : (s.setSlot k v).num x y = s.num x y := rfl
@[simp] theorem State.setLane_pending (s : State) (n : Nat) (v : Lane) : (s.setLane n v).pending = s.pending := rfl
@[simp] theorem State.setLane_dt (s : State) (n : Nat) (v : Lane) : (s.setLane n v).dt = s.dt := rfl
@[simp] theorem State.setLane_draws (s : State) (n : Nat) (v : Lane) : (s.setLane n v).draws = s.draws := rfl
@[simp] theorem State.setLane_out (s : State) (n : Nat) (v : Lane) : (s.setLane n v).out = s.out := rfl
@[simp] theorem State.setLane_regs (s : State) (n : Nat) (v : Lane) : (s.setLane n v).regs = s.regs := rfl
@[simp] theorem State.setLane_dict (s : State) (n : Nat) (v : Lane) : (s.setLane n v).dict = s.dict := rfl
@[simp] theorem State.setLane_power (s : State) (n : Nat) (v : Lane) : (s.setLane n v).power = s.power := rfl
@[simp] theorem State.setLane_rst (s : State) (n : Nat) (v : Lane) : (s.setLane n v).rst = s.rst := rfl
@[simp] theorem State.setLane_tap (s : State) (n : Nat) (v : Lane) : (s.setLane n v).tap = s.tap := rfl
@[simp] theorem State.setLane_pins (s : State) (n : Nat) (v : Lane) : (s.setLane n v).pins = s.pins := rfl
@[simp] theorem State.setLane_nvm (s : State) (n : Nat) (v : Lane) : (s.setLane n v).nvm = s.nvm := rfl
@[simp] theorem State.setLane_tamper (s : State) (n : Nat) (v : Lane) : (s.setLane n v).tamper = s.tamper := rfl
@[simp] theorem State.setLane_log (s : State) (n : Nat) (v : Lane) : (s.setLane n v).log = s.log := rfl
@[simp] theorem State.setLane_act (s : State) (n : Nat) (v : Lane) : (s.setLane n v).act = s.act := rfl
@[simp] theorem State.setLane_port (s : State) (n : Nat) (v : Lane) : (s.setLane n v).port = s.port := rfl
@[simp] theorem State.setLane_key (s : State) (n : Nat) (v : Lane) : (s.setLane n v).key = s.key := rfl
@[simp] theorem State.setLane_pk (s : State) (n : Nat) (v : Lane) : (s.setLane n v).pk = s.pk := rfl
@[simp] theorem State.setLane_mr (s : State) (n : Nat) (v : Lane) : (s.setLane n v).mr = s.mr := rfl
@[simp] theorem State.setLane_dig (s : State) (n : Nat) (v : Lane) : (s.setLane n v).dig = s.dig := rfl
@[simp] theorem State.setLane_img (s : State) (n : Nat) (v : Lane) : (s.setLane n v).img = s.img := rfl
@[simp] theorem State.setLane_grp (s : State) (n : Nat) (v : Lane) : (s.setLane n v).grp = s.grp := rfl
@[simp] theorem State.dom_setLane (s : State) (n : Nat) (v : Lane) (d : Nat) : (s.setLane n v).dom d = s.dom d := rfl
@[simp] theorem State.lane_setLane (s : State) (n : Nat) (v : Lane) : (s.setLane n v).lane n = v := Tab.look_put_same _ _ _ _
theorem State.lane_setLane_other (s : State) (n : Nat) (v : Lane) {l : Nat} (h : l ≠ n) : (s.setLane n v).lane l = s.lane l := Tab.look_put_other _ _ _ h
@[simp] theorem State.spare_setLane (s : State) (n : Nat) (v : Lane) (l : Nat) : (s.setLane n v).spare l = s.spare l := rfl
@[simp] theorem State.quad_setLane (s : State) (n : Nat) (v : Lane) (l : Nat) : (s.setLane n v).quad l = s.quad l := rfl
@[simp] theorem State.disp_setLane (s : State) (n : Nat) (v : Lane) (l : Nat) : (s.setLane n v).disp l = s.disp l := rfl
@[simp] theorem State.job_setLane (s : State) (n : Nat) (v : Lane) (l : Nat) : (s.setLane n v).job l = s.job l := rfl
@[simp] theorem State.aud_setLane (s : State) (n : Nat) (v : Lane) (l : Nat) : (s.setLane n v).aud l = s.aud l := rfl
@[simp] theorem State.core_setLane (s : State) (n : Nat) (v : Lane) (l : Nat) : (s.setLane n v).core l = s.core l := rfl
@[simp] theorem State.src_setLane (s : State) (n : Nat) (v : Lane) (l : Nat) : (s.setLane n v).src l = s.src l := rfl
@[simp] theorem State.hq_setLane (s : State) (n : Nat) (v : Lane) (l : Nat) : (s.setLane n v).hq l = s.hq l := rfl
@[simp] theorem State.actTab_setLane (s : State) (n : Nat) (v : Lane) (l : Nat) : (s.setLane n v).actTab l = s.actTab l := rfl
@[simp] theorem State.eng_setLane (s : State) (n : Nat) (v : Lane) (l : Nat) : (s.setLane n v).eng l = s.eng l := rfl
@[simp] theorem State.bg_setLane (s : State) (n : Nat) (v : Lane) (l : Nat) : (s.setLane n v).bg l = s.bg l := rfl
@[simp] theorem State.node_setLane (s : State) (n : Nat) (v : Lane) (l : Nat) : (s.setLane n v).node l = s.node l := rfl
@[simp] theorem State.run_setLane (s : State) (n : Nat) (v : Lane) (l : Nat) : (s.setLane n v).run l = s.run l := rfl
@[simp] theorem State.repl_setLane (s : State) (n : Nat) (v : Lane) (l : Nat) : (s.setLane n v).repl l = s.repl l := rfl
@[simp] theorem State.cond_setLane (s : State) (n : Nat) (v : Lane) (l : Nat) : (s.setLane n v).cond l = s.cond l := rfl
@[simp] theorem State.card_setLane (s : State) (n : Nat) (v : Lane) (l : Nat) : (s.setLane n v).card l = s.card l := rfl
@[simp] theorem State.mlink_setLane (s : State) (n : Nat) (v : Lane) (l : Nat) : (s.setLane n v).mlink l = s.mlink l := rfl
@[simp] theorem State.slot_setLane (s : State) (n : Nat) (v : Lane) (l : Nat) : (s.setLane n v).slot l = s.slot l := rfl
@[simp] theorem State.entW_setLane (s : State) (n : Nat) (v : Lane) (x y : Nat) : (s.setLane n v).entW x y = s.entW x y := rfl
@[simp] theorem State.num_setLane (s : State) (n : Nat) (v : Lane) (x y : Nat) : (s.setLane n v).num x y = s.num x y := rfl
@[simp] theorem State.setSpare_pending (s : State) (n : Nat) (v : Spare) : (s.setSpare n v).pending = s.pending := rfl
@[simp] theorem State.setSpare_dt (s : State) (n : Nat) (v : Spare) : (s.setSpare n v).dt = s.dt := rfl
@[simp] theorem State.setSpare_draws (s : State) (n : Nat) (v : Spare) : (s.setSpare n v).draws = s.draws := rfl
@[simp] theorem State.setSpare_out (s : State) (n : Nat) (v : Spare) : (s.setSpare n v).out = s.out := rfl
@[simp] theorem State.setSpare_regs (s : State) (n : Nat) (v : Spare) : (s.setSpare n v).regs = s.regs := rfl
@[simp] theorem State.setSpare_dict (s : State) (n : Nat) (v : Spare) : (s.setSpare n v).dict = s.dict := rfl
@[simp] theorem State.setSpare_power (s : State) (n : Nat) (v : Spare) : (s.setSpare n v).power = s.power := rfl
@[simp] theorem State.setSpare_rst (s : State) (n : Nat) (v : Spare) : (s.setSpare n v).rst = s.rst := rfl
@[simp] theorem State.setSpare_tap (s : State) (n : Nat) (v : Spare) : (s.setSpare n v).tap = s.tap := rfl
@[simp] theorem State.setSpare_pins (s : State) (n : Nat) (v : Spare) : (s.setSpare n v).pins = s.pins := rfl
@[simp] theorem State.setSpare_nvm (s : State) (n : Nat) (v : Spare) : (s.setSpare n v).nvm = s.nvm := rfl
@[simp] theorem State.setSpare_tamper (s : State) (n : Nat) (v : Spare) : (s.setSpare n v).tamper = s.tamper := rfl
@[simp] theorem State.setSpare_log (s : State) (n : Nat) (v : Spare) : (s.setSpare n v).log = s.log := rfl
@[simp] theorem State.setSpare_act (s : State) (n : Nat) (v : Spare) : (s.setSpare n v).act = s.act := rfl
@[simp] theorem State.setSpare_port (s : State) (n : Nat) (v : Spare) : (s.setSpare n v).port = s.port := rfl
@[simp] theorem State.setSpare_key (s : State) (n : Nat) (v : Spare) : (s.setSpare n v).key = s.key := rfl
@[simp] theorem State.setSpare_pk (s : State) (n : Nat) (v : Spare) : (s.setSpare n v).pk = s.pk := rfl
@[simp] theorem State.setSpare_mr (s : State) (n : Nat) (v : Spare) : (s.setSpare n v).mr = s.mr := rfl
@[simp] theorem State.setSpare_dig (s : State) (n : Nat) (v : Spare) : (s.setSpare n v).dig = s.dig := rfl
@[simp] theorem State.setSpare_img (s : State) (n : Nat) (v : Spare) : (s.setSpare n v).img = s.img := rfl
@[simp] theorem State.setSpare_grp (s : State) (n : Nat) (v : Spare) : (s.setSpare n v).grp = s.grp := rfl
@[simp] theorem State.dom_setSpare (s : State) (n : Nat) (v : Spare) (d : Nat) : (s.setSpare n v).dom d = s.dom d := rfl
@[simp] theorem State.lane_setSpare (s : State) (n : Nat) (v : Spare) (l : Nat) : (s.setSpare n v).lane l = s.lane l := rfl
@[simp] theorem State.spare_setSpare (s : State) (n : Nat) (v : Spare) : (s.setSpare n v).spare n = v := Tab.look_put_same _ _ _ _
theorem State.spare_setSpare_other (s : State) (n : Nat) (v : Spare) {l : Nat} (h : l ≠ n) : (s.setSpare n v).spare l = s.spare l := Tab.look_put_other _ _ _ h
@[simp] theorem State.quad_setSpare (s : State) (n : Nat) (v : Spare) (l : Nat) : (s.setSpare n v).quad l = s.quad l := rfl
@[simp] theorem State.disp_setSpare (s : State) (n : Nat) (v : Spare) (l : Nat) : (s.setSpare n v).disp l = s.disp l := rfl
@[simp] theorem State.job_setSpare (s : State) (n : Nat) (v : Spare) (l : Nat) : (s.setSpare n v).job l = s.job l := rfl
@[simp] theorem State.aud_setSpare (s : State) (n : Nat) (v : Spare) (l : Nat) : (s.setSpare n v).aud l = s.aud l := rfl
@[simp] theorem State.core_setSpare (s : State) (n : Nat) (v : Spare) (l : Nat) : (s.setSpare n v).core l = s.core l := rfl
@[simp] theorem State.src_setSpare (s : State) (n : Nat) (v : Spare) (l : Nat) : (s.setSpare n v).src l = s.src l := rfl
@[simp] theorem State.hq_setSpare (s : State) (n : Nat) (v : Spare) (l : Nat) : (s.setSpare n v).hq l = s.hq l := rfl
@[simp] theorem State.actTab_setSpare (s : State) (n : Nat) (v : Spare) (l : Nat) : (s.setSpare n v).actTab l = s.actTab l := rfl
@[simp] theorem State.eng_setSpare (s : State) (n : Nat) (v : Spare) (l : Nat) : (s.setSpare n v).eng l = s.eng l := rfl
@[simp] theorem State.bg_setSpare (s : State) (n : Nat) (v : Spare) (l : Nat) : (s.setSpare n v).bg l = s.bg l := rfl
@[simp] theorem State.node_setSpare (s : State) (n : Nat) (v : Spare) (l : Nat) : (s.setSpare n v).node l = s.node l := rfl
@[simp] theorem State.run_setSpare (s : State) (n : Nat) (v : Spare) (l : Nat) : (s.setSpare n v).run l = s.run l := rfl
@[simp] theorem State.repl_setSpare (s : State) (n : Nat) (v : Spare) (l : Nat) : (s.setSpare n v).repl l = s.repl l := rfl
@[simp] theorem State.cond_setSpare (s : State) (n : Nat) (v : Spare) (l : Nat) : (s.setSpare n v).cond l = s.cond l := rfl
@[simp] theorem State.card_setSpare (s : State) (n : Nat) (v : Spare) (l : Nat) : (s.setSpare n v).card l = s.card l := rfl
@[simp] theorem State.mlink_setSpare (s : State) (n : Nat) (v : Spare) (l : Nat) : (s.setSpare n v).mlink l = s.mlink l := rfl
@[simp] theorem State.slot_setSpare (s : State) (n : Nat) (v : Spare) (l : Nat) : (s.setSpare n v).slot l = s.slot l := rfl
@[simp] theorem State.entW_setSpare (s : State) (n : Nat) (v : Spare) (x y : Nat) : (s.setSpare n v).entW x y = s.entW x y := rfl
@[simp] theorem State.num_setSpare (s : State) (n : Nat) (v : Spare) (x y : Nat) : (s.setSpare n v).num x y = s.num x y := rfl
@[simp] theorem State.setQuad_pending (s : State) (n : Nat) (v : Quad) : (s.setQuad n v).pending = s.pending := rfl
@[simp] theorem State.setQuad_dt (s : State) (n : Nat) (v : Quad) : (s.setQuad n v).dt = s.dt := rfl
@[simp] theorem State.setQuad_draws (s : State) (n : Nat) (v : Quad) : (s.setQuad n v).draws = s.draws := rfl
@[simp] theorem State.setQuad_out (s : State) (n : Nat) (v : Quad) : (s.setQuad n v).out = s.out := rfl
@[simp] theorem State.setQuad_regs (s : State) (n : Nat) (v : Quad) : (s.setQuad n v).regs = s.regs := rfl
@[simp] theorem State.setQuad_dict (s : State) (n : Nat) (v : Quad) : (s.setQuad n v).dict = s.dict := rfl
@[simp] theorem State.setQuad_power (s : State) (n : Nat) (v : Quad) : (s.setQuad n v).power = s.power := rfl
@[simp] theorem State.setQuad_rst (s : State) (n : Nat) (v : Quad) : (s.setQuad n v).rst = s.rst := rfl
@[simp] theorem State.setQuad_tap (s : State) (n : Nat) (v : Quad) : (s.setQuad n v).tap = s.tap := rfl
@[simp] theorem State.setQuad_pins (s : State) (n : Nat) (v : Quad) : (s.setQuad n v).pins = s.pins := rfl
@[simp] theorem State.setQuad_nvm (s : State) (n : Nat) (v : Quad) : (s.setQuad n v).nvm = s.nvm := rfl
@[simp] theorem State.setQuad_tamper (s : State) (n : Nat) (v : Quad) : (s.setQuad n v).tamper = s.tamper := rfl
@[simp] theorem State.setQuad_log (s : State) (n : Nat) (v : Quad) : (s.setQuad n v).log = s.log := rfl
@[simp] theorem State.setQuad_act (s : State) (n : Nat) (v : Quad) : (s.setQuad n v).act = s.act := rfl
@[simp] theorem State.setQuad_port (s : State) (n : Nat) (v : Quad) : (s.setQuad n v).port = s.port := rfl
@[simp] theorem State.setQuad_key (s : State) (n : Nat) (v : Quad) : (s.setQuad n v).key = s.key := rfl
@[simp] theorem State.setQuad_pk (s : State) (n : Nat) (v : Quad) : (s.setQuad n v).pk = s.pk := rfl
@[simp] theorem State.setQuad_mr (s : State) (n : Nat) (v : Quad) : (s.setQuad n v).mr = s.mr := rfl
@[simp] theorem State.setQuad_dig (s : State) (n : Nat) (v : Quad) : (s.setQuad n v).dig = s.dig := rfl
@[simp] theorem State.setQuad_img (s : State) (n : Nat) (v : Quad) : (s.setQuad n v).img = s.img := rfl
@[simp] theorem State.setQuad_grp (s : State) (n : Nat) (v : Quad) : (s.setQuad n v).grp = s.grp := rfl
@[simp] theorem State.dom_setQuad (s : State) (n : Nat) (v : Quad) (d : Nat) : (s.setQuad n v).dom d = s.dom d := rfl
@[simp] theorem State.lane_setQuad (s : State) (n : Nat) (v : Quad) (l : Nat) : (s.setQuad n v).lane l = s.lane l := rfl
@[simp] theorem State.spare_setQuad (s : State) (n : Nat) (v : Quad) (l : Nat) : (s.setQuad n v).spare l = s.spare l := rfl
@[simp] theorem State.quad_setQuad (s : State) (n : Nat) (v : Quad) : (s.setQuad n v).quad n = v := Tab.look_put_same _ _ _ _
theorem State.quad_setQuad_other (s : State) (n : Nat) (v : Quad) {l : Nat} (h : l ≠ n) : (s.setQuad n v).quad l = s.quad l := Tab.look_put_other _ _ _ h
@[simp] theorem State.disp_setQuad (s : State) (n : Nat) (v : Quad) (l : Nat) : (s.setQuad n v).disp l = s.disp l := rfl
@[simp] theorem State.job_setQuad (s : State) (n : Nat) (v : Quad) (l : Nat) : (s.setQuad n v).job l = s.job l := rfl
@[simp] theorem State.aud_setQuad (s : State) (n : Nat) (v : Quad) (l : Nat) : (s.setQuad n v).aud l = s.aud l := rfl
@[simp] theorem State.core_setQuad (s : State) (n : Nat) (v : Quad) (l : Nat) : (s.setQuad n v).core l = s.core l := rfl
@[simp] theorem State.src_setQuad (s : State) (n : Nat) (v : Quad) (l : Nat) : (s.setQuad n v).src l = s.src l := rfl
@[simp] theorem State.hq_setQuad (s : State) (n : Nat) (v : Quad) (l : Nat) : (s.setQuad n v).hq l = s.hq l := rfl
@[simp] theorem State.actTab_setQuad (s : State) (n : Nat) (v : Quad) (l : Nat) : (s.setQuad n v).actTab l = s.actTab l := rfl
@[simp] theorem State.eng_setQuad (s : State) (n : Nat) (v : Quad) (l : Nat) : (s.setQuad n v).eng l = s.eng l := rfl
@[simp] theorem State.bg_setQuad (s : State) (n : Nat) (v : Quad) (l : Nat) : (s.setQuad n v).bg l = s.bg l := rfl
@[simp] theorem State.node_setQuad (s : State) (n : Nat) (v : Quad) (l : Nat) : (s.setQuad n v).node l = s.node l := rfl
@[simp] theorem State.run_setQuad (s : State) (n : Nat) (v : Quad) (l : Nat) : (s.setQuad n v).run l = s.run l := rfl
@[simp] theorem State.repl_setQuad (s : State) (n : Nat) (v : Quad) (l : Nat) : (s.setQuad n v).repl l = s.repl l := rfl
@[simp] theorem State.cond_setQuad (s : State) (n : Nat) (v : Quad) (l : Nat) : (s.setQuad n v).cond l = s.cond l := rfl
@[simp] theorem State.card_setQuad (s : State) (n : Nat) (v : Quad) (l : Nat) : (s.setQuad n v).card l = s.card l := rfl
@[simp] theorem State.mlink_setQuad (s : State) (n : Nat) (v : Quad) (l : Nat) : (s.setQuad n v).mlink l = s.mlink l := rfl
@[simp] theorem State.slot_setQuad (s : State) (n : Nat) (v : Quad) (l : Nat) : (s.setQuad n v).slot l = s.slot l := rfl
@[simp] theorem State.entW_setQuad (s : State) (n : Nat) (v : Quad) (x y : Nat) : (s.setQuad n v).entW x y = s.entW x y := rfl
@[simp] theorem State.num_setQuad (s : State) (n : Nat) (v : Quad) (x y : Nat) : (s.setQuad n v).num x y = s.num x y := rfl
@[simp] theorem State.setDisp_pending (s : State) (n : Nat) (v : Dispatch) : (s.setDisp n v).pending = s.pending := rfl
@[simp] theorem State.setDisp_dt (s : State) (n : Nat) (v : Dispatch) : (s.setDisp n v).dt = s.dt := rfl
@[simp] theorem State.setDisp_draws (s : State) (n : Nat) (v : Dispatch) : (s.setDisp n v).draws = s.draws := rfl
@[simp] theorem State.setDisp_out (s : State) (n : Nat) (v : Dispatch) : (s.setDisp n v).out = s.out := rfl
@[simp] theorem State.setDisp_regs (s : State) (n : Nat) (v : Dispatch) : (s.setDisp n v).regs = s.regs := rfl
@[simp] theorem State.setDisp_dict (s : State) (n : Nat) (v : Dispatch) : (s.setDisp n v).dict = s.dict := rfl
@[simp] theorem State.setDisp_power (s : State) (n : Nat) (v : Dispatch) : (s.setDisp n v).power = s.power := rfl
@[simp] theorem State.setDisp_rst (s : State) (n : Nat) (v : Dispatch) : (s.setDisp n v).rst = s.rst := rfl
@[simp] theorem State.setDisp_tap (s : State) (n : Nat) (v : Dispatch) : (s.setDisp n v).tap = s.tap := rfl
@[simp] theorem State.setDisp_pins (s : State) (n : Nat) (v : Dispatch) : (s.setDisp n v).pins = s.pins := rfl
@[simp] theorem State.setDisp_nvm (s : State) (n : Nat) (v : Dispatch) : (s.setDisp n v).nvm = s.nvm := rfl
@[simp] theorem State.setDisp_tamper (s : State) (n : Nat) (v : Dispatch) : (s.setDisp n v).tamper = s.tamper := rfl
@[simp] theorem State.setDisp_log (s : State) (n : Nat) (v : Dispatch) : (s.setDisp n v).log = s.log := rfl
@[simp] theorem State.setDisp_act (s : State) (n : Nat) (v : Dispatch) : (s.setDisp n v).act = s.act := rfl
@[simp] theorem State.setDisp_port (s : State) (n : Nat) (v : Dispatch) : (s.setDisp n v).port = s.port := rfl
@[simp] theorem State.setDisp_key (s : State) (n : Nat) (v : Dispatch) : (s.setDisp n v).key = s.key := rfl
@[simp] theorem State.setDisp_pk (s : State) (n : Nat) (v : Dispatch) : (s.setDisp n v).pk = s.pk := rfl
@[simp] theorem State.setDisp_mr (s : State) (n : Nat) (v : Dispatch) : (s.setDisp n v).mr = s.mr := rfl
@[simp] theorem State.setDisp_dig (s : State) (n : Nat) (v : Dispatch) : (s.setDisp n v).dig = s.dig := rfl
@[simp] theorem State.setDisp_img (s : State) (n : Nat) (v : Dispatch) : (s.setDisp n v).img = s.img := rfl
@[simp] theorem State.setDisp_grp (s : State) (n : Nat) (v : Dispatch) : (s.setDisp n v).grp = s.grp := rfl
@[simp] theorem State.dom_setDisp (s : State) (n : Nat) (v : Dispatch) (d : Nat) : (s.setDisp n v).dom d = s.dom d := rfl
@[simp] theorem State.lane_setDisp (s : State) (n : Nat) (v : Dispatch) (l : Nat) : (s.setDisp n v).lane l = s.lane l := rfl
@[simp] theorem State.spare_setDisp (s : State) (n : Nat) (v : Dispatch) (l : Nat) : (s.setDisp n v).spare l = s.spare l := rfl
@[simp] theorem State.quad_setDisp (s : State) (n : Nat) (v : Dispatch) (l : Nat) : (s.setDisp n v).quad l = s.quad l := rfl
@[simp] theorem State.disp_setDisp (s : State) (n : Nat) (v : Dispatch) : (s.setDisp n v).disp n = v := Tab.look_put_same _ _ _ _
theorem State.disp_setDisp_other (s : State) (n : Nat) (v : Dispatch) {l : Nat} (h : l ≠ n) : (s.setDisp n v).disp l = s.disp l := Tab.look_put_other _ _ _ h
@[simp] theorem State.job_setDisp (s : State) (n : Nat) (v : Dispatch) (l : Nat) : (s.setDisp n v).job l = s.job l := rfl
@[simp] theorem State.aud_setDisp (s : State) (n : Nat) (v : Dispatch) (l : Nat) : (s.setDisp n v).aud l = s.aud l := rfl
@[simp] theorem State.core_setDisp (s : State) (n : Nat) (v : Dispatch) (l : Nat) : (s.setDisp n v).core l = s.core l := rfl
@[simp] theorem State.src_setDisp (s : State) (n : Nat) (v : Dispatch) (l : Nat) : (s.setDisp n v).src l = s.src l := rfl
@[simp] theorem State.hq_setDisp (s : State) (n : Nat) (v : Dispatch) (l : Nat) : (s.setDisp n v).hq l = s.hq l := rfl
@[simp] theorem State.actTab_setDisp (s : State) (n : Nat) (v : Dispatch) (l : Nat) : (s.setDisp n v).actTab l = s.actTab l := rfl
@[simp] theorem State.eng_setDisp (s : State) (n : Nat) (v : Dispatch) (l : Nat) : (s.setDisp n v).eng l = s.eng l := rfl
@[simp] theorem State.bg_setDisp (s : State) (n : Nat) (v : Dispatch) (l : Nat) : (s.setDisp n v).bg l = s.bg l := rfl
@[simp] theorem State.node_setDisp (s : State) (n : Nat) (v : Dispatch) (l : Nat) : (s.setDisp n v).node l = s.node l := rfl
@[simp] theorem State.run_setDisp (s : State) (n : Nat) (v : Dispatch) (l : Nat) : (s.setDisp n v).run l = s.run l := rfl
@[simp] theorem State.repl_setDisp (s : State) (n : Nat) (v : Dispatch) (l : Nat) : (s.setDisp n v).repl l = s.repl l := rfl
@[simp] theorem State.cond_setDisp (s : State) (n : Nat) (v : Dispatch) (l : Nat) : (s.setDisp n v).cond l = s.cond l := rfl
@[simp] theorem State.card_setDisp (s : State) (n : Nat) (v : Dispatch) (l : Nat) : (s.setDisp n v).card l = s.card l := rfl
@[simp] theorem State.mlink_setDisp (s : State) (n : Nat) (v : Dispatch) (l : Nat) : (s.setDisp n v).mlink l = s.mlink l := rfl
@[simp] theorem State.slot_setDisp (s : State) (n : Nat) (v : Dispatch) (l : Nat) : (s.setDisp n v).slot l = s.slot l := rfl
@[simp] theorem State.entW_setDisp (s : State) (n : Nat) (v : Dispatch) (x y : Nat) : (s.setDisp n v).entW x y = s.entW x y := rfl
@[simp] theorem State.num_setDisp (s : State) (n : Nat) (v : Dispatch) (x y : Nat) : (s.setDisp n v).num x y = s.num x y := rfl
@[simp] theorem State.setJob_pending (s : State) (n : Nat) (v : Job) : (s.setJob n v).pending = s.pending := rfl
@[simp] theorem State.setJob_dt (s : State) (n : Nat) (v : Job) : (s.setJob n v).dt = s.dt := rfl
@[simp] theorem State.setJob_draws (s : State) (n : Nat) (v : Job) : (s.setJob n v).draws = s.draws := rfl
@[simp] theorem State.setJob_out (s : State) (n : Nat) (v : Job) : (s.setJob n v).out = s.out := rfl
@[simp] theorem State.setJob_regs (s : State) (n : Nat) (v : Job) : (s.setJob n v).regs = s.regs := rfl
@[simp] theorem State.setJob_dict (s : State) (n : Nat) (v : Job) : (s.setJob n v).dict = s.dict := rfl
@[simp] theorem State.setJob_power (s : State) (n : Nat) (v : Job) : (s.setJob n v).power = s.power := rfl
@[simp] theorem State.setJob_rst (s : State) (n : Nat) (v : Job) : (s.setJob n v).rst = s.rst := rfl
@[simp] theorem State.setJob_tap (s : State) (n : Nat) (v : Job) : (s.setJob n v).tap = s.tap := rfl
@[simp] theorem State.setJob_pins (s : State) (n : Nat) (v : Job) : (s.setJob n v).pins = s.pins := rfl
@[simp] theorem State.setJob_nvm (s : State) (n : Nat) (v : Job) : (s.setJob n v).nvm = s.nvm := rfl
@[simp] theorem State.setJob_tamper (s : State) (n : Nat) (v : Job) : (s.setJob n v).tamper = s.tamper := rfl
@[simp] theorem State.setJob_log (s : State) (n : Nat) (v : Job) : (s.setJob n v).log = s.log := rfl
@[simp] theorem State.setJob_act (s : State) (n : Nat) (v : Job) : (s.setJob n v).act = s.act := rfl
@[simp] theorem State.setJob_port (s : State) (n : Nat) (v : Job) : (s.setJob n v).port = s.port := rfl
@[simp] theorem State.setJob_key (s : State) (n : Nat) (v : Job) : (s.setJob n v).key = s.key := rfl
@[simp] theorem State.setJob_pk (s : State) (n : Nat) (v : Job) : (s.setJob n v).pk = s.pk := rfl
@[simp] theorem State.setJob_mr (s : State) (n : Nat) (v : Job) : (s.setJob n v).mr = s.mr := rfl
@[simp] theorem State.setJob_dig (s : State) (n : Nat) (v : Job) : (s.setJob n v).dig = s.dig := rfl
@[simp] theorem State.setJob_img (s : State) (n : Nat) (v : Job) : (s.setJob n v).img = s.img := rfl
@[simp] theorem State.setJob_grp (s : State) (n : Nat) (v : Job) : (s.setJob n v).grp = s.grp := rfl
@[simp] theorem State.dom_setJob (s : State) (n : Nat) (v : Job) (d : Nat) : (s.setJob n v).dom d = s.dom d := rfl
@[simp] theorem State.lane_setJob (s : State) (n : Nat) (v : Job) (l : Nat) : (s.setJob n v).lane l = s.lane l := rfl
@[simp] theorem State.spare_setJob (s : State) (n : Nat) (v : Job) (l : Nat) : (s.setJob n v).spare l = s.spare l := rfl
@[simp] theorem State.quad_setJob (s : State) (n : Nat) (v : Job) (l : Nat) : (s.setJob n v).quad l = s.quad l := rfl
@[simp] theorem State.disp_setJob (s : State) (n : Nat) (v : Job) (l : Nat) : (s.setJob n v).disp l = s.disp l := rfl
@[simp] theorem State.job_setJob (s : State) (n : Nat) (v : Job) : (s.setJob n v).job n = v := Tab.look_put_same _ _ _ _
theorem State.job_setJob_other (s : State) (n : Nat) (v : Job) {l : Nat} (h : l ≠ n) : (s.setJob n v).job l = s.job l := Tab.look_put_other _ _ _ h
@[simp] theorem State.aud_setJob (s : State) (n : Nat) (v : Job) (l : Nat) : (s.setJob n v).aud l = s.aud l := rfl
@[simp] theorem State.core_setJob (s : State) (n : Nat) (v : Job) (l : Nat) : (s.setJob n v).core l = s.core l := rfl
@[simp] theorem State.src_setJob (s : State) (n : Nat) (v : Job) (l : Nat) : (s.setJob n v).src l = s.src l := rfl
@[simp] theorem State.hq_setJob (s : State) (n : Nat) (v : Job) (l : Nat) : (s.setJob n v).hq l = s.hq l := rfl
@[simp] theorem State.actTab_setJob (s : State) (n : Nat) (v : Job) (l : Nat) : (s.setJob n v).actTab l = s.actTab l := rfl
@[simp] theorem State.eng_setJob (s : State) (n : Nat) (v : Job) (l : Nat) : (s.setJob n v).eng l = s.eng l := rfl
@[simp] theorem State.bg_setJob (s : State) (n : Nat) (v : Job) (l : Nat) : (s.setJob n v).bg l = s.bg l := rfl
@[simp] theorem State.node_setJob (s : State) (n : Nat) (v : Job) (l : Nat) : (s.setJob n v).node l = s.node l := rfl
@[simp] theorem State.run_setJob (s : State) (n : Nat) (v : Job) (l : Nat) : (s.setJob n v).run l = s.run l := rfl
@[simp] theorem State.repl_setJob (s : State) (n : Nat) (v : Job) (l : Nat) : (s.setJob n v).repl l = s.repl l := rfl
@[simp] theorem State.cond_setJob (s : State) (n : Nat) (v : Job) (l : Nat) : (s.setJob n v).cond l = s.cond l := rfl
@[simp] theorem State.card_setJob (s : State) (n : Nat) (v : Job) (l : Nat) : (s.setJob n v).card l = s.card l := rfl
@[simp] theorem State.mlink_setJob (s : State) (n : Nat) (v : Job) (l : Nat) : (s.setJob n v).mlink l = s.mlink l := rfl
@[simp] theorem State.slot_setJob (s : State) (n : Nat) (v : Job) (l : Nat) : (s.setJob n v).slot l = s.slot l := rfl
@[simp] theorem State.entW_setJob (s : State) (n : Nat) (v : Job) (x y : Nat) : (s.setJob n v).entW x y = s.entW x y := rfl
@[simp] theorem State.num_setJob (s : State) (n : Nat) (v : Job) (x y : Nat) : (s.setJob n v).num x y = s.num x y := rfl
@[simp] theorem State.setAud_pending (s : State) (n : Nat) (v : AudUnit) : (s.setAud n v).pending = s.pending := rfl
@[simp] theorem State.setAud_dt (s : State) (n : Nat) (v : AudUnit) : (s.setAud n v).dt = s.dt := rfl
@[simp] theorem State.setAud_draws (s : State) (n : Nat) (v : AudUnit) : (s.setAud n v).draws = s.draws := rfl
@[simp] theorem State.setAud_out (s : State) (n : Nat) (v : AudUnit) : (s.setAud n v).out = s.out := rfl
@[simp] theorem State.setAud_regs (s : State) (n : Nat) (v : AudUnit) : (s.setAud n v).regs = s.regs := rfl
@[simp] theorem State.setAud_dict (s : State) (n : Nat) (v : AudUnit) : (s.setAud n v).dict = s.dict := rfl
@[simp] theorem State.setAud_power (s : State) (n : Nat) (v : AudUnit) : (s.setAud n v).power = s.power := rfl
@[simp] theorem State.setAud_rst (s : State) (n : Nat) (v : AudUnit) : (s.setAud n v).rst = s.rst := rfl
@[simp] theorem State.setAud_tap (s : State) (n : Nat) (v : AudUnit) : (s.setAud n v).tap = s.tap := rfl
@[simp] theorem State.setAud_pins (s : State) (n : Nat) (v : AudUnit) : (s.setAud n v).pins = s.pins := rfl
@[simp] theorem State.setAud_nvm (s : State) (n : Nat) (v : AudUnit) : (s.setAud n v).nvm = s.nvm := rfl
@[simp] theorem State.setAud_tamper (s : State) (n : Nat) (v : AudUnit) : (s.setAud n v).tamper = s.tamper := rfl
@[simp] theorem State.setAud_log (s : State) (n : Nat) (v : AudUnit) : (s.setAud n v).log = s.log := rfl
@[simp] theorem State.setAud_act (s : State) (n : Nat) (v : AudUnit) : (s.setAud n v).act = s.act := rfl
@[simp] theorem State.setAud_port (s : State) (n : Nat) (v : AudUnit) : (s.setAud n v).port = s.port := rfl
@[simp] theorem State.setAud_key (s : State) (n : Nat) (v : AudUnit) : (s.setAud n v).key = s.key := rfl
@[simp] theorem State.setAud_pk (s : State) (n : Nat) (v : AudUnit) : (s.setAud n v).pk = s.pk := rfl
@[simp] theorem State.setAud_mr (s : State) (n : Nat) (v : AudUnit) : (s.setAud n v).mr = s.mr := rfl
@[simp] theorem State.setAud_dig (s : State) (n : Nat) (v : AudUnit) : (s.setAud n v).dig = s.dig := rfl
@[simp] theorem State.setAud_img (s : State) (n : Nat) (v : AudUnit) : (s.setAud n v).img = s.img := rfl
@[simp] theorem State.setAud_grp (s : State) (n : Nat) (v : AudUnit) : (s.setAud n v).grp = s.grp := rfl
@[simp] theorem State.dom_setAud (s : State) (n : Nat) (v : AudUnit) (d : Nat) : (s.setAud n v).dom d = s.dom d := rfl
@[simp] theorem State.lane_setAud (s : State) (n : Nat) (v : AudUnit) (l : Nat) : (s.setAud n v).lane l = s.lane l := rfl
@[simp] theorem State.spare_setAud (s : State) (n : Nat) (v : AudUnit) (l : Nat) : (s.setAud n v).spare l = s.spare l := rfl
@[simp] theorem State.quad_setAud (s : State) (n : Nat) (v : AudUnit) (l : Nat) : (s.setAud n v).quad l = s.quad l := rfl
@[simp] theorem State.disp_setAud (s : State) (n : Nat) (v : AudUnit) (l : Nat) : (s.setAud n v).disp l = s.disp l := rfl
@[simp] theorem State.job_setAud (s : State) (n : Nat) (v : AudUnit) (l : Nat) : (s.setAud n v).job l = s.job l := rfl
@[simp] theorem State.aud_setAud (s : State) (n : Nat) (v : AudUnit) : (s.setAud n v).aud n = v := Tab.look_put_same _ _ _ _
theorem State.aud_setAud_other (s : State) (n : Nat) (v : AudUnit) {l : Nat} (h : l ≠ n) : (s.setAud n v).aud l = s.aud l := Tab.look_put_other _ _ _ h
@[simp] theorem State.core_setAud (s : State) (n : Nat) (v : AudUnit) (l : Nat) : (s.setAud n v).core l = s.core l := rfl
@[simp] theorem State.src_setAud (s : State) (n : Nat) (v : AudUnit) (l : Nat) : (s.setAud n v).src l = s.src l := rfl
@[simp] theorem State.hq_setAud (s : State) (n : Nat) (v : AudUnit) (l : Nat) : (s.setAud n v).hq l = s.hq l := rfl
@[simp] theorem State.actTab_setAud (s : State) (n : Nat) (v : AudUnit) (l : Nat) : (s.setAud n v).actTab l = s.actTab l := rfl
@[simp] theorem State.eng_setAud (s : State) (n : Nat) (v : AudUnit) (l : Nat) : (s.setAud n v).eng l = s.eng l := rfl
@[simp] theorem State.bg_setAud (s : State) (n : Nat) (v : AudUnit) (l : Nat) : (s.setAud n v).bg l = s.bg l := rfl
@[simp] theorem State.node_setAud (s : State) (n : Nat) (v : AudUnit) (l : Nat) : (s.setAud n v).node l = s.node l := rfl
@[simp] theorem State.run_setAud (s : State) (n : Nat) (v : AudUnit) (l : Nat) : (s.setAud n v).run l = s.run l := rfl
@[simp] theorem State.repl_setAud (s : State) (n : Nat) (v : AudUnit) (l : Nat) : (s.setAud n v).repl l = s.repl l := rfl
@[simp] theorem State.cond_setAud (s : State) (n : Nat) (v : AudUnit) (l : Nat) : (s.setAud n v).cond l = s.cond l := rfl
@[simp] theorem State.card_setAud (s : State) (n : Nat) (v : AudUnit) (l : Nat) : (s.setAud n v).card l = s.card l := rfl
@[simp] theorem State.mlink_setAud (s : State) (n : Nat) (v : AudUnit) (l : Nat) : (s.setAud n v).mlink l = s.mlink l := rfl
@[simp] theorem State.slot_setAud (s : State) (n : Nat) (v : AudUnit) (l : Nat) : (s.setAud n v).slot l = s.slot l := rfl
@[simp] theorem State.entW_setAud (s : State) (n : Nat) (v : AudUnit) (x y : Nat) : (s.setAud n v).entW x y = s.entW x y := rfl
@[simp] theorem State.num_setAud (s : State) (n : Nat) (v : AudUnit) (x y : Nat) : (s.setAud n v).num x y = s.num x y := rfl
@[simp] theorem State.setCore_pending (s : State) (n : Nat) (v : Core) : (s.setCore n v).pending = s.pending := by unfold State.setCore; split <;> rfl
@[simp] theorem State.setCore_dt (s : State) (n : Nat) (v : Core) : (s.setCore n v).dt = s.dt := by unfold State.setCore; split <;> rfl
@[simp] theorem State.setCore_draws (s : State) (n : Nat) (v : Core) : (s.setCore n v).draws = s.draws := by unfold State.setCore; split <;> rfl
@[simp] theorem State.setCore_out (s : State) (n : Nat) (v : Core) : (s.setCore n v).out = s.out := by unfold State.setCore; split <;> rfl
@[simp] theorem State.setCore_regs (s : State) (n : Nat) (v : Core) : (s.setCore n v).regs = s.regs := by unfold State.setCore; split <;> rfl
@[simp] theorem State.setCore_dict (s : State) (n : Nat) (v : Core) : (s.setCore n v).dict = s.dict := by unfold State.setCore; split <;> rfl
@[simp] theorem State.setCore_power (s : State) (n : Nat) (v : Core) : (s.setCore n v).power = s.power := by unfold State.setCore; split <;> rfl
@[simp] theorem State.setCore_rst (s : State) (n : Nat) (v : Core) : (s.setCore n v).rst = s.rst := by unfold State.setCore; split <;> rfl
@[simp] theorem State.setCore_tap (s : State) (n : Nat) (v : Core) : (s.setCore n v).tap = s.tap := by unfold State.setCore; split <;> rfl
@[simp] theorem State.setCore_pins (s : State) (n : Nat) (v : Core) : (s.setCore n v).pins = s.pins := by unfold State.setCore; split <;> rfl
@[simp] theorem State.setCore_nvm (s : State) (n : Nat) (v : Core) : (s.setCore n v).nvm = s.nvm := by unfold State.setCore; split <;> rfl
@[simp] theorem State.setCore_tamper (s : State) (n : Nat) (v : Core) : (s.setCore n v).tamper = s.tamper := by unfold State.setCore; split <;> rfl
@[simp] theorem State.setCore_log (s : State) (n : Nat) (v : Core) : (s.setCore n v).log = s.log := by unfold State.setCore; split <;> rfl
@[simp] theorem State.setCore_act (s : State) (n : Nat) (v : Core) : (s.setCore n v).act = s.act := by unfold State.setCore; split <;> rfl
@[simp] theorem State.setCore_port (s : State) (n : Nat) (v : Core) : (s.setCore n v).port = s.port := by unfold State.setCore; split <;> rfl
@[simp] theorem State.setCore_key (s : State) (n : Nat) (v : Core) : (s.setCore n v).key = s.key := by unfold State.setCore; split <;> rfl
@[simp] theorem State.setCore_pk (s : State) (n : Nat) (v : Core) : (s.setCore n v).pk = s.pk := by unfold State.setCore; split <;> rfl
@[simp] theorem State.setCore_mr (s : State) (n : Nat) (v : Core) : (s.setCore n v).mr = s.mr := by unfold State.setCore; split <;> rfl
@[simp] theorem State.setCore_dig (s : State) (n : Nat) (v : Core) : (s.setCore n v).dig = s.dig := by unfold State.setCore; split <;> rfl
@[simp] theorem State.setCore_img (s : State) (n : Nat) (v : Core) : (s.setCore n v).img = s.img := by unfold State.setCore; split <;> rfl
@[simp] theorem State.setCore_grp (s : State) (n : Nat) (v : Core) : (s.setCore n v).grp = s.grp := by unfold State.setCore; split <;> rfl
@[simp] theorem State.dom_setCore (s : State) (n : Nat) (v : Core) (d : Nat) : (s.setCore n v).dom d = s.dom d := by unfold State.setCore; split <;> rfl
@[simp] theorem State.lane_setCore (s : State) (n : Nat) (v : Core) (l : Nat) : (s.setCore n v).lane l = s.lane l := by unfold State.setCore; split <;> rfl
@[simp] theorem State.spare_setCore (s : State) (n : Nat) (v : Core) (l : Nat) : (s.setCore n v).spare l = s.spare l := by unfold State.setCore; split <;> rfl
@[simp] theorem State.quad_setCore (s : State) (n : Nat) (v : Core) (l : Nat) : (s.setCore n v).quad l = s.quad l := by unfold State.setCore; split <;> rfl
@[simp] theorem State.disp_setCore (s : State) (n : Nat) (v : Core) (l : Nat) : (s.setCore n v).disp l = s.disp l := by unfold State.setCore; split <;> rfl
@[simp] theorem State.job_setCore (s : State) (n : Nat) (v : Core) (l : Nat) : (s.setCore n v).job l = s.job l := by unfold State.setCore; split <;> rfl
@[simp] theorem State.aud_setCore (s : State) (n : Nat) (v : Core) (l : Nat) : (s.setCore n v).aud l = s.aud l := by unfold State.setCore; split <;> rfl
@[simp] theorem State.core_setCore (s : State) (n : Nat) (v : Core) : (s.setCore n v).core n = v := by unfold State.setCore State.core; split <;> simp_all
theorem State.core_setCore_other (s : State) (n : Nat) (v : Core) {l : Nat} (h : l ≠ n) : (s.setCore n v).core l = s.core l := by unfold State.setCore State.core; split <;> split <;> simp_all [Tab.look_put_other]
@[simp] theorem State.src_setCore (s : State) (n : Nat) (v : Core) (l : Nat) : (s.setCore n v).src l = s.src l := by unfold State.setCore; split <;> rfl
@[simp] theorem State.hq_setCore (s : State) (n : Nat) (v : Core) (l : Nat) : (s.setCore n v).hq l = s.hq l := by unfold State.setCore; split <;> rfl
@[simp] theorem State.actTab_setCore (s : State) (n : Nat) (v : Core) (l : Nat) : (s.setCore n v).actTab l = s.actTab l := by unfold State.setCore; split <;> rfl
@[simp] theorem State.eng_setCore (s : State) (n : Nat) (v : Core) (l : Nat) : (s.setCore n v).eng l = s.eng l := by unfold State.setCore; split <;> rfl
@[simp] theorem State.bg_setCore (s : State) (n : Nat) (v : Core) (l : Nat) : (s.setCore n v).bg l = s.bg l := by unfold State.setCore; split <;> rfl
@[simp] theorem State.node_setCore (s : State) (n : Nat) (v : Core) (l : Nat) : (s.setCore n v).node l = s.node l := by unfold State.setCore; split <;> rfl
@[simp] theorem State.run_setCore (s : State) (n : Nat) (v : Core) (l : Nat) : (s.setCore n v).run l = s.run l := by unfold State.setCore; split <;> rfl
@[simp] theorem State.repl_setCore (s : State) (n : Nat) (v : Core) (l : Nat) : (s.setCore n v).repl l = s.repl l := by unfold State.setCore; split <;> rfl
@[simp] theorem State.cond_setCore (s : State) (n : Nat) (v : Core) (l : Nat) : (s.setCore n v).cond l = s.cond l := by unfold State.setCore; split <;> rfl
@[simp] theorem State.card_setCore (s : State) (n : Nat) (v : Core) (l : Nat) : (s.setCore n v).card l = s.card l := by unfold State.setCore; split <;> rfl
@[simp] theorem State.mlink_setCore (s : State) (n : Nat) (v : Core) (l : Nat) : (s.setCore n v).mlink l = s.mlink l := by unfold State.setCore; split <;> rfl
@[simp] theorem State.slot_setCore (s : State) (n : Nat) (v : Core) (l : Nat) : (s.setCore n v).slot l = s.slot l := by unfold State.setCore; split <;> rfl
@[simp] theorem State.entW_setCore (s : State) (n : Nat) (v : Core) (x y : Nat) : (s.setCore n v).entW x y = s.entW x y := by unfold State.setCore; split <;> rfl
@[simp] theorem State.num_setCore (s : State) (n : Nat) (v : Core) (x y : Nat) : (s.setCore n v).num x y = s.num x y := by unfold State.setCore; split <;> rfl
@[simp] theorem State.setSup_pending (s : State) (v : SupState) : (s.setSup v).pending = s.pending := rfl
@[simp] theorem State.setSup_dt (s : State) (v : SupState) : (s.setSup v).dt = s.dt := rfl
@[simp] theorem State.setSup_draws (s : State) (v : SupState) : (s.setSup v).draws = s.draws := rfl
@[simp] theorem State.setSup_out (s : State) (v : SupState) : (s.setSup v).out = s.out := rfl
@[simp] theorem State.setSup_regs (s : State) (v : SupState) : (s.setSup v).regs = s.regs := rfl
@[simp] theorem State.setSup_dict (s : State) (v : SupState) : (s.setSup v).dict = s.dict := rfl
@[simp] theorem State.setSup_power (s : State) (v : SupState) : (s.setSup v).power = s.power := rfl
@[simp] theorem State.setSup_rst (s : State) (v : SupState) : (s.setSup v).rst = s.rst := rfl
@[simp] theorem State.setSup_tap (s : State) (v : SupState) : (s.setSup v).tap = s.tap := rfl
@[simp] theorem State.setSup_pins (s : State) (v : SupState) : (s.setSup v).pins = s.pins := rfl
@[simp] theorem State.setSup_nvm (s : State) (v : SupState) : (s.setSup v).nvm = s.nvm := rfl
@[simp] theorem State.setSup_tamper (s : State) (v : SupState) : (s.setSup v).tamper = s.tamper := rfl
@[simp] theorem State.setSup_log (s : State) (v : SupState) : (s.setSup v).log = s.log := rfl
@[simp] theorem State.setSup_act (s : State) (v : SupState) : (s.setSup v).act = s.act := rfl
@[simp] theorem State.setSup_port (s : State) (v : SupState) : (s.setSup v).port = s.port := rfl
@[simp] theorem State.setSup_key (s : State) (v : SupState) : (s.setSup v).key = s.key := rfl
@[simp] theorem State.setSup_pk (s : State) (v : SupState) : (s.setSup v).pk = s.pk := rfl
@[simp] theorem State.setSup_mr (s : State) (v : SupState) : (s.setSup v).mr = s.mr := rfl
@[simp] theorem State.setSup_dig (s : State) (v : SupState) : (s.setSup v).dig = s.dig := rfl
@[simp] theorem State.setSup_img (s : State) (v : SupState) : (s.setSup v).img = s.img := rfl
@[simp] theorem State.setSup_grp (s : State) (v : SupState) : (s.setSup v).grp = s.grp := rfl
@[simp] theorem State.dom_setSup (s : State) (v : SupState) (d : Nat) : (s.setSup v).dom d = s.dom d := rfl
@[simp] theorem State.lane_setSup (s : State) (v : SupState) (l : Nat) : (s.setSup v).lane l = s.lane l := rfl
@[simp] theorem State.spare_setSup (s : State) (v : SupState) (l : Nat) : (s.setSup v).spare l = s.spare l := rfl
@[simp] theorem State.quad_setSup (s : State) (v : SupState) (l : Nat) : (s.setSup v).quad l = s.quad l := rfl
@[simp] theorem State.disp_setSup (s : State) (v : SupState) (l : Nat) : (s.setSup v).disp l = s.disp l := rfl
@[simp] theorem State.job_setSup (s : State) (v : SupState) (l : Nat) : (s.setSup v).job l = s.job l := rfl
@[simp] theorem State.aud_setSup (s : State) (v : SupState) (l : Nat) : (s.setSup v).aud l = s.aud l := rfl
@[simp] theorem State.src_setSup (s : State) (v : SupState) (l : Nat) : (s.setSup v).src l = s.src l := rfl
@[simp] theorem State.hq_setSup (s : State) (v : SupState) (l : Nat) : (s.setSup v).hq l = s.hq l := rfl
@[simp] theorem State.actTab_setSup (s : State) (v : SupState) (l : Nat) : (s.setSup v).actTab l = s.actTab l := rfl
@[simp] theorem State.eng_setSup (s : State) (v : SupState) (l : Nat) : (s.setSup v).eng l = s.eng l := rfl
@[simp] theorem State.bg_setSup (s : State) (v : SupState) (l : Nat) : (s.setSup v).bg l = s.bg l := rfl
@[simp] theorem State.node_setSup (s : State) (v : SupState) (l : Nat) : (s.setSup v).node l = s.node l := rfl
@[simp] theorem State.run_setSup (s : State) (v : SupState) (l : Nat) : (s.setSup v).run l = s.run l := rfl
@[simp] theorem State.repl_setSup (s : State) (v : SupState) (l : Nat) : (s.setSup v).repl l = s.repl l := rfl
@[simp] theorem State.cond_setSup (s : State) (v : SupState) (l : Nat) : (s.setSup v).cond l = s.cond l := rfl
@[simp] theorem State.card_setSup (s : State) (v : SupState) (l : Nat) : (s.setSup v).card l = s.card l := rfl
@[simp] theorem State.mlink_setSup (s : State) (v : SupState) (l : Nat) : (s.setSup v).mlink l = s.mlink l := rfl
@[simp] theorem State.slot_setSup (s : State) (v : SupState) (l : Nat) : (s.setSup v).slot l = s.slot l := rfl
@[simp] theorem State.entW_setSup (s : State) (v : SupState) (x y : Nat) : (s.setSup v).entW x y = s.entW x y := rfl
@[simp] theorem State.num_setSup (s : State) (v : SupState) (x y : Nat) : (s.setSup v).num x y = s.num x y := rfl
@[simp] theorem State.setEpoch_pending (s : State) (v : EpochState) : (s.setEpoch v).pending = s.pending := rfl
@[simp] theorem State.setEpoch_dt (s : State) (v : EpochState) : (s.setEpoch v).dt = s.dt := rfl
@[simp] theorem State.setEpoch_draws (s : State) (v : EpochState) : (s.setEpoch v).draws = s.draws := rfl
@[simp] theorem State.setEpoch_out (s : State) (v : EpochState) : (s.setEpoch v).out = s.out := rfl
@[simp] theorem State.setEpoch_regs (s : State) (v : EpochState) : (s.setEpoch v).regs = s.regs := rfl
@[simp] theorem State.setEpoch_dict (s : State) (v : EpochState) : (s.setEpoch v).dict = s.dict := rfl
@[simp] theorem State.setEpoch_power (s : State) (v : EpochState) : (s.setEpoch v).power = s.power := rfl
@[simp] theorem State.setEpoch_rst (s : State) (v : EpochState) : (s.setEpoch v).rst = s.rst := rfl
@[simp] theorem State.setEpoch_tap (s : State) (v : EpochState) : (s.setEpoch v).tap = s.tap := rfl
@[simp] theorem State.setEpoch_pins (s : State) (v : EpochState) : (s.setEpoch v).pins = s.pins := rfl
@[simp] theorem State.setEpoch_nvm (s : State) (v : EpochState) : (s.setEpoch v).nvm = s.nvm := rfl
@[simp] theorem State.setEpoch_tamper (s : State) (v : EpochState) : (s.setEpoch v).tamper = s.tamper := rfl
@[simp] theorem State.setEpoch_log (s : State) (v : EpochState) : (s.setEpoch v).log = s.log := rfl
@[simp] theorem State.setEpoch_act (s : State) (v : EpochState) : (s.setEpoch v).act = s.act := rfl
@[simp] theorem State.setEpoch_port (s : State) (v : EpochState) : (s.setEpoch v).port = s.port := rfl
@[simp] theorem State.setEpoch_key (s : State) (v : EpochState) : (s.setEpoch v).key = s.key := rfl
@[simp] theorem State.setEpoch_pk (s : State) (v : EpochState) : (s.setEpoch v).pk = s.pk := rfl
@[simp] theorem State.setEpoch_mr (s : State) (v : EpochState) : (s.setEpoch v).mr = s.mr := rfl
@[simp] theorem State.setEpoch_dig (s : State) (v : EpochState) : (s.setEpoch v).dig = s.dig := rfl
@[simp] theorem State.setEpoch_img (s : State) (v : EpochState) : (s.setEpoch v).img = s.img := rfl
@[simp] theorem State.setEpoch_grp (s : State) (v : EpochState) : (s.setEpoch v).grp = s.grp := rfl
@[simp] theorem State.dom_setEpoch (s : State) (v : EpochState) (d : Nat) : (s.setEpoch v).dom d = s.dom d := rfl
@[simp] theorem State.lane_setEpoch (s : State) (v : EpochState) (l : Nat) : (s.setEpoch v).lane l = s.lane l := rfl
@[simp] theorem State.spare_setEpoch (s : State) (v : EpochState) (l : Nat) : (s.setEpoch v).spare l = s.spare l := rfl
@[simp] theorem State.quad_setEpoch (s : State) (v : EpochState) (l : Nat) : (s.setEpoch v).quad l = s.quad l := rfl
@[simp] theorem State.disp_setEpoch (s : State) (v : EpochState) (l : Nat) : (s.setEpoch v).disp l = s.disp l := rfl
@[simp] theorem State.job_setEpoch (s : State) (v : EpochState) (l : Nat) : (s.setEpoch v).job l = s.job l := rfl
@[simp] theorem State.aud_setEpoch (s : State) (v : EpochState) (l : Nat) : (s.setEpoch v).aud l = s.aud l := rfl
@[simp] theorem State.core_setEpoch (s : State) (v : EpochState) (l : Nat) : (s.setEpoch v).core l = s.core l := rfl
@[simp] theorem State.src_setEpoch (s : State) (v : EpochState) (l : Nat) : (s.setEpoch v).src l = s.src l := rfl
@[simp] theorem State.hq_setEpoch (s : State) (v : EpochState) (l : Nat) : (s.setEpoch v).hq l = s.hq l := rfl
@[simp] theorem State.actTab_setEpoch (s : State) (v : EpochState) (l : Nat) : (s.setEpoch v).actTab l = s.actTab l := rfl
@[simp] theorem State.eng_setEpoch (s : State) (v : EpochState) (l : Nat) : (s.setEpoch v).eng l = s.eng l := rfl
@[simp] theorem State.bg_setEpoch (s : State) (v : EpochState) (l : Nat) : (s.setEpoch v).bg l = s.bg l := rfl
@[simp] theorem State.node_setEpoch (s : State) (v : EpochState) (l : Nat) : (s.setEpoch v).node l = s.node l := rfl
@[simp] theorem State.run_setEpoch (s : State) (v : EpochState) (l : Nat) : (s.setEpoch v).run l = s.run l := rfl
@[simp] theorem State.repl_setEpoch (s : State) (v : EpochState) (l : Nat) : (s.setEpoch v).repl l = s.repl l := rfl
@[simp] theorem State.cond_setEpoch (s : State) (v : EpochState) (l : Nat) : (s.setEpoch v).cond l = s.cond l := rfl
@[simp] theorem State.card_setEpoch (s : State) (v : EpochState) (l : Nat) : (s.setEpoch v).card l = s.card l := rfl
@[simp] theorem State.mlink_setEpoch (s : State) (v : EpochState) (l : Nat) : (s.setEpoch v).mlink l = s.mlink l := rfl
@[simp] theorem State.slot_setEpoch (s : State) (v : EpochState) (l : Nat) : (s.setEpoch v).slot l = s.slot l := rfl
@[simp] theorem State.entW_setEpoch (s : State) (v : EpochState) (x y : Nat) : (s.setEpoch v).entW x y = s.entW x y := rfl
@[simp] theorem State.num_setEpoch (s : State) (v : EpochState) (x y : Nat) : (s.setEpoch v).num x y = s.num x y := rfl
@[simp] theorem State.setSrc_pending (s : State) (n : Nat) (v : Source) : (s.setSrc n v).pending = s.pending := rfl
@[simp] theorem State.setSrc_dt (s : State) (n : Nat) (v : Source) : (s.setSrc n v).dt = s.dt := rfl
@[simp] theorem State.setSrc_draws (s : State) (n : Nat) (v : Source) : (s.setSrc n v).draws = s.draws := rfl
@[simp] theorem State.setSrc_out (s : State) (n : Nat) (v : Source) : (s.setSrc n v).out = s.out := rfl
@[simp] theorem State.setSrc_regs (s : State) (n : Nat) (v : Source) : (s.setSrc n v).regs = s.regs := rfl
@[simp] theorem State.setSrc_dict (s : State) (n : Nat) (v : Source) : (s.setSrc n v).dict = s.dict := rfl
@[simp] theorem State.setSrc_power (s : State) (n : Nat) (v : Source) : (s.setSrc n v).power = s.power := rfl
@[simp] theorem State.setSrc_rst (s : State) (n : Nat) (v : Source) : (s.setSrc n v).rst = s.rst := rfl
@[simp] theorem State.setSrc_tap (s : State) (n : Nat) (v : Source) : (s.setSrc n v).tap = s.tap := rfl
@[simp] theorem State.setSrc_pins (s : State) (n : Nat) (v : Source) : (s.setSrc n v).pins = s.pins := rfl
@[simp] theorem State.setSrc_nvm (s : State) (n : Nat) (v : Source) : (s.setSrc n v).nvm = s.nvm := rfl
@[simp] theorem State.setSrc_tamper (s : State) (n : Nat) (v : Source) : (s.setSrc n v).tamper = s.tamper := rfl
@[simp] theorem State.setSrc_log (s : State) (n : Nat) (v : Source) : (s.setSrc n v).log = s.log := rfl
@[simp] theorem State.setSrc_act (s : State) (n : Nat) (v : Source) : (s.setSrc n v).act = s.act := rfl
@[simp] theorem State.setSrc_unit (s : State) (n : Nat) (v : Source) : (s.setSrc n v).unit = s.unit := rfl
@[simp] theorem State.setSrc_key (s : State) (n : Nat) (v : Source) : (s.setSrc n v).key = s.key := rfl
@[simp] theorem State.setSrc_pk (s : State) (n : Nat) (v : Source) : (s.setSrc n v).pk = s.pk := rfl
@[simp] theorem State.setSrc_mr (s : State) (n : Nat) (v : Source) : (s.setSrc n v).mr = s.mr := rfl
@[simp] theorem State.setSrc_dig (s : State) (n : Nat) (v : Source) : (s.setSrc n v).dig = s.dig := rfl
@[simp] theorem State.setSrc_img (s : State) (n : Nat) (v : Source) : (s.setSrc n v).img = s.img := rfl
@[simp] theorem State.setSrc_grp (s : State) (n : Nat) (v : Source) : (s.setSrc n v).grp = s.grp := rfl
@[simp] theorem State.dom_setSrc (s : State) (n : Nat) (v : Source) (d : Nat) : (s.setSrc n v).dom d = s.dom d := rfl
@[simp] theorem State.lane_setSrc (s : State) (n : Nat) (v : Source) (l : Nat) : (s.setSrc n v).lane l = s.lane l := rfl
@[simp] theorem State.spare_setSrc (s : State) (n : Nat) (v : Source) (l : Nat) : (s.setSrc n v).spare l = s.spare l := rfl
@[simp] theorem State.quad_setSrc (s : State) (n : Nat) (v : Source) (l : Nat) : (s.setSrc n v).quad l = s.quad l := rfl
@[simp] theorem State.disp_setSrc (s : State) (n : Nat) (v : Source) (l : Nat) : (s.setSrc n v).disp l = s.disp l := rfl
@[simp] theorem State.job_setSrc (s : State) (n : Nat) (v : Source) (l : Nat) : (s.setSrc n v).job l = s.job l := rfl
@[simp] theorem State.aud_setSrc (s : State) (n : Nat) (v : Source) (l : Nat) : (s.setSrc n v).aud l = s.aud l := rfl
@[simp] theorem State.core_setSrc (s : State) (n : Nat) (v : Source) (l : Nat) : (s.setSrc n v).core l = s.core l := rfl
@[simp] theorem State.src_setSrc (s : State) (n : Nat) (v : Source) : (s.setSrc n v).src n = v := Tab.look_put_same _ _ _ _
theorem State.src_setSrc_other (s : State) (n : Nat) (v : Source) {l : Nat} (h : l ≠ n) : (s.setSrc n v).src l = s.src l := Tab.look_put_other _ _ _ h
@[simp] theorem State.hq_setSrc (s : State) (n : Nat) (v : Source) (l : Nat) : (s.setSrc n v).hq l = s.hq l := rfl
@[simp] theorem State.actTab_setSrc (s : State) (n : Nat) (v : Source) (l : Nat) : (s.setSrc n v).actTab l = s.actTab l := rfl
@[simp] theorem State.eng_setSrc (s : State) (n : Nat) (v : Source) (l : Nat) : (s.setSrc n v).eng l = s.eng l := rfl
@[simp] theorem State.bg_setSrc (s : State) (n : Nat) (v : Source) (l : Nat) : (s.setSrc n v).bg l = s.bg l := rfl
@[simp] theorem State.node_setSrc (s : State) (n : Nat) (v : Source) (l : Nat) : (s.setSrc n v).node l = s.node l := rfl
@[simp] theorem State.run_setSrc (s : State) (n : Nat) (v : Source) (l : Nat) : (s.setSrc n v).run l = s.run l := rfl
@[simp] theorem State.repl_setSrc (s : State) (n : Nat) (v : Source) (l : Nat) : (s.setSrc n v).repl l = s.repl l := rfl
@[simp] theorem State.cond_setSrc (s : State) (n : Nat) (v : Source) (l : Nat) : (s.setSrc n v).cond l = s.cond l := rfl
@[simp] theorem State.card_setSrc (s : State) (n : Nat) (v : Source) (l : Nat) : (s.setSrc n v).card l = s.card l := rfl
@[simp] theorem State.mlink_setSrc (s : State) (n : Nat) (v : Source) (l : Nat) : (s.setSrc n v).mlink l = s.mlink l := rfl
@[simp] theorem State.slot_setSrc (s : State) (n : Nat) (v : Source) (l : Nat) : (s.setSrc n v).slot l = s.slot l := rfl
@[simp] theorem State.entW_setSrc (s : State) (n : Nat) (v : Source) (x y : Nat) : (s.setSrc n v).entW x y = s.entW x y := rfl
@[simp] theorem State.num_setSrc (s : State) (n : Nat) (v : Source) (x y : Nat) : (s.setSrc n v).num x y = s.num x y := rfl
@[simp] theorem State.setHq_pending (s : State) (n : Nat) (v : HostQ) : (s.setHq n v).pending = s.pending := rfl
@[simp] theorem State.setHq_dt (s : State) (n : Nat) (v : HostQ) : (s.setHq n v).dt = s.dt := rfl
@[simp] theorem State.setHq_draws (s : State) (n : Nat) (v : HostQ) : (s.setHq n v).draws = s.draws := rfl
@[simp] theorem State.setHq_out (s : State) (n : Nat) (v : HostQ) : (s.setHq n v).out = s.out := rfl
@[simp] theorem State.setHq_regs (s : State) (n : Nat) (v : HostQ) : (s.setHq n v).regs = s.regs := rfl
@[simp] theorem State.setHq_dict (s : State) (n : Nat) (v : HostQ) : (s.setHq n v).dict = s.dict := rfl
@[simp] theorem State.setHq_power (s : State) (n : Nat) (v : HostQ) : (s.setHq n v).power = s.power := rfl
@[simp] theorem State.setHq_rst (s : State) (n : Nat) (v : HostQ) : (s.setHq n v).rst = s.rst := rfl
@[simp] theorem State.setHq_tap (s : State) (n : Nat) (v : HostQ) : (s.setHq n v).tap = s.tap := rfl
@[simp] theorem State.setHq_pins (s : State) (n : Nat) (v : HostQ) : (s.setHq n v).pins = s.pins := rfl
@[simp] theorem State.setHq_nvm (s : State) (n : Nat) (v : HostQ) : (s.setHq n v).nvm = s.nvm := rfl
@[simp] theorem State.setHq_tamper (s : State) (n : Nat) (v : HostQ) : (s.setHq n v).tamper = s.tamper := rfl
@[simp] theorem State.setHq_log (s : State) (n : Nat) (v : HostQ) : (s.setHq n v).log = s.log := rfl
@[simp] theorem State.setHq_act (s : State) (n : Nat) (v : HostQ) : (s.setHq n v).act = s.act := rfl
@[simp] theorem State.setHq_unit (s : State) (n : Nat) (v : HostQ) : (s.setHq n v).unit = s.unit := rfl
@[simp] theorem State.setHq_key (s : State) (n : Nat) (v : HostQ) : (s.setHq n v).key = s.key := rfl
@[simp] theorem State.setHq_pk (s : State) (n : Nat) (v : HostQ) : (s.setHq n v).pk = s.pk := rfl
@[simp] theorem State.setHq_mr (s : State) (n : Nat) (v : HostQ) : (s.setHq n v).mr = s.mr := rfl
@[simp] theorem State.setHq_dig (s : State) (n : Nat) (v : HostQ) : (s.setHq n v).dig = s.dig := rfl
@[simp] theorem State.setHq_img (s : State) (n : Nat) (v : HostQ) : (s.setHq n v).img = s.img := rfl
@[simp] theorem State.setHq_grp (s : State) (n : Nat) (v : HostQ) : (s.setHq n v).grp = s.grp := rfl
@[simp] theorem State.dom_setHq (s : State) (n : Nat) (v : HostQ) (d : Nat) : (s.setHq n v).dom d = s.dom d := rfl
@[simp] theorem State.lane_setHq (s : State) (n : Nat) (v : HostQ) (l : Nat) : (s.setHq n v).lane l = s.lane l := rfl
@[simp] theorem State.spare_setHq (s : State) (n : Nat) (v : HostQ) (l : Nat) : (s.setHq n v).spare l = s.spare l := rfl
@[simp] theorem State.quad_setHq (s : State) (n : Nat) (v : HostQ) (l : Nat) : (s.setHq n v).quad l = s.quad l := rfl
@[simp] theorem State.disp_setHq (s : State) (n : Nat) (v : HostQ) (l : Nat) : (s.setHq n v).disp l = s.disp l := rfl
@[simp] theorem State.job_setHq (s : State) (n : Nat) (v : HostQ) (l : Nat) : (s.setHq n v).job l = s.job l := rfl
@[simp] theorem State.aud_setHq (s : State) (n : Nat) (v : HostQ) (l : Nat) : (s.setHq n v).aud l = s.aud l := rfl
@[simp] theorem State.core_setHq (s : State) (n : Nat) (v : HostQ) (l : Nat) : (s.setHq n v).core l = s.core l := rfl
@[simp] theorem State.src_setHq (s : State) (n : Nat) (v : HostQ) (l : Nat) : (s.setHq n v).src l = s.src l := rfl
@[simp] theorem State.hq_setHq (s : State) (n : Nat) (v : HostQ) : (s.setHq n v).hq n = v := Tab.look_put_same _ _ _ _
theorem State.hq_setHq_other (s : State) (n : Nat) (v : HostQ) {l : Nat} (h : l ≠ n) : (s.setHq n v).hq l = s.hq l := Tab.look_put_other _ _ _ h
@[simp] theorem State.actTab_setHq (s : State) (n : Nat) (v : HostQ) (l : Nat) : (s.setHq n v).actTab l = s.actTab l := rfl
@[simp] theorem State.eng_setHq (s : State) (n : Nat) (v : HostQ) (l : Nat) : (s.setHq n v).eng l = s.eng l := rfl
@[simp] theorem State.bg_setHq (s : State) (n : Nat) (v : HostQ) (l : Nat) : (s.setHq n v).bg l = s.bg l := rfl
@[simp] theorem State.node_setHq (s : State) (n : Nat) (v : HostQ) (l : Nat) : (s.setHq n v).node l = s.node l := rfl
@[simp] theorem State.run_setHq (s : State) (n : Nat) (v : HostQ) (l : Nat) : (s.setHq n v).run l = s.run l := rfl
@[simp] theorem State.repl_setHq (s : State) (n : Nat) (v : HostQ) (l : Nat) : (s.setHq n v).repl l = s.repl l := rfl
@[simp] theorem State.cond_setHq (s : State) (n : Nat) (v : HostQ) (l : Nat) : (s.setHq n v).cond l = s.cond l := rfl
@[simp] theorem State.card_setHq (s : State) (n : Nat) (v : HostQ) (l : Nat) : (s.setHq n v).card l = s.card l := rfl
@[simp] theorem State.mlink_setHq (s : State) (n : Nat) (v : HostQ) (l : Nat) : (s.setHq n v).mlink l = s.mlink l := rfl
@[simp] theorem State.slot_setHq (s : State) (n : Nat) (v : HostQ) (l : Nat) : (s.setHq n v).slot l = s.slot l := rfl
@[simp] theorem State.entW_setHq (s : State) (n : Nat) (v : HostQ) (x y : Nat) : (s.setHq n v).entW x y = s.entW x y := rfl
@[simp] theorem State.num_setHq (s : State) (n : Nat) (v : HostQ) (x y : Nat) : (s.setHq n v).num x y = s.num x y := rfl
@[simp] theorem State.setCtx_pending (s : State) (p c : Nat) (v : Ctx) : (s.setCtx p c v).pending = s.pending := rfl
@[simp] theorem State.setCtx_dt (s : State) (p c : Nat) (v : Ctx) : (s.setCtx p c v).dt = s.dt := rfl
@[simp] theorem State.setCtx_draws (s : State) (p c : Nat) (v : Ctx) : (s.setCtx p c v).draws = s.draws := rfl
@[simp] theorem State.setCtx_out (s : State) (p c : Nat) (v : Ctx) : (s.setCtx p c v).out = s.out := rfl
@[simp] theorem State.setCtx_regs (s : State) (p c : Nat) (v : Ctx) : (s.setCtx p c v).regs = s.regs := rfl
@[simp] theorem State.setCtx_dict (s : State) (p c : Nat) (v : Ctx) : (s.setCtx p c v).dict = s.dict := rfl
@[simp] theorem State.setCtx_power (s : State) (p c : Nat) (v : Ctx) : (s.setCtx p c v).power = s.power := rfl
@[simp] theorem State.setCtx_rst (s : State) (p c : Nat) (v : Ctx) : (s.setCtx p c v).rst = s.rst := rfl
@[simp] theorem State.setCtx_tap (s : State) (p c : Nat) (v : Ctx) : (s.setCtx p c v).tap = s.tap := rfl
@[simp] theorem State.setCtx_pins (s : State) (p c : Nat) (v : Ctx) : (s.setCtx p c v).pins = s.pins := rfl
@[simp] theorem State.setCtx_nvm (s : State) (p c : Nat) (v : Ctx) : (s.setCtx p c v).nvm = s.nvm := rfl
@[simp] theorem State.setCtx_tamper (s : State) (p c : Nat) (v : Ctx) : (s.setCtx p c v).tamper = s.tamper := rfl
@[simp] theorem State.setCtx_log (s : State) (p c : Nat) (v : Ctx) : (s.setCtx p c v).log = s.log := rfl
@[simp] theorem State.setCtx_act (s : State) (p c : Nat) (v : Ctx) : (s.setCtx p c v).act = s.act := rfl
@[simp] theorem State.setCtx_unit (s : State) (p c : Nat) (v : Ctx) : (s.setCtx p c v).unit = s.unit := rfl
@[simp] theorem State.setCtx_key (s : State) (p c : Nat) (v : Ctx) : (s.setCtx p c v).key = s.key := rfl
@[simp] theorem State.setCtx_pk (s : State) (p c : Nat) (v : Ctx) : (s.setCtx p c v).pk = s.pk := rfl
@[simp] theorem State.setCtx_mr (s : State) (p c : Nat) (v : Ctx) : (s.setCtx p c v).mr = s.mr := rfl
@[simp] theorem State.setCtx_dig (s : State) (p c : Nat) (v : Ctx) : (s.setCtx p c v).dig = s.dig := rfl
@[simp] theorem State.setCtx_img (s : State) (p c : Nat) (v : Ctx) : (s.setCtx p c v).img = s.img := rfl
@[simp] theorem State.setCtx_grp (s : State) (p c : Nat) (v : Ctx) : (s.setCtx p c v).grp = s.grp := rfl
@[simp] theorem State.dom_setCtx (s : State) (p c : Nat) (v : Ctx) (d : Nat) : (s.setCtx p c v).dom d = s.dom d := rfl
@[simp] theorem State.lane_setCtx (s : State) (p c : Nat) (v : Ctx) (l : Nat) : (s.setCtx p c v).lane l = s.lane l := rfl
@[simp] theorem State.spare_setCtx (s : State) (p c : Nat) (v : Ctx) (l : Nat) : (s.setCtx p c v).spare l = s.spare l := rfl
@[simp] theorem State.quad_setCtx (s : State) (p c : Nat) (v : Ctx) (l : Nat) : (s.setCtx p c v).quad l = s.quad l := rfl
@[simp] theorem State.disp_setCtx (s : State) (p c : Nat) (v : Ctx) (l : Nat) : (s.setCtx p c v).disp l = s.disp l := rfl
@[simp] theorem State.job_setCtx (s : State) (p c : Nat) (v : Ctx) (l : Nat) : (s.setCtx p c v).job l = s.job l := rfl
@[simp] theorem State.aud_setCtx (s : State) (p c : Nat) (v : Ctx) (l : Nat) : (s.setCtx p c v).aud l = s.aud l := rfl
@[simp] theorem State.core_setCtx (s : State) (p c : Nat) (v : Ctx) (l : Nat) : (s.setCtx p c v).core l = s.core l := rfl
@[simp] theorem State.hq_setCtx (s : State) (p c : Nat) (v : Ctx) (l : Nat) : (s.setCtx p c v).hq l = s.hq l := rfl
@[simp] theorem State.actTab_setCtx (s : State) (p c : Nat) (v : Ctx) (l : Nat) : (s.setCtx p c v).actTab l = s.actTab l := rfl
@[simp] theorem State.eng_setCtx (s : State) (p c : Nat) (v : Ctx) (l : Nat) : (s.setCtx p c v).eng l = s.eng l := rfl
@[simp] theorem State.bg_setCtx (s : State) (p c : Nat) (v : Ctx) (l : Nat) : (s.setCtx p c v).bg l = s.bg l := rfl
@[simp] theorem State.node_setCtx (s : State) (p c : Nat) (v : Ctx) (l : Nat) : (s.setCtx p c v).node l = s.node l := rfl
@[simp] theorem State.run_setCtx (s : State) (p c : Nat) (v : Ctx) (l : Nat) : (s.setCtx p c v).run l = s.run l := rfl
@[simp] theorem State.repl_setCtx (s : State) (p c : Nat) (v : Ctx) (l : Nat) : (s.setCtx p c v).repl l = s.repl l := rfl
@[simp] theorem State.cond_setCtx (s : State) (p c : Nat) (v : Ctx) (l : Nat) : (s.setCtx p c v).cond l = s.cond l := rfl
@[simp] theorem State.card_setCtx (s : State) (p c : Nat) (v : Ctx) (l : Nat) : (s.setCtx p c v).card l = s.card l := rfl
@[simp] theorem State.mlink_setCtx (s : State) (p c : Nat) (v : Ctx) (l : Nat) : (s.setCtx p c v).mlink l = s.mlink l := rfl
@[simp] theorem State.slot_setCtx (s : State) (p c : Nat) (v : Ctx) (l : Nat) : (s.setCtx p c v).slot l = s.slot l := rfl
@[simp] theorem State.entW_setCtx (s : State) (p c : Nat) (v : Ctx) (x y : Nat) : (s.setCtx p c v).entW x y = s.entW x y := rfl
@[simp] theorem State.num_setCtx (s : State) (p c : Nat) (v : Ctx) (x y : Nat) : (s.setCtx p c v).num x y = s.num x y := rfl
@[simp] theorem State.setActTab_pending (s : State) (n : Nat) (v : ActTable) : (s.setActTab n v).pending = s.pending := rfl
@[simp] theorem State.setActTab_dt (s : State) (n : Nat) (v : ActTable) : (s.setActTab n v).dt = s.dt := rfl
@[simp] theorem State.setActTab_draws (s : State) (n : Nat) (v : ActTable) : (s.setActTab n v).draws = s.draws := rfl
@[simp] theorem State.setActTab_out (s : State) (n : Nat) (v : ActTable) : (s.setActTab n v).out = s.out := rfl
@[simp] theorem State.setActTab_regs (s : State) (n : Nat) (v : ActTable) : (s.setActTab n v).regs = s.regs := rfl
@[simp] theorem State.setActTab_dict (s : State) (n : Nat) (v : ActTable) : (s.setActTab n v).dict = s.dict := rfl
@[simp] theorem State.setActTab_power (s : State) (n : Nat) (v : ActTable) : (s.setActTab n v).power = s.power := rfl
@[simp] theorem State.setActTab_rst (s : State) (n : Nat) (v : ActTable) : (s.setActTab n v).rst = s.rst := rfl
@[simp] theorem State.setActTab_tap (s : State) (n : Nat) (v : ActTable) : (s.setActTab n v).tap = s.tap := rfl
@[simp] theorem State.setActTab_pins (s : State) (n : Nat) (v : ActTable) : (s.setActTab n v).pins = s.pins := rfl
@[simp] theorem State.setActTab_nvm (s : State) (n : Nat) (v : ActTable) : (s.setActTab n v).nvm = s.nvm := rfl
@[simp] theorem State.setActTab_tamper (s : State) (n : Nat) (v : ActTable) : (s.setActTab n v).tamper = s.tamper := rfl
@[simp] theorem State.setActTab_log (s : State) (n : Nat) (v : ActTable) : (s.setActTab n v).log = s.log := rfl
@[simp] theorem State.setActTab_port (s : State) (n : Nat) (v : ActTable) : (s.setActTab n v).port = s.port := rfl
@[simp] theorem State.setActTab_unit (s : State) (n : Nat) (v : ActTable) : (s.setActTab n v).unit = s.unit := rfl
@[simp] theorem State.setActTab_key (s : State) (n : Nat) (v : ActTable) : (s.setActTab n v).key = s.key := rfl
@[simp] theorem State.setActTab_pk (s : State) (n : Nat) (v : ActTable) : (s.setActTab n v).pk = s.pk := rfl
@[simp] theorem State.setActTab_mr (s : State) (n : Nat) (v : ActTable) : (s.setActTab n v).mr = s.mr := rfl
@[simp] theorem State.setActTab_dig (s : State) (n : Nat) (v : ActTable) : (s.setActTab n v).dig = s.dig := rfl
@[simp] theorem State.setActTab_img (s : State) (n : Nat) (v : ActTable) : (s.setActTab n v).img = s.img := rfl
@[simp] theorem State.setActTab_grp (s : State) (n : Nat) (v : ActTable) : (s.setActTab n v).grp = s.grp := rfl
@[simp] theorem State.dom_setActTab (s : State) (n : Nat) (v : ActTable) (d : Nat) : (s.setActTab n v).dom d = s.dom d := rfl
@[simp] theorem State.lane_setActTab (s : State) (n : Nat) (v : ActTable) (l : Nat) : (s.setActTab n v).lane l = s.lane l := rfl
@[simp] theorem State.spare_setActTab (s : State) (n : Nat) (v : ActTable) (l : Nat) : (s.setActTab n v).spare l = s.spare l := rfl
@[simp] theorem State.quad_setActTab (s : State) (n : Nat) (v : ActTable) (l : Nat) : (s.setActTab n v).quad l = s.quad l := rfl
@[simp] theorem State.disp_setActTab (s : State) (n : Nat) (v : ActTable) (l : Nat) : (s.setActTab n v).disp l = s.disp l := rfl
@[simp] theorem State.job_setActTab (s : State) (n : Nat) (v : ActTable) (l : Nat) : (s.setActTab n v).job l = s.job l := rfl
@[simp] theorem State.aud_setActTab (s : State) (n : Nat) (v : ActTable) (l : Nat) : (s.setActTab n v).aud l = s.aud l := rfl
@[simp] theorem State.core_setActTab (s : State) (n : Nat) (v : ActTable) (l : Nat) : (s.setActTab n v).core l = s.core l := rfl
@[simp] theorem State.src_setActTab (s : State) (n : Nat) (v : ActTable) (l : Nat) : (s.setActTab n v).src l = s.src l := rfl
@[simp] theorem State.hq_setActTab (s : State) (n : Nat) (v : ActTable) (l : Nat) : (s.setActTab n v).hq l = s.hq l := rfl
@[simp] theorem State.actTab_setActTab (s : State) (n : Nat) (v : ActTable) : (s.setActTab n v).actTab n = v := Tab.look_put_same _ _ _ _
theorem State.actTab_setActTab_other (s : State) (n : Nat) (v : ActTable) {l : Nat} (h : l ≠ n) : (s.setActTab n v).actTab l = s.actTab l := Tab.look_put_other _ _ _ h
@[simp] theorem State.eng_setActTab (s : State) (n : Nat) (v : ActTable) (l : Nat) : (s.setActTab n v).eng l = s.eng l := rfl
@[simp] theorem State.bg_setActTab (s : State) (n : Nat) (v : ActTable) (l : Nat) : (s.setActTab n v).bg l = s.bg l := rfl
@[simp] theorem State.node_setActTab (s : State) (n : Nat) (v : ActTable) (l : Nat) : (s.setActTab n v).node l = s.node l := rfl
@[simp] theorem State.run_setActTab (s : State) (n : Nat) (v : ActTable) (l : Nat) : (s.setActTab n v).run l = s.run l := rfl
@[simp] theorem State.repl_setActTab (s : State) (n : Nat) (v : ActTable) (l : Nat) : (s.setActTab n v).repl l = s.repl l := rfl
@[simp] theorem State.cond_setActTab (s : State) (n : Nat) (v : ActTable) (l : Nat) : (s.setActTab n v).cond l = s.cond l := rfl
@[simp] theorem State.card_setActTab (s : State) (n : Nat) (v : ActTable) (l : Nat) : (s.setActTab n v).card l = s.card l := rfl
@[simp] theorem State.mlink_setActTab (s : State) (n : Nat) (v : ActTable) (l : Nat) : (s.setActTab n v).mlink l = s.mlink l := rfl
@[simp] theorem State.slot_setActTab (s : State) (n : Nat) (v : ActTable) (l : Nat) : (s.setActTab n v).slot l = s.slot l := rfl
@[simp] theorem State.entW_setActTab (s : State) (n : Nat) (v : ActTable) (x y : Nat) : (s.setActTab n v).entW x y = s.entW x y := rfl
@[simp] theorem State.num_setActTab (s : State) (n : Nat) (v : ActTable) (x y : Nat) : (s.setActTab n v).num x y = s.num x y := rfl
@[simp] theorem State.setWin_pending (s : State) (d n : Nat) (v : Window) : (s.setWin d n v).pending = s.pending := rfl
@[simp] theorem State.setWin_dt (s : State) (d n : Nat) (v : Window) : (s.setWin d n v).dt = s.dt := rfl
@[simp] theorem State.setWin_draws (s : State) (d n : Nat) (v : Window) : (s.setWin d n v).draws = s.draws := rfl
@[simp] theorem State.setWin_out (s : State) (d n : Nat) (v : Window) : (s.setWin d n v).out = s.out := rfl
@[simp] theorem State.setWin_regs (s : State) (d n : Nat) (v : Window) : (s.setWin d n v).regs = s.regs := rfl
@[simp] theorem State.setWin_dict (s : State) (d n : Nat) (v : Window) : (s.setWin d n v).dict = s.dict := rfl
@[simp] theorem State.setWin_power (s : State) (d n : Nat) (v : Window) : (s.setWin d n v).power = s.power := rfl
@[simp] theorem State.setWin_rst (s : State) (d n : Nat) (v : Window) : (s.setWin d n v).rst = s.rst := rfl
@[simp] theorem State.setWin_tap (s : State) (d n : Nat) (v : Window) : (s.setWin d n v).tap = s.tap := rfl
@[simp] theorem State.setWin_pins (s : State) (d n : Nat) (v : Window) : (s.setWin d n v).pins = s.pins := rfl
@[simp] theorem State.setWin_nvm (s : State) (d n : Nat) (v : Window) : (s.setWin d n v).nvm = s.nvm := rfl
@[simp] theorem State.setWin_tamper (s : State) (d n : Nat) (v : Window) : (s.setWin d n v).tamper = s.tamper := rfl
@[simp] theorem State.setWin_log (s : State) (d n : Nat) (v : Window) : (s.setWin d n v).log = s.log := rfl
@[simp] theorem State.setWin_port (s : State) (d n : Nat) (v : Window) : (s.setWin d n v).port = s.port := rfl
@[simp] theorem State.setWin_unit (s : State) (d n : Nat) (v : Window) : (s.setWin d n v).unit = s.unit := rfl
@[simp] theorem State.setWin_key (s : State) (d n : Nat) (v : Window) : (s.setWin d n v).key = s.key := rfl
@[simp] theorem State.setWin_pk (s : State) (d n : Nat) (v : Window) : (s.setWin d n v).pk = s.pk := rfl
@[simp] theorem State.setWin_mr (s : State) (d n : Nat) (v : Window) : (s.setWin d n v).mr = s.mr := rfl
@[simp] theorem State.setWin_dig (s : State) (d n : Nat) (v : Window) : (s.setWin d n v).dig = s.dig := rfl
@[simp] theorem State.setWin_img (s : State) (d n : Nat) (v : Window) : (s.setWin d n v).img = s.img := rfl
@[simp] theorem State.setWin_grp (s : State) (d n : Nat) (v : Window) : (s.setWin d n v).grp = s.grp := rfl
@[simp] theorem State.dom_setWin (s : State) (d n : Nat) (v : Window) (d : Nat) : (s.setWin d n v).dom d = s.dom d := rfl
@[simp] theorem State.lane_setWin (s : State) (d n : Nat) (v : Window) (l : Nat) : (s.setWin d n v).lane l = s.lane l := rfl
@[simp] theorem State.spare_setWin (s : State) (d n : Nat) (v : Window) (l : Nat) : (s.setWin d n v).spare l = s.spare l := rfl
@[simp] theorem State.quad_setWin (s : State) (d n : Nat) (v : Window) (l : Nat) : (s.setWin d n v).quad l = s.quad l := rfl
@[simp] theorem State.disp_setWin (s : State) (d n : Nat) (v : Window) (l : Nat) : (s.setWin d n v).disp l = s.disp l := rfl
@[simp] theorem State.job_setWin (s : State) (d n : Nat) (v : Window) (l : Nat) : (s.setWin d n v).job l = s.job l := rfl
@[simp] theorem State.aud_setWin (s : State) (d n : Nat) (v : Window) (l : Nat) : (s.setWin d n v).aud l = s.aud l := rfl
@[simp] theorem State.core_setWin (s : State) (d n : Nat) (v : Window) (l : Nat) : (s.setWin d n v).core l = s.core l := rfl
@[simp] theorem State.src_setWin (s : State) (d n : Nat) (v : Window) (l : Nat) : (s.setWin d n v).src l = s.src l := rfl
@[simp] theorem State.hq_setWin (s : State) (d n : Nat) (v : Window) (l : Nat) : (s.setWin d n v).hq l = s.hq l := rfl
@[simp] theorem State.eng_setWin (s : State) (d n : Nat) (v : Window) (l : Nat) : (s.setWin d n v).eng l = s.eng l := rfl
@[simp] theorem State.bg_setWin (s : State) (d n : Nat) (v : Window) (l : Nat) : (s.setWin d n v).bg l = s.bg l := rfl
@[simp] theorem State.node_setWin (s : State) (d n : Nat) (v : Window) (l : Nat) : (s.setWin d n v).node l = s.node l := rfl
@[simp] theorem State.run_setWin (s : State) (d n : Nat) (v : Window) (l : Nat) : (s.setWin d n v).run l = s.run l := rfl
@[simp] theorem State.repl_setWin (s : State) (d n : Nat) (v : Window) (l : Nat) : (s.setWin d n v).repl l = s.repl l := rfl
@[simp] theorem State.cond_setWin (s : State) (d n : Nat) (v : Window) (l : Nat) : (s.setWin d n v).cond l = s.cond l := rfl
@[simp] theorem State.card_setWin (s : State) (d n : Nat) (v : Window) (l : Nat) : (s.setWin d n v).card l = s.card l := rfl
@[simp] theorem State.mlink_setWin (s : State) (d n : Nat) (v : Window) (l : Nat) : (s.setWin d n v).mlink l = s.mlink l := rfl
@[simp] theorem State.slot_setWin (s : State) (d n : Nat) (v : Window) (l : Nat) : (s.setWin d n v).slot l = s.slot l := rfl
@[simp] theorem State.entW_setWin (s : State) (d n : Nat) (v : Window) (x y : Nat) : (s.setWin d n v).entW x y = s.entW x y := rfl
@[simp] theorem State.num_setWin (s : State) (d n : Nat) (v : Window) (x y : Nat) : (s.setWin d n v).num x y = s.num x y := rfl
@[simp] theorem State.setEng_pending (s : State) (n : Nat) (v : PkEng) : (s.setEng n v).pending = s.pending := rfl
@[simp] theorem State.setEng_dt (s : State) (n : Nat) (v : PkEng) : (s.setEng n v).dt = s.dt := rfl
@[simp] theorem State.setEng_draws (s : State) (n : Nat) (v : PkEng) : (s.setEng n v).draws = s.draws := rfl
@[simp] theorem State.setEng_out (s : State) (n : Nat) (v : PkEng) : (s.setEng n v).out = s.out := rfl
@[simp] theorem State.setEng_regs (s : State) (n : Nat) (v : PkEng) : (s.setEng n v).regs = s.regs := rfl
@[simp] theorem State.setEng_dict (s : State) (n : Nat) (v : PkEng) : (s.setEng n v).dict = s.dict := rfl
@[simp] theorem State.setEng_power (s : State) (n : Nat) (v : PkEng) : (s.setEng n v).power = s.power := rfl
@[simp] theorem State.setEng_rst (s : State) (n : Nat) (v : PkEng) : (s.setEng n v).rst = s.rst := rfl
@[simp] theorem State.setEng_tap (s : State) (n : Nat) (v : PkEng) : (s.setEng n v).tap = s.tap := rfl
@[simp] theorem State.setEng_pins (s : State) (n : Nat) (v : PkEng) : (s.setEng n v).pins = s.pins := rfl
@[simp] theorem State.setEng_nvm (s : State) (n : Nat) (v : PkEng) : (s.setEng n v).nvm = s.nvm := rfl
@[simp] theorem State.setEng_tamper (s : State) (n : Nat) (v : PkEng) : (s.setEng n v).tamper = s.tamper := rfl
@[simp] theorem State.setEng_log (s : State) (n : Nat) (v : PkEng) : (s.setEng n v).log = s.log := rfl
@[simp] theorem State.setEng_act (s : State) (n : Nat) (v : PkEng) : (s.setEng n v).act = s.act := rfl
@[simp] theorem State.setEng_port (s : State) (n : Nat) (v : PkEng) : (s.setEng n v).port = s.port := rfl
@[simp] theorem State.setEng_unit (s : State) (n : Nat) (v : PkEng) : (s.setEng n v).unit = s.unit := rfl
@[simp] theorem State.setEng_key (s : State) (n : Nat) (v : PkEng) : (s.setEng n v).key = s.key := rfl
@[simp] theorem State.setEng_mr (s : State) (n : Nat) (v : PkEng) : (s.setEng n v).mr = s.mr := rfl
@[simp] theorem State.setEng_dig (s : State) (n : Nat) (v : PkEng) : (s.setEng n v).dig = s.dig := rfl
@[simp] theorem State.setEng_img (s : State) (n : Nat) (v : PkEng) : (s.setEng n v).img = s.img := rfl
@[simp] theorem State.setEng_grp (s : State) (n : Nat) (v : PkEng) : (s.setEng n v).grp = s.grp := rfl
@[simp] theorem State.dom_setEng (s : State) (n : Nat) (v : PkEng) (d : Nat) : (s.setEng n v).dom d = s.dom d := rfl
@[simp] theorem State.lane_setEng (s : State) (n : Nat) (v : PkEng) (l : Nat) : (s.setEng n v).lane l = s.lane l := rfl
@[simp] theorem State.spare_setEng (s : State) (n : Nat) (v : PkEng) (l : Nat) : (s.setEng n v).spare l = s.spare l := rfl
@[simp] theorem State.quad_setEng (s : State) (n : Nat) (v : PkEng) (l : Nat) : (s.setEng n v).quad l = s.quad l := rfl
@[simp] theorem State.disp_setEng (s : State) (n : Nat) (v : PkEng) (l : Nat) : (s.setEng n v).disp l = s.disp l := rfl
@[simp] theorem State.job_setEng (s : State) (n : Nat) (v : PkEng) (l : Nat) : (s.setEng n v).job l = s.job l := rfl
@[simp] theorem State.aud_setEng (s : State) (n : Nat) (v : PkEng) (l : Nat) : (s.setEng n v).aud l = s.aud l := rfl
@[simp] theorem State.core_setEng (s : State) (n : Nat) (v : PkEng) (l : Nat) : (s.setEng n v).core l = s.core l := rfl
@[simp] theorem State.src_setEng (s : State) (n : Nat) (v : PkEng) (l : Nat) : (s.setEng n v).src l = s.src l := rfl
@[simp] theorem State.hq_setEng (s : State) (n : Nat) (v : PkEng) (l : Nat) : (s.setEng n v).hq l = s.hq l := rfl
@[simp] theorem State.actTab_setEng (s : State) (n : Nat) (v : PkEng) (l : Nat) : (s.setEng n v).actTab l = s.actTab l := rfl
@[simp] theorem State.eng_setEng (s : State) (n : Nat) (v : PkEng) : (s.setEng n v).eng n = v := Tab.look_put_same _ _ _ _
theorem State.eng_setEng_other (s : State) (n : Nat) (v : PkEng) {l : Nat} (h : l ≠ n) : (s.setEng n v).eng l = s.eng l := Tab.look_put_other _ _ _ h
@[simp] theorem State.bg_setEng (s : State) (n : Nat) (v : PkEng) (l : Nat) : (s.setEng n v).bg l = s.bg l := rfl
@[simp] theorem State.node_setEng (s : State) (n : Nat) (v : PkEng) (l : Nat) : (s.setEng n v).node l = s.node l := rfl
@[simp] theorem State.run_setEng (s : State) (n : Nat) (v : PkEng) (l : Nat) : (s.setEng n v).run l = s.run l := rfl
@[simp] theorem State.repl_setEng (s : State) (n : Nat) (v : PkEng) (l : Nat) : (s.setEng n v).repl l = s.repl l := rfl
@[simp] theorem State.cond_setEng (s : State) (n : Nat) (v : PkEng) (l : Nat) : (s.setEng n v).cond l = s.cond l := rfl
@[simp] theorem State.card_setEng (s : State) (n : Nat) (v : PkEng) (l : Nat) : (s.setEng n v).card l = s.card l := rfl
@[simp] theorem State.mlink_setEng (s : State) (n : Nat) (v : PkEng) (l : Nat) : (s.setEng n v).mlink l = s.mlink l := rfl
@[simp] theorem State.slot_setEng (s : State) (n : Nat) (v : PkEng) (l : Nat) : (s.setEng n v).slot l = s.slot l := rfl
@[simp] theorem State.entW_setEng (s : State) (n : Nat) (v : PkEng) (x y : Nat) : (s.setEng n v).entW x y = s.entW x y := rfl
@[simp] theorem State.num_setEng (s : State) (n : Nat) (v : PkEng) (x y : Nat) : (s.setEng n v).num x y = s.num x y := rfl
@[simp] theorem State.setBg_pending (s : State) (n : Nat) (v : PkBg) : (s.setBg n v).pending = s.pending := rfl
@[simp] theorem State.setBg_dt (s : State) (n : Nat) (v : PkBg) : (s.setBg n v).dt = s.dt := rfl
@[simp] theorem State.setBg_draws (s : State) (n : Nat) (v : PkBg) : (s.setBg n v).draws = s.draws := rfl
@[simp] theorem State.setBg_out (s : State) (n : Nat) (v : PkBg) : (s.setBg n v).out = s.out := rfl
@[simp] theorem State.setBg_regs (s : State) (n : Nat) (v : PkBg) : (s.setBg n v).regs = s.regs := rfl
@[simp] theorem State.setBg_dict (s : State) (n : Nat) (v : PkBg) : (s.setBg n v).dict = s.dict := rfl
@[simp] theorem State.setBg_power (s : State) (n : Nat) (v : PkBg) : (s.setBg n v).power = s.power := rfl
@[simp] theorem State.setBg_rst (s : State) (n : Nat) (v : PkBg) : (s.setBg n v).rst = s.rst := rfl
@[simp] theorem State.setBg_tap (s : State) (n : Nat) (v : PkBg) : (s.setBg n v).tap = s.tap := rfl
@[simp] theorem State.setBg_pins (s : State) (n : Nat) (v : PkBg) : (s.setBg n v).pins = s.pins := rfl
@[simp] theorem State.setBg_nvm (s : State) (n : Nat) (v : PkBg) : (s.setBg n v).nvm = s.nvm := rfl
@[simp] theorem State.setBg_tamper (s : State) (n : Nat) (v : PkBg) : (s.setBg n v).tamper = s.tamper := rfl
@[simp] theorem State.setBg_log (s : State) (n : Nat) (v : PkBg) : (s.setBg n v).log = s.log := rfl
@[simp] theorem State.setBg_act (s : State) (n : Nat) (v : PkBg) : (s.setBg n v).act = s.act := rfl
@[simp] theorem State.setBg_port (s : State) (n : Nat) (v : PkBg) : (s.setBg n v).port = s.port := rfl
@[simp] theorem State.setBg_unit (s : State) (n : Nat) (v : PkBg) : (s.setBg n v).unit = s.unit := rfl
@[simp] theorem State.setBg_key (s : State) (n : Nat) (v : PkBg) : (s.setBg n v).key = s.key := rfl
@[simp] theorem State.setBg_mr (s : State) (n : Nat) (v : PkBg) : (s.setBg n v).mr = s.mr := rfl
@[simp] theorem State.setBg_dig (s : State) (n : Nat) (v : PkBg) : (s.setBg n v).dig = s.dig := rfl
@[simp] theorem State.setBg_img (s : State) (n : Nat) (v : PkBg) : (s.setBg n v).img = s.img := rfl
@[simp] theorem State.setBg_grp (s : State) (n : Nat) (v : PkBg) : (s.setBg n v).grp = s.grp := rfl
@[simp] theorem State.dom_setBg (s : State) (n : Nat) (v : PkBg) (d : Nat) : (s.setBg n v).dom d = s.dom d := rfl
@[simp] theorem State.lane_setBg (s : State) (n : Nat) (v : PkBg) (l : Nat) : (s.setBg n v).lane l = s.lane l := rfl
@[simp] theorem State.spare_setBg (s : State) (n : Nat) (v : PkBg) (l : Nat) : (s.setBg n v).spare l = s.spare l := rfl
@[simp] theorem State.quad_setBg (s : State) (n : Nat) (v : PkBg) (l : Nat) : (s.setBg n v).quad l = s.quad l := rfl
@[simp] theorem State.disp_setBg (s : State) (n : Nat) (v : PkBg) (l : Nat) : (s.setBg n v).disp l = s.disp l := rfl
@[simp] theorem State.job_setBg (s : State) (n : Nat) (v : PkBg) (l : Nat) : (s.setBg n v).job l = s.job l := rfl
@[simp] theorem State.aud_setBg (s : State) (n : Nat) (v : PkBg) (l : Nat) : (s.setBg n v).aud l = s.aud l := rfl
@[simp] theorem State.core_setBg (s : State) (n : Nat) (v : PkBg) (l : Nat) : (s.setBg n v).core l = s.core l := rfl
@[simp] theorem State.src_setBg (s : State) (n : Nat) (v : PkBg) (l : Nat) : (s.setBg n v).src l = s.src l := rfl
@[simp] theorem State.hq_setBg (s : State) (n : Nat) (v : PkBg) (l : Nat) : (s.setBg n v).hq l = s.hq l := rfl
@[simp] theorem State.actTab_setBg (s : State) (n : Nat) (v : PkBg) (l : Nat) : (s.setBg n v).actTab l = s.actTab l := rfl
@[simp] theorem State.eng_setBg (s : State) (n : Nat) (v : PkBg) (l : Nat) : (s.setBg n v).eng l = s.eng l := rfl
@[simp] theorem State.bg_setBg (s : State) (n : Nat) (v : PkBg) : (s.setBg n v).bg n = v := Tab.look_put_same _ _ _ _
theorem State.bg_setBg_other (s : State) (n : Nat) (v : PkBg) {l : Nat} (h : l ≠ n) : (s.setBg n v).bg l = s.bg l := Tab.look_put_other _ _ _ h
@[simp] theorem State.node_setBg (s : State) (n : Nat) (v : PkBg) (l : Nat) : (s.setBg n v).node l = s.node l := rfl
@[simp] theorem State.run_setBg (s : State) (n : Nat) (v : PkBg) (l : Nat) : (s.setBg n v).run l = s.run l := rfl
@[simp] theorem State.repl_setBg (s : State) (n : Nat) (v : PkBg) (l : Nat) : (s.setBg n v).repl l = s.repl l := rfl
@[simp] theorem State.cond_setBg (s : State) (n : Nat) (v : PkBg) (l : Nat) : (s.setBg n v).cond l = s.cond l := rfl
@[simp] theorem State.card_setBg (s : State) (n : Nat) (v : PkBg) (l : Nat) : (s.setBg n v).card l = s.card l := rfl
@[simp] theorem State.mlink_setBg (s : State) (n : Nat) (v : PkBg) (l : Nat) : (s.setBg n v).mlink l = s.mlink l := rfl
@[simp] theorem State.slot_setBg (s : State) (n : Nat) (v : PkBg) (l : Nat) : (s.setBg n v).slot l = s.slot l := rfl
@[simp] theorem State.entW_setBg (s : State) (n : Nat) (v : PkBg) (x y : Nat) : (s.setBg n v).entW x y = s.entW x y := rfl
@[simp] theorem State.num_setBg (s : State) (n : Nat) (v : PkBg) (x y : Nat) : (s.setBg n v).num x y = s.num x y := rfl
@[simp] theorem State.setNode_pending (s : State) (n : Nat) (v : Node) : (s.setNode n v).pending = s.pending := rfl
@[simp] theorem State.setNode_dt (s : State) (n : Nat) (v : Node) : (s.setNode n v).dt = s.dt := rfl
@[simp] theorem State.setNode_draws (s : State) (n : Nat) (v : Node) : (s.setNode n v).draws = s.draws := rfl
@[simp] theorem State.setNode_out (s : State) (n : Nat) (v : Node) : (s.setNode n v).out = s.out := rfl
@[simp] theorem State.setNode_regs (s : State) (n : Nat) (v : Node) : (s.setNode n v).regs = s.regs := rfl
@[simp] theorem State.setNode_dict (s : State) (n : Nat) (v : Node) : (s.setNode n v).dict = s.dict := rfl
@[simp] theorem State.setNode_power (s : State) (n : Nat) (v : Node) : (s.setNode n v).power = s.power := rfl
@[simp] theorem State.setNode_rst (s : State) (n : Nat) (v : Node) : (s.setNode n v).rst = s.rst := rfl
@[simp] theorem State.setNode_tap (s : State) (n : Nat) (v : Node) : (s.setNode n v).tap = s.tap := rfl
@[simp] theorem State.setNode_pins (s : State) (n : Nat) (v : Node) : (s.setNode n v).pins = s.pins := rfl
@[simp] theorem State.setNode_nvm (s : State) (n : Nat) (v : Node) : (s.setNode n v).nvm = s.nvm := rfl
@[simp] theorem State.setNode_tamper (s : State) (n : Nat) (v : Node) : (s.setNode n v).tamper = s.tamper := rfl
@[simp] theorem State.setNode_log (s : State) (n : Nat) (v : Node) : (s.setNode n v).log = s.log := rfl
@[simp] theorem State.setNode_act (s : State) (n : Nat) (v : Node) : (s.setNode n v).act = s.act := rfl
@[simp] theorem State.setNode_port (s : State) (n : Nat) (v : Node) : (s.setNode n v).port = s.port := rfl
@[simp] theorem State.setNode_unit (s : State) (n : Nat) (v : Node) : (s.setNode n v).unit = s.unit := rfl
@[simp] theorem State.setNode_pk (s : State) (n : Nat) (v : Node) : (s.setNode n v).pk = s.pk := rfl
@[simp] theorem State.setNode_mr (s : State) (n : Nat) (v : Node) : (s.setNode n v).mr = s.mr := rfl
@[simp] theorem State.setNode_dig (s : State) (n : Nat) (v : Node) : (s.setNode n v).dig = s.dig := rfl
@[simp] theorem State.setNode_img (s : State) (n : Nat) (v : Node) : (s.setNode n v).img = s.img := rfl
@[simp] theorem State.setNode_grp (s : State) (n : Nat) (v : Node) : (s.setNode n v).grp = s.grp := rfl
@[simp] theorem State.dom_setNode (s : State) (n : Nat) (v : Node) (d : Nat) : (s.setNode n v).dom d = s.dom d := rfl
@[simp] theorem State.lane_setNode (s : State) (n : Nat) (v : Node) (l : Nat) : (s.setNode n v).lane l = s.lane l := rfl
@[simp] theorem State.spare_setNode (s : State) (n : Nat) (v : Node) (l : Nat) : (s.setNode n v).spare l = s.spare l := rfl
@[simp] theorem State.quad_setNode (s : State) (n : Nat) (v : Node) (l : Nat) : (s.setNode n v).quad l = s.quad l := rfl
@[simp] theorem State.disp_setNode (s : State) (n : Nat) (v : Node) (l : Nat) : (s.setNode n v).disp l = s.disp l := rfl
@[simp] theorem State.job_setNode (s : State) (n : Nat) (v : Node) (l : Nat) : (s.setNode n v).job l = s.job l := rfl
@[simp] theorem State.aud_setNode (s : State) (n : Nat) (v : Node) (l : Nat) : (s.setNode n v).aud l = s.aud l := rfl
@[simp] theorem State.core_setNode (s : State) (n : Nat) (v : Node) (l : Nat) : (s.setNode n v).core l = s.core l := rfl
@[simp] theorem State.src_setNode (s : State) (n : Nat) (v : Node) (l : Nat) : (s.setNode n v).src l = s.src l := rfl
@[simp] theorem State.hq_setNode (s : State) (n : Nat) (v : Node) (l : Nat) : (s.setNode n v).hq l = s.hq l := rfl
@[simp] theorem State.actTab_setNode (s : State) (n : Nat) (v : Node) (l : Nat) : (s.setNode n v).actTab l = s.actTab l := rfl
@[simp] theorem State.eng_setNode (s : State) (n : Nat) (v : Node) (l : Nat) : (s.setNode n v).eng l = s.eng l := rfl
@[simp] theorem State.bg_setNode (s : State) (n : Nat) (v : Node) (l : Nat) : (s.setNode n v).bg l = s.bg l := rfl
@[simp] theorem State.node_setNode (s : State) (n : Nat) (v : Node) : (s.setNode n v).node n = v := Tab.look_put_same _ _ _ _
theorem State.node_setNode_other (s : State) (n : Nat) (v : Node) {l : Nat} (h : l ≠ n) : (s.setNode n v).node l = s.node l := Tab.look_put_other _ _ _ h
@[simp] theorem State.run_setNode (s : State) (n : Nat) (v : Node) (l : Nat) : (s.setNode n v).run l = s.run l := rfl
@[simp] theorem State.repl_setNode (s : State) (n : Nat) (v : Node) (l : Nat) : (s.setNode n v).repl l = s.repl l := rfl
@[simp] theorem State.cond_setNode (s : State) (n : Nat) (v : Node) (l : Nat) : (s.setNode n v).cond l = s.cond l := rfl
@[simp] theorem State.card_setNode (s : State) (n : Nat) (v : Node) (l : Nat) : (s.setNode n v).card l = s.card l := rfl
@[simp] theorem State.mlink_setNode (s : State) (n : Nat) (v : Node) (l : Nat) : (s.setNode n v).mlink l = s.mlink l := rfl
@[simp] theorem State.slot_setNode (s : State) (n : Nat) (v : Node) (l : Nat) : (s.setNode n v).slot l = s.slot l := rfl
@[simp] theorem State.entW_setNode (s : State) (n : Nat) (v : Node) (x y : Nat) : (s.setNode n v).entW x y = s.entW x y := rfl
@[simp] theorem State.num_setNode (s : State) (n : Nat) (v : Node) (x y : Nat) : (s.setNode n v).num x y = s.num x y := rfl
@[simp] theorem State.setRun_pending (s : State) (n : Nat) (v : KRun) : (s.setRun n v).pending = s.pending := rfl
@[simp] theorem State.setRun_dt (s : State) (n : Nat) (v : KRun) : (s.setRun n v).dt = s.dt := rfl
@[simp] theorem State.setRun_draws (s : State) (n : Nat) (v : KRun) : (s.setRun n v).draws = s.draws := rfl
@[simp] theorem State.setRun_out (s : State) (n : Nat) (v : KRun) : (s.setRun n v).out = s.out := rfl
@[simp] theorem State.setRun_regs (s : State) (n : Nat) (v : KRun) : (s.setRun n v).regs = s.regs := rfl
@[simp] theorem State.setRun_dict (s : State) (n : Nat) (v : KRun) : (s.setRun n v).dict = s.dict := rfl
@[simp] theorem State.setRun_power (s : State) (n : Nat) (v : KRun) : (s.setRun n v).power = s.power := rfl
@[simp] theorem State.setRun_rst (s : State) (n : Nat) (v : KRun) : (s.setRun n v).rst = s.rst := rfl
@[simp] theorem State.setRun_tap (s : State) (n : Nat) (v : KRun) : (s.setRun n v).tap = s.tap := rfl
@[simp] theorem State.setRun_pins (s : State) (n : Nat) (v : KRun) : (s.setRun n v).pins = s.pins := rfl
@[simp] theorem State.setRun_nvm (s : State) (n : Nat) (v : KRun) : (s.setRun n v).nvm = s.nvm := rfl
@[simp] theorem State.setRun_tamper (s : State) (n : Nat) (v : KRun) : (s.setRun n v).tamper = s.tamper := rfl
@[simp] theorem State.setRun_log (s : State) (n : Nat) (v : KRun) : (s.setRun n v).log = s.log := rfl
@[simp] theorem State.setRun_act (s : State) (n : Nat) (v : KRun) : (s.setRun n v).act = s.act := rfl
@[simp] theorem State.setRun_port (s : State) (n : Nat) (v : KRun) : (s.setRun n v).port = s.port := rfl
@[simp] theorem State.setRun_unit (s : State) (n : Nat) (v : KRun) : (s.setRun n v).unit = s.unit := rfl
@[simp] theorem State.setRun_pk (s : State) (n : Nat) (v : KRun) : (s.setRun n v).pk = s.pk := rfl
@[simp] theorem State.setRun_mr (s : State) (n : Nat) (v : KRun) : (s.setRun n v).mr = s.mr := rfl
@[simp] theorem State.setRun_dig (s : State) (n : Nat) (v : KRun) : (s.setRun n v).dig = s.dig := rfl
@[simp] theorem State.setRun_img (s : State) (n : Nat) (v : KRun) : (s.setRun n v).img = s.img := rfl
@[simp] theorem State.setRun_grp (s : State) (n : Nat) (v : KRun) : (s.setRun n v).grp = s.grp := rfl
@[simp] theorem State.dom_setRun (s : State) (n : Nat) (v : KRun) (d : Nat) : (s.setRun n v).dom d = s.dom d := rfl
@[simp] theorem State.lane_setRun (s : State) (n : Nat) (v : KRun) (l : Nat) : (s.setRun n v).lane l = s.lane l := rfl
@[simp] theorem State.spare_setRun (s : State) (n : Nat) (v : KRun) (l : Nat) : (s.setRun n v).spare l = s.spare l := rfl
@[simp] theorem State.quad_setRun (s : State) (n : Nat) (v : KRun) (l : Nat) : (s.setRun n v).quad l = s.quad l := rfl
@[simp] theorem State.disp_setRun (s : State) (n : Nat) (v : KRun) (l : Nat) : (s.setRun n v).disp l = s.disp l := rfl
@[simp] theorem State.job_setRun (s : State) (n : Nat) (v : KRun) (l : Nat) : (s.setRun n v).job l = s.job l := rfl
@[simp] theorem State.aud_setRun (s : State) (n : Nat) (v : KRun) (l : Nat) : (s.setRun n v).aud l = s.aud l := rfl
@[simp] theorem State.core_setRun (s : State) (n : Nat) (v : KRun) (l : Nat) : (s.setRun n v).core l = s.core l := rfl
@[simp] theorem State.src_setRun (s : State) (n : Nat) (v : KRun) (l : Nat) : (s.setRun n v).src l = s.src l := rfl
@[simp] theorem State.hq_setRun (s : State) (n : Nat) (v : KRun) (l : Nat) : (s.setRun n v).hq l = s.hq l := rfl
@[simp] theorem State.actTab_setRun (s : State) (n : Nat) (v : KRun) (l : Nat) : (s.setRun n v).actTab l = s.actTab l := rfl
@[simp] theorem State.eng_setRun (s : State) (n : Nat) (v : KRun) (l : Nat) : (s.setRun n v).eng l = s.eng l := rfl
@[simp] theorem State.bg_setRun (s : State) (n : Nat) (v : KRun) (l : Nat) : (s.setRun n v).bg l = s.bg l := rfl
@[simp] theorem State.node_setRun (s : State) (n : Nat) (v : KRun) (l : Nat) : (s.setRun n v).node l = s.node l := rfl
@[simp] theorem State.run_setRun (s : State) (n : Nat) (v : KRun) : (s.setRun n v).run n = v := Tab.look_put_same _ _ _ _
theorem State.run_setRun_other (s : State) (n : Nat) (v : KRun) {l : Nat} (h : l ≠ n) : (s.setRun n v).run l = s.run l := Tab.look_put_other _ _ _ h
@[simp] theorem State.repl_setRun (s : State) (n : Nat) (v : KRun) (l : Nat) : (s.setRun n v).repl l = s.repl l := rfl
@[simp] theorem State.cond_setRun (s : State) (n : Nat) (v : KRun) (l : Nat) : (s.setRun n v).cond l = s.cond l := rfl
@[simp] theorem State.card_setRun (s : State) (n : Nat) (v : KRun) (l : Nat) : (s.setRun n v).card l = s.card l := rfl
@[simp] theorem State.mlink_setRun (s : State) (n : Nat) (v : KRun) (l : Nat) : (s.setRun n v).mlink l = s.mlink l := rfl
@[simp] theorem State.slot_setRun (s : State) (n : Nat) (v : KRun) (l : Nat) : (s.setRun n v).slot l = s.slot l := rfl
@[simp] theorem State.entW_setRun (s : State) (n : Nat) (v : KRun) (x y : Nat) : (s.setRun n v).entW x y = s.entW x y := rfl
@[simp] theorem State.num_setRun (s : State) (n : Nat) (v : KRun) (x y : Nat) : (s.setRun n v).num x y = s.num x y := rfl
@[simp] theorem State.setRepl_pending (s : State) (n : Nat) (v : Repl) : (s.setRepl n v).pending = s.pending := rfl
@[simp] theorem State.setRepl_dt (s : State) (n : Nat) (v : Repl) : (s.setRepl n v).dt = s.dt := rfl
@[simp] theorem State.setRepl_draws (s : State) (n : Nat) (v : Repl) : (s.setRepl n v).draws = s.draws := rfl
@[simp] theorem State.setRepl_out (s : State) (n : Nat) (v : Repl) : (s.setRepl n v).out = s.out := rfl
@[simp] theorem State.setRepl_regs (s : State) (n : Nat) (v : Repl) : (s.setRepl n v).regs = s.regs := rfl
@[simp] theorem State.setRepl_dict (s : State) (n : Nat) (v : Repl) : (s.setRepl n v).dict = s.dict := rfl
@[simp] theorem State.setRepl_power (s : State) (n : Nat) (v : Repl) : (s.setRepl n v).power = s.power := rfl
@[simp] theorem State.setRepl_rst (s : State) (n : Nat) (v : Repl) : (s.setRepl n v).rst = s.rst := rfl
@[simp] theorem State.setRepl_tap (s : State) (n : Nat) (v : Repl) : (s.setRepl n v).tap = s.tap := rfl
@[simp] theorem State.setRepl_pins (s : State) (n : Nat) (v : Repl) : (s.setRepl n v).pins = s.pins := rfl
@[simp] theorem State.setRepl_nvm (s : State) (n : Nat) (v : Repl) : (s.setRepl n v).nvm = s.nvm := rfl
@[simp] theorem State.setRepl_tamper (s : State) (n : Nat) (v : Repl) : (s.setRepl n v).tamper = s.tamper := rfl
@[simp] theorem State.setRepl_log (s : State) (n : Nat) (v : Repl) : (s.setRepl n v).log = s.log := rfl
@[simp] theorem State.setRepl_act (s : State) (n : Nat) (v : Repl) : (s.setRepl n v).act = s.act := rfl
@[simp] theorem State.setRepl_port (s : State) (n : Nat) (v : Repl) : (s.setRepl n v).port = s.port := rfl
@[simp] theorem State.setRepl_unit (s : State) (n : Nat) (v : Repl) : (s.setRepl n v).unit = s.unit := rfl
@[simp] theorem State.setRepl_pk (s : State) (n : Nat) (v : Repl) : (s.setRepl n v).pk = s.pk := rfl
@[simp] theorem State.setRepl_mr (s : State) (n : Nat) (v : Repl) : (s.setRepl n v).mr = s.mr := rfl
@[simp] theorem State.setRepl_dig (s : State) (n : Nat) (v : Repl) : (s.setRepl n v).dig = s.dig := rfl
@[simp] theorem State.setRepl_img (s : State) (n : Nat) (v : Repl) : (s.setRepl n v).img = s.img := rfl
@[simp] theorem State.setRepl_grp (s : State) (n : Nat) (v : Repl) : (s.setRepl n v).grp = s.grp := rfl
@[simp] theorem State.dom_setRepl (s : State) (n : Nat) (v : Repl) (d : Nat) : (s.setRepl n v).dom d = s.dom d := rfl
@[simp] theorem State.lane_setRepl (s : State) (n : Nat) (v : Repl) (l : Nat) : (s.setRepl n v).lane l = s.lane l := rfl
@[simp] theorem State.spare_setRepl (s : State) (n : Nat) (v : Repl) (l : Nat) : (s.setRepl n v).spare l = s.spare l := rfl
@[simp] theorem State.quad_setRepl (s : State) (n : Nat) (v : Repl) (l : Nat) : (s.setRepl n v).quad l = s.quad l := rfl
@[simp] theorem State.disp_setRepl (s : State) (n : Nat) (v : Repl) (l : Nat) : (s.setRepl n v).disp l = s.disp l := rfl
@[simp] theorem State.job_setRepl (s : State) (n : Nat) (v : Repl) (l : Nat) : (s.setRepl n v).job l = s.job l := rfl
@[simp] theorem State.aud_setRepl (s : State) (n : Nat) (v : Repl) (l : Nat) : (s.setRepl n v).aud l = s.aud l := rfl
@[simp] theorem State.core_setRepl (s : State) (n : Nat) (v : Repl) (l : Nat) : (s.setRepl n v).core l = s.core l := rfl
@[simp] theorem State.src_setRepl (s : State) (n : Nat) (v : Repl) (l : Nat) : (s.setRepl n v).src l = s.src l := rfl
@[simp] theorem State.hq_setRepl (s : State) (n : Nat) (v : Repl) (l : Nat) : (s.setRepl n v).hq l = s.hq l := rfl
@[simp] theorem State.actTab_setRepl (s : State) (n : Nat) (v : Repl) (l : Nat) : (s.setRepl n v).actTab l = s.actTab l := rfl
@[simp] theorem State.eng_setRepl (s : State) (n : Nat) (v : Repl) (l : Nat) : (s.setRepl n v).eng l = s.eng l := rfl
@[simp] theorem State.bg_setRepl (s : State) (n : Nat) (v : Repl) (l : Nat) : (s.setRepl n v).bg l = s.bg l := rfl
@[simp] theorem State.node_setRepl (s : State) (n : Nat) (v : Repl) (l : Nat) : (s.setRepl n v).node l = s.node l := rfl
@[simp] theorem State.run_setRepl (s : State) (n : Nat) (v : Repl) (l : Nat) : (s.setRepl n v).run l = s.run l := rfl
@[simp] theorem State.repl_setRepl (s : State) (n : Nat) (v : Repl) : (s.setRepl n v).repl n = v := Tab.look_place_same _ _ _ _
theorem State.repl_setRepl_other (s : State) (n : Nat) (v : Repl) {l : Nat} (h : l ≠ n) : (s.setRepl n v).repl l = s.repl l := Tab.look_place_other _ _ _ h
@[simp] theorem State.cond_setRepl (s : State) (n : Nat) (v : Repl) (l : Nat) : (s.setRepl n v).cond l = s.cond l := rfl
@[simp] theorem State.card_setRepl (s : State) (n : Nat) (v : Repl) (l : Nat) : (s.setRepl n v).card l = s.card l := rfl
@[simp] theorem State.mlink_setRepl (s : State) (n : Nat) (v : Repl) (l : Nat) : (s.setRepl n v).mlink l = s.mlink l := rfl
@[simp] theorem State.slot_setRepl (s : State) (n : Nat) (v : Repl) (l : Nat) : (s.setRepl n v).slot l = s.slot l := rfl
@[simp] theorem State.entW_setRepl (s : State) (n : Nat) (v : Repl) (x y : Nat) : (s.setRepl n v).entW x y = s.entW x y := rfl
@[simp] theorem State.num_setRepl (s : State) (n : Nat) (v : Repl) (x y : Nat) : (s.setRepl n v).num x y = s.num x y := rfl
@[simp] theorem State.setCond_pending (s : State) (n : Nat) (v : Cond) : (s.setCond n v).pending = s.pending := rfl
@[simp] theorem State.setCond_dt (s : State) (n : Nat) (v : Cond) : (s.setCond n v).dt = s.dt := rfl
@[simp] theorem State.setCond_draws (s : State) (n : Nat) (v : Cond) : (s.setCond n v).draws = s.draws := rfl
@[simp] theorem State.setCond_out (s : State) (n : Nat) (v : Cond) : (s.setCond n v).out = s.out := rfl
@[simp] theorem State.setCond_regs (s : State) (n : Nat) (v : Cond) : (s.setCond n v).regs = s.regs := rfl
@[simp] theorem State.setCond_dict (s : State) (n : Nat) (v : Cond) : (s.setCond n v).dict = s.dict := rfl
@[simp] theorem State.setCond_power (s : State) (n : Nat) (v : Cond) : (s.setCond n v).power = s.power := rfl
@[simp] theorem State.setCond_rst (s : State) (n : Nat) (v : Cond) : (s.setCond n v).rst = s.rst := rfl
@[simp] theorem State.setCond_tap (s : State) (n : Nat) (v : Cond) : (s.setCond n v).tap = s.tap := rfl
@[simp] theorem State.setCond_pins (s : State) (n : Nat) (v : Cond) : (s.setCond n v).pins = s.pins := rfl
@[simp] theorem State.setCond_nvm (s : State) (n : Nat) (v : Cond) : (s.setCond n v).nvm = s.nvm := rfl
@[simp] theorem State.setCond_log (s : State) (n : Nat) (v : Cond) : (s.setCond n v).log = s.log := rfl
@[simp] theorem State.setCond_act (s : State) (n : Nat) (v : Cond) : (s.setCond n v).act = s.act := rfl
@[simp] theorem State.setCond_port (s : State) (n : Nat) (v : Cond) : (s.setCond n v).port = s.port := rfl
@[simp] theorem State.setCond_unit (s : State) (n : Nat) (v : Cond) : (s.setCond n v).unit = s.unit := rfl
@[simp] theorem State.setCond_key (s : State) (n : Nat) (v : Cond) : (s.setCond n v).key = s.key := rfl
@[simp] theorem State.setCond_pk (s : State) (n : Nat) (v : Cond) : (s.setCond n v).pk = s.pk := rfl
@[simp] theorem State.setCond_mr (s : State) (n : Nat) (v : Cond) : (s.setCond n v).mr = s.mr := rfl
@[simp] theorem State.setCond_dig (s : State) (n : Nat) (v : Cond) : (s.setCond n v).dig = s.dig := rfl
@[simp] theorem State.setCond_img (s : State) (n : Nat) (v : Cond) : (s.setCond n v).img = s.img := rfl
@[simp] theorem State.setCond_grp (s : State) (n : Nat) (v : Cond) : (s.setCond n v).grp = s.grp := rfl
@[simp] theorem State.dom_setCond (s : State) (n : Nat) (v : Cond) (d : Nat) : (s.setCond n v).dom d = s.dom d := rfl
@[simp] theorem State.lane_setCond (s : State) (n : Nat) (v : Cond) (l : Nat) : (s.setCond n v).lane l = s.lane l := rfl
@[simp] theorem State.spare_setCond (s : State) (n : Nat) (v : Cond) (l : Nat) : (s.setCond n v).spare l = s.spare l := rfl
@[simp] theorem State.quad_setCond (s : State) (n : Nat) (v : Cond) (l : Nat) : (s.setCond n v).quad l = s.quad l := rfl
@[simp] theorem State.disp_setCond (s : State) (n : Nat) (v : Cond) (l : Nat) : (s.setCond n v).disp l = s.disp l := rfl
@[simp] theorem State.job_setCond (s : State) (n : Nat) (v : Cond) (l : Nat) : (s.setCond n v).job l = s.job l := rfl
@[simp] theorem State.aud_setCond (s : State) (n : Nat) (v : Cond) (l : Nat) : (s.setCond n v).aud l = s.aud l := rfl
@[simp] theorem State.core_setCond (s : State) (n : Nat) (v : Cond) (l : Nat) : (s.setCond n v).core l = s.core l := rfl
@[simp] theorem State.src_setCond (s : State) (n : Nat) (v : Cond) (l : Nat) : (s.setCond n v).src l = s.src l := rfl
@[simp] theorem State.hq_setCond (s : State) (n : Nat) (v : Cond) (l : Nat) : (s.setCond n v).hq l = s.hq l := rfl
@[simp] theorem State.actTab_setCond (s : State) (n : Nat) (v : Cond) (l : Nat) : (s.setCond n v).actTab l = s.actTab l := rfl
@[simp] theorem State.eng_setCond (s : State) (n : Nat) (v : Cond) (l : Nat) : (s.setCond n v).eng l = s.eng l := rfl
@[simp] theorem State.bg_setCond (s : State) (n : Nat) (v : Cond) (l : Nat) : (s.setCond n v).bg l = s.bg l := rfl
@[simp] theorem State.node_setCond (s : State) (n : Nat) (v : Cond) (l : Nat) : (s.setCond n v).node l = s.node l := rfl
@[simp] theorem State.run_setCond (s : State) (n : Nat) (v : Cond) (l : Nat) : (s.setCond n v).run l = s.run l := rfl
@[simp] theorem State.repl_setCond (s : State) (n : Nat) (v : Cond) (l : Nat) : (s.setCond n v).repl l = s.repl l := rfl
@[simp] theorem State.cond_setCond (s : State) (n : Nat) (v : Cond) : (s.setCond n v).cond n = v := Tab.look_put_same _ _ _ _
theorem State.cond_setCond_other (s : State) (n : Nat) (v : Cond) {l : Nat} (h : l ≠ n) : (s.setCond n v).cond l = s.cond l := Tab.look_put_other _ _ _ h
@[simp] theorem State.card_setCond (s : State) (n : Nat) (v : Cond) (l : Nat) : (s.setCond n v).card l = s.card l := rfl
@[simp] theorem State.mlink_setCond (s : State) (n : Nat) (v : Cond) (l : Nat) : (s.setCond n v).mlink l = s.mlink l := rfl
@[simp] theorem State.slot_setCond (s : State) (n : Nat) (v : Cond) (l : Nat) : (s.setCond n v).slot l = s.slot l := rfl
@[simp] theorem State.entW_setCond (s : State) (n : Nat) (v : Cond) (x y : Nat) : (s.setCond n v).entW x y = s.entW x y := rfl
@[simp] theorem State.num_setCond (s : State) (n : Nat) (v : Cond) (x y : Nat) : (s.setCond n v).num x y = s.num x y := rfl
@[simp] theorem State.setCard_pending (s : State) (n : Nat) (v : Card) : (s.setCard n v).pending = s.pending := rfl
@[simp] theorem State.setCard_dt (s : State) (n : Nat) (v : Card) : (s.setCard n v).dt = s.dt := rfl
@[simp] theorem State.setCard_draws (s : State) (n : Nat) (v : Card) : (s.setCard n v).draws = s.draws := rfl
@[simp] theorem State.setCard_out (s : State) (n : Nat) (v : Card) : (s.setCard n v).out = s.out := rfl
@[simp] theorem State.setCard_regs (s : State) (n : Nat) (v : Card) : (s.setCard n v).regs = s.regs := rfl
@[simp] theorem State.setCard_dict (s : State) (n : Nat) (v : Card) : (s.setCard n v).dict = s.dict := rfl
@[simp] theorem State.setCard_power (s : State) (n : Nat) (v : Card) : (s.setCard n v).power = s.power := rfl
@[simp] theorem State.setCard_rst (s : State) (n : Nat) (v : Card) : (s.setCard n v).rst = s.rst := rfl
@[simp] theorem State.setCard_tap (s : State) (n : Nat) (v : Card) : (s.setCard n v).tap = s.tap := rfl
@[simp] theorem State.setCard_pins (s : State) (n : Nat) (v : Card) : (s.setCard n v).pins = s.pins := rfl
@[simp] theorem State.setCard_nvm (s : State) (n : Nat) (v : Card) : (s.setCard n v).nvm = s.nvm := rfl
@[simp] theorem State.setCard_tamper (s : State) (n : Nat) (v : Card) : (s.setCard n v).tamper = s.tamper := rfl
@[simp] theorem State.setCard_log (s : State) (n : Nat) (v : Card) : (s.setCard n v).log = s.log := rfl
@[simp] theorem State.setCard_act (s : State) (n : Nat) (v : Card) : (s.setCard n v).act = s.act := rfl
@[simp] theorem State.setCard_port (s : State) (n : Nat) (v : Card) : (s.setCard n v).port = s.port := rfl
@[simp] theorem State.setCard_unit (s : State) (n : Nat) (v : Card) : (s.setCard n v).unit = s.unit := rfl
@[simp] theorem State.setCard_key (s : State) (n : Nat) (v : Card) : (s.setCard n v).key = s.key := rfl
@[simp] theorem State.setCard_pk (s : State) (n : Nat) (v : Card) : (s.setCard n v).pk = s.pk := rfl
@[simp] theorem State.setCard_mr (s : State) (n : Nat) (v : Card) : (s.setCard n v).mr = s.mr := rfl
@[simp] theorem State.setCard_dig (s : State) (n : Nat) (v : Card) : (s.setCard n v).dig = s.dig := rfl
@[simp] theorem State.setCard_img (s : State) (n : Nat) (v : Card) : (s.setCard n v).img = s.img := rfl
@[simp] theorem State.dom_setCard (s : State) (n : Nat) (v : Card) (d : Nat) : (s.setCard n v).dom d = s.dom d := rfl
@[simp] theorem State.lane_setCard (s : State) (n : Nat) (v : Card) (l : Nat) : (s.setCard n v).lane l = s.lane l := rfl
@[simp] theorem State.spare_setCard (s : State) (n : Nat) (v : Card) (l : Nat) : (s.setCard n v).spare l = s.spare l := rfl
@[simp] theorem State.quad_setCard (s : State) (n : Nat) (v : Card) (l : Nat) : (s.setCard n v).quad l = s.quad l := rfl
@[simp] theorem State.disp_setCard (s : State) (n : Nat) (v : Card) (l : Nat) : (s.setCard n v).disp l = s.disp l := rfl
@[simp] theorem State.job_setCard (s : State) (n : Nat) (v : Card) (l : Nat) : (s.setCard n v).job l = s.job l := rfl
@[simp] theorem State.aud_setCard (s : State) (n : Nat) (v : Card) (l : Nat) : (s.setCard n v).aud l = s.aud l := rfl
@[simp] theorem State.core_setCard (s : State) (n : Nat) (v : Card) (l : Nat) : (s.setCard n v).core l = s.core l := rfl
@[simp] theorem State.src_setCard (s : State) (n : Nat) (v : Card) (l : Nat) : (s.setCard n v).src l = s.src l := rfl
@[simp] theorem State.hq_setCard (s : State) (n : Nat) (v : Card) (l : Nat) : (s.setCard n v).hq l = s.hq l := rfl
@[simp] theorem State.actTab_setCard (s : State) (n : Nat) (v : Card) (l : Nat) : (s.setCard n v).actTab l = s.actTab l := rfl
@[simp] theorem State.eng_setCard (s : State) (n : Nat) (v : Card) (l : Nat) : (s.setCard n v).eng l = s.eng l := rfl
@[simp] theorem State.bg_setCard (s : State) (n : Nat) (v : Card) (l : Nat) : (s.setCard n v).bg l = s.bg l := rfl
@[simp] theorem State.node_setCard (s : State) (n : Nat) (v : Card) (l : Nat) : (s.setCard n v).node l = s.node l := rfl
@[simp] theorem State.run_setCard (s : State) (n : Nat) (v : Card) (l : Nat) : (s.setCard n v).run l = s.run l := rfl
@[simp] theorem State.repl_setCard (s : State) (n : Nat) (v : Card) (l : Nat) : (s.setCard n v).repl l = s.repl l := rfl
@[simp] theorem State.cond_setCard (s : State) (n : Nat) (v : Card) (l : Nat) : (s.setCard n v).cond l = s.cond l := rfl
@[simp] theorem State.card_setCard (s : State) (n : Nat) (v : Card) : (s.setCard n v).card n = v := Tab.look_put_same _ _ _ _
theorem State.card_setCard_other (s : State) (n : Nat) (v : Card) {l : Nat} (h : l ≠ n) : (s.setCard n v).card l = s.card l := Tab.look_put_other _ _ _ h
@[simp] theorem State.mlink_setCard (s : State) (n : Nat) (v : Card) (l : Nat) : (s.setCard n v).mlink l = s.mlink l := rfl
@[simp] theorem State.slot_setCard (s : State) (n : Nat) (v : Card) (l : Nat) : (s.setCard n v).slot l = s.slot l := rfl
@[simp] theorem State.entW_setCard (s : State) (n : Nat) (v : Card) (x y : Nat) : (s.setCard n v).entW x y = s.entW x y := rfl
@[simp] theorem State.num_setCard (s : State) (n : Nat) (v : Card) (x y : Nat) : (s.setCard n v).num x y = s.num x y := rfl
@[simp] theorem State.setMlink_pending (s : State) (n : Nat) (v : MLink) : (s.setMlink n v).pending = s.pending := rfl
@[simp] theorem State.setMlink_dt (s : State) (n : Nat) (v : MLink) : (s.setMlink n v).dt = s.dt := rfl
@[simp] theorem State.setMlink_draws (s : State) (n : Nat) (v : MLink) : (s.setMlink n v).draws = s.draws := rfl
@[simp] theorem State.setMlink_out (s : State) (n : Nat) (v : MLink) : (s.setMlink n v).out = s.out := rfl
@[simp] theorem State.setMlink_regs (s : State) (n : Nat) (v : MLink) : (s.setMlink n v).regs = s.regs := rfl
@[simp] theorem State.setMlink_dict (s : State) (n : Nat) (v : MLink) : (s.setMlink n v).dict = s.dict := rfl
@[simp] theorem State.setMlink_power (s : State) (n : Nat) (v : MLink) : (s.setMlink n v).power = s.power := rfl
@[simp] theorem State.setMlink_rst (s : State) (n : Nat) (v : MLink) : (s.setMlink n v).rst = s.rst := rfl
@[simp] theorem State.setMlink_tap (s : State) (n : Nat) (v : MLink) : (s.setMlink n v).tap = s.tap := rfl
@[simp] theorem State.setMlink_pins (s : State) (n : Nat) (v : MLink) : (s.setMlink n v).pins = s.pins := rfl
@[simp] theorem State.setMlink_nvm (s : State) (n : Nat) (v : MLink) : (s.setMlink n v).nvm = s.nvm := rfl
@[simp] theorem State.setMlink_tamper (s : State) (n : Nat) (v : MLink) : (s.setMlink n v).tamper = s.tamper := rfl
@[simp] theorem State.setMlink_log (s : State) (n : Nat) (v : MLink) : (s.setMlink n v).log = s.log := rfl
@[simp] theorem State.setMlink_act (s : State) (n : Nat) (v : MLink) : (s.setMlink n v).act = s.act := rfl
@[simp] theorem State.setMlink_port (s : State) (n : Nat) (v : MLink) : (s.setMlink n v).port = s.port := rfl
@[simp] theorem State.setMlink_unit (s : State) (n : Nat) (v : MLink) : (s.setMlink n v).unit = s.unit := rfl
@[simp] theorem State.setMlink_key (s : State) (n : Nat) (v : MLink) : (s.setMlink n v).key = s.key := rfl
@[simp] theorem State.setMlink_pk (s : State) (n : Nat) (v : MLink) : (s.setMlink n v).pk = s.pk := rfl
@[simp] theorem State.setMlink_mr (s : State) (n : Nat) (v : MLink) : (s.setMlink n v).mr = s.mr := rfl
@[simp] theorem State.setMlink_dig (s : State) (n : Nat) (v : MLink) : (s.setMlink n v).dig = s.dig := rfl
@[simp] theorem State.setMlink_img (s : State) (n : Nat) (v : MLink) : (s.setMlink n v).img = s.img := rfl
@[simp] theorem State.dom_setMlink (s : State) (n : Nat) (v : MLink) (d : Nat) : (s.setMlink n v).dom d = s.dom d := rfl
@[simp] theorem State.lane_setMlink (s : State) (n : Nat) (v : MLink) (l : Nat) : (s.setMlink n v).lane l = s.lane l := rfl
@[simp] theorem State.spare_setMlink (s : State) (n : Nat) (v : MLink) (l : Nat) : (s.setMlink n v).spare l = s.spare l := rfl
@[simp] theorem State.quad_setMlink (s : State) (n : Nat) (v : MLink) (l : Nat) : (s.setMlink n v).quad l = s.quad l := rfl
@[simp] theorem State.disp_setMlink (s : State) (n : Nat) (v : MLink) (l : Nat) : (s.setMlink n v).disp l = s.disp l := rfl
@[simp] theorem State.job_setMlink (s : State) (n : Nat) (v : MLink) (l : Nat) : (s.setMlink n v).job l = s.job l := rfl
@[simp] theorem State.aud_setMlink (s : State) (n : Nat) (v : MLink) (l : Nat) : (s.setMlink n v).aud l = s.aud l := rfl
@[simp] theorem State.core_setMlink (s : State) (n : Nat) (v : MLink) (l : Nat) : (s.setMlink n v).core l = s.core l := rfl
@[simp] theorem State.src_setMlink (s : State) (n : Nat) (v : MLink) (l : Nat) : (s.setMlink n v).src l = s.src l := rfl
@[simp] theorem State.hq_setMlink (s : State) (n : Nat) (v : MLink) (l : Nat) : (s.setMlink n v).hq l = s.hq l := rfl
@[simp] theorem State.actTab_setMlink (s : State) (n : Nat) (v : MLink) (l : Nat) : (s.setMlink n v).actTab l = s.actTab l := rfl
@[simp] theorem State.eng_setMlink (s : State) (n : Nat) (v : MLink) (l : Nat) : (s.setMlink n v).eng l = s.eng l := rfl
@[simp] theorem State.bg_setMlink (s : State) (n : Nat) (v : MLink) (l : Nat) : (s.setMlink n v).bg l = s.bg l := rfl
@[simp] theorem State.node_setMlink (s : State) (n : Nat) (v : MLink) (l : Nat) : (s.setMlink n v).node l = s.node l := rfl
@[simp] theorem State.run_setMlink (s : State) (n : Nat) (v : MLink) (l : Nat) : (s.setMlink n v).run l = s.run l := rfl
@[simp] theorem State.repl_setMlink (s : State) (n : Nat) (v : MLink) (l : Nat) : (s.setMlink n v).repl l = s.repl l := rfl
@[simp] theorem State.cond_setMlink (s : State) (n : Nat) (v : MLink) (l : Nat) : (s.setMlink n v).cond l = s.cond l := rfl
@[simp] theorem State.card_setMlink (s : State) (n : Nat) (v : MLink) (l : Nat) : (s.setMlink n v).card l = s.card l := rfl
@[simp] theorem State.mlink_setMlink (s : State) (n : Nat) (v : MLink) : (s.setMlink n v).mlink n = v := Tab.look_put_same _ _ _ _
theorem State.mlink_setMlink_other (s : State) (n : Nat) (v : MLink) {l : Nat} (h : l ≠ n) : (s.setMlink n v).mlink l = s.mlink l := Tab.look_put_other _ _ _ h
@[simp] theorem State.slot_setMlink (s : State) (n : Nat) (v : MLink) (l : Nat) : (s.setMlink n v).slot l = s.slot l := rfl
@[simp] theorem State.entW_setMlink (s : State) (n : Nat) (v : MLink) (x y : Nat) : (s.setMlink n v).entW x y = s.entW x y := rfl
@[simp] theorem State.num_setMlink (s : State) (n : Nat) (v : MLink) (x y : Nat) : (s.setMlink n v).num x y = s.num x y := rfl
@[simp] theorem State.setMod_pending (s : State) (n : Nat) (v : Module) : (s.setMod n v).pending = s.pending := rfl
@[simp] theorem State.setMod_dt (s : State) (n : Nat) (v : Module) : (s.setMod n v).dt = s.dt := rfl
@[simp] theorem State.setMod_draws (s : State) (n : Nat) (v : Module) : (s.setMod n v).draws = s.draws := rfl
@[simp] theorem State.setMod_out (s : State) (n : Nat) (v : Module) : (s.setMod n v).out = s.out := rfl
@[simp] theorem State.setMod_regs (s : State) (n : Nat) (v : Module) : (s.setMod n v).regs = s.regs := rfl
@[simp] theorem State.setMod_dict (s : State) (n : Nat) (v : Module) : (s.setMod n v).dict = s.dict := rfl
@[simp] theorem State.setMod_power (s : State) (n : Nat) (v : Module) : (s.setMod n v).power = s.power := rfl
@[simp] theorem State.setMod_rst (s : State) (n : Nat) (v : Module) : (s.setMod n v).rst = s.rst := rfl
@[simp] theorem State.setMod_tap (s : State) (n : Nat) (v : Module) : (s.setMod n v).tap = s.tap := rfl
@[simp] theorem State.setMod_pins (s : State) (n : Nat) (v : Module) : (s.setMod n v).pins = s.pins := rfl
@[simp] theorem State.setMod_nvm (s : State) (n : Nat) (v : Module) : (s.setMod n v).nvm = s.nvm := rfl
@[simp] theorem State.setMod_tamper (s : State) (n : Nat) (v : Module) : (s.setMod n v).tamper = s.tamper := rfl
@[simp] theorem State.setMod_log (s : State) (n : Nat) (v : Module) : (s.setMod n v).log = s.log := rfl
@[simp] theorem State.setMod_act (s : State) (n : Nat) (v : Module) : (s.setMod n v).act = s.act := rfl
@[simp] theorem State.setMod_port (s : State) (n : Nat) (v : Module) : (s.setMod n v).port = s.port := rfl
@[simp] theorem State.setMod_unit (s : State) (n : Nat) (v : Module) : (s.setMod n v).unit = s.unit := rfl
@[simp] theorem State.setMod_key (s : State) (n : Nat) (v : Module) : (s.setMod n v).key = s.key := rfl
@[simp] theorem State.setMod_pk (s : State) (n : Nat) (v : Module) : (s.setMod n v).pk = s.pk := rfl
@[simp] theorem State.setMod_mr (s : State) (n : Nat) (v : Module) : (s.setMod n v).mr = s.mr := rfl
@[simp] theorem State.setMod_dig (s : State) (n : Nat) (v : Module) : (s.setMod n v).dig = s.dig := rfl
@[simp] theorem State.setMod_grp (s : State) (n : Nat) (v : Module) : (s.setMod n v).grp = s.grp := rfl
@[simp] theorem State.dom_setMod (s : State) (n : Nat) (v : Module) (d : Nat) : (s.setMod n v).dom d = s.dom d := rfl
@[simp] theorem State.lane_setMod (s : State) (n : Nat) (v : Module) (l : Nat) : (s.setMod n v).lane l = s.lane l := rfl
@[simp] theorem State.spare_setMod (s : State) (n : Nat) (v : Module) (l : Nat) : (s.setMod n v).spare l = s.spare l := rfl
@[simp] theorem State.quad_setMod (s : State) (n : Nat) (v : Module) (l : Nat) : (s.setMod n v).quad l = s.quad l := rfl
@[simp] theorem State.disp_setMod (s : State) (n : Nat) (v : Module) (l : Nat) : (s.setMod n v).disp l = s.disp l := rfl
@[simp] theorem State.job_setMod (s : State) (n : Nat) (v : Module) (l : Nat) : (s.setMod n v).job l = s.job l := rfl
@[simp] theorem State.aud_setMod (s : State) (n : Nat) (v : Module) (l : Nat) : (s.setMod n v).aud l = s.aud l := rfl
@[simp] theorem State.core_setMod (s : State) (n : Nat) (v : Module) (l : Nat) : (s.setMod n v).core l = s.core l := rfl
@[simp] theorem State.src_setMod (s : State) (n : Nat) (v : Module) (l : Nat) : (s.setMod n v).src l = s.src l := rfl
@[simp] theorem State.hq_setMod (s : State) (n : Nat) (v : Module) (l : Nat) : (s.setMod n v).hq l = s.hq l := rfl
@[simp] theorem State.actTab_setMod (s : State) (n : Nat) (v : Module) (l : Nat) : (s.setMod n v).actTab l = s.actTab l := rfl
@[simp] theorem State.eng_setMod (s : State) (n : Nat) (v : Module) (l : Nat) : (s.setMod n v).eng l = s.eng l := rfl
@[simp] theorem State.bg_setMod (s : State) (n : Nat) (v : Module) (l : Nat) : (s.setMod n v).bg l = s.bg l := rfl
@[simp] theorem State.node_setMod (s : State) (n : Nat) (v : Module) (l : Nat) : (s.setMod n v).node l = s.node l := rfl
@[simp] theorem State.run_setMod (s : State) (n : Nat) (v : Module) (l : Nat) : (s.setMod n v).run l = s.run l := rfl
@[simp] theorem State.repl_setMod (s : State) (n : Nat) (v : Module) (l : Nat) : (s.setMod n v).repl l = s.repl l := rfl
@[simp] theorem State.cond_setMod (s : State) (n : Nat) (v : Module) (l : Nat) : (s.setMod n v).cond l = s.cond l := rfl
@[simp] theorem State.card_setMod (s : State) (n : Nat) (v : Module) (l : Nat) : (s.setMod n v).card l = s.card l := rfl
@[simp] theorem State.mlink_setMod (s : State) (n : Nat) (v : Module) (l : Nat) : (s.setMod n v).mlink l = s.mlink l := rfl
@[simp] theorem State.slot_setMod (s : State) (n : Nat) (v : Module) (l : Nat) : (s.setMod n v).slot l = s.slot l := rfl
@[simp] theorem State.entW_setMod (s : State) (n : Nat) (v : Module) (x y : Nat) : (s.setMod n v).entW x y = s.entW x y := rfl
@[simp] theorem State.num_setMod (s : State) (n : Nat) (v : Module) (x y : Nat) : (s.setMod n v).num x y = s.num x y := rfl
@[simp] theorem State.setDig_pending (s : State) (v : DigState) : (s.setDig v).pending = s.pending := rfl
@[simp] theorem State.setDig_dt (s : State) (v : DigState) : (s.setDig v).dt = s.dt := rfl
@[simp] theorem State.setDig_draws (s : State) (v : DigState) : (s.setDig v).draws = s.draws := rfl
@[simp] theorem State.setDig_out (s : State) (v : DigState) : (s.setDig v).out = s.out := rfl
@[simp] theorem State.setDig_regs (s : State) (v : DigState) : (s.setDig v).regs = s.regs := rfl
@[simp] theorem State.setDig_dict (s : State) (v : DigState) : (s.setDig v).dict = s.dict := rfl
@[simp] theorem State.setDig_power (s : State) (v : DigState) : (s.setDig v).power = s.power := rfl
@[simp] theorem State.setDig_rst (s : State) (v : DigState) : (s.setDig v).rst = s.rst := rfl
@[simp] theorem State.setDig_tap (s : State) (v : DigState) : (s.setDig v).tap = s.tap := rfl
@[simp] theorem State.setDig_pins (s : State) (v : DigState) : (s.setDig v).pins = s.pins := rfl
@[simp] theorem State.setDig_nvm (s : State) (v : DigState) : (s.setDig v).nvm = s.nvm := rfl
@[simp] theorem State.setDig_tamper (s : State) (v : DigState) : (s.setDig v).tamper = s.tamper := rfl
@[simp] theorem State.setDig_log (s : State) (v : DigState) : (s.setDig v).log = s.log := rfl
@[simp] theorem State.setDig_act (s : State) (v : DigState) : (s.setDig v).act = s.act := rfl
@[simp] theorem State.setDig_port (s : State) (v : DigState) : (s.setDig v).port = s.port := rfl
@[simp] theorem State.setDig_unit (s : State) (v : DigState) : (s.setDig v).unit = s.unit := rfl
@[simp] theorem State.setDig_key (s : State) (v : DigState) : (s.setDig v).key = s.key := rfl
@[simp] theorem State.setDig_pk (s : State) (v : DigState) : (s.setDig v).pk = s.pk := rfl
@[simp] theorem State.setDig_mr (s : State) (v : DigState) : (s.setDig v).mr = s.mr := rfl
@[simp] theorem State.setDig_img (s : State) (v : DigState) : (s.setDig v).img = s.img := rfl
@[simp] theorem State.setDig_grp (s : State) (v : DigState) : (s.setDig v).grp = s.grp := rfl
@[simp] theorem State.dom_setDig (s : State) (v : DigState) (d : Nat) : (s.setDig v).dom d = s.dom d := rfl
@[simp] theorem State.lane_setDig (s : State) (v : DigState) (l : Nat) : (s.setDig v).lane l = s.lane l := rfl
@[simp] theorem State.spare_setDig (s : State) (v : DigState) (l : Nat) : (s.setDig v).spare l = s.spare l := rfl
@[simp] theorem State.quad_setDig (s : State) (v : DigState) (l : Nat) : (s.setDig v).quad l = s.quad l := rfl
@[simp] theorem State.disp_setDig (s : State) (v : DigState) (l : Nat) : (s.setDig v).disp l = s.disp l := rfl
@[simp] theorem State.job_setDig (s : State) (v : DigState) (l : Nat) : (s.setDig v).job l = s.job l := rfl
@[simp] theorem State.aud_setDig (s : State) (v : DigState) (l : Nat) : (s.setDig v).aud l = s.aud l := rfl
@[simp] theorem State.core_setDig (s : State) (v : DigState) (l : Nat) : (s.setDig v).core l = s.core l := rfl
@[simp] theorem State.src_setDig (s : State) (v : DigState) (l : Nat) : (s.setDig v).src l = s.src l := rfl
@[simp] theorem State.hq_setDig (s : State) (v : DigState) (l : Nat) : (s.setDig v).hq l = s.hq l := rfl
@[simp] theorem State.actTab_setDig (s : State) (v : DigState) (l : Nat) : (s.setDig v).actTab l = s.actTab l := rfl
@[simp] theorem State.eng_setDig (s : State) (v : DigState) (l : Nat) : (s.setDig v).eng l = s.eng l := rfl
@[simp] theorem State.bg_setDig (s : State) (v : DigState) (l : Nat) : (s.setDig v).bg l = s.bg l := rfl
@[simp] theorem State.node_setDig (s : State) (v : DigState) (l : Nat) : (s.setDig v).node l = s.node l := rfl
@[simp] theorem State.run_setDig (s : State) (v : DigState) (l : Nat) : (s.setDig v).run l = s.run l := rfl
@[simp] theorem State.repl_setDig (s : State) (v : DigState) (l : Nat) : (s.setDig v).repl l = s.repl l := rfl
@[simp] theorem State.cond_setDig (s : State) (v : DigState) (l : Nat) : (s.setDig v).cond l = s.cond l := rfl
@[simp] theorem State.card_setDig (s : State) (v : DigState) (l : Nat) : (s.setDig v).card l = s.card l := rfl
@[simp] theorem State.mlink_setDig (s : State) (v : DigState) (l : Nat) : (s.setDig v).mlink l = s.mlink l := rfl
@[simp] theorem State.slot_setDig (s : State) (v : DigState) (l : Nat) : (s.setDig v).slot l = s.slot l := rfl
@[simp] theorem State.entW_setDig (s : State) (v : DigState) (x y : Nat) : (s.setDig v).entW x y = s.entW x y := rfl
@[simp] theorem State.num_setDig (s : State) (v : DigState) (x y : Nat) : (s.setDig v).num x y = s.num x y := rfl

@[simp] theorem State.at_dt (s : State) (d : Nat) : (s.at d).dt = Nat.max s.dt d := rfl

/-- A status entry reads what was set. -/
@[simp] theorem State.entW_setEnt (s : State) (i k : Nat) (v : Bytes) : (s.setEnt i k v).entW i k = v := by
  unfold State.entW State.setEnt
  simp only [Tab.look_put_same]
  have h : State.dflt { s with dict := { s.dict with work := Tab.put none s.dict.work (entKey i k) (if v = s.dflt i k then none else some v) } } i k
      = s.dflt i k := rfl
  split <;> simp_all

theorem State.entW_setEnt_other (s : State) {i k x y : Nat} (v : Bytes) (h : entKey x y ≠ entKey i k) :
    (s.setEnt i k v).entW x y = s.entW x y := by
  unfold State.entW State.setEnt
  simp only [Tab.look_put_other _ _ _ h]
  rfl

end Sys2Proof.Machine
end

