-- ==== Sys2Proof/Laws/Lane.lean ====
section
/-!
SUPPORT. What issuing an instruction on a lane that is ready comes to.
-/
namespace Sys2Proof.Machine
variable {s : State} {i : Issue} {r : Run} {k : Nat}

theorem CanIssue.ne (h : CanIssue s i r k) : i.core.val ≠ supCore := by have := h.lane; unfold supCore; omega

/-- The register instructions leave the parts of a core that issue looks at. -/
theorem regOp_keeps {op : COp} {c d : Core} (h : regOp op c = some d) :
    d.pc = c.pc ∧ d.ldepth = c.ldepth ∧ d.wb = c.wb ∧ d.wbT = c.wbT ∧ d.imp = c.imp := by
  unfold regOp at h
  split at h <;> simp only [Option.some.injEq, reduceCtorEq] at h <;> subst h
  all_goals try simp [Core.setD]
  · unfold aluCore; dsimp only; split <;> simp [Core.setD, Core.setFl]
  · unfold immCore; dsimp only; split <;> simp [Core.setD, Core.setFl]
  · simp only [Core.setPs, Core.setP]; split <;> split <;> simp
  · simp only [Core.setPs, Core.setP]; split <;> split <;> simp
  · simp only [plogCore, Core.setP]; split <;> simp
  · unfold aopCore; split <;> simp [Core.setA, Core.setD]
  · unfold macCore; dsimp only; split <;> simp [Core.setAcc, Core.setD]

theorem drainTo_empty {l t n : Nat} (h : (s.core l).wb = []) : drainTo l t n s = (none, s) := by
  cases n with
  | zero => rfl
  | succ n => unfold drainTo; rw [h]

theorem State.core_unit_lanes (s : State) (l : Nat) (v : Lane) : (s.setLane l v).core = s.core := rfl

/-- Storing a core with nothing in its buffer leaves it as it is. -/
theorem core_filter {c : Core} (t : Nat) (h : c.wbT = []) : { c with wbT := c.wbT.filter (fun d => decide (t ≤ d)) } = c := by
  rw [h]
  cases c
  simp_all

/-- What an instruction on a lane that can issue it comes to: `oneOp` at the state of its issue, and the rest of the issue. -/
theorem issue_can {op : COp} (h : CanIssue s i r k) (hf : op.forCore false = true) (hc : ∀ u a b c d, op ≠ .cu u a b c d) :
    issue i op s = laneFinish i.core.val (s.atIssue i r)
      (oneOp i.core.val (s.lane i.core.val).cyc (s.lane i.core.val).budget true (some op) (s.atIssue i r)) := by
  unfold issue issueOp
  rw [if_neg h.ne]
  unfold issueLane
  dsimp only
  rw [h.run]
  dsimp only
  rw [drainTo_empty (by simpa using h.wb)]
  dsimp only
  rw [State.core_at, core_filter _ h.wbT, h.imp]
  dsimp only
  rw [h.guard, Option.filter_some, if_pos hf]
  cases op <;> first | rfl | exact absurd rfl (hc _ _ _ _ _)

/-- The state after an instruction's registers, cycle count and DT are written. -/
theorem laneOnly_of {l : Nat} {u v : State} {b c : Core} {w : Lane} {d : Nat} (hne : l ≠ supCore)
    (hu : u = (s.at d).setCore l (s.core l)) {e : Nat} (hv : v = (((u.setCore l b).setCore l c).setLane l w).at e) : LaneOnly l s v := by
  subst hv hu
  refine ⟨?_, fun m hm => ?_, fun m hm => ?_⟩
  · simp only [State.setCore, if_neg hne]; rfl
  · simp [State.core_setCore_other _ _ _ hm]
  · simp [State.lane_setLane_other _ _ _ hm]

/-- An instruction of the register file alone, on a lane that is ready. -/
theorem issue_reg {op : COp} {c : Core} (h : Ready s i r k) (hf : op.forCore false = true) (hl : op.legal = true)
    (ho : regOp op (s.core i.core.val) = some c) (hk : ∀ t u, opTime i.core.val t op u = k) :
    LaneAfter i r k { c with pc := c.pc + 4 } s (issue i op s) := by
  have hc : ∀ u a b c d, op ≠ .cu u a b c d := by rintro u a b c d rfl; simp [regOp] at ho
  obtain ⟨h1, h2, h3, h4, h5⟩ := regOp_keeps ho
  rw [issue_can h.toCanIssue hf hc]
  unfold State.atIssue
  have hne := h.ne
  have hlt := h.left
  generalize hs : (s.at (r.start + (s.lane i.core.val).cyc)).setCore i.core.val (s.core i.core.val) = u
  have uc : u.core i.core.val = s.core i.core.val := by rw [← hs]; simp
  have ul : u.lane i.core.val = s.lane i.core.val := by rw [← hs]; simp
  unfold oneOp
  simp only [hl, not_true_eq_false, if_false]
  unfold runOp
  rw [uc, ho, hk]
  dsimp only [opSeq]
  rw [if_neg (by omega)]
  unfold laneFinish applyWr
  simp only [State.core_setCore, Bool.false_eq_true, if_false, uc]
  unfold endCheck
  rw [h2, h.loops]
  simp only [if_true, Option.getD_none]
  unfold laneNext
  have hp : pcMax i.core.val = 0x7FFC := by unfold pcMax; rw [if_neg hne]
  rw [hp, if_neg (by have := h.word; omega)]
  unfold laneGoOn
  simp only [State.lane_setCore, ul]
  rw [if_neg (by omega)]
  have hr : laneRun ((u.setCore i.core.val c).setCore i.core.val { c with pc := BitVec.ofNat 16 ((s.core i.core.val).pc.toNat + 4) }) i.core.val = r := by
    unfold laneRun
    simp [ul, h.run]
  rw [hr]
  have hpc : BitVec.ofNat 16 ((s.core i.core.val).pc.toNat + 4) = c.pc + 4 := by rw [h1]; simp [BitVec.ofNat_add]
  rw [hpc]
  refine ⟨laneOnly_of hne hs.symm rfl, by simp [h2, h.loops], by simp, ?_⟩
  rw [← hs]
  simp only [State.at_dt, State.setLane_dt, State.setCore_dt]
  simp only [Nat.max_def]
  split <;> split <;> split <;> omega

end Sys2Proof.Machine
end

