-- ==== Sys2Proof/Tests/Slice0.lean ====
section
/-!
SUPPORT. The tests of the model: an ill-formed command for each check, worked examples of the spec, and for every statement with
hypotheses the states and operands that meet them, clause by clause (`witness_<statement>_<part>_<n>`; a statement made of two
groups of commands has its witnesses under the groups' names). Values come from the spec's examples and tables or from a calculation
by hand, never from the model.
-/
namespace Sys2Proof
open Sys2Proof.Machine
set_option maxRecDepth 20000
set_option Elab.async false
set_option linter.unusedVariables false

/-- A program image with first-run entry 0x10, completion entry 0x20, trap entry 0x40, no code, and declared types 1, 4, 1 and 5. -/
def tImg : Bytes :=
  zeros 24 ++ [0, 0x10, 0, 0x20, 0, 0x40] ++ zeros 50 ++ zeros 76 ++ [1, 4, 1, 5] ++ zeros 48 ++ zeros 96

/-- A run of job 1 on a lane from DT 1,000 on. -/
def tRun : Run := ⟨1, false, 1000, 90000⟩

/-- The instruction that lane 3 issues unguarded. -/
def tIss : Issue := ⟨3, false, 0⟩

/-- A cache entry of a type with every right. -/
def tEnt (ty use_ : Nat) (key : Bytes) : CacheEnt := { st := .valid, key := key, use_ := use_, eng := 7, ktype := ty }

/-- Job 1: class 5, lane 3, every key reference filled, bodies up to 512 bytes. -/
def tJob : Job :=
  { desc := { cls := 5, keymask := 15, src := 2, msgid := 77 }, body := [1, 2, 3, 4], lane := 3, slot := 0, stage := 1, image := 9, epoch := 1,
    refs := [(0, some 1), (1, some 2), (2, some 3), (3, some 4)], frame := [(0, 0x31), (1, 0x32), (2, 0x41)], valid := 64, rmax := 512 }

/-- Lane 3 in the run of job 1 at cycle 10 of 20,000. -/
def tLane : Lane := { run := some tRun, cyc := 10, budget := 20000, setA := [(9, tImg)], bankA := 3, dslimA := 0x4000 }

/-- A device whose lane 3 runs job 1 with the registers `c`. -/
def tDev (c : Core) : State :=
  { State.reset with
    unit := { lanes := [(3, tLane)], cores := [(3, c)], jobs := [(1, tJob)],
              quads := [(0, { cache := [(1, tEnt 1 31 (zeros 16)), (2, tEnt 4 31 (zeros 16)), (3, tEnt 1 31 (zeros 16)), (4, tEnt 5 31 (zeros 24))] })] }
    power := { doms := [(2, { st := .ready }), (11, { st := .ready })] } }

/-- Registers with some numbers in D1 to D3, the PC at 0x100. -/
def tCore : Core := { d := [(1, 0xFFFFFFFF), (2, 7), (3, 0x80000000)], pc := 0x100 }


/-- A classifier image of 64 words with one rule, any key to class 9. -/
def tCls : Bytes := zeros 6 ++ [0, 64, 0, 1] ++ zeros 22 ++ zeros 256 ++ [0, 0, 0, 0, 0, 0, 0, 0, 9, 0, 0, 0] ++ zeros 768

/-- A message of port 2 with digits and an empty bitmap. -/
def tMsg : Msg := { src := 2, body := [0x31, 0x32, 0x33, 0x34, 0x12, 0x34, 0x56, 0x78] ++ zeros 16, tstamp := 1000, rel := 26000, epoch := 1 }

/-- A device whose port 2 has the message in context 1 with the context `x`. -/
def tPort (x : Ctx) : State :=
  { State.reset with
    port := { srcs := [(2, { line := [⟨tMsg, .waiting, 0⟩, ⟨{ tMsg with rel := 27000 }, .inCtx 1, 0⟩], ctxs := [(0, { msg := some tMsg }), (1, x)], link := true })] }
    unit := { epoch := { cur := some { num := 1, mode := 4, ents := [(0x20021C, some [1])], cls := [(1, tCls)] } } } }

/-- The context while it runs the message. -/
def tCtx : Ctx := { msg := some tMsg, regs := [(1, 0x00040004), (2, 8), (3, 0x00040021)], t := 26000, stop := 27344 }


/-- The UDP source of every request here, and the address and port that MGE has after reset. -/
def tFrom : BitVec 144 := 0xFFFF0A0000011234
def tHere : BitVec 144 := 0xFFFFC0A84001BACC

/-- A request of session 5, as SESSION_AUTH left it, for entry `idx:sub`, with its tag. -/
def tReq (op idx sub : Nat) (data : Bytes) : Req :=
  let r : Req := ⟨.mge, tFrom, tHere, false, 0, 0, 0, none, 1, 2, 0, 5, 1, BitVec.ofNat 16 idx, BitVec.ofNat 8 sub, 0, 0,
    BitVec.ofNat 16 (if op = 1 then 64 else data.length), data, []⟩
  { r with tag := aesCmac (zeros 32) (reqBytes { r with tag := zeros 16 } op) }

/-- A device that has taken a request. -/
def tG (r : Req) (s : State) : State := deepAbort (takeReq r s)

/-- An open session of a role. -/
def tSess (role : Nat) : Session := ⟨5, role, .mge, tFrom.toNat, 0, 100, 100, zeros 32, zeros 32, 0, none⟩

/-- A device in a mode, with its management domains on and session 5 of a role open. -/
def tSrv (role : Nat) (mode : Mode) : State :=
  { State.reset with
    dt := 5000
    power := { mode := mode, lcs := .owned, doms := [(1, { st := .ready }), (2, { st := .ready }), (30, { st := .ready }), (32, { st := .ready })] }
    rst := { phase := .done }
    dict := { sess := some (tSess role) }
    port := { link := 16 } }

/-- A device in SERVICE with port 2 (Direct, or TCP with `w`) up, and its other blocks on. -/
def tNet (w : Tab (Option Bytes)) (x : Source) : State :=
  { tSrv 4 .service with
    dict := { work := w ++ [(0x200201, some [1]), (0x200204, some [2, 0, 0, 0, 0, 1]), (0x200208, some [0x88, 0xB5])] }
    port := { srcs := [(2, x)], link := 16 }
    power := { mode := .service, lcs := .owned, doms := [(29, { st := .ready }), (30, { st := .ready })] } }

/-- What makes port 2 a TCP port with an IPv4 peer. -/
def tTcpW : Tab (Option Bytes) :=
  [(0x200205, some [1]), (0x20020B, some [10, 0, 0, 2]), (0x20020F, some (zeros 10 ++ [255, 255, 10, 0, 0, 9])), (0x200211, some [19, 0x88]), (0x200212, some [19, 0x89])]

/-- A frame to port 2's address. -/
def tFrame (et : BitVec 16) (pl : Bytes) : Frame := ⟨0x020000000001, 0x020000000009, none, et, fit pl 50, none⟩

/-- Epoch 1 in SERVICE: class 1 runs image 1, source 2 may have four messages of up to 64 bytes and uses lanes 0 to 7. -/
def tEpoch (more : Tab (Option Bytes)) : EpochCfg :=
  { num := 1, mode := 4, progs := [(1, tImg)],
    ents := more ++ [(0x310101, some [1]), (0x310102, some [1]), (0x301201, some [4]), (0x301202, some [1]), (0x301203, some [64]),
      (0x300001, some [0]), (0x20021B, some [255])] }

/-- A descriptor of class 1 from source 2, at dispatcher 0 at instant 6,000. -/
def tArr (x : Desc) : Arrival := ⟨6000, { x with cls := 1, src := 2, msgid := 7 }, [1, 2], [], false⟩

/-- A device in SERVICE that has the arrival `x` at dispatcher 0. -/
def tAdm (more : Tab (Option Bytes)) (x : Desc) : State :=
  { tSrv 4 .service with
    power := { mode := .service, lcs := .owned, doms := [(11, { st := .ready }), (12, { st := .ready }), (7, { st := .ready }), (9, { st := .ready })] }
    unit := { epoch := { cur := some (tEpoch more) }, disps := [(0, { arrivals := [tArr x] })] } }

/-- A command block for node `id`, with a template, the byte SOURCE and data. -/
def tBlk (op id : Nat) (tmpl : Bytes) (aux src : Nat) (d : Bytes) : Bytes :=
  [byte op, 0] ++ beBytes id 3 ++ [0] ++ beBytes d.length 2 ++ fit tmpl 24 ++ beBytes aux 3 ++ [byte src] ++ zeros 28 ++ d

/-- A device in SERVICE with a root, a staged command block and nodes. -/
def tKey (b : Bytes) (nodes : Tab Node) : State :=
  { tSrv 4 .service with
    dict := { sess := some (tSess 4), work := [(0x501001, some b)] }
    key := { root := [1], nodes := nodes, runs := [(5, { ktype := 3, key := zeros 32, owner := 0x301 })] } }

/-- A STORED management key that wraps others, and one that may be wrapped. -/
def tNodes : Tab Node :=
  [(0x300, { kind := 3, state := 2, ktype := 3, attr := 9, use_ := 128, slot := 5, units := 2 }),
   (0x301, { kind := 3, state := 2, ktype := 3, attr := 9, use_ := 64, slot := 5, units := 2 })]

/-- A request whose tag has `n` bytes passes the carrier, form and mode checks in `s`, which leaves `t`: what `gate` decides, without the tag's value. -/
def gateB (r : Req) (n op : Nat) (s t : State) : Bool :=
  let u := if aniseRead r op then takeReq r s else deepAbort (takeReq r s)
  ! unheard r op s && decide (n = if bit r.flags.toNat 1 then 16 else 0) &&
  decide (r.ver = 1 ∧ reqOp r op = op ∧ r.flags.toNat / 8 = 0 ∧ r.rsv = 0 ∧ r.data.length = if op = opREAD then 0 else r.length.toNat) &&
  ! (decide (op = opOPEN) && ! openForm r) &&
  decide (22 + r.data.length + n ≤ maxReq r.tr r.src.toNat) && ! aniseMode u &&
  decide (¬ (restarting u ∧ ¬ aniseRead r op ∧ ¬ recoveryServes u r op)) && decide (u = t)

theorem gate_of {r : Req} {n op : Nat} {s t : State} (hn : r.tag.length = n) (h2 : spoiled r op = false) (h : gateB r n op s t = true) (f : State → Bool) :
    gate r op f s = .session t := by
  simp only [gateB, Bool.and_eq_true, Bool.not_eq_true', decide_eq_true_eq] at h
  obtain ⟨⟨⟨⟨⟨⟨⟨h1, h3⟩, h4, hop, h5, h6, h7⟩, hof⟩, h8⟩, h9⟩, h11⟩, ht⟩ := h
  have hm : malformed r op = false := by
    unfold malformed; rw [hn, hof]; simp only [Bool.or_eq_false_iff, decide_eq_false_iff_not, Classical.not_not, ne_eq]
    exact ⟨⟨⟨⟨⟨⟨h4, hop⟩, h5⟩, h6⟩, h7⟩, h3⟩, trivial⟩
  unfold gate
  rw [if_neg (by simp [h1]), if_neg (by simp [h2]), hm]
  dsimp only
  rw [if_neg (by simp), if_neg (by omega), if_neg (by simp [h9]), if_neg h11, ht]

theorem crc16_take (n : Nat) (m : Bytes) {c e : Nat} (h : (m.take n).foldl (fun c b =>
    (List.range 8).foldl (fun c _ => if c ≥ 0x8000 then ((c * 2) ^^^ 0x1021) % 0x10000 else (c * 2) % 0x10000)
      (c ^^^ (b.toNat * 256))) c = e) : m.foldl (fun c b =>
    (List.range 8).foldl (fun c _ => if c ≥ 0x8000 then ((c * 2) ^^^ 0x1021) % 0x10000 else (c * 2) % 0x10000)
      (c ^^^ (b.toNat * 256))) c = (m.drop n).foldl (fun c b =>
    (List.range 8).foldl (fun c _ => if c ≥ 0x8000 then ((c * 2) ^^^ 0x1021) % 0x10000 else (c * 2) % 0x10000)
      (c ^^^ (b.toNat * 256))) e := by
  conv => lhs; rw [← List.take_append_drop n m, List.foldl_append, h]

theorem aesEnc_length (b : Bytes) : (aesEnc (zeros 32) b).length = 16 := by
  have hk : ((aesRoundKeys (zeros 32)).getLastD []).length = 16 := by decide +kernel
  unfold aesEnc
  dsimp only
  rw [List.length_map]; unfold xorNats; rw [List.length_zipWith, hk]
  simp [aesShift]

theorem tReq_tag (op idx sub : Nat) (d : Bytes) : (tReq op idx sub d).tag.length = 16 := aesEnc_length _

/-- The session's check of a request that has the tag of `tReq op idx sub d`: what it decides once the tag is right. -/
def checkB (t : State) (r : Req) (op idx sub : Nat) (d : Bytes) (role : Nat) : Bool :=
  decide (t.dict.sess = some (tSess role) ∧ r.session = 5 ∧ r.tr = .mge ∧ r.src = tFrom ∧ r.seq = 1 ∧
    reqBytes r op = reqBytes { tReq op idx sub d with tag := zeros 16 } op)

theorem check_of {t : State} {r : Req} {op idx sub role : Nat} {d : Bytes} (ht : r.tag = (tReq op idx sub d).tag)
    (h : checkB t r op idx sub d role = true) : sessionCheck t r op = .go role := by
  simp only [checkB, decide_eq_true_eq] at h
  obtain ⟨h1, h2, h3, h4, h5, h6⟩ := h
  unfold sessionCheck
  rw [h1, h2]
  have e : r.tag = aesCmac (tSess role).kreq (reqBytes r op) := by rw [ht, h6]; rfl
  simp [tSess, h3, h4, h5]
  simp [e, tSess]

theorem heard_of {s t : State} {r : Req} {op idx sub role : Nat} {d : Bytes} (ht : r.tag = (tReq op idx sub d).tag)
    (hs : spoiled r op = false) (hg : gateB r 16 op s t = true) (hc : checkB t r op idx sub d role = true) : Heard s r op t role :=
  ⟨gate_of (by rw [ht]; exact tReq_tag op idx sub d) hs hg, check_of ht hc⟩

/-- The checks of a written value. -/
def rowB (t : State) (r : Req) (idx sub role : Nat) (v : Bytes) : Bool :=
  (match findEnt idx sub with
    | some e => decide (e.wr ≠ 0) && mayWrite t role e.wr && plainRange e v && decide (writtenValue t idx sub e r = (0, v))
    | none => false) && ! isMs r.tr

theorem granted_of {s t : State} {r : Req} {idx sub role i0 u0 : Nat} {d v : Bytes} (ht : r.tag = (tReq 2 i0 u0 d).tag)
    (hs : spoiled (asking r idx sub) 2 = false) (hg : gateB (asking r idx sub) 16 2 s t = true) (hc : checkB t (asking r idx sub) 2 i0 u0 d role = true)
    (hr : rowB t r idx sub role v = true) : Granted s r idx sub t role v := by
  unfold rowB at hr
  split at hr
  · next e he =>
    simp only [Bool.and_eq_true, decide_eq_true_eq, Bool.not_eq_true'] at hr
    exact ⟨heard_of (r := asking r idx sub) ht hs hg hc, ⟨e, he, hr.1.1.1.1, hr.1.1.1.2, hr.1.1.2, hr.1.2⟩, hr.2⟩
  · cases hr

theorem canIssue_of {s : State} {i : Issue} {r : Run} {k : Nat}
    (h : decide (i.core.val < 64 ∧ (s.lane i.core.val).run = some r ∧ (s.core i.core.val).guard i.pn i.pg.val = true ∧
      (s.core i.core.val).wb = [] ∧ (s.core i.core.val).wbT = [] ∧ (s.core i.core.val).imp = none ∧
      (s.lane i.core.val).cyc + k < (s.lane i.core.val).budget) = true) : CanIssue s i r k := by
  obtain ⟨a, b, c, d, e, f, g⟩ := of_decide_eq_true h
  exact ⟨a, b, c, d, e, f, g⟩

theorem ready_of {s : State} {i : Issue} {r : Run} {k : Nat}
    (h : decide ((i.core.val < 64 ∧ (s.lane i.core.val).run = some r ∧ (s.core i.core.val).guard i.pn i.pg.val = true ∧
      (s.core i.core.val).wb = [] ∧ (s.core i.core.val).wbT = [] ∧ (s.core i.core.val).imp = none ∧
      (s.lane i.core.val).cyc + k < (s.lane i.core.val).budget) ∧ (s.core i.core.val).ldepth = 0 ∧
      (s.core i.core.val).pc.toNat + 4 ≤ 0x7FFC) = true) : Ready s i r k := by
  obtain ⟨a, b, c⟩ := of_decide_eq_true h
  exact ⟨canIssue_of (decide_eq_true a), b, c⟩

theorem supReady_of {s : State} {i : Issue}
    (h : decide (i.core.val = 64 ∧ supRuns s = true ∧ (supPending s = 0 ∨ s.unit.sup.ie = false) ∧
      s.unit.sup.core.guard i.pn i.pg.val = true ∧ s.unit.sup.core.imp = none ∧ s.unit.sup.core.ldepth = 0 ∧
      s.unit.sup.core.pc.toNat + 4 ≤ 0xFFFC ∧ fetchLevel s (s.unit.sup.core.ibk.toNat * 65536 + s.unit.sup.core.pc.toNat + 4) =
        some s.unit.sup.level) = true) : SupReady s i := by
  obtain ⟨a, b, c, d, e, f, g, x⟩ := of_decide_eq_true h
  exact ⟨a, b, c, d, e, f, g, x⟩

theorem drawScalar_keeps (n f : Nat) (s : State) : (drawScalar n f s).2.power = s.power ∧ (drawScalar n f s).2.key = s.key := by
  induction f generalizing s with
  | zero => exact ⟨rfl, rfl⟩
  | succ f ih =>
    unfold drawScalar
    dsimp only
    split
    · exact ⟨rfl, rfl⟩
    · exact ih _

theorem attest_drawn {n f k : Nat} {s : State} {nonce : Bytes}
    (h : decide (s.power.lcs ≠ .retired ∧ s.power.mode ≠ .alarm ∧ s.key.rootSt ≠ 5 ∧ s.key.root.isEmpty = false) = true) :
    (attest 0 nonce (drawScalar n f (s.draw k).2).2).code = 0 := by
  obtain ⟨a, b, c, d⟩ := of_decide_eq_true h
  have e := drawScalar_keeps n f (s.draw k).2
  have e1 : (drawScalar n f (s.draw k).2).2.power = s.power := e.1
  have e2 : (drawScalar n f (s.draw k).2).2.key = s.key := e.2
  unfold attest
  dsimp only
  rw [e1, e2, if_neg (by simp [a, b]), if_neg (by simp [c, d]), if_neg (by simp), if_neg (by simp)]
/-! ### Ill-formed commands, one for each check -/

theorem test_illFormed_request : Instr.wf (.dictRead { tReq 1 0x1000 5 [] with data := zeros 8192 }) = false := by decide +kernel
theorem test_illFormed_requestOfRow : Instr.wf (.laneFenceRequest (some { tReq 1 0x1000 5 [] with data := zeros 8192 }) 3) = false := by decide +kernel
theorem test_illFormed_frame : Instr.wf (.frameReceive 2 ⟨1, 2, none, 0x8100, [], none⟩) = false := by decide +kernel
theorem test_illFormed_read : Instr.wf (.fabricAccess ⟨0x10, 0, false, false, 4, [1]⟩) = false := by decide +kernel
theorem test_illFormed_write : Instr.wf (.fabricAccess ⟨0x10, 0, true, false, 4, [1]⟩) = false := by decide +kernel
theorem test_illFormed_fetch : Instr.wf (.fabricAccess ⟨0x10, 0, true, true, 1, [1]⟩) = false := by decide +kernel
theorem test_illFormed_dma : Instr.wf (.dmaPiece 0x10 0 true 0 4 [1]) = false := by decide +kernel
theorem test_illFormed_domain : Instr.wf (.domainIdleTimeout 33) = false := by decide +kernel
theorem test_illFormed_reference : Instr.wf (.powerDownComplete 0x40) = false := by decide +kernel
theorem test_illFormed_wakeSource : Instr.wf (.powerUp 5 0 0) = false := by decide +kernel
theorem test_illFormed_deepWake : Instr.wf (.deepWake 0x0D ⟨0, 0⟩) = false := by decide +kernel
theorem test_illFormed_primes : Instr.wf (.pkRsaKeygen 0 (2 ^ 2048) 3) = false := by decide +kernel
theorem test_illFormed_means : Instr.wf (.learnDone [0, 0, 0] 0) = false := by decide +kernel
theorem test_illFormed_fuseWord : Instr.wf (.optionLoad [256]) = false := by decide +kernel
theorem test_illFormed_programFailures : Instr.wf (.nvmWrite 0x61 68) = false := by decide +kernel
theorem test_illFormed_linkWidth : Instr.wf (.hostLinkRetrain 3 1) = false := by decide +kernel

/-! ### Worked examples of the spec, and corners of its tables -/

/-- The words of the encoding example of chapter 7: ADD D1, D2, D3, unguarded and guarded by !P3. -/
theorem test_word_add : decodeWord 0x00448C00 = (false, 0, some (.alu 0 1 2 3 0)) ∧
    decodeWord 0xB0448C00 = (true, 3, some (.alu 0 1 2 3 0)) ∧ decodeWord 0 = (false, 0, some .nop) := by decide +kernel

/-- CU2 of chapter 8's example: its word, and the four micro-ops of its definition. -/
theorem test_word_cu2 : decodeWord 0x0C848C00 = (false, 0, some (.cu 2 1 2 3 0)) ∧
    decodeWord (uopWord 0x00000030018000C0 1 2 3 0) = (false, 0, some (.shi 0 1 2 3 0)) := by decide +kernel

/-- A lane whose decode RAM defines CU2 as chapter 8's example does. -/
def tCu : State :=
  let m := Memory.writeN (Memory.writeN [] 0x3F008 (beBytes 0x80000004 4)) 0x3E000
    (beBytes 0x00000030018000C0 8 ++ beBytes 0x0000002C00400000 8 ++ beBytes 0x0000002C00400000 8 ++ beBytes 0x000000AE00400000 8)
  (tDev { tCore with d := [(2, 4), (3, 7)] }).setLane 3 { tLane with mem := m }

/-- With D2 = 4 and D3 = 7 it leaves D1 = 47, in 4 LCLK. -/
theorem test_cu2_runs :
    (match exec (.customOpcode tIss 2 1 2 3 0) tCu with
      | .next t => decide (((t.core 3).dr 1, (t.lane 3).cyc, (t.core 3).pc) = (47, 14, 0x104))
      | _ => false) = true := by decide +kernel

/-- PIN 1234 and PAN 4000001234567899 of chapter 10's examples: the plain fields of formats 0 and 4. -/
theorem test_pinFields :
    beNat (pinForm 0 [1, 2, 3, 4] State.reset).1 = 0x041234FFFFFFFFFF ∧
    beNat (panField 0 [4, 0, 0, 0, 0, 0, 1, 2, 3, 4, 5, 6, 7, 8, 9, 9]) = 0x0000000123456789 ∧
    beNat (panField 4 [4, 0, 0, 0, 0, 0, 1, 2, 3, 4, 5, 6, 7, 8, 9, 9]) = 0x44000001234567899000000000000000 := by decide +kernel

/-- The decimalisations of chapter 10's example. -/
theorem test_decimalise : twoPass 4 (beBytes 0x7A3F0B19C4D28E65 8) = [7, 3, 0, 1] ∧ twoPass 3 (beBytes 0xE5C194A80B3F27D6 8) = [5, 1, 9] := by
  decide +kernel

/-- The 22 bytes of chapter 2's example, a READ of 1000:05. -/
theorem test_readBytes :
    reqBytes ⟨.mge, tFrom, tHere, false, 0, 0, 0, none, 1, 0, 0, 0, 0, 0x1000, 5, 0, 0, 8, [], []⟩ 1 = beBytes 0x01010000000000000000000010000500000000000008 22 := by
  decide +kernel

/-- ADD wraps with a carry; DIVU by 0 gives all ones; a guarded-off ADD changes nothing. -/
theorem test_add_wraps :
    (match exec (.add tIss 4 1 2) (tDev tCore) with
      | .next t => decide (((t.core 3).dr 4, (t.core 3).c, (t.core 3).v) = (6, true, false))
      | _ => false) = true := by decide +kernel
theorem test_divu_by_0 :
    (match exec (.divu tIss 4 2 5) (tDev tCore) with
      | .next t => decide (((t.core 3).dr 4, (t.lane 3).cyc) = (0xFFFFFFFF, 44))
      | _ => false) = true := by decide +kernel
theorem test_add_guardedOff :
    (match exec (.add ⟨3, true, 0⟩ 2 1 2) (tDev tCore) with
      | .next t => decide (((t.core 3).dr 2, (t.core 3).c, (t.core 3).pc) = (7, false, 0x104))
      | _ => false) = true := by decide +kernel

/-- A step takes the front of the queue; on an empty queue one nanosecond passes. -/
theorem test_step_front :
    (match step { tDev tCore with pending := [.nop tIss, .wbsync tIss] } with
      | .next t => decide ((t.pending, (t.core 3).pc) = ([.wbsync tIss], 0x104))
      | _ => false) = true := by decide +kernel
theorem test_step_idle : (match step State.reset with | .next t => decide (t.dt = 1) | _ => false) = true := by decide +kernel

/-! ### States that meet the hypotheses of the statements about every command -/

theorem witness_StepTakesFront_1_1 : ∃ s : State, s.pending = [] := ⟨State.reset, rfl⟩

/-- A device with a fuse word to burn and a command waiting. -/
def tBurn (c : Instr) : State :=
  { tSrv 4 .service with
    pending := [c]
    nvm := { fuses := [(64, some 5)], fusCtrl := 64, fusData := 15 }
    power := { mode := .service, lcs := .owned, doms := [(4, { st := .ready })] } }

theorem witness_StepKeepsInvariant_0_1 : ∃ s t : State, Inv s ∧ step s = .next t ∧ t.pending = [] :=
  ⟨tBurn (.fuseBurn true 2), _, ⟨by decide +kernel, by decide +kernel⟩, rfl, by decide +kernel⟩
theorem witness_BlownFusesStay_0_1 : ∃ (s t : State) (w b : Nat), step s = .next t ∧ (s.fuse w).testBit b = true ∧ t.fuse w ≠ s.fuse w :=
  ⟨tBurn (.fuseBurn true 2), _, 64, 2, rfl, by decide +kernel, by decide +kernel⟩

theorem witness_CustomOpcodes_0_1 : ∃ (s : State) (i : Issue) (r : Run) (u ra rb rc : Fin 16) (imm : BitVec 10) (slots : List Nat)
    (ops : List (Bool × Nat × COp)),
    let l := i.core.val
    Ready s i r ops.length ∧ cuSlots (s.atIssue i r) l u.val = some slots ∧ cuWordOk slots ra.val rb.val rc.val imm.toNat = true ∧
    slots.map (fun w => decodeWord (uopWord w ra.val rb.val rc.val imm.toNat)) = ops.map (fun o => (o.1, o.2.1, some o.2.2)) ∧
    (∀ o ∈ ops, o.2.2.legal = true ∧ (∀ c, (regOp o.2.2 c).isSome = true) ∧ ∀ t x, opTime l t o.2.2 x = 1) :=
  ⟨tCu, tIss, tRun, 2, 1, 2, 3, 0, [0x00000030018000C0, 0x0000002C00400000, 0x0000002C00400000, 0x000000AE00400000],
    [(false, 0, .shi 0 1 2 3 0), (false, 0, .alu 0 1 1 2 0), (false, 0, .alu 0 1 1 2 0), (false, 0, .alu 0 1 1 3 0)],
    ready_of (by decide +kernel), by decide +kernel, by decide +kernel, by decide +kernel, by
      intro o h
      simp only [List.mem_cons, List.not_mem_nil, or_false] at h
      obtain rfl | rfl | rfl | rfl := h <;> exact ⟨by decide, fun _ => rfl, fun _ _ => rfl⟩⟩

theorem witness_RunStartAndStop_0_1 : ∃ (s : State) (l : Fin 64) (e : QEnt), headReady s l.val = some e :=
  ⟨{ (tDev {}).setLane 3 { tLane with run := none, queue := [⟨1, false, 90000, 1000, 20000, 0, 0⟩] } with
      unit := { ((tDev {}).setLane 3 { tLane with run := none, queue := [⟨1, false, 90000, 1000, 20000, 0, 0⟩] }).unit with
        jobs := [(1, { tJob with stage := 0, bodyIn := true })] } }, 3, ⟨1, false, 90000, 1000, 20000, 0, 0⟩, by decide +kernel⟩

/-- A SESSION_OPEN that reaches MS0 at target address 0x21. -/
def tMsOpen : Req := ⟨.ms0, 0, 0, false, 0x21, 155, 0xFA82, none, 1, 0, 0, 0, 0, 0, 0, 0, 0, 133, zeros 133, []⟩
def tMsOn : State := { tSrv 4 .service with dict := { force := [(0x204101, some [1]), (0x204102, some [0x21])] } }
def tMsBytes : Bytes := [0, 155, 1, 0x10] ++ zeros 18 ++ [0, 133] ++ zeros 133

theorem tMsBytes_crc : crc16 tMsBytes = 0xFA82 := by
  unfold crc16
  rw [crc16_take 8 (e := 42857) tMsBytes (by decide +kernel)]
  rw [crc16_take 8 (e := 55591) _ (by decide +kernel)]
  rw [crc16_take 8 (e := 55667) _ (by decide +kernel)]
  rw [crc16_take 8 (e := 13071) _ (by decide +kernel)]
  rw [crc16_take 8 (e := 1088) _ (by decide +kernel)]
  rw [crc16_take 8 (e := 53889) _ (by decide +kernel)]
  rw [crc16_take 8 (e := 43739) _ (by decide +kernel)]
  rw [crc16_take 8 (e := 7636) _ (by decide +kernel)]
  rw [crc16_take 8 (e := 60280) _ (by decide +kernel)]
  rw [crc16_take 8 (e := 45402) _ (by decide +kernel)]
  rw [crc16_take 8 (e := 58711) _ (by decide +kernel)]
  rw [crc16_take 8 (e := 52052) _ (by decide +kernel)]
  rw [crc16_take 8 (e := 63151) _ (by decide +kernel)]
  rw [crc16_take 8 (e := 33440) _ (by decide +kernel)]
  rw [crc16_take 8 (e := 46888) _ (by decide +kernel)]
  rw [crc16_take 8 (e := 33054) _ (by decide +kernel)]
  rw [crc16_take 8 (e := 49057) _ (by decide +kernel)]
  rw [crc16_take 8 (e := 8177) _ (by decide +kernel)]
  rw [crc16_take 8 (e := 29583) _ (by decide +kernel)]
  rw [crc16_take 8 (e := 64130) _ (by decide +kernel)]
  decide +kernel

theorem tMsOpen_sent : spoiled tMsOpen 0x10 = false := by
  have hb : beBytes (reqWhole tMsOpen 0x10).length 2 ++ reqWhole tMsOpen 0x10 = tMsBytes := by decide +kernel
  have hf : tMsBytes ++ beBytes 0xFA82 2 = beBytes tMsOpen.flen.toNat 2 ++ reqWhole tMsOpen 0x10 ++ beBytes tMsOpen.crc.toNat 2 := by decide +kernel
  have h : msFrame (reqWhole tMsOpen 0x10) = beBytes tMsOpen.flen.toNat 2 ++ reqWhole tMsOpen 0x10 ++ beBytes tMsOpen.crc.toNat 2 :=
    (congrArg (fun b => b ++ beBytes (crc16 b) 2) hb).trans ((congrArg (fun n => tMsBytes ++ beBytes n 2) tMsBytes_crc).trans hf)
  exact (decide_eq_false (fun n => n h) : decide (msFrame (reqWhole tMsOpen 0x10) ≠
    beBytes tMsOpen.flen.toNat 2 ++ reqWhole tMsOpen 0x10 ++ beBytes tMsOpen.crc.toNat 2) = false)

theorem witness_NoSessionOnMs_0_1 : ∃ (s t : State) (r : Req), isMs r.tr = true ∧ exec (.sessionOpen r) s = .next t :=
  ⟨State.reset, _, tMsOpen, by decide +kernel, rfl⟩

theorem witness_NoSessionOnMs_1_1 : ∃ (s t : State) (r : Req) (role : Nat),
    isMs r.tr = true ∧ (∀ free, gate r 0x10 free s = .session t) ∧ sessionCheck t r 0x10 = .go role ∧ r.data.length = 133 ∧ byteAt r.data 1 = 0 ∧
    ((byteAt r.data 0).toNat = 0 ∨ 5 < (byteAt r.data 0).toNat ∨ roleAllowed t (byteAt r.data 0).toNat = true) :=
  ⟨tMsOn, tG tMsOpen tMsOn, tMsOpen, 0, by decide +kernel, gate_of (n := 0) rfl tMsOpen_sent (by decide +kernel), rfl, rfl, rfl, .inl rfl⟩

namespace W20

def tR2 : Core := { tCore with d := [(1, 0xFFFFFFFF), (2, 7), (3, 0x80000000), (4, 0)], a := [(1, 0xFFFE)], ac := [(1, 0xFF0000000180000000)] }

theorem witness_AluArithmetic_0_1 : ∃ (s : State) (i : Issue) (r : Run),
    Ready s i r 1 :=
  ⟨tDev tR2, tIss, tRun, ready_of (by decide +kernel)⟩

theorem witness_AluLogic_0_1 : ∃ (s : State) (i : Issue) (r : Run),
    Ready s i r 1 :=
  ⟨tDev tR2, tIss, tRun, ready_of (by decide +kernel)⟩

theorem witness_AluProducts_0_1 : ∃ (s : State) (i : Issue) (r : Run),
    Ready s i r 2 :=
  ⟨tDev tR2, tIss, tRun, ready_of (by decide +kernel)⟩

theorem witness_AluProducts_1_1 : ∃ (s : State) (i : Issue) (r : Run),
    Ready s i r 34 :=
  ⟨tDev tR2, tIss, tRun, ready_of (by decide +kernel)⟩

theorem witness_AluProducts_2_1 : ∃ (s : State) (i : Issue) (r : Run),
    Ready s i r 1 :=
  ⟨tDev tR2, tIss, tRun, ready_of (by decide +kernel)⟩

theorem witness_Immediates_0_1 : ∃ (s : State) (i : Issue) (r : Run),
    Ready s i r 1 :=
  ⟨tDev tR2, tIss, tRun, ready_of (by decide +kernel)⟩

theorem witness_Predicates_0_1 : ∃ (s : State) (i : Issue) (r : Run) (pd pdn : Fin 8),
    Ready s i r 1 ∧
    ((pd ≠ pdn ∨ pd.val = 0)) ∧
    (pd.val ≠ 0) :=
  ⟨tDev tR2, tIss, tRun, 1, 2, ready_of (by decide +kernel), by decide +kernel, by decide +kernel⟩

theorem witness_Accumulators_0_1 : ∃ (s : State) (i : Issue) (r : Run) (n : BitVec 7) (part : BitVec 9),
    Ready s i r 1 ∧
    (n.toNat ≤ 71) ∧
    (part = 0) :=
  ⟨tDev tR2, tIss, tRun, 0, 0, ready_of (by decide +kernel), by decide +kernel, by decide +kernel⟩

theorem witness_Accumulators_0_2 : ∃ (s : State) (i : Issue) (r : Run) (part : BitVec 9),
    Ready s i r 1 ∧ part = 1 :=
  ⟨tDev tR2, tIss, tRun, 1, ready_of (by decide +kernel), by decide +kernel⟩

theorem witness_Accumulators_0_3 : ∃ (s : State) (i : Issue) (r : Run) (part : BitVec 9),
    Ready s i r 1 ∧ part = 2 :=
  ⟨tDev tR2, tIss, tRun, 2, ready_of (by decide +kernel), by decide +kernel⟩

theorem witness_AddressRegisters_0_1 : ∃ (s : State) (i : Issue) (r : Run),
    Ready s i r 1 :=
  ⟨tDev tR2, tIss, tRun, ready_of (by decide +kernel)⟩

end W20

namespace W21

def tR3 : Core := { tCore with d := [(1, 0x200), (2, 0), (3, 5), (4, 2)], a := [(1, 0x40), (7, 0x100)] }
def tMemB (c : Core) (bank : Byte) : State := tDev { c with dbk0 := bank, dbk1 := bank }
def tL (c : Core) : State := tDev { c with d := (4, 0) :: c.d }
def tSu (c : Core) : State := { tDev {} with dt := 50, unit := { sup := { core := { c with ibk := 0x10 }, free := 70, pie := true, sepc := 0x100080 } } }
def w_j : Nat := 0
def w_y : Nat := 0

theorem witness_GuardedOffLoops_0_1 : ∃ (s : State) (i : Issue) (r : Run) (d : Fin 16) (off : BitVec 16) (count : BitVec 12) (off' : BitVec 10),
    let n := i.core.val
    let c := s.core n
    let free := { i with pn := ! i.pn }
    let fin (o : Nat) : Nat := c.pc.toNat + 4 * o
    let inside : Prop := c.ldepth = 0 ∨ (c.lvl (c.ldepth - 1)).fin ≠ c.pc
    (let goes (o : Nat) : Prop :=
       o ≠ 0 ∧ CanIssue s free r 1 ∧ inside ∧ fin o + 4 ≤ 0x7FFC
     goes off.toNat) ∧
    (let goes (o : Nat) (zero : Prop) : Prop :=
       o ≠ 0 ∧ CanIssue s free r 1 ∧ inside ∧ fin o + 4 ≤ 0x7FFC ∧ c.ldepth = 0 ∧ zero
     goes off.toNat (c.dr d.val = 0)) ∧
    (let goes (o : Nat) : Prop :=
       o ≠ 0 ∧ CanIssue s free r 1 ∧ inside ∧ fin o + 4 ≤ 0x7FFC
     goes off'.toNat) ∧
    (let goes (o : Nat) (zero : Prop) : Prop :=
       o ≠ 0 ∧ CanIssue s free r 1 ∧ inside ∧ fin o + 4 ≤ 0x7FFC ∧ c.ldepth = 0 ∧ zero
     goes off'.toNat (count = 0)) :=
  ⟨tL tCore, ⟨3, true, 0⟩, tRun, 4, 3, 0, 4, ⟨by decide +kernel, canIssue_of (by decide +kernel), by decide +kernel, by decide +kernel⟩, ⟨by decide +kernel, canIssue_of (by decide +kernel), by decide +kernel, by decide +kernel, by decide +kernel, by decide +kernel⟩, ⟨by decide +kernel, canIssue_of (by decide +kernel), by decide +kernel, by decide +kernel⟩, ⟨by decide +kernel, canIssue_of (by decide +kernel), by decide +kernel, by decide +kernel, by decide +kernel, by decide +kernel⟩⟩

theorem witness_GuardedOffLoops_0_2 : ∃ (s : State) (i : Issue) (d : Fin 16) (off : BitVec 16) (count : BitVec 12) (off' : BitVec 10),
    let n := i.core.val
    let c := s.core n
    let fin (o : Nat) : Nat := c.pc.toNat + 4 * o
    let inside : Prop := c.ldepth = 0 ∨ (c.lvl (c.ldepth - 1)).fin ≠ c.pc
    (let goes (o : Nat) : Prop :=
       o ≠ 0 ∧ n = 64 ∧ supRuns s = true ∧ (supPending s = 0 ∨ s.unit.sup.ie = false) ∧ c.guard i.pn i.pg.val = false ∧ c.imp = none ∧ inside ∧ fin o + 4 ≤ 0xFFFC ∧ fetchLevel s (c.ibk.toNat * 65536 + fin o + 4) = some s.unit.sup.level
     goes off.toNat) ∧
    (let goes (o : Nat) (zero : Prop) : Prop :=
       o ≠ 0 ∧ n = 64 ∧ supRuns s = true ∧ (supPending s = 0 ∨ s.unit.sup.ie = false) ∧ c.guard i.pn i.pg.val = false ∧ c.imp = none ∧ inside ∧ fin o + 4 ≤ 0xFFFC ∧ fetchLevel s (c.ibk.toNat * 65536 + fin o + 4) = some s.unit.sup.level ∧ c.ldepth = 0 ∧ zero
     goes off.toNat (c.dr d.val = 0)) ∧
    (let goes (o : Nat) : Prop :=
       o ≠ 0 ∧ n = 64 ∧ supRuns s = true ∧ (supPending s = 0 ∨ s.unit.sup.ie = false) ∧ c.guard i.pn i.pg.val = false ∧ c.imp = none ∧ inside ∧ fin o + 4 ≤ 0xFFFC ∧ fetchLevel s (c.ibk.toNat * 65536 + fin o + 4) = some s.unit.sup.level
     goes off'.toNat) ∧
    (let goes (o : Nat) (zero : Prop) : Prop :=
       o ≠ 0 ∧ n = 64 ∧ supRuns s = true ∧ (supPending s = 0 ∨ s.unit.sup.ie = false) ∧ c.guard i.pn i.pg.val = false ∧ c.imp = none ∧ inside ∧ fin o + 4 ≤ 0xFFFC ∧ fetchLevel s (c.ibk.toNat * 65536 + fin o + 4) = some s.unit.sup.level ∧ c.ldepth = 0 ∧ zero
     goes off'.toNat (count = 0)) :=
  ⟨tSu { pc := 0x20 }, ⟨64, true, 0⟩, 4, 3, 0, 4, ⟨by decide +kernel, by decide +kernel, by decide +kernel, by decide +kernel, by decide +kernel, by decide +kernel, by decide +kernel, by decide +kernel, by decide +kernel⟩, ⟨by decide +kernel, by decide +kernel, by decide +kernel, by decide +kernel, by decide +kernel, by decide +kernel, by decide +kernel, by decide +kernel, by decide +kernel, by decide +kernel, by decide +kernel⟩, ⟨by decide +kernel, by decide +kernel, by decide +kernel, by decide +kernel, by decide +kernel, by decide +kernel, by decide +kernel, by decide +kernel, by decide +kernel⟩, ⟨by decide +kernel, by decide +kernel, by decide +kernel, by decide +kernel, by decide +kernel, by decide +kernel, by decide +kernel, by decide +kernel, by decide +kernel, by decide +kernel, by decide +kernel⟩⟩

theorem witness_ControlFlow_0_1 : ∃ (s : State) (i : Issue) (r : Run),
    Ready s i r 1 :=
  ⟨tDev tR3, tIss, tRun, ready_of (by decide +kernel)⟩

theorem witness_ControlFlow_1_1 : ∃ (s : State) (i : Issue) (r : Run) (off : BitVec 16) (d : Fin 16) (e : RetEnt) (es : List RetEnt),
    let c := s.core i.core.val
    let j := (c.dr d.val).extractLsb' 0 16
    let b := c.pc + 4 * off
    Ready s i r 2 ∧
    (b.toNat ≤ 0x7FFC) ∧
    (b.toNat ≤ 0x7FFC ∧ c.rstack.length < 32) ∧
    (j.toNat ≤ 0x7FFC ∧ j.toNat % 4 = 0) ∧
    (j.toNat ≤ 0x7FFC ∧ j.toNat % 4 = 0 ∧ c.rstack.length < 32) ∧
    (c.rstack = e :: es ∧ (e.tgt.extractLsb' 0 16).toNat ≤ 0x7FFC) :=
  ⟨tDev { tR3 with rstack := [⟨0x104, none⟩] }, tIss, tRun, 5, 1, ⟨0x104, none⟩, [], ready_of (by decide +kernel), by decide +kernel, ⟨by decide +kernel, by decide +kernel⟩, ⟨by decide +kernel, by decide +kernel⟩, ⟨by decide +kernel, by decide +kernel, by decide +kernel⟩, ⟨by decide +kernel, by decide +kernel⟩⟩

theorem witness_Loops_0_1 : ∃ (s : State) (i : Issue) (r : Run) (d : Fin 16) (off : BitVec 16) (count : BitVec 12) (off' : BitVec 10),
    let c := s.core i.core.val
    let fin (o : Nat) : Nat := c.pc.toNat + 4 * o
    Ready s i r 1 ∧
    (off ≠ 0 ∧ fin off.toNat ≤ 0x7FFC ∧ c.dr d.val ≠ 0) ∧
    (off' ≠ 0 ∧ fin off'.toNat ≤ 0x7FFC ∧ count ≠ 0) :=
  ⟨tDev tR3, tIss, tRun, 3, 7, 4095, 4, ready_of (by decide +kernel), ⟨by decide +kernel, by decide +kernel, by decide +kernel⟩, ⟨by decide +kernel, by decide +kernel, by decide +kernel⟩⟩

theorem witness_Loops_0_2 : ∃ (s : State) (i : Issue) (r : Run) (d : Fin 16) (off : BitVec 16) (count : BitVec 12) (off' : BitVec 10),
    let c := s.core i.core.val
    let fin (o : Nat) : Nat := c.pc.toNat + 4 * o
    Ready s i r 1 ∧
    (off ≠ 0 ∧ fin off.toNat + 4 ≤ 0x7FFC ∧ c.dr d.val = 0) ∧
    (off' ≠ 0 ∧ fin off'.toNat + 4 ≤ 0x7FFC ∧ count = 0) :=
  ⟨tDev tR3, tIss, tRun, 2, 1, 0, 4, ready_of (by decide +kernel), ⟨by decide +kernel, by decide +kernel, by decide +kernel⟩, ⟨by decide +kernel, by decide +kernel, by decide +kernel⟩⟩

theorem witness_LoopEnd_0_1 : ∃ (s : State) (i : Issue) (r : Run) (v : LoopLvl),
    let c := s.core i.core.val
    CanIssue s i r 1 ∧ c.ldepth = 1 ∧ c.lvl 0 = v ∧ v.fin = c.pc ∧ v.rsd = c.rstack.length ∧ 1 < v.count.toNat ∧ v.start.toNat ≤ 0x7FFC :=
  ⟨tDev { tR3 with ldepth := 1, loops := [(0, ⟨0xF0, 0x100, 2, 0⟩)] }, tIss, tRun, ⟨0xF0, 0x100, 2, 0⟩, canIssue_of (by decide +kernel), by decide +kernel, by decide +kernel, by decide +kernel, by decide +kernel, by decide +kernel, by decide +kernel⟩

theorem witness_LoopEnd_0_2 : ∃ (s : State) (i : Issue) (r : Run) (v : LoopLvl),
    let c := s.core i.core.val
    CanIssue s i r 1 ∧ c.ldepth = 1 ∧ c.lvl 0 = v ∧ v.fin = c.pc ∧ v.rsd = c.rstack.length ∧ v.count.toNat ≤ 1 ∧ c.pc.toNat + 4 ≤ 0x7FFC :=
  ⟨tDev { tR3 with ldepth := 1, loops := [(0, ⟨0xF0, 0x100, 1, 0⟩)] }, tIss, tRun, ⟨0xF0, 0x100, 1, 0⟩, canIssue_of (by decide +kernel), by decide +kernel, by decide +kernel, by decide +kernel, by decide +kernel, by decide +kernel, by decide +kernel⟩

theorem witness_GuardedOff_0_1 : ∃ (s : State) (i : Issue) (r : Run),
    Ready s { i with pn := ! i.pn } r 1 :=
  ⟨tDev tR3, ⟨3, true, 0⟩, tRun, ready_of (by decide +kernel)⟩

theorem witness_ControlRegisters_0_1 : ∃ (s : State) (i : Issue) (r : Run),
    Ready s i r 1 :=
  ⟨tDev tR3, tIss, tRun, ready_of (by decide +kernel)⟩

theorem witness_Loads_0_1 : ∃ (s : State) (i : Issue) (r : Run) (k : Nat) (a : Fin 8) (sz : Fin 3) (bsel : Bool) (mode : Fin 4) (off : BitVec 9),
    let l := i.core.val
    let c := s.core l
    let u := s.atIssue i r
    let o : BitVec 16 := if mode = 1 then c.ar a.val else if mode = 3 then c.ar a.val + (c.dr (off.toNat % 16)).extractLsb' 0 16
      else c.ar a.val + off.signExtend 16
    let b := c.bank a.val bsel
    let n := if sz = 0 then 1 else if sz = 1 then 2 else 4
    Ready s i r k ∧ (bsel = true → a.val < 6) ∧ (mode = 3 → off.toNat < 16) ∧ o.toNat % n = 0 ∧ laneMapped s l b o.toNat n false = true ∧ (0x10 ≤ b ∧ b ≤ 0x1F → judge u l (sharedAddr l b o.toNat) 0 = 0) ∧ k = (if b = 1 then (if o.toNat < 0x800 then 6 else 20) else if 0x10 ≤ b ∧ b ≤ 0x1F then 20 else 1) :=
  ⟨tMemB tR3 0, tIss, tRun, 1, 1, 0, false, 0, 3, ready_of (by decide +kernel), by decide +kernel, by decide +kernel, by decide +kernel, by decide +kernel, by decide +kernel, by decide +kernel⟩

theorem witness_Stores_0_1 : ∃ (s : State) (i : Issue) (r : Run) (a : Fin 8) (sz : Fin 3) (bsel : Bool) (mode : Fin 4) (off : BitVec 9),
    let l := i.core.val
    let c := s.core l
    let o : BitVec 16 := if mode = 1 then c.ar a.val else if mode = 3 then c.ar a.val + (c.dr (off.toNat % 16)).extractLsb' 0 16
      else c.ar a.val + off.signExtend 16
    let b := c.bank a.val bsel
    let n := if sz = 0 then 1 else if sz = 1 then 2 else 4
    Ready s i r 1 ∧ (bsel = true → a.val < 6) ∧ (mode = 3 → off.toNat < 16) ∧ o.toNat % n = 0 ∧ laneMapped s l b o.toNat n true = true ∧ b = 0 :=
  ⟨tMemB tR3 0, tIss, tRun, 1, 0, false, 0, 3, ready_of (by decide +kernel), by decide +kernel, by decide +kernel, by decide +kernel, by decide +kernel, by decide +kernel⟩

theorem witness_Stores_0_2 : ∃ (s : State) (i : Issue) (r : Run) (a : Fin 8) (sz : Fin 3) (bsel : Bool) (mode : Fin 4) (off : BitVec 9),
    let l := i.core.val
    let c := s.core l
    let o : BitVec 16 := if mode = 1 then c.ar a.val else if mode = 3 then c.ar a.val + (c.dr (off.toNat % 16)).extractLsb' 0 16
      else c.ar a.val + off.signExtend 16
    let b := c.bank a.val bsel
    let n := if sz = 0 then 1 else if sz = 1 then 2 else 4
    Ready s i r 1 ∧ (bsel = true → a.val < 6) ∧ (mode = 3 → off.toNat < 16) ∧ o.toNat % n = 0 ∧ laneMapped s l b o.toNat n true = true ∧ (b = 1 ∨ (0x10 ≤ b ∧ b ≤ 0x1F)) :=
  ⟨tMemB tR3 1, tIss, tRun, 1, 2, false, 2, 8, ready_of (by decide +kernel), by decide +kernel, by decide +kernel, by decide +kernel, by decide +kernel, by decide +kernel⟩

theorem witness_Stack_0_1 : ∃ (s : State) (i : Issue) (r : Run) (mask : BitVec 16) (k : Nat),
    let l := i.core.val
    let c := s.core l
    let v := s.lane l
    let p := (c.ar 7).toNat
    let rs := (List.range 16).filter (fun j => mask.getLsbD j)
    let room (n : Nat) : Prop := p + 4 * n ≤ (if v.runB then v.dslimB else v.dslimA) ∧ p + 4 * n ≤ 0x8000
    Ready s i r k ∧ c.sbk = 0 ∧ p % 4 = 0 ∧
    (k = 1 ∧ room 1) ∧
    (k = rs.length ∧ rs ≠ [] ∧ room rs.length) ∧
    (k = 1 ∧ 4 ≤ p ∧ p ≤ 0x8000) ∧
    (k = rs.length ∧ rs ≠ [] ∧ 4 * rs.length ≤ p ∧ p ≤ 0x8000) :=
  ⟨tDev tR3, tIss, tRun, 1, 1, ready_of (by decide +kernel), by decide +kernel, by decide +kernel, ⟨by decide +kernel, by decide +kernel⟩, ⟨by decide +kernel, by decide +kernel, by decide +kernel⟩, ⟨by decide +kernel, by decide +kernel, by decide +kernel⟩, ⟨by decide +kernel, by decide +kernel, by decide +kernel, by decide +kernel⟩⟩

end W21

namespace W22

def w_e : Nat := 0x40
def w_lv : Nat := 0x60
def tW : WbEnt := { bank := 1, off := 4, bytes := [1,2], done := 14 }
def tW2 : WbEnt := { bank := 1, off := 4, bytes := [1,2], done := 19 }
def tRegs (d : Tab Word) : Core := { tCore with d := d, a := [(1, 0x40), (2, 0x80)] }
def tEnt2 (u : Nat) : CacheEnt := tEnt 4 u (zeros 16)
def tCfg : EpochCfg := { num := 1, mode := 4, ents := [(0x540001, some [0x01, 0x23, 0x45, 0x67, 0x89, 0x01, 0x23, 0x45])] }
def tPinBlk : Bytes := tdesEnc (zeros 16) [0x14, 0x12, 0x34, 0, 0, 0, 0, 0] ++ zeros 8 ++ List.replicate 20 0x34 ++ zeros 28
def tLen : Tab Word := [(2, 32), (5, 0x080020), (6, 0x280020), (7, 0x1080020), (8, 0x1280020), (9, 0x3080020), (10, 0x3280020)]

theorem witness_Traps_0_1 : ∃ (s : State) (i : Issue) (r : Run) (w : Word),
    let l := i.core.val
    let c := s.core l
    let u := s.atIssue i r
    let e := w_e
    CanIssue s i r 3 ∧ c.inTrap = false ∧ trapEntry u l = some e ∧
    (let d := decodeWord w.toNat
     d.1 = i.pn ∧ d.2.1 = i.pg.val ∧ d.2.2 = none) :=
  ⟨tDev tCore, tIss, tRun, 62914560, canIssue_of (by decide +kernel), by decide +kernel, by decide +kernel, ⟨by decide +kernel, by decide +kernel, by decide +kernel⟩⟩

theorem witness_Traps_0_2 : ∃ (s : State) (i : Issue) (r : Run) (w : Word),
    let l := i.core.val
    let c := s.core l
    let v := s.lane l
    let u := s.atIssue i r
    CanIssue s i r 3 ∧ (c.inTrap = true ∨ trapEntry u l = none) ∧ v.cyc + 1 + postStall u l (r.start + v.cyc) ≤ v.budget ∧
    (let d := decodeWord w.toNat
     d.1 = i.pn ∧ d.2.1 = i.pg.val ∧ d.2.2 = none) :=
  ⟨tDev { tCore with inTrap := true }, tIss, tRun, 62914560, canIssue_of (by decide +kernel), by decide +kernel, by decide +kernel, ⟨by decide +kernel, by decide +kernel, by decide +kernel⟩⟩

theorem witness_RunEnds_0_1 : ∃ (s : State) (i : Issue) (r : Run) (a b : Fin 16) (p : Fin 8) (sb : Bool),
    let l := i.core.val
    let c := s.core l
    CanIssue s i r 5 ∧
    (let st := (c.dr a.val).toNat
     let off := (c.dr b.val).toNat / 65536
     let len := (c.dr b.val).toNat % 65536
     st ∈ [0x00, 0x04, 0x05, 0x06, 0x07, 0x08, 0x0A] ∧ (len = 0 ∨ (off + len ≤ 0x2000 ∧ len ≤ (s.job r.job).rmax))) ∧
    (let o := c.ar p.val
     let n := (c.dr a.val).toNat
     (sb = true → p.val < 6) ∧ r.fin = false ∧ (s.job r.job).pkOp ≠ 0 ∧ 1 ≤ n ∧ n ≤ 1024 ∧ c.bank p.val sb = 1 ∧ o.toNat + n ≤ 0x2000) :=
  ⟨(tDev { tCore with d := [(1, 8), (2, 16)], dbk0 := 1 }).setJob 1 { tJob with pkOp := 5, engine := some 3 }, tIss, tRun, 1, 2, 1, false, canIssue_of (by decide +kernel), ⟨by decide +kernel, by decide +kernel⟩, ⟨by decide +kernel, by decide +kernel, by decide +kernel, by decide +kernel, by decide +kernel, by decide +kernel, by decide +kernel⟩⟩

theorem witness_WriteBuffer_0_1 : ∃ (s : State) (i : Issue) (r : Run),
    Ready s i r 1 :=
  ⟨tDev tCore, tIss, tRun, ready_of (by decide +kernel)⟩

theorem witness_WriteBuffer_1_1 : ∃ (s : State) (l : Fin 64) (r : Run) (e : WbEnt) (es : List WbEnt),
    let u := s.at (r.start + e.done)
    (s.lane l.val).run = some r ∧ (s.core l.val).wb = e :: es ∧ (e.bank = 1 ∨ (0x10 ≤ e.bank ∧ e.bank ≤ 0x1F ∧ judge u l.val (sharedAddr l.val e.bank e.off) 1 = 0)) :=
  ⟨tDev { tCore with wb := [tW, tW2] }, 3, tRun, tW, [tW2], by decide +kernel, by decide +kernel, by decide +kernel⟩

theorem witness_RunStartAndStop_1_1 : ∃ (s : State) (l : Fin 64) (r : Run),
    (s.lane l.val).run = some r :=
  ⟨tDev tCore, 3, tRun, by decide +kernel⟩

theorem witness_SupervisorInstructions_0_1 : ∃ (s : State) (i : Issue),
    (SupReady s i) ∧
    (let p := s.unit.sup
     let c := p.core
     let lv := w_lv
     i.core.val = 64 ∧ supRuns s = true ∧ (supPending s = 0 ∨ p.ie = false) ∧ c.guard i.pn i.pg.val = true ∧ c.imp = none ∧ fetchLevel s p.sepc.toNat = some lv ∧ (lv = p.level ∨ (p.level = 0x60 ∧ lv = 0x61) ∨ (p.level = 0x61 ∧ 0x62 ≤ lv))) :=
  ⟨{ tDev {} with dt := 50, unit := { sup := { core := { pc := 0x20, ibk := 0x10, d := [(2, 0x12345678), (3, 0x100040)] }, free := 70, pie := true, sepc := 0x100080 } } }, ⟨64, false, 0⟩, supReady_of (by decide +kernel), ⟨by decide +kernel, by decide +kernel, by decide +kernel, by decide +kernel, by decide +kernel, by decide +kernel, by decide +kernel⟩⟩

theorem witness_SupervisorInterrupts_0_1 : ∃ (s : State) (k : Fin 8),
    let p := s.unit.sup
    let u := { s with tamper := { s.tamper with sipend := s.tamper.sipend ||| 2 ^ k.val } }
    let lv := w_lv
    s.domReady 2 = true ∧ 2 ^ k.val &&& 0xB9 ≠ 0 ∧ supPending u ≠ 0 ∧ p.ie = true ∧ fetchLevel s p.svec.toNat = some lv ∧ (lv = p.level ∨ lv = 0x61) :=
  ⟨{ tDev {} with dt := 50, unit := { sup := { core := { pc := 0x20, ibk := 0x10 }, ie := true, sien := 8, svec := 0x100080 } } }, 3, by decide +kernel, by decide +kernel, by decide +kernel, by decide +kernel, by decide +kernel, by decide +kernel⟩

theorem witness_SupervisorInterrupts_0_2 : ∃ (s : State) (k : Fin 8),
    let p := s.unit.sup
    let u := { s with tamper := { s.tamper with sipend := s.tamper.sipend ||| 2 ^ k.val } }
    s.domReady 2 = true ∧ 2 ^ k.val &&& 0xB9 ≠ 0 ∧ (supPending u = 0 ∨ p.ie = false) :=
  ⟨{ tDev {} with dt := 50, unit := { sup := { core := { pc := 0x20, ibk := 0x10 }, ie := true, sien := 0, svec := 0x100080 } } }, 3, by decide +kernel, by decide +kernel, by decide +kernel⟩

theorem witness_SupervisorInterrupts_1_1 : ∃ (s : State),
    s.unit.sup.wait = true ∧ supPending s ≠ 0 :=
  ⟨{ tDev {} with tamper := { sipend := 1 }, unit := { sup := { wait := true, sien := 1 } } }, by decide +kernel, by decide +kernel⟩

theorem witness_CipherStreams_0_1 : ∃ (s : State) (i : Issue) (r : Run) (T : Nat) (kk : Fin 4) (sa da : Fin 8) (sb db : Bool) (dn : Fin 16),
    let l := i.core.val
    let c := s.core l
    let u := s.atIssue i r
    let w := lenWord (c.dr dn.val)
    let a := c.addr (sa.val, sb)
    let b := c.addr (da.val, db)
    let one : Bool := decide ((s.job r.job).xa ≠ 0)
    let la := if declared u l kk.val = 1 then 11 else if declared u l kk.val = 2 then 13 else 15
    let wa := if one then 3 else 1
    let ta := if one then 4 else 2
    let first := if a.1 = 1 then 6 else 1
    let form (tdes : Bool) (fn : Nat) : Prop :=
      let n := (w.len + (if tdes then 7 else 15)) / (if tdes then 8 else 16)
      (sb = true → sa.val < 6) ∧ (db = true → da.val < 6) ∧ unitRanges u l [(a.1, a.2, w.len), (b.1, b.2, w.len)] = none ∧ cryArgOk tdes fn w = true ∧ keyTrap u l (if tdes then 1 else 0) (if fn = 1 ∨ fn = 3 then 1 else 0) false [kk.val] = none ∧ T = 2 + first + 1 + (if fn = 2 then n * (if tdes then 33 else wa + la) else if tdes then 7 + 8 * (n - 1) + 26 else wa + ta * (n - 1) + la)
    Ready s i r T ∧
    (form false 0) ∧
    (form false 1) ∧
    (form false 3) ∧
    (form false 4) :=
  ⟨tDev (tRegs tLen), tIss, tRun, 18, 0, 1, 2, false, false, 2, ready_of (by decide +kernel), ⟨by decide +kernel, by decide +kernel, by decide +kernel, by decide +kernel, by decide +kernel, by decide +kernel⟩, ⟨by decide +kernel, by decide +kernel, by decide +kernel, by decide +kernel, by decide +kernel, by decide +kernel⟩, ⟨by decide +kernel, by decide +kernel, by decide +kernel, by decide +kernel, by decide +kernel, by decide +kernel⟩, ⟨by decide +kernel, by decide +kernel, by decide +kernel, by decide +kernel, by decide +kernel, by decide +kernel⟩⟩

theorem witness_CipherStreams_0_2 : ∃ (s : State) (i : Issue) (r : Run) (T : Nat) (kk : Fin 4) (sa da : Fin 8) (sb db : Bool) (dn : Fin 16),
    let l := i.core.val
    let c := s.core l
    let u := s.atIssue i r
    let w := lenWord (c.dr dn.val)
    let a := c.addr (sa.val, sb)
    let b := c.addr (da.val, db)
    let one : Bool := decide ((s.job r.job).xa ≠ 0)
    let la := if declared u l kk.val = 1 then 11 else if declared u l kk.val = 2 then 13 else 15
    let wa := if one then 3 else 1
    let ta := if one then 4 else 2
    let first := if a.1 = 1 then 6 else 1
    let form (tdes : Bool) (fn : Nat) : Prop :=
      let n := (w.len + (if tdes then 7 else 15)) / (if tdes then 8 else 16)
      (sb = true → sa.val < 6) ∧ (db = true → da.val < 6) ∧ unitRanges u l [(a.1, a.2, w.len), (b.1, b.2, w.len)] = none ∧ cryArgOk tdes fn w = true ∧ keyTrap u l (if tdes then 1 else 0) (if fn = 1 ∨ fn = 3 then 1 else 0) false [kk.val] = none ∧ T = 2 + first + 1 + (if fn = 2 then n * (if tdes then 33 else wa + la) else if tdes then 7 + 8 * (n - 1) + 26 else wa + ta * (n - 1) + la)
    Ready s i r T ∧
    (form true 0) ∧
    (form true 1) ∧
    (form true 3) :=
  ⟨tDev (tRegs tLen), tIss, tRun, 61, 1, 1, 2, false, false, 2, ready_of (by decide +kernel), ⟨by decide +kernel, by decide +kernel, by decide +kernel, by decide +kernel, by decide +kernel, by decide +kernel⟩, ⟨by decide +kernel, by decide +kernel, by decide +kernel, by decide +kernel, by decide +kernel, by decide +kernel⟩, ⟨by decide +kernel, by decide +kernel, by decide +kernel, by decide +kernel, by decide +kernel, by decide +kernel⟩⟩

theorem witness_CipherStreams_0_3 : ∃ (s : State) (i : Issue) (r : Run) (T : Nat) (kk : Fin 4) (sa da : Fin 8) (sb db : Bool) (dn : Fin 16),
    let l := i.core.val
    let c := s.core l
    let u := s.atIssue i r
    let w := lenWord (c.dr dn.val)
    let a := c.addr (sa.val, sb)
    let b := c.addr (da.val, db)
    let one : Bool := decide ((s.job r.job).xa ≠ 0)
    let la := if declared u l kk.val = 1 then 11 else if declared u l kk.val = 2 then 13 else 15
    let wa := if one then 3 else 1
    let ta := if one then 4 else 2
    let first := if a.1 = 1 then 6 else 1
    let form (tdes : Bool) (fn : Nat) : Prop :=
      let n := (w.len + (if tdes then 7 else 15)) / (if tdes then 8 else 16)
      (sb = true → sa.val < 6) ∧ (db = true → da.val < 6) ∧ unitRanges u l [(a.1, a.2, w.len), (b.1, b.2, w.len)] = none ∧ cryArgOk tdes fn w = true ∧ keyTrap u l (if tdes then 1 else 0) (if fn = 1 ∨ fn = 3 then 1 else 0) false [kk.val] = none ∧ T = 2 + first + 1 + (if fn = 2 then n * (if tdes then 33 else wa + la) else if tdes then 7 + 8 * (n - 1) + 26 else wa + ta * (n - 1) + la)
    Ready s i r T ∧ form false 2 :=
  ⟨tDev (tRegs tLen), tIss, tRun, 28, 0, 1, 2, false, false, 2, ready_of (by decide +kernel), ⟨by decide +kernel, by decide +kernel, by decide +kernel, by decide +kernel, by decide +kernel, by decide +kernel⟩⟩

theorem witness_CipherStreams_0_4 : ∃ (s : State) (i : Issue) (r : Run) (T : Nat) (kk : Fin 4) (sa da : Fin 8) (sb db : Bool) (dn : Fin 16),
    let l := i.core.val
    let c := s.core l
    let u := s.atIssue i r
    let w := lenWord (c.dr dn.val)
    let a := c.addr (sa.val, sb)
    let b := c.addr (da.val, db)
    let one : Bool := decide ((s.job r.job).xa ≠ 0)
    let la := if declared u l kk.val = 1 then 11 else if declared u l kk.val = 2 then 13 else 15
    let wa := if one then 3 else 1
    let ta := if one then 4 else 2
    let first := if a.1 = 1 then 6 else 1
    let form (tdes : Bool) (fn : Nat) : Prop :=
      let n := (w.len + (if tdes then 7 else 15)) / (if tdes then 8 else 16)
      (sb = true → sa.val < 6) ∧ (db = true → da.val < 6) ∧ unitRanges u l [(a.1, a.2, w.len), (b.1, b.2, w.len)] = none ∧ cryArgOk tdes fn w = true ∧ keyTrap u l (if tdes then 1 else 0) (if fn = 1 ∨ fn = 3 then 1 else 0) false [kk.val] = none ∧ T = 2 + first + 1 + (if fn = 2 then n * (if tdes then 33 else wa + la) else if tdes then 7 + 8 * (n - 1) + 26 else wa + ta * (n - 1) + la)
    Ready s i r T ∧ form true 2 :=
  ⟨tDev (tRegs tLen), tIss, tRun, 136, 1, 1, 2, false, false, 2, ready_of (by decide +kernel), ⟨by decide +kernel, by decide +kernel, by decide +kernel, by decide +kernel, by decide +kernel, by decide +kernel⟩⟩

theorem witness_CipherMacs_0_1 : ∃ (s : State) (i : Issue) (r : Run) (T : Nat) (kk : Fin 4) (sa da : Fin 8) (sb db : Bool) (dn : Fin 16),
    let l := i.core.val
    let c := s.core l
    let u := s.atIssue i r
    let w := lenWord (c.dr dn.val)
    let a := c.addr (sa.val, sb)
    let b := c.addr (da.val, db)
    let part : Bool := decide (w.seg = 1 ∨ w.seg = 2)
    Ready s i r T ∧
    (let form (tdes : Bool) (fn : Nat) (mac3 : Bool) (verify : Bool) : Prop :=
       (sb = true → sa.val < 6) ∧ (db = true → da.val < 6) ∧ unitRanges u l ((a.1, a.2, w.len) :: (if part then [] else [(b.1, b.2, w.tlen)])) = none ∧ cryArgOk tdes fn w = true ∧ macStateOk c tdes fn kk.val w = true ∧ keyTrap u l (if tdes then 1 else 0) (if verify then 3 else 2) mac3 [kk.val] = none ∧ T = cryTime l (s.lane l).cyc tdes fn kk.val (sa.val, sb) (da.val, db) dn.val u ∧ part = false ∧ verify = false
     form true 4 false false) ∧
    (let form (tdes : Bool) (fn : Nat) (mac3 : Bool) (verify : Bool) : Prop :=
       (sb = true → sa.val < 6) ∧ (db = true → da.val < 6) ∧ unitRanges u l ((a.1, a.2, w.len) :: (if part then [] else [(b.1, b.2, w.tlen)])) = none ∧ cryArgOk tdes fn w = true ∧ macStateOk c tdes fn kk.val w = true ∧ keyTrap u l (if tdes then 1 else 0) (if verify then 3 else 2) mac3 [kk.val] = none ∧ T = cryTime l (s.lane l).cyc tdes fn kk.val (sa.val, sb) (da.val, db) dn.val u ∧ part = false ∧ verify = true
     form true 5 false true) ∧
    (let form (tdes : Bool) (fn : Nat) (mac3 : Bool) (verify : Bool) : Prop :=
       (sb = true → sa.val < 6) ∧ (db = true → da.val < 6) ∧ unitRanges u l ((a.1, a.2, w.len) :: (if part then [] else [(b.1, b.2, w.tlen)])) = none ∧ cryArgOk tdes fn w = true ∧ macStateOk c tdes fn kk.val w = true ∧ keyTrap u l (if tdes then 1 else 0) (if verify then 3 else 2) mac3 [kk.val] = none ∧ T = cryTime l (s.lane l).cyc tdes fn kk.val (sa.val, sb) (da.val, db) dn.val u ∧ part = false ∧ verify = false
     form true 6 true false) ∧
    (let form (tdes : Bool) (fn : Nat) (mac3 : Bool) (verify : Bool) : Prop :=
       (sb = true → sa.val < 6) ∧ (db = true → da.val < 6) ∧ unitRanges u l ((a.1, a.2, w.len) :: (if part then [] else [(b.1, b.2, w.tlen)])) = none ∧ cryArgOk tdes fn w = true ∧ macStateOk c tdes fn kk.val w = true ∧ keyTrap u l (if tdes then 1 else 0) (if verify then 3 else 2) mac3 [kk.val] = none ∧ T = cryTime l (s.lane l).cyc tdes fn kk.val (sa.val, sb) (da.val, db) dn.val u ∧ part = false ∧ verify = true
     form true 7 true true) :=
  ⟨tDev (tRegs tLen), tIss, tRun, 136, 1, 1, 2, false, false, 6, ready_of (by decide +kernel), ⟨by decide +kernel, by decide +kernel, by decide +kernel, by decide +kernel, by decide +kernel, by decide +kernel, by decide +kernel, by decide +kernel, by decide +kernel⟩, ⟨by decide +kernel, by decide +kernel, by decide +kernel, by decide +kernel, by decide +kernel, by decide +kernel, by decide +kernel, by decide +kernel, by decide +kernel⟩, ⟨by decide +kernel, by decide +kernel, by decide +kernel, by decide +kernel, by decide +kernel, by decide +kernel, by decide +kernel, by decide +kernel, by decide +kernel⟩, ⟨by decide +kernel, by decide +kernel, by decide +kernel, by decide +kernel, by decide +kernel, by decide +kernel, by decide +kernel, by decide +kernel, by decide +kernel⟩⟩

theorem witness_CipherMacs_0_2 : ∃ (s : State) (i : Issue) (r : Run) (T : Nat) (kk : Fin 4) (sa da : Fin 8) (sb db : Bool) (dn : Fin 16),
    let l := i.core.val
    let c := s.core l
    let u := s.atIssue i r
    let w := lenWord (c.dr dn.val)
    let a := c.addr (sa.val, sb)
    let b := c.addr (da.val, db)
    let part : Bool := decide (w.seg = 1 ∨ w.seg = 2)
    let form (tdes : Bool) (fn : Nat) (mac3 : Bool) (verify : Bool) : Prop :=
      (sb = true → sa.val < 6) ∧ (db = true → da.val < 6) ∧ unitRanges u l ((a.1, a.2, w.len) :: (if part then [] else [(b.1, b.2, w.tlen)])) = none ∧ cryArgOk tdes fn w = true ∧ macStateOk c tdes fn kk.val w = true ∧ keyTrap u l (if tdes then 1 else 0) (if verify then 3 else 2) mac3 [kk.val] = none ∧ T = cryTime l (s.lane l).cyc tdes fn kk.val (sa.val, sb) (da.val, db) dn.val u ∧ part = true
    Ready s i r T ∧
    (form true 4 false false) ∧
    (form true 5 false true) ∧
    (form true 6 true false) ∧
    (form true 7 true true) :=
  ⟨tDev (tRegs tLen), tIss, tRun, 136, 1, 1, 2, false, false, 8, ready_of (by decide +kernel), ⟨by decide +kernel, by decide +kernel, by decide +kernel, by decide +kernel, by decide +kernel, by decide +kernel, by decide +kernel, by decide +kernel⟩, ⟨by decide +kernel, by decide +kernel, by decide +kernel, by decide +kernel, by decide +kernel, by decide +kernel, by decide +kernel, by decide +kernel⟩, ⟨by decide +kernel, by decide +kernel, by decide +kernel, by decide +kernel, by decide +kernel, by decide +kernel, by decide +kernel, by decide +kernel⟩, ⟨by decide +kernel, by decide +kernel, by decide +kernel, by decide +kernel, by decide +kernel, by decide +kernel, by decide +kernel, by decide +kernel⟩⟩

theorem witness_CipherMacs_0_3 : ∃ (s : State) (i : Issue) (r : Run) (T : Nat) (kk : Fin 4) (sa da : Fin 8) (sb db : Bool) (dn : Fin 16),
    let l := i.core.val
    let c := s.core l
    let u := s.atIssue i r
    let w := lenWord (c.dr dn.val)
    let a := c.addr (sa.val, sb)
    let b := c.addr (da.val, db)
    let part : Bool := decide (w.seg = 1 ∨ w.seg = 2)
    Ready s i r T ∧
    (let form (tdes : Bool) (fn : Nat) (mac3 : Bool) (verify : Bool) : Prop :=
       (sb = true → sa.val < 6) ∧ (db = true → da.val < 6) ∧ unitRanges u l ((a.1, a.2, w.len) :: (if part then [] else [(b.1, b.2, w.tlen)])) = none ∧ cryArgOk tdes fn w = true ∧ macStateOk c tdes fn kk.val w = true ∧ keyTrap u l (if tdes then 1 else 0) (if verify then 3 else 2) mac3 [kk.val] = none ∧ T = cryTime l (s.lane l).cyc tdes fn kk.val (sa.val, sb) (da.val, db) dn.val u ∧ part = false ∧ verify = false
     form false 5 false false) ∧
    (let form (tdes : Bool) (fn : Nat) (mac3 : Bool) (verify : Bool) : Prop :=
       (sb = true → sa.val < 6) ∧ (db = true → da.val < 6) ∧ unitRanges u l ((a.1, a.2, w.len) :: (if part then [] else [(b.1, b.2, w.tlen)])) = none ∧ cryArgOk tdes fn w = true ∧ macStateOk c tdes fn kk.val w = true ∧ keyTrap u l (if tdes then 1 else 0) (if verify then 3 else 2) mac3 [kk.val] = none ∧ T = cryTime l (s.lane l).cyc tdes fn kk.val (sa.val, sb) (da.val, db) dn.val u ∧ part = false ∧ verify = true
     form false 6 false true) :=
  ⟨tDev (tRegs tLen), tIss, tRun, 28, 0, 1, 2, false, false, 5, ready_of (by decide +kernel), ⟨by decide +kernel, by decide +kernel, by decide +kernel, by decide +kernel, by decide +kernel, by decide +kernel, by decide +kernel, by decide +kernel, by decide +kernel⟩, ⟨by decide +kernel, by decide +kernel, by decide +kernel, by decide +kernel, by decide +kernel, by decide +kernel, by decide +kernel, by decide +kernel, by decide +kernel⟩⟩

theorem witness_CipherMacs_0_4 : ∃ (s : State) (i : Issue) (r : Run) (T : Nat) (kk : Fin 4) (sa da : Fin 8) (sb db : Bool) (dn : Fin 16),
    let l := i.core.val
    let c := s.core l
    let u := s.atIssue i r
    let w := lenWord (c.dr dn.val)
    let a := c.addr (sa.val, sb)
    let b := c.addr (da.val, db)
    let part : Bool := decide (w.seg = 1 ∨ w.seg = 2)
    let form (tdes : Bool) (fn : Nat) (mac3 : Bool) (verify : Bool) : Prop :=
      (sb = true → sa.val < 6) ∧ (db = true → da.val < 6) ∧ unitRanges u l ((a.1, a.2, w.len) :: (if part then [] else [(b.1, b.2, w.tlen)])) = none ∧ cryArgOk tdes fn w = true ∧ macStateOk c tdes fn kk.val w = true ∧ keyTrap u l (if tdes then 1 else 0) (if verify then 3 else 2) mac3 [kk.val] = none ∧ T = cryTime l (s.lane l).cyc tdes fn kk.val (sa.val, sb) (da.val, db) dn.val u ∧ part = true
    Ready s i r T ∧
    (form false 5 false false) ∧
    (form false 6 false true) :=
  ⟨tDev (tRegs tLen), tIss, tRun, 28, 0, 1, 2, false, false, 7, ready_of (by decide +kernel), ⟨by decide +kernel, by decide +kernel, by decide +kernel, by decide +kernel, by decide +kernel, by decide +kernel, by decide +kernel, by decide +kernel⟩, ⟨by decide +kernel, by decide +kernel, by decide +kernel, by decide +kernel, by decide +kernel, by decide +kernel, by decide +kernel, by decide +kernel⟩⟩

theorem witness_CipherMacs_0_5 : ∃ (s : State) (i : Issue) (r : Run) (T : Nat) (kk : Fin 4),
    let l := i.core.val
    let u := s.atIssue i r
    Ready s i r T ∧ keyTrap u l 0 0 false [kk.val] = none ∧ T = 3 + (if (s.job r.job).xa ≠ 0 then 3 else 1) + aesLat (declared u l kk.val) :=
  ⟨tDev (tRegs tLen), tIss, tRun, 15, 0, ready_of (by decide +kernel), by decide +kernel, by decide +kernel⟩

theorem witness_HashUnit_0_1 : ∃ (s : State) (i : Issue) (r : Run) (T : Nat) (first last : Bool) (sa da : Fin 8) (sb db : Bool) (dn : Fin 16) (h0 : HashSt),
    let l := i.core.val
    let c := s.core l
    let u := s.atIssue i r
    let n := (c.dr dn.val).toNat
    let a := c.addr (sa.val, sb)
    let b := c.addr (da.val, db)
    let form (fn : Nat) (blk : Nat) (len : Nat) : Prop :=
      (sb = true → sa.val < 6) ∧ (db = true → da.val < 6) ∧ (last = false → da.val = 0 ∧ db = false) ∧ n < 65536 ∧ (last = false ∨ fn = 3 → n % blk = 0) ∧ (first = false → c.hash = some h0 ∧ h0.fn = fn) ∧ unitRanges u l (if last then [(a.1, a.2, n), (b.1, b.2, len)] else [(a.1, a.2, n)]) = none ∧ T = hashTime l (s.lane l).cyc fn last (sa.val, sb) dn.val u ∧ last = true
    Ready s i r T ∧
    (form 1 128 48) ∧
    (form 2 128 64) :=
  ⟨tDev (tRegs [(2, 128)]), tIss, tRun, hashTime 3 10 1 true (1, false) 2 ((tDev (tRegs [(2, 128)])).atIssue tIss tRun), true, true, 1, 2, false, false, 2, hashStart 0, ready_of (by decide +kernel), ⟨by decide +kernel, by decide +kernel, by decide +kernel, by decide +kernel, by decide +kernel, by decide +kernel, by decide +kernel, by decide +kernel, by decide +kernel⟩, ⟨by decide +kernel, by decide +kernel, by decide +kernel, by decide +kernel, by decide +kernel, by decide +kernel, by decide +kernel, by decide +kernel, by decide +kernel⟩⟩

theorem witness_HashUnit_0_2 : ∃ (s : State) (i : Issue) (r : Run) (T : Nat) (first last : Bool) (sa da : Fin 8) (sb db : Bool) (dn : Fin 16) (h0 : HashSt),
    let l := i.core.val
    let c := s.core l
    let u := s.atIssue i r
    let n := (c.dr dn.val).toNat
    let a := c.addr (sa.val, sb)
    let b := c.addr (da.val, db)
    let form (fn : Nat) (blk : Nat) (len : Nat) : Prop :=
      (sb = true → sa.val < 6) ∧ (db = true → da.val < 6) ∧ (last = false → da.val = 0 ∧ db = false) ∧ n < 65536 ∧ (last = false ∨ fn = 3 → n % blk = 0) ∧ (first = false → c.hash = some h0 ∧ h0.fn = fn) ∧ unitRanges u l (if last then [(a.1, a.2, n), (b.1, b.2, len)] else [(a.1, a.2, n)]) = none ∧ T = hashTime l (s.lane l).cyc fn last (sa.val, sb) dn.val u ∧ last = true
    Ready s i r T ∧ form 0 64 32 :=
  ⟨tDev (tRegs [(2, 128)]), tIss, tRun, hashTime 3 10 0 true (1, false) 2 ((tDev (tRegs [(2, 128)])).atIssue tIss tRun), true, true, 1, 2, false, false, 2, hashStart 0, ready_of (by decide +kernel), ⟨by decide +kernel, by decide +kernel, by decide +kernel, by decide +kernel, by decide +kernel, by decide +kernel, by decide +kernel, by decide +kernel, by decide +kernel⟩⟩

theorem witness_HashUnit_0_3 : ∃ (s : State) (i : Issue) (r : Run) (T : Nat) (first last : Bool) (sa da : Fin 8) (sb db : Bool) (dn : Fin 16) (h0 : HashSt),
    let l := i.core.val
    let c := s.core l
    let u := s.atIssue i r
    let n := (c.dr dn.val).toNat
    let a := c.addr (sa.val, sb)
    let b := c.addr (da.val, db)
    let form (fn : Nat) (blk : Nat) (len : Nat) : Prop :=
      (sb = true → sa.val < 6) ∧ (db = true → da.val < 6) ∧ (last = false → da.val = 0 ∧ db = false) ∧ n < 65536 ∧ (last = false ∨ fn = 3 → n % blk = 0) ∧ (first = false → c.hash = some h0 ∧ h0.fn = fn) ∧ unitRanges u l (if last then [(a.1, a.2, n), (b.1, b.2, len)] else [(a.1, a.2, n)]) = none ∧ T = hashTime l (s.lane l).cyc fn last (sa.val, sb) dn.val u ∧ last = false
    Ready s i r T ∧ form 0 64 32 :=
  ⟨tDev { tRegs [(2, 128)] with hash := some (hashStart 0) }, tIss, tRun, hashTime 3 10 0 false (1, false) 2 ((tDev (tRegs [(2, 128)])).atIssue tIss tRun), false, false, 1, 0, false, false, 2, hashStart 0, ready_of (by decide +kernel), ⟨by decide +kernel, by decide +kernel, by decide +kernel, by decide +kernel, by decide +kernel, by decide +kernel, by decide +kernel, by decide +kernel, by decide +kernel⟩⟩

theorem witness_HashUnit_0_4 : ∃ (s : State) (i : Issue) (r : Run) (T : Nat) (first last : Bool) (sa da : Fin 8) (sb db : Bool) (dn : Fin 16) (h0 : HashSt),
    let l := i.core.val
    let c := s.core l
    let u := s.atIssue i r
    let n := (c.dr dn.val).toNat
    let a := c.addr (sa.val, sb)
    let b := c.addr (da.val, db)
    let form (fn : Nat) (blk : Nat) (len : Nat) : Prop :=
      (sb = true → sa.val < 6) ∧ (db = true → da.val < 6) ∧ (last = false → da.val = 0 ∧ db = false) ∧ n < 65536 ∧ (last = false ∨ fn = 3 → n % blk = 0) ∧ (first = false → c.hash = some h0 ∧ h0.fn = fn) ∧ unitRanges u l (if last then [(a.1, a.2, n), (b.1, b.2, len)] else [(a.1, a.2, n)]) = none ∧ T = hashTime l (s.lane l).cyc fn last (sa.val, sb) dn.val u ∧ last = false
    Ready s i r T ∧ form 1 128 48 :=
  ⟨tDev { tRegs [(2, 128)] with hash := some (hashStart 1) }, tIss, tRun, hashTime 3 10 1 false (1, false) 2 ((tDev (tRegs [(2, 128)])).atIssue tIss tRun), false, false, 1, 0, false, false, 2, hashStart 1, ready_of (by decide +kernel), ⟨by decide +kernel, by decide +kernel, by decide +kernel, by decide +kernel, by decide +kernel, by decide +kernel, by decide +kernel, by decide +kernel, by decide +kernel⟩⟩

theorem witness_HashUnit_0_5 : ∃ (s : State) (i : Issue) (r : Run) (T : Nat) (first last : Bool) (sa da : Fin 8) (sb db : Bool) (dn : Fin 16) (h0 : HashSt),
    let l := i.core.val
    let c := s.core l
    let u := s.atIssue i r
    let n := (c.dr dn.val).toNat
    let a := c.addr (sa.val, sb)
    let b := c.addr (da.val, db)
    let form (fn : Nat) (blk : Nat) (len : Nat) : Prop :=
      (sb = true → sa.val < 6) ∧ (db = true → da.val < 6) ∧ (last = false → da.val = 0 ∧ db = false) ∧ n < 65536 ∧ (last = false ∨ fn = 3 → n % blk = 0) ∧ (first = false → c.hash = some h0 ∧ h0.fn = fn) ∧ unitRanges u l (if last then [(a.1, a.2, n), (b.1, b.2, len)] else [(a.1, a.2, n)]) = none ∧ T = hashTime l (s.lane l).cyc fn last (sa.val, sb) dn.val u ∧ last = false
    Ready s i r T ∧ form 2 128 64 :=
  ⟨tDev { tRegs [(2, 128)] with hash := some (hashStart 2) }, tIss, tRun, hashTime 3 10 2 false (1, false) 2 ((tDev (tRegs [(2, 128)])).atIssue tIss tRun), false, false, 1, 0, false, false, 2, hashStart 2, ready_of (by decide +kernel), ⟨by decide +kernel, by decide +kernel, by decide +kernel, by decide +kernel, by decide +kernel, by decide +kernel, by decide +kernel, by decide +kernel, by decide +kernel⟩⟩

theorem witness_HashUnit_0_6 : ∃ (s : State) (i : Issue) (r : Run) (T : Nat) (first last : Bool) (sa da : Fin 8) (sb db : Bool) (dn : Fin 16) (h0 : HashSt),
    let l := i.core.val
    let c := s.core l
    let u := s.atIssue i r
    let n := (c.dr dn.val).toNat
    let a := c.addr (sa.val, sb)
    let b := c.addr (da.val, db)
    let form (fn : Nat) (blk : Nat) (len : Nat) : Prop :=
      (sb = true → sa.val < 6) ∧ (db = true → da.val < 6) ∧ (last = false → da.val = 0 ∧ db = false) ∧ n < 65536 ∧ (last = false ∨ fn = 3 → n % blk = 0) ∧ (first = false → c.hash = some h0 ∧ h0.fn = fn) ∧ unitRanges u l (if last then [(a.1, a.2, n), (b.1, b.2, len)] else [(a.1, a.2, n)]) = none ∧ T = hashTime l (s.lane l).cyc fn last (sa.val, sb) dn.val u ∧ last = true
    Ready s i r T ∧ form 3 16 16 :=
  ⟨tDev (tRegs [(2, 128)]), tIss, tRun, hashTime 3 10 3 true (1, false) 2 ((tDev (tRegs [(2, 128)])).atIssue tIss tRun), true, true, 1, 2, false, false, 2, hashStart 0, ready_of (by decide +kernel), ⟨by decide +kernel, by decide +kernel, by decide +kernel, by decide +kernel, by decide +kernel, by decide +kernel, by decide +kernel, by decide +kernel, by decide +kernel⟩⟩

theorem witness_HashUnit_0_7 : ∃ (s : State) (i : Issue) (r : Run) (T : Nat) (first last : Bool) (sa da : Fin 8) (sb db : Bool) (dn : Fin 16) (h0 : HashSt),
    let l := i.core.val
    let c := s.core l
    let u := s.atIssue i r
    let n := (c.dr dn.val).toNat
    let a := c.addr (sa.val, sb)
    let b := c.addr (da.val, db)
    let form (fn : Nat) (blk : Nat) (len : Nat) : Prop :=
      (sb = true → sa.val < 6) ∧ (db = true → da.val < 6) ∧ (last = false → da.val = 0 ∧ db = false) ∧ n < 65536 ∧ (last = false ∨ fn = 3 → n % blk = 0) ∧ (first = false → c.hash = some h0 ∧ h0.fn = fn) ∧ unitRanges u l (if last then [(a.1, a.2, n), (b.1, b.2, len)] else [(a.1, a.2, n)]) = none ∧ T = hashTime l (s.lane l).cyc fn last (sa.val, sb) dn.val u ∧ last = false
    Ready s i r T ∧ form 3 16 16 :=
  ⟨tDev { tRegs [(2, 128)] with hash := some (hashStart 3) }, tIss, tRun, hashTime 3 10 3 false (1, false) 2 ((tDev (tRegs [(2, 128)])).atIssue tIss tRun), false, false, 1, 0, false, false, 2, hashStart 3, ready_of (by decide +kernel), ⟨by decide +kernel, by decide +kernel, by decide +kernel, by decide +kernel, by decide +kernel, by decide +kernel, by decide +kernel, by decide +kernel, by decide +kernel⟩⟩

theorem witness_MessageAssists_0_1 : ∃ (s : State) (i : Issue) (r : Run) (T : Nat) (sa da : Fin 8) (sb db : Bool) (dn : Fin 16),
    let l := i.core.val
    let c := s.core l
    let u := s.atIssue i r
    let w := lenWord (c.dr dn.val)
    let a := c.addr (sa.val, sb)
    let b := c.addr (da.val, db)
    let ok (fn n : Nat) : Prop :=
      let from' := if fn = 1 then [] else [(a.1, a.2, w.len)]
      (sb = true → sa.val < 6) ∧ (db = true → da.val < 6) ∧ w.top = 0 ∧ w.seg = 0 ∧ w.len ≤ 8192 ∧ (fn ≠ 1 → w.fill = 0) ∧
      (fn = 4 → w.len % 2 = 0) ∧
      (∀ x ∈ from' ++ [(b.1, b.2, n)], rangeMapped u l x = true ∧ (x.1 = 0 ∨ x.1 = 1 ∨ (0x10 ≤ x.1 ∧ x.1 ≤ 0x1F))) ∧
      msgRefusal u l fn w.len from' (b.1, b.2, n) = none ∧
      T = msgTime l (s.lane l).cyc fn (sa.val, sb) (da.val, db) dn.val u
    Ready s i r T ∧
    (ok 0 w.len) ∧
    (ok 2 w.len) ∧
    (ok 3 w.len) ∧
    (ok 4 (w.len / 2)) ∧
    (ok 6 ((w.len + 1) / 2)) :=
  ⟨tDev (tRegs tLen), tIss, tRun, 4, 1, 2, false, false, 2, ready_of (by decide +kernel), by decide +kernel, by decide +kernel, by decide +kernel, by decide +kernel, by decide +kernel⟩

theorem witness_MessageAssists_0_2 : ∃ (s : State) (i : Issue) (r : Run) (T : Nat) (sa da : Fin 8) (sb db : Bool) (dn : Fin 16),
    let l := i.core.val
    let c := s.core l
    let u := s.atIssue i r
    let w := lenWord (c.dr dn.val)
    let a := c.addr (sa.val, sb)
    let b := c.addr (da.val, db)
    let ok (fn n : Nat) : Prop :=
      let from' := if fn = 1 then [] else [(a.1, a.2, w.len)]
      (sb = true → sa.val < 6) ∧ (db = true → da.val < 6) ∧ w.top = 0 ∧ w.seg = 0 ∧ w.len ≤ 8192 ∧ (fn ≠ 1 → w.fill = 0) ∧
      (fn = 4 → w.len % 2 = 0) ∧
      (∀ x ∈ from' ++ [(b.1, b.2, n)], rangeMapped u l x = true ∧ (x.1 = 0 ∨ x.1 = 1 ∨ (0x10 ≤ x.1 ∧ x.1 ≤ 0x1F))) ∧
      msgRefusal u l fn w.len from' (b.1, b.2, n) = none ∧
      T = msgTime l (s.lane l).cyc fn (sa.val, sb) (da.val, db) dn.val u
    Ready s i r T ∧
    (ok 5 (2 * w.len)) ∧
    (ok 7 (2 * w.len)) :=
  ⟨tDev (tRegs tLen), tIss, tRun, 6, 1, 2, false, false, 2, ready_of (by decide +kernel), by decide +kernel, by decide +kernel⟩

theorem witness_MessageAssists_0_3 : ∃ (s : State) (i : Issue) (r : Run) (T : Nat) (sa da : Fin 8) (sb db : Bool) (dn : Fin 16),
    let l := i.core.val
    let c := s.core l
    let u := s.atIssue i r
    let w := lenWord (c.dr dn.val)
    let a := c.addr (sa.val, sb)
    let b := c.addr (da.val, db)
    let ok (fn n : Nat) : Prop :=
      let from' := if fn = 1 then [] else [(a.1, a.2, w.len)]
      (sb = true → sa.val < 6) ∧ (db = true → da.val < 6) ∧ w.top = 0 ∧ w.seg = 0 ∧ w.len ≤ 8192 ∧ (fn ≠ 1 → w.fill = 0) ∧
      (fn = 4 → w.len % 2 = 0) ∧
      (∀ x ∈ from' ++ [(b.1, b.2, n)], rangeMapped u l x = true ∧ (x.1 = 0 ∨ x.1 = 1 ∨ (0x10 ≤ x.1 ∧ x.1 ≤ 0x1F))) ∧
      msgRefusal u l fn w.len from' (b.1, b.2, n) = none ∧
      T = msgTime l (s.lane l).cyc fn (sa.val, sb) (da.val, db) dn.val u
    Ready s i r T ∧ ok 1 w.len :=
  ⟨tDev (tRegs tLen), tIss, tRun, 3, 1, 2, false, false, 2, ready_of (by decide +kernel), by decide +kernel⟩

theorem witness_MessageAssists_0_4 : ∃ (s : State) (i : Issue) (r : Run) (T : Nat) (pd pdn : Fin 8),
    Ready s i r T ∧ T = 2 ∧ (pd ≠ pdn ∨ pd.val = 0) :=
  ⟨tDev (tRegs tLen), tIss, tRun, 2, 3, 4, ready_of (by decide +kernel), by decide +kernel, by decide +kernel⟩

theorem witness_SaffronOperations_0_1 : ∃ (s : State) (i : Issue) (r : Run) (T : Nat) (ki ko : Fin 4) (sa da : Fin 8) (sb db : Bool),
    let l := i.core.val
    let c := s.core l
    let u := s.atIssue i r
    let a := c.addr (sa.val, sb)
    let b := c.addr (da.val, db)
    let form (sop : Nat) : Prop :=
      (sb = true → sa.val < 6) ∧ (db = true → da.val < 6) ∧ (sop ≠ 1 → da.val = 0 ∧ db = false) ∧ unitRanges u l (if sop = 1 then [(a.1, a.2, 64), (b.1, b.2, 16)] else [(a.1, a.2, 64)]) = none ∧ keyTrap u l 2 4 false [ki.val, ko.val] = none ∧ T = 4 + (if a.1 = 1 then 6 else 1) + 639 + safLat u l sop ki.val ko.val + 1
    Ready s i r T ∧
    (form 2) ∧
    (form 3) ∧
    (form 4) ∧
    (form 5) ∧
    (form 6) ∧
    (form 7) :=
  ⟨tDev (tRegs [(2, 0)]), tIss, tRun, 737, 1, 1, 1, 0, false, false, ready_of (by decide +kernel), ⟨by decide +kernel, by decide +kernel, by decide +kernel, by decide +kernel, by decide +kernel, by decide +kernel⟩, ⟨by decide +kernel, by decide +kernel, by decide +kernel, by decide +kernel, by decide +kernel, by decide +kernel⟩, ⟨by decide +kernel, by decide +kernel, by decide +kernel, by decide +kernel, by decide +kernel, by decide +kernel⟩, ⟨by decide +kernel, by decide +kernel, by decide +kernel, by decide +kernel, by decide +kernel, by decide +kernel⟩, ⟨by decide +kernel, by decide +kernel, by decide +kernel, by decide +kernel, by decide +kernel, by decide +kernel⟩, ⟨by decide +kernel, by decide +kernel, by decide +kernel, by decide +kernel, by decide +kernel, by decide +kernel⟩⟩

theorem witness_SaffronOperations_0_2 : ∃ (s : State) (i : Issue) (r : Run) (T : Nat) (ki ko : Fin 4) (sa da : Fin 8) (sb db : Bool),
    let l := i.core.val
    let c := s.core l
    let u := s.atIssue i r
    let a := c.addr (sa.val, sb)
    let b := c.addr (da.val, db)
    let form (sop : Nat) : Prop :=
      (sb = true → sa.val < 6) ∧ (db = true → da.val < 6) ∧ (sop ≠ 1 → da.val = 0 ∧ db = false) ∧ unitRanges u l (if sop = 1 then [(a.1, a.2, 64), (b.1, b.2, 16)] else [(a.1, a.2, 64)]) = none ∧ keyTrap u l 2 4 false [ki.val, ko.val] = none ∧ T = 4 + (if a.1 = 1 then 6 else 1) + 639 + safLat u l sop ki.val ko.val + 1
    Ready s i r T ∧ form 1 :=
  ⟨tDev (tRegs [(2, 0)]), tIss, tRun, 721, 1, 1, 1, 2, false, false, ready_of (by decide +kernel), ⟨by decide +kernel, by decide +kernel, by decide +kernel, by decide +kernel, by decide +kernel, by decide +kernel⟩⟩

theorem witness_SaffronReseed_0_1 : ∃ (s : State) (q : Fin 16),
    2 ^ 20 ≤ (s.quad q.val).sgen :=
  ⟨(tDev tCore).setQuad 3 { sgen := 2 ^ 20 }, 3, by decide +kernel⟩

theorem witness_SaffronOperations_1_1 : ∃ (s : State) (sop : Fin 8) (p : SafPar) (same : Bool) (ki ko : CacheEnt) (cfg : EpochCfg) (blk : Bytes) (pan pin : List Nat),
    let tab := EpochCfg.bytes s cfg 0x5400 (p.aux + 1)
    let v := slice blk 36 16
    sop.val ≠ 0 ∧ parOk sop.val p = true ∧ (isCvv sop.val = true → same = true) ∧ rolesOk sop.val ki ko = true ∧ typesOk sop.val p ki ko = true ∧ (isOfs sop.val = true → tab ≠ [] ∧ p.chk ≤ pin.length) ∧ (sop.val = 1 → pairOk (decide (EpochCfg.val s cfg 0x5402 1 = 1)) p.fin p.fout = true) ∧ (usesPan sop.val p = true → asciiDigits (slice blk 16 p.panlen) = some pan) ∧ (usesPan sop.val p = false → asciiDigits (slice blk 16 p.panlen) = some pan ∨ (asciiDigits (slice blk 16 p.panlen) = none ∧ pan = [])) ∧ vdataOk sop.val v = true ∧ (isCvv sop.val = false → pinCheck p.fin (EpochCfg.val s cfg 0x5402 2) (pinDecipher p.fin ki.key (blk.take 16) pan) = (0, pin)) ∧
    (sop.val = 2) ∧
    (sop.val ≠ 1) :=
  ⟨tDev tCore, 2, ⟨0,4,0,0,0,0,0,1⟩, false, tEnt2 18, tEnt2 24, tCfg, tPinBlk, List.replicate 0 0, [1,2,3,4], by decide +kernel, by decide +kernel, by decide +kernel, by decide +kernel, by decide +kernel, by decide +kernel, by decide +kernel, by decide +kernel, by decide +kernel, by decide +kernel, by decide +kernel, by decide +kernel, by decide +kernel⟩

theorem witness_SaffronOperations_1_2 : ∃ (s : State) (sop : Fin 8) (p : SafPar) (same : Bool) (ki ko : CacheEnt) (cfg : EpochCfg) (blk : Bytes) (pan pin : List Nat),
    let tab := EpochCfg.bytes s cfg 0x5400 (p.aux + 1)
    let v := slice blk 36 16
    sop.val ≠ 0 ∧ parOk sop.val p = true ∧ (isCvv sop.val = true → same = true) ∧ rolesOk sop.val ki ko = true ∧ typesOk sop.val p ki ko = true ∧ (isOfs sop.val = true → tab ≠ [] ∧ p.chk ≤ pin.length) ∧ (sop.val = 1 → pairOk (decide (EpochCfg.val s cfg 0x5402 1 = 1)) p.fin p.fout = true) ∧ (usesPan sop.val p = true → asciiDigits (slice blk 16 p.panlen) = some pan) ∧ (usesPan sop.val p = false → asciiDigits (slice blk 16 p.panlen) = some pan ∨ (asciiDigits (slice blk 16 p.panlen) = none ∧ pan = [])) ∧ vdataOk sop.val v = true ∧ (isCvv sop.val = false → pinCheck p.fin (EpochCfg.val s cfg 0x5402 2) (pinDecipher p.fin ki.key (blk.take 16) pan) = (0, pin)) ∧ sop.val = 1 :=
  ⟨tDev tCore, 1, ⟨0,0,0,0,0,0,1,1⟩, false, tEnt2 18, tEnt2 17, tCfg, tPinBlk, List.replicate 0 0, [1,2,3,4], by decide +kernel, by decide +kernel, by decide +kernel, by decide +kernel, by decide +kernel, by decide +kernel, by decide +kernel, by decide +kernel, by decide +kernel, by decide +kernel, by decide +kernel, by decide +kernel⟩

theorem witness_SaffronOperations_1_3 : ∃ (s : State) (sop : Fin 8) (p : SafPar) (same : Bool) (ki ko : CacheEnt) (cfg : EpochCfg) (blk : Bytes) (pan pin : List Nat),
    let tab := EpochCfg.bytes s cfg 0x5400 (p.aux + 1)
    let v := slice blk 36 16
    sop.val ≠ 0 ∧ parOk sop.val p = true ∧ (isCvv sop.val = true → same = true) ∧ rolesOk sop.val ki ko = true ∧ typesOk sop.val p ki ko = true ∧ (isOfs sop.val = true → tab ≠ [] ∧ p.chk ≤ pin.length) ∧ (sop.val = 1 → pairOk (decide (EpochCfg.val s cfg 0x5402 1 = 1)) p.fin p.fout = true) ∧ (usesPan sop.val p = true → asciiDigits (slice blk 16 p.panlen) = some pan) ∧ (usesPan sop.val p = false → asciiDigits (slice blk 16 p.panlen) = some pan ∨ (asciiDigits (slice blk 16 p.panlen) = none ∧ pan = [])) ∧ vdataOk sop.val v = true ∧ (isCvv sop.val = false → pinCheck p.fin (EpochCfg.val s cfg 0x5402 2) (pinDecipher p.fin ki.key (blk.take 16) pan) = (0, pin)) ∧ sop.val = 3 :=
  ⟨tDev tCore, 3, ⟨0,4,0,0,0,0,0,1⟩, false, tEnt2 18, tEnt2 20, tCfg, tPinBlk, List.replicate 0 0, [1,2,3,4], by decide +kernel, by decide +kernel, by decide +kernel, by decide +kernel, by decide +kernel, by decide +kernel, by decide +kernel, by decide +kernel, by decide +kernel, by decide +kernel, by decide +kernel, by decide +kernel⟩

theorem witness_SaffronOperations_1_4 : ∃ (s : State) (sop : Fin 8) (p : SafPar) (same : Bool) (ki ko : CacheEnt) (cfg : EpochCfg) (blk : Bytes) (pan pin : List Nat),
    let tab := EpochCfg.bytes s cfg 0x5400 (p.aux + 1)
    let v := slice blk 36 16
    sop.val ≠ 0 ∧ parOk sop.val p = true ∧ (isCvv sop.val = true → same = true) ∧ rolesOk sop.val ki ko = true ∧ typesOk sop.val p ki ko = true ∧ (isOfs sop.val = true → tab ≠ [] ∧ p.chk ≤ pin.length) ∧ (sop.val = 1 → pairOk (decide (EpochCfg.val s cfg 0x5402 1 = 1)) p.fin p.fout = true) ∧ (usesPan sop.val p = true → asciiDigits (slice blk 16 p.panlen) = some pan) ∧ (usesPan sop.val p = false → asciiDigits (slice blk 16 p.panlen) = some pan ∨ (asciiDigits (slice blk 16 p.panlen) = none ∧ pan = [])) ∧ vdataOk sop.val v = true ∧ (isCvv sop.val = false → pinCheck p.fin (EpochCfg.val s cfg 0x5402 2) (pinDecipher p.fin ki.key (blk.take 16) pan) = (0, pin)) ∧ sop.val = 4 :=
  ⟨tDev tCore, 4, ⟨0,0,1,0,12,0,0,1⟩, false, tEnt2 18, tEnt2 24, tCfg, tPinBlk, List.replicate 12 4, [1,2,3,4], by decide +kernel, by decide +kernel, by decide +kernel, by decide +kernel, by decide +kernel, by decide +kernel, by decide +kernel, by decide +kernel, by decide +kernel, by decide +kernel, by decide +kernel, by decide +kernel⟩

theorem witness_SaffronOperations_1_5 : ∃ (s : State) (sop : Fin 8) (p : SafPar) (same : Bool) (ki ko : CacheEnt) (cfg : EpochCfg) (blk : Bytes) (pan pin : List Nat),
    let tab := EpochCfg.bytes s cfg 0x5400 (p.aux + 1)
    let v := slice blk 36 16
    sop.val ≠ 0 ∧ parOk sop.val p = true ∧ (isCvv sop.val = true → same = true) ∧ rolesOk sop.val ki ko = true ∧ typesOk sop.val p ki ko = true ∧ (isOfs sop.val = true → tab ≠ [] ∧ p.chk ≤ pin.length) ∧ (sop.val = 1 → pairOk (decide (EpochCfg.val s cfg 0x5402 1 = 1)) p.fin p.fout = true) ∧ (usesPan sop.val p = true → asciiDigits (slice blk 16 p.panlen) = some pan) ∧ (usesPan sop.val p = false → asciiDigits (slice blk 16 p.panlen) = some pan ∨ (asciiDigits (slice blk 16 p.panlen) = none ∧ pan = [])) ∧ vdataOk sop.val v = true ∧ (isCvv sop.val = false → pinCheck p.fin (EpochCfg.val s cfg 0x5402 2) (pinDecipher p.fin ki.key (blk.take 16) pan) = (0, pin)) ∧ sop.val = 5 :=
  ⟨tDev tCore, 5, ⟨0,0,1,0,12,0,0,1⟩, false, tEnt2 18, tEnt2 20, tCfg, tPinBlk, List.replicate 12 4, [1,2,3,4], by decide +kernel, by decide +kernel, by decide +kernel, by decide +kernel, by decide +kernel, by decide +kernel, by decide +kernel, by decide +kernel, by decide +kernel, by decide +kernel, by decide +kernel, by decide +kernel⟩

theorem witness_SaffronOperations_1_6 : ∃ (s : State) (sop : Fin 8) (p : SafPar) (same : Bool) (ki ko : CacheEnt) (cfg : EpochCfg) (blk : Bytes) (pan pin : List Nat),
    let tab := EpochCfg.bytes s cfg 0x5400 (p.aux + 1)
    let v := slice blk 36 16
    sop.val ≠ 0 ∧ parOk sop.val p = true ∧ (isCvv sop.val = true → same = true) ∧ rolesOk sop.val ki ko = true ∧ typesOk sop.val p ki ko = true ∧ (isOfs sop.val = true → tab ≠ [] ∧ p.chk ≤ pin.length) ∧ (sop.val = 1 → pairOk (decide (EpochCfg.val s cfg 0x5402 1 = 1)) p.fin p.fout = true) ∧ (usesPan sop.val p = true → asciiDigits (slice blk 16 p.panlen) = some pan) ∧ (usesPan sop.val p = false → asciiDigits (slice blk 16 p.panlen) = some pan ∨ (asciiDigits (slice blk 16 p.panlen) = none ∧ pan = [])) ∧ vdataOk sop.val v = true ∧ (isCvv sop.val = false → pinCheck p.fin (EpochCfg.val s cfg 0x5402 2) (pinDecipher p.fin ki.key (blk.take 16) pan) = (0, pin)) ∧ sop.val = 6 :=
  ⟨tDev tCore, 6, ⟨0,3,0,0,12,0,0,0⟩, true, tEnt2 24, tEnt2 24, tCfg, tPinBlk, List.replicate 12 4, [], by decide +kernel, by decide +kernel, by decide +kernel, by decide +kernel, by decide +kernel, by decide +kernel, by decide +kernel, by decide +kernel, by decide +kernel, by decide +kernel, by decide +kernel, by decide +kernel⟩

theorem witness_SaffronOperations_1_7 : ∃ (s : State) (sop : Fin 8) (p : SafPar) (same : Bool) (ki ko : CacheEnt) (cfg : EpochCfg) (blk : Bytes) (pan pin : List Nat),
    let tab := EpochCfg.bytes s cfg 0x5400 (p.aux + 1)
    let v := slice blk 36 16
    sop.val ≠ 0 ∧ parOk sop.val p = true ∧ (isCvv sop.val = true → same = true) ∧ rolesOk sop.val ki ko = true ∧ typesOk sop.val p ki ko = true ∧ (isOfs sop.val = true → tab ≠ [] ∧ p.chk ≤ pin.length) ∧ (sop.val = 1 → pairOk (decide (EpochCfg.val s cfg 0x5402 1 = 1)) p.fin p.fout = true) ∧ (usesPan sop.val p = true → asciiDigits (slice blk 16 p.panlen) = some pan) ∧ (usesPan sop.val p = false → asciiDigits (slice blk 16 p.panlen) = some pan ∨ (asciiDigits (slice blk 16 p.panlen) = none ∧ pan = [])) ∧ vdataOk sop.val v = true ∧ (isCvv sop.val = false → pinCheck p.fin (EpochCfg.val s cfg 0x5402 2) (pinDecipher p.fin ki.key (blk.take 16) pan) = (0, pin)) ∧ sop.val = 7 :=
  ⟨tDev tCore, 7, ⟨0,3,0,0,12,0,0,0⟩, true, tEnt2 20, tEnt2 20, tCfg, tPinBlk, List.replicate 12 4, [], by decide +kernel, by decide +kernel, by decide +kernel, by decide +kernel, by decide +kernel, by decide +kernel, by decide +kernel, by decide +kernel, by decide +kernel, by decide +kernel, by decide +kernel, by decide +kernel⟩

end W22

namespace W30

def w_ds : List Nat := [1, 2]
def w_w : Tab (Nat × Nat) := []
def w_k : Nat := 0
def w_b : Nat := 1
def w_e : LineEnt := ⟨tMsg, .waiting, 0⟩
def w_t0 : Nat := 0

theorem witness_ClassifierInstructions_0_1 : ∃ (s : State) (i : ClsI) (m : Msg),
    let p := i.src.val
    let c := i.ctx.val
    let x := s.ctx p c
    let n := i.imm.toNat
    let field := walkedOf x (n % 256)
    let len := m.body.length
    let img := ctxImage s m
    (let fits (k : Nat) : Prop := x.msg = some m ∧ x.t + 16 * k ≤ x.stop
     let goes (k : Nat) (e : Ctx) : Prop :=
       fits k ∧ e.pc + 1 < imgNCode img
     goes 1 x) ∧
    (let r (k : Fin 8) : Nat := (Tab.look 0 x.regs k.val).toNat
     let base := if i.b.val = 0 then 0 else r i.b
     let at16 := base + n % 65536
     let fits (k : Nat) : Prop := x.msg = some m ∧ x.t + 16 * k ≤ x.stop
     let goes (k : Nat) (e : Ctx) : Prop :=
       fits k ∧ e.pc + 1 < imgNCode img
     at16 + 1 ≤ len ∧ goes 1 (x.setC i.a.val (beNat (slice m.body at16 1)))) ∧
    (let r (k : Fin 8) : Nat := (Tab.look 0 x.regs k.val).toNat
     let base := if i.b.val = 0 then 0 else r i.b
     let at16 := base + n % 65536
     let fits (k : Nat) : Prop := x.msg = some m ∧ x.t + 16 * k ≤ x.stop
     let goes (k : Nat) (e : Ctx) : Prop :=
       fits k ∧ e.pc + 1 < imgNCode img
     at16 + 2 ≤ len ∧ goes 1 (x.setC i.a.val (beNat (slice m.body at16 2)))) ∧
    (let r (k : Fin 8) : Nat := (Tab.look 0 x.regs k.val).toNat
     let base := if i.b.val = 0 then 0 else r i.b
     let at16 := base + n % 65536
     let fits (k : Nat) : Prop := x.msg = some m ∧ x.t + 16 * k ≤ x.stop
     let goes (k : Nat) (e : Ctx) : Prop :=
       fits k ∧ e.pc + 1 < imgNCode img
     at16 + 4 ≤ len ∧ goes 1 (x.setC i.a.val (beNat (slice m.body at16 4)))) ∧
    (let fits (k : Nat) : Prop := x.msg = some m ∧ x.t + 16 * k ≤ x.stop
     let goes (k : Nat) (e : Ctx) : Prop :=
       fits k ∧ e.pc + 1 < imgNCode img
     goes 1 (x.setC i.a.val ((field.1 % 65536 * 65536 + field.2) % 2 ^ 32))) ∧
    (let r (k : Fin 8) : Nat := (Tab.look 0 x.regs k.val).toNat
     let base := if i.b.val = 0 then 0 else r i.b
     let at16 := base + n % 65536
     let digits := slice m.body at16 (n / 65536 + 1)
     let fits (k : Nat) : Prop := x.msg = some m ∧ x.t + 16 * k ≤ x.stop
     let goes (k : Nat) (e : Ctx) : Prop :=
       fits k ∧ e.pc + 1 < imgNCode img
     let ds := w_ds
     at16 + n / 65536 + 1 ≤ len ∧ asciiDigits digits = some ds ∧ goes 2 (x.setC i.a.val (decNat ds % 2 ^ 32))) ∧
    (let r (k : Fin 8) : Nat := (Tab.look 0 x.regs k.val).toNat
     let base := if i.b.val = 0 then 0 else r i.b
     let at16 := base + n % 65536
     let packed := (nibbles (slice m.body at16 ((n / 65536 + 2) / 2))).take (n / 65536 + 1)
     let fits (k : Nat) : Prop := x.msg = some m ∧ x.t + 16 * k ≤ x.stop
     let goes (k : Nat) (e : Ctx) : Prop :=
       fits k ∧ e.pc + 1 < imgNCode img
     at16 + (n / 65536 + 2) / 2 ≤ len ∧ packed.all (fun d => decide (d ≤ 9)) = true ∧ goes 2 (x.setC i.a.val (decNat packed % 2 ^ 32))) ∧
    (let fits (k : Nat) : Prop := x.msg = some m ∧ x.t + 16 * k ≤ x.stop
     let goes (k : Nat) (e : Ctx) : Prop :=
       fits k ∧ e.pc + 1 < imgNCode img
     goes 1 (x.setC i.a.val n)) ∧
    (let r (k : Fin 8) : Nat := (Tab.look 0 x.regs k.val).toNat
     let fits (k : Nat) : Prop := x.msg = some m ∧ x.t + 16 * k ≤ x.stop
     let goes (k : Nat) (e : Ctx) : Prop :=
       fits k ∧ e.pc + 1 < imgNCode img
     goes 1 (x.setC i.a.val (n % 4096 * 2 ^ 20 + r i.a % 2 ^ 20))) ∧
    (let r (k : Fin 8) : Nat := (Tab.look 0 x.regs k.val).toNat
     let base := if i.b.val = 0 then 0 else r i.b
     let fits (k : Nat) : Prop := x.msg = some m ∧ x.t + 16 * k ≤ x.stop
     let goes (k : Nat) (e : Ctx) : Prop :=
       fits k ∧ e.pc + 1 < imgNCode img
     goes 1 (x.setC i.a.val ((base + n) % 2 ^ 32))) ∧
    (let r (k : Fin 8) : Nat := (Tab.look 0 x.regs k.val).toNat
     let fits (k : Nat) : Prop := x.msg = some m ∧ x.t + 16 * k ≤ x.stop
     let goes (k : Nat) (e : Ctx) : Prop :=
       fits k ∧ e.pc + 1 < imgNCode img
     goes 1 (x.setC i.a.val ((r i.a + r i.b) % 2 ^ 32))) ∧
    (let r (k : Fin 8) : Nat := (Tab.look 0 x.regs k.val).toNat
     let fits (k : Nat) : Prop := x.msg = some m ∧ x.t + 16 * k ≤ x.stop
     let goes (k : Nat) (e : Ctx) : Prop :=
       fits k ∧ e.pc + 1 < imgNCode img
     goes 1 (x.setC i.a.val (r i.b &&& n))) ∧
    (let r (k : Fin 8) : Nat := (Tab.look 0 x.regs k.val).toNat
     let fits (k : Nat) : Prop := x.msg = some m ∧ x.t + 16 * k ≤ x.stop
     let goes (k : Nat) (e : Ctx) : Prop :=
       fits k ∧ e.pc + 1 < imgNCode img
     goes 1 (x.setC i.a.val (r i.b ||| n))) ∧
    (let r (k : Fin 8) : Nat := (Tab.look 0 x.regs k.val).toNat
     let fits (k : Nat) : Prop := x.msg = some m ∧ x.t + 16 * k ≤ x.stop
     let goes (k : Nat) (e : Ctx) : Prop :=
       fits k ∧ e.pc + 1 < imgNCode img
     goes 1 (x.setC i.a.val (r i.b / 2 ^ (n % 32)))) ∧
    (let r (k : Fin 8) : Nat := (Tab.look 0 x.regs k.val).toNat
     let fits (k : Nat) : Prop := x.msg = some m ∧ x.t + 16 * k ≤ x.stop
     let goes (k : Nat) (e : Ctx) : Prop :=
       fits k ∧ e.pc + 1 < imgNCode img
     goes 1 (x.setC i.a.val (r i.b * 2 ^ (n % 32) % 2 ^ 32))) ∧
    (let r (k : Fin 8) : Nat := (Tab.look 0 x.regs k.val).toNat
     let walk := bmwWalk m.body img (r i.b) n
     let fits (k : Nat) : Prop := x.msg = some m ∧ x.t + 16 * k ≤ x.stop
     let goes (k : Nat) (e : Ctx) : Prop :=
       fits k ∧ e.pc + 1 < imgNCode img
     let w := w_w
     walk.fields = some w ∧ goes (2 + walk.maps + walk.present) ({ x with walk := some w }.setC i.a.val walk.present)) ∧
    (let r (k : Fin 8) : Nat := (Tab.look 0 x.regs k.val).toNat
     let rule := (List.range (imgNRule img)).find? (fun k => decide (r i.b &&& beNat (slice (imgRule img k) 4 4) = beNat (slice (imgRule img k) 0 4)))
     let fits (k : Nat) : Prop := x.msg = some m ∧ x.t + 16 * k ≤ x.stop
     let goes (k : Nat) (e : Ctx) : Prop :=
       fits k ∧ e.pc + 1 < imgNCode img
     let k := w_k
     rule = some k ∧ goes 2 ({ x with cls := some (byteAt (imgRule img k) 8).toNat }.setC i.a.val k)) ∧
    (let fits (k : Nat) : Prop := x.msg = some m ∧ x.t + 16 * k ≤ x.stop
     let goes (k : Nat) (e : Ctx) : Prop :=
       fits k ∧ e.pc + 1 < imgNCode img
     goes 1 { x with cls := some (n % 256) }) ∧
    (let fits (k : Nat) : Prop := x.msg = some m ∧ x.t + 16 * k ≤ x.stop
     let goes (k : Nat) (e : Ctx) : Prop :=
       fits k ∧ e.pc + 1 < imgNCode img
     i.b.val = 0 ∧ 1 ≤ n ∧ n ≤ 1048575 ∧ goes 1 { x with rel := some n }) ∧
    (let r (k : Fin 8) : Nat := (Tab.look 0 x.regs k.val).toNat
     let fits (k : Nat) : Prop := x.msg = some m ∧ x.t + 16 * k ≤ x.stop
     let goes (k : Nat) (e : Ctx) : Prop :=
       fits k ∧ e.pc + 1 < imgNCode img
     goes 1 { x with
           field := Tab.put (0, 0) x.field (n / 65536) (if bit n 15 then (r i.b / 65536, r i.b % 65536) else field)
           fieldmask := x.fieldmask ||| 2 ^ (n / 65536) }) ∧
    (let r (k : Fin 8) : Nat := (Tab.look 0 x.regs k.val).toNat
     let off := r i.a / 65536
     let size := r i.a % 65536
     let fits (k : Nat) : Prop := x.msg = some m ∧ x.t + 16 * k ≤ x.stop
     let goes (k : Nat) (e : Ctx) : Prop :=
       fits k ∧ e.pc + 1 < imgNCode img
     size ≤ 32 ∧ off + size ≤ len ∧ goes 1 { x with
           keyref := Tab.put {} x.keyref (n % 4) ⟨r i.b % 2 ^ 18, off, size⟩, keymask := x.keymask ||| 2 ^ (n % 4) }) ∧
    (let r (k : Fin 8) : Nat := (Tab.look 0 x.regs k.val).toNat
     let off := r i.a / 65536
     let size := r i.a % 65536
     let fits (k : Nat) : Prop := x.msg = some m ∧ x.t + 16 * k ≤ x.stop
     let goes (k : Nat) (e : Ctx) : Prop :=
       fits k ∧ e.pc + 1 < imgNCode img
     1 ≤ size ∧ size ≤ 8 ∧ off + size ≤ len ∧ goes 1 { x with setid := some (beNat (slice m.body off size)) }) :=
  ⟨tPort tCtx, ⟨2, 1, 1, 0, 0x10000⟩, tMsg, ⟨by decide +kernel, by decide +kernel⟩, ⟨by decide +kernel, ⟨by decide +kernel, by decide +kernel⟩⟩, ⟨by decide +kernel, ⟨by decide +kernel, by decide +kernel⟩⟩, ⟨by decide +kernel, ⟨by decide +kernel, by decide +kernel⟩⟩, ⟨by decide +kernel, by decide +kernel⟩, ⟨by decide +kernel, by decide +kernel, ⟨by decide +kernel, by decide +kernel⟩⟩, ⟨by decide +kernel, by decide +kernel, ⟨by decide +kernel, by decide +kernel⟩⟩, ⟨by decide +kernel, by decide +kernel⟩, ⟨by decide +kernel, by decide +kernel⟩, ⟨by decide +kernel, by decide +kernel⟩, ⟨by decide +kernel, by decide +kernel⟩, ⟨by decide +kernel, by decide +kernel⟩, ⟨by decide +kernel, by decide +kernel⟩, ⟨by decide +kernel, by decide +kernel⟩, ⟨by decide +kernel, by decide +kernel⟩, ⟨by decide +kernel, ⟨by decide +kernel, by decide +kernel⟩⟩, ⟨by decide +kernel, ⟨by decide +kernel, by decide +kernel⟩⟩, ⟨by decide +kernel, by decide +kernel⟩, ⟨by decide +kernel, by decide +kernel, by decide +kernel, ⟨by decide +kernel, by decide +kernel⟩⟩, ⟨by decide +kernel, by decide +kernel⟩, ⟨by decide +kernel, by decide +kernel, ⟨by decide +kernel, by decide +kernel⟩⟩, ⟨by decide +kernel, by decide +kernel, by decide +kernel, ⟨by decide +kernel, by decide +kernel⟩⟩⟩

theorem witness_ClassifierInstructions_0_2 : ∃ (s : State) (i : ClsI) (m : Msg),
    let p := i.src.val
    let c := i.ctx.val
    let x := s.ctx p c
    let r (k : Fin 8) : Nat := (Tab.look 0 x.regs k.val).toNat
    let base := if i.b.val = 0 then 0 else r i.b
    let n := i.imm.toNat
    let img := ctxImage s m
    let len := m.body.length
    let at16 := base + n % 65536
    let fits (k : Nat) : Prop := x.msg = some m ∧ x.t + 16 * k ≤ x.stop
    let fails (k : Nat) : Prop :=
      fits k
    (len < at16 + 1 ∧ fails 1) ∧
    (len < at16 + 2 ∧ fails 1) ∧
    (len < at16 + 4 ∧ fails 1) ∧
    (let digits := slice m.body at16 (n / 65536 + 1)
     (len < at16 + n / 65536 + 1 ∨ asciiDigits digits = none) ∧ fails 2) ∧
    (let packed := (nibbles (slice m.body at16 ((n / 65536 + 2) / 2))).take (n / 65536 + 1)
     (len < at16 + (n / 65536 + 2) / 2 ∨ packed.all (fun d => decide (d ≤ 9)) = false) ∧ fails 2) ∧
    (let walk := bmwWalk m.body img (r i.b) n
     walk.fields = none ∧ fails (2 + walk.maps + walk.present)) ∧
    (let goes (k : Nat) (e : Ctx) : Prop :=
       fits k ∧ e.pc + 1 < imgNCode img
     i.b.val ≠ 0 ∧ 1 ≤ r i.b ∧ r i.b ≤ 1048575 ∧ goes 1 { x with rel := some (r i.b) }) :=
  ⟨tPort tCtx, ⟨2, 1, 1, 2, 0x300⟩, tMsg, ⟨by decide +kernel, by decide +kernel⟩, ⟨by decide +kernel, by decide +kernel⟩, ⟨by decide +kernel, by decide +kernel⟩, ⟨by decide +kernel, by decide +kernel⟩, ⟨by decide +kernel, by decide +kernel⟩, ⟨by decide +kernel, by decide +kernel⟩, ⟨by decide +kernel, by decide +kernel, by decide +kernel, ⟨by decide +kernel, by decide +kernel⟩⟩⟩

theorem witness_ClassifierInstructions_0_3 : ∃ (s : State) (i : ClsI) (m : Msg),
    let p := i.src.val
    let c := i.ctx.val
    let x := s.ctx p c
    let r (k : Fin 8) : Nat := (Tab.look 0 x.regs k.val).toNat
    let fits (k : Nat) : Prop := x.msg = some m ∧ x.t + 16 * k ≤ x.stop
    let fails (k : Nat) : Prop :=
      fits k
    fails 1 ∧
    (let len := m.body.length
     let off := r i.a / 65536
     let size := r i.a % 65536
     (size = 0 ∨ 8 < size ∨ len < off + size)) ∧
    (i.b.val ≠ 0 ∧ (r i.b = 0 ∨ 1048575 < r i.b)) ∧
    (let img := ctxImage s m
     imgNCode img ≤ x.pc + 1) :=
  ⟨tPort { tCtx with regs := [(1, 0), (2, 0)], pc := 64 }, ⟨2, 1, 1, 2, 0⟩, tMsg, by decide +kernel, by decide +kernel, ⟨by decide +kernel, by decide +kernel⟩, by decide +kernel⟩

theorem witness_ClassifierInstructions_0_4 : ∃ (s : State) (i : ClsI) (m : Msg),
    let p := i.src.val
    let c := i.ctx.val
    let x := s.ctx p c
    let r (k : Fin 8) : Nat := (Tab.look 0 x.regs k.val).toNat
    let len := m.body.length
    let off := r i.a / 65536
    let size := r i.a % 65536
    let fits (k : Nat) : Prop := x.msg = some m ∧ x.t + 16 * k ≤ x.stop
    let fails (k : Nat) : Prop :=
      fits k
    (32 < size ∨ len < off + size) ∧ fails 1 :=
  ⟨tPort tCtx, ⟨2, 1, 3, 2, 0x10000⟩, tMsg, by decide +kernel, by decide +kernel⟩

theorem witness_ClassifierInstructions_0_5 : ∃ (s : State) (i : ClsI) (m : Msg),
    let p := i.src.val
    let c := i.ctx.val
    let x := s.ctx p c
    let r (k : Fin 8) : Nat := (Tab.look 0 x.regs k.val).toNat
    let img := ctxImage s m
    let rule := (List.range (imgNRule img)).find? (fun k => decide (r i.b &&& beNat (slice (imgRule img k) 4 4) = beNat (slice (imgRule img k) 0 4)))
    let fits (k : Nat) : Prop := x.msg = some m ∧ x.t + 16 * k ≤ x.stop
    let goes (k : Nat) (e : Ctx) : Prop :=
      fits k ∧ e.pc + 1 < imgNCode img
    rule = none ∧ goes 2 (x.setC i.a.val 0xFFFFFFFF) :=
  ⟨{ tPort tCtx with unit := { epoch := { cur := some { num := 1, mode := 4, ents := [(0x20021C, some [1])], cls := [(1, zeros 6 ++ [0, 64, 0, 0] ++ zeros 2000)] } } } }, ⟨2, 1, 1, 0, 4⟩, tMsg, by decide +kernel, ⟨by decide +kernel, by decide +kernel⟩⟩

theorem witness_ClassifierInstructions_0_6 : ∃ (s : State) (i : ClsI) (m : Msg),
    let p := i.src.val
    let c := i.ctx.val
    let x := s.ctx p c
    let n := i.imm.toNat
    let fits (k : Nat) : Prop := x.msg = some m ∧ x.t + 16 * k ≤ x.stop
    let fails (k : Nat) : Prop :=
      fits k
    i.b.val = 0 ∧ (n = 0 ∨ 1048575 < n) ∧ fails 1 :=
  ⟨tPort { tCtx with regs := [(1, 0), (2, 0)], pc := 64 }, ⟨2, 1, 1, 0, 0⟩, tMsg, by decide +kernel, by decide +kernel, by decide +kernel⟩

theorem witness_ClassifierEnds_0_1 : ∃ (s : State) (i : ClsI) (m : Msg),
    let p := i.src.val
    let c := i.ctx.val
    let x := s.ctx p c
    let t := x.t + 16
    x.msg = some m ∧
    (let k := w_k
     t ≤ x.stop ∧ x.cls = some k) ∧
    (t ≤ x.stop ∧ i.imm.toNat % 256 = 0x06) ∧
    (t ≤ x.stop) :=
  ⟨tPort { tCtx with cls := some 0 }, ⟨2, 1, 0, 0, 6⟩, tMsg, by decide +kernel, ⟨by decide +kernel, by decide +kernel⟩, ⟨by decide +kernel, by decide +kernel⟩, by decide +kernel⟩

theorem witness_ClassifierEnds_0_2 : ∃ (s : State) (i : ClsI) (m : Msg),
    let p := i.src.val
    let c := i.ctx.val
    let x := s.ctx p c
    let t := x.t + 16
    x.msg = some m ∧ t ≤ x.stop ∧
    (x.cls = none) ∧
    (i.imm.toNat % 256 ≠ 0x06) :=
  ⟨tPort tCtx, ⟨2, 1, 0, 0, 8⟩, tMsg, by decide +kernel, by decide +kernel, by decide +kernel, by decide +kernel⟩

theorem witness_ClassifierEnds_0_3 : ∃ (s : State) (i : ClsI),
    let p := i.src.val
    let c := i.ctx.val
    let x := s.ctx p c
    let e : LineEnt := w_e
    let t0 : Nat := w_t0
    (s.src p).line.find? (fun e => decide (e.st = .waiting)) = some e ∧ (∃ k : Fin 8, (s.ctx p k.val).msg = none ∧ (s.ctx p k.val).freeAt = t0) ∧ (∀ k : Fin 8, (s.ctx p k.val).msg = none → t0 ≤ (s.ctx p k.val).freeAt) ∧ x.msg = none ∧ x.freeAt ≤ Nat.max t0 e.msg.rel ∧ (∀ k : Fin 8, k.val < c → (s.ctx p k.val).msg = none → Nat.max t0 e.msg.rel < (s.ctx p k.val).freeAt) :=
  ⟨tPort {}, ⟨2, 1, 0, 0, 6⟩, by decide +kernel, by decide +kernel, by decide +kernel, by decide +kernel, by decide +kernel, by decide +kernel⟩

end W30

namespace W31

def tS := tSrv 4 .service
def tSlotS (st : SlotState) (w : Work) : State := { tS with dict := { tS.dict with slots := [(7, { state := st, work := w, role := 4 })], order := [7] } }
def tHalf : HalfSession := ⟨9, 4, .mge, tFrom.toNat, 0, 100, zeros 48, zeros 48, []⟩
def tOpen (tr : Transport) : Req := ⟨tr, tFrom, tHere, false, 0, 0, 0, none, 1, 0, 0, 0, 0, 0, 0, 0, 0, 133, [4, 0, 0, 0] ++ p384.enc p384.g ++ zeros 32, []⟩
def tAuth : Req := ⟨.mge, tFrom, tHere, false, 0, 0, 0, none, 1, 0, 0, 9, 0, 0, 0, 0, 0, 96, zeros 96, []⟩
def tMs (op : Nat) (r : Req) : Req :=
  let w := msFrame (reqWhole r op)
  { r with addr := 0x21, flen := BitVec.ofNat 16 (beNat (w.take 2)), crc := BitVec.ofNat 16 (beNat (w.drop (w.length - 2))) }
def tFc (l : List (Nat × Bytes)) (s : State) : State := l.foldl (fun s e => (s.setEnt (e.1 / 256) (e.1 % 256) e.2).setForce (e.1 / 256) (e.1 % 256) e.2) s
def tMsS : State := tFc [(0x204101, [1]), (0x204102, [0x21])] { tS with dict := {} }
def tMge : State := { tS with dict := { tS.dict with work := [(0x204001, some [1]), (0x204002, some [2, 0, 0, 0, 0, 1]), (0x204003, some [10, 0, 0, 1])], force := [(0x204001, some [1]), (0x204002, some [2, 0, 0, 0, 0, 1]), (0x204003, some [10, 0, 0, 1])] } }
def w_h : HalfSession := tHalf
def w_se : Session := tSess 4
def w_j : Nat := 1

theorem witness_DictionaryRequests_0_1 : ∃ (s t : State) (r : Req) (role : Nat) (v : Bytes),
    let idx := r.index.toNat
    let sub := r.sub.toNat
    Granted s r idx sub t role v ∧
    (let w := writeRule idx sub
     ¬ (idx = 0x1100 ∧ sub = 5) ∧ w.lc t role = true ∧ w.md t role = true ∧ w.rg t v = true ∧ (w.fx t role v).code = 0) ∧
    (idx < 0x1100) :=
  ⟨tS, tG (tReq 2 0x10E0 4 [0, 1, 0, 0]) (tS), tReq 2 0x10E0 4 [0, 1, 0, 0], 4, [0, 1, 0, 0], granted_of (i0 := 0x10E0) (u0 := 4) (d := [0, 1, 0, 0]) rfl (by decide +kernel) (by decide +kernel) (by decide +kernel) (by decide +kernel), ⟨by decide +kernel, by decide +kernel, by decide +kernel, by decide +kernel, by decide +kernel⟩, by decide +kernel⟩

theorem witness_DictionaryRequests_0_2 : ∃ (s t : State) (r : Req) (role : Nat),
    let idx := r.index.toNat
    let sub := r.sub.toNat
    let off := r.offset.toNat
    let value := readValue t idx sub
    let n := Nat.min r.length.toNat (value.length - off)
    let big : Bool := match findEnt idx sub with | some e => e.ty.isBytes | none => false
    let room (m : Nat) : Prop := 22 + m + (if r.session = 0 then 0 else 16) ≤ maxRsp r.tr
    Heard s r 1 t role ∧ deepMs t r 1 = false ∧ (∀ d, readDomain idx = some d → t.domReady d = true) ∧ readFails t idx = false ∧ entryExists idx sub = true ∧ hasRight t role (rdRight idx sub) = true ∧ ¬ (idx = 0x1080 ∧ sub = 1) ∧ (off = 0 ∨ big = true) ∧ off ≤ value.length ∧ room n :=
  ⟨tS, tG (tReq 1 0x1000 1 []) (tS), tReq 1 0x1000 1 [], 4, heard_of (idx := 0x1000) (sub := 1) (d := []) rfl (by decide +kernel) (by decide +kernel) (by decide +kernel), by decide +kernel, by decide +kernel, by decide +kernel, by decide +kernel, by decide +kernel, by decide +kernel, by decide +kernel, by decide +kernel, by decide +kernel⟩

theorem witness_DictionaryRequests_0_3 : ∃ (s t : State) (r : Req) (role : Nat),
    let idx := r.index.toNat
    let sub := r.sub.toNat
    let off := r.offset.toNat
    let room (m : Nat) : Prop := 22 + m + (if r.session = 0 then 0 else 16) ≤ maxRsp r.tr
    Heard s r 1 t role ∧ deepMs t r 1 = false ∧ idx = 0x1080 ∧ sub = 1 ∧ hasRight t role (rdRight idx sub) = true ∧ t.rst.trngFailed = false ∧ t.power.lcs ≠ .retired ∧ off = 0 ∧ room (Nat.min r.length.toNat 4096) :=
  ⟨tS, tG (tReq 1 0x1080 1 []) (tS), tReq 1 0x1080 1 [], 4, heard_of (idx := 0x1080) (sub := 1) (d := []) rfl (by decide +kernel) (by decide +kernel) (by decide +kernel), by decide +kernel, by decide +kernel, by decide +kernel, by decide +kernel, by decide +kernel, by decide +kernel, by decide +kernel, by decide +kernel⟩

theorem witness_DictionaryRequests_0_4 : ∃ (s t : State) (r : Req) (role : Nat),
    let idx := r.index.toNat
    let sub := r.sub.toNat
    let dflt := t.dflt idx sub
    Heard s r 3 t role ∧ idx < 0x1100 ∧ (∃ e, findEnt idx sub = some e ∧ e.wr ≠ 0 ∧ mayWrite t role e.wr = true ∧ noDefault idx sub e = false ∧ plainRange e dflt = true) ∧ isMs r.tr = false :=
  ⟨tS, tG (tReq 3 0x10E0 4 []) (tS), tReq 3 0x10E0 4 [], 4, heard_of (idx := 0x10E0) (sub := 4) (d := []) rfl (by decide +kernel) (by decide +kernel) (by decide +kernel), by decide +kernel, ⟨_, rfl, by decide +kernel, by decide +kernel, by decide +kernel, by decide +kernel⟩, by decide +kernel⟩

theorem witness_DictionaryRequests_0_5 : ∃ (s t : State) (r : Req) (role k : Nat),
    Heard s r 4 t role ∧ isMs r.tr = false ∧ mayWrite t role 8 = true ∧ CanBegin t 0 0 k :=
  ⟨tS, tG (tReq 4 0 0 []) (tS), tReq 4 0 0 [], 4, 0, heard_of (idx := 0) (sub := 0) (d := []) rfl (by decide +kernel) (by decide +kernel) (by decide +kernel), by decide +kernel, by decide +kernel, ⟨by decide +kernel, by decide +kernel, by decide +kernel, by decide +kernel⟩⟩

theorem witness_DictionaryRequests_0_6 : ∃ (s t : State) (r : Req) (role : Nat),
    Heard s r 0x12 t role ∧ role ≠ 0 ∧ isMs r.tr = false :=
  ⟨tS, tG (tReq 0x12 0 0 []) (tS), tReq 0x12 0 0 [], 4, heard_of (idx := 0) (sub := 0) (d := []) rfl (by decide +kernel) (by decide +kernel) (by decide +kernel), by decide +kernel, by decide +kernel⟩

theorem witness_DictionaryRequests_0_7 : ∃ (s t : State) (r : Req) (role : Nat),
    Heard s r 0x13 t role ∧ role ≠ 0 ∧ isMs r.tr = false :=
  ⟨tS, tG (tReq 0x13 0 0 []) (tS), tReq 0x13 0 0 [], 4, heard_of (idx := 0) (sub := 0) (d := []) rfl (by decide +kernel) (by decide +kernel) (by decide +kernel), by decide +kernel, by decide +kernel⟩

theorem witness_LongOperations_0_1 : ∃ (s t : State) (r : Req) (k : Byte) (role : Nat),
    (firstQueued s = some k.toNat ∧ (s.slot k.toNat).work = .commit) ∧
    (let sl := t.slot k.toNat
     Granted s (reqWith r [1]) (0xF000 + k.toNat) 7 t role [1] ∧ (role = sl.role ∨ mayWrite t role 8 = true) ∧ sl.state = .queued ∧ sl.work = .commit) ∧
    (let j := w_j
     j ≠ k.toNat) :=
  ⟨tSlotS .queued .commit, tG (tReq 2 0xF007 7 [1]) (tSlotS .queued .commit), tReq 2 0xF007 7 [1], 7, 4, ⟨by decide +kernel, by decide +kernel⟩, ⟨granted_of (i0 := 0xF007) (u0 := 7) (d := [1]) rfl (by decide +kernel) (by decide +kernel) (by decide +kernel) (by decide +kernel), by decide +kernel, by decide +kernel, by decide +kernel⟩, by decide +kernel⟩

theorem witness_LongOperations_0_2 : ∃ (s t : State) (r : Req) (k : Byte) (role : Nat),
    (let sl := t.slot k.toNat
     let ended : Bool := sl.state.terminal || decide (sl.state = .idle)
     Granted s (reqWith r [1]) (0xF000 + k.toNat) 7 t role [1] ∧ (role = sl.role ∨ mayWrite t role 8 = true) ∧ ended = true) ∧
    ((s.slot k.toNat).state.terminal = true) :=
  ⟨tSlotS .done .none, tG (tReq 2 0xF007 7 [1]) (tSlotS .done .none), tReq 2 0xF007 7 [1], 7, 4, ⟨granted_of (i0 := 0xF007) (u0 := 7) (d := [1]) rfl (by decide +kernel) (by decide +kernel) (by decide +kernel) (by decide +kernel), by decide +kernel, by decide +kernel⟩, by decide +kernel⟩

theorem witness_LongOperations_0_3 : ∃ (s : State) (k : Byte),
    firstQueued s = some k.toNat ∧ (s.slot k.toNat).work ≠ .commit ∧ s.unit.epoch.slot = some k.toNat ∧ s.unit.epoch.st = .queued ∧ prevWork s = false :=
  ⟨{ tSlotS .queued (.epochChange 4) with unit := { epoch := { st := .queued, slot := some 7 } } }, 7, by decide +kernel, by decide +kernel, by decide +kernel, by decide +kernel, by decide +kernel⟩

theorem witness_LongOperations_0_4 : ∃ (s t : State) (r : Req) (k : Byte) (role : Nat),
    let sl := t.slot k.toNat
    let ended : Bool := sl.state.terminal || decide (sl.state = .idle)
    Granted s (reqWith r [2]) (0xF000 + k.toNat) 7 t role [2] ∧ ended = true :=
  ⟨tSlotS .done .none, tG (tReq 2 0xF007 7 [2]) (tSlotS .done .none), tReq 2 0xF007 7 [2], 7, 4, granted_of (i0 := 0xF007) (u0 := 7) (d := [2]) rfl (by decide +kernel) (by decide +kernel) (by decide +kernel) (by decide +kernel), by decide +kernel⟩

theorem witness_Sessions_1_1 : ∃ (s : State) (h : HalfSession),
    s.dict.half = some h :=
  ⟨{ tS with dict := { half := some tHalf } }, tHalf, by decide +kernel⟩

theorem witness_Sessions_2_1 : ∃ (s : State) (se : Session),
    s.dict.sess = some se :=
  ⟨tS, tSess 4, by decide +kernel⟩

theorem witness_Sessions_3_1 : ∃ (s : State) (a : BitVec 32) (b : BitVec 128),
    s.domReady 32 = true ∧ s.cfg 0x2040 1 ≠ 0 ∧
    (a.toNat ≠ 0 ∧ s.cfg 0x2040 3 = a.toNat) ∧
    (let mac := s.entV 0x2040 2
     let mine : Bool := decide (beBytes b.toNat 16 = linkLocal mac ∨ beBytes b.toNat 16 = s.entV 0x2040 5)
     mine = true) :=
  ⟨tMge, 0x0A000001, 0xFE80000000000000000000FFFE000001, by decide +kernel, by decide +kernel, ⟨by decide +kernel, by decide +kernel⟩, by decide +kernel⟩

theorem witness_Sessions_0_1 : ∃ (s t : State) (r : Req) (role : Nat),
    (∀ free, gate r 0x10 free s = .session t) ∧ sessionCheck t r 0x10 = .go role ∧ openCode t r = 0 :=
  ⟨{ tS with key := { root := [1] }, dict := {} }, tG (tOpen .mge) ({ tS with key := { root := [1] }, dict := {} }), tOpen .mge, 0, gate_of (n := _) rfl (by decide +kernel) (by decide +kernel), by decide +kernel, by decide +kernel⟩

theorem witness_Sessions_0_2 : ∃ (s t : State) (r : Req) (h : HalfSession),
    (∀ free, gate r 0x11 free s = .session t) ∧ t.dict.half = some h ∧ h.id = r.session.toNat ∧ h.tr = r.tr ∧ h.src = r.src.toNat ∧ r.seq = 0 :=
  ⟨{ tS with dict := { half := some tHalf } }, tG (tAuth) ({ tS with dict := { half := some tHalf } }), tAuth, tHalf, gate_of (n := _) rfl (by decide +kernel) (by decide +kernel), by decide +kernel, by decide +kernel, by decide +kernel, by decide +kernel, by decide +kernel⟩

end W31

namespace W32

def tU : Source := { link := true }
def tW : Bytes := [0x53, 0x57, 1, 2] ++ zeros 12
def tBy (s : State) : State := { s with power := { s.power with mode := .bypass } }
def tDown : State := tNet [] {}
def tDeep (s : State) : State := { s with power := { s.power with mode := .deep, preDoze := .service } }
def tSeg (f : Byte) (ack : Word) : TcpSeg := ⟨0xFFFF0A000009, 0x1389, 0x1388, 5, ack, f, 100, none, none, false, none, [], [], 0, none⟩
def tArp : Bytes := [0, 1, 8, 0, 6, 4, 0, 1] ++ zeros 6 ++ [10, 0, 0, 9] ++ zeros 6 ++ [10, 0, 0, 2]
def w_sc : Nat := 2
def w_u : State := (tNet ([(0x20020F, some (zeros 16))] ++ tTcpW) tU).pstat 2 1
def w_o : Bytes := (arpReply w_u 2 (tFrame 0x0806 tArp)).getD []
def tTcpS (t : Tcp) : State := tNet tTcpW { tU with tcp := t }

theorem witness_PortFrames_0_1 : ∃ (s : State) (p : Fin 32) (f : Frame),
    let sc := w_sc
    (let c := s.pstat p.val 1
     let et := f.etype.toNat
     let takes (h : Prop) : Prop :=
       portUp s p.val = true ∧ s.power.mode ≠ .deep ∧ h
     let good : Prop := bypassed c p.val f = false ∧ f.badFcs = none ∧ 64 ≤ frameLen f ∧ frameLen f ≤ 9216
     takes (good ∧ vlanOk c p.val f = true ∧ et ≠ 0x8808 ∧ wakeScope c p.val f = some sc)) ∧
    (wakeScope s p.val f = some sc ∧ portHears s p.val = true ∧ vlanOk s p.val f = true) ∧
    ((s.src p.val).link = true) :=
  ⟨tNet [] tU, 2, tFrame 0x88B5 tW, ⟨by decide +kernel, by decide +kernel, by decide +kernel⟩, ⟨by decide +kernel, by decide +kernel, by decide +kernel⟩, by decide +kernel⟩

theorem witness_PortFrames_0_2 : ∃ (s : State) (p : Fin 32) (f : Frame),
    (let c := s.pstat p.val 1
     let takes (h : Prop) : Prop :=
       portUp s p.val = true ∧ s.power.mode ≠ .deep ∧ h
     takes (bypassed c p.val f = true)) ∧
    (portUp s p.val = true ∧ bypassed s p.val f = true) :=
  ⟨tBy (tNet [] tU), 2, tFrame 0x1234 [1], ⟨by decide +kernel, by decide +kernel, by decide +kernel⟩, ⟨by decide +kernel, by decide +kernel⟩⟩

theorem witness_PortFrames_0_3 : ∃ (s : State) (p : Fin 32) (f : Frame),
    (let c := s.pstat p.val 1
     let et := f.etype.toNat
     let takes (h : Prop) : Prop :=
       portUp s p.val = true ∧ s.power.mode ≠ .deep ∧ h
     let good : Prop := bypassed c p.val f = false ∧ f.badFcs = none ∧ 64 ≤ frameLen f ∧ frameLen f ≤ 9216
     let mine : Prop := good ∧ vlanOk c p.val f = true ∧ et ≠ 0x8808 ∧ wakeScope c p.val f = none
     takes (mine ∧ pcfg c p.val 5 ≠ 0 ∧ et = 0x0806)) ∧
    (let o : Bytes := w_o
     let u : State := w_u
     arpReply u p.val f = some o ∧ peerV4 u p.val = false) :=
  ⟨tNet tTcpW tU, 2, tFrame 0x0806 tArp, ⟨by decide +kernel, by decide +kernel, by decide +kernel⟩, ⟨by decide +kernel, by decide +kernel⟩⟩

theorem witness_PortFrames_0_4 : ∃ (s : State) (p : Fin 32) (f : Frame),
    let c := s.pstat p.val 1
    let et := f.etype.toNat
    let takes (h : Prop) : Prop :=
      portUp s p.val = true ∧ s.power.mode ≠ .deep ∧ h
    let good : Prop := bypassed c p.val f = false ∧ f.badFcs = none ∧ 64 ≤ frameLen f ∧ frameLen f ≤ 9216
    let mine : Prop := good ∧ vlanOk c p.val f = true ∧ et ≠ 0x8808 ∧ wakeScope c p.val f = none
    takes (mine ∧ pcfg c p.val 5 = 0 ∧ et = pcfg c p.val 8) :=
  ⟨tNet [] tU, 2, tFrame 0x88B5 [1], ⟨by decide +kernel, by decide +kernel, by decide +kernel⟩⟩

theorem witness_PortFrames_0_5 : ∃ (s : State) (p : Fin 32) (f : Frame),
    let c := s.pstat p.val 1
    let takes (h : Prop) : Prop :=
      portUp s p.val = true ∧ s.power.mode ≠ .deep ∧ h
    takes (bypassed c p.val f = false ∧ f.badFcs = none ∧ frameLen f < 64) :=
  ⟨tNet [] tU, 2, { tFrame 0x88B5 [1] with payload := [1] }, ⟨by decide +kernel, by decide +kernel, by decide +kernel⟩⟩

theorem witness_PortFrames_0_6 : ∃ (s : State) (p : Fin 32) (f : Frame),
    let c := s.pstat p.val 1
    let et := f.etype.toNat
    let takes (h : Prop) : Prop :=
      portUp s p.val = true ∧ s.power.mode ≠ .deep ∧ h
    let good : Prop := bypassed c p.val f = false ∧ f.badFcs = none ∧ 64 ≤ frameLen f ∧ frameLen f ≤ 9216
    let mine : Prop := good ∧ vlanOk c p.val f = true ∧ et ≠ 0x8808 ∧ wakeScope c p.val f = none
    takes (mine ∧ pcfg c p.val 5 ≠ 0 ∧ et = 0x86DD) :=
  ⟨tNet tTcpW tU, 2, tFrame 0x86DD [1], ⟨by decide +kernel, by decide +kernel, by decide +kernel⟩⟩

theorem witness_PortFrames_0_7 : ∃ (s : State) (p : Fin 32) (f : Frame),
    let c := s.pstat p.val 1
    let et := f.etype.toNat
    let takes (h : Prop) : Prop :=
      portUp s p.val = true ∧ s.power.mode ≠ .deep ∧ h
    let good : Prop := bypassed c p.val f = false ∧ f.badFcs = none ∧ 64 ≤ frameLen f ∧ frameLen f ≤ 9216
    let mine : Prop := good ∧ vlanOk c p.val f = true ∧ et ≠ 0x8808 ∧ wakeScope c p.val f = none
    takes (mine ∧ pcfg c p.val 5 ≠ 0 ∧ et ≠ 0x0806 ∧ et ≠ 0x0800 ∧ et ≠ 0x86DD) :=
  ⟨tNet tTcpW tU, 2, tFrame 0x1234 [1], ⟨by decide +kernel, by decide +kernel, by decide +kernel⟩⟩

theorem witness_PortFrames_0_8 : ∃ (s : State) (p : Fin 32) (f : Frame),
    let c := s.pstat p.val 1
    let et := f.etype.toNat
    let takes (h : Prop) : Prop :=
      portUp s p.val = true ∧ s.power.mode ≠ .deep ∧ h
    let good : Prop := bypassed c p.val f = false ∧ f.badFcs = none ∧ 64 ≤ frameLen f ∧ frameLen f ≤ 9216
    takes (good ∧ vlanOk c p.val f = true ∧ et = 0x8808) :=
  ⟨tNet [] tU, 2, tFrame 0x8808 [1], ⟨by decide +kernel, by decide +kernel, by decide +kernel⟩⟩

theorem witness_PortFrames_0_9 : ∃ (s : State) (p : Fin 32) (f : Frame),
    let c := s.pstat p.val 1
    let et := f.etype.toNat
    let takes (h : Prop) : Prop :=
      portUp s p.val = true ∧ s.power.mode ≠ .deep ∧ h
    let good : Prop := bypassed c p.val f = false ∧ f.badFcs = none ∧ 64 ≤ frameLen f ∧ frameLen f ≤ 9216
    let mine : Prop := good ∧ vlanOk c p.val f = true ∧ et ≠ 0x8808 ∧ wakeScope c p.val f = none
    takes (mine ∧ pcfg c p.val 5 = 0 ∧ et ≠ pcfg c p.val 8) :=
  ⟨tNet [] tU, 2, tFrame 0x0800 [1], ⟨by decide +kernel, by decide +kernel, by decide +kernel⟩⟩

theorem witness_PortFrames_0_10 : ∃ (s : State) (p : Fin 32) (f : Frame),
    let c := s.pstat p.val 1
    let takes (h : Prop) : Prop :=
      portUp s p.val = true ∧ s.power.mode ≠ .deep ∧ h
    let good : Prop := bypassed c p.val f = false ∧ f.badFcs = none ∧ 64 ≤ frameLen f ∧ frameLen f ≤ 9216
    takes (good ∧ vlanOk c p.val f = false) :=
  ⟨tNet [] tU, 2, { tFrame 0x88B5 [1] with tci := some 3 }, ⟨by decide +kernel, by decide +kernel, by decide +kernel⟩⟩

theorem witness_PortFrames_0_11 : ∃ (s : State) (p : Fin 32) (f : Frame),
    let c := s.pstat p.val 1
    let takes (h : Prop) : Prop :=
      portUp s p.val = true ∧ s.power.mode ≠ .deep ∧ h
    takes (bypassed c p.val f = false ∧ f.badFcs.isSome = true) :=
  ⟨tNet [] tU, 2, { tFrame 0x88B5 [1] with badFcs := some 3 }, ⟨by decide +kernel, by decide +kernel, by decide +kernel⟩⟩

theorem witness_PortFrames_0_12 : ∃ (s : State) (p : Fin 32) (f : Frame),
    let c := s.pstat p.val 1
    let takes (h : Prop) : Prop :=
      portUp s p.val = true ∧ s.power.mode ≠ .deep ∧ h
    takes (bypassed c p.val f = false ∧ f.badFcs = none ∧ 9216 < frameLen f) :=
  ⟨tNet [] tU, 2, { tFrame 0x88B5 [1] with payload := zeros 9300 }, ⟨by decide +kernel, by decide +kernel, by decide +kernel⟩⟩

theorem witness_PortFrames_0_13 : ∃ (s : State) (p : Fin 32) (f : Frame),
    let c := s.pstat p.val 1
    let et := f.etype.toNat
    let takes (h : Prop) : Prop :=
      portUp s p.val = true ∧ s.power.mode ≠ .deep ∧ h
    let good : Prop := bypassed c p.val f = false ∧ f.badFcs = none ∧ 64 ≤ frameLen f ∧ frameLen f ≤ 9216
    let mine : Prop := good ∧ vlanOk c p.val f = true ∧ et ≠ 0x8808 ∧ wakeScope c p.val f = none
    takes (mine ∧ pcfg c p.val 5 ≠ 0 ∧ et = 0x0800) :=
  ⟨tNet tTcpW tU, 2, tFrame 0x0800 [1], ⟨by decide +kernel, by decide +kernel, by decide +kernel⟩⟩

theorem witness_PortFrames_0_14 : ∃ (s : State) (p : Fin 32),
    (s.src p.val).link = false ∧ s.power.mode ≠ .deep ∧ s.power.deepFrom = none :=
  ⟨tDown, 2, by decide +kernel, by decide +kernel, by decide +kernel⟩

theorem witness_PortFrames_0_15 : ∃ (s : State) (p : Fin 32),
    (s.src p.val).link = false ∧ (s.power.mode = .deep ∨ s.power.deepFrom.isSome = true) :=
  ⟨tDeep tDown, 2, by decide +kernel, by decide +kernel⟩

theorem witness_PortAnswers_0_1 : ∃ (s : State) (p : Fin 32) (f : TxFrame) (r : Source),
    portUp s p.val = true ∧ (s.src p.val).cur = none ∧ nextFrame s (s.src p.val) = some (f, r) ∧
    (f.sweep = none) :=
  ⟨tNet [] { tU with laneQ := [{ kind := 2, bytes := zeros 64, id := some 7, deadline := some 100 }] }, 2, { kind := 2, bytes := zeros 64, id := some 7, deadline := some 100 }, tU, by decide +kernel, by decide +kernel, by decide +kernel, by decide +kernel⟩

theorem witness_PortAnswers_1_1 : ∃ (s : State) (die : Fin 2) (h : ResHdr),
    let a := s.at h.due
    let u := { a with port := { a.port with resLink := dropHdr h a.port.resLink } }
    let open_ := (u.src h.src).outst.find? (fun o => decide (o.id = h.msgid) && ! o.swept)
    let o := ({ id := 7, cls := 1, msg := tMsg })
    nextHdr die.val s.port.resLink = some h ∧ open_ = some o :=
  ⟨{ tNet [] { tU with outst := [{ id := 7, cls := 1, msg := tMsg }] } with port := { srcs := [(2, { tU with outst := [{ id := 7, cls := 1, msg := tMsg }] })], resLink := [⟨6000, 0, 2, 0, 1, 7, [1], 9000, 1, 3, 255, 0, 1, none⟩] } }, 0, ⟨6000, 0, 2, 0, 1, 7, [1], 9000, 1, 3, 255, 0, 1, none⟩, by decide +kernel, by decide +kernel⟩

theorem witness_PortAnswers_1_2 : ∃ (s : State) (die : Fin 2) (h : ResHdr),
    let a := s.at h.due
    let u := { a with port := { a.port with resLink := dropHdr h a.port.resLink } }
    let open_ := (u.src h.src).outst.find? (fun o => decide (o.id = h.msgid) && ! o.swept)
    nextHdr die.val s.port.resLink = some h ∧ open_ = none :=
  ⟨{ tNet [] tU with port := { srcs := [(2, tU)], resLink := [⟨6000, 0, 2, 0, 1, 7, [1], 9000, 1, 3, 255, 0, 1, none⟩] } }, 0, ⟨6000, 0, 2, 0, 1, 7, [1], 9000, 1, 3, 255, 0, 1, none⟩, by decide +kernel, by decide +kernel⟩

theorem witness_PortAnswers_2_1 : ∃ (s : State) (src : Fin 36) (st x : Nat),
    let p := src.val
    let r := s.src p
    r.sweepReq = some (st, x) ∧ r.deferReset = false ∧ r.cur = none ∧
    (let u := s.setSrc p { r with sweepReq := none, sweepDies := 0 }
     p < 32 ∧ pcfg u p 5 = 0 ∧ (∀ o ∈ r.outst, o.lost = false)) :=
  ⟨tNet [] { tU with sweepReq := some (10, 0), sweepDies := 1, outst := [{ id := 7, cls := 1, msg := tMsg }, { id := 8, cls := 1, msg := tMsg, die := 1 }] }, 2, 10, 0, by decide +kernel, by decide +kernel, by decide +kernel, ⟨by decide +kernel, by decide +kernel, by decide +kernel⟩⟩

theorem witness_PortAnswers_3_1 : ∃ (s : State) (p : Nat) (o : Outst),
    (p ≥ 32 ∨ pcfg s p 5 ≠ 0 ∨ o.lost = true) :=
  ⟨tNet [] { tU with sweepReq := some (10, 0), sweepDies := 1, outst := [{ id := 7, cls := 1, msg := tMsg }, { id := 8, cls := 1, msg := tMsg, die := 1 }] }, 2, { id := 7, cls := 1, msg := tMsg, lost := true }, by decide +kernel⟩

theorem witness_TcpEngine_0_1 : ∃ (s : State) (p : Fin 32) (g : TcpSeg),
    portUp s p.val = true ∧ pcfg s p.val 5 ≠ 0 ∧ (g.src.toNat ≠ beNat (pbytes s p.val 0x0F) ∨ pbytes s p.val 0x0F = []) :=
  ⟨tTcpS {}, 2, { tSeg 2 0 with src := 1 }, by decide +kernel, by decide +kernel, by decide +kernel⟩

theorem witness_TcpEngine_1_1 : ∃ (s : State) (p : Fin 32) (g : TcpSeg),
    let q := p.val
    let t := (s.src q).tcp
    let fl := g.flags.toNat
    tcpMay s p.val = true ∧ g.src.toNat = beNat (pbytes s p.val 0x0F) ∧ pbytes s p.val 0x0F ≠ [] ∧ g.dport.toNat = pcfg s q 0x11 ∧ ((g.sport.toNat = pcfg s q 0x12 ∧ pcfg s q 0x12 ≠ 0) ∨ (pcfg s q 0x12 = 0 ∧ t.st ≤ 1) ∨ (pcfg s q 0x12 = 0 ∧ g.sport.toNat = t.peerPort) ∨ (pcfg s q 0x12 = 0 ∧ t.st = 10 ∧ bit fl 1 = true)) ∧ 4 ≤ t.st ∧
    (bit fl 2 = true ∧ g.seq.toNat = t.rcv) :=
  ⟨tTcpS { st := 4, nxt := 9, rcv := 5, sendQ := [1] }, 2, tSeg 4 9, by decide +kernel, by decide +kernel, by decide +kernel, by decide +kernel, by decide +kernel, by decide +kernel, ⟨by decide +kernel, by decide +kernel⟩⟩

theorem witness_TcpEngine_1_2 : ∃ (s : State) (p : Fin 32) (g : TcpSeg),
    let q := p.val
    tcpMay s p.val = true ∧ g.src.toNat = beNat (pbytes s p.val 0x0F) ∧ pbytes s p.val 0x0F ≠ [] ∧ (g.dport.toNat ≠ pcfg s q 0x11 ∨ (pcfg s q 0x12 ≠ 0 ∧ g.sport.toNat ≠ pcfg s q 0x12)) :=
  ⟨tTcpS {}, 2, { tSeg 2 0 with sport := 1, dport := 1 }, by decide +kernel, by decide +kernel, by decide +kernel, by decide +kernel⟩

theorem witness_TcpEngine_1_3 : ∃ (s : State) (p : Fin 32) (g : TcpSeg),
    let q := p.val
    let t := (s.src q).tcp
    let fl := g.flags.toNat
    tcpMay s p.val = true ∧ g.src.toNat = beNat (pbytes s p.val 0x0F) ∧ pbytes s p.val 0x0F ≠ [] ∧ g.dport.toNat = pcfg s q 0x11 ∧ ((g.sport.toNat = pcfg s q 0x12 ∧ pcfg s q 0x12 ≠ 0) ∨ (pcfg s q 0x12 = 0 ∧ t.st ≤ 1) ∨ (pcfg s q 0x12 = 0 ∧ g.sport.toNat = t.peerPort) ∨ (pcfg s q 0x12 = 0 ∧ t.st = 10 ∧ bit fl 1 = true)) ∧ t.st = 0 ∧ bit fl 2 = false ∧ bit fl 4 = false :=
  ⟨tTcpS {}, 2, tSeg 2 0, by decide +kernel, by decide +kernel, by decide +kernel, by decide +kernel, by decide +kernel, by decide +kernel, by decide +kernel, by decide +kernel⟩

theorem witness_TcpEngine_1_4 : ∃ (s : State) (p : Fin 32) (g : TcpSeg),
    let q := p.val
    let t := (s.src q).tcp
    let fl := g.flags.toNat
    tcpMay s p.val = true ∧ g.src.toNat = beNat (pbytes s p.val 0x0F) ∧ pbytes s p.val 0x0F ≠ [] ∧ g.dport.toNat = pcfg s q 0x11 ∧ ((g.sport.toNat = pcfg s q 0x12 ∧ pcfg s q 0x12 ≠ 0) ∨ (pcfg s q 0x12 = 0 ∧ t.st ≤ 1) ∨ (pcfg s q 0x12 = 0 ∧ g.sport.toNat = t.peerPort) ∨ (pcfg s q 0x12 = 0 ∧ t.st = 10 ∧ bit fl 1 = true)) ∧ t.st = 1 ∧ bit fl 2 = false ∧ bit fl 4 = false ∧ bit fl 1 = true :=
  ⟨tTcpS { st := 1 }, 2, tSeg 2 0, by decide +kernel, by decide +kernel, by decide +kernel, by decide +kernel, by decide +kernel, by decide +kernel, by decide +kernel, by decide +kernel, by decide +kernel⟩

theorem witness_TcpEngine_1_5 : ∃ (s : State) (p : Fin 32) (g : TcpSeg),
    let q := p.val
    let t := (s.src q).tcp
    let fl := g.flags.toNat
    tcpMay s p.val = true ∧ g.src.toNat = beNat (pbytes s p.val 0x0F) ∧ pbytes s p.val 0x0F ≠ [] ∧ g.dport.toNat = pcfg s q 0x11 ∧ ((g.sport.toNat = pcfg s q 0x12 ∧ pcfg s q 0x12 ≠ 0) ∨ (pcfg s q 0x12 = 0 ∧ t.st ≤ 1) ∨ (pcfg s q 0x12 = 0 ∧ g.sport.toNat = t.peerPort) ∨ (pcfg s q 0x12 = 0 ∧ t.st = 10 ∧ bit fl 1 = true)) ∧ t.st ≤ 1 ∧ bit fl 2 = false ∧ bit fl 4 = true :=
  ⟨tTcpS { st := 1 }, 2, tSeg 16 0, by decide +kernel, by decide +kernel, by decide +kernel, by decide +kernel, by decide +kernel, by decide +kernel, by decide +kernel, by decide +kernel⟩

theorem witness_TcpEngine_1_6 : ∃ (s : State) (p : Fin 32) (g : TcpSeg),
    let q := p.val
    let t := (s.src q).tcp
    let fl := g.flags.toNat
    tcpMay s p.val = true ∧ g.src.toNat = beNat (pbytes s p.val 0x0F) ∧ pbytes s p.val 0x0F ≠ [] ∧ g.dport.toNat = pcfg s q 0x11 ∧ ((g.sport.toNat = pcfg s q 0x12 ∧ pcfg s q 0x12 ≠ 0) ∨ (pcfg s q 0x12 = 0 ∧ t.st ≤ 1) ∨ (pcfg s q 0x12 = 0 ∧ g.sport.toNat = t.peerPort) ∨ (pcfg s q 0x12 = 0 ∧ t.st = 10 ∧ bit fl 1 = true)) ∧ t.st = 2 ∧ bit fl 2 = true ∧ bit fl 4 = true ∧ g.ack.toNat = t.nxt :=
  ⟨tTcpS { st := 2, nxt := 9 }, 2, tSeg 20 9, by decide +kernel, by decide +kernel, by decide +kernel, by decide +kernel, by decide +kernel, by decide +kernel, by decide +kernel, by decide +kernel, by decide +kernel⟩

theorem witness_TcpEngine_1_7 : ∃ (s : State) (p : Fin 32) (g : TcpSeg),
    let q := p.val
    let t := (s.src q).tcp
    let fl := g.flags.toNat
    tcpMay s p.val = true ∧ g.src.toNat = beNat (pbytes s p.val 0x0F) ∧ pbytes s p.val 0x0F ≠ [] ∧ g.dport.toNat = pcfg s q 0x11 ∧ ((g.sport.toNat = pcfg s q 0x12 ∧ pcfg s q 0x12 ≠ 0) ∨ (pcfg s q 0x12 = 0 ∧ t.st ≤ 1) ∨ (pcfg s q 0x12 = 0 ∧ g.sport.toNat = t.peerPort) ∨ (pcfg s q 0x12 = 0 ∧ t.st = 10 ∧ bit fl 1 = true)) ∧ t.st = 2 ∧ bit fl 2 = false ∧ bit fl 4 = true ∧ g.ack.toNat = t.nxt ∧ bit fl 1 = true :=
  ⟨tTcpS { st := 2, nxt := 9 }, 2, tSeg 18 9, by decide +kernel, by decide +kernel, by decide +kernel, by decide +kernel, by decide +kernel, by decide +kernel, by decide +kernel, by decide +kernel, by decide +kernel, by decide +kernel⟩

theorem witness_TcpEngine_1_8 : ∃ (s : State) (p : Fin 32) (g : TcpSeg),
    let q := p.val
    let t := (s.src q).tcp
    let fl := g.flags.toNat
    tcpMay s p.val = true ∧ g.src.toNat = beNat (pbytes s p.val 0x0F) ∧ pbytes s p.val 0x0F ≠ [] ∧ g.dport.toNat = pcfg s q 0x11 ∧ ((g.sport.toNat = pcfg s q 0x12 ∧ pcfg s q 0x12 ≠ 0) ∨ (pcfg s q 0x12 = 0 ∧ t.st ≤ 1) ∨ (pcfg s q 0x12 = 0 ∧ g.sport.toNat = t.peerPort) ∨ (pcfg s q 0x12 = 0 ∧ t.st = 10 ∧ bit fl 1 = true)) ∧ t.st = 3 ∧ bit fl 2 = false ∧ bit fl 1 = false ∧ bit fl 4 = true ∧ g.ack.toNat = t.nxt :=
  ⟨tTcpS { st := 3, nxt := 9 }, 2, tSeg 16 9, by decide +kernel, by decide +kernel, by decide +kernel, by decide +kernel, by decide +kernel, by decide +kernel, by decide +kernel, by decide +kernel, by decide +kernel, by decide +kernel⟩

theorem witness_TcpEngine_1_9 : ∃ (s : State) (p : Fin 32) (g : TcpSeg),
    let q := p.val
    let t := (s.src q).tcp
    let fl := g.flags.toNat
    tcpMay s p.val = true ∧ g.src.toNat = beNat (pbytes s p.val 0x0F) ∧ pbytes s p.val 0x0F ≠ [] ∧ g.dport.toNat = pcfg s q 0x11 ∧ ((g.sport.toNat = pcfg s q 0x12 ∧ pcfg s q 0x12 ≠ 0) ∨ (pcfg s q 0x12 = 0 ∧ t.st ≤ 1) ∨ (pcfg s q 0x12 = 0 ∧ g.sport.toNat = t.peerPort) ∨ (pcfg s q 0x12 = 0 ∧ t.st = 10 ∧ bit fl 1 = true)) ∧ t.st = 10 ∧ bit fl 2 = false ∧ bit fl 1 = true :=
  ⟨tTcpS { st := 10, nxt := 9, sendQ := [1] }, 2, tSeg 2 9, by decide +kernel, by decide +kernel, by decide +kernel, by decide +kernel, by decide +kernel, by decide +kernel, by decide +kernel, by decide +kernel⟩

theorem witness_TcpEngine_2_1 : ∃ (s : State) (p : Fin 32) (due : Nat),
    let q := p.val
    let k := (s.src q).tcp
    (s.src p.val).tcp.rtoDue = some due ∧ pcfg s q 0x15 < k.retx + 1 ∧ k.st = 2 :=
  ⟨tTcpS { st := 2, nxt := 9, rtoDue := some 6000, retx := 70000 }, 2, 6000, by decide +kernel, by decide +kernel, by decide +kernel⟩

theorem witness_TcpEngine_2_2 : ∃ (s : State) (p : Fin 32) (due : Nat),
    let q := p.val
    let k := (s.src q).tcp
    (s.src p.val).tcp.rtoDue = some due ∧ pcfg s q 0x15 < k.retx + 1 ∧ k.st ≠ 2 :=
  ⟨tTcpS { st := 4, nxt := 9, rtoDue := some 6000, retx := 70000 }, 2, 6000, by decide +kernel, by decide +kernel, by decide +kernel⟩

theorem witness_TcpEngine_2_3 : ∃ (s : State) (p : Fin 32) (due : Nat),
    let q := p.val
    let k := (s.src q).tcp
    (s.src p.val).tcp.rtoDue = some due ∧ k.retx + 1 ≤ pcfg s q 0x15 ∧ k.st < 4 :=
  ⟨tNet ([(0x200215, some [9])] ++ tTcpW) { tU with tcp := { st := 2, nxt := 9, rtoDue := some 6000 } }, 2, 6000, by decide +kernel, by decide +kernel, by decide +kernel⟩

theorem witness_TcpEngine_2_4 : ∃ (s : State) (p : Fin 32) (due : Nat),
    let q := p.val
    let k := (s.src q).tcp
    (s.src p.val).tcp.rtoDue = some due ∧ k.retx + 1 ≤ pcfg s q 0x15 ∧ 4 ≤ k.st :=
  ⟨tNet ([(0x200215, some [9])] ++ tTcpW) { tU with tcp := { st := 4, nxt := 9, sendQ := [1], rtoDue := some 6000 } }, 2, 6000, by decide +kernel, by decide +kernel, by decide +kernel⟩

theorem witness_TcpEngine_3_1 : ∃ (s : State) (p : Fin 32) (due : Nat),
    let q := p.val
    let k := (s.src q).tcp
    (s.src p.val).tcp.kaDue = some due ∧ (s.src p.val).tcp.st = 4 ∧ pcfg s q 0x18 ≤ k.probes :=
  ⟨tTcpS { st := 4, nxt := 9, kaDue := some 6000, probes := 70000 }, 2, 6000, by decide +kernel, by decide +kernel, by decide +kernel⟩

theorem witness_TcpEngine_3_2 : ∃ (s : State) (p : Fin 32) (due : Nat),
    let q := p.val
    let k := (s.src q).tcp
    (s.src p.val).tcp.kaDue = some due ∧ (s.src p.val).tcp.st = 4 ∧ k.probes < pcfg s q 0x18 :=
  ⟨tNet ([(0x200218, some [9])] ++ tTcpW) { tU with tcp := { st := 4, nxt := 9, sendQ := [1], kaDue := some 6000 } }, 2, 6000, by decide +kernel, by decide +kernel, by decide +kernel⟩

theorem witness_TcpEngine_4_1 : ∃ (s : State) (p : Fin 32) (due : Nat),
    (s.src p.val).tcp.zwDue = some due :=
  ⟨tTcpS { st := 4, nxt := 9, sendQ := [1], zwDue := some 6000 }, 2, 6000, by decide +kernel⟩

theorem witness_TcpEngine_5_1 : ∃ (s : State) (p : Fin 32) (due : Nat),
    (s.src p.val).tcp.twDue = some due :=
  ⟨tTcpS { st := 10, nxt := 9, twDue := some 6000 }, 2, 6000, by decide +kernel⟩

theorem witness_TcpEngine_6_1 : ∃ (s : State) (p : Fin 32) (due : Nat),
    (s.src p.val).tcp.reDue = some due :=
  ⟨tTcpS { st := 0, nxt := 9, reDue := some 6000 }, 2, 6000, by decide +kernel⟩

theorem witness_HostPort_0_1 : ∃ (s : State) (q : Fin 4) (e : SqEnt) (rest : List SqEnt),
    (s.domReady 30 = true ∧ s.port.link ≠ 0 ∧ (s.hq q.val).en = true) ∧
    (let a := s.setHq q.val { s.hq q.val with fetched := rest }
     let d := dma 0x78 0 (hostAddr e.req) e.len a
     (s.hq q.val).fetched = e :: rest ∧ 1 ≤ e.len ∧ e.len ≤ 8192 ∧ d.2.1 ≠ 0) :=
  ⟨{ tNet [] tU with port := { link := 16, hqs := [(1, { en := true, sqLog := 6, cqLog := 6, fetched := [⟨1, 2, 64, 0, 0, 0⟩] })] } }, 1, ⟨1, 2, 64, 0, 0, 0⟩, [], ⟨by decide +kernel, by decide +kernel, by decide +kernel⟩, ⟨by decide +kernel, by decide +kernel, by decide +kernel, by decide +kernel⟩⟩

theorem witness_HostPort_0_2 : ∃ (s : State) (q : Fin 4) (e : SqEnt) (rest : List SqEnt),
    (s.domReady 30 = true ∧ (s.port.link = 0 ∨ (s.hq q.val).en = false)) ∧
    ((s.hq q.val).fetched = e :: rest ∧ (e.len = 0 ∨ 8192 < e.len)) :=
  ⟨{ tNet [] tU with port := { link := 16, hqs := [(1, { en := false, sqLog := 6, cqLog := 6, fetched := [⟨1, 2, 0, 0, 0, 0⟩] })] } }, 1, ⟨1, 2, 0, 0, 0, 0⟩, [], ⟨by decide +kernel, by decide +kernel⟩, ⟨by decide +kernel, by decide +kernel⟩⟩

theorem witness_HostPort_0_3 : ∃ (s : State) (q : Fin 4) (e : SqEnt) (rest : List SqEnt),
    let a := s.setHq q.val { s.hq q.val with fetched := rest }
    let d := dma 0x78 0 (hostAddr e.req) e.len a
    (s.hq q.val).fetched = e :: rest ∧ 1 ≤ e.len ∧ e.len ≤ 8192 ∧ d.2.1 = 0 :=
  ⟨{ tNet [] tU with port := { link := 16, hqs := [(1, { en := false, sqLog := 6, cqLog := 6, fetched := [⟨1, 0x40, 8000, 0, 0, 0⟩] })] }, act := { tabs := [(3, { wins := [(0, { lo := 0, hi := 0xFFFFFFF, region := hostAddr 0x40 / 2 ^ 32, first := 0, last := 255, r := true, en := true })] })] } }, 1, ⟨1, 0x40, 8000, 0, 0, 0⟩, [], by decide +kernel, by decide +kernel, by decide +kernel, by decide +kernel⟩

theorem witness_HostPort_1_1 : ∃ (s : State) (q : Fin 5),
    s.domReady 30 = true ∧
    (let h := s.hq q.val
     let sz (n : Nat) : Prop := 6 ≤ n ∧ n ≤ 14
     h.en = false ∧ q.val < 4 ∧ sz h.cqLog ∧ sz h.sqLog ∧ h.sqLog ≤ h.cqLog) :=
  ⟨{ tNet [] tU with port := { link := 16, hqs := [(1, { sqLog := 6, cqLog := 7 })] } }, 1, by decide +kernel, ⟨by decide +kernel, by decide +kernel, by decide +kernel, by decide +kernel, by decide +kernel⟩⟩

theorem witness_HostPort_1_2 : ∃ (s : State) (q : Fin 5),
    let h := s.hq q.val
    let sz (n : Nat) : Prop := 6 ≤ n ∧ n ≤ 14
    s.domReady 30 = true ∧ h.en = false ∧ q.val = 4 ∧ sz h.cqLog :=
  ⟨{ tNet [] tU with port := { link := 16, hqs := [(4, { sqLog := 0, cqLog := 7 })] } }, 4, by decide +kernel, by decide +kernel, by decide +kernel, by decide +kernel⟩

theorem witness_HostPort_1_3 : ∃ (s : State) (q : Fin 5),
    let h := s.hq q.val
    let sz (n : Nat) : Prop := 6 ≤ n ∧ n ≤ 14
    s.domReady 30 = true ∧ h.en = false ∧ (¬ sz h.cqLog ∨ (q.val < 4 ∧ (¬ sz h.sqLog ∨ h.cqLog < h.sqLog))) :=
  ⟨{ tNet [] tU with port := { link := 16, hqs := [(1, { sqLog := 6, cqLog := 5 })] } }, 1, by decide +kernel, by decide +kernel, by decide +kernel⟩

theorem witness_HostPort_2_1 : ∃ (s : State) (width rate : Nat),
    s.domReady 30 = true ∧ s.pins.perst = true ∧
    ([1, 2, 4, 8, 12, 16].contains width = true ∧ 1 ≤ rate ∧ rate ≤ 5) :=
  ⟨{ tNet [] tU with pins := { State.reset.pins with perst := true } }, 8, 5, by decide +kernel, by decide +kernel, ⟨by decide +kernel, by decide +kernel, by decide +kernel⟩⟩

theorem witness_HostPort_3_1 : ∃ (s t : State) (r : Req) (role : Nat) (c : Fin 16) (k : Nat),
    let r1 := reqWith r [1]
    let done : Prop :=
      Granted s r1 (0x2101 + c.val) 2 t role [1] ∧ CanBegin t (0x2101 + c.val) 2 k
    done :=
  ⟨tSrv 4 .service, tG (tReq 2 0x2104 2 [1]) (tSrv 4 .service), tReq 2 0x2104 2 [1], 4, 3, 0, ⟨granted_of (i0 := 0x2104) (u0 := 2) (d := [1]) rfl (by decide +kernel) (by decide +kernel) (by decide +kernel) (by decide +kernel), ⟨by decide +kernel, by decide +kernel, by decide +kernel, by decide +kernel⟩⟩⟩

end W32

namespace W33

def tHdr : ResHdr := ⟨5000, 0, 2, 0, 1, 7, [1], 9000, 1, 3, 255, 0, 1, none⟩
def w_o : Outst := { id := 7, cls := 1, msg := tMsg }
def w_i : AudItem := ⟨0, 0, 4000, 0, zeros 40⟩
def w_rest : List AudItem := []
def tAud (a : AudUnit) : State := { tAdm [] {} with unit := { auds := [(0, a)] } }
def tEp (e : EpochState) : State := { tAdm [] {} with unit := { epoch := e } }
def tJobF : Job := { tJob with stage := 5 }

theorem witness_AdmissionTest_0_1 : ∃ (s : State) (die : Fin 2) (a : Arrival) (e : EpochCfg),
    let d := die.val
    let x := a.desc
    let ta := a.due + 8
    let v := (s.at ta).setDisp d { (s.at ta).disp d with arrivals := dropArrival a ((s.at ta).disp d).arrivals }
    let u := { v with unit := { v.unit with nextJob := v.unit.nextJob + 1 } }
    let cv := costOf (Tab.look [] e.progs (clsVal u e x.cls 2))
    let test (h : Prop) : Prop :=
      nextArrival (s.disp d) = some a ∧ (v.disp d).inReset = false ∧ a.lost = false ∧ h
    let held : Prop := x.epoch ≠ 0 ∧ (x.epoch = (u.disp d).cur ∨ x.epoch = (u.disp d).prev) ∧ epochCfg u x.epoch = some e
    let served : Prop := held ∧ classifies u = true ∧ classServed u e x.cls = true
    let fits : Prop := served ∧ ta < x.deadline ∧ cv.rmax ≤ EpochCfg.val u e (srcIdx x.src) 3 ∧
      unsent u x.src + 1 ≤ EpochCfg.val u e (srcIdx x.src) 1
    test (fits ∧ tailOf u e x.src ≤ x.deadline) :=
  ⟨tAdm [] { epoch := 1, deadline := 100000 }, 0, tArr { epoch := 1, deadline := 100000 }, tEpoch [], ⟨by decide +kernel, by decide +kernel, by decide +kernel, by decide +kernel⟩⟩

theorem witness_AdmissionTest_0_2 : ∃ (s : State) (die : Fin 2) (a : Arrival),
    let d := die.val
    let x := a.desc
    let ta := a.due + 8
    let v := (s.at ta).setDisp d { (s.at ta).disp d with arrivals := dropArrival a ((s.at ta).disp d).arrivals }
    let u := { v with unit := { v.unit with nextJob := v.unit.nextJob + 1 } }
    let test (h : Prop) : Prop :=
      nextArrival (s.disp d) = some a ∧ (v.disp d).inReset = false ∧ a.lost = false ∧ h
    test (x.epoch = 0 ∨ (x.epoch ≠ (u.disp d).cur ∧ x.epoch ≠ (u.disp d).prev)) :=
  ⟨tAdm [] { epoch := 2, deadline := 100000 }, 0, tArr { epoch := 2, deadline := 100000 }, ⟨by decide +kernel, by decide +kernel, by decide +kernel, by decide +kernel⟩⟩

theorem witness_AdmissionTest_0_3 : ∃ (s : State) (die : Fin 2) (a : Arrival) (e : EpochCfg),
    let d := die.val
    let x := a.desc
    let ta := a.due + 8
    let v := (s.at ta).setDisp d { (s.at ta).disp d with arrivals := dropArrival a ((s.at ta).disp d).arrivals }
    let u := { v with unit := { v.unit with nextJob := v.unit.nextJob + 1 } }
    let test (h : Prop) : Prop :=
      nextArrival (s.disp d) = some a ∧ (v.disp d).inReset = false ∧ a.lost = false ∧ h
    let held : Prop := x.epoch ≠ 0 ∧ (x.epoch = (u.disp d).cur ∨ x.epoch = (u.disp d).prev) ∧ epochCfg u x.epoch = some e
    test (held ∧ (classifies u = false ∨ classServed u e x.cls = false)) :=
  ⟨tAdm [(0x310101, some [0])] { epoch := 1, deadline := 100000 }, 0, tArr { epoch := 1, deadline := 100000 }, tEpoch [(0x310101, some [0])], ⟨by decide +kernel, by decide +kernel, by decide +kernel, by decide +kernel⟩⟩

theorem witness_AdmissionTest_0_4 : ∃ (s : State) (die : Fin 2) (a : Arrival) (e : EpochCfg),
    let d := die.val
    let x := a.desc
    let ta := a.due + 8
    let v := (s.at ta).setDisp d { (s.at ta).disp d with arrivals := dropArrival a ((s.at ta).disp d).arrivals }
    let u := { v with unit := { v.unit with nextJob := v.unit.nextJob + 1 } }
    let test (h : Prop) : Prop :=
      nextArrival (s.disp d) = some a ∧ (v.disp d).inReset = false ∧ a.lost = false ∧ h
    let held : Prop := x.epoch ≠ 0 ∧ (x.epoch = (u.disp d).cur ∨ x.epoch = (u.disp d).prev) ∧ epochCfg u x.epoch = some e
    let served : Prop := held ∧ classifies u = true ∧ classServed u e x.cls = true
    test (served ∧ x.deadline ≤ ta) :=
  ⟨tAdm [] { epoch := 1, deadline := 6008 }, 0, tArr { epoch := 1, deadline := 6008 }, tEpoch [], ⟨by decide +kernel, by decide +kernel, by decide +kernel, by decide +kernel⟩⟩

theorem witness_AdmissionTest_0_5 : ∃ (s : State) (die : Fin 2) (a : Arrival) (e : EpochCfg),
    let d := die.val
    let x := a.desc
    let ta := a.due + 8
    let v := (s.at ta).setDisp d { (s.at ta).disp d with arrivals := dropArrival a ((s.at ta).disp d).arrivals }
    let u := { v with unit := { v.unit with nextJob := v.unit.nextJob + 1 } }
    let cv := costOf (Tab.look [] e.progs (clsVal u e x.cls 2))
    let test (h : Prop) : Prop :=
      nextArrival (s.disp d) = some a ∧ (v.disp d).inReset = false ∧ a.lost = false ∧ h
    let held : Prop := x.epoch ≠ 0 ∧ (x.epoch = (u.disp d).cur ∨ x.epoch = (u.disp d).prev) ∧ epochCfg u x.epoch = some e
    let served : Prop := held ∧ classifies u = true ∧ classServed u e x.cls = true
    test (served ∧ ta < x.deadline ∧ EpochCfg.val u e (srcIdx x.src) 3 < cv.rmax) :=
  ⟨{ tAdm [] { epoch := 1, deadline := 100000 } with unit := { (tAdm [] { epoch := 1, deadline := 100000 }).unit with epoch := { cur := some { tEpoch [] with progs := [(1, List.replicate 400 1)] } } } }, 0, tArr { epoch := 1, deadline := 100000 }, { tEpoch [] with progs := [(1, List.replicate 400 1)] }, ⟨by decide +kernel, by decide +kernel, by decide +kernel, by decide +kernel⟩⟩

theorem witness_AdmissionTest_0_6 : ∃ (s : State) (die : Fin 2) (a : Arrival) (e : EpochCfg),
    let d := die.val
    let x := a.desc
    let ta := a.due + 8
    let v := (s.at ta).setDisp d { (s.at ta).disp d with arrivals := dropArrival a ((s.at ta).disp d).arrivals }
    let u := { v with unit := { v.unit with nextJob := v.unit.nextJob + 1 } }
    let cv := costOf (Tab.look [] e.progs (clsVal u e x.cls 2))
    let test (h : Prop) : Prop :=
      nextArrival (s.disp d) = some a ∧ (v.disp d).inReset = false ∧ a.lost = false ∧ h
    let held : Prop := x.epoch ≠ 0 ∧ (x.epoch = (u.disp d).cur ∨ x.epoch = (u.disp d).prev) ∧ epochCfg u x.epoch = some e
    let served : Prop := held ∧ classifies u = true ∧ classServed u e x.cls = true
    test (served ∧ ta < x.deadline ∧ cv.rmax ≤ EpochCfg.val u e (srcIdx x.src) 3 ∧ EpochCfg.val u e (srcIdx x.src) 1 < unsent u x.src + 1) :=
  ⟨{ tAdm [] { epoch := 1, deadline := 100000 } with port := { unsent := [(2, 4)] } }, 0, tArr { epoch := 1, deadline := 100000 }, tEpoch [], ⟨by decide +kernel, by decide +kernel, by decide +kernel, by decide +kernel⟩⟩

theorem witness_AdmissionTest_0_7 : ∃ (s : State) (die : Fin 2) (a : Arrival),
    let d := die.val
    let x := a.desc
    let ta := a.due + 8
    let v := (s.at ta).setDisp d { (s.at ta).disp d with arrivals := dropArrival a ((s.at ta).disp d).arrivals }
    let o := w_o
    nextArrival (s.disp d) = some a ∧ ((v.disp d).inReset = true ∨ a.lost = true) ∧ (v.src x.src).outst.find? (fun o => decide (o.id = x.msgid) && ! o.swept) = some o :=
  ⟨{ tAdm [] {} with unit := { disps := [(0, { arrivals := [tArr {}], inReset := true })] }, port := { srcs := [(2, { outst := [w_o] })] } }, 0, tArr {}, by decide +kernel, by decide +kernel, by decide +kernel⟩

theorem witness_AdmissionTest_0_8 : ∃ (s : State) (die : Fin 2) (a : Arrival) (e : EpochCfg),
    let d := die.val
    let x := a.desc
    let ta := a.due + 8
    let v := (s.at ta).setDisp d { (s.at ta).disp d with arrivals := dropArrival a ((s.at ta).disp d).arrivals }
    let u := { v with unit := { v.unit with nextJob := v.unit.nextJob + 1 } }
    let cv := costOf (Tab.look [] e.progs (clsVal u e x.cls 2))
    let test (h : Prop) : Prop :=
      nextArrival (s.disp d) = some a ∧ (v.disp d).inReset = false ∧ a.lost = false ∧ h
    let held : Prop := x.epoch ≠ 0 ∧ (x.epoch = (u.disp d).cur ∨ x.epoch = (u.disp d).prev) ∧ epochCfg u x.epoch = some e
    let served : Prop := held ∧ classifies u = true ∧ classServed u e x.cls = true
    let fits : Prop := served ∧ ta < x.deadline ∧ cv.rmax ≤ EpochCfg.val u e (srcIdx x.src) 3 ∧
      unsent u x.src + 1 ≤ EpochCfg.val u e (srcIdx x.src) 1
    test (fits ∧ x.deadline < tailOf u e x.src) :=
  ⟨tAdm [(0x301202, some [255, 255])] { epoch := 1, deadline := 100000 }, 0, tArr { epoch := 1, deadline := 100000 }, tEpoch [(0x301202, some [255, 255])], ⟨by decide +kernel, by decide +kernel, by decide +kernel, by decide +kernel⟩⟩

theorem witness_AdmissionTest_1_1 : ∃ (s : State) (die : Fin 2) (x : Nat) (rest : List Nat),
    let d := die.val
    (dieLanes d).filterMap (fun l => (s.lane l).posts.head?.map (fun h => h.due)) = x :: rest :=
  ⟨{ tAdm [] {} with unit := { lanes := [(3, { posts := [tHdr] })] } }, 0, 5000, [], by decide +kernel⟩

theorem witness_AdmissionTest_2_1 : ∃ (s : State) (l : Nat) (h : ResHdr) (rest : List ResHdr),
    (s.lane l).posts = h :: rest :=
  ⟨{ tAdm [] {} with unit := { lanes := [(3, { posts := [tHdr] })] } }, 3, tHdr, [], by decide +kernel⟩

theorem witness_AuditStream_0_1 : ∃ (s : State) (die : Fin 2),
    let d := die.val
    let a := s.aud d
    (let i := w_i
     let rest := w_rest
     a.items = i :: rest ∧ (chunkF (a.items.length + 1) [] i.off false a.items).1.length < 48) ∧
    (a.sysHold = true ∧ sweepsDone s = true) ∧
    (a.erased = true ∧ a.run = true ∧ sweepsDone s = true) :=
  ⟨tAud { sysHold := true, run := true, erased := true, items := [w_i] }, 0, ⟨by decide +kernel, by decide +kernel⟩, ⟨by decide +kernel, by decide +kernel⟩, ⟨by decide +kernel, by decide +kernel, by decide +kernel⟩⟩

theorem witness_AuditStream_0_2 : ∃ (s : State) (die : Fin 2),
    let d := die.val
    let a := s.aud d
    a.run = true ∧ a.interval ≠ 0 ∧ a.sysHold = false ∧ a.erased = false ∧ audDomains s d = true :=
  ⟨tAud { run := true, interval := 100, items := [w_i] }, 0, by decide +kernel, by decide +kernel, by decide +kernel, by decide +kernel, by decide +kernel⟩

theorem witness_EpochChange_0_1 : ∃ (s t : State) (r : Req) (role k : Nat),
    let r1 := reqWith r [1]
    Granted s r1 0x3000 6 t role [1] ∧ changePending t = false ∧ CanBegin t 0x3000 6 k :=
  ⟨tSrv 4 .service, tG (tReq 2 0x3000 6 [1]) (tSrv 4 .service), tReq 2 0x3000 6 [1], 4, 0, granted_of (i0 := 0x3000) (u0 := 6) (d := [1]) rfl (by decide +kernel) (by decide +kernel) (by decide +kernel) (by decide +kernel), by decide +kernel, ⟨by decide +kernel, by decide +kernel, by decide +kernel, by decide +kernel⟩⟩

theorem witness_EpochChange_1_1 : ∃ (s : State),
    (dropPrev s).unit.epoch.st = .queued ∧ prevWork (dropPrev s) = false :=
  ⟨tEp { st := .queued, shadow := some (tEpoch []) }, by decide +kernel, by decide +kernel⟩

theorem witness_EpochChange_1_2 : ∃ (s : State),
    let e := s.unit.epoch
    e.st = .loading :=
  ⟨tEp { st := .loading, shadow := some (tEpoch []) }, by decide +kernel⟩

theorem witness_EpochChange_1_3 : ∃ (s : State),
    let e := s.unit.epoch
    e.st = .acked :=
  ⟨tEp { st := .acked, shadow := some (tEpoch []), target := 4, tf := 5000 }, by decide +kernel⟩

theorem witness_EpochChange_2_1 : ∃ (s : State) (lane : Fin 64) (slot : Fin 32) (jn : Nat) (j : Job),
    s.unit.jobs.find? (fun e => decide (e.2.lane = lane.val ∧ e.2.slot = slot.val ∧ 5 ≤ e.2.stage) && ! e.2.slotFreed) = some (jn, j) ∧ (s.lane lane.val).posts.any (fun h => decide (h.job = some jn)) = false :=
  ⟨{ tAdm [] {} with unit := { jobs := [(1, tJobF)] } }, 3, 0, 1, tJobF, by decide +kernel, by decide +kernel⟩

end W33

namespace W33b

def w_i : AudItem := ⟨0, 0, 4000, 0, zeros 60⟩
def w_rest : List AudItem := []
def tAud (a : AudUnit) : State := { tAdm [] {} with unit := { auds := [(0, a)] } }

theorem witness_AuditStream_0_1 : ∃ (s : State) (die : Fin 2),
    let d := die.val
    let a := s.aud d
    (a.run = true ∧ a.interval ≠ 0 ∧ a.sysHold = false ∧ a.erased = false ∧ audDomains s d = true) ∧
    (let i := w_i
     let rest := w_rest
     a.items = i :: rest ∧ 48 ≤ (chunkF (a.items.length + 1) [] i.off false a.items).1.length) :=
  ⟨tAud { run := true, interval := 100, items := [w_i] }, 0, ⟨by decide +kernel, by decide +kernel, by decide +kernel, by decide +kernel, by decide +kernel⟩, ⟨by decide +kernel, by decide +kernel⟩⟩

end W33b

namespace W34

def w_un : Nat := 2
def w_node : Nat := 257
def w_more : List Nat := []
def w_m : Nat := 0
def w_n : EpochCfg := { tEpoch [] with banks := [(3, 0)], progs := [] }
def w_jn : Nat := 1
def w_j : Job := { tJob with stage := 0, bodyDue := 6000 }
def w_t : Nat := 4000
def w_ws : List Nat := []
def tLn (x : Lane) : State := { tSrv 4 .service with power := { mode := .service, lcs := .owned, doms := [(1, { st := .ready }), (2, { st := .ready }), (11, { st := .ready })] }, unit := { lanes := [(3, x)], jobs := [(1, w_j)], epoch := { st := .loading, shadow := some w_n } } }
def tUn (u : UnitState) : State := { tLn {} with unit := u, rst := { phase := .done }, dict := { force := [(0x880202, some [1])], work := [(0x880202, some [1])] }, power := { mode := .service, lcs := .owned, doms := [(9, { st := .ready }), (10, { st := .ready }), (11, { st := .ready }), (27, { st := .ready })] } }

theorem witness_LaneControls_0_1 : ∃ (s : State) (lane : Fin 64) (k : Fin 4) (b : Fin 2) (slot : Fin 32),
    let l := lane.val
    let x := s.lane l
    let q := 11 + laneQuad l
    (let tm := x.timer k.val
     tm.en = true) ∧
    (let n := w_n
     s.unit.epoch.shadow = some n ∧ x.cause = 0 ∧ x.bank b.val = 1 ∧ Tab.look 0 n.banks l = b.val ∧ bankFit (bankSet s n l) = 0 ∧ s.domReady q = true) ∧
    (x.cause = 0 ∧ (x.bank b.val = 1 ∨ x.bank b.val = 2)) ∧
    (let jn := w_jn
     let j := w_j
     s.unit.jobs.find? (fun e => decide (e.2.lane = l ∧ e.2.slot = slot.val ∧ e.2.stage ≤ 4) && ! e.2.bodyIn && ! e.2.slotFreed) = some (jn, j) ∧ s.domReady q = true) ∧
    (x.cause = 0) :=
  ⟨tLn { bankA := 1, tmr := [(1, { en := true, due := 7000 })] }, 3, 1, 0, 0, by decide +kernel, ⟨by decide +kernel, by decide +kernel, by decide +kernel, by decide +kernel, by decide +kernel, by decide +kernel⟩, ⟨by decide +kernel, by decide +kernel⟩, ⟨by decide +kernel, by decide +kernel⟩, by decide +kernel⟩

theorem witness_LaneControls_0_2 : ∃ (s : State) (lane : Fin 64) (b : Fin 2),
    (let l := lane.val
     let x := s.lane l
     x.cause = 0 ∧ loadPhase s = true ∧ x.bank b.val = 0) ∧
    (let node := w_node
     let more := w_more
     s.key.removals = node :: more) :=
  ⟨{ tLn {} with key := { removals := [257] } }, 3, 0, ⟨by decide +kernel, by decide +kernel, by decide +kernel⟩, by decide +kernel⟩

theorem witness_LaneControls_0_3 : ∃ (s t : State) (r : Req) (role : Nat) (lane : Fin 64),
    let l := lane.val
    let req (n : Nat) : Req := reqWith r [BitVec.ofNat 8 n]
    Granted s (req 2) (0x4000 + l) 0x0A t role [2] ∧ (t.lane l).cause = 4 :=
  ⟨{ tSrv 4 .service with unit := { lanes := [(3, { cause := 4 })] } }, tG (tReq 2 0x4003 10 [2]) ({ tSrv 4 .service with unit := { lanes := [(3, { cause := 4 })] } }), tReq 2 0x4003 10 [2], 4, 3, granted_of (i0 := 0x4003) (u0 := 10) (d := [2]) rfl (by decide +kernel) (by decide +kernel) (by decide +kernel) (by decide +kernel), by decide +kernel⟩

theorem witness_LaneControls_0_4 : ∃ (s t : State) (r : Req) (role : Nat) (lane : Fin 64),
    let l := lane.val
    let req (n : Nat) : Req := reqWith r [BitVec.ofNat 8 n]
    Granted s (req 1) (0x4000 + l) 0x0A t role [1] :=
  ⟨tSrv 4 .service, tG (tReq 2 0x4003 10 [1]) (tSrv 4 .service), tReq 2 0x4003 10 [1], 4, 3, granted_of (i0 := 0x4003) (u0 := 10) (d := [1]) rfl (by decide +kernel) (by decide +kernel) (by decide +kernel) (by decide +kernel)⟩

theorem witness_UnitFences_0_1 : ∃ (s : State) (lane : Fin 64) (k : Fin 4) (c : Fin 7),
    let v := s.spare k.val
    (c.val ≠ 0 ∧ c.val ≠ 5 ∧ c.val ≠ 6) ∧
    (let l := lane.val
     (s.lane l).cause = 0) ∧
    (c.val ≠ 0 ∧ c.val ≠ 5) ∧
    (v.st = 2 ∧ v.step = 4 ∧ s.dt ≤ v.since + substBound 4) ∧
    (v.st ≠ 4) ∧
    (v.st = 2) :=
  ⟨tUn { spares := [(0, { st := 2, step := 4, since := 4000 })] }, 3, 0, 1, ⟨by decide +kernel, by decide +kernel, by decide +kernel⟩, by decide +kernel, ⟨by decide +kernel, by decide +kernel⟩, ⟨by decide +kernel, by decide +kernel, by decide +kernel⟩, by decide +kernel, by decide +kernel⟩

theorem witness_UnitFences_0_2 : ∃ (s : State) (e : Fin 24) (k : Fin 4) (c : Fin 7),
    (c.val = 5) ∧
    ((s.eng e.val).cause ≠ 0) ∧
    (let v := s.spare k.val
     v.st = 2 ∧ v.step = 4 ∧ v.since + substBound 4 < s.dt) :=
  ⟨{ tUn { spares := [(0, { st := 2, step := 4, since := 0 })] } with dt := 90000000, pk := { engs := [(5, { cause := 1 })] } }, 5, 0, 5, by decide +kernel, by decide +kernel, ⟨by decide +kernel, by decide +kernel, by decide +kernel⟩⟩

theorem witness_UnitFences_0_3 : ∃ (s : State) (lane : Fin 64) (q : Fin 16) (w : Nat) (ws : List Nat) (c : Fin 7),
    (let l := lane.val
     c.val = 6 ∧ (s.spare (laneTile l)).st = 3 ∧ (s.spare (laneTile l)).lane = l) ∧
    ((quadJobs s q.val).filterMap (fun j => j.wakeBy) = w :: ws ∧ s.domReady (11 + q.val) = false) :=
  ⟨{ tUn { spares := [(0, { st := 3, lane := 3 })], jobs := [(1, { tJob with stage := 0, wakeBy := some 9000 })] } with power := { mode := .service } }, 3, 0, 9000, [], 6, ⟨by decide +kernel, by decide +kernel, by decide +kernel⟩, ⟨by decide +kernel, by decide +kernel⟩⟩

theorem witness_UnitFences_0_4 : ∃ (s : State) (lane : Fin 64),
    let l := lane.val
    (s.lane l).cause ≠ 0 :=
  ⟨tUn { spares := [(0, { st := 2, step := 4, since := 0 })], lanes := [(3, { cause := 1 })] }, 3, by decide +kernel⟩

theorem witness_SelfTests_0_1 : ∃ (s : State) (lane : Fin 64) (e : Fin 24) (k : Fin 4) (q : Fin 16) (u : Fin 5),
    (let m := w_m
     testsOn s = true ∧ nextUnit s = some m) ∧
    (testsOn s = true ∧ claimable s (.lane lane) = true) ∧
    (testsOn s = true ∧ claimable s (.cluster q u) = true) ∧
    (testsOn s = true ∧ claimable s (.spare k) = true) ∧
    (let n := s.eng e.val
     let t := w_t
     n.slice = some t) :=
  ⟨{ tUn { } with pk := { engs := [(5, { claim := 1, slice := some 4000 })] } }, 3, 5, 0, 0, 2, ⟨by decide +kernel, by decide +kernel⟩, ⟨by decide +kernel, by decide +kernel⟩, ⟨by decide +kernel, by decide +kernel⟩, ⟨by decide +kernel, by decide +kernel⟩, by decide +kernel⟩

theorem witness_SelfTests_0_2 : ∃ (s : State) (lane : Fin 64) (e : Fin 24) (q : Fin 16) (u : Fin 5),
    (testsOn s = true ∧ claimable s (.engine e) = true) ∧
    (let l := lane.val
     let x := s.lane l
     x.claimed = true ∧ x.slice = none ∧ x.queue = []) ∧
    (let g := s.quad q.val
     g.claim = some u.val ∧ g.slice = none ∧ quadQueuesEmpty s q.val = true) :=
  ⟨tUn { quads := [(0, { claim := some 2 })], lanes := [(3, { claimed := true })] }, 3, 5, 0, 2, ⟨by decide +kernel, by decide +kernel⟩, ⟨by decide +kernel, by decide +kernel, by decide +kernel⟩, ⟨by decide +kernel, by decide +kernel, by decide +kernel⟩⟩

theorem witness_SelfTests_0_3 : ∃ (s : State) (lane : Fin 64) (q : Fin 16),
    (let l := lane.val
     let x := s.lane l
     let t := w_t
     x.slice = some t) ∧
    (let g := s.quad q.val
     let un := w_un
     g.claim = some un ∧ g.slice = none ∧ quadQueuesEmpty s q.val = false) :=
  ⟨tUn { quads := [(0, { claim := some 2 })], lanes := [(3, { queue := [⟨1, false, 1, 1, 1, 0, 0⟩], slice := some 4000 })] }, 3, 0, by decide +kernel, ⟨by decide +kernel, by decide +kernel, by decide +kernel⟩⟩

theorem witness_SelfTests_0_4 : ∃ (s : State) (q : Fin 16) (u : Fin 5),
    let g := s.quad q.val
    let t := w_t
    g.slice = some t ∧ g.claim = some u.val :=
  ⟨tUn { quads := [(0, { claim := some 2, slice := some 4000 })] }, 0, 2, by decide +kernel, by decide +kernel⟩

theorem witness_SelfTests_0_5 : ∃ (s : State) (k : Fin 4),
    let v := s.spare k.val
    v.st = 1 ∧ v.next = none :=
  ⟨tUn { spares := [(0, { st := 1, since := 4000 })] }, 0, by decide +kernel, by decide +kernel⟩

theorem witness_SelfTests_0_6 : ∃ (s : State) (k : Fin 4),
    let v := s.spare k.val
    v.st = 2 ∧ v.step = 3 :=
  ⟨tUn { spares := [(0, { st := 2, step := 3, since := 4000 })] }, 0, by decide +kernel, by decide +kernel⟩

theorem witness_SelfTests_0_7 : ∃ (s : State) (e : Fin 24),
    let n := s.eng e.val
    n.claim = 1 ∧ n.slice = none ∧ n.jobs = [] ∧ auditGap s e.val = true :=
  ⟨{ tUn {} with pk := { engs := [(5, { claim := 1 })] } }, 5, by decide +kernel, by decide +kernel, by decide +kernel, by decide +kernel⟩

end W34

namespace W35

def tTmpl : Bytes := [0x30, 0, 1, 0, 0, 1, 1, 0] ++ zeros 16
def tAw : Tab Node := [(0x300, { kind := 3, state := 1, ktype := 1, use_ := 1, engine := 1 })]
def tK2 (n : Nat) (b : Bytes) (nodes : Tab Node) (r : Repl) : State := { tKey b nodes with key := { (tKey b nodes).key with repl := [(n, r)] } }
def w_v : Delivery := ⟨6000, 6100, 3, 0x300, [], 0, 0, some 0, 1, 0⟩
def w_m : BusMsg := ⟨6100, 0, some 0, 1, 0, 0x300, [], 0, zeros 16, 1, 0, 0, 0, false⟩
def w_sc : Scan := { node := 0x300, front := [0x300], marked := [0x300], start := 100 }
def w_more : List Scan := []
def w_old : OldRun := ⟨5, 0x300, 100, none, [0x300]⟩
def tA (n : Nat) (st : Nat) : Tab Node := [(0x300, { kind := 3, state := st, ktype := 3, attr := 9, use_ := 4, engine := 16, slot := 5, units := 2, newslot := n })]
def tCer (mode : Mode) (work : Tab (Option Bytes)) : State := { tSrv 4 mode with dict := { sess := some (tSess 4), work := work } }
def w_key : Bytes := (genKey 3 0 (tKey [] []) |>.getD ([], tKey [] [])).1
def w_u0 : State := begun (tG (tReq 2 0x5010 2 [1]) (tKey (tBlk 8 0x300 [] 0 1 []) (tA 0 2))) 0x5010 2 4 (.keyCmd (tBlk 8 0x300 [] 0 1 [])) 0
def w_w : State := (genKey 3 0 { w_u0 with key := { w_u0.key with op := 8 } } |>.getD ([], tKey [] [])).2

theorem witness_KeyCommands_0_1 : ∃ (t : State) (role k : Nat),
    let b := stagedBlock t
    let id := kbNode b
    let v := begun t 0x5010 2 role (.keyCmd b) k
    let op := (byteAt b 0).toNat
    let u := { v with key := { v.key with op := op } }
    let tells (c : KC) : Prop :=
      c.code = 0
    let opens (node : Nat) : Prop :=
      inGroup u node = false
    (let works (c : KC) (node : Nat) : Prop :=
       c.code = 0 ∧ inGroup u node = false
     works (kcDelete b u) id) ∧
    (opens (beNat (slice (kbData b) 16 3))) ∧
    (tells (kcSave b u)) ∧
    (opens id) ∧
    (tells (kcExport b u)) ∧
    (tells (kcAttest b u)) ∧
    (tells (kcRead b u)) ∧
    ((kcDelete b u).code = 0) :=
  ⟨tG (tReq 2 0x5010 2 [1]) (tKey (tBlk 7 0x300 [] 0x301 0 []) tNodes), 4, 0, ⟨by decide +kernel, by decide +kernel⟩, by decide +kernel, by decide +kernel, by decide +kernel, by decide +kernel, by decide +kernel, by decide +kernel, by decide +kernel⟩

theorem witness_KeyCommands_0_2 : ∃ (t : State) (role k : Nat),
    let b := stagedBlock t
    let v := begun t 0x5010 2 role (.keyCmd b) k
    let op := (byteAt b 0).toNat
    let u := { v with key := { v.key with op := op } }
    (let id := kbNode b
     let works (c : KC) (node : Nat) : Prop :=
       c.code = 0 ∧ inGroup u node = false
     works (kcCreate b u) id) ∧
    ((kcCreate b u).code = 0) :=
  ⟨tG (tReq 2 0x5010 2 [1]) (tKey (tBlk 1 0x300 tTmpl 0 0 []) []), 4, 0, ⟨by decide +kernel, by decide +kernel⟩, by decide +kernel⟩

theorem witness_KeyCommands_0_3 : ∃ (s t : State) (r : Req) (role k : Nat),
    let b := stagedBlock t
    let v := begun t 0x5010 2 role (.keyCmd b) k
    let op := (byteAt b 0).toNat
    let u := { v with key := { v.key with op := op } }
    (let id := kbNode b
     let works (c : KC) (node : Nat) : Prop :=
       c.code = 0 ∧ inGroup u node = false
     u.rst.trngFailed = false ∧ (u.node id).ktype ≠ 0x18 ∧ works (kcGenerate b u) id) ∧
    (let r1 := reqWith r [1]
     let cmd (n : Nat) : Prop :=
       (byteAt (stagedBlock s) 0).toNat = n ∧ stagedBlock s ≠ [] ∧ b = stagedBlock s ∧ Granted s r1 0x5010 2 t role [1] ∧ CanBegin t 0x5010 2 k ∧ keyMode t role = true ∧ hasRight t role (if readsOnly n then 2 else 8) = true ∧ kbOk b = true ∧ (n = 0x0C ∨ (u.key.rootSt ≠ 5 ∧ u.key.root ≠ []))
     (kcCreate b u).code ≠ 0 ∧ cmd 0x01) :=
  ⟨tKey (tBlk 1 0x300 tTmpl 0 0 []) tAw, tG (tReq 2 0x5010 2 [1]) (tKey (tBlk 1 0x300 tTmpl 0 0 []) tAw), tReq 2 0x5010 2 [1], 4, 0, ⟨by decide +kernel, by decide +kernel, ⟨by decide +kernel, by decide +kernel⟩⟩, ⟨by decide +kernel, ⟨by decide +kernel, by decide +kernel, by decide +kernel, granted_of (i0 := 0x5010) (u0 := 2) (d := [1]) rfl (by decide +kernel) (by decide +kernel) (by decide +kernel) (by decide +kernel), ⟨by decide +kernel, by decide +kernel, by decide +kernel, by decide +kernel⟩, by decide +kernel, by decide +kernel, by decide +kernel, by decide +kernel⟩⟩⟩

theorem witness_KeyCommands_0_4 : ∃ (s t : State) (r : Req) (role k : Nat),
    let r1 := reqWith r [1]
    let b := stagedBlock t
    let v := begun t 0x5010 2 role (.keyCmd b) k
    let op := (byteAt b 0).toNat
    let u := { v with key := { v.key with op := op } }
    let cmd (n : Nat) : Prop :=
      (byteAt (stagedBlock s) 0).toNat = n ∧ stagedBlock s ≠ [] ∧ b = stagedBlock s ∧ Granted s r1 0x5010 2 t role [1] ∧ CanBegin t 0x5010 2 k ∧ keyMode t role = true ∧ hasRight t role (if readsOnly n then 2 else 8) = true ∧ kbOk b = true ∧ (n = 0x0C ∨ (u.key.rootSt ≠ 5 ∧ u.key.root ≠ []))
    (kcDelete b u).code ≠ 0 ∧ cmd 0x02 :=
  ⟨tKey (tBlk 2 0x300 [] 0 0 []) [], tG (tReq 2 0x5010 2 [1]) (tKey (tBlk 2 0x300 [] 0 0 []) []), tReq 2 0x5010 2 [1], 4, 0, by decide +kernel, ⟨by decide +kernel, by decide +kernel, by decide +kernel, granted_of (i0 := 0x5010) (u0 := 2) (d := [1]) rfl (by decide +kernel) (by decide +kernel) (by decide +kernel) (by decide +kernel), ⟨by decide +kernel, by decide +kernel, by decide +kernel, by decide +kernel⟩, by decide +kernel, by decide +kernel, by decide +kernel, by decide +kernel⟩⟩

theorem witness_KeyCommands_0_5 : ∃ (t : State) (role k : Nat),
    let b := stagedBlock t
    let id := kbNode b
    let v := begun t 0x5010 2 role (.keyCmd b) k
    let op := (byteAt b 0).toNat
    let u := { v with key := { v.key with op := op } }
    let works (c : KC) (node : Nat) : Prop :=
      c.code = 0 ∧ inGroup u node = false
    works (kcLoadpub b u) id :=
  ⟨tG (tReq 2 0x5010 2 [1]) (tKey (tBlk 13 0x300 [] 0 0 (9 :: zeros 31)) []), 4, 0, ⟨by decide +kernel, by decide +kernel⟩⟩

theorem witness_KeyReplacement_0_1 : ∃ (s t : State) (r : Req) (role k : Nat),
    let b := stagedBlock t
    let id := kbNode b
    let v := begun t 0x5010 2 role (.keyCmd b) k
    let u := { v with key := { v.key with op := (byteAt b 0).toNat } }
    (let r1 := reqWith r [1]
     let cmd (c : Nat) : Prop :=
       (byteAt (stagedBlock s) 0).toNat = c ∧ stagedBlock s ≠ [] ∧ b = stagedBlock s ∧ Granted s r1 0x5010 2 t role [1] ∧ CanBegin t 0x5010 2 k ∧ keyMode t role = true ∧ hasRight t role 8 = true ∧ kbOk b = true ∧ u.key.rootSt ≠ 5 ∧ u.key.root ≠ []
     stageErr u id = 0 ∧ (byteAt b 35).toNat = 4 ∧ cmd 0x08) ∧
    (let n := u.node id
     n.kind = 3) :=
  ⟨tKey (tBlk 8 0x300 [] 0 4 []) (tA 0 2), tG (tReq 2 0x5010 2 [1]) (tKey (tBlk 8 0x300 [] 0 4 []) (tA 0 2)), tReq 2 0x5010 2 [1], 4, 0, ⟨by decide +kernel, by decide +kernel, ⟨by decide +kernel, by decide +kernel, by decide +kernel, granted_of (i0 := 0x5010) (u0 := 2) (d := [1]) rfl (by decide +kernel) (by decide +kernel) (by decide +kernel) (by decide +kernel), ⟨by decide +kernel, by decide +kernel, by decide +kernel, by decide +kernel⟩, by decide +kernel, by decide +kernel, by decide +kernel, by decide +kernel, by decide +kernel⟩⟩, by decide +kernel⟩

theorem witness_KeyReplacement_0_2 : ∃ (s t : State) (r : Req) (role k : Nat),
    let r1 := reqWith r [1]
    let b := stagedBlock t
    let id := kbNode b
    let v := begun t 0x5010 2 role (.keyCmd b) k
    let u := { v with key := { v.key with op := (byteAt b 0).toNat } }
    let n := u.node id
    let cmd (c : Nat) : Prop :=
      (byteAt (stagedBlock s) 0).toNat = c ∧ stagedBlock s ≠ [] ∧ b = stagedBlock s ∧ Granted s r1 0x5010 2 t role [1] ∧ CanBegin t 0x5010 2 k ∧ keyMode t role = true ∧ hasRight t role 8 = true ∧ kbOk b = true ∧ u.key.rootSt ≠ 5 ∧ u.key.root ≠ []
    let key := w_key
    let w := w_w
    stageErr u id = 0 ∧ (byteAt b 35).toNat = 1 ∧ u.rst.trngFailed = false ∧ n.ktype ≠ 0x18 ∧ genKey n.ktype n.param u = some (key, w) ∧ (stageKey id key 0 (bit (byteAt b 1).toNat 0) (some k) (slice b 36 16) w).1 = 0 ∧ cmd 0x08 :=
  ⟨tKey (tBlk 8 0x300 [] 0 1 []) (tA 0 2), tG (tReq 2 0x5010 2 [1]) (tKey (tBlk 8 0x300 [] 0 1 []) (tA 0 2)), tReq 2 0x5010 2 [1], 4, 0, by decide +kernel, by decide +kernel, by decide +kernel, by decide +kernel, rfl, by decide +kernel, ⟨by decide +kernel, by decide +kernel, by decide +kernel, granted_of (i0 := 0x5010) (u0 := 2) (d := [1]) rfl (by decide +kernel) (by decide +kernel) (by decide +kernel) (by decide +kernel), ⟨by decide +kernel, by decide +kernel, by decide +kernel, by decide +kernel⟩, by decide +kernel, by decide +kernel, by decide +kernel, by decide +kernel, by decide +kernel⟩⟩

theorem witness_KeyReplacement_0_3 : ∃ (s t : State) (r : Req) (role k : Nat),
    let r1 := reqWith r [1]
    let b := stagedBlock t
    let id := kbNode b
    let v := begun t 0x5010 2 role (.keyCmd b) k
    let u := { v with key := { v.key with op := (byteAt b 0).toNat } }
    let n := u.node id
    let cmd (c : Nat) : Prop :=
      (byteAt (stagedBlock s) 0).toNat = c ∧ stagedBlock s ≠ [] ∧ b = stagedBlock s ∧ Granted s r1 0x5010 2 t role [1] ∧ CanBegin t 0x5010 2 k ∧ keyMode t role = true ∧ hasRight t role 8 = true ∧ kbOk b = true ∧ u.key.rootSt ≠ 5 ∧ u.key.root ≠ []
    n.kind ≠ 0 ∧ n.state = 5 ∧ replChange u id = none ∧ cmd 0x09 :=
  ⟨tK2 0x300 (tBlk 9 0x300 [] 0 0 []) (tA 6 5) { has := true, head := 6 }, tG (tReq 2 0x5010 2 [1]) (tK2 0x300 (tBlk 9 0x300 [] 0 0 []) (tA 6 5) { has := true, head := 6 }), tReq 2 0x5010 2 [1], 4, 0, by decide +kernel, by decide +kernel, by decide +kernel, ⟨by decide +kernel, by decide +kernel, by decide +kernel, granted_of (i0 := 0x5010) (u0 := 2) (d := [1]) rfl (by decide +kernel) (by decide +kernel) (by decide +kernel) (by decide +kernel), ⟨by decide +kernel, by decide +kernel, by decide +kernel, by decide +kernel⟩, by decide +kernel, by decide +kernel, by decide +kernel, by decide +kernel, by decide +kernel⟩⟩

theorem witness_KeyReplacement_0_4 : ∃ (s t : State) (r : Req) (role k : Nat),
    let r1 := reqWith r [1]
    let b := stagedBlock t
    let id := kbNode b
    let v := begun t 0x5010 2 role (.keyCmd b) k
    let u := { v with key := { v.key with op := (byteAt b 0).toNat } }
    let n := u.node id
    let cmd (c : Nat) : Prop :=
      (byteAt (stagedBlock s) 0).toNat = c ∧ stagedBlock s ≠ [] ∧ b = stagedBlock s ∧ Granted s r1 0x5010 2 t role [1] ∧ CanBegin t 0x5010 2 k ∧ keyMode t role = true ∧ hasRight t role 8 = true ∧ kbOk b = true ∧ u.key.rootSt ≠ 5 ∧ u.key.root ≠ []
    n.kind ≠ 0 ∧ (n.state = 3 ∨ n.state = 4 ∨ n.state = 5) ∧ cmd 0x0A :=
  ⟨tK2 0x300 (tBlk 10 0x300 [] 0 0 []) (tA 6 5) { has := true, head := 6 }, tG (tReq 2 0x5010 2 [1]) (tK2 0x300 (tBlk 10 0x300 [] 0 0 []) (tA 6 5) { has := true, head := 6 }), tReq 2 0x5010 2 [1], 4, 0, by decide +kernel, by decide +kernel, ⟨by decide +kernel, by decide +kernel, by decide +kernel, granted_of (i0 := 0x5010) (u0 := 2) (d := [1]) rfl (by decide +kernel) (by decide +kernel) (by decide +kernel) (by decide +kernel), ⟨by decide +kernel, by decide +kernel, by decide +kernel, by decide +kernel⟩, by decide +kernel, by decide +kernel, by decide +kernel, by decide +kernel, by decide +kernel⟩⟩

theorem witness_KeyReplacement_1_1 : ∃ (s : State) (pipe : Fin 8) (die : Fin 2),
    (let v := w_v
     nextDeliv s pipe.val = some v) ∧
    (let m := w_m
     nextBus s die.val = some m) ∧
    (let sc := w_sc
     let more := w_more
     s.key.scans = sc :: more) ∧
    (let old := w_old
     s.key.olds.find? (removalsDone s) = some old) :=
  ⟨{ tKey [] (tA 5 3) with key := { (tKey [] (tA 5 3)).key with delivs := [w_v], bus := [w_m], scans := [w_sc], olds := [w_old] } }, 3, 0, by decide +kernel, by decide +kernel, by decide +kernel, by decide +kernel⟩

theorem witness_KeyReplacement_1_2 : ∃ (s : State) (node : BitVec 18),
    keyInPlace s node.toNat = true :=
  ⟨tK2 0x300 [] (tA 5 3) { has := true, head := 5 }, 0x300, by decide +kernel⟩

theorem witness_ImagesAndTables_0_1 : ∃ (s t : State) (r : Req) (role k : Nat) (i : Fin 64),
    let idx := 0x4101 + i.val
    Granted s (reqWith r [1]) idx 2 t role [1] ∧ CanBegin t idx 2 k :=
  ⟨tCer .service [(0x410701, some (zeros 10))], tG (tReq 2 0x4107 2 [1]) (tCer .service [(0x410701, some (zeros 10))]), tReq 2 0x4107 2 [1], 4, 0, 6, granted_of (i0 := 0x4107) (u0 := 2) (d := [1]) rfl (by decide +kernel) (by decide +kernel) (by decide +kernel) (by decide +kernel), ⟨by decide +kernel, by decide +kernel, by decide +kernel, by decide +kernel⟩⟩

theorem witness_ImagesAndTables_0_2 : ∃ (s t : State) (r : Req) (role : Nat) (i : Fin 64),
    let n := i.val + 1
    let idx := 0x4101 + i.val
    Granted s (reqWith r [2]) idx 2 t role [2] ∧ imageNamed t n = false :=
  ⟨tCer .service [(0x410701, some (zeros 10))], tG (tReq 2 0x4107 2 [2]) (tCer .service [(0x410701, some (zeros 10))]), tReq 2 0x4107 2 [2], 4, 6, granted_of (i0 := 0x4107) (u0 := 2) (d := [2]) rfl (by decide +kernel) (by decide +kernel) (by decide +kernel) (by decide +kernel), by decide +kernel⟩

theorem witness_ImagesAndTables_0_3 : ∃ (s t : State) (r : Req) (role : Nat) (d : Fin 16) (v : Bytes),
    Granted s r 0x5400 (d.val + 1) t role v ∧ inCeremony t role = true ∧ decTableOk t v = true :=
  ⟨tCer .ceremony [], tG (tReq 2 0x5400 2 [0x30, 0x31, 0x32, 0x33, 0x34, 0x35, 0x36, 0x37, 0x38, 0x39, 0x30, 0x30, 0x30, 0x30, 0x30, 0x30]) (tCer .ceremony []), tReq 2 0x5400 2 [0x30, 0x31, 0x32, 0x33, 0x34, 0x35, 0x36, 0x37, 0x38, 0x39, 0x30, 0x30, 0x30, 0x30, 0x30, 0x30], 4, 1, [0x30, 0x31, 0x32, 0x33, 0x34, 0x35, 0x36, 0x37, 0x38, 0x39, 0x30, 0x30, 0x30, 0x30, 0x30, 0x30], granted_of (i0 := 0x5400) (u0 := 2) (d := [0x30, 0x31, 0x32, 0x33, 0x34, 0x35, 0x36, 0x37, 0x38, 0x39, 0x30, 0x30, 0x30, 0x30, 0x30, 0x30]) rfl (by decide +kernel) (by decide +kernel) (by decide +kernel) (by decide +kernel), by decide +kernel, by decide +kernel⟩

end W35

namespace W36

def tPj (n c : Nat) (key oper : Bytes) : PkJob := { kind := 0, pkop := 256 * n + c, rem := 1000, seq := 4, key := some { key := key }, oper := oper, ref := 1 }
def tPk (j : PkJob) : State := { tSrv 4 .service with pk := { engs := [(5, { jobs := [j], run := some 4, runAt := 4000, yieldAt := 4000, reqs := 2000000 })] }, power := { mode := .service, lcs := .owned, doms := [(9, { st := .ready })] } }
def w_cv : Curve := p256
def w_g : PkJob := { kind := 3, pkop := 0x3000, rem := 1000, seq := 4 }
def tBg (b : PkBg) (j : List PkJob) (r : Option Nat) : State := { tSrv 4 .service with pk := { engs := [(5, { jobs := j, run := r })], bgs := [(0, b)] } }
def w_st : Nat := 0
def w_x : Nat × Nat := (4500, 4)
def tPub : Bytes := 0x80 :: zeros 254 ++ [7, 0, 1, 0, 1]

theorem witness_PkOperations_0_1 : ∃ (s : State) (eng : Fin 24) (j : PkJob),
    let e := eng.val
    let key := match j.key with | some k => k.key | none => []
    let oper := audOperand j
    let pb := key.length - 4
    let running : Prop := pkRunning s e = some j ∧ j.withdrawn = false ∧ j.status = none
    let gives (n : Nat) (h : Prop) : Prop :=
      running ∧ j.kind ≠ 1 ∧ j.pkop / 256 = n ∧ h
    gives 0x04 (oper.length = pb ∧ beNat oper < rsaN key pb) :=
  ⟨tPk (tPj 4 0 tPub (zeros 256)), 5, tPj 4 0 tPub (zeros 256), ⟨by decide +kernel, by decide +kernel, by decide +kernel, by decide +kernel⟩⟩

theorem witness_PkOperations_0_2 : ∃ (s : State) (eng : Fin 24) (j : PkJob),
    let e := eng.val
    let key := match j.key with | some k => k.key | none => []
    let oper := audOperand j
    let pb := key.length - 4
    let running : Prop := pkRunning s e = some j ∧ j.withdrawn = false ∧ j.status = none
    let gives (n : Nat) (h : Prop) : Prop :=
      running ∧ j.kind ≠ 1 ∧ j.pkop / 256 = n ∧ h
    gives 0x04 (oper.length ≠ pb ∨ rsaN key pb ≤ beNat oper) :=
  ⟨tPk (tPj 4 0 tPub (zeros 25)), 5, tPj 4 0 tPub (zeros 25), ⟨by decide +kernel, by decide +kernel, by decide +kernel, by decide +kernel⟩⟩

theorem witness_PkOperations_0_3 : ∃ (s : State) (eng : Fin 24) (j : PkJob),
    let e := eng.val
    let key := match j.key with | some k => k.key | none => []
    let oper := audOperand j
    let kb := rsaBytes key
    let running : Prop := pkRunning s e = some j ∧ j.withdrawn = false ∧ j.status = none
    let gives (n : Nat) (h : Prop) : Prop :=
      running ∧ j.kind ≠ 1 ∧ j.pkop / 256 = n ∧ h
    gives 0x01 (oper.length ≠ kb ∨ rsaN key kb ≤ beNat oper) :=
  ⟨tPk (tPj 1 0 [] (zeros 25)), 5, tPj 1 0 [] (zeros 25), ⟨by decide +kernel, by decide +kernel, by decide +kernel, by decide +kernel⟩⟩

theorem witness_PkOperations_0_4 : ∃ (s : State) (eng : Fin 24) (j : PkJob),
    let e := eng.val
    let key := match j.key with | some k => k.key | none => []
    let oper := audOperand j
    let kb := rsaBytes key
    let running : Prop := pkRunning s e = some j ∧ j.withdrawn = false ∧ j.status = none
    let gives (n : Nat) (h : Prop) : Prop :=
      running ∧ j.kind ≠ 1 ∧ j.pkop / 256 = n ∧ h
    gives 0x01 (oper.length = kb ∧ beNat oper < rsaN key kb) :=
  ⟨tPk (tPj 1 0 (zeros 2 ++ 1 :: zeros 2000) (zeros (rsaBytes (zeros 2 ++ 1 :: zeros 2000)))), 5, tPj 1 0 (zeros 2 ++ 1 :: zeros 2000) (zeros (rsaBytes (zeros 2 ++ 1 :: zeros 2000))), ⟨by decide +kernel, by decide +kernel, by decide +kernel, by decide +kernel⟩⟩

theorem witness_PkOperations_0_5 : ∃ (s : State) (eng : Fin 24) (j : PkJob),
    let e := eng.val
    let running : Prop := pkRunning s e = some j ∧ j.withdrawn = false ∧ j.status = none
    let gives (n : Nat) (h : Prop) : Prop :=
      running ∧ j.kind ≠ 1 ∧ j.pkop / 256 = n ∧ h
    gives 0x02 True :=
  ⟨tPk (tPj 2 0 [] (zeros 25)), 5, tPj 2 0 [] (zeros 25), ⟨by decide +kernel, by decide +kernel, by decide +kernel, by decide +kernel⟩⟩

theorem witness_PkOperations_0_6 : ∃ (s : State) (eng : Fin 24) (j : PkJob),
    let e := eng.val
    let running : Prop := pkRunning s e = some j ∧ j.withdrawn = false ∧ j.status = none
    let gives (n : Nat) (h : Prop) : Prop :=
      running ∧ j.kind ≠ 1 ∧ j.pkop / 256 = n ∧ h
    gives 0x03 True :=
  ⟨tPk (tPj 3 0 [] (zeros 25)), 5, tPj 3 0 [] (zeros 25), ⟨by decide +kernel, by decide +kernel, by decide +kernel, by decide +kernel⟩⟩

theorem witness_PkOperations_0_7 : ∃ (s : State) (eng : Fin 24) (j : PkJob),
    let e := eng.val
    let running : Prop := pkRunning s e = some j ∧ j.withdrawn = false ∧ j.status = none
    let gives (n : Nat) (h : Prop) : Prop :=
      running ∧ j.kind ≠ 1 ∧ j.pkop / 256 = n ∧ h
    gives 0x05 True :=
  ⟨tPk (tPj 5 0 [] (zeros 25)), 5, tPj 5 0 [] (zeros 25), ⟨by decide +kernel, by decide +kernel, by decide +kernel, by decide +kernel⟩⟩

theorem witness_PkOperations_0_8 : ∃ (s : State) (eng : Fin 24) (j : PkJob),
    let e := eng.val
    let running : Prop := pkRunning s e = some j ∧ j.withdrawn = false ∧ j.status = none
    let gives (n : Nat) (h : Prop) : Prop :=
      running ∧ j.kind ≠ 1 ∧ j.pkop / 256 = n ∧ h
    gives 0x06 True :=
  ⟨tPk (tPj 6 0 [] (zeros 25)), 5, tPj 6 0 [] (zeros 25), ⟨by decide +kernel, by decide +kernel, by decide +kernel, by decide +kernel⟩⟩

theorem witness_PkOperations_0_9 : ∃ (s : State) (eng : Fin 24) (j : PkJob),
    let e := eng.val
    let c := j.pkop % 256
    let running : Prop := pkRunning s e = some j ∧ j.withdrawn = false ∧ j.status = none
    let gives (n : Nat) (h : Prop) : Prop :=
      running ∧ j.kind ≠ 1 ∧ j.pkop / 256 = n ∧ h
    gives 0x10 (jobCurve s c j.epoch = none) :=
  ⟨tPk (tPj 16 17 [1] (zeros 32)), 5, tPj 16 17 [1] (zeros 32), ⟨by decide +kernel, by decide +kernel, by decide +kernel, by decide +kernel⟩⟩

theorem witness_PkOperations_0_10 : ∃ (s : State) (eng : Fin 24) (j : PkJob),
    let e := eng.val
    let c := j.pkop % 256
    let running : Prop := pkRunning s e = some j ∧ j.withdrawn = false ∧ j.status = none
    let gives (n : Nat) (h : Prop) : Prop :=
      running ∧ j.kind ≠ 1 ∧ j.pkop / 256 = n ∧ h
    gives 0x11 (jobCurve s c j.epoch = none) :=
  ⟨tPk (tPj 17 17 [1] (zeros 32)), 5, tPj 17 17 [1] (zeros 32), ⟨by decide +kernel, by decide +kernel, by decide +kernel, by decide +kernel⟩⟩

theorem witness_PkOperations_0_11 : ∃ (s : State) (eng : Fin 24) (j : PkJob),
    let e := eng.val
    let c := j.pkop % 256
    let running : Prop := pkRunning s e = some j ∧ j.withdrawn = false ∧ j.status = none
    let gives (n : Nat) (h : Prop) : Prop :=
      running ∧ j.kind ≠ 1 ∧ j.pkop / 256 = n ∧ h
    let cv := w_cv
    gives 0x11 (jobCurve s c j.epoch = some cv) :=
  ⟨tPk (tPj 17 1 [1] (zeros 32)), 5, tPj 17 1 [1] (zeros 32), ⟨by decide +kernel, by decide +kernel, by decide +kernel, by decide +kernel⟩⟩

theorem witness_PkOperations_0_12 : ∃ (s : State) (eng : Fin 24) (j : PkJob),
    let e := eng.val
    let running : Prop := pkRunning s e = some j ∧ j.withdrawn = false ∧ j.status = none
    let gives (n : Nat) (h : Prop) : Prop :=
      running ∧ j.kind ≠ 1 ∧ j.pkop / 256 = n ∧ h
    gives 0x12 True :=
  ⟨tPk (tPj 18 1 [1] (zeros 32)), 5, tPj 18 1 [1] (zeros 32), ⟨by decide +kernel, by decide +kernel, by decide +kernel, by decide +kernel⟩⟩

theorem witness_PkOperations_0_13 : ∃ (s : State) (eng : Fin 24) (j : PkJob),
    let e := eng.val
    let oper := audOperand j
    let running : Prop := pkRunning s e = some j ∧ j.withdrawn = false ∧ j.status = none
    let gives (n : Nat) (h : Prop) : Prop :=
      running ∧ j.kind ≠ 1 ∧ j.pkop / 256 = n ∧ h
    gives 0x13 (oper = []) :=
  ⟨tPk (tPj 19 17 [1] []), 5, tPj 19 17 [1] [], ⟨by decide +kernel, by decide +kernel, by decide +kernel, by decide +kernel⟩⟩

theorem witness_PkOperations_0_14 : ∃ (s : State) (eng : Fin 24) (j : PkJob),
    let e := eng.val
    let oper := audOperand j
    let running : Prop := pkRunning s e = some j ∧ j.withdrawn = false ∧ j.status = none
    let gives (n : Nat) (h : Prop) : Prop :=
      running ∧ j.kind ≠ 1 ∧ j.pkop / 256 = n ∧ h
    gives 0x20 (1 ≤ oper.length ∧ oper.length ≤ 1024) :=
  ⟨tPk (tPj 32 33 (zeros 32) [1]), 5, tPj 32 33 (zeros 32) [1], ⟨by decide +kernel, by decide +kernel, by decide +kernel, by decide +kernel⟩⟩

theorem witness_PkOperations_0_15 : ∃ (s : State) (eng : Fin 24) (j : PkJob),
    let e := eng.val
    let running : Prop := pkRunning s e = some j ∧ j.withdrawn = false ∧ j.status = none
    let gives (n : Nat) (h : Prop) : Prop :=
      running ∧ j.kind ≠ 1 ∧ j.pkop / 256 = n ∧ h
    gives 0x21 True :=
  ⟨tPk (tPj 33 33 (zeros 32) [1]), 5, tPj 33 33 (zeros 32) [1], ⟨by decide +kernel, by decide +kernel, by decide +kernel, by decide +kernel⟩⟩

theorem witness_PkOperations_0_16 : ∃ (s : State) (eng : Fin 24) (j : PkJob),
    let e := eng.val
    let running : Prop := pkRunning s e = some j ∧ j.withdrawn = false ∧ j.status = none
    running ∧ j.pkop / 256 = 0x30 :=
  ⟨tPk (tPj 48 0 (zeros 32) [1]), 5, tPj 48 0 (zeros 32) [1], by decide +kernel, by decide +kernel⟩

theorem witness_PkOperations_0_17 : ∃ (s : State) (eng : Fin 24) (j : PkJob),
    let e := eng.val
    let running : Prop := pkRunning s e = some j ∧ j.withdrawn = false ∧ j.status = none
    running ∧ j.kind = 1 :=
  ⟨tPk { tPj 4 0 [] [] with kind := 1 }, 5, { tPj 4 0 [] [] with kind := 1 }, by decide +kernel, by decide +kernel⟩

theorem witness_PkOperations_0_18 : ∃ (s : State) (die : Fin 2),
    let g := w_g
    pkFind s (12 * die.val + (s.bg die.val).engine) (fun x => decide (x.kind = 3 ∧ x.pkop / 256 = 0x30)) = some g ∧ (s.bg die.val).busy = true ∧ g.status = none :=
  ⟨tBg { busy := true, engine := 5 } [w_g] none, 0, by decide +kernel, by decide +kernel, by decide +kernel⟩

theorem witness_PkOperations_0_19 : ∃ (s : State) (eng : Fin 24) (j : PkJob),
    let e := eng.val
    let c := j.pkop % 256
    let oper := audOperand j
    let running : Prop := pkRunning s e = some j ∧ j.withdrawn = false ∧ j.status = none
    let gives (n : Nat) (h : Prop) : Prop :=
      running ∧ j.kind ≠ 1 ∧ j.pkop / 256 = n ∧ h
    let cv := w_cv
    gives 0x10 (jobCurve s c j.epoch = some cv ∧ 20 ≤ oper.length ∧ oper.length ≤ 64) :=
  ⟨tPk (tPj 16 1 [1] (zeros 32)), 5, tPj 16 1 [1] (zeros 32), ⟨by decide +kernel, by decide +kernel, by decide +kernel, by decide +kernel⟩⟩

theorem witness_PkJobs_0_1 : ∃ (s : State) (eng : Fin 24) (j : PkJob),
    let e := eng.val
    let on : Prop := pkRunning s e = some j
    on ∧ j.withdrawn = true ∧
    (j.pkop / 256 = 0x30) :=
  ⟨tPk { tPj 48 0 [] [] with withdrawn := true }, 5, { tPj 48 0 [] [] with withdrawn := true }, by decide +kernel, by decide +kernel, by decide +kernel⟩

theorem witness_PkJobs_0_2 : ∃ (s : State) (eng : Fin 24),
    let e := eng.val
    let v := s.eng e
    let when_ (x : PkJob) : Option Nat := match x.rls, x.arr, x.keyAt with | none, some a, some k => some (Nat.max a k) | _, _, _ => none
    let first := v.jobs.foldl (fun (b : Option (Nat × Nat)) x =>
      match when_ x, b with
      | some t, some y => if t < y.1 then some (t, x.seq) else b
      | some t, none => some (t, x.seq)
      | none, _ => b) none
    let x := w_x
    first = some x ∧ s.domReady (9 + e / 12) = true :=
  ⟨tPk { tPj 4 0 [] [] with arr := some 4500, keyAt := some 4400 }, 5, by decide +kernel, by decide +kernel⟩

theorem witness_PkJobs_0_3 : ∃ (s : State) (eng : Fin 24) (n : Fin 2001) (j : PkJob),
    let e := eng.val
    let v := s.eng e
    let t := Nat.max s.dt (v.yieldAt + n.val)
    let on : Prop := pkRunning s e = some j
    on ∧ j.pkop / 256 ≠ 0x30 ∧ t < v.runAt + j.rem ∧ j.withdrawn = false ∧ j.kind ≠ 3 :=
  ⟨tPk { tPj 4 0 [] [] with rem := 2000 }, 5, 2, { tPj 4 0 [] [] with rem := 2000 }, by decide +kernel, by decide +kernel, by decide +kernel, by decide +kernel, by decide +kernel⟩

theorem witness_PkJobs_0_4 : ∃ (s : State) (eng : Fin 24) (j : PkJob),
    let e := eng.val
    let v := s.eng e
    let on : Prop := pkRunning s e = some j
    let st := w_st
    on ∧ j.withdrawn = false ∧ j.status = some st ∧ mustYield v j (v.runAt + j.rem) = false :=
  ⟨tPk { tPj 4 0 [] [] with status := some 0 }, 5, { tPj 4 0 [] [] with status := some 0 }, by decide +kernel, by decide +kernel, by decide +kernel, by decide +kernel⟩

theorem witness_PkJobs_0_5 : ∃ (s : State) (eng : Fin 24),
    let e := eng.val
    let v := s.eng e
    v.run = none ∧ 2 ^ 20 ≤ v.reqs :=
  ⟨{ tPk { tPj 4 0 [] [] with status := some 0 } with pk := { engs := [(5, { reqs := 2000000 })] } }, 5, by decide +kernel, by decide +kernel⟩

theorem witness_PkJobs_0_6 : ∃ (s : State) (eng : Fin 24),
    let e := eng.val
    let v := s.eng e
    v.run = none ∧ v.reqs < 2 ^ 20 :=
  ⟨{ tPk { tPj 4 0 [] [] with status := some 0 } with pk := { engs := [(5, { reqs := 2000 })] } }, 5, by decide +kernel, by decide +kernel⟩

theorem witness_PkJobs_1_1 : ∃ (s : State) (die : Fin 2) (j : PkJob),
    let d := die.val
    let b := s.bg d
    let e := 12 * d + b.engine
    ((b.go = true ∨ b.busy = true)) ∧
    (b.go = false ∧ b.busy = true ∧ pkFind s e (fun j => decide (j.kind = 3)) = some j ∧ (s.eng e).run ≠ some j.seq) ∧
    (b.busy = true ∧ b.started = false ∧ b.claim = false ∧ (dieEngines d).any (fun e => decide ((s.eng e).claim ≠ 0)) = false) :=
  ⟨tBg { busy := true, engine := 5 } [w_g] none, 0, w_g, by decide +kernel, ⟨by decide +kernel, by decide +kernel, by decide +kernel, by decide +kernel⟩, ⟨by decide +kernel, by decide +kernel, by decide +kernel, by decide +kernel⟩⟩

theorem witness_PkJobs_1_2 : ∃ (s : State) (die : Fin 2),
    let d := die.val
    let b := s.bg d
    b.go = false ∧ b.busy = false ∧ bgOk b.desc = false :=
  ⟨tBg {} [] none, 0, by decide +kernel, by decide +kernel, by decide +kernel⟩

theorem witness_PkJobs_1_3 : ∃ (s : State) (die : Fin 2),
    let d := die.val
    let b := s.bg d
    b.go = true :=
  ⟨tBg { go := true } [] none, 0, by decide +kernel⟩

theorem witness_PkJobs_1_4 : ∃ (s : State) (die : Fin 2) (j : PkJob),
    let d := die.val
    let b := s.bg d
    let e := 12 * d + b.engine
    b.go = false ∧ b.busy = true ∧ pkFind s e (fun j => decide (j.kind = 3)) = some j ∧ (s.eng e).run = some j.seq :=
  ⟨tBg { busy := true, engine := 5 } [w_g] (some 4), 0, w_g, by decide +kernel, by decide +kernel, by decide +kernel, by decide +kernel⟩

theorem witness_PkJobs_1_5 : ∃ (s : State) (die : Fin 2),
    let d := die.val
    let b := s.bg d
    b.go = false ∧ b.busy = false ∧ bgOk b.desc = true :=
  ⟨tBg { desc := [0x10, 1] ++ zeros 30 } [] none, 0, by decide +kernel, by decide +kernel, by decide +kernel⟩

theorem witness_PkJobs_2_1 : ∃ (s t : State) (r : Req) (role : Nat) (eng : Fin 24),
    let idx := 0x6001 + eng.val
    let ask (n : Nat) : Req := reqWith r [BitVec.ofNat 8 n]
    Granted s (ask 1) idx 5 t role [1] :=
  ⟨tSrv 4 .service, tG (tReq 2 0x6006 5 [1]) (tSrv 4 .service), tReq 2 0x6006 5 [1], 4, 5, granted_of (i0 := 0x6006) (u0 := 5) (d := [1]) rfl (by decide +kernel) (by decide +kernel) (by decide +kernel) (by decide +kernel)⟩

theorem witness_PkJobs_2_2 : ∃ (s t : State) (r : Req) (role : Nat) (eng : Fin 24),
    let idx := 0x6001 + eng.val
    let ask (n : Nat) : Req := reqWith r [BitVec.ofNat 8 n]
    Granted s (ask 2) idx 5 t role [2] ∧ (t.eng eng.val).cause = 4 :=
  ⟨{ tSrv 4 .service with pk := { engs := [(5, { cause := 4 })] } }, tG (tReq 2 0x6006 5 [2]) ({ tSrv 4 .service with pk := { engs := [(5, { cause := 4 })] } }), tReq 2 0x6006 5 [2], 4, 5, granted_of (i0 := 0x6006) (u0 := 5) (d := [2]) rfl (by decide +kernel) (by decide +kernel) (by decide +kernel) (by decide +kernel), by decide +kernel⟩

theorem witness_PkJobs_2_3 : ∃ (s t : State) (r : Req) (role k : Nat) (c : Fin 16),
    let cdx := 0x6020 + c.val
    let u := begun t cdx 2 role .install k
    let ask (n : Nat) : Req := reqWith r [BitVec.ofNat 8 n]
    Granted s (ask 1) cdx 2 t role [1] ∧ inCeremony t role = true ∧ CanBegin t cdx 2 k ∧ curveNamed u c.val = false :=
  ⟨tSrv 4 .ceremony, tG (tReq 2 0x6023 2 [1]) (tSrv 4 .ceremony), tReq 2 0x6023 2 [1], 4, 0, 3, granted_of (i0 := 0x6023) (u0 := 2) (d := [1]) rfl (by decide +kernel) (by decide +kernel) (by decide +kernel) (by decide +kernel), by decide +kernel, ⟨by decide +kernel, by decide +kernel, by decide +kernel, by decide +kernel⟩, by decide +kernel⟩

theorem witness_PkJobs_2_4 : ∃ (s t : State) (r : Req) (role k : Nat) (c : Fin 16),
    let cdx := 0x6020 + c.val
    let u := begun t cdx 2 role .install k
    let ask (n : Nat) : Req := reqWith r [BitVec.ofNat 8 n]
    Granted s (ask 2) cdx 2 t role [2] ∧ inCeremony t role = true ∧ CanBegin t cdx 2 k ∧ curveNamed u c.val = false :=
  ⟨tSrv 4 .ceremony, tG (tReq 2 0x6023 2 [2]) (tSrv 4 .ceremony), tReq 2 0x6023 2 [2], 4, 0, 3, granted_of (i0 := 0x6023) (u0 := 2) (d := [2]) rfl (by decide +kernel) (by decide +kernel) (by decide +kernel) (by decide +kernel), by decide +kernel, ⟨by decide +kernel, by decide +kernel, by decide +kernel, by decide +kernel⟩, by decide +kernel⟩

end W36

namespace W37

def w_g : Chg := { id := [6], op := 2, node := 0 }
def w_at_ : Nat := 9000
def w_p : Bytes := [1]
def w_rest : List Bytes := []
def tCard (c : Card) (e : Ceremony) : State := { tSrv 4 .ceremony with power := { mode := .ceremony, lcs := .owned, doms := [(1, { st := .ready }), (2, { st := .ready }), (6, { st := .ready })] }, grp := { cards := [(1, c)], cer := e } }
def tAtr : Bytes := [0x3B, 0x80, 0x01]
def tA0 : Atr := (readAtr tAtr).getD {}
def tCe (s : State) : State := { s with dict := { s.dict with sess := some (tSess 4) } }

theorem witness_CustodianCards_0_1 : ∃ (s : State) (i : Fin 4) (atr : Bytes) (a : Atr),
    let n := i.val
    let c := s.card n
    (c.st = 1 ∧ c.cls ≠ 0 ∧ readAtr atr = some a ∧ a.t1 = true) ∧
    (let at_ := w_at_
     c.retry = some at_) ∧
    (c.pres = true) ∧
    (c.st = 1 ∧ c.cls = 1) :=
  ⟨tCard { st := 1, cls := 1, pres := true, retry := some 9000 } {}, 1, [0x3B, 0x80, 0x81, 1, 0], (readAtr [0x3B, 0x80, 0x81, 1, 0]).getD {}, ⟨by decide +kernel, by decide +kernel, by decide +kernel, by decide +kernel⟩, by decide +kernel, by decide +kernel, ⟨by decide +kernel, by decide +kernel⟩⟩

theorem witness_CustodianCards_0_2 : ∃ (s : State) (i : Fin 4) (sw : BitVec 16) (ins : Nat),
    let n := i.val
    let c := s.card n
    let sent : Prop :=
      c.cmd = some ins
    (c.pres = false ∧ s.domReady 6 = true) ∧
    (c.st ≠ 1 ∧ c.cmd.isSome = true) ∧
    (sent) ∧
    (sw = 0x9000 ∧ ins = 0xA4 ∧ sent) :=
  ⟨tCard { st := 3, cmd := some 0xA4 } {}, 1, 0x9000, 0xA4, ⟨by decide +kernel, by decide +kernel⟩, ⟨by decide +kernel, by decide +kernel⟩, by decide +kernel, ⟨by decide +kernel, by decide +kernel, by decide +kernel⟩⟩

theorem witness_CustodianCards_0_3 : ∃ (s : State) (i : Fin 4),
    let n := i.val
    let c := s.card n
    let st := s.cer.st
    let kind := s.cer.kind
    let can (h : Prop) : Prop :=
      cardFree s n = true ∧ h
    (let channel : Prop := c.chan = true ∧ owesComp s c = true
     let p := w_p
     let rest := w_rest
     can (s.cer.todo = p :: rest ∧ st = 2 ∧ kind = 4 ∧ channel)) ∧
    (can (st = 2 ∧ kind = 4 ∧ (c.step = 2 ∨ c.step = 3))) :=
  ⟨tCard { st := 2, step := 3, cred := some 4, chan := true, ke := zeros 32, km := zeros 32 } { kind := 4, st := 2, todo := [[1]], params := zeros 10 }, 1, ⟨by decide +kernel, by decide +kernel⟩, ⟨by decide +kernel, by decide +kernel⟩⟩

theorem witness_CustodianCards_0_4 : ∃ (s : State) (i : Fin 4),
    let n := i.val
    let c := s.card n
    c.pres = false ∧ s.domReady 6 = false :=
  ⟨tSrv 4 .service, 1, by decide +kernel, by decide +kernel⟩

theorem witness_CustodianCards_0_5 : ∃ (s : State) (i : Fin 4) (atr : Bytes) (a : Atr),
    let n := i.val
    let c := s.card n
    c.st = 1 ∧ c.cls ≠ 0 ∧ readAtr atr = some a ∧ a.t1 = false :=
  ⟨tCard { st := 1, cls := 1, pres := true, retry := some 9000 } {}, 1, [0x3B, 0x00], (readAtr [0x3B, 0x00]).getD {}, by decide +kernel, by decide +kernel, by decide +kernel, by decide +kernel⟩

theorem witness_CustodianCards_0_6 : ∃ (s : State) (i : Fin 4),
    let n := i.val
    let c := s.card n
    c.st = 1 ∧ c.cls = 2 :=
  ⟨tCard { st := 1, cls := 2, pres := true, retry := some 9000 } {}, 1, by decide +kernel, by decide +kernel⟩

theorem witness_CustodianCards_0_7 : ∃ (s : State) (i : Fin 4) (atr : Bytes),
    let n := i.val
    let c := s.card n
    c.st = 1 ∧ c.cls = 1 ∧ readAtr atr = none :=
  ⟨tCard { st := 1, cls := 1, pres := true, retry := some 9000 } {}, 1, [1], by decide +kernel, by decide +kernel, by decide +kernel⟩

theorem witness_CustodianCards_0_8 : ∃ (s : State) (i : Fin 4),
    let n := i.val
    let c := s.card n
    let can (h : Prop) : Prop :=
      cardFree s n = true ∧ h
    can (c.step = 0) :=
  ⟨tCard { st := 2, step := 0 } { kind := 3, st := 1 }, 1, ⟨by decide +kernel, by decide +kernel⟩⟩

theorem witness_CustodianCards_0_9 : ∃ (s : State) (i : Fin 4),
    let n := i.val
    let c := s.card n
    let can (h : Prop) : Prop :=
      cardFree s n = true ∧ h
    can (c.step = 1) :=
  ⟨tCard { st := 2, step := 1 } { kind := 3, st := 1 }, 1, ⟨by decide +kernel, by decide +kernel⟩⟩

theorem witness_CustodianCards_0_10 : ∃ (s : State) (i : Fin 4),
    let n := i.val
    let c := s.card n
    let st := s.cer.st
    let kind := s.cer.kind
    let can (h : Prop) : Prop :=
      cardFree s n = true ∧ h
    can (c.step = 2 ∧ st = 1 ∧ kind ≠ 6) :=
  ⟨tCard { st := 2, step := 2 } { kind := 3, st := 1 }, 1, ⟨by decide +kernel, by decide +kernel⟩⟩

theorem witness_CustodianCards_0_11 : ∃ (s : State) (i : Fin 4),
    let n := i.val
    let c := s.card n
    let st := s.cer.st
    let kind := s.cer.kind
    let can (h : Prop) : Prop :=
      cardFree s n = true ∧ h
    can (c.step = 2 ∧ st = 1 ∧ kind = 6) :=
  ⟨tCard { st := 2, step := 2 } { kind := 6, st := 1 }, 1, ⟨by decide +kernel, by decide +kernel⟩⟩

theorem witness_CustodianCards_0_12 : ∃ (s : State) (i : Fin 4),
    let n := i.val
    let c := s.card n
    let st := s.cer.st
    let kind := s.cer.kind
    let can (h : Prop) : Prop :=
      cardFree s n = true ∧ h
    can (st = 2 ∧ (kind = 3 ∨ kind = 4) ∧ (c.step = 2 ∨ c.step = 3) ∧ c.chan = false ∧ owesComp s c = true) :=
  ⟨tCard { st := 2, step := 3, cred := some 4 } { kind := 3, st := 2 }, 1, ⟨by decide +kernel, by decide +kernel⟩⟩

theorem witness_CustodianCards_0_13 : ∃ (s : State) (i : Fin 4),
    let n := i.val
    let c := s.card n
    let st := s.cer.st
    let kind := s.cer.kind
    let can (h : Prop) : Prop :=
      cardFree s n = true ∧ h
    let channel : Prop := c.chan = true ∧ owesComp s c = true
    can (st = 2 ∧ kind = 3 ∧ channel) :=
  ⟨tCard { st := 2, step := 3, cred := some 4, chan := true } { kind := 3, st := 2 }, 1, ⟨by decide +kernel, by decide +kernel⟩⟩

theorem witness_CustodianCards_0_14 : ∃ (s : State) (i : Fin 4) (sw : BitVec 16) (ins : Nat),
    let n := i.val
    let c := s.card n
    let sent : Prop :=
      c.cmd = some ins
    sw = 0x6982 ∧ sent :=
  ⟨tCard { st := 3, cmd := some 0xA4 } {}, 1, 0x6982, 0xA4, by decide +kernel, by decide +kernel⟩

theorem witness_CustodianCards_0_15 : ∃ (s : State) (i : Fin 4) (sw : BitVec 16) (ins : Nat),
    let n := i.val
    let c := s.card n
    let sent : Prop :=
      c.cmd = some ins
    sw ≠ 0x6982 ∧ sw ≠ 0x9000 ∧ sent :=
  ⟨tCard { st := 3, cmd := some 0xA4 } {}, 1, 0x6A82, 0xA4, by decide +kernel, by decide +kernel, by decide +kernel⟩

theorem witness_CustodianCards_0_16 : ∃ (s : State) (i : Fin 4) (sw : BitVec 16) (ins : Nat),
    let n := i.val
    let c := s.card n
    let sent : Prop :=
      c.cmd = some ins
    sw = 0x9000 ∧ ins = 0x10 ∧ sent :=
  ⟨tCard { st := 3, cmd := some 0x10 } {}, 1, 0x9000, 0x10, by decide +kernel, by decide +kernel, by decide +kernel⟩

theorem witness_CustodianCards_0_17 : ∃ (s : State) (i : Fin 4) (sw : BitVec 16) (ins : Nat),
    let n := i.val
    let c := s.card n
    let sent : Prop :=
      c.cmd = some ins
    sw = 0x9000 ∧ ins = 0x20 ∧ sent :=
  ⟨tCard { st := 3, cmd := some 0x20 } {}, 1, 0x9000, 0x20, by decide +kernel, by decide +kernel, by decide +kernel⟩

theorem witness_CustodianCards_0_18 : ∃ (s : State) (i : Fin 4) (sw : BitVec 16) (ins : Nat),
    let n := i.val
    let c := s.card n
    let sent : Prop :=
      c.cmd = some ins
    sw = 0x9000 ∧ ins = 0x30 ∧ sent :=
  ⟨tCard { st := 3, cmd := some 0x30 } {}, 1, 0x9000, 0x30, by decide +kernel, by decide +kernel, by decide +kernel⟩

theorem witness_CustodianCards_0_19 : ∃ (s : State) (i : Fin 4) (sw : BitVec 16) (ins : Nat),
    let n := i.val
    let c := s.card n
    let sent : Prop :=
      c.cmd = some ins
    sw = 0x9000 ∧ ins = 0x40 ∧ sent :=
  ⟨tCard { st := 3, cmd := some 0x40 } {}, 1, 0x9000, 0x40, by decide +kernel, by decide +kernel, by decide +kernel⟩

theorem witness_CustodianCards_0_20 : ∃ (s : State) (i : Fin 4) (sw : BitVec 16) (ins : Nat),
    let n := i.val
    let c := s.card n
    let sent : Prop :=
      c.cmd = some ins
    sw = 0x9000 ∧ ins = 0x42 ∧ sent :=
  ⟨tCard { st := 3, cmd := some 0x42 } {}, 1, 0x9000, 0x42, by decide +kernel, by decide +kernel, by decide +kernel⟩

theorem witness_Ceremonies_0_1 : ∃ (s t : State) (r : Req) (role k : Nat),
    let begins (n : Nat) : Prop :=
      Granted s (reqWith r [BitVec.ofNat 8 n]) 0xA000 2 t role [BitVec.ofNat 8 n] ∧ inCeremony t role = true ∧ t.cer.kind = 0 ∧ CanBegin t 0xA000 2 k
    begins 2 :=
  ⟨tSrv 4 .ceremony, tG (tReq 2 0xA000 2 [2]) (tSrv 4 .ceremony), tReq 2 0xA000 2 [2], 4, 0, ⟨granted_of (i0 := 0xA000) (u0 := 2) (d := [2]) rfl (by decide +kernel) (by decide +kernel) (by decide +kernel) (by decide +kernel), by decide +kernel, by decide +kernel, ⟨by decide +kernel, by decide +kernel, by decide +kernel, by decide +kernel⟩⟩⟩

theorem witness_Ceremonies_0_2 : ∃ (s t : State) (r : Req) (role k : Nat),
    let begins (n : Nat) : Prop :=
      Granted s (reqWith r [BitVec.ofNat 8 n]) 0xA000 2 t role [BitVec.ofNat 8 n] ∧ inCeremony t role = true ∧ t.cer.kind = 0 ∧ CanBegin t 0xA000 2 k
    begins 3 :=
  ⟨tSrv 4 .ceremony, tG (tReq 2 0xA000 2 [3]) (tSrv 4 .ceremony), tReq 2 0xA000 2 [3], 4, 0, ⟨granted_of (i0 := 0xA000) (u0 := 2) (d := [3]) rfl (by decide +kernel) (by decide +kernel) (by decide +kernel) (by decide +kernel), by decide +kernel, by decide +kernel, ⟨by decide +kernel, by decide +kernel, by decide +kernel, by decide +kernel⟩⟩⟩

theorem witness_Ceremonies_0_3 : ∃ (s t : State) (r : Req) (role k : Nat),
    let begins (n : Nat) : Prop :=
      Granted s (reqWith r [BitVec.ofNat 8 n]) 0xA000 2 t role [BitVec.ofNat 8 n] ∧ inCeremony t role = true ∧ t.cer.kind = 0 ∧ CanBegin t 0xA000 2 k
    begins 4 :=
  ⟨tSrv 4 .ceremony, tG (tReq 2 0xA000 2 [4]) (tSrv 4 .ceremony), tReq 2 0xA000 2 [4], 4, 0, ⟨granted_of (i0 := 0xA000) (u0 := 2) (d := [4]) rfl (by decide +kernel) (by decide +kernel) (by decide +kernel) (by decide +kernel), by decide +kernel, by decide +kernel, ⟨by decide +kernel, by decide +kernel, by decide +kernel, by decide +kernel⟩⟩⟩

theorem witness_Ceremonies_0_4 : ∃ (s t : State) (r : Req) (role k : Nat),
    let begins (n : Nat) : Prop :=
      Granted s (reqWith r [BitVec.ofNat 8 n]) 0xA000 2 t role [BitVec.ofNat 8 n] ∧ inCeremony t role = true ∧ t.cer.kind = 0 ∧ CanBegin t 0xA000 2 k
    begins 5 :=
  ⟨tSrv 4 .ceremony, tG (tReq 2 0xA000 2 [5]) (tSrv 4 .ceremony), tReq 2 0xA000 2 [5], 4, 0, ⟨granted_of (i0 := 0xA000) (u0 := 2) (d := [5]) rfl (by decide +kernel) (by decide +kernel) (by decide +kernel) (by decide +kernel), by decide +kernel, by decide +kernel, ⟨by decide +kernel, by decide +kernel, by decide +kernel, by decide +kernel⟩⟩⟩

theorem witness_Ceremonies_0_5 : ∃ (s t : State) (r : Req) (role k : Nat),
    Granted s (reqWith r [1]) 0xA030 2 t role [1] ∧ inVendor t role = true ∧ t.cer.kind = 0 ∧ changeOpen t = false ∧ t.power.modeTarget = none ∧ CanBegin t 0xA030 2 k :=
  ⟨{ tSrv 5 .bypass with power := { (tSrv 5 .bypass).power with lcs := .vendor } }, tG (tReq 2 0xA030 2 [1]) ({ tSrv 5 .bypass with power := { (tSrv 5 .bypass).power with lcs := .vendor } }), tReq 2 0xA030 2 [1], 5, 0, granted_of (i0 := 0xA030) (u0 := 2) (d := [1]) rfl (by decide +kernel) (by decide +kernel) (by decide +kernel) (by decide +kernel), by decide +kernel, by decide +kernel, by decide +kernel, by decide +kernel, ⟨by decide +kernel, by decide +kernel, by decide +kernel, by decide +kernel⟩⟩

theorem witness_Ceremonies_1_1 : ∃ (kind : Nat) (p : Bytes),
    paramsOk kind p = false :=
  ⟨3, [], by decide +kernel⟩

theorem witness_Ceremonies_1_2 : ∃ (s : State) (kind : Nat) (p : Bytes),
    let c := ctrIncrement 1 0 s
    paramsOk kind p = true ∧ c.1 = 0 :=
  ⟨tSrv 4 .ceremony, 3, [0, 3, 0, 2, 0, 0, 0, 0, 0, 0], by decide +kernel, by decide +kernel⟩

theorem witness_Ceremonies_1_3 : ∃ (s : State) (kind : Nat) (p : Bytes),
    let c := ctrIncrement 1 0 s
    paramsOk kind p = true ∧ c.1 ≠ 0 :=
  ⟨{ tSrv 4 .ceremony with nvm := { badPages := [0x18, 0x38] } }, 3, [0, 3, 0, 2, 0, 0, 0, 0, 0, 0], by decide +kernel, by decide +kernel⟩

theorem witness_Ceremonies_2_1 : ∃ (s : State),
    (let c := s.cer
     c.kind ≠ 0 ∧ c.st = 1) ∧
    (s.power.mode = .ceremony ∧ changeOpen s = false) :=
  ⟨tCard {} { kind := 3, st := 1 }, ⟨by decide +kernel, by decide +kernel⟩, ⟨by decide +kernel, by decide +kernel⟩⟩

theorem witness_Ceremonies_2_2 : ∃ (s : State),
    let c := s.cer
    c.kind ≠ 0 ∧ c.kind ≠ 5 ∧ c.st ≠ 1 :=
  ⟨tCard {} { kind := 3, st := 2 }, by decide +kernel, by decide +kernel, by decide +kernel⟩

theorem witness_Ceremonies_2_3 : ∃ (s : State),
    let c := s.cer
    let lim := ms (s.cfg 0xA000 3)
    let a := s.at (c.quorumAt + lim)
    let u := { a with grp := { a.grp with invited := [], join := [], joining := false } }
    c.kind = 5 ∧ c.st ≠ 1 ∧ chgOf u c.chg = none :=
  ⟨tCard {} { kind := 5, st := 2 }, by decide +kernel, by decide +kernel, by decide +kernel⟩

theorem witness_Ceremonies_2_4 : ∃ (s : State),
    let c := s.cer
    let lim := ms (s.cfg 0xA000 3)
    let a := s.at (c.quorumAt + lim)
    let u := { a with grp := { a.grp with invited := [], join := [], joining := false } }
    let g := w_g
    c.kind = 5 ∧ c.st ≠ 1 ∧ chgOf u c.chg = some g :=
  ⟨{ tCard {} { kind := 5, st := 2, chg := [6] } with grp := { cer := { kind := 5, st := 2, chg := [6] }, chgs := [w_g] } }, by decide +kernel, by decide +kernel, by decide +kernel⟩

theorem witness_Ceremonies_2_5 : ∃ (s : State),
    let c := s.cer
    c.kind = 0 :=
  ⟨tCard {} {}, by decide +kernel⟩

end W37

namespace W38

def tC : Chg := { id := zeros 11 ++ [7], op := 0, node := 9, mine := true, waits := [1], init := zeros 8 }
def tMir (v : MLink) (g : GrpState) : State := { tSrv 4 .service with key := { root := [1] }, dict := { sess := some (tSess 4), work := [(0x203201, some [1])] }, grp := { g with links := [(2, v)], ros := [(1, { serial := [1,2,3,4,5,6,7,8] })] }, power := { mode := .service, lcs := .owned, doms := [(31, { st := .ready })] } }
def tUp : MLink := { st := 3, peer := [1,2,3,4,5,6,7,8], rxSeq := 3, tokRx := zeros 16 }

theorem witness_MirrorGroup_0_1 : ∃ (s : State) (l : Fin 8) (seq : Word) (chg : BitVec 96) (tok : BitVec 128) (c : Chg),
    let id := beBytes chg.toNat 12
    let n := l.val
    let v := s.mlink n
    let up (h : Prop) : Prop :=
      v.st = 3 ∧ h
    (let new : Prop := v.rxSeq < seq.toNat
     up (¬ new)) ∧
    (up True) ∧
    (2 ≤ v.st) ∧
    (up (v.tokRx ≠ [] ∧ v.tokRx ≠ beBytes tok.toNat 16)) ∧
    (chgOf s id = some c ∧ c.waits ≠ [] ∧ c.st = 0) ∧
    (chgOf s id = some c ∧ c.mine = true ∧ c.st = 0) :=
  ⟨tMir tUp { chgs := [tC] }, 2, 3, 7, 5, tC, ⟨by decide +kernel, by decide +kernel⟩, ⟨by decide +kernel, by decide +kernel⟩, by decide +kernel, ⟨by decide +kernel, by decide +kernel⟩, ⟨by decide +kernel, by decide +kernel, by decide +kernel⟩, ⟨by decide +kernel, by decide +kernel, by decide +kernel⟩⟩

theorem witness_MirrorGroup_0_2 : ∃ (s : State) (l : Fin 8) (seq : Word) (tok : BitVec 128),
    let n := l.val
    let v := s.mlink n
    let u := (s.setMlink n { v with rxSeq := seq.toNat, lastRx := s.dt }).bump (0xB810 + n) 2
    let up (h : Prop) : Prop :=
      v.st = 3 ∧ h
    let new : Prop := v.rxSeq < seq.toNat
    (up (v.tokRx ≠ [] ∧ v.tokRx = beBytes tok.toNat 16)) ∧
    (up (new ∧ (peerSlot u n).isSome = true)) ∧
    (up (new ∧ u.grp.joining = true ∧ (u.mlink n).peer = u.grp.join.take 8)) :=
  ⟨tMir tUp { joining := true, join := [1,2,3,4,5,6,7,8] }, 2, 4, 0, ⟨by decide +kernel, by decide +kernel⟩, ⟨by decide +kernel, by decide +kernel⟩, ⟨by decide +kernel, by decide +kernel⟩⟩

theorem witness_MirrorGroup_0_3 : ∃ (s : State) (l : Fin 8) (nonce : BitVec 256),
    let n := l.val
    let v := s.mlink n
    let d := s.draw 32
    let e := drawScalar p384.n 8 d.2
    let a := attest 0 (beBytes nonce.toNat 32) e.2
    s.cfg (0x2030 + n) 1 = 1 ∧ s.domReady 31 = true ∧ v.st < 2 ∧ a.code = 0 :=
  ⟨tMir {} {}, 2, 0, by decide +kernel, by decide +kernel, by decide +kernel, attest_drawn (by decide +kernel)⟩

theorem witness_MirrorGroup_0_4 : ∃ (s : State) (l : Fin 8),
    let n := l.val
    let v := s.mlink n
    v.st = 2 :=
  ⟨tMir { st := 2 } { chgs := [tC] }, 2, by decide +kernel⟩

theorem witness_MirrorGroup_0_5 : ∃ (s t : State) (r : Req) (role : Nat),
    Granted s (reqWith r [2]) 0xA100 7 t role [2] :=
  ⟨tSrv 4 .service, tG (tReq 2 0xA100 7 [2]) (tSrv 4 .service), tReq 2 0xA100 7 [2], 4, granted_of (i0 := 0xA100) (u0 := 7) (d := [2]) rfl (by decide +kernel) (by decide +kernel) (by decide +kernel) (by decide +kernel)⟩

end W38

namespace W39

def w_c : Nat := 0
def tDg (d : DigState) (regs : Tab Nat) : State := { tSrv 4 .service with dig := d, power := { mode := .service, lcs := .owned, doms := [(5, { st := .ready })] } }
def tFl (v : Nat) : State := { tSrv 4 .service with img := { base := { header := zeros 64 }, mods := [] } }
def tV : Bytes := zeros 48
def w_j : Nat := 99
def tM (b : Bool) (w : List MrReq) : State := { tSrv 4 .service with mr := { bootlock := b, waiting := w } }
def tHm : State := { tDg { running := true, len := 8 } [] with key := { root := [1], nodes := [(0x302, { kind := 3, state := 2, ktype := 8, param := 32, attr := 1, use_ := 4, engine := 16, slot := 7, units := 2 })], runs := [(7, { ktype := 8, key := zeros 32, owner := 0x302 })] }, regs := (tDg {} []).setReg 2 (digOff + 8) 0x302 |>.regs }

theorem witness_DigestAndImages_0_1 : ∃ (s : State) (ctrl : Word),
    let c := ctrl.toNat
    let a := digSettle s
    let o := a.dig
    let early : Bool := o.running && decide (o.msg.length < o.len)
    let n : DigState := { mode := bits c 29 28, alg := bits c 27 24, cmpen := bit c 23, cmplen := bits c 22 16, len := a.reg 2 (digOff + 4),
                          running := true, trunc := o.trunc || early, cmpflt := o.cmpflt, freeAt := a.dt }
    s.domReady 5 = true ∧ (n.mode = 3 ∨ 6 ≤ n.alg ∨ cmplenOk n.mode n.alg n.cmplen = false) :=
  ⟨tDg {} [], 0x30000000, by decide +kernel, by decide +kernel⟩

theorem witness_DigestAndImages_0_2 : ∃ (s : State) (ctrl : Word),
    let c := ctrl.toNat
    let a := digSettle s
    let o := a.dig
    let early : Bool := o.running && decide (o.msg.length < o.len)
    let n : DigState := { mode := bits c 29 28, alg := bits c 27 24, cmpen := bit c 23, cmplen := bits c 22 16, len := a.reg 2 (digOff + 4),
                          running := true, trunc := o.trunc || early, cmpflt := o.cmpflt, freeAt := a.dt }
    s.domReady 5 = true ∧ n.mode = 0 ∧ n.alg < 6 ∧ cmplenOk n.mode n.alg n.cmplen = true :=
  ⟨tDg {} [], 0x00000000, by decide +kernel, by decide +kernel, by decide +kernel, by decide +kernel⟩

theorem witness_DigestAndImages_0_3 : ∃ (s : State) (ctrl : Word),
    let c := ctrl.toNat
    let a := digSettle s
    let o := a.dig
    let early : Bool := o.running && decide (o.msg.length < o.len)
    let n : DigState := { mode := bits c 29 28, alg := bits c 27 24, cmpen := bit c 23, cmplen := bits c 22 16, len := a.reg 2 (digOff + 4),
                          running := true, trunc := o.trunc || early, cmpflt := o.cmpflt, freeAt := a.dt }
    s.domReady 5 = true ∧ (n.mode = 1 ∨ n.mode = 2) ∧ n.alg < 6 ∧ cmplenOk n.mode n.alg n.cmplen = true :=
  ⟨tDg { running := true, len := 8 } [], 0x10000000, by decide +kernel, by decide +kernel, by decide +kernel, by decide +kernel⟩

theorem witness_DigestAndImages_1_1 : ∃ (s : State),
    s.domReady 5 = true ∧ s.dig.running = true ∧ s.dig.msg.length < s.dig.len :=
  ⟨tDg { running := true, len := 8 } [], by decide +kernel, by decide +kernel, by decide +kernel⟩

theorem witness_DigestAndImages_2_1 : ∃ (s : State),
    s.domReady 5 = true ∧
    (let a := digSettle s
     let d := a.dig
     let late : Prop := digBusy a = true ∨ (d.mode ≠ 0 ∧ d.keyAt = a.dt)
     d.running = true ∧ ¬ late) :=
  ⟨tDg { running := true, len := 8 } [], by decide +kernel, ⟨by decide +kernel, by decide +kernel⟩⟩

theorem witness_DigestAndImages_2_2 : ∃ (s : State),
    let a := digSettle s
    let d := a.dig
    let late : Prop := digBusy a = true ∨ (d.mode ≠ 0 ∧ d.keyAt = a.dt)
    s.domReady 5 = true ∧ d.running = true ∧ late :=
  ⟨tDg { running := true, len := 8, keying := true, keyAt := 6000 } [], by decide +kernel, by decide +kernel, by decide +kernel⟩

theorem witness_DigestAndImages_2_3 : ∃ (s : State),
    let a := digSettle s
    let d := a.dig
    s.domReady 5 = true ∧ d.running = false ∧ d.done = true :=
  ⟨tDg { done := true } [], by decide +kernel, by decide +kernel, by decide +kernel⟩

theorem witness_DigestAndImages_3_1 : ∃ (s : State),
    let d := s.dig
    s.dig.running = true ∧ d.keying = true :=
  ⟨tDg { running := true, len := 8, keying := true, keyAt := 6000 } [], by decide +kernel, by decide +kernel⟩

theorem witness_DigestAndImages_3_2 : ∃ (s : State),
    let d := s.dig
    s.dig.running = true ∧ d.keying = false ∧ d.full ≠ 0 :=
  ⟨tDg { running := true, len := 8, full := 1, freeAt := 6000 } [], by decide +kernel, by decide +kernel, by decide +kernel⟩

theorem witness_DigestAndImages_4_1 : ∃ (s : State),
    s.dig.running = true ∧ s.dig.finishing = true ∧ s.dig.keying = false :=
  ⟨tDg { running := true, finishing := true, len := 3, msg := [1, 2, 3], cmpen := true } [], by decide +kernel, by decide +kernel, by decide +kernel⟩

theorem witness_DigestAndImages_5_1 : ∃ (s : State) (i : BitVec 4),
    mrGo s 1 = false ∧ 1 ≤ i.toNat ∧ i.toNat < 8 ∧ ¬ (i.toNat = 1 ∧ s.mr.bootlock = true) :=
  ⟨tSrv 4 .service, 3, by decide +kernel, by decide +kernel, by decide +kernel, by decide +kernel⟩

theorem witness_DigestAndImages_5_2 : ∃ (s : State) (i : BitVec 4),
    mrGo s 1 = false ∧ (i.toNat = 0 ∨ 8 ≤ i.toNat ∨ (i.toNat = 1 ∧ s.mr.bootlock = true)) :=
  ⟨tM true [], 1, by decide +kernel, by decide +kernel⟩

theorem witness_DigestAndImages_6_1 : ∃ (s : State) (i : BitVec 4),
    mrGo s 2 = false ∧ 8 ≤ i.toNat :=
  ⟨tSrv 4 .service, 9, by decide +kernel, by decide +kernel⟩

theorem witness_DigestAndImages_6_2 : ∃ (s : State) (i : BitVec 4),
    mrGo s 2 = false ∧ i.toNat < 8 :=
  ⟨tSrv 4 .service, 3, by decide +kernel, by decide +kernel⟩

theorem witness_DigestAndImages_7_1 : ∃ (s t : State) (r : Req) (role : Nat) (k : Fin 8) (v : Bytes),
    Granted s r 0x6802 (k.val + 1) t role v ∧ v.length = 48 :=
  ⟨tSrv 4 .service, tG (tReq 2 0x6802 3 tV) (tSrv 4 .service), tReq 2 0x6802 3 tV, 4, 2, tV, granted_of (i0 := 0x6802) (u0 := 3) (d := tV) rfl (by decide +kernel) (by decide +kernel) (by decide +kernel) (by decide +kernel), by decide +kernel⟩

theorem witness_DigestAndImages_8_1 : ∃ (s : State) (q : MrReq) (rest : List MrReq),
    s.mr.waiting = q :: rest ∧
    (let j := w_j
     j ≠ q.mr) :=
  ⟨tM false [⟨5, tV, 1, 0, 0, 0⟩], ⟨5, tV, 1, 0, 0, 0⟩, [], by decide +kernel, by decide +kernel⟩

theorem witness_DigestAndImages_10_1 : ∃ (s t : State) (r : Req) (role k : Nat),
    let q (n : Nat) : Req := reqWith r [BitVec.ofNat 8 n]
    CanBegin t 0x6830 2 k ∧ Granted s (q 1) 0x6830 2 t role [1] :=
  ⟨tSrv 5 .update, tG (tReq 2 0x6830 2 [1]) (tSrv 5 .update), tReq 2 0x6830 2 [1], 5, 0, ⟨by decide +kernel, by decide +kernel, by decide +kernel, by decide +kernel⟩, granted_of (i0 := 0x6830) (u0 := 2) (d := [1]) rfl (by decide +kernel) (by decide +kernel) (by decide +kernel) (by decide +kernel)⟩

theorem witness_DigestAndImages_10_2 : ∃ (s t : State) (r : Req) (role k : Nat),
    let q (n : Nat) : Req := reqWith r [BitVec.ofNat 8 n]
    let c := w_c
    CanBegin t 0x6830 2 k ∧ Granted s (q 2) 0x6830 2 t role [2] ∧ inUpdate t role = true ∧ slotWinner t = some c :=
  ⟨(writeSlotRec 0 1 true (tSrv 5 .update)).2, tG (tReq 2 0x6830 2 [2]) ((writeSlotRec 0 1 true (tSrv 5 .update)).2), tReq 2 0x6830 2 [2], 5, 0, ⟨by decide +kernel, by decide +kernel, by decide +kernel, by decide +kernel⟩, granted_of (i0 := 0x6830) (u0 := 2) (d := [2]) rfl (by decide +kernel) (by decide +kernel) (by decide +kernel) (by decide +kernel), by decide +kernel, by decide +kernel⟩

theorem witness_DigestAndImages_11_1 : ∃ (s t : State) (r : Req) (role k : Nat) (m : Fin 16),
    let n := 0x6840 + m.val
    let q (n : Nat) : Req := reqWith r [BitVec.ofNat 8 n]
    CanBegin t (0x6840 + m.val) 2 k ∧ Granted s (q 1) n 2 t role [1] :=
  ⟨tSrv 4 .update, tG (tReq 2 0x6843 2 [1]) (tSrv 4 .update), tReq 2 0x6843 2 [1], 4, 0, 3, ⟨by decide +kernel, by decide +kernel, by decide +kernel, by decide +kernel⟩, granted_of (i0 := 0x6843) (u0 := 2) (d := [1]) rfl (by decide +kernel) (by decide +kernel) (by decide +kernel) (by decide +kernel)⟩

theorem witness_DigestAndImages_11_2 : ∃ (s t : State) (r : Req) (role k : Nat) (m : Fin 16),
    let n := 0x6840 + m.val
    let q (n : Nat) : Req := reqWith r [BitVec.ofNat 8 n]
    CanBegin t (0x6840 + m.val) 2 k ∧ Granted s (q 2) n 2 t role [2] :=
  ⟨tSrv 4 .update, tG (tReq 2 0x6843 2 [2]) (tSrv 4 .update), tReq 2 0x6843 2 [2], 4, 0, 3, ⟨by decide +kernel, by decide +kernel, by decide +kernel, by decide +kernel⟩, granted_of (i0 := 0x6843) (u0 := 2) (d := [2]) rfl (by decide +kernel) (by decide +kernel) (by decide +kernel) (by decide +kernel)⟩

theorem witness_DigestAndImages_12_1 : ∃ (s t : State) (r : Req) (role : Nat) (v : Bytes),
    Granted s r 0x6820 4 t role v ∧ moduleFloorRange t v = true ∧ (ctrRaise (15 + floorModid v) (beNat (v.drop 2)) 0 t).1 = 0 :=
  ⟨tSrv 4 .update, tG (tReq 2 0x6820 4 [0, 1, 0, 0]) (tSrv 4 .update), tReq 2 0x6820 4 [0, 1, 0, 0], 4, [0, 1, 0, 0], granted_of (i0 := 0x6820) (u0 := 4) (d := [0, 1, 0, 0]) rfl (by decide +kernel) (by decide +kernel) (by decide +kernel) (by decide +kernel), by decide +kernel, by decide +kernel⟩

theorem witness_DigestAndImages_12_2 : ∃ (s t : State) (r : Req) (role : Nat) (v : Bytes),
    Granted s r 0x6820 2 t role v ∧ baseFloorRange t v = true ∧ (ctrRaise 2 (beNat v) 0 t).1 = 0 :=
  ⟨tSrv 5 .update, tG (tReq 2 0x6820 2 [0, 0]) (tSrv 5 .update), tReq 2 0x6820 2 [0, 0], 5, [0, 0], granted_of (i0 := 0x6820) (u0 := 2) (d := [0, 0]) rfl (by decide +kernel) (by decide +kernel) (by decide +kernel) (by decide +kernel), by decide +kernel, by decide +kernel⟩

theorem witness_DigestAndImages_13_1 : ∃ (s : State),
    s.rst.recovery = false ∧ s.domReady 5 = true ∧ s.tamper.erasing = false ∧ s.rst.phase = .boot ∧ s.power.mode = .bringup :=
  ⟨{ tSrv 5 .update with rst := { phase := .boot }, power := { doms := [(5, { st := .ready })] } }, by decide +kernel, by decide +kernel, by decide +kernel, by decide +kernel, by decide +kernel⟩

theorem witness_DigestAndImages_13_2 : ∃ (s : State),
    let busy := bit s.rst.coreBusy 0
    s.rst.recovery = false ∧ s.domReady 5 = true ∧ s.tamper.erasing = false ∧ s.rst.phase = .done ∧ busy = true ∧ aniseMode s = false ∧ s.power.mode ≠ .guard :=
  ⟨{ tSrv 5 .update with rst := { phase := .done, coreBusy := 1 } , power := { mode := .service, doms := [(5, { st := .ready })] } }, by decide +kernel, by decide +kernel, by decide +kernel, by decide +kernel, by decide +kernel, by decide +kernel, by decide +kernel⟩

end W39

namespace W40

def w_e : LogEv := ⟨1, 2, 3, 4, 5, 6, 7⟩
def w_rest : List LogEv := []
def tT (t : TamperState) (m : Mode) (w : Tab (Option Bytes)) : State := { tSrv 4 .service with tamper := t, power := { mode := m, lcs := .owned, doms := [(2, { st := .ready }), (4, { st := .ready }), (7, { st := .ready })] }, dict := { work := w, force := w } }
def tCo (c : Cond) : TamperState := { conds := [(5, c)] }
def tQ (l : LogState) (doms : Tab Dom) : State := { tSrv 4 .service with log := l, power := { mode := .service, lcs := .owned, doms := doms } }

theorem witness_TamperAndEvidence_0_1 : ∃ (s : State) (code : Byte) (die : Fin 2),
    let d := die.val
    let k := code.toNat
    let c := s.cond k
    (let b := settleEscalation k s
     let z := b.cond k
     c.asserted = true ∧ s.power.mode ≠ .guard ∧ b.dt < z.since + sec 1) ∧
    (let e := respE s k
     c.asserted = true ∧ c.escd = false ∧ e = false ∧ s.cfg (0x7010 + k) 5 ≠ 0 ∧ s.power.mode ≠ .guard) ∧
    (s.domReady (7 + d) = true ∧ pstep s d = 16) ∧
    (pstep s d ≠ 0) :=
  ⟨{ tT (tCo { asserted := true, since := 100 }) .service [(0x701502, some [0]), (0x701505, some [0, 0, 0, 9])] with tamper := { conds := [(5, { asserted := true, since := 100 })], pstep0 := 16 } }, 5, 0, ⟨by decide +kernel, by decide +kernel, by decide +kernel⟩, ⟨by decide +kernel, by decide +kernel, by decide +kernel, by decide +kernel, by decide +kernel⟩, ⟨by decide +kernel, by decide +kernel⟩, by decide +kernel⟩

theorem witness_TamperAndEvidence_0_2 : ∃ (s : State) (code : Byte) (sensor : BitVec 16) (die : Fin 2),
    (let k := code.toNat
     let c := s.cond k
     let e := respE s k
     1 ≤ k ∧ k ≤ 0x11 ∧ s.power.mode ≠ .guard ∧ c.asserted = false ∧ chanOff s k sensor.toNat = false ∧ e = false) ∧
    (let d := die.val
     s.domReady (7 + d) = true ∧ pstep s d < 16) :=
  ⟨tT {} .service [(0x701502, some [0])], 5, 7, 0, ⟨by decide +kernel, by decide +kernel, by decide +kernel, by decide +kernel, by decide +kernel, by decide +kernel⟩, ⟨by decide +kernel, by decide +kernel⟩⟩

theorem witness_TamperAndEvidence_0_3 : ∃ (s : State) (code : Byte) (sensor : BitVec 16),
    let k := code.toNat
    let c := s.cond k
    let e := respE s k
    1 ≤ k ∧ k ≤ 0x11 ∧ s.power.mode ≠ .guard ∧ c.asserted = false ∧ chanOff s k sensor.toNat = false ∧ e = true ∧ s.tamper.erasing = false :=
  ⟨tT {} .service [(0x701502, some [1])], 5, 7, by decide +kernel, by decide +kernel, by decide +kernel, by decide +kernel, by decide +kernel, by decide +kernel, by decide +kernel⟩

theorem witness_TamperAndEvidence_0_4 : ∃ (s : State) (code : Byte),
    let k := code.toNat
    let c := s.cond k
    let b := settleEscalation k s
    let z := b.cond k
    c.asserted = true ∧ s.power.mode ≠ .guard ∧ z.since + sec 1 ≤ b.dt :=
  ⟨{ tT (tCo { asserted := true, since := 100 }) .service [(0x701502, some [0]), (0x701505, some [0, 0, 0, 9])] with dt := 2000000000 }, 5, by decide +kernel, by decide +kernel, by decide +kernel⟩

theorem witness_TamperAndEvidence_0_5 : ∃ (s : State) (code : Byte),
    let k := code.toNat
    let c := s.cond k
    c.asserted = true ∧ s.power.mode = .guard :=
  ⟨tT (tCo { asserted := true, since := 100 }) .guard [], 5, by decide +kernel, by decide +kernel⟩

theorem witness_TamperAndEvidence_1_1 : ∃ (s : State) (k : Nat) (v : Word),
    (pstep s 0 = 0 ∧ pstep s 1 = 0) ∧
    (v ≠ 0x5A3C96E1) ∧
    (s.tamper.erasing = true ∧ sweepsDone s = true ∧ (s.aud 0).run = false ∧ (s.aud 1).run = false) ∧
    (s.tamper.learn = some k) :=
  ⟨tT { erasing := true, learn := some 0 } .service [], 0, 0x5A3C96E0, ⟨by decide +kernel, by decide +kernel⟩, by decide +kernel, ⟨by decide +kernel, by decide +kernel, by decide +kernel, by decide +kernel⟩, by decide +kernel⟩

theorem witness_TamperAndEvidence_1_2 : ∃ (s : State) (v : Word),
    ((4 ≤ pstep s 0 ∨ 4 ≤ pstep s 1)) ∧
    (s.power.mode ≠ .guard ∧ v = 0x5A3C96E1) :=
  ⟨tT { pstep0 := 5 } .service [], 0x5A3C96E1, by decide +kernel, ⟨by decide +kernel, by decide +kernel⟩⟩

theorem witness_TamperAndEvidence_1_3 : ∃ (s : State),
    s.power.mode = .guard :=
  ⟨tT {} .guard [], by decide +kernel⟩

theorem witness_TamperAndEvidence_2_1 : ∃ (s : State) (e : LogEv) (rest : List LogEv),
    s.power.mode ≠ .guard ∧ s.log.queue = e :: rest ∧ s.domReady 4 = false :=
  ⟨tQ { queue := [w_e] } [], w_e, [], by decide +kernel, by decide +kernel, by decide +kernel⟩

theorem witness_TamperAndEvidence_2_2 : ∃ (s : State) (e : LogEv) (rest : List LogEv),
    let u := { s with log := { s.log with queue := s.log.queue.erase (firstEv e rest) } }
    let t := writeEntry (firstEv e rest) u
    let open_ (x : State) : Prop := s.power.mode ≠ .guard ∧ s.domReady 4 = true ∧ x.log.full = false ∧ regionReadOnly x 12 = false
    open_ u ∧ s.log.guardQ = [] ∧ s.log.queue = e :: rest ∧ t.log.count ≠ 4095 :=
  ⟨tQ { queue := [w_e] } [(4, { st := .ready })], w_e, [], ⟨by decide +kernel, by decide +kernel, by decide +kernel, by decide +kernel⟩, by decide +kernel, by decide +kernel, by decide +kernel⟩

theorem witness_TamperAndEvidence_2_3 : ∃ (s : State) (e : LogEv) (rest : List LogEv),
    let w := { s with log := { s.log with guardQ := rest } }
    let open_ (x : State) : Prop := s.power.mode ≠ .guard ∧ s.domReady 4 = true ∧ x.log.full = false ∧ regionReadOnly x 12 = false
    open_ w ∧ s.log.guardQ = e :: rest ∧ (writeEntry e w).log.count ≠ 4095 :=
  ⟨tQ { guardQ := [w_e] } [(4, { st := .ready })], w_e, [], ⟨by decide +kernel, by decide +kernel, by decide +kernel, by decide +kernel⟩, by decide +kernel, by decide +kernel⟩

theorem witness_TamperAndEvidence_2_4 : ∃ (s : State) (e : LogEv) (rest : List LogEv),
    s.power.mode ≠ .guard ∧ s.domReady 4 = true ∧ s.log.guardQ = [] ∧ s.log.queue = e :: rest ∧ s.log.full = true :=
  ⟨tQ { queue := [w_e], full := true } [(4, { st := .ready })], w_e, [], by decide +kernel, by decide +kernel, by decide +kernel, by decide +kernel, by decide +kernel⟩

theorem witness_TamperAndEvidence_3_1 : ∃ (s t : State) (r : Req) (role : Nat),
    Granted s (reqWith r [0x5A]) 0x7000 6 t role [0x5A] :=
  ⟨tSrv 4 .ceremony, tG (tReq 2 0x7000 6 [0x5A]) (tSrv 4 .ceremony), tReq 2 0x7000 6 [0x5A], 4, granted_of (i0 := 0x7000) (u0 := 6) (d := [0x5A]) rfl (by decide +kernel) (by decide +kernel) (by decide +kernel) (by decide +kernel)⟩

theorem witness_TamperAndEvidence_3_2 : ∃ (s t : State) (r : Req) (role : Nat) (code : Fin 17) (v : Bytes),
    let row := 0x7011 + code.val
    Granted s r row 2 t role v ∧ tamperWritable t role = true ∧ responseRange (code.val + 1) t v = true ∧ beNat v = 0 :=
  ⟨tSrv 4 .ceremony, tG (tReq 2 0x7015 2 [0]) (tSrv 4 .ceremony), tReq 2 0x7015 2 [0], 4, 4, [0], granted_of (i0 := 0x7015) (u0 := 2) (d := [0]) rfl (by decide +kernel) (by decide +kernel) (by decide +kernel) (by decide +kernel), by decide +kernel, by decide +kernel, by decide +kernel⟩

theorem witness_TamperAndEvidence_3_3 : ∃ (s t : State) (r : Req) (role : Nat) (code : Fin 17) (v : Bytes),
    let row := 0x7011 + code.val
    let stored := logConfig 1 row 2 (t.setEnt row 2 v)
    Granted s r row 2 t role v ∧ tamperWritable t role = true ∧ beNat v = 1 ∧ (stored.cond (code.val + 1)).asserted = true :=
  ⟨{ tSrv 4 .ceremony with tamper := tCo { asserted := true } }, tG (tReq 2 0x7015 2 [1]) ({ tSrv 4 .ceremony with tamper := tCo { asserted := true } }), tReq 2 0x7015 2 [1], 4, 4, [1], granted_of (i0 := 0x7015) (u0 := 2) (d := [1]) rfl (by decide +kernel) (by decide +kernel) (by decide +kernel) (by decide +kernel), by decide +kernel, by decide +kernel, by decide +kernel⟩

theorem witness_TamperAndEvidence_3_4 : ∃ (s t : State) (r : Req) (role k : Nat),
    Granted s (reqWith r [1]) 0x7070 1 t role [1] ∧ tamperWritable t role = true ∧ CanBegin t 0x7070 1 k :=
  ⟨tSrv 4 .ceremony, tG (tReq 2 0x7070 1 [1]) (tSrv 4 .ceremony), tReq 2 0x7070 1 [1], 4, 0, granted_of (i0 := 0x7070) (u0 := 1) (d := [1]) rfl (by decide +kernel) (by decide +kernel) (by decide +kernel) (by decide +kernel), by decide +kernel, ⟨by decide +kernel, by decide +kernel, by decide +kernel, by decide +kernel⟩⟩

theorem witness_TamperAndEvidence_3_5 : ∃ (s t : State) (r : Req) (role : Nat) (n : Fin 6),
    Granted s (reqWith r [1]) (0x7060 + n.val) 4 t role [1] ∧ tamperWritable t role = true :=
  ⟨tSrv 4 .ceremony, tG (tReq 2 0x7062 4 [1]) (tSrv 4 .ceremony), tReq 2 0x7062 4 [1], 4, 2, granted_of (i0 := 0x7062) (u0 := 4) (d := [1]) rfl (by decide +kernel) (by decide +kernel) (by decide +kernel) (by decide +kernel), by decide +kernel⟩

theorem witness_TamperAndEvidence_3_6 : ∃ (s t : State) (r : Req) (role k : Nat) (v : Bytes),
    let rb := begun t 0x7103 1 role .none k
    Granted s r 0x7103 1 t role v ∧ inCeremony t role = true ∧ rollRange t v = true ∧ CanBegin t 0x7103 1 k ∧ regionReadOnly rb 12 = false :=
  ⟨{ tSrv 4 .ceremony with log := { count := 3, seq := 9 } }, tG (tReq 2 0x7103 1 [0, 0, 0, 8]) ({ tSrv 4 .ceremony with log := { count := 3, seq := 9 } }), tReq 2 0x7103 1 [0, 0, 0, 8], 4, 0, [0, 0, 0, 8], granted_of (i0 := 0x7103) (u0 := 1) (d := [0, 0, 0, 8]) rfl (by decide +kernel) (by decide +kernel) (by decide +kernel) (by decide +kernel), by decide +kernel, by decide +kernel, ⟨by decide +kernel, by decide +kernel, by decide +kernel, by decide +kernel⟩, by decide +kernel⟩

theorem witness_TamperAndEvidence_3_7 : ∃ (s t : State) (r : Req) (role k : Nat),
    let sb := begun t 0x7102 2 role .none k
    Granted s (reqWith r [1]) 0x7102 2 t role [1] ∧ CanBegin t 0x7102 2 k ∧ sb.power.lcs ≠ .retired ∧ sb.key.rootSt ≠ 5 ∧ sb.key.root ≠ [] :=
  ⟨{ tSrv 4 .ceremony with key := { root := [1] } }, tG (tReq 2 0x7102 2 [1]) ({ tSrv 4 .ceremony with key := { root := [1] } }), tReq 2 0x7102 2 [1], 4, 0, granted_of (i0 := 0x7102) (u0 := 2) (d := [1]) rfl (by decide +kernel) (by decide +kernel) (by decide +kernel) (by decide +kernel), ⟨by decide +kernel, by decide +kernel, by decide +kernel, by decide +kernel⟩, by decide +kernel, by decide +kernel, by decide +kernel⟩

theorem witness_TamperAndEvidence_3_8 : ∃ (s t : State) (r : Req) (role : Nat) (v : Bytes),
    Granted s r 0x7000 8 t role v :=
  ⟨tSrv 4 .ceremony, tG (tReq 2 0x7000 8 [0, 0, 0, 8]) (tSrv 4 .ceremony), tReq 2 0x7000 8 [0, 0, 0, 8], 4, [0, 0, 0, 8], granted_of (i0 := 0x7000) (u0 := 8) (d := [0, 0, 0, 8]) rfl (by decide +kernel) (by decide +kernel) (by decide +kernel) (by decide +kernel)⟩

end W40

namespace W41

def w_ini : Nat := 5
def tF (st : DomState) : State := { tSrv 4 .service with power := { mode := .service, lcs := .owned, doms := [(2, { st := st })] } }
def tFa (ini : Byte) (addr : BitVec 40) : FabAccess := ⟨ini, addr, false, false, 4, []⟩
def tWin (w : Window) : State := { tSrv 4 .service with act := { tabs := [(2, { wins := [(5, w)] })] } }

theorem witness_FabricAccesses_0_1 : ∃ (s : State) (a : FabAccess),
    let ini := a.ini.toNat
    let addr := a.addr.toNat
    let kind := if a.fetch then 2 else if a.write then 1 else 0
    let c := judge s ini addr kind
    c ≠ 0 ∧
    (issued ini = true) :=
  ⟨tF .ready, tFa 0x10 0x0500000000, by decide +kernel, by decide +kernel⟩

theorem witness_FabricAccesses_0_2 : ∃ (s : State) (a : FabAccess),
    let ini := a.ini.toNat
    let addr := a.addr.toNat
    let kind := if a.fetch then 2 else if a.write then 1 else 0
    let c := judge s ini addr kind
    let dom := accDomain s addr
    issued ini = true ∧ c = 0 ∧ s.domReady dom = true :=
  ⟨tF .ready, tFa 0x61 0x0200000000, by decide +kernel, by decide +kernel, by decide +kernel⟩

theorem witness_FabricAccesses_0_3 : ∃ (s : State) (a : FabAccess),
    let ini := a.ini.toNat
    let addr := a.addr.toNat
    let kind := if a.fetch then 2 else if a.write then 1 else 0
    let c := judge s ini addr kind
    let dom := accDomain s addr
    issued ini = true ∧ c = 0 ∧ s.domReady dom = false ∧ ((s.dom dom).st = .retry ∨ (s.dom dom).st = .fenced) :=
  ⟨tF .fenced, tFa 0x61 0x0200000000, by decide +kernel, by decide +kernel, by decide +kernel, by decide +kernel⟩

theorem witness_FabricAccesses_0_4 : ∃ (s : State) (a : FabAccess),
    let ini := a.ini.toNat
    let addr := a.addr.toNat
    let kind := if a.fetch then 2 else if a.write then 1 else 0
    let c := judge s ini addr kind
    let dom := accDomain s addr
    issued ini = true ∧ c = 0 ∧ s.domReady dom = false ∧ (s.dom dom).st ≠ .retry ∧ (s.dom dom).st ≠ .fenced ∧ (wakeFor dom ini s).domReady dom = false :=
  ⟨tF .off, tFa 0x61 0x0200000000, by decide +kernel, by decide +kernel, by decide +kernel, by decide +kernel, by decide +kernel, by decide +kernel⟩

theorem witness_FabricAccesses_1_1 : ∃ (s : State) (ini : Byte) (addr : BitVec 40) (write : Bool) (len : Fin 65) (data : Bytes),
    let n := if write then data.length else len.val
    let c := judge s ini.toNat addr.toNat (b2n write)
    1 ≤ n ∧ addr.toNat % 64 + n ≤ 64 ∧ ((issued ini.toNat = true ∧ ini.toNat < 0x60) ∨ ini = 0x78) ∧ c ≠ 0 :=
  ⟨tF .ready, 0x10, 0x0500000000, true, 0, [1], by decide +kernel, by decide +kernel, by decide +kernel, by decide +kernel⟩

theorem witness_FabricAccesses_1_2 : ∃ (s : State) (ini : Byte) (addr : BitVec 40) (write : Bool) (len : Fin 65) (data : Bytes),
    let n := if write then data.length else len.val
    let c := judge s ini.toNat addr.toNat (b2n write)
    1 ≤ n ∧ addr.toNat % 64 + n ≤ 64 ∧ ((issued ini.toNat = true ∧ ini.toNat < 0x60) ∨ ini = 0x78) ∧ c = 0 :=
  ⟨tF .ready, 0x40, 0x0001000000, false, 8, [1], by decide +kernel, by decide +kernel, by decide +kernel, by decide +kernel⟩

theorem witness_FabricAccesses_2_1 : ∃ (s : State) (die : Fin 4) (n : Fin 64),
    let w := (s.actTab die.val).win n.val
    (winLocked s w = false ∧ w.en = false) ∧
    (w.lock = false) :=
  ⟨tWin {}, 2, 5, ⟨by decide +kernel, by decide +kernel⟩, by decide +kernel⟩

theorem witness_FabricAccesses_2_2 : ∃ (s : State) (die : Fin 4) (n : Fin 64),
    let w := (s.actTab die.val).win n.val
    ((winLocked s w = true ∨ w.en = true)) ∧
    (w.lock = true) :=
  ⟨tWin { lock := true }, 2, 5, by decide +kernel, by decide +kernel⟩

theorem witness_FabricAccesses_3_1 : ∃ (s t : State) (r : Req) (role : Nat) (v : Bytes),
    let idx := r.index.toNat
    let sub := r.sub.toNat
    Granted s r idx sub t role v ∧ winEntRange idx sub t v = true ∧ 0x7810 ≤ idx ∧ idx ≤ 0x781F :=
  ⟨tSrv 4 .service, tG (tReq 2 0x7811 1 (beBytes (2 ^ 36) 8)) (tSrv 4 .service), tReq 2 0x7811 1 (beBytes (2 ^ 36) 8), 4, beBytes (2 ^ 36) 8, granted_of (i0 := 0x7811) (u0 := 1) (d := (beBytes (2 ^ 36) 8)) rfl (by decide +kernel) (by decide +kernel) (by decide +kernel) (by decide +kernel), by decide +kernel, by decide +kernel, by decide +kernel⟩

theorem witness_FabricAccesses_3_2 : ∃ (s t : State) (r : Req) (role : Nat) (v : Bytes),
    let idx := r.index.toNat
    let sub := r.sub.toNat
    Granted s r idx sub t role v ∧ winEntRange idx sub t v = true ∧ 0x7830 ≤ idx ∧ idx ≤ 0x783F :=
  ⟨tSrv 4 .service, tG (tReq 2 0x7831 1 (beBytes 0x02600000 4)) (tSrv 4 .service), tReq 2 0x7831 1 (beBytes 0x02600000 4), 4, beBytes 0x02600000 4, granted_of (i0 := 0x7831) (u0 := 1) (d := (beBytes 0x02600000 4)) rfl (by decide +kernel) (by decide +kernel) (by decide +kernel) (by decide +kernel), by decide +kernel, by decide +kernel, by decide +kernel⟩

theorem witness_UnmappedRegions_0_1 : ∃ (addr : Nat),
    isRegion (addr / 2 ^ 32) = false :=
  ⟨0x0500000000, by decide +kernel⟩

theorem witness_UnmappedRegions_1_1 : ∃ (a : FabAccess),
    isRegion (a.addr.toNat / 2 ^ 32) = false ∧ issued a.ini.toNat = true :=
  ⟨tFa 0x10 0x0500000000, by decide +kernel, by decide +kernel⟩

end W41

namespace W42

def w_f : Nat := 4
def tP (d : Nat) (v : Dom) (p : PowerState) (w : Tab (Option Bytes)) : State := { tSrv 4 .service with power := { p with doms := [(d, v)] }, dict := { work := w, force := w } }
def tCm : State := { tSrv 4 .ceremony with unit := { epoch := { cur := some { num := 1, mode := 4 } } }, power := { (tSrv 4 .ceremony).power with retMode := 4 } }

theorem witness_PowerDomains_0_1 : ∃ (s : State) (d due src : Nat),
    (s.power.deepFrom = some due) ∧
    (d ≤ 32 ∧ 1 ≤ src ∧ src ≤ 0x0C) ∧
    (let v := s.dom d
     d ≤ 32 ∧ 1 ≤ src ∧ src ≤ 0x0C ∧ v.st = .off) :=
  ⟨tP 11 { st := .off } { mode := .doze, deepFrom := some 9000 } [], 11, 9000, 3, by decide +kernel, ⟨by decide +kernel, by decide +kernel, by decide +kernel⟩, ⟨by decide +kernel, by decide +kernel, by decide +kernel, by decide +kernel⟩⟩

theorem witness_PowerDomains_0_2 : ∃ (s : State) (d : Nat),
    let v := s.dom d
    v.st = .up ∧
    ((hasTimer d = true → s.rst.trngFailed = false) ∧ s.act.stall = [] ∧ s.dict.stalled = []) :=
  ⟨tP 11 { st := .up, since := 4000 } { mode := .service } [], 11, by decide +kernel, ⟨by decide +kernel, by decide +kernel, by decide +kernel⟩⟩

theorem witness_PowerDomains_0_3 : ∃ (s : State) (d due : Nat),
    let v := s.dom d
    let a := s.at due
    v.idleDue = some due ∧ hasTimer d = true ∧ v.st = .ready ∧ domRefuser a d = none :=
  ⟨tP 11 { st := .ready, idleDue := some 9000 } { mode := .service } [], 11, 9000, by decide +kernel, by decide +kernel, by decide +kernel, by decide +kernel⟩

theorem witness_PowerDomains_0_4 : ∃ (s : State) (d due : Nat),
    let v := s.dom d
    let a := s.at due
    let f := w_f
    v.idleDue = some due ∧ hasTimer d = true ∧ v.st = .ready ∧ domRefuser a d = some f :=
  ⟨tP 11 { st := .ready, idleDue := some 9000 } { mode := .service, holdQuads := true } [], 11, 9000, by decide +kernel, by decide +kernel, by decide +kernel, by decide +kernel⟩

theorem witness_PowerDomains_0_5 : ∃ (s : State) (d : Nat),
    let v := s.dom d
    d ≠ 0x41 ∧ (v.st = .entry ∨ v.st = .down) :=
  ⟨tP 11 { st := .entry, since := 4000 } { mode := .guard } [], 11, by decide +kernel, by decide +kernel⟩

theorem witness_PowerDomains_0_6 : ∃ (s : State) (d : Nat),
    let v := s.dom d
    v.st = .retry :=
  ⟨tP 11 { st := .retry, since := 4000 } { mode := .doze } [], 11, by decide +kernel⟩

theorem witness_PowerDomains_1_1 : ∃ (s : State),
    s.power.deepFrom = none ∧
    (let dozed := s.at (s.power.dozeSince + ms (s.cfg 0x8000 4))
     s.power.mode = .doze ∧ s.cfg 0x8000 4 ≠ 0 ∧ deepRefuser dozed = none) ∧
    (s.power.mode ≠ .deep) :=
  ⟨{ tP 11 { st := .off } { mode := .doze } [(0x800004, some [1]), (0x800005, some [255])] with port := {} }, by decide +kernel, ⟨by decide +kernel, by decide +kernel, by decide +kernel⟩, by decide +kernel⟩

theorem witness_PowerDomains_1_2 : ∃ (s : State),
    let dozed := s.at (s.power.dozeSince + ms (s.cfg 0x8000 4))
    let f := w_f
    s.power.mode = .doze ∧ s.cfg 0x8000 4 ≠ 0 ∧ s.power.deepFrom = none ∧ deepRefuser dozed = some f :=
  ⟨tP 11 { st := .off } { mode := .doze, holdDeep := true } [(0x800004, some [1]), (0x800005, some [255])], by decide +kernel, by decide +kernel, by decide +kernel, by decide +kernel⟩

theorem witness_PowerDomains_1_3 : ∃ (s : State) (src idx : Nat),
    s.power.mode = .deep ∧ deepSource s src idx = true :=
  ⟨tP 11 { st := .off } { mode := .deep } [(0x800004, some [1]), (0x800005, some [255])], 7, 3, by decide +kernel, by decide +kernel⟩

theorem witness_PowerDomains_1_4 : ∃ (s : State) (src idx : Nat),
    s.power.mode = .deep ∧ deepSource s src idx = false :=
  ⟨tP 11 { st := .off } { mode := .deep } [(0x800004, some [1]), (0x800005, some [255])], 2, 3, by decide +kernel, by decide +kernel⟩

theorem witness_PowerDomains_1_5 : ∃ (s : State) (src idx from_ : Nat),
    s.power.mode ≠ .deep ∧ s.power.deepFrom = some from_ ∧ deepSource s src idx = true ∧ s.dt - from_ < aclk 80 :=
  ⟨{ tP 11 { st := .off } { mode := .doze, deepFrom := some 9000 } [(0x800004, some [1]), (0x800005, some [255])] with dt := 9050 }, 7, 3, 9000, by decide +kernel, by decide +kernel, by decide +kernel, by decide +kernel⟩

theorem witness_PowerDomains_1_6 : ∃ (s : State) (src idx from_ : Nat),
    s.power.mode ≠ .deep ∧ s.power.deepFrom = some from_ ∧ deepSource s src idx = true ∧ aclk 80 ≤ s.dt - from_ :=
  ⟨{ tP 11 { st := .off } { mode := .doze, deepFrom := some 9000 } [(0x800004, some [1]), (0x800005, some [255])] with dt := 99900 }, 7, 3, 9000, by decide +kernel, by decide +kernel, by decide +kernel, by decide +kernel⟩

theorem witness_PowerDomains_2_1 : ∃ (s : State) (port : Fin 2),
    (s.power.mode = .deep ∨ s.power.deepFrom.isSome = true) ∧ s.cfg (0x2041 + port.val) 3 ≠ 1 :=
  ⟨tP 11 { st := .off } { mode := .deep } [(0x204103, some [0])], 0, by decide +kernel, by decide +kernel⟩

theorem witness_PowerDomains_2_2 : ∃ (s : State) (port : Fin 2),
    s.power.mode = .deep ∧ s.cfg (0x2041 + port.val) 3 = 1 :=
  ⟨tP 11 { st := .off } { mode := .deep } [(0x204103, some [1])], 0, by decide +kernel, by decide +kernel⟩

theorem witness_PowerDomains_2_3 : ∃ (s : State) (port : Fin 2),
    s.power.deepFrom.isSome = true ∧ s.cfg (0x2041 + port.val) 3 = 1 :=
  ⟨tP 11 { st := .off } { mode := .doze, deepFrom := some 0 } [(0x204103, some [1])], 0, by decide +kernel, by decide +kernel⟩

theorem witness_PowerDomains_3_1 : ∃ (s : State) (level : Bool) (pin : Fin 6),
    (s.power.mode ≠ .guard ∧ bit s.power.gpIn pin.val ≠ level ∧ ¬ (bit s.power.gpOe pin.val = true ∧ bit s.power.gpOut pin.val = false ∧ level = true) ∧ s.power.mode ≠ .deep ∧ s.power.deepFrom = none) ∧
    (s.power.mode ≠ .guard ∧ bit s.power.gpIn pin.val ≠ level ∧ ¬ (bit s.power.gpOe pin.val = true ∧ bit s.power.gpOut pin.val = false ∧ level = true)) ∧
    (bit s.power.gpOe pin.val = true ∧ bit s.power.gpOut pin.val = false) :=
  ⟨tP 11 { st := .off } { mode := .service, gpIn := 8, gpOe := 8, gpOut := 0 } [(0x800005, some [255])], false, 3, ⟨by decide +kernel, by decide +kernel, by decide +kernel, by decide +kernel, by decide +kernel⟩, ⟨by decide +kernel, by decide +kernel, by decide +kernel⟩, ⟨by decide +kernel, by decide +kernel⟩⟩

theorem witness_PowerDomains_4_1 : ∃ (s : State),
    s.cfg 0x8000 8 ≠ 0 ∧ s.cfg 0x8000 8 ≤ rtcSec s ∧
    (s.power.mode = .deep ∧ bit (s.cfg 0x8000 5) 6 = true) :=
  ⟨{ tP 11 { st := .off } { mode := .deep } [(0x800005, some [255]), (0x800008, some [9])] with tamper := { rtcs := 327680000 } }, by decide +kernel, by decide +kernel, ⟨by decide +kernel, by decide +kernel⟩⟩

theorem witness_PowerDomains_4_2 : ∃ (s : State),
    rtcSec s < s.cfg 0x8000 8 :=
  ⟨tP 11 { st := .off } { mode := .service } [(0x800008, some [9])], by decide +kernel⟩

theorem witness_PowerDomains_6_1 : ∃ (s : State),
    s.power.mode ≠ .guard :=
  ⟨tP 11 { st := .off } { mode := .service } [], by decide +kernel⟩

theorem witness_PowerDomains_6_2 : ∃ (s : State),
    s.power.mode = .guard :=
  ⟨tP 11 { st := .off } { mode := .guard } [], by decide +kernel⟩

theorem witness_ModeRequests_0_1 : ∃ (s t : State) (r : Req) (role k : Nat),
    let q (n : Nat) : Req := reqWith r [BitVec.ofNat 8 n]
    Heard s (q 0x04) 2 t role ∧ modeAllowed t.power.lcs .service = true ∧ isMs r.tr = false ∧ requestRight t role 0x04 = true ∧ requestMode t ≠ .service ∧ requestFrom t 0x04 = true ∧ changePending t = false ∧ CanBegin t 0x1100 5 k :=
  ⟨tSrv 4 .bypass, tG (tReq 2 0x1100 5 [4]) (tSrv 4 .bypass), tReq 2 0x1100 5 [4], 4, 0, heard_of (idx := 0x1100) (sub := 5) (d := [4]) rfl (by decide +kernel) (by decide +kernel) (by decide +kernel), by decide +kernel, by decide +kernel, by decide +kernel, by decide +kernel, by decide +kernel, by decide +kernel, ⟨by decide +kernel, by decide +kernel, by decide +kernel, by decide +kernel⟩⟩

theorem witness_ModeRequests_0_2 : ∃ (s t : State) (r : Req) (role : Nat),
    let q (n : Nat) : Req := reqWith r [BitVec.ofNat 8 n]
    Heard s (q 0x04) 2 t role ∧ modeAllowed t.power.lcs .service = true ∧ isMs r.tr = false ∧ requestRight t role 0x04 = true ∧ requestMode t = .service :=
  ⟨tSrv 4 .service, tG (tReq 2 0x1100 5 [4]) (tSrv 4 .service), tReq 2 0x1100 5 [4], 4, heard_of (idx := 0x1100) (sub := 5) (d := [4]) rfl (by decide +kernel) (by decide +kernel) (by decide +kernel), by decide +kernel, by decide +kernel, by decide +kernel, by decide +kernel⟩

theorem witness_ModeRequests_0_3 : ∃ (s t : State) (r : Req) (role k : Nat),
    let q (n : Nat) : Req := reqWith r [BitVec.ofNat 8 n]
    Heard s (q 0x02) 2 t role ∧ modeAllowed t.power.lcs .bypass = true ∧ isMs r.tr = false ∧ requestRight t role 0x02 = true ∧ requestMode t ≠ .bypass ∧ requestFrom t 0x02 = true ∧ changePending t = false ∧ CanBegin t 0x1100 5 k :=
  ⟨tSrv 4 .service, tG (tReq 2 0x1100 5 [2]) (tSrv 4 .service), tReq 2 0x1100 5 [2], 4, 0, heard_of (idx := 0x1100) (sub := 5) (d := [2]) rfl (by decide +kernel) (by decide +kernel) (by decide +kernel), by decide +kernel, by decide +kernel, by decide +kernel, by decide +kernel, by decide +kernel, by decide +kernel, ⟨by decide +kernel, by decide +kernel, by decide +kernel, by decide +kernel⟩⟩

theorem witness_ModeRequests_0_4 : ∃ (s t : State) (r : Req) (role : Nat),
    let q (n : Nat) : Req := reqWith r [BitVec.ofNat 8 n]
    Heard s (q 0x02) 2 t role ∧ modeAllowed t.power.lcs .bypass = true ∧ isMs r.tr = false ∧ requestRight t role 0x02 = true ∧ requestMode t = .bypass :=
  ⟨tSrv 4 .bypass, tG (tReq 2 0x1100 5 [2]) (tSrv 4 .bypass), tReq 2 0x1100 5 [2], 4, heard_of (idx := 0x1100) (sub := 5) (d := [2]) rfl (by decide +kernel) (by decide +kernel) (by decide +kernel), by decide +kernel, by decide +kernel, by decide +kernel, by decide +kernel⟩

theorem witness_ModeRequests_0_5 : ∃ (s t : State) (r : Req) (role k : Nat),
    let q (n : Nat) : Req := reqWith r [BitVec.ofNat 8 n]
    Heard s (q 0x09) 2 t role ∧ modeAllowed t.power.lcs .update = true ∧ isMs r.tr = false ∧ requestRight t role 0x09 = true ∧ requestMode t ≠ .update ∧ requestFrom t 0x09 = true ∧ changePending t = false ∧ CanBegin t 0x1100 5 k :=
  ⟨tSrv 4 .service, tG (tReq 2 0x1100 5 [9]) (tSrv 4 .service), tReq 2 0x1100 5 [9], 4, 0, heard_of (idx := 0x1100) (sub := 5) (d := [9]) rfl (by decide +kernel) (by decide +kernel) (by decide +kernel), by decide +kernel, by decide +kernel, by decide +kernel, by decide +kernel, by decide +kernel, by decide +kernel, ⟨by decide +kernel, by decide +kernel, by decide +kernel, by decide +kernel⟩⟩

theorem witness_ModeRequests_0_6 : ∃ (s t : State) (r : Req) (role k : Nat),
    let q (n : Nat) : Req := reqWith r [BitVec.ofNat 8 n]
    Heard s (q 0x03) 2 t role ∧ modeAllowed t.power.lcs .ceremony = true ∧ isMs r.tr = false ∧ requestRight t role 0x03 = true ∧ requestMode t ≠ .ceremony ∧ requestFrom t 0x03 = true ∧ changePending t = false ∧ CanBegin t 0x1100 5 k :=
  ⟨tSrv 4 .service, tG (tReq 2 0x1100 5 [3]) (tSrv 4 .service), tReq 2 0x1100 5 [3], 4, 0, heard_of (idx := 0x1100) (sub := 5) (d := [3]) rfl (by decide +kernel) (by decide +kernel) (by decide +kernel), by decide +kernel, by decide +kernel, by decide +kernel, by decide +kernel, by decide +kernel, by decide +kernel, ⟨by decide +kernel, by decide +kernel, by decide +kernel, by decide +kernel⟩⟩

theorem witness_ModeRequests_0_7 : ∃ (s t : State) (r : Req) (role k : Nat),
    let q (n : Nat) : Req := reqWith r [BitVec.ofNat 8 n]
    let b := begun t 0x1100 5 role .none k
    Heard s (q 0x0F) 2 t role ∧ modeAllowed t.power.lcs (Mode.ofCode t.power.retMode) = true ∧ isMs r.tr = false ∧ requestRight t role 0x0F = true ∧ requestFrom t 0x0F = true ∧ changePending t = false ∧ CanBegin t 0x1100 5 k ∧ requestMode b = .ceremony :=
  ⟨tCm, tG (tReq 2 0x1100 5 [15]) (tCm), tReq 2 0x1100 5 [15], 4, 0, heard_of (idx := 0x1100) (sub := 5) (d := [15]) rfl (by decide +kernel) (by decide +kernel) (by decide +kernel), by decide +kernel, by decide +kernel, by decide +kernel, by decide +kernel, by decide +kernel, ⟨by decide +kernel, by decide +kernel, by decide +kernel, by decide +kernel⟩, by decide +kernel⟩

theorem witness_ModeRequests_0_8 : ∃ (s t : State) (r : Req) (role k : Nat),
    let q (n : Nat) : Req := reqWith r [BitVec.ofNat 8 n]
    let b := begun t 0x1100 5 role .none k
    Heard s (q 0x0F) 2 t role ∧ modeAllowed t.power.lcs (Mode.ofCode t.power.retMode) = true ∧ isMs r.tr = false ∧ requestRight t role 0x0F = true ∧ requestFrom t 0x0F = true ∧ changePending t = false ∧ CanBegin t 0x1100 5 k ∧ requestMode b ≠ .ceremony :=
  ⟨{ tCm with power := { tCm.power with mode := .update } }, tG (tReq 2 0x1100 5 [15]) ({ tCm with power := { tCm.power with mode := .update } }), tReq 2 0x1100 5 [15], 4, 0, heard_of (idx := 0x1100) (sub := 5) (d := [15]) rfl (by decide +kernel) (by decide +kernel) (by decide +kernel), by decide +kernel, by decide +kernel, by decide +kernel, by decide +kernel, by decide +kernel, ⟨by decide +kernel, by decide +kernel, by decide +kernel, by decide +kernel⟩, by decide +kernel⟩

theorem witness_ModeRequests_0_9 : ∃ (s t : State) (r : Req) (role : Nat),
    let q (n : Nat) : Req := reqWith r [BitVec.ofNat 8 n]
    Heard s (q 0x09) 2 t role ∧ modeAllowed t.power.lcs .update = true ∧ isMs r.tr = false ∧ requestRight t role 0x09 = true ∧ requestMode t = .update :=
  ⟨tSrv 4 .update, tG (tReq 2 0x1100 5 [9]) (tSrv 4 .update), tReq 2 0x1100 5 [9], 4, heard_of (idx := 0x1100) (sub := 5) (d := [9]) rfl (by decide +kernel) (by decide +kernel) (by decide +kernel), by decide +kernel, by decide +kernel, by decide +kernel, by decide +kernel⟩

theorem witness_ModeRequests_0_10 : ∃ (s t : State) (r : Req) (role : Nat),
    let q (n : Nat) : Req := reqWith r [BitVec.ofNat 8 n]
    Heard s (q 0x03) 2 t role ∧ modeAllowed t.power.lcs .ceremony = true ∧ isMs r.tr = false ∧ requestRight t role 0x03 = true ∧ requestMode t = .ceremony :=
  ⟨tSrv 4 .ceremony, tG (tReq 2 0x1100 5 [3]) (tSrv 4 .ceremony), tReq 2 0x1100 5 [3], 4, heard_of (idx := 0x1100) (sub := 5) (d := [3]) rfl (by decide +kernel) (by decide +kernel) (by decide +kernel), by decide +kernel, by decide +kernel, by decide +kernel, by decide +kernel⟩

theorem witness_ModeRequests_1_1 : ∃ (s t : State) (r : Req) (role k : Nat),
    let q := reqWith r [1]
    Granted s q 0x1100 7 t role [1] ∧ retireLcs t role = true ∧ retireMode t role = true ∧ CanBegin t 0x1100 7 k :=
  ⟨tSrv 4 .ceremony, tG (tReq 2 0x1100 7 [1]) (tSrv 4 .ceremony), tReq 2 0x1100 7 [1], 4, 0, granted_of (i0 := 0x1100) (u0 := 7) (d := [1]) rfl (by decide +kernel) (by decide +kernel) (by decide +kernel) (by decide +kernel), by decide +kernel, by decide +kernel, ⟨by decide +kernel, by decide +kernel, by decide +kernel, by decide +kernel⟩⟩

theorem witness_ModeRequests_1_2 : ∃ (s t : State) (r : Req) (role : Nat),
    let q := reqWith r [1]
    Granted s q 0x1100 8 t role [1] :=
  ⟨{ tSrv 5 .service with tap := {} }, tG (tReq 2 0x1100 8 [1]) ({ tSrv 5 .service with tap := {} }), tReq 2 0x1100 8 [1], 5, granted_of (i0 := 0x1100) (u0 := 8) (d := [1]) rfl (by decide +kernel) (by decide +kernel) (by decide +kernel) (by decide +kernel)⟩

theorem witness_ModeRequests_2_1 : ∃ (s : State) (end_ : Nat),
    s.tap.armedUntil = some end_ :=
  ⟨{ tSrv 5 .service with tap := { armedUntil := some 9000 } }, 9000, by decide +kernel⟩

end W42

namespace W43

def tB (m : Mode) (r : ResetState) (doms : Tab Dom) : State := { tSrv 4 m with rst := r, power := { mode := m, lcs := .owned, doms := doms } }
def tR8 (idx sub : Nat) (v : Bytes) : State × Req := (tSrv 4 .service, tReq 2 idx sub v)
def tQ8 (doms : Tab Dom) : State := { tSrv 4 .service with power := { mode := .service, lcs := .owned, doms := [(1, { st := .ready }), (2, { st := .ready }), (30, { st := .ready }), (32, { st := .ready })] ++ doms } }
def tT8 (x : TapState) (lcs : Lcs) : State := { tSrv 4 .service with tap := x, power := { mode := .service, lcs := lcs, doms := [(1, { st := .ready }), (2, { st := .ready }), (11, { st := .ready })] } }
def w_d : Nat := 3
def w_o : List Out := []
def w_i : Nat := 0
def w_m : Nat := 0
def w_k : Nat := 0

theorem witness_Resets_0_1 : ∃ (s : State) (key v : BitVec 16) (die : Fin 2),
    (s.power.mode ≠ .guard) ∧
    (s.rst.sysrstHeld = true) ∧
    (key ≠ 0x5253) ∧
    (bit s.rst.coreBusy (die.val + 1) = true ∧ bit s.rst.coreBusy 0 = false) ∧
    (s.rst.wdtEn = true ∧ v = 0x5AA5) ∧
    (s.rst.wdtEn = true) :=
  ⟨{ tSrv 4 .service with rst := { wdtEn := true, sysrstHeld := true, coreBusy := 4 } }, 0x5254, 0x5AA5, 1, by decide +kernel, by decide +kernel, by decide +kernel, ⟨by decide +kernel, by decide +kernel⟩, ⟨by decide +kernel, by decide +kernel⟩, by decide +kernel⟩

theorem witness_Resets_0_2 : ∃ (s : State) (v : BitVec 16),
    (s.power.mode = .guard) ∧
    (s.rst.wdtEn = false ∧ s.rst.recovery = false) ∧
    ((s.rst.wdtEn = false ∨ v ≠ 0x5AA5)) :=
  ⟨tSrv 4 .guard, 0x5AA5, by decide +kernel, ⟨by decide +kernel, by decide +kernel⟩, by decide +kernel⟩

theorem witness_Resets_1_1 : ∃ (s : State) (d : Nat),
    s.power.mode = .bringup ∧ s.rst.sysrstHeld = false ∧ s.rst.porstHeld = false ∧
    (s.rst.phase = .options ∧ s.domReady 4 = true ∧ s.tamper.conds.find? (fun x => x.2.asserted && respE s x.1) = none) ∧
    (s.rst.phase ≠ .halt ∧ nextRelease s = some d ∧ (s.dom d).st = .off ∧ (d = 1 ∨ d = 4 ∨ s.rst.phase ≠ .options)) :=
  ⟨tB .bringup { phase := .options } [(4, { st := .ready })], (nextRelease (tB .bringup { phase := .options } [(4, { st := .ready })])).getD 0, by decide +kernel, by decide +kernel, by decide +kernel, ⟨by decide +kernel, by decide +kernel, by decide +kernel⟩, ⟨by decide +kernel, by decide +kernel, by decide +kernel, by decide +kernel⟩⟩

theorem witness_Resets_1_2 : ∃ (s : State) (c : Nat × Cond),
    s.power.mode = .bringup ∧ s.rst.phase = .options ∧ s.domReady 4 = true ∧ s.rst.sysrstHeld = false ∧ s.rst.porstHeld = false ∧ s.tamper.conds.find? (fun x => x.2.asserted && respE s x.1) = some c ∧ s.power.lcs ≠ .retired :=
  ⟨{ tB .bringup { phase := .options } [(4, { st := .ready })] with tamper := { conds := [(5, { asserted := true, since := 100 })] } }, (5, { asserted := true, since := 100 }), by decide +kernel, by decide +kernel, by decide +kernel, by decide +kernel, by decide +kernel, by decide +kernel, by decide +kernel⟩

theorem witness_Resets_1_3 : ∃ (s : State) (c : Nat × Cond),
    s.power.mode = .bringup ∧ s.rst.phase = .options ∧ s.domReady 4 = true ∧ s.rst.sysrstHeld = false ∧ s.rst.porstHeld = false ∧ s.tamper.conds.find? (fun x => x.2.asserted && respE s x.1) = some c ∧ s.power.lcs = .retired :=
  ⟨{ tB .bringup { phase := .options } [(4, { st := .ready })] with power := { mode := .bringup, lcs := .retired, doms := [(4, { st := .ready })] }, tamper := { conds := [(5, { asserted := true, since := 100 })] } }, (5, { asserted := true, since := 100 }), by decide +kernel, by decide +kernel, by decide +kernel, by decide +kernel, by decide +kernel, by decide +kernel, by decide +kernel⟩

theorem witness_Resets_1_4 : ∃ (s : State),
    s.power.mode = .bringup ∧ s.rst.phase ≠ .halt ∧ s.rst.sysrstHeld = false ∧ s.rst.porstHeld = false ∧ nextRelease s = none :=
  ⟨tB .bringup { phase := .release, kdDone := true } ((List.range 33).map fun x => (x, { st := .ready })), by decide +kernel, by decide +kernel, by decide +kernel, by decide +kernel, by decide +kernel⟩

theorem witness_Resets_1_5 : ∃ (s : State),
    s.power.mode = .bringup ∧ s.rst.kdDone = false ∧ s.rst.phase = .keydie ∧ s.power.lcs ≠ .retired ∧ s.domReady 3 = true :=
  ⟨tB .bringup { phase := .keydie } [(3, { st := .ready })], by decide +kernel, by decide +kernel, by decide +kernel, by decide +kernel, by decide +kernel⟩

theorem witness_Resets_1_6 : ∃ (s : State),
    s.power.mode = .bringup ∧ s.rst.phase = .post :=
  ⟨tB .bringup { phase := .post, trngFailAt := some 4000 } [(3, { st := .ready }), (2, { st := .ready })], by decide +kernel, by decide +kernel⟩

theorem witness_Resets_2_1 : ∃ (s t : State) (r : Req) (role k : Nat) (q : Fin 16) (e : Fin 24) (p : Fin 32),
    let named (kind idx : Nat) : State := { s with rst := { s.rst with blkKind := kind, blkIndex := idx } }
    ((named 1 q.val).domReady (11 + q.val) = true ∧ quadIdle (named 1 q.val) q.val = true) ∧
    (let ask (kind idx : Nat) : Req := reqWith r [byte kind, byte idx]
     let b := begun t 0x8800 0x0A role .none k
     Granted s (ask 1 q.val) 0x8800 0x0A t role [byte 1, byte q.val] ∧ CanBegin t 0x8800 0x0A k ∧ b.domReady (11 + q.val) = true ∧ quadIdle b q.val = true) ∧
    ((named 2 e.val).domReady (9 + e.val / 12) = true ∧ pkUnitIdle (named 2 e.val) e.val = true) ∧
    (portIdle (named 3 p.val) p.val = true) :=
  ⟨tQ8 [(14, { st := .ready }), (9, { st := .ready })], tG (tReq 2 0x8800 10 [1, 3]) (tQ8 [(14, { st := .ready }), (9, { st := .ready })]), tReq 2 0x8800 10 [1, 3], 4, 0, 3, 3, 3, by decide +kernel, ⟨granted_of (i0 := 0x8800) (u0 := 10) (d := [1, 3]) rfl (by decide +kernel) (by decide +kernel) (by decide +kernel) (by decide +kernel), ⟨by decide +kernel, by decide +kernel, by decide +kernel, by decide +kernel⟩, by decide +kernel⟩, by decide +kernel, by decide +kernel⟩

theorem witness_Resets_2_2 : ∃ (s t : State) (r : Req) (role k : Nat) (q : Fin 16) (e : Fin 24),
    let named (kind idx : Nat) : State := { s with rst := { s.rst with blkKind := kind, blkIndex := idx } }
    (¬ ((named 1 q.val).domReady (11 + q.val) = true ∧ quadIdle (named 1 q.val) q.val = true)) ∧
    (¬ ((named 2 e.val).domReady (9 + e.val / 12) = true ∧ pkUnitIdle (named 2 e.val) e.val = true)) ∧
    (Granted s (reqWith r [1]) 0x8800 6 t role [1] ∧ CanBegin t 0x8800 6 k) :=
  ⟨tQ8 [], tG (tReq 2 0x8800 6 [1]) (tQ8 []), tReq 2 0x8800 6 [1], 4, 0, 3, 3, by decide +kernel, by decide +kernel, ⟨granted_of (i0 := 0x8800) (u0 := 6) (d := [1]) rfl (by decide +kernel) (by decide +kernel) (by decide +kernel) (by decide +kernel), ⟨by decide +kernel, by decide +kernel, by decide +kernel, by decide +kernel⟩⟩⟩

theorem witness_Resets_2_3 : ∃ (s t : State) (r : Req) (role k : Nat) (e : Fin 24),
    let ask (kind idx : Nat) : Req := reqWith r [byte kind, byte idx]
    let b := begun t 0x8800 0x0A role .none k
    Granted s (ask 2 e.val) 0x8800 0x0A t role [byte 2, byte e.val] ∧ CanBegin t 0x8800 0x0A k ∧ b.domReady (9 + e.val / 12) = true ∧ pkUnitIdle b e.val = true :=
  ⟨tQ8 [(14, { st := .ready }), (9, { st := .ready })], tG (tReq 2 0x8800 10 [2, 3]) (tQ8 [(14, { st := .ready }), (9, { st := .ready })]), tReq 2 0x8800 10 [2, 3], 4, 0, 3, granted_of (i0 := 0x8800) (u0 := 10) (d := [2, 3]) rfl (by decide +kernel) (by decide +kernel) (by decide +kernel) (by decide +kernel), ⟨by decide +kernel, by decide +kernel, by decide +kernel, by decide +kernel⟩, by decide +kernel⟩

theorem witness_Resets_2_4 : ∃ (s t : State) (r : Req) (role k : Nat) (p : Fin 32),
    let ask (kind idx : Nat) : Req := reqWith r [byte kind, byte idx]
    let b := begun t 0x8800 0x0A role .none k
    Granted s (ask 3 p.val) 0x8800 0x0A t role [byte 3, byte p.val] ∧ CanBegin t 0x8800 0x0A k ∧ portIdle b p.val = true :=
  ⟨tQ8 [(14, { st := .ready }), (9, { st := .ready })], tG (tReq 2 0x8800 10 [3, 3]) (tQ8 [(14, { st := .ready }), (9, { st := .ready })]), tReq 2 0x8800 10 [3, 3], 4, 0, 3, granted_of (i0 := 0x8800) (u0 := 10) (d := [3, 3]) rfl (by decide +kernel) (by decide +kernel) (by decide +kernel) (by decide +kernel), ⟨by decide +kernel, by decide +kernel, by decide +kernel, by decide +kernel⟩, by decide +kernel⟩

theorem witness_Resets_2_5 : ∃ (s t : State) (r : Req) (role k : Nat) (v : Bytes),
    Granted s r 0x8800 7 t role v ∧ CanBegin t 0x8800 7 k :=
  ⟨tQ8 [], tG (tReq 2 0x8800 7 [1]) (tQ8 []), tReq 2 0x8800 7 [1], 4, 0, [1], granted_of (i0 := 0x8800) (u0 := 7) (d := [1]) rfl (by decide +kernel) (by decide +kernel) (by decide +kernel) (by decide +kernel), ⟨by decide +kernel, by decide +kernel, by decide +kernel, by decide +kernel⟩⟩

theorem witness_Resets_2_6 : ∃ (s : State) (p : Fin 32),
    let named (kind idx : Nat) : State := { s with rst := { s.rst with blkKind := kind, blkIndex := idx } }
    ¬ (portIdle (named 3 p.val) p.val = true) :=
  ⟨{ tQ8 [] with port := { srcs := [(3, { line := [⟨tMsg, .waiting, 0⟩] })] } }, 3, by decide +kernel⟩

theorem witness_TestAccessPort_0_1 : ∃ (s : State),
    (s.tap.unlocked = true) ∧
    (tapArmed s = false) :=
  ⟨tT8 { unlocked := true } .owned, by decide +kernel, by decide +kernel⟩

theorem witness_TestAccessPort_0_2 : ∃ (s : State),
    (s.tap.unlocked = false) ∧
    (tapArmed s = true) :=
  ⟨tT8 { armedUntil := some 9000 } .owned, by decide +kernel, by decide +kernel⟩

end W43

namespace W44

def tN (n : NvmState) : State := { tSrv 4 .service with nvm := n, power := { mode := .service, lcs := .owned, doms := [(1, { st := .ready }), (2, { st := .ready }), (4, { st := .ready }), (30, { st := .ready }), (32, { st := .ready })] } }
def tJ : NvmJob := ⟨2, 5, 5, 0⟩
def tN6 (n : NvmState) : State := { tN n with dict := { (tN n).dict with sess := some (tSess 5) } }
def tJ3 : NvmJob := ⟨3, jobOr 4, 5, 0⟩
def tF0 : Tab (Option Nat) := [(0, some 1), (1, some 0), (2, some 0), (64, some 5), (3, some 0), (4, some 0)]
def w_nx : NvmJob := tJ3
def w_more : List NvmJob := []

theorem witness_NonVolatileMemory_0_1 : ∃ (s : State) (j : NvmJob) (rest : List NvmJob),
    (s.domReady 4 = true ∧ s.nvm.base.busy = false ∧ s.nvm.waiting = j :: rest) ∧
    (s.domReady 4 = true ∧ s.nvm.owner.busy = false ∧ s.nvm.waiting = j :: rest) ∧
    (s.nvm.waiting = [j] ∧ rest = []) ∧
    (let g := orGuard s (orRegion s)
     g.locked = false ∧ s.nvm.owner.pwd = orPassword s (orRegion s)) ∧
    (let word := bits s.nvm.fusCtrl 9 0
     s.domReady 4 = true ∧ (word ≤ 2 ∨ (64 ≤ word ∧ word ≤ 223))) ∧
    (s.domReady 4 = true) :=
  ⟨tN { fuses := tF0, fusCtrl := 64, fusData := 7, waiting := [tJ], owner := { addr := 100 }, or0 := { failures := 7 }, or1 := { failures := 7 } }, tJ, [], ⟨by decide +kernel, by decide +kernel, by decide +kernel⟩, ⟨by decide +kernel, by decide +kernel, by decide +kernel⟩, ⟨by decide +kernel, by decide +kernel⟩, ⟨by decide +kernel, by decide +kernel⟩, ⟨by decide +kernel, by decide +kernel⟩, by decide +kernel⟩

theorem witness_NonVolatileMemory_0_2 : ∃ (s : State),
    s.domReady 4 = true ∧ s.nvm.waiting = [] ∧
    (s.nvm.base.busy = false) ∧
    (s.nvm.owner.busy = false) :=
  ⟨tN { fuses := tF0, fusCtrl := 64, fusData := 7, owner := { pwd := 77 } }, by decide +kernel, by decide +kernel, by decide +kernel, by decide +kernel⟩

theorem witness_NonVolatileMemory_0_3 : ∃ (s : State) (j : NvmJob) (rest : List NvmJob),
    (let nx := w_nx
     let more := w_more
     s.nvm.waiting = j :: rest ∧ rest = nx :: more) ∧
    (let word := bits s.nvm.fusCtrl 9 0
     s.domReady 4 = true ∧ ¬ (word ≤ 2 ∨ (64 ≤ word ∧ word ≤ 223))) :=
  ⟨tN { fuses := tF0, fusCtrl := 400, fusData := 7, waiting := [tJ, tJ3], owner := { addr := 5000 }, base := { addr := 0, len := 4 } }, tJ, [tJ3], ⟨by decide +kernel, by decide +kernel⟩, ⟨by decide +kernel, by decide +kernel⟩⟩

theorem witness_NonVolatileMemory_0_4 : ∃ (s : State),
    let g := orGuard s (orRegion s)
    g.locked = false ∧ s.nvm.owner.pwd ≠ orPassword s (orRegion s) ∧ 7 ≤ g.failures :=
  ⟨tN { fuses := tF0, fusCtrl := 1, fusData := 7, waiting := [tJ], or0 := { failures := 7 }, or1 := { failures := 7 }, owner := { pwd := 9 } }, by decide +kernel, by decide +kernel, by decide +kernel⟩

theorem witness_NonVolatileMemory_1_1 : ∃ (s t : State) (r : Req) (role fails : Nat) (v : Bytes),
    let c := selCounter t
    Granted s r 0x9020 3 t role v ∧ ownerCounter t = true ∧ (ctrIncrement c fails t).1 = 0 :=
  ⟨tN {}, tG (tReq 2 0x9020 3 [1]) (tN {}), tReq 2 0x9020 3 [1], 4, 0, [1], granted_of (i0 := 0x9020) (u0 := 3) (d := [1]) rfl (by decide +kernel) (by decide +kernel) (by decide +kernel) (by decide +kernel), by decide +kernel, by decide +kernel⟩

theorem witness_NonVolatileMemory_1_2 : ∃ (s t : State) (r : Req) (role fails : Nat) (v : Bytes),
    let c := selCounter t
    Granted s r 0x9020 4 t role v ∧ ownerCounter t = true ∧ (ctrRaise c (beNat v) fails t).1 = 0 :=
  ⟨tN {}, tG (tReq 2 0x9020 4 [0, 0, 0, 0, 0, 0, 0, 9]) (tN {}), tReq 2 0x9020 4 [0, 0, 0, 0, 0, 0, 0, 9], 4, 0, [0, 0, 0, 0, 0, 0, 0, 9], granted_of (i0 := 0x9020) (u0 := 4) (d := [0, 0, 0, 0, 0, 0, 0, 9]) rfl (by decide +kernel) (by decide +kernel) (by decide +kernel) (by decide +kernel), by decide +kernel, by decide +kernel⟩

theorem witness_NonVolatileMemory_1_3 : ∃ (s t : State) (r : Req) (role : Nat) (v : Bytes),
    let c := selCounter t
    Granted s r 0x9020 5 t role v ∧ ownerCounter t = true ∧ ctrUsable t c = false :=
  ⟨tN { badPages := [0x19, 0x39] }, tG (tReq 2 0x9020 5 [1]) (tN { badPages := [0x19, 0x39] }), tReq 2 0x9020 5 [1], 4, [1], granted_of (i0 := 0x9020) (u0 := 5) (d := [1]) rfl (by decide +kernel) (by decide +kernel) (by decide +kernel) (by decide +kernel), by decide +kernel, by decide +kernel⟩

theorem witness_NonVolatileMemory_1_4 : ∃ (s t : State) (r : Req) (role k : Nat) (v : Bytes),
    Granted s r 0x9110 1 t role v ∧ CanBegin t 0x9110 1 k ∧ v.length = 6 ∧ 3 ≤ beNat (v.take 2) ∧ beNat (v.take 2) ≤ 63 :=
  ⟨tN6 { fuses := tF0 }, tG (tReq 2 0x9110 1 [0, 3, 0, 0, 0, 9]) (tN6 { fuses := tF0 }), tReq 2 0x9110 1 [0, 3, 0, 0, 0, 9], 5, 0, [0, 3, 0, 0, 0, 9], granted_of (i0 := 0x9110) (u0 := 1) (d := [0, 3, 0, 0, 0, 9]) rfl (by decide +kernel) (by decide +kernel) (by decide +kernel) (by decide +kernel), ⟨by decide +kernel, by decide +kernel, by decide +kernel, by decide +kernel⟩, by decide +kernel, by decide +kernel, by decide +kernel⟩

theorem witness_NonVolatileMemory_2_1 : ∃ (s : State) (die : Fin 4) (off : BitVec 20),
    let o := 0x0F000000 + off.toNat / 4 * 4
    s.domReady (accDomain s (die.val * 2 ^ 32 + o)) = true :=
  ⟨tN {}, 2, 0x04000, by decide +kernel⟩

end W44

end Sys2Proof
end

section
/-!
No session opens on MS0 or MS1 (R110). A request's carrier, form, session checks and reply leave `State.sessionView`, the half-open
session and what an open session holds from its opening on, as it was; of SESSION_OPEN only `openHalf` changes it, and an OPEN on a
management serial port never comes to that.
-/
namespace Sys2Proof.Machine

/-- An open session without what every request it answers moves on: its sequence number, its stored reply and its idle timer. -/
def Session.opened (e : Session) : Session := { e with lastSeq := 0, stored := none, idleFrom := 0 }

/-- The half-open session, and the open one as it was opened. -/
def State.sessionView (s : State) : Option HalfSession × Option Session := (s.dict.half, s.dict.sess.map Session.opened)

@[simp] theorem State.at_sessionView (s : State) (d : Nat) : (s.at d).sessionView = s.sessionView := rfl

@[simp] theorem State.setReg_sessionView (s : State) (die off v d : Nat) : (s.setReg die off v d).sessionView = s.sessionView := rfl

@[simp] theorem State.setDom_sessionView (s : State) (d : Nat) (v : Dom) : (s.setDom d v).sessionView = s.sessionView := rfl

@[simp] theorem State.power_sessionView (s : State) (p : PowerState) : State.sessionView { s with power := p } = s.sessionView := rfl

@[simp] theorem State.unit_sessionView (s : State) (u : UnitState) : State.sessionView { s with unit := u } = s.sessionView := rfl

@[simp] theorem State.lastReq_sessionView (s : State) (x : Nat × Nat) :
    State.sessionView { s with dict := { s.dict with lastReq := x } } = s.sessionView := rfl

@[simp] theorem State.bump_sessionView (s : State) (idx sub : Nat) : (s.bump idx sub).sessionView = s.sessionView := rfl

@[simp] theorem setMsRsp_sessionView (k : Nat) (b : Bytes) (s : State) : (setMsRsp k b s).sessionView = s.sessionView := rfl

@[simp] theorem sendReply_sessionView (p : Reply) (s : State) : (sendReply p s).sessionView = s.sessionView := by
  unfold sendReply
  cases p.tr with
  | mailbox => dsimp only; split <;> rfl
  | _ => rfl

@[simp] theorem noteAnswer_sessionView (r : Req) (p : Reply) (s : State) : (noteAnswer r p s).sessionView = s.sessionView := by
  unfold noteAnswer
  split
  · rfl
  next se hse =>
    split
    · simp [State.sessionView, hse, Session.opened]
    · rfl

@[simp] theorem replyPlain_sessionView (r : Req) (op st : Nat) (data : Bytes) (s : State) :
    (replyPlain r op st data s).sessionView = s.sessionView := sendReply_sessionView _ s

@[simp] theorem replyIn_sessionView (s0 : State) (r : Req) (op st : Nat) (data : Bytes) (s : State) :
    (replyIn s0 r op st data s).sessionView = s.sessionView :=
  (noteAnswer_sessionView r _ _).trans (sendReply_sessionView _ s)

@[simp] theorem countRefusal_sessionView (r : Req) (c : Nat) (s : State) : (countRefusal r c s).sessionView = s.sessionView := by
  simp only [countRefusal, apply_ite State.sessionView, State.bump_sessionView, ite_self]

@[simp] theorem refuse_sessionView (r : Req) (op c : Nat) (s : State) : (refuse r op c s).sessionView = s.sessionView :=
  (sendReply_sessionView _ _).trans (countRefusal_sessionView r c s)

@[simp] theorem dropRequest_sessionView (r : Req) (s : State) : (dropRequest r s).sessionView = s.sessionView := by
  unfold dropRequest
  cases r.tr <;> rfl

@[simp] theorem takeReq_sessionView (r : Req) (s : State) : (takeReq r s).sessionView = s.sessionView := by
  unfold takeReq
  cases r.tr <;> simp [apply_ite State.sessionView]

theorem foldl_sessionView {α : Type} {f : State → α → State} (hf : ∀ s a, (f s a).sessionView = s.sessionView) (l : List α) (s : State) :
    (l.foldl f s).sessionView = s.sessionView := by
  induction l generalizing s with
  | nil => rfl
  | cons a l ih => exact (ih _).trans (hf s a)

@[simp] theorem recordRefusal_sessionView (target refuser kind point : Nat) (s : State) :
    (recordRefusal target refuser kind point s).sessionView = s.sessionView := rfl

@[simp] theorem deepAbort_sessionView (s : State) : (deepAbort s).sessionView = s.sessionView := by
  unfold deepAbort
  split
  · rfl
  · simp only [apply_ite State.sessionView, State.power_sessionView, State.unit_sessionView, ite_self]
    rw [foldl_sessionView]
    · simp
    · intro s d
      split
      · exact State.setDom_sessionView _ _ _
      · rfl

/-- The state a gate's outcome holds. -/
def Gate.state : Gate → State
  | .ovr t => t
  | .anise t => t
  | .session t => t

@[simp] theorem Gate.state_ovr (t : State) : (Gate.ovr t).state = t := rfl

@[simp] theorem Gate.state_anise (t : State) : (Gate.anise t).state = t := rfl

@[simp] theorem Gate.state_session (t : State) : (Gate.session t).state = t := rfl

/-- Every way through the gate leaves the sessions: the request is taken, a DEEP entry may be aborted, and a plain reply may be sent. -/
theorem gate_sessionView (r : Req) (op : Nat) (free : State → Bool) (s : State) : (gate r op free s).state.sessionView = s.sessionView := by
  unfold gate
  simp only [apply_ite Gate.state, apply_ite State.sessionView, Gate.state_ovr, Gate.state_anise, Gate.state_session,
    replyPlain_sessionView, dropRequest_sessionView, takeReq_sessionView, deepAbort_sessionView, ite_self]

/-- An OPEN on a management serial port is refused before the session's key and nonce are drawn (R104, R110). -/
theorem openCode_of_isMs {r : Req} (h : isMs r.tr = true) (s : State) : openCode s r =
    if 1 ≤ (byteAt r.data 0).toNat ∧ (byteAt r.data 0).toNat ≤ 5 ∧ ¬ roleAllowed s (byteAt r.data 0).toNat then rLIFE_CYCLE else rDENIED := by
  simp only [openCode, if_pos h]

theorem openReply_of_isMs {r : Req} (h : isMs r.tr = true) (s : State) :
    openReply r s = replyIn s r opOPEN (openCode s r) [] s := by
  have hc : openCode s r = rLIFE_CYCLE ∨ openCode s r = rDENIED := by
    rw [openCode_of_isMs h]
    exact ite_eq_or_eq _ _ _
  unfold openReply
  rcases hc with hc | hc <;> rw [hc] <;> rfl

/-- What SESSION_OPEN on a management serial port answers, it answers with the sessions as they were. -/
theorem execSessionOpen_sessionView {r : Req} (hms : isMs r.tr = true) {s t : State} (h : execSessionOpen r s = .next t) :
    t.sessionView = s.sessionView := by
  have hg := gate_sessionView r opOPEN (fun _ => false) s
  unfold execSessionOpen at h
  generalize gate r opOPEN (fun _ => false) s = g at hg h
  cases g with
  | ovr u => cases h; exact hg
  | anise u => cases h; exact hg
  | session u =>
    dsimp only at h
    split at h <;> cases h
    · exact (refuse_sessionView _ _ _ u).trans hg
    · exact (sendReply_sessionView _ u).trans hg
    · rw [openReply_of_isMs hms]
      exact (replyIn_sessionView _ _ _ _ _ u).trans hg

theorem execSessionOpen_of_go {r : Req} {s t : State} {role : Nat} (hg : gate r opOPEN (fun _ => false) s = .session t)
    (hc : sessionCheck t r opOPEN = .go role) : execSessionOpen r s = .next (openReply r t) := by
  unfold execSessionOpen
  rw [hg]
  dsimp only
  rw [hc]

/-- The parts of an open session that the statement names are parts of the session as it was opened. -/
theorem sess_map_of_sessionView {s t : State} (h : t.sessionView = s.sessionView) :
    t.dict.sess.map (fun e => (e.id, e.role, e.tr, e.src)) = s.dict.sess.map (fun e => (e.id, e.role, e.tr, e.src)) := by
  have hs : t.dict.sess.map Session.opened = s.dict.sess.map Session.opened := congrArg Prod.snd h
  simpa [Option.map_map, Function.comp_def, Session.opened] using congrArg (Option.map fun e => (e.id, e.role, e.tr, e.src)) hs

/-- Settles O33: before a session is drawn, the code of an OPEN on MS0 or MS1 is LIFE_CYCLE or DENIED, and LIFE_CYCLE only where
its role is one that the life-cycle state does not have. -/
theorem noSessionOnMs : Obligations.NoSessionOnMs := by
  unfold Obligations.NoSessionOnMs
  refine ⟨fun s t r hms h => ?_, fun s t r role hms hg hc _ _ hrole => ?_⟩
  · have hv := execSessionOpen_sessionView hms (h : execSessionOpen r s = .next t)
    exact ⟨congrArg Prod.fst hv, sess_map_of_sessionView hv⟩
  · have hd : openCode t r = rDENIED := by
      rw [openCode_of_isMs hms]
      refine if_neg ?_
      rintro ⟨h1, h5, hno⟩
      rcases hrole with h0 | h6 | hyes
      · omega
      · omega
      · exact hno hyes
    have he : execSessionOpen r s = .next (openReply r t) := execSessionOpen_of_go (hg _) hc
    rw [openReply_of_isMs hms, hd] at he
    exact he

end Sys2Proof.Machine
end

section
/-!
A LOOP or LOOPI that opens no level (R314, R321). Guarded off, or with its count 0, it comes to the same `Prog.skip`: the state as it
was, one LCLK, and a skip to the word after the body. How a core goes on from there is said once for a lane and once for the
supervisor, whatever the instruction that skips.
-/
namespace Sys2Proof.Machine

/-- The operation is a LOOP or LOOPI with the count `w` on core `c`, and its body ends `o` words on. -/
inductive LoopsOver (c : Core) : COp → Word → Nat → Prop where
  | loop (d o : Nat) : LoopsOver c (.loop d o) (c.dr d) o
  | loopi (k o : Nat) : LoopsOver c (.loopi k o) (BitVec.ofNat 32 k) o

/-- The core is not at the end of its innermost loop level. -/
def Core.insideLoop (c : Core) : Prop := c.ldepth = 0 ∨ (c.lvl (c.ldepth - 1)).fin ≠ c.pc

/-- After one operation without effect, one LCLK from cycle `t` on, that goes on at `tgt`. -/
def Prog.skip (s : State) (t tgt : Nat) : Prog := { st := s, t := t + 1, nx := .skip tgt }

/-- Inside the body of the innermost level, the end check changes nothing. -/
theorem endCheck_insideLoop {c : Core} (h : c.insideLoop) (k : Nat) : endCheck c.pc k c = (c, none) := by
  cases k with
  | zero => rfl
  | succ k =>
    unfold endCheck
    rcases h with h | h
    · rw [if_pos h]
    · rw [if_pos (Or.inl h), ite_self]

/-! What the operation itself does. -/

section
variable {c : Core} {op : COp} {w : Word} {o : Nat}

theorem LoopsOver.forCore (h : LoopsOver c op w o) (sup : Bool) : op.forCore sup = true := by cases h <;> rfl

theorem LoopsOver.ne_cu (h : LoopsOver c op w o) (u a b e f : Nat) : op ≠ .cu u a b e f := by cases h <;> simp

theorem LoopsOver.legal (h : LoopsOver c op w o) (ho : o ≠ 0) : op.legal = true := by cases h <;> exact decide_eq_true ho

theorem LoopsOver.opTime (h : LoopsOver c op w o) (n t : Nat) (s : State) : opTime n t op s = 1 := by cases h <;> rfl

variable {n t lim : Nat} {s : State}

theorem LoopsOver.runOp (hs : s.core n = c) (h : LoopsOver c op w o) : runOp n t op s = opLoop n w o s := by
  subst hs
  cases h <;> rfl

/-- With no level open, a count of 0 skips the body (R321). -/
theorem opLoop_zero (hs : s.core n = c) (hl : c.ldepth = 0) (hf : c.pc.toNat + 4 * o ≤ pcMax n) :
    opLoop n 0 o s = { st := s, nx := .skip (c.pc.toNat + 4 * o + 4) } := by
  simp [opLoop, hs, hl, Nat.not_lt.2 hf]

/-- A guarded-off LOOP or LOOPI skips its body (R314). -/
theorem oneOp_loop_off (hs : s.core n = c) (h : LoopsOver c op w o) (ho : o ≠ 0) (hlim : t + 1 ≤ lim) :
    oneOp n t lim false (some op) s = Prog.skip s t (c.pc.toNat + 4 * o + 4) := by
  cases h <;> simp [oneOp, Prog.skip, offTime, opTime, coreTime, COp.legal, pcOf, hs, ho, Nat.not_lt.2 hlim]

/-- A LOOP or LOOPI that executes with its count 0 skips its body too. -/
theorem oneOp_loop_zero (hs : s.core n = c) (h : LoopsOver c op 0 o) (ho : o ≠ 0) (hlim : t + 1 ≤ lim)
    (hl : c.ldepth = 0) (hf : c.pc.toNat + 4 * o ≤ pcMax n) :
    oneOp n t lim true (some op) s = Prog.skip s t (c.pc.toNat + 4 * o + 4) := by
  have hrun : runOp n t op s = { st := s, nx := .skip (c.pc.toNat + 4 * o + 4) } := (h.runOp hs).trans (opLoop_zero hs hl hf)
  simp [oneOp, h.legal ho, hrun, h.opTime, Nat.not_lt.2 hlim, applyWr, Prog.skip]

end

/-! The lane. -/

section
variable {s : State} {i j : Issue} {r : Run} {k : Nat}

@[simp] theorem State.core_atIssue : (s.atIssue i r).core i.core.val = s.core i.core.val := by simp [State.atIssue]

@[simp] theorem State.lane_atIssue (l : Nat) : (s.atIssue i r).lane l = s.lane l := by simp [State.atIssue]

/-- A lane that goes on inside the budget of its run. -/
theorem laneGoOn_of_lt {l t : Nat} (hr : (s.lane l).run = some r) (ht : t < (s.lane l).budget) :
    laneGoOn l t s = (s.setLane l { s.lane l with cyc := t }).at (r.start + t) := by
  simp [laneGoOn, laneRun, hr, Nat.not_le.2 ht]

/-- `issue_can` for either value of the guard: a lane that could issue the instruction of `j` issues one with other guard fields. -/
theorem issue_guard {op : COp} (h : CanIssue s j r k) (hij : i.core = j.core) (hf : op.forCore false = true)
    (hc : ∀ u a b c d, op ≠ .cu u a b c d) :
    issue i op s = laneFinish i.core.val (s.atIssue i r)
      (oneOp i.core.val (s.lane i.core.val).cyc (s.lane i.core.val).budget ((s.core i.core.val).guard i.pn i.pg.val) (some op)
        (s.atIssue i r)) := by
  obtain ⟨core, pn, pg⟩ := i
  subst hij
  unfold issue issueOp
  rw [if_neg h.ne]
  unfold issueLane
  dsimp only
  rw [h.run]
  dsimp only
  rw [drainTo_empty (by simpa using h.wb)]
  dsimp only
  rw [State.core_at, core_filter _ h.wbT, h.imp]
  dsimp only
  rw [Option.filter_some, if_pos hf]
  split
  next heq => exact absurd (Option.some.inj heq) (hc _ _ _ _ _)
  next => rfl

/-- A lane goes on after a skip inside the body of its innermost level. -/
theorem laneFinish_skip {tgt : Nat} (hne : i.core.val ≠ supCore) (hrun : (s.lane i.core.val).run = some r)
    (hleft : (s.lane i.core.val).cyc + 1 < (s.lane i.core.val).budget) (hin : (s.core i.core.val).insideLoop) (ht : tgt ≤ 0x7FFC) :
    LaneAfter i r 1 { s.core i.core.val with pc := BitVec.ofNat 16 tgt } s
      (laneFinish i.core.val (s.atIssue i r) (Prog.skip (s.atIssue i r) (s.lane i.core.val).cyc tgt)) := by
  have hpc : ¬ tgt > pcMax i.core.val := by unfold pcMax; rw [if_neg hne]; omega
  have hgo : laneFinish i.core.val (s.atIssue i r) (Prog.skip (s.atIssue i r) (s.lane i.core.val).cyc tgt) =
      (((s.atIssue i r).setCore i.core.val { s.core i.core.val with pc := BitVec.ofNat 16 tgt }).setLane i.core.val
        { s.lane i.core.val with cyc := (s.lane i.core.val).cyc + 1 }).at (r.start + ((s.lane i.core.val).cyc + 1)) := by
    simp only [laneFinish, Prog.skip, Bool.false_eq_true, if_false, State.core_atIssue, endCheck_insideLoop hin, Option.getD_none,
      laneNext, if_neg hpc]
    rw [laneGoOn_of_lt (r := r) (by simpa using hrun) (by simpa using hleft)]
    simp
  rw [hgo]
  refine ⟨⟨?_, fun m hm => ?_, fun m hm => ?_⟩, by simp, by simp, ?_⟩
  · simp only [State.atIssue, State.setCore, if_neg hne]
    rfl
  · simp [State.atIssue, State.core_setCore_other _ _ _ hm]
  · simp [State.lane_setLane_other _ _ _ hm]
  · simp only [State.at_dt, State.setLane_dt, State.setCore_dt, State.atIssue, Nat.max_def]
    split <;> split <;> split <;> omega

end

/-! The supervisor. -/

section
variable {s : State} {i : Issue}

theorem State.core_sup (s : State) : s.core supCore = s.unit.sup.core := if_pos rfl

theorem State.setCore_sup_self (s : State) : s.setCore supCore s.unit.sup.core = s := if_pos rfl

theorem fetchLevel_of_act {t : State} (h : t.act = s.act) (addr : Nat) : fetchLevel t addr = fetchLevel s addr := by
  simp only [fetchLevel, State.actTab, h]

/-- The supervisor issues where it runs, no interrupt is to be taken and no imprecise access waits (R395, R396). -/
theorem issue_sup {op : COp} (hn : i.core.val = supCore) (hrun : supRuns s = true) (hq : supPending s = 0 ∨ s.unit.sup.ie = false)
    (himp : (s.core supCore).imp = none) (hf : op.forCore true = true) :
    issue i op s = supFinish (s.at s.unit.sup.free)
      (oneOp supCore 0 (2 ^ 64) ((s.core supCore).guard i.pn i.pg.val) (some op) (s.at s.unit.sup.free)) := by
  have hint : supInterrupt (s.at s.unit.sup.free) = s.at s.unit.sup.free := by
    have hq' : supPending (s.at s.unit.sup.free) = 0 ∨ ¬ (s.at s.unit.sup.free).unit.sup.ie := by
      rw [Bool.not_eq_true]
      exact hq
    unfold supInterrupt
    rw [if_pos hq']
  unfold issue issueOp
  rw [if_pos hn]
  unfold issueSup
  simp only [hrun, not_true_eq_false, if_false, hint, State.core_at, himp, Option.filter_some, hf, if_true]

/-- A move of the supervisor's PC inside its bank, to a word fetched at its own level (R687). -/
theorem supFetch_same {o : Nat} (ho : o ≤ 0xFFFC)
    (hl : fetchLevel s (s.unit.sup.core.ibk.toNat * 65536 + o) = some s.unit.sup.level) :
    supFetch .plain (s.unit.sup.core.ibk.toNat * 65536 + o) s = some
      { s with
        unit := { s.unit with sup := { s.unit.sup with core := { s.unit.sup.core with pc := BitVec.ofNat 16 o } } }
        act := if s.unit.sup.level = 0x60 then s.act else { s.act with romrun := false } } := by
  have hibk : BitVec.ofNat 8 ((s.unit.sup.core.ibk.toNat * 65536 + o) / 65536) = s.unit.sup.core.ibk := by
    rw [show (s.unit.sup.core.ibk.toNat * 65536 + o) / 65536 = s.unit.sup.core.ibk.toNat by omega]
    simp
  have hpc : BitVec.ofNat 16 (s.unit.sup.core.ibk.toNat * 65536 + o) = BitVec.ofNat 16 o := by
    apply BitVec.eq_of_toNat_eq
    simp only [BitVec.toNat_ofNat]
    omega
  unfold supFetch
  rw [hl]
  simp only [levelOk, decide_true, Bool.true_or, if_true, hibk, hpc]
  by_cases h60 : s.unit.sup.level = 0x60 <;> simp [h60, State.setSup]

/-- A return entry is marked only where the level changes. -/
theorem markGate_same {lvl : Nat} (h : s.unit.sup.level = lvl) (depth : Nat) : markGate lvl depth s = s := by
  unfold markGate
  dsimp only
  split
  · rw [if_neg fun hc => hc.1 h]
  · rfl

/-- The supervisor goes on after a skip inside the body of its innermost level. -/
theorem supFinish_skip {o : Nat} (hin : (s.core supCore).insideLoop) (ho : o + 4 ≤ 0xFFFC)
    (hl : fetchLevel s ((s.core supCore).ibk.toNat * 65536 + o + 4) = some s.unit.sup.level) :
    supFinish (s.at s.unit.sup.free) (Prog.skip (s.at s.unit.sup.free) 0 (o + 4)) =
      s.afterSup 1 { s.core supCore with pc := BitVec.ofNat 16 o } := by
  rw [State.core_sup] at hin hl ⊢
  rw [Nat.add_assoc] at hl
  have hset : (s.at s.unit.sup.free).setCore supCore s.unit.sup.core = s.at s.unit.sup.free := State.setCore_sup_self _
  have hfetch := supFetch_same (s := s.at s.unit.sup.free) ho ((fetchLevel_of_act rfl _).trans hl)
  have hpc : BitVec.ofNat 16 (o + 4) = BitVec.ofNat 16 o + 4 := by simp [BitVec.ofNat_add]
  unfold supFinish Prog.skip
  simp only [State.core_sup, State.at_unit, endCheck_insideLoop hin, Option.getD_none, if_neg (Nat.not_lt.2 ho), hset]
  simp only [State.at_unit] at hfetch
  rw [hfetch]
  dsimp only
  refine (markGate_same rfl _).trans ?_
  rw [hpc]
  rfl

end

/-! Both cores: the instruction guarded off, and the one that executes with the count 0. -/

theorem Core.guard_not (c : Core) (pn : Bool) (pg : Nat) : c.guard (! pn) pg = ! c.guard pn pg := by
  unfold Core.guard
  cases c.p pg <;> cases pn <;> rfl

section
variable {s : State} {i j : Issue} {r : Run} {op : COp} {w : Word} {o : Nat}

/-- On a lane, where the instruction of `j` could be issued, a guarded-off LOOP or LOOPI skips its body (R314). -/
theorem loop_off_lane (hc : CanIssue s j r 1) (hij : i.core = j.core) (hg : (s.core i.core.val).guard i.pn i.pg.val = false)
    (hop : LoopsOver (s.core i.core.val) op w o) (ho : o ≠ 0) (hin : (s.core i.core.val).insideLoop)
    (hend : (s.core i.core.val).pc.toNat + 4 * o + 4 ≤ 0x7FFC) :
    LaneAfter i r 1 { s.core i.core.val with pc := BitVec.ofNat 16 ((s.core i.core.val).pc.toNat + 4 * o + 4) } s (issue i op s) := by
  have hleft : (s.lane i.core.val).cyc + 1 < (s.lane i.core.val).budget := hij ▸ hc.left
  rw [issue_guard hc hij (hop.forCore _) hop.ne_cu, hg, oneOp_loop_off State.core_atIssue hop ho (Nat.le_of_lt hleft)]
  exact laneFinish_skip (hij ▸ hc.ne) (hij ▸ hc.run) hleft hin hend

/-- On a lane with no level open, a LOOP or LOOPI that executes with the count 0 skips its body too (R321). -/
theorem loop_zero_lane (hc : CanIssue s i r 1) (hop : LoopsOver (s.core i.core.val) op 0 o) (ho : o ≠ 0)
    (hd : (s.core i.core.val).ldepth = 0) (hend : (s.core i.core.val).pc.toNat + 4 * o + 4 ≤ 0x7FFC) :
    LaneAfter i r 1 { s.core i.core.val with pc := BitVec.ofNat 16 ((s.core i.core.val).pc.toNat + 4 * o + 4) } s (issue i op s) := by
  have hfin : (s.core i.core.val).pc.toNat + 4 * o ≤ pcMax i.core.val := by unfold pcMax; rw [if_neg hc.ne]; omega
  rw [issue_can hc (hop.forCore _) hop.ne_cu, oneOp_loop_zero State.core_atIssue hop ho (Nat.le_of_lt hc.left) hd hfin]
  exact laneFinish_skip hc.ne hc.run hc.left (Or.inl hd) hend

/-- A supervisor that does not take an interrupt skips the body of a guarded-off LOOP or LOOPI, and of one that executes with the
count 0 (R314, R321, R395). -/
theorem loop_skips_sup (hn : i.core.val = supCore) (hop : LoopsOver (s.core i.core.val) op w o) (ho : o ≠ 0) (hrun : supRuns s = true)
    (hq : supPending s = 0 ∨ s.unit.sup.ie = false) (hg : (s.core i.core.val).guard i.pn i.pg.val = false)
    (himp : (s.core i.core.val).imp = none) (hin : (s.core i.core.val).insideLoop)
    (hend : (s.core i.core.val).pc.toNat + 4 * o + 4 ≤ 0xFFFC)
    (hl : fetchLevel s ((s.core i.core.val).ibk.toNat * 65536 + ((s.core i.core.val).pc.toNat + 4 * o) + 4) = some s.unit.sup.level) :
    let after := s.afterSup 1 { s.core i.core.val with pc := BitVec.ofNat 16 ((s.core i.core.val).pc.toNat + 4 * o) }
    issue i op s = after ∧ ((s.core i.core.val).ldepth = 0 → w = 0 → issue { i with pn := ! i.pn } op s = after) := by
  rw [hn] at hop hg himp hin hend hl ⊢
  have hskip := supFinish_skip hin hend hl
  refine ⟨?_, fun hd hw => ?_⟩
  · rw [issue_sup hn hrun hq himp (hop.forCore _), hg, oneOp_loop_off (State.core_at _ _ _) hop ho (by decide)]
    exact hskip
  · subst hw
    have hfin : (s.core supCore).pc.toNat + 4 * o ≤ pcMax supCore := by rw [show pcMax supCore = 0xFFFC from rfl]; omega
    rw [issue_sup (i := { i with pn := ! i.pn }) hn hrun hq himp (hop.forCore _), Core.guard_not, hg, Bool.not_false,
      oneOp_loop_zero (State.core_at _ _ _) hop ho (by decide) hd hfin]
    exact hskip

end

/-- Settles O18: guarded off or with the count 0, LOOP and LOOPI come to the same skip, on a lane and on the supervisor. -/
theorem guardedOffLoops : Obligations.GuardedOffLoops := by
  unfold Obligations.GuardedOffLoops
  intro s i r d off count off' n c free fin after inside goes
  have skips {op : COp} {w : Word} {o : Nat} {x y : Instr} {zero : Prop} (hop : LoopsOver c op w o) (hw : zero → w = 0)
      (hx : exec x s = ok (issue i op s)) (hy : exec y s = ok (issue free op s)) : goes o x y zero := by
    intro ho
    refine ⟨fun hc hin hend => ?_, fun hn hrun hq hg himp hin hend hl => ?_⟩
    · have hg : c.guard i.pn i.pg.val = false := by simpa using (c.guard_not i.pn i.pg.val).symm.trans hc.guard
      have hzero (hd : c.ldepth = 0) (hz : zero) := loop_zero_lane hc (hw hz ▸ hop) ho hd hend
      exact ⟨⟨_, hx, loop_off_lane hc rfl hg hop ho hin hend⟩, fun hd hz => ⟨_, hy, hzero hd hz⟩⟩
    · obtain ⟨hoff, hzero⟩ := loop_skips_sup hn hop ho hrun hq hg himp hin hend hl
      exact ⟨hx.trans (congrArg ok hoff), fun hd hz => hy.trans (congrArg ok (hzero hd (hw hz)))⟩
  exact ⟨skips (.loop d.val off.toNat) id rfl rfl, skips (.loopi count.toNat off'.toNat) (by rintro rfl; rfl) rfl rfl⟩

end Sys2Proof.Machine
end

section
/-!
An access outside the regions of R30 (R703). Such an access is judged UNMAPPED before any slot, window or right is looked at. What a
refused access does at all is said once, whatever its cause: it is recorded, it is answered, and nothing is performed.
-/
namespace Sys2Proof.Machine

/-- No table is asked about a region that R30 does not have, so neither the initiator nor the kind counts. -/
theorem judge_of_not_isRegion {addr : Nat} (h : isRegion (addr / 2 ^ 32) = false) (s : State) (ini kind : Nat) :
    judge s ini addr kind = cUNMAPPED :=
  if_pos (Bool.eq_false_iff.1 h)

/-! The record of a refusal (R693, R697). -/

/-- The state without the parts where a refusal is recorded: the dictionary, which counts it, the access tables and the bits set at
this DT. -/
def State.apartFromRecord (s : State) : State := { s with dict := {}, act := { s.act with tabs := [] }, fresh := [] }

@[simp] theorem State.bump_apartFromRecord (s : State) (idx sub : Nat) : (s.bump idx sub).apartFromRecord = s.apartFromRecord := rfl

@[simp] theorem State.setActTab_apartFromRecord (s : State) (d : Nat) (v : ActTable) :
    (s.setActTab d v).apartFromRecord = s.apartFromRecord := rfl

@[simp] theorem State.noteSet_apartFromRecord (s : State) (k m : Nat) : (s.noteSet k m).apartFromRecord = s.apartFromRecord := rfl

/-- Whether it is the first of its table or a later one, a refusal is recorded in the same places. -/
theorem recordViolation_apartFromRecord (ini addr kind cause : Nat) (prec pcv : Bool) (info : Nat) (s : State) :
    (recordViolation ini addr kind cause prec pcv info s).apartFromRecord = s.apartFromRecord := by
  simp [recordViolation, apply_ite State.apartFromRecord]

/-- A refused access is answered with its cause, and changes nothing but the record (R692). -/
theorem fabricAccess_of_refused {s : State} {ini addr kind c : Nat} (hini : issued ini = true) (hc : judge s ini addr kind = c)
    (hrefused : c ≠ 0) (len : Nat) (data : Bytes) :
    ∃ t : State, t.apartFromRecord = s.apartFromRecord ∧ fabricAccess ini addr kind len data s =
      t.emit (.bus ini addr c (if kind = 1 ∨ ¬ (c = cUNMAPPED ∨ ini = 0x7F) then [] else zeros len)) := by
  let m := refusalMarks s ini addr (decide (kind = 1))
  refine ⟨recordViolation ini addr kind c m.1 m.2.1 m.2.2 s, recordViolation_apartFromRecord .., ?_⟩
  simp only [fabricAccess, judged, hini, hc, not_true_eq_false, if_false, if_neg hrefused, m]

/-- Settles O55: outside the regions every access is refused, and a refused one is answered and changes nothing but the record. -/
theorem unmappedRegions : Obligations.UnmappedRegions := by
  unfold Obligations.UnmappedRegions
  refine ⟨fun s ini addr kind h => judge_of_not_isRegion h s ini kind, fun s a h hini => ?_⟩
  obtain ⟨t, ht, hrun⟩ := fabricAccess_of_refused hini (judge_of_not_isRegion h s _ _) (by decide) a.len a.data
  have kept {α : Type} (f : State → α) := congrArg f ht
  refine ⟨_, congrArg ok hrun, ?_, kept State.unit, kept State.nvm, kept State.regs, kept State.key, kept State.pk, kept State.img,
    kept State.port, kept fun u => u.act.stall⟩
  -- the kind is a write's just where the access writes and is no fetch
  cases a.write <;> cases a.fetch <;> rfl

end Sys2Proof.Machine
end

section
/-!
What a step does as a whole. Whatever the command is, `exec_keeps` says that it answers a next state and what it keeps; with the front
of the queue taken off, that is said once of a step, and the invariants follow from it.
-/
namespace Sys2Proof.Machine

/-- A step answers a next state, and keeps what every command keeps of the state without the front of its queue. -/
theorem step_keeps (s : State) : ∃ t, step s = .next t ∧ Keeps { s with pending := s.pending.tail } t := by
  cases hp : s.pending with
  | nil =>
    have hs : ({ s with pending := [] } : State) = s := by rw [← hp]
    refine ⟨tick s, by simp [step, hp], ?_⟩
    rw [List.tail_nil, hs]
    exact tick_keeps s (Keeps.refl s)
  | cons c rest =>
    obtain ⟨t, ht, hk⟩ := exec_keeps c _ (Keeps.refl { s with pending := rest })
    exact ⟨t, by simp only [step, hp, ht], hk⟩

/-- `step_keeps` for the state that a step is known to answer. -/
theorem keeps_of_step {s t : State} (h : step s = .next t) : Keeps { s with pending := s.pending.tail } t := by
  obtain ⟨u, hu, hk⟩ := step_keeps s
  rw [h] at hu
  injection hu with hu
  exact hu ▸ hk

/-- Settles O2: `exec` and `tick` are total, and keep the queue they are given. -/
theorem everyStepCompletes : Obligations.EveryStepCompletes := by
  unfold Obligations.EveryStepCompletes
  intro s
  obtain ⟨t, ht, hk⟩ := step_keeps s
  exact ⟨t, ht, hk.queue⟩

/-- Settles O4: the MRAM keeps its form through every command, and the queue only loses its front. -/
theorem stepKeepsInvariant : Obligations.StepKeepsInvariant := by
  unfold Obligations.StepKeepsInvariant
  intro s t hinv h
  have hk := keeps_of_step h
  refine ⟨hk.mram hinv.mram, fun c hc => hinv.queue c ?_⟩
  rw [hk.queue] at hc
  exact List.mem_of_mem_tail hc

/-- Settles O5: no command takes a blown fuse bit away. -/
theorem blownFusesStay : Obligations.BlownFusesStay := by
  unfold Obligations.BlownFusesStay
  intro s t w b h hb
  exact (keeps_of_step h).fuse w b hb

/-- Settles O3: the MRAM of the reset state is empty, and so is its queue. -/
theorem resetInvariant : Obligations.ResetInvariant := by
  unfold Obligations.ResetInvariant
  exact ⟨⟨rfl, fun c hc => absurd hc List.not_mem_nil⟩, rfl, rfl⟩

/-- Settles O6: every part of the reset state is its default, and a table with nothing listed reads as its unlisted value. -/
theorem resetState : Obligations.ResetState := by
  unfold Obligations.ResetState
  refine ⟨rfl, rfl, rfl, rfl, fun _ => rfl, rfl, rfl, fun _ => rfl, fun _ => rfl, fun l => ?_, fun _ => rfl, fun _ => rfl, fun _ => rfl,
    rfl, rfl, fun _ => ⟨rfl, rfl⟩, rfl, rfl, rfl, fun _ => rfl, rfl, rfl, rfl, rfl, rfl, rfl, rfl⟩
  -- core 64 is the supervisor's, which starts at the boot ROM
  exact if_congr Iff.rfl rfl rfl

end Sys2Proof.Machine
end

section
/-!
The register instructions of a lane (R331-R338): each is one operation of the register file alone, so that `issue_reg` says all it
does but for the value it leaves; that value is the one the statements write.
-/
namespace Sys2Proof.Machine

/-- An instruction of the register file alone, on a lane that is ready. -/
theorem runs_of_regOp {s : State} {i : Issue} {r : Run} {k : Nat} {x : Instr} {op : COp} {c : Core} (h : Ready s i r k)
    (hx : exec x s = ok (issue i op s)) (ho : regOp op (s.core i.core.val) = some c) (hf : op.forCore false = true := by rfl)
    (hl : op.legal = true := by rfl) (hk : ∀ t u, opTime i.core.val t op u = k := by intros; rfl) : Runs x i r k c s :=
  ⟨_, hx, issue_reg h hf hl ho hk⟩

/-! The values of the ALU (R331, R332). -/

section
variable (x y : Word)

theorem b2n_eq_toNat (b : Bool) : b2n b = b.toNat := by cases b <;> rfl

theorem addFlags_eq (b : Bool) : addFlags x y b = ⟨x + y + BitVec.ofNat 32 b.toNat, decide (2 ^ 32 ≤ x.toNat + y.toNat + b.toNat),
    decide (x.toInt + y.toInt + (b.toNat : Int) < -(2 ^ 31) ∨ 2 ^ 31 ≤ x.toInt + y.toInt + (b.toNat : Int))⟩ := by
  simp [addFlags, b2n_eq_toNat, BitVec.ofNat_add]

theorem subFlags_eq (b : Bool) : subFlags x y b = ⟨x - y - BitVec.ofNat 32 b.toNat, decide (x.toNat < y.toNat + b.toNat),
    decide (x.toInt - y.toInt - (b.toNat : Int) < -(2 ^ 31) ∨ 2 ^ 31 ≤ x.toInt - y.toInt - (b.toNat : Int))⟩ := by
  simp [subFlags, b2n_eq_toNat]

theorem slt_eq_decide : BitVec.slt x y = decide (x.toInt < y.toInt) := rfl

theorem ult_eq_decide : BitVec.ult x y = decide (x.toNat < y.toNat) := rfl

theorem rotateRight_of_lt {n : Nat} (h : n < 32) : x.rotateRight n = (x >>> n) ||| (x <<< (32 - n)) := by
  rw [BitVec.rotateRight_eq_rotateRightAux_of_lt h, BitVec.rotateRightAux]

end

/-- Settles O7: each instruction runs one function of the ALU. -/
theorem arithmeticAndLogic : Obligations.ArithmeticAndLogic := by
  unfold Obligations.ArithmeticAndLogic
  refine ⟨fun s i r rd a b h => ?_, fun s i r rd a b p h => ?_⟩
  · refine ⟨runs_of_regOp h rfl ?_, runs_of_regOp h rfl ?_, runs_of_regOp h rfl ?_, runs_of_regOp h rfl ?_⟩
    · simp [regOp, aluCore, addFlags_eq]
    · simp [regOp, aluCore, subFlags_eq]
    · simp [regOp, aluCore, addFlags_eq]
    · simp [regOp, aluCore, subFlags_eq]
  · have hmod (y : Word) : y.toNat % 32 < 32 := Nat.mod_lt _ (by decide)
    refine ⟨runs_of_regOp h rfl rfl, runs_of_regOp h rfl rfl, runs_of_regOp h rfl rfl, runs_of_regOp h rfl rfl, runs_of_regOp h rfl rfl,
      runs_of_regOp h rfl rfl, runs_of_regOp h rfl rfl, runs_of_regOp h rfl ?ror, runs_of_regOp h rfl ?min, runs_of_regOp h rfl ?max,
      runs_of_regOp h rfl ?minu, runs_of_regOp h rfl ?maxu, runs_of_regOp h rfl ?sel, runs_of_regOp h rfl rfl⟩
    case ror => simp only [regOp, aluCore, aluPlain, rotateRight_of_lt _ (hmod _)]
    case sel => simp [regOp, aluCore, aluPlain, Core.p]
    all_goals simp only [regOp, aluCore, aluPlain, slt_eq_decide, ult_eq_decide, decide_eq_true_eq]

end Sys2Proof.Machine
end

section
/-!
Products, quotients and counts of the ALU (R331), the bit-field shifts (R333) and the conditions (R334): the values that the model
computes are those that the statements write.
-/
namespace Sys2Proof.Machine

section
variable (x y : Word)

theorem ofNat_div_toNat : BitVec.ofNat 32 (x.toNat / y.toNat) = x / y := by rw [← BitVec.toNat_udiv, BitVec.ofNat_toNat, BitVec.setWidth_eq]

theorem ofNat_mod_toNat : BitVec.ofNat 32 (x.toNat % y.toNat) = x % y := by rw [← BitVec.toNat_umod, BitVec.ofNat_toNat, BitVec.setWidth_eq]

theorem ofNat_mul_toNat : BitVec.ofNat 32 (x.toNat * y.toNat) = x * y := by simp [BitVec.ofNat_mul]

theorem signExtend_mul (w : Nat) : x.signExtend w * y.signExtend w = BitVec.ofInt w (x.toInt * y.toInt) := by
  simp [BitVec.ofInt_mul, BitVec.signExtend]

/-- The upper half of the signed product (MULH). -/
theorem mulh_eq : BitVec.ofInt 32 (x.toInt * y.toInt / 2 ^ 32) = (x.signExtend 64 * y.signExtend 64).extractLsb' 32 32 := by
  rw [signExtend_mul]
  apply BitVec.eq_of_toNat_eq
  simp only [BitVec.toNat_ofInt, BitVec.extractLsb'_toNat, Nat.shiftRight_eq_div_pow]
  generalize x.toInt * y.toInt = n
  omega

/-- CLZ is the position of the highest bit set. -/
theorem clz_spec : clz x ≤ 32 ∧ x.toNat < 2 ^ (32 - clz x) ∧ (clz x < 32 → 2 ^ (31 - clz x) ≤ x.toNat) := by
  unfold clz
  split_ifs with h
  · subst h
    exact ⟨le_refl _, by decide, fun h => absurd h (by decide)⟩
  · have hx : x.toNat ≠ 0 := fun h0 => h (BitVec.eq_of_toNat_eq h0)
    have hlog : Nat.log2 x.toNat < 32 := (Nat.log2_lt hx).2 x.isLt
    have hlo : 2 ^ Nat.log2 x.toNat ≤ x.toNat := Nat.log2_self_le hx
    have hhi : x.toNat < 2 ^ (Nat.log2 x.toNat + 1) := Nat.lt_log2_self
    refine ⟨by omega, ?_, fun _ => ?_⟩
    · rwa [show 32 - (31 - Nat.log2 x.toNat) = Nat.log2 x.toNat + 1 by omega]
    · rwa [show 31 - (31 - Nat.log2 x.toNat) = Nat.log2 x.toNat by omega]

theorem foldl_count {α : Type} (p : α → Bool) (l : List α) (n : Nat) :
    l.foldl (fun a k => if p k then a + 1 else a) n = n + (l.filter p).length := by
  induction l generalizing n with
  | nil => rfl
  | cons k l ih =>
    rw [List.foldl_cons, ih, List.filter_cons]
    split
    · simp; omega
    · rfl

/-- POPC counts the bits set. -/
theorem popCount_eq : popCount 32 x.toNat = ((List.range 32).filter (fun k => x.getLsbD k)).length :=
  (foldl_count (fun k => x.toNat.testBit k) _ 0).trans (Nat.zero_add _)

theorem toNat_append_eq {m n : Nat} (u : BitVec m) (v : BitVec n) : (u ++ v).toNat = u.toNat * 2 ^ n + v.toNat := by
  rw [BitVec.toNat_append, ← Nat.shiftLeft_eq, Nat.shiftLeft_add_eq_or_of_lt v.isLt]

/-- BSWAP reverses the bytes. -/
theorem bswap_eq : bswap x = x.extractLsb' 0 8 ++ x.extractLsb' 8 8 ++ x.extractLsb' 16 8 ++ x.extractLsb' 24 8 := by
  apply BitVec.eq_of_toNat_eq
  rw [toNat_append_eq, toNat_append_eq, toNat_append_eq]
  simp [bswap, beNat, beBytes, leBytes, byte, Nat.shiftRight_eq_div_pow, Nat.div_div_eq_div_mul]
  omega

end

/-- Settles O8: each instruction runs one function of the ALU. -/
theorem aluProducts : Obligations.AluProducts := by
  unfold Obligations.AluProducts
  refine ⟨fun s i r rd a b h => ?_, fun s i r rd a b h => ?_, fun s i r rd a h => ?_⟩
  · refine ⟨runs_of_regOp h rfl ?_, runs_of_regOp h rfl ?_, runs_of_regOp h rfl rfl⟩
    · simp only [regOp, aluCore, aluPlain, ofNat_mul_toNat]
    · simp only [regOp, aluCore, aluPlain, mulh_eq]
  · refine ⟨runs_of_regOp h rfl ?_, runs_of_regOp h rfl ?_⟩
    · simp only [regOp, aluCore, aluPlain]
      rw [ofNat_div_toNat] <;> rfl
    · simp only [regOp, aluCore, aluPlain, ofNat_mod_toNat]
  · obtain ⟨hle, hlt, hge⟩ := clz_spec ((s.core i.core.val).dr a.val)
    refine ⟨⟨⟨_, Nat.lt_succ_of_le hle⟩, runs_of_regOp h rfl rfl, hlt, hge⟩, runs_of_regOp h rfl ?_, runs_of_regOp h rfl ?_⟩
    · simp only [regOp, aluCore, aluPlain, popCount_eq]
    · simp only [regOp, aluCore, aluPlain, bswap_eq]

end Sys2Proof.Machine
end

section
/-!
Immediates, bit fields, conditions, addresses and accumulators (R333-R338): the values that the model computes are those that the
statements write.
-/
namespace Sys2Proof.Machine

section
variable (x y : Word)

/-- The field of `wm1 + 1` bits from bit `pos` on, its upper bits those of its sign (SHI.EXTS). -/
theorem getLsbD_exts {pos wm1 k : Nat} (hw : wm1 < 32) (hk : k < 32) (old : Word) :
    (shiOp 5 x old pos wm1).getLsbD k = x.getLsbD (pos + min k wm1) := by
  have hf : (BitVec.ofNat (wm1 + 1) (x.toNat / 2 ^ pos)).toNat = x.toNat / 2 ^ pos % 2 ^ (wm1 + 1) := BitVec.toNat_ofNat ..
  have hsx : shiOp 5 x old pos wm1 = (BitVec.ofNat (wm1 + 1) (x.toNat / 2 ^ pos)).signExtend 32 := by
    rw [BitVec.signExtend, BitVec.toInt_eq_msb_cond, hf, BitVec.msb_eq_getLsbD_last, BitVec.getLsbD, hf]
    rfl
  have hbit {j : Nat} (hj : j < wm1 + 1) : (BitVec.ofNat (wm1 + 1) (x.toNat / 2 ^ pos)).getLsbD j = x.getLsbD (pos + j) := by
    rw [BitVec.getLsbD_ofNat, decide_eq_true hj, Bool.true_and, Nat.testBit_div_two_pow, Nat.add_comm, BitVec.testBit_toNat]
  rw [hsx, BitVec.getLsbD_signExtend, decide_eq_true hk, Bool.true_and, BitVec.msb_eq_getLsbD_last]
  split_ifs with h
  · rw [hbit h, Nat.min_eq_left (by omega)]
  · rw [hbit (by omega), Nat.min_eq_right (by omega)]
    rfl

/-- The field of `wm1 + 1` bits from bit `pos` on taken from the low bits of `x`, the rest as before (SHI.INS). -/
theorem getLsbD_ins {pos wm1 k : Nat} (hk : k < 32) (old : Word) : (shiOp 6 x old pos wm1).getLsbD k =
    if pos ≤ k ∧ k < pos + (wm1 + 1) then x.getLsbD (k - pos) else old.getLsbD k := by
  have hmask : (BitVec.ofNat 32 ((2 ^ (wm1 + 1) - 1) * 2 ^ pos)).getLsbD k = decide (pos ≤ k ∧ k < pos + (wm1 + 1)) := by
    rw [← Nat.shiftLeft_eq, BitVec.getLsbD_ofNat, Nat.testBit_shiftLeft, Nat.testBit_two_pow_sub_one]
    rw [Bool.eq_iff_iff]
    simp [hk]
    omega
  have hfield : (BitVec.ofNat 32 (x.toNat % 2 ^ (wm1 + 1) * 2 ^ pos)).getLsbD k =
      (decide (pos ≤ k ∧ k < pos + (wm1 + 1)) && x.getLsbD (k - pos)) := by
    rw [← Nat.shiftLeft_eq, BitVec.getLsbD_ofNat, Nat.testBit_shiftLeft, Nat.testBit_mod_two_pow, BitVec.testBit_toNat]
    rw [decide_eq_true hk, Bool.true_and, ← Bool.and_assoc, ← Bool.decide_and]
    exact congrArg (· && _) (decide_eq_decide.2 (by omega))
  simp only [shiOp, BitVec.getLsbD_or, BitVec.getLsbD_and, BitVec.getLsbD_not, hmask, hfield]
  split_ifs with h
  · simp [h]
  · simp [h, hk]

theorem extractLsb'_zero {n : Nat} (w : Nat) (v : BitVec n) : v.extractLsb' 0 w = v.setWidth w := BitVec.eq_of_toNat_eq (by simp)

/-- The conditions, in the order of their codes (R334). -/
theorem condHolds_eq (k : Fin 16) (c v : Bool) : condHolds k.val x y c v =
    [decide (x = y), decide (x ≠ y), decide (x.toInt < y.toInt), decide (y.toInt ≤ x.toInt), decide (x.toNat < y.toNat),
      decide (y.toNat ≤ x.toNat), decide (y.toInt < x.toInt), decide (x.toInt ≤ y.toInt), decide (y.toNat < x.toNat),
      decide (x.toNat ≤ y.toNat), decide (x &&& y ≠ 0), decide (x &&& y = 0), c, ! c, v, ! v].getD k.val false := by
  have hint (a b : Int) : decide (b ≤ a) = ! decide (a < b) := by simp [← decide_not]
  have hnat (a b : Nat) : decide (b ≤ a) = ! decide (a < b) := by simp [← decide_not]
  simp only [hint, hnat]
  fin_cases k <;> rfl

theorem cmpiOperand_eq (k : Fin 16) (imm : Byte) : cmpiOperand k.val imm.toNat =
    if (decide (k.val ≤ 3 ∨ k.val = 6 ∨ k.val = 7) : Bool) then imm.signExtend 32 else imm.zeroExtend 32 := by
  simp [cmpiOperand]

end

/-- Settles O9: each instruction runs one function of the register file. -/
theorem immediatesAndPredicates : Obligations.ImmediatesAndPredicates := by
  unfold Obligations.ImmediatesAndPredicates
  refine ⟨fun s i r rd a imm pos wm1 m h' h => ?_, fun s i r pd pdn cond a b imm pa pb na nb h => ?_⟩
  · refine ⟨runs_of_regOp h rfl ?addi, runs_of_regOp h rfl ?andi, runs_of_regOp h rfl ?ori, runs_of_regOp h rfl ?xori,
      runs_of_regOp h rfl rfl, runs_of_regOp h rfl rfl, runs_of_regOp h rfl rfl, runs_of_regOp h rfl ?ror, runs_of_regOp h rfl rfl,
      ⟨_, runs_of_regOp h rfl rfl, fun k => getLsbD_exts _ wm1.isLt k.isLt _⟩,
      ⟨_, runs_of_regOp h rfl rfl, fun k => getLsbD_ins _ k.isLt _⟩, runs_of_regOp h rfl ?movi, runs_of_regOp h rfl ?movh⟩
    case addi => simp [regOp, immCore, addFlags_eq]
    case ror => simp only [regOp, shiOp, rotateRight_of_lt _ pos.isLt]
    case movi => simp [regOp]
    case movh =>
      have hv : BitVec.ofNat 32 (h'.toNat % 65536 * 65536 + ((s.core i.core.val).dr rd.val).toNat % 65536) =
          h' ++ ((s.core i.core.val).dr rd.val).extractLsb' 0 16 := by
        apply BitVec.eq_of_toNat_eq
        rw [toNat_append_eq]
        simp
        omega
      simp only [regOp, hv]
    all_goals simp [regOp, immCore]
  · have hlegal {pd pdn : Fin 8} (hp : pd ≠ pdn ∨ pd.val = 0) : pdOk pd.val pdn.val = true := by
      simpa [pdOk, Fin.val_inj] using hp
    refine ⟨fun hp => ⟨runs_of_regOp h rfl ?cmp rfl (hlegal hp), runs_of_regOp h rfl ?cmpi rfl (hlegal hp)⟩, runs_of_regOp h rfl ?_,
      runs_of_regOp h rfl ?_, runs_of_regOp h rfl ?_, runs_of_regOp h rfl ?_, rfl, fun hpd => ?_⟩
    case cmp => simp only [regOp, Core.setPs, condHolds_eq]
    case cmpi => simp only [regOp, Core.setPs, condHolds_eq, cmpiOperand_eq]
    · simp [regOp, plogCore, Core.p]
    · simp [regOp, plogCore, Core.p]
    · simp [regOp, plogCore, Core.p]
    · simp [regOp, plogCore, Core.p]
    · cases na <;> simp [Core.p, Core.setP, hpd, pd.isLt]

/-- Settles O10: each instruction runs one function of the register file. -/
theorem addressesAndAccumulators : Obligations.AddressesAndAccumulators := by
  unfold Obligations.AddressesAndAccumulators
  refine ⟨fun s i r a d imm h => ?_, fun s i r k a b n part h => ?_⟩
  · refine ⟨runs_of_regOp h rfl ?_, runs_of_regOp h rfl ?_, runs_of_regOp h rfl ?_, runs_of_regOp h rfl ?_, runs_of_regOp h rfl ?_⟩
    all_goals simp [regOp, aopCore, extractLsb'_zero]
  · refine ⟨runs_of_regOp h rfl ?mac, runs_of_regOp h rfl ?macu, runs_of_regOp h rfl ?msu, runs_of_regOp h rfl rfl,
      fun hn => runs_of_regOp h rfl ?acsra rfl ?legal, ?_, ?_, ?_, runs_of_regOp h rfl rfl, runs_of_regOp h rfl rfl⟩
    case mac => simp only [regOp, macCore, signExtend_mul]
    case msu => simp only [regOp, macCore, signExtend_mul]
    case macu => simp [regOp, macCore, BitVec.ofNat_mul]
    case acsra => simp only [regOp, macCore, Nat.mod_eq_of_lt n.isLt]
    case legal => simpa [COp.legal] using hn
    all_goals
      rintro rfl
      exact runs_of_regOp h rfl rfl

end Sys2Proof.Machine
end

section
/-!
How a lane goes on after an instruction that does not trap (R308, R317, R322): what `oneOp` comes to, the move of the PC, and the
state afterwards as the statements write it, `State.afterLane`.
-/
namespace Sys2Proof.Machine
variable {s u v : State} {i : Issue} {r : Run} {k t : Nat} {c d : Core} {op : COp} {nx : Nxt} {wr : Option (Nat × Nat × Bytes)}

/-- An instruction that executes, does not trap and ends within the budget. -/
theorem oneOp_on {n lim : Nat} (hl : op.legal = true) (hrun : runOp n t op s = ⟨v, nx, wr⟩) (hnx : ∀ x, nx ≠ .trap x)
    (hk : opTime n t op s = k) (hlim : t + k ≤ lim) :
    oneOp n t lim true (some op) s = { st := applyWr n ⟨v, nx, wr⟩, t := t + k, nx := nx } := by
  unfold oneOp
  -- `hnx` shuts out the first arm of the match on how the run goes on
  simp only [hl, not_true_eq_false, if_false, hrun, hk, if_neg (Nat.not_lt.2 hlim)]

/-- On a lane that can issue it, an instruction that does not trap. -/
theorem issue_on (h : CanIssue s i r k) (hf : op.forCore false = true) (hc : ∀ u a b c d, op ≠ .cu u a b c d) (hl : op.legal = true)
    (hrun : runOp i.core.val (s.lane i.core.val).cyc op (s.atIssue i r) = ⟨v, nx, wr⟩) (hnx : ∀ x, nx ≠ .trap x)
    (hk : opTime i.core.val (s.lane i.core.val).cyc op (s.atIssue i r) = k) :
    issue i op s = laneFinish i.core.val (s.atIssue i r)
      { st := applyWr i.core.val ⟨v, nx, wr⟩, t := (s.lane i.core.val).cyc + k, nx := nx } := by
  rw [issue_can h hf hc, oneOp_on hl hrun hnx hk (Nat.le_of_lt h.left)]

/-- The move of a lane's PC to a word that it can fetch, inside the budget of its run. -/
theorem laneNext_go {l tgt : Nat} (hl : l ≠ supCore) (ht : tgt ≤ 0x7FFC) (hr : (u.lane l).run = some r) (hb : t < (u.lane l).budget) :
    laneNext l t tgt s u c =
      ((u.setCore l { c with pc := BitVec.ofNat 16 tgt }).setLane l { u.lane l with cyc := t }).at (r.start + t) := by
  have hpc : ¬ tgt > pcMax l := by unfold pcMax; rw [if_neg hl]; omega
  unfold laneNext
  rw [if_neg hpc, laneGoOn_of_lt (r := r) (by simpa using hr) (by simpa using hb)]
  simp

/-- What an instruction leaves of the run of its lane: the run and its budget. -/
structure SameRun (s u : State) (i : Issue) : Prop where
  run : (u.lane i.core.val).run = (s.lane i.core.val).run
  budget : (u.lane i.core.val).budget = (s.lane i.core.val).budget

theorem SameRun.of_lane (h : u.lane i.core.val = s.lane i.core.val) : SameRun s u i := ⟨by rw [h], by rw [h]⟩

/-- After an instruction of `k` cycles that goes on at `tgt` with the core `c`. -/
theorem laneNext_afterLane {tgt : Nat} (h : CanIssue s i r k) (hu : SameRun s u i) (ht : tgt ≤ 0x7FFC) :
    laneNext i.core.val ((s.lane i.core.val).cyc + k) tgt v u c = s.afterLane u i r k { c with pc := BitVec.ofNat 16 tgt } :=
  laneNext_go h.ne ht (hu.run.trans h.run) (hu.budget ▸ h.left)

/-- The next word's offset. -/
theorem ofNat_pc_add (p : BitVec 16) : BitVec.ofNat 16 (p.toNat + 4) = p + 4 := by simp [BitVec.ofNat_add]

/-- With no level open, the end check changes nothing. -/
theorem endCheck_of_ldepth (h : c.ldepth = 0) (a : BitVec 16) (n : Nat) : endCheck a n c = (c, none) := by
  cases n with
  | zero => rfl
  | succ n => rw [endCheck, if_pos h]

/-- After an instruction of `k` cycles that goes on at the next word, no loop level being open. -/
theorem laneFinish_seq (h : Ready s i r k) (hu : SameRun s u i) (hd : (u.core i.core.val).ldepth = 0) :
    laneFinish i.core.val (s.atIssue i r) { st := u, t := (s.lane i.core.val).cyc + k } =
      s.afterLane u i r k { u.core i.core.val with pc := (s.core i.core.val).pc + 4 } := by
  simp only [laneFinish, Bool.false_eq_true, if_false, State.core_atIssue, endCheck_of_ldepth hd, Option.getD_none]
  rw [laneNext_afterLane h.toCanIssue hu h.word, ofNat_pc_add]

/-- On a lane that is ready, an instruction that goes on at the next word. -/
theorem issue_seq (h : Ready s i r k) (hf : op.forCore false = true) (hc : ∀ u a b c d, op ≠ .cu u a b c d) (hl : op.legal = true)
    (hrun : runOp i.core.val (s.lane i.core.val).cyc op (s.atIssue i r) = ⟨v, .seq, wr⟩)
    (hk : opTime i.core.val (s.lane i.core.val).cyc op (s.atIssue i r) = k) (hw : applyWr i.core.val ⟨v, .seq, wr⟩ = u)
    (hu : SameRun s u i) (hd : (u.core i.core.val).ldepth = 0) :
    issue i op s = s.afterLane u i r k { u.core i.core.val with pc := (s.core i.core.val).pc + 4 } := by
  rw [issue_on h.toCanIssue hf hc hl hrun (by simp) hk, hw]
  exact laneFinish_seq h hu hd

/-! What differs from a state in the core and the lane of one number alone. -/

theorem LaneOnly.at {l : Nat} (h : LaneOnly l s u) (n : Nat) : LaneOnly l s (u.at n) :=
  ⟨by rw [h.rest]; rfl, h.cores, h.lanes⟩

theorem LaneOnly.setCore {l : Nat} (h : LaneOnly l s u) (hl : l ≠ supCore) (c : Core) : LaneOnly l s (u.setCore l c) := by
  refine ⟨?_, fun m hm => ?_, fun m hm => ?_⟩
  · rw [h.rest]
    simp only [State.setCore, if_neg hl]
  · rw [State.core_setCore_other _ _ _ hm, h.cores m hm]
  · rw [State.lane_setCore, h.lanes m hm]

theorem LaneOnly.setLane {l : Nat} (h : LaneOnly l s u) (w : Lane) : LaneOnly l s (u.setLane l w) := by
  refine ⟨?_, fun m hm => ?_, fun m hm => ?_⟩
  · rw [h.rest]
    rfl
  · rw [State.core_setLane, h.cores m hm]
  · rw [State.lane_setLane_other _ _ _ hm, h.lanes m hm]

theorem LaneOnly.refl (s : State) (l : Nat) : LaneOnly l s s := ⟨rfl, fun _ _ => rfl, fun _ _ => rfl⟩

theorem laneOnly_atIssue (hne : i.core.val ≠ supCore) : LaneOnly i.core.val s (s.atIssue i r) :=
  ((LaneOnly.refl s _).at _).setCore hne _

theorem laneOnly_afterLane (hne : i.core.val ≠ supCore) (hu : LaneOnly i.core.val s u) : LaneOnly i.core.val s (s.afterLane u i r k c) :=
  ((hu.setCore hne c).setLane _).at _

@[simp] theorem State.core_afterLane : (s.afterLane u i r k c).core i.core.val = c := by simp [State.afterLane]

@[simp] theorem State.lane_afterLane :
    (s.afterLane u i r k c).lane i.core.val = { u.lane i.core.val with cyc := (s.lane i.core.val).cyc + k } := by
  simp [State.afterLane]

/-- An instruction that leaves the core `c`, and nothing else but the run's cycle count and DT. -/
theorem laneAfter_afterLane (hne : i.core.val ≠ supCore) (hu : LaneOnly i.core.val s u) (hl : u.lane i.core.val = s.lane i.core.val)
    (hd : u.dt = (s.atIssue i r).dt) : LaneAfter i r k c s (s.afterLane u i r k c) := by
  refine ⟨laneOnly_afterLane hne hu, State.core_afterLane, by rw [State.lane_afterLane, hl], ?_⟩
  simp only [State.afterLane, State.at_dt, State.setLane_dt, State.setCore_dt, hd, State.atIssue, Nat.max_def]
  split <;> split <;> split <;> omega

/-- An instruction whose effect is on its core alone. -/
theorem laneAfter_setCore (hne : i.core.val ≠ supCore) :
    LaneAfter i r k c s (s.afterLane ((s.atIssue i r).setCore i.core.val d) i r k c) :=
  laneAfter_afterLane hne ((laneOnly_atIssue hne).setCore hne _) (by simp) (by simp)

/-- An instruction without effect but where it goes on. -/
theorem laneAfter_atIssue (hne : i.core.val ≠ supCore) : LaneAfter i r k c s (s.afterLane (s.atIssue i r) i r k c) :=
  laneAfter_afterLane hne (laneOnly_atIssue hne) (by simp) rfl

end Sys2Proof.Machine
end

section
/-!
Control transfer, loops and guards of a lane (R313, R321-R325, R337).
-/
namespace Sys2Proof.Machine
variable {s v : State} {i : Issue} {r : Run} {k tgt : Nat} {c d : Core} {op : COp}

/-- On a lane, an instruction that is a transfer to `p` and whose effect is on its core alone. -/
theorem goes_of_go {x : Instr} {p : BitVec 16} (h : CanIssue s i r k) (hx : exec x s = ok (issue i op s)) (ht : p.toNat ≤ 0x7FFC)
    (hrun : runOp i.core.val (s.lane i.core.val).cyc op (s.atIssue i r) = { st := (s.atIssue i r).setCore i.core.val c, nx := .go p.toNat })
    (hf : op.forCore false = true := by rfl) (hc : ∀ u a b c d, op ≠ .cu u a b c d := by simp) (hl : op.legal = true := by rfl)
    (hk : ∀ n t u, opTime n t op u = k := by intros; rfl) : Goes x i r k { c with pc := p } s := by
  refine ⟨_, hx, ?_⟩
  rw [issue_on h hf hc hl hrun (by simp) (hk _ _ _)]
  simp only [laneFinish, applyWr, Bool.false_eq_true, if_false, State.core_setCore]
  rw [laneNext_afterLane h (.of_lane (by simp)) ht, BitVec.ofNat_toNat, BitVec.setWidth_eq]
  exact laneAfter_setCore h.ne

/-- With no level open, a transfer leaves none. -/
theorem leaveLoops_of_ldepth (h : c.ldepth = 0) (tgt n : Nat) : leaveLoops tgt n c = c := by
  cases n with
  | zero => rfl
  | succ n => rw [leaveLoops, if_pos h]

theorem unwindLoops_of_ldepth (h : c.ldepth = 0) (n : Nat) : unwindLoops n c = c := by
  cases n with
  | zero => rfl
  | succ n => rw [unwindLoops, if_neg fun hn => hn.1 h]

/-- The target of a branch is the PC plus four times the offset, modulo 2^16 (R337). -/
theorem brTarget_atIssue (off : BitVec 16) :
    brTarget (s.atIssue i r) i.core.val off.toNat = ((s.core i.core.val).pc + 4 * off).toNat := by
  simp only [brTarget, pcOf, State.core_atIssue, BitVec.ofNat_toNat, BitVec.setWidth_eq, BitVec.toNat_signExtend, BitVec.toNat_add,
    BitVec.toNat_mul, BitVec.toNat_setWidth]
  -- the sign extension adds a multiple of 2^16
  split <;> simp <;> omega

/-- The return entry of a CALL at the offset `pc` (R325). -/
theorem retEnt_ofNat {pc : BitVec 16} (h : pc.toNat + 4 ≤ 0x7FFC) : BitVec.ofNat 24 (pc.toNat + 4) = (pc + 4).zeroExtend 24 := by
  apply BitVec.eq_of_toNat_eq
  simp
  omega

section
variable {n : Nat} {p : BitVec 16} (hn : n ≠ supCore) (hc : s.core n = c) (hp : p.toNat ≤ 0x7FFC)
include hn hc

theorem pushRet_lane (hw : c.pc.toNat + 4 ≤ 0x7FFC) :
    pushRet n s = s.setCore n { c with rstack := ⟨(c.pc + 4).zeroExtend 24, none⟩ :: c.rstack } := by
  simp only [pushRet, inBank, if_neg hn, hc, retEnt_ofNat hw]

include hp

omit hc in
theorem not_pcMax_lt : ¬ p.toNat > pcMax n := by unfold pcMax; rw [if_neg hn]; omega

theorem opBranch_br {off : Nat} (ht : brTarget s n off = p.toNat) (hd : c.ldepth = 0) :
    opBranch n off false s = { st := s.setCore n c, nx := .go p.toNat } := by
  simp only [opBranch, ht, Bool.false_eq_true, false_and, if_false, if_neg (not_pcMax_lt hn hp), hc, leaveLoops_of_ldepth hd, inBank,
    if_neg hn]

theorem opBranch_call {off : Nat} (ht : brTarget s n off = p.toNat) (hw : c.pc.toNat + 4 ≤ 0x7FFC) (hlen : c.rstack.length < 32) :
    opBranch n off true s =
      { st := s.setCore n { c with rstack := ⟨(c.pc + 4).zeroExtend 24, none⟩ :: c.rstack }, nx := .go p.toNat } := by
  simp only [opBranch, ht, true_and, if_true, if_neg (not_pcMax_lt hn hp), hc, ge_iff_le, if_neg (Nat.not_le.2 hlen),
    pushRet_lane hn hc hw, inBank, if_neg hn]

/-- JR and CALLR to an aligned word of the lane's IMEM. -/
theorem opJump_lane {fn ds : Nat} (hfn : fn < 2) (ht : (c.dr ds).toNat % 65536 = p.toNat) (hal : p.toNat % 4 = 0) (hd : c.ldepth = 0)
    (hw : c.pc.toNat + 4 ≤ 0x7FFC) (hlen : fn = 1 → c.rstack.length < 32) :
    opJump n fn ds s = { st := s.setCore n (if fn = 1 then { c with rstack := ⟨(c.pc + 4).zeroExtend 24, none⟩ :: c.rstack } else c),
                         nx := .go p.toNat } := by
  have hov : ¬ (fn = 1 ∧ c.rstack.length ≥ 32) := fun h => absurd (hlen h.1) (Nat.not_lt.2 h.2)
  have hrange : ¬ (p.toNat > pcMax n ∨ n = supCore ∧ ¬ (c.ibk.toNat ≤ 7 ∨ c.ibk.toNat = 0x10)) :=
    not_or.2 ⟨not_pcMax_lt hn hp, fun h => hn h.1⟩
  simp only [opJump, hc, if_neg (show ¬ fn = 2 by omega), if_neg hn, ht, if_neg hov, hal, ne_eq, not_true_eq_false, if_false,
    if_neg hrange, pushRet_lane hn hc hw, if_true, leaveLoops_of_ldepth hd]
  split_ifs <;> rfl

end

/-- RET to its entry's address (R325). -/
theorem goes_ret {e : RetEnt} {es : List RetEnt} (h : Ready s i r 2) (hst : (s.core i.core.val).rstack = e :: es)
    (ht : (e.tgt.extractLsb' 0 16).toNat ≤ 0x7FFC) :
    Goes (.ret i) i r 2 { s.core i.core.val with pc := e.tgt.extractLsb' 0 16, rstack := es } s := by
  have hrun : runOp i.core.val (s.lane i.core.val).cyc (.jmp 2 0) (s.atIssue i r) =
      { st := (s.atIssue i r).setCore i.core.val { s.core i.core.val with rstack := es }, nx := .ret e } := by
    show opJump i.core.val 2 0 (s.atIssue i r) = _
    simp only [opJump, State.core_atIssue, if_true, hst]
    rw [unwindLoops_of_ldepth (c := { s.core i.core.val with rstack := es }) h.loops]
  have htgt : e.tgt.toNat % 65536 = (e.tgt.extractLsb' 0 16).toNat := by simp
  refine ⟨_, rfl, ?_⟩
  rw [issue_on h.toCanIssue rfl (by simp) rfl hrun (by simp) rfl]
  simp only [laneFinish, applyWr, Bool.false_eq_true, if_false, State.core_setCore]
  rw [laneNext_afterLane h.toCanIssue (.of_lane (by simp)) (htgt ▸ ht), htgt, BitVec.ofNat_toNat, BitVec.setWidth_eq]
  exact laneAfter_setCore h.ne

/-- Settles O11: no level is open, so a transfer changes the PC and the return stack alone. -/
theorem controlFlow : Obligations.ControlFlow := by
  unfold Obligations.ControlFlow
  refine ⟨fun s i r h => runs_of_regOp h rfl rfl, fun s i r off d e es h => ?_⟩
  have hne := h.ne
  have hcore : (s.atIssue i r).core i.core.val = s.core i.core.val := State.core_atIssue
  have hreg : ((s.core i.core.val).dr d.val).toNat % 65536 = (((s.core i.core.val).dr d.val).extractLsb' 0 16).toNat := by simp
  refine ⟨fun hb => ?br, fun hb hlen => ?call, fun hj hal => ?jr, fun hj hal hlen => ?callr, goes_ret h⟩
  case br => exact goes_of_go h.toCanIssue rfl hb (opBranch_br hne hcore hb (brTarget_atIssue off) h.loops)
  case call =>
    exact goes_of_go (op := .call off.toNat) h.toCanIssue rfl hb (opBranch_call hne hcore hb (brTarget_atIssue off) h.word hlen)
  case jr =>
    exact goes_of_go (op := .jmp 0 d.val) h.toCanIssue rfl hj (opJump_lane (fn := 0) hne hcore hj (by decide) hreg hal h.loops h.word (by simp))
  case callr =>
    exact goes_of_go (op := .jmp 1 d.val) h.toCanIssue rfl hj
      (opJump_lane (fn := 1) hne hcore hj (by decide) hreg hal h.loops h.word fun _ => hlen)

end Sys2Proof.Machine
end

section
/-!
Loop levels, guards and control registers of a lane (R311-R314, R321, R322).
-/
namespace Sys2Proof.Machine
variable {s v : State} {i : Issue} {r : Run} {k : Nat} {c d : Core} {op : COp}

/-- On a lane that is ready, an instruction whose effect, the state `v`, is on its core alone. -/
theorem runs_of_opSeq {x : Instr} (h : Ready s i r k) (hx : exec x s = ok (issue i op s))
    (hrun : runOp i.core.val (s.lane i.core.val).cyc op (s.atIssue i r) = opSeq v) (hv : LaneOnly i.core.val s v)
    (hlane : v.lane i.core.val = s.lane i.core.val) (hdt : v.dt = (s.atIssue i r).dt) (hcore : v.core i.core.val = c)
    (hd : c.ldepth = (s.core i.core.val).ldepth) (hp : c.pc = (s.core i.core.val).pc)
    (hf : op.forCore false = true) (hc : ∀ u a b c d, op ≠ .cu u a b c d) (hl : op.legal = true)
    (hk : opTime i.core.val (s.lane i.core.val).cyc op (s.atIssue i r) = k) : Runs x i r k c s := by
  refine ⟨_, hx, ?_⟩
  rw [issue_seq h hf hc hl hrun hk rfl (.of_lane hlane) (by simp [applyWr, hcore, hd, h.loops])]
  simp only [applyWr, hcore, hp]
  exact laneAfter_afterLane h.ne hv hlane hdt

/-- On a lane that is ready, an instruction that sets its core. -/
theorem runs_of_setCore {x : Instr} (h : Ready s i r k) (hx : exec x s = ok (issue i op s))
    (hrun : runOp i.core.val (s.lane i.core.val).cyc op (s.atIssue i r) = opSeq ((s.atIssue i r).setCore i.core.val c))
    (hd : c.ldepth = (s.core i.core.val).ldepth := by rfl) (hp : c.pc = (s.core i.core.val).pc := by rfl)
    (hf : op.forCore false = true := by rfl) (hc : ∀ u a b c d, op ≠ .cu u a b c d := by simp) (hl : op.legal = true := by rfl)
    (hk : opTime i.core.val (s.lane i.core.val).cyc op (s.atIssue i r) = k := by rfl) : Runs x i r k c s :=
  runs_of_opSeq h hx hrun ((laneOnly_atIssue h.ne).setCore h.ne c) (by simp) (by simp) (by simp) hd hp hf hc hl hk

/-- On a lane that is ready, an instruction whose effect, the state `v`, is on its core and its lane's memory. -/
theorem exec_of_mem {x : Instr} {mem : Memory} (h : Ready s i r k) (hx : exec x s = ok (issue i op s))
    (hrun : runOp i.core.val (s.lane i.core.val).cyc op (s.atIssue i r) = opSeq v) (hv : LaneOnly i.core.val s v)
    (hlane : v.lane i.core.val = { s.lane i.core.val with mem := mem }) (hcore : v.core i.core.val = c)
    (hd : c.ldepth = (s.core i.core.val).ldepth) (hf : op.forCore false = true) (hc : ∀ u a b c d, op ≠ .cu u a b c d)
    (hl : op.legal = true) (hk : opTime i.core.val (s.lane i.core.val).cyc op (s.atIssue i r) = k) :
    ∃ t, exec x s = .next t ∧ LaneOnly i.core.val s t ∧ t.core i.core.val = { c with pc := (s.core i.core.val).pc + 4 } ∧
      t.lane i.core.val = { s.lane i.core.val with cyc := (s.lane i.core.val).cyc + k, mem := mem } := by
  have hissue := issue_seq h hf hc hl hrun hk (u := v) rfl ⟨by rw [hlane], by rw [hlane]⟩
    (by rw [hcore, hd, h.loops])
  rw [hcore] at hissue
  exact ⟨_, hx.trans (congrArg ok hissue), laneOnly_afterLane h.ne hv, State.core_afterLane, by rw [State.lane_afterLane, hlane]⟩

/-! Loop levels. -/

/-- With no level open, a count other than 0 opens level 0 (R321). -/
theorem opLoop_open {n o : Nat} {w : Word} (hn : n ≠ supCore) (hc : s.core n = c) (hd : c.ldepth = 0) (hw : w ≠ 0)
    (hf : c.pc.toNat + 4 * o ≤ 0x7FFC) : opLoop n w o s = opSeq (s.setCore n
      { c.setLvl 0 ⟨c.pc + 4, BitVec.ofNat 16 (c.pc.toNat + 4 * o), w, c.rstack.length⟩ with ldepth := 1 }) := by
  have hmax : ¬ c.pc.toNat + 4 * o > pcMax n := by unfold pcMax; rw [if_neg hn]; omega
  have hov : ¬ 0 ≥ 4 := by decide
  simp only [opLoop, hc, hd, List.range_zero, List.any_nil, Bool.false_eq_true, or_false, if_neg hmax, if_neg hw, if_neg hov,
    ofNat_pc_add]

/-- On a lane with no level open, LOOP or LOOPI with a count other than 0 (R321). -/
theorem goes_loop_open {x : Instr} {w : Word} {o : Nat} (h : Ready s i r 1) (hx : exec x s = ok (issue i op s))
    (hop : LoopsOver (s.core i.core.val) op w o) (ho : o ≠ 0) (hw : w ≠ 0) (hf : (s.core i.core.val).pc.toNat + 4 * o ≤ 0x7FFC) :
    let c := s.core i.core.val
    Goes x i r 1 { c.setLvl 0 ⟨c.pc + 4, BitVec.ofNat 16 (c.pc.toNat + 4 * o), w, c.rstack.length⟩ with
      ldepth := 1, pc := c.pc + 4 } s := by
  intro c
  refine ⟨_, hx, ?_⟩
  let e : Core := { c.setLvl 0 ⟨c.pc + 4, BitVec.ofNat 16 (c.pc.toNat + 4 * o), w, c.rstack.length⟩ with ldepth := 1 }
  have hrun : runOp i.core.val (s.lane i.core.val).cyc op (s.atIssue i r) = opSeq ((s.atIssue i r).setCore i.core.val e) :=
    (LoopsOver.runOp (c := c) State.core_atIssue hop).trans (opLoop_open h.ne State.core_atIssue h.loops hw hf)
  have hin : e.insideLoop := by
    refine Or.inr fun hfin => ho ?_
    have : BitVec.ofNat 16 (c.pc.toNat + 4 * o) = c.pc := by simpa [e, Core.lvl, Core.setLvl] using hfin
    have := congrArg BitVec.toNat this
    rw [BitVec.toNat_ofNat, Nat.mod_eq_of_lt (by omega)] at this
    omega
  have hend : endCheck c.pc 5 e = (e, none) := endCheck_insideLoop hin 5
  rw [issue_on h.toCanIssue (hop.forCore _) hop.ne_cu (hop.legal ho) hrun (by simp) (hop.opTime ..)]
  simp only [laneFinish, applyWr, Bool.false_eq_true, if_false, State.core_setCore, State.core_atIssue, hend, Option.getD_none, c]
  rw [laneNext_afterLane h.toCanIssue (.of_lane (by simp)) h.word, ofNat_pc_add]
  exact laneAfter_setCore h.ne

/-! The end check of a single open level (R322). -/

section
variable {l : LoopLvl} (hd : c.ldepth = 1) (hl : c.lvl 0 = l) (hf : l.fin = c.pc) (hr : l.rsd = c.rstack.length)
include hd hl hf hr

theorem endCheck_again (hn : 1 < l.count.toNat) (n : Nat) :
    endCheck c.pc (n + 1) c = (c.setLvl 0 { l with count := l.count - 1 }, some l.start.toNat) := by
  simp [endCheck, hd, hl, hf, hr, hn]

theorem endCheck_last (hn : l.count.toNat ≤ 1) (n : Nat) :
    endCheck c.pc (n + 1) c = ({ c.setLvl 0 { l with count := 0 } with ldepth := 0 }, none) := by
  have hlast : endCheck c.pc n { c.setLvl 0 { l with count := 0 } with ldepth := 0 } = (_, none) := endCheck_of_ldepth rfl _ _
  simp [endCheck, hd, hl, hf, hr, Nat.not_lt.2 hn] at hlast ⊢
  exact hlast

end

/-- An instruction without effect retires at the end of the innermost level (R322). -/
theorem goes_nop_end {o : Option Nat} {p : BitVec 16} (h : CanIssue s i r 1)
    (he : endCheck (s.core i.core.val).pc 5 (s.core i.core.val) = (c, o)) (ho : o.getD ((s.core i.core.val).pc.toNat + 4) = p.toNat)
    (hp : p.toNat ≤ 0x7FFC) : Goes (.nop i) i r 1 { c with pc := p } s := by
  have hrun : runOp i.core.val (s.lane i.core.val).cyc .nop (s.atIssue i r) =
    opSeq ((s.atIssue i r).setCore i.core.val ((s.atIssue i r).core i.core.val)) := rfl
  refine ⟨_, rfl, ?_⟩
  rw [issue_on h rfl (by simp) rfl hrun (by simp) rfl]
  simp only [laneFinish, applyWr, Bool.false_eq_true, if_false, State.core_setCore, State.core_atIssue, he, ho]
  rw [laneNext_afterLane h (.of_lane (by simp)) hp, BitVec.ofNat_toNat, BitVec.setWidth_eq]
  exact laneAfter_setCore h.ne

/-- Settles O12: opening a level, skipping its body, and the end check at the end of the innermost level. -/
theorem loops : Obligations.Loops := by
  unfold Obligations.Loops
  refine ⟨fun s i r d off count off' h => ?_, fun s i r v h => ?_⟩
  · have hnz {n : Nat} {w : BitVec n} (hw : w ≠ 0) : w.toNat ≠ 0 := fun h0 => hw (BitVec.eq_of_toNat_eq h0)
    have hzext : BitVec.ofNat 32 count.toNat = count.zeroExtend 32 := by simp
    have hznz (hw : count ≠ 0) : count.zeroExtend 32 ≠ 0 := fun h0 => hnz hw <| by
      have := congrArg BitVec.toNat h0
      have := count.isLt
      simp at *
      omega
    have skip {x : Instr} {op : COp} {w : Word} {o : Nat} (hx : exec x s = ok (issue i op s)) (hop : LoopsOver (s.core i.core.val) op w o)
        (ho : o ≠ 0) (hw : w = 0) (hend : (s.core i.core.val).pc.toNat + 4 * o + 4 ≤ 0x7FFC) :
        Goes x i r 1 { s.core i.core.val with pc := BitVec.ofNat 16 ((s.core i.core.val).pc.toNat + 4 * o + 4) } s :=
      ⟨_, hx, loop_zero_lane h.toCanIssue (hw ▸ hop) ho h.loops hend⟩
    have loopi := hzext ▸ LoopsOver.loopi (c := s.core i.core.val) count.toNat off'.toNat
    exact ⟨fun ho hf hw => goes_loop_open h rfl (.loop ..) (hnz ho) hw hf, fun ho hf hw => skip rfl (.loop ..) (hnz ho) hw hf,
      fun ho hf hw => goes_loop_open h rfl loopi (hnz ho) (hznz hw) hf,
      fun ho hf hw => skip rfl loopi (hnz ho) (by rw [hw]; rfl) hf⟩
  · intro c hd hl hf hr
    have hpc (hp : c.pc.toNat + 4 ≤ 0x7FFC) : (c.pc + 4).toNat = c.pc.toNat + 4 := by
      rw [BitVec.toNat_add]
      exact Nat.mod_eq_of_lt (by simp; omega)
    exact ⟨fun hn hp => goes_nop_end h (endCheck_again hd hl hf hr hn 4) rfl hp,
      fun hn hp => goes_nop_end (c := { c.setLvl 0 { v with count := 0 } with ldepth := 0 }) h (endCheck_last hd hl hf hr hn 4)
        (hpc hp).symm ((hpc hp).trans_le hp)⟩

/-- An instruction that is guarded off (R313): on a lane that could issue it with the other guard, one of the register file and of one
LCLK has no effect. -/
theorem runs_off {x : Instr} (h : Ready s { i with pn := ! i.pn } r 1) (hx : exec x s = ok (issue i op s))
    (hoff : ∀ n t lim u, oneOp n t lim false (some op) u = { st := u, t := t + 1, ovr := decide (lim < t + 1) })
    (hf : op.forCore false = true := by rfl) (hc : ∀ u a b c d, op ≠ .cu u a b c d := by simp) : Runs x i r 1 (s.core i.core.val) s := by
  have hg : (s.core i.core.val).guard i.pn i.pg.val = false := by
    simpa using (Core.guard_not (s.core i.core.val) i.pn i.pg.val).symm.trans h.guard
  have hovr : ¬ (s.lane i.core.val).budget < (s.lane i.core.val).cyc + 1 := Nat.not_lt.2 (Nat.le_of_lt h.left)
  have hfin : laneFinish i.core.val (s.atIssue i r) { st := s.atIssue i r, t := (s.lane i.core.val).cyc + 1 } =
      s.afterLane (s.atIssue i r) i r 1 { s.core i.core.val with pc := (s.core i.core.val).pc + 4 } := by
    have hseq := laneFinish_seq (u := s.atIssue i r) h (.of_lane (by simp)) (by simpa using h.loops)
    rwa [State.core_atIssue] at hseq
  refine ⟨_, hx, ?_⟩
  rw [issue_guard (i := i) h.toCanIssue rfl hf hc, hg, hoff, decide_eq_false hovr, hfin]
  exact laneAfter_atIssue h.ne

/-- Settles O13: guarded off, a register instruction has no effect but its LCLK. -/
theorem guardedOff : Obligations.GuardedOff := by
  unfold Obligations.GuardedOff
  intro s i r rd a b m h
  exact ⟨runs_off h rfl fun _ _ _ _ => rfl, runs_off h rfl fun _ _ _ _ => rfl⟩

end Sys2Proof.Machine
end

section
/-!
MFC and MTC on a lane (R311, R312, R324, R354).
-/
namespace Sys2Proof.Machine
variable {s : State} {i : Issue} {r : Run} {d : Fin 16}

/-- MFC of a control register that both kinds of core have; DTL latches the upper half of DT. -/
theorem runs_mfc {cr : Fin 64} {w : Word} {c : Core} (h : Ready s i r 1) (hcr : cr.val ≤ 26)
    (hw : crCommon (s.atIssue i r) i.core.val (s.lane i.core.val).cyc cr.val = w)
    (hc : (if cr.val = 10 then { s.core i.core.val with
      dth := BitVec.ofNat 32 (dtSeen (s.atIssue i r) i.core.val (s.lane i.core.val).cyc / 2 ^ 32) } else s.core i.core.val) = c)
    (hd : c.ldepth = (s.core i.core.val).ldepth := by rfl) (hp : c.pc = (s.core i.core.val).pc := by rfl) :
    Runs (.mfc i d cr) i r 1 (c.setD d.val w) s := by
  refine runs_of_setCore h rfl (op := .cr false d.val cr.val) ?_ hd hp
  show opMfc _ _ d.val cr.val _ = _
  simp only [opMfc, if_pos hcr, State.core_atIssue, hw, hc]

/-- MTC of a control register that both kinds of core write. -/
theorem runs_mtc {cr : Fin 64} {c : Core} (h : Ready s i r 1) (hcr : (1 ≤ cr.val ∧ cr.val ≤ 5) ∨ (12 ≤ cr.val ∧ cr.val ≤ 23))
    (hc : mtcCore cr.val ((s.core i.core.val).dr d.val) (s.core i.core.val) = c)
    (hd : c.ldepth = (s.core i.core.val).ldepth := by rfl) (hp : c.pc = (s.core i.core.val).pc := by rfl) :
    Runs (.mtc i d cr) i r 1 c s := by
  refine runs_of_setCore h rfl (op := .cr true d.val cr.val) ?_ hd hp
  show opMtc _ d.val cr.val _ = _
  simp only [opMtc, if_pos hcr, State.core_atIssue, hc]

/-- DT as the instruction sees it. -/
theorem dtSeen_atIssue (h : Ready s i r 1) :
    dtSeen (s.atIssue i r) i.core.val (s.lane i.core.val).cyc = Nat.max s.dt (r.start + (s.lane i.core.val).cyc) := by
  simp only [dtSeen, if_neg h.ne, laneRun, State.lane_atIssue, h.run, Option.getD_some]
  simp [State.atIssue]

/-- Settles O14: MFC reads, and MTC writes, one control register of the core. -/
theorem controlRegisters : Obligations.ControlRegisters := by
  unfold Obligations.ControlRegisters
  intro s i r d h c v x dt reads leaves
  have hdt := dtSeen_atIssue h
  have hcore : (s.atIssue i r).core i.core.val = c := State.core_atIssue
  have hne : i.core.val ≠ 64 := h.ne
  have mfc (cr : Fin 64) (hcr : cr.val ≤ 26) (h10 : cr.val ≠ 10) {w : Word}
      (hw : crCommon (s.atIssue i r) i.core.val v.cyc cr.val = w) : reads cr w := runs_mfc h hcr hw (if_neg h10)
  have mtc {cr : Fin 64} {e : Core} (hcr : (1 ≤ cr.val ∧ cr.val ≤ 5) ∨ (12 ≤ cr.val ∧ cr.val ≤ 23)) (hc : mtcCore cr.val x c = e)
      (hd : e.ldepth = c.ldepth := by rfl) (hp : e.pc = c.pc := by rfl) : leaves cr e := runs_mtc h hcr hc hd hp
  have hlow : ∀ n, x.extractLsb' 0 n = x.truncate n := fun n => extractLsb'_zero n x
  refine ⟨mfc 0 (by decide) (by decide) ?_, mfc 1 (by decide) (by decide) ?_, mfc 2 (by decide) (by decide) ?_,
    mfc 3 (by decide) (by decide) ?_, mfc 4 (by decide) (by decide) ?fl, mfc 5 (by decide) (by decide) ?_,
    mfc 6 (by decide) (by decide) ?ldepth, mfc 7 (by decide) (by decide) ?_, mfc 8 (by decide) (by decide) ?limit,
    mfc 9 (by decide) (by decide) ?cyc, ?dtl, mfc 11 (by decide) (by decide) ?_, mfc 24 (by decide) (by decide) ?_,
    mfc 25 (by decide) (by decide) ?_, mfc 26 (by decide) (by decide) ?_, ?levels, mtc (by decide) ?_, mtc (by decide) ?_,
    mtc (by decide) ?_, mtc (by decide) ?_, mtc (by decide) ?_, ?setLevels⟩
  case dtl =>
    have hw : crCommon (s.atIssue i r) i.core.val v.cyc 10 = BitVec.ofNat 32 dt := congrArg (BitVec.ofNat 32) hdt
    exact runs_mfc (cr := 10) h (by decide) hw (by rw [hdt]; rfl)
  case levels =>
    intro k
    fin_cases k
    all_goals
      refine ⟨mfc _ (by decide) (by decide) ?_, mfc _ (by decide) (by decide) ?_, mfc _ (by decide) (by decide) ?_⟩
      all_goals simp [crCommon, hcore]
  case setLevels =>
    intro k
    fin_cases k
    all_goals
      refine ⟨mtc (by decide) ?_, mtc (by decide) ?_, mtc (by decide) ?_⟩
      all_goals simp [mtcCore, hlow]
  case fl => simp [crCommon, hcore, b2n_eq_toNat, Nat.mul_comm]
  case ldepth => simp [crCommon, hcore, c, h.loops]
  case limit => simp [crCommon, dsLimit, hne, v]
  case cyc => simp [crCommon, cycSeen, hne]
  all_goals simp [crCommon, mtcCore, hcore, hlow, Core.setFl]

end Sys2Proof.Machine
end

section
/-!
Byte strings (R15): their lengths, and the number that one spells; memory reads and writes of several bytes.
-/
namespace Sys2Proof.Machine

@[simp] theorem leBytes_length (n k : Nat) : (leBytes n k).length = k := by
  induction k generalizing n with
  | zero => rfl
  | succ k ih => simp [leBytes, ih]

@[simp] theorem beBytes_length (n k : Nat) : (beBytes n k).length = k := by simp [beBytes]

@[simp] theorem zeros_length (n : Nat) : (zeros n).length = n := by simp [zeros]

@[simp] theorem fit_length (bs : Bytes) (n : Nat) : (fit bs n).length = n := by
  simp [fit]
  omega

@[simp] theorem slice_length (bs : Bytes) (o n : Nat) : (slice bs o n).length = min n (bs.length - o) := by simp [slice]

@[simp] theorem Memory.readN_length (m : Memory) (a n : Nat) : (m.readN a n).length = n := by
  induction n generalizing a with
  | zero => rfl
  | succ n ih => simp [Memory.readN, ih]

/-- Writing a block of bytes puts each of them at its address. -/
theorem Memory.read_writeN_same (m : Memory) (a : Nat) (bs : Bytes) {j : Nat} (h : j < bs.length) :
    (m.writeN a bs).read (a + j) = bs.getD j 0 := by
  induction bs generalizing m a j with
  | nil => simp at h
  | cons b bs ih =>
    show ((m.write a b).writeN (a + 1) bs).read (a + j) = _
    cases j with
    | zero => rw [Memory.read_writeN_other _ _ (Or.inl (by omega)), Nat.add_zero, Memory.read_write_same]; rfl
    | succ j =>
      rw [show a + (j + 1) = a + 1 + j by omega, ih _ _ (by simpa using h)]
      rfl

theorem beNat_append (a b : Bytes) : beNat (a ++ b) = beNat a * 256 ^ b.length + beNat b := by
  have hfrom (n : Nat) (l : Bytes) : l.foldl (fun n b => n * 256 + b.toNat) n = n * 256 ^ l.length + beNat l := by
    induction l generalizing n with
    | nil => simp [beNat]
    | cons b l ih =>
      simp only [List.foldl_cons, beNat, List.length_cons, pow_succ] at ih ⊢
      rw [ih, ih (0 * 256 + b.toNat)]
      ring
  rw [beNat, List.foldl_append]
  exact hfrom _ _

/-- `n` bytes spell a number below 2^(8 n). -/
theorem beNat_lt (bs : Bytes) : beNat bs < 256 ^ bs.length := by
  induction bs using List.reverseRecOn with
  | nil => simp [beNat]
  | append_singleton l b ih =>
    have hb : beNat [b] < 256 := by simpa [beNat] using b.isLt
    rw [beNat_append, List.length_append, List.length_singleton, pow_add]
    omega

end Sys2Proof.Machine
end

section
/-!
Loads and stores of a lane (R264, R315-R320, R335).
-/
namespace Sys2Proof.Machine
variable {s : State} {i : Issue} {r : Run} {k : Nat} {c : Core}

/-- The address of an access, by its mode (R335). -/
theorem Core.ea_fst (c : Core) (a : Nat) (mode : Fin 4) (off : BitVec 9) : (c.ea a mode.val off.toNat).1 =
    if mode = 1 then c.ar a else if mode = 3 then c.ar a + (c.dr (off.toNat % 16)).extractLsb' 0 16 else c.ar a + off.signExtend 16 := by
  fin_cases mode <;> simp [Core.ea, extractLsb'_zero]

/-- The address register after an access, by its mode (R335). -/
theorem Core.ea_snd (c : Core) (a : Nat) (mode : Fin 4) (off : BitVec 9) : (c.ea a mode.val off.toNat).2 =
    if mode = 0 ∨ mode = 3 then c.ar a else c.ar a + off.signExtend 16 := by
  fin_cases mode <;> simp [Core.ea]

/-- An access is legal where its address operand, its size and its offset are (R315, R335). -/
theorem legal_access {a : Nat} {sz : Fin 3} {bsel : Bool} {mode : Fin 4} {off : BitVec 9} (hsel : bsel = true → a < 6)
    (hoff : mode = 3 → off.toNat < 16) :
    (selOk (a, bsel) && decide (sz.val ≤ 2) && (decide (mode.val ≠ 3) || decide (off.toNat < 16))) = true := by
  have hsz : sz.val ≤ 2 := by omega
  have hmode (hm : mode.val = 3) : off.toNat < 16 := hoff (Fin.ext hm)
  have hbank : selOk (a, bsel) = true := by cases bsel <;> simp_all [selOk]
  simp only [hbank, decide_eq_true hsz, Bool.and_true, Bool.true_and, Bool.or_eq_true, decide_eq_true_eq]
  exact (Decidable.em (mode.val = 3)).symm.imp id hmode

theorem szBytes_fin (sz : Fin 3) : szBytes sz.val = if sz = 0 then 1 else if sz = 1 then 2 else 4 := by
  fin_cases sz <;> rfl

/-- With nothing in the write buffer there is no wait (R319). -/
theorem wbWait_of_empty (hw : c.wb = []) (ht : c.wbT = []) (t : Nat) : wbWait c t = 0 := by simp [wbWait, hw, ht]

theorem wbLast_of_empty (hw : c.wb = []) (ht : c.wbT = []) : wbLast c = 0 := by simp [wbLast, hw, ht]

theorem waitEmpty_of_empty {n : Nat} (hn : n ≠ supCore) (hw : (s.core n).wb = []) (t : Nat) : waitEmpty n t s = { st := s } := by
  simp [waitEmpty, hn, drainAll, drainTo_empty hw]

theorem judgeLoad_lane {n bank off : Nat} (hn : n ≠ supCore) (hj : 0x10 ≤ bank ∧ bank ≤ 0x1F → judge s n (sharedAddr n bank off) 0 = 0) :
    judgeLoad n bank off s = (0, s) := by
  unfold judgeLoad
  rw [if_neg hn]
  split_ifs with hb
  · simp [judged, hj hb]
  · rfl

/-- A load of a lane from a mapped bank, granted where it is SHARED. -/
theorem memLoad_lane {n t bank off len : Nat} (hn : n ≠ supCore) (hm : laneMapped s n bank off len false = true)
    (hw : (s.core n).wb = []) (hj : 0x10 ≤ bank ∧ bank ≤ 0x1F → judge s n (sharedAddr n bank off) 0 = 0) :
    memLoad n t bank off len s = { st := s, bs := laneRead s n bank off len } := by
  simp [memLoad, mapped, hn, hm, waitEmpty_of_empty hn hw, judgeLoad_lane hn hj]

/-- What a lane may access depends on its run alone. -/
theorem laneMapped_congr {u : State} {n : Nat} (h : u.lane n = s.lane n) (bank off len : Nat) (wr : Bool) :
    laneMapped u n bank off len wr = laneMapped s n bank off len wr := by
  unfold laneMapped laneBankMax
  rw [h]

/-- The count of a load with an empty write buffer is the access time of its bank (R264, R335). -/
theorem coreTime_ld {n t d a sz off : Nat} {bsel sx : Bool} {mode : Nat} (hn : n ≠ supCore) (hw : (s.core n).wb = [])
    (ht : (s.core n).wbT = []) : coreTime n t (.ld d a sz bsel mode sx off) s =
      let b := (s.core n).bank a bsel
      let o := ((s.core n).ea a mode off).1.toNat
      if b = 1 then (if o < 0x800 then 6 else 20) else if 0x10 ≤ b ∧ b ≤ 0x1F then 20 else 1 := by
  simp only [coreTime, wbWait_of_empty hw ht, Nat.zero_add, decide_eq_true hn, Bool.true_and, buffered, bankTime]
  split_ifs <;> simp_all

theorem jobBank_length (n : Nat) : (jobBank s n).length = 0x500 := by simp [jobBank]

/-- A load of a mapped bank answers as many bytes as it asks for. -/
theorem laneRead_length {n bank off len : Nat} (hm : laneMapped s n bank off len false = true) : (laneRead s n bank off len).length = len := by
  by_cases hFD : bank = 0xFD
  · subst hFD
    have hmax : off + len ≤ 0x500 := by simpa [laneMapped, laneBankMax] using hm
    simp [laneRead, jobBank_length]
    omega
  · simp only [laneRead, if_neg hFD]
    split_ifs <;> simp

/-- Sign extension of a number of `w` bits to a word. -/
theorem signExtend_ofNat {w v : Nat} (hw : 0 < w) (hw' : w ≤ 32) (hv : v < 2 ^ w) : (BitVec.ofNat w v).signExtend 32 =
    if v.testBit (w - 1) then BitVec.ofNat 32 (v + 2 ^ 32 - 2 ^ w) else BitVec.ofNat 32 v := by
  have hmsb : (BitVec.ofNat w v).msb = v.testBit (w - 1) := by
    rw [BitVec.msb_eq_getLsbD_last, BitVec.getLsbD_ofNat, decide_eq_true (by omega), Bool.true_and]
  have hle : 2 ^ w ≤ 2 ^ 32 := Nat.pow_le_pow_right (by decide) hw'
  apply BitVec.eq_of_toNat_eq
  rw [BitVec.toNat_signExtend, hmsb, BitVec.toNat_setWidth, BitVec.toNat_ofNat, Nat.mod_eq_of_lt hv, Nat.mod_eq_of_lt (by omega)]
  split_ifs
  · rw [BitVec.toNat_ofNat, Nat.mod_eq_of_lt (by omega)]
    omega
  · rw [BitVec.toNat_ofNat, Nat.mod_eq_of_lt (by omega), Nat.add_zero]

/-- The register that a load of 1, 2 or 4 bytes leaves (R316). -/
theorem extendLoad_eq (sx : Bool) (sz : Fin 3) {bs : Bytes} (h : bs.length = if sz = 0 then 1 else if sz = 1 then 2 else 4) :
    extendLoad sx bs = if ! sx then BitVec.ofNat 32 (beNat bs) else if sz = 0 then (BitVec.ofNat 8 (beNat bs)).signExtend 32
      else if sz = 1 then (BitVec.ofNat 16 (beNat bs)).signExtend 32 else BitVec.ofNat 32 (beNat bs) := by
  have hlt := beNat_lt bs
  unfold extendLoad
  rw [h] at hlt ⊢
  generalize beNat bs = v at hlt ⊢
  cases sx
  · simp
  fin_cases sz
  · have hv : v < 2 ^ 8 := hlt
    simp [signExtend_ofNat (w := 8) (by decide) (by decide) hv]
  · have hv : v < 2 ^ 16 := hlt
    simp [signExtend_ofNat (w := 16) (by decide) (by decide) hv]
  · simp

/-- An aligned load of a lane (R316, R335). -/
theorem opLd_lane {n t d a sz mode off : Nat} {bsel sx : Bool} (hn : n ≠ supCore) (hc : s.core n = c) (hw : c.wb = [])
    (hal : (c.ea a mode off).1.toNat % szBytes sz = 0)
    (hm : laneMapped s n (c.bank a bsel) (c.ea a mode off).1.toNat (szBytes sz) false = true)
    (hj : 0x10 ≤ c.bank a bsel ∧ c.bank a bsel ≤ 0x1F →
      judge s n (sharedAddr n (c.bank a bsel) (c.ea a mode off).1.toNat) 0 = 0) :
    opLd n t d a sz bsel mode sx off s = opSeq (s.setCore n ((c.setA a (c.ea a mode off).2).setD d
      (extendLoad sx (laneRead s n (c.bank a bsel) (c.ea a mode off).1.toNat (szBytes sz))))) := by
  subst hc
  simp [opLd, hal, memLoad_lane hn hm hw hj]

/-- Settles O15: a load waits for nothing, is granted, and reads its bank's bytes. -/
theorem loads : Obligations.Loads := by
  unfold Obligations.Loads
  intro s i r k d a sz bsel mode sx off h l c u o a' b n v w hsel hoff hal hmap hjudge hk
  have hcore : u.core l = c := State.core_atIssue
  have ho : (c.ea a.val mode.val off.toNat).1 = o := Core.ea_fst c a.val mode off
  have ha' : (c.ea a.val mode.val off.toNat).2 = a' := Core.ea_snd c a.val mode off
  have hn : szBytes sz.val = n := szBytes_fin sz
  have humap : laneMapped u l b o.toNat n false = true := (laneMapped_congr (State.lane_atIssue l) ..).trans hmap
  have hx : extendLoad sx (laneRead u l b o.toNat n) = w := extendLoad_eq sx sz (laneRead_length humap)
  refine ⟨runs_of_setCore h rfl (op := .ld d.val a.val sz.val bsel mode.val sx off.toNat) ?run rfl rfl rfl (by simp) ?legal ?time, ?dmem⟩
  case run =>
    rw [← ho] at hal humap hjudge hx
    rw [← hn] at hal humap hx
    rw [← hx, ← ha']
    exact opLd_lane h.ne hcore h.wb hal humap hjudge
  case legal => exact legal_access hsel hoff
  case time =>
    show coreTime l _ (.ld d.val a.val sz.val bsel mode.val sx off.toNat) u = k
    rw [coreTime_ld h.ne (hcore ▸ h.wb) (hcore ▸ h.wbT), hcore, ho, hk]
  case dmem =>
    show Memory.readN (u.lane l).mem _ n = _
    rw [show u.lane l = s.lane l from State.lane_atIssue l]

end Sys2Proof.Machine
end

section
/-!
Stores of a lane: to DMEM at once, and to the frame window or SHARED through the write buffer (R318, R335).
-/
namespace Sys2Proof.Machine
variable {s : State} {i : Issue} {r : Run} {c : Core}

/-- With nothing in the write buffer a store is counted 1 (R318). -/
theorem storeCount_of_empty (hw : c.wb = []) (ht : c.wbT = []) (t : Nat) : storeCount c t = 1 := by simp [storeCount, hw, ht]

/-- A store becomes the one entry of an empty write buffer; its access begins in the next cycle (R318). -/
theorem pushWb_of_empty {l t bank off : Nat} {bs : Bytes} (hc : s.core l = c) (hw : c.wb = []) (ht : c.wbT = []) :
    pushWb l t bank off bs s = s.setCore l { c with wb := [⟨bank, off, bs, t + bankTime bank off⟩] } := by
  subst hc
  have hdone : Nat.max (t + 1) 1 + bankTime bank off - 1 = t + bankTime bank off := by
    rw [show Nat.max (t + 1) 1 = t + 1 from Nat.max_eq_left (by omega)]
    omega
  simp only [pushWb, storeCount_of_empty hw ht, drainTo_empty hw, hw, wbLast_of_empty hw ht, List.nil_append, Nat.zero_add, hdone]

/-- A store of a lane to a bank that it may write. -/
theorem memStore_lane {n t bank off : Nat} {bs : Bytes} (hn : n ≠ supCore) (hm : laneMapped s n bank off bs.length true = true) :
    memStore n t bank off bs s = { st := if buffered bank then pushWb n t bank off bs s else laneWrite n bank off bs s } := by
  simp [memStore, mapped, hn, hm]

/-- An aligned store of a lane (R318, R335). -/
theorem opSt_lane {n t d a sz mode off : Nat} {bsel : Bool} {u : State} (hn : n ≠ supCore) (hc : s.core n = c)
    (hal : (c.ea a mode off).1.toNat % szBytes sz = 0)
    (hm : laneMapped s n (c.bank a bsel) (c.ea a mode off).1.toNat (szBytes sz) true = true)
    (hu : (if buffered (c.bank a bsel) then
        pushWb n t (c.bank a bsel) (c.ea a mode off).1.toNat (beBytes (c.dr d).toNat (szBytes sz)) s
      else laneWrite n (c.bank a bsel) (c.ea a mode off).1.toNat (beBytes (c.dr d).toNat (szBytes sz)) s) = u) :
    opSt n t d a sz bsel mode off s = opSeq (u.setCore n ((u.core n).setA a (c.ea a mode off).2)) := by
  subst hc hu
  have hstore := memStore_lane (t := t) (bs := beBytes ((s.core n).dr d).toNat (szBytes sz)) hn (by rwa [beBytes_length])
  simp [opSt, hal, hstore]

theorem coreTime_st {n t d a sz off : Nat} {bsel : Bool} {mode : Nat} (hw : (s.core n).wb = [])
    (ht : (s.core n).wbT = []) : coreTime n t (.st d a sz bsel mode off) s = 1 := by
  simp only [coreTime, storeCount_of_empty hw ht, ite_self]

/-- Settles O16: a store to DMEM is a write of the lane's memory, any other an entry of the write buffer. -/
theorem stores : Obligations.Stores := by
  unfold Obligations.Stores
  intro s i r d a sz bsel mode off h l c v o a' b n bytes x base hsel hoff hal hmap
  have hcore : (s.atIssue i r).core l = c := State.core_atIssue
  have ho : (c.ea a.val mode.val off.toNat).1 = o := Core.ea_fst c a.val mode off
  have ha' : (c.ea a.val mode.val off.toNat).2 = a' := Core.ea_snd c a.val mode off
  have hn : szBytes sz.val = n := szBytes_fin sz
  have humap : laneMapped (s.atIssue i r) l b o.toNat n true = true := (laneMapped_congr (State.lane_atIssue l) ..).trans hmap
  have htime : opTime l v.cyc (.st d.val a.val sz.val bsel mode.val off.toNat) (s.atIssue i r) = 1 :=
    coreTime_st (t := v.cyc) (d := d.val) (mode := mode.val) (sz := sz.val) (off := off.toNat) (hcore ▸ h.wb) (hcore ▸ h.wbT)
  have hst {u : State} (hu : (if buffered b then pushWb l v.cyc b o.toNat bytes (s.atIssue i r)
        else laneWrite l b o.toNat bytes (s.atIssue i r)) = u) :
      runOp l v.cyc (.st d.val a.val sz.val bsel mode.val off.toNat) (s.atIssue i r) = opSeq (u.setCore l ((u.core l).setA a.val a')) := by
    show opSt l v.cyc d.val a.val sz.val bsel mode.val off.toNat (s.atIssue i r) = _
    rw [← ho] at hal humap hu
    rw [← hn] at hal humap
    rw [← ha']
    exact opSt_lane h.ne hcore hal humap (hn ▸ hu)
  have hlegal : (COp.st d.val a.val sz.val bsel mode.val off.toNat).legal = true := legal_access hsel hoff
  refine ⟨fun hb => ?dmem, fun hb => ?buffered⟩
  case dmem =>
    let w : Lane := { v with mem := v.mem.writeN base bytes }
    have hrun := hst (u := (s.atIssue i r).setLane l w) (by rw [hb]; simp [buffered, laneWrite, w, base, v])
    obtain ⟨t, hx, honly, htcore, htlane⟩ := exec_of_mem (x := x) (c := c.setA a.val a') (mem := v.mem.writeN base bytes) h rfl hrun
      (((laneOnly_atIssue h.ne).setLane w).setCore h.ne _) (by rw [State.lane_setCore, State.lane_setLane])
      (by rw [State.core_setCore, State.core_setLane, State.core_atIssue]) rfl rfl (by simp) hlegal htime
    refine ⟨t, hx, honly, htcore, htlane, fun j hj => ?_, fun y hy => ?_⟩
    · rw [htlane]
      exact Memory.read_writeN_same _ _ _ (by simpa [bytes] using hj)
    · rw [htlane]
      exact Memory.read_writeN_other _ _ (by simpa [bytes] using hy)
  case buffered =>
    have hbuf : buffered b = true := by simpa [buffered] using hb
    have htime' : bankTime b o.toNat = if b = 1 ∧ o.toNat < 0x800 then 6 else 20 := by
      simp only [bankTime]
      split_ifs <;> omega
    have hrun := hst ((if_pos hbuf).trans (pushWb_of_empty hcore h.wb h.wbT))
    rw [htime', State.core_setCore] at hrun
    refine runs_of_opSeq h rfl hrun (((laneOnly_atIssue h.ne).setCore h.ne _).setCore h.ne _) (by simp) (by simp) (State.core_setCore ..) rfl rfl rfl
      (by simp) hlegal htime

end Sys2Proof.Machine
end

section
/-!
The data stack of a lane in DMEM (R326, R337).
-/
namespace Sys2Proof.Machine
variable {s u v : State} {i : Issue} {r : Run} {k : Nat} {c : Core} {l : Nat}

theorem LaneOnly.trans (h : LaneOnly l s u) (h' : LaneOnly l u v) : LaneOnly l s v :=
  ⟨by rw [h'.rest, h.rest], fun m hm => (h'.cores m hm).trans (h.cores m hm), fun m hm => (h'.lanes m hm).trans (h.lanes m hm)⟩

theorem Memory.writeN_append (m : Memory) (a : Nat) (bs cs : Bytes) : m.writeN a (bs ++ cs) = (m.writeN a bs).writeN (a + bs.length) cs := by
  induction bs generalizing m a with
  | nil => rfl
  | cons b bs ih =>
    show (m.write a b).writeN (a + 1) (bs ++ cs) = _
    rw [ih, List.length_cons, show a + (bs.length + 1) = a + 1 + bs.length by omega]
    rfl

/-- The address in a lane's memory of an offset of DMEM, in the half of the running bank (R265). -/
def Lane.dmem (w : Lane) (off : Nat) : Nat := 0x10000 + (if w.runB then 0x8000 else 0) + off

theorem laneMapped_dmem {off n : Nat} (h : off + n ≤ 0x8000) (wr : Bool) : laneMapped s l 0 off n wr = true := by
  simp [laneMapped, laneBankMax, h]

/-- A store to DMEM. -/
theorem memStore_dmem {t off : Nat} {bs : Bytes} (hl : l ≠ supCore) (h : off + bs.length ≤ 0x8000) : memStore l t 0 off bs s =
    { st := s.setLane l { s.lane l with mem := (s.lane l).mem.writeN ((s.lane l).dmem off) bs } } := by
  simp [memStore_lane hl (laneMapped_dmem h true), buffered, laneWrite, Lane.dmem]

/-- A load from DMEM. -/
theorem memLoad_dmem {t off n : Nat} (hl : l ≠ supCore) (h : off + n ≤ 0x8000) (hw : (s.core l).wb = []) : memLoad l t 0 off n s =
    { st := s, bs := (s.lane l).mem.readN ((s.lane l).dmem off) n } := by
  simp [memLoad_lane hl (laneMapped_dmem h false) hw, laneRead, Lane.dmem]

/-- Words pushed onto DMEM are written one after the other. -/
theorem pushAll_dmem (hl : l ≠ supCore) (ws : List Word) {t off : Nat} {s : State} (h : off + 4 * ws.length ≤ 0x8000) :
    ∃ u, pushAll l 0 t off ws s = { st := u } ∧ LaneOnly l s u ∧ u.dt = s.dt ∧ (∀ m, u.core m = s.core m) ∧ u.lane l =
      { s.lane l with mem := (s.lane l).mem.writeN ((s.lane l).dmem off) (ws.flatMap (fun w => beBytes w.toNat 4)) } := by
  induction ws generalizing t off s with
  | nil => exact ⟨s, rfl, LaneOnly.refl s l, rfl, fun _ => rfl, rfl⟩
  | cons w ws ih =>
    rw [List.length_cons] at h
    let s' : State := s.setLane l { s.lane l with mem := (s.lane l).mem.writeN ((s.lane l).dmem off) (beBytes w.toNat 4) }
    obtain ⟨u, hu, honly, hdt, hcore, hlane⟩ := ih (t := t + 1) (off := off + 4) (s := s') (by omega)
    have hstep := memStore_dmem (s := s) (t := t) (off := off) (bs := beBytes w.toNat 4) hl (by simp; omega)
    refine ⟨u, ?_, ((LaneOnly.refl s l).setLane _).trans honly, hdt, hcore, ?_⟩
    · simpa [pushAll, hstep, buffered] using hu
    · rw [hlane, State.lane_setLane, List.flatMap_cons, Memory.writeN_append, beBytes_length]
      simp only [Lane.dmem]
      rfl

/-- Words popped from DMEM are read downwards, and nothing changes. -/
theorem popAll_dmem (hl : l ≠ supCore) (hw : (s.core l).wb = []) (k : Nat) {t off : Nat} (h4 : 4 * k ≤ off) (h : off ≤ 0x8000) :
    popAll l t 0 k off s = { st := s, bs := (List.range k).flatMap (fun j =>
      (s.lane l).mem.readN ((s.lane l).dmem (off - 4 * (j + 1))) 4) } := by
  induction k generalizing off with
  | zero => rfl
  | succ k ih =>
    have hstep := memLoad_dmem (s := s) (t := t) (off := off - 4) (n := 4) hl (by omega) hw
    have hrest (j : Nat) : off - 4 - 4 * (j + 1) = off - 4 * (j + 1 + 1) := by omega
    simp only [popAll, hstep, ih (off := off - 4) (by omega) (by omega), hrest, List.range_succ_eq_map, List.flatMap_cons, List.flatMap_map]

/-- Cutting a byte string into its words. -/
theorem chunks_flatMap {α : Type} (f : α → Bytes) (hf : ∀ a, (f a).length = 4) (as : List α) : chunks 4 (as.flatMap f) = as.map f := by
  have hlen (as : List α) : as.length ≤ (as.flatMap f).length := by
    induction as with
    | nil => simp
    | cons a as ih => simp [hf] at ih ⊢; omega
  have hfuel (fuel : Nat) (h : as.length < fuel) : chunksF 4 fuel (as.flatMap f) = as.map f := by
    induction as generalizing fuel with
    | nil => cases fuel <;> simp [chunksF]
    | cons a as ih =>
      obtain ⟨n, rfl⟩ : ∃ n, fuel = n + 1 := ⟨fuel - 1, by simp at h; omega⟩
      have hne : ¬ (f a ++ as.flatMap f).isEmpty = true := by
        have := hf a
        cases hfa : f a <;> simp_all
      simp only [List.flatMap_cons, chunksF, if_neg hne, List.map_cons]
      rw [← hf a, List.take_left', List.drop_left']
      · rw [hf a, ih n (by simpa using h)]
      · rfl
      · rfl
  exact hfuel _ (Nat.lt_succ_of_le (hlen as))

theorem pushTime_dmem (c : Core) (k t off : Nat) : pushTime c 0 k t off = k := by cases k <;> rfl

theorem popTime_dmem (c : Core) (k t off : Nat) : popTime c 0 t k off = k := rfl

/-! PUSH and POP. -/

theorem dsLimit_lane (hl : l ≠ supCore) : dsLimit s l = if (s.lane l).runB then (s.lane l).dslimB else (s.lane l).dslimA := if_neg hl

/-- Words pushed with room below the limit (R326). -/
theorem opPush_dmem {t : Nat} {ws : List Word} (hl : l ≠ supCore) (hc : s.core l = c) (hs : c.sbk = 0) (hal : (c.ar 7).toNat % 4 = 0)
    (hlim : (c.ar 7).toNat + 4 * ws.length ≤ dsLimit s l) (hmem : (c.ar 7).toNat + 4 * ws.length ≤ 0x8000) :
    ∃ u, opPush l t ws s = opSeq (u.setCore l (c.setA 7 (BitVec.ofNat 16 ((c.ar 7).toNat + 4 * ws.length)))) ∧ LaneOnly l s u ∧
      u.dt = s.dt ∧ u.lane l = { s.lane l with
        mem := (s.lane l).mem.writeN ((s.lane l).dmem (c.ar 7).toNat) (ws.flatMap (fun w => beBytes w.toNat 4)) } := by
  subst hc
  obtain ⟨u, hu, honly, hdt, hcore, hlane⟩ := pushAll_dmem (s := s) hl ws (t := t) hmem
  have hfind : (List.range ws.length).find? (fun i => ! mapped s l 0 (((s.core l).ar 7).toNat + 4 * i) 4 true) = none := by
    rw [List.find?_eq_none]
    intro j hj
    rw [List.mem_range] at hj
    have hm : laneMapped s l 0 (((s.core l).ar 7).toNat + 4 * j) 4 true = true := laneMapped_dmem (by omega) true
    simp [mapped, hl, hm]
  refine ⟨u, ?_, honly, hdt, hlane⟩
  simp [opPush, hs, Nat.not_lt.2 hlim, hal, hfind, pushRefusal, hl, hu, hcore]

/-- Words popped where the stack holds them (R326). -/
theorem opPop_dmem {t k : Nat} {put : List Word → Core → Core} (hl : l ≠ supCore) (hc : s.core l = c) (hw : c.wb = []) (hs : c.sbk = 0)
    (hal : (c.ar 7).toNat % 4 = 0) (hk : 4 * k ≤ (c.ar 7).toNat) (hmem : (c.ar 7).toNat ≤ 0x8000) :
    opPop l t k put s = opSeq (s.setCore l (put ((List.range k).map (fun j => BitVec.ofNat 32 (beNat ((s.lane l).mem.readN
      ((s.lane l).dmem ((c.ar 7).toNat - 4 * (j + 1))) 4)))) (c.setA 7 (BitVec.ofNat 16 ((c.ar 7).toNat - 4 * k))))) := by
  subst hc
  simp [opPop, hs, Nat.not_lt.2 hk, hal, popAll_dmem hl hw k hk hmem, chunks_flatMap, Function.comp_def]

/-! The registers that POPM writes. -/

/-- Registers written in turn: one that is not among them keeps its value. -/
theorem dr_foldl_setD_other (ps : List (Nat × Word)) (c : Core) {j : Nat} (h : ∀ p ∈ ps, p.1 ≠ j) :
    (ps.foldl (fun (c : Core) (p : Nat × Word) => c.setD p.1 p.2) c).dr j = c.dr j := by
  induction ps generalizing c with
  | nil => rfl
  | cons p ps ih =>
    rw [List.foldl_cons, ih _ fun q hq => h q (List.mem_cons_of_mem _ hq)]
    exact Tab.look_put_other _ _ _ (h p List.mem_cons_self).symm

/-- Registers written in turn, each once: one of them holds its word. -/
theorem dr_foldl_setD_mem (ps : List (Nat × Word)) (c : Core) (hnd : (ps.map Prod.fst).Nodup) {j : Nat} {w : Word} (h : (j, w) ∈ ps) :
    (ps.foldl (fun (c : Core) (p : Nat × Word) => c.setD p.1 p.2) c).dr j = w := by
  induction ps generalizing c with
  | nil => cases h
  | cons p ps ih =>
    rw [List.map_cons, List.nodup_cons] at hnd
    rw [List.foldl_cons]
    rcases List.mem_cons.1 h with rfl | h
    · rw [dr_foldl_setD_other]
      · exact Tab.look_put_same _ _ _ _
      · rintro q hq rfl
        exact hnd.1 (List.mem_map.2 ⟨q, hq, rfl⟩)
    · exact ih _ hnd.2 h

/-- Registers written in turn: nothing else of the core changes. -/
theorem foldl_setD_rest (ps : List (Nat × Word)) (c : Core) :
    { ps.foldl (fun (c : Core) (p : Nat × Word) => c.setD p.1 p.2) c with d := c.d } = c := by
  induction ps generalizing c with
  | nil => rfl
  | cons p ps ih =>
    have h := ih (c.setD p.1 p.2)
    rw [List.foldl_cons]
    exact congrArg (fun e : Core => { e with d := c.d }) h

theorem maskRegs_eq (mask : BitVec 16) : maskRegs mask.toNat = (List.range 16).filter (fun j => mask.getLsbD j) := rfl

/-- The word that POPM puts in the register `j` of its mask. -/
theorem mem_zip_popm {rs : List Nat} {f : Nat → Word} {j : Nat} (h : j ∈ rs) :
    (j, f (rs.length - 1 - rs.idxOf j)) ∈ rs.reverse.zip ((List.range rs.length).map f) := by
  have hi := List.idxOf_lt_length_iff.2 h
  rw [List.mem_iff_getElem]
  refine ⟨rs.length - 1 - rs.idxOf j, by simp; omega, ?_⟩
  have hback : rs.length - 1 - (rs.length - 1 - rs.idxOf j) = rs.idxOf j := by omega
  simp [List.getElem_zip, List.getElem_reverse, hback]

/-- Settles O17: a push writes the words above A7, a pop reads the words below it. -/
theorem stack : Obligations.Stack := by
  unfold Obligations.Stack
  intro s i r d a mask k h l c v p base rs room word pushed hsbk hal
  have hcore : (s.atIssue i r).core l = c := State.core_atIssue
  have hlane : (s.atIssue i r).lane l = v := State.lane_atIssue l
  have push {x : Instr} {op : COp} {ws : List Word} {bs : Bytes} (hx : exec x s = ok (issue i op s))
      (hrun : runOp l v.cyc op (s.atIssue i r) = opPush l v.cyc ws (s.atIssue i r))
      (hbs : ws.flatMap (fun w => beBytes w.toNat 4) = bs) (hroom : room ws.length)
      (htime : opTime l v.cyc op (s.atIssue i r) = k) (hf : op.forCore false = true := by rfl)
      (hc : ∀ u a b c d, op ≠ .cu u a b c d := by simp) (hl : op.legal = true := by rfl) : pushed x bs := by
    have hlim : p + 4 * ws.length ≤ dsLimit (s.atIssue i r) l := by rw [dsLimit_lane h.ne, hlane]; exact hroom.1
    obtain ⟨u, hu, honly, hdt, hul⟩ := opPush_dmem (t := v.cyc) h.ne hcore hsbk hal hlim hroom.2
    have hlen : bs.length = 4 * ws.length := by rw [← hbs, List.length_flatMap]; simp [Nat.mul_comm]
    rw [hlane, hbs] at hul
    rw [← hlen] at hu
    exact exec_of_mem h hx (hrun.trans hu) (((laneOnly_atIssue h.ne).trans honly).setCore h.ne _) ((State.lane_setCore ..).trans hul)
      (State.core_setCore ..) rfl hf hc hl htime
  have pop {x : Instr} {op : COp} {put : List Word → Core → Core} {e : Core} {n : Nat} (hx : exec x s = ok (issue i op s))
      (hrun : runOp l v.cyc op (s.atIssue i r) = opPop l v.cyc n put (s.atIssue i r)) (hn : 4 * n ≤ p) (hp : p ≤ 0x8000)
      (hput : put ((List.range n).map (fun j => BitVec.ofNat 32 (beNat (v.mem.readN (v.dmem ((c.ar 7).toNat - 4 * (j + 1))) 4))))
        (c.setA 7 (BitVec.ofNat 16 ((c.ar 7).toNat - 4 * n))) = e)
      (hd : e.ldepth = c.ldepth) (hpc : e.pc = c.pc) (htime : opTime l v.cyc op (s.atIssue i r) = k)
      (hf : op.forCore false = true := by rfl) (hc : ∀ u a b c d, op ≠ .cu u a b c d := by simp) (hl : op.legal = true := by rfl) :
      Runs x i r k e s := by
    have hpop := opPop_dmem (t := v.cyc) (put := put) (s := s.atIssue i r) h.ne hcore h.wb hsbk hal hn hp
    rw [hlane, hput] at hpop
    exact runs_of_setCore h hx (hrun.trans hpop) hd hpc hf hc hl htime
  have htpush (n : Nat) : pushTime ((s.atIssue i r).core l) ((s.atIssue i r).core l).sbk.toNat n v.cyc (((s.atIssue i r).core l).ar 7).toNat = n := by
    rw [hcore, hsbk]
    exact pushTime_dmem ..
  have htpop (n : Nat) : popTime ((s.atIssue i r).core l) ((s.atIssue i r).core l).sbk.toNat v.cyc n (((s.atIssue i r).core l).ar 7).toNat = n := by
    rw [hcore, hsbk]
    rfl
  have hne : l ≠ supCore := h.ne
  have time1 (f reg : Nat) (hk : k = 1) : opTime l v.cyc (.stk f reg) (s.atIssue i r) = k := by
    simp [opTime, coreTime, htpush, htpop, hk]
  have timeMask (f : Nat) (hk : k = rs.length) (hrs : rs ≠ []) : opTime l v.cyc (.stkm f mask.toNat) (s.atIssue i r) = k := by
    have hlen : (maskRegs mask.toNat).length = k := hk.symm
    have hk0 : k ≠ 0 := hk ▸ (List.length_pos_iff.2 hrs).ne'
    simp [opTime, coreTime, htpush, htpop, hlen, hk0, hne]
  refine ⟨fun hk hroom => ⟨?push, ?pusha⟩, fun hk hne hroom => ?pushm, fun hk h4 hp => ⟨?pop, ?popa⟩, fun hk hrs h4 hp => ?popm⟩
  case push => exact push (op := .stk 0 d.val) (ws := [c.dr d.val]) rfl (by rw [← hcore]; rfl) (by simp) hroom (time1 _ _ hk)
  case pusha =>
    have hword : ((c.ar a.val).zeroExtend 32).toNat = (c.ar a.val).toNat := by
      rw [BitVec.toNat_setWidth]
      exact Nat.mod_eq_of_lt (by omega)
    exact push (op := .stk 2 a.val) (ws := [(c.ar a.val).zeroExtend 32]) rfl (by rw [← hcore]; rfl) 
      (by rw [List.flatMap_singleton, hword]) hroom (time1 _ _ hk)
  case pushm =>
    exact push (op := .stkm 4 mask.toNat) (ws := rs.map c.dr) rfl (by rw [← hcore]; rfl) (by simp [List.flatMap_map]) (by simpa using hroom)
      (timeMask 4 hk hne)
  case pop =>
    have hpop := pop (x := .pop i d) (op := .stk 1 d.val) (n := 1) (put := fun ws c => c.setD d.val (ws.headD 0))
      (e := (c.setA 7 (BitVec.ofNat 16 (p - 4))).setD d.val (word (p - 4))) rfl rfl h4 hp rfl rfl rfl (time1 _ _ hk)
    rwa [hk] at hpop
  case popa =>
    have hpop := pop (x := .popa i a) (op := .stk 3 a.val) (n := 1) (put := fun ws c => c.setA a.val ((ws.headD 0).truncate 16))
      (e := (c.setA 7 (BitVec.ofNat 16 (p - 4))).setA a.val ((word (p - 4)).extractLsb' 0 16)) rfl rfl h4 hp
      (by rw [extractLsb'_zero]; rfl) rfl rfl (time1 _ _ hk)
    rwa [hk] at hpop
  case popm =>
    let f (j : Nat) : Word := BitVec.ofNat 32 (beNat (v.mem.readN (v.dmem (p - 4 * (j + 1))) 4))
    let ps : List (Nat × Word) := rs.reverse.zip ((List.range rs.length).map f)
    let c7 : Core := c.setA 7 (BitVec.ofNat 16 (p - 4 * rs.length))
    let e : Core := ps.foldl (fun (c : Core) (p : Nat × Word) => c.setD p.1 p.2) c7
    have hrest : { e with d := c7.d } = c7 := foldl_setD_rest ps c7
    have keys : ps.map Prod.fst = rs.reverse := by simp [ps, List.map_fst_zip]
    refine ⟨e, ?_, ?_, fun j => ?_, fun j => ?_, ?_⟩
    · have hput : (maskRegs mask.toNat).reverse.length = rs.length := List.length_reverse
      refine pop (x := .popm i mask) (op := .stkm 5 mask.toNat) (n := rs.length) (put := fun ws c =>
        (rs.reverse.zip ws).foldl (fun (c : Core) (p : Nat × Word) => c.setD p.1 p.2) c) rfl ?_ h4 hp rfl (congrArg Core.ldepth hrest :)
        (congrArg Core.pc hrest :) (timeMask 5 hk hrs)
      rw [← hput]
      rfl
    · have hA : e.a = c7.a := (congrArg Core.a hrest :)
      show Tab.look 0 e.a 7 = _
      rw [hA]
      exact Tab.look_put_same _ _ _ _
    · split_ifs with hj
      · have hmem : j.val ∈ rs := List.mem_filter.2 ⟨List.mem_range.2 j.isLt, hj⟩
        have hidx := List.idxOf_lt_length_iff.2 hmem
        have hat : p - 4 * (rs.length - 1 - rs.idxOf j.val + 1) = p - 4 * rs.length + 4 * rs.idxOf j.val := by omega
        have hdr : e.dr j.val = f (rs.length - 1 - rs.idxOf j.val) :=
          dr_foldl_setD_mem ps c7 (by rw [keys]; exact List.nodup_reverse.2 (List.nodup_range.filter _)) (mem_zip_popm hmem)
        rw [hdr, ← hat]
        rfl
      · have hnot : ∀ q ∈ ps, q.1 ≠ j.val := by
          intro q hq hqj
          have : q.1 ∈ rs.reverse := keys ▸ List.mem_map_of_mem hq
          rw [hqj, List.mem_reverse] at this
          exact hj (List.mem_filter.1 this).2
        exact dr_foldl_setD_other ps c7 hnot
    · have hA : e.a = c7.a := (congrArg Core.a hrest :)
      show Tab.look 0 e.a j.val = _
      rw [hA]
      exact Tab.look_put_other _ _ _ (by omega)
    · exact (congrArg (fun x : Core => { x with a := c.a }) hrest :)

end Sys2Proof.Machine
end

section
/-!
Traps of a lane (R340-R346): what a lane that traps comes to, entered or ended, whatever the cause.
-/
namespace Sys2Proof.Machine
variable {s u : State} {i : Issue} {r : Run} {k : Nat} {c : Core} {l : Nat}

/-- What a lane runs: a custom opcode by its micro-ops, any other operation or an illegal word by itself. -/
def laneIssued (l t lim : Nat) (g : Bool) (op : Option COp) (s : State) : Prog :=
  match op with
  | some (.cu u ra rb rc imm) => runCustom l t lim g u ra rb rc imm s
  | op => oneOp l t lim g op s

/-- On a lane that can issue it, any operation, or a word that is none. -/
theorem issueLane_can (h : CanIssue s i r k) (op : Option COp) : issueLane i.core.val i.pn i.pg.val op s =
    laneFinish i.core.val (s.atIssue i r) (laneIssued i.core.val (s.lane i.core.val).cyc (s.lane i.core.val).budget true
      (op.filter fun o => o.forCore false) (s.atIssue i r)) := by
  unfold issueLane
  dsimp only
  rw [h.run]
  dsimp only
  rw [drainTo_empty (by simpa using h.wb)]
  dsimp only
  rw [State.core_at, core_filter _ h.wbT, h.imp]
  dsimp only
  rw [h.guard]
  generalize op.filter _ = o
  rcases o with _ | o
  · rfl
  · cases o <;> rfl

/-- On a lane that can issue it, an operation that traps, or a word that is none, is a trap of the lane. -/
theorem issueLane_trap (h : CanIssue s i r k) {op : Option COp} {x : Trp}
    (hop : laneIssued i.core.val (s.lane i.core.val).cyc (s.lane i.core.val).budget true (op.filter fun o => o.forCore false)
      (s.atIssue i r) = { st := s.atIssue i r, t := (s.lane i.core.val).cyc, nx := .trap x }) :
    issueLane i.core.val i.pn i.pg.val op s = laneTrap i.core.val (s.lane i.core.val).cyc x (s.atIssue i r) := by
  rw [issueLane_can h, hop]
  rfl

/-- The trap registers of a lane after a trap at its PC (R345): `h` where a handler takes it. -/
def Lane.trapped (v : Lane) (c : Core) (h : Bool) (cause info : Nat) : Lane :=
  { v with trap := c.pc.toNat * 65536 + 32768 + (if h then 0 else 16384) + (if v.runB then 8192 else 0) + cause, trapAddr := info * 2 ^ 24 }

theorem trapped_eq (v : Lane) (c : Core) (h : Bool) (cause info : Nat) :
    { v with trap := c.pc.toNat * 65536 + b2n true * 32768 + b2n (! h) * 16384 + b2n v.runB * 8192 + cause
             trapAddr := info * 2 ^ 24 + 0 % 2 ^ 24 } = v.trapped c h cause info := by
  cases h <;> simp [Lane.trapped, b2n]

/-- A trap that the image's handler takes (R342). -/
theorem laneTrap_entered {t e : Nat} {x : Trp} (hc : u.core l = c) (hr : (u.lane l).run = some r) (ht : t + 3 < (u.lane l).budget)
    (hin : c.inTrap = false) (he : trapEntry u l = some e) (hx : x.epcv = true) (ha : x.eaddr = 0) (hinfo : x.info < 256) :
    laneTrap l t x u =
      let b := ((u.setLane l ((u.lane l).trapped c true x.code x.info)).setCore l { c with
        epc := c.pc, ecause := BitVec.ofNat 32 (2 ^ 31 + x.info * 256 + x.code), eaddr := 0, ldepth := 0
        inTrap := true, pc := BitVec.ofNat 16 e }).bump (0xB400 + l) 5
      (b.setLane l { b.lane l with cyc := t + 3 }).at (r.start + (t + 3)) := by
  subst hc
  have hgo : ∀ b : State, (b.lane l).run = some r → t + 3 < (b.lane l).budget →
      laneGoOn l (t + 3) b = (b.setLane l { b.lane l with cyc := t + 3 }).at (r.start + (t + 3)) := fun b => laneGoOn_of_lt
  unfold laneTrap
  simp only [hin, he, hx, ha, Bool.false_eq_true, if_false, if_true, Nat.mod_eq_of_lt hinfo, Option.isNone_some]
  rw [hgo]
  · simp [Lane.trapped, b2n, ite_mul]
  · simpa using hr
  · simpa using ht

/-- A trap that ends the run (R344, R346). -/
theorem laneTrap_ended {t : Nat} {x : Trp} (hc : u.core l = c) (hr : (u.lane l).run = some r) (hw : c.wb = []) (hwt : c.wbT = [])
    (ht : t + 1 + postStall u l (r.start + t) ≤ (u.lane l).budget) (hin : c.inTrap = true ∨ trapEntry u l = none) (hx : x.epcv = true)
    (ha : x.eaddr = 0) (hinfo : x.info < 256) : laneTrap l t x u =
      let a := u.setLane l ((u.lane l).trapped c false x.code x.info)
      endRun l (t + 1 + postStall a l (r.start + t)) x.status [] ((flushWb l a).bump (0xB400 + l) 6) := by
  subst hc
  have hnone : (if (u.core l).inTrap = true then none else trapEntry u l) = none := by
    rcases hin with hin | hin
    · rw [if_pos hin]
    · rw [hin, ite_self]
  have hwait (v : Lane) : endWait l t (u.setLane l v) = 0 := by
    simp only [endWait, drainAll, State.core_setLane, drainTo_empty (s := u.setLane l v) hw]
    exact wbWait_of_empty hw hwt t
  have hstall (v : Lane) (hv : v.posts = (u.lane l).posts) (n : Nat) : postStall (u.setLane l v) l n = postStall u l n := by
    simp only [postStall, State.lane_setLane, hv]
  have hrun (v : Lane) (hv : v.run = some r) : laneRun (u.setLane l v) l = r := by
    simp [laneRun, hv]
  have hlane := trapped_eq (u.lane l) (u.core l) false x.code x.info
  rw [Bool.not_false] at hlane
  unfold laneTrap
  simp only [hnone, hx, ha, hwait, Nat.add_zero, Nat.mod_eq_of_lt hinfo, Option.isNone_none, if_true, hlane]
  generalize hv : (u.lane l).trapped (u.core l) false x.code x.info = v
  rw [hrun v (hv ▸ hr), hstall v (by rw [← hv]; rfl), if_neg (Nat.not_lt.2 ht)]

/-- Settles O19: TRAP and an illegal word are each one trap of the lane, which its handler takes or which ends its run. -/
theorem traps : Obligations.Traps := by
  unfold Obligations.Traps
  intro s i r info w h l c v u code entered ended d
  have hcore : u.core l = c := State.core_atIssue
  have hlane : u.lane l = v := State.lane_atIssue l
  have hleft : v.cyc + 3 < v.budget := h.left
  have hrun : (u.lane l).run = some r := hlane ▸ h.run
  have hlim (hb : v.budget < v.cyc + 0 + 1) : False := by omega
  have soft : exec (.trap i info) s = .next (laneTrap l v.cyc { code := eSOFT, info := info.toNat, status := softStatus info.toNat } u) := by
    have hop : laneIssued l v.cyc v.budget true (some (.trap info.toNat)) u =
        { st := u, t := v.cyc, nx := .trap { code := eSOFT, info := info.toNat, status := softStatus info.toNat } } := by
      show Prog.mk u (v.cyc + 0) _ (decide (v.budget < v.cyc + 0 + 1)) = _
      rw [decide_eq_false hlim]
      rfl
    have hne : i.core.val ≠ supCore := h.ne
    show ok (issueOp i.core.val i.pn i.pg.val _ s) = _
    rw [issueOp, if_neg hne]
    exact congrArg ok (issueLane_trap h hop)
  have illegal (h1 : d.1 = i.pn) (h2 : d.2.1 = i.pg.val) (h3 : d.2.2 = none) :
      exec (.illegalWord i.core w) s = .next (laneTrap l v.cyc { code := eILLEGAL } u) := by
    have hne : i.core.val ≠ supCore := h.ne
    show ok (issueOp i.core.val d.1 d.2.1 d.2.2 s) = _
    rw [issueOp, if_neg hne, h1, h2, h3]
    exact congrArg ok (issueLane_trap h rfl)
  refine ⟨fun e hin he => ?_, fun hin hb => ?_⟩
  · have hgo (x : Trp) (hx : x.epcv = true) (ha : x.eaddr = 0) (hinfo : x.info < 256) : laneTrap l v.cyc x u = entered x.code x.info e := by
      have := laneTrap_entered (x := x) hcore hrun (hlane ▸ hleft) hin he hx ha hinfo
      rw [hlane] at this
      exact this
    exact ⟨soft.trans (congrArg ok (hgo _ rfl rfl info.isLt)), fun h1 h2 h3 => (illegal h1 h2 h3).trans (congrArg ok (hgo _ rfl rfl (by decide)))⟩
  · have hend (x : Trp) (hx : x.epcv = true) (ha : x.eaddr = 0) (hinfo : x.info < 256) : laneTrap l v.cyc x u = ended x.code x.info x.status := by
      have := laneTrap_ended (x := x) hcore hrun h.wb h.wbT (hlane ▸ hb) hin hx ha hinfo
      rw [hlane] at this
      exact this
    have hstatus : softStatus info.toNat = if info.toNat ∈ [0x04, 0x05, 0x06, 0x07, 0x08, 0x0A] then info.toNat else 0x06 := by
      simp [softStatus]
    rw [← hstatus]
    exact ⟨soft.trans (congrArg ok (hend _ rfl rfl info.isLt)), fun h1 h2 h3 => (illegal h1 h2 h3).trans (congrArg ok (hend _ rfl rfl (by decide)))⟩

end Sys2Proof.Machine
end

section
/-!
Custom opcodes (R382-R385) and the write buffer (R318, R319) of a lane.
-/
namespace Sys2Proof.Machine
variable {s u : State} {i : Issue} {r : Run} {k l : Nat} {c d : Core} {op : COp}

/-- A register instruction has no other count where it is guarded off. -/
theorem offTime_of_regOp (h : (regOp op c).isSome) (n t : Nat) (s : State) : offTime n t op s = opTime n t op s := by
  unfold offTime
  split
  case h_6 => rfl
  all_goals simp [regOp] at h

/-- One register instruction of one LCLK, executed or guarded off. -/
theorem oneOp_regOp {n t lim : Nat} {g : Bool} (h : regOp op (s.core n) = some d) (hl : op.legal = true) (ht : opTime n t op s = 1)
    (hlim : t + 1 ≤ lim) : oneOp n t lim g (some op) s = { st := if g then s.setCore n d else s, t := t + 1 } := by
  cases g with
  | true =>
    have hrun : runOp n t op s = opSeq (s.setCore n d) := by unfold runOp; rw [h]
    exact oneOp_on hl hrun (by simp) ht hlim
  | false =>
    have hoff : offTime n t op s = 1 := (offTime_of_regOp (c := s.core n) (by rw [h]; rfl) n t s).trans ht
    have hlim' : ¬ lim < t + 1 := Nat.not_lt.2 hlim
    simp only [oneOp, Bool.false_eq_true, not_false_eq_true, if_true, hoff, decide_eq_false hlim', if_false]
    split
    case h_3 => rfl
    all_goals simp [regOp] at h

/-- What the micro-ops of a custom opcode run on: the lane's state but for the registers of its core. -/
structure UopState (s u : State) (l : Nat) (c : Core) : Prop where
  only : LaneOnly l s u
  lane : u.lane l = s.lane l
  dt : u.dt = s.dt
  core : u.core l = c

theorem UopState.set (h : UopState s u l c) (hl : l ≠ supCore) (d : Core) : UopState s (u.setCore l d) l d :=
  ⟨h.only.setCore hl d, (State.lane_setCore ..).trans h.lane, (State.setCore_dt ..).trans h.dt, State.core_setCore ..⟩

/-- What a micro-op leaves of the registers (R385): `o` is its guard fields and its operation. -/
def uopCore (c : Core) (o : Bool × Nat × COp) : Core := if c.guard o.1 o.2.1 then (regOp o.2.2 c).getD c else c

theorem uopCore_keeps (c : Core) (o : Bool × Nat × COp) : (uopCore c o).pc = c.pc ∧ (uopCore c o).ldepth = c.ldepth ∧
    (uopCore c o).wb = c.wb ∧ (uopCore c o).imp = c.imp := by
  unfold uopCore
  split
  · cases h : regOp o.2.2 c with
    | none => exact ⟨rfl, rfl, rfl, rfl⟩
    | some d =>
      obtain ⟨h1, h2, h3, -, h5⟩ := regOp_keeps h
      exact ⟨h1, h2, h3, h5⟩
  · exact ⟨rfl, rfl, rfl, rfl⟩

theorem foldl_uopCore_keeps (ops : List (Bool × Nat × COp)) (c : Core) :
    (ops.foldl uopCore c).pc = c.pc ∧ (ops.foldl uopCore c).ldepth = c.ldepth := by
  induction ops generalizing c with
  | nil => exact ⟨rfl, rfl⟩
  | cons o ops ih =>
    obtain ⟨h1, h2, -⟩ := uopCore_keeps c o
    obtain ⟨h3, h4⟩ := ih (uopCore c o)
    exact ⟨h3.trans h1, h4.trans h2⟩

/-- Micro-ops of the register file run in order, one LCLK each. -/
theorem runUops_regOps {lim : Nat} (hl : l ≠ supCore) (ops : List (Bool × Nat × COp)) {ws : List Nat} {u : State} {t : Nat} {c : Core}
    (hws : ws.map decodeWord = ops.map (fun o => (o.1, o.2.1, some o.2.2)))
    (hops : ∀ o ∈ ops, o.2.2.legal = true ∧ (∀ c, (regOp o.2.2 c).isSome = true) ∧ ∀ t x, opTime l t o.2.2 x = 1)
    (hu : UopState s u l c) (hw : c.wb = []) (hi : c.imp = none) (hlim : t + ops.length ≤ lim) :
    ∃ v, runUops l lim true ws { st := u, t := t } = { st := v, t := t + ops.length } ∧ UopState s v l (ops.foldl uopCore c) := by
  induction ops generalizing ws u t c with
  | nil =>
    obtain rfl : ws = [] := by simpa using hws
    exact ⟨u, rfl, hu⟩
  | cons o ops ih =>
    obtain ⟨w, ws, rfl⟩ : ∃ w ws', ws = w :: ws' := by
      cases ws with
      | nil => simp at hws
      | cons w ws => exact ⟨w, ws, rfl⟩
    simp only [List.map_cons, List.cons.injEq] at hws
    obtain ⟨hdec, hws⟩ := hws
    obtain ⟨hlegal, hreg, htime⟩ := hops o List.mem_cons_self
    obtain ⟨d, hd⟩ := Option.isSome_iff_exists.1 (hreg c)
    rw [List.length_cons] at hlim
    obtain ⟨-, -, hwb, himp⟩ := uopCore_keeps c o
    have hone : oneOp l t lim (c.guard o.1 o.2.1) (some o.2.2) u =
        { st := if c.guard o.1 o.2.1 then u.setCore l d else u, t := t + 1 } :=
      oneOp_regOp (hu.core.symm ▸ hd) hlegal (htime t u) (by omega)
    have hstep : UopState s (if c.guard o.1 o.2.1 then u.setCore l d else u) l (uopCore c o) := by
      unfold uopCore
      split
      · rw [hd, Option.getD_some]
        exact hu.set hl d
      · exact hu
    obtain ⟨v, hv, hvs⟩ := ih hws (fun o' ho' => hops o' (List.mem_cons_of_mem _ ho')) hstep (hwb.trans hw) (himp.trans hi) (t := t + 1)
      (by omega)
    refine ⟨v, ?_, hvs⟩
    have hempty : drainTo l t 5 u = (none, u) := drainTo_empty (hu.core.symm ▸ hw)
    simp only [runUops, hempty, hu.core, hi, hdec, Bool.true_and, hone, Bool.false_eq_true, if_false, hv, List.length_cons]
    rw [show t + 1 + ops.length = t + (ops.length + 1) by omega]

/-- Settles O20: each micro-op is one register instruction, executed or guarded off. -/
theorem customOpcodes : Obligations.CustomOpcodes := by
  unfold Obligations.CustomOpcodes
  intro s i r u ra rb rc imm slots ops h l hslots hword hdec hops
  obtain ⟨v, hv, hvs⟩ := runUops_regOps (s := s.atIssue i r) (lim := (s.lane l).budget) (t := (s.lane l).cyc) h.ne ops
    (ws := slots.map (fun w => uopWord w ra.val rb.val rc.val imm.toNat)) (by rw [List.map_map]; exact hdec) hops
    ⟨LaneOnly.refl .., rfl, rfl, State.core_atIssue⟩ h.wb h.imp (Nat.le_of_lt h.left)
  obtain ⟨hpc, hdepth⟩ := foldl_uopCore_keeps ops (s.core l)
  have hrun : laneIssued l (s.lane l).cyc (s.lane l).budget true (some (.cu u.val ra.val rb.val rc.val imm.toNat)) (s.atIssue i r) =
      { st := v, t := (s.lane l).cyc + ops.length } := by
    simp only [laneIssued, runCustom, hslots, hword, if_true]
    exact hv
  have hf : COp.forCore false (.cu u.val ra.val rb.val rc.val imm.toNat) = true := rfl
  have hissue : issue i (.cu u.val ra.val rb.val rc.val imm.toNat) s =
      s.afterLane v i r ops.length { ops.foldl uopCore (s.core l) with pc := (ops.foldl uopCore (s.core l)).pc + 4 } := by
    rw [issue, issueOp, if_neg h.ne, issueLane_can h.toCanIssue, Option.filter_some, if_pos hf, hrun,
      laneFinish_seq h (.of_lane (hvs.lane.trans (State.lane_atIssue l))) (by rw [hvs.core, hdepth, h.loops]), hvs.core, ← hpc]
  exact ⟨_, congrArg ok hissue, laneAfter_afterLane h.ne ((laneOnly_atIssue h.ne).trans hvs.only)
    (hvs.lane.trans (State.lane_atIssue l)) hvs.dt⟩

/-- Settles O21: WBSYNC finds nothing to wait for, and the oldest entry's access is granted. -/
theorem writeBuffer : Obligations.WriteBuffer := by
  unfold Obligations.WriteBuffer
  refine ⟨fun s i r h => ?_, fun s l r e es hr hw => ?_⟩
  · have hcore : (s.atIssue i r).core i.core.val = s.core i.core.val := State.core_atIssue
    have hrun : runOp i.core.val (s.lane i.core.val).cyc .wbsync (s.atIssue i r) = opSeq (s.atIssue i r) := by
      show opWbsync _ _ _ = _
      rw [opWbsync, waitEmpty_of_empty h.ne (hcore ▸ h.wb)]
    have htime : opTime i.core.val (s.lane i.core.val).cyc .wbsync (s.atIssue i r) = 1 := by
      show 1 + wbWait _ _ = 1
      rw [hcore, wbWait_of_empty h.wb h.wbT]
    exact runs_of_opSeq h rfl hrun (laneOnly_atIssue h.ne) (State.lane_atIssue _) rfl hcore rfl rfl rfl (by simp) rfl htime
  · intro u hb
    have hstart : laneRun s l.val = r := by simp [laneRun, hr]
    have hgrant : (if e.bank = 1 then 0 else judge u l.val (sharedAddr l.val e.bank e.off) 1) = 0 := by
      rcases hb with hb | ⟨-, -, hj⟩
      · rw [if_pos hb]
      · rw [hj, ite_self]
    show execWriteBufferEntryComplete l s = _
    have hu : u.core l.val = s.core l.val := rfl
    simp only [execWriteBufferEntryComplete, hw, hstart]
    simp only [completeOldest, hu, hw, show s.at (r.start + e.done) = u from rfl, hgrant, if_true]

end Sys2Proof.Machine
end

section
/-!
The runs of a lane: its start (R191, R273), its stop at the budget (R209), and its end by POST or PKSUB (R377, R378).
-/
namespace Sys2Proof.Machine
variable {s u : State} {i : Issue} {r : Run} {k l : Nat}

/-- The image of a run depends on the banks of its lane and on the image that its job names. -/
theorem runImage_congr (hl : u.lane l = s.lane l) (hj : (u.job (laneRun s l).job).image = (s.job (laneRun s l).job).image) :
    runImage u l = runImage s l := by
  have hr : laneRun u l = laneRun s l := by rw [laneRun, laneRun, hl]
  simp only [runImage, hr, hl, hj]

theorem CanIssue.mono {k' : Nat} (h : CanIssue s i r k) (hk : k' ≤ k) : CanIssue s i r k' := { h with left := by have := h.left; omega }

theorem postStall_le (s : State) (l n : Nat) : postStall s l n ≤ 4 := by
  unfold postStall
  split
  · exact Nat.min_le_left _ _
  · exact Nat.zero_le _

/-- Settles O22: the two endings issue like any instruction, and their checks of the operands find nothing. -/
theorem laneRuns : Obligations.LaneRuns := by
  unfold Obligations.LaneRuns
  refine ⟨fun s l e he => ?start, fun s l r hr => ?stop, fun s i r a b p sb h => ?ends⟩
  case start =>
    intro j u v
    let w : Lane := { v with
      run := some ⟨e.job, e.fin, u.dt, u.dt + e.cost⟩, runB := decide (j.bank = 1), cyc := 0, budget := e.cost
      carried := carriedBits v (u.freshBits (tevtKey l.val)) j.epoch
      queue := v.queue.map (fun x => if x.job = e.job ∧ x.fin = e.fin then { x with st := 1 } else x) }
    let entry := imgU (runImage (u.setLane l.val w) l.val) (if e.fin then 26 else 24) 2
    let d : State := ((u.setLane l.val w).setCore l.val (startCore w.runB entry)).setJob e.job { j with stage := if e.fin then 4 else 1 }
    have hl : l.val ≠ supCore := by unfold supCore; omega
    have hu : u = { s with dt := u.dt } := by dsimp only [u]; split <;> rfl
    have hlane (m : Nat) : u.lane m = s.lane m := by rw [hu]; rfl
    have hjob (m : Nat) : u.job m = s.job m := by rw [hu]; rfl
    have hcore (m : Nat) : u.core m = s.core m := by rw [hu]; rfl
    have hd : d = { s with dt := u.dt, unit := { s.unit with lanes := d.unit.lanes, cores := d.unit.cores, jobs := d.unit.jobs } } := by
      simp only [d, State.setCore, if_neg hl]
      rw [hu]
      rfl
    have hrun : runStart l.val s = if e.fin then (d.bump (0xB400 + l.val) 1).bump (0xB400 + l.val) 3 else d.bump (0xB400 + l.val) 1 := by
      simp only [runStart, he]
      rw [hlane]
    obtain ⟨t, ht, htd, hdict⟩ : ∃ t, runStart l.val s = t ∧ t = { d with dict := t.dict } ∧
        t.dict = (if e.fin then (s.bump (0xB400 + l.val) 1).bump (0xB400 + l.val) 3 else s.bump (0xB400 + l.val) 1).dict := by
      refine ⟨_, hrun, ?_, ?_⟩
      · split <;> rfl
      · rw [hd]
        split <;> rfl
    have htlane (m : Nat) : t.lane m = (u.setLane l.val w).lane m := by
      rw [htd]
      exact (State.lane_setJob ..).trans (State.lane_setCore ..)
    have htcore (m : Nat) : t.core m = ((u.setLane l.val w).setCore l.val (startCore w.runB entry)).core m := by
      rw [htd]
      exact State.core_setJob ..
    have htjob (m : Nat) : t.job m = (u.setJob e.job { j with stage := if e.fin then 4 else 1 }).job m := by
      rw [htd]
      show (State.setJob ..).job m = _
      by_cases hm : m = e.job
      · rw [hm, State.job_setJob, State.job_setJob]
      · rw [State.job_setJob_other _ _ _ hm, State.job_setJob_other _ _ _ hm, State.job_setCore, State.job_setLane]
    have hrunOf : laneRun (u.setLane l.val w) l.val = ⟨e.job, e.fin, u.dt, u.dt + e.cost⟩ := by simp [laneRun, w]
    have himage : runImage t l.val = runImage (u.setLane l.val w) l.val := by
      refine runImage_congr (htlane _) ?_
      rw [hrunOf, htjob, State.job_setJob, State.job_setLane, hjob]
    have hentry : imgU (runImage t l.val) (if e.fin then 26 else 24) 2 = entry := by rw [himage]
    refine ⟨t, congrArg ok ht, (htlane _).trans (State.lane_setLane ..), ?_, (htjob _).trans (State.job_setJob ..),
      fun m hm => (htlane m).trans ((State.lane_setLane_other _ _ _ hm).trans (hlane m)),
      fun m hm => (htcore m).trans ((State.core_setCore_other _ _ _ hm).trans (hcore m)),
      fun m hm => (htjob m).trans ((State.job_setJob_other _ _ _ hm).trans (hjob m)), hdict, ?_⟩
    · rw [hentry, htcore, State.core_setCore]
      simp only [startCore, w, decide_eq_true_eq]
    · have htu : t.unit = d.unit := by rw [htd]
      rw [htu]
      exact htd.trans (congrArg (fun x : State => { x with dict := t.dict }) hd)
  case stop =>
    intro v u a
    have hstart : laneRun s l.val = r := by simp [laneRun, hr]
    show execOverrunStop l s = _
    rw [execOverrunStop, if_pos (by rw [hr]; rfl)]
    simp only [overrunStop, hstart]
    rfl
  case ends =>
    intro l c v u st off len o n
    have hcore : u.core l = c := State.core_atIssue
    have hempty (t : Nat) : waitEmpty l t u = { st := u } := waitEmpty_of_empty h.ne (hcore ▸ h.wb) t
    have hwait (t : Nat) : wbWait (u.core l) t = 0 := by rw [hcore]; exact wbWait_of_empty h.wb h.wbT t
    have hrunOf : laneRun u l = r := by
      rw [laneRun, show u.lane l = s.lane l from State.lane_atIssue l, h.run]
      rfl
    have hjob (m : Nat) : u.job m = s.job m := by simp [u, State.atIssue]
    refine ⟨fun hst hlen => ?post, fun hsel hfin hpk hn hn' hbank ho => ?pksub⟩
    case post =>
      have hle := postStall_le u l u.dt
      have hrun : runOp l v.cyc (.post a.val b.val) u = { st := u, nx := .post st off len } := by
        have hargs : (decide (256 ≤ st) || ! postable st) = false := by
          have h1 : postable st = true := List.contains_iff_mem.mpr hst
          have h2 : st < 256 := by
            simp only [List.mem_cons, List.not_mem_nil, or_false] at hst
            omega
          simp [h1, h2]
        have hbody : ¬ (len ≠ 0 ∧ (off + len > 0x2000 ∨ len > (s.job r.job).rmax)) := by omega
        show opPost l v.cyc a.val b.val u = _
        simp only [opPost, hcore, hrunOf, hjob, hempty]
        show (match firstTrap [trapIf (decide (len ≠ 0 ∧ (off + len > 0x2000 ∨ len > (s.job r.job).rmax))) _,
          trapIf (decide (256 ≤ st) || ! postable st) _] with | some x => _ | none => _) = _
        rw [hargs, decide_eq_false hbody]
        rfl
      have htime : opTime l v.cyc (.post a.val b.val) u = 1 + postStall u l u.dt := by
        show wbWait (u.core l) v.cyc + 1 + postStall u l (u.dt + wbWait (u.core l) v.cyc) = _
        rw [hwait, Nat.zero_add, Nat.add_zero]
      have hissue := issue_on (op := .post a.val b.val) (h.mono (k' := 1 + postStall u l u.dt) (by omega)) rfl (by simp) rfl hrun (by simp) htime
      show ok (issue i _ s) = _
      rw [hissue]
      show ok (endRun l (v.cyc + (1 + postStall u l u.dt)) st (frameBody u (laneRun u l).job off len) u) = _
      rw [hrunOf, ← Nat.add_assoc]
      simp only [frameBody, hjob]
    case pksub =>
      have hrun : runOp l v.cyc (.pksub (p.val, sb) a.val) u = { st := u, nx := .pksub o.toNat n } := by
        have hmod : n % 65536 = n := Nat.mod_eq_of_lt (by omega)
        have hwide : ¬ 65536 ≤ n := by omega
        have hargs : ¬ ((s.job r.job).pkOp = 0 ∨ n = 0 ∨ n > 1024 ∨ c.bank p.val sb ≠ 1 ∨ o.toNat + n > 0x2000) := by omega
        show opPksub l v.cyc (p.val, sb) a.val u = _
        simp only [opPksub, hcore, hrunOf, hjob, hempty]
        show (match firstTrap [trapIf (decide (65536 ≤ n)) _,
          trapIf (r.fin || decide ((s.job r.job).pkOp = 0 ∨ n % 65536 = 0 ∨ n % 65536 > 1024 ∨ c.bank p.val sb ≠ 1 ∨ o.toNat + n % 65536 > 0x2000)) _]
          with | some x => _ | none => _) = ({ st := u, nx := .pksub o.toNat n } : OpRes)
        rw [hmod, decide_eq_false hwide, decide_eq_false hargs, hfin]
        rfl
      have htime : opTime l v.cyc (.pksub (p.val, sb) a.val) u = 1 := by
        show 1 + wbWait (u.core l) v.cyc = 1
        rw [hwait]
      have hlegal : COp.legal (.pksub (p.val, sb) a.val) = true := by
        cases sb
        · rfl
        · simpa [COp.legal, selOk] using hsel rfl
      have hissue := issue_on (op := .pksub (p.val, sb) a.val) (h.mono (k' := 1) (by omega)) rfl (by simp) hlegal hrun (by simp) htime
      show ok (issue i _ s) = _
      rw [hissue]
      rfl

end Sys2Proof.Machine
end

section
/-!
The supervisor: the instructions that go on at the next word, ERET, and the interrupts (R395, R396).
-/
namespace Sys2Proof.Machine
variable {s : State} {i : Issue} {k : Nat} {p : SupState} {op : COp}

/-- The state in which an instruction leaves the supervisor keeps what its fetch depends on. -/
structure SupSame (s : State) (p : SupState) : Prop where
  pc : p.core.pc = s.unit.sup.core.pc
  ibk : p.core.ibk = s.unit.sup.core.ibk
  loops : p.core.ldepth = 0
  level : p.level = s.unit.sup.level
  free : p.free = s.unit.sup.free

/-- An instruction that leaves the supervisor `p` and goes on at the next word. -/
theorem issue_sup_seq (h : SupReady s i) (hp : SupSame s p) (hf : op.forCore true = true) (hl : op.legal = true)
    (hrun : runOp supCore 0 op (s.at s.unit.sup.free) = opSeq ((s.at s.unit.sup.free).setSup p))
    (ht : opTime supCore 0 op (s.at s.unit.sup.free) = k) (hk : k ≤ 2) :
    issue i op s = (s.setSup p).afterSup k p.core := by
  have hcore : s.core supCore = s.unit.sup.core := State.core_sup s
  have hword := h.word
  have hone := oneOp_on (lim := 2 ^ 64) hl hrun (by simp) ht (by omega)
  have hfetch := supFetch_same (s := (s.at s.unit.sup.free).setSup p) (o := s.unit.sup.core.pc.toNat + 4) hword (by
    have := h.fetch
    rw [Nat.add_assoc] at this
    rw [← hp.ibk, ← hp.level] at this
    exact (fetchLevel_of_act rfl _).trans this)
  have hset : ((s.at s.unit.sup.free).setSup p).setCore supCore p.core = (s.at s.unit.sup.free).setSup p := State.setCore_sup_self _
  rw [issue_sup h.core h.runs h.quiet (hcore ▸ h.imp) hf, hcore, h.guard, hone]
  have hcore' : ((s.at s.unit.sup.free).setSup p).core supCore = p.core := State.core_sup _
  simp only [supFinish, applyWr, hcore', State.core_at, hcore, State.at_unit, endCheck_of_ldepth hp.loops, Option.getD_none,
    if_neg (Nat.not_lt.2 hword)] at hfetch hset ⊢
  have hibk : ((s.at s.unit.sup.free).setSup p).unit.sup.core.ibk = p.core.ibk := rfl
  rw [hset, ← hp.ibk, ← hibk, hfetch]
  refine (markGate_same hp.level _).trans ?_
  rw [ofNat_pc_add, ← hp.pc]
  simp only [State.setSup, State.afterSup, hp.free, Nat.zero_add]
  rfl

/-- A register instruction of the supervisor. -/
theorem issue_sup_reg {c : Core} (h : SupReady s i) (ho : regOp op s.unit.sup.core = some c) (hf : op.forCore true = true)
    (hl : op.legal = true) (ht : opTime supCore 0 op (s.at s.unit.sup.free) = k) (hk : k ≤ 2) (hibk : c.ibk = s.unit.sup.core.ibk) :
    issue i op s = s.afterSup k c := by
  obtain ⟨hpc, hloops, -, -, -⟩ := regOp_keeps ho
  have hrun : runOp supCore 0 op (s.at s.unit.sup.free) = opSeq ((s.at s.unit.sup.free).setSup { s.unit.sup with core := c }) := by
    unfold runOp
    rw [State.core_sup, show (s.at s.unit.sup.free).unit.sup.core = s.unit.sup.core from rfl, ho]
    rfl
  exact issue_sup_seq (p := { s.unit.sup with core := c }) h ⟨hpc, hibk, hloops.trans h.loops, rfl, rfl⟩ hf hl hrun ht hk

theorem truncate_eq_extractLsb' (v : Word) {n : Nat} (hn : n ≤ 32) : v.truncate n = v.extractLsb' 0 n :=
  BitVec.setWidth_eq_extractLsb' hn

/-- A move of the supervisor's PC to a word whose level it may take (R687, R688). -/
theorem supFetch_of {via : Via} {tgt lv : Nat} (hl : fetchLevel s tgt = some lv) (hok : levelOk via s.unit.sup.level lv = true) :
    supFetch via tgt s = some { s with
      unit := { s.unit with sup := { s.unit.sup with
        core := { s.unit.sup.core with ibk := BitVec.ofNat 8 (tgt / 65536), pc := BitVec.ofNat 16 tgt }, level := lv } }
      act := if lv = 0x60 then s.act else { s.act with romrun := false } } := by
  unfold supFetch
  rw [hl]
  simp only [hok, if_true]
  by_cases h60 : lv = 0x60 <;> simp [h60, State.setSup]

/-- A return entry is marked only where one was pushed. -/
theorem markGate_depth {lvl depth : Nat} (h : s.unit.sup.core.rstack.length = depth) : markGate lvl depth s = s := by
  unfold markGate
  dsimp only
  split
  next e t hrs =>
    have hlen : ¬ t.length = depth := by
      rw [hrs, List.length_cons] at h
      omega
    rw [if_neg fun hc => hlen hc.2]
  next => rfl

/-- A transfer with the mark of ERET, to a word whose level it may take, where no return entry was pushed. -/
theorem supFinish_eret {p : Prog} {tgt a lv : Nat} (hp : p.nx = .go tgt) (ha : tgt = 2 ^ 24 + a) (hl : fetchLevel p.st a = some lv)
    (hok : levelOk .eret p.st.unit.sup.level lv = true) (hd : p.st.unit.sup.core.rstack.length = s.unit.sup.core.rstack.length) :
    supFinish s p = { p.st with
      unit := { p.st.unit with sup := { p.st.unit.sup with
        core := { p.st.unit.sup.core with ibk := BitVec.ofNat 8 (a / 65536), pc := BitVec.ofNat 16 a }, level := lv, free := s.dt + p.t } }
      act := if lv = 0x60 then p.st.act else { p.st.act with romrun := false } } := by
  have hle : 2 ^ 24 ≤ tgt := by omega
  have hsub : tgt - 2 ^ 24 = a := by omega
  -- the moves stay names until the target is known, as the kernel would compute with the mark of 2 ^ 24
  rw [supFinish.eq_def]
  extract_lets c0 busy move inB
  rw [hp]
  dsimp only
  rw [if_pos hle, hsub]
  unfold move
  rw [supFetch_of hl hok]
  exact markGate_depth (hd.trans (congrArg (fun c : Core => c.rstack.length) (State.core_sup s).symm))

/-- ERET goes to SEPC at the level of its word (R396, R688). -/
theorem issue_eret {lv : Nat} (hn : i.core.val = supCore) (hrun : supRuns s = true) (hq : supPending s = 0 ∨ s.unit.sup.ie = false)
    (hg : s.unit.sup.core.guard i.pn i.pg.val = true) (himp : s.unit.sup.core.imp = none) (hl : fetchLevel s s.unit.sup.sepc.toNat = some lv)
    (hok : levelOk .eret s.unit.sup.level lv = true) :
    issue i .eret s = { s with
      dt := Nat.max s.dt s.unit.sup.free
      unit := { s.unit with sup := { s.unit.sup with
        core := { s.unit.sup.core with
          inTrap := false, ibk := BitVec.ofNat 8 (s.unit.sup.sepc.toNat / 65536), pc := BitVec.ofNat 16 s.unit.sup.sepc.toNat }
        ie := s.unit.sup.pie, level := lv, free := Nat.max s.dt s.unit.sup.free + 2 } }
      act := if lv = 0x60 then s.act else { s.act with romrun := false } } := by
  have hcore : s.core supCore = s.unit.sup.core := State.core_sup s
  have hk : opTime supCore 0 .eret (s.at s.unit.sup.free) = 2 := rfl
  have hone := oneOp_on (lim := 2 ^ 64) (op := .eret) rfl rfl (by simp) hk (by decide)
  rw [issue_sup hn hrun hq (hcore ▸ himp) rfl, hcore, hg, hone]
  exact supFinish_eret rfl rfl ((fetchLevel_of_act rfl _).trans hl) hok rfl

/-- Settles O23: a register instruction changes the supervisor's registers alone, and the rest of them follow one form. -/
theorem supervisorInstructions : Obligations.SupervisorInstructions := by
  unfold Obligations.SupervisorInstructions
  intro s i rd a b m p c
  refine ⟨fun h => ?ready, fun lv hn hrun hq hg himp hl hok => ?eret⟩
  case ready =>
    have hsame : SupSame s p := ⟨rfl, rfl, h.loops, rfl, rfl⟩
    have hcore : (s.at s.unit.sup.free).core supCore = c := State.core_sup _
    have hmovi : regOp (.movi rd.val m.toNat) c = some (c.setD rd.val (m.signExtend 32)) := by simp [regOp]
    have hadd : regOp (.alu 0 rd.val a.val b.val 0) c = some (aluCore 0 rd.val a.val b.val 0 c) := rfl
    refine ⟨congrArg ok (issue_sup_reg (k := 1) h rfl rfl rfl rfl (by decide) rfl), congrArg ok ((issue_sup_reg (k := 1) h hadd rfl rfl rfl (by decide) rfl).trans ?add),
      congrArg ok (issue_sup_reg (k := 1) h hmovi rfl rfl rfl (by decide) rfl), congrArg ok (issue_sup_seq h ⟨rfl, rfl, h.loops, rfl, rfl⟩ rfl rfl ?sien rfl (by decide)),
      congrArg ok (issue_sup_seq h ⟨rfl, rfl, h.loops, rfl, rfl⟩ rfl rfl ?svec rfl (by decide)),
      congrArg ok (issue_sup_seq h ⟨rfl, rfl, h.loops, rfl, rfl⟩ rfl rfl ?sepc rfl (by decide)),
      congrArg ok (issue_sup_seq h ⟨rfl, rfl, h.loops, rfl, rfl⟩ rfl rfl rfl rfl (by decide))⟩
    case add => simp [aluCore, addFlags_eq, p, c]
    all_goals
      simp only [runOp, regOp, opCtl, opMtc, hcore, mtcSup, truncate_eq_extractLsb' _ (show 16 ≤ 32 by decide), truncate_eq_extractLsb' _ (show 24 ≤ 32 by decide)]
      rfl
  case eret =>
    have hok' : levelOk .eret p.level lv = true := by simpa [levelOk, Bool.or_assoc] using hok
    exact congrArg ok (issue_eret hn hrun hq hg himp hl hok')

/-- An event of a latched source sets its own SIPEND bit. -/
theorem latched_and (k : Fin 8) (h : 2 ^ k.val &&& 0xB9 ≠ 0) : 2 ^ k.val &&& 0xB9 = 2 ^ k.val := by
  revert h
  fin_cases k <;> decide

/-- Settles O24: the interrupt is taken by the move to SVEC, at the level of its word. -/
theorem supervisorInterrupts : Obligations.SupervisorInterrupts := by
  unfold Obligations.SupervisorInterrupts
  refine ⟨fun s k hr hk => ?_, fun s hw hp => if_pos (⟨hw, hp⟩ : s.unit.sup.wait = true ∧ supPending s ≠ 0)⟩
  intro p u
  have hexec : exec (.supervisorInterrupt (some k)) s = ok (supInterrupt u) := by
    show execSupervisorInterrupt (some k) s = _
    unfold execSupervisorInterrupt
    simp only [latched_and k hk]
    exact if_pos hr
  rw [hexec]
  refine ⟨fun hq => congrArg ok (if_pos ?_), fun lv hp hie hl hlv => congrArg ok ?_⟩
  · exact hq.imp id (fun h => by simpa using h)
  · have hok : levelOk .entry p.level lv = true := by
      rcases hlv with h | h <;> simp [levelOk, h]
    unfold supInterrupt
    rw [if_neg (by simp [hp, u, hie, p])]
    rw [show u.unit.sup.ie = true from hie]
    dsimp only
    have hfetch (t : State) (ht : t.act = s.act) (hv : t.unit.sup.level = p.level) :=
      supFetch_of (s := t) ((fetchLevel_of_act ht _).trans hl) (hv.symm ▸ hok)
    rw [hfetch]
    · rfl
    · rfl
    · rfl

end Sys2Proof.Machine
end

section
/-!
The block ciphers (R363-R366).
-/
namespace Sys2Proof.Machine
open W22

/-- Refutes O25: a verification that names P0 is illegal (R363), so AES_CMAC_V of a first segment with PD 0, on a lane where all that
the statement asks for holds, traps into the image's handler at 0x40. -/
theorem not_ciphers : ¬ Obligations.Ciphers := by
  unfold Obligations.Ciphers
  rintro ⟨-, hmac⟩
  have hforms := hmac (tDev (tRegs tLen)) tIss tRun 28 0 1 2 0 false false 7 (ready_of (by decide +kernel))
  obtain ⟨-, hverify, -⟩ := hforms
  obtain ⟨hpart, -, -⟩ := hverify (by decide) (by decide) (by decide +kernel) (by decide +kernel) (by decide +kernel) (by decide +kernel)
    (by decide +kernel)
  obtain ⟨t, ht, hafter⟩ := hpart (by decide +kernel)
  have hpc : (t.core 3).pc = 0x104 := by
    rw [show t.core 3 = _ from hafter.core]
    decide +kernel
  have htrap : (match exec (.aesCmacV tIss 0 1 false 2 false 7 0) (tDev (tRegs tLen)) with
      | .next t => decide ((t.core 3).pc = 0x40) | _ => false) = true := by decide +kernel
  rw [ht, decide_eq_true_eq, hpc] at htrap
  exact absurd htrap (by decide)

end Sys2Proof.Machine
end

section
/-!
What the cluster units and the message assists share (R356, R357, R367): the operand checks, and the destination that an instruction
writes when it retires.
-/
namespace Sys2Proof.Machine

/-! Writing a core's registers twice. -/

section
variable {α : Type}

theorem Tab.place_place (t : Tab α) (k : Nat) (v w : α) : Tab.place (Tab.place t k v) k w = Tab.place t k w := by
  induction t with
  | nil => simp [Tab.place]
  | cons e t ih =>
    simp only [Tab.place]
    split_ifs with h1 h2
    · simp [Tab.place]
    · simp [Tab.place]
    · simp [Tab.place, h1, h2, ih]

theorem Tab.drop_drop (t : Tab α) (k : Nat) : Tab.drop (Tab.drop t k) k = Tab.drop t k := by
  induction t with
  | nil => rfl
  | cons e t ih =>
    simp only [Tab.drop]
    split_ifs with h
    · exact ih
    · simp only [Tab.drop, if_neg h, ih]

theorem Tab.put_put_self [DecidableEq α] (d : α) (t : Tab α) (k : Nat) (v : α) : Tab.put d (Tab.put d t k v) k v = Tab.put d t k v := by
  unfold Tab.put
  split_ifs
  · exact Tab.drop_drop t k
  · exact Tab.place_place t k v v

end

variable {s t u v w : State} {i : Issue} {r : Run} {k l : Nat} {c d : Core} {op : COp}

/-! A write of memory changes no core, and no lane's run. -/

/-- `t` has the cores of `s`, and every lane its run and budget. -/
structure KeepsRun (s t : State) : Prop where
  cores : t.unit.cores = s.unit.cores
  run : ∀ m, (t.lane m).run = (s.lane m).run
  budget : ∀ m, (t.lane m).budget = (s.lane m).budget

theorem KeepsRun.refl (s : State) : KeepsRun s s := ⟨rfl, fun _ => rfl, fun _ => rfl⟩

theorem KeepsRun.trans (h : KeepsRun s t) (h' : KeepsRun t u) : KeepsRun s u :=
  ⟨h'.cores.trans h.cores, fun m => (h'.run m).trans (h.run m), fun m => (h'.budget m).trans (h.budget m)⟩

theorem KeepsRun.of_unit (hc : t.unit.cores = s.unit.cores) (hl : t.unit.lanes = s.unit.lanes) : KeepsRun s t := by
  have hlane (m : Nat) : t.lane m = s.lane m := by simp only [State.lane, hl]
  exact ⟨hc, fun m => by rw [hlane], fun m => by rw [hlane]⟩

theorem keepsRun_setLane {n : Nat} {v : Lane} (hr : v.run = (s.lane n).run) (hb : v.budget = (s.lane n).budget) :
    KeepsRun s (s.setLane n v) := by
  refine ⟨rfl, fun m => ?_, fun m => ?_⟩
  all_goals
    by_cases hm : m = n
    · rw [hm, State.lane_setLane]
      assumption
    · rw [State.lane_setLane_other _ _ _ hm]

theorem keepsRun_fabPut (region off : Nat) (b : Byte) (s : State) : KeepsRun s (fabPut region off b s) := by
  have hjob (n : Nat) (j : Job) : KeepsRun s (s.setJob n j) := .of_unit rfl rfl
  unfold fabPut
  dsimp only
  split_ifs
  any_goals exact .refl s
  any_goals exact .of_unit rfl rfl
  any_goals exact keepsRun_setLane rfl rfl
  all_goals
    split
    · exact hjob ..
    · exact .refl s

theorem keepsRun_fabWrite (region off : Nat) (bs : Bytes) (s : State) : KeepsRun s (fabWrite region off bs s) := by
  unfold fabWrite
  split
  · exact .of_unit rfl rfl
  · generalize bs.zip (List.range bs.length) = es
    induction es generalizing s with
    | nil => exact .refl s
    | cons e es ih => exact (keepsRun_fabPut ..).trans (ih _)

theorem keepsRun_laneWrite {bank : Nat} (hb : bank ≤ 0x1F) (l off : Nat) (bs : Bytes) (s : State) : KeepsRun s (laneWrite l bank off bs s) := by
  unfold laneWrite
  dsimp only
  rw [if_pos hb]
  by_cases h0 : bank = 0
  · rw [if_pos h0]
    exact keepsRun_setLane rfl rfl
  by_cases h1 : bank = 1
  · rw [if_neg h0, if_pos h1]
    exact .of_unit rfl rfl
  · rw [if_neg h0, if_neg h1]
    exact keepsRun_fabWrite ..

theorem keepsRun_coreWrite {bank : Nat} (hl : l ≠ supCore) (hb : bank ≤ 0x1F) (off : Nat) (bs : Bytes) (s : State) :
    KeepsRun s (coreWrite l bank off bs s) := by
  unfold coreWrite
  rw [if_neg hl]
  split
  · exact .refl s
  · exact keepsRun_laneWrite hb ..

theorem KeepsRun.core (h : KeepsRun s t) (hl : l ≠ supCore) : t.core l = s.core l := by
  simp only [State.core, if_neg hl, h.cores]

/-- Setting a core's registers to what they were set to changes nothing. -/
theorem KeepsRun.setCore_self (h : KeepsRun (s.setCore l c) t) (hl : l ≠ supCore) : t.setCore l c = t := by
  have hc : t.unit.cores = Tab.put {} s.unit.cores l c := by rw [h.cores, State.setCore, if_neg hl]
  have hput : Tab.put {} t.unit.cores l c = t.unit.cores := by rw [hc, Tab.put_put_self]
  rw [State.setCore, if_neg hl, hput]

/-- A destination written while no store waits. -/
theorem directWrite_of_empty {b o : Nat} {bs : Bytes} (hl : l ≠ supCore) (hb : b ≤ 0x1F) (hw : c.wb = []) :
    directWrite l b o bs (w.setCore l c) = coreWrite l b o bs (w.setCore l c) := by
  have hkeeps := keepsRun_coreWrite hl hb o bs (w.setCore l c)
  have hcore : (coreWrite l b o bs (w.setCore l c)).core l = c := (hkeeps.core hl).trans (State.core_setCore ..)
  have hsame : ({ c with wb := c.wb.map (fun e => e.cover b o bs) } : Core) = c := by
    rw [hw, List.map_nil, ← hw]
  simp only [directWrite, if_neg hl, hcore, hsame]
  exact hkeeps.setCore_self hl

/-- On a lane that is ready, an instruction that leaves the core `c` and a destination of its own. -/
theorem exec_of_write {x : Instr} {b o : Nat} {bs : Bytes} (h : Ready s i r k) (hx : exec x s = ok (issue i op s))
    (hrun : runOp i.core.val (s.lane i.core.val).cyc op (s.atIssue i r) = ⟨w.setCore i.core.val c, .seq, some (b, o, bs)⟩)
    (hk : opTime i.core.val (s.lane i.core.val).cyc op (s.atIssue i r) = k) (hkeep : KeepsRun (s.atIssue i r) w) (hb : b ≤ 0x1F)
    (hwb : c.wb = []) (hd : c.ldepth = 0) (hp : c.pc = (s.core i.core.val).pc) (hf : op.forCore false = true)
    (hc : ∀ u a b c d, op ≠ .cu u a b c d) (hl : op.legal = true) :
    exec x s = .next (s.afterLane (coreWrite i.core.val b o bs (w.setCore i.core.val c)) i r k { c with pc := c.pc + 4 }) := by
  have hwrite := keepsRun_coreWrite h.ne hb o bs (w.setCore i.core.val c)
  have hcore : (coreWrite i.core.val b o bs (w.setCore i.core.val c)).core i.core.val = c := (hwrite.core h.ne).trans (State.core_setCore ..)
  have hsame : SameRun s (coreWrite i.core.val b o bs (w.setCore i.core.val c)) i := by
    refine ⟨(hwrite.run _).trans ?_, (hwrite.budget _).trans ?_⟩
    · rw [State.lane_setCore, hkeep.run, State.lane_atIssue]
    · rw [State.lane_setCore, hkeep.budget, State.lane_atIssue]
  have hissue := issue_seq h hf hc hl hrun hk (directWrite_of_empty h.ne hb hwb) hsame (by rw [hcore, hd])
  rw [hx, hissue, hcore, hp]

/-- On a lane that is ready, an instruction that leaves the core `c` and a destination of its own, and no more. -/
theorem writes_of_run {x : Instr} {b o : Nat} {bs : Bytes} (h : Ready s i r k) (hx : exec x s = ok (issue i op s))
    (hrun : runOp i.core.val (s.lane i.core.val).cyc op (s.atIssue i r) = ⟨(s.atIssue i r).setCore i.core.val c, .seq, some (b, o, bs)⟩)
    (hk : opTime i.core.val (s.lane i.core.val).cyc op (s.atIssue i r) = k) (hb : b ≤ 0x1F)
    (hwb : c.wb = []) (hd : c.ldepth = 0) (hp : c.pc = (s.core i.core.val).pc) (hf : op.forCore false = true)
    (hc : ∀ u a b c d, op ≠ .cu u a b c d) (hl : op.legal = true) : Writes x i r k c b o bs s :=
  exec_of_write h hx hrun hk (.refl _) hb hwb hd hp hf hc hl

/-! The operand checks of unit instructions. -/

theorem unitWait_of_empty {rs : List Rng} (hl : l ≠ supCore) (hw : (s.core l).wb = []) (t : Nat) : unitWait l t rs s = { st := s } := by
  unfold unitWait
  split
  · exact waitEmpty_of_empty hl hw t
  · rfl

theorem unitW_of_empty {rs : List Rng} (hw : (s.core l).wb = []) (ht : (s.core l).wbT = []) (t : Nat) : unitW l t rs s = 0 := by
  unfold unitW
  rw [wbWait_of_empty hw ht, ite_self]

/-- Ranges that pass the checks lie in DMEM or the frame head (R367). -/
theorem near_of_unitRanges {rs : List Rng} (h : unitRanges s l rs = none) {x : Rng} (hx : x ∈ rs) : nearRange x = true := by
  unfold unitRanges at h
  split at h
  · simp at h
  split at h
  · simp at h
  split at h
  · simp at h
  next hnear => simpa using List.find?_eq_none.1 hnear x hx

theorem bank_of_nearRange {x : Rng} (h : nearRange x = true) : x.1 = 0 ∨ x.1 = 1 := by
  simp only [nearRange, Bool.or_eq_true, Bool.and_eq_true, decide_eq_true_eq] at h
  exact h.imp id And.left

theorem selOk_of {a : Nat} {b : Bool} (h : b = true → a < 6) : selOk (a, b) = true := by
  cases b <;> simp_all [selOk]

end Sys2Proof.Machine
end

section
/-!
The hash unit (R362, R367, R369).
-/
namespace Sys2Proof.Machine
variable {s : State} {i : Issue} {r : Run} {c : Core}

theorem lenWord_len {w : Word} (h : w.toNat < 65536) : (lenWord w).len = w.toNat := by
  simp only [lenWord, bits]
  omega

/-- A HASH instruction of a lane whose operands pass the checks. -/
theorem opHash_lane {n t fn dn : Nat} {first last : Bool} {sa da : Nat × Bool} {h : HashSt} (hn : n ≠ supCore) (hc : s.core n = c)
    (hw : c.wb = []) (hlen : (c.dr dn).toNat < 65536) (hblk : last = false ∨ fn = 3 → (c.dr dn).toNat % hashBlk fn = 0)
    (hfirst : first = true → h = hashStart fn) (hlater : first = false → c.hash = some h ∧ h.fn = fn)
    (hr : unitRanges s n (if last then [((c.addr sa).1, (c.addr sa).2, (c.dr dn).toNat), ((c.addr da).1, (c.addr da).2, hashLen fn)]
      else [((c.addr sa).1, (c.addr sa).2, (c.dr dn).toNat)]) = none) :
    opHash n t fn first last sa da dn s =
      if last then ⟨s.setCore n { c with hash := none }, .seq,
        some ((c.addr da).1, (c.addr da).2, hashEnd h c.ghk (laneRead s n (c.addr sa).1 (c.addr sa).2 (c.dr dn).toNat))⟩
      else opSeq (s.setCore n { c with hash := some (hashMore h c.ghk (laneRead s n (c.addr sa).1 (c.addr sa).2 (c.dr dn).toNat)) }) := by
  subst hc
  have hwait (rs : List Rng) : unitWait n t rs s = { st := s } := unitWait_of_empty hn hw t
  have hargs : (decide (((s.core n).dr dn).toNat < 65536) && (last || decide (((s.core n).dr dn).toNat % hashBlk fn = 0)) &&
      (decide (fn ≠ 3) || decide (((s.core n).dr dn).toNat % 16 = 0))) = true := by
    have h16 (h3 : fn = 3) : ((s.core n).dr dn).toNat % 16 = 0 := by
      subst h3
      exact hblk (Or.inr rfl)
    cases last <;> simp_all [Decidable.or_iff_not_imp_left]
  cases first with
  | true =>
    simp only [opHash, lenWord_len hlen, if_true, Option.isSome_some, Bool.and_true, hargs, hr, hwait, trapIf, firstTrap, hfirst rfl]
    rfl
  | false =>
    obtain ⟨hhash, hfn⟩ := hlater rfl
    simp only [opHash, lenWord_len hlen, Bool.false_eq_true, if_false, hhash, hfn, if_true, Option.isSome_some, Bool.and_true, hargs, hr, hwait,
      trapIf, firstTrap]
    rfl

/-- Settles O26: the four functions differ in their number alone. -/
theorem hashUnit : Obligations.HashUnit := by
  unfold Obligations.HashUnit
  intro s i r T first last sa da sb db dn h0 h l c u n a b m form
  have hcore : u.core l = c := State.core_atIssue
  have run {x : Instr} {fn : Nat} (hx : exec x s = ok (issue i (.hash fn first last (sa.val, sb) (da.val, db) dn.val) s)) :
      form x fn (hashBlk fn) (hashLen fn) := by
    intro hsa hda hnone hn hblk hheld hr hT
    let v := if first then hashStart fn else h0
    have hfirst (hf : first = true) : v = hashStart fn := by simp [v, hf]
    have hlater (hf : first = false) : c.hash = some v ∧ v.fn = fn := by simpa [v, hf] using hheld hf
    have hop := opHash_lane (t := (s.lane l).cyc) (sa := (sa.val, sb)) (da := (da.val, db)) h.ne hcore h.wb hn hblk hfirst hlater hr
    have hlegal : (COp.hash fn first last (sa.val, sb) (da.val, db) dn.val).legal = true := by
      have hdst : (last || decide ((da.val, db) = (0, false))) = true := by
        cases hl : last with
        | true => rfl
        | false => simp [hnone hl]
      simp only [COp.legal, selOk_of hsa, selOk_of hda, hdst, Bool.and_self]
    refine ⟨fun hl => ?more, fun hl => ?last⟩
    case more =>
      exact runs_of_setCore h hx (hop.trans (if_neg (by simp [hl]))) rfl rfl rfl (by simp) hlegal hT.symm
    case last =>
      have hnear := near_of_unitRanges hr (x := (b.1, b.2, hashLen fn)) (by simp [hl])
      exact writes_of_run h hx (hop.trans (if_pos hl)) hT.symm (by have := bank_of_nearRange hnear; omega) h.wb h.loops rfl rfl (by simp) hlegal
  exact ⟨run rfl, run rfl, run rfl, run rfl⟩

end Sys2Proof.Machine
end

section
/-!
The message assists and KCHK (R374-R376).
-/
namespace Sys2Proof.Machine
variable {s : State} {i : Issue} {r : Run} {c : Core}

@[simp] theorem Core.setP_wb (c : Core) (p : Nat) (b : Bool) : (c.setP p b).wb = c.wb := by unfold Core.setP; split <;> rfl
@[simp] theorem Core.setP_ldepth (c : Core) (p : Nat) (b : Bool) : (c.setP p b).ldepth = c.ldepth := by unfold Core.setP; split <;> rfl
@[simp] theorem Core.setP_pc (c : Core) (p : Nat) (b : Bool) : (c.setP p b).pc = c.pc := by unfold Core.setP; split <;> rfl

/-- Bytes read from DMEM, the frame window or SHARED are as many as asked for. -/
theorem laneRead_length_of_le {l bank off n : Nat} (hb : bank ≤ 0x1F) : (laneRead s l bank off n).length = n := by
  unfold laneRead
  dsimp only
  rw [if_pos hb]
  split
  · simp
  · split <;> simp

/-- A MSG instruction of a lane whose operands pass the checks and whose ranges are granted: `src` is read, and `old` where the
destination is read too. -/
theorem opMsg_lane {n t fn dn pd : Nat} {sa da : Nat × Bool} {w : LenWord} {src old : Bytes} (hn : n ≠ supCore) (hc : s.core n = c)
    (hw : c.wb = []) (hlen : lenWord (c.dr dn) = w) (htop : w.top = 0) (hseg : w.seg = 0) (hmax : w.len ≤ 8192)
    (hfill : fn ≠ 1 → w.fill = 0) (heven : fn = 4 → w.len % 2 = 0)
    (hmap : ∀ x ∈ (msgRanges c fn sa da w.len).1 ++ [(msgRanges c fn sa da w.len).2], rangeMapped s n x = true ∧ msgBank n x.1 = true)
    (href : msgRefusal s n fn w.len (msgRanges c fn sa da w.len).1 (msgRanges c fn sa da w.len).2 = none)
    (hsrc : (if fn = 1 then [] else laneRead s n (c.addr sa).1 (c.addr sa).2 w.len) = src)
    (hold : (if fn = 2 ∨ fn = 3 then laneRead s n (c.addr da).1 (c.addr da).2 (msgWrites fn w.len) else []) = old) :
    opMsg n t fn sa da dn pd s = ⟨s.setCore n (c.setP pd (msgOut fn w.fill w.len src old).2), .seq,
      if fn = 3 then none else some ((c.addr da).1, (c.addr da).2, (msgOut fn w.fill w.len src old).1)⟩ := by
  subst hc hlen hsrc hold
  have hwait (rs : List Rng) : unitWait n t rs s = { st := s } := unitWait_of_empty hn hw t
  have hmapped : (_ ++ [_] : List Rng).find? (fun x => ! rangeMapped s n x) = none :=
    List.find?_eq_none.2 fun x hx => by simpa using (hmap x hx).1
  have hbank : (_ ++ [_] : List Rng).find? (fun x => ! msgBank n x.1) = none :=
    List.find?_eq_none.2 fun x hx => by simpa using (hmap x hx).2
  have hread (x : Rng) : coreRead n x s = (laneRead s n x.1 x.2.1 x.2.2, s) := if_neg hn
  have hargs : (decide ((lenWord ((s.core n).dr dn)).top = 0 ∧ (lenWord ((s.core n).dr dn)).seg = 0 ∧ (lenWord ((s.core n).dr dn)).len ≤ 8192) &&
      (decide (fn = 1) || decide ((lenWord ((s.core n).dr dn)).fill = 0)) &&
      (decide (fn ≠ 4) || decide ((lenWord ((s.core n).dr dn)).len % 2 = 0))) = true := by
    have h1 := Decidable.or_iff_not_imp_left.2 hfill
    have h4 := Decidable.or_iff_not_imp_left.2 (fun h => heven (Decidable.not_not.1 h))
    simp only [htop, hseg, hmax, and_self, decide_true, Bool.true_and, ← Bool.decide_or, h1, h4]
  simp only [opMsg, hmapped, hbank, hargs, hwait, href, Option.map_none, Bool.not_true, trapIf, firstTrap]
  by_cases h1 : fn = 1
  · subst h1
    rfl
  · by_cases h23 : fn = 2 ∨ fn = 3
    · simp only [msgRanges, if_neg h1, if_pos h23, hread]
      rfl
    · simp only [msgRanges, if_neg h1, if_neg h23, hread]
      rfl

/-- Settles O27: each assist is one function of the bytes read, whose output is written and whose predicate is set. -/
theorem messageAssists : Obligations.MessageAssists := by
  unfold Obligations.MessageAssists
  intro s i r T sa da pd pdn sb db dn kk h l c u w a b src old digits okay
  have hcore : u.core l = c := State.core_atIssue
  have hw : lenWord (c.dr dn.val) = w := rfl
  have hbank {x : Rng} (hx : x.1 = 0 ∨ x.1 = 1 ∨ (0x10 ≤ x.1 ∧ x.1 ≤ 0x1F)) : msgBank l x.1 = true := by
    rw [msgBank, if_neg h.ne]
    rcases hx with hx | hx | hx <;> simp [buffered, hx]
  -- MFILL names no source; every other assist reads it
  have run {fn p : Nat} {sp : Nat × Bool} (hok : okay fn (msgWrites fn w.len)) (hsp : fn = 1 ∨ sp = (sa.val, sb)) :
      opMsg l (s.lane l).cyc fn sp (da.val, db) dn.val p u =
        ⟨u.setCore l (c.setP p (msgOut fn w.fill w.len (if fn = 1 then [] else src) (if fn = 2 ∨ fn = 3 then old else [])).2), .seq,
          if fn = 3 then none else some (b.1, b.2, (msgOut fn w.fill w.len (if fn = 1 then [] else src) (if fn = 2 ∨ fn = 3 then old else [])).1)⟩ ∧
      msgTime l (s.lane l).cyc fn sp (da.val, db) dn.val u = T ∧ b.1 ≤ 0x1F ∧ (fn ≠ 1 → src.length = w.len) := by
    obtain ⟨hsa, hda, htop, hseg, hlen, hfill, heven, hranges, href, hT⟩ := hok
    have hr : msgRanges c fn sp (da.val, db) w.len = (if fn = 1 then [] else [(a.1, a.2, w.len)], (b.1, b.2, msgWrites fn w.len)) := by
      rcases hsp with rfl | rfl <;> rfl
    have hsrc : (if fn = 1 then [] else laneRead u l (c.addr sp).1 (c.addr sp).2 w.len) = if fn = 1 then [] else src := by
      rcases hsp with rfl | rfl <;> rfl
    have hold : (if fn = 2 ∨ fn = 3 then laneRead u l (c.addr (da.val, db)).1 (c.addr (da.val, db)).2 (msgWrites fn w.len) else []) =
        if fn = 2 ∨ fn = 3 then old else [] := by
      split
      next hfn => rcases hfn with rfl | rfl <;> rfl
      next => rfl
    refine ⟨opMsg_lane h.ne hcore h.wb hw htop hseg hlen hfill heven ?_ (hr ▸ href) hsrc hold, ?_, ?_, fun hfn => ?_⟩
    · rw [hr]
      exact fun x hx => ⟨(hranges x hx).1, hbank (hranges x hx).2⟩
    · rw [hT]
      rcases hsp with rfl | rfl <;> rfl
    · have := (hranges _ (List.mem_append_right _ (List.mem_singleton_self _))).2
      omega
    · have := (hranges (a.1, a.2, w.len) (by simp [hfn])).2
      exact laneRead_length_of_le (by omega)
  have legal {fn p n : Nat} {sp : Nat × Bool} (hok : okay fn n) (hsp : fn = 1 ∧ sp = (0, false) ∨ fn ≠ 1 ∧ sp = (sa.val, sb))
      (hp : p = 0 ∨ fn ∉ [0, 1, 2, 5]) : (COp.msg fn sp (da.val, db) dn.val p).legal = true := by
    have hpd : (! [0, 1, 2, 5].contains fn || decide (p = 0)) = true := by
      rcases hp with rfl | hfn
      · simp
      · simpa using Or.inl (by simpa using hfn)
    obtain ⟨hsa, hda, -⟩ := hok
    rcases hsp with ⟨rfl, rfl⟩ | ⟨hfn, rfl⟩ <;> simp only [COp.legal, selOk_of hsa, selOk_of hda, hpd] <;> simp [selOk, *]
  refine ⟨fun hok => ?mcpy, fun hok => ?mfill, fun hok => ?mxor, fun hok => ?mcmp, fun hok => ?hexd, fun hok => ?hexe, fun hok => ?bcdp,
    fun hok => ?bcdu, fun hT hpd => ?kchk⟩
  case mcpy =>
    obtain ⟨hrun, ht, hb, -⟩ := run (p := 0) hok (Or.inr rfl)
    exact writes_of_run h rfl hrun ht hb h.wb h.loops rfl rfl (by simp) (legal hok (by simp) (by simp))
  case mfill =>
    obtain ⟨hrun, ht, hb, -⟩ := run (p := 0) (sp := (0, false)) hok (Or.inl rfl)
    exact writes_of_run h rfl hrun ht hb h.wb h.loops rfl rfl (by simp) (legal hok (by simp) (by simp))
  case mxor =>
    obtain ⟨hrun, ht, hb, -⟩ := run (p := 0) hok (Or.inr rfl)
    exact writes_of_run h rfl hrun ht hb h.wb h.loops rfl rfl (by simp) (legal hok (by simp) (by simp))
  case mcmp =>
    obtain ⟨hrun, ht, -, -⟩ := run (p := pd.val) hok (Or.inr rfl)
    exact runs_of_setCore h rfl hrun (Core.setP_ldepth ..) (Core.setP_pc ..) rfl (by simp) (legal hok (by simp) (by simp)) ht
  case hexd =>
    obtain ⟨hrun, ht, hb, -⟩ := run (p := pd.val) hok (Or.inr rfl)
    rw [msgOut, List.map_map, List.all_map] at hrun
    exact writes_of_run h rfl hrun ht hb ((Core.setP_wb ..).trans h.wb) ((Core.setP_ldepth ..).trans h.loops) (Core.setP_pc ..) rfl (by simp)
      (legal hok (by simp) (by simp))
  case hexe =>
    obtain ⟨hrun, ht, hb, -⟩ := run (p := 0) hok (Or.inr rfl)
    exact writes_of_run h rfl hrun ht hb h.wb h.loops rfl rfl (by simp) (legal hok (by simp) (by simp))
  case bcdp =>
    obtain ⟨hrun, ht, hb, hlen⟩ := run (p := pd.val) hok (Or.inr rfl)
    have hdigits : (if (digits.map (fun x => x.getD 0)).length % 2 = 1 then 0 :: digits.map (fun x => x.getD 0)
        else digits.map (fun x => x.getD 0)) = (if w.len % 2 = 1 then [0] else []) ++ digits.map (fun x => x.getD 0) := by
      rw [List.length_map, show digits.length = w.len from (List.length_map ..).trans (hlen (by decide))]
      split <;> rfl
    rw [← hdigits]
    exact writes_of_run h rfl hrun ht hb ((Core.setP_wb ..).trans h.wb) ((Core.setP_ldepth ..).trans h.loops) (Core.setP_pc ..) rfl (by simp)
      (legal hok (by simp) (by simp))
  case bcdu =>
    obtain ⟨hrun, ht, hb, -⟩ := run (p := pd.val) hok (Or.inr rfl)
    exact writes_of_run h rfl hrun ht hb ((Core.setP_wb ..).trans h.wb) ((Core.setP_ldepth ..).trans h.loops) (Core.setP_pc ..) rfl (by simp)
      (legal hok (by simp) (by simp))
  case kchk =>
    intro e
    have hpd' : pdOk pd.val pdn.val = true := decide_eq_true (hpd.imp (mt Fin.ext) id)
    have hrun : opKchk l pd.val pdn.val kk.val u = opSeq (u.setCore l (c.setPs pd.val pdn.val (e.2.isNone && decide (e.1.ktype = declared u l kk.val)))) := by
      unfold opKchk
      rw [hcore]
    subst hT
    exact runs_of_setCore h rfl hrun (by simp [Core.setPs, c, l]) (by simp [Core.setPs, c, l]) rfl (by simp) hpd' rfl

end Sys2Proof.Machine
end

section
/-!
Saffron (R372, R373, R486, R487, R490-R494).
-/
namespace Sys2Proof.Machine
variable {s u : State} {i : Issue} {r : Run} {c : Core} {k : Nat}

theorem pinForm_unit (f : Nat) (pin : List Nat) (s : State) : (pinForm f pin s).2.unit = s.unit := by
  unfold pinForm
  dsimp only
  split_ifs <;> rfl

@[simp] theorem safCompare_st (s : State) (b : Bool) : (safCompare s b).st = s := by unfold safCompare; split <;> rfl
@[simp] theorem safCompare_out (s : State) (b : Bool) : (safCompare s b).out = none := by unfold safCompare; split <;> rfl
@[simp] theorem safCompare_status (s : State) (b : Bool) : (safCompare s b).status = if b then 0 else 7 := by unfold safCompare; split <;> rfl

section
variable (p : SafPar) (same : Bool) (ki ko : CacheEnt) (cfg : Option EpochCfg) (tab v blk : Bytes) (pan pin : List Nat) (s : State)

theorem safPin_unit (sop : Nat) : (safPin sop p ko tab v pan pin s).st.unit = s.unit := by
  unfold safPin
  split
  · rfl
  split
  · exact pinForm_unit ..
  · simp
  · rfl
  · simp
  · rfl

/-- Only TRANSLATE writes a destination, or draws (R482, R486). -/
theorem safPin_quiet {sop : Nat} (h : sop ≠ 1) : (safPin sop p ko tab v pan pin s).out = none ∧ (safPin sop p ko tab v pan pin s).st = s := by
  unfold safPin
  split
  · exact ⟨rfl, rfl⟩
  split
  · contradiction
  · simp
  · exact ⟨rfl, rfl⟩
  · simp
  · exact ⟨rfl, rfl⟩

theorem safPin_translate : safPin 1 p ko tab v pan pin s =
    { st := (pinForm p.fout pin s).2, out := some (pinEncipher p.fout ko.key (pinForm p.fout pin s).1 pan) } := rfl

theorem safPin_ofsVerify (h : p.chk ≤ pin.length) : safPin 2 p ko tab v pan pin s = safCompare s ((List.range p.chk).all (fun i =>
    decide (((naturalPin ko.key v tab p.chk).getD i 0 + (nibbles (slice v 8 6)).getD i 0) % 10 = pin.getD i 0))) :=
  if_neg fun hc => absurd h (Nat.not_le.2 hc.2)

theorem safPin_ofsGen (h : p.chk ≤ pin.length) : safPin 3 p ko tab v pan pin s = { st := s, value := bcdValue ((List.range p.chk).map (fun i =>
    (pin.getD i 0 + 10 - (naturalPin ko.key v tab p.chk).getD i 0) % 10)) } :=
  if_neg fun hc => absurd h (Nat.not_le.2 hc.2)

theorem safPin_pvvVerify {sop : Nat} (h : sop = 4) :
    safPin sop p ko tab v pan pin s = safCompare s (decide (pvvOf ko.key pan pin p.aux = nibbles (v.take 2))) := by
  unfold safPin
  rw [if_neg (fun hc => by simp [h, isOfs] at hc)]
  split
  case h_4 => rfl
  case h_5 h4 => exact absurd h h4
  all_goals contradiction

theorem safPin_pvvGen : safPin 5 p ko tab v pan pin s = { st := s, value := bcdValue (pvvOf ko.key pan pin p.aux) } := rfl

/-- What holds of a failed check, of a comparison or a value, and of the operation on a PIN, holds of every Saffron operation. -/
theorem safRun_ind {P : SafRes → Prop} {sop : Nat} (hfail : ∀ x y, P { st := s, status := x, value := y })
    (hcompare : ∀ b, P (safCompare s b)) (hpin : ∀ tab v pan pin, P (safPin sop p ko tab v pan pin s)) :
    P (safRun sop p same ki ko cfg blk s) := by
  unfold safRun
  extract_lets
  iterate 8 refine iteInduction (fun _ => hfail _ _) fun _ => ?_
  refine iteInduction (fun _ => iteInduction (fun _ => hfail 0 _) fun _ => hcompare _) fun _ => ?_
  exact iteInduction (fun _ => hfail _ _) fun _ => hpin ..

theorem safRun_unit (sop : Nat) : (safRun sop p same ki ko cfg blk s).st.unit = s.unit :=
  safRun_ind p same ki ko cfg blk s (P := fun o => o.st.unit = s.unit) (fun _ _ => rfl) (fun _ => by rw [safCompare_st])
    fun _ _ _ _ => safPin_unit ..

theorem safRun_quiet {sop : Nat} (h : sop ≠ 1) :
    (safRun sop p same ki ko cfg blk s).out = none ∧ (safRun sop p same ki ko cfg blk s).st = s :=
  safRun_ind p same ki ko cfg blk s (P := fun o => o.out = none ∧ o.st = s) (fun _ _ => ⟨rfl, rfl⟩) (fun _ => by simp)
    fun _ _ _ _ => safPin_quiet (h := h) ..

end

theorem keepsRun_safCount (l sop status : Nat) (drew : Bool) (s : State) : KeepsRun s (safCount l sop status drew s) := by
  unfold safCount
  dsimp only
  split <;> exact .of_unit rfl rfl

/-- A SAF instruction of a lane whose operands and keys pass the checks. -/
theorem opSaf_lane {n t sop ki ko dx : Nat} {sa da : Nat × Bool} (hn : n ≠ supCore) (hc : s.core n = c) (hw : c.wb = []) (h1 : 1 ≤ sop) (h7 : sop ≤ 7)
    (hr : unitRanges s n (if sop = 1 then [((c.addr sa).1, (c.addr sa).2, 64), ((c.addr da).1, (c.addr da).2, 16)]
      else [((c.addr sa).1, (c.addr sa).2, 64)]) = none) (hk : keyTrap s n 2 4 false [ki, ko] = none) :
    let o := safRun sop (safPar (c.dr dx)) (decide (ki = ko)) (keyEntry s n ki).1 (keyEntry s n ko).1
      (epochCfg s (s.job (laneRun s n).job).epoch) (laneRead s n (c.addr sa).1 (c.addr sa).2 64) s
    opSaf n t sop ki ko sa da dx s =
      ⟨(safCount n sop o.status (decide (o.st.draws ≠ s.draws)) o.st).setCore n (c.setD dx (BitVec.ofNat 32 (o.value * 256 + o.status))), .seq,
        o.out.map (fun x => ((c.addr da).1, (c.addr da).2, x))⟩ := by
  intro o
  have hwait (rs : List Rng) : unitWait n t rs s = { st := s } := unitWait_of_empty hn (hc ▸ hw) t
  have hsop : ¬ (sop = 0 ∨ sop > 7) := by omega
  have hkeep : KeepsRun s (safCount n sop o.status (decide (o.st.draws ≠ s.draws)) o.st) :=
    (KeepsRun.of_unit (congrArg UnitState.cores (safRun_unit ..)) (congrArg UnitState.lanes (safRun_unit ..))).trans (keepsRun_safCount ..)
  have hcore := (hkeep.core hn).trans hc
  simp only [opSaf, hc, hr, hk, hwait, decide_eq_false hsop, trapIf, firstTrap]
  show (⟨State.setCore _ n (Core.setD (State.core _ n) _ _), _, _⟩ : OpRes) = _
  rw [hcore]

/-- The first access to a range of DMEM or the frame head (R370). -/
theorem firstRead_of_near {x : Rng} (h : nearRange x = true) (hx : x.2.2 ≠ 0) : firstRead x = if x.1 = 1 then 6 else 1 := by
  simp only [nearRange, Bool.or_eq_true, Bool.and_eq_true, decide_eq_true_eq] at h
  rw [firstRead, if_neg hx, bankTime]
  rcases h with h | ⟨h, ho⟩
  · simp [h]
  · rw [if_pos h, if_pos h, if_pos (by omega)]

theorem laneRun_atIssue (h : CanIssue s i r k) : laneRun (s.atIssue i r) i.core.val = r := by
  rw [laneRun, State.lane_atIssue, h.run]
  rfl

@[simp] theorem State.job_atIssue (n : Nat) : (s.atIssue i r).job n = s.job n := by simp [State.atIssue]

theorem digits_eq (a b c : List Nat) (n : Nat) : (List.range n).all (fun k => decide ((a.getD k 0 + b.getD k 0) % 10 = c.getD k 0)) =
    decide (∀ k, k < n → (a.getD k 0 + b.getD k 0) % 10 = c.getD k 0) := by
  rw [Bool.eq_iff_iff]
  simp

theorem applyWr_none (n : Nat) (u : State) : applyWr n { st := u, nx := .seq } = u := rfl

/-- Settles O28: every operation is one run of the unit, whose checks and outcome the second clause says. -/
theorem saffronOperations : Obligations.SaffronOperations := by
  unfold Obligations.SaffronOperations
  refine ⟨?runs, ?outcome, fun s q h => if_neg (show ¬ (s.quad q.val).sgen < 2 ^ 20 from Nat.not_lt.2 h)⟩
  case runs =>
    intro s i r T ki ko sa da sb db dx h l c u a b form
    have hcore : u.core l = c := State.core_atIssue
    have run {x : Instr} {sop : Nat} (hx : exec x s = ok (issue i (.saf sop ki.val ko.val (sa.val, sb) (da.val, db) dx.val) s))
        (h1 : 1 ≤ sop) (h7 : sop ≤ 7) : form x sop := by
      intro hsa hda hnone hr hk hT
      have hop := opSaf_lane (t := (s.lane l).cyc) (dx := dx.val) h.ne hcore h.wb h1 h7 hr hk
      rw [laneRun_atIssue h.toCanIssue, State.job_atIssue, decide_eq_decide.2 (Fin.ext_iff (a := ki) (b := ko)).symm] at hop
      have hlegal : (COp.saf sop ki.val ko.val (sa.val, sb) (da.val, db) dx.val).legal = true := by
        simp only [COp.legal, selOk_of hsa, selOk_of hda, Bool.and_self]
      have hnear := near_of_unitRanges hr (x := (a.1, a.2, 64)) (by split <;> simp)
      have htime : safTime l (s.lane l).cyc sop ki.val ko.val (sa.val, sb) u = T := by
        have hfirst := firstRead_of_near hnear (by simp)
        simp only [safTime, hcore, unitW_of_empty (hcore ▸ h.wb : (u.core l).wb = []) (hcore ▸ h.wbT), hT, Nat.zero_add]
        rw [hfirst]
      have hunit := safRun_unit (safPar (c.dr dx.val)) (decide (ki = ko)) (keyEntry u l ki.val).1 (keyEntry u l ko.val).1
        (epochCfg u (s.job r.job).epoch) (laneRead u l a.1 a.2 64) u sop
      have hquiet (hs : sop ≠ 1) := (safRun_quiet (safPar (c.dr dx.val)) (decide (ki = ko)) (keyEntry u l ki.val).1 (keyEntry u l ko.val).1
        (epochCfg u (s.job r.job).epoch) (laneRead u l a.1 a.2 64) u hs).1
      generalize safRun sop (safPar (c.dr dx.val)) (decide (ki = ko)) (keyEntry u l ki.val).1 (keyEntry u l ko.val).1
        (epochCfg u (s.job r.job).epoch) (laneRead u l a.1 a.2 64) u = o at hop hunit hquiet ⊢
      dsimp only at hop
      have hkeep : KeepsRun u (safCount l sop o.status (decide (o.st.draws ≠ u.draws)) o.st) :=
        (KeepsRun.of_unit (congrArg UnitState.cores hunit) (congrArg UnitState.lanes hunit)).trans (keepsRun_safCount ..)
      cases hout : o.out with
      | none =>
        rw [hout] at hop
        have hsame : SameRun s ((safCount l sop o.status (decide (o.st.draws ≠ u.draws)) o.st).setCore l
            (c.setD dx.val (BitVec.ofNat 32 (o.value * 256 + o.status)))) i :=
          ⟨by rw [State.lane_setCore, hkeep.run, State.lane_atIssue], by rw [State.lane_setCore, hkeep.budget, State.lane_atIssue]⟩
        rw [Option.map_none] at hop
        have hissue := issue_seq h rfl (by simp) hlegal hop htime (applyWr_none ..) hsame
          (by rw [State.core_setCore]; exact h.loops)
        rw [hx, hissue, State.core_setCore]
      | some bs =>
        rw [hout] at hop
        have h1' : sop = 1 := by
          by_contra hs
          rw [hquiet hs] at hout
          cases hout
        have hnear' := bank_of_nearRange (near_of_unitRanges hr (x := (b.1, b.2, 16)) (by simp [h1']))
        exact exec_of_write h hx hop htime hkeep (by omega) h.wb h.loops rfl rfl (by simp) hlegal
    exact ⟨run rfl (by decide) (by decide), run rfl (by decide) (by decide), run rfl (by decide) (by decide), run rfl (by decide) (by decide),
      run rfl (by decide) (by decide), run rfl (by decide) (by decide), run rfl (by decide) (by decide)⟩
  case outcome =>
    intro s sop p same ki ko cfg blk pan pin tab v o digit h0 hpar hsame hroles htypes htab hpair hpan hnopan hv hpin
    have hdigits : (asciiDigits (slice blk 16 p.panlen)).getD [] = pan := by
      cases hu : usesPan sop.val p with
      | true => simp [hpan hu]
      | false => rcases hnopan hu with h | ⟨h, rfl⟩ <;> simp [h]
    have hrun : o = if isCvv sop.val then
        (if sop.val = 7 then { st := s, value := bcdValue (cvvOf ki.key pan v p.chk) }
         else safCompare s (decide (cvvOf ki.key pan v p.chk = (nibbles (slice v 4 3)).drop (6 - p.chk))))
        else safPin sop.val p ko tab v pan pin s := by
      have h1 : ¬ ¬ parOk sop.val p = true := by simp [hpar]
      have h2 : ¬ (isCvv sop.val = true ∧ ¬ same = true) := by simpa using hsame
      have h3 : ¬ ¬ rolesOk sop.val ki ko = true := by simp [hroles]
      have h4 : ¬ ¬ typesOk sop.val p ki ko = true := by simp [htypes]
      have h5 : ¬ (isOfs sop.val = true ∧ tab.isEmpty = true) := fun h => (htab h.1).1 (List.isEmpty_iff.1 h.2)
      have h6 : ¬ (sop.val = 1 ∧ ¬ pairOk (decide (EpochCfg.val s cfg 0x5402 1 = 1)) p.fin p.fout = true) := by simpa using hpair
      have h7 : ¬ (usesPan sop.val p = true ∧ (asciiDigits (slice blk 16 p.panlen)).isNone = true) := fun h => by simp [hpan h.1] at h
      have h8 : ¬ ¬ vdataOk sop.val v = true := by simp [hv]
      simp only [o, safRun, Option.getD_some]
      rw [if_neg h1, if_neg h2, if_neg h3, if_neg h4, if_neg h5, if_neg h6, if_neg h7, if_neg h8, hdigits]
      cases hcvv : isCvv sop.val with
      | true => rfl
      | false => simp [hpin hcvv, tab, v]
    have hsafPin {n : Nat} (hs : sop.val = n) (hn : isCvv n = false) : o = safPin n p ko tab v pan pin s := by
      rw [hrun, hs, hn, if_neg Bool.false_ne_true]
    refine ⟨fun hs => ?translate, fun hs => ?ofsVerify, fun hs => ?ofsGen, fun hs => ?pvvVerify, fun hs => ?pvvGen, fun hs => ?cvvVerify,
      fun hs => ?cvvGen, fun hs => safRun_quiet p same ki ko (some cfg) blk s hs⟩
    case translate =>
      rw [hsafPin hs rfl, safPin_translate]
      exact ⟨rfl, rfl, rfl⟩
    case ofsVerify =>
      rw [hsafPin hs rfl, safPin_ofsVerify _ _ _ _ _ _ _ (htab (by rw [hs]; rfl)).2, safCompare_status, digits_eq]
      simp only [decide_eq_true_eq, digit]
    case ofsGen =>
      rw [hsafPin hs rfl, safPin_ofsGen _ _ _ _ _ _ _ (htab (by rw [hs]; rfl)).2]
      exact ⟨rfl, rfl⟩
    case pvvVerify =>
      rw [hsafPin hs rfl, safPin_pvvVerify _ _ _ _ _ _ _ rfl, safCompare_status]
      simp only [decide_eq_true_eq]
    case pvvGen =>
      rw [hsafPin hs rfl, safPin_pvvGen]
      exact ⟨rfl, rfl⟩
    case cvvVerify =>
      rw [hrun, hs, if_pos (show isCvv 6 = true from rfl), if_neg (by decide), safCompare_status]
      simp only [decide_eq_true_eq]
    case cvvGen =>
      rw [hrun, hs, if_pos (show isCvv 7 = true from rfl), if_pos rfl]
      exact ⟨rfl, rfl⟩

end Sys2Proof.Machine
end

section
/-!
The classifier (R135-R144): each instruction is one step of its context, which goes on or ends.
-/
namespace Sys2Proof.Machine
variable {s : State} {i : ClsI} {m : Msg} {x e : Ctx} {cost : State → Msg → Ctx → Nat} {f : State → Msg → Ctx → ClsEnd}

/-- A context that goes on, before its stop time and before the program's last word. -/
theorem clsStep_next (hx : s.ctx i.src.val i.ctx.val = x) (hm : x.msg = some m) (ht : x.t + xclk (cost s m x) ≤ x.stop)
    (hf : f s m x = .next e) (hpc : e.pc + 1 < imgNCode (ctxImage s m)) :
    clsStep i cost f s = s.setCtx i.src.val i.ctx.val { e with t := x.t + xclk (cost s m x), pc := e.pc + 1 } := by
  subst hx
  simp [clsStep, hm, hf, Nat.not_lt.2 ht, Nat.not_le.2 hpc]

/-- A context that goes on behind the program's last word ends with FORMAT. -/
theorem clsStep_last (hx : s.ctx i.src.val i.ctx.val = x) (hm : x.msg = some m) (ht : x.t + xclk (cost s m x) ≤ x.stop)
    (hf : f s m x = .next e) (hpc : imgNCode (ctxImage s m) ≤ e.pc + 1) :
    clsStep i cost f s = endCtx i.src.val i.ctx.val (.self 0x08 (e.cls.getD 0) (e.id m)) (x.t + xclk (cost s m x))
      (x.t + xclk (cost s m x) + xclk 1) s := by
  subst hx
  simp [clsStep, hm, hf, Nat.not_lt.2 ht, hpc, Ctx.id]

/-- A context that ends with FORMAT. -/
theorem clsStep_format (hx : s.ctx i.src.val i.ctx.val = x) (hm : x.msg = some m) (ht : x.t + xclk (cost s m x) ≤ x.stop)
    (hf : f s m x = .format e) :
    clsStep i cost f s = endCtx i.src.val i.ctx.val (.self 0x08 (e.cls.getD 0) (e.id m)) (x.t + xclk (cost s m x))
      (x.t + xclk (cost s m x) + xclk 1) s := by
  subst hx
  simp [clsStep, hm, hf, Nat.not_lt.2 ht]

/-- A context whose program rejects its message. -/
theorem clsStep_reject {st : Nat} (hx : s.ctx i.src.val i.ctx.val = x) (hm : x.msg = some m) (ht : x.t + xclk (cost s m x) ≤ x.stop)
    (hf : f s m x = .reject st) :
    clsStep i cost f s = endCtx i.src.val i.ctx.val (.self st (x.cls.getD 0) (x.id m)) (x.t + xclk (cost s m x))
      (x.t + xclk (cost s m x) + xclk 1) s := by
  subst hx
  simp [clsStep, hm, hf, Nat.not_lt.2 ht]

/-- A context whose program drops its message. -/
theorem clsStep_drop (hx : s.ctx i.src.val i.ctx.val = x) (hm : x.msg = some m) (ht : x.t + xclk (cost s m x) ≤ x.stop) (hf : f s m x = .drop) :
    clsStep i cost f s = (endCtx i.src.val i.ctx.val .gone (x.t + xclk (cost s m x)) (x.t + xclk (cost s m x) + xclk 1) s).pstat i.src.val 0x0C := by
  subst hx
  simp [clsStep, hm, hf, Nat.not_lt.2 ht]

/-- A context whose program emits its message, with a class set and without one. -/
theorem clsStep_emit {k : Nat} (hx : s.ctx i.src.val i.ctx.val = x) (hm : x.msg = some m) (ht : x.t + xclk (cost s m x) ≤ x.stop)
    (hf : f s m x = .emit) (hk : x.cls = some k) :
    clsStep i cost f s = endCtx i.src.val i.ctx.val (.desc (descOf s m x k)) (x.t + xclk (cost s m x) + xclk 4) (x.t + xclk (cost s m x) + xclk 4) s := by
  subst hx
  simp [clsStep, hm, hf, hk, Nat.not_lt.2 ht]

theorem clsStep_emit_none (hx : s.ctx i.src.val i.ctx.val = x) (hm : x.msg = some m) (ht : x.t + xclk (cost s m x) ≤ x.stop)
    (hf : f s m x = .emit) (hk : x.cls = none) :
    clsStep i cost f s = endCtx i.src.val i.ctx.val (.self 0x08 0 (x.id m)) (x.t + xclk (cost s m x)) (x.t + xclk (cost s m x) + xclk 1) s := by
  subst hx
  simp [clsStep, hm, hf, hk, Nat.not_lt.2 ht]

/-- A register takes a value modulo 2^32. -/
theorem Ctx.setC_mod (x : Ctx) (a v : Nat) : x.setC a (v % 2 ^ 32) = x.setC a v := by
  have hw : word (v % 2 ^ 32) = word v := by
    apply BitVec.eq_of_toNat_eq
    simp [word]
  unfold Ctx.setC
  rw [hw]

theorem clsSet_eq (v : Ctx → Nat) : clsSet i v s m x = .next (x.setC i.a.val (v x)) := by rw [clsSet, Ctx.setC_mod]

section
variable {a n : Nat} (ha : cbOr0 x i.b.val + i.imm.toNat % 2 ^ 16 = a) (hn : i.imm.toNat / 2 ^ 16 + 1 = n)
include ha hn

/-- NUM of ASCII digits (R140). -/
theorem clsNum_digits {ds : List Nat} (h : a + n ≤ m.body.length) (hd : asciiDigits (slice m.body a n) = some ds) :
    clsNum i false s m x = .next (x.setC i.a.val (decNat ds % 2 ^ 32)) := by
  simp only [clsNum, ha, hn, Bool.false_eq_true, if_false, if_neg (Nat.not_lt.2 h), hd]

theorem clsNum_noDigits (h : m.body.length < a + n ∨ asciiDigits (slice m.body a n) = none) : clsNum i false s m x = .format x := by
  by_cases hl : m.body.length < a + n
  · simp only [clsNum, ha, hn, Bool.false_eq_true, if_false, gt_iff_lt, hl, if_true]
  · simp only [clsNum, ha, hn, Bool.false_eq_true, if_false, gt_iff_lt, hl, h.resolve_left hl]

/-- NUMB of packed digits (R140). -/
theorem clsNum_packed (h : a + (n + 1) / 2 ≤ m.body.length) (hd : ((nibbles (slice m.body a ((n + 1) / 2))).take n).all (fun d => decide (d ≤ 9)) = true) :
    clsNum i true s m x = .next (x.setC i.a.val (decNat ((nibbles (slice m.body a ((n + 1) / 2))).take n) % 2 ^ 32)) := by
  simp only [clsNum, ha, hn, if_true, if_neg (Nat.not_lt.2 h), hd]

theorem clsNum_notPacked (h : m.body.length < a + (n + 1) / 2 ∨
    ((nibbles (slice m.body a ((n + 1) / 2))).take n).all (fun d => decide (d ≤ 9)) = false) : clsNum i true s m x = .format x := by
  by_cases hl : m.body.length < a + (n + 1) / 2
  · simp only [clsNum, ha, hn, if_true, gt_iff_lt, hl]
  · simp only [clsNum, ha, hn, if_true, gt_iff_lt, hl, if_false, h.resolve_left hl, Bool.false_eq_true]

end

/-- The least of a function over a list, by a fold that starts at `a`. -/
theorem foldl_min_eq {g : Nat → Nat} {t : Nat} (l : List Nat) (a : Nat) (hex : a = t ∨ ∃ k ∈ l, g k = t) (ha : t ≤ a) (hl : ∀ k ∈ l, t ≤ g k) :
    l.foldl (fun a c => Nat.min a (g c)) a = t := by
  induction l generalizing a with
  | nil => simpa using hex
  | cons c l ih =>
    have hc := hl c (List.mem_cons_self ..)
    refine ih _ ?_ (Nat.le_min.2 ⟨ha, hc⟩) fun k hk => hl k (List.mem_cons_of_mem _ hk)
    rcases hex with rfl | ⟨k, hk, rfl⟩
    · exact Or.inl (Nat.min_eq_left hc)
    · rcases List.mem_cons.1 hk with rfl | hk
      · exact Or.inl (Nat.min_eq_right ha)
      · exact Or.inr ⟨k, hk, rfl⟩

/-- The oldest waiting message takes the lowest-numbered free context, at the first instant at which one is free. -/
theorem contextStart_of {src : Fin 36} {e : LineEnt} {t : Nat} {c : Fin 8} (he : (s.src src.val).line.find? (fun e => decide (e.st = .waiting)) = some e)
    (hex : ∃ k : Fin 8, (s.ctx src.val k.val).msg = none ∧ (s.ctx src.val k.val).freeAt = t)
    (hmin : ∀ k : Fin 8, (s.ctx src.val k.val).msg = none → t ≤ (s.ctx src.val k.val).freeAt) (hc : (s.ctx src.val c.val).msg = none)
    (hfree : (s.ctx src.val c.val).freeAt ≤ Nat.max t e.msg.rel)
    (hlow : ∀ k : Fin 8, k.val < c.val → (s.ctx src.val k.val).msg = none → Nat.max t e.msg.rel < (s.ctx src.val k.val).freeAt) :
    execClassifierContextStart src s = ok (startCtx src.val c.val e.msg (Nat.max t e.msg.rel) s) := by
  let free := (List.range 8).filter (fun c => decide ((s.ctx src.val c).msg = none))
  have hmem {k : Nat} : k ∈ free ↔ k < 8 ∧ (s.ctx src.val k).msg = none := by simp [free]
  have hfind : free.find? (fun c => decide ((s.ctx src.val c).freeAt ≤ Nat.max t e.msg.rel)) = some c.val := by
    rw [List.find?_filter, List.find?_range_eq_some]
    refine ⟨by simp [hc, hfree], by simp, fun k hk => ?_⟩
    have hk' := hlow ⟨k, by omega⟩ hk
    simpa [imp_iff_not_or] using hk'
  have hfirst {c0 : Nat} {rest : List Nat} (hf : free = c0 :: rest) :
      rest.foldl (fun a c => Nat.min a (s.ctx src.val c).freeAt) (s.ctx src.val c0).freeAt = t := by
    have hle {k : Nat} (hk : k ∈ c0 :: rest) : t ≤ (s.ctx src.val k).freeAt := by
      obtain ⟨hlt, hm⟩ := hmem.1 (hf ▸ hk)
      exact hmin ⟨k, hlt⟩ hm
    obtain ⟨k, hm, hk⟩ := hex
    have hin : k.val ∈ c0 :: rest := hf ▸ hmem.2 ⟨k.isLt, hm⟩
    refine foldl_min_eq rest _ ?_ (hle (List.mem_cons_self ..)) fun k hk => hle (List.mem_cons_of_mem _ hk)
    rcases List.mem_cons.1 hin with h0 | h0
    · exact Or.inl (h0 ▸ hk)
    · exact Or.inr ⟨k.val, h0, hk⟩
  show (match (s.src src.val).line.find? (fun e => decide (e.st = .waiting)) with | none => _ | some e => _) = _
  rw [he]
  show (match free with | [] => _ | c0 :: rest => _) = _
  cases hf : free with
  | nil =>
    rw [hf] at hfind
    simp at hfind
  | cons c0 rest =>
    dsimp only
    rw [hfirst hf, show List.find? _ (List.filter _ (List.range 8)) = some c.val from hfind]

/-- Settles O29: every instruction is one step, whose function gives the register, the field or the end that the statement says. -/
theorem classifier : Obligations.Classifier := by
  unfold Obligations.Classifier
  refine ⟨fun s i m => ?instr, fun s i m => ?ends⟩
  case instr =>
    intro p c x r base n len at16 digits packed field off size img rule walk fits goes fails skips
    have go {y : Instr} {k : Nat} {cost : State → Msg → Ctx → Nat} {f : State → Msg → Ctx → ClsEnd} {e : Ctx} (hy : exec y s = ok (clsStep i cost f s))
        (hk : cost s m x = k) (hf : f s m x = .next e) : goes y k e := by
      subst hk
      intro hfit hpc
      obtain ⟨hm, ht⟩ := hfit
      exact hy.trans (congrArg ok (clsStep_next rfl hm ht hf hpc))
    have bad {y : Instr} {k : Nat} {cost : State → Msg → Ctx → Nat} {f : State → Msg → Ctx → ClsEnd} (hy : exec y s = ok (clsStep i cost f s))
        (hk : cost s m x = k) (hf : f s m x = .format x) : fails y k := by
      subst hk
      intro hfit
      obtain ⟨hm, ht⟩ := hfit
      exact hy.trans (congrArg ok (clsStep_format rfl hm ht hf))
    refine ⟨go rfl rfl rfl, fun h => go rfl rfl (if_pos h), fun h => go rfl rfl (if_pos h), fun h => go rfl rfl (if_pos h),
      fun h => bad rfl rfl (if_neg (Nat.not_le.2 h)), fun h => bad rfl rfl (if_neg (Nat.not_le.2 h)), fun h => bad rfl rfl (if_neg (Nat.not_le.2 h)),
      go rfl rfl ?ldf, fun ds h hd => go rfl rfl ?num, fun h => bad rfl rfl ?numFails, fun h hd => go rfl rfl ?numb, fun h => bad rfl rfl ?numbFails,
      go rfl rfl (clsSet_eq _), go rfl rfl (clsSet_eq _), go rfl rfl ?add, go rfl rfl ?addr, go rfl rfl (clsSet_eq _), go rfl rfl (clsSet_eq _),
      go rfl rfl ?shr, go rfl rfl ?shl, go rfl rfl rfl, go rfl rfl rfl, go rfl rfl rfl, go rfl rfl rfl, fun w h => go rfl rfl ?bmw, fun h => bad rfl rfl ?bmwFails,
      fun k h => go rfl rfl ?rule, fun h => go rfl rfl ?noRule, go rfl rfl rfl, fun hb h1 h2 => go rfl rfl ?setdl, fun hb h1 h2 => go rfl rfl ?setdlReg, go rfl rfl rfl,
      fun h1 h2 => go rfl rfl ?setk, fun h => bad rfl rfl ?setkFails, fun h1 h2 h3 => go rfl rfl ?setid, fun h => bad rfl rfl ?setidFails, fun hb h => bad rfl rfl ?setdlFails,
      fun hb h => bad rfl rfl ?setdlRegFails, fun h hfit => ?last⟩
    case ldf => rw [Ctx.setC_mod]; exact clsSet_eq _
    case num => exact clsNum_digits rfl rfl h hd
    case numFails => exact clsNum_noDigits rfl rfl h
    case numb => exact clsNum_packed rfl rfl h hd
    case numbFails => exact clsNum_notPacked rfl rfl h
    case add => rw [Ctx.setC_mod]; exact clsSet_eq _
    case addr => rw [Ctx.setC_mod]; exact clsSet_eq _
    case shr => rw [← Nat.shiftRight_eq_div_pow]; exact clsSet_eq _
    case shl => rw [Ctx.setC_mod, ← Nat.shiftLeft_eq]; exact clsSet_eq _
    case bmw =>
      show (match walk.fields with | some fs => _ | none => _) = _
      rw [h] <;> rfl
    case bmwFails =>
      show (match walk.fields with | some fs => _ | none => _) = _
      rw [h]
    case rule =>
      show (match rule with | some k => _ | none => _) = _
      rw [h]
    case noRule =>
      show (match rule with | some k => _ | none => _) = _
      rw [h] <;> rfl
    case setdl =>
      simp only [hb, ne_eq, not_true_eq_false, if_false]
      exact if_neg (not_or.2 ⟨Nat.one_le_iff_ne_zero.1 h1, Nat.not_lt.2 h2⟩)
    case setdlReg =>
      simp only [hb, ne_eq, not_false_eq_true, if_true]
      exact if_neg (not_or.2 ⟨Nat.one_le_iff_ne_zero.1 h1, Nat.not_lt.2 h2⟩)
    case setk => exact if_neg (not_or.2 ⟨Nat.not_lt.2 h1, Nat.not_lt.2 h2⟩)
    case setkFails => exact if_pos h
    case setid => exact if_neg (not_or.2 ⟨Nat.one_le_iff_ne_zero.1 h1, not_or.2 ⟨Nat.not_lt.2 h2, Nat.not_lt.2 h3⟩⟩)
    case setidFails => exact if_pos h
    case setdlFails =>
      simp only [hb, ne_eq, not_true_eq_false, if_false]
      exact if_pos h
    case setdlRegFails =>
      simp only [hb, ne_eq, not_false_eq_true, if_true]
      exact if_pos h
    case last =>
      obtain ⟨hm, ht⟩ := hfit
      exact congrArg ok (clsStep_last rfl hm ht rfl h)
  case ends =>
    intro p c x t cls
    refine ⟨fun hm ht => ⟨fun k hk => congrArg ok (clsStep_emit rfl hm ht rfl hk), fun hk => congrArg ok (clsStep_emit_none rfl hm ht rfl hk),
      fun hp => ?policy, fun hp => ?format, congrArg ok (clsStep_drop rfl hm ht rfl)⟩, fun hm => ?stop,
      fun e t0 he hex hmin hx hfree hlow => contextStart_of he hex hmin hx hfree hlow⟩
    case policy => exact congrArg ok (clsStep_reject rfl hm ht (congrArg ClsEnd.reject (if_pos hp)))
    case format => exact congrArg ok (clsStep_reject rfl hm ht (congrArg ClsEnd.reject (if_neg hp)))
    case stop =>
      show execClassifierStop i.src i.ctx s = _
      unfold execClassifierStop
      dsimp only
      rw [show (s.ctx i.src.val i.ctx.val).msg = some m from hm]

end Sys2Proof.Machine
end

section
/-!
Requests of the dictionary (R70-R73, R86-R90, R96, R104, R117): what a request that passes its checks is answered, for each carrier of
an answer once.
-/
namespace Sys2Proof.Machine
variable {s t : State} {r : Req} {op role idx sub k : Nat} {v : Bytes}

/-! A request that the session checks let through. -/

theorem deepMs_of_notMs (h : isMs r.tr = false) : deepMs s r op = false := by simp [deepMs, h]

/-- A request that is served, and not met by MODE. -/
theorem serve_of_heard {free : State → Bool} {f : State → Nat → Ans} {a : Ans} (h : Heard s r op t role) (hm : isMs r.tr = false)
    (hf : f t role = a) (ha : a.code = 0) : serve r op free f s = replyIn t r op 0 a.data a.st := by
  unfold serve
  rw [h.heard]
  dsimp only
  rw [h.check]
  simp [deepMs_of_notMs hm, modeFirst, hf, ha]

/-- An entry that may be written takes the effect of its rule (R104, points 7 to 13). -/
theorem judgeWrite_of_granted {lc md : State → Nat → Bool} {rg : State → Bytes → Bool} {value : State → Ent → Nat × Bytes}
    {f : State → Nat → Bytes → Ans} {e : Ent} (he : findEnt idx sub = some e) (hw : e.wr ≠ 0) (hmay : mayWrite t role e.wr = true)
    (hv : value t e = (0, v)) (hp : plainRange e v = true) (hm : isMs r.tr = false) (hlc : lc t role = true) (hmd : md t role = true)
    (hrg : rg t v = true) : judgeWrite r op idx sub lc md rg value f t role = f t role v := by
  simp [judgeWrite, he, hlc, hm, hw, hmay, hmd, hv, hp, hrg]

/-- A write that is granted is answered with its effect. -/
theorem serveWrite_of_granted {lc md : State → Nat → Bool} {rg : State → Bytes → Bool} {f : State → Nat → Bytes → Ans}
    (h : Granted s r idx sub t role v) (hlc : lc t role = true) (hmd : md t role = true) (hrg : rg t v = true) (hf : (f t role v).code = 0) :
    serveWrite r idx sub lc md rg f s = replyIn t (asking r idx sub) 2 0 (f t role v).data (f t role v).st := by
  obtain ⟨e, he, hw, hmay, hp, hv⟩ := h.row
  exact serve_of_heard h.toHeard h.notMs (judgeWrite_of_granted he hw hmay hv hp h.notMs hlc hmd hrg) hf

theorem asking_self (r : Req) : asking r r.index.toNat r.sub.toNat = r := by simp [asking]

/-! READ. -/

/-- A READ that is granted, of a domain that is on. -/
theorem execDictRead_of_heard {a : Ans} (h : Heard s r 1 t role) (hdeep : deepMs t r 1 = false) (hfail : readFails t r.index.toNat = false)
    (hon : ∀ d, readDomain r.index.toNat = some d → t.domReady d = true) (ha : readAnswer r t role = a) (hc : a.code = 0) :
    execDictRead r s = .next (replyIn t r 1 0 a.data a.st) := by
  have hwait : readWaits t r.index.toNat a = none := by
    unfold readWaits
    split
    · rfl
    next d hd => simp [hon d hd]
  unfold execDictRead
  rw [h.heard]
  dsimp only
  rw [h.check]
  dsimp only
  unfold answerRead
  simp [hdeep, hfail, modeFirst, ha, hwait, hc]

theorem readAnswer_of_granted {a : Ans} (he : entryExists r.index.toNat r.sub.toNat = true)
    (hr : hasRight t role (rdRight r.index.toNat r.sub.toNat) = true)
    (ha : (if r.index.toNat = 0x1080 ∧ r.sub.toNat = 1 then readRandom r t else readSlice r r.index.toNat r.sub.toNat t) = a)
    (hroom : 22 + a.data.length + (if r.session = 0 then 0 else 16) ≤ maxRsp r.tr) : readAnswer r t role = a := by
  simp only [readAnswer, he, hr, not_true_eq_false, false_and, if_false, ha, limitAnswer, Nat.not_lt.2 hroom, and_false]

/-! The working values. -/

theorem storeEnt_entW (idx sub : Nat) (v : Bytes) (t : State) : (storeEnt idx sub v t).entW idx sub = v := by
  have hset : (t.setEnt idx sub v).entW idx sub = v := by
    unfold State.entW State.setEnt
    dsimp only
    rw [Tab.look_put_same]
    split
    next h => rw [h]; rfl
    next => rfl
  unfold storeEnt
  dsimp only
  split
  · split
    · exact hset
    · exact hset
  · exact hset

theorem closeSession_sess (t : State) : (closeSession t).dict.sess = none := by
  unfold closeSession
  split
  next h => exact Option.isNone_iff_eq_none.1 h
  next => rfl

/-- A long operation that begins behind no other takes the lowest free slot. -/
theorem takeSlot_of_canBegin {w : Work} (h : CanBegin t idx sub k) : takeSlot t idx sub role w = some (k, queued t idx sub role w k) := by
  unfold takeSlot
  rw [h.free]
  rfl

theorem slot_queued (t : State) (idx sub role : Nat) (w : Work) (k : Nat) :
    (queued t idx sub role w k).slot k =
      { state := .queued, seq := t.dict.nextSeq, used := true, byIdx := idx, bySub := sub, started := t.dt, role := role, work := w } := by
  simp only [queued, State.slot, State.setSlot, Tab.look_put_same]

theorem commitAnswer_of_canBegin (hw : mayWrite t role 8 = true) (hb : CanBegin t 0 0 k) :
    commitAnswer t role = ⟨0, handle t k, queued t 0 0 role .commit k⟩ := by
  unfold commitAnswer
  rw [if_neg (by simp [hw]), if_neg (by simp [hb.idle]), takeSlot_of_canBegin hb]
  dsimp only
  rw [slot_queued]
  rfl

theorem draw_length (t : State) (n : Nat) : (t.draw n).1.length = n := by simp [State.draw]

/-- Settles O30. -/
theorem dictionaryRequests : Obligations.DictionaryRequests := by
  unfold Obligations.DictionaryRequests
  intro s t r role k v idx sub off value n big room w dflt
  have hself : asking r idx sub = r := asking_self r
  have hplain (h : idx < 0x1100) : w = plainRule idx sub := by
    simp only [w, writeRule]
    repeat rw [if_neg (by omega)]
  refine ⟨fun h hdeep hon hfail he hr hrand hbig hoff hroom => ?read, fun h hdeep hi hs hr htrng hlcs hoff hroom => ?random,
    fun h hmode hlc hmd hrg hfx => ?write, fun h hlow => ?plain, fun h hlow hrow hm => ?default, fun h hm hw hb => ?commit,
    fun h hrole hm => ?close, fun h hrole hm => ?keepalive, storeEnt_entW idx sub v t, closeSession_sess t⟩
  case read =>
    have hslice : readSlice r idx sub t = ⟨0, slice value off n, t⟩ := by
      have hoff' : r.offset ≠ 0 → big = true := fun h0 => hbig.resolve_left fun h1 => h0 (BitVec.eq_of_toNat_eq h1)
      have hno : ((! big && decide (r.offset ≠ 0)) || decide (value.length < off)) = false := by
        by_cases h0 : r.offset = 0
        · simp [h0, Nat.not_lt.2 hoff]
        · simp [hoff' h0, Nat.not_lt.2 hoff]
      show (if ((! big && decide (r.offset ≠ 0)) || decide (value.length < off)) = true then _ else _) = _
      rw [hno]
      rfl
    have hfits : 22 + (slice value off n).length + (if r.session = 0 then 0 else 16) ≤ maxRsp r.tr := by
      rw [slice_length, Nat.min_eq_left (Nat.min_le_right _ _)]
      exact hroom
    have hread := readAnswer_of_granted he hr ((if_neg hrand).trans hslice) hfits
    have hexec := execDictRead_of_heard h hdeep hfail hon hread rfl
    exact hexec
  case random =>
    have hdom : readDomain r.index.toNat = none := by
      show readDomain idx = none
      rw [hi]
      rfl
    have hfail : readFails t r.index.toNat = false := by
      unfold readFails
      rw [hdom]
    have hdraw : readRandom r t = ⟨0, (t.draw (Nat.min r.length.toNat 4096)).1, (t.draw (Nat.min r.length.toNat 4096)).2.bump 0x1080 2⟩ := by
      have hoff' : r.offset = 0 := BitVec.eq_of_toNat_eq hoff
      simp [readRandom, htrng, hlcs, hoff']
    have hent : entryExists idx sub = true := by
      rw [hi, hs]
      decide +kernel
    have hfits : 22 + (t.draw (Nat.min r.length.toNat 4096)).1.length + (if r.session = 0 then 0 else 16) ≤ maxRsp r.tr := by
      rw [draw_length]
      exact hroom
    have hans : (if r.index.toNat = 0x1080 ∧ r.sub.toNat = 1 then readRandom r t else readSlice r r.index.toNat r.sub.toNat t) =
        ⟨0, (t.draw (Nat.min r.length.toNat 4096)).1, (t.draw (Nat.min r.length.toNat 4096)).2.bump 0x1080 2⟩ := by
      rw [if_pos ⟨hi, hs⟩]
      exact hdraw
    have hread := readAnswer_of_granted hent hr hans hfits
    have hon : ∀ d, readDomain r.index.toNat = some d → t.domReady d = true := fun d hd => by rw [hdom] at hd; cases hd
    have hexec := execDictRead_of_heard h hdeep hfail hon hread rfl
    exact hexec
  case write =>
    have hserve := serveWrite_of_granted h hlc hmd hrg hfx
    show execDictWrite r s = _
    unfold execDictWrite
    rw [if_neg hmode]
    exact congrArg ok hserve
  case plain =>
    have hserve : serveWrite r idx sub w.lc w.md w.rg w.fx s = replyIn t (asking r idx sub) 2 0 [] (storeEnt idx sub v t) := by
      rw [hplain hlow]
      exact serveWrite_of_granted h rfl rfl rfl rfl
    show execDictWrite r s = _
    unfold execDictWrite
    rw [if_neg (by omega)]
    exact congrArg ok hserve
  case default =>
    obtain ⟨e, he, hw, hmay, hno, hp⟩ := hrow
    have hdflt : dflt = entDefault t idx sub e := by
      show t.dflt idx sub = _
      unfold State.dflt
      rw [he]
    have hval : defaultValue idx sub t e = (0, dflt) := by
      simp only [defaultValue, hno, Bool.false_eq_true, if_false, hdflt]
    have hjudge := judgeWrite_of_granted (r := r) (op := 3) (lc := w.lc) (md := w.md) (rg := w.rg) (f := w.fx) he hw hmay hval hp hm
    rw [hplain hlow] at hjudge
    show ok (serve r opDEFAULT _ (judgeWrite r opDEFAULT idx sub w.lc w.md w.rg (defaultValue idx sub) w.fx) s) = _
    rw [hplain hlow]
    exact congrArg ok (serve_of_heard h hm (hjudge rfl rfl rfl) rfl)
  case commit =>
    have hserve := serve_of_heard (free := fun _ => false) h hm (commitAnswer_of_canBegin hw hb) rfl
    show ok (serve r opCOMMIT _ commitAnswer s) = _
    exact congrArg ok hserve
  case close =>
    exact congrArg ok (serve_of_heard h hm (a := ansOK (closeSession t)) (by simp only [inSession, hm, hrole, Bool.false_eq_true, if_false]) rfl)
  case keepalive =>
    exact congrArg ok (serve_of_heard h hm (a := ansOK t) (by simp only [inSession, hm, hrole, Bool.false_eq_true, if_false]) rfl)

end Sys2Proof.Machine
end

section
/-!
LONGOP_ABORT (R102, R221).
-/
namespace Sys2Proof.Machine
open W31

@[simp] theorem slot_sendReply (p : Reply) (s : State) (k : Nat) : (sendReply p s).slot k = s.slot k := by
  unfold sendReply setMsRsp
  cases p.tr <;> dsimp only
  case mailbox => split <;> rfl
  all_goals rfl

@[simp] theorem slot_noteAnswer (r : Req) (p : Reply) (s : State) (k : Nat) : (noteAnswer r p s).slot k = s.slot k := by
  unfold noteAnswer
  split
  · rfl
  · split <;> rfl

/-- The reply to a request leaves the slots of the long operations as they are. -/
@[simp] theorem slot_replyIn (t u : State) (r : Req) (op st : Nat) (d : Bytes) (k : Nat) : (replyIn t r op st d u).slot k = u.slot k := by
  simp [replyIn]

theorem fxSlot_abort {t : State} {k role : Nat} (h : role = (t.slot k).role) : fxSlot k t role [1] = ansOK (abortOp k t) := by
  simp [fxSlot, h, beNat]

/-- A queued COMMIT in slot 7 that the epochs name too as their queued configuration change. -/
def commitAsChange : State := { tSlotS .queued .commit with unit := { epoch := { st := .queued, slot := some 7 } } }

/-- Refutes O31: where the epochs name the slot as that of their configuration change, ABORT leaves it QUEUED, though its work is a
COMMIT; the statement does not ask that they name another. -/
theorem not_longOperations : ¬ Obligations.LongOperations := by
  unfold Obligations.LongOperations
  intro h
  have hgranted : Granted commitAsChange (reqWith (tReq 2 0xF007 7 [1]) [1]) 0xF007 7 (tG (tReq 2 0xF007 7 [1]) commitAsChange) 4 [1] :=
    granted_of (i0 := 0xF007) (u0 := 7) (d := [1]) rfl (by decide +kernel) (by decide +kernel) (by decide +kernel) (by decide +kernel)
  have hnoop : abortOp 7 (tG (tReq 2 0xF007 7 [1]) commitAsChange) = tG (tReq 2 0xF007 7 [1]) commitAsChange := by decide +kernel
  obtain ⟨-, -, habort, -⟩ := h commitAsChange (tG (tReq 2 0xF007 7 [1]) commitAsChange) (tReq 2 0xF007 7 [1]) 7 4
  obtain ⟨-, hqueued⟩ := habort hgranted (by decide +kernel)
  have hsays := hqueued (by decide +kernel) (by decide +kernel)
  have hfx : fxSlot 7 (tG (tReq 2 0xF007 7 [1]) commitAsChange) 4 [1] = ansOK (tG (tReq 2 0xF007 7 [1]) commitAsChange) :=
    (fxSlot_abort (by decide +kernel)).trans (congrArg ansOK hnoop)
  have hdoes := serveWrite_of_granted (lc := always) (md := always) (rg := anyValue) (f := fxSlot 7) hgranted rfl rfl rfl (by rw [hfx]; rfl)
  rw [hfx] at hdoes
  have hsame := (congrArg ok hdoes).symm.trans hsays
  injection hsame with hsame
  have hslot := congrArg (fun u => (u.slot 7).state) hsame
  simp only [slot_replyIn] at hslot
  exact absurd hslot (by decide +kernel)

end Sys2Proof.Machine
end

section
/-!
Sessions and the frames of the management Ethernet port (R74, R79-R91).
-/
namespace Sys2Proof.Machine
variable {s t : State} {r : Req} {h : HalfSession}

/-! Establishment. -/

theorem openHalf_half (r : Req) (t : State) : ∃ x, (openHalf r t).2.2.dict.half = some x ∧ x.id = (openHalf r t).1 ∧ x.id ≠ 0 ∧
    x.role = (byteAt r.data 0).toNat ∧ x.tr = r.tr ∧ x.src = r.src.toNat ∧ x.started = t.dt := by
  unfold openHalf
  extract_lets i id n e d u pub tr eph z sg x
  exact ⟨x, rfl, rfl, Nat.add_one_ne_zero _, rfl, rfl, rfl, rfl⟩

/-- SESSION_AUTH of the half-open session that the request names. -/
theorem execSessionAuth_of_half (hg : ∀ free, gate r 0x11 free s = .session t) (hh : t.dict.half = some h) (hid : h.id = r.session.toNat)
    (htr : h.tr = r.tr) (hsrc : h.src = r.src.toNat) (hseq : r.seq = 0) : execSessionAuth r s = ok (authHalf r h t) := by
  unfold execSessionAuth
  rw [hg]
  dsimp only
  rw [hh]
  dsimp only
  rw [if_neg (by simp [hid, htr, hsrc]), if_neg (by simp [hseq])]

theorem openFull_half (r : Req) (h : HalfSession) (t : State) : (openFull r h t).dict.half = none := by
  unfold openFull
  extract_lets k se u d w
  exact congrArg Prod.fst (replyIn_sessionView w r opAUTH rOK [] w)

theorem openFull_sess (r : Req) (h : HalfSession) (t : State) :
    ∃ se, (openFull r h t).dict.sess = some se ∧ se.id = h.id ∧ se.role = h.role ∧ se.since = t.dt := by
  unfold openFull
  extract_lets k se u d w
  have hview := congrArg Prod.snd (replyIn_sessionView w r opAUTH rOK [] w)
  obtain ⟨x, hx, he⟩ := Option.map_eq_some_iff.1 (hview.trans (show w.sessionView.2 = some se.opened from rfl))
  exact ⟨x, hx, congrArg Session.id he, congrArg Session.role he, congrArg Session.since he⟩

/-- Settles O32. -/
theorem sessions : Obligations.Sessions := by
  unfold Obligations.Sessions
  refine ⟨fun s t r role h => ⟨fun hg hc hcode => ?opens, openHalf_half r t, fun hg hh hid htr hsrc hseq => ?auth, openFull_half r h t,
    openFull_sess r h t⟩, fun s h hh => ?timeout, fun s se hse => ?idle, fun s a b d hdom hon => ?mge⟩
  case opens =>
    have hopen : openReply r t = noteAnswer r (mkReplyAs (openHalf r t).1 t r 0x10 0 (openHalf r t).2.1 (decide (r.session ≠ 0)))
        (sendReply (mkReplyAs (openHalf r t).1 t r 0x10 0 (openHalf r t).2.1 (decide (r.session ≠ 0))) (openHalf r t).2.2) := by
      unfold openReply
      rw [hcode]
      rfl
    exact (execSessionOpen_of_go (hg _) hc).trans (congrArg ok hopen)
  case auth => exact execSessionAuth_of_half hg hh hid htr hsrc hseq
  case timeout =>
    show execHalfOpenTimeout s = _
    unfold execHalfOpenTimeout
    rw [hh]
    rfl
  case idle =>
    show execSessionIdleTimeout s = _
    unfold execSessionIdleTimeout
    rw [hse]
    rfl
  case mge =>
    have hserves : ¬ (¬ s.domReady 32 ∨ s.cfg 0x2040 1 = 0) := by simp [hdom, hon]
    refine ⟨fun ha0 ha => ?v4, fun hm => ?v6, if_neg hserves, if_neg hserves⟩
    case v4 =>
      have hv : mgeV4 s a.toNat = true := by simp [mgeV4, ha, ha0]
      exact ⟨(if_neg hserves).trans (congrArg ok (if_pos hv)), (if_neg hserves).trans (congrArg ok (if_pos hv))⟩
    case v6 =>
      have hv : mgeV6 s (beBytes b.toNat 16) = true := by
        simpa [mgeV6] using hm
      exact ⟨(if_neg hserves).trans (congrArg ok (if_pos hv)), (if_neg hserves).trans (congrArg ok (if_pos hv))⟩

end Sys2Proof.Machine
end

section
/-!
Frames that reach a port, and its link (R121-R124, R130-R134, R145, R159, R168, R174).
-/
namespace Sys2Proof.Machine
variable {s : State} {p : Fin 32} {f : Frame}

/-! What a frame becomes, on a port that is up and outside DEEP: one judgement after another. -/

/-- What a received frame becomes once it is counted. -/
def frameTaken (p : Nat) (f : Frame) (c : State) : Res :=
  if bypassed c p f then ok (bypassOp p f c)
  else if f.badFcs.isSome then ok (c.pstat p 3)
  else if frameLen f > 9216 then ok (c.pstat p 4)
  else if frameLen f < 64 then ok c
  else if ¬ vlanOk c p f then ok (c.pstat p 0x13)
  else if f.etype.toNat = 0x8808 then ok (c.pstat p 5)
  else match wakeScope c p f with
    | some sc => ok (wakeFrameOp p sc c)
    | none =>
      if f.etype.toNat = pcfg c p 8 ∧ pcfg c p 5 = 0 then ok (directReceive p f c)
      else if pcfg c p 5 = 0 then ok (c.pstat p 0x13)
      else if f.etype.toNat = 0x0806 then ok (arpReceive p f c)
      else if f.etype.toNat = 0x0800 then ok (ip4Receive p f c)
      else if f.etype.toNat = 0x86DD then ok (ip6Receive p f c)
      else ok (c.pstat p 0x13)

theorem execFrameReceive_of_up (hup : portUp s p.val = true) (hmode : s.power.mode ≠ .deep) :
    execFrameReceive p f s = frameTaken p.val f (s.pstat p.val 1) := by
  have hhears : portHears s p.val = true := by simp [portHears, hup]
  unfold execFrameReceive
  dsimp only
  rw [if_neg (by simp [hhears]), if_neg (by simp [hmode, hup])]
  rfl

/-- A frame that is neither bypassed nor discarded for its FCS, its length or its VLAN. -/
theorem frameTaken_of_good {c : State} {q : Nat} (hb : bypassed c q f = false) (hf : f.badFcs = none) (hlo : 64 ≤ frameLen f)
    (hhi : frameLen f ≤ 9216) (hv : vlanOk c q f = true) (he : f.etype.toNat ≠ 0x8808) (hw : wakeScope c q f = none) :
    frameTaken q f c =
      if f.etype.toNat = pcfg c q 8 ∧ pcfg c q 5 = 0 then ok (directReceive q f c)
      else if pcfg c q 5 = 0 then ok (c.pstat q 0x13)
      else if f.etype.toNat = 0x0806 then ok (arpReceive q f c)
      else if f.etype.toNat = 0x0800 then ok (ip4Receive q f c)
      else if f.etype.toNat = 0x86DD then ok (ip6Receive q f c)
      else ok (c.pstat q 0x13) := by
  simp [frameTaken, hb, hf, Nat.not_lt.2 hlo, Nat.not_lt.2 hhi, hv, he, hw]

theorem raiseMsix_power (n : Nat) (s : State) : (raiseMsix n s).power = s.power := by
  unfold raiseMsix
  split
  · rfl
  · split <;> rfl

/-- Settles O34. -/
theorem portFrames : Obligations.PortFrames := by
  unfold Obligations.PortFrames
  intro s p f c et linked lost takes good mine
  have hup {h : Prop} {t : State} (ht : h → frameTaken p.val f c = ok t) : takes h t := fun hu hm hh =>
    (execFrameReceive_of_up hu hm).trans (ht hh)
  refine ⟨hup fun hb => ?_, hup fun ⟨hb, hf⟩ => ?_, hup fun ⟨hb, hf, hl⟩ => ?_, hup fun ⟨⟨hb, hf, hlo, hhi⟩, hv⟩ => ?_,
    hup fun ⟨⟨hb, hf, hlo, hhi⟩, hv, he⟩ => ?_, fun sc => hup fun ⟨⟨hb, hf, hlo, hhi⟩, hv, he, hw⟩ => ?_,
    hup fun ⟨⟨⟨hb, hf, hlo, hhi⟩, hv, he, hw⟩, hdir, het⟩ => ?_, hup fun ⟨⟨⟨hb, hf, hlo, hhi⟩, hv, he, hw⟩, hdir, het⟩ => ?_,
    hup fun ⟨hb, hf, hl⟩ => ?_, hup fun ⟨⟨⟨hb, hf, hlo, hhi⟩, hv, he, hw⟩, htcp, het⟩ => ?_,
    hup fun ⟨⟨⟨hb, hf, hlo, hhi⟩, hv, he, hw⟩, htcp, het⟩ => ?_, hup fun ⟨⟨⟨hb, hf, hlo, hhi⟩, hv, he, hw⟩, htcp, het⟩ => ?_,
    hup fun ⟨⟨⟨hb, hf, hlo, hhi⟩, hv, he, hw⟩, htcp, h6, h0, hD⟩ => ?_, fun o u ho hv4 => ?arp, fun hu hb => ?forward,
    fun sc hw hh hv => ?wake, fun hl hm hd => ?linkUp, fun hl hd => ?linkUpDeep, fun hl => ?linkDown⟩
  · simp [frameTaken, hb]
  · simp [frameTaken, hb, hf]
  · simp [frameTaken, hb, hf, hl]
  · simp [frameTaken, hb, hf, Nat.not_lt.2 hlo, Nat.not_lt.2 hhi, hv]
  · simp [frameTaken, hb, hf, Nat.not_lt.2 hlo, Nat.not_lt.2 hhi, hv, show f.etype.toNat = 0x8808 from he]
  · simp [frameTaken, hb, hf, Nat.not_lt.2 hlo, Nat.not_lt.2 hhi, hv, show ¬ f.etype.toNat = 0x8808 from he, hw]
  · rw [frameTaken_of_good hb hf hlo hhi hv he hw, if_pos ⟨het, hdir⟩]
  · rw [frameTaken_of_good hb hf hlo hhi hv he hw, if_neg (fun hc => het hc.1), if_pos hdir]
  · simp [frameTaken, hb, hf, hl, show ¬ 9216 < frameLen f by omega]
  · rw [frameTaken_of_good hb hf hlo hhi hv he hw, if_neg (fun hc => htcp hc.2), if_neg htcp, if_pos het]
  · rw [frameTaken_of_good hb hf hlo hhi hv he hw, if_neg (fun hc => htcp hc.2), if_neg htcp,
      if_neg (show ¬ f.etype.toNat = 0x0806 from by rw [show f.etype.toNat = 0x0800 from het]; decide), if_pos het]
  · have hne : f.etype.toNat ≠ 0x0806 ∧ f.etype.toNat ≠ 0x0800 := by
      rw [show f.etype.toNat = 0x86DD from het]
      decide
    rw [frameTaken_of_good hb hf hlo hhi hv he hw, if_neg (fun hc => htcp hc.2), if_neg htcp, if_neg hne.1, if_neg hne.2, if_pos het]
  · rw [frameTaken_of_good hb hf hlo hhi hv he hw, if_neg (fun hc => htcp hc.2), if_neg htcp, if_neg h6, if_neg h0, if_neg hD]
  case arp => simp [arpReceive, hv4, ho]
  case forward => exact if_pos ⟨hu, hb⟩
  case wake =>
    show execWakeFrame p f s = _
    unfold execWakeFrame
    rw [hw]
    exact if_pos ⟨hh, hv⟩
  case linkUp =>
    have hpower : (raiseMsix 6 linked).power = s.power := raiseMsix_power 6 linked
    show execPortLinkUp p s = _
    unfold execPortLinkUp
    dsimp only
    rw [if_neg (by simp [hl])]
    exact if_neg (by rw [hpower]; simp [hm, hd])
  case linkUpDeep =>
    have hpower : (raiseMsix 6 linked).power = s.power := raiseMsix_power 6 linked
    show execPortLinkUp p s = _
    unfold execPortLinkUp
    dsimp only
    rw [if_neg (by simp [hl])]
    exact if_pos (by rw [hpower]; exact hd)
  case linkDown => exact if_neg (by simp [hl])

end Sys2Proof.Machine
end

section
/-!
What answering an outstanding message leaves of the sources (R156, R162, R163): the audit and host paths nothing, the TCP engine and the
transmit queues all but what they are for; no answer takes back that a source's reset is deferred.
-/
namespace Sys2Proof.Machine
variable {s : State}

/-! The audit stream, host memory, MSI-X and the counts write only to what `beyondAudit` leaves out. -/

/-- The state without its audit units, host queues, access tables, PCIe function, output, counts and fresh bits. -/
def State.beyondAudit (s : State) : State :=
  { s with
    out := [], fresh := [], dict := { s.dict with work := [] }, act := { s.act with tabs := [] }
    unit := { s.unit with auds := [] }, port := { s.port with hqs := [], pcie := {} } }

@[simp] theorem State.beyondAudit_noteSet (s : State) (k m : Nat) : (s.noteSet k m).beyondAudit = s.beyondAudit := rfl
@[simp] theorem State.beyondAudit_bump (s : State) (i k : Nat) : (s.bump i k).beyondAudit = s.beyondAudit := rfl
@[simp] theorem State.beyondAudit_bumpBy (s : State) (i k n : Nat) : (s.bumpBy i k n).beyondAudit = s.beyondAudit := rfl
@[simp] theorem State.beyondAudit_pstat (s : State) (p sub : Nat) : (s.pstat p sub).beyondAudit = s.beyondAudit := rfl
@[simp] theorem State.beyondAudit_setHq (s : State) (q : Nat) (v : HostQ) : (s.setHq q v).beyondAudit = s.beyondAudit := rfl
@[simp] theorem State.beyondAudit_setAud (s : State) (d : Nat) (v : AudUnit) : (s.setAud d v).beyondAudit = s.beyondAudit := rfl
@[simp] theorem State.beyondAudit_setActTab (s : State) (d : Nat) (v : ActTable) : (s.setActTab d v).beyondAudit = s.beyondAudit := rfl

@[simp] theorem beyondAudit_raiseMsix (v : Nat) (s : State) : (raiseMsix v s).beyondAudit = s.beyondAudit := by
  unfold raiseMsix
  split
  · rfl
  · split <;> rfl

@[simp] theorem beyondAudit_recordViolation (ini addr kind cause : Nat) (prec pcv : Bool) (info : Nat) (s : State) :
    (recordViolation ini addr kind cause prec pcv info s).beyondAudit = s.beyondAudit := by
  unfold recordViolation
  simp only [apply_ite State.beyondAudit, State.beyondAudit_setActTab, State.beyondAudit_noteSet, State.beyondAudit_bump, ite_self]

@[simp] theorem beyondAudit_dmaJudge (ini kind : Nat) (ps : List (Nat × Nat)) : ∀ (done : Nat) (s : State),
    (dmaJudge ini kind ps done s).2.2.beyondAudit = s.beyondAudit := by
  induction ps with
  | nil => exact fun _ _ => rfl
  | cons a ps ih =>
    intro done s
    unfold dmaJudge
    dsimp only
    split
    · exact ih _ s
    · simp

@[simp] theorem beyondAudit_hostWrite (ini a : Nat) (bs : Bytes) (s : State) : (hostWrite ini a bs s).2.2.beyondAudit = s.beyondAudit := by
  have hemit : ∀ (ws : List (Nat × Bytes)) (u : State), (ws.foldl (fun s w => s.emit (.hostWrite w.1 w.2)) u).beyondAudit = u.beyondAudit := by
    intro ws
    induction ws with
    | nil => exact fun _ => rfl
    | cons w ws ih => exact fun u => ih _
  unfold hostWrite
  dsimp only
  rw [hemit]
  exact beyondAudit_dmaJudge _ _ _ _ _

@[simp] theorem beyondAudit_audEntry (d off : Nat) (bs : Bytes) (sig : Bool) (s : State) :
    (audEntry d off bs sig s).2.beyondAudit = s.beyondAudit := by
  simp only [audEntry, apply_ite Prod.snd, apply_ite State.beyondAudit, beyondAudit_raiseMsix, State.beyondAudit_noteSet,
    State.beyondAudit_setHq, beyondAudit_hostWrite, ite_self]

@[simp] theorem beyondAudit_audDiscard (d n : Nat) (s : State) : (audDiscard d n s).beyondAudit = s.beyondAudit := by simp [audDiscard]

@[simp] theorem beyondAudit_audRecordBytes (d : Nat) (bs : Bytes) (s : State) : (audRecordBytes d bs s).beyondAudit = s.beyondAudit := by
  simp only [audRecordBytes, apply_ite State.beyondAudit, State.beyondAudit_setAud, beyondAudit_audEntry, beyondAudit_audDiscard, ite_self]

@[simp] theorem beyondAudit_audAppend (d t : Nat) (rec : Bytes) (s : State) : (audAppend d t rec s).beyondAudit = s.beyondAudit := by
  simp only [audAppend, apply_ite State.beyondAudit, State.beyondAudit_setAud, State.beyondAudit_bump, beyondAudit_audRecordBytes, ite_self]

@[simp] theorem beyondAudit_hostComplete (q : Nat) (m : Msg) (st self id cls : Nat) (body : Bytes) (s : State) :
    (hostComplete q m st self id cls body s).beyondAudit = s.beyondAudit := by
  have hw (n : Nat) : (if n = 0 then (0, false, s) else hostWrite 0x78 m.rbuf (body.take n) s).2.2.beyondAudit = s.beyondAudit := by
    split
    · rfl
    · simp
  simp only [hostComplete, apply_ite State.beyondAudit, State.beyondAudit_pstat, State.beyondAudit_noteSet, State.beyondAudit_setHq,
    beyondAudit_raiseMsix, beyondAudit_hostWrite, hw, ite_self]

/-- What only those parts differ in has the same sources, lanes and results on the link. -/
theorem src_of_beyondAudit {t : State} (h : t.beyondAudit = s.beyondAudit) (l : Nat) : t.src l = s.src l :=
  show t.beyondAudit.src l = s.beyondAudit.src l from by rw [h]

theorem lane_of_beyondAudit {t : State} (h : t.beyondAudit = s.beyondAudit) (l : Nat) : t.lane l = s.lane l :=
  show t.beyondAudit.lane l = s.beyondAudit.lane l from by rw [h]

theorem resLink_of_beyondAudit {t : State} (h : t.beyondAudit = s.beyondAudit) : t.port.resLink = s.port.resLink :=
  congrArg (fun u => u.port.resLink) h

theorem src_sentOne (p : Nat) (adm : Bool) (s : State) (l : Nat) : (sentOne p adm s).src l = s.src l := by
  unfold sentOne
  split <;> rfl

/-! A deferred reset stays deferred. -/

/-- The reset of source `n` waits for its sweep. -/
def State.deferred (s : State) (n : Nat) : Bool := (s.src n).deferReset

theorem deferred_of_src {s t : State} {n : Nat} (h : t.src n = s.src n) : t.deferred n = s.deferred n := congrArg Source.deferReset h

/-- A write to a source that leaves its mark. -/
theorem setSrc_deferred {p : Nat} {v : Source} (h : v.deferReset = (s.src p).deferReset) (n : Nat) : (s.setSrc p v).deferred n = s.deferred n := by
  by_cases hn : n = p
  · subst hn
    exact (congrArg Source.deferReset (State.src_setSrc s n v)).trans h
  · exact congrArg Source.deferReset (State.src_setSrc_other s p v hn)

variable (n : Nat)

@[simp] theorem State.pstat_deferred (s : State) (p sub : Nat) : (s.pstat p sub).deferred n = s.deferred n := rfl

@[simp] theorem sentOne_deferred (p : Nat) (adm : Bool) (s : State) : (sentOne p adm s).deferred n = s.deferred n :=
  deferred_of_src (src_sentOne p adm s n)

@[simp] theorem netFrame_deferred (p : Nat) (bs : Bytes) (s : State) : (netFrame p bs s).deferred n = s.deferred n := setSrc_deferred (by rfl) n

@[simp] theorem ipSend_deferred (p et : Nat) (tci : Option Nat) (pkt : Bytes) (s : State) : (ipSend p et tci pkt s).deferred n = s.deferred n := by
  unfold ipSend
  dsimp only
  split
  · rw [netFrame_deferred]
    exact setSrc_deferred (by rfl) n
  · exact netFrame_deferred n p _ s

@[simp] theorem tcpSeg_deferred (p seq flags : Nat) (data : Bytes) (s : State) : (tcpSeg p seq flags data s).deferred n = s.deferred n :=
  ipSend_deferred n _ _ _ _ s

@[simp] theorem setTcp_deferred (s : State) (p : Nat) (t : Tcp) : (s.setTcp p t).deferred n = s.deferred n := by
  have hset : (s.setSrc p { s.src p with tcp := t }).deferred n = s.deferred n := setSrc_deferred (by rfl) n
  unfold State.setTcp
  dsimp only
  split
  · exact (deferred_of_src (src_of_beyondAudit (beyondAudit_raiseMsix 6 _) n)).trans hset
  · exact hset

@[simp] theorem tcpResend_deferred (p o m : Nat) (rescue : Bool) (s : State) : (tcpResend p o m rescue s).deferred n = s.deferred n := by
  simp [tcpResend]

@[simp] theorem tcpSendNew_deferred (p m : Nat) (s : State) : (tcpSendNew p m s).deferred n = s.deferred n := by simp [tcpSendNew]

theorem sackSendF_deferred (p fuel : Nat) : ∀ s : State, (sackSendF p fuel s).deferred n = s.deferred n := by
  induction fuel with
  | zero => exact fun _ => rfl
  | succ fuel ih =>
    intro s
    unfold sackSendF
    dsimp only
    split
    · rfl
    · split
      · rw [ih, tcpResend_deferred]
      · split
        · rw [ih, tcpSendNew_deferred]
        · split
          · rw [ih, tcpResend_deferred]
          · split
            · rfl
            · exact tcpResend_deferred n p _ _ _ s

theorem tcpOutputF_deferred (p fuel : Nat) : ∀ s : State, (tcpOutputF p fuel s).deferred n = s.deferred n := by
  induction fuel with
  | zero => exact fun _ => rfl
  | succ fuel ih =>
    intro s
    unfold tcpOutputF
    dsimp only
    split
    · rfl
    · split
      · split
        · exact setTcp_deferred n s p _
        · rfl
      · rw [ih, tcpSendNew_deferred]

@[simp] theorem tcpMaybeFin_deferred (p : Nat) (s : State) : (tcpMaybeFin p s).deferred n = s.deferred n := by
  unfold tcpMaybeFin
  dsimp only
  split
  · rw [setTcp_deferred, tcpSeg_deferred]
  · rfl

@[simp] theorem tcpOutput_deferred (p : Nat) (s : State) : (tcpOutput p s).deferred n = s.deferred n := by
  unfold tcpOutput
  rw [tcpMaybeFin_deferred]
  split
  · exact sackSendF_deferred n p _ s
  · exact tcpOutputF_deferred n p _ s

@[simp] theorem tcpCommit_deferred (p : Nat) (tci : Option Nat) (bs : Bytes) (s : State) : (tcpCommit p tci bs s).2.deferred n = s.deferred n := by
  unfold tcpCommit
  dsimp only
  split
  · rfl
  · split
    · rfl
    · rw [tcpOutput_deferred, setTcp_deferred]

@[simp] theorem selfSend_deferred (p : Nat) (m : Msg) (st cls id : Nat) (s : State) : (selfSend p m st cls id s).deferred n = s.deferred n := by
  unfold selfSend
  dsimp only
  split
  · exact deferred_of_src (src_of_beyondAudit (by simp) n)
  · split
    · rfl
    · split
      · rw [tcpCommit_deferred, State.pstat_deferred]
      · exact setSrc_deferred (by rfl) n

theorem selfIssue_deferred (p : Nat) (m : Msg) (st cls id : Nat) (s : State) : (selfIssue p m st cls id s).deferred n = s.deferred n :=
  (selfSend_deferred n p m st cls id _).trans (deferred_of_src (src_of_beyondAudit (beyondAudit_audAppend _ _ _ s) n))

theorem answerOutst_deferred (p st : Nat) (o : Outst) (s : State) : (answerOutst p st o s).deferred n = s.deferred n := by
  unfold answerOutst
  split
  · dsimp only
    rw [selfIssue_deferred, sentOne_deferred]
    exact setSrc_deferred (by rfl) n
  · exact setSrc_deferred (by rfl) n

theorem foldl_answerOutst_deferred (p st : Nat) (os : List Outst) : ∀ s : State,
    (os.foldl (fun s o => answerOutst p st o s) s).deferred n = s.deferred n := by
  induction os with
  | nil => exact fun _ => rfl
  | cons o os ih => exact fun s => (ih _).trans (answerOutst_deferred n p st o s)

end Sys2Proof.Machine
end

section
/-!
What a port sends, the results that reach it and its sweep (R153-R158, R162, R163, R239).
-/
namespace Sys2Proof.Machine
variable {s : State} {p st : Nat}

/-! Transmission. -/

/-- The transmitter of a port that is up and sends nothing. -/
theorem execTransmitFrameSelect_of_idle {q : Fin 32} {f : TxFrame} {r : Source} (hup : portUp s q.val = true) (hcur : (s.src q.val).cur = none)
    (hnext : nextFrame s (s.src q.val) = some (f, r)) :
    let g := sweepFrame q.val f (s.setSrc q.val r)
    let v := match f.id with | some i => sentEntry q.val i f.swept g.2 | none => g.2
    let w := match f.deadline with | some d => lateCount f.die d v | none => v
    execTransmitFrameSelect q s = ok (txStart q.val g.1 w.dt w) := by
  unfold execTransmitFrameSelect
  simp only [hcur, Option.isSome_none, Bool.false_eq_true, if_false, hup, not_true_eq_false, hnext] <;> rfl

theorem txStart_cur (f : TxFrame) (t : Nat) (s : State) : ((txStart p f t s).src p).cur = some f :=
  congrArg Source.cur (State.src_setSrc s p _)

/-! A sweep. -/

theorem answerOutst_of_gone {o : Outst} (h : p ≥ 32 ∨ pcfg s p 5 ≠ 0 ∨ o.lost = true) : answerOutst p st o s =
    selfIssue p o.msg st o.cls o.id (sentOne p o.adm (s.setSrc p { s.src p with outst := (s.src p).outst.filter (fun x => decide (x ≠ o)) })) :=
  if_pos h

theorem answerOutst_of_direct {o : Outst} (hp : p < 32) (hdir : pcfg s p 5 = 0) (hlost : o.lost = false) :
    answerOutst p st o s = queueAnswer p o s := if_neg (by simp [hdir, hlost, Nat.not_le.2 hp])

/-- The sweep of a source whose reset is not deferred and which sends nothing. -/
theorem portSweepOp_of_idle {x : Nat} (hreq : (s.src p).sweepReq = some (st, x)) (hdef : (s.src p).deferReset = false)
    (hcur : (s.src p).cur = none) :
    portSweepOp p s = ((s.src p).outst.filter (fun o => ! o.swept && bit (s.src p).sweepDies o.die)).foldl (fun s o => answerOutst p st o s)
      (s.setSrc p { s.src p with sweepReq := none, sweepDies := 0 }) := by
  have hkeep : ((s.src p).deferReset && decide (p < 32)) = (s.src p).deferReset := by simp [hdef]
  unfold portSweepOp
  dsimp only
  rw [hreq]
  dsimp only
  rw [hcur, hkeep]
  simp only [hdef, Bool.or_false]
  have hstays := foldl_answerOutst_deferred p p st ((s.src p).outst.filter (fun o => ! o.swept && bit (s.src p).sweepDies o.die))
    (s.setSrc p { s.src p with sweepReq := none, sweepDies := 0 })
  rw [setSrc_deferred (by rfl) p] at hstays
  simp only [State.deferred, hdef, hcur] at hstays
  exact if_neg fun h => Bool.false_ne_true (hstays.symm.trans h.2.1)

/-- An identifier that its port has answered. -/
def Outst.answered (o : Outst) : Outst := { o with swept := true }

/-- The port's answers to identifiers not yet answered leave each of them in the list, marked. -/
theorem foldl_mark (os : List Outst) (hos : ∀ o ∈ os, o.swept = false) : ∀ l : List Outst,
    os.foldl (fun l o => l.map (fun x => if x = o then o.answered else x)) l = l.map (fun x => if x ∈ os then x.answered else x) := by
  induction os with
  | nil => simp
  | cons o os ih =>
    intro l
    rw [List.foldl_cons, ih (fun o h => hos o (List.mem_cons_of_mem _ h)), List.map_map]
    refine List.map_congr_left fun x _ => ?_
    by_cases hx : x = o
    · have hnot : o.answered ∉ os := fun h => absurd (hos _ (List.mem_cons_of_mem _ h)) (by simp [Outst.answered])
      simp [hx, hnot]
    · simp [hx]

/-- What the answers of a Direct port leave of the port. -/
theorem foldl_answerOutst_of_direct (hp : p < 32) (os : List Outst) (hlost : ∀ o ∈ os, o.lost = false) : ∀ s : State, pcfg s p 5 = 0 →
    let t := os.foldl (fun s o => answerOutst p st o s) s
    (t.src p).sweepReq = (s.src p).sweepReq ∧ (t.src p).byp = (s.src p).byp ∧
      (t.src p).outst = os.foldl (fun l o => l.map (fun x => if x = o then o.answered else x)) (s.src p).outst := by
  induction os with
  | nil => exact fun _ _ => ⟨rfl, rfl, rfl⟩
  | cons o os ih =>
    intro s hdir t
    have hsrc := State.src_setSrc s p
    obtain ⟨hreq, hbyp, hout⟩ := ih (fun o h => hlost o (List.mem_cons_of_mem _ h)) (queueAnswer p o s) hdir
    have ht : t = os.foldl (fun s o => answerOutst p st o s) (queueAnswer p o s) :=
      congrArg (os.foldl _) (answerOutst_of_direct hp hdir (hlost o List.mem_cons_self))
    unfold queueAnswer at hreq hbyp hout ht
    rw [hsrc] at hreq hbyp hout
    rw [ht]
    exact ⟨hreq, hbyp, hout⟩

/-- Settles O35. -/
theorem portAnswers : Obligations.PortAnswers := by
  unfold Obligations.PortAnswers
  refine ⟨?transmit, ?result, ?sweep, fun s p st o h => answerOutst_of_gone h⟩
  case transmit =>
    intro s p f r g v w hup hcur hnext
    refine ⟨execTransmitFrameSelect_of_idle hup hcur hnext, txStart_cur _ _ _, fun hf => ?_⟩
    show sweepFrame p.val f (s.setSrc p.val r) = _
    unfold sweepFrame
    rw [hf]
  case result =>
    intro s die h a u done open_ hh
    have hexec : exec (.resultHeaderArrival die) s = ok (done (match open_ with | none => u.pstat h.src 0x12 | some o => frameResult h.src h o u)) := by
      show execResultHeaderArrival die s = _
      unfold execResultHeaderArrival
      rw [hh]
      rfl
    refine ⟨fun ho => ?_, fun o ho => ?_⟩
    · rw [hexec, ho]
    · rw [hexec, ho]
  case sweep =>
    intro s src st x p r u hit hreq hdef hcur
    refine ⟨congrArg ok (portSweepOp_of_idle hreq hdef hcur), fun hp hdir hlost => ?_⟩
    obtain ⟨hreq', hbyp, hout⟩ := foldl_answerOutst_of_direct (st := st) hp (r.outst.filter hit) (fun o h => hlost o (List.mem_of_mem_filter h)) u hdir
    have hu : u.src p = { r with sweepReq := none, sweepDies := 0 } := State.src_setSrc s p _
    rw [hu] at hreq' hbyp hout
    refine ⟨_, congrArg ok (portSweepOp_of_idle hreq hdef hcur), hreq', hbyp, hout.trans ?_⟩
    have hopen : ∀ o ∈ r.outst.filter hit, o.swept = false := fun o h => by
      have hhit := (List.mem_filter.1 h).2
      simp only [hit, Bool.and_eq_true, Bool.not_eq_true'] at hhit
      exact hhit.1
    rw [foldl_mark _ hopen]
    refine List.map_congr_left fun o ho => ?_
    simp only [List.mem_filter, ho, true_and]
    rfl

end Sys2Proof.Machine
end

section
/-!
The TCP engine of a port: the segments that reach it and its timers (R124-R126).
-/
namespace Sys2Proof.Machine
variable {s : State} {q : Nat} {g : TcpSeg}

/-! Learning the peer's link address leaves the connection as it is. -/

theorem setSrc_tcp {p : Nat} {v : Source} (h : v.tcp = (s.src p).tcp) (n : Nat) : ((s.setSrc p v).src n).tcp = (s.src n).tcp := by
  by_cases hn : n = p
  · subst hn
    exact (congrArg Source.tcp (State.src_setSrc s n v)).trans h
  · exact congrArg Source.tcp (State.src_setSrc_other s p v hn)

theorem netFrame_tcp (p : Nat) (bs : Bytes) (s : State) (n : Nat) : ((netFrame p bs s).src n).tcp = (s.src n).tcp := setSrc_tcp (by rfl) n

theorem ipSend_tcp (p et : Nat) (tci : Option Nat) (pkt : Bytes) (s : State) (n : Nat) : ((ipSend p et tci pkt s).src n).tcp = (s.src n).tcp := by
  unfold ipSend
  dsimp only
  split
  · rw [netFrame_tcp]
    exact setSrc_tcp (by rfl) n
  · exact netFrame_tcp p _ s n

theorem learnNbr_tcp (p : Nat) (mac : Bytes) (tci : Option Nat) (s : State) (n : Nat) : ((learnNbr p mac tci s).src n).tcp = (s.src n).tcp := by
  have hsend : ∀ (l : List (Option Nat × Nat × Bytes)) (u : State),
      ((l.foldl (fun s e => ipSend p e.2.1 e.1 e.2.2 s) u).src n).tcp = (u.src n).tcp := by
    intro l
    induction l with
    | nil => exact fun _ => rfl
    | cons e l ih => exact fun u => (ih _).trans (ipSend_tcp _ _ _ _ u n)
  exact (hsend _ _).trans (setSrc_tcp (by rfl) n)

/-! A segment. -/

/-- What the engine does with a segment of its connection or for one, by the state it is in, `u` having learned the peer's address. -/
def tcpTakes (q : Nat) (g : TcpSeg) (u : State) : State :=
  match (u.src q).tcp.st with
  | 0 => if bit g.flags.toNat 2 then u else tcpRefuse q g u
  | 1 => if bit g.flags.toNat 2 then u else if bit g.flags.toNat 4 then tcpRefuse q g u else if bit g.flags.toNat 1 then tcpAccept q g u else u
  | 2 => tcpSynSent q g u
  | 3 => tcpSynReceived q g u
  | _ => tcpSynced q g u

/-- A segment of the configured peer. -/
theorem tcpSegment_of_peer (hmay : tcpMay s q = true) (hsrc : g.src.toNat = beNat (pbytes s q 0x0F)) (hpeer : pbytes s q 0x0F ≠ []) :
    tcpSegment q g s = if ¬ tcpPortOk s q g then s.pstat q 0x13
      else tcpTakes q g (learnNbr q (beBytes g.mac.toNat 6) (g.tci.map BitVec.toNat) s) := by
  have hup : portUp s q = true ∧ pcfg s q 5 ≠ 0 := by
    simp only [tcpMay, Bool.and_eq_true, decide_eq_true_eq] at hmay
    exact ⟨hmay.1, hmay.2.1⟩
  unfold tcpSegment
  dsimp only
  rw [if_neg (by simp [hup]), if_neg (by simp [hsrc, hpeer]), if_neg (by simp [hmay])]
  rfl

theorem tcpPortOk_of_other (h : g.dport.toNat ≠ pcfg s q 0x11 ∨ (pcfg s q 0x12 ≠ 0 ∧ g.sport.toNat ≠ pcfg s q 0x12)) : tcpPortOk s q g = false := by
  rcases h with h | ⟨h0, h⟩
  · simp [tcpPortOk, h]
  · simp [tcpPortOk, h0, h]

theorem tcpPortOk_of_own (hd : g.dport.toNat = pcfg s q 0x11)
    (h : (g.sport.toNat = pcfg s q 0x12 ∧ pcfg s q 0x12 ≠ 0) ∨ (pcfg s q 0x12 = 0 ∧ (s.src q).tcp.st ≤ 1) ∨
      (pcfg s q 0x12 = 0 ∧ g.sport.toNat = (s.src q).tcp.peerPort) ∨ (pcfg s q 0x12 = 0 ∧ (s.src q).tcp.st = 10 ∧ bit g.flags.toNat 1 = true)) :
    tcpPortOk s q g = true := by
  rcases h with ⟨h, h0⟩ | ⟨h0, h⟩ | ⟨h0, h⟩ | ⟨h0, h⟩
  · simp [tcpPortOk, hd, h0, h]
  · simp [tcpPortOk, hd, h0, h]
  · simp [tcpPortOk, hd, h0, h]
  · simp [tcpPortOk, hd, h0, h]

section states
variable {u : State} {f : Nat} {t : Tcp} (hf : g.flags.toNat = f) (ht : (u.src q).tcp = t)
include hf ht

theorem tcpTakes_closed (hst : t.st = 0) (hr : bit f 2 = false) : tcpTakes q g u = tcpRefuse q g u := by
  simp only [tcpTakes, ht, hst, hf, hr, Bool.false_eq_true, if_false]

theorem tcpTakes_listen_ack (hst : t.st = 1) (hr : bit f 2 = false) (ha : bit f 4 = true) : tcpTakes q g u = tcpRefuse q g u := by
  simp only [tcpTakes, ht, hst, hf, hr, ha, Bool.false_eq_true, if_false, if_true]

theorem tcpTakes_listen_syn (hst : t.st = 1) (hr : bit f 2 = false) (ha : bit f 4 = false) (hs : bit f 1 = true) :
    tcpTakes q g u = tcpAccept q g u := by
  simp only [tcpTakes, ht, hst, hf, hr, ha, hs, Bool.false_eq_true, if_false, if_true]

theorem tcpTakes_synSent_rst (hst : t.st = 2) (hr : bit f 2 = true) (ha : bit f 4 = true) (hack : g.ack.toNat = t.nxt) :
    tcpTakes q g u = tcpClose q (u.pstat q 0x18) := by
  simp [tcpTakes, tcpSynSent, ht, hst, hf, hr, ha, hack]

theorem tcpTakes_synSent_syn (hst : t.st = 2) (hr : bit f 2 = false) (ha : bit f 4 = true) (hack : g.ack.toNat = t.nxt) (hs : bit f 1 = true) :
    tcpTakes q g u = tcpAck q (tcpEstablish q
      { tcpOptions u q g { t with rcv := seqAdd g.seq.toNat 1 } with una := (tcpOptions u q g { t with rcv := seqAdd g.seq.toNat 1 }).nxt } u) := by
  simp [tcpTakes, tcpSynSent, ht, hst, hf, hr, ha, hack, hs]

theorem tcpTakes_synReceived_ack (hst : t.st = 3) (hr : bit f 2 = false) (hs : bit f 1 = false) (ha : bit f 4 = true)
    (hack : g.ack.toNat = t.nxt) :
    tcpTakes q g u = tcpSynced q g (tcpEstablish q { t with una := t.nxt, wnd := g.wnd.toNat * 2 ^ t.shift } u) := by
  simp [tcpTakes, tcpSynReceived, ht, hst, hf, hr, ha, hack, hs]

omit hf in
theorem tcpTakes_synced (hst : 4 ≤ t.st) : tcpTakes q g u = tcpSynced q g u := by
  obtain ⟨n, hn⟩ : ∃ n, t.st = n + 4 := ⟨t.st - 4, by omega⟩
  unfold tcpTakes
  rw [ht, hn]
  rfl

theorem tcpSynced_of_rst (hr : bit f 2 = true) (hseq : g.seq.toNat = t.rcv) : tcpSynced q g u = tcpClose q (u.pstat q 0x18) := by
  simp [tcpSynced, tcpRstIn, ht, hf, hr, hseq]

theorem tcpSynced_of_newSyn (hst : t.st = 10) (hr : bit f 2 = false) (hs : bit f 1 = true) : tcpSynced q g u = tcpAccept q g (tcpForget q u) := by
  simp [tcpSynced, ht, hf, hr, hs, hst]

omit ht in
theorem tcpRefuse_of_ack (ha : bit f 4 = true) :
    tcpRefuse q g u = (tcpSend q g.sport.toNat g.ack.toNat 0 4 0 [] [] (u.src q).nbrTci u).pstat q 0x17 := by
  simp [tcpRefuse, hf, ha]

omit ht in
theorem tcpRefuse_of_data (ha : bit f 4 = false) : tcpRefuse q g u = (tcpSend q g.sport.toNat 0
    (seqAdd g.seq.toNat (g.data.length + (if bit f 1 then 1 else 0) + (if bit f 0 then 1 else 0))) 20 0 [] [] (u.src q).nbrTci u).pstat q 0x17 := by
  simp [tcpRefuse, hf, ha]

end states

/-- The retransmission timeout, where the segment may be sent again. -/
theorem execTcpRetransmitTimeout_again {p : Fin 32} {due : Nat} (h : (s.src p.val).tcp.rtoDue = some due)
    (hmay : (s.src p.val).tcp.retx + 1 ≤ pcfg s p.val 0x15) :
    let a := s.at due
    let k := (s.src p.val).tcp
    let n := { k with retx := k.retx + 1, timed := none }
    let m := { n with rtoDue := some (a.dt + rtoNs a p.val n) }
    execTcpRetransmitTimeout p s =
      if k.st < 4 then ok ((tcpSeg p.val k.iss (if k.st = 2 then 2 else 18) [] (a.setTcp p.val m)).pstat p.val 0x15)
      else ok (tcpFirst p.val (a.setTcp p.val { m with
        dup := 0, sacked := [], recover := some k.nxt, rxt := k.una, rescued := false, timedOut := true,
        ssthresh := if k.retx + 1 = 1 then Nat.max (inFlight k / 2) (2 * k.mss) else k.ssthresh, cwnd := k.mss })) := by
  intro a k n m
  unfold execTcpRetransmitTimeout
  dsimp only
  rw [h]
  exact if_neg (Nat.not_lt.2 hmay)

/-- The retransmission timeout past the configured count. -/
theorem execTcpRetransmitTimeout_over {p : Fin 32} {due : Nat} (h : (s.src p.val).tcp.rtoDue = some due)
    (hover : pcfg s p.val 0x15 < (s.src p.val).tcp.retx + 1) : execTcpRetransmitTimeout p s =
      if (s.src p.val).tcp.st = 2 then ok (tcpClose p.val (s.at due)) else ok (tcpReset p.val ((s.at due).pstat p.val 0x19)) := by
  unfold execTcpRetransmitTimeout
  dsimp only
  rw [h]
  exact if_pos hover

/-- Settles O36. -/
theorem tcpEngine : Obligations.TcpEngine := by
  unfold Obligations.TcpEngine
  refine ⟨fun s p g hup htcp hsrc => ?stranger, ?peer, ?timeout, ?keepalive, ?probe, fun s p due h => ?timeWait, fun s p due h => ?reconnect⟩
  case stranger =>
    have hnot : g.src.toNat ≠ beNat (pbytes s p.val 0x0F) ∨ (pbytes s p.val 0x0F).isEmpty = true := hsrc.imp id (by simp)
    refine congrArg ok ?_
    unfold tcpSegment
    dsimp only
    rw [if_neg (by simp [hup, htcp]), if_pos hnot]
  case peer =>
    intro s p g hmay hsrc hpeer q t fl u len d
    have hseg := tcpSegment_of_peer hmay hsrc hpeer
    have hf : g.flags.toNat = fl := rfl
    have ht : (u.src q).tcp = t := learnNbr_tcp _ _ _ s q
    refine ⟨fun hport => congrArg ok (hseg.trans (if_pos (Bool.not_eq_true _ ▸ tcpPortOk_of_other hport))), fun hd hown => ?_⟩
    have htake {v : State} (h : tcpTakes q g u = v) : exec (.tcpSegmentReceive p g) s = ok v :=
      congrArg ok ((hseg.trans (if_neg (not_not_intro (tcpPortOk_of_own hd hown)))).trans h)
    refine ⟨fun hst hr ha => htake ((tcpTakes_closed hf ht hst hr).trans (tcpRefuse_of_data hf ha)), fun hst hr ha => ?_,
      fun hst hr ha hs => htake (tcpTakes_listen_syn hf ht hst hr ha hs),
      fun hst hr ha hack => htake (tcpTakes_synSent_rst hf ht hst hr ha hack),
      fun hst hr ha hack hs => htake (tcpTakes_synSent_syn hf ht hst hr ha hack hs),
      fun hst hr hs ha hack => htake (tcpTakes_synReceived_ack hf ht hst hr hs ha hack), fun hst => htake (tcpTakes_synced ht hst),
      fun hst hr hseq => htake ((tcpTakes_synced ht hst).trans (tcpSynced_of_rst hf ht hr hseq)),
      fun hst hr hs => htake ((tcpTakes_synced ht (by omega)).trans (tcpSynced_of_newSyn hf ht hst hr hs))⟩
    have htakes : tcpTakes q g u = tcpRefuse q g u := by
      rcases Nat.le_one_iff_eq_zero_or_eq_one.1 hst with h0 | h1
      · exact tcpTakes_closed hf ht h0 hr
      · exact tcpTakes_listen_ack hf ht h1 hr ha
    exact htake (htakes.trans (tcpRefuse_of_ack hf ha))
  case timeout =>
    intro s p due hdue q a k n m
    refine ⟨fun ho hst => (execTcpRetransmitTimeout_over hdue ho).trans (if_pos hst),
      fun ho hst => (execTcpRetransmitTimeout_over hdue ho).trans (if_neg hst),
      fun hmay hst => (execTcpRetransmitTimeout_again hdue hmay).trans (if_pos hst), fun hmay hst => ?_⟩
    refine ((execTcpRetransmitTimeout_again hdue hmay).trans (if_neg (Nat.not_lt.2 hst))).trans ?_
    simp only [Nat.add_eq_right]
    rfl
  case keepalive =>
    intro s p due hdue hst q a k
    have hexec : exec (.tcpKeepaliveTimer p) s = if k.probes ≥ pcfg s q 0x18 then ok (tcpReset q (a.pstat q 0x19))
        else ok (tcpSeg q (seqSub k.una 1) 16 [] (a.setTcp q { k with probes := k.probes + 1, kaDue := some (a.dt + ms (pcfg s q 0x17)) })) := by
      show execTcpKeepaliveTimer p s = _
      unfold execTcpKeepaliveTimer
      dsimp only
      rw [hdue]
      exact if_neg (by simpa using hst)
    exact ⟨fun h => hexec.trans (if_pos h), fun h => hexec.trans (if_neg (Nat.not_le.2 h))⟩
  case probe =>
    intro s p due hdue q a k
    show execTcpZeroWindowProbe p s = _
    unfold execTcpZeroWindowProbe
    dsimp only
    rw [hdue]
    rfl
  case timeWait =>
    show execTcpTimeWaitExpiry p s = _
    unfold execTcpTimeWaitExpiry
    rw [h]
  case reconnect =>
    show execTcpReconnectTimer p s = _
    unfold execTcpReconnectTimer
    rw [h]

end Sys2Proof.Machine
end

section
/-!
Commands that an entry of the dictionary starts: granted and served (R73, R98, R101, R104).
-/
namespace Sys2Proof.Machine
variable {s t u : State} {r : Req} {idx sub role k : Nat} {v d : Bytes}

/-- A granted write whose effect is `u` with the answer `d`. -/
theorem served_of_granted {lc md : State → Nat → Bool} {rg : State → Bytes → Bool} {f : State → Nat → Bytes → Ans}
    (h : Granted s r idx sub t role v) (hf : f t role v = ⟨0, d, u⟩) (hlc : lc t role = true := by rfl) (hmd : md t role = true := by rfl)
    (hrg : rg t v = true := by rfl) : ok (serveWrite r idx sub lc md rg f s) = .next (replyIn t (asking r idx sub) 2 0 d u) := by
  have hserve := serveWrite_of_granted h hlc hmd hrg (congrArg Ans.code hf)
  rw [hf] at hserve
  exact congrArg ok hserve

/-- A long operation that begins at once: its handle, and its work done in its slot. -/
theorem startOp_of_canBegin (h : CanBegin t idx sub k) (w : Work) (run : Nat → State → State) :
    startOp idx sub role w v run t = ⟨0, handle t k, run k (begun t idx sub role w k)⟩ := by
  unfold startOp
  rw [h.resume]
  dsimp only
  rw [if_neg (by simp [h.idle]), takeSlot_of_canBegin h]
  dsimp only
  rw [h.first, slot_queued]
  rfl

end Sys2Proof.Machine
end

section
/-!
The host port's queues and link, and the installation of a classifier (R164-R168, R171, R178, R262, R809).
-/
namespace Sys2Proof.Machine
variable {s : State} {q : Nat} {es : List SqFetch}

/-! Fetching. -/

theorem sqPump_of_enabled (hen : (s.hq q).en = true) (hdom : s.domReady 30 = true) (hlink : s.port.link ≠ 0) :
    sqPump q es s = sqFetchF q (2 ^ 14) es s := if_pos ⟨hen, hdom, hlink⟩

theorem sqPump_of_stopped (h : s.port.link = 0 ∨ (s.hq q).en = false) : sqPump q es s = s := by
  refine if_neg fun ⟨hen, _, hlink⟩ => ?_
  rcases h with h | h
  · exact hlink h
  · rw [hen] at h
    cases h

theorem execHostSqTailWrite_of_ready {q : Fin 4} {tail : BitVec 14} (hdom : s.domReady 30 = true) :
    execHostSqTailWrite q tail es s = ok (sqPump q.val es (s.setHq q.val { s.hq q.val with sqTail := tail.toNat })) := if_neg (by simp [hdom])

/-! A request buffer. -/

/-- The message that a fetched entry and its buffer make. -/
def hostMsg (p : Nat) (e : SqEnt) (body : Bytes) (t : State) : Msg :=
  { src := p, body := fit body e.len, tstamp := t.dt, rel := dtTicks t.dt, hdrId := some e.msgid, dl := e.dl, rbuf := e.rsp, rsize := e.size }

theorem execHostRequestArrival_of_length {q : Fin 4} {e : SqEnt} {rest : List SqEnt} {body : Bytes} (h : (s.hq q.val).fetched = e :: rest)
    (hlo : 1 ≤ e.len) (hhi : e.len ≤ 8192) {d : Nat × Nat × State}
    (hd : dma 0x78 0 (hostAddr e.req) e.len (s.setHq q.val { s.hq q.val with fetched := rest }) = d) :
    let faulty := (d.2.2.setHq q.val { d.2.2.hq q.val with fetchFault := true }).noteSet (hqKey q.val) 4
    let blk := (d.2.2.src (32 + q.val)).block
    execHostRequestArrival q body s =
      if d.2.1 ≠ 0 then ok (releaseMsg (32 + q.val) (hostMsg (32 + q.val) e body faulty) (some tPOLICY) faulty)
      else ok (releaseMsg (32 + q.val) (hostMsg (32 + q.val) e body d.2.2) (if blk ≠ 0 then some blk else none) d.2.2) := by
  have hbad : decide (e.len = 0 ∨ e.len > 8192) = false := by simp; omega
  unfold execHostRequestArrival
  dsimp only
  rw [h]
  dsimp only
  rw [hbad]
  simp only [Bool.false_eq_true, if_false, hd]
  by_cases hf : d.2.1 ≠ 0
  · rw [if_pos hf, decide_eq_true hf]
    rfl
  · rw [if_neg hf, decide_eq_false hf]
    rfl

theorem execHostRequestArrival_of_bad {q : Fin 4} {e : SqEnt} {rest : List SqEnt} {body : Bytes} (h : (s.hq q.val).fetched = e :: rest)
    (hbad : e.len = 0 ∨ 8192 < e.len) :
    let a := s.setHq q.val { s.hq q.val with fetched := rest }
    execHostRequestArrival q body s = ok (releaseMsg (32 + q.val) (hostMsg (32 + q.val) e body a) (some tFORMAT) a) := by
  unfold execHostRequestArrival
  dsimp only
  rw [h]
  dsimp only
  rw [decide_eq_true (p := e.len = 0 ∨ e.len > 8192) hbad]
  rfl

/-- Settles O37. -/
theorem hostPort : Obligations.HostPort := by
  unfold Obligations.HostPort
  refine ⟨?requests, ?queues, fun s width rate => ⟨rfl, rfl, fun hdom hperst hw hlo hhi => ?train, fun hdom hperst => ?down⟩, ?install⟩
  case requests =>
    intro s q tail es body e rest u a d m blk faulty
    have hu : u.hq q.val = { s.hq q.val with sqTail := tail.toNat } := State.hq_setHq s q.val _
    refine ⟨fun hdom hlink hen => (execHostSqTailWrite_of_ready hdom).trans (congrArg ok (sqPump_of_enabled (by rw [hu]; exact hen) hdom hlink)),
      fun hdom h => (execHostSqTailWrite_of_ready hdom).trans (congrArg ok (sqPump_of_stopped (h.imp id fun hen => by rw [hu]; exact hen))),
      fun h hlo hhi => ⟨fun hd => ?_, fun hd => (execHostRequestArrival_of_length h hlo hhi rfl).trans (if_pos hd)⟩,
      fun h hbad => execHostRequestArrival_of_bad h hbad⟩
    refine ((execHostRequestArrival_of_length h hlo hhi rfl).trans (if_neg (not_not_intro hd))).trans ?_
    rw [ite_not]
    rfl
  case queues =>
    intro s q head h sz u fins
    have hu : u.hq q.val = { h with en := true, sqHead := 0, cqTail := 0, wrapped := false, fetched := [] } := State.hq_setHq s q.val _
    have hsizes : (¬ decide (6 ≤ h.cqLog ∧ h.cqLog ≤ 14) = true ∨ (q.val < 4 ∧ (¬ decide (6 ≤ h.sqLog ∧ h.sqLog ≤ 14) = true ∨ h.cqLog < h.sqLog))) ↔
        (¬ sz h.cqLog ∨ (q.val < 4 ∧ (¬ sz h.sqLog ∨ h.cqLog < h.sqLog))) := by
      simp only [decide_eq_true_eq]
      exact Iff.rfl
    refine ⟨fun hdom hen hq hc hs hcs => ?_, fun hdom hen hq hc => ?_, fun hdom hen hbad => ?_, fun hdom => if_neg (by simp [hdom]),
      fun hdom => if_neg (by simp [hdom])⟩
    · have hexec : execHpqQueueEnable q s = ok (sqPump q.val [] u) := by
        unfold execHpqQueueEnable
        dsimp only
        rw [if_neg (by simp [hdom, show (s.hq q.val).en = false from hen]), if_neg (mt hsizes.1 ?_), if_pos hq]
        rintro (h | ⟨-, h | h⟩)
        · exact h hc
        · exact h hs
        · exact Nat.not_lt.2 hcs h
      refine hexec.trans (congrArg ok ?_)
      split
      next hl => exact sqPump_of_stopped (.inl hl)
      next hl => exact sqPump_of_enabled (by rw [hu]) hdom hl
    · show execHpqQueueEnable q s = _
      unfold execHpqQueueEnable
      dsimp only
      rw [if_neg (by simp [hdom, show (s.hq q.val).en = false from hen]), if_neg (mt hsizes.1 ?_), if_neg (by omega)]
      · rfl
      rintro (h | ⟨h, -⟩)
      · exact h hc
      · omega
    · show execHpqQueueEnable q s = _
      unfold execHpqQueueEnable
      dsimp only
      rw [if_neg (by simp [hdom, show (s.hq q.val).en = false from hen]), if_pos (hsizes.2 hbad)]
  case train =>
    have hwidth : width ≠ 0 := fun h => by
      rw [h] at hw
      cases hw
    show execHostLinkRetrain width rate s = _
    unfold execHostLinkRetrain
    rw [if_neg (by simp [hdom, hperst]), if_neg hwidth, if_pos ⟨hw, hlo, hhi⟩]
    rfl
  case down => exact (if_neg (by simp [hdom, hperst])).trans (if_pos rfl)
  case install =>
    intro s t r role c k r1 u b done hg hb
    have hidx : 0x2100 + (c.val + 1) = 0x2101 + c.val := by omega
    have hfx : fxClassifier (c.val + 1) t role [1] = ⟨0, handle t k, clsInstall (c.val + 1) k u⟩ := by
      unfold fxClassifier
      rw [hidx]
      exact startOp_of_canBegin hb _ _
    refine (served_of_granted hg hfx).trans ?_
    unfold clsInstall
    rw [hidx]

end Sys2Proof.Machine
end

section
/-!
The admission of a descriptor, and results at the collector (R199-R205, R223, R235-R239).
-/
namespace Sys2Proof.Machine
variable {s u : State} {d jn ta : Nat} {x : Desc} {body : Bytes} {ins : Tab Bytes} {e : EpochCfg}

/-! The decision of one descriptor, check by check. -/

theorem decideDesc_of_noEpoch (h : x.epoch = 0 ∨ (x.epoch ≠ (u.disp d).cur ∧ x.epoch ≠ (u.disp d).prev)) :
    decideDesc d jn ta x body ins false u = dispAnswer d ta x tEPOCH 7 false u := by
  unfold decideDesc
  dsimp only
  rw [if_neg]
  rintro ⟨h0, hc⟩
  rcases h with h | ⟨hcur, hprev⟩
  · exact h0 h
  · exact hc.elim hcur hprev

section held
variable (h0 : x.epoch ≠ 0) (hcp : x.epoch = (u.disp d).cur ∨ x.epoch = (u.disp d).prev) (he : epochCfg u x.epoch = some e)
include h0 hcp he

/-- A descriptor of an epoch that its dispatcher holds. -/
theorem decideDesc_of_held : decideDesc d jn ta x body ins false u =
    if ¬ classifies u ∨ ¬ classServed u e x.cls then dispAnswer d ta x tMODE 7 false u
    else if x.deadline ≤ ta then dispAnswer d ta x tNOT_ADMITTED 3 false u
    else if (costOf (Tab.look [] e.progs (clsVal u e x.cls 2))).rmax > EpochCfg.val u e (srcIdx x.src) 3 then dispAnswer d ta x tNOT_ADMITTED 4 false u
    else if unsent u x.src + 1 > EpochCfg.val u e (srcIdx x.src) 1 then dispAnswer d ta x tNOT_ADMITTED 5 false u
    else if x.deadline < tailOf u e x.src then dispAnswer d ta x tNOT_ADMITTED 2 false u
    else match choose (EpochCfg.val u e 0x3000 1)
        (place u x ins e (costOf (Tab.look [] e.progs (clsVal u e x.cls 2))) (x.deadline - tailOf u e x.src) ta false) with
      | some c => commitCand jn x body e (costOf (Tab.look [] e.progs (clsVal u e x.cls 2))) ta c u
      | none =>
        if (place u x ins e (costOf (Tab.look [] e.progs (clsVal u e x.cls 2))) (x.deadline - tailOf u e x.src) ta true).isEmpty then
          dispAnswer d ta x tNOT_ADMITTED 2 false u
        else dispAnswer d ta x tSERVICE_IN_TEST 6 false u := by
  unfold decideDesc
  dsimp only
  rw [if_pos ⟨h0, hcp⟩, he] <;> rfl

/-- A descriptor whose class the mode serves, before its deadline. -/
theorem decideDesc_of_served (hm : classifies u = true) (hc : classServed u e x.cls = true) (hdl : ta < x.deadline) :
    decideDesc d jn ta x body ins false u =
      if (costOf (Tab.look [] e.progs (clsVal u e x.cls 2))).rmax > EpochCfg.val u e (srcIdx x.src) 3 then dispAnswer d ta x tNOT_ADMITTED 4 false u
      else if unsent u x.src + 1 > EpochCfg.val u e (srcIdx x.src) 1 then dispAnswer d ta x tNOT_ADMITTED 5 false u
      else if x.deadline < tailOf u e x.src then dispAnswer d ta x tNOT_ADMITTED 2 false u
      else match choose (EpochCfg.val u e 0x3000 1)
          (place u x ins e (costOf (Tab.look [] e.progs (clsVal u e x.cls 2))) (x.deadline - tailOf u e x.src) ta false) with
        | some c => commitCand jn x body e (costOf (Tab.look [] e.progs (clsVal u e x.cls 2))) ta c u
        | none =>
          if (place u x ins e (costOf (Tab.look [] e.progs (clsVal u e x.cls 2))) (x.deadline - tailOf u e x.src) ta true).isEmpty then
            dispAnswer d ta x tNOT_ADMITTED 2 false u
          else dispAnswer d ta x tSERVICE_IN_TEST 6 false u := by
  rw [decideDesc_of_held h0 hcp he, if_neg (by simp [hm, hc]), if_neg (Nat.not_le.2 hdl)]

end held

/-- What the dispatcher answers goes on the result link. -/
theorem dispAnswer_resLink (d ta : Nat) (x : Desc) (st n : Nat) (u : State) : (dispAnswer d ta x st n false u).port.resLink =
    u.port.resLink ++ [⟨ta + 12, d, x.src, st, x.cls, x.msgid, [], x.deadline, 2, 0xFF, 0xFF, x.tstamp, x.epoch, none⟩] := by
  have hkeep : (audDispatch d ta st x ((u.bump (0xB200 + d) n).bump (0xB100 + x.cls) 2)).port.resLink = u.port.resLink :=
    resLink_of_beyondAudit (s := u) (beyondAudit_audAppend _ _ _ _)
  unfold dispAnswer
  simp only [Bool.false_eq_true, if_false, hkeep]

/-! The instruction. -/

theorem execAdmissionTest_of_next {die : Fin 2} {a : Arrival} (h : nextArrival (s.disp die.val) = some a) {v : State}
    (hv : (s.at (a.due + 8)).setDisp die.val { (s.at (a.due + 8)).disp die.val with arrivals := dropArrival a ((s.at (a.due + 8)).disp die.val).arrivals } = v) :
    execAdmissionTest die s =
      if (v.disp die.val).inReset = true ∨ a.lost = true then
        match (v.src a.desc.src).outst.find? (fun o => decide (o.id = a.desc.msgid) && ! o.swept) with
        | none => ok v
        | some o => ok (answerOutst a.desc.src tABORTED o v)
      else ok (decideDesc die.val v.unit.nextJob (a.due + 8) a.desc a.body a.keyIn false { v with unit := { v.unit with nextJob := v.unit.nextJob + 1 } }) := by
  unfold execAdmissionTest
  dsimp only
  rw [h]
  dsimp only
  rw [hv] <;> rfl

/-! The collector. -/

theorem acceptOne_of_post {at_ l : Nat} {h : ResHdr} {rest : List ResHdr} (hp : (s.lane l).posts = h :: rest) :
    ((acceptOne d at_ l s).lane l).posts = rest ∧ (acceptOne d at_ l s).port.resLink.getLast? = some { h with due := at_ + 16 } := by
  unfold acceptOne
  dsimp only
  rw [hp]
  refine ⟨?_, List.getLast?_concat⟩
  show (State.lane (audAppend _ _ _ _) l).posts = rest
  rw [lane_of_beyondAudit (beyondAudit_audAppend _ _ _ _), State.lane_bump, State.lane_setAud, State.lane_setLane]

/-- Settles O38. -/
theorem admissionTest : Obligations.AdmissionTest := by
  unfold Obligations.AdmissionTest
  refine ⟨?decide, ?collect, fun s d at_ l h rest hp => acceptOne_of_post hp⟩
  case decide =>
    intro s die a e d x ta v u no cv dln test held served fits
    have htest {h : Prop} {t : State} (ht : h → decideDesc d v.unit.nextJob ta x a.body a.keyIn false u = t) : test h t := fun hn hr hl hh =>
      (execAdmissionTest_of_next hn rfl).trans ((if_neg (by
        rintro (h | h)
        · exact Bool.false_ne_true (hr.symm.trans h)
        · exact Bool.false_ne_true (hl.symm.trans h))).trans (congrArg ok (ht hh)))
    refine ⟨htest fun h => decideDesc_of_noEpoch h, htest fun ⟨⟨h0, hcp, he⟩, h⟩ => ?_, htest fun ⟨⟨⟨h0, hcp, he⟩, hm, hc⟩, hdl⟩ => ?_,
      htest fun ⟨⟨⟨h0, hcp, he⟩, hm, hc⟩, hdl, hr⟩ => ?_, htest fun ⟨⟨⟨h0, hcp, he⟩, hm, hc⟩, hdl, hr, hn⟩ => ?_,
      htest fun ⟨⟨⟨⟨h0, hcp, he⟩, hm, hc⟩, hdl, hr, hn⟩, ht⟩ => ?_, htest fun ⟨⟨⟨⟨h0, hcp, he⟩, hm, hc⟩, hdl, hr, hn⟩, ht⟩ => ?_,
      fun st n => dispAnswer_resLink d ta x st n u, fun o hn hr ho => ?_⟩
    · rw [decideDesc_of_held h0 hcp he, if_pos (by simpa using h)]
    · rw [decideDesc_of_held h0 hcp he, if_neg (by simp [hm, hc]), if_pos hdl]
    · rw [decideDesc_of_served h0 hcp he hm hc hdl, if_pos hr]
    · rw [decideDesc_of_served h0 hcp he hm hc hdl, if_neg (Nat.not_lt.2 hr), if_pos hn]
    · rw [decideDesc_of_served h0 hcp he hm hc hdl, if_neg (Nat.not_lt.2 hr), if_neg (Nat.not_lt.2 hn), if_pos ht]
    · rw [decideDesc_of_served h0 hcp he hm hc hdl, if_neg (Nat.not_lt.2 hr), if_neg (Nat.not_lt.2 hn), if_neg (Nat.not_lt.2 ht)] <;> rfl
    · refine (execAdmissionTest_of_next hn rfl).trans ((if_pos hr).trans ?_)
      rw [show List.find? _ _ = some o from ho]
  case collect =>
    intro s die x rest d u v es w hdues
    have hpend : (v.aud d).pendMax = (u.aud d).pendMax := by
      rw [show v.aud d = _ from State.aud_setAud u d _]
    have hexec : exec (.collectorAccept die) s = ok ((es.take 8).foldl (fun s l => acceptOne d u.dt l s) (if (v.aud d).pendMax < es.length then
        (v.setAud d { v.aud d with pendMax := es.length }).noteSet (regKey d 0x0F010000) (2 ^ 13) else v)) := by
      show execCollectorAccept die s = _
      unfold execCollectorAccept
      dsimp only
      rw [show List.filterMap _ _ = x :: rest from hdues]
    rw [hexec, hpend]

end Sys2Proof.Machine
end

section
/-!
The audit chain: its blocks, its chunks and its end (R242-R257).
-/
namespace Sys2Proof.Machine
variable {s : State} {die : Fin 2}

/-! What closing a block leaves of its unit. -/

/-- The fields of an audit unit that its stream does not write. -/
def AudUnit.chain (a : AudUnit) : Nat × Nat × List (Nat × Bytes) × Nat := (a.bseq, a.start, a.recs, a.nrec)

theorem audStream_chain (d kind bseq : Nat) (bs : Bytes) (s : State) : ((audStream d kind bseq bs s).aud d).chain = (s.aud d).chain := by
  have hset {v : AudUnit} (h : v.chain = (s.aud d).chain) : ((s.setAud d v).aud d).chain = (s.aud d).chain := by rw [State.aud_setAud, h]
  unfold audStream
  dsimp only
  split
  · split
    · exact hset rfl
    · exact hset rfl
  · exact hset rfl

theorem closeBlock_chain (d fin due flags : Nat) (s : State) : ((closeBlock d fin due flags s).aud d).chain =
    ((s.aud d).bseq + 1, fin, (s.aud d).recs.filter (fun r => decide (fin ≤ r.1)), (s.aud d).nrec) := by
  unfold closeBlock
  extract_lets a mine later recs rseq flags h b t p u w
  have hset : (u.aud d).chain = (a.bseq + 1, fin, later, a.nrec) := congrArg AudUnit.chain (State.aud_setAud s d _)
  rw [State.aud_bump, State.aud_setEnt, State.aud_setNum]
  exact (audStream_chain d 1 _ _ _).trans hset

/-! The instructions. -/

theorem execAuditBlockClose_of_runs (hrun : (s.aud die.val).run = true) (hi : (s.aud die.val).interval ≠ 0) (hh : (s.aud die.val).sysHold = false)
    (he : (s.aud die.val).erased = false) (hd : audDomains s die.val = true) :
    let c := closeBlock die.val (nextBoundary s die.val - 1024) (nextBoundary s die.val) 0 (s.at (nextBoundary s die.val))
    execAuditBlockClose die s =
      .next (match (c.aud die.val).pendBlocks.reverse with | k :: _ => signBlock die.val k (nextBoundary s die.val) c | [] => c) := by
  intro c
  have hexec : execAuditBlockClose die s =
      match (c.aud die.val).pendBlocks.reverse with | k :: _ => ok (signBlock die.val k (nextBoundary s die.val) c) | [] => ok c := by
    unfold execAuditBlockClose
    dsimp only
    rw [if_neg (by simp [hrun, hi, hh, he, hd])] <;> rfl
  rw [hexec]
  split <;> rfl

/-- The chunk of 48 bytes, or the one whose flush time is awaited. -/
theorem execAuditChunkWrite_of_items {i : AudItem} {rest : List AudItem} (h : (s.aud die.val).items = i :: rest) :
    execAuditChunkWrite die s =
      ok (writeChunk die.val (if (chunkF ((s.aud die.val).items.length + 1) [] i.off false (s.aud die.val).items).1.length < 48 then
        s.at (i.at_ + s.cfg 0x3800 3) else s)).2 := by
  unfold execAuditChunkWrite
  dsimp only
  rw [h]

/-- Settles O39. -/
theorem auditStream : Obligations.AuditStream := by
  unfold Obligations.AuditStream
  refine ⟨?unit, fun s d fin due flags => ?block⟩
  case unit =>
    intro s die d a b c
    refine ⟨execAuditBlockClose_of_runs, fun i rest hi hlen => ?_, fun i rest hi hlen => ?_, ?sysreset, fun he hr hs => ?_⟩
    · rw [show exec (.auditChunkWrite die) s = _ from execAuditChunkWrite_of_items hi, if_neg (Nat.not_lt.2 hlen)]
    · rw [show exec (.auditChunkWrite die) s = _ from execAuditChunkWrite_of_items hi, if_pos hlen]
    · intro hh hs e u w x
      have hchain : (if ¬ (s.aud d).run = true then s else if (s.aud d).erased = true then closeChain d 4 2 s else closeChain d 8 3 s) = e := by
        simp only [Bool.not_eq_true]
        rfl
      show execAuditSysresetClose die s = _
      unfold execAuditSysresetClose
      refine (if_neg (by simp [show (s.aud die.val).sysHold = true from hh, hs])).trans ?_
      rw [hchain]
    · exact if_neg (by simp [show (s.aud die.val).erased = true from he, show (s.aud die.val).run = true from hr, hs])
  case block =>
    have hchain := closeBlock_chain d fin due flags s
    simp only [AudUnit.chain, Prod.mk.injEq] at hchain
    exact hchain

end Sys2Proof.Machine
end

section
/-!
A configuration change, and the frame slots (R218-R221, R271).
-/
namespace Sys2Proof.Machine
variable {s t : State} {k : Nat}

theorem fxFlip_of_canBegin {role : Nat} {v : Bytes} (hp : changePending t = false) (hb : CanBegin t 0x3000 6 k) :
    let b := begun t 0x3000 6 role .none k
    fxFlip t role v = ⟨0, handle t k, startFlip (match b.power.drainTo with | some m => m.code | none => (baseMode b).code) (some k) b⟩ := by
  unfold fxFlip
  rw [if_neg (by simp [hp])]
  exact startOp_of_canBegin hb _ _

/-- An entry's default does not depend on the power state. -/
theorem dflt_power (s : State) (p : PowerState) (idx sub : Nat) : State.dflt { s with power := p } idx sub = s.dflt idx sub := by
  unfold State.dflt
  split
  · unfold entDefault State.fuseMac
    rfl
  · rfl

theorem pendingEnts_power (s : State) (p : PowerState) : pendingEnts { s with power := p } = pendingEnts s := by
  unfold pendingEnts
  simp only [dflt_power]

/-- A configuration change that begins waits, in its slot, with the pending configuration. -/
theorem startFlip_epoch (target : Nat) (s : State) :
    (startFlip target (some k) s).unit.epoch.st = .queued ∧ (startFlip target (some k) s).unit.epoch.slot = some k ∧
      (startFlip target (some k) s).unit.epoch.shadow.map (fun e => e.ents) = some (pendingEnts (s.setSlot k { s.slot k with state := .queued })) := by
  refine ⟨rfl, rfl, ?_⟩
  unfold startFlip
  simp only [State.setEpoch, Option.map_some, apply_ite pendingEnts, pendingEnts_power, ite_self]

/-- Settles O40. -/
theorem epochChange : Obligations.EpochChange := by
  unfold Obligations.EpochChange
  refine ⟨?request, fun s => ⟨fun hst hw => if_pos ⟨hst, by simp [hw]⟩, fun hst => if_pos hst, fun hst => if_pos hst⟩,
    fun s lane slot jn j hj hp => ?free⟩
  case request =>
    intro s t r role k r1 b u
    exact ⟨fun hg hp hb => served_of_granted hg (fxFlip_of_canBegin hp hb), startFlip_epoch _ b⟩
  case free =>
    show execFrameSlotFree lane slot s = _
    unfold execFrameSlotFree
    rw [hj]
    exact if_neg (by simp [hp])

end Sys2Proof.Machine
end

section
/-!
Lane timers, mailboxes, banks, bodies, key removals and fence requests (R277, R281, R283-R290, R298, R302).
-/
namespace Sys2Proof.Machine
variable {s : State} {l : Nat}

/-! A fence mark. -/

theorem lane_setEpoch (s : State) (e : EpochState) (l : Nat) : (s.setEpoch e).lane l = s.lane l := rfl

theorem lane_leaveLoad (n : Nat) (s : State) (l : Nat) : (leaveLoad n s).lane l = s.lane l := by
  unfold leaveLoad ackCheck
  dsimp only
  split
  · split <;> rfl
  · rfl

theorem lane_markLane (c : Nat) (h : (s.lane l).cause = 0) :
    (markLane c l s).lane l = { s.lane l with cause := c, fenceDt := s.dt, claimed := false, slice := none } := by
  unfold markLane
  dsimp only
  rw [if_neg (by simp [h]), lane_leaveLoad, State.lane_setLane]

/-- Settles O41. -/
theorem laneControls : Obligations.LaneControls := by
  unfold Obligations.LaneControls
  intro s t r role lane k b v slot l x tm q w y a fired set_ f ones clr mbx full req
  refine ⟨rfl, fun hen => ?expiry, rfl, rfl, rfl, rfl, rfl, fun hc hl hb => congrArg ok (if_pos ⟨hc, hl, hb⟩), fun n hn hc hb hl hfit hr => ?ack,
    fun hc hb => congrArg ok (if_pos ⟨hc, hb⟩), fun jn j hj hr => ?body, fun node more hrem => ?removal, rfl, rfl, fun hg => ?fence,
    fun hg hc => ?unfence, congrArg ok (if_neg Bool.false_ne_true), congrArg ok (if_pos rfl), fun hc => ?mark⟩
  case expiry =>
    show execLaneTimerExpiry lane k s = _
    unfold execLaneTimerExpiry
    exact if_neg (by simp [show ((s.lane lane.val).timer k.val).en = true from hen])
  case ack =>
    have hpass (copy : Bool) : bankAck l b.val copy s =
        if copy then rearmIdle q (laneAck l ((full ((y.loadBank b.val (bankSet s n l)).ackBank b.val s.dt)).bump 0x41F0 2))
        else (full y).setEpoch { s.unit.epoch with loadRes := Tab.put 0 s.unit.epoch.loadRes l 6 } := by
      unfold bankAck
      dsimp only
      rw [hn]
      exact if_pos ⟨hc, hb, hl, hfit, hr⟩
    exact ⟨congrArg ok (hpass true), congrArg ok (hpass false)⟩
  case body =>
    show execBodyMoveDone lane slot s = _
    unfold execBodyMoveDone
    rw [hj]
    exact if_neg (by simp [show s.domReady (11 + laneQuad lane.val) = true from hr])
  case removal =>
    show execCacheRemoval s = _
    unfold execCacheRemoval
    rw [hrem]
  case fence => exact served_of_granted (f := fxLaneFence l) (rg := laneFenceRange l) hg rfl
  case unfence => exact served_of_granted (f := fxLaneFence l) (rg := laneFenceRange l) hg rfl rfl rfl (by simp [laneFenceRange, hc, beNat])
  case mark =>
    have hlane := lane_markLane (l := l) (s := s) 4 hc
    exact ⟨congrArg Lane.cause hlane, congrArg Lane.fenceDt hlane, congrArg Lane.claimed hlane⟩

end Sys2Proof.Machine
end

section
/-!
Fences of lanes, quads and engines, and spare lanes (R211-R214, R277, R292-R295, R564).
-/
namespace Sys2Proof.Machine
variable {s : State}

theorem execLaneFence_of_lane {lane : Fin 64} {c : Fin 7} (h0 : c.val ≠ 0) (h5 : c.val ≠ 5) (h6 : c.val ≠ 6) :
    execLaneFence lane c s = ok (fenceLane lane.val c.val s) := by
  unfold execLaneFence
  split
  next h => exact absurd h h0
  next h => exact absurd h h5
  next h => exact absurd h h6
  next => rfl

theorem execLaneFence_of_quad {lane : Fin 64} {c : Fin 7} (h5 : c.val = 5) :
    execLaneFence lane c s = ok (fenceQuad (laneQuad lane.val) 5 s) := by
  unfold execLaneFence
  rw [h5]
  rfl

theorem execLaneFence_of_spare {lane : Fin 64} {c : Fin 7} (h6 : c.val = 6) : execLaneFence lane c s =
    ok (if (s.spare (laneTile lane.val)).st = 3 ∧ (s.spare (laneTile lane.val)).lane = lane.val then failSpareUnit (laneTile lane.val) s else s) := by
  unfold execLaneFence
  rw [h6]
  rfl

/-- Settles O42. -/
theorem unitFences : Obligations.UnitFences := by
  unfold Obligations.UnitFences
  intro s lane e k q w ws c l v late u
  refine ⟨execLaneFence_of_lane, execLaneFence_of_quad, fun h6 hst hl => execLaneFence_of_spare h6 |>.trans (congrArg ok (if_pos ⟨hst, hl⟩)),
    fun h => if_pos h, fun h => if_neg (not_not_intro h), fun h0 h5 => (if_neg h0).trans (if_neg h5), fun h5 => ?die, fun h => if_pos h,
    fun hst hstep hdt => ?joins, fun hst hstep hdt => ?late, fun h => congrArg ok (if_neg h), fun h => if_pos h, fun hw hr => ?quad⟩
  case die => exact (if_neg (by omega)).trans (if_pos h5)
  case joins => exact (if_neg (by simp [show (s.spare k.val).st = 2 from hst, show (s.spare k.val).step = 4 from hstep])).trans (if_neg (Nat.not_lt.2 hdt))
  case late => exact (if_neg (by simp [show (s.spare k.val).st = 2 from hst, show (s.spare k.val).step = 4 from hstep])).trans (if_pos hdt)
  case quad =>
    show execQuadWakeChargeExpiry q s = _
    unfold execQuadWakeChargeExpiry
    dsimp only
    rw [hw]
    exact if_neg (by simp [hr])

end Sys2Proof.Machine
end

section
/-!
Background self-tests (R206, R208, R216, R757-R760).
-/
namespace Sys2Proof.Machine
variable {s : State}

theorem execSelftestClaim_of_free {u : TestUnit} (hu : ∀ k, u ≠ .spare k) (ht : testsOn s = true) (hc : claimable s u = true) :
    execSelftestClaim u s = ok (claimUnit u s) := by
  have hboth : (testsOn s && claimable s u) = true := by rw [ht, hc]; rfl
  cases u with
  | spare k => exact absurd rfl (hu k)
  | _ => exact congrArg ok (if_pos hboth)

/-- Settles O43. -/
theorem selfTests : Obligations.SelfTests := by
  unfold Obligations.SelfTests
  intro s lane e k q u pass cor l x v g n ended
  refine ⟨fun m ht hm => ?schedule, execSelftestClaim_of_free (fun _ => by simp), execSelftestClaim_of_free (fun _ => by simp),
    execSelftestClaim_of_free (fun _ => by simp), fun ht hc => congrArg ok (if_pos (by rw [ht, hc]; rfl)), fun hc hs hq => ?startLane,
    fun hc hs hq => ?startCluster, fun hc hs hj ha => ?startEngine, fun t ht => ?endLane, fun t ht hc => ?endCluster,
    fun t ht => ?endEngine, fun hst hn => ?endSpare, fun hst hstep => ?endJoining, fun un hc hs hq => ?withdraw⟩
  case schedule =>
    show execSelftestSchedule s = _
    unfold execSelftestSchedule
    rw [if_neg (by simp [ht]), hm]
  case startLane => exact congrArg ok (if_pos (by simp [show (s.lane lane.val).claimed = true from hc, show (s.lane lane.val).slice = none from hs,
      show (s.lane lane.val).queue = [] from hq]))
  case startCluster => exact congrArg ok (if_pos (by simp [show (s.quad q.val).claim = some u.val from hc,
      show (s.quad q.val).slice = none from hs, hq]))
  case startEngine => exact congrArg ok (if_pos (by simp [show (s.eng e.val).claim = 1 from hc, show (s.eng e.val).slice = none from hs,
      show (s.eng e.val).jobs = [] from hj, ha]))
  case endLane =>
    intro c d
    show execSelftestSliceEnd (.lane lane) ⟨pass, cor⟩ s = _
    unfold execSelftestSliceEnd
    dsimp only
    rw [show (s.lane lane.val).slice = some t from ht]
    dsimp only
    cases pass with
    | true => rfl
    | false => exact (apply_ite ok _ _ _).symm
  case endCluster =>
    intro c d
    show execSelftestSliceEnd (.cluster q u) ⟨pass, cor⟩ s = _
    unfold execSelftestSliceEnd
    dsimp only
    rw [show (s.quad q.val).slice = some t from ht]
    exact if_neg (not_not_intro hc)
  case endEngine =>
    intro c d
    show execSelftestSliceEnd (.engine e) ⟨pass, cor⟩ s = _
    unfold execSelftestSliceEnd
    dsimp only
    rw [show (s.eng e.val).slice = some t from ht]
  case endSpare =>
    intro c
    show execSelftestSliceEnd (.spare k) ⟨pass, cor⟩ s = _
    unfold execSelftestSliceEnd
    dsimp only
    rw [if_pos hst, show (s.spare k.val).next = none from hn]
    cases pass with
    | true => rfl
    | false => rfl
  case endJoining =>
    intro c
    exact (if_neg (by rw [show (s.spare k.val).st = 2 from hst]; decide)).trans (if_pos ⟨hst, hstep⟩)
  case withdraw =>
    intro a c
    show execSelftestClaimWithdraw q s = _
    unfold execSelftestClaimWithdraw
    dsimp only
    rw [show (s.quad q.val).claim = some un from hc]
    exact if_neg (by simp [show (s.quad q.val).slice = none from hs, hq])

end Sys2Proof.Machine
end

section
/-!
The key commands that a granted write of the staged block runs (R460, R461).
-/
namespace Sys2Proof.Machine
variable {s t : State} {r : Req} {role k op : Nat}

/-- The write that runs the staged block is granted, its role may run the command `op` which the block names, and the operation can begin
in slot `k`. -/
structure KeyRuns (s t : State) (r : Req) (role k op : Nat) : Prop where
  names : (byteAt (stagedBlock s) 0).toNat = op
  staged : stagedBlock s ≠ []
  same : stagedBlock t = stagedBlock s
  granted : Granted s (reqWith r [1]) 0x5010 2 t role [1]
  free : CanBegin t 0x5010 2 k
  mode : keyMode t role = true
  right : hasRight t role (if readsOnly op then 2 else 8) = true

/-- The state in which a key command of slot `k` runs: its operation has begun, and KEY_CMD shows its OP. -/
def keyBegun (t : State) (role k : Nat) : State :=
  let v := begun t 0x5010 2 role (.keyCmd (stagedBlock t)) k
  { v with key := { v.key with op := (byteAt (stagedBlock t) 0).toNat } }

theorem fxKey_of_canBegin {v : Bytes} (hb : CanBegin t 0x5010 2 k)
    (hr : hasRight t role (if readsOnly (byteAt (stagedBlock t) 0).toNat then 2 else 8) = true) :
    fxKey t role v = ⟨0, handle t k, runKey (stagedBlock t) k (begun t 0x5010 2 role (.keyCmd (stagedBlock t)) k)⟩ := by
  unfold fxKey
  rw [if_neg (by simp [hr])]
  exact startOp_of_canBegin hb _ _

theorem serveKey_of_runs (h : KeyRuns s t r role k op) :
    ok (serveKey op r s) = .next (replyIn t (asking (reqWith r [1]) 0x5010 2) 2 0 (handle t k)
      (runKey (stagedBlock t) k (begun t 0x5010 2 role (.keyCmd (stagedBlock t)) k))) := by
  unfold serveKey
  rw [if_pos ⟨h.names, by simp [h.staged]⟩]
  exact served_of_granted h.granted (fxKey_of_canBegin h.free (by rw [h.same, h.names]; exact h.right)) rfl h.mode rfl

/-- The work of the command `op` on the block `b`, in slot `k` (R460-R462). -/
def keyWork (op : Nat) (b : Bytes) (k : Nat) (s : State) : State :=
  match op with
  | 0x01 => runNode (kbNode b) k (kcCreate b s) s
  | 0x02 => runNode (kbNode b) k (kcDelete b s) s
  | 0x03 => runGenerate b k s
  | 0x04 => runNode (beNat (slice (kbData b) 16 3)) k (kcLoad b s) s
  | 0x05 => runPlain k (kcSave b s)
  | 0x06 => runNode (kbNode b) k (kcImport b s) s
  | 0x07 => runPlain k (kcExport b s)
  | 0x08 => runStage b k s
  | 0x09 => runCommit b k s
  | 0x0A => runAbort b k s
  | 0x0B => runPlain k (kcAttest b s)
  | 0x0C => runPlain k (kcRead b s)
  | 0x0D => runNode (kbNode b) k (kcLoadpub b s) s
  | _ => endKc k 0x0E [] s

/-- A well-formed block over a key tree with its root is worked by its OP. -/
theorem runKey_of_root {b : Bytes} {v : State} (hk : kbOk b = true)
    (hroot : (byteAt b 0).toNat = 0x0C ∨ (v.key.rootSt ≠ 5 ∧ v.key.root ≠ [])) :
    runKey b k v = keyWork (byteAt b 0).toNat b k { v with key := { v.key with op := (byteAt b 0).toNat } } := by
  unfold runKey
  rw [if_neg (not_not.2 hk), if_neg]
  · rfl
  · rintro ⟨hop, h5 | hempty⟩
    · exact (hroot.resolve_left hop).1 h5
    · exact (hroot.resolve_left hop).2 (List.isEmpty_iff.1 hempty)

/-- A key command whose checks pass is answered with its handle, and does the work of its OP. -/
theorem keyCommand_answers (h : KeyRuns s t r role k op) (hk : kbOk (stagedBlock t) = true)
    (hroot : op = 0x0C ∨ ((keyBegun t role k).key.rootSt ≠ 5 ∧ (keyBegun t role k).key.root ≠ [])) :
    ok (serveKey op r s) = .next (replyIn t (asking (reqWith r [1]) 0x5010 2) 2 0 (handle t k)
      (keyWork op (stagedBlock t) k (keyBegun t role k))) := by
  have hop : (byteAt (stagedBlock t) 0).toNat = op := by rw [h.same, h.names]
  rw [serveKey_of_runs h, runKey_of_root hk (by rw [hop]; exact hroot), hop]
  simp only [keyBegun, hop]

section Works
variable {id : Nat} {c : KC} {u : State}

theorem runNode_done (hc : c.code = 0) (hg : inGroup u id = false) : runNode id k c u = endKc k 0 c.res c.st := by
  unfold runNode
  rw [if_neg (by simp [hc]), if_neg (by simp [hg])]

theorem runNode_failed (hc : c.code ≠ 0) : runNode id k c u = endKc k c.code [] c.st := if_pos hc

theorem runNode_alone (hg : inGroup u id = false) :
    runNode id k c u = if c.code = 0 then endKc k 0 c.res c.st else endKc k c.code [] c.st := by
  split
  · exact runNode_done ‹_› hg
  · exact runNode_failed ‹_›

theorem runPlain_done (hc : c.code = 0) : runPlain k c = endKc k 0 c.res c.st := by
  unfold runPlain
  rw [hc]

theorem runGenerate_done {b : Bytes} (ht : u.rst.trngFailed = false) (hk : (u.node (kbNode b)).ktype ≠ 0x18)
    (hc : (kcGenerate b u).code = 0) (hg : inGroup u (kbNode b) = false) :
    runGenerate b k u = endKc k 0 (kcGenerate b u).res (kcGenerate b u).st := by
  unfold runGenerate
  rw [if_neg (by simp [ht]), if_neg (fun h => hk h.2.2)]
  exact runNode_done hc hg

end Works

section Nodes
variable {b : Bytes} {u : State}

/-- What a command that makes node `id` of kind `kind` can answer: a failure that leaves the state, or the node made where none was. -/
def MakesNode (u : State) (id kind : Nat) (x : KC) : Prop :=
  (x.code ≠ 0 → x.st = u) ∧ (x.code = 0 → (u.node id).kind = 0 ∧ (x.st.node id).kind = kind)

/-- A check of such a command: it fails with a code, or the rest goes on. -/
theorem makesNode_check {id kind c : Nat} {p : Prop} [Decidable p] {x : KC} (hc : c ≠ 0) (hx : ¬ p → MakesNode u id kind x) :
    MakesNode u id kind (if p then kcFail c u else x) := by
  split
  · exact ⟨fun _ => rfl, fun h => absurd h hc⟩
  · exact hx ‹_›

theorem kcCreate_makesNode : MakesNode u (kbNode b) (recordOf (slice b 8 24)).kind (kcCreate b u) := by
  refine makesNode_check (by decide) fun hid => makesNode_check (by decide) fun _ => makesNode_check (by decide) fun _ =>
    makesNode_check (by decide) fun _ => makesNode_check (by decide) fun _ => makesNode_check (by decide) fun _ =>
    makesNode_check (by decide) fun _ => ⟨fun h => absurd rfl h, fun _ => ⟨not_not.1 fun h => hid (.inr h), ?_⟩⟩
  simp only [State.node, State.setNode, Tab.look_put_same]
  split <;> rfl

/-- A DELETE that fails leaves the state as it was; one that is done is the node's deletion. -/
theorem kcDelete_cases (b : Bytes) (u : State) :
    (∃ c, c ≠ 0 ∧ kcDelete b u = kcFail c u) ∨ kcDelete b u = ⟨0, [], deleteNode (kbNode b) u⟩ := by
  unfold kcDelete
  dsimp only
  repeat' split
  · exact .inl ⟨1, by decide, rfl⟩
  · exact .inl ⟨2, by decide, rfl⟩
  · exact .inl ⟨9, by decide, rfl⟩
  · exact .inl ⟨0x0C, by decide, rfl⟩
  · exact .inr rfl

theorem kcDelete_failed (h : (kcDelete b u).code ≠ 0) : (kcDelete b u).st = u := by
  obtain ⟨c, -, hc⟩ | hc := kcDelete_cases b u
  · rw [hc]; rfl
  · rw [hc] at h
    exact absurd rfl h

theorem kcDelete_done (h : (kcDelete b u).code = 0) : (kcDelete b u).st = deleteNode (kbNode b) u := by
  obtain ⟨c, hne, hc⟩ | hc := kcDelete_cases b u
  · rw [hc] at h
    exact absurd h hne
  · rw [hc]

/-- A write of an anchor's copy leaves the key die as it was. -/
theorem writeAnchor_key (a c : Nat) (rec : Bytes) (s : State) : (writeAnchor a c rec s).2.key = s.key := by
  unfold writeAnchor programPage
  dsimp only
  split
  · rfl
  · rw [if_pos (by decide : 0 < 3)]
    split <;> rfl

theorem clearAnchor_nodes (a : Nat) (s : State) : (clearAnchor a s).key.nodes = s.key.nodes := by
  simp only [clearAnchor, writeAnchor_key]

theorem startScan_nodes (id : Nat) (s : State) : (startScan id s).key.nodes = s.key.nodes := rfl

theorem startScan_removals (id : Nat) (s : State) : (startScan id s).key.removals = s.key.removals ++ [id] := rfl

theorem deleteNode_removals (id : Nat) (s : State) : id ∈ (deleteNode id s).key.removals := by
  unfold deleteNode
  rw [startScan_removals]
  exact List.mem_append_right _ (List.mem_singleton_self id)

theorem deleteNode_node (id : Nat) (s : State) : (deleteNode id s).node id = {} := by
  unfold deleteNode State.node
  rw [startScan_nodes]
  dsimp only
  repeat' split
  all_goals simp only [State.setRun, clearAnchor_nodes, State.setNode, Tab.look_put_same]

end Nodes

/-- Settles O44. -/
theorem keyCommands : Obligations.KeyCommands := by
  unfold Obligations.KeyCommands
  intro s t r role k r1 b id v op u cmd works tells opens
  have command {n : Nat} {x : Instr} {e : State} (hx : exec x s = ok (serveKey n r s)) (he : keyWork n b k u = e) : cmd n x e := by
    intro hop hne hsame hg hb hm hr hk hroot
    have hans := keyCommand_answers ⟨hop, hne, hsame, hg, hb, hm, hr⟩ hk hroot
    rw [show keyWork n (stagedBlock t) k (keyBegun t role k) = e from he] at hans
    exact hx.trans hans
  exact ⟨fun hc hg => command rfl (runNode_done hc hg), fun hc hg => command rfl (runNode_done hc hg),
    fun ht hk hc hg => command rfl (runGenerate_done ht hk hc hg), fun hg => command rfl (runNode_alone hg),
    fun hc => command rfl (runPlain_done hc), fun hg => command rfl (runNode_alone hg), fun hc => command rfl (runPlain_done hc),
    fun hc => command rfl (runPlain_done hc), fun hc => command rfl (runPlain_done hc), fun hc hg => command rfl (runNode_done hc hg),
    fun hc => command rfl ((runNode_failed hc).trans (by rw [kcCreate_makesNode.1 hc])),
    fun hc => command rfl ((runNode_failed hc).trans (by rw [kcDelete_failed hc])),
    fun hc => by
      rw [kcDelete_done hc]
      exact ⟨by rw [deleteNode_node], deleteNode_removals _ _⟩,
    kcCreate_makesNode.2⟩

end Sys2Proof.Machine
end

section
/-!
COMMIT of a replacement, and the deliveries that started before it (R439, R445).
-/
namespace Sys2Proof.Machine

/-- A COMMIT of node 0x200 is staged; that node is PREPARED with its new run at 5, its record's tag fails, and a delivery of it was due
one tick ago. -/
def preparedWithDelivery : State :=
  { tSrv 4 .service with
    dt := 1
    dict := { work := [(0x501001, some ([9, 0, 0, 2, 0] ++ List.replicate 59 0))] }
    key := { root := [1], nodes := [(0x200, { kind := 3, state := 5, ktype := 1, bad := true })],
             repl := [(0x200, { has := true, head := 5 })], delivs := [⟨0, 0, 0, 0x200, [], 15, 0, none, 0, 0⟩] } }

/-- The staged COMMIT, begun in slot 0. -/
def commitBegun : State :=
  let v := begun preparedWithDelivery 0x5010 2 4 (.keyCmd (stagedBlock preparedWithDelivery)) 0
  { v with key := { v.key with op := (byteAt (stagedBlock preparedWithDelivery) 0).toNat } }

/-- Refutes O45: COMMIT first makes the deliveries that started before it (R439). One that finds the tag of the node's record failed takes
its replacement away, so the node's SLOT is then not the run of the replacement that stood before. -/
theorem not_keyReplacement : ¬ Obligations.KeyReplacement := by
  unfold Obligations.KeyReplacement
  rintro ⟨h, -⟩
  obtain ⟨-, -, -, -, hcommit⟩ := h preparedWithDelivery preparedWithDelivery (tReq 2 0x5010 2 [1]) 4 0
  have hnode : kbNode (stagedBlock preparedWithDelivery) = 0x200 := by decide +kernel
  obtain ⟨-, -, hslot⟩ := hcommit (by rw [hnode]; decide +kernel)
  rw [hnode] at hslot
  have hdrops : ((commitPoint 0x200 (some 0) commitBegun).node 0x200).slot = 0 := by decide +kernel
  have hruns : (commitBegun.repl 0x200).head = 5 := by decide +kernel
  have : 0 = 5 := hdrops.symm.trans (hslot.trans hruns)
  omega

end Sys2Proof.Machine
end

section
/-!
The image store and the decimalisation tables (R398, R399, R495).
-/
namespace Sys2Proof.Machine

theorem fxImage_install {t : State} {role k n : Nat} (hb : CanBegin t (0x4100 + n) 2 k) :
    fxImage n t role [1] = ⟨0, handle t k, progInstall n k (begun t (0x4100 + n) 2 role .install k)⟩ := by
  unfold fxImage
  rw [if_pos (by decide)]
  exact startOp_of_canBegin hb _ _

theorem fxImage_remove {t : State} {role n : Nat} (h : imageNamed t n = false) :
    fxImage n t role [2] = ansOK (t.setEpoch { t.unit.epoch with
      images := Tab.put [] t.unit.epoch.images n [], pendImages := Tab.put [] t.unit.epoch.pendImages n [] }) := by
  unfold fxImage progRemove
  rw [if_neg (by decide), if_neg (by simp [h])]

/-- Settles O46. -/
theorem imagesAndTables : Obligations.ImagesAndTables := by
  unfold Obligations.ImagesAndTables
  intro s t r role k i d v n idx u b code
  have hidx : idx = 0x4100 + n := by simp only [idx, n]; omega
  refine ⟨fun hg hb => ?_, fun hg hn => ?_, fun hg hm hv => ?_⟩
  · have hrun : progInstall n k u = if code = 0 then doneSlot k [] (mrMeasure 4 6 n (sha384 b) (placeImage n b u))
        else failSlot k code (u.bump 0x4100 4) := by
      simp only [code, b, hidx]
      exact ite_not _ _ _
    have hfx : fxImage n t role [1] = ⟨0, handle t k, progInstall n k u⟩ := by
      simp only [u, hidx]
      exact fxImage_install (hidx ▸ hb)
    rw [hrun] at hfx
    exact served_of_granted hg hfx
  · exact served_of_granted hg (fxImage_remove hn)
  · exact served_of_granted hg rfl rfl hm hv

end Sys2Proof.Machine
end

section
/-!
The operations of the public-key engines (R529-R532, R541-R548, R555).
-/
namespace Sys2Proof.Machine
variable {s : State} {e n : Nat} {j : PkJob}

/-- Engine `e` runs the job `j`, which nobody has withdrawn and which has no outcome yet. -/
def PkOpen (s : State) (e : Nat) (j : PkJob) : Prop := pkRunning s e = some j ∧ j.withdrawn = false ∧ j.status = none

/-- The job with the outcome `r` of its operation: the engine's generator has counted the values drawn. -/
def pkOutcome (e : Nat) (j : PkJob) (r : Nat × Bytes × State) : State :=
  let v := pkSet e { j with status := some r.1, result := r.2.1 } r.2.2
  v.setEng e { v.eng e with reqs := (v.eng e).reqs + pkDraws j.pkop }

theorem pkSettle_of_compute {r : Nat × Bytes × State} (hs : j.status = none) (hk : j.kind ≠ 1) (hop : j.pkop / 256 ≠ 0x30)
    (hr : (if inlineOk s e j then pkCompute j s else (tPK_INPUT, [], s)) = r) : pkSettle e j s = pkOutcome e j r := by
  subst hr
  unfold pkSettle
  rw [if_neg (by simp [hs]), if_neg hk, if_neg hop]
  rfl

theorem pkOp_of_compute {r : Nat × Bytes × State} (h : PkOpen s e j) (hk : j.kind ≠ 1) (hop : j.pkop / 256 = n) (hn : n ≠ 0x30)
    (hr : pkCompute j s = r) : ok (pkOp n e s) = .next (pkOutcome e j (if inlineOk s e j then r else (tPK_INPUT, [], s))) := by
  obtain ⟨hrun, hw, hs⟩ := h
  unfold pkOp
  rw [hrun]
  dsimp only
  rw [if_pos ⟨hk, hop, by simp [hw]⟩, pkSettle_of_compute hs hk (by rw [hop]; exact hn) (by rw [hr])]

/-- The draw of an ECDSA signature changes the draws alone. -/
theorem ecdsaDraw_state (c : Curve) (d : Nat) (h : Bytes) (s : State) :
    (ecdsaDraw c d h s).2 = { s with draws := (ecdsaDraw c d h s).2.draws } := rfl

/-- The key that a job computes with. -/
def jobKey (j : PkJob) : Bytes := match j.key with | some k => k.key | none => []

theorem pkCompute_rsaPrivate (hop : j.pkop / 256 = 1) : pkCompute j s =
    if (audOperand j).length ≠ rsaBytes (jobKey j) ∨ rsaN (jobKey j) (rsaBytes (jobKey j)) ≤ beNat (audOperand j) then (tPK_INPUT, [], s)
    else (0, beBytes (rsaPriv (jobKey j) (beNat (audOperand j))) (rsaBytes (jobKey j)), s) := by
  unfold pkCompute
  rw [hop]
  rfl

theorem pkCompute_rsaPublic (hop : j.pkop / 256 = 4) : pkCompute j s =
    if (audOperand j).length ≠ (jobKey j).length - 4 ∨ rsaN (jobKey j) ((jobKey j).length - 4) ≤ beNat (audOperand j) then (tPK_INPUT, [], s)
    else (0, beBytes (modPow (beNat (audOperand j)) (rsaE (jobKey j) ((jobKey j).length - 4)) (rsaN (jobKey j) ((jobKey j).length - 4)))
      ((jobKey j).length - 4), s) := by
  unfold pkCompute
  rw [hop]
  rfl

/-- The operations whose outcome their scheme gives as it stands. -/
theorem pkCompute_scheme (j : PkJob) (s : State) :
    (j.pkop / 256 = 2 → pkCompute j s = rsaSign false (jobKey j) (audOperand j) s) ∧
    (j.pkop / 256 = 3 → pkCompute j s = rsaSign true (jobKey j) (audOperand j) s) ∧
    (j.pkop / 256 = 5 → pkCompute j s = (rsaVerify false (jobKey j) (audOperand j), [], s)) ∧
    (j.pkop / 256 = 6 → pkCompute j s = (rsaVerify true (jobKey j) (audOperand j), [], s)) ∧
    (j.pkop / 256 = 0x12 → pkCompute j s = ((agree s (j.pkop % 256) j.epoch (jobKey j) (audOperand j)).1,
      (agree s (j.pkop % 256) j.epoch (jobKey j) (audOperand j)).2, s)) ∧
    (j.pkop / 256 = 0x21 → pkCompute j s = (eddsaCheck (j.pkop % 256) (jobKey j) (audOperand j), [], s)) := by
  refine ⟨?_, ?_, ?_, ?_, ?_, ?_⟩ <;>
  · intro hop
    unfold pkCompute
    rw [hop]
    rfl

/-- ECDSA over the curve that the job names (R529, R532): POLICY where it is not loaded. -/
theorem pkCompute_ecdsa (j : PkJob) (s : State) :
    (j.pkop / 256 = 0x10 → pkCompute j s = match jobCurve s (j.pkop % 256) j.epoch with
      | none => (tPOLICY, [], s)
      | some cv =>
        if (audOperand j).length < 20 ∨ 64 < (audOperand j).length then (tPK_INPUT, [], s)
        else match (ecdsaDraw cv (beNat (jobKey j)) (audOperand j) s).1 with
          | some sig => (0, sig, (ecdsaDraw cv (beNat (jobKey j)) (audOperand j) s).2)
          | none => (tPK_INPUT, [], (ecdsaDraw cv (beNat (jobKey j)) (audOperand j) s).2)) ∧
    (j.pkop / 256 = 0x11 → pkCompute j s = match jobCurve s (j.pkop % 256) j.epoch with
      | none => (tPOLICY, [], s)
      | some cv => (ecdsaCheck cv (jobKey j) (audOperand j), [], s)) := by
  constructor <;>
  · intro hop
    unfold pkCompute
    rw [hop]
    rfl

theorem pkCompute_public (hop : j.pkop / 256 = 0x13) (ho : audOperand j = []) :
    pkCompute j s = (0, jobPublic s (j.pkop % 256) j.epoch (jobKey j), s) := by
  unfold pkCompute
  rw [hop]
  exact if_pos (List.isEmpty_iff.2 ho)

theorem pkCompute_eddsaSign (hop : j.pkop / 256 = 0x20) (hl : 1 ≤ (audOperand j).length) (hu : (audOperand j).length ≤ 1024) :
    pkCompute j s = (0, (edOf (j.pkop % 256)).sign (jobKey j) (audOperand j), s) := by
  unfold pkCompute
  rw [hop]
  exact if_neg (not_or.2 ⟨Nat.not_lt.2 hl, Nat.not_lt.2 hu⟩)

/-- Settles O47. -/
theorem pkOperations : Obligations.PkOperations := by
  unfold Obligations.PkOperations
  intro s eng die j p q e c key oper kb pb running outcome gives
  have gives_of {n : Nat} {y : Instr} {h : Prop} {r : Nat × Bytes × State} (hy : exec y s = ok (pkOp n e s)) (hn : n ≠ 0x30)
      (hr : j.pkop / 256 = n → h → pkCompute j s = r) : gives n y h r := fun hrun hk hop hh =>
    hy.trans (pkOp_of_compute hrun hk hop hn (hr hop hh))
  obtain ⟨hsign, hpss, hverify, hverifyPss, hagree, heddsa⟩ := pkCompute_scheme j s
  obtain ⟨hecSign, hecVerify⟩ := pkCompute_ecdsa j s
  refine ⟨gives_of rfl (by decide) fun hop ⟨hl, hb⟩ => (pkCompute_rsaPrivate hop).trans (if_neg (not_or.2 ⟨not_not.2 hl, Nat.not_le.2 hb⟩)),
    gives_of rfl (by decide) fun hop hout => (pkCompute_rsaPrivate hop).trans (if_pos hout),
    gives_of rfl (by decide) fun hop _ => hsign hop, gives_of rfl (by decide) fun hop _ => hpss hop,
    gives_of rfl (by decide) fun hop ⟨hl, hb⟩ => (pkCompute_rsaPublic hop).trans (if_neg (not_or.2 ⟨not_not.2 hl, Nat.not_le.2 hb⟩)),
    gives_of rfl (by decide) fun hop hout => (pkCompute_rsaPublic hop).trans (if_pos hout),
    gives_of rfl (by decide) fun hop _ => hverify hop, gives_of rfl (by decide) fun hop _ => hverifyPss hop,
    fun cv => ⟨gives_of rfl (by decide) fun hop ⟨hcv, hl, hu⟩ => ?sign, gives_of rfl (by decide) fun hop hcv => ?check⟩,
    gives_of rfl (by decide) fun hop hcv => ?signNoCurve, gives_of rfl (by decide) fun hop hcv => ?checkNoCurve,
    gives_of rfl (by decide) fun hop _ => hagree hop, gives_of rfl (by decide) fun hop hempty => pkCompute_public hop hempty,
    gives_of rfl (by decide) fun hop ⟨hl, hu⟩ => pkCompute_eddsaSign hop hl hu,
    gives_of rfl (by decide) fun hop _ => heddsa hop,
    fun ⟨hrun, hw, hs⟩ hop => ?keygen, fun ⟨hrun, hw, hs⟩ hk => ?fault, fun ⟨hrun, hw, hs⟩ hk => ?verify, fun g hg hbusy hs => ?limit,
    ecdsaDraw_state _ _ _ _⟩
  case sign =>
    rw [hecSign hop, show jobCurve s (j.pkop % 256) j.epoch = some cv from hcv]
    exact if_neg (not_or.2 ⟨Nat.not_lt.2 hl, Nat.not_lt.2 hu⟩)
  case check =>
    rw [hecVerify hop, show jobCurve s (j.pkop % 256) j.epoch = some cv from hcv]
    rfl
  case signNoCurve => rw [hecSign hop, show jobCurve s (j.pkop % 256) j.epoch = none from hcv]
  case checkNoCurve => rw [hecVerify hop, show jobCurve s (j.pkop % 256) j.epoch = none from hcv]
  case keygen =>
    intro k r
    show execPkRsaKeygen eng p q s = _
    unfold execPkRsaKeygen
    rw [hrun]
    simp only [hop, hs, Option.isNone_none, true_and]
    exact (apply_ite ok _ _ _).symm
  case fault =>
    show execVasVerify eng true s = _
    unfold execVasVerify
    rw [hrun]
    dsimp only
    rw [if_neg (by simp [hk, hw]), if_pos ⟨rfl, by simp [hs]⟩]
  case verify =>
    show execVasVerify eng false s = _
    unfold execVasVerify
    rw [hrun]
    dsimp only
    rw [if_neg (by simp [hk, hw]), if_neg (by simp)]
    unfold pkSettle
    rw [if_neg (by simp [hs]), if_pos hk]
  case limit =>
    intro n a
    show execRsaGenLimit die s = _
    unfold execRsaGenLimit
    dsimp only
    rw [hg]
    exact if_neg (by simp [hbusy, hs])

end Sys2Proof.Machine
end

section
/-!
Jobs of the engines, the background path, fences and curves (R202, R525-R528, R540, R553-R560).
-/
namespace Sys2Proof.Machine
variable {s t : State} {role k c : Nat}

/-- A job with an outcome keeps it. -/
theorem pkSettle_of_status {e st : Nat} {j : PkJob} (h : j.status = some st) : pkSettle e j s = s := by
  unfold pkSettle
  exact if_pos (by simp [h])

theorem fxCurve_of_canBegin {v : Bytes} (hb : CanBegin t (0x6020 + c) 2 k)
    (hn : curveNamed (begun t (0x6020 + c) 2 role .install k) c = false) :
    let u := begun t (0x6020 + c) 2 role .install k
    let b := u.entW (0x6020 + c) 1
    fxCurve c t role v = ⟨0, handle t k, if beNat v = 2 then doneSlot k [] (pendCurve c [] u)
      else if (curveErr b u).1 = 0 then doneSlot k [] (mrMeasure 6 9 c (sha384 b) (pendCurve c b (curveErr b u).2))
      else failSlot k (curveErr b u).1 (curveErr b u).2⟩ := by
  intro u b
  unfold fxCurve
  rw [startOp_of_canBegin hb]
  dsimp only
  rw [if_neg (by simp [hn]), ite_not]

/-- Settles O48. -/
theorem pkJobs : Obligations.PkJobs := by
  unfold Obligations.PkJobs
  refine ⟨?engines, ?background, ?requests⟩
  case engines =>
    intro s eng n j e v when_ first t a left b u fin on
    refine ⟨fun x hx hd => ?release, fun hon hop ht hw hk => ?yield, fun hon hw hop => ?withdrawn, fun st hon hw hst hy => ?ends,
      fun hon hw => ?gone, fun hr hq => congrArg ok (if_pos ⟨by simp [show (s.eng eng.val).run = none from hr], hq⟩),
      fun hr hq => congrArg ok (if_neg fun h => Nat.not_le.2 hq h.2)⟩
    case release =>
      show execPkJobRelease eng s = _
      unfold execPkJobRelease
      dsimp only
      split
      · next hnone => exact absurd (hnone.symm.trans hx) nofun
      · next y hsome =>
        obtain rfl : y = x := Option.some.inj (hsome.symm.trans hx)
        exact if_pos hd
    case yield =>
      show execPkYieldPoint eng n s = _
      unfold execPkYieldPoint
      dsimp only
      rw [show pkRunning s eng.val = some j from hon]
      dsimp only
      rw [if_neg (by rintro ⟨-, hle⟩; exact Nat.not_le.2 ht hle), if_neg (by simp [hw]), if_neg (fun h => hk h.1)]
      simp only [left, hop, decide_false, Bool.false_eq_true, if_false, u, b, a, t, e, v]
    case withdrawn =>
      show execPkYieldPoint eng n s = _
      unfold execPkYieldPoint
      dsimp only
      rw [show pkRunning s eng.val = some j from hon]
      dsimp only
      rw [if_neg (by simp [hop]), if_pos hw]
      simp only [left, hop, decide_true, if_true, u, b, a, t, e, v]
    case ends =>
      show execPkJobEnd eng s = _
      unfold execPkJobEnd
      rw [show pkRunning s eng.val = some j from hon]
      dsimp only
      rw [if_neg (by simp [hw]), pkSettle_of_status hst, show pkRunning s eng.val = some j from hon]
      dsimp only
      rw [if_neg (by simp [hw]), if_neg (by rw [show mustYield (s.eng eng.val) j _ = false from hy]; decide), hst]
    case gone =>
      show execPkJobEnd eng s = _
      unfold execPkJobEnd
      rw [show pkRunning s eng.val = some j from hon]
      dsimp only
      rw [if_pos hw, show pkRunning s eng.val = some j from hon]
      exact if_pos hw
  case background =>
    intro s die j d b e u w
    refine ⟨fun hg hb hok => congrArg ok ?_, fun hg hb hok => congrArg ok ?_, fun h => congrArg ok ?_, fun hg => congrArg ok (if_pos hg),
      fun hg hb hj hr => congrArg ok ?_, fun hg hb hj hr => congrArg ok ?_, fun hb hst hc hcl => ?claim⟩
    · unfold bgGo
      rw [if_neg (by simp [show (s.bg die.val).go = false from hg, show (s.bg die.val).busy = false from hb])]
      exact if_neg (not_not.2 hok)
    · unfold bgGo
      rw [if_neg (by simp [show (s.bg die.val).go = false from hg, show (s.bg die.val).busy = false from hb])]
      exact if_pos (by simp [show bgOk (s.bg die.val).desc = false from hok])
    · exact if_pos (by simpa using h)
    · unfold bgAbort
      rw [if_neg (by simp [show (s.bg die.val).go = false from hg]), if_neg (by simp [show (s.bg die.val).busy = true from hb])]
      dsimp only
      rw [show pkFind s (12 * die.val + (s.bg die.val).engine) _ = some j from hj]
      exact if_neg hr
    · unfold bgAbort
      rw [if_neg (by simp [show (s.bg die.val).go = false from hg]), if_neg (by simp [show (s.bg die.val).busy = true from hb])]
      dsimp only
      rw [show pkFind s (12 * die.val + (s.bg die.val).engine) _ = some j from hj]
      exact if_pos hr
    case claim =>
      show execBgClaimTimeout die s = _
      unfold execBgClaimTimeout
      dsimp only
      rw [if_neg (by simp [show (s.bg die.val).busy = true from hb, show (s.bg die.val).started = false from hst,
        show (s.bg die.val).claim = false from hc])]
      exact if_neg (by rw [show (dieEngines die.val).any _ = false from hcl]; decide)
  case requests =>
    intro s t r role k eng c idx cdx u b err ask
    refine ⟨fun hg => served_of_granted hg rfl, fun hg hc => served_of_granted hg rfl rfl rfl (by simp [pkFenceRange, beNat, hc]),
      fun hg hm hb hn => ?_, fun hg hm hb hn => ?_⟩
    · exact served_of_granted hg (fxCurve_of_canBegin hb hn) rfl hm
    · exact served_of_granted hg (fxCurve_of_canBegin hb hn) rfl hm

end Sys2Proof.Machine
end

section
/-!
Custodian cards (R571-R574, R580-R588).
-/
namespace Sys2Proof.Machine
variable {s : State} {i : Fin 4} {ins : Nat} {sw : BitVec 16} {data : Bytes}

/-- What a response with status 9000 does for the command `ins` that it answers (R572). -/
def cardAdvance (n ins : Nat) (data : Bytes) (s : State) : State :=
  match ins with
  | 0xA4 => s.setCard n { s.card n with st := 2, cmd := none, step := 1 }
  | 0x10 => cardIdentity n data s
  | 0x20 => cardSigned n data s
  | 0x30 => openChannel n data s
  | 0x40 => compOut n s
  | 0x42 => compIn n data s
  | _ => s.setCard n { s.card n with st := 2, cmd := none }

/-- A card's response is judged by its status word, then by the command it answers (R572). -/
theorem execCardResponse_of_cmd (edc : Bool) (h : (s.card i.val).cmd = some ins) :
    execCardResponse i sw data edc s = ok (cerAbortPoint (if edc then cardFault i.val 3 s else if sw = 0x6982 then cardFault i.val 6 s
      else if sw ≠ 0x9000 then cardFault i.val 7 s else cardAdvance i.val ins data s)) := by
  unfold execCardResponse
  dsimp only
  rw [h]
  rfl

theorem execCardResponse_failed (h : (s.card i.val).cmd = some ins) : execCardResponse i sw data true s = ok (cerAbortPoint (cardFault i.val 3 s)) := by
  rw [execCardResponse_of_cmd true h, if_pos rfl]

theorem execCardResponse_refused (h : (s.card i.val).cmd = some ins) (hsw : sw = 0x6982) :
    execCardResponse i sw data false s = ok (cerAbortPoint (cardFault i.val 6 s)) := by
  rw [execCardResponse_of_cmd false h, if_neg (by decide), if_pos hsw]

theorem execCardResponse_other (h : (s.card i.val).cmd = some ins) (h1 : sw ≠ 0x6982) (h2 : sw ≠ 0x9000) :
    execCardResponse i sw data false s = ok (cerAbortPoint (cardFault i.val 7 s)) := by
  rw [execCardResponse_of_cmd false h, if_neg (by decide), if_neg h1, if_pos h2]

theorem execCardResponse_good (h : (s.card i.val).cmd = some ins) (hsw : sw = 0x9000) :
    execCardResponse i sw data false s = ok (cerAbortPoint (cardAdvance i.val ins data s)) := by
  rw [execCardResponse_of_cmd false h, if_neg (by decide), if_neg (by rw [hsw]; decide), if_neg (not_not.2 hsw)]

@[simp] theorem card_setCer (s : State) (c : Ceremony) (n : Nat) : (s.setCer c).card n = s.card n := by
  unfold State.setCer
  split <;> rfl

theorem cardFault_fault (n f : Nat) (s : State) : ((cardFault n f s).card n).fault = f := by
  unfold cardFault
  simp only [apply_ite (fun u : State => (u.card n).fault), card_setCer, State.card_bump, State.card_setCard, ite_self]

/-- Settles O49. -/
theorem custodianCards : Obligations.CustodianCards := by
  unfold Obligations.CustodianCards
  intro s i atr data sw slot a ins wtx n c st kind can channel d r t sent f
  have answered (cmd : Nat) (hsw : sw = 0x9000) (hins : ins = cmd) (hcmd : c.cmd = some ins) :
      exec (.cardResponse i sw data false) s = .next (cerAbortPoint (cardAdvance n cmd data s)) :=
    execCardResponse_good (hcmd.trans (congrArg some hins)) hsw
  refine ⟨fun hp hd => ?insert, fun hp hd => ?insertOff, fun hst hcls ha ht1 => ?activate, fun hst hcls ha ht1 => ?noT1,
    fun hst hcls ha => ?noAnswer, fun at_ hr => ?retry, fun hp => if_neg (not_not.2 hp), fun hst hcls => ?silentA, fun hst hcls => ?silentB,
    fun hst hcmd => ?silent, rfl, fun hf h => if_pos ⟨hf, h⟩, fun hf h => if_pos ⟨hf, h⟩, fun hf ⟨h2, h1, hk⟩ => ?sign,
    fun hf ⟨h2, h1, hk⟩ => ?signOwn, fun hf ⟨h2, hk, hs, hc, ho⟩ => if_pos ⟨hf, h2, hk, hs, by simp [show (s.card i.val).chan = false from hc], ho⟩,
    fun p rest hf ⟨ht, h2, hk, hc, ho⟩ => ?put, fun hf ⟨h2, hk, hc, ho⟩ => if_pos ⟨hf, h2, hk, hc, ho⟩, fun hf h => if_pos ⟨hf, h⟩,
    execCardResponse_failed, fun hsw hcmd => execCardResponse_refused hcmd hsw, fun h1 h2 hcmd => execCardResponse_other hcmd h1 h2,
    answered 0xA4, answered 0x10, answered 0x20, answered 0x30, answered 0x40, answered 0x42, ⟨rfl, ?sends⟩, cardFault_fault _ _ _⟩
  case insert =>
    show execCardInsert i s = _
    unfold execCardInsert
    dsimp only
    rw [if_neg (by simp [show (s.card i.val).pres = false from hp]), if_pos hd]
  case insertOff =>
    show execCardInsert i s = _
    unfold execCardInsert
    dsimp only
    rw [if_neg (by simp [show (s.card i.val).pres = false from hp]), if_neg (by simp [hd])]
  case activate =>
    show execCardAtr i atr s = _
    unfold execCardAtr
    dsimp only
    rw [if_neg (by rintro (h | h); exacts [h hst, hcls h]), ha]
    exact if_neg (by simp [ht1])
  case noT1 =>
    show execCardAtr i atr s = _
    unfold execCardAtr
    dsimp only
    rw [if_neg (by rintro (h | h); exacts [h hst, hcls h]), ha]
    exact if_pos (by simp [ht1])
  case noAnswer =>
    show execCardAtr i atr s = _
    unfold execCardAtr
    dsimp only
    rw [if_neg (by rintro (h | h); exacts [h hst, absurd (hcls.symm.trans h) (by decide)]), ha]
    exact congrArg ok (if_pos hcls)
  case retry =>
    show execCardClassARetry i s = _
    unfold execCardClassARetry
    dsimp only
    rw [show (s.card i.val).retry = some at_ from hr]
  case silentA =>
    show execCardWaitTimeout ⟨i, wtx⟩ s = _
    unfold execCardWaitTimeout
    dsimp only
    rw [if_pos ⟨hst, by rw [show (s.card i.val).cls = 1 from hcls]; decide⟩]
    exact congrArg ok (if_pos hcls)
  case silentB =>
    show execCardWaitTimeout ⟨i, wtx⟩ s = _
    unfold execCardWaitTimeout
    dsimp only
    rw [if_pos ⟨hst, by rw [show (s.card i.val).cls = 2 from hcls]; decide⟩]
    exact congrArg ok (if_neg (by rw [show (s.card i.val).cls = 2 from hcls]; decide))
  case silent =>
    show execCardWaitTimeout ⟨i, wtx⟩ s = _
    unfold execCardWaitTimeout
    dsimp only
    rw [if_neg (fun h => hst h.1)]
    exact if_pos hcmd
  case sign =>
    show execCardSign i s = _
    unfold execCardSign
    rw [if_pos ⟨hf, h2, h1⟩, if_neg hk]
  case signOwn =>
    show execCardSign i s = _
    unfold execCardSign
    rw [if_pos ⟨hf, h2, h1⟩, if_pos hk]
  case put =>
    show execCardPutComponent i s = _
    unfold execCardPutComponent
    dsimp only
    rw [ht]
    exact if_pos ⟨hf, h2, hk, hc, ho⟩
  case sends =>
    unfold sendCard
    simp only [State.card_emit, State.card_setCard]

end Sys2Proof.Machine
end

section
/-!
Starting and ending a ceremony (R577-R590, R606-R610).
-/
namespace Sys2Proof.Machine
variable {t : State} {role k : Nat}

theorem fxCeremony_of_canBegin {v : Bytes} (hc : t.cer.kind = 0) (hb : CanBegin t 0xA000 2 k) :
    let u := begun t 0xA000 2 role .ceremony k
    fxCeremony t role v = ⟨0, handle t k, cerStart (beNat v) k role (u.entW 0xA000 4) u⟩ := by
  intro u
  unfold fxCeremony
  rw [if_neg (not_not.2 hc)]
  exact startOp_of_canBegin hb _ _

theorem fxOwnership_of_canBegin {v : Bytes} (hc : t.cer.kind = 0) (ho : changeOpen t = false) (hm : t.power.modeTarget = none)
    (hb : CanBegin t 0xA030 2 k) :
    fxOwnership t role v = ⟨0, handle t k, ownStart k role (begun t 0xA030 2 role .ceremony k)⟩ := by
  unfold fxOwnership
  rw [if_neg (by simp [hc, ho, hm])]
  exact startOp_of_canBegin hb _ _

@[simp] theorem cer_setCer (s : State) (c : Ceremony) : (s.setCer c).cer = c := by
  unfold State.setCer
  split <;> rfl

/-- Settles O50. -/
theorem ceremonies : Obligations.Ceremonies := by
  unfold Obligations.Ceremonies
  refine ⟨?requests, ?starts, ?ends⟩
  case requests =>
    intro s t r role k p begins
    exact ⟨fun hg hm hc hb => served_of_granted hg (fxCeremony_of_canBegin hc hb) rfl hm,
      fun hg hm hc hb => served_of_granted hg (fxCeremony_of_canBegin hc hb) rfl hm,
      fun hg hm hc hb => served_of_granted hg (fxCeremony_of_canBegin hc hb) rfl hm,
      fun hg hm hc hb => served_of_granted hg (fxCeremony_of_canBegin hc hb) rfl hm,
      fun hg hv hc ho hm hb => served_of_granted hg (fxOwnership_of_canBegin hc ho hm hb) hv⟩
  case starts =>
    intro s kind slot role p c t
    refine ⟨fun hp => if_pos (by simp [hp]), fun hp hc => ?_, fun hp hc => ?_⟩
    · exact (if_neg (by simp [hp])).trans (if_pos hc)
    · have ht : t.cer = { kind := kind, st := 1, slot := some slot, role := role, params := p, num := ctrValue c.2 1 % 2 ^ 32,
                          start := c.2.dt } := by
        simp only [t, cerStart]
        rw [if_neg (by simp [hp]), if_neg (not_not.2 hc), cer_setCer]
        rfl
      rw [ht]
      exact ⟨rfl, rfl, rfl, rfl, rfl, rfl, rfl⟩
  case ends =>
    intro s c lim a u
    refine ⟨fun hk hst => ?_, fun hk h5 hst => ?_, fun hk hst hg => ?_, fun g hk hst hg => ?_, fun hm hc => ?_, fun hk => if_pos hk⟩
    · exact (if_neg hk).trans (if_pos hst)
    · exact (if_neg hk).trans ((if_neg hst).trans (if_neg h5))
    · show execCeremonyTimeout s = _
      unfold execCeremonyTimeout
      dsimp only
      rw [if_neg (by rw [show s.cer.kind = 5 from hk]; decide), if_neg hst, if_pos hk, show chgOf _ s.cer.chg = none from hg]
    · show execCeremonyTimeout s = _
      unfold execCeremonyTimeout
      dsimp only
      rw [if_neg (by rw [show s.cer.kind = 5 from hk]; decide), if_neg hst, if_pos hk, show chgOf _ s.cer.chg = some g from hg]
    · exact if_neg (by rintro (h | h); exacts [h hm, by simp [hc] at h])

end Sys2Proof.Machine
end

section
/-!
Mirror links and group changes (R593-R605).
-/
namespace Sys2Proof.Machine
variable {s : State} {l seq : Nat} {f : State → State}

/-- A frame with a greater SEQ on an UP link is taken in (R593). -/
theorem onFrame_new (hst : (s.mlink l).st = 3) (hseq : (s.mlink l).rxSeq < seq) :
    onFrame l seq false f s = f ((s.setMlink l { s.mlink l with rxSeq := seq, lastRx := s.dt }).bump (0xB810 + l) 2) := by
  unfold onFrame
  dsimp only
  rw [if_neg (not_not.2 hst), if_neg (by rintro (h | h); exacts [absurd h (by decide), Nat.not_le.2 hseq h])]

/-- A frame whose tag fails, or with no greater SEQ, takes the link DOWN (R593). -/
theorem onFrame_fails {bad : Bool} (hst : (s.mlink l).st = 3) (h : bad = true ∨ seq ≤ (s.mlink l).rxSeq) :
    onFrame l seq bad f s = frameFail l (s.bump (0xB810 + l) 2) := by
  unfold onFrame
  dsimp only
  rw [if_neg (not_not.2 hst), if_pos h]

/-- Settles O51. -/
theorem mirrorGroup : Obligations.MirrorGroup := by
  unfold Obligations.MirrorGroup
  intro s t r role l seq chg nonce stmt eph nrec key ros idk tok op node n18 c decs joined nodes n v id u cnt up new acts d e a pt link
  have acts_of (y : Bool → Instr) (f : State → State) (hy : ∀ bad, exec (y bad) s = ok (onFrame n seq.toNat bad f s)) : acts y (f u) :=
    ⟨fun hst hnew => (hy false).trans (congrArg ok (onFrame_new hst hnew)),
      fun hst _ => (hy true).trans (congrArg ok (onFrame_fails hst (.inl rfl)))⟩
  refine ⟨fun hc hd hst ha => ?up, fun hst => ?auth, fun hst => ?bad, acts_of (.mirrorHeartbeat l seq) (fun s => s) fun _ => rfl,
    fun hst hnew => congrArg ok (onFrame_fails hst (.inr (Nat.not_lt.1 hnew))), fun hst _ => if_neg (not_not.2 hst),
    fun hst => if_neg (Nat.not_lt.2 hst),
    acts_of (.mirrorToken l seq · tok) (fun s => s.setMlink n { s.mlink n with tokRx := beBytes tok.toNat 16 }) fun _ => rfl,
    fun hst ⟨hne, htok⟩ => ?tamper, fun hst ⟨hne, htok⟩ => ?forged,
    acts_of (.mirrorPrepare l seq · chg op node nrec key ros)
      (onPrepare n { id := id, op := op.val, node := node.toNat, nrec := nrec, key := key, ros := ros, init := id.take 8, st := 1, start := s.dt })
      fun _ => rfl,
    acts_of (.mirrorPrepared l seq · chg) (onPrepared n id) fun _ => rfl, acts_of (.mirrorRefuse l seq · chg) (onRefuse id) fun _ => rfl,
    acts_of (.mirrorCommit l seq · chg) (onCommit n id) fun _ => rfl, acts_of (.mirrorCommitted l seq · chg) (onCommitted n id) fun _ => rfl,
    acts_of (.mirrorAbort l seq · chg) (onAbort n id) fun _ => rfl,
    acts_of (.mirrorStatus l seq · chg none) (fun s => sendMir n (.answer id (statusOf s id)) s) fun _ => rfl,
    acts_of (.mirrorStatus l seq · chg (some 1)) (onAnswer n id 1) fun _ => rfl,
    fun hst ⟨hnew, hpeer⟩ => (congrArg ok (onFrame_new hst hnew)).trans (congrArg ok (if_neg ?peer)),
    fun hst ⟨hnew, hjoin, hpeer⟩ => (congrArg ok (onFrame_new hst hnew)).trans (congrArg ok (if_pos ⟨hjoin, hpeer⟩)),
    fun hc hw hst => ?resend, fun hc hm hst => ?timeout, fun hg => served_of_granted hg rfl, ?seq⟩
  case up =>
    show execMirrorLinkUp l nonce s = _
    unfold execMirrorLinkUp
    dsimp only
    rw [if_neg (by simp [show s.cfg (0x2030 + l.val) 1 = 1 from hc, hd, show (s.mlink l.val).st < 2 from hst])]
    exact if_neg (not_not.2 ha)
  case auth =>
    show execMirrorAuth l stmt eph idk true s = _
    unfold execMirrorAuth
    dsimp only
    rw [if_neg (not_not.2 hst)]
    exact (apply_ite ok _ _ _).symm
  case bad =>
    show execMirrorAuth l stmt eph idk false s = _
    unfold execMirrorAuth
    dsimp only
    rw [if_neg (not_not.2 hst)]
    exact if_neg (by simp)
  case tamper =>
    show execMirrorTamper l tok s = _
    unfold execMirrorTamper
    dsimp only
    rw [if_pos hst, if_neg (by simp [show (s.mlink l.val).st = 3 from hst, show (s.mlink l.val).tokRx ≠ [] from hne])]
    exact if_pos htok
  case forged =>
    show execMirrorTamper l tok s = _
    unfold execMirrorTamper
    dsimp only
    rw [if_pos hst, if_neg (by simp [show (s.mlink l.val).st = 3 from hst, show (s.mlink l.val).tokRx ≠ [] from hne])]
    exact if_neg htok
  case peer =>
    rw [Option.isNone_iff_eq_none]
    exact fun h => absurd (hpeer.symm.trans (congrArg Option.isSome h)) (by decide)
  case resend =>
    intro b
    show execMirrorResendTimer chg s = _
    unfold execMirrorResendTimer
    rw [show chgOf s (beBytes chg.toNat 12) = some c from hc]
    exact if_neg (by simp [hw, hst])
  case timeout =>
    show execMirrorPrepareTimeout chg s = _
    unfold execMirrorPrepareTimeout
    rw [show chgOf s (beBytes chg.toNat 12) = some c from hc]
    exact if_pos ⟨hm, hst⟩
  case seq =>
    unfold sendMir
    simp only [State.mlink_emit, State.mlink_bump, State.mlink_setMlink, v]

end Sys2Proof.Machine
end

section
/-!
The digest engine, the measurement registers and the supervisor images (R614-R642).
-/
namespace Sys2Proof.Machine
variable {s t : State} {role k : Nat}

/-- A logged event leaves the reset state. -/
@[simp] theorem rst_logEvent (ty src act data : Nat) (s : State) : (logEvent ty src act data s).rst = s.rst := by
  unfold logEvent
  split
  · unfold vbatInc
    rfl
  · rfl

@[simp] theorem rst_noteDamaged (cls p0 p1 : Nat) (ok0 ok1 : Bool) (s : State) : (noteDamaged cls p0 p1 ok0 ok1 s).rst = s.rst := by
  unfold noteDamaged
  split
  · exact rst_logEvent _ _ _ _ _
  · rfl

/-- The register extended is the SHA-384 of itself and the value (R622). -/
theorem mrPerform_vals (q : MrReq) (s : State) :
    (mrPerform q s).mr.vals = Tab.put (zeros 48) s.mr.vals q.mr (sha384 (s.mrVal q.mr ++ q.v)) := by
  unfold mrPerform
  dsimp only
  split <;> rfl

theorem mrPerform_mrVal_same (q : MrReq) (s : State) : (mrPerform q s).mrVal q.mr = sha384 (s.mrVal q.mr ++ q.v) := by
  unfold State.mrVal
  rw [mrPerform_vals, Tab.look_put_same]
  rfl

theorem mrPerform_mrVal_other (q : MrReq) (s : State) {j : Nat} (h : j ≠ q.mr) : (mrPerform q s).mrVal j = s.mrVal j := by
  unfold State.mrVal
  rw [mrPerform_vals, Tab.look_put_other _ _ _ h]

/-- The measurement log takes an entry while it has room (R625). -/
theorem mrPerform_log (q : MrReq) (s : State) :
    (mrPerform q s).mr.log.length = Nat.max s.mr.log.length (Nat.min 1024 (s.mr.log.length + 1)) := by
  unfold mrPerform
  dsimp only
  split
  · next h =>
    rw [State.setNum_mr]
    simp only [List.length_append, List.length_singleton, Nat.max_def, Nat.min_def]
    split <;> split <;> omega
  · next h =>
    rw [State.bump_mr]
    simp only [Nat.max_def, Nat.min_def]
    split <;> split at * <;> omega

theorem raiseFloor_done {ctr v : Nat} (h : (ctrRaise ctr v 0 t).1 = 0) : raiseFloor ctr v t = ansOK (ctrRaise ctr v 0 t).2 := if_pos h

theorem fxBaseActivate_of_canBegin {v : Bytes} {c : Nat} (hw : slotWinner t = some c) (hb : CanBegin t 0x6830 2 k) :
    fxBaseActivate t role v = ⟨0, handle t k, coreReset 1 0x0D ((begun t 0x6830 2 role .reset k).setNum 0x6800 6 c)⟩ := by
  unfold fxBaseActivate
  rw [hw]
  exact startOp_of_canBegin hb _ _

theorem fxExtend_of_length {i : Nat} {v : Bytes} (h : v.length = 48) : fxExtend i t role v = ansOK (mrMeasure (8 + i) 11 0 v t) :=
  if_neg (not_not.2 h)

/-- Settles O52. -/
theorem digestAndImages : Obligations.DigestAndImages := by
  unfold Obligations.DigestAndImages
  refine ⟨?start, ?abort, ?data, ?block, ?finish, ?vendor, ?owner, ?entry, ?done, fun s => rfl, ?base, ?module, ?floors, ?boot⟩
  case start =>
    intro s ctrl hd c a o early n u key e
    refine ⟨fun hbad => ?reserved, fun hm ha hc => ?plain, fun hm ha hc => ?keyed⟩
    case reserved =>
      show execDigStart ctrl s = _
      unfold execDigStart
      rw [if_neg (not_not.2 hd)]
      exact if_pos (hbad.imp_right (Or.imp_right fun h => by rw [show cmplenOk _ _ _ = false from h]; decide))
    case plain =>
      show execDigStart ctrl s = _
      unfold execDigStart
      rw [if_neg (not_not.2 hd)]
      refine (if_neg (not_or.2 ⟨?_, not_or.2 ⟨Nat.not_le.2 ha, not_not.2 hc⟩⟩)).trans (if_pos hm)
      exact fun h => absurd (hm.symm.trans h) (by decide)
    case keyed =>
      show execDigStart ctrl s = _
      unfold execDigStart
      rw [if_neg (not_not.2 hd)]
      refine (if_neg (not_or.2 ⟨?_, not_or.2 ⟨Nat.not_le.2 ha, not_not.2 hc⟩⟩)).trans ((if_neg ?_).trans ?_)
      · exact fun h => hm.elim (fun h1 => absurd (h1.symm.trans h) (by decide)) fun h2 => absurd (h2.symm.trans h) (by decide)
      · exact fun h => hm.elim (fun h1 => absurd (h1.symm.trans h) (by decide)) fun h2 => absurd (h2.symm.trans h) (by decide)
      · rw [apply_ite Host.Outcome.next]
        exact ite_not _ _ _
  case abort =>
    intro s hd hr hl
    exact if_pos (by simp [hd, hr, hl])
  case data =>
    intro s w hd a d late
    have hlate (h : late) : (digBusy a || (decide (d.mode ≠ 0) && decide (d.keyAt = a.dt))) = true := by
      obtain h | ⟨h1, h2⟩ := h
      · simp [h]
      · simp [h1, h2]
    refine ⟨fun hr hl => ?_, fun hr hl => ?_, fun hr hdone => ?_, rfl⟩
    · show execDigDataWrite w s = _
      unfold execDigDataWrite
      rw [if_neg (not_not.2 hd)]
      refine (if_pos hr).trans (if_neg fun h => hl ?_)
      simpa [late] using h
    · show execDigDataWrite w s = _
      unfold execDigDataWrite
      rw [if_neg (not_not.2 hd)]
      exact (if_pos hr).trans (if_pos (hlate hl))
    · show execDigDataWrite w s = _
      unfold execDigDataWrite
      rw [if_neg (not_not.2 hd)]
      exact (if_neg (by simp [show (digSettle s).dig.running = false from hr])).trans (if_pos hdone)
  case block =>
    intro s hr d
    exact ⟨fun hk => (if_neg (not_not.2 hr)).trans (if_pos hk),
      fun hk hf => (if_neg (not_not.2 hr)).trans ((if_neg (by simp [show s.dig.keying = false from hk])).trans (if_neg hf))⟩
  case finish =>
    intro s flags hr hf hk d r cut cmp same x
    show execDigFinish flags s = _
    unfold execDigFinish
    rw [if_pos (by simp [digFinishes, hr, hf, hk])]
    rfl
  case vendor =>
    intro s i src hgo a
    refine ⟨fun h1 h8 hb => ?_, fun h => ?_⟩
    · exact (if_neg (by simp [hgo])).trans (if_neg (not_or.2 ⟨Nat.one_le_iff_ne_zero.1 h1, not_or.2 ⟨Nat.not_le.2 h8, hb⟩⟩))
    · exact (if_neg (by simp [hgo])).trans (if_pos h)
  case owner =>
    intro s i hgo b
    exact ⟨fun h8 => (if_neg (by simp [hgo])).trans (if_neg (Nat.not_lt.2 h8)), fun h8 => (if_neg (by simp [hgo])).trans (if_pos h8)⟩
  case entry =>
    intro s t r role k v hg hv
    exact served_of_granted hg (fxExtend_of_length hv)
  case done =>
    intro s q rest hq a m
    refine ⟨?_, mrPerform_mrVal_same _ _, fun j hj => mrPerform_mrVal_other _ _ hj, mrPerform_log _ _⟩
    show execMrExtendDone s = _
    unfold execMrExtendDone
    rw [hq]
  case base =>
    intro s t r role k m d0 fault hb q
    exact ⟨fun hg => served_of_granted hg (startOp_of_canBegin hb _ _), fun c hg hm hw => served_of_granted hg (fxBaseActivate_of_canBegin hw hb) rfl hm⟩
  case module =>
    intro s t r role k m d0 fault hb n q
    exact ⟨fun hg => served_of_granted hg (startOp_of_canBegin hb _ _), fun hg => served_of_granted hg (startOp_of_canBegin hb _ _)⟩
  case floors =>
    intro s t r role v
    exact ⟨fun hg hr hc => served_of_granted hg (raiseFloor_done hc) rfl rfl hr, fun hg hr hc => served_of_granted hg (raiseFloor_done hc) rfl rfl hr⟩
  case boot =>
    intro s faults hr hd he u busy
    have hu : u.rst = s.rst := rst_noteDamaged _ _ _ _ _ _
    refine ⟨fun hp hm => congrArg ok ?_, fun hp hb ha hm => congrArg ok ?_⟩
    · refine (if_pos ⟨.inl ⟨hp, hm⟩, by simp [hr], hd, by simp [he]⟩).trans ?_
      show bootSlots faults.toNat (busy && decide (u.rst.phase ≠ .boot)) (bootOrder u busy) u = _
      rw [hu, hp, decide_eq_false (not_not.2 rfl), Bool.and_false]
    · refine (if_pos ⟨.inr ⟨hb, by simp [ha], hm, .inl hp⟩, by simp [hr], hd, by simp [he]⟩).trans ?_
      show bootSlots faults.toNat (busy && decide (u.rst.phase ≠ .boot)) (bootOrder u busy) u = _
      rw [hu, hp, hb]
      rfl

end Sys2Proof.Machine
end

section
/-!
Tamper conditions, adaptive clocking, GUARD and the evidence log (R643-R677).
-/
namespace Sys2Proof.Machine
variable {s t : State} {role k : Nat}

/-- A logged event leaves the tamper state. -/
@[simp] theorem tamper_logEvent (ty src act data : Nat) (s : State) : (logEvent ty src act data s).tamper = s.tamper := by
  unfold logEvent
  split <;> rfl

@[simp] theorem cond_setCond (s : State) (k : Nat) (c : Cond) : (s.setCond k c).cond k = c := Tab.look_put_same _ _ _ _

/-- An erase that starts is in progress for its condition (R650). -/
theorem tamperErase_tamper (code : Nat) (h : s.tamper.erasing = false) :
    (tamperErase code s).tamper.erasing = true ∧ (tamperErase code s).tamper.lastCond = code := by
  unfold tamperErase
  rw [if_neg (by simp [h])]
  exact ⟨rfl, rfl⟩

theorem tamper_ite_logEvent {p : Prop} [Decidable p] (ty src act data : Nat) (s : State) :
    (if p then s else logEvent ty src act data s).tamper = s.tamper := by
  split
  · rfl
  · exact tamper_logEvent _ _ _ _ _

/-- A condition that a sensor asserts anew is latched and shown, and then takes its response (R643-R648). -/
theorem condAssert_of_new {sensor : Nat} (h1 : 1 ≤ k) (hk : k ≤ 0x11) (hm : s.power.mode ≠ .guard) (ha : (s.cond k).asserted = false)
    (ho : chanOff s k sensor = false) :
    ∃ u : State, condAssert k sensor s = (if respE s k then tamperErase k u else u) ∧ (u.cond k).latched = true ∧ (u.cond k).sensor = sensor ∧
      (u.cond k).asserted = ! momentary k ∧ u.tamper.detDt = s.dt ∧ u.tamper.erasing = s.tamper.erasing := by
  unfold condAssert
  rw [if_neg (by omega), if_neg hm, if_neg (by simp [ha, ho])]
  extract_lets c e s1 hold quiet c2 s2 tamper s3 s4
  have htamper : s4.tamper = s3.tamper := tamper_ite_logEvent _ _ _ _ _
  have hcond : s4.cond k = c2 := by
    unfold State.cond
    rw [htamper]
    exact cond_setCond s1 k c2
  exact ⟨s4, rfl, by rw [hcond], by rw [hcond], by rw [hcond], by rw [htamper]; rfl, by rw [htamper]; rfl⟩

section Deassert
variable {code : Byte} {b : State} (ha : (s.cond code.toNat).asserted = true) (hm : s.power.mode ≠ .guard)
  (hb : settleEscalation code.toNat s = b)
include ha hm hb

/-- A condition asserted for less than 1 s deasserts outside GUARD, once an escalation that was due has run (R646, R647). -/
theorem execConditionDeassert_short (hs : decide (b.dt ≥ (b.cond code.toNat).since + sec 1) = false) :
    execConditionDeassert code s = ok (b.setCond code.toNat { b.cond code.toNat with asserted := false }) := by
  unfold execConditionDeassert
  dsimp only
  rw [if_neg (not_not.2 ha), if_neg hm, hb]
  simp only [hs, Bool.false_eq_true, if_false]

/-- One asserted for longer is logged as cleared (R646). -/
theorem execConditionDeassert_long (hs : decide (b.dt ≥ (b.cond code.toNat).since + sec 1) = true) :
    execConditionDeassert code s = ok (logEvent 0x04 code.toNat 0 (b.cond code.toNat).sinceLog
      (b.setCond code.toNat { b.cond code.toNat with asserted := false, sinceLog := 0 })) := by
  unfold execConditionDeassert
  dsimp only
  rw [if_neg (not_not.2 ha), if_neg hm, hb]
  simp only [hs, if_true]

end Deassert

/-- The evidence log's next entry is written (R664-R667): `x` is the log without it in its queue. -/
theorem evidence_written {e : LogEv} {x : State} (hfull : x.log.full = false) (hro : regionReadOnly x 12 = false)
    (hc : (writeEntry e x).log.count ≠ 4095) :
    (if x.log.full ∨ regionReadOnly x 12 then ok (vbatInc 13 { x with log := { x.log with full := true } })
     else if (writeEntry e x).log.count = 4095 ∧ ¬ (writeEntry e x).log.full then
       let y := writeEntry ⟨0x1F, 0, 0, rtcSec (writeEntry e x), rtcFrac (writeEntry e x), (writeEntry e x).dt, 0⟩ (writeEntry e x)
       ok { y with log := { y.log with full := true } }
     else ok (writeEntry e x)) = ok (writeEntry e x) := by
  rw [if_neg (by simp [hfull, hro]), if_neg (fun h => hc h.1)]

/-- The response of a condition is stored and logged; E erases at once where the condition is asserted (R648, R649). -/
theorem fxResponse_eq (code row : Nat) (v : Bytes) (hrow : row = 0x7010 + code) :
    fxResponse code t role v = (let u := logConfig 1 row 2 (t.setEnt row 2 v)
      if beNat v = 1 ∧ (u.cond code).asserted then ansOK (tamperErase code (logEvent 0x02 code 2 (u.cond code).sensor u)) else ansOK u) := by
  subst hrow
  rfl

theorem responseRange_of_not_zero {code : Nat} {v : Bytes} (h : beNat v ≠ 0) : responseRange code t v = true := by
  simp [responseRange, h]

theorem fxLogRoll_of_canBegin {v : Bytes} (hb : CanBegin t 0x7103 1 k) (hro : regionReadOnly (begun t 0x7103 1 role .none k) 12 = false) :
    let b := begun t 0x7103 1 role .none k
    let rolled := { b with log := { b.log with count := 0, full := false, baseSeq := b.log.seq, baseHead := some (logHead b) } }
    fxLogRoll t role v = ⟨0, handle t k,
      doneSlot k [] (writeEntry ⟨0x09, 0, 0, rtcSec rolled, rtcFrac rolled, rolled.dt, b.log.count⟩ rolled)⟩ := by
  intro b rolled
  unfold fxLogRoll
  rw [startOp_of_canBegin hb]
  dsimp only
  rw [if_neg (by simp [hro])]

theorem fxLogStatement_of_canBegin {v : Bytes} {b : State} (hb : CanBegin t 0x7102 2 k) (hbegun : begun t 0x7102 2 role .none k = b)
    (hl : b.power.lcs ≠ .retired) (hr : b.key.rootSt ≠ 5) (hroot : b.key.root ≠ []) :
    fxLogStatement t role v = ⟨0, handle t k, doneSlot k (logBody b ++ (idkSign (logBody b) b).1) (idkSign (logBody b) b).2⟩ := by
  unfold fxLogStatement
  rw [startOp_of_canBegin hb, hbegun]
  dsimp only
  rw [if_neg hl, if_neg (by simp [hr, hroot])]

/-- Settles O53. -/
theorem tamperAndEvidence : Obligations.TamperAndEvidence := by
  unfold Obligations.TamperAndEvidence
  refine ⟨?conditions, ?device, ?evidence, ?requests⟩
  case conditions =>
    intro s code sensor die crit n
    conv => zeta
    refine ⟨rfl, fun h1 hk hm ha ho he => ?_, fun h1 hk hm ha ho he hr => ?_,
      fun ha hm hs => execConditionDeassert_short ha hm rfl (decide_eq_false (Nat.not_le.2 hs)),
      fun ha hm hs => execConditionDeassert_long ha hm rfl (decide_eq_true hs), fun ha hm => ?_,
      fun ha hesc he ht hm => congrArg ok ?_, fun hd hp => ?_, fun hd hp => ?_, fun hp => if_neg hp⟩
    · obtain ⟨u, hu, hl, hsen, hast, hdet, -⟩ := condAssert_of_new h1 hk hm ha ho
      rw [hu, if_neg (by rw [he]; decide)]
      exact ⟨hl, hsen, hast, hdet⟩
    · obtain ⟨u, hu, -, -, -, -, hera⟩ := condAssert_of_new h1 hk hm ha ho
      rw [hu, if_pos he]
      exact tamperErase_tamper code.toNat (hera.trans hr)
    · exact (if_neg (not_not.2 ha)).trans ((if_pos hm).trans (congrArg ok (if_pos ha)))
    · exact if_neg (by simp [show (s.cond code.toNat).asserted = true from ha, show (s.cond code.toNat).escd = false from hesc,
        show respE s code.toNat = false from he, show s.cfg (0x7010 + code.toNat) 5 ≠ 0 from ht, hm])
    · exact (if_neg (not_not.2 hd)).trans (if_neg (Nat.ne_of_lt hp))
    · exact (if_neg (not_not.2 hd)).trans (if_pos hp)
  case device =>
    intro s means cut short unstable k v up down still a r learnt g watch
    refine ⟨fun hp => if_neg (by omega), fun h0 h1 => if_neg (by simp [h0, h1]), fun hm hv => ?_, fun hv => ?_,
      fun he hs h0 h1 => ?_, fun hl => ?_, fun hm => if_neg (not_not.2 hm)⟩
    · show execTmpZeroWrite v s = _
      unfold execTmpZeroWrite
      rw [if_pos ⟨hv, hm⟩]
    · show execTmpZeroWrite v s = _
      unfold execTmpZeroWrite
      rw [if_neg fun h => hv h.1]
    · refine (if_neg (by simp [he, hs, h0, h1])).trans ?_
      rw [apply_ite Host.Outcome.next]
    · show execLearnDone means unstable s = _
      unfold execLearnDone
      rw [hl]
  case evidence =>
    intro s e rest u w t open_
    refine ⟨fun hm hq hd => ?_, fun ⟨hm, hd, hf, hr⟩ hg hq hc => ?_, fun ⟨hm, hd, hf, hr⟩ hg hc => ?_, fun hm hd hg hq hf => ?_⟩
    · show execEvidenceEntryWrite s = _
      unfold execEvidenceEntryWrite
      rw [if_neg (by simp [hm, hq]), if_pos (by simp [hd])]
    · show execEvidenceEntryWrite s = _
      unfold execEvidenceEntryWrite
      rw [if_neg (by simp [hm, hq]), if_neg (not_not.2 hd), hg, hq]
      dsimp only
      rw [← hq]
      exact evidence_written hf hr hc
    · show execEvidenceEntryWrite s = _
      unfold execEvidenceEntryWrite
      rw [if_neg (by simp [hm, hg]), if_neg (not_not.2 hd), hg]
      dsimp only
      exact evidence_written hf hr hc
    · show execEvidenceEntryWrite s = _
      unfold execEvidenceEntryWrite
      rw [if_neg (by simp [hm, hq]), if_neg (not_not.2 hd), hg, hq]
      dsimp only
      rw [← hq]
      exact if_pos (Or.inl hf)
  case requests =>
    intro s t r role k code n v row stored b rb sb rolled signed acked
    have hrow : row = 0x7010 + (code.val + 1) := by simp only [row]; omega
    have hresponse (w : Bytes) := fxResponse_eq (t := t) (role := role) (code.val + 1) row w hrow
    refine ⟨fun hg => served_of_granted hg rfl rfl rfl rfl, fun hg hm hrg hv => ?weak, fun hg hm hv ha => ?erases,
      fun hg hm hb => served_of_granted hg (startOp_of_canBegin hb _ _) rfl hm, fun hg hm => served_of_granted hg rfl rfl hm,
      fun hg hm hrg hb hro => served_of_granted hg (fxLogRoll_of_canBegin hb hro) rfl hm hrg,
      fun hg hb hl hr hroot => served_of_granted hg (fxLogStatement_of_canBegin hb rfl hl hr hroot), fun hg => served_of_granted hg rfl⟩
    case weak =>
      have hfx := (hresponse v).trans (if_neg fun h => absurd (hv.symm.trans h.1) (by decide))
      exact served_of_granted hg hfx rfl hm hrg
    case erases =>
      have hfx := (hresponse v).trans (if_pos ⟨hv, ha⟩)
      exact served_of_granted hg hfx rfl hm (responseRange_of_not_zero (by rw [hv]; decide))

end Sys2Proof.Machine
end

section
/-!
Accesses on the fabric and the windows of the access table (R678-R703, R715).
-/
namespace Sys2Proof.Machine
variable {s : State}

theorem judged_granted {ini addr kind info : Nat} {prec pcv : Bool} (h : judge s ini addr kind = 0) :
    judged ini addr kind prec pcv info s = (0, s) := by
  unfold judged
  rw [h]
  rfl

theorem judged_fst (ini addr kind : Nat) (prec pcv : Bool) (info : Nat) (s : State) :
    (judged ini addr kind prec pcv info s).1 = judge s ini addr kind := rfl

/-- A refusal is recorded in the table of the address's die, and changes no unit, no memory and no key (R693). -/
theorem recordViolation_records {ini addr kind cause info : Nat} {prec pcv : Bool} {u : State}
    (h : recordViolation ini addr kind cause prec pcv info s = u) :
    u.unit = s.unit ∧ u.nvm = s.nvm ∧ u.key = s.key ∧ (u.actTab (judgeDie (addr / 2 ^ 32))).valid = true := by
  unfold recordViolation at h
  extract_lets d t b lower t1 b1 at h
  obtain ⟨hu, hn, hk⟩ : b1.unit = s.unit ∧ b1.nvm = s.nvm ∧ b1.key = s.key := by
    simp only [b1]
    split <;> exact ⟨rfl, rfl, rfl⟩
  split at h
  · next hval =>
    subst h
    exact ⟨hu, hn, hk, by rw [State.actTab_setActTab]; exact (Bool.and_eq_true_iff.1 hval).1⟩
  · subst h
    exact ⟨hu, hn, hk, congrArg ActTable.valid (Tab.look_put_same _ _ _ _)⟩

theorem fabricAccess_granted {ini addr kind len : Nat} {data : Bytes} (hi : issued ini = true) (hc : judge s ini addr kind = 0) :
    fabricAccess ini addr kind len data s = grantAcc ⟨ini, addr, decide (kind = 1), len, data⟩ s := by
  unfold fabricAccess
  dsimp only
  rw [if_neg (not_not.2 hi), judged_granted hc]
  exact if_pos rfl

/-- A refused access is recorded and answered without data: zeros to a read where nothing is mapped, and to the locked TAP (R692, R703). -/
theorem fabricAccess_refused {ini addr kind len : Nat} {data : Bytes} (hi : issued ini = true) (hc : judge s ini addr kind ≠ 0) :
    let m := refusalMarks s ini addr (decide (kind = 1))
    let g := judged ini addr kind m.1 m.2.1 m.2.2 s
    fabricAccess ini addr kind len data s =
      g.2.emit (.bus ini addr g.1 (if kind = 1 ∨ ¬ (g.1 = cUNMAPPED ∨ ini = 0x7F) then [] else zeros len)) := by
  intro m g
  unfold fabricAccess
  rw [if_neg (not_not.2 hi)]
  exact if_neg hc

section Grant
variable {a : StalledAcc}

theorem grantAcc_unavailable (hd : s.domReady (accDomain s a.addr) = false)
    (hst : (s.dom (accDomain s a.addr)).st = .retry ∨ (s.dom (accDomain s a.addr)).st = .fenced) :
    grantAcc a s = s.emit (.bus a.ini a.addr tDOMAIN_UNAVAILABLE []) := by
  unfold grantAcc
  dsimp only
  rw [if_neg (by simp [hd]), if_pos hst]

theorem grantAcc_waits (hd : s.domReady (accDomain s a.addr) = false) (hr : (s.dom (accDomain s a.addr)).st ≠ .retry)
    (hf : (s.dom (accDomain s a.addr)).st ≠ .fenced) (hw : (wakeFor (accDomain s a.addr) a.ini s).domReady (accDomain s a.addr) = false) :
    grantAcc a s = { wakeFor (accDomain s a.addr) a.ini s with act := { (wakeFor (accDomain s a.addr) a.ini s).act with
      stall := (wakeFor (accDomain s a.addr) a.ini s).act.stall ++ [a] } } := by
  unfold grantAcc
  dsimp only
  rw [if_neg (by simp [hd]), if_neg (not_or.2 ⟨hr, hf⟩), if_neg (by simp [hw])]

end Grant

/-- Settles O54. -/
theorem fabricAccesses : Obligations.FabricAccesses := by
  unfold Obligations.FabricAccesses
  refine ⟨?access, ?piece, ?windows, ?entries⟩
  case access =>
    intro s a ini addr kind m c g acc refused dom
    have granted (hi : issued ini = true) (hc : c = 0) {u : State} (hu : grantAcc acc s = u) : exec (.fabricAccess a) s = .next u :=
      congrArg ok ((fabricAccess_granted hi hc).trans hu)
    refine ⟨fun hi hc hd => granted hi hc (if_pos hd), fun hi hc hd hst => granted hi hc (grantAcc_unavailable hd hst),
      fun hi hc hd hr hf hw => granted hi hc (grantAcc_waits hd hr hf hw), fun hi hc => congrArg ok ?refused, fun hc => ?recorded⟩
    case refused =>
      have hrefused := fabricAccess_refused (len := a.len) (data := a.data) hi hc
      dsimp only at hrefused
      refine hrefused.trans (congrArg (fun b => g.2.emit (.bus ini addr c b)) ?_)
      refine if_congr ?_ rfl rfl
      simp only [refused, Bool.or_eq_true, decide_eq_true_eq, Bool.not_eq_true', Bool.or_eq_false_iff, decide_eq_false_iff_not, not_or]
      rfl
    case recorded =>
      exact recordViolation_records (if_neg hc).symm
  case piece =>
    intro s ini addr write done len data n c g
    have piece (hn : 1 ≤ n) (ha : addr.toNat % 64 + n ≤ 64) (hi : (issued ini.toNat = true ∧ ini.toNat < 0x60) ∨ ini = 0x78) :
        execDmaPiece ini addr write done len data s =
          if g.1 = 0 then ok (grantAcc ⟨ini.toNat, addr.toNat, write, n, data⟩ g.2) else ok (g.2.emit (.bus ini.toNat addr.toNat g.1 [])) :=
      if_neg (not_or.2 ⟨Nat.one_le_iff_ne_zero.1 hn, not_or.2 ⟨Nat.not_lt.2 ha, not_not.2 hi⟩⟩)
    refine ⟨fun hn ha hi hc => (piece hn ha hi).trans ((if_pos hc).trans ?_), fun hn ha hi hc => (piece hn ha hi).trans (if_neg hc)⟩
    rw [show g = (0, s) from judged_granted hc]
  case windows =>
    intro s die n w err
    refine ⟨fun hl he => congrArg ok (if_neg (by simp [show winLocked s ((s.actTab die.val).win n.val) = false from hl, show ((s.actTab die.val).win n.val).en = false from he])),
      fun h => congrArg ok (if_pos h), fun hl => congrArg ok (if_neg (by simp [show ((s.actTab die.val).win n.val).lock = false from hl])),
      fun hl => congrArg ok (if_pos hl), rfl⟩
  case entries =>
    intro s t r role v idx sub hg hrange
    refine ⟨fun h1 h2 => ?_, fun h1 h2 => ?_⟩
    · have hentry : exec (.accessWindowEntryWrite r) s = ok (serveWrite r idx sub always always (winEntRange idx sub) (fxWindow idx sub) s) :=
        if_pos (.inl ⟨h1, h2⟩)
      have hfx : fxWindow idx sub t role v = ansOK (applyHostWindow (idx - 0x7810) (storeEnt idx sub v t)) := congrArg ansOK (if_pos (by omega))
      exact hentry.trans (served_of_granted hg hfx rfl rfl hrange)
    · have hentry : exec (.accessWindowEntryWrite r) s = ok (serveWrite r idx sub always always (winEntRange idx sub) (fxWindow idx sub) s) :=
        if_pos (.inr ⟨h1, h2⟩)
      have hfx : fxWindow idx sub t role v = ansOK (storeEnt idx sub v t) := congrArg ansOK (if_neg (by omega))
      exact hentry.trans (served_of_granted hg hfx rfl rfl hrange)

end Sys2Proof.Machine
end

section
/-!
Mode requests, RETIRE and arming the debug access (R72, R725-R730).
-/
namespace Sys2Proof.Machine
variable {s t u : State} {r : Req} {role k : Nat} {d : Byte} {m : Mode} {data : Bytes}

theorem beNat_singleton (d : Byte) : beNat [d] = d.toNat := by simp [beNat]

/-- A write of 1100:05 that asks for the mode `m`, which the life-cycle state and the role allow. -/
structure AsksMode (s t : State) (r : Req) (role : Nat) (d : Byte) (m : Mode) : Prop where
  heard : Heard s (reqWith r [d]) 2 t role
  target : requestTarget t d.toNat = some m
  allowed : modeAllowed t.power.lcs m = true
  notMs : isMs r.tr = false
  right : requestRight t role d.toNat = true

/-- A request for the present mode is OK at once (R726). -/
theorem serveMode_same (h : AsksMode s t r role d m) (hd : d.toNat ≠ 0x0F) (hm : requestMode t = m) :
    serveMode (reqWith r [d]) s = replyIn t (reqWith r [d]) 2 0 [] t := by
  refine serve_of_heard h.heard h.notMs (a := ansOK t) ?_ rfl
  have hv : (if (reqWith r [d]).data.length = 1 then beNat (reqWith r [d]).data else 0) = d.toNat := beNat_singleton d
  dsimp only
  rw [hv, h.target]
  simp [h.allowed, h.right, hd, hm, show isMs (reqWith r [d]).tr = false from h.notMs, show (reqWith r [d]).offset = 0 from rfl]

/-- A request for another mode begins the change (R725, R726). -/
theorem serveMode_starts (h : AsksMode s t r role d m) (hm : ¬ (d.toNat ≠ 0x0F ∧ requestMode t = m)) (hfrom : requestFrom t d.toNat = true)
    (hp : changePending t = false) (hs : startMode [d] t role = ⟨0, data, u⟩) :
    serveMode (reqWith r [d]) s = replyIn t (reqWith r [d]) 2 0 data u := by
  refine serve_of_heard h.heard h.notMs (a := ⟨0, data, u⟩) ?_ rfl
  have hv : (if (reqWith r [d]).data.length = 1 then beNat (reqWith r [d]).data else 0) = d.toNat := beNat_singleton d
  dsimp only
  rw [hv, h.target]
  simp [h.allowed, h.right, hm, hfrom, hp, show isMs (reqWith r [d]).tr = false from h.notMs, show (reqWith r [d]).offset = 0 from rfl]
  exact hs

section Begin
variable (hb : CanBegin t 0x1100 5 k)
include hb

/-- The change that a value begins, but for the ceremonies' (R725). -/
theorem startMode_flip (hm : requestTarget (begun t 0x1100 5 role .none k) d.toNat = some m) (hcer : d ≠ 0x03)
    (hret : ¬ (d = 0x0F ∧ requestMode (begun t 0x1100 5 role .none k) = .ceremony)) :
    startMode [d] t role = ⟨0, handle t k, startFlip m.code (some k) (begun t 0x1100 5 role .none k)⟩ := by
  unfold startMode
  rw [startOp_of_canBegin hb]
  rw [if_neg (by simpa using hcer), if_neg (by simpa using hret), beNat_singleton, hm]

theorem startMode_ceremony :
    startMode [0x03] t role = ⟨0, handle t k, startEntryCeremony k role (begun t 0x1100 5 role .none k)⟩ := by
  unfold startMode
  rw [startOp_of_canBegin hb]
  rfl

theorem startMode_leaves (hm : requestMode (begun t 0x1100 5 role .none k) = .ceremony) :
    startMode [0x0F] t role = ⟨0, handle t k, cerLeave (some k) (begun t 0x1100 5 role .none k)⟩ := by
  unfold startMode
  rw [startOp_of_canBegin hb]
  rw [if_neg (by decide), if_pos ⟨rfl, hm⟩]

end Begin

/-- Settles O57. -/
theorem modeRequests : Obligations.ModeRequests := by
  unfold Obligations.ModeRequests
  refine ⟨?modes, ?retire, fun s end_ h => ?expiry⟩
  case modes =>
    intro s t r role k q b
    have asks (d : Byte) (m : Mode) (ht : requestTarget t d.toNat = some m) (hh : Heard s (reqWith r [d]) 2 t role)
        (ha : modeAllowed t.power.lcs m = true) (hm : isMs r.tr = false) (hr : requestRight t role d.toNat = true) : AsksMode s t r role d m :=
      ⟨hh, ht, ha, hm, hr⟩
    refine ⟨fun hh ha hm hr hne hf hp hb => congrArg ok (serveMode_starts (asks 0x04 .service rfl hh ha hm hr) (fun h => hne h.2) hf hp
        (startMode_flip (d := 0x04) hb rfl (by decide) (by simp))),
      fun hh ha hm hr he => congrArg ok (serveMode_same (asks 0x04 .service rfl hh ha hm hr) (by decide) he),
      fun hh ha hm hr hne hf hp hb => congrArg ok (serveMode_starts (asks 0x02 .bypass rfl hh ha hm hr) (fun h => hne h.2) hf hp
        (startMode_flip (d := 0x02) hb rfl (by decide) (by simp))),
      fun hh ha hm hr he => congrArg ok (serveMode_same (asks 0x02 .bypass rfl hh ha hm hr) (by decide) he),
      fun hh ha hm hr hne hf hp hb => congrArg ok (serveMode_starts (asks 0x09 .update rfl hh ha hm hr) (fun h => hne h.2) hf hp
        (startMode_flip (d := 0x09) hb rfl (by decide) (by simp))),
      fun hh ha hm hr he => congrArg ok (serveMode_same (asks 0x09 .update rfl hh ha hm hr) (by decide) he),
      fun hh ha hm hr hne hf hp hb => congrArg ok (serveMode_starts (asks 0x03 .ceremony rfl hh ha hm hr) (fun h => hne h.2) hf hp
        (startMode_ceremony hb)),
      fun hh ha hm hr he => congrArg ok (serveMode_same (asks 0x03 .ceremony rfl hh ha hm hr) (by decide) he),
      fun hh ha hm hr hf hp hb hcer => congrArg ok (serveMode_starts (asks 0x0F _ rfl hh ha hm hr) (fun h => h.1 rfl) hf hp
        (startMode_leaves hb hcer)),
      fun hh ha hm hr hf hp hb hcer => congrArg ok (serveMode_starts (asks 0x0F _ rfl hh ha hm hr) (fun h => h.1 rfl) hf hp
        (startMode_flip (d := 0x0F) hb rfl (by decide) (fun h => hcer h.2)))⟩
  case retire =>
    intro s t r role k q rb
    exact ⟨fun hg hl hm hb => served_of_granted hg (startOp_of_canBegin hb _ _) hl hm, fun hg => served_of_granted hg rfl⟩
  case expiry =>
    show execDebugArmExpiry s = _
    unfold execDebugArmExpiry
    rw [h]

end Sys2Proof.Machine
end

section
/-!
The bring-up of a device whose tamper erase goes on (R770).
-/
namespace Sys2Proof.Machine

/-- The mode is BRINGUP in phase RELEASE and no domain is on yet, but a tamper erase goes on. -/
def releaseWhileErasing : State :=
  { tSrv 4 .bringup with rst := { phase := .release }, tamper := { erasing := true }, power := { mode := .bringup, lcs := .owned } }

/-- A tamper erase stops the release of the domains (R770). -/
theorem execDomainReleaseNext_of_erasing {s : State} (h : s.tamper.erasing = true) : execDomainReleaseNext s = ok s :=
  if_pos (Or.inl (by simp [bringing, h]))

/-- Refutes O58: a tamper erase stops the bring-up at the step in progress (R770), so that in BRINGUP, with domain 1 next in the order and
off, no domain comes up while an erase goes on; the statement does not leave that state out. -/
theorem not_resets : ¬ Obligations.Resets := by
  unfold Obligations.Resets
  rintro ⟨-, h, -⟩
  obtain ⟨-, -, -, -, hnext, -⟩ := h releaseWhileErasing [] ⟨0, true, 0, 0, 0, false⟩ 0 0 0 1 (0, {})
  have hup := hnext (by decide +kernel) (by decide +kernel) (by decide +kernel) (by decide +kernel) (by decide +kernel) (by decide +kernel)
    (by decide +kernel)
  have hstays : exec .domainReleaseNext releaseWhileErasing = ok releaseWhileErasing :=
    execDomainReleaseNext_of_erasing (by decide +kernel)
  have hsame := Host.Outcome.next.inj (hstays.symm.trans hup)
  have hoff : (releaseWhileErasing.dom 1).st = .off := by decide +kernel
  rw [hsame, State.dom_setDom] at hoff
  cases hoff

end Sys2Proof.Machine
end

section
/-!
The test access port (R764, R765, R788).
-/
namespace Sys2Proof.Machine
variable {s : State} {code : Nat} {dr sig : Bytes}

theorem tapSelect_open (code : Nat) (dr : Bytes) (s : State) :
    tapSelect code true dr s = { s with tap := { s.tap with ir := code, dr := dr } } := rfl

theorem tapSelect_shut (code : Nat) (dr : Bytes) (s : State) :
    tapSelect code false dr s = { s with tap := { s.tap with ir := 0xFF, dr := [0] } } := rfl

theorem execTapUnlock_shut (h : tapArmed s = false) : execTapUnlock sig s = ok (tapSelect 0x11 false [] s) := by
  unfold execTapUnlock
  rw [if_pos (by simp [h])]

/-- The state in which a signature is judged: it is in the data register, and the arming is used. -/
def unlockTried (sig : Bytes) (s : State) : State :=
  { tapSelect 0x11 true sig s with tap := { (tapSelect 0x11 true sig s).tap with armedUntil := none, nonceDrawn := false } }

/-- Whether UNLOCK accepts a signature: over the challenge, with a nonce drawn, by the debug key (R765). -/
def unlockGood (sig : Bytes) (s : State) : Bool :=
  s.tap.nonceDrawn && decide (sig.length = 96) &&
    p384.ecdsaVerify debugKey (sha384 (ascii "SV6400 DEBUG" ++ s.tap.chal)) (beNat (sig.take 48)) (beNat (sig.drop 48))

/-- A good signature in OWNED: the device is erased and reset, and the port is unlocked (R47, R654). -/
def unlockOwned (used : State) : State :=
  let erased := systemReset 0x07 0 (finishSweeps (debugErase used))
  { erased with tap := { erased.tap with unlocked := true } }

theorem unlockOwned_eq {used e : State} (he : e = systemReset 0x07 0 (finishSweeps (debugErase used))) :
    unlockOwned used = { e with tap := { e.tap with unlocked := true } } := by
  unfold unlockOwned
  rw [← he]

/-- A good signature in another state but RETIRED: the port is unlocked, which MR7 takes (R623). -/
def unlockMeasured (s used : State) : State :=
  mrMeasure 7 10 0 (sha384 ([byte s.power.lcs.code] ++ serial s)) { used with tap := { used.tap with unlocked := true } }

/-- UNLOCK of an armed port by the life-cycle state (R765). -/
theorem execTapUnlock_armed (h : tapArmed s = true) {used : State} (hu : used = unlockTried sig s) :
    execTapUnlock sig s = ok (
      if ¬ unlockGood sig s then used.bump 0xB890 0x0B
      else if s.power.lcs = .owned then unlockOwned used
      else if s.power.lcs = .retired then used
      else unlockMeasured s used) := by
  subst hu
  unfold execTapUnlock
  rw [if_neg (by simp [h])]
  change (if ¬ unlockGood sig s then ok ((unlockTried sig s).bump 0xB890 0x0B) else match (unlockTried sig s).power.lcs with
    | .retired => ok (unlockTried sig s)
    | .owned => ok (unlockOwned _)
    | c => _) = _
  by_cases hg : unlockGood sig s = true
  · rw [if_neg (not_not_intro hg), if_neg (not_not_intro hg)]
    unfold unlockMeasured
    have hl : (unlockTried sig s).power.lcs = s.power.lcs := rfl
    rw [hl]
    cases s.power.lcs with
    | owned =>
      rw [if_pos rfl]
      exact congrArg (fun u => ok (unlockOwned u)) rfl
    | blank | vendor | fa | retired => rfl
  · rw [if_pos hg, if_pos hg]

/-- An unlocked FABRIC access leaves in the data register what the bus brought (R764). -/
theorem execTapFabric_unlocked (h : s.tap.unlocked = true) (addr : BitVec 40) (write : Bool) (w : Word) :
    let a := tapSelect 0x20 true (beBytes w.toNat 4) s
    let u := fabricAccess 0x7F addr.toNat (b2n write) 4 (beBytes w.toNat 4) a
    execTapFabric addr write w s = ok (if write then u else { u with tap := { u.tap with dr := match u.out with
      | .bus _ _ _ d :: _ => if u.out.length = a.out.length then u.tap.dr else fit d 4
      | _ => u.tap.dr } }) := by
  intro a u
  unfold execTapFabric
  rw [if_neg (by simp [h])]
  change (match u.out with
    | .bus _ _ _ d :: _ => ok (if write ∨ u.out.length = a.out.length then u else { u with tap := { u.tap with dr := fit d 4 } })
    | _ => ok u) = _
  split
  next _ _ _ d _ ho =>
    cases write
    · by_cases hl : u.out.length = a.out.length
      · simp [hl]
      · simp [hl]
    · simp
  next hno =>
    cases write
    · simp
    · simp

/-- Settles O59. -/
theorem testAccessPort : Obligations.TestAccessPort := by
  unfold Obligations.TestAccessPort
  intro s v sig addr write w sel shut n c x used good erased opened a u read
  refine ⟨fun h => ?extest, fun h => ?extestShut, rfl, rfl, fun h => ?chal, fun h => ⟨?chalShut, execTapUnlock_shut h⟩,
    fun h => ?unlock, fun h => execTapFabric_unlocked h addr write w, fun h => ?fabricShut, fun h => ?sysreset,
    fun h => ?sysresetShut, rfl⟩
  case extest =>
    show execTapExtest v s = _
    unfold execTapExtest
    rw [h]
    rfl
  case extestShut =>
    show execTapExtest v s = _
    unfold execTapExtest
    rw [h]
    rfl
  case chal =>
    show execTapChal s = _
    unfold execTapChal
    rw [if_neg (by simp [h])]
    rfl
  case chalShut =>
    show execTapChal s = _
    unfold execTapChal
    rw [if_pos (by simp [h])]
    rfl
  case unlock =>
    have herased : unlockOwned used = { erased with tap := { erased.tap with unlocked := true } } :=
      unlockOwned_eq rfl
    rw [← herased]
    exact execTapUnlock_armed (used := used) h rfl
  case fabricShut =>
    show execTapFabric addr write w s = _
    unfold execTapFabric
    rw [if_pos (by simp [h])]
    rfl
  case sysreset =>
    show execTapSysreset s = _
    unfold execTapSysreset
    rw [if_pos h]
    rfl
  case sysresetShut =>
    show execTapSysreset s = _
    unfold execTapSysreset
    rw [if_neg (by simp [h])]
    rfl

end Sys2Proof.Machine
end

section
/-!
The MRAM controller, counters and fuses, and register writes (R775-R794).
-/
namespace Sys2Proof.Machine
variable {s t : State} {j : NvmJob} {rest : List NvmJob}

/-- Whether the interface of a job is busy. -/
def portBusy (s : State) (j : NvmJob) : Bool := if isOwnerJob j then s.nvm.owner.busy else s.nvm.base.busy

theorem setPort_waiting (b : Bool) (x y : NvmPort) (s : State) :
    (if b then { s with nvm := { s.nvm with owner := x } } else { s with nvm := { s.nvm with base := y } } : State).nvm.waiting =
      s.nvm.waiting := by
  cases b <;> rfl

theorem markNvm_waiting (busy : Bool) (s : State) : (markNvm j busy s).nvm.waiting = s.nvm.waiting := by
  unfold markNvm
  refine (setPort_waiting (isOwnerJob j) _ _ _).trans ?_
  cases busy
  · rfl
  · rfl

/-- A command that finds the controller free runs at once (R778). -/
theorem startNvm_free (hd : s.domReady 4 = true) (hb : portBusy s j = false) (hw : s.nvm.waiting = []) :
    startNvm j s = ok (runNvmJob j { markNvm j true s with nvm := { (markNvm j true s).nvm with waiting := [j] } }) := by
  unfold startNvm
  rw [if_neg (not_not_intro hd), if_neg (by simpa [portBusy] using hb)]
  dsimp only
  rw [markNvm_waiting, hw]

/-- A command that finds the controller running waits behind those of its rank and the ranks before it (R778). -/
theorem startNvm_waits {h : NvmJob} (hd : s.domReady 4 = true) (hb : portBusy s j = false) (hw : s.nvm.waiting = h :: rest) :
    startNvm j s = ok { markNvm j true s with nvm := { (markNvm j true s).nvm with
      waiting := h :: (rest.filter (fun i => decide (i.rank ≤ j.rank)) ++ [j] ++ rest.filter (fun i => decide (j.rank < i.rank))) } } := by
  unfold startNvm
  rw [if_neg (not_not_intro hd), if_neg (by simpa [portBusy] using hb)]
  dsimp only
  rw [markNvm_waiting, hw]

theorem execNvmCommandDone_last (hw : s.nvm.waiting = [j]) :
    execNvmCommandDone s = ok (markNvm j false { s with nvm := { s.nvm with waiting := [] } }) := by
  unfold execNvmCommandDone
  rw [hw]

theorem execNvmCommandDone_next {next : NvmJob} (hw : s.nvm.waiting = j :: next :: rest) :
    execNvmCommandDone s = ok (runNvmJob next (markNvm j false { s with nvm := { s.nvm with waiting := next :: rest } })) := by
  unfold execNvmCommandDone
  rw [hw]

theorem setOrGuard_owner (k : Nat) (g : OpenRegion) (s : State) : (setOrGuard k g s).nvm.owner = s.nvm.owner := by
  unfold setOrGuard
  split <;> rfl

/-- The right password opens the region (R784). -/
theorem runOrUnlock_opens (hl : (orGuard s (orRegion s)).locked = false) (hp : s.nvm.owner.pwd = orPassword s (orRegion s)) :
    runOrUnlock s =
      let x := setOrGuard (orRegion s) { orGuard s (orRegion s) with unlocked := true, failures := 0 } s
      { x with nvm := { x.nvm with owner := { x.nvm.owner with err := 0 } } } := by
  unfold runOrUnlock
  dsimp only
  rw [if_neg (by simp [hl]), if_pos hp]
  rfl

/-- The eighth failure in a row locks the region (R784). -/
theorem runOrUnlock_locks (hl : (orGuard s (orRegion s)).locked = false) (hp : s.nvm.owner.pwd ≠ orPassword s (orRegion s))
    (hf : 7 ≤ (orGuard s (orRegion s)).failures) :
    runOrUnlock s =
      let x := setOrGuard (orRegion s) { orGuard s (orRegion s) with failures := (orGuard s (orRegion s)).failures + 1, locked := true } s
      { x with nvm := { x.nvm with owner := { x.nvm.owner with err := 6 } } } := by
  have h8 : (orGuard s (orRegion s)).failures + 1 ≥ 8 := by omega
  unfold runOrUnlock
  dsimp only
  rw [if_neg (by simp [hl]), if_neg hp, if_pos h8, decide_eq_true h8]
  rfl

/-- The state in which a burn has ended, with its DENIED and VERIFY. -/
def burnShown (x : State) (denied verify : Bool) : State :=
  { x with nvm := { x.nvm with fusDone := true, fusVerify := verify, fusDenied := denied } }.noteSet (regKey 2 0x0F0C0008) (2 ^ 30)

theorem execFuseBurn_burns {stuck : Word} (hd : s.domReady 4 = true) (hw : bits s.nvm.fusCtrl 9 0 ≤ 2 ∨ (64 ≤ bits s.nvm.fusCtrl 9 0 ∧ bits s.nvm.fusCtrl 9 0 ≤ 223)) :
    let b := burnFuse (bits s.nvm.fusCtrl 9 0) s.nvm.fusData stuck.toNat s
    execFuseBurn true stuck s = ok (burnShown b.2 false (! b.1)) := by
  intro b
  unfold execFuseBurn
  rw [if_neg (not_not_intro hd)]
  dsimp only
  rw [if_pos ⟨rfl, hw⟩]
  rfl

theorem execFuseBurn_denied {keyDie : Bool} {stuck : Word} (hd : s.domReady 4 = true)
    (hw : ¬ (keyDie = true ∧ (bits s.nvm.fusCtrl 9 0 ≤ 2 ∨ (64 ≤ bits s.nvm.fusCtrl 9 0 ∧ bits s.nvm.fusCtrl 9 0 ≤ 223)))) :
    execFuseBurn keyDie stuck s = ok (burnShown s true false) := by
  unfold execFuseBurn
  rw [if_neg (not_not_intro hd)]
  dsimp only
  rw [if_neg hw]
  rfl

/-- What a burn leaves in its word (R786). -/
theorem burnFuse_fuse (w v stuck : Nat) (s : State) : (burnFuse w v stuck s).2.fuse w = s.fuse w ||| (v - (v &&& stuck)) := by
  unfold burnFuse State.fuse
  dsimp only
  rw [Tab.look_place_same]
  rfl

/-- Settles O60. -/
theorem nonVolatileMemory : Obligations.NonVolatileMemory := by
  unfold Obligations.NonVolatileMemory
  refine ⟨?controller, ?requests, fun s die off v h => ?write⟩
  case controller =>
    intro s ini fails bad corr w j rest start line popped g own word burnt shown
    refine ⟨fun hd hb hw => startNvm_free hd hb hw, fun hd hb hw => startNvm_waits hd hb hw,
      fun hd hb hw => startNvm_free hd hb hw, fun hd hb hw => startNvm_waits hd hb hw,
      fun hd hb hw => startNvm_free hd hb hw, fun hd hb hw => startNvm_waits hd hb hw,
      fun hd hb hw => startNvm_free hd hb hw, fun hd hb hw => startNvm_waits hd hb hw,
      fun hd hb hw => startNvm_free hd hb hw, fun hd hb hw => startNvm_waits hd hb hw,
      fun hd hb hw => startNvm_free hd hb hw, fun hd hb hw => startNvm_waits hd hb hw,
      fun hd hb hw => startNvm_free hd hb hw, fun hd hb hw => startNvm_waits hd hb hw,
      fun hd hb hw => startNvm_free hd hb hw, fun hd hb hw => startNvm_waits hd hb hw,
      fun hd hb hw => startNvm_free hd hb hw, fun hd hb hw => startNvm_waits hd hb hw,
      fun hw hr => ?last, fun nx more hw hr => ?next,
      runOrUnlock_opens, runOrUnlock_locks, rfl, fun hd hw => ?burns,
      fun hd hw => execFuseBurn_denied hd (fun h => hw h.2), fun hd => execFuseBurn_denied hd (fun h => Bool.false_ne_true h.1),
      burnFuse_fuse word s.nvm.fusData w s⟩
    case last =>
      subst hr
      exact execNvmCommandDone_last hw
    case next =>
      subst hr
      exact execNvmCommandDone_next hw
    case burns =>
      have h := execFuseBurn_burns (stuck := BitVec.ofNat 32 w) hd hw
      rw [BitVec.toNat_ofNat] at h
      exact h
  case requests =>
    intro s t r role k fails v stuck c u b
    refine ⟨fun hg ho hc => served_of_granted hg (if_pos hc) rfl rfl ho, fun hg ho hc => served_of_granted hg (if_pos hc) rfl rfl ho,
      fun hg ho hc => served_of_granted hg (if_neg (by simp [c, hc])) rfl rfl ho, fun hg hb hl h3 h63 => ?fuse⟩
    case fuse =>
      refine served_of_granted hg ((startOp_of_canBegin hb _ _).trans ?_)
      dsimp only
      rw [if_neg (by omega)]
  case write =>
    exact if_pos h

end Sys2Proof.Machine
end
